-- ==== Sys2Proof/Word.lean ====
section
/-! DEFINITION. The plain word types of the device: bytes, 32 and 64 bit registers, 64-byte command packets. -/
namespace Sys2Proof

/-- One byte of a store, a packet or a frame. -/
abbrev Byte := BitVec 8

/-- A 32-bit register or ring count. -/
abbrev Word32 := BitVec 32

/-- A 64-bit register. -/
abbrev Word64 := BitVec 64

/-- A command packet of 64 bytes (R66), byte 0 in bits 7 to 0 (R3). -/
abbrev Packet := BitVec 512

end Sys2Proof
end

