-- ==== Sys2Proof/Syntax.lean ====
section
/-! DEFINITION. The commands of the block: one constructor for each row of spec/opcode_table.json, with the row's operands.

Rows that are packet opcodes name the held packet they run and carry what the host or a unit answered during them; rows that are events carry what the environment supplies (bytes received, values measured, which port or timer). -/
namespace Sys2Proof

/-- The held packet that a packet row runs (its slice, its ring and its number among the packets that ring has given), the bytes that its host reads return, whether its host accesses all succeed, and values that a unit supplies. -/
structure Cmd where
  slice : Nat := 0
  ring : Nat := 0
  index : Nat := 0
  data : List Byte := []
  ok : Bool := true
  obs : List Nat := []
  deriving DecidableEq, Repr

/-- A submission ring entry as host memory returns it: ring, free-running index, packet. -/
structure HostEntry where
  ring : Nat
  index : Nat
  pkt : Packet
  deriving DecidableEq, Repr

/-- A host queue descriptor as host memory returns it, and for transmit the frame bytes it names (R278). -/
structure HostDesc where
  queue : Nat
  index : Nat
  addr : Nat
  length : Nat
  flags : Nat := 0
  ok : Bool := true
  data : List Byte := []
  deriving DecidableEq, Repr

/-- Bytes of host memory that an engine reads: which stream, and the bytes. -/
structure HostBytes where
  stream : Nat
  data : List Byte
  ok : Bool := true
  deriving DecidableEq, Repr

/-- What makes a Reservoir request (R125): a layer slot, a decode context by its source, an encode session and its capture, a DisplayPort input, a flow rule, a host queue, an import by its source, an export, the transit rings, an audio stream, a haptic channel, a host transfer or Sluice batch work of a slice, and the Reservoir's and Lockkeeper's own work. -/
inductive Requester where
  | layer (slot : Nat)
  | decode (source : Nat)
  | encode (session : Nat)
  | capture (session : Nat)
  | dpin (input : Nat)
  | flow (rule : Nat)
  | queue (number : Nat)
  | imported (source : Nat)
  | exported (number : Nat)
  | transit
  | audio (stream : Nat)
  | haptic (channel : Nat)
  | host (slice : Nat)
  | batch (slice : Nat)
  | zeroFill
  | scrub
  | lockkeeper
  deriving DecidableEq, Repr

/-- A Reservoir request of at most one 256-byte unit that is pending at an arbiter (R125): who makes it, the address, the bytes written or the length read, and the handle it names, if any. -/
structure MemReq where
  requester : Requester
  write : Bool
  addr : Nat
  length : Nat
  data : List Byte
  handle : Nat := 0
  deriving DecidableEq, Repr

/-- A device behind a Toden port, as the fabric reports it: device ID, its parent's ID and port on the tree, links away, address. -/
structure TreeDev where
  id : Nat
  parent : Nat
  port : Nat
  hops : Nat
  addr : Nat := 0
  deriving DecidableEq, Repr

/-- A symbol error of a DisplayPort input: the lane, and whether it is of disparity (R287, R355). -/
structure DpSymbol where
  input : Nat
  lane : Nat
  disparity : Bool
  deriving DecidableEq, Repr

/-- A lane of a Toden port: data lane 0 to 3, or 4 for the timing lane (R326, R355). -/
structure TodenLane where
  port : Nat
  lane : Nat
  deriving DecidableEq, Repr

/-- Where in the current tick a mark arrives, in ps, and the FINE that came with it (R333, R336). -/
structure MarkPhase where
  fine : Nat
  sub : Nat
  deriving DecidableEq, Repr

/-- Main Stream Attributes of a DisplayPort input frame (R285, R286). -/
structure Msa where
  hActive : Nat
  vActive : Nat
  hTotal : Nat
  vTotal : Nat
  /-- Bits per component. -/
  bpc : Nat
  /-- 0 RGB, 1 YCbCr 4:2:2, 2 YCbCr 4:4:4, other values are not supported. -/
  encoding : Nat
  interlaced : Bool
  /-- Pixel rate, kpix/s. -/
  rate : Nat
  deriving DecidableEq, Repr

/-- What the parameter sets of a picture declare (R233 to R235). -/
structure SeqInfo where
  h265 : Bool
  /-- profile_idc or general_profile_idc, constraint_set1_flag, compatibility with Main and Main 10. -/
  profile : Nat
  constraint1 : Bool
  compatMain : Bool
  compatMain10 : Bool
  /-- level_idc or general_level_idc; High tier. -/
  level : Nat
  highTier : Bool
  interlaced : Bool
  /-- chroma_format_idc, and luma and chroma bit depth. -/
  chroma : Nat
  depth : Nat
  depthC : Nat
  /-- Coded size in luma samples; cropped size, left and top offsets. -/
  codedW : Nat
  codedH : Nat
  width : Nat
  height : Nat
  cropLeft : Nat
  cropTop : Nat
  /-- Reference pictures the sequence needs, CTU height, tile columns. -/
  refs : Nat
  ctu : Nat
  tileCols : Nat
  deriving DecidableEq, Repr

/-- What a decode core reads of a picture before its first row: parameter sets, picture order count, H.264 frame_num and its modulus, references named, pictures that stay marked for reference, pictures that await output, and a frame_num gap (R237, R242, R243). -/
structure PicInfo where
  seq : SeqInfo
  poc : Int
  frameNum : Nat
  maxFrameNum : Nat
  refs : List Int
  keep : List Int
  await : List Int
  gap : Bool
  deriving DecidableEq, Repr

/-- A CTU or macroblock row that a decode core has finished (R238). -/
structure DecodedRow where
  /-- Luma samples of the lines that the row makes final, and Cb, Cr alternately of their chroma lines. -/
  luma : List (List Nat)
  chroma : List (List Nat)
  /-- A syntax error or value out of range in the row (R244), and the CTU columns from a fault to the next decodable slice start. -/
  damaged : Bool
  fills : List (Nat × Nat)
  /-- The received bytes ran out at a CTU boundary of the row, after so many of its CTUs: the picture is suspended and no row is finished (R240). -/
  starved : Bool
  ctus : Nat
  /-- Lines of pictures read as references: picture order count, first line, lines (R108, R150). -/
  reads : List (Int × Nat × Nat)
  /-- Decode time of the row in µs (R250). -/
  us : Nat
  deriving DecidableEq, Repr

/-- A row that an encode core has coded (R257): its bits, the bytes of the slice so far finished, access unit delimiter and parameter sets of the picture, the weights of this and later rows where the motion search gives none, and the inter CUs of the row: column, line, size. -/
structure CodedRow where
  bits : Nat
  bytes : List Byte
  head : List Byte
  weights : List Nat
  cus : List (Nat × Nat × Nat)
  /-- Reconstructed lines in P010: luma, then chroma (R255). -/
  luma : List (List Byte)
  chroma : List (List Byte)
  deriving DecidableEq, Repr

/-- The commands. -/
inductive Instr where
  /-- POWER_INPUT_IN_RANGE (R416): The 12 V input enters its operating range and the start-up sequence begins. -/
  | powerInputInRange
  /-- POWER_INPUT_FALL (R457): The input stays below 10.8 V for 20 µs; this is a 12 V cycle that removes every rail, the fault store included. -/
  | powerInputFall
  /-- RST_N_ASSERT (R426): RST_N stays low for 1 µs after its glitch filter and starts a device reset. -/
  | rstNAssert
  /-- PERST_N_ASSERT (R426): Assertion of PERST_N starts a device reset. -/
  | perstNAssert
  /-- PERST_N_RELEASE (R416): Release of PERST_N starts the 120 ms limit within which configuration requests are answered. -/
  | perstNRelease
  /-- PCIE_HOT_RESET (R426): A PCI Express hot reset starts a device reset. -/
  | pcieHotReset
  /-- PCIE_LINK_UP (R352): The PCI Express link reaches L0; headless status and any remote claim end. -/
  | pcieLinkUp
  /-- LOCKED_CLOCKS_RELEASE (R42): Headwater releases the locked clocks during start-up and WP starts at 0:0.0. -/
  | lockedClocksRelease
  /-- BOOT_ROM_VERIFY_COMPLETE (R421): The boot ROM finishes checking the images and starts Lockkeeper from a passing bank, or enters BOOT_FAILED. -/
  | bootRomVerifyComplete (aFail bFail : Nat)
  /-- STORE_TRAINING_COMPLETE (R416): Lockkeeper finishes training the Reservoir, or training fails and the device enters DEVICE_FAULT. -/
  | storeTrainingComplete (ok : Bool)
  /-- STARTUP_ZERO_FILL_COMPLETE (R418): The zero-fill of the whole stack completes; an uncorrectable word that a rewrite does not clear leads to DEVICE_FAULT. -/
  | startupZeroFillComplete (ok : Bool)
  /-- DEVICE_READY (R419): Lockkeeper sets every subsystem to its reset state and STATE becomes READY. -/
  | deviceReady
  /-- TRIAL_BOOT_TIMEOUT (R430): A TRIAL image that neither reaches READY nor runs again within 2 s is set INVALID and the PREVIOUS bank boots. -/
  | trialBootTimeout
  /-- LOCKKEEPER_WATCHDOG_EXPIRY (R423): A management processor misses its 250 ms service and Lockkeeper is reset. -/
  | lockkeeperWatchdogExpiry (processor : Nat)
  /-- LOCKKEEPER_RESTART_COMPLETE (R423): Lockkeeper runs again after its image is verified again, and owed final replies are sent. -/
  | lockkeeperRestartComplete (fail : Nat)
  /-- RAIL_OUT_OF_TOLERANCE (R424): An in-package rail stays out of tolerance for 1 ms and the device enters DEVICE_FAULT. -/
  | railOutOfTolerance (rail : Nat)
  /-- LOCKKEEPER_MEMORY_ECC (R424): An uncorrectable error in Lockkeeper's code or data memory puts the device into DEVICE_FAULT. -/
  | lockkeeperMemoryEcc
  /-- THERMAL_SENSOR_CROSSING (R425): A junction sensor reaches 95 °C, or all sensors fall below 90 °C, and EV_THERMAL is posted. -/
  | thermalSensorCrossing (temps : List Int)
  /-- THERMAL_TRIP (R425): A sensor reaches 115 °C and power is removed from everything but Platform within 1 ms. -/
  | thermalTrip (temps : List Int)
  /-- DEVICE_RESET_DELAY_EXPIRY (R435): 10 ms after the DEVICE_RESET reply, the device reset starts. -/
  | deviceResetDelayExpiry
  /-- FW_ACTIVATE_RESTART_DELAY (R434): 10 ms after an FW_ACTIVATE with MODE 1 replies, Lockkeeper restarts from the TRIAL bank. -/
  | fwActivateRestartDelay
  /-- SQ_TAIL_DOORBELL (R62): A write to SQ_TAIL announces packets, or is ignored with EV_RING_ERROR if it is out of range. -/
  | sqTailDoorbell (slice ring tail : Nat)
  /-- RING_ENABLE_WRITE (R60): A write to a ring's CTRL.ENABLE enables it with HEAD, TAIL and the tag window reset, or refuses with ERROR set, or disables it. -/
  | ringEnableWrite (slice which value : Nat)
  /-- RING_ERROR_CLEAR (R59): A W1C write clears a ring's ERROR bit. -/
  | ringErrorClear (slice which : Nat)
  /-- RQ_HEAD_WRITE (R77): Software consumes replies; room returns and intake and held replies resume. -/
  | rqHeadWrite (slice head : Nat)
  /-- EQ_HEAD_WRITE (R80): Software consumes events; room returns and EV_EVENTS_LOST and pending liveness events are written. -/
  | eqHeadWrite (slice head : Nat)
  /-- PACKET_FETCH (R74): The device takes the next startable packet from a slice's rings and checks it in the order of R68. -/
  | packetFetch (slice : Nat) (host : List HostEntry) (errs : List Nat) (ios : List Cmd)
  /-- INTERRUPT_HOLDOFF_EXPIRY (R63): The HOLDOFF interval ends and a pending ring interrupt is raised. -/
  | interruptHoldoffExpiry (slice which : Nat)
  /-- ARMED_COMMAND_ACTS (R70): An armed timed command reaches its WP_DUE, acts and replies. -/
  | armedCommandActs (c : Cmd)
  /-- NOP (R84): Replies ST_OK once Lockkeeper executes it. -/
  | nop (c : Cmd)
  /-- SURFACE_ALLOC (R129): Creates a zeroed surface with its pitch and handle. -/
  | surfaceAlloc (c : Cmd)
  /-- SURFACE_RELEASE (R121): Bumps the generation and frees the storage at once, or defers the free. -/
  | surfaceRelease (c : Cmd)
  /-- SURFACE_RELEASE_COMPLETE (R121): At the first wall frame boundary after its conditions hold, a deferred release frees the storage and replies, or posts EV_SURFACE_RELEASED. -/
  | surfaceReleaseComplete (handle : Nat)
  /-- SURFACE_WRITE (R131): The queue engine copies or marks lines of a surface in pass order. -/
  | surfaceWrite (c : Cmd)
  /-- SURFACE_READ (R132): Copies lines of a surface to a destination and reports whether they form one consistent pass. -/
  | surfaceRead (c : Cmd)
  /-- SURFACE_FENCE (R133): Waits for a WRITTEN or UNLATCHED condition on a surface. -/
  | surfaceFence (c : Cmd)
  /-- SURFACE_FENCE_MET (R133): The awaited condition comes true and the fence sends its final reply. -/
  | surfaceFenceMet (c : Cmd)
  /-- SURFACE_FENCE_TIMEOUT (R133): TIMEOUT wall frames pass and the fence replies ST_TIMEOUT. -/
  | surfaceFenceTimeout (c : Cmd)
  /-- PALETTE_LOAD (R139): Writes entries of a layer's pending palette. -/
  | paletteLoad (c : Cmd)
  /-- LAYER_SET (R162): Writes the pending descriptor of a slot, claiming the slot if it is empty. -/
  | layerSet (c : Cmd)
  /-- LAYER_CLEAR (R184): Empties a slot, through the owner's next commit or, for the manager, at the next boundary. -/
  | layerClear (c : Cmd)
  /-- COMMIT (R173): The queue engine snapshots a slice's pending slots into a checked commit record for a target boundary. -/
  | commit (c : Cmd)
  /-- COMMIT_GROUP_DEFINE (R185): Moves outputs between commit groups and sets GROUP_HOLD, HOLD_FRAMES and PLACE_MASK from the next boundary. -/
  | commitGroupDefine (c : Cmd)
  /-- COEFF_LOAD (R193): Loads or clears a scaler coefficient set, effective from the next boundary. -/
  | coeffLoad (c : Cmd)
  /-- BANK_ASSIGN (R186): Sets which outputs Left Bank carries, effective from the next boundary. -/
  | bankAssign (c : Cmd)
  /-- OUTPUT_CONFIGURE (R208): Stores an output's timing and link settings and makes it DISABLED. -/
  | outputConfigure (c : Cmd)
  /-- OUTPUT_ENABLE (R209): Arms the start of a DISABLED output. -/
  | outputEnable (c : Cmd)
  /-- OUTPUT_ENABLE_START (R209): At the output frame start after the boundary the sequencer starts TRAINING and the command replies ST_DEFERRED. -/
  | outputEnableStart (output : Nat)
  /-- OUTPUT_ENABLE_TIMEOUT (R209): 2 s pass without RUNNING; the command replies ST_TIMEOUT and the output stays LINK_DOWN. -/
  | outputEnableTimeout (output : Nat)
  /-- OUTPUT_DISABLE (R210): Arms the stop of an enabled output. -/
  | outputDisable (c : Cmd)
  /-- OUTPUT_DISABLE_ACT (R210): At the frame start the link powers down, latches are released and the command replies. -/
  | outputDisableAct (output : Nat)
  /-- RECT_CHECK_SET_SET (R216): Creates or replaces a rectangle, effective from the next boundary. -/
  | rectCheckSetSet (c : Cmd)
  /-- RECT_CHECK_SET_REMOVE (R216): Removes a rectangle at the next boundary. -/
  | rectCheckSetRemove (c : Cmd)
  /-- RECT_CHECK_SET_REARM (R216): Clears a rectangle's latch and FAILURES at the next boundary. -/
  | rectCheckSetRearm (c : Cmd)
  /-- RECT_CHECK_SET_READ (R216): Returns a rectangle's result record. -/
  | rectCheckSetRead (c : Cmd)
  /-- SELF_REFRESH_REQUEST (R220): Grants or revokes self-refresh for an eDP output. -/
  | selfRefreshRequest (c : Cmd)
  /-- BANK_REHEARSE (R230): Moves every output of a bank through the takeover path to the other bank. -/
  | bankRehearse (c : Cmd)
  /-- BANK_REHEARSE_END (R230): After FRAMES wall frames the outputs return to the vacated bank and the final reply is sent. -/
  | bankRehearseEnd
  /-- SOURCE_ATTACH (R248): Creates a ledger entry with its context and buffers. -/
  | sourceAttach (c : Cmd)
  /-- SOURCE_DETACH (R249): Withdraws an entry and ends its intake, export and buffers. -/
  | sourceDetach (c : Cmd)
  /-- FLOW_SET_PORT (R282): Configures an Ethernet port. -/
  | flowSetPort (c : Cmd)
  /-- FLOW_SET_RULE (R282): Writes a classifier rule. -/
  | flowSetRule (c : Cmd)
  /-- FLOW_SET_BIND (R282): Binds a disabled rule to a decoded source and allocates its coded buffer. -/
  | flowSetBind (c : Cmd)
  /-- FLOW_SET_QUEUE (R282): Configures a host queue. -/
  | flowSetQueue (c : Cmd)
  /-- FLOW_SET_TRANSMIT (R282): Enables or disables an RTP transmit stream over an encode session's ring. -/
  | flowSetTransmit (c : Cmd)
  /-- DPIN_CONFIGURE (R289): Enables or disables a DisplayPort input, sets its limits and loads its EDID. -/
  | dpinConfigure (c : Cmd)
  /-- DECODE_STATUS (R250): Returns a decode context's record. -/
  | decodeStatus (c : Cmd)
  /-- ENCODE_OPEN (R266): Opens an encode session with its buffers and output ring. -/
  | encodeOpen (c : Cmd)
  /-- ENCODE_SET_RATE (R267): Changes the rate control from the next picture. -/
  | encodeSetRate (c : Cmd)
  /-- KEY_PICTURE (R260): Makes the next picture, or the one at WP_DUE, a key picture. -/
  | keyPicture (c : Cmd)
  /-- ENCODE_CLOSE (R268): Stops a session taking pictures. -/
  | encodeClose (c : Cmd)
  /-- ENCODE_CLOSE_COMPLETE (R268): The last picture is written or abandoned, the buffers are released and the final reply is sent. -/
  | encodeCloseComplete (session : Nat)
  /-- LIVENESS_SET (R36): Configures an entry's liveness fields from the next evaluation. -/
  | livenessSet (c : Cmd)
  /-- HEARTBEAT (R37): The queue engine records arrivals without a new buffer for up to eight SURFACE entries. -/
  | heartbeat (c : Cmd)
  /-- LEDGER_READ (R38): Copies ledger entries at one deciding WP to a destination. -/
  | ledgerRead (c : Cmd)
  /-- TREATMENT_ASSETS (R39): Sets a hold colour, card or hatch style from the next boundary. -/
  | treatmentAssets (c : Cmd)
  /-- REF_TABLE_SET_ENTRY (R306): Writes one reference priority-table entry. -/
  | refTableSetEntry (c : Cmd)
  /-- REF_TABLE_SET_OUTPUTS (R306): Sets the REFOUT modes and the misalignment tolerance. -/
  | refTableSetOutputs (c : Cmd)
  /-- REF_STATUS (R307): Returns Headwater's status. -/
  | refStatus (c : Cmd)
  /-- WALL_TIMING_SET (R49): Schedules a new wall timing, spread, identifier and anchor at a boundary. -/
  | wallTimingSet (c : Cmd)
  /-- REALIGN_JUMP (R305): Moves WP by a delta at the acting boundary. -/
  | realignJump (c : Cmd)
  /-- REALIGN_SLEW (R305): Changes the WP rate until a delta is removed. -/
  | realignSlew (c : Cmd)
  /-- REALIGN_CANCEL (R305): Ends a running slew. -/
  | realignCancel (c : Cmd)
  /-- REALIGN_SLEW_COMPLETE (R305): The remaining delta reaches 0 and the slew sends its final reply. -/
  | realignSlewComplete
  /-- PTP_PORT_SET_PORT (R321): Configures a port's PTP engine. -/
  | ptpPortSetPort (c : Cmd)
  /-- PTP_PORT_SET_EVENT (R321): Configures an event input and empties its FIFO. -/
  | ptpPortSetEvent (c : Cmd)
  /-- EVENT_STAMP_READ (R325): Removes stamp records from an input's FIFO and writes them out. -/
  | eventStampRead (c : Cmd)
  /-- TIME_STEP (R319): Steps a port's time counter by an amount or to a value. -/
  | timeStep (c : Cmd)
  /-- TIME_RATE_ADJUST (R320): Sets the rate and servo state of a HOST-mode port. -/
  | timeRateAdjust (c : Cmd)
  /-- FABRIC_STATUS (R338): Returns the device's fabric status. -/
  | fabricStatus (c : Cmd)
  /-- FABRIC_ROUTE_SET (R344): Writes a manual routing entry and re-reserves affected exports. -/
  | fabricRouteSet (c : Cmd)
  /-- FABRIC_EXPORT (R345): Starts or stops the export of a source with a link reservation. -/
  | fabricExport (c : Cmd)
  /-- FABRIC_IMPORT (R349): Binds or unbinds an IMPORT source to an origin and export. -/
  | fabricImport (c : Cmd)
  /-- LANE_EYE_SCAN (R361): Starts an eye scan of a receiving lane. -/
  | laneEyeScan (c : Cmd)
  /-- LANE_EYE_SCAN_COMPLETE (R361): The last point is measured, the record is written and the final reply is sent. -/
  | laneEyeScanComplete (c : Cmd)
  /-- PORT_CONTROL_ENABLE (R363): Powers and trains a DISABLED Toden port. -/
  | portControlEnable (c : Cmd)
  /-- PORT_CONTROL_DISABLE (R363): Powers down a Toden port. -/
  | portControlDisable (c : Cmd)
  /-- PORT_CONTROL_RESET (R363): Resets a lane group's PHY and clock recovery. -/
  | portControlReset (c : Cmd)
  /-- PORT_CONTROL_PRESET (R363): Sets a Toden port's transmit de-emphasis for its next training. -/
  | portControlPreset (c : Cmd)
  /-- KEYS_CONFIGURE (R395): Writes a key or slider object at the end of the current scan. -/
  | keysConfigure (c : Cmd)
  /-- KEY_SELFTEST (R396): Starts an 8-scan test of the key channels. -/
  | keySelftest (c : Cmd)
  /-- KEY_SELFTEST_COMPLETE (R396): After the eighth scan the results are written and the final reply is sent. -/
  | keySelftestComplete (ok : Bool)
  /-- TOUCH_PORT_SET (R402): Configures a touch port and cancels its contacts. -/
  | touchPortSet (c : Cmd)
  /-- HAPTIC_CONFIGURE (R408): Stops any play and writes a haptic channel's settings. -/
  | hapticConfigure (c : Cmd)
  /-- HAPTIC_PLAY (R409): The queue engine starts or stops a waveform on channels. -/
  | hapticPlay (c : Cmd)
  /-- AUDIO_STREAM_SET_OPEN (R414): Opens a PCM stream. -/
  | audioStreamSetOpen (c : Cmd)
  /-- AUDIO_STREAM_SET_CLOSE (R414): Closes a PCM stream. -/
  | audioStreamSetClose (c : Cmd)
  /-- AUDIO_STREAM_SET_GAIN (R414): Ramps a stream's gain. -/
  | audioStreamSetGain (c : Cmd)
  /-- AUDIO_STREAM_SET_GLOBAL (R414): Sets DUCK_S and DUCK_O. -/
  | audioStreamSetGlobal (c : Cmd)
  /-- TONE_PLAY (R415): Starts or stops a tone on a generator. -/
  | tonePlay (c : Cmd)
  /-- GAUGE_SET (R385): Configures a Gauge unit. -/
  | gaugeSet (c : Cmd)
  /-- GAUGE_READ (R386): Removes Gauge records from the FIFO and writes them out. -/
  | gaugeRead (c : Cmd)
  /-- COUNTERS_READ (R439): Writes a counter group and restarts its occupancies. -/
  | countersRead (c : Cmd)
  /-- FAULT_READ (R438): Copies the fault records out. -/
  | faultRead (c : Cmd)
  /-- FAULT_CLEAR (R438): Removes fault records up to a SEQ. -/
  | faultClear (c : Cmd)
  /-- WEIR_RULE_SET_WRITE (R376): Writes Weir rules in one CORE cycle. -/
  | weirRuleSetWrite (c : Cmd)
  /-- WEIR_RULE_SET_READ (R376): Copies Weir rules out. -/
  | weirRuleSetRead (c : Cmd)
  /-- WEIR_BARRIER (R377): Waits for every earlier-checked access to complete. -/
  | weirBarrier (c : Cmd)
  /-- WEIR_BARRIER_DRAINED (R377): The accesses that were waited for have completed and the barrier replies ST_OK. -/
  | weirBarrierDrained (c : Cmd)
  /-- WEIR_BARRIER_TIMEOUT (R377): After 1 ms, stalled fabric accesses are aborted and the barrier replies ST_TIMEOUT. -/
  | weirBarrierTimeout (c : Cmd)
  /-- WEIR_VIOLATION_READ (R379): Returns the violation record. -/
  | weirViolationRead (c : Cmd)
  /-- WEIR_VIOLATION_CLEAR (R380): Empties the violation record, conditionally on EXPECT_WP. -/
  | weirViolationClear (c : Cmd)
  /-- WEIR_LOCK (R378): Locks a range of rules until reset. -/
  | weirLock (c : Cmd)
  /-- SLICE_CREATE (R86): Creates a slice with its class and shares. -/
  | sliceCreate (c : Cmd)
  /-- SLICE_BIND_PASID (R102): Binds a PASID and activates a CREATED slice. -/
  | sliceBindPasid (c : Cmd)
  /-- SLICE_SET_SHARE (R93): Changes a slice's share record at the next boundary. -/
  | sliceSetShare (c : Cmd)
  /-- SLICE_QUIESCE (R94): Stops packet intake of a slice. -/
  | sliceQuiesce (c : Cmd)
  /-- SLICE_QUIESCED (R86): The last held packet and engine job finish, the slice becomes QUIESCED and the final reply is sent. -/
  | sliceQuiesced (slice : Nat)
  /-- SLICE_FREEZE (R98): Stops packet intake and source intake of a slice. -/
  | sliceFreeze (c : Cmd)
  /-- SLICE_FROZEN (R98): Outstanding work and intake end, the slice becomes FROZEN and the final replies are sent. -/
  | sliceFrozen (slice : Nat)
  /-- SLICE_WAIT_TIMEOUT (R103): A quiesce or freeze reaches its TIMEOUT and replies ST_TIMEOUT. -/
  | sliceWaitTimeout (c : Cmd)
  /-- SLICE_RESET (R95): Withdraws and releases everything the slice owns and leaves it ACTIVE and empty. -/
  | sliceReset (c : Cmd)
  /-- SLICE_DESTROY (R104): Resets a slice, unbinds its PASID and moves it to DRAINING or FREE. -/
  | sliceDestroy (c : Cmd)
  /-- SLICE_SAVE (R99): Starts writing a migration image of a FROZEN slice. -/
  | sliceSave (c : Cmd)
  /-- SLICE_SAVE_COMPLETE (R99): The image is written and the final reply is sent. -/
  | sliceSaveComplete (c : Cmd)
  /-- SLICE_RESTORE (R100): Accepts a migration image for checking. -/
  | sliceRestore (c : Cmd)
  /-- SLICE_RESTORE_COMPLETE (R100): The image is applied or refused and the final reply is sent. -/
  | sliceRestoreComplete (c : Cmd)
  /-- SLICE_THAW (R101): Returns a QUIESCED or FROZEN slice to ACTIVE. -/
  | sliceThaw (c : Cmd)
  /-- SLICE_QUERY (R85): Returns a slice's state, shares and use. -/
  | sliceQuery (c : Cmd)
  /-- ORPHAN_RETIRED (R96): An orphan job finishes and its result is discarded; at count 0 EV_ORPHANS_RETIRED is posted and DRAINING ends. -/
  | orphanRetired (slice : Nat)
  /-- ORPHAN_ABORT_LIMIT (R96): 100 ms after the reset, still-running orphans are aborted and counted. -/
  | orphanAbortLimit (slice : Nat)
  /-- FW_STAGE (R432): Programs a chunk into the staging bank or the boot display record. -/
  | fwStage (c : Cmd)
  /-- FW_VERIFY (R433): Starts verifying the staging bank. -/
  | fwVerify (c : Cmd)
  /-- FW_VERIFY_COMPLETE (R433): The bank is set VERIFIED or INVALID and the final reply is sent. -/
  | fwVerifyComplete (result : Nat)
  /-- FW_ACTIVATE (R434): Makes a bank TRIAL, or raises the fused minimum SVN. -/
  | fwActivate (c : Cmd)
  /-- DEVICE_RESET (R435): Replies and schedules a device reset 10 ms later. -/
  | deviceReset (c : Cmd)
  /-- ENGINE_REINIT (R436): Resets a unit and starts its self-check. -/
  | engineReinit (c : Cmd)
  /-- ENGINE_SELF_CHECK_COMPLETE (R436): A unit's self-check ends and the unit returns to service, or stays out, with the final reply. -/
  | engineSelfCheckComplete (unit index : Nat) (ok : Bool) (test : Nat)
  /-- IDENTIFY (R440): Returns the device's identity. -/
  | identify (c : Cmd)
  /-- LEDGER_EVALUATION (R15): At each wall line start the Liveness Monitor evaluates every entry and publishes the previous result to both banks. -/
  | ledgerEvaluation (eccFailed : List Nat) (corrected : Nat)
  /-- WALL_FRAME_BOUNDARY (R181): Boundary events are applied in order: timing, jump, bank assignment, removals, group changes, clears, commit records and shedding. -/
  | wallFrameBoundary
  /-- GROUP_HOLD_EXPIRY (R177): After HOLD_FRAMES boundaries a held record takes effect and EV_GROUP_HOLD_EXPIRED is posted. -/
  | groupHoldExpiry (slice group : Nat)
  /-- OUTPUT_FRAME_START (R47): An output frame starts: counter text and the layer map are latched, and moves and self-refresh changes apply. -/
  | outputFrameStart (output : Nat)
  /-- OUTPUT_LINE_START (R47): An output line leaves for the transmitter while the pipe composes the next line. -/
  | outputLineStart (output : Nat) (inTime : Bool)
  /-- RECT_EVALUATE (R213): When a rectangle's last pixel leaves, its check value is computed and the result taken. -/
  | rectEvaluate (output rect : Nat)
  /-- HPD_RISE (R207): A rising HPD starts link training of an output. -/
  | hpdRise (output : Nat)
  /-- IRQ_HPD (R207): An IRQ_HPD reporting loss of link status starts retraining. -/
  | irqHpd (output : Nat)
  /-- HPD_FALL (R207): A falling HPD moves the output to LINK_DOWN and ends any attempt. -/
  | hpdFall (output : Nat)
  /-- LINK_TRAINING_END (R207): An attempt ends trained or failed, posts EV_LINK_TRAINING and may complete OUTPUT_ENABLE and the EDID read. -/
  | linkTrainingEnd (output result lanes rate : Nat) (sinkPsr : Bool) (edid : List Byte) (edidOk : Bool)
  /-- LINK_RETRY_TIMER (R207): 1 s in LINK_DOWN with HPD high starts another attempt. -/
  | linkRetryTimer (output : Nat)
  /-- BANK_PIPE_WATCHDOG (R222): A pipe that makes no progress for 1,024 cycles faults, and its bank becomes FAILED. -/
  | bankPipeWatchdog (output : Nat)
  /-- BANK_STORE_ECC_FAULT (R222): An uncorrectable error in a pipe's stores faults the pipe. -/
  | bankStoreEccFault (output : Nat)
  /-- TAKEOVER_ARMED (R224): The reserve pipe is armed with latches and passes, composes from the next line and EV_BANK_TAKEOVER is posted. -/
  | takeoverArmed (output gapCycles : Nat)
  /-- BANK_SELF_CHECK_END (R231): A CHECKING bank passes to HOLDOFF or fails to FAILED. -/
  | bankSelfCheckEnd (bank : Nat) (ok : Bool) (test : Nat)
  /-- BANK_HOLDOFF_EXPIRY (R231): After HOLDOFF_FRAMES clean frames the bank becomes NORMAL and its outputs return. -/
  | bankHoldoffExpiry (bank : Nat)
  /-- RESERVOIR_REQUEST_SERVED (R125): A pseudo-channel arbiter serves an RT, ST or BE request after the Weir check. -/
  | reservoirRequestServed (pc : Nat) (reqs : List MemReq) (ecc : Nat)
  /-- PATROL_SCRUB (R107): The scrubber reads words in its 4-hour cycle and corrects or reports what it finds. -/
  | patrolScrub (addr ecc : Nat)
  /-- ZERO_FILL_COMPLETE (R112): Freed storage finishes zero-filling and returns to the pool. -/
  | zeroFillComplete (base : Nat)
  /-- WRITER_PASS_START (R116): A writer starts a new pass on a buffer. -/
  | writerPassStart (handle : Nat)
  /-- WRITER_LINE_COMPLETE (R116): A line or unit is acknowledged and FRONTIER advances. -/
  | writerLineComplete (handle : Nat) (data : List Byte) (ledgerEcc : Nat)
  /-- LINE_LEDGER_REBUILT (R115): The rebuilt entry takes effect within 2 wall lines and waiting writes and fences resume or fail. -/
  | lineLedgerRebuilt (index : Nat)
  /-- SLUICE_LANE_TAKE_WORK (R155): A free compressor lane takes the next tile row or stream block by priority. -/
  | sluiceLaneTakeWork (lane : Nat)
  /-- SLUICE_ROW_COMPLETE (R151): A lane finishes compressing and verifying a tile row or block and writes it. -/
  | sluiceRowComplete (lane : Nat) (mismatch : List Nat)
  /-- DECODE_CONTEXT_SCHEDULE (R240): A free decode core takes the ready context that comes first. -/
  | decodeContextSchedule (core : Nat) (pic : PicInfo)
  /-- DECODE_CTU_ROW_DONE (R238): A core finishes a CTU row, advances FRONTIER, and records an arrival at the last row. -/
  | decodeCtuRowDone (core : Nat) (row : DecodedRow)
  /-- DECODE_CORE_IDLE_TIMER (R458): After 1 ms without a ready context, a decode core powers off. -/
  | decodeCoreIdleTimer (core : Nat)
  /-- RESERVOIR_IDLE_TIMER (R458): After 100 µs without a request and with no live output, the Reservoir enters self-refresh. -/
  | reservoirIdleTimer
  /-- ENCODE_CORE_SCHEDULE (R254): A free encode core takes the ready picture that comes first. -/
  | encodeCoreSchedule (core : Nat)
  /-- ENCODE_CTU_ROW_CODED (R257): A core codes a row under rate control and writes completed slice units. -/
  | encodeCtuRowCoded (core : Nat) (row : CodedRow)
  /-- ETH_FRAME_RECEIVED (R270): A received Ethernet frame is stamped, filtered, and passed to PTP, the classifier or a host queue. -/
  | ethFrameReceived (port : Nat) (frame : List Byte) (stamp : Nat) (host : List HostDesc)
  /-- REORDER_HOLD_TIMEOUT (R275): HOLD_LINES expire, the gap is declared lost and the held packets pass. -/
  | reorderHoldTimeout (rule : Nat)
  /-- RX_TAIL_DOORBELL (R278): The owner announces receive descriptors. -/
  | rxTailDoorbell (queue tail : Nat)
  /-- TX_TAIL_DOORBELL (R278): The owner announces transmit descriptors. -/
  | txTailDoorbell (queue tail : Nat)
  /-- ETH_FRAME_TRANSMIT (R280): A port sends its next frame by priority: PTP, RTP streams, host queues. -/
  | ethFrameTransmit (port : Nat) (host : List HostDesc)
  /-- RTP_TRANSMIT_UNIT (R281): The transmitter consumes an output-ring unit and packetises its NAL units. -/
  | rtpTransmitUnit (stream : Nat)
  /-- DPIN_HPD_PULSE_END (R288): 100 ms after a new EDID, HPD is raised again. -/
  | dpinHpdPulseEnd (input : Nat)
  /-- DPIN_TRAINING_START (R284): The source computer begins link training and the input enters TRAINING. -/
  | dpinTrainingStart (input : Nat)
  /-- DPIN_TRAINING_END (R284): Training ends trained or failed and EV_DPIN_LINK is posted. -/
  | dpinTrainingEnd (input result lanes rate : Nat)
  /-- DPIN_VIDEO_CHANGE (R284): Video starts or stops on a trained input. -/
  | dpinVideoChange (input : Nat) (on : Bool)
  /-- DPIN_FRAME_START (R286): The first active line starts a pass, or the frame is dropped, after the MSA check. -/
  | dpinFrameStart (input : Nat) (msa : Msa)
  /-- DPIN_ACTIVE_LINE (R285): An active line is converted and written, and the last line records the arrival. -/
  | dpinActiveLine (input : Nat) (pixels : List Nat)
  /-- DPIN_LOCK_LOSS (R287): Loss of lock sets damaged at once and stops the frame. -/
  | dpinLockLoss (input : Nat)
  /-- DPIN_SYMBOL_ERROR (R287): Symbol or disparity errors set damaged at once. -/
  | dpinSymbolError (input : DpSymbol)
  /-- REF_MEASUREMENT_INTERVAL_END (R293): An entry's offsets are measured and its qualification state and the selection are updated. -/
  | refMeasurementIntervalEnd (entry : Nat) (freqPpb phase : Int) (ok : Bool)
  /-- REF_LOSS_CONDITION (R294): An entry meets its loss condition and is disqualified at once. -/
  | refLossCondition (entry : Nat)
  /-- REF_QUALIFY_TIMER (R294): QUALIFY_S passes and the entry becomes QUALIFIED. -/
  | refQualifyTimer (entry : Nat)
  /-- REF_DISQUALIFY_TIMER (R294): An offset held beyond the window for DISQUALIFY_MS disqualifies the entry. -/
  | refDisqualifyTimer (entry : Nat)
  /-- DPLL_LOCK_COMPLETE (R296): The target's measurement interval passes during SWITCHING and the DPLL locks. -/
  | dpllLockComplete (offset : Int)
  /-- HISTORY_SECOND_TICK (R300): A second spent LOCKED counts towards HISTORY_S and HOLDOVER_READY. -/
  | historySecondTick (freq : Int)
  /-- REFOUT_PULSE (R303): A REFOUT goes active at its scheduled WP and inactive after WIDTH lines. -/
  | refoutPulse (which : Nat)
  /-- PTP_DELAY_REQ_SEND (R314): A Delay_Req or Pdelay_Req is sent one-step at its interval. -/
  | ptpDelayReqSend (port : Nat)
  /-- PTP_SYNC_TIMEOUT (R318): No Sync for 4 intervals returns the servo to LISTENING. -/
  | ptpSyncTimeout (port : Nat)
  /-- PTP_ANNOUNCE_TIMEOUT (R318): announceReceiptTimeout expires and the servo returns to LISTENING. -/
  | ptpAnnounceTimeout (port : Nat)
  /-- PTP_LOCK_HOLD_LAPSE (R320): A HOST-mode LOCKED state lapses after LOCK_HOLD_MS without renewal. -/
  | ptpLockHoldLapse (port : Nat)
  /-- EVENT_INPUT_EDGE (R322): An event input edge is stamped in PTP time and WP and queued. -/
  | eventInputEdge (input : Nat) (rising : Bool)
  /-- TODEN_HELLO_SEND (R337): Every 100 µs each UP port sends a HELLO. -/
  | todenHelloSend (port : Nat)
  /-- TODEN_HELLO_RECEIVED (R337): A HELLO is taken and the tree, root and fabric join are reconsidered. -/
  | todenHelloReceived (port : Nat) (bits : List (List Bool)) (below : List TreeDev)
  /-- TODEN_HELLO_SILENCE (R343): No HELLO for 1 ms takes the port DOWN. -/
  | todenHelloSilence (port : Nat)
  /-- TODEN_LOCK_LOSS (R343): Loss of symbol or block lock takes the port DOWN. -/
  | todenLockLoss (port : TodenLane)
  /-- TODEN_TRAINING_PHASE_COMPLETE (R343): A training phase completes, and the last one makes the port trained. -/
  | todenTrainingPhaseComplete (port : Nat)
  /-- TODEN_PHASE_TIMEOUT (R343): A phase times out after 2 ms and training retries or backs off. -/
  | todenPhaseTimeout (port : Nat)
  /-- TODEN_BACKOFF_EXPIRY (R343): The back-off ends and the port trains again. -/
  | todenBackoffExpiry (port : Nat)
  /-- TODEN_MARK_RECEIVED (R336): A received mark steers the DPLL and is forwarded. -/
  | todenMarkReceived (port : Nat) (frameMark : Bool) (offset : MarkPhase)
  /-- TODEN_EPOCH_RECEIVED (R333): An epoch is taken; a join or disagreement may schedule a jump. -/
  | todenEpochReceived (port : Nat) (epoch : List Byte)
  /-- DELAY_MEASURE_SEND (R334): Every 62.5 ms a K30.7 request is sent. -/
  | delayMeasureSend (port : Nat)
  /-- DELAY_MEASURE_REQUEST (R334): A received K30.7 is answered with K23.7 after 128 ns. -/
  | delayMeasureRequest (port : Nat)
  /-- DELAY_MEASURE_RESPONSE (R334): A received K23.7 updates the cable delay. -/
  | delayMeasureResponse (port roundTrip : Nat)
  /-- CONTROL_MESSAGE (R342): A CONTROL packet assigns an address or announces a timing or realign change. -/
  | controlMessage (port : Nat) (bits : List (List Bool))
  /-- FRAME_PACKET (R349): A FRAME packet starts a pass at the importer or a transit ring. -/
  | framePacket (port : Nat) (bits : List (List Bool))
  /-- LINE_PACKET (R348): A LINE packet is written to the import buffer or transit ring and forwarded. -/
  | linePacket (port : Nat) (bits : List (List Bool))
  /-- IMPORT_LINE_COMPLETE (R348): At COMPLETE_WP plus HOPS lines a line becomes complete, or is written as zeros. -/
  | importLineComplete (source : Nat)
  /-- STATE_PACKET (R349): A STATE packet updates the upstream state. -/
  | statePacket (port : Nat) (bits : List (List Bool))
  /-- STREAM_PACKET (R330): A byte-stream block arrives on VC 2. -/
  | streamPacket (port : Nat) (bits : List (List Bool))
  /-- TRANSIT_RING_FREE (R347): After 16 frames without a FRAME packet a transit ring is freed. -/
  | transitRingFree (origin exportId : Nat)
  /-- REMOTE_WRITE (R352): A remote write acts as slice 0, or claims a headless device. -/
  | remoteWrite (port : Nat) (bits : List (List Bool))
  /-- REMOTE_READ (R352): A remote read is checked as slice 0 and answered with REMOTE_DATA. -/
  | remoteRead (port : Nat) (bits : List (List Bool))
  /-- REMOTE_DATA (R448): A returned REMOTE_DATA completes a fabric window read. -/
  | remoteData (port : Nat) (bits : List (List Bool))
  /-- INTERRUPT_PACKET (R449): An INTERRUPT enters the FIFO and raises vector 16. -/
  | interruptPacket (port : Nat) (bits : List (List Bool))
  /-- HEADLESS_DETECT (R351): 1 s after READY without L0, the device becomes headless. -/
  | headlessDetect
  /-- REMOTE_CLAIM_LOST (R352): The remote manager unreachable for 1 s ends the claim. -/
  | remoteClaimLost
  /-- KEY_SCAN (R388): Every 5 ms all channels are measured and objects, baselines and sliders are updated. -/
  | keyScan (counts : List Nat)
  /-- KEY_MAX_ON_EXPIRY (R390): MAX_ON_S after a press the object is released and recalibrated. -/
  | keyMaxOnExpiry (object : Nat)
  /-- TOUCH_ATTN_EDGE (R397): ATTN is stamped and a report read starts. -/
  | touchAttnEdge (port : Nat)
  /-- TOUCH_REPORT_READ (R400): A report read completes and contacts are hit-tested, moved or ended. -/
  | touchReportRead (port : Nat) (report : List Byte) (attn : Bool)
  /-- TOUCH_READ_TIMEOUT (R397): A read unfinished after 2 ms counts as a port error. -/
  | touchReadTimeout (port : Nat) (attn : Bool)
  /-- TOUCH_ATTN_IDLE_TIMEOUT (R400): ATTN inactive for 500 ms with contacts down cancels them. -/
  | touchAttnIdleTimeout (port : Nat)
  /-- HAPTIC_DRIVE_PERIOD (R403): Each 1 ms drive period plays the next sample, or ends and brakes. -/
  | hapticDrivePeriod (channel : Nat) (resonance : Nat)
  /-- HAPTIC_FAULT (R407): A current, short, open or temperature fault turns the channel off and posts EV_HAPTIC_FAULT. -/
  | hapticFault (channel cause peakMa : Nat)
  /-- AUDIO_SAMPLE (R410): At each 48 kHz boundary the mixer sums, ducks and outputs a sample and advances tones. -/
  | audioSample (host : List HostBytes)
  /-- AUDIO_PRODUCED_POLL (R413): Every 48 samples each stream reads PRODUCED and may start. -/
  | audioProducedPoll (host : List HostBytes)
  /-- FABRIC_WINDOW_ACCESS (R448): A host access to the fabric window becomes a REMOTE_WRITE or REMOTE_READ. -/
  | fabricWindowAccess (write : Bool) (offset size value : Nat)
  /-- FABRIC_WINDOW_READ_TIMEOUT (R448): A window read unanswered for 50 µs completes with 0xFF and sets TIMEOUT. -/
  | fabricWindowReadTimeout
  /-- FWIN_TIMEOUT_CLEAR (R445): A W1C write clears FWIN_CTRL.TIMEOUT. -/
  | fwinTimeoutClear
  /-- FIRQ_POP (R449): A write removes the head fabric interrupt and re-raises vector 16 if more remain. -/
  | firqPop
  /-- RESET_REQ_WRITE (R446): Writing the key to RESET_REQ starts a device reset. -/
  | resetReqWrite (value : Nat)
  /-- BAR2_APERTURE_ACCESS (R450): A host access through an aperture is checked by the Weir and carried out or denied. -/
  | bar2ApertureAccess (write : Bool) (offset : Nat) (data : List Byte)
  /-- GAUGE_LAST_READ (R447): Reading GAUGE_LAST latches GAUGE_TAG and GAUGE_COUNT. -/
  | gaugeLastRead (unit : Nat)
  /-- REGISTER_LOWER_HALF_READ (R442): A 4-byte read of a 64-bit register's lower half latches the upper half. -/
  | registerLowerHalfRead (offset : Nat)
  /-- REGISTER_WRITE (R442): A write to a register without behaviour of its own updates its RW fields. -/
  | registerWrite (offset size value : Nat)
  /-- DEBUG_ACCESS (R375): A debug access port access is decided by locked rules. -/
  | debugAccess (write : Bool) (addr : Nat) (data : List Byte)
  /-- SMB_STATUS (R452): SMBus read of the status byte. -/
  | smbStatus
  /-- SMB_IDENT (R452): SMBus read of the identity block. -/
  | smbIdent
  /-- SMB_TEMP (R452): SMBus read of the hottest sensor. -/
  | smbTemp (temps : List Int)
  /-- SMB_SENSORS (R452): SMBus read of all eight sensors. -/
  | smbSensors (temps : List Int)
  /-- SMB_VIN (R452): SMBus read of the input voltage. -/
  | smbVin (mv : Nat)
  /-- SMB_IIN (R452): SMBus read of the input current. -/
  | smbIin (ma : Nat)
  /-- SMB_PIN (R452): SMBus read of the input power. -/
  | smbPin (units : Nat)
  /-- SMB_FAULT_COUNT (R452): SMBus read of the fault record count. -/
  | smbFaultCount
  /-- SMB_FAULT_INDEX (R453): SMBus write that selects a fault record and latches its SEQ. -/
  | smbFaultIndex (index : Nat)
  /-- SMB_FAULT_RECORD (R453): SMBus read of the latched fault record, advancing to the next. -/
  | smbFaultRecord
  /-- SMB_FAULT_NEWEST (R452): SMBus read of the newest SEQ. -/
  | smbFaultNewest
  /-- SMB_RESET (R452): SMBus write of 0xA5 requests a device reset. -/
  | smbReset (value : Nat)
  /-- SMB_ALERT_RESPONSE (R454): A read of the Alert Response Address releases SMB_ALERT_N. -/
  | smbAlertResponse
  /-- RST_N_RELEASE (R416): Release of RST_N starts the start-up sequence, with its times counted from the release. -/
  | rstNRelease
  /-- HELD_RESET_RELEASE (R425): A reset requested in THERMAL_TRIP while a sensor is at or above 100 °C starts once every sensor has cooled below 100 °C. -/
  | heldResetRelease (temps : List Int)
  /-- ETHERNET_LINK_CHANGE (R465): An Ethernet port's link goes down or comes up, through block lock or the SFP28 MOD_ABS, RX_LOS and TX_FAULT inputs. -/
  | ethernetLinkChange (port : Nat) (up : Bool) (modAbs rxLos txFault : Bool)
  /-- DPIN_LOCK_REGAINED (R287): A DisplayPort receiver regains lock after a loss, so that its next frame starts a new pass. -/
  | dpinLockRegained (input : Nat)
  /-- CREDIT_BLOCK_RECEIVED (R330): A CREDIT control block arrives with receive credits per virtual channel and replay acknowledgements. -/
  | creditBlockReceived (port : Nat) (credits acks : List Nat)
  /-- HOLDOFF_SELF_CHECK_ERROR (R228): The repeated self-check of a bank in HOLDOFF finds an error; the bank returns to FAILED and EV_BANK_RETURN reports RESULT 0x03. -/
  | holdoffSelfCheckError (bank test : Nat)
  /-- MSIX_VECTOR_UNMASK (R451): The host unmasks an MSI-X entry, and a vector whose pending bit is set is sent. -/
  | msixVectorUnmask (vector : Nat)
  /-- DBG_KILL_FUSE_WRITE (R455): The manager has Lockkeeper blow the DBG_KILL fuse, disabling the debug access port for the life of the part. -/
  | dbgKillFuseWrite
  /-- PCIE_LOOPBACK_ENTRY (R358): The host directs the PCI Express link into Loopback with the device as follower, and transactions and host-memory rings stop. -/
  | pcieLoopbackEntry
  /-- PCIE_LOOPBACK_EXIT (R358): The PCI Express link leaves Loopback, and transactions and ring progress resume. -/
  | pcieLoopbackExit
  deriving DecidableEq, Repr

end Sys2Proof
end

