-- ==== Sys2Proof/Machine/Bits.lean ====
section
/-! DEFINITION. Bit fields, two's complement, byte order (R3) and the check codes of the manual, over Nat and byte lists. -/
namespace Sys2Proof.Machine
open Sys2Proof

/-- Bits lo to lo + w - 1 of a number (R3: bit 0 is the least significant). -/
def bitsAt (x lo w : Nat) : Nat := (x >>> lo) % 2 ^ w

/-- A flag bit of a number. -/
def bitAt (x i : Nat) : Bool := bitsAt x i 1 == 1

/-- The w-bit field at bit `bit` of byte `byte` of a packet. -/
def pf (p : Packet) (byte bit w : Nat) : Nat := bitsAt p.toNat (8 * byte + bit) w

/-- A one-bit field of a packet. -/
def pb (p : Packet) (byte bit : Nat) : Bool := pf p byte bit 1 == 1

/-- A w-bit number read as two's complement. -/
def toSigned (w x : Nat) : Int :=
  if x % 2 ^ w < 2 ^ (w - 1) then (x % 2 ^ w : Nat) else (x % 2 ^ w : Nat) - (2 ^ w : Nat)

/-- A whole number written as w bits of two's complement. -/
def ofSigned (w : Nat) (i : Int) : Nat := (i % (2 ^ w : Nat)).toNat

/-- One field of a record: first bit, width, value. -/
abbrev Field := Nat × Nat × Nat

/-- A field at bit `bit` of byte `byte` of a record. -/
def fAt (byte bit w v : Nat) : Field := (8 * byte + bit, w, v)

/-- The record whose listed fields hold their values and whose other bits are 0. -/
def packFields : List Field → Nat
  | [] => 0
  | (lo, w, v) :: r => packFields r ||| ((v % 2 ^ w) <<< lo)

/-- The mask of a list of (first bit, width) ranges. -/
def rangeMask : List (Nat × Nat) → Nat
  | [] => 0
  | (lo, w) :: r => rangeMask r ||| ((2 ^ w - 1) <<< lo)

/-- R5: every parameter bit (bytes 16 to 63) of the packet outside the (byte, bit, width) ranges is 0. -/
def reservedZero (p : Packet) (ranges : List (Nat × Nat × Nat)) : Bool :=
  let m := rangeMask (ranges.map fun r => (8 * r.1 + r.2.1, r.2.2))
  let params := (p.toNat >>> 128) <<< 128
  (params &&& m) == params

/-- The n bytes of a number, little-endian (R3). -/
def bytesLE : Nat → Nat → List Byte
  | 0, _ => []
  | n + 1, x => BitVec.ofNat 8 x :: bytesLE n (x / 256)

/-- The number a little-endian byte list holds. -/
def natLE : List Byte → Nat
  | [] => 0
  | b :: r => b.toNat + 256 * natLE r

/-- The number a big-endian byte list holds (published standards, R3). -/
def natBE (l : List Byte) : Nat := l.foldl (fun a b => 256 * a + b.toNat) 0

/-- The n bytes of a number, big-endian. -/
def bytesBE (n x : Nat) : List Byte := (bytesLE n x).reverse

/-- The byte at a place of a list, 0 beyond its end. -/
def byteAt (l : List Byte) (i : Nat) : Nat := (l.getD i 0).toNat

/-- n bytes at a place of a list as a little-endian number. -/
def leAt (l : List Byte) (i n : Nat) : Nat := natLE ((l.drop i).take n)

/-- n bytes at a place of a list as a big-endian number. -/
def beAt (l : List Byte) (i n : Nat) : Nat := natBE ((l.drop i).take n)

/-- One step of a reflected CRC over one bit. -/
def crcRefBit (poly c : Nat) : Nat := if c % 2 == 1 then (c / 2) ^^^ poly else c / 2

/-- n steps of a reflected CRC. -/
def crcRefBits (poly : Nat) : Nat → Nat → Nat
  | 0, c => c
  | n + 1, c => crcRefBits poly n (crcRefBit poly c)

/-- A reflected CRC register after a byte list. -/
def crcRef (poly init : Nat) (l : List Byte) : Nat :=
  l.foldl (fun c b => crcRefBits poly 8 (c ^^^ b.toNat)) init

/-- CRC-32C (Castagnoli, reflected polynomial 0x82F63B78, all ones in and out). -/
def crc32c (l : List Byte) : Nat := crcRef 0x82F63B78 0xFFFFFFFF l ^^^ 0xFFFFFFFF

/-- CRC-32 of IEEE 802.3 (polynomial 0x04C1_1DB7, reflected 0xEDB88320, all ones in and out). -/
def crc32 (l : List Byte) : Nat := crcRef 0xEDB88320 0xFFFFFFFF l ^^^ 0xFFFFFFFF

/-- One step of an unreflected CRC of w bits. -/
def crcFwdBits (w poly : Nat) : Nat → Nat → Nat
  | 0, c => c
  | n + 1, c =>
    crcFwdBits w poly n (if c / 2 ^ (w - 1) % 2 == 1 then ((c * 2) % 2 ^ w) ^^^ poly else (c * 2) % 2 ^ w)

/-- An unreflected CRC of w bits after a byte list. -/
def crcFwd (w poly init : Nat) (l : List Byte) : Nat :=
  l.foldl (fun c b => crcFwdBits w poly 8 (c ^^^ (b.toNat <<< (w - 8)))) init

/-- The distinct elements of a list. -/
def distinct : List Nat → List Nat
  | [] => []
  | a :: r => if r.contains a then distinct r else a :: distinct r

/-- A value held to a saturating counter of w bits. -/
def satAdd (w a b : Nat) : Nat := min (a + b) (2 ^ w - 1)

/-- Division rounded up. -/
def ceilDiv (a b : Nat) : Nat := if b == 0 then 0 else (a + b - 1) / b

/-- The first failing check's answer of a list in order (R68). -/
def firstFail {α : Type} : List (Bool × α) → Option α
  | [] => none
  | (c, a) :: r => if c then some a else firstFail r

end Sys2Proof.Machine
end

