-- ==== Sys2Proof/Machine/SluiceCodec.lean ====
section
/-! DEFINITION. The Sluice block code (R140 to R151): tables, decompressor, compressor, block and record layout. -/
namespace Sys2Proof.Machine
open Sys2Proof

/-- Code length of a main alphabet symbol in a table (R147). -/
def mainLen (table sym : Nat) : Nat :=
  if table = 0 then (if sym < 256 then 9 else if sym = 256 ∨ sym = 272 then 6 else 5)
  else if table = 1 then (if sym < 0xF0 then 8 else if sym = 256 ∨ sym = 272 then 10 else 9)
  else if table = 2 then
    (if sym < 256 then 10 else if sym = 256 ∨ sym = 272 then 6 else if sym < 265 then 4 else 5)
  else (if sym = 272 then 2 else if sym = 271 then 3
        else if sym = 0 ∨ sym = 255 ∨ (264 ≤ sym ∧ sym ≤ 270) then 5
        else if 258 ≤ sym ∧ sym ≤ 263 then 6 else 10)

/-- Code length of a distance code in a table: set DB for table 2, DA otherwise (R147). -/
def distLen (table d : Nat) : Nat :=
  if table = 2 then
    (if d = 2 ∨ d = 8 then 2 else if d = 4 ∨ d = 5 ∨ d = 10 ∨ d = 11 then 5 else 4)
  else (if d < 4 then 3 else 4)

/-- How many of the first n symbols have a code of length L. -/
def lenCount (len : Nat → Nat) (n L : Nat) : Nat := ((List.range n).filter fun x => len x == L).length

/-- The first canonical code of length L over n symbols (R147). -/
def firstCode (len : Nat → Nat) (n : Nat) : Nat → Nat
  | 0 => 0
  | L + 1 => (firstCode len n L + lenCount len n L) * 2

/-- The canonical code of a symbol. -/
def codeOf (len : Nat → Nat) (n sym : Nat) : Nat := firstCode len n (len sym) + lenCount len sym (len sym)

/-- w bits of a number, least significant first (extra bits, R146). -/
def bitsLsb : Nat → Nat → List Bool
  | 0, _ => []
  | w + 1, x => (x % 2 == 1) :: bitsLsb w (x / 2)

/-- w bits of a number, most significant first (prefix codes, R146). -/
def bitsMsb (w x : Nat) : List Bool := (bitsLsb w x).reverse

/-- The number of bits least significant first. -/
def natOfLsb : List Bool → Nat
  | [] => 0
  | b :: r => b.toNat + 2 * natOfLsb r

/-- The bits of a byte list, bit 0 of byte 0 first. -/
def byteBits (l : List Byte) : List Bool := l.flatMap fun b => bitsLsb 8 b.toNat

/-- Bytes of a bit list, the last filled with zeros. -/
def bitsToBytes : Nat → List Bool → List Byte
  | 0, _ => []
  | n + 1, l => if l.isEmpty then [] else BitVec.ofNat 8 (natOfLsb (l.take 8)) :: bitsToBytes n (l.drop 8)

/-- Read one prefix code: accumulated value c at length L; fuel bounds the length. -/
def readCode (len : Nat → Nat) (n : Nat) : Nat → Nat → Nat → List Bool → Option (Nat × List Bool)
  | 0, _, _, _ => none
  | _ + 1, _, _, [] => none
  | fuel + 1, L, c, b :: r =>
    let c' := 2 * c + b.toNat
    let L' := L + 1
    let f := firstCode len n L'
    if f ≤ c' ∧ c' < f + lenCount len n L' then
      match ((List.range n).filter fun x => len x == L')[c' - f]? with
      | some sym => some (sym, r)
      | none => none
    else readCode len n fuel L' c' r

/-- Extra bits and base of a length symbol (R146): number of extra bits, value at extra 0. -/
def lengthBase (sym : Nat) : Nat × Nat :=
  if sym ≤ 264 then (0, sym - 254)
  else if sym ≤ 268 then (1, 11 + 2 * (sym - 265))
  else if sym ≤ 270 then (2, 19 + 4 * (sym - 269))
  else if sym = 271 then (5, 27) else (12, 59)

/-- The length symbol and its extra value of a match length (R146). -/
def lengthSym (n : Nat) : Nat × Nat :=
  if n ≤ 10 then (n + 254, 0)
  else if n ≤ 18 then (265 + (n - 11) / 2, (n - 11) % 2)
  else if n ≤ 26 then (269 + (n - 19) / 4, (n - 19) % 4)
  else if n ≤ 58 then (271, n - 27) else (272, n - 59)

/-- Why a block is discarded (R148, counted as R150 says). -/
inductive Discard where
  | check | code | length | index
  deriving DecidableEq, Repr

/-- Copy a match onto reversed output, one byte at a time (R146). -/
def copyMatch (dist : Nat) : Nat → List Byte → List Byte
  | 0, out => out
  | n + 1, out => copyMatch dist n ((out.getD (dist - 1) 0) :: out)

/-- Decode the symbols of a payload (R146, R148); output is kept reversed. -/
def decodeSyms (table raw : Nat) : Nat → List Bool → List Byte → Except Discard (List Byte)
  | 0, _, _ => .error .length
  | fuel + 1, bits, out =>
    match readCode (mainLen table) 273 12 0 0 bits with
    | none => .error .code
    | some (sym, r) =>
      if sym < 256 then
        if raw ≤ out.length then .error .length else decodeSyms table raw fuel r (BitVec.ofNat 8 sym :: out)
      else if sym = 256 then
        if out.length ≠ raw then .error .length
        else if r.any (fun b => b) then .error .code else .ok out.reverse
      else
        let (nb, base) := lengthBase sym
        let n := base + natOfLsb (r.take nb)
        match readCode (distLen table) 12 8 0 0 (r.drop nb) with
        | none => .error .code
        | some (d, r2) =>
          if r.length < nb ∨ r2.length < d then .error .code
          else
            let dist := 2 ^ d + natOfLsb (r2.take d)
            if out.length < dist then .error .code
            else if raw < out.length + n then .error .length
            else decodeSyms table raw fuel (r2.drop d) (copyMatch dist n out)

/-- The trailer of R145 over header and payload, folded with the block index. -/
def blockCheck (index : Nat) (l : List Byte) : Nat := crcRef 0x82F63B78 (0xFFFFFFFF ^^^ index) l ^^^ 0xFFFFFFFF

/-- Round up to a multiple. -/
def roundUp (x m : Nat) : Nat := (x + m - 1) / m * m

/-- Decompress one block at the front of a byte list (R144 to R148). `size` is the padded size the index record gives, 0 for a byte stream. -/
def decodeBlock (index raw size : Nat) (l : List Byte) : Except Discard (List Byte) :=
  let hdr := leAt l 0 4
  let isRaw := bitAt hdr 0
  let table := bitsAt hdr 1 2
  let plen := bitsAt hdr 3 13
  let payload := (l.drop 4).take plen
  if bitsAt hdr 29 3 ≠ 0 ∨ (isRaw ∧ table ≠ 0) then .error .code
  else if plen = 0 ∨ (size ≠ 0 ∧ roundUp (plen + 8) 16 ≠ size) ∨ (isRaw ∧ plen ≠ raw) ∨ l.length < plen + 8 then .error .length
  else if leAt l (4 + plen) 4 ≠ blockCheck index (l.take (4 + plen)) then .error .check
  else if isRaw then .ok payload
  else decodeSyms table raw (raw + 1) (byteBits payload) []

/-- A symbol of the compressor's sequence (R151). -/
inductive Tok where
  | lit (b : Byte)
  | copy (len dist : Nat)
  deriving DecidableEq, Repr

/-- Hash of a 3-byte sequence (R151). -/
def hash3 (a b c : Nat) : Nat := ((a * 0x100) ^^^ (b * 0x10) ^^^ c) % 0x1000

/-- The hash of the sequence at a place, if three bytes stand there. -/
def hashAt (l : List Byte) (i : Nat) : Option Nat :=
  if i + 2 < l.length then some (hash3 (byteAt l i) (byteAt l (i + 1)) (byteAt l (i + 2))) else none

/-- Length of the common run of two places, at most n. -/
def matchLen (l : List Byte) : Nat → Nat → Nat → Nat
  | 0, _, _ => 0
  | n + 1, p, i => if i < l.length ∧ l.getD p 0 = l.getD i 0 then matchLen l n (p + 1) (i + 1) + 1 else 0

/-- The four most recent earlier places of the same chain, nearest first (R151). -/
def candidates (l : List Byte) (i : Nat) : List Nat :=
  match hashAt l i with
  | none => []
  | some h => (((List.range i).reverse).filter fun p => decide (hashAt l p = some h)).take 4

/-- The longest match of at least 3 bytes, the nearest on a tie: length and distance (R151). -/
def bestMatch (l : List Byte) (i : Nat) : Option (Nat × Nat) :=
  (candidates l i).foldl (fun best p =>
    let n := matchLen l (l.length - i) p i
    if n < 3 ∨ 4095 < i - p then best
    else match best with
      | none => some (n, i - p)
      | some (m, d) => if m < n then some (n, i - p) else some (m, d)) none

/-- The greedy sequence of R151 from a place on; fuel bounds the symbols. -/
def tokens (l : List Byte) : Nat → Nat → List Tok
  | 0, _ => []
  | fuel + 1, i =>
    if l.length ≤ i then []
    else match bestMatch l i with
      | some (n, d) => .copy n d :: tokens l fuel (i + n)
      | none => .lit (l.getD i 0) :: tokens l fuel (i + 1)

/-- The number of extra bits of a distance: floor of its binary logarithm (R146). -/
def distCode (d : Nat) : Nat := Nat.log2 d

/-- Bits of one symbol under a table. -/
def tokBits (table : Nat) : Tok → List Bool
  | .lit b => bitsMsb (mainLen table b.toNat) (codeOf (mainLen table) 273 b.toNat)
  | .copy n d =>
    let (sym, ex) := lengthSym n
    let dc := distCode d
    bitsMsb (mainLen table sym) (codeOf (mainLen table) 273 sym) ++ bitsLsb (lengthBase sym).1 ex ++
    bitsMsb (distLen table dc) (codeOf (distLen table) 12 dc) ++ bitsLsb dc (d - 2 ^ dc)

/-- The payload of a sequence under a table, END included (R146). -/
def payloadOf (table : Nat) (ts : List Tok) : List Byte :=
  let bits := ts.flatMap (tokBits table) ++ bitsMsb (mainLen table 256) (codeOf (mainLen table) 273 256)
  bitsToBytes (bits.length) bits

/-- The shortest of the four codings, the lowest table on a tie (R151). -/
def bestPayload (ts : List Tok) : Nat × List Byte :=
  [1, 2, 3].foldl (fun b t => let p := payloadOf t ts; if p.length < b.2.length then (t, p) else b) (0, payloadOf 0 ts)

/-- Bytes with zeros to the next multiple. -/
def padTo (m : Nat) (l : List Byte) : List Byte := l ++ List.replicate (roundUp l.length m - l.length) 0

/-- A block of header, payload and trailer, padded to 16 bytes (R144, R145). -/
def packBlock (index : Nat) (isRaw : Bool) (table : Nat) (last : Option Nat) (payload : List Byte) : List Byte :=
  let hdr := packFields [(0, 1, isRaw.toNat), (1, 2, table), (3, 13, payload.length),
    (16, 1, last.isSome.toNat), (17, 12, (last.getD 1) - 1)]
  let body := bytesLE 4 hdr ++ payload
  padTo 16 (body ++ bytesLE 4 (blockCheck index body))

/-- R151, R152: the block a lane stores, raw when coding does not shorten it, after a mismatch, or in raw mode. -/
def encodeBlock (index : Nat) (forceRaw : Bool) (last : Option Nat) (raw : List Byte) : List Byte :=
  let (t, p) := bestPayload (tokens raw raw.length 0)
  if forceRaw || raw.length ≤ p.length then packBlock index true 0 last raw else packBlock index false t last p

/-- Whether a stored block is raw. -/
def blockIsRaw (l : List Byte) : Bool := bitAt (leAt l 0 4) 0

/-- The index record of a tile row: OFFSET[0..T] in 16-byte units and ROW_CHECK, padded to 16 bytes (R141, R142). -/
def rowRecord (row : Nat) (offsets : List Nat) : List Byte :=
  let body := offsets.flatMap (bytesLE 2)
  padTo 16 (body ++ bytesLE 4 (crcRef 0x82F63B78 (0xFFFFFFFF ^^^ (0x80000000 + row)) body ^^^ 0xFFFFFFFF))

/-- The running offsets of blocks of given sizes, in 16-byte units. -/
def offsetsFrom (at_ : Nat) : List Nat → List Nat
  | [] => [at_]
  | n :: r => at_ :: offsetsFrom (at_ + n / 16) r

/-- A byte stream cut into blocks of 4,096 raw bytes, packed and padded to 4,096 bytes (R153). -/
def encodeStream : Nat → Nat → List Byte → List Byte
  | 0, _, _ => []
  | fuel + 1, index, l =>
    if l.isEmpty then []
    else if l.length ≤ 4096 then encodeBlock index false (some l.length) l
    else encodeBlock index false none (l.take 4096) ++ encodeStream fuel (index + 1) (l.drop 4096)

/-- Decompress a byte stream block by block (R153). -/
def decodeStream : Nat → Nat → List Byte → Except Discard (List Byte)
  | 0, _, _ => .error .length
  | fuel + 1, index, l =>
    let hdr := leAt l 0 4
    let last := bitAt hdr 16
    let raw := if last then bitsAt hdr 17 12 + 1 else 4096
    match decodeBlock index raw 0 l with
    | .error e => .error e
    | .ok p =>
      if last then .ok p
      else match decodeStream fuel (index + 1) (l.drop (roundUp (bitsAt hdr 3 13 + 8) 16)) with
        | .error e => .error e
        | .ok r => .ok (p ++ r)

end Sys2Proof.Machine
end

