-- ==== Sys2Proof/Config.lean ====
section
/-! DEFINITION. What one part fixes, and the free values: constants without a body, of which nothing can be proved. -/
namespace Sys2Proof

/-- The 64-bit device ID fuse (R440, R445); the spec gives no value. -/
opaque Config.deviceId : BitVec 64

/-- The silicon stepping (R440); the spec gives no value. -/
opaque Config.stepping : BitVec 8

/-- The DBG_EN fuse (R455); fuse provisioning, the spec gives no value. -/
opaque Config.dbgEn : Bool

/-- Random starting values, as of an RTP sequence number (R281), by the counter of State. -/
opaque Config.random : Nat → BitVec 64

/-- A value that the spec leaves undefined, by the counter of State. -/
opaque Config.undefinedValue : Nat → BitVec 64

/-- Byte n of a destination that the spec leaves undefined (R79), by the counter of State. -/
opaque Config.undefinedByte (k n : Nat) : BitVec 8

/-- YCbCr to RGB at 12 bits (R163 stage 3): matrix code, full range, luma, and chroma sums of eight weights; 36 bits R, G, B. The spec names the matrices and gives no integer coefficients or rounding. -/
opaque Config.yccToRgb (csc : Nat) (full : Bool) (y cb8 cr8 : Nat) : BitVec 36

/-- A luma sample of `a` bits at `b` bits (R253); the spec gives no rule where they differ. -/
opaque Config.resample (a b v : Nat) : Nat

/-- A luma sample of `a` bits at `b` bits: itself where they agree. -/
def Config.toDepth (a b v : Nat) : Nat := if a = b then v else Config.resample a b v

/-- RGB to luma (R253): matrix code, full range, 12-bit components, and bits of the result; the spec names the matrices and gives no integer coefficients or rounding. -/
opaque Config.rgbToLuma (csc : Nat) (full : Bool) (r g b bits : Nat) : Nat

/-- A sample of a picture at 1 / f of its resolution, from the f x f samples of its place (R256); the spec gives no filter. -/
opaque Config.reduceBlock (f : Nat) (samples : List Nat) : Nat

/-- The transform of R256's costs is of 8 x 8 differences, otherwise 4 x 4; the spec does not say. -/
opaque Config.hadamard8 : Bool

/-- λ of a row's quantiser (R256); the spec gives no formula. -/
opaque Config.lambda (qp : Nat) : Nat
/-- The estimated bits of a vector in quarter samples (R256); the spec gives no formula. -/
opaque Config.vectorBits (x y : Int) : Nat

/-- A sample between samples, in quarters, out of the 8 x 8 samples around it, as H.264 or H.265 interpolates. -/
opaque Config.interpolate (h264 : Bool) (fx fy : Nat) (samples : List Nat) : Nat

/-- The flags exact_match and broken_link of a recovery point SEI (R261); the spec gives no value. -/
opaque Config.recoveryFlags : BitVec 2

/-- The glyph ROM (R25): whether pixel (x, y) of a character's cell of a height is white; the spec gives no bitmaps. -/
opaque Config.glyph (height char x y : Nat) : Bool

/-- Lines of a span of n that the stores hold at replicated line k after a takeover (R226), beyond the first; the spec gives no count. -/
opaque Config.storeFill (k n : Nat) : Nat

/-- u1.15 gain of an attenuation in dB, 1 and more (R412); the spec gives no number format or rounding. -/
opaque Config.duckGain (db : Nat) : BitVec 15

/-- Sample of a sine tone of a peak amplitude at a phase in 1/48,000 of a turn, 24 bits (R415); the spec gives no precision. -/
opaque Config.toneSine (phase peak : Nat) : BitVec 24

end Sys2Proof
end

