-- ==== Sys2Proof/Machine/Tab.lean ====
section
/-! DEFINITION. Indexed state in one canonical form: a list of (index, value) pairs with rising indexes that lists no value equal to what an unlisted index reads as.  Memory (R105) has the same form over bytes. -/
namespace Sys2Proof.Machine

/-- A table of values by index; an unlisted index holds the table's default. -/
abbrev Tab (α : Type) := List (Nat × α)

/-- The value at an index. -/
def tget {α : Type} (d : α) : Tab α → Nat → α
  | [], _ => d
  | (k, v) :: r, i => if i = k then v else tget d r i

/-- Put an entry before the first one of a higher index. -/
def tput {α : Type} (i : Nat) (x : α) : Tab α → Tab α
  | [] => [(i, x)]
  | (k, v) :: r => if i < k then (i, x) :: (k, v) :: r else (k, v) :: tput i x r

/-- Put a value at an index, keeping the order and listing no default. -/
def tset {α : Type} [DecidableEq α] (d : α) (t : Tab α) (i : Nat) (x : α) : Tab α :=
  let r := t.filter fun e => e.1 != i
  if x = d then r else tput i x r

/-- Change the value at an index by a function. -/
def tmod {α : Type} [DecidableEq α] (d : α) (t : Tab α) (i : Nat) (f : α → α) : Tab α :=
  tset d t i (f (tget d t i))

/-- Change every listed value; values that become the default are dropped. -/
def tmap {α : Type} [DecidableEq α] (d : α) (f : Nat → α → α) : Tab α → Tab α
  | [] => []
  | (k, v) :: r => if f k v = d then tmap d f r else (k, f k v) :: tmap d f r

/-- The canonical form: indexes rise and no listed value is the default. -/
def tabWf {α : Type} [DecidableEq α] (d : α) : Tab α → Bool
  | [] => true
  | [(_, v)] => decide (v ≠ d)
  | (k, v) :: (k', v') :: r => decide (v ≠ d) && decide (k < k') && tabWf d ((k', v') :: r)

/-- The smallest index below n whose value meets a test, counting up from i. -/
def firstIdx (p : Nat → Bool) : Nat → Nat → Option Nat
  | _, 0 => none
  | i, n + 1 => if p i then some i else firstIdx p (i + 1) n

/-- The value of an association list at a key. -/
def assoc {α : Type} (l : List (Nat × α)) (k : Nat) : Option α :=
  (l.find? fun e => e.1 == k).map Prod.snd

/-- Replace the first element that meets a test. -/
def replFirst {α : Type} (p : α → Bool) (f : α → α) : List α → List α
  | [] => []
  | a :: r => if p a then f a :: r else a :: replFirst p f r

end Sys2Proof.Machine
end

