-- ==== Sys2Proof/Machine/StateBase.lean ====
section
/-! DEFINITION. State of chapters 01 to 03: Wall Position, the Source Ledger, rings, replies, events, and the outputs of a step. -/
namespace Sys2Proof.Machine
open Sys2Proof

/-- A Wall Position (R6): frame, line and tick. -/
structure Wp where
  frame : Nat := 0
  line : Nat := 0
  tick : Nat := 0
  deriving DecidableEq, Repr

/-- A stored 48-bit WP field (R12), which has frame and line but no tick. -/
structure LineWp where
  frame : Nat := 0
  line : Nat := 0
  deriving DecidableEq, Repr

/-- A PTP time: seconds and nanoseconds. -/
structure PtpTime where
  sec : Nat := 0
  ns : Nat := 0
  deriving DecidableEq, Repr

/-- Wall timing (R41, R49). -/
structure WallTiming where
  lines : Nat := 2250
  rateNum : Nat := 60
  rateDen : Nat := 1
  spread : Bool := false
  wallId : Nat := 0
  anchor : Option PtpTime := none
  deriving DecidableEq, Repr

/-- The held packet a pending effect belongs to: slice, ring and free-running index. -/
structure CmdKey where
  slice : Nat := 0
  ring : Nat := 0
  index : Nat := 0
  deriving DecidableEq, Repr

/-- A REALIGN that waits for its acting boundary (R305), or one that the root announced (R342): its command, target and delta. -/
structure Realign where
  key : Option CmdKey := none
  slew : Bool := false
  target : Nat := 2
  delta : Int := 0
  rate : Nat := 0
  frame : Nat := 0
  deriving DecidableEq, Repr

/-- A REALIGN SLEW in progress (R305): ticks captured, and its rate in ppm. -/
structure Slew where
  key : Option CmdKey := none
  total : Int := 0
  rate : Nat := 0
  /-- WP at which it started. -/
  start : Wp := {}
  deriving DecidableEq, Repr

/-- WP and wall timing (R40 to R54). -/
structure TimeSt where
  wp : Wp := {}
  running : Bool := false
  timing : WallTiming := {}
  /-- Timing changes accepted, their boundary frames (R49), and the timed commands that reply there (R70); wall identifier 0 keeps the one in force. -/
  pendTiming : List (WallTiming × Nat × Option CmdKey) := []
  /-- REALIGNs accepted (R52, R305). -/
  realign : List Realign := []
  slew : Option Slew := none
  /-- Frame whose boundary has been applied last (R181). -/
  lastBoundary : Option Nat := none
  /-- The boundary frame whose scheduled events are being run after a forward jump has skipped it (R52). -/
  skip : Option Nat := none
  deriving DecidableEq, Repr

/-- Kind of a source (R11). -/
inductive Kind where
  | decoded | dpin | imported | surface
  deriving DecidableEq, Repr

/-- Liveness states (R7, R14). -/
inductive LState where
  | unproven | live | late | stale | frozen | concealed | degraded | unfit | withdrawn | notTracked
  deriving DecidableEq, Repr

/-- Treatments (R7). -/
inductive Treatment where
  | hatch | hold | substitute | blank
  deriving DecidableEq, Repr

/-- The inputs of the evaluation of R15, and what waits for publication (R19). -/
structure LiveInputs where
  withdrawn : Bool := false
  unfit : Bool := false
  arrived : Bool := false
  concealed : Bool := false
  damaged : Bool := false
  frozen : Bool := false
  /-- Upstream state in force (R17). -/
  upstream : LState := .live
  upAgeBase : Option LineWp := none
  /-- A provenance SEI was accepted with the last delivery (R17, R33). -/
  sei : Bool := false
  /-- The exporter's AGE_BASE_WP was not taken: the counter counts from the entry's own (R31, R33). -/
  upOwn : Bool := false
  /-- The upstream state wins in the published state (R17). -/
  upWon : Bool := false
  /-- State computed at the last line start, published at the next (R19), with its reason code of R35 and whether upstream won. -/
  computed : Option (LState × Nat × Bool) := none
  /-- Reason code of the latest change of an input (R35). -/
  reason : Nat := 0
  /-- What the first two steps of R15 left withdrawn or unfit while not owned: detach ran (R249). -/
  detached : Bool := false
  deriving DecidableEq, Repr

/-- A coalesced liveness event of one wall frame (R35). -/
structure LiveEvent where
  prev : LState := .unproven
  next : LState := .unproven
  changes : Nat := 0
  reason : Nat := 0
  wp : Wp := {}
  /-- Origin and age in seconds at the last change. -/
  origin : Option LineWp := none
  age : Option Nat := none
  deriving DecidableEq, Repr

/-- One Source Ledger entry (R11): the fields of its 64-byte layout and the inputs of R15. -/
structure LedgerEntry where
  owner : Nat := 0
  kind : Kind := .decoded
  state : LState := .unproven
  valid : Bool := false
  static : Bool := false
  changeBound : Bool := false
  treatment : Treatment := .hatch
  glyph : Nat := 1
  period : Nat := 0
  deadline : Nat := 0
  lastArrival : Option LineWp := none
  origin : Option LineWp := none
  ageBase : Option LineWp := none
  originAddr : Nat := 0
  changeCount : Nat := 0
  proven : Nat := 0
  touchDrop : Bool := false
  events : Bool := true
  holdColour : Nat := 0
  card : Nat := 0
  degradedTiles : Nat := 0
  lateCount : Nat := 0
  staleCount : Nat := 0
  frozenCount : Nat := 0
  concealCount : Nat := 0
  since : Option LineWp := none
  prev : LState := .unproven
  unfitReason : Nat := 0
  inp : LiveInputs := {}
  ev : Option LiveEvent := none
  deriving DecidableEq, Repr

/-- A treatment asset accepted by TREATMENT_ASSETS and its boundary frame (R39). -/
structure AssetChange where
  asset : Nat := 0
  index : Nat := 0
  clear : Bool := false
  colour : Nat := 0
  handle : Nat := 0
  pass : Nat := 0
  alpha : Nat := 0
  frame : Nat := 0
  deriving DecidableEq, Repr

/-- A LIVENESS_SET past its commit point: its command, whether its values apply already, and its parameters (R36). -/
structure LiveSet where
  key : Nat × Nat × Nat := (0, 0, 0)
  applied : Bool := false
  /-- WP after which the first wall line start applies the values. -/
  after : Wp := {}
  pkt : Packet := 0
  deriving DecidableEq, Repr

/-- The Source Ledger and the treatment assets (R11, R39). -/
structure LedgerSt where
  entries : Tab LedgerEntry := []
  corrected : Nat := 0
  /-- Latest deciding WP (R19). -/
  deciding : Wp := {}
  /-- Hold colour table, 16 colours of 30 bits, mid-grey where unlisted. -/
  holdColours : Tab Nat := []
  /-- Card table, 64 slots: handle and latched pass; none is an empty slot. -/
  cards : Tab (Option (Nat × Nat)) := []
  hatchColour : Nat := 0x3FFB0000
  hatchAlpha : Nat := 0x80
  pendAssets : List AssetChange := []
  /-- Wall line start evaluated last (R15). -/
  evalAt : Option LineWp := none
  sets : List LiveSet := []
  /-- Stillwater's reports that the next evaluations take in: source, whether FROZEN, and whether it came too late for the next one (R219). -/
  reports : List (Nat × Bool × Bool) := []
  /-- Events still owed for entries that have been freed: source, owner and event (R35, R249). -/
  owedEvents : List (Nat × Nat × LiveEvent) := []
  deriving DecidableEq, Repr

/-- Status codes (R82). -/
inductive Status where
  | ok | deferred | duplicate | badOpcode | badParam | notPermitted | noResource | backpressure
  | notQuiesced | linebufShort | budgetExceeded | handleStale | weirDenied | checkFailed | timeout
  | notReady | engineFault | deviceFault
  deriving DecidableEq, Repr

/-- A reply entry (R76). -/
structure Reply where
  tag : Nat := 0
  status : Status := .ok
  opcode : Nat := 0
  orig : Nat := 0
  ring : Nat := 0
  wpDone : Nat := 0
  /-- Bytes 16 to 31 at their place in the 32-byte entry. -/
  detail : Nat := 0
  /-- Not in the entry: the submission ring of the packet (R71), and whether Lockkeeper sends the reply (R73). -/
  source : Nat := 0
  lk : Bool := false
  deriving DecidableEq, Repr

/-- A recorded command of a tag window (R78). -/
structure TagRec where
  tag : Nat := 0
  opcode : Nat := 0
  crc : Nat := 0
  reply : Option Reply := none
  final : Bool := false
  deriving DecidableEq, Repr

/-- How far a taken packet has come (R70, R74, R77): taken, armed, past its commit point with its one reply still to come, or ST_DEFERRED sent. -/
inductive Phase where
  | taken | armed | committed | deferred
  deriving DecidableEq, Repr

/-- A packet the device has taken and not finished. -/
structure Held where
  slice : Nat := 0
  ring : Nat := 0
  index : Nat := 0
  /-- The packet as the device reads it (R67); `index` numbers it among all its ring has given. -/
  pkt : Packet := 0
  phase : Phase := .taken
  /-- WP at which an armed command acts (R70). -/
  due : Wp := {}
  /-- WP of the taking. -/
  taken : Wp := {}
  /-- Place in its atomic group and the group's length; length 1 stands alone (R72). -/
  pos : Nat := 0
  len : Nat := 1
  deriving DecidableEq, Repr

/-- A submission ring (R59). -/
structure SubRing where
  base : Nat := 0
  enable : Bool := false
  space : Bool := false
  sizeLog2 : Nat := 0
  error : Bool := false
  head : Word32 := 0
  tail : Word32 := 0
  /-- Tag window, newest first, at most 256 (R78). -/
  tags : List TagRec := []
  /-- Packets fetched from HEAD on and not yet taken (R62, R75). -/
  ahead : List Packet := []
  /-- Packets taken since the device reset, whatever the ring's enables: they number the packets held (R77). -/
  count : Nat := 0
  deriving DecidableEq, Repr

/-- A reply or event ring (R59). -/
structure RepRing where
  base : Nat := 0
  enable : Bool := false
  space : Bool := false
  sizeLog2 : Nat := 0
  error : Bool := false
  vector : Nat := 0
  holdoff : Nat := 0
  head : Word32 := 0
  tail : Word32 := 0
  /-- An interrupt waits for the hold-off (R63). -/
  irqPending : Bool := false
  /-- The hold-off interval of the last interrupt runs (R63). -/
  holdRunning : Bool := false
  /-- When the last interrupt was raised, as a time of `upTime` (R63). -/
  holdAt : Nat := 0
  deriving DecidableEq, Repr

/-- The rings of one slice (R59) and what the device still owes it. -/
structure SliceRings where
  sq : Tab SubRing := []
  rq : RepRing := {}
  eq : RepRing := {}
  wbEnable : Bool := false
  wbSpace : Bool := false
  wbAddr : Nat := 0
  /-- The writeback block stopped on an error (R64); WHICH 0x06. -/
  wbError : Bool := false
  held : List Held := []
  /-- Replies that wait for the reply ring (R64). -/
  waiting : List Reply := []
  /-- Events lost (R80), saturating at 32 bits, with the WPs of the first and the last. -/
  lost : Nat := 0
  firstLost : Wp := {}
  lastLost : Wp := {}
  deriving DecidableEq, Repr

/-- What leaves the device's balls in one step. -/
inductive Output where
  /-- A reply entry of a slice (R76), at an address of host memory, under the slice's PASID (R102), or of the Reservoir. -/
  | reply (slice pasid : Nat) (space : Bool) (addr : Nat) (r : Reply)
  /-- A 32-byte event entry of a slice (R80). -/
  | event (slice pasid : Nat) (space : Bool) (addr : Nat) (bits : Nat)
  /-- The device's write of bytes to host memory under a slice's PASID (R102). -/
  | hostWrite (slice pasid addr : Nat) (data : List Byte)
  /-- An MSI-X message of a vector (R63, R451). -/
  | msix (vector : Nat)
  /-- Data returned by a register, aperture or window read: width in bytes, value. -/
  | readData (bytes value : Nat)
  /-- Data returned by an aperture read as a poisoned completion (R108). -/
  | readPoisoned (bytes value : Nat)
  /-- Bytes returned on the SMBus. -/
  | smbData (data : List Byte)
  /-- A line handed to an output's transmitter: output, line, pixels as the words of R212. -/
  | line (output index : Nat) (pixels : List Nat)
  /-- A packet, a control block or a symbol of the timing lane sent on a Toden port. -/
  | toden (port : Nat) (kind : Nat) (data : List Byte)
  /-- The serial bits of a Toden port's data lanes 0 to 3 (R328, R356). -/
  | lanes (port : Nat) (bits : List (List Bool))
  /-- An Ethernet frame sent on a port. -/
  | eth (port : Nat) (frame : List Byte)
  /-- The level of a named pin: REFOUT 0 and 1, DPIN HPD 16 to 19, SMB_ALERT_N 32, GPIO n at 64 + n (R465), reset 96. -/
  | pin (which : Nat) (level : Bool)
  /-- A sample of one of the twelve audio destinations (R411): destination, left, right. -/
  | audio (dest : Nat) (left right : Int)
  /-- Drive of a haptic channel for a drive period, in 1/32,768 mV: an ERM's voltage, or the amplitude of an LRA's carrier (R403). -/
  | haptic (channel : Nat) (drive : Int)
  /-- A link action of a DisplayPort output: training starts 1, self-refresh entry 2, sending from line 0 again 3, power-down 4. -/
  | link (output kind : Nat)
  /-- The Main Stream Attributes of an output: H and V total, start, width or height, sync width and polarity, bits per component (R202). -/
  | attributes (output : Nat) (fields : List Nat)
  /-- The audio timestamp SDP of an output: Maud and Naud (R205). -/
  | audioTime (output maud naud : Nat)
  deriving DecidableEq, Repr

end Sys2Proof.Machine
end

