-- ==== Sys2Proof/Machine/StateStore.lean ====
section
/-! DEFINITION. State of chapters 04 to 06: slices and shares, the Reservoir, surfaces, the line ledger, palettes and Sluice. -/
namespace Sys2Proof.Machine
open Sys2Proof

/-- Slice states (R85). -/
inductive SliceState where
  | free | created | active | quiescing | quiesced | freezing | frozen | restoring | draining
  deriving DecidableEq, Repr

/-- Criticality classes (R87): S, O, A. -/
inductive Cls where
  | s | o | a
  deriving DecidableEq, Repr

/-- A share record (R89). -/
structure Share where
  capacity : Nat := 0
  handles : Nat := 0
  sources : Nat := 0
  stWeight : Nat := 0
  beWeight : Nat := 0
  layers : Nat := 0
  decodeCtx : Nat := 0
  decodeRate : Nat := 0
  encodeRate : Nat := 0
  cmdRate : Nat := 0
  queueLimit : Nat := 0
  deriving DecidableEq, Repr

/-- A quiesce or freeze that owes its final reply (R94, R103). -/
structure SliceWait where
  key : CmdKey := {}
  freeze : Bool := false
  /-- Frames still allowed: the start frame and TIMEOUT. -/
  startFrame : Nat := 0
  timeout : Nat := 0
  deriving DecidableEq, Repr

/-- One slice (R85 to R104). -/
structure Slice where
  state : SliceState := .free
  cls : Cls := .s
  /-- PASID bound; none before SLICE_BIND_PASID (R102). -/
  pasid : Option Nat := none
  share : Share := {}
  /-- Share changes accepted, each with its command and its boundary frame (R93). -/
  pendShares : List (Share × CmdKey × Nat) := []
  /-- Packets taken in the current wall frame (R91). -/
  taken : Nat := 0
  waits : List SliceWait := []
  orphans : Nat := 0
  retired : Nat := 0
  aborted : Nat := 0
  orphanAborts : Nat := 0
  saveSerial : Nat := 0
  deriving DecidableEq, Repr

/-- A 24 GiB store range of whole granules that waits for its zero-fill (R112). -/
structure FillJob where
  base : Nat := 0
  granules : Nat := 0
  owner : Nat := 0
  deriving DecidableEq, Repr

/-- Readers that keep a latch record beside the layers and the card table (R113, R118). -/
inductive Reader where
  | session (n : Nat)
  | exporter (n : Nat)
  | transit (n : Nat)
  deriving DecidableEq, Repr

/-- A reader's latch record (R118): surface index and pass. -/
structure Latch where
  reader : Reader
  surf : Nat
  pass : Nat
  deriving DecidableEq, Repr

/-- Writer kinds (R113). -/
inductive Writer where
  | host | decode | dpin | fabric | batch | capture
  deriving DecidableEq, Repr

/-- A surface index: handle table entry (R109 to R111) and line ledger entry (R113). -/
structure Surface where
  used : Bool := false
  gen : Nat := 1
  owner : Nat := 0
  format : Nat := 0
  width : Nat := 0
  height : Nat := 0
  pitch : Nat := 0
  base : Nat := 0
  granules : Nat := 0
  length : Nat := 0
  frontier : Nat := 0
  pass : Nat := 0
  writer : Writer := .host
  waitable : Bool := true
  releasePending : Bool := false
  poisoned : Bool := false
  /-- The entry is being rebuilt (R115). -/
  rebuilding : Bool := false
  /-- Host writes of a rebuilt entry need START_PASS (R115). -/
  needStart : Bool := false
  /-- A SURFACE_WRITE whose lines were being recorded when the error was found (R115). -/
  failKey : Option CmdKey := none
  /-- A deferred release: the command that owes a reply, if any, and the handle released (R121, R124). -/
  relKey : Option CmdKey := none
  relHandle : Nat := 0
  /-- Orphans whose job uses this storage (R96, R121). -/
  orphans : Nat := 0
  /-- Users of R130 that write into or read from it: attached sources, exports, sessions, libraries. -/
  users : Nat := 0
  /-- The source whose writer writes this buffer (R235, R381). -/
  source : Option Nat := none
  /-- Origin WP and other true data of the pass kept for exports and commits: width and height delivered (R235, R198). -/
  trueW : Nat := 0
  trueH : Nat := 0
  /-- Order in which the device's passes began (R179). -/
  began : Nat := 0
  /-- Per row group states stored with a decoded picture (R33): first line, state, age base. -/
  rowStates : List (Nat × LState × Option LineWp) := []
  /-- Tile rows of the pass that are written and that FRONTIER has yet to reach, an older row being still with a lane (R143, R155). -/
  rowsDone : List Nat := []
  /-- PASS as the last rebuild of the entry left it: a reader latched at an older pass has lost its lines (R115). -/
  rebuiltPass : Option Nat := none
  deriving DecidableEq, Repr

/-- A fence that waits (R133). -/
structure Fence where
  key : CmdKey := {}
  surf : Nat := 0
  gen : Nat := 0
  unlatched : Bool := false
  pass : Nat := 0
  line : Nat := 0
  startFrame : Nat := 0
  timeout : Nat := 0
  deriving DecidableEq, Repr

/-- One pseudo-channel (R107, R125, R126, R128). -/
structure PseudoChannel where
  corrected : Nat := 0
  /-- Credits in bytes per slice. -/
  stCredit : Tab Nat := []
  beCredit : Tab Nat := []
  stNext : Nat := 0
  beNext : Nat := 0
  /-- Slots since the last BE service while BE had requests. -/
  beWait : Nat := 0
  /-- Requests pending RT, ST and BE summed over the services since the group was read, their number, and the peaks (R439). -/
  occSum : List Nat := [0, 0, 0]
  occCount : Nat := 0
  occPeak : List Nat := [0, 0, 0]
  deriving DecidableEq, Repr

/-- The Reservoir (chapter 05). -/
structure StoreSt where
  /-- Store bytes; an unlisted byte reads 0 (R418). -/
  mem : List (Nat × Byte) := []
  /-- Poisoned 256-byte units (R108), by unit number. -/
  poison : Tab Bool := []
  /-- Poisoned units whose first read has posted its event. -/
  poisonSeen : Tab Bool := []
  surfs : Tab Surface := []
  latches : List Latch := []
  fills : List FillJob := []
  fences : List Fence := []
  pcs : Tab PseudoChannel := []
  /-- Passes begun by writers. -/
  passSeq : Nat := 0
  /-- Sources whose next delivery is a damaged arrival (R115). -/
  redo : List Nat := []
  deriving DecidableEq, Repr

/-- Work a compressor lane takes (R155), in priority order. -/
inductive LaneKind where
  | intake | decode | surfaceWrite | batch
  deriving DecidableEq, Repr

/-- A tile row or byte-stream block offered to the lanes (R155, R156). -/
structure LaneWork where
  kind : LaneKind := .batch
  slice : Nat := 0
  /-- Surface index, or none for a byte stream. -/
  surf : Option Nat := none
  /-- Tile row, or block index of the stream. -/
  row : Nat := 0
  /-- Raw bytes; of a stream received over the fabric, the block that the lane decompresses. -/
  raw : List Byte := []
  last : Bool := false
  received : Bool := false
  /-- The SLICE_SAVE whose image the block belongs to (R99). -/
  save : Option CmdKey := none
  /-- The surface has been released or the pass abandoned: the row is finished and discarded (R96, R115, R121). -/
  orphan : Bool := false
  deriving DecidableEq, Repr

/-- A SURFACE_WRITE whose tile rows are with the lanes (R131, R155): its command, the FRONTIER that ends it and its status; an orphan of its slice with the time of the reset in ms (R96). -/
structure WriteJob where
  key : CmdKey := {}
  slice : Nat := 0
  surf : Nat := 0
  stop : Nat := 0
  status : Status := .ok
  orphan : Bool := false
  at_ : Nat := 0
  deriving DecidableEq, Repr

/-- A compressor lane (R151, R152). -/
structure Lane where
  job : Option LaneWork := none
  total : Nat := 0
  rawMode : Bool := false
  inService : Bool := true
  deriving DecidableEq, Repr

/-- A mismatch event being coalesced (R152). -/
structure MismatchEvent where
  lane : Nat := 0
  stream : Bool := false
  handle : Nat := 0
  owner : Nat := 0
  wp : Wp := {}
  block : Nat := 0
  count : Nat := 0
  deriving DecidableEq, Repr

/-- Sluice (chapter 06). -/
structure SluiceSt where
  lanes : Tab Lane := []
  queue : List LaneWork := []
  writes : List WriteJob := []
  events : List MismatchEvent := []
  /-- Lines of the tile row that an intake writer gathers, by surface index (R156). -/
  staging : Tab (List (List Byte)) := []
  deriving DecidableEq, Repr

end Sys2Proof.Machine
end

