-- ==== Sys2Proof/Machine/StateComp.lean ====
section
/-! DEFINITION. State of chapters 07 to 10: layers, commits, scaling, outputs, rectangles, Stillwater and the banks. -/
namespace Sys2Proof.Machine
open Sys2Proof

/-- A layer descriptor (R161). -/
structure Desc where
  output : Nat := 0
  slot : Nat := 0
  touch : Bool := false
  alphaMode : Nat := 0
  linebuf : Bool := false
  coeffSet : Nat := 0
  triangle : Bool := false
  format : Nat := 0
  source : Nat := 0
  planeAlpha : Nat := 0
  csc : Nat := 0
  fullRange : Bool := false
  vTaps : Nat := 0
  nLead : Nat := 0
  handle : Nat := 0
  srcX : Nat := 0
  srcY : Nat := 0
  srcW : Nat := 0
  srcH : Nat := 0
  dstX : Int := 0
  dstY : Int := 0
  dstW : Nat := 0
  dstH : Nat := 0
  deriving DecidableEq, Repr

/-- What a layer shows: its descriptor, the buffer it latches (handle and pass) and its palette (R138). -/
structure LayerImage where
  desc : Option Desc := none
  buf : Option (Nat × Nat) := none
  pal : Tab Nat := []
  owner : Nat := 0
  /-- The owner's class, latched when the layer enters composition (R87). -/
  cls : Cls := .s
  /-- A buffer has been latched with this descriptor, whether or not it still is (R176, R210). -/
  latched : Bool := false
  /-- Its slice has been reset or destroyed: the region is WITHDRAWN until the layer leaves (R95). -/
  gone : Bool := false
  /-- Source size that COMMIT took (R197). -/
  w : Nat := 0
  h : Nat := 0
  deriving DecidableEq, Repr

/-- One of the 64 layer slots (R158), by 8 x output + slot. -/
structure Slot where
  owner : Option Nat := none
  /-- Pending descriptor and pending palette (R161, R139). -/
  pending : Option Desc := none
  pendPal : Tab Nat := []
  /-- The pending state is empty through the owner's LAYER_CLEAR (R184). -/
  cleared : Bool := false
  /-- A layer of the slot has taken effect (R184). -/
  took : Bool := false
  /-- In force since a wall frame boundary, and on the glass since an output frame start (R174). -/
  active : LayerImage := {}
  shown : LayerImage := {}
  shed : Bool := false
  /-- Boundary frame of the manager's clear (R184). -/
  mgrClear : Option Nat := none
  /-- Passes of a device source in this output frame (R179): surface index and pass last used. -/
  lastPass : Option (Nat × Nat) := none
  /-- The pass decided for each of the next output lines: line, then surface and pass, or none (R179). -/
  decided : List (Nat × Option (Nat × Nat)) := []
  /-- The same for the first lines of the next output frame, and the descriptor they were decided for. -/
  decNext : List (Nat × Option (Nat × Nat)) := []
  decFor : Option Desc := none
  /-- How late the newest pass used in this frame, and in the next, was begun: no older one is taken (R179). -/
  usedBegan : Nat := 0
  nextBegan : Nat := 0
  /-- Size with which a whole-frame layer began this output frame; 0 before it had one (R198). -/
  frameW : Nat := 0
  frameH : Nat := 0
  /-- The pass chosen for output line 0 of the next frame, as surface index and pass, and the line start it was chosen at (R198). -/
  sizeNext : Option (Nat × Nat) := none
  sizeWp : Wp := {}
  /-- The source is UNFIT for this layer alone (R198), the size whose failure was reported, and whether R180's was. -/
  unfitLayer : Bool := false
  reported : Option (Nat × Nat) := none
  outside : Bool := false
  /-- Counter text latched at the frame start: state and age in seconds (R25). -/
  counter : Option (LState × Option Nat) := none
  deriving DecidableEq, Repr

/-- A commit group (R171, R185). -/
structure Group where
  hold : Bool := false
  holdFrames : Nat := 0
  placeMask : Nat := 0
  deriving DecidableEq, Repr

/-- A COMMIT_GROUP_DEFINE change that waits for its boundary (R185). -/
structure GroupChange where
  group : Nat := 0
  outputs : Nat := 0
  new : Group := {}
  frame : Nat := 0
  deriving DecidableEq, Repr

/-- One layer of a commit record (R173). -/
structure SnapLayer where
  key : Nat := 0
  desc : Option Desc := none
  /-- Source size that COMMIT took (R197). -/
  w : Nat := 0
  h : Nat := 0
  /-- The latch was cancelled by a release (R122). -/
  cancelled : Bool := false
  /-- EV_LAYER_NOT_READY was posted for it (R176). -/
  posted : Bool := false
  deriving DecidableEq, Repr

/-- A commit record (R173 to R178). -/
structure CommitRecord where
  slice : Nat := 0
  group : Nat := 0
  target : Nat := 0
  layers : List SnapLayer := []
  /-- The command, and whether it replies on success (R69). -/
  key : CmdKey := {}
  /-- Boundaries waited under GROUP_HOLD (R177). -/
  held : Nat := 0
  /-- HOLD_FRAMES have passed, the record takes effect at the next boundary (R177). -/
  expired : Bool := false
  /-- The record took effect; the layers left are those not ready (R176). -/
  applied : Bool := false
  /-- Commands this record superseded that still owe their end (R178). -/
  superseded : List CmdKey := []
  deriving DecidableEq, Repr

/-- A coefficient set (R192): 64 phases of 8 horizontal and 6 vertical coefficients. -/
structure CoeffSet where
  loaded : Bool := false
  h : List (List Int) := []
  v : List (List Int) := []
  deriving DecidableEq, Repr

/-- One layer of a recorded layer map (R182). -/
structure MapEntry where
  slot : Nat := 0
  cls : Cls := .s
  owner : Nat := 0
  source : Nat := 0
  touch : Bool := false
  x : Nat := 0
  y : Nat := 0
  w : Nat := 0
  h : Nat := 0
  desc : Desc := {}
  deriving DecidableEq, Repr

/-- The map of one output frame: its start and its layers (R182). -/
structure LayerMap where
  start : Wp := {}
  layers : List MapEntry := []
  deriving DecidableEq, Repr

/-- Confluence (chapters 07 and 08). -/
structure CompSt where
  slots : Tab Slot := []
  /-- Group of each output (R171). -/
  groupOf : List Nat := [0, 1, 2, 3, 4, 5, 6, 7]
  groups : Tab Group := []
  pendGroups : List GroupChange := []
  /-- Commit records in order of acceptance (R173, R181). -/
  records : List CommitRecord := []
  coeffs : Tab CoeffSet := []
  /-- Sets that take effect at a boundary frame (R193). -/
  pendCoeffs : List (Nat × CoeffSet × Nat) := []
  /-- Outputs Left Bank carries, bit n for output n (R167, R186). -/
  left : Nat := 0x0F
  pendLeft : Option (Nat × Nat) := none
  /-- Last four layer maps per output, newest first (R182). -/
  maps : Tab (List LayerMap) := []
  /-- Layers of slices reset or destroyed that leave at a boundary frame: slot keys (R95). -/
  removals : List (Nat × Nat) := []
  deriving DecidableEq, Repr

/-- Output states (R200). -/
inductive OutState where
  | unconfigured | disabled | training | running | linkDown | selfRefresh
  deriving DecidableEq, Repr

/-- Timing and link settings (R208). -/
structure OutCfg where
  edp : Bool := false
  lanes : Nat := 1
  ssc : Bool := true
  bpc : Nat := 8
  /-- 0: D is 1, 1: D is 2, 2: D is one half. -/
  ratio : Nat := 0
  maxRate : Nat := 0
  hPol : Bool := false
  vPol : Bool := false
  srAllowed : Bool := false
  gap : Nat := 0
  hActive : Nat := 0
  hTotal : Nat := 0
  hFront : Nat := 0
  hSync : Nat := 0
  vActive : Nat := 0
  vOut : Nat := 0
  vFront : Nat := 0
  vSync : Nat := 0
  offset : Nat := 0
  deriving DecidableEq, Repr

/-- An OUTPUT_ENABLE (R209). -/
structure EnableCmd where
  key : CmdKey := {}
  space : Bool := false
  edidDest : Nat := 0
  frame : Nat := 0
  started : Bool := false
  /-- WP of the first output frame start, and its time of `upTime`. -/
  first : Wp := {}
  startAt : Nat := 0
  deriving DecidableEq, Repr

/-- Underflow counting of one wall frame (R204). -/
structure Underflow where
  lines : Nat := 0
  first : Nat := 0
  wp : Wp := {}
  total : Nat := 0
  deriving DecidableEq, Repr

/-- Self-refresh (R220, R221). -/
structure SelfRefresh where
  granted : Bool := false
  idleFrames : Nat := 0
  /-- The sink reports panel self-refresh in its DPCD. -/
  sink : Bool := false
  /-- FRAME_CRC register of the frame being composed and of the last whole frame. -/
  crcRun : Nat := 0xFFFFFFFF
  frameCrc : Nat := 0
  equal : Nat := 0
  frames : Nat := 0
  /-- An exit cause of R221 that waits for the next frame start; 0 none. -/
  cause : Nat := 0
  deriving DecidableEq, Repr

/-- One Output Sequencer (chapter 09). -/
structure OutputSt where
  state : OutState := .unconfigured
  cfg : OutCfg := {}
  /-- Output frame in progress and the WP it started at. -/
  frame : Nat := 0
  start : Wp := {}
  inFrame : Bool := false
  /-- Line being sent; a composed line passes the line FIFO of R203 within one command, so that none stays in it (log entry 9). -/
  line : Nat := 0
  hpd : Bool := false
  lanes : Nat := 0
  rate : Nat := 0
  attempts : Nat := 0
  trainingNow : Bool := false
  retryArmed : Bool := false
  /-- Time at which the link went down, from which the 1 s to the next attempt counts (R207). -/
  downAt : Nat := 0
  edidDone : Bool := false
  edidDenied : Bool := false
  /-- The EDID read of this enable has been made (R209). -/
  edidTried : Bool := false
  enable : Option EnableCmd := none
  /-- Started enables whose output was disabled before their final reply (R209). -/
  pastEnables : List EnableCmd := []
  /-- OUTPUT_DISABLEs accepted: command and boundary frame (R210). -/
  disables : List (CmdKey × Nat) := []
  under : Underflow := {}
  sr : SelfRefresh := {}
  /-- The coefficient sets latched at the frame start (R193). -/
  coeffs : Tab CoeffSet := []
  /-- Boot starting card shown (R420). -/
  starting : Bool := false
  /-- A commit record has taken effect on the output: the card goes at the next output frame start. -/
  cardDone : Bool := false
  /-- Lines of this frame sent in GAP_COLOUR, and composed from replicated history (R213, R226). -/
  gapLines : List Nat := []
  replLines : List Nat := []
  /-- States each source had at lines of this frame that were not LIVE or NOT_TRACKED: (line, source) (R213). -/
  badLines : List (Nat × Nat) := []
  /-- Pass each slot read at each line of this frame (R213): (line, slot, surface, pass). -/
  passLines : List (Nat × Nat × Nat × Nat) := []
  /-- Composed pixels of this frame's lines, kept for the rectangle checks (R212): line and 30-bit words. -/
  checkLines : List (Nat × List Nat) := []
  /-- Source pixels beneath treatments per line and slot (R212, CHANGE). -/
  sourceLines : List (Nat × Nat × List Nat) := []
  /-- Latched actions that the frame draws, 1 SUBSTITUTE or 2 BLANK, with their sources (R215). -/
  actions : List (Nat × Nat) := []
  deriving DecidableEq, Repr

/-- Rectangle settings (R216). -/
structure RectCfg where
  mode : Nat := 0
  action : Nat := 0
  sourceValid : Bool := false
  bValid : Bool := false
  source : Nat := 0
  freezeN : Nat := 0
  checkA : Nat := 0
  checkB : Nat := 0
  x : Nat := 0
  y : Nat := 0
  w : Nat := 0
  h : Nat := 0
  expA : Nat := 0
  expB : Nat := 0
  deriving DecidableEq, Repr

/-- One rectangle (R211 to R216), by 16 x output + rect. -/
structure Rect where
  used : Bool := false
  owner : Nat := 0
  cfg : RectCfg := {}
  crc : Nat := 0
  result : Nat := 0
  latch : Bool := false
  failures : Nat := 0
  undetermined : Nat := 0
  lastFrame : Nat := 0
  refValid : Bool := false
  refPass : Nat := 0
  refCrc : Nat := 0
  /-- Last PASS against FAIL or UNDETERMINED that was reported (R215), and the wall frame of the event. -/
  lastBad : Bool := false
  notCovered : Bool := false
  eventFrame : Option Nat := none
  /-- An event that waits for the next wall frame boundary (R215). -/
  pendEvent : Bool := false
  /-- Evaluated in the output frame in progress (R213). -/
  done : Bool := false
  deriving DecidableEq, Repr

/-- A rectangle operation that waits for its boundary (R216). -/
structure RectOp where
  key : CmdKey := {}
  rect : Nat := 0
  /-- 0 SET, 1 REMOVE, 2 REARM. -/
  op : Nat := 0
  cfg : RectCfg := {}
  owner : Nat := 0
  frame : Nat := 0
  /-- The reply was sent at the boundary; the operation applies at the next output frame start (R174). -/
  replied : Bool := false
  deriving DecidableEq, Repr

/-- Stillwater's record of one source (R217). -/
structure Stillwater where
  used : Bool := false
  n : Nat := 6
  run : Nat := 0
  judgedValid : Bool := false
  judgedPass : Nat := 0
  judgedChanged : Bool := false
  deriving DecidableEq, Repr

/-- Scan-out (chapter 09). -/
structure ScanSt where
  outputs : Tab OutputSt := []
  rects : Tab Rect := []
  rectOps : List RectOp := []
  still : Tab Stillwater := []
  deriving DecidableEq, Repr

/-- Bank states (R228). -/
inductive BankState where
  | normal | failed | checking | holdoff | rehearsing
  deriving DecidableEq, Repr

/-- One bank (R222 to R232). -/
structure Bank where
  state : BankState := .normal
  pipe : Nat := 0
  cause : Nat := 0
  holdoffFrames : Nat := 0
  clean : Nat := 0
  /-- The frame the clean count started in. -/
  cleanFrom : Nat := 0
  reinit : Option CmdKey := none
  deriving DecidableEq, Repr

/-- Where an output is composed (R167, R223 to R229): bank (0 Left, 1 Right) and pipe. -/
structure Carry where
  bank : Nat := 0
  pipe : Nat := 0
  stranded : Bool := false
  /-- Bank and pipe it moves to at its next output frame start (R186, R223). -/
  moveTo : Option (Nat × Nat) := none
  /-- A takeover is being armed: the bank and pipe that take the output (R224). -/
  arming : Option (Nat × Nat) := none
  /-- The next line start is the first at or after arming: its line is still sent in GAP_COLOUR (R225). -/
  lastGap : Bool := false
  /-- Lines of the output sent in GAP_COLOUR in this takeover, and replicated lines left (R225, R226). -/
  gap : Nat := 0
  repl : Nat := 0
  /-- The output has been taken over and not yet returned. -/
  taken : Bool := false
  deriving DecidableEq, Repr

/-- A takeover whose outputs have not all moved (R224, R230, R232). -/
structure Takeover where
  bank : Nat := 0
  cause : Nat := 0
  pipe : Nat := 0
  wp : Wp := {}
  toMove : Nat := 0
  moved : Nat := 0
  gapLines : Nat := 0
  gapCycles : Nat := 0
  /-- Its outputs that were stranded (R229). -/
  stranded : Nat := 0
  deriving DecidableEq, Repr

/-- A rehearsal (R230). -/
structure Rehearsal where
  bank : Nat := 0
  key : CmdKey := {}
  /-- WP of the wall line start it arms at or after; armed then. -/
  start : Wp := {}
  armed : Bool := false
  frames : Nat := 0
  /-- Wall frame in which the last output had moved, none before. -/
  since : Option Nat := none
  moved : Nat := 0
  gapLines : Nat := 0
  gapCycles : Nat := 0
  deriving DecidableEq, Repr

/-- The banks (chapter 10). -/
structure BankSt where
  banks : Tab Bank := []
  /-- Where each output is composed, by output; the split of R167 at reset. -/
  carry : List Carry :=
    [{ bank := 0, pipe := 0 }, { bank := 0, pipe := 1 },
     { bank := 0, pipe := 2 }, { bank := 0, pipe := 3 },
     { bank := 1, pipe := 0 }, { bank := 1, pipe := 1 },
     { bank := 1, pipe := 2 }, { bank := 1, pipe := 3 }]
  rehearsal : Option Rehearsal := none
  moving : List Takeover := []
  takeovers : Nat := 0
  deriving DecidableEq, Repr

/-! Migration (R99 to R101). -/

/-- A SLICE_SAVE that runs: its command and slice, the header as far as its commit point gives it, the blocks of the body that the lanes have coded and their number, and where it goes (R99, R153). -/
structure SaveJob where
  key : CmdKey := {}
  slice : Nat := 0
  head : Nat := 0
  blocks : Tab (List Byte) := []
  count : Nat := 0
  maxLength : Nat := 0
  dest : Nat := 0
  deriving DecidableEq, Repr

/-- A SLICE_RESTORE that runs, with the slice it has put in RESTORING, if any, and whether that is by reference (R100). -/
structure RestoreJob where
  key : CmdKey := {}
  slice : Option Nat := none
  byRef : Bool := false
  deriving DecidableEq, Repr

/-- A restored layer that waits for SLICE_THAW, and then for its boundary frame (R101). -/
structure HeldLayer where
  slice : Nat := 0
  desc : Desc := {}
  pal : Tab Nat := []
  frame : Option Nat := none
  deriving DecidableEq, Repr

/-- Migration. -/
structure MigrSt where
  saves : List SaveJob := []
  restores : List RestoreJob := []
  held : List HeldLayer := []
  deriving DecidableEq, Repr

end Sys2Proof.Machine
end

