-- ==== Sys2Proof/Machine/StateBoot.lean ====
section
/-! DEFINITION. State of chapters 20 to 22: start-up, Lockkeeper, firmware banks, the fault store, counters, registers, the side band and power. -/
namespace Sys2Proof.Machine
open Sys2Proof

/-- Device STATE (R417). -/
inductive DevState where
  | bootRom | storeTraining | fwInit | ready | bootFailed | deviceFault | thermalTrip
  deriving DecidableEq, Repr

/-- Whether Lockkeeper runs (R423). -/
inductive LkState where
  | halted | running | restarting
  deriving DecidableEq, Repr

/-- Firmware bank states (R429). -/
inductive FwState where
  | invalid | staging | verified | trial | active | previous
  deriving DecidableEq, Repr

/-- The header fields of an image that the device reports (R422). -/
structure FwImage where
  major : Nat := 0
  minor : Nat := 0
  patch : Nat := 0
  svn : Nat := 0
  keySlot : Nat := 0
  deriving DecidableEq, Repr

/-- A firmware bank: its state, its image's header and the staged chunks (R429 to R433). -/
structure FwBank where
  state : FwState := .invalid
  image : FwImage := {}
  /-- Programmed bytes of the bank, by 64 KiB chunk number. -/
  chunks : Tab (List Byte) := []
  deriving DecidableEq, Repr

/-- A fault record (R437). -/
structure FaultRec where
  kind : Nat := 0
  unit : Nat := 0
  seq : Nat := 0
  wp : Nat := 0
  resets : Nat := 0
  uptime : Nat := 0
  /-- DETAIL bytes 24 to 29. -/
  detail : Nat := 0
  overwritten : Nat := 0
  deriving DecidableEq, Repr

/-- An ENGINE_REINIT in progress (R436). -/
structure Reinit where
  unit : Nat := 0
  index : Nat := 0
  key : CmdKey := {}
  /-- Time of `upTime` at which its self-check began. -/
  at_ : Nat := 0
  deriving DecidableEq, Repr

/-- Start-up, firmware and faults (chapter 20). -/
structure BootSt where
  state : DevState := .bootRom
  lk : LkState := .halted
  /-- READY has been reached since the last device reset: BAR0 is open (R417). -/
  wasReady : Bool := false
  /-- The start-up fill of the stack is done (R418). -/
  filled : Bool := false
  /-- Times of the last watchdog resets, ms since the device reset (R424). -/
  dogTimes : List Nat := []
  bankA : FwBank := { state := .active }
  bankB : FwBank := {}
  /-- Running bank: false A, true B. -/
  running : Bool := false
  /-- Boot display record, 512 bytes, or empty when none is written (R420, R432). -/
  display : List Byte := []
  verify : Option CmdKey := none
  minSvn : Nat := 0
  revoked : Nat := 0
  /-- A TRIAL image started, at a time of `upTime`, and has not been confirmed (R430). -/
  trialRunning : Bool := false
  trialAt : Nat := 0
  faults : List FaultRec := []
  nextSeq : Nat := 1
  overwritten : Nat := 0
  resets : Nat := 0
  /-- Uptime in 2^-32 ns at a WP, from which it counts on. -/
  uptime : Nat := 0
  upWp : Wp := {}
  /-- SEQs of records whose EV_FAULT is not posted yet (R437). -/
  unposted : List Nat := []
  /-- 10 ms delays of R435 and R434, and the times of `upTime` at which they began. -/
  resetDelay : Bool := false
  resetAt : Nat := 0
  /-- Time of `upTime` at which the manager status register first showed READY (R351). -/
  readyAt : Nat := 0
  restartDelay : Bool := false
  restartAt : Nat := 0
  reinits : List Reinit := []
  /-- Junction sensors in 0.1 degC, and the standing warning (R425). -/
  sensors : List Int := [250, 250, 250, 250, 250, 250, 250, 250]
  warning : Bool := false
  /-- A reset held in THERMAL_TRIP, with its cause (R425). -/
  heldReset : Option Nat := none
  /-- Counter groups (R439), keyed by group, entry and counter. -/
  counters : Tab Nat := []
  /-- Fuses DBG_EN and DBG_KILL (R455). -/
  dbgEn : Bool := false
  dbgKill : Bool := false
  deriving DecidableEq, Repr

/-- A fabric interrupt (R449). -/
structure Firq where
  src : Nat
  vector : Nat
  deriving DecidableEq, Repr

/-- An aperture (R450). -/
structure Aperture where
  enable : Bool := false
  slice : Nat := 0
  base : Nat := 0
  deriving DecidableEq, Repr

/-- An outstanding fabric window read (R448): target, address, size, sequence. -/
structure WinRead where
  target : Nat
  addr : Nat
  size : Nat
  seq : Nat
  /-- Time of `upTime` at which it was sent. -/
  at_ : Nat := 0
  deriving DecidableEq, Repr

/-- Registers of chapter 21 that no other unit holds. -/
structure RegSt where
  fwinTarget : Nat := 0
  fwinEnable : Bool := false
  fwinTimeout : Bool := false
  fwinBase : Nat := 0
  winReads : List WinRead := []
  winSeq : Nat := 0
  firq : List Firq := []
  firqOverflow : Bool := false
  apertures : Tab Aperture := []
  /-- GAUGE_TAG and GAUGE_COUNT latched by the last read of GAUGE_LAST (R447). -/
  gaugeTag : Tab Nat := []
  gaugeCount : Tab Nat := []
  /-- Upper half latched by a lower half read, by register offset; lower half written and waiting (R442). -/
  readLatch : Tab (Option Nat) := []
  writeLatch : Tab (Option Nat) := []
  /-- MSI-X entries the host has unmasked, and pending bits (R451). -/
  unmasked : Tab Bool := []
  /-- Words of the MSI-X table, but for the vector control words (R441, R451). -/
  msixTable : Tab Nat := []
  msixPending : Tab Bool := []
  /-- PCI Express link in L0; in Loopback as follower (R358). -/
  linkUp : Bool := false
  /-- It has reached L0 since the last device reset (R351). -/
  reachedL0 : Bool := false
  loopback : Bool := false
  /-- Configuration requests must be answered: PERST_N released (R416). -/
  perst : Bool := true
  /-- Headless, and the remote manager that holds the claim (R351, R352). -/
  headless : Bool := false
  claim : Option Nat := none
  /-- Since when the remote manager's address has been unreachable (R352). -/
  lostAt : Option Nat := none
  rst : Bool := false
  deriving DecidableEq, Repr

/-- The SMBus side band (R452 to R454). -/
structure SmbSt where
  latchedSeq : Nat := 0
  alert : Bool := false
  /-- SMB_ASEL high at the end of reset: address 0x5B (R452). -/
  asel : Bool := false
  deriving DecidableEq, Repr

/-- Power (chapter 22). -/
structure PowerSt where
  inRange : Bool := false
  /-- Decode cores and encode cores that are powered, and Reservoir self-refresh (R458). -/
  decodeOn : Tab Bool := []
  encodeOn : Tab Bool := []
  selfRefresh : Bool := false
  deriving DecidableEq, Repr

/-- A Weir rule (R368). -/
structure WeirRule where
  base : Nat := 0
  limit : Nat := 0
  slices : Nat := 0
  engines : Nat := 0
  debug : Bool := false
  crit : Nat := 0
  read : Bool := false
  write : Bool := false
  owned : Nat := 0
  enable : Bool := false
  lock : Bool := false
  deriving DecidableEq, Repr

/-- The violation record (R373, R374). -/
structure Violation where
  slice : Nat := 0
  debug : Bool := false
  engine : Nat := 0
  write : Bool := false
  rule : Nat := 0
  wp : Nat := 0
  address : Nat := 0
  handle : Nat := 0
  count : Nat := 0
  deriving DecidableEq, Repr

/-- A WEIR_BARRIER that waits: its command, the accesses waited for and the WP of its commit point (R377). -/
structure Barrier where
  key : CmdKey := {}
  waited : Nat := 0
  /-- The time of `upTime` at its commit point. -/
  start : Nat := 0
  deriving DecidableEq, Repr

/-- The Weir (chapter 18). -/
structure WeirSt where
  /-- Rules 0 to 3,071; an unlisted rule is disabled with every field 0. -/
  rules : Tab WeirRule := []
  violation : Option Violation := none
  /-- Accesses in flight (R372). -/
  inFlight : Nat := 0
  barriers : List Barrier := []
  deriving DecidableEq, Repr

/-- A Gauge unit (R381 to R385). -/
structure GaugeUnit where
  enable : Bool := false
  crc64 : Bool := false
  kind : Nat := 0
  port : Nat := 0
  anyExport : Bool := false
  handle : Nat := 0
  source : Nat := 0
  exportId : Nat := 0
  firstLine : Nat := 0
  lineCount : Nat := 0
  results : Nat := 0
  last : Nat := 0
  tagA : Nat := 0
  tagB : Nat := 0
  deriving DecidableEq, Repr

/-- A Gauge FIFO record (R383). -/
structure GaugeRec where
  unit : Nat := 0
  kind : Nat := 0
  crc64 : Bool := false
  lost : Bool := false
  port : Nat := 0
  dropped : Nat := 0
  tagA : Nat := 0
  tagB : Nat := 0
  pass : Nat := 0
  check : Nat := 0
  wp : Nat := 0
  deriving DecidableEq, Repr

/-- The Gauge (R381 to R386). -/
structure GaugeSt where
  units : Tab GaugeUnit := []
  fifo : List GaugeRec := []
  /-- Dropped before the next record stored, and since the FIFO was last emptied. -/
  dropped : Nat := 0
  droppedSince : Nat := 0
  /-- The level event is armed, and the wall frames of the last events per cause. -/
  levelArmed : Bool := true
  levelFrame : Option Nat := none
  dropFrame : Option Nat := none
  deriving DecidableEq, Repr

end Sys2Proof.Machine
end

