-- ==== Sys2Proof/Machine/StateIo.lean ====
section
/-! DEFINITION. State of chapter 19: capacitive keys, touch ports, haptic channels and sound. -/
namespace Sys2Proof.Machine
open Sys2Proof

/-- A key object (R390 to R395). -/
structure KeyObj where
  enable : Bool := false
  owner : Nat := 0
  first : Nat := 0
  count : Nat := 1
  debounce : Nat := 3
  thresh : Nat := 0
  hyst : Nat := 0
  negThresh : Nat := 0
  maxOnS : Nat := 30
  pressed : Bool := false
  /-- Time of `upTime` of the PRESS event (R390). -/
  pressAt : Nat := 0
  /-- Consecutive scans of the transition's condition, and of a negative excursion. -/
  run : Nat := 0
  negRun : Nat := 0
  lastPos : Nat := 0
  deriving DecidableEq, Repr

/-- A KEYS_CONFIGURE that waits for the end of the scan (R395). -/
structure KeySet where
  key : CmdKey := {}
  pkt : Packet := 0
  deriving DecidableEq, Repr

/-- A key self-test (R396). -/
structure KeyTest where
  key : CmdKey := {}
  mask : Nat := 0
  openMin : Nat := 0
  neighMax : Nat := 0
  dest : Nat := 0
  space : Bool := false
  /-- Readings of each scan done, oldest first, and the WP of the newest. -/
  scans : List (List Nat) := []
  wp : Wp := {}
  /-- Its eight scans are over. -/
  finished : Bool := false
  deriving DecidableEq, Repr

/-- Capacitive keys (R388 to R396). -/
structure KeysSt where
  raw : List Nat := List.replicate 48 0
  base : List Nat := List.replicate 48 0
  /-- Sum of the first scans' counts (R389). -/
  sum : List Nat := List.replicate 48 0
  /-- Scans since a channel's baseline last moved (R391). -/
  track : List Nat := List.replicate 48 0
  scan : Nat := 0
  /-- Time of `upTime` of the last scan (R388). -/
  scanAt : Option Nat := none
  objects : Tab KeyObj := []
  sets : List KeySet := []
  test : Option KeyTest := none
  deriving DecidableEq, Repr

/-- A field of a HID report: its usage, first bit, width and logical minimum. -/
structure HidField where
  usage : Nat := 0
  bit : Nat := 0
  width : Nat := 0
  logMin : Int := 0
  deriving DecidableEq, Repr

/-- A Finger collection: its report ID and its fields (R398). -/
structure HidFinger where
  report : Nat := 0
  fields : List HidField := []
  deriving DecidableEq, Repr

/-- What a descriptor says of touch reports (R398). -/
structure HidLayout where
  /-- Reports begin with their ID. -/
  ids : Bool := false
  fingers : List HidFinger := []
  /-- Contact Count, with its report ID. -/
  count : Option (Nat × HidField) := none
  deriving DecidableEq, Repr

/-- The stamp of an attention edge: its WP, and the state of every source then (R397, R401). -/
structure TouchStamp where
  wp : Wp := {}
  states : Tab LState := []
  deriving DecidableEq, Repr

/-- A contact (R400). -/
structure Contact where
  id : Nat := 0
  owner : Nat := 0
  slot : Nat := 0xFF
  /-- The owning layer's source; none for a contact of no layer. -/
  source : Option Nat := none
  x : Nat := 0
  y : Nat := 0
  clamped : Bool := false
  oldMap : Bool := false
  /-- Its owner's slice was reset: its reports are discarded (R95). -/
  dead : Bool := false
  deriving DecidableEq, Repr

/-- A touch port (R397 to R402). -/
structure TouchPort where
  enable : Bool := false
  attnHigh : Bool := false
  output : Nat := 0
  i2c : Nat := 0
  inputReg : Nat := 0
  matrix : List Int := []
  layout : HidLayout := {}
  contacts : List Contact := []
  /-- The stamp of a report whose read runs, and that of an edge that came during it. -/
  stamp : Option TouchStamp := none
  nextStamp : Option TouchStamp := none
  /-- Time of `upTime` at which that read began, or ATTN became idle (R397, R400). -/
  readAt : Nat := 0
  errors : Nat := 0
  /-- Contacts of a frame that spans reports: left to come, and those seen. -/
  left : Nat := 0
  seen : List Nat := []
  deriving DecidableEq, Repr

/-- A waveform on a haptic channel (R404, R406). -/
structure HapPlay where
  /-- Offset and length of its samples in the library (R404). -/
  offset : Nat := 0
  length : Nat := 0
  gain : Nat := 255
  pos : Nat := 0
  deriving DecidableEq, Repr

/-- A play or STOP that waits for its drive period (R406, R409). -/
structure HapNext where
  stop : Bool := false
  wave : Nat := 0
  gain : Nat := 255
  due : Option Wp := none
  deriving DecidableEq, Repr

/-- A haptic channel (R403 to R409). -/
structure HapChan where
  enable : Bool := false
  erm : Bool := false
  trigEnable : Bool := false
  owner : Nat := 0
  ratedMv : Nat := 0
  ilimit : Nat := 0
  f0 : Nat := 0
  lib : Nat := 0
  trigOutput : Nat := 0
  trigSlot : Nat := 0
  trigWave : Nat := 0
  fault : Nat := 0
  play : Option HapPlay := none
  next : List HapNext := []
  /-- Drive periods of braking left (R406). -/
  brake : Nat := 0
  /-- Tracked resonance, 0.1 Hz (R405). -/
  freq : Nat := 0
  /-- The drive period done last: audio group and drive period within it (R403). -/
  period : Option (Nat × Nat) := none
  deriving DecidableEq, Repr

/-- A gain that moves in a straight line over 480 samples: from, to (u1.15), samples left (R412, R414). -/
structure Ramp where
  src : Nat := 32768
  dst : Nat := 32768
  left : Nat := 0
  deriving DecidableEq, Repr

/-- An audio stream (R413, R414). -/
structure AudStream where
  used : Bool := false
  owner : Nat := 0
  stereo : Bool := false
  space : Bool := false
  dest : Nat := 0
  gain : Ramp := {}
  addr : Nat := 0
  length : Nat := 0
  prefill : Nat := 0
  start : Option Wp := none
  running : Bool := false
  produced : Nat := 0
  consumed : Nat := 0
  underruns : Nat := 0
  /-- Samples since one exceeded the activity level; 960 when none did (R412). -/
  quiet : Nat := 960
  deriving DecidableEq, Repr

/-- A tone on a generator (R415). -/
structure Tone where
  on : Bool := false
  owner : Nat := 0
  wave : Nat := 0
  dest : Nat := 0
  freq : Nat := 0
  level : Nat := 0
  onMs : Nat := 0
  offMs : Nat := 0
  cycles : Nat := 0
  pos : Nat := 0
  /-- WP before which it does not start. -/
  start : Option Wp := none
  /-- It has been told to end at the next sample. -/
  ending : Bool := false
  quiet : Nat := 960
  deriving DecidableEq, Repr

/-- Sound (R410 to R415). -/
structure AudioSt where
  streams : Tab AudStream := []
  tones : Tab Tone := []
  duckS : Nat := 20
  duckO : Nat := 20
  /-- Attenuation of class O and of class A inputs (R412). -/
  gainO : Ramp := {}
  gainA : Ramp := {}
  /-- Timing base frame, and the group and place in it of the next sample (R410). -/
  baseFrame : Nat := 0
  group : Nat := 0
  sample : Nat := 0
  /-- Samples since the last poll of PRODUCED, which is due at 48 (R413). -/
  poll : Nat := 48
  deriving DecidableEq, Repr

/-- Operator I/O. -/
structure IoSt where
  keys : KeysSt := {}
  touch : Tab TouchPort := []
  haptics : Tab HapChan := []
  audio : AudioSt := {}
  deriving DecidableEq, Repr

end Sys2Proof.Machine
end

