-- ==== Sys2Proof/Machine/StateMedia.lean ====
section
/-! DEFINITION. State of chapters 11 to 13: attached sources, decode contexts, encode sessions, Ethernet flows, host queues, RTP transmit streams and DisplayPort inputs. -/
namespace Sys2Proof.Machine
open Sys2Proof

/-- What SOURCE_ATTACH gave a source beyond its ledger entry (R248). -/
structure SourceRec where
  fmt : Nat := 0
  maxW : Nat := 0
  maxH : Nat := 0
  /-- DisplayPort input of a DPIN source. -/
  dpin : Nat := 0
  deriving DecidableEq, Repr

/-- A delivery in progress: its arrival is recorded when FRONTIER reaches the height of the pass (R9, R246). -/
structure Delivery where
  source : Nat := 0
  surf : Nat := 0
  pass : Nat := 0
  height : Nat := 0
  origin : LineWp := {}
  damaged : Bool := false
  concealed : Option Bool := none
  upstream : LState := .live
  upBase : Option LineWp := none
  upOwn : Bool := false
  sei : Bool := false
  originAddr : Option Nat := none
  /-- A random-access picture decoded without fault (R250). -/
  cleanRap : Bool := false
  /-- Parameter-set refusals before it began (R234). -/
  refusals : Nat := 0
  deriving DecidableEq, Repr

/-- An access unit in a coded buffer (R240, R241, R274). -/
structure AccessUnit where
  /-- Earliest MAC stamp among its packets. -/
  stamp : Wp := {}
  nals : List (List Byte) := []
  complete : Bool := false
  lost : Bool := false
  /-- Where the coded buffer holds its bytes: addresses and lengths; and how many of them the decoder has read. -/
  spans : List (Nat × Nat) := []
  read : Nat := 0
  deriving DecidableEq, Repr

/-- A picture held for reference or output (R237, R243). -/
structure RefPic where
  poc : Int := 0
  surf : Nat := 0
  isRef : Bool := true
  /-- Damaged or decoded from a substitute (R243). -/
  bad : Bool := false
  /-- The ledger entry of its buffer has been lost: its lines are as poisoned units (R115). -/
  lost : Bool := false
  deriving DecidableEq, Repr

/-- A row group of a provenance SEI (R264, R265). -/
structure SeiGroup where
  first : Nat := 0
  state : LState := .live
  origin : Option LineWp := none
  base : Option LineWp := none
  deriving DecidableEq, Repr

/-- A picture in decoding (R238 to R245). -/
structure DecPic where
  surf : Nat := 0
  width : Nat := 0
  height : Nat := 0
  ctu : Nat := 16
  /-- Coded size in luma samples, which gives the CTU rows and columns (R238, R240). -/
  codedW : Nat := 0
  codedH : Nat := 0
  depth : Nat := 8
  depthC : Nat := 8
  row : Nat := 0
  /-- CTUs of the row in progress that are charged already (R240). -/
  ctus : Nat := 0
  /-- CTU columns of the row before that were filled (R244). -/
  fills : List (Nat × Nat) := []
  /-- The held picture that stands for each missing reference; none for the mid-grey picture (R243). -/
  standIns : List (Int × Option RefPic) := []
  /-- NAL units of its access unit that have been searched for provenance SEI (R245). -/
  nals : Nat := 0
  /-- Lines handed to the store or the lanes. -/
  lines : Nat := 0
  poc : Int := 0
  isRef : Bool := false
  rap : Bool := false
  /-- The picture is decoded from a substitute (R243), and for a cause other than a refresh (R242). -/
  subst : Bool := false
  other : Bool := false
  damaged : Bool := false
  origin : LineWp := {}
  groups : List SeiGroup := []
  /-- A wall identifier of its SEI is the device's own; some SEI was read (R33, R245). -/
  sameWall : Bool := false
  hasSei : Bool := false
  /-- The core it is in; none while suspended (R240). -/
  core : Option Nat := none
  /-- Coded bytes present when it was suspended. -/
  starvedAt : Nat := 0
  /-- Finished and discarded: its source was detached or its slice reset (R96, R249). -/
  orphan : Bool := false
  /-- It counts as an orphan of its slice, whose reset came at this time in ms (R96). -/
  counted : Bool := false
  orphanAt : Nat := 0
  refusals : Nat := 0
  us : Nat := 0
  deriving DecidableEq, Repr

/-- A coalesced event of one cause (R247, R277). -/
structure CauseEvent where
  cause : Nat := 0
  detail : Nat := 0
  count : Nat := 0
  wp : Wp := {}
  picture : Nat := 0
  deriving DecidableEq, Repr

/-- A decode context (R239 to R250), by its source. -/
structure DecCtx where
  used : Bool := false
  detached : Bool := false
  slice : Nat := 0
  codec : Nat := 0
  gdr : Bool := false
  maxRefs : Nat := 0
  maxRate : Nat := 0
  queue : List AccessUnit := []
  pic : Option DecPic := none
  refs : List RefPic := []
  /-- Waits for a random-access point (R242). -/
  wait : Bool := true
  raslSkip : Bool := false
  startPoc : Int := 0
  /-- The frame_num (H.264) or picture order count at which a gradual refresh recovers (R242). -/
  gdrTo : Option Int := none
  concealing : Bool := false
  refused : Bool := false
  unfitDetail : Nat := 0
  refusals : Nat := 0
  seq : Option SeqInfo := none
  width : Nat := 0
  height : Nat := 0
  decoded : Nat := 0
  dropped : Nat := 0
  concealed : Nat := 0
  damaged : Nat := 0
  discarded : Nat := 0
  lastRap : Option Wp := none
  decodeUs : Nat := 0
  codedBytes : Nat := 0
  events : List CauseEvent := []
  deriving DecidableEq, Repr

/-- The rate parameters of a session (R257, R267). -/
structure RateCfg where
  cqp : Bool := false
  bitrate : Nat := 0
  qpMin : Nat := 0
  qpMax : Nat := 51
  overshoot : Nat := 0
  keyMult : Nat := 1
  deriving DecidableEq, Repr

/-- A region of a captured picture (R265). -/
structure SeiRegion where
  source : Nat := 0
  tracked : Bool := true
  x : Nat := 0
  y : Nat := 0
  w : Nat := 0
  h : Nat := 0
  deriving DecidableEq, Repr

/-- The motion vector of an inter CU, in quarter samples (R256). -/
structure CuVector where
  x : Nat := 0
  y : Nat := 0
  size : Nat := 0
  vx : Int := 0
  vy : Int := 0
  deriving DecidableEq, Repr

/-- A picture that a session holds (R254, R257). -/
structure EncPic where
  number : Nat := 0
  wp : Wp := {}
  key : Bool := false
  recovery : Bool := false
  /-- Its place in the refresh cycle (R261). -/
  cycle : Nat := 0
  /-- The rate parameters, and T in bits, in force at its capture start (R257, R267). -/
  rate : RateCfg := {}
  t : Nat := 0
  surf : Nat := 0
  pass : Nat := 0
  row : Nat := 0
  u : Nat := 0
  budget : Int := 0
  skipAt : Int := 0
  /-- 0 NORMAL, 1 CLAMPED, 2 SKIP. -/
  phase : Nat := 0
  qps : List Nat := []
  rowBits : List Nat := []
  weights : List Nat := []
  clamped : Nat := 0
  skipped : Nat := 0
  /-- Bytes of the slice in progress, its first row, and whether a row of it was skip-coded. -/
  slice : List Byte := []
  sliceFirst : Nat := 0
  sliceSkip : Bool := false
  /-- A unit of the slice's reconstructed rows was denied and dropped (R371). -/
  sliceBad : Bool := false
  head : List Byte := []
  /-- Row groups done: first row, rows, skip-coded or with a unit dropped, and the slice bytes kept for H.264 (R263). -/
  done : List (Nat × Nat × Bool × List Byte) := []
  /-- Group records formed so far: state, rc, capture, mask, origin, base, and the region records (R264). -/
  sei : List Byte := []
  core : Option Nat := none
  regions : List SeiRegion := []
  /-- Highest-ranked state of each region at each captured line, with the entry's times (R265): picture line, region, state, origin, base. -/
  lines : List (Nat × Nat × LState × Option LineWp × Option LineWp) := []
  /-- Captured lines whose input was damaged (R264). -/
  badLines : List Nat := []
  /-- The level-2 vectors chosen so far, by block of 32 x 32 samples: column, row, vector (R256). -/
  blocks : List (Nat × Nat × Int × Int) := []
  /-- The vectors of its inter CUs so far. -/
  vectors : List CuVector := []
  /-- The ring was full: the rest of the picture is discarded (R262). -/
  lost : Bool := false
  deriving DecidableEq, Repr

/-- An encode session (R251 to R268). -/
structure Session where
  used : Bool := false
  owner : Nat := 0
  /-- 0 OUTPUT, 1 SOURCE, 2 SURFACE. -/
  input : Nat := 0
  output : Nat := 0
  h264 : Bool := false
  main10 : Bool := false
  sourceValid : Bool := false
  csc : Nat := 0
  full : Bool := false
  rowsPerSlice : Nat := 1
  decimate : Nat := 1
  source : Nat := 0
  cropX : Nat := 0
  cropY : Nat := 0
  width : Nat := 0
  height : Nat := 0
  initQp : Nat := 0
  irWidth : Nat := 0
  handle : Nat := 0
  keyInterval : Nat := 0
  rate : RateCfg := {}
  level : Nat := 0
  ring : Nat := 0
  ringSize : Nat := 0
  captures : List Nat := []
  recon : List Nat := []
  /-- Next picture's number, inputs seen for DECIMATE. -/
  number : Nat := 0
  seen : Nat := 0
  carry : Int := 0
  qpRef : Nat := 0
  /-- Rows of the previous coded picture: bits, quantiser and weight; empty at the start and after a key picture. -/
  prevBits : List Nat := []
  prevQp : List Nat := []
  prevW : List Nat := []
  keyNext : Bool := true
  sinceKey : Nat := 0
  /-- Place in the refresh cycle (R261). -/
  irPos : Nat := 0
  keyReqs : List (CmdKey × Option Wp) := []
  rateReqs : List (CmdKey × Option Wp × RateCfg) := []
  waiting : Option EncPic := none
  coding : Option EncPic := none
  coded : Nat := 0
  dropped : Nat := 0
  /-- Where the next unit goes in the ring, and PRODUCED (R262). -/
  produced : Nat := 0
  lastUnit : Wp := {}
  closing : Option CmdKey := none
  discard : Bool := false
  /-- Stopped by a freeze (R268), or closed to new pictures. -/
  stopped : Bool := false
  /-- RTP stream that consumes the ring (R281). -/
  consumer : Option Nat := none
  deriving DecidableEq, Repr

/-- An Ethernet port (R269, R282, R465). -/
structure EthPort where
  rate10 : Bool := false
  fec : Nat := 0
  enable : Bool := false
  mcToHost : Bool := false
  mtu : Nat := 1500
  mac : Nat := 0
  ip4 : Nat := 0
  ip6 : Nat := 0
  dflt : Option Nat := none
  up : Bool := false
  modAbs : Bool := false
  rxLos : Bool := false
  txFault : Bool := false
  /-- Streams and queues served last (R280). -/
  nextStream : Nat := 0
  nextQueue : Nat := 0
  /-- PTP messages that wait to be sent (R280). -/
  ptp : List (List Byte) := []
  deriving DecidableEq, Repr

/-- A received RTP packet (R274, R275). -/
structure RtpPacket where
  seq : Nat := 0
  ts : Nat := 0
  marker : Bool := false
  stamp : Wp := {}
  payload : List Byte := []
  deriving DecidableEq, Repr

/-- A classifier rule and its binding (R271 to R277). -/
structure FlowRule where
  ports : Nat := 0
  ipv6 : Bool := false
  vlan : Nat := 0
  action : Nat := 0
  enable : Bool := false
  vid : Nat := 0
  dstUdp : Nat := 0
  srcUdp : Nat := 0
  srcPrefix : Nat := 0
  dstPrefix : Nat := 0
  queue : Nat := 0
  srcAddr : Nat := 0
  dstAddr : Nat := 0
  bound : Bool := false
  /-- The port of its newest packet, which counts its losses (R439). -/
  port : Nat := 0
  source : Nat := 0
  ssrcMatch : Bool := false
  pt : Nat := 0
  reorder : Nat := 0
  ssrc : Nat := 0
  holdLines : Nat := 1
  handle : Nat := 0
  size : Nat := 0
  latched : Option Nat := none
  expected : Option Nat := none
  held : List RtpPacket := []
  /-- Timestamp of the packet before, and whether it ended its access unit. -/
  lastTs : Option Nat := none
  ended : Bool := true
  /-- Loss to report with the access unit that follows (R274). -/
  gap : Bool := false
  frag : Option (List Byte) := none
  wpos : Nat := 0
  lost : Nat := 0
  received : Nat := 0
  events : List CauseEvent := []
  deriving DecidableEq, Repr

/-- A host queue (R278). -/
structure HostQueue where
  owner : Nat := 0
  port : Nat := 0
  enable : Bool := false
  space : Bool := false
  vector : Nat := 0
  rxLog : Nat := 0
  txLog : Nat := 0
  rxBase : Nat := 0
  txBase : Nat := 0
  rxTail : Word32 := 0
  rxHead : Word32 := 0
  txTail : Word32 := 0
  txHead : Word32 := 0
  /-- Time of `upTime` of the last interrupt, and an interrupt held back for the 8 µs. -/
  irqAt : Option Nat := none
  irqPending : Bool := false
  deriving DecidableEq, Repr

/-- An RTP transmit stream (R281). -/
structure RtpStream where
  enable : Bool := false
  port : Nat := 0
  ipv6 : Bool := false
  tagged : Bool := false
  session : Nat := 0
  pt : Nat := 0
  vid : Nat := 0
  srcUdp : Nat := 0
  dstUdp : Nat := 0
  dscp : Nat := 0
  ttl : Nat := 0
  ssrc : Nat := 0
  dmac : Nat := 0
  tsOffset : Nat := 0
  daddr : Nat := 0
  seq : Nat := 0
  packets : List (List Byte) := []
  deriving DecidableEq, Repr

/-- States of a DisplayPort input (R284). -/
inductive DpState where
  | disabled | waiting | training | noVideo | held | receiving
  deriving DecidableEq, Repr

/-- A DisplayPort input frame being written (R286). -/
structure DpFrame where
  surf : Nat := 0
  /-- WP of its first active line (R9). -/
  origin : LineWp := {}
  width : Nat := 0
  height : Nat := 0
  bpc : Nat := 8
  ycc : Bool := false
  line : Nat := 0
  damaged : Bool := false
  /-- The last line, repeated at the bottom (R285). -/
  last : List Byte := []
  deriving DecidableEq, Repr

/-- A DisplayPort input (R283 to R290). -/
structure DpIn where
  state : DpState := .disabled
  enable : Bool := false
  edid : List Byte := []
  maxLanes : Nat := 1
  maxRate : Nat := 0
  lanes : Nat := 0
  rate : Nat := 0
  /-- Pixel encoding code of R289. -/
  enc : Nat := 0
  hActive : Nat := 0
  vActive : Nat := 0
  pixelRate : Nat := 0
  attempt : Nat := 0
  /-- HPD level; low during a pulse of R288. -/
  hpd : Bool := false
  pulse : Bool := false
  /-- When the pulse began, as a time of `upTime` (R288). -/
  pulseAt : Nat := 0
  lock : Bool := true
  video : Bool := false
  source : Option Nat := none
  frame : Option DpFrame := none
  dropped : Nat := 0
  deriving DecidableEq, Repr

/-- An encode picture that outlives its session (R96): its slice, core, the buffers it uses, by surface index, and the time of the reset in ms. -/
structure EncOrphan where
  slice : Nat := 0
  core : Nat := 0
  surfs : List Nat := []
  at_ : Nat := 0
  deriving DecidableEq, Repr

/-- Decode, encode and ingress. -/
structure MediaSt where
  sources : Tab SourceRec := []
  deliveries : List Delivery := []
  ctxs : Tab DecCtx := []
  /-- Pixels of decode and encode credit by slice (R240, R254). -/
  decCredit : Tab Nat := []
  encCredit : Tab Nat := []
  sessions : Tab Session := []
  encOrphans : List EncOrphan := []
  ports : Tab EthPort := []
  rules : Tab FlowRule := []
  queues : Tab HostQueue := []
  streams : Tab RtpStream := []
  dpins : Tab DpIn := []
  /-- Decode and encode cores out of service (R436). -/
  decOut : List Nat := []
  encOut : List Nat := []
  deriving DecidableEq, Repr

end Sys2Proof.Machine
end

