-- ==== Sys2Proof/Machine/StateNet.lean ====
section
/-! DEFINITION. State of chapters 14 to 17: Headwater, PTP counters and ports, event inputs, the Toden fabric and eye scans. -/
namespace Sys2Proof.Machine
open Sys2Proof

/-! Headwater (R291 to R308). -/

/-- States of a reference entry (R294). -/
inductive RefState where
  | disabled | disqualified | qualifying | qualified | alarm
  deriving DecidableEq, Repr

/-- States of the DPLL (R296). -/
inductive DpllState where
  | freeRun | switching | locked | holdover
  deriving DecidableEq, Repr

/-- What the DPLL follows: a table entry, or on a fabric member the timing lane of a port (R341). -/
inductive RefSel where
  | entry (n : Nat)
  | toden (port : Nat)
  deriving DecidableEq, Repr

/-- A priority-table entry (R294, R306) and what is measured of it (R293, R304, R307). -/
structure RefEntry where
  enable : Bool := false
  revertive : Bool := false
  input : Nat := 0
  priority : Nat := 0
  refType : Nat := 0
  falling : Bool := false
  term50 : Bool := false
  bandwidth : Nat := 0
  window : Nat := 0
  qualifyS : Nat := 0
  disqualifyMs : Nat := 0
  frameDiv : Nat := 0
  state : RefState := .disabled
  loss : Bool := false
  /-- A first offset has been measured since the entry was enabled (R294). -/
  measured : Bool := false
  /-- Signed 0.001 ppm. -/
  offsetLocal : Int := 0
  offsetPeers : Option Int := none
  /-- The reference's WP minus the running WP, ticks, at the last measurement (R304). -/
  phase : Int := 0
  since : Wp := {}
  /-- Start of the qualification or disqualification time that runs, as a time of `upTime`. -/
  timer : Option Nat := none
  /-- Start of the measurement interval that runs, as a time of `upTime` (R293). -/
  begun : Nat := 0
  deriving DecidableEq, Repr

/-- Settings of a reference output (R303). -/
structure RefOut where
  mode : Nat := 0
  invert : Bool := false
  div : Nat := 1
  width : Nat := 1
  line : Nat := 0
  deriving DecidableEq, Repr

/-- Headwater. -/
structure HeadSt where
  entries : Tab RefEntry := []
  dpll : DpllState := .freeRun
  selected : Option RefSel := none
  /-- What is measured on the timing lane of each Toden port (R336, R341), beside the table. -/
  lanes : Tab RefEntry := []
  /-- When the last switch began, and up to when seconds have been counted (R300), as times of `upTime`. -/
  switchAt : Nat := 0
  secondAt : Nat := 0
  /-- DPLL frequency against the oscillator, 0.001 ppm. -/
  freq : Int := 0
  /-- DPLL frequencies of the newest seconds spent LOCKED, newest first (R300). -/
  hist : List Int := []
  /-- Seconds of the present stay in LOCKED. -/
  lockedFor : Nat := 0
  historyS : Nat := 0
  holdoverS : Nat := 0
  switches : Nat := 0
  /-- Phase of the last acquisition: whole periods of 10 ns that stand, and the remainder that the loop pulls in (R298). -/
  standing : Int := 0
  remainder : Int := 0
  outA : RefOut := { mode := 1 }
  outB : RefOut := {}
  /-- Output settings accepted and their boundary frame (R303). -/
  pendOuts : Option (RefOut × RefOut × Nat) := none
  levelA : Bool := false
  levelB : Bool := false
  misTol : Nat := 100
  /-- EV_MISALIGNED above has been posted and not yet back below (R304). -/
  aboveSel : Bool := false
  aboveAnchor : Bool := false
  deriving DecidableEq, Repr

/-! Network time (R309 to R325). -/

/-- A PTP time counter (R309): its value in 2^-32 ns at a WP, and its rate. -/
structure PtpClock where
  value : Nat := 0
  base : Wp := {}
  /-- r in 0.001 ppb. -/
  rate : Int := 0
  notSet : Bool := true
  epoch : Nat := 0
  deriving DecidableEq, Repr

/-- Servo states (R316). -/
inductive Servo where
  | disabled | listening | acquiring | locked
  deriving DecidableEq, Repr

/-- A master heard (R311): its port identity, its data set in the order of comparison, and messages since it was first heard. -/
structure Foreign where
  portId : Nat := 0
  dataset : List Nat := []
  utcOffset : Nat := 0
  heard : Nat := 0
  deriving DecidableEq, Repr

/-- A PTP port (R312 to R321). -/
structure PtpPort where
  /-- 0 OFF, 1 DEVICE, 2 HOST. -/
  engine : Nat := 0
  transport : Nat := 0
  p2p : Bool := false
  tagged : Bool := false
  profile : Nat := 0
  domain : Nat := 0
  logDelay : Int := 0
  hostQueue : Nat := 0
  vid : Nat := 0
  maxSlew : Nat := 100
  stepNs : Nat := 1000
  lockNs : Nat := 100
  extraIn : Int := 0
  extraOut : Int := 0
  asymmetry : Int := 0
  servo : Servo := .disabled
  master : Option Nat := none
  foreign : List Foreign := []
  lastOffset : Int := 0
  /-- Mean path or link delay in 2^-32 ns; none before the first measurement. -/
  pathDelay : Option Int := none
  utcOffset : Nat := 0
  /-- Consecutive Sync messages below LOCK_NS, and above STEP_NS (R316, R318). -/
  below : Nat := 0
  above : Nat := 0
  /-- The counter has had the step of this acquisition (R317). -/
  settled : Bool := false
  /-- Two-step Sync waiting for its Follow_Up: sequence, ingress time, correction. -/
  sync : Option (Nat × Int × Int) := none
  /-- Master to slave difference of the newest Sync, ns in 2^-32 units. -/
  t21 : Option Int := none
  /-- Delay request under way: sequence and departure time. -/
  req : Option (Nat × Int) := none
  /-- Two-step Pdelay_Resp waiting for its follow-up: sequence, and the round trip plus the time at which the neighbour took the request. -/
  resp : Option (Nat × Int) := none
  /-- The neighbour's newest Pdelay_Req: sequence, its port identity and ingress time (R314). -/
  asked : Option (Nat × Nat × Int) := none
  reqSeq : Nat := 0
  lockHoldMs : Nat := 4000
  /-- The newest Sync and Announce of the chosen master, as times of `upTime`, with their logMessageInterval (R318), and the newest TIME_RATE_ADJUST with LOCK 1 (R320). -/
  syncAt : Nat := 0
  syncLog : Int := 0
  annAt : Nat := 0
  annLog : Int := 0
  lockAt : Nat := 0
  deriving DecidableEq, Repr

/-- A stamp record (R324). -/
structure EvtRec where
  falling : Bool := false
  locked : Bool := false
  set : Bool := false
  epoch : Nat := 0
  seq : Nat := 0
  wp : Wp := {}
  ptp : PtpTime := {}
  primary : Nat := 0
  coalesced : Nat := 0
  lost : Nat := 0
  deriving DecidableEq, Repr

/-- An event input (R321 to R325). -/
structure EvtIn where
  enable : Bool := false
  edge : Nat := 0
  notify : Bool := false
  owner : Nat := 0
  fifo : List EvtRec := []
  seq : Nat := 0
  lost : Nat := 0
  coalesced : Nat := 0
  lastLine : Option LineWp := none
  /-- The edge stamped last, as a time of `upTime` (R322). -/
  lastEdge : Option Nat := none
  deriving DecidableEq, Repr

/-- Network time. -/
structure PtpSt where
  clocks : Tab PtpClock := []
  ports : Tab PtpPort := []
  primary : Nat := 0
  /-- The port whose counter the anchored WP is taken from, and the change at a boundary frame (R310). -/
  anchorPort : Nat := 0
  events : Tab EvtIn := []
  deriving DecidableEq, Repr

/-! Toden fabric (R326 to R353). -/

/-- States of a Toden port (R327). -/
inductive TodState where
  | disabled | down | training | forwarding | blocked
  deriving DecidableEq, Repr

/-- What a HELLO says of its sender (R337). -/
structure Hello where
  id : Nat := 0
  root : Nat := 0
  hops : Nat := 0
  addr : Nat := 0
  wallId : Nat := 0
  size : Nat := 0
  headless : Bool := false
  rootPort : Bool := false
  runS : Nat := 0
  deriving DecidableEq, Repr

/-- A block as a receiver finds it: header, payload, and whether it held a stuffing error (R328, R356). -/
structure RxBlock where
  header : Nat := 0
  bytes : List Byte := []
  bad : Bool := false
  deriving DecidableEq, Repr

/-- One direction of a data lane: the scrambler's last 58 bits, the last bit and the identical bits so far; at a receiver also the bits of the block under way, newest first, and the blocks not yet read (R328, R356). -/
structure LaneCoder where
  hist : Nat := 0
  last : Bool := false
  run : Nat := 0
  part : List Bool := []
  bad : Bool := false
  blocks : List RxBlock := []
  deriving DecidableEq, Repr

/-- What has arrived of a packet (R331): its SOP bytes, its data, and whether a block of it was in error. -/
structure PktParts where
  sop : List Byte := []
  data : List Byte := []
  bad : Bool := false
  deriving DecidableEq, Repr

/-- A Toden port (R326 to R337, R343, R363). -/
structure TodPort where
  state : TodState := .training
  phase : Nat := 1
  /-- Attempts since the port was last UP, and those of the present series. -/
  retries : Nat := 0
  series : Nat := 0
  backoffMs : Nat := 100
  backing : Bool := false
  /-- Times of `upTime`: the present phase began, the back-off began, the last HELLO and K30.7 went out, the last HELLO came or the port trained (R334, R337, R343). -/
  phaseAt : Nat := 0
  backAt : Nat := 0
  helloAt : Option Nat := none
  measureAt : Option Nat := none
  heardAt : Nat := 0
  preset : Nat := 3
  partner : Option Hello := none
  /-- The partner belongs to this device's fabric: a join of the two sides is over (R340). -/
  same : Bool := false
  /-- Devices behind the partner on the tree. -/
  below : List TreeDev := []
  /-- The newest 16 cable delays, ps (R334). -/
  cable : List Nat := []
  pathDelay : Nat := 0
  /-- Own WP at the last frame mark, and the epoch frame of two epochs in a row that were good, or that disagreed (R340, R341). -/
  markAt : Option Wp := none
  epochFrame : Nat := 0
  good : Nat := 0
  disagree : Nat := 0
  errors : Nat := 0
  credits : List Nat := []
  /-- Packets of VC 0 and 2 not yet acknowledged: virtual channel, sequence, bytes. -/
  replay : List (Nat × Nat × List Byte) := []
  txSeq0 : Nat := 0
  txSeq2 : Nat := 0
  rxSeq0 : Option Nat := none
  rxSeq2 : Option Nat := none
  /-- The coders of the four data lanes, and blocks sent since training (R328, R356). -/
  tx : List LaneCoder := [{}, {}, {}, {}]
  txBlocks : Nat := 0
  rx : List LaneCoder := [{}, {}, {}, {}]
  /-- The lane of the next block to be read, and the packet whose blocks arrive. -/
  rxLane : Nat := 0
  asm : Option PktParts := none
  deriving DecidableEq, Repr

/-- A routing entry (R344): port 0 to 3, or 15 LOCAL. -/
structure Route where
  low : Nat := 0
  high : Nat := 0
  port : Nat := 0
  enable : Bool := false
  deriving DecidableEq, Repr

/-- An export (R345, R350). -/
structure Export where
  used : Bool := false
  source : Nat := 0
  dest : Nat := 0
  mbps : Nat := 0
  suspended : Bool := false
  frames : Nat := 0
  /-- Buffer and pass being sent, and luma lines and chroma lines sent. -/
  cur : Option (Nat × Nat) := none
  sent : Nat := 0
  sentC : Nat := 0
  state : LState := .unproven
  deriving DecidableEq, Repr

/-- Upstream data of a FRAME or STATE packet: state, ORIGIN_WP and AGE_BASE_WP, and whether the exporter's times are not taken (R31, R346). -/
structure UpData where
  state : LState := .live
  origin : Option LineWp := none
  base : Option LineWp := none
  own : Bool := false
  deriving DecidableEq, Repr

/-- A line or tile row that an import holds until its time (R348). -/
structure ImpLine where
  line : Nat := 0
  chroma : Bool := false
  lost : Bool := false
  due : Wp := {}
  data : List Byte := []
  /-- STATE packet that takes effect after this line (R349). -/
  upstream : Option UpData := none
  deriving DecidableEq, Repr

/-- A pass that an import writes (R349). -/
structure ImpPass where
  surf : Nat := 0
  frameSeq : Nat := 0
  height : Nat := 0
  /-- Lines, or tile rows, received or given up, and chroma lines. -/
  next : Nat := 0
  nextC : Nat := 0
  /-- Received and not complete. -/
  lines : List ImpLine := []
  /-- Luma lines and chroma lines of an uncompressed pass that are written (R113). -/
  doneY : Nat := 0
  doneC : Nat := 0
  damaged : Bool := false
  origin : LineWp := {}
  up : UpData := {}
  originAddr : Nat := 0
  deriving DecidableEq, Repr

/-- An import binding (R349). -/
structure Import where
  used : Bool := false
  origin : Nat := 0
  exportId : Nat := 0
  /-- Passes in progress, oldest first. -/
  passes : List ImpPass := []
  late : Nat := 0
  dropped : Nat := 0
  deriving DecidableEq, Repr

/-- A transit ring (R347), by origin address and export. -/
structure Transit where
  handle : Nat := 0
  lineBytes : Nat := 0
  lastFrame : Nat := 0
  next : Nat := 0
  nextC : Nat := 0
  deriving DecidableEq, Repr

/-- The fabric. -/
structure FabricSt where
  ports : Tab TodPort := []
  addr : Nat := 0
  rootId : Nat := 0
  rootPort : Option Nat := none
  hops : Nat := 0
  /-- The port over which this device's side joins another, the timing base frame of a join message that waits for its boundary, and whether the joined side's timing has been taken (R340). -/
  joining : Option Nat := none
  joinBase : Option Nat := none
  took : Bool := false
  /-- A jump to the root's WP is due at the next wall frame boundary (R340, R341). -/
  jumpPort : Option Nat := none
  /-- Whole seconds since WP started or moved (R337). -/
  runS : Nat := 0
  routes : Tab Route := []
  exports : Tab Export := []
  imports : Tab Import := []
  transits : Tab Transit := []
  /-- Streams that could not be given a ring, and packets no route took (R344, R347). -/
  noRing : Nat := 0
  noRoute : Nat := 0
  deriving DecidableEq, Repr

/-! Lanes (R354 to R363). -/

/-- An eye scan that runs (R361), by lane. -/
structure EyeScan where
  key : CmdKey := {}
  start : Wp := {}
  deriving DecidableEq, Repr

/-- Lane state. -/
structure LaneSt where
  scans : Tab EyeScan := []
  deriving DecidableEq, Repr

end Sys2Proof.Machine
end

