-- ==== Sys2Proof/Machine/State.lean ====
section
/-! DEFINITION. State: everything the spec gives the block, the reasons a step can stop, and the state right after reset. -/
namespace Sys2Proof.Machine
open Sys2Proof

/-- Why the block stops with a fault.  No row of the table faults in this model (every row has an effect that the spec gives); the type is closed. -/
inductive Fault where
  /-- Nobody raises it: kept so that the type is inhabited (safe). -/
  | none
  deriving DecidableEq, Repr

/-- Why a command is refused. -/
inductive Refusal where
  /-- Raised by Dispatch for a row that has no meaning yet (safe: nothing runs). -/
  | notModelled (mnemonic : String)
  deriving DecidableEq, Repr

/-- The block's state. -/
structure State where
  time : TimeSt := {}
  ledger : LedgerSt := {}
  /-- Rings of slices 0 to 64 (R59). -/
  rings : Tab SliceRings := []
  /-- The slice served last in each class, by class code: its round-robin (R91). -/
  intakeLast : Tab Nat := []
  slices : Tab Slice := []
  store : StoreSt := {}
  sluice : SluiceSt := {}
  comp : CompSt := {}
  scan : ScanSt := {}
  bank : BankSt := {}
  media : MediaSt := {}
  head : HeadSt := {}
  ptp : PtpSt := {}
  fabric : FabricSt := {}
  lane : LaneSt := {}
  io : IoSt := {}
  boot : BootSt := {}
  regs : RegSt := {}
  smb : SmbSt := {}
  power : PowerSt := {}
  weir : WeirSt := {}
  gauge : GaugeSt := {}
  migr : MigrSt := {}
  /-- What has left the device's balls, in order (the model's own, log entry 1). -/
  out : List Output := []
  /-- Counter that the free values of Config are applied to (the model's own, log entry 3). -/
  free : Nat := 0
  /-- Commands that wait, first in first out. -/
  pending : List Instr := []
  deriving DecidableEq, Repr

/-- Slice 0 at reset: ACTIVE, class S, shares of R90. -/
def managerSlice : Slice :=
  { state := .active, cls := .s, pasid := none,
    share := { capacity := 393216, handles := 16384, sources := 4096, stWeight := 255, beWeight := 255,
               layers := 64, decodeCtx := 0, decodeRate := 0, encodeRate := 0, cmdRate := 65535, queueLimit := 1024 } }

/-- Weir rules after reset (R370): rules 3,068 to 3,071. -/
def resetRules : Tab WeirRule :=
  let guests := 2 ^ 65 - 2
  [(3068, { base := 0x10000, limit := 0x5FFFFF, slices := guests, engines := 0x1FF, crit := 7, read := true, write := true, owned := 1, enable := true }),
   (3069, { base := 0x10000, limit := 0x5FFFFF, slices := guests, engines := 0x14, crit := 7, read := true, owned := 2, enable := true }),
   (3070, { base := 0x10000, limit := 0x5FFFFF, slices := 1, engines := 0x1FF, crit := 7, read := true, write := true, enable := true }),
   (3071, { base := 0x8000000, limit := 0x8003FFF, slices := 1, engines := 0x1FF, crit := 7, read := true, write := true, enable := true })]

/-- The wall identifier after reset (R42). -/
def resetWallId : Nat :=
  let x := (Config.deviceId.toNat >>> 32) ^^^ (Config.deviceId.toNat % 2 ^ 32)
  if x = 0 then 1 else x

/-- The machine right after reset: STATE is BOOT_ROM, nothing has run (R416, R417). -/
def State.reset : State :=
  { time := { timing := { wallId := resetWallId } }, slices := [(0, managerSlice)], weir := { rules := resetRules }
    head := { entries := [(0, { enable := true, input := 15, priority := 15, state := .qualified })] }
    fabric := { rootId := Config.deviceId.toNat }, boot := { dbgEn := Config.dbgEn } }

end Sys2Proof.Machine
end

