-- ==== Sys2Proof/Machine/Operands.lean ====
section
/-! DEFINITION. The command packet as the device reads it (R66, R67), the opcode index (R83) and the codes of replies, states and classes. -/
namespace Sys2Proof.Machine
open Sys2Proof

/-- OPCODE of a packet (R66). -/
def pktOpcode (p : Packet) : Nat := pf p 0 0 12
/-- ATOMIC_WITH_NEXT. -/
def pktAtomic (p : Packet) : Bool := pb p 1 4
/-- REPLY_ALWAYS. -/
def pktReplyAlways (p : Packet) : Bool := pb p 1 5
/-- WP_TIMED. -/
def pktTimed (p : Packet) : Bool := pb p 1 6
/-- FENCE. -/
def pktFence (p : Packet) : Bool := pb p 1 7
/-- LENGTH. -/
def pktLength (p : Packet) : Nat := pf p 2 0 8
/-- TAG. -/
def pktTag (p : Packet) : Nat := pf p 4 0 32
/-- WP_DUE as 64 bits. -/
def pktDue (p : Packet) : Nat := pf p 8 0 64

/-- R67: bytes LENGTH to 63 read as zero. -/
def maskPacket (p : Packet) : Packet :=
  BitVec.ofNat 512 (p.toNat % 2 ^ (8 * min (pktLength p) 64))

/-- CRC-32C of packet bytes 2 to 63 as the device reads them (R78). -/
def pktCrc (p : Packet) : Nat := crc32c ((bytesLE 64 (maskPacket p).toNat).drop 2)

/-- A row of the opcode index (R83). -/
structure OpRow where
  code : Nat
  qe : Bool
  manager : Bool
  timed : Bool
  deferred : Bool
  deriving DecidableEq, Repr

/-- Rows of the index: code, executed by a queue engine, manager only, T, D. -/
def opIndex : List OpRow :=
  let lk (c : Nat) : OpRow := ⟨c, false, false, false, false⟩
  let lkT (c : Nat) : OpRow := ⟨c, false, false, true, false⟩
  let lkD (c : Nat) : OpRow := ⟨c, false, false, false, true⟩
  let m (c : Nat) : OpRow := ⟨c, false, true, false, false⟩
  let mT (c : Nat) : OpRow := ⟨c, false, true, true, false⟩
  let mD (c : Nat) : OpRow := ⟨c, false, true, false, true⟩
  let mTD (c : Nat) : OpRow := ⟨c, false, true, true, true⟩
  let qe (c : Nat) : OpRow := ⟨c, true, false, false, false⟩
  let qeT (c : Nat) : OpRow := ⟨c, true, false, true, false⟩
  [lk 0x000, lk 0x101, lkD 0x102, qe 0x103, lk 0x104, lkD 0x105, lk 0x106] ++
  [lk 0x201, lk 0x202, qeT 0x203, m 0x204, m 0x205] ++
  [m 0x301, mTD 0x302, mT 0x303, lkT 0x304, m 0x305, mTD 0x306, mT 0x307] ++
  [lk 0x401, lk 0x402, m 0x403, m 0x404, lk 0x405] ++
  [lk 0x501, lkT 0x502, lkT 0x503, lkD 0x504] ++
  [lkT 0x601, qe 0x602, lk 0x603, mT 0x604] ++
  [m 0x701, lk 0x702, mT 0x703, mTD 0x704, m 0x705, lk 0x706, m 0x707, m 0x708] ++
  [lk 0x801, m 0x802, lk 0x803, lk 0x804, mD 0x805, m 0x806] ++
  [m 0x901, mD 0x902, m 0x903, qeT 0x904, lk 0x905, lkT 0x906, m 0x907] ++
  [m 0xA01, m 0xA02, lk 0xA03, m 0xA04, m 0xA05] ++
  [m 0xB01, m 0xB02, m 0xB03, m 0xB04, m 0xB05] ++
  [m 0xC01, m 0xC02, mT 0xC03, mD 0xC04, m 0xC05, m 0xC06, mD 0xC07, mD 0xC08, mD 0xC09, m 0xC0A, m 0xC0B] ++
  [m 0xF01, mD 0xF02, m 0xF03, m 0xF04, mD 0xF05, lk 0xF06]

/-- The index row of an opcode, if the device has it. -/
def opRow (code : Nat) : Option OpRow := opIndex.find? fun r => r.code == code

/-- Whether a queue engine executes the opcode (R83). -/
def opIsQe (code : Nat) : Bool := match opRow code with
  | some r => r.qe
  | none => false

/-- Status codes (R82). -/
def statusCode : Status → Nat
  | .ok => 0x0000 | .deferred => 0x0001 | .duplicate => 0x0002
  | .badOpcode => 0x0100 | .badParam => 0x0101 | .notPermitted => 0x0102 | .noResource => 0x0103
  | .backpressure => 0x0104 | .notQuiesced => 0x0105 | .linebufShort => 0x0106 | .budgetExceeded => 0x0107
  | .handleStale => 0x0108 | .weirDenied => 0x0109 | .checkFailed => 0x010A | .timeout => 0x010B
  | .notReady => 0x010C | .engineFault => 0x0200 | .deviceFault => 0x0201

/-- Liveness state codes (R14). -/
def stateCode : LState → Nat
  | .unproven => 0x0 | .live => 0x1 | .late => 0x2 | .stale => 0x3 | .frozen => 0x4 | .concealed => 0x5
  | .degraded => 0x6 | .unfit => 0x7 | .withdrawn => 0x8 | .notTracked => 0xF

/-- The liveness state of a code of R14; codes 0x9 to 0xE are not used and read as UNFIT. -/
def stateOfCode (c : Nat) : LState :=
  if c = 0 then .unproven else if c = 1 then .live else if c = 2 then .late else if c = 3 then .stale
  else if c = 4 then .frozen else if c = 5 then .concealed else if c = 6 then .degraded
  else if c = 8 then .withdrawn else if c = 0xF then .notTracked else .unfit

/-- Ranks of R14. -/
def stateRank : LState → Nat
  | .unproven => 2 | .live => 0 | .late => 1 | .stale => 6 | .frozen => 3 | .concealed => 5
  | .degraded => 4 | .unfit => 7 | .withdrawn => 8 | .notTracked => 0

/-- The higher-ranked of two states; two states of rank 0 combine to LIVE unless both are NOT_TRACKED (R14). -/
def stateMax (a b : LState) : LState :=
  if a = .notTracked ∧ b = .notTracked then .notTracked
  else if stateRank a = 0 ∧ stateRank b = 0 then .live
  else if stateRank b ≤ stateRank a then a else b

/-- The lower-ranked of two states, with NOT_TRACKED as in R14. -/
def stateMin (a b : LState) : LState :=
  if a = .notTracked ∧ b = .notTracked then .notTracked
  else if stateRank a = 0 ∨ stateRank b = 0 then .live
  else if stateRank a ≤ stateRank b then a else b

/-- Kind codes of R11. -/
def kindCode : Kind → Nat
  | .decoded => 0 | .dpin => 1 | .imported => 2 | .surface => 3

/-- Kinds by code. -/
def kindOfCode (c : Nat) : Kind :=
  if c % 4 = 0 then .decoded else if c % 4 = 1 then .dpin else if c % 4 = 2 then .imported else .surface

/-- Treatment codes of R11. -/
def treatmentCode : Treatment → Nat
  | .hatch => 0 | .hold => 1 | .substitute => 2 | .blank => 3

/-- Treatments by code. -/
def treatmentOfCode (c : Nat) : Treatment :=
  if c % 4 = 0 then .hatch else if c % 4 = 1 then .hold else if c % 4 = 2 then .substitute else .blank

/-- Slice state codes (R85). -/
def sliceStateCode : SliceState → Nat
  | .free => 0 | .created => 1 | .active => 2 | .quiescing => 3 | .quiesced => 4 | .freezing => 5
  | .frozen => 6 | .restoring => 7 | .draining => 8

/-- Class codes (SLICE_CREATE). -/
def clsCode : Cls → Nat
  | .s => 0 | .o => 1 | .a => 2

/-- Classes by code. -/
def clsOfCode (c : Nat) : Cls := if c = 0 then .s else if c = 1 then .o else .a

/-- Device STATE codes (R417). -/
def devStateCode : DevState → Nat
  | .bootRom => 0x1 | .storeTraining => 0x2 | .fwInit => 0x3 | .ready => 0x4
  | .bootFailed => 0x8 | .deviceFault => 0x9 | .thermalTrip => 0xA

/-- Output state codes (R200). -/
def outStateCode : OutState → Nat
  | .unconfigured => 0 | .disabled => 1 | .training => 2 | .running => 3 | .linkDown => 4 | .selfRefresh => 5

/-- Firmware bank state codes (R429). -/
def fwStateCode : FwState → Nat
  | .invalid => 0 | .staging => 1 | .verified => 2 | .trial => 3 | .active => 4 | .previous => 5

/-- Writer codes (R113). -/
def writerCode : Writer → Nat
  | .host => 0 | .decode => 1 | .dpin => 2 | .fabric => 3 | .batch => 4 | .capture => 5

/-- The 32-byte reply entry (R76). -/
def replyBits (r : Reply) : Nat :=
  packFields [(0, 32, r.tag), (32, 16, statusCode r.status), (48, 12, r.opcode), (60, 2, r.orig), (62, 2, r.ring),
    (64, 64, r.wpDone)] ||| (((r.detail >>> 128) % 2 ^ 128) <<< 128)

end Sys2Proof.Machine
end

