-- ==== Sys2Proof/Machine/WpOps.lean ====
section
/-! DEFINITION. Wall Position arithmetic (R6, R10, R40, R41, R43, R47, R50, R52, R53). -/
namespace Sys2Proof.Machine
open Sys2Proof

/-- The WP now. -/
def now (s : State) : Wp := s.time.wp

/-- WP as 64 bits: frame, line, tick (R6). -/
def wpBits (w : Wp) : Nat := (w.frame % 2 ^ 32) * 2 ^ 32 + (w.line % 2 ^ 16) * 2 ^ 16 + w.tick % 2 ^ 16

/-- The WP that 64 bits hold. -/
def wpOfBits (x : Nat) : Wp := ⟨bitsAt x 32 32, bitsAt x 16 16, bitsAt x 0 16⟩

/-- The WP now as 64 bits. -/
def nowBits (s : State) : Nat := wpBits (now s)

/-- (A - B) mod 2^32 of two frames (R6). -/
def frameDiff (a b : Nat) : Nat := (a % 2 ^ 32 + 2 ^ 32 - b % 2 ^ 32) % 2 ^ 32

/-- Frame A is later than frame B (R6). -/
def frameLater (a b : Nat) : Bool := 1 ≤ frameDiff a b && frameDiff a b ≤ 2 ^ 31 - 1

/-- Two WPs whose frames are unordered (R6). -/
def wpUnordered (a b : Wp) : Bool := frameDiff a.frame b.frame == 2 ^ 31

/-- WP A is later than WP B: by frame, then line, then tick (R6). -/
def wpLater (a b : Wp) : Bool :=
  frameLater a.frame b.frame ||
  (frameDiff a.frame b.frame == 0 && (b.line < a.line || (a.line == b.line && b.tick < a.tick)))

/-- WP X has come: X is at or before the WP now. -/
def wpReached (nowWp x : Wp) : Bool := !wpLater x nowWp && !wpUnordered x nowWp

/-- A frame boundary that has come. -/
def frameReached (nowWp : Wp) (f : Nat) : Bool := wpReached nowWp ⟨f, 0, 0⟩

/-- A boundary event of frame f is due: its boundary has come, or it is among those that a forward jump skipped and that are being run in WP order (R43, R52). -/
def frameDue (s : State) (f : Nat) : Bool := frameReached ⟨s.time.skip.getD (now s).frame, 0, 0⟩ f

/-- The frame difference as a signed number of frames. -/
def frameDelta (a b : Nat) : Int := toSigned 32 (frameDiff a b)

/-- Signed wall lines from one position to another. -/
def lineDelta (lines : Nat) (fromF fromL toF toL : Nat) : Int :=
  frameDelta toF fromF * (lines : Int) + (toL : Int) - (fromL : Int)

/-- R10: whole wall lines from a stored WP to a WP; 0 when the stored WP is later (log entry 5). -/
def linesBetween (lines : Nat) (o : LineWp) (w : Wp) : Nat := (lineDelta lines o.frame o.line w.frame w.line).toNat

/-- The 48 bits of a stored WP field (R12); never set reads all ones. -/
def lineWpBits : Option LineWp → Nat
  | some w => (w.frame % 2 ^ 32) * 2 ^ 16 + w.line % 2 ^ 16
  | none => 0xFFFFFFFFFFFF

/-- The stored field that 48 bits hold (R12). -/
def lineWpOfBits (x : Nat) : Option LineWp :=
  if x % 2 ^ 48 = 0xFFFFFFFFFFFF then none else some ⟨bitsAt x 16 32, bitsAt x 0 16⟩

/-- A stored field that holds a WP. -/
def lineOf (w : Wp) : LineWp := ⟨w.frame, w.line⟩

/-- A stored field as a 64-bit WP of tick 0; all ones when never set. -/
def lineWp64 : Option LineWp → Nat
  | some w => wpBits ⟨w.frame, w.line, 0⟩
  | none => 0xFFFFFFFFFFFFFFFF

/-- The position a signed number of lines after a stored position. -/
def addLines (lines : Nat) (w : LineWp) (d : Int) : LineWp :=
  let t : Int := (w.line : Int) + d
  ⟨((w.frame : Int) + t / (lines : Int)) % (2 ^ 32 : Nat) |>.toNat, (t % (lines : Int)).toNat⟩

/-- The WP a signed number of ticks after a WP. -/
def addTicks (lines : Nat) (w : Wp) (d : Int) : Wp :=
  let t : Int := (w.line : Int) * 65536 + (w.tick : Int) + d
  let span : Int := (lines : Int) * 65536
  let inF := (t % span).toNat
  ⟨(((w.frame : Int) + t / span) % (2 ^ 32 : Nat)).toNat, inF / 65536, inF % 65536⟩

/-- Lines per wall frame now (R41). -/
def wallLines (s : State) : Nat := s.time.timing.lines

/-- Ticks of a wall frame, S of R47. -/
def frameTicks (s : State) : Nat := wallLines s * 65536

/-- Wall lines per second, rounded to the nearest whole line (R41). -/
def linesPerSecond (t : WallTiming) : Nat := (2 * t.rateNum * t.lines + t.rateDen) / (2 * t.rateDen)

/-- Age in whole seconds of a stored base at a WP (R25); none when never set. -/
def ageSeconds (s : State) (base : Option LineWp) (w : Wp) : Option Nat :=
  base.map fun b => linesBetween (wallLines s) b w / linesPerSecond s.time.timing

/-- Number of the frame after a frame, wrapping (R40). -/
def nextFrame (f : Nat) : Nat := (f + 1) % 2 ^ 32

/-- The first wall frame boundary after a WP. -/
def boundaryAfter (w : Wp) : Nat := nextFrame w.frame

/-- The first wall frame boundary at or after a WP. -/
def boundaryAtOrAfter (w : Wp) : Nat := if w.line = 0 ∧ w.tick = 0 then w.frame else nextFrame w.frame

/-- A boundary as a 64-bit WP. -/
def boundaryBits (f : Nat) : Nat := wpBits ⟨f, 0, 0⟩

/-- A WP carried in a command is malformed when its line is not below the lines per wall frame (R6). -/
def wpBadLine (s : State) (w : Wp) : Bool := wallLines s ≤ w.line

/-- R70: WP_DUE lies more than 65,536 wall frames after the WP now, or is unordered against it. -/
def dueTooFar (s : State) (due : Wp) : Bool :=
  wpUnordered due (now s) || wpLater due { now s with frame := ((now s).frame + 65536) % 2 ^ 32 }

/-- R47: ticks from the wall frame's start to output frame i's base B_i within it, for ratio code 0, 1 or 2. -/
def outFrameSpan (s : State) (ratio : Nat) : Nat :=
  if ratio = 1 then frameTicks s / 2 else if ratio = 2 then frameTicks s * 2 else frameTicks s

/-- R47: start of output frame i: B_i + O as a WP. -/
def outFrameStart (s : State) (c : OutCfg) (i : Nat) : Wp :=
  let base : Wp :=
    if c.ratio = 1 then addTicks (wallLines s) ⟨(i / 2) % 2 ^ 32, 0, 0⟩ ((i % 2) * (frameTicks s / 2) : Nat)
    else if c.ratio = 2 then ⟨(2 * i) % 2 ^ 32, 0, 0⟩
    else ⟨i % 2 ^ 32, 0, 0⟩
  addTicks (wallLines s) base (c.offset : Nat)

/-- R47: ticks from an output frame's start to its line j: floor(j x S / (D x V_out)). -/
def outLineOffset (s : State) (c : OutCfg) (j : Nat) : Nat :=
  if c.vOut = 0 then 0
  else if c.ratio = 1 then j * frameTicks s / (2 * c.vOut)
  else if c.ratio = 2 then j * frameTicks s * 2 / c.vOut
  else j * frameTicks s / c.vOut

/-- R47, R202: ticks from an output frame's start to the end of the n-th pixel of line j. -/
def outPixelOffset (s : State) (c : OutCfg) (j n : Nat) : Nat :=
  let whole := (j * c.hTotal + n) * frameTicks s; let d := c.vOut * c.hTotal
  if d = 0 then 0 else if c.ratio = 1 then whole / (2 * d) else if c.ratio = 2 then whole * 2 / d else whole / d

/-- Signed ticks from one WP to another. -/
def tickDelta (lines : Nat) (a b : Wp) : Int :=
  lineDelta lines a.frame a.line b.frame b.line * 65536 + (b.tick : Int) - (a.tick : Int)

/-- R50: a period or deadline in new lines: rounded down, at least 1 when non-zero, at most 16,777,215. -/
def rescaleLines (old new : WallTiming) (v : Nat) : Nat :=
  if v = 0 then 0
  else min 16777215 (max 1 (v * (new.rateNum * new.lines * old.rateDen) / (old.rateNum * old.lines * new.rateDen)))

/-- R50: a stored WP whose distance before the boundary is converted to new lines and rounded up. -/
def rescaleWp (old new : WallTiming) (boundary : Nat) (w : LineWp) : LineWp :=
  let d := lineDelta old.lines w.frame w.line boundary 0
  let num : Int := ((new.rateNum * new.lines * old.rateDen : Nat) : Int)
  let den : Int := ((old.rateNum * old.lines * new.rateDen : Nat) : Int)
  addLines new.lines ⟨boundary, 0⟩ (-(-((-(d * num)) / den)))

/-- A nanosecond in the units of a PTP counter (R309). -/
def nsUnit : Int := 4294967296

/-- A PTP time in the counter's units. -/
def unitsOfPtp (t : PtpTime) : Int := ((t.sec * 1000000000 + t.ns : Nat) : Int) * nsUnit

/-- R53: anchored WP at a PTP time in 2^-32 ns: whole ticks since the anchor at the wall rate, reduced modulo 2^32 frames. -/
def anchoredWp (t : WallTiming) (a : PtpTime) (v : Int) : Wp :=
  addTicks t.lines ⟨0, 0, 0⟩
    ((v - unitsOfPtp a) * ((t.rateNum * t.lines * 65536 : Nat) : Int) / (((t.rateDen * 1000000000 : Nat) : Int) * nsUnit))

/-- Time from one WP to another in 2^-32 ns; a slew that runs is taken out of the WP's rate (R305). -/
def elapsedUnits (s : State) (a b : Wp) : Int :=
  let t := s.time.timing
  let ticks := tickDelta t.lines a b
  let e := ticks * ((t.rateDen * 1000000000 * 65536 : Nat) : Int) / ((t.rateNum * t.lines : Nat) : Int)
  match s.time.slew with
  | some w => e * 1000000 / (1000000 + (if 0 ≤ w.total then (w.rate : Int) else -(w.rate : Int)))
  | none => e

/-- Time since the last device reset in 2^-32 ns, counted by WP. -/
def upTime (s : State) : Nat := s.boot.uptime + (if s.time.running then (elapsedUnits s s.boot.upWp (now s)).toNat else 0)

/-- UPTIME_MS: milliseconds since the last device reset (R437). -/
def uptimeMs (s : State) : Nat := upTime s / (4294967296 * 1000000)

/-- A number of nanoseconds has passed since a time of `upTime`. -/
def passed (s : State) (since ns : Nat) : Bool := decide (since + ns * 4294967296 ≤ upTime s)

end Sys2Proof.Machine
end

