-- ==== Sys2Proof/Machine/WeirCheck.lean ====
section
/-! DEFINITION. The Weir's decision on an access (R364 to R375). -/
namespace Sys2Proof.Machine
open Sys2Proof

/-- Engine classes of R365. -/
abbrev engHost : Nat := 0
/-- LOCKKEEPER of R365. -/
abbrev engLock : Nat := 1
/-- LAYER of R365. -/
abbrev engLayer : Nat := 2
/-- DECODE of R365. -/
abbrev engDecode : Nat := 3
/-- ENCODE of R365. -/
abbrev engEncode : Nat := 4
/-- INGRESS of R365. -/
abbrev engIngress : Nat := 5
/-- FABRIC of R365. -/
abbrev engFabric : Nat := 6
/-- SLUICE of R365. -/
abbrev engSluice : Nat := 7
/-- OPIO of R365. -/
abbrev engOpio : Nat := 8

/-- The first address of register space (R364). -/
def regSpace : Nat := 0x8000000000

/-- An address that no part of the Weir space backs (R364). -/
def unbacked (a : Nat) : Bool := !(a ≤ 0x5FFFFFFFF || (regSpace ≤ a && a ≤ 0x8003FFFFFF))

/-- An address in register space (R364). -/
def inRegSpace (a : Nat) : Bool := regSpace ≤ a && a ≤ 0x8003FFFFFF

/-- The owner of the 64 KiB granule that holds an address, from SURFACE_ALLOC until its storage is freed (R369). -/
def granuleOwner (s : State) (a : Nat) : Option Nat :=
  match s.store.surfs.find? fun e =>
      e.2.used && e.2.base ≤ a && decide (a < e.2.base + e.2.granules * 65536) with
  | some e => some e.2.owner
  | none => none

/-- R369: an access that is not DEBUG matches a rule. -/
def ruleMatches (s : State) (r : WeirRule) (slice engine a : Nat) : Bool :=
  r.enable && r.base ≤ a / 4096 && a / 4096 ≤ r.limit && bitAt r.slices slice && bitAt r.engines engine &&
  bitAt r.crit (match (tget {} s.slices slice).cls with | .s => 0 | .o => 1 | .a => 2) &&
  (r.owned == 0 || granuleOwner s a == some slice || (r.owned == 2 && granuleOwner s a == some 0))

/-- The decision of R367 on one unit: none allows, a rule number denies. -/
def weirDecide (s : State) (slice engine : Nat) (write : Bool) (a : Nat) : Option Nat :=
  if unbacked a then some 0xFFC
  else if a < 0x10000000 then
    if slice = 0 ∧ (engine = engLock ∨ engine = engSluice) then none else some 0xFFD
  else if inRegSpace a && slice = 0 && engine = engLock then none
  else match s.weir.rules.find? fun e => ruleMatches s e.2 slice engine a with
    | some (n, r) => if (if write then r.write else r.read) then none else some n
    | none => some 0xFFE

/-- R375: the decision on a DEBUG access; locked rules only. -/
def debugDecide (s : State) (write : Bool) (a : Nat) : Option Nat :=
  if unbacked a then some 0xFFC
  else match s.weir.rules.find? fun e => e.2.enable && e.2.lock && e.2.base ≤ a / 4096 && a / 4096 ≤ e.2.limit with
    | some (n, r) => if r.debug && (if write then r.write else r.read) then none else some n
    | none => none

/-- The 256-byte units that a range touches (R366): their first addresses. -/
def unitsOf (a n : Nat) : List Nat :=
  if n = 0 then [] else (List.range ((a + n - 1) / 256 - a / 256 + 1)).map fun i => max a ((a / 256 + i) * 256)

/-- The address of the first denied unit of a transfer, with its deciding rule (R366, R367, R374). -/
def weirDenied (s : State) (slice engine : Nat) (write : Bool) (a n : Nat) : Option (Nat × Nat) :=
  (unitsOf a n).findSome? fun u => (weirDecide s slice engine write u).map fun r => (u / 256 * 256, r)

/-- Every unit of a transfer is allowed. -/
def weirAllows (s : State) (slice engine : Nat) (write : Bool) (a n : Nat) : Bool :=
  (weirDenied s slice engine write a n).isNone

/-- EV_WEIR_VIOLATION and the record of WEIR_VIOLATION_READ (R374). -/
def violationBits (v : Violation) : Nat :=
  packFields [(0, 16, 0x0B01), fAt 2 0 7 v.slice, fAt 2 7 1 (v.debug).toNat, fAt 3 0 4 v.engine, fAt 3 4 1 v.write.toNat,
    fAt 4 0 12 v.rule, fAt 6 0 16 v.count, fAt 8 0 64 v.wp, fAt 16 0 64 v.address, fAt 24 0 32 v.handle]

end Sys2Proof.Machine
end

