-- ==== Sys2Proof/Machine/Serial.lean ====
section
/-! DEFINITION. The data lanes of a Toden port: blocks, scrambling and run-length stuffing, both ways (R328, R331, R356). The order of bits and what the coders start with are log entry 114. -/
namespace Sys2Proof.Machine
open Sys2Proof

/-- The bits of bytes, least significant first. -/
def bitsOfBytes (l : List Byte) : List Bool := l.flatMap fun b => (List.range 8).map fun i => bitAt b.toNat i

/-- Bytes of bits, least significant first. -/
def bytesOfBits : List Bool → List Byte
  | a :: b :: c :: d :: e :: f :: g :: h :: r =>
    BitVec.ofNat 8 (a.toNat + 2 * b.toNat + 4 * c.toNat + 8 * d.toNat + 16 * e.toNat + 32 * f.toNat + 64 * g.toNat + 128 * h.toNat) :: bytesOfBits r
  | _ => []

/-- The scrambler x^58 + x^39 + 1: what a bit is combined with, from the 58 bits before it on the line (R328). -/
def scramblerBit (hist : Nat) : Bool := bitAt hist 38 != bitAt hist 57

/-- A bit of the line joins the scrambler's history. -/
def pushHist (hist : Nat) (b : Bool) : Nat := (2 * hist + b.toNat) % 2 ^ 58

/-- Identical consecutive bits with one more bit (R356). -/
def runWith (c : LaneCoder) (b : Bool) : Nat := if c.run ≠ 0 ∧ b = c.last then c.run + 1 else 1

/-- A transmitter sends a bit, and after the 48th identical one a bit of the opposite value, which is not counted (R356). The line's bits are kept newest first. -/
def sendBit (a : LaneCoder × List Bool) (b : Bool) : LaneCoder × List Bool :=
  let n := runWith a.1 b
  if n = 48 then ({ a.1 with last := b, run := 0 }, (!b) :: b :: a.2) else ({ a.1 with last := b, run := n }, b :: a.2)

/-- A transmitter sends a payload bit, scrambled. -/
def sendScrambled (a : LaneCoder × List Bool) (d : Bool) : LaneCoder × List Bool :=
  let b := d != scramblerBit a.1.hist
  sendBit ({ a.1 with hist := pushHist a.1.hist b }, a.2) b

/-- A block on a lane: its 2-bit header as it is, its 32 bytes scrambled (R328). -/
def sendBlock (c : LaneCoder) (header : Nat) (l : List Byte) : LaneCoder × List Bool :=
  let a := sendBit (sendBit (c, []) (bitAt header 1)) (bitAt header 0)
  let a := (bitsOfBytes l).foldl sendScrambled a
  (a.1, a.2.reverse)

/-- A block that its lane has received whole. -/
def endBlock (c : LaneCoder) : LaneCoder :=
  let l := c.part.reverse
  let b : RxBlock := { header := 2 * (l.headD false).toNat + ((l.drop 1).headD false).toNat, bytes := bytesOfBits (l.drop 2), bad := c.bad }
  { c with part := [], bad := false, blocks := c.blocks ++ [b] }

/-- A receiver takes a bit: the one after 48 identical bits is removed, and when it is not the opposite value that is a stuffing error in the block that holds it (R356). The count is of stuffing errors. -/
def takeBit (a : LaneCoder × Nat) (b : Bool) : LaneCoder × Nat :=
  let c := a.1
  if c.run = 48 then
    let err := b == c.last
    ({ c with run := 0, bad := c.bad || err }, a.2 + err.toNat)
  else
    let c := { c with run := runWith c b, last := b }
    let c := if c.part.length < 2 then { c with part := b :: c.part }
      else { c with part := (b != scramblerBit c.hist) :: c.part, hist := pushHist c.hist b }
    (if c.part.length = 258 then endBlock c else c, a.2)

/-- Header 0b00 or 0b11, or a stuffing error: a block error (R328, R356). -/
def blockError (b : RxBlock) : Bool := b.bad || b.header == 0 || b.header == 3

/-! Blocks of packets. -/

/-- 32 bytes of a block, the rest zeros. -/
def blockBytes (l : List Byte) : List Byte := padTo 32 (l.take 32)

/-- The payload cut into blocks of 32 bytes. -/
def dataBlocks (l : List Byte) : List (List Byte) := (List.range ((l.length + 31) / 32)).map fun k => blockBytes (l.drop (32 * k))

/-- The blocks of a packet: SOP, data, EOP with the valid bytes of the last data block and the packet check (R331). -/
def packetBlocks (sop payload check : List Byte) : List (Nat × List Byte) :=
  let valid := payload.length - (payload.length - 1) / 32 * 32
  (2, blockBytes sop) :: (dataBlocks payload).map (fun l => (1, l)) ++ [(2, blockBytes ([0x55, BitVec.ofNat 8 valid, 0, 0] ++ check))]

/-- The next block goes out on lane k mod 4 (R328). -/
def putBlock (a : TodPort × List (List Bool)) (b : Nat × List Byte) : TodPort × List (List Bool) :=
  let x := a.1
  let n := x.txBlocks % 4
  let (c, bits) := sendBlock (x.tx.getD n {}) b.1 b.2
  ({ x with tx := x.tx.set n c, txBlocks := (x.txBlocks + 1) % 2 ^ 34 }, a.2.set n (a.2.getD n [] ++ bits))

/-- ALIGN on all four lanes: lane number and block count (R328). -/
def alignBlocks (x : TodPort) : List (Nat × List Byte) :=
  (List.range 4).map fun n => (2, blockBytes ([0x2D, BitVec.ofNat 8 n] ++ bytesLE 4 (x.txBlocks / 4)))

/-- A block, after ALIGN blocks every 16,384 blocks per lane (R328). -/
def putNext (a : TodPort × List (List Bool)) (b : Nat × List Byte) : TodPort × List (List Bool) :=
  putBlock (if a.1.txBlocks % 65536 = 0 then (alignBlocks a.1).foldl putBlock a else a) b

/-- Blocks onto the lanes of a port: the port after them, and each lane's bits. -/
def putBlocks (x : TodPort) (l : List (Nat × List Byte)) : TodPort × List (List Bool) := l.foldl putNext (x, [[], [], [], []])

/-! Reception. -/

/-- Bits arrive on the lanes: each lane's coder after them, with its stuffing errors and header errors. -/
def takeBits (x : TodPort) (bits : List (List Bool)) : TodPort × List (Nat × Nat) :=
  let l := (List.range 4).map fun n =>
    let c := x.rx.getD n {}
    let r := (bits.getD n []).foldl takeBit (c, 0)
    (r.1, r.2, ((r.1.blocks.drop c.blocks.length).filter fun b => b.header == 0 || b.header == 3).length)
  ({ x with rx := l.map fun r => r.1 }, l.map fun r => (r.2.1, r.2.2))

/-- The next block of the port's stream, when its lane has it (R328). -/
def nextBlock (x : TodPort) : Option (RxBlock × TodPort) :=
  let c := x.rx.getD x.rxLane {}
  match c.blocks with
  | [] => none
  | b :: r => some (b, { x with rx := x.rx.set x.rxLane { c with blocks := r }, rxLane := (x.rxLane + 1) % 4 })

/-- The bytes of a packet whose EOP has come: SOP, LENGTH payload bytes by the valid bytes of its last data block, and the check. -/
def partsBytes (a : PktParts) (eop : List Byte) : List Byte :=
  let n := if a.data.isEmpty then 0 else a.data.length - 32 + byteAt eop 1
  a.sop ++ a.data.take n ++ (eop.drop 4).take 4

/-- Read blocks up to the end of a packet; a packet that holds a block error comes as `some none` (R331). -/
def readPacket : Nat → TodPort → TodPort × Option (Option (List Byte))
  | 0, x => (x, none)
  | n + 1, x => match nextBlock x with
    | none => (x, none)
    | some (b, x) =>
      if blockError b then readPacket n { x with asm := x.asm.map fun a => { a with bad := true } }
      else if b.header = 1 then readPacket n { x with asm := x.asm.map fun a => { a with data := a.data ++ b.bytes } }
      else if byteAt b.bytes 0 = 0x4B then readPacket n { x with asm := some { sop := b.bytes } }
      else if byteAt b.bytes 0 = 0x55 then match x.asm with
        | none => readPacket n x
        | some a => ({ x with asm := none }, some (if a.bad then none else some (partsBytes a b.bytes)))
      else readPacket n x

/-- Blocks that wait at a port's lanes. -/
def waitingBlocks (x : TodPort) : Nat := x.rx.foldl (fun n c => n + c.blocks.length) 0

/-- Bits arrive and are read up to the end of a packet: none, one that is discarded for a block error, or its bytes. -/
def takePacket (x : TodPort) (bits : List (List Bool)) : TodPort × List (Nat × Nat) × Option (Option (List Byte)) :=
  let (x, errs) := takeBits x bits
  let (x, r) := readPacket (waitingBlocks x) x
  (x, errs, r)

end Sys2Proof.Machine
end

