-- ==== Sys2Proof/Machine/Packets.lean ====
section
/-! DEFINITION. Toden ports, packets and routes (R327 to R331, R344): what any part of the device sends over the fabric. -/
namespace Sys2Proof.Machine
open Sys2Proof

/-- Emit an output. -/
def emit (s : State) (o : Output) : State := { s with out := s.out ++ [o] }

/-- Apply a function for each element of a list in order. -/
def forEach {α : Type} (l : List α) (f : α → State → State) (s : State) : State := l.foldl (fun s a => f a s) s

/-- A Toden port. -/
def getTod (s : State) (p : Nat) : TodPort := tget {} s.fabric.ports p
/-- Change a Toden port. -/
def modTod (s : State) (p : Nat) (f : TodPort → TodPort) : State := { s with fabric := { s.fabric with ports := tmod {} s.fabric.ports p f } }
/-- A trained port (R327). -/
def todUp (x : TodPort) : Bool := x.state == .forwarding || x.state == .blocked

/-- Ports in state FORWARDING. -/
def forwarding (s : State) : List Nat := (List.range 4).filter fun p => (getTod s p).state == .forwarding

/-- A packet (R331). -/
structure Pkt where
  dest : Nat := 0
  src : Nat := 0
  vc : Nat := 0
  kind : Nat := 0
  hops : Nat := 0
  lost : Bool := false
  chroma : Bool := false
  seq : Nat := 0
  exportId : Nat := 0
  line : Nat := 0
  complete : Nat := 0
  frameSeq : Nat := 0
  payload : List Byte := []
  deriving DecidableEq, Repr

/-- SOP bytes of a packet (R331). -/
def sopBytes (p : Pkt) : List Byte :=
  bytesLE 32 (packFields [fAt 0 0 8 0x4B, fAt 1 0 12 p.dest, fAt 3 0 12 p.src, fAt 5 0 2 p.vc, fAt 5 2 6 p.kind, fAt 6 0 8 p.hops,
    fAt 7 0 1 p.lost.toNat, fAt 7 1 1 p.chroma.toNat, fAt 8 0 16 p.seq, fAt 10 0 12 p.exportId, fAt 12 0 32 p.payload.length,
    fAt 16 0 32 p.line, fAt 20 0 64 p.complete, fAt 28 0 16 p.frameSeq])

/-- SOP bytes, payload and packet check (R331). -/
def pktBytes (p : Pkt) : List Byte :=
  let l := sopBytes p ++ p.payload
  l ++ bytesLE 4 (crc32c (l.drop 1))

/-- A received packet whose check and LENGTH hold (R331). -/
def parsePkt (l : List Byte) : Option Pkt :=
  let n := leAt l 12 4
  let b := byteAt l 7
  if l.length != 36 + n || leAt l (32 + n) 4 != crc32c ((l.take (32 + n)).drop 1) then none
  else some { dest := leAt l 1 2 % 4096, src := leAt l 3 2 % 4096, vc := byteAt l 5 % 4, kind := byteAt l 5 / 4, hops := byteAt l 6,
              lost := bitAt b 0, chroma := bitAt b 1, seq := leAt l 8 2, exportId := leAt l 10 2 % 4096, line := leAt l 16 4,
              complete := leAt l 20 8, frameSeq := leAt l 28 2, payload := (l.drop 32).take n }

/-- Blocks go out on the data lanes of a port (R328). -/
def sendBlocks (s : State) (port : Nat) (l : List (Nat × List Byte)) : State :=
  let (x, bits) := putBlocks (getTod s port) l
  emit (modTod s port fun _ => x) (.lanes port bits)

/-- Send a control block. -/
def sendCtlBlock (s : State) (port type : Nat) (l : List Byte) : State :=
  sendBlocks (emit s (.toden port type l)) port [(2, blockBytes (BitVec.ofNat 8 type :: l))]

/-- Send a packet on a port: numbered and kept for replay on VC 0 and 2 (R330). -/
def sendPkt (s : State) (port : Nat) (p : Pkt) : State :=
  let t := getTod s port
  let q := { p with seq := if p.vc = 0 then t.txSeq0 else if p.vc = 2 then t.txSeq2 else 0 }
  let s := sendBlocks (emit s (.toden port p.kind (pktBytes q))) port (packetBlocks (sopBytes q) q.payload ((pktBytes q).drop (32 + q.payload.length)))
  if p.vc = 1 then s
  else modTod s port fun t => { t with
    replay := t.replay ++ [(p.vc, q.seq, pktBytes q)]
    txSeq0 := if p.vc = 0 then (t.txSeq0 + 1) % 65536 else t.txSeq0
    txSeq2 := if p.vc = 2 then (t.txSeq2 + 1) % 65536 else t.txSeq2 }

/-- The entry that takes a destination: the lowest-numbered enabled one that covers it and names LOCAL or a FORWARDING port (R344). -/
def routeOf (s : State) (dest : Nat) : Option Nat :=
  (s.fabric.routes.find? fun e => e.2.enable && e.2.low ≤ dest && decide (dest ≤ e.2.high) &&
    (e.2.port == 15 || (getTod s e.2.port).state == .forwarding)).map fun e => e.2.port

/-- Ports that carry a packet for a destination onward, not the one it came from; a broadcast takes every FORWARDING port (R344). -/
def portsFor (s : State) (dest : Nat) (arrival : Option Nat) : List Nat :=
  if dest = 4095 then (forwarding s).filter fun p => arrival != some p
  else match routeOf s dest with
    | some p => if p < 4 then [p] else []
    | none => []

/-- A packet is for this device: a broadcast, or one that its routes take to LOCAL (R344). -/
def isLocal (s : State) (dest : Nat) : Bool := dest == 4095 || routeOf s dest == some 15

/-- A packet that no entry takes is counted (R344). -/
def countUnrouted (s : State) (dest : Nat) : State :=
  if dest ≠ 4095 ∧ (routeOf s dest).isNone then { s with fabric := { s.fabric with noRoute := s.fabric.noRoute + 1 } } else s

/-- Send a packet of this device, or forward one. -/
def routePkt (s : State) (arrival : Option Nat) (p : Pkt) : State :=
  forEach (portsFor s p.dest arrival) (fun q s => sendPkt s q p) (countUnrouted s p.dest)

/-- A packet that waits for its acknowledgement goes out again (R330). -/
def resend (s : State) (port : Nat) (l : List Byte) : State :=
  let n := l.length - 36
  sendBlocks (emit s (.toden port (byteAt l 5 / 4) l)) port (packetBlocks (l.take 32) ((l.drop 32).take n) (l.drop (32 + n)))

end Sys2Proof.Machine
end

