-- ==== Sys2Proof/Machine/Ops.lean ====
section
/-! DEFINITION. The named operations over the state: tables of state, Reservoir memory, rings, replies, events, interrupts, fault records, and running a held packet. -/
namespace Sys2Proof.Machine
open Sys2Proof

/-! Access to indexed state. -/

/-- A slice's record. -/
def getSlice (s : State) (i : Nat) : Slice := tget {} s.slices i
/-- Change a slice's record. -/
def modSlice (s : State) (i : Nat) (f : Slice → Slice) : State := { s with slices := tmod {} s.slices i f }
/-- A slice's rings. -/
def getRings (s : State) (i : Nat) : SliceRings := tget {} s.rings i
/-- Change a slice's rings. -/
def modRings (s : State) (i : Nat) (f : SliceRings → SliceRings) : State := { s with rings := tmod {} s.rings i f }
/-- A ledger entry (R11). -/
def getEntry (s : State) (i : Nat) : LedgerEntry := tget {} s.ledger.entries i
/-- Change a ledger entry. -/
def modEntry (s : State) (i : Nat) (f : LedgerEntry → LedgerEntry) : State :=
  { s with ledger := { s.ledger with entries := tmod {} s.ledger.entries i f } }
/-- A surface index. -/
def getSurf (s : State) (i : Nat) : Surface := tget {} s.store.surfs i
/-- Change a surface index. -/
def modSurf (s : State) (i : Nat) (f : Surface → Surface) : State :=
  { s with store := { s.store with surfs := tmod {} s.store.surfs i f } }
/-- A layer slot, by 8 x output + slot. -/
def getSlot (s : State) (i : Nat) : Slot := tget {} s.comp.slots i
/-- Change a layer slot. -/
def modSlot (s : State) (i : Nat) (f : Slot → Slot) : State :=
  { s with comp := { s.comp with slots := tmod {} s.comp.slots i f } }
/-- An output. -/
def getOut (s : State) (i : Nat) : OutputSt := tget {} s.scan.outputs i
/-- Change an output. -/
def modOut (s : State) (i : Nat) (f : OutputSt → OutputSt) : State :=
  { s with scan := { s.scan with outputs := tmod {} s.scan.outputs i f } }
/-- A rectangle, by 16 x output + rectangle. -/
def getRect (s : State) (i : Nat) : Rect := tget {} s.scan.rects i
/-- Change a rectangle. -/
def modRect (s : State) (i : Nat) (f : Rect → Rect) : State :=
  { s with scan := { s.scan with rects := tmod {} s.scan.rects i f } }
/-- A bank. -/
def getBank (s : State) (i : Nat) : Bank := tget {} s.bank.banks i
/-- Change a bank. -/
def modBank (s : State) (i : Nat) (f : Bank → Bank) : State :=
  { s with bank := { s.bank with banks := tmod {} s.bank.banks i f } }
/-- A commit group. -/
def getGroup (s : State) (i : Nat) : Group := tget {} s.comp.groups i
/-- Where an output is composed. -/
def getCarry (s : State) (o : Nat) : Carry := s.bank.carry.getD o {}
/-- Change where an output is composed. -/
def modCarry (s : State) (o : Nat) (f : Carry → Carry) : State :=
  { s with bank := { s.bank with carry := s.bank.carry.set o (f (getCarry s o)) } }

/-- A fresh free value of the spec's open kind, and the counter advanced. -/
def freshValue (s : State) : BitVec 64 × State := (Config.undefinedValue s.free, { s with free := s.free + 1 })

/-- Add to a counter of a group (R439): 64 bits, wrapping. -/
def bump (s : State) (group entry counter n : Nat) : State :=
  let k := group * 2 ^ 16 + entry * 16 + counter
  { s with boot := { s.boot with counters := tmod 0 s.boot.counters k fun v => (v + n) % 2 ^ 64 } }

/-- A counter of a group. -/
def getCounter (s : State) (group entry counter : Nat) : Nat :=
  tget 0 s.boot.counters (group * 2 ^ 16 + entry * 16 + counter)

/-! Reservoir memory (R105). -/

/-- One byte of the store; an unlisted byte reads 0 (R418). -/
def readByte (s : State) (a : Nat) : Byte := tget 0 s.store.mem a

/-- n bytes of the store. -/
def readBytes (s : State) (a n : Nat) : List Byte := (List.range n).map fun i => readByte s (a + i)

/-- Put bytes into a memory. -/
def memWrite (m : List (Nat × Byte)) (a : Nat) : List Byte → List (Nat × Byte)
  | [] => m
  | b :: r => memWrite (tset 0 m a b) (a + 1) r

/-- R108: poison of the units that a write covers wholly is cleared. -/
def clearPoison (p : Tab Bool) (a n : Nat) : Tab Bool :=
  (List.range ((a + n) / 256 - (a + 255) / 256)).foldl (fun p i => tset false p ((a + 255) / 256 + i) false) p

/-- One past the last address of the store (R364). -/
def storeEnd : Nat := 0x600000000

/-- Write bytes to the store; nothing beyond it is stored. -/
def writeBytes (s : State) (a : Nat) (l : List Byte) : State :=
  let l := l.take (storeEnd - a)
  { s with store := { s.store with
      mem := memWrite s.store.mem a l
      poison := clearPoison s.store.poison a l.length
      poisonSeen := clearPoison s.store.poisonSeen a l.length } }

/-- Whether a unit of a range is poisoned (R108). -/
def rangePoisoned (s : State) (a n : Nat) : Bool :=
  n != 0 && s.store.poison.any fun e => a / 256 ≤ e.1 && e.1 ≤ (a + n - 1) / 256 && e.2

/-! Interrupts, writeback and rings (R59 to R65, R451). -/

/-- MSI-X entry of a slice's vector (R451). -/
def msixEntry (slice vector : Nat) : Nat := if slice = 0 then vector else 64 + 16 * (slice - 1) + vector

/-- Raise an MSI-X entry: sent when unmasked, otherwise, or while the link is in Loopback (R358), its pending bit is set (R451); a claimed headless device sends vectors 0 to 63 as INTERRUPT packets to its remote manager (R351, R449). -/
def raiseEntry (s : State) (e : Nat) : State :=
  if s.regs.headless && s.regs.claim.isSome && decide (e < 64) then
    routePkt s none { dest := s.regs.claim.getD 0, src := s.fabric.addr, kind := 10, payload := [BitVec.ofNat 8 e] }
  else if tget false s.regs.unmasked e && !s.regs.loopback then emit s (.msix e)
  else { s with regs := { s.regs with msixPending := tset false s.regs.msixPending e true } }

/-- Whether the device can reach host memory: the link is up and not in Loopback (R358). -/
def hostReachable (s : State) : Bool := s.regs.linkUp && !s.regs.loopback

/-- The PASID that the device's host accesses for a slice carry (R102). -/
def pasidOf (s : State) (slice : Nat) : Nat := (getSlice s slice).pasid.getD 0

/-- Write bytes to host memory for a slice, under the PASID it is bound to at that moment (R102). -/
def hostPut (s : State) (slice addr : Nat) (l : List Byte) : State := emit s (.hostWrite slice (pasidOf s slice) addr l)

/-- Write bytes for a slice's ring: host memory, or the Reservoir. -/
def ringWrite (s : State) (slice : Nat) (space : Bool) (addr : Nat) (l : List Byte) : State :=
  if space then writeBytes s addr l else hostPut s slice addr l

/-- The writeback block (R63). -/
def writeback (s : State) (slice : Nat) : State :=
  let r := getRings s slice
  if r.wbEnable && (r.wbSpace || (hostReachable s && (slice == 0 || (getSlice s slice).pasid.isSome))) then
    ringWrite s slice r.wbSpace r.wbAddr (bytesLE 64 (packFields
      [(0, 32, (tget {} r.sq 0).head.toNat), (32, 32, (tget {} r.sq 1).head.toNat),
       (64, 32, (tget {} r.sq 2).head.toNat), (96, 32, (tget {} r.sq 3).head.toNat),
       (128, 32, r.rq.tail.toNat), (160, 32, r.eq.tail.toNat), (192, 64, nowBits s)]))
  else s

/-- Entries in a reply or event ring (R61). -/
def repCount (r : RepRing) : Nat := (r.tail - r.head).toNat

/-- A reply or event ring can take an entry: enabled, in reach and not full. -/
def repRoom (s : State) (r : RepRing) : Bool :=
  r.enable && (r.space || hostReachable s) && decide (repCount r < 2 ^ r.sizeLog2)

/-- A slice's ring can take an entry: a restored slice has no PASID to reach host memory with (R99, R101). -/
def ringRoom (s : State) (slice : Nat) (r : RepRing) : Bool :=
  repRoom s r && (slice == 0 || r.space || (getSlice s slice).pasid.isSome)

/-- Address of the entry a reply or event ring takes next (R61). -/
def repAddr (r : RepRing) : Nat := r.base * 4096 + (r.tail.toNat % 2 ^ r.sizeLog2) * 32

/-- Raise a ring's vector, held back by a running hold-off (R63). -/
def ringInterrupt (s : State) (slice : Nat) (event : Bool) : State :=
  let r := if event then (getRings s slice).eq else (getRings s slice).rq
  if r.holdRunning then
    modRings s slice fun x =>
      if event then { x with eq := { x.eq with irqPending := true } } else { x with rq := { x.rq with irqPending := true } }
  else
    let s := modRings s slice fun x =>
      if event then { x with eq := { x.eq with holdRunning := decide (x.eq.holdoff ≠ 0), holdAt := upTime s } }
      else { x with rq := { x.rq with holdRunning := decide (x.rq.holdoff ≠ 0), holdAt := upTime s } }
    raiseEntry s (msixEntry slice r.vector)

/-- Write one 32-byte entry at a ring's TAIL, advance it, write the writeback and raise the vector (R61, R63). -/
def pushEntry (s : State) (slice : Nat) (event : Bool) (bits : Nat) : State :=
  let r := if event then (getRings s slice).eq else (getRings s slice).rq
  let s := if r.space then writeBytes s (repAddr r) (bytesLE 32 bits) else s
  let s := modRings s slice fun x =>
    if event then { x with eq := { x.eq with tail := x.eq.tail + 1 } } else { x with rq := { x.rq with tail := x.rq.tail + 1 } }
  ringInterrupt (writeback s slice) slice event

/-- The WP of the happening that an event entry reports (R80). -/
def eventWp (bits : Nat) : Wp := wpOfBits (bitsAt bits 64 64)

/-- Count an event as lost to a slice, with the WP of its happening (R80). -/
def loseEvent (s : State) (slice bits : Nat) : State :=
  bump (modRings s slice fun r =>
    { r with lost := satAdd 32 r.lost 1
             firstLost := if r.lost = 0 then eventWp bits else r.firstLost
             lastLost := eventWp bits }) 6 slice 5 1

/-- EV_EVENTS_LOST (R80). -/
def lostBits (r : SliceRings) : Nat :=
  packFields [(0, 16, 1), (16, 32, r.lost), (64, 64, wpBits r.firstLost), (128, 64, wpBits r.lastLost)]

/-- Put an event entry on a slice's ring and report it as an output. -/
def pushEvent (s : State) (slice : Nat) (bits : Nat) : State :=
  let r := (getRings s slice).eq
  pushEntry (emit s (.event slice (pasidOf s slice) r.space (repAddr r) bits)) slice true bits

/-- R80: when room returns on an enabled ring, EV_EVENTS_LOST is written first. -/
def flushLost (s : State) (slice : Nat) : State :=
  let r := getRings s slice
  if r.lost ≠ 0 && ringRoom s slice r.eq then
    pushEvent (modRings s slice fun r => { r with lost := 0 }) slice (lostBits r)
  else s

/-- Post an event on a ring that the device may write; dropped and counted when the ring is full or disabled (R80). -/
def rawPost (s : State) (slice : Nat) (bits : Nat) : State :=
  let s := flushLost s slice
  if ringRoom s slice (getRings s slice).eq then pushEvent s slice bits else loseEvent s slice bits

/-- An event entry: code, WP and further fields (R80). -/
def eventBits (code wp : Nat) (fields : List Field) : Nat :=
  packFields ([(0, 16, code), (64, 64, wp)] ++ fields)

/-- EV_RING_ERROR (R80). -/
def ringErrorBits (s : State) (which reason index addr : Nat) : Nat :=
  eventBits 0x0002 (nowBits s) [fAt 2 0 8 which, fAt 3 0 8 reason, fAt 4 0 32 index, fAt 16 0 64 addr]

/-- R373: the first denial fills the record and posts EV_WEIR_VIOLATION through p; each later one increments COUNT. -/
def recordDenialBy (p : State → Nat → State) (s : State) (v : Violation) : State :=
  match s.weir.violation with
  | none => p { s with weir := { s.weir with violation := some { v with count := 0 } } } (violationBits { v with count := 0 })
  | some w => { s with weir := { s.weir with violation := some { w with count := satAdd 16 w.count 1 } } }

/-- A write of n bytes for a slice's ring that completes with an error: refused by the Weir in the Reservoir, or host memory of a slice bound to PASID 0 (R64, R102); the deciding rule. -/
def ringDenied (s : State) (slice : Nat) (space : Bool) (addr n : Nat) : Option (Nat × Nat) :=
  if space then weirDenied s slice engHost true addr n
  else if slice ≠ 0 ∧ (getSlice s slice).pasid = some 0 then some (addr, 0xFFF) else none

/-- R64: the ring, or the writeback block (6), stops with ERROR set and ENABLE clear. -/
def stopRing (s : State) (slice which : Nat) : State :=
  modRings s slice fun x =>
    if which < 4 then { x with sq := tmod {} x.sq which fun q => { q with error := true, enable := false } }
    else if which = 4 then { x with rq := { x.rq with error := true, enable := false } }
    else if which = 5 then { x with eq := { x.eq with error := true, enable := false } }
    else { x with wbError := true, wbEnable := false }

/-- Stop a ring of a slice whose write the Weir refused, with the violation reported through p and EV_RING_ERROR through q (R64). -/
def stopDenied (p q : State → Nat → State) (s : State) (slice which index addr : Nat) (d : Nat × Nat) : State :=
  let s := stopRing s slice which
  let s := recordDenialBy p s { slice, engine := engHost, write := true, rule := d.2, wp := nowBits s, address := d.1 }
  q s (ringErrorBits s which 2 index addr)

/-- Stop the writeback block when its next write would be refused (R64). -/
def guardWriteback (p q : State → Nat → State) (s : State) (slice : Nat) : State :=
  let r := getRings s slice
  if r.wbEnable then
    match ringDenied s slice r.wbSpace r.wbAddr 64 with
    | some d => stopDenied p q s slice 6 0 r.wbAddr d
    | none => s
  else s

/-- Stop a reply (which 4) or event (which 5) ring when its next write would be refused (R64). -/
def guardRing (p q : State → Nat → State) (s : State) (slice which : Nat) : State :=
  let r := if which = 5 then (getRings s slice).eq else (getRings s slice).rq
  if ringRoom s slice r then
    match ringDenied s slice r.space (repAddr r) 32 with
    | some d => stopDenied p q s slice which (repCount r) (repAddr r) d
    | none => s
  else s

/-- Post on the manager's event ring whatever stands there: what a stop of that ring itself is reported with (R80). -/
def lastPost (s : State) (bits : Nat) : State := rawPost s 0 bits

/-- Post on the manager's event ring, stopped first when its own write would be refused (R64). -/
def ownPost (s : State) (bits : Nat) : State := lastPost (guardRing lastPost lastPost s 0 5) bits

/-- Post an event to the manager's event ring. -/
def managerPost (s : State) (bits : Nat) : State := ownPost (guardWriteback ownPost ownPost s 0) bits

/-- Post on a slice's event ring, stopped first when its write would be refused: its own stop goes to the manager (R64, R80). -/
def slicePost (s : State) (slice bits : Nat) : State := rawPost (guardRing managerPost managerPost s slice 5) slice bits

/-- Where a slice's EV_RING_ERROR goes while its event ring is not the ring reported: to that ring, or to the manager's when it is not enabled (R80). -/
def errorPost (slice : Nat) (s : State) (bits : Nat) : State :=
  if slice ≠ 0 ∧ (getRings s slice).eq.enable then slicePost s slice bits else ownPost s bits

/-- Stop a slice's writeback block when its next write would be refused (R64). -/
def guardWb (s : State) (slice : Nat) : State := guardWriteback managerPost (errorPost slice) s slice

/-- Stop what an event's writes to a guest's ring would be refused on, before it is written (R64). -/
def guardEvent (s : State) (slice : Nat) : State :=
  if slice = 0 then guardRing lastPost lastPost (guardWriteback ownPost ownPost s 0) 0 5
  else guardRing managerPost managerPost (guardWb s slice) slice 5

/-- Post an event to a slice's event ring; dropped and counted when the ring is full, disabled or stopped (R80). -/
def postEvent (s : State) (slice : Nat) (bits : Nat) : State := rawPost (guardEvent s slice) slice bits

/-- Post an event of a code at the WP now. -/
def post (s : State) (slice code : Nat) (fields : List Field) : State :=
  postEvent s slice (eventBits code (nowBits s) fields)

/-- EV_RING_ERROR, routed as R80 says: to the slice, to the manager when the slice's own event ring is the ring reported or is not enabled, and lost when the manager's is. -/
def postRingError (s : State) (slice which reason index addr : Nat) : State :=
  let bits := ringErrorBits s which reason index addr
  if which = 5 || !(getRings s slice).eq.enable then
    if slice = 0 then loseEvent s 0 bits
    else if (getRings s 0).eq.enable then postEvent s 0 bits else loseEvent s 0 bits
  else postEvent s slice bits

/-- Put a reply on a slice's reply ring. -/
def pushReply (s : State) (slice : Nat) (r : Reply) : State :=
  let q := (getRings s slice).rq
  pushEntry (emit s (.reply slice (pasidOf s slice) q.space (repAddr q) r)) slice false (replyBits r)

/-- Stop what a reply's writes would be refused on, before the reply is written (R64). -/
def guardReply (s : State) (slice : Nat) : State :=
  guardRing managerPost (errorPost slice) (guardWb s slice) slice 4

/-- A reply can be written now: one of Lockkeeper's waits while Lockkeeper does not run, and holds no other back (R73, R423). -/
def replyReady (s : State) (r : Reply) : Bool := !r.lk || s.boot.lk = .running

/-- Send a reply, or keep it while the ring is stopped or full (R64), behind those that can be written and wait, or while Lockkeeper, which sends it, does not run (R423). -/
def sendReply (s : State) (slice : Nat) (r : Reply) : State :=
  let s := guardReply s slice
  if ringRoom s slice (getRings s slice).rq && !(getRings s slice).waiting.any (replyReady s) && replyReady s r then
    pushReply s slice r
  else modRings s slice fun x => { x with waiting := x.waiting ++ [r] }

/-- Write the waiting replies that can be written, in their order, while room lasts; n bounds how many (R64, R73). -/
def flushReplies : Nat → Nat → State → State
  | 0, _, s => s
  | n + 1, slice, s =>
    let s := guardReply s slice
    match (getRings s slice).waiting.find? (replyReady s) with
    | none => s
    | some r =>
      if ringRoom s slice (getRings s slice).rq then
        flushReplies n slice (pushReply (modRings s slice fun x => { x with waiting := x.waiting.eraseP (replyReady s) }) slice r)
      else s

/-- Write every waiting reply of a slice that has room. -/
def flushWaiting (s : State) (slice : Nat) : State := flushReplies (getRings s slice).waiting.length slice s

/-- Replies still owed to a slice: held packets and waiting replies (R77). A packet held counts once, whether or not it may yet defer; the two places that R77 adds are for the packet that is taken (log entry 96). -/
def owedReplies (s : State) (slice : Nat) : Nat := (getRings s slice).held.length + (getRings s slice).waiting.length

/-! Denials (R373) and transfers a command makes. -/

/-- R373: the first denial fills the record and posts EV_WEIR_VIOLATION; each later one increments COUNT. -/
def recordDenial (s : State) (v : Violation) : State := recordDenialBy managerPost s v

/-- Record the denial of an access to an address under a rule (R374). -/
def denyAt (s : State) (slice engine : Nat) (write : Bool) (rule addr : Nat) : State :=
  recordDenial s { slice, engine, write, rule, wp := nowBits s, address := addr }

/-- Record an access that named a handle of an old generation (R123, RULE 0xFFB). -/
def denyStale (s : State) (slice engine : Nat) (base handle : Nat) : State :=
  recordDenial s { slice, engine, write := true, rule := 0xFFB, wp := nowBits s, address := base, handle }

/-- On a headless device a command's DEST is a Reservoir address (R38, R351). -/
def destSpace (s : State) : Bool := s.regs.headless

/-! Held packets (R70, R71, R77, R78, R91). -/

/-- The key of a held packet. -/
def heldKey (h : Held) : CmdKey := ⟨h.slice, h.ring, h.index⟩

/-- The held packet of a key. -/
def findHeld (s : State) (k : CmdKey) : Option Held :=
  (getRings s k.slice).held.find? fun h => h.ring == k.ring && h.index == k.index

/-- Remove a held packet. -/
def dropHeld (s : State) (k : CmdKey) : State :=
  modRings s k.slice fun r => { r with held := r.held.filter fun h => !(h.ring == k.ring && h.index == k.index) }

/-- Change a held packet. -/
def modHeld (s : State) (k : CmdKey) (f : Held → Held) : State :=
  modRings s k.slice fun r => { r with held := replFirst (fun h => h.ring == k.ring && h.index == k.index) f r.held }

/-- Change the tag record of a ring's tag (R78). -/
def modTag (s : State) (slice ring tag : Nat) (f : TagRec → Option TagRec) : State :=
  modRings s slice fun r =>
    { r with sq := tmod {} r.sq ring fun q =>
        { q with tags := q.tags.filterMap fun t => if t.tag = tag then f t else some t } }

/-- A packet's reply with a status and a detail (R76). -/
def mkReply (h : Held) (st : Status) (wp detail : Nat) : Reply :=
  { tag := pktTag h.pkt, status := st, opcode := pktOpcode h.pkt, wpDone := wp, detail := detail, source := h.ring
    lk := !opIsQe (pktOpcode h.pkt) }

/-- Whether R78 keeps a command with this final status. -/
def statusKept (st : Status) : Bool := st = .ok || st = .timeout || st = .deferred

/-- Finish a held packet: its final reply, silent when R69 says so, and the tag window's record of it (R78). -/
def finish (s : State) (h : Held) (st : Status) (wp detail : Nat) : State :=
  let r := mkReply h st wp detail
  let s := dropHeld s (heldKey h)
  let s := modTag s h.slice h.ring (pktTag h.pkt) fun t =>
    if statusKept st then some { t with reply := some r, final := true } else none
  if opIsQe (pktOpcode h.pkt) && st = .ok && !pktReplyAlways h.pkt then s
  else sendReply s h.slice r

/-- Finish a held packet at the WP now. -/
def finishNow (s : State) (h : Held) (st : Status) (fields : List Field) : State :=
  finish s h st (nowBits s) (packFields fields)

/-- Finish the held packet of a key, if it is held. -/
def finishKey (s : State) (k : CmdKey) (st : Status) (wp : Nat) (fields : List Field) : State :=
  match findHeld s k with
  | some h => finish s h st wp (packFields fields)
  | none => s

/-- The command has passed its commit point and replies later, without ST_DEFERRED (R74). -/
def holdOn (s : State) (h : Held) : State := modHeld s (heldKey h) fun x => { x with phase := .committed }

/-- Reply ST_DEFERRED and keep the packet held (R77). -/
def defer (s : State) (h : Held) (fields : List Field) : State :=
  let r := mkReply h .deferred (nowBits s) (packFields fields)
  let s := modHeld s (heldKey h) fun x => { x with phase := .deferred }
  let s := modTag s h.slice h.ring (pktTag h.pkt) fun t => some { t with reply := some r, final := false }
  sendReply s h.slice r

/-- A check's failure: a status and detail fields. -/
abbrev Fail := Status × List Field

/-- A failure with no detail. -/
def failWith (st : Status) : Fail := (st, [])

/-- Commands armed by a slice (R70). -/
def armedCount (s : State) (slice : Nat) : Nat := ((getRings s slice).held.filter fun h => h.phase = .armed).length

/-- Whether the executor of an opcode runs now (R73, R423). -/
def executorRuns (s : State) (op : Nat) : Bool := opIsQe op || s.boot.lk = .running

/-- Run a held packet of an opcode: its own checks (R68 step 8), then its action.
A packet row whose packet is not held, or whose executor does not run, changes nothing (log entry 2). -/
def runDirect (s : State) (c : Cmd) (op : Nat) (form : Held → Bool)
    (check : State → Held → Cmd → Option Fail) (act : State → Held → Cmd → State) : State :=
  match findHeld s ⟨c.slice, c.ring, c.index⟩ with
  | none => s
  | some h =>
    if h.phase = .taken && h.len = 1 && pktOpcode h.pkt == op && form h && executorRuns s op then
      match check s h c with
      | some f => finishNow s h f.1 f.2
      | none => act s h c
    else s

/-- Arm a timed packet (R70): at most 64 of a slice. -/
def armPacket (s : State) (h : Held) : State :=
  if 64 ≤ armedCount s h.slice then finishNow s h .noResource []
  else modHeld s (heldKey h) fun x => { x with phase := .armed, due := wpOfBits (pktDue h.pkt) }

/-- As runDirect, with a timed packet armed in place of acting (R70). -/
def runPacket (s : State) (c : Cmd) (op : Nat) (form : Held → Bool)
    (check : State → Held → Cmd → Option Fail) (act : State → Held → Cmd → State) : State :=
  runDirect s c op form check fun s h c => if pktTimed h.pkt then armPacket s h else act s h c

/-- The first boundary at or after a WP whose events have not been run (R43): one whose WALL_FRAME_BOUNDARY has passed takes no more. -/
def openBoundary (s : State) (w : Wp) : Nat :=
  if s.time.lastBoundary = some (boundaryAtOrAfter w) then nextFrame (boundaryAtOrAfter w) else boundaryAtOrAfter w

/-- The boundary at which an acting command's change applies: for an armed one the first at or after WP_DUE, or after the WP now when that has passed; otherwise the first after the WP now (R43). -/
def actBoundary (s : State) (h : Held) : Nat :=
  if h.phase = .armed then openBoundary s (if wpReached (now s) h.due then now s else h.due)
  else boundaryAfter (now s)

/-! Eye scans (R361). -/

/-- STEP of an eye scan's packet. -/
def scanStep (p : Packet) : Nat := if pf p 17 2 2 = 0 then 1 else if pf p 17 2 2 = 1 then 2 else 4

/-- Points an eye scan visits. -/
def scanPoints (p : Packet) : Nat := (64 / scanStep p) * (64 / scanStep p)

/-- Scans on n lanes from a lane. -/
def scansOn (s : State) (lane n : Nat) : List (Nat × EyeScan) := s.lane.scans.filter fun e => lane ≤ e.1 && decide (e.1 < lane + n)

/-- The scans on n lanes from a lane end early: a final ST_NOT_READY and no record (R361). -/
def endScans (s : State) (lane n : Nat) : State :=
  forEach (scansOn s lane n) (fun e s =>
    let s := { s with lane := { s.lane with scans := s.lane.scans.filter fun x => x.1 != e.1 } }
    match findHeld s e.2.key with
    | some h => finishNow s h .notReady [fAt 16 0 8 e.1, fAt 18 0 16 (scanPoints h.pkt)]
    | none => s) s

/-! Fault records (R437). -/

/-- SMB_ALERT_N is asserted (R454). -/
def assertAlert (s : State) : State := emit { s with smb := { s.smb with alert := true } } (.pin 32 false)

/-- The EV_FAULT entry of a record (R437). -/
def faultBits (f : FaultRec) : Nat :=
  packFields [(0, 16, 0x0A02), fAt 2 0 8 f.kind, fAt 3 0 8 f.unit, fAt 4 0 32 f.seq, fAt 8 0 64 f.wp, fAt 16 0 32 f.resets,
    fAt 20 0 32 f.uptime, fAt 24 0 48 f.detail, fAt 30 0 16 f.overwritten]

/-- Add a fault record: kept in the store of 64, posted as EV_FAULT at once while Lockkeeper runs at READY, otherwise later (R437). -/
def addFault (s : State) (kind unit detail : Nat) : State :=
  let b := s.boot
  let full := 64 ≤ b.faults.length
  let ow := if full then satAdd 16 b.overwritten 1 else b.overwritten
  let f : FaultRec := { kind, unit, seq := b.nextSeq, wp := nowBits s, resets := b.resets, uptime := uptimeMs s, detail,
                        overwritten := ow }
  let s := assertAlert { s with boot := { b with
      faults := (if full then b.faults.drop 1 else b.faults) ++ [f]
      nextSeq := (b.nextSeq + 1) % 2 ^ 32, overwritten := ow } }
  if s.boot.lk = .running && s.boot.state = .ready then postEvent s 0 (faultBits f)
  else { s with boot := { s.boot with unposted := s.boot.unposted ++ [f.seq] } }

/-- Post the EV_FAULT of every record that waits (R437). -/
def postFaults (s : State) : State :=
  forEach s.boot.unposted (fun q s =>
    match s.boot.faults.find? fun f => f.seq == q with
    | some f => postEvent s 0 (faultBits f)
    | none => s) { s with boot := { s.boot with unposted := [] } }

/-- A change of STATE raises vector 17 (R451) and drives GPIO8 READY and GPIO9 FAULT_N (R465). -/
def setDevState (s : State) (d : DevState) : State :=
  if s.boot.state = d then s
  else
    let bad (t : DevState) : Bool := t == .bootFailed || t == .deviceFault || t == .thermalTrip
    let o := s.boot.state
    let s := raiseEntry { s with boot := { s.boot with state := d } } 17
    let s := if (o == .ready) = (d == .ready) then s else emit s (.pin 72 (d == .ready))
    if bad o = bad d then s else emit s (.pin 73 (!bad d))

/-- Status for a packet whose slice number parameter is out of range (R2). -/
def inRange (x lo hi : Nat) : Bool := decide (lo ≤ x) && decide (x ≤ hi)

end Sys2Proof.Machine
end

