-- ==== Sys2Proof/Machine/Rings.lean ====
section
/-! DEFINITION. Rings, doorbells, taking packets from a slice's rings, interrupts, NOP and armed commands (R59 to R80, R91). -/
namespace Sys2Proof.Machine
open Sys2Proof

/-- BAR0 registers other than STATUS answer: READY has been reached and the pixel side is powered (R417, R425). -/
def regsOpen (s : State) : Bool := s.boot.wasReady && s.boot.state != .thermalTrip

/-- Writes to a slice's page are taken (R417, R443). -/
def pageOpen (s : State) (slice : Nat) : Bool :=
  regsOpen s && (slice == 0 || (decide (slice ≤ 64) && (getSlice s slice).state != .free && (getSlice s slice).state != .draining))

/-- Whether a ring of the slice may be enabled: a CREATED slice's may not (R60). -/
def ringsAllowed (s : State) (slice : Nat) : Bool := slice == 0 || (getSlice s slice).state != .created

/-- SIZE_LOG2 in range (R60). -/
def sizeOk (n : Nat) : Bool := inRange n 4 16

/-- A write of a submission ring's CTRL (R59, R60); of two reasons to refuse an enable the ring of a CREATED slice is the one reported (log entry 97). -/
def writeSqCtrl (s : State) (slice k value : Nat) : State :=
  let q := tget {} (getRings s slice).sq k
  let put (s : State) (q : SubRing) : State := modRings s slice fun r => { r with sq := tset {} r.sq k q }
  let q := { q with error := q.error && !bitAt value 7 }
  if q.enable then put s { q with enable := bitAt value 0 }
  else
    let q := { q with space := bitAt value 1, sizeLog2 := bitsAt value 2 5 }
    if !bitAt value 0 then put s q
    else if !ringsAllowed s slice then postRingError (put s { q with error := true }) slice k 4 0 0
    else if !sizeOk q.sizeLog2 then postRingError (put s { q with error := true }) slice k 3 0 0
    else put s { q with enable := true, head := 0, tail := 0, tags := [], ahead := [] }

/-- A write of a reply or event ring's CTRL (R59, R60, R65). -/
def writeRepCtrl (s : State) (slice which value : Nat) : State :=
  let rs := getRings s slice
  let q := if which = 5 then rs.eq else rs.rq
  let put (s : State) (q : RepRing) : State := modRings s slice fun r => if which = 5 then { r with eq := q } else { r with rq := q }
  let q := { q with error := q.error && !bitAt value 7, vector := bitsAt value 8 4, holdoff := bitsAt value 16 8 }
  if q.enable then
    let busy := which = 4 ∧ (rs.sq.any (fun e => e.2.enable) ∨ owedReplies s slice ≠ 0)
    put s { q with enable := bitAt value 0 || decide busy }
  else
    let q := { q with space := bitAt value 1, sizeLog2 := bitsAt value 2 5 }
    if !bitAt value 0 then put s q
    else if !ringsAllowed s slice then postRingError (put s { q with error := true }) slice which 4 0 0
    else if !sizeOk q.sizeLog2 then postRingError (put s { q with error := true }) slice which 3 0 0
    else
      let s := put s { q with enable := true, head := 0, tail := 0 }
      if which = 5 then flushLost (guardEvent s slice) slice else flushWaiting s slice

/-- A write of the CTRL of ring `which` (0 to 3 submission, 4 reply, 5 event) (R60). -/
def writeRingCtrl (s : State) (slice which value : Nat) : State :=
  if !pageOpen s slice then s
  else if which < 4 then writeSqCtrl s slice which value
  else if which < 6 then writeRepCtrl s slice which value else s

/-- RING_ENABLE_WRITE (R60). -/
def execRingEnableWrite (slice which value : Nat) (s : State) : Host.Outcome State Fault Refusal := .next (writeRingCtrl s slice which value)

/-- Clear a ring's ERROR bit (R59). -/
def clearRingError (s : State) (slice which : Nat) : State :=
  modRings s slice fun x =>
    if which < 4 then { x with sq := tmod {} x.sq which fun q => { q with error := false } }
    else if which = 4 then { x with rq := { x.rq with error := false } }
    else if which = 5 then { x with eq := { x.eq with error := false } } else x

/-- RING_ERROR_CLEAR: a W1C write of a ring's ERROR (R59). -/
def execRingErrorClear (slice which : Nat) (s : State) : Host.Outcome State Fault Refusal :=
  .next (if pageOpen s slice then clearRingError s slice which else s)

/-- A write of SQ_TAIL announces packets, or is ignored with EV_RING_ERROR (R62); a write to a ring that is not enabled is kept until the enable clears it, and a TAIL between HEAD and the current one takes packets back (log entry 98). -/
def writeSqTail (s : State) (slice ring tail : Nat) : State :=
  if !pageOpen s slice || !decide (ring < 4) then s
  else
    let q := tget {} (getRings s slice).sq ring
    let t := BitVec.ofNat 32 tail
    if 2 ^ q.sizeLog2 < (t - q.head).toNat then postRingError s slice ring 1 t.toNat 0
    else modRings s slice fun r => { r with sq := tset {} r.sq ring { q with tail := t, ahead := q.ahead.take (t - q.head).toNat } }

/-- SQ_TAIL_DOORBELL (R62). -/
def execSqTailDoorbell (slice ring tail : Nat) (s : State) : Host.Outcome State Fault Refusal := .next (writeSqTail s slice ring tail)

/-- Software consumes replies; replies that waited for room are written (R64, R77). -/
def writeRqHead (s : State) (slice head : Nat) : State :=
  if pageOpen s slice then
    flushWaiting (modRings s slice fun r => { r with rq := { r.rq with head := BitVec.ofNat 32 head } }) slice
  else s

/-- RQ_HEAD_WRITE (R77). -/
def execRqHeadWrite (slice head : Nat) (s : State) : Host.Outcome State Fault Refusal := .next (writeRqHead s slice head)

/-- EV_LIVENESS (R35). -/
def livenessBits (i : Nat) (v : LiveEvent) : Nat :=
  eventBits 0x0601 (wpBits v.wp) [fAt 2 0 12 i, fAt 4 0 4 (stateCode v.next), fAt 5 0 4 (stateCode v.prev), fAt 6 0 8 v.changes,
    fAt 7 0 8 v.reason, fAt 16 0 64 (lineWpBits v.origin * 65536), fAt 24 0 32 (v.age.getD 0xFFFFFFFF)]

/-- Post a pending liveness event of a wall frame before this one, when the slice's event ring has room for it; whether it was posted (R35). -/
def postLiveness (s : State) (slice i : Nat) (v : LiveEvent) : State × Bool :=
  if v.wp.frame = (now s).frame then (s, false)
  else
    let s := flushLost (guardEvent s slice) slice
    let s := guardEvent s slice
    if ringRoom s slice (getRings s slice).eq then (postEvent s slice (livenessBits i v), true) else (s, false)

/-- Post the pending liveness events of a slice's sources while its event ring has room; those that find none stay pending, those of an entry that has since been freed among them (R35). -/
def flushLiveness (s : State) (slice : Nat) : State :=
  let s := forEach (s.ledger.owedEvents.filter fun o => o.2.1 == slice) (fun o s =>
    match postLiveness s slice o.1 o.2.2 with
    | (s, true) => { s with ledger := { s.ledger with owedEvents := s.ledger.owedEvents.erase o } }
    | (s, false) => s) s
  forEach (s.ledger.entries.map Prod.fst) (fun i s =>
    let e := getEntry s i
    match e.ev with
    | some v =>
      if e.owner ≠ slice then s
      else match postLiveness s slice i v with
        | (s, true) => modEntry s i fun e => { e with ev := none }
        | (s, false) => s
    | none => s) s

/-- Software consumes events; EV_EVENTS_LOST and pending liveness events are written (R35, R80). -/
def writeEqHead (s : State) (slice head : Nat) : State :=
  if pageOpen s slice then
    flushLiveness (flushLost (guardEvent (modRings s slice fun r => { r with eq := { r.eq with head := BitVec.ofNat 32 head } }) slice) slice) slice
  else s

/-- EQ_HEAD_WRITE (R80). -/
def execEqHeadWrite (slice head : Nat) (s : State) : Host.Outcome State Fault Refusal := .next (writeEqHead s slice head)

/-- INTERRUPT_HOLDOFF_EXPIRY: the interval of the reply (4) or event (5) ring ends; a pending interrupt is raised (R63). -/
def execInterruptHoldoffExpiry (slice which : Nat) (s : State) : Host.Outcome State Fault Refusal :=
  let ev := which = 5
  let r := if ev then (getRings s slice).eq else (getRings s slice).rq
  .next (if !(which == 4 || which == 5) || !r.holdRunning || !passed s r.holdAt (1000 * r.holdoff) then s
    else
      let s := modRings s slice fun x =>
        if ev then { x with eq := { x.eq with holdRunning := false, irqPending := false } }
        else { x with rq := { x.rq with holdRunning := false, irqPending := false } }
      if r.irqPending then ringInterrupt s slice ev else s)

/-! Taking packets (R68 to R75, R77 to R79, R91). -/

/-- The slice gives n packets at once: ACTIVE (R85), within CMD_RATE (R91; a group is taken whole when any of the frame's rate is left, log entry 99), and for each of them its reply ring has room for the replies owed by then plus two (R77). -/
def canTake (s : State) (slice n : Nat) : Bool :=
  let r := getRings s slice
  let x := getSlice s slice
  x.state == .active && decide (x.taken < x.share.cmdRate) && r.rq.enable &&
  decide (owedReplies s slice + n + 1 + repCount r.rq ≤ 2 ^ r.rq.sizeLog2)

/-- The entry of a submission ring at a free-running index, in the Reservoir (R61). -/
def sqAddr (q : SubRing) (i : Word32) : Nat := q.base * 4096 + (i.toNat % 2 ^ q.sizeLog2) * 64

/-- The packet at a free-running index of a ring that the device has before it asks host memory: in the Reservoir, or fetched ahead. -/
def knownPacket (s : State) (slice : Nat) (q : SubRing) (i : Word32) : Option Packet :=
  if q.space then
    if weirAllows s slice engHost false (sqAddr q i) 64 then some (BitVec.ofNat 512 (natLE (readBytes s (sqAddr q i) 64))) else none
  else q.ahead[(i - q.head).toNat]?

/-- The packet at a free-running index of a ring: from the Reservoir, fetched ahead, or as host memory returned it; none on a fetch error (R64). -/
def ringPacket (s : State) (slice k : Nat) (q : SubRing) (host : List HostEntry) (i : Word32) : Option Packet :=
  match knownPacket s slice q i with
  | some p => some p
  | none =>
    if q.space || (slice ≠ 0 ∧ (getSlice s slice).pasid = some 0) then none
    else (host.find? fun e => e.ring == k && e.index == i.toNat).map HostEntry.pkt

/-- Packets from an index up to the first without ATOMIC_WITH_NEXT: at most n; whether the group closed (R72), or the index of a fetch error. -/
def gather (get : Word32 → Option Packet) : Nat → Word32 → Except Word32 (List Packet × Bool)
  | 0, _ => .ok ([], false)
  | n + 1, i => match get i with
    | none => .error i
    | some p =>
      if pktAtomic (maskPacket p) then
        match gather get n (i + 1) with
        | .error e => .error e
        | .ok (l, b) => .ok (p :: l, b)
      else .ok ([p], true)

/-- R74: every earlier packet of the ring in the packet's opcode range has passed its commit point, is armed, or has replied ST_DEFERRED. -/
def rangePassed (s : State) (slice k : Nat) (p : Packet) : Bool :=
  (getRings s slice).held.all fun h => h.ring != k || h.phase != .taken || pktOpcode h.pkt / 256 != pktOpcode (maskPacket p) / 256

/-- R71: every earlier packet of the ring has finished, with its final reply sent. -/
def ringDone (s : State) (slice k : Nat) : Bool :=
  (getRings s slice).held.all (fun h => h.ring != k) && (getRings s slice).waiting.all (fun r => r.source != k)

/-- R71 and R74: a packet, or a group with all its members, can start behind what its ring has given before. -/
def startable (s : State) (slice k : Nat) (ps : List Packet) : Bool :=
  s.boot.state == .deviceFault ||
  ((!pktFence (maskPacket (ps.headD 0)) || ringDone s slice k) && ps.all (rangePassed s slice k))

/-- What the device does next for a slice. -/
inductive Pick where
  | nothing
  | fetchError (ring : Nat) (index : Word32)
  | take (ring : Nat) (pkts : List Packet)
  deriving DecidableEq, Repr

/-- Packets announced on a ring and not taken, none while it is not enabled or out of reach. -/
def announced (s : State) (q : SubRing) : Nat :=
  if !q.enable || (!q.space && !hostReachable s) then 0 else (q.tail - q.head).toNat

/-- R75: the lowest-numbered enabled ring whose head packet can start; a group for which R77 leaves no room waits, and its slice with it. -/
def pickFrom (s : State) (slice : Nat) (host : List HostEntry) : List Nat → Pick
  | [] => .nothing
  | k :: rest =>
    let q := tget {} (getRings s slice).sq k
    let n := announced s q
    if n = 0 then pickFrom s slice host rest
    else match gather (ringPacket s slice k q host) (min n 16) q.head with
      | .error i => .fetchError k i
      | .ok (ps, closed) =>
        if (closed || ps.length == 16) && startable s slice k ps then (if canTake s slice ps.length then .take k ps else .nothing)
        else pickFrom s slice host rest

/-! The order among slices (R75, R91). -/

/-- A ring's head packet is known to the device and can start. -/
def headReady (s : State) (slice k : Nat) : Bool :=
  let q := tget {} (getRings s slice).sq k
  let n := announced s q
  n != 0 && match gather (knownPacket s slice q) (min n 16) q.head with
    | .error _ => false
    | .ok (ps, closed) => (closed || ps.length == 16) && startable s slice k ps && canTake s slice ps.length

/-- A slice has a packet ready under R75. -/
def sliceReady (s : State) (slice : Nat) : Bool := (List.range 4).any (headReady s slice)

/-- How late a slice comes in the round-robin of its class: 0 right after the slice served last. -/
def turnOf (s : State) (slice : Nat) : Nat := (slice + 64 - tget 64 s.intakeLast (clsCode (getSlice s slice).cls)) % 65

/-- Slice i is served before slice j when both have a packet ready: class S, then O, then A; within a class in turn (R91). -/
def servedBefore (s : State) (i j : Nat) : Bool :=
  let ci := clsCode (getSlice s i).cls; let cj := clsCode (getSlice s j).cls
  decide (ci < cj) || (ci == cj && decide (turnOf s i < turnOf s j))

/-- It is the slice's turn: no slice that comes before it has a packet ready. -/
def sliceTurn (s : State) (slice : Nat) : Bool :=
  (List.range 65).all fun j => !servedBefore s j slice || !sliceReady s j

/-- A ring in host memory keeps what was returned for its announced entries from HEAD on, at most the 16 that a group may hold. -/
def keepFetched (s : State) (slice k : Nat) (host : List HostEntry) (q : SubRing) : SubRing :=
  if announced s q = 0 ∨ q.space ∨ (slice ≠ 0 ∧ (getSlice s slice).pasid = some 0) then q
  else
    let got (n : Nat) : Option Packet :=
      (host.find? fun x => x.ring == k && x.index == (q.head + BitVec.ofNat 32 n).toNat).map HostEntry.pkt
    let more := ((List.range (min (announced s q) 16)).drop q.ahead.length).map got
    { q with ahead := q.ahead ++ (more.takeWhile Option.isSome).filterMap id }

/-- The entries that host memory returned for a slice's rings are kept until they are taken. -/
def fetchAhead (s : State) (slice : Nat) (host : List HostEntry) : State :=
  modRings s slice fun r => { r with sq := tmap {} (fun k q => keepFetched s slice k host q) r.sq }

/-- The outcome of steps 1 to 7 of R68. -/
inductive Intake where
  | pass
  | refuse (st : Status)
  | duplicate (t : TagRec)
  deriving DecidableEq, Repr

/-- Step 4 of R68 on the ring's tag window (R78). -/
def tagCheck (s : State) (slice k : Nat) (p : Packet) : Option Intake :=
  match ((tget {} (getRings s slice).sq k).tags.find? fun t => t.tag == pktTag p) with
  | some t => if t.opcode = pktOpcode p ∧ t.crc = pktCrc p then some (.duplicate t) else some (.refuse .badParam)
  | none => none

/-- Step 6 of R68: flags and WP_DUE, the group's first member's for every member of it (R70, R72). -/
def flagsOk (s : State) (row : OpRow) (timed : Bool) (due : Nat) : Bool :=
  if timed then row.timed && !wpBadLine s (wpOfBits due) && !dueTooFar s (wpOfBits due) else due == 0

/-- Steps 1 to 7 of R68 for a packet as fetched, with step 6 as `flags` says. -/
def intake (s : State) (slice k : Nat) (raw : Packet) (flags : OpRow → Bool) : Intake :=
  let p := maskPacket raw
  if !inRange (pktLength raw) 16 64 || pf raw 3 0 8 != 0 then .refuse .badParam
  else match opRow (pktOpcode p) with
    | none => .refuse .badOpcode
    | some row =>
      if s.boot.state = .deviceFault then .refuse .deviceFault
      else match tagCheck s slice k p with
        | some r => r
        | none =>
          if row.manager && slice != 0 then .refuse .notPermitted
          else if !flags row then .refuse .badParam
          else if (getSlice s slice).share.queueLimit ≤ (getRings s slice).held.length then .refuse .backpressure
          else .pass

/-- Refuse a packet of a ring with a status; backpressure is counted (R439). -/
def refusePacket (s : State) (slice k : Nat) (p : Packet) (st : Status) (fields : List Field) : State :=
  let s := if st = .backpressure then bump s 6 slice 1 1 else s
  sendReply s slice { tag := pktTag p, status := st, opcode := pktOpcode p, wpDone := nowBits s, detail := packFields fields, source := k }

/-- R79: the reply to a duplicate. -/
def replyDuplicate (s : State) (slice k : Nat) (p : Packet) (t : TagRec) : State :=
  let base : Reply := { tag := pktTag p, status := .duplicate, opcode := pktOpcode p, ring := k, source := k }
  sendReply s slice (match t.reply, t.final with
    | some r, true => { base with orig := if r.status = .timeout then 2 else 0, wpDone := r.wpDone, detail := r.detail }
    | _, _ => { base with orig := 1, wpDone := 0xFFFFFFFFFFFFFFFF })

/-- Record a packet in the tag window and hold it as the ring's i-th (R78, R91). -/
def holdPacket (s : State) (slice k i : Nat) (p : Packet) (pos len : Nat) : State :=
  modRings s slice fun r =>
    { r with
      sq := tmod {} r.sq k fun q =>
        { q with tags := ({ tag := pktTag p, opcode := pktOpcode p, crc := pktCrc p } :: q.tags).take 256 }
      held := r.held ++ [{ slice, ring := k, index := i, pkt := p, taken := now s, pos, len }] }

/-- One packet that stands alone. -/
def takeSingle (s : State) (slice k i : Nat) (raw : Packet) : State :=
  let p := maskPacket raw
  match intake s slice k raw (fun row => flagsOk s row (pktTimed p) (pktDue p)) with
  | .refuse st => refusePacket s slice k p st []
  | .duplicate t => replyDuplicate s slice k p t
  | .pass => holdPacket s slice k i p 0 1

/-- The conditions that R72 sets for a group as a whole; an opcode that is not in the index is not Lockkeeper's (log entry 100). -/
def groupOk (ps : List Packet) : Bool :=
  decide (2 ≤ ps.length) && !pktAtomic (ps.getLastD 0) &&
  (ps.all fun p => match opRow (pktOpcode p) with
    | some r => !r.qe && !r.deferred
    | none => false) &&
  (ps.drop 1).all fun p => !pktTimed p && !pktFence p

/-- Apply an action to each member with its place. -/
def eachMember (ps : List Packet) (f : Nat → Packet → State → State) (s : State) : State :=
  forEach (List.range ps.length) (fun j s => f j (ps.getD j 0) s) s

/-- R72: member j fails with its status, every other member replies ST_CHECK_FAILED with its tag. -/
def failGroup (s : State) (slice k : Nat) (ps : List Packet) (j : Nat) (st : Status) : State :=
  eachMember ps (fun i p s =>
    if i = j then refusePacket s slice k p st []
    else refusePacket s slice k p .checkFailed [fAt 16 0 32 (pktTag (ps.getD j 0))]) s

/-- Step 6 of R68 for member j of a group: WP_TIMED and WP_DUE are the first member's, and a later member's own WP_DUE is zero (R70, R72). -/
def memberFlags (s : State) (lead p : Packet) (j : Nat) (row : OpRow) : Bool :=
  flagsOk s row (pktTimed lead) (pktDue lead) && (j == 0 || pktDue p == 0)

/-- Steps 1 to 7 of R68 for the members of a group in turn, from member j on: each that passes is recorded and held before the next is checked (R72, R78). -/
def groupIntake (slice k i len : Nat) (lead : Packet) : Nat → List Packet → State → State × List Intake
  | _, [], s => (s, [])
  | j, raw :: rest, s =>
    let p := maskPacket raw
    let r := intake s slice k raw (memberFlags s lead p j)
    let t := groupIntake slice k i len lead (j + 1) rest (if r = .pass then holdPacket s slice k (i + j) p j len else s)
    (t.1, r :: t.2)

/-- An atomic group (R72). -/
def takeGroup (s : State) (slice k i : Nat) (raws : List Packet) : State :=
  let ps := raws.map maskPacket
  if s.boot.state = .deviceFault then eachMember ps (fun j p s => match intake s slice k (raws.getD j 0) (fun _ => true) with
    | .refuse st => refusePacket s slice k p st []
    | _ => s) s
  else if !groupOk ps then eachMember ps (fun _ p s => refusePacket s slice k p .badParam []) s
  else
    let (t, rs) := groupIntake slice k i ps.length (ps.headD 0) 0 raws s
    let dup (r : Intake) : Bool := match r with | .duplicate _ => true | _ => false
    match firstIdx (fun j => dup (rs.getD j .pass)) 0 ps.length with
    | some d => eachMember ps (fun j p s => match rs.getD j .pass with
        | .duplicate t => replyDuplicate s slice k p t
        | _ => refusePacket s slice k p .checkFailed [fAt 16 0 32 (pktTag (ps.getD d 0))]) s
    | none => match firstIdx (fun j => rs.getD j .pass != .pass) 0 ps.length with
      | some j => match rs.getD j .pass with
        | .refuse st => failGroup s slice k ps j st
        | _ => s
      | none => t

/-- R64: a fetch that completes with an error stops the ring; INDEX is the free-running index of the entry (log entry 101). -/
def fetchError (s : State) (slice k : Nat) (i : Word32) : State :=
  let q := tget {} (getRings s slice).sq k
  let a := sqAddr q i
  let s := if q.space then match weirDenied s slice engHost false a 64 with
      | some (u, r) => denyAt s slice engHost false r u
      | none => s
    else s
  postRingError (stopRing s slice k) slice k 2 i.toNat a

/-- Take the next startable packet or group of a slice whose turn it is: HEAD advances, the packets are counted, and each is checked (R68, R75, R77, R91). -/
def takeNext (s : State) (slice : Nat) (host : List HostEntry) : State :=
  if !canTake s slice 1 then s
  else if !sliceTurn s slice then fetchAhead s slice host
  else match pickFrom s slice host [0, 1, 2, 3] with
    | .nothing => fetchAhead s slice host
    | .fetchError k i => fetchError s slice k i
    | .take k ps =>
      let i := (tget {} (getRings s slice).sq k).count
      let n := ps.length
      let s := modRings s slice fun r => { r with sq := tmod {} r.sq k fun q =>
        { q with head := q.head + BitVec.ofNat 32 n, ahead := q.ahead.drop n, count := q.count + n } }
      let s := { s with intakeLast := tset 64 s.intakeLast (clsCode (getSlice s slice).cls) slice }
      let s := modSlice s slice fun x => { x with taken := x.taken + n }
      let s := bump s 6 slice 0 n
      let s := writeback (guardWb s slice) slice
      match ps with
      | [p] => takeSingle s slice k i p
      | _ => takeGroup s slice k i ps

/-- The reply, event (5) or writeback (6) write that host memory completed with an error stops what it was for: the entry last written, which is not written again (R64; log entries 101 and 102). -/
def hostWriteError (s : State) (slice which : Nat) : State :=
  let r := getRings s slice
  let on := if which = 4 then r.rq.enable && !r.rq.space else if which = 5 then r.eq.enable && !r.eq.space
    else which == 6 && r.wbEnable && !r.wbSpace
  let q := if which = 5 then r.eq else r.rq
  if !on then s
  else postRingError (stopRing s slice which) slice which 2 (if which = 6 then 0 else repCount q)
    (if which = 6 then r.wbAddr else repAddr { q with tail := q.tail - 1 })

/-- NOP has no checks of its own: it has no parameters, and R84 gives it ST_BAD_PARAM at steps 1 and 6 of R68 only. -/
def checkNop (_ : State) (_ : Held) (_ : Cmd) : Option Fail := none

/-- NOP's effect: its reply (R84). -/
def actNop (s : State) (h : Held) (_ : Cmd) : State := finishNow s h .ok []

/-- NOP (0x000). -/
def execNop (c : Cmd) (s : State) : Host.Outcome State Fault Refusal :=
  .next (runPacket s c 0x000 (fun _ => true) checkNop actNop)

end Sys2Proof.Machine
end

