-- ==== Sys2Proof/Machine/Reset.lean ====
section
/-! DEFINITION. Device reset and the 12 V cycle: what each keeps (R416, R425, R426, R437). -/
namespace Sys2Proof.Machine
open Sys2Proof

/-- Output pins that a reset drives to their level after reset: REFOUT and HPD low, TX_DISABLE asserted, READY and FABRIC low, FAULT_N released. -/
def resetPins (s : State) : State :=
  let low (p : Nat) (b : Bool) (s : State) : State := if b then emit s (.pin p false) else s
  let s := low 0 s.head.levelA (low 1 s.head.levelB s)
  let s := forEach (List.range 4) (fun i s => low (16 + i) (tget {} s.media.dpins i).hpd s) s
  let s := forEach (List.range 2) (fun e s => low (67 + 4 * e) (tget {} s.media.ports e).enable s) s
  let t := s.boot.state
  let s := low 72 (t == .ready) s
  let s := low 75 (!(forwarding s).isEmpty) s
  if t == .bootFailed || t == .deviceFault || t == .thermalTrip then emit s (.pin 73 true) else s

/-- What every reset keeps: flash, fuses, pins and sensors, and what is the model's own. -/
def keepFlash (s : State) : State :=
  let r := State.reset
  let b := s.boot
  { r with
    boot := { r.boot with
      bankA := b.bankA, bankB := b.bankB, running := b.running, display := b.display, minSvn := b.minSvn, revoked := b.revoked
      dbgEn := b.dbgEn, dbgKill := b.dbgKill, sensors := b.sensors }
    regs := { r.regs with perst := s.regs.perst, rst := s.regs.rst }
    smb := { r.smb with asel := s.smb.asel }
    power := { r.power with inRange := s.power.inRange }
    out := s.out, free := s.free, pending := s.pending }

/-- A device reset with its cause: everything is cleared but the flash, the fuses and the fault record, to which a record of KIND 0x01 is added (R426, R437). -/
def deviceReset (s : State) (cause : Nat) : State :=
  let s := resetPins s
  let s := { s with boot := { s.boot with state := .bootRom, lk := .halted, resets := (s.boot.resets + 1) % 2 ^ 32 } }
  let s := addFault s 1 0 cause
  let b := s.boot
  let r := keepFlash s
  { r with
    boot := { r.boot with faults := b.faults, nextSeq := b.nextSeq, overwritten := b.overwritten, resets := b.resets, unposted := b.unposted }
    smb := { r.smb with alert := s.smb.alert } }

/-- 12 V has come into range: the fault store starts empty, and the power-on start is its first record (R416, R437). -/
def powerOn (s : State) : State :=
  let r := keepFlash s
  let r := { r with power := { r.power with inRange := true }, boot := { r.boot with resets := 1 } }
  addFault r 1 0 1

/-- Hottest junction sensor, 0.1 degC. -/
def hottest (l : List Int) : Int := l.foldl max (l.headD 0)

/-- A request for a device reset that Platform takes in any state; in THERMAL_TRIP it is held while any sensor is at or above 100 degC (R425, R446). -/
def requestReset (s : State) (cause : Nat) : State :=
  if !s.power.inRange then s
  else if s.boot.state = .thermalTrip ∧ 1000 ≤ hottest s.boot.sensors then
    { s with boot := { s.boot with heldReset := match s.boot.heldReset with | some c => some c | none => some cause } }
  else deviceReset s cause

end Sys2Proof.Machine
end

