-- ==== Sys2Proof/Machine/Flags.lean ====
section
/-! DEFINITION. The status bits that the device reports: the STATUS register (R445) and the STATUS byte of the side band (R452). -/
namespace Sys2Proof.Machine
open Sys2Proof

/-- The debug access port is enabled (R455). -/
def debugOn (s : State) : Bool := s.boot.dbgEn && !s.boot.dbgKill

/-- STATUS (R445). -/
def statusBits (s : State) : Nat :=
  packFields [(0, 4, devStateCode s.boot.state), (4, 1, s.regs.headless.toNat), (5, 1, s.regs.claim.isSome.toNat), (6, 1, (debugOn s).toNat)]

/-- A SEQ is at or after another, modulo 2^32. -/
def seqFrom (a b : Nat) : Bool := decide ((a + 2 ^ 32 - b % 2 ^ 32) % 2 ^ 32 < 2 ^ 31)

/-- A record that has not been read by index is held (log entry 62). -/
def faultsUnread (s : State) : Bool := s.boot.faults.any fun f => seqFrom f.seq s.smb.latchedSeq

/-- The STATUS byte (R452). -/
def smbStatusByte (s : State) : Nat :=
  packFields [(0, 4, devStateCode s.boot.state), (4, 1, (decide (950 < hottest s.boot.sensors)).toNat), (5, 1, (faultsUnread s).toNat),
    (6, 1, s.regs.headless.toNat)]

end Sys2Proof.Machine
end

