-- ==== Sys2Proof/Machine/Registers.lean ====
section
/-! DEFINITION. The registers of BAR0 (R441 to R447, R449) and the transfers of commands, which reach them through the Weir (R364). -/
namespace Sys2Proof.Machine
open Sys2Proof

/-- A write of a host queue's tail through the page of a slice that owns the queue (R278, R443). -/
def writeQueueTail (s : State) (slice queue : Nat) (tx : Bool) (tail : Nat) : State :=
  if decide (queue < 16) && (tget {} s.media.queues queue).owner == slice && pageOpen s slice then
    { s with media := { s.media with queues := tmod {} s.media.queues queue fun x =>
        if tx then { x with txTail := BitVec.ofNat 32 tail } else { x with rxTail := BitVec.ofNat 32 tail } } }
  else s

/-- A CTRL register of a ring (R59). -/
def ctrlBits (enable space : Bool) (size : Nat) (error : Bool) (vector holdoff : Nat) : Nat :=
  packFields [(0, 1, enable.toNat), (1, 1, space.toNat), (2, 5, size), (7, 1, error.toNat), (8, 4, vector), (16, 8, holdoff)]

/-- A reply or event ring's registers from its BASE: width and value. -/
def repReg (r : RepRing) (o : Nat) : Option (Nat × Nat) :=
  if o = 0 then some (8, r.base * 4096) else if o = 8 then some (4, ctrlBits r.enable r.space r.sizeLog2 r.error r.vector r.holdoff)
  else if o = 16 then some (4, r.head.toNat) else if o = 24 then some (4, r.tail.toNat) else none

/-- Ring and queue registers of a page (R443); doorbells read 0. -/
def ringReg (s : State) (slice o : Nat) : Option (Nat × Nat) :=
  let r := getRings s slice
  if o < 0x80 then
    let q := tget {} r.sq (o / 32)
    let f := o % 32
    if f = 0 then some (8, q.base * 4096) else if f = 8 then some (4, ctrlBits q.enable q.space q.sizeLog2 q.error 0 0)
    else if f = 16 then some (4, 0) else if f = 24 then some (4, q.head.toNat) else none
  else if o < 0xA0 then repReg r.rq (o - 0x80)
  else if o < 0xC0 then repReg r.eq (o - 0xA0)
  else if o = 0xC0 then some (8, r.wbEnable.toNat + 2 * r.wbSpace.toNat + r.wbAddr)
  else if inRange o 0x100 0x1FF && o % 8 == 0 then some (4, 0) else none

/-- FIRQ_HEAD (R445). -/
def firqBits (s : State) : Nat := match s.regs.firq with
  | f :: _ => packFields [(0, 12, f.src), (16, 6, f.vector), (30, 1, s.regs.firqOverflow.toNat), (31, 1, 1)]
  | [] => packFields [(30, 1, s.regs.firqOverflow.toNat)]

/-- Registers of the manager page from 0x200 (R445). -/
def managerReg (s : State) (o : Nat) : Option (Nat × Nat) :=
  let r := s.regs
  if o = 0x200 then some (4, statusBits s)
  else if o = 0x208 then some (8, Config.deviceId.toNat)
  else if o = 0x210 then some (8, nowBits s)
  else if o = 0x218 ∨ o = 0x240 then some (4, 0)
  else if o = 0x220 then some (4, r.claim.getD 0)
  else if o = 0x228 then some (4, packFields [(0, 12, r.fwinTarget), (16, 1, r.fwinEnable.toNat), (17, 1, r.fwinTimeout.toNat)])
  else if o = 0x230 then some (8, r.fwinBase)
  else if o = 0x238 then some (4, firqBits s)
  else if inRange o 0x300 0x6FF then
    let a := tget {} r.apertures ((o - 0x300) / 16)
    if o % 16 = 0 then some (4, a.enable.toNat + a.slice * 256) else if o % 16 = 8 then some (8, a.base) else none
  else if inRange o 0x800 0x8FF then
    let u := (o - 0x800) / 32
    if o % 32 = 0 then some (8, (tget {} s.gauge.units u).last) else if o % 32 = 8 then some (8, tget 0 r.gaugeTag u)
    else if o % 32 = 16 then some (4, tget 0 r.gaugeCount u) else none
  else none

/-- The register at an offset of BAR0: its width in bytes and its value; none where the map defines none, or before READY where R417 gives 0. -/
def regAt (s : State) (off : Nat) : Option (Nat × Nat) :=
  let page := off / 4096
  let o := off % 4096
  if off = 0x200 then managerReg s o
  else if !regsOpen s || decide (64 < page) then none
  else if o < 0x200 then ringReg s page o
  else if page = 0 then managerReg s o
  else if o = 0x200 then
    let x := getSlice s page
    some (4, packFields [(0, 7, page), (8, 4, sliceStateCode x.state), (12, 2, clsCode x.cls), (16, 4, devStateCode s.boot.state)])
  else if o = 0x208 then some (8, nowBits s)
  else none

/-- Reading GAUGE_LAST latches the unit's tag and count (R447). -/
def latchGauge (s : State) (off : Nat) : State :=
  if inRange off 0x800 0x8FF && off % 32 == 0 then
    let u := (off - 0x800) / 32
    let g := tget {} s.gauge.units u
    { s with regs := { s.regs with gaugeTag := tset 0 s.regs.gaugeTag u (g.tagB * 2 ^ 32 + g.tagA), gaugeCount := tset 0 s.regs.gaugeCount u g.results } }
  else s

/-- A read of 4 or 8 bytes (R442): a 4-byte read of a lower half latches the upper half, which the next read of the upper half returns. -/
def regRead (s : State) (off size : Nat) : State × Nat :=
  match regAt s off with
  | some (8, v) =>
    let s := latchGauge s off
    if size = 4 then ({ s with regs := { s.regs with readLatch := tset none s.regs.readLatch off (some (v / 2 ^ 32)) } }, v % 2 ^ 32) else (s, v)
  | some (_, v) => (s, v)
  | none =>
    if size = 4 ∧ off % 8 = 4 then
      match tget none s.regs.readLatch (off - 4), regAt s (off - 4) with
      | some v, some (8, _) => ({ s with regs := { s.regs with readLatch := tset none s.regs.readLatch (off - 4) none } }, v)
      | none, some (8, v) => (s, v / 2 ^ 32)
      | _, _ => (s, 0)
    else (s, 0)

/-- A write of a ring's BASE, ignored while the ring is enabled (R60). -/
def writeBase (s : State) (slice which v : Nat) : State :=
  let b := v / 4096
  modRings s slice fun r =>
    if which < 4 then { r with sq := tmod {} r.sq which fun q => if q.enable then q else { q with base := b } }
    else if which = 4 then { r with rq := if r.rq.enable then r.rq else { r.rq with base := b } }
    else { r with eq := if r.eq.enable then r.eq else { r.eq with base := b } }

/-- A write of WB_BASE (R59). -/
def writeWb (s : State) (slice v : Nat) : State :=
  modRings s slice fun r => { r with wbEnable := bitAt v 0, wbSpace := bitAt v 1, wbAddr := v / 64 * 64, wbError := r.wbError && !bitAt v 0 }

/-- A write to a ring or queue register of a page (R443). -/
def writeRingReg (s : State) (slice o v : Nat) : State :=
  if !pageOpen s slice then s
  else if o < 0x80 then
    (if o % 32 = 0 then writeBase s slice (o / 32) v else if o % 32 = 8 then writeRingCtrl s slice (o / 32) v
     else if o % 32 = 16 then writeSqTail s slice (o / 32) v else s)
  else if o = 0x80 then writeBase s slice 4 v else if o = 0x88 then writeRingCtrl s slice 4 v else if o = 0x90 then writeRqHead s slice v
  else if o = 0xA0 then writeBase s slice 5 v else if o = 0xA8 then writeRingCtrl s slice 5 v else if o = 0xB0 then writeEqHead s slice v
  else if o = 0xC0 then writeWb s slice v
  else if inRange o 0x100 0x1FF && o % 8 == 0 then writeQueueTail s slice ((o - 0x100) / 16) (o % 16 == 8) v
  else s

/-- FIRQ_POP: the head entry is removed, and vector 16 is raised again while one is left (R449). -/
def popFirq (s : State) : State :=
  let s := { s with regs := { s.regs with firq := s.regs.firq.drop 1, firqOverflow := false } }
  if s.regs.firq.isEmpty then s else raiseEntry s 16

/-- A write to a manager page register from 0x200 (R445 to R449). -/
def writeManagerReg (s : State) (o v : Nat) : State :=
  let r := s.regs
  let apt (n : Nat) (f : Aperture → Aperture) : State := { s with regs := { r with apertures := tmod {} r.apertures n f } }
  if o = 0x228 then { s with regs := { r with
      fwinTarget := bitsAt v 0 12, fwinEnable := bitAt v 16, fwinTimeout := r.fwinTimeout && !bitAt v 17 } }
  else if o = 0x230 then { s with regs := { r with fwinBase := v } }
  else if o = 0x240 then (if bitAt v 0 then popFirq s else s)
  else if inRange o 0x300 0x6FF then
    (if o % 16 = 0 then apt ((o - 0x300) / 16) fun a => { a with enable := bitAt v 0, slice := bitsAt v 8 7 }
     else if o % 16 = 8 then apt ((o - 0x300) / 16) fun a => { a with base := v } else s)
  else s

/-- A whole register is written (R417, R446). -/
def writeReg (s : State) (off v : Nat) : State :=
  let page := off / 4096
  let o := off % 4096
  if off = 0x218 then (if v = 0x52535451 then requestReset s 6 else s)
  else if !regsOpen s || decide (64 < page) then s
  else if o < 0x200 then writeRingReg s page o v
  else if page = 0 then writeManagerReg s o v else s

/-- Doorbells, which accept 4-byte writes only (R442). -/
def isDoorbell (off : Nat) : Bool :=
  let o := off % 4096
  (decide (o < 0x80) && o % 32 == 16) || (inRange o 0x100 0x1FF && o % 8 == 0)

/-- A write of 4 or 8 bytes (R442): a 64-bit register takes its value when its upper half is written. -/
def regWrite (s : State) (off size v : Nat) : State :=
  let latch (s : State) (o : Nat) (x : Option Nat) : State := { s with regs := { s.regs with writeLatch := tset none s.regs.writeLatch o x } }
  if off % size ≠ 0 then s
  else if size = 8 then
    (if isDoorbell off then s else match regAt s off with
      | some (8, _) => writeReg s off v
      | _ => writeReg s off (v % 2 ^ 32))
  else if size = 4 then
    match regAt s off with
    | some (8, _) => latch s off (some v)
    | _ =>
      if off % 8 = 4 then
        match regAt s (off - 4) with
        | some (8, old) => writeReg (latch s (off - 4) none) (off - 4) ((tget none s.regs.writeLatch (off - 4)).getD (old % 2 ^ 32) + v * 2 ^ 32)
        | _ => s
      else writeReg s off v
  else s

/-! MSI-X, which only the host reaches (R441, R451). -/

/-- A vector is unmasked: one that waits is sent (R451). -/
def unmaskVector (s : State) (vector : Nat) : State :=
  let s := { s with regs := { s.regs with unmasked := tset false s.regs.unmasked vector true } }
  if tget false s.regs.msixPending vector then
    emit { s with regs := { s.regs with msixPending := tset false s.regs.msixPending vector false } } (.msix vector)
  else s

/-- An offset in the MSI-X table. -/
def inMsixTable (off : Nat) : Bool := inRange off 0x80000 0x843FF

/-- A 32-bit word of the table: address, address, data, and the vector control word with its mask bit (PRESUMED, log entry 117). -/
def msixWord (s : State) (w : Nat) : Nat :=
  if w % 4 = 3 then (!tget false s.regs.unmasked (w / 4)).toNat else tget 0 s.regs.msixTable w

/-- A word of the table is written. -/
def writeMsix (s : State) (w v : Nat) : State :=
  if w % 4 ≠ 3 then { s with regs := { s.regs with msixTable := tset 0 s.regs.msixTable w v } }
  else if bitAt v 0 then { s with regs := { s.regs with unmasked := tset false s.regs.unmasked (w / 4) false } }
  else unmaskVector s (w / 4)

/-- 32 pending bits. -/
def pendingWord (s : State) (w : Nat) : Nat :=
  (List.range 32).foldl (fun v b => if tget false s.regs.msixPending (32 * w + b) then v + 2 ^ b else v) 0

/-- A 4-byte read of BAR0 by the host. -/
def hostRead (s : State) (off : Nat) : State × Nat :=
  if !regsOpen s then regRead s off 4
  else if inMsixTable off && off % 4 == 0 then (s, msixWord s ((off - 0x80000) / 4))
  else if inRange off 0x90000 0x90087 && off % 4 == 0 then (s, pendingWord s ((off - 0x90000) / 4))
  else regRead s off 4

/-- A write of 4 or 8 bytes to BAR0 by the host. -/
def hostRegWrite (s : State) (off size v : Nat) : State :=
  if regsOpen s && inMsixTable off && (size == 4 || size == 8) && off % size == 0 then
    let s := writeMsix s ((off - 0x80000) / 4) (v % 2 ^ 32)
    if size = 8 then writeMsix s ((off - 0x80000) / 4 + 1) (v / 2 ^ 32) else s
  else regWrite s off size v

/-- REGISTER_WRITE (R442). -/
def execRegisterWrite (offset size value : Nat) (s : State) : Host.Outcome State Fault Refusal := .next (hostRegWrite s offset size (value % 2 ^ (8 * size)))

/-- REGISTER_LOWER_HALF_READ (R442). -/
def execRegisterLowerHalfRead (offset : Nat) (s : State) : Host.Outcome State Fault Refusal :=
  let (s, v) := hostRead s offset
  .next (emit s (.readData 4 v))

/-- GAUGE_LAST_READ (R447). -/
def execGaugeLastRead (unit : Nat) (s : State) : Host.Outcome State Fault Refusal :=
  .next (if unit < 8 then
    let (s, v) := regRead s (0x800 + 32 * unit) 8
    emit s (.readData 8 v)
  else s)

/-- RESET_REQ_WRITE (R446). -/
def execResetReqWrite (value : Nat) (s : State) : Host.Outcome State Fault Refusal := .next (writeReg s 0x218 (value % 2 ^ 32))

/-- FIRQ_POP (R449). -/
def execFirqPop (s : State) : Host.Outcome State Fault Refusal := .next (writeReg s 0x240 1)

/-- FWIN_TIMEOUT_CLEAR: a W1C write (R445). -/
def execFwinTimeoutClear (s : State) : Host.Outcome State Fault Refusal :=
  .next (if regsOpen s then { s with regs := { s.regs with fwinTimeout := false } } else s)

/-- MSIX_VECTOR_UNMASK: a vector that waits is sent (R451). -/
def execMsixVectorUnmask (vector : Nat) (s : State) : Host.Outcome State Fault Refusal :=
  .next (if 1088 ≤ vector then s else unmaskVector s vector)

/-! Poison that a read meets (R106 to R108). -/

/-- R106: the pseudo-channel of an address. -/
def pseudoChannel (a : Nat) : Nat :=
  [8, 13, 18, 23, 28, 33].foldl (fun pc b => pc ^^^ (bitsAt a b 5)) 0 % 32

/-- The handle of a surface index (R109). -/
def handleOf (i : Nat) (x : Surface) : Nat := i % 16384 + x.gen * 16384 + x.owner * 2 ^ 25

/-- EV_STORE_ECC (R108), class 3 for the scrubber. -/
def eccBits (s : State) (kind addr cls : Nat) : Nat :=
  let pc := pseudoChannel addr
  let owner := s.store.surfs.find? fun e => e.2.used && e.2.base ≤ addr && decide (addr < e.2.base + e.2.granules * 65536)
  eventBits 0x0101 (nowBits s) [fAt 2 0 8 kind, fAt 3 0 5 pc, fAt 4 0 32 (tget {} s.store.pcs pc).corrected,
    fAt 16 0 64 (if kind = 1 then 0 else addr / 256 * 256),
    fAt 24 0 32 (match owner with | some (i, x) => if kind = 1 then 0 else handleOf i x | none => 0), fAt 28 0 2 cls]

/-- A read by a class meets poisoned units of a range: the first read of each posts EV_STORE_ECC with KIND 0x02 (R108). -/
def noteRead (s : State) (a n cls : Nat) : State :=
  if n = 0 then s
  else forEach ((s.store.poison.filter fun e => e.2 && a / 256 ≤ e.1 && decide (e.1 ≤ (a + n - 1) / 256)).map Prod.fst) (fun u s =>
    if tget false s.store.poisonSeen u then s
    else
      let s := { s with store := { s.store with poisonSeen := tset false s.store.poisonSeen u true } }
      postEvent s 0 (eccBits s 2 (u * 256) cls)) s

/-! Transfers that a command or an aperture makes. -/

/-- Write bytes at a Weir address: the store, or registers in accesses of 8 bytes and a last one of 4. -/
def weirWrite (s : State) (a : Nat) (l : List Byte) : State :=
  if inRegSpace a then
    (List.range ((l.length + 7) / 8)).foldl (fun s k =>
      let b := (l.drop (8 * k)).take 8
      regWrite s (a - regSpace + 8 * k) (if b.length < 8 then 4 else 8) (natLE (b.take (if b.length < 8 then 4 else 8)))) s
  else writeBytes s a l

/-- Read bytes at a Weir address; a poisoned unit of the store is noted (R108). -/
def weirRead (s : State) (a n : Nat) : State × List Byte :=
  if inRegSpace a then
    let r := (List.range ((n + 7) / 8)).foldl (fun (x : State × List Byte) k =>
      let m := min 8 (n - 8 * k)
      let (s, v) := regRead x.1 (a - regSpace + 8 * k) (if m < 8 then 4 else 8)
      (s, x.2 ++ bytesLE m v)) (s, [])
    r
  else (noteRead s a n 2, readBytes s a n)

/-- A checked write: carried out when every unit is allowed, otherwise the denial is recorded; whether it was carried out. -/
def storeWrite (s : State) (slice engine a : Nat) (l : List Byte) : State × Bool :=
  match weirDenied s slice engine true a l.length with
  | none => (weirWrite s a l, true)
  | some (u, r) => (denyAt s slice engine true r u, false)

/-- A checked write of which each denied unit is dropped and recorded; whether none was (R371). -/
def writeChecked (s : State) (slice engine a : Nat) (l : List Byte) : State × Bool :=
  (unitsOf a l.length).foldl (fun acc u =>
    let n := min (a + l.length) (u / 256 * 256 + 256) - u
    let t := storeWrite acc.1 slice engine u ((l.drop (u - a)).take n)
    (t.1, acc.2 && t.2)) (s, true)

/-- A checked read: the bytes, or nothing with the denial recorded. -/
def storeRead (s : State) (slice engine a n : Nat) : State × Option (List Byte) :=
  match weirDenied s slice engine false a n with
  | none =>
    let (s, l) := weirRead s a n
    (s, some l)
  | some (u, r) => (denyAt s slice engine false r u, none)

/-- A destination left undefined after ST_WEIR_DENIED: each of its bytes that the issuer may write holds a free value (R79). -/
def undefineDest (s : State) (slice engine a n : Nat) : State :=
  (List.range n).foldl (fun t i =>
    if weirAllows s slice engine true (a + i) 1 && !inRegSpace (a + i) then writeBytes t (a + i) [Config.undefinedByte s.free i] else t)
    { s with free := s.free + 1 }

/-- Write a record or copy to a command's destination: the Reservoir under the issuer's rules, or host memory, whose refusal (ok false) is a denial with RULE 0xFFF (R367). -/
def destWrite (s : State) (slice engine : Nat) (space ok : Bool) (a : Nat) (l : List Byte) : State × Bool :=
  if space then match storeWrite s slice engine a l with
    | (s, true) => (s, true)
    | (s, false) => (undefineDest s slice engine a l.length, false)
  else if ok then (hostPut s slice a l, true)
  else (denyAt s slice engine true 0xFFF a, false)

/-- Read a command's source: the Reservoir under the issuer's rules, or the bytes host memory returned. -/
def srcRead (s : State) (slice engine : Nat) (space : Bool) (c : Cmd) (a n : Nat) : State × Option (List Byte) :=
  if space then storeRead s slice engine a n
  else if c.ok && c.data.length = n then (s, some c.data)
  else (denyAt s slice engine false 0xFFF a, none)

end Sys2Proof.Machine
end

