-- ==== Sys2Proof/Machine/Surfaces.lean ====
section
/-! DEFINITION. Surfaces, handles, the line ledger and the 0x1xx commands (chapter 05, R134, R140 to R143). -/
namespace Sys2Proof.Machine
open Sys2Proof

/-! Formats (R134, R140). -/

/-- A format code the device has (R134). -/
def formatKnown (f : Nat) : Bool :=
  [0x01, 0x02, 0x03, 0x04, 0x10, 0x11, 0x12, 0x13, 0x20, 0x21, 0x22, 0x44, 0x51, 0x52, 0x53, 0x60].contains f

/-- The compressed codes of R134. -/
def formatCompressed (f : Nat) : Bool := [0x44, 0x51, 0x52, 0x53, 0x60].contains f

/-- The uncompressed form of a format code. -/
def formatPlain (f : Nat) : Nat := if formatCompressed f then f - 0x40 else f

/-- NV12 or P010, uncompressed: two planes (R134). -/
def formatTwoPlane (f : Nat) : Bool := f == 0x20 || f == 0x21

/-- Line size in bytes of an uncompressed format for a width (R134). -/
def lineSize (f w : Nat) : Nat :=
  if f = 0x01 then (w + 7) / 8 else if f = 0x02 then (w + 3) / 4 else if f = 0x03 then (w + 1) / 2
  else if f = 0x04 then w else if f = 0x10 then 2 * w else if f = 0x11 ∨ f = 0x12 ∨ f = 0x13 then 4 * w
  else if f = 0x20 then w else if f = 0x21 then 2 * w else if f = 0x22 then 2 * w else 0

/-- Raw bytes of a tile (R140). -/
def tileRaw (f : Nat) : Nat := if f = 0x44 then 256 else if f = 0x60 then 384 else 1024

/-- Worst-case block size (R141). -/
def tileWorst (f : Nat) : Nat := roundUp (tileRaw f + 8) 16

/-- Bytes of an index record (R141). -/
def recordSize (w : Nat) : Nat := roundUp (2 * (w / 64 + 1) + 4) 16

/-- Offset of the data area (R141). -/
def dataOffset (w h : Nat) : Nat := roundUp (h / 4 * recordSize w) 256

/-- Distinct pseudo-channels of lines 0 to 31 at a pitch (R111). -/
def pitchSpread (p : Nat) : Nat := (distinct ((List.range 32).map fun y => pseudoChannel (y * p))).length

/-- A pitch that meets both conditions of R111. -/
def pitchGood (p : Nat) : Bool := p % 8192 != 0 && 16 ≤ pitchSpread p

/-- The allocator's PITCH: the smallest P0 + 256 k that is good (R111). -/
def choosePitch (p0 : Nat) : Nat := match firstIdx (fun k => pitchGood (p0 + 256 * k)) 0 4096 with
  | some k => p0 + 256 * k
  | none => p0

/-- P0 of a pixel surface (R111, R141). -/
def pitchBase (f w : Nat) : Nat :=
  if formatCompressed f then roundUp (w / 64 * tileWorst f) 256 else roundUp (lineSize f w) 256

/-- Bytes a pixel surface occupies (R111, R137, R141). -/
def surfaceBytes (f w h pitch : Nat) : Nat :=
  if formatCompressed f then dataOffset w h + h / 4 * pitch
  else if formatTwoPlane f then (h + h / 2) * pitch else h * pitch

/-- Lines of a pixel surface, or 4 KiB units of a byte buffer: what FRONTIER counts up to (R113; log entry 6). -/
def surfaceLines (x : Surface) : Nat := if x.format = 0 then (x.length + 4095) / 4096 else x.height

/-- The current pass is complete (R176). -/
def passComplete (x : Surface) : Bool := !x.rebuilding && surfaceLines x ≤ x.frontier && x.pass != 0

/-! Handles (R109, R123). -/

/-- The index of a handle. -/
def handleIndex (h : Nat) : Nat := h % 16384

/-- The surface a handle names, when its generation is current (R123). -/
def lookup (s : State) (h : Nat) : Option Surface :=
  let x := getSurf s (handleIndex h)
  if h ≠ 0 ∧ x.used ∧ !x.releasePending ∧ handleOf (handleIndex h) x = h then some x else none

/-- The surface a reader latches by handle: also one whose release waits for that latch (R121). -/
def latchedSurf (s : State) (h : Nat) : Surface := getSurf s (handleIndex h)

/-! Latches (R113, R118). -/

/-- Layer slots that latch a surface index: once for each slot whose active or shown image, or device pass, uses it. -/
def layerLatches (s : State) (i : Nat) : List Nat :=
  s.comp.slots.filterMap fun e =>
    let b (m : LayerImage) : Option Nat := match m.buf with
      | some (h, p) => if h ≠ 0 ∧ handleIndex h = i then some p else none
      | none => none
    match b e.2.active with
    | some p => some p
    | none => match b e.2.shown with
      | some p => some p
      | none => match e.2.lastPass with
        | some (j, p) => if j = i then some p else none
        | none => none

/-- Card slots that latch a surface index (R39). -/
def cardLatches (s : State) (i : Nat) : List Nat :=
  (s.ledger.cards.filterMap fun e => match e.2 with
    | some (h, p) => if handleIndex h = i then some p else none
    | none => none) ++
  (s.ledger.pendAssets.filterMap fun a =>
    if a.asset = 1 ∧ !a.clear ∧ handleIndex a.handle = i then some a.pass else none)

/-- Passes at which readers latch a surface index. -/
def latchPasses (s : State) (i : Nat) : List Nat :=
  layerLatches s i ++ cardLatches s i ++ (s.store.latches.filterMap fun l => if l.surf = i then some l.pass else none)

/-- LATCHES of the line ledger (R113): at most 511; a surface being rebuilt counts as latched (R115). -/
def latchCount (s : State) (i : Nat) : Nat :=
  let n := min 511 (latchPasses s i).length
  if (getSurf s i).rebuilding && n == 0 then 1 else n

/-! Storage (R111, R112, R121). -/

/-- First and last granule of the pool (R105). -/
def poolFirst : Nat := 0x1000
/-- One past the last granule of the pool: 389,120 granules. -/
def poolEnd : Nat := 0x1000 + 389120

/-- Ranges of granules that are not free: allocated storage and storage that waits for zero-fill. -/
def takenRanges (s : State) : List (Nat × Nat) :=
  (s.store.surfs.filterMap fun e => if e.2.used then some (e.2.base / 65536, e.2.granules) else none) ++
  s.store.fills.map fun f => (f.base / 65536, f.granules)

/-- A range of granules lies in the pool and is free. -/
def rangeFree (s : State) (g n : Nat) : Bool :=
  poolFirst ≤ g && decide (g + n ≤ poolEnd) && (takenRanges s).all fun r => decide (g + n ≤ r.1 ∨ r.1 + r.2 ≤ g)

/-- Places where a free range can begin: the pool's start and the ends of taken ranges. -/
def rangeStarts (s : State) : List Nat := poolFirst :: (takenRanges s).map fun r => r.1 + r.2

/-- Length of the free range that begins at a granule. -/
def freeLen (s : State) (g : Nat) : Nat :=
  if !rangeFree s g 1 then 0
  else ((takenRanges s).filter fun r => decide (g < r.1)).foldl (fun m r => min m (r.1 - g)) (poolEnd - g)

/-- The largest free contiguous range in granules. -/
def largestFree (s : State) : Nat := (rangeStarts s).foldl (fun m g => max m (freeLen s g)) 0

/-- The lowest free range of n granules. -/
def firstFit (s : State) (n : Nat) : Option Nat :=
  (rangeStarts s).foldl (fun b g => if rangeFree s g n then some (match b with | some x => min x g | none => g) else b) none

/-- A free surface index, the lowest. -/
def freeIndex (s : State) : Option Nat := firstIdx (fun i => !(getSurf s i).used) 0 16384

/-- Granules charged to a slice's CAPACITY: until the storage is freed (R121). -/
def granulesUsed (s : State) (sl : Nat) : Nat :=
  s.store.surfs.foldl (fun n e => if e.2.used && e.2.owner == sl then n + e.2.granules else n) 0

/-- Live surface handles of a slice. -/
def handlesUsed (s : State) (sl : Nat) : Nat :=
  (s.store.surfs.filter fun e => e.2.used && !e.2.releasePending && e.2.owner == sl).length

/-- A generation after a release: 2,047 is followed by 1 (R110). -/
def nextGen (g : Nat) : Nat := if 2047 ≤ g then 1 else g + 1

/-- Where a new surface stands: the placement and index that the device chose, given as values of the command, when they are free, otherwise the lowest (log entry 7). -/
def choosePlace (s : State) (n : Nat) (obs : List Nat) : Option (Nat × Nat) :=
  match freeIndex s, firstFit s n with
  | some i, some g =>
    let i' := obs.getD 0 i
    let g' := obs.getD 1 g
    some (if i' < 16384 ∧ !(getSurf s i').used then i' else i, if rangeFree s g' n then g' else g)
  | _, _ => none

/-- Reasons of ST_NO_RESOURCE for n granules (R129), or none. -/
def allocReason (s : State) (sl n : Nat) : Option Nat :=
  let sh := (getSlice s sl).share
  if sh.capacity < granulesUsed s sl + n then some 0x01
  else if sh.handles ≤ handlesUsed s sl then some 0x02
  else if (freeIndex s).isNone then some 0x03
  else if (firstFit s n).isNone then
    if (firstFit { s with store := { s.store with fills := [] } } n).isSome then some 0x05 else some 0x04
  else none

/-- Create a surface at a place: zero content, PASS 0, FRONTIER 0 (R112). -/
def placeSurface (s : State) (i g : Nat) (x : Surface) : State :=
  modSurf s i fun o => { x with used := true, gen := o.gen, base := g * 65536, frontier := 0, pass := 0 }

/-- WAITABLE of a writer: DisplayPort receivers, fabric imports and transit, and output capture cannot wait (R113, R119). -/
def writerWaits : Writer → Bool
  | .host | .decode | .batch => true
  | .dpin | .fabric | .capture => false

/-- Allocate a pixel surface for the device itself in a slice's name; its handle, or none. -/
def allocPixel (s : State) (sl fmt w h : Nat) (wr : Writer) : State × Option Nat :=
  let pitch := choosePitch (pitchBase fmt w)
  let n := (surfaceBytes fmt w h pitch + 65535) / 65536
  match allocReason s sl n, choosePlace s n [] with
  | none, some (i, g) =>
    let s := placeSurface s i g { owner := sl, format := fmt, width := w, height := h, pitch, granules := n, writer := wr,
                                  waitable := writerWaits wr }
    (s, some (handleOf i (getSurf s i)))
  | _, _ => (s, none)

/-- Allocate a byte buffer for the device itself in a slice's name. -/
def allocBytes (s : State) (sl len : Nat) (wr : Writer) : State × Option Nat :=
  let n := (len + 65535) / 65536
  match allocReason s sl n, choosePlace s n [] with
  | none, some (i, g) =>
    let s := placeSurface s i g { owner := sl, length := len, granules := n, writer := wr, waitable := writerWaits wr }
    (s, some (handleOf i (getSurf s i)))
  | _, _ => (s, none)

/-- Add or remove a user of R130. -/
def addUser (s : State) (h : Nat) : State := modSurf s (handleIndex h) fun x => { x with users := x.users + 1 }
/-- Remove a user of R130. -/
def dropUser (s : State) (h : Nat) : State := modSurf s (handleIndex h) fun x => { x with users := x.users - 1 }

/-- Free a surface's storage: it waits for its zero-fill, and the index returns to the pool with its generation (R110, R112). -/
def freeStorage (s : State) (i : Nat) : State :=
  let x := getSurf s i
  { s with
    store := { s.store with
      surfs := tset {} s.store.surfs i { gen := x.gen }
      fills := s.store.fills ++ [{ base := x.base, granules := x.granules, owner := x.owner }] } }

/-- Rows of a surface that wait for a lane or stand in one. -/
def rowsAhead (s : State) (i : Nat) : Nat :=
  (s.sluice.queue.filter fun w => w.surf == some i).length +
  (s.sluice.lanes.filter fun e => match e.2.job with | some w => w.surf == some i | none => false).length

/-- Rows of a surface that the lanes have yet to write: those ahead that are not to be discarded. -/
def rowsLive (s : State) (i : Nat) : Nat :=
  (s.sluice.queue.filter fun w => w.surf == some i && !w.orphan).length +
  (s.sluice.lanes.filter fun e => match e.2.job with | some w => w.surf == some i && !w.orphan | none => false).length

/-- A surface's pass is abandoned: its rows that wait for a lane go, one in a lane is finished and discarded, and what an intake writer has gathered goes (R115, R116). -/
def abandonRows (s : State) (i : Nat) : State :=
  { s with sluice := { s.sluice with
      queue := s.sluice.queue.filter fun w => w.surf != some i || w.orphan
      lanes := tmap {} (fun _ x => { x with job := x.job.map fun w => if w.surf = some i then { w with orphan := true } else w }) s.sluice.lanes
      staging := tset [] s.sluice.staging i [] } }

/-- The conditions of R121 hold: no latch, no tile row on its way to the storage and no orphan on it; a bank takeover holds releases back (R120). -/
def releaseReady (s : State) (i : Nat) : Bool :=
  latchCount s i == 0 && rowsAhead s i == 0 && (getSurf s i).orphans == 0 && s.bank.carry.all fun c => c.arming.isNone

/-- R122: a release cancels the latch that any commit record would take on the surface. -/
def cancelLatches (s : State) (i : Nat) : State :=
  { s with comp := { s.comp with records := s.comp.records.map fun r =>
      { r with layers := r.layers.map fun l => match l.desc with
        | some d => if d.handle ≠ 0 ∧ handleIndex d.handle = i then { l with cancelled := true } else l
        | none => l } } }

/-- A release ends the fences that wait on the surface with ST_HANDLE_STALE (R133), and stops Gauge units on it (R385). -/
def endWatchers (s : State) (i h : Nat) : State :=
  let fs := s.store.fences.filter fun f => f.surf == i
  let s := { s with store := { s.store with fences := s.store.fences.filter fun f => f.surf != i } }
  let s := forEach fs (fun f s => finishKey s f.key .handleStale (nowBits s)
    [fAt 16 0 16 (getSurf s i).pass, fAt 20 0 32 (getSurf s i).frontier, fAt 24 0 16 (latchCount s i)]) s
  { s with gauge := { s.gauge with units := tmap {} (fun _ u => if u.enable && u.kind == 0 && u.handle == h then { u with enable := false } else u) s.gauge.units } }

/-- Bump the generation of a surface and set RELEASE_PENDING (R110, R121). -/
def beginRelease (s : State) (i : Nat) (key : Option CmdKey) : State :=
  let h := handleOf i (getSurf s i)
  let s := endWatchers (cancelLatches s i) i h
  modSurf s i fun x => { x with gen := nextGen x.gen, releasePending := true, relKey := key, relHandle := h }

/-! Errors of the store (R107, R108). -/

/-- An uncorrectable word poisons its unit and marks the surface that holds it (R108, R113). -/
def poisonUnit (s : State) (a : Nat) : State :=
  let s := { s with store := { s.store with poison := tset false s.store.poison (a / 256) true } }
  match s.store.surfs.find? fun e => e.2.used && e.2.base ≤ a && decide (a < e.2.base + e.2.granules * 65536) with
  | some (i, _) => modSurf s i fun x => { x with poisoned := true }
  | none => s

/-- R107: a corrected word counts on its pseudo-channel; each multiple of 1,024 posts EV_STORE_ECC with KIND 0x01. -/
def countCorrected (s : State) (pc cls : Nat) : State :=
  let n := satAdd 32 (tget {} s.store.pcs pc).corrected 1
  let s := { s with store := { s.store with pcs := tmod {} s.store.pcs pc fun x => { x with corrected := n } } }
  let s := bump s 1 pc 9 1
  if n % 1024 = 0 then
    postEvent s 0 (eventBits 0x0101 (nowBits s) [fAt 2 0 8 1, fAt 3 0 5 pc, fAt 4 0 32 n, fAt 28 0 2 cls])
  else s

/-! Passes and FRONTIER (R116, R119). -/

/-- Start a pass (R116). -/
def startPass (x : Surface) : Surface :=
  { x with pass := (x.pass + 1) % 2 ^ 16, frontier := 0, needStart := false, rowStates := [], rowsDone := [] }

/-- Start a pass on a surface index, in the order of passes; what an unfinished pass before it left with the lanes is abandoned (R116, R179). -/
def beginPass (s : State) (i : Nat) : State :=
  let s := abandonRows s i
  let n := s.store.passSeq + 1
  modSurf { s with store := { s.store with passSeq := n } } i fun x => { startPass x with began := n }

/-- Advance FRONTIER by n lines, never beyond the surface (R116). -/
def advance (n : Nat) (x : Surface) : Surface := { x with frontier := min (surfaceLines x) (x.frontier + n) }

/-- The rows above FRONTIER that are written let FRONTIER pass, oldest first (R116, R143); n bounds them. -/
def settleRows : Nat → Surface → Surface
  | 0, x => x
  | n + 1, x =>
    if x.rowsDone.contains (x.frontier / 4) then settleRows n (advance 4 { x with rowsDone := x.rowsDone.erase (x.frontier / 4) }) else x

/-- Tile row r of a compressed surface is acknowledged: FRONTIER passes it once every older row is (R116, R143). -/
def rowWritten (s : State) (i r : Nat) : State :=
  modSurf s i fun x =>
    let x := if x.frontier ≤ 4 * r then { x with rowsDone := x.rowsDone ++ [r] } else x
    settleRows x.rowsDone.length x

/-- The rows that the device has yet to write into a surface, and those written that FRONTIER has yet to reach. -/
def rowsOpen (s : State) (i : Nat) : Nat := rowsLive s i + (getSurf s i).rowsDone.length

/-- Put work into the lanes' queue (R155). -/
def queueWork (s : State) (w : LaneWork) : State := { s with sluice := { s.sluice with queue := s.sluice.queue ++ [w] } }

/-- Bytes with zeros to the end of the last 256-byte unit (R108). -/
def padUnit (l : List Byte) : List Byte := padTo 256 l

/-- P010 samples with bits 5:0 written 0 (R135). -/
def clearLow : List Byte → List Byte
  | a :: b :: r => (a &&& 0xC0) :: b :: clearLow r
  | l => l

/-- The bytes that the device stores for a line of a surface: what SURFACE_WRITE gives as it is, a device writer's P010 samples with their low bits 0 (R135). -/
def lineBytes (x : Surface) (l : List Byte) : List Byte :=
  let l := l.take (lineSize x.format x.width)
  if x.format = 0x21 ∧ x.writer ≠ .host then clearLow l else l

/-- Store one line of plane data (R111, R137). -/
def storeLine (s : State) (x : Surface) (y : Nat) (l : List Byte) : State := writeBytes s (x.base + y * x.pitch) (padUnit (lineBytes x l))

/-- Store a 4 KiB unit of a byte buffer. -/
def storeUnit (s : State) (x : Surface) (u : Nat) (l : List Byte) : State := writeBytes s (x.base + u * 4096) (l.take 4096)

/-- Raw bytes of tile (c, r) out of the four lines of a tile row, and two chroma lines for NV12 (R140). -/
def tileOf (f c : Nat) (luma chroma : List (List Byte)) : List Byte :=
  let bpp := if f = 0x44 ∨ f = 0x60 then 1 else 4
  (luma.flatMap fun l => ((l.drop (64 * bpp * c)).take (64 * bpp))) ++
  (if f = 0x60 then chroma.flatMap fun l => ((l.drop (64 * c)).take 64) else [])

/-- Blocks of a tile row (R140, R143). -/
def rowBlocks (x : Surface) (r : Nat) (rawMode : Bool) (luma chroma : List (List Byte)) : List (List Byte) :=
  (List.range (x.width / 64)).map fun c => encodeBlock (r * (x.width / 64) + c) rawMode none (tileOf x.format c luma chroma)

/-- Write an index record; a poisoned unit that it lies in is written whole, with zeros for every other record in it (R108). -/
def storeRecord (s : State) (a : Nat) (l : List Byte) : State :=
  let units := ((List.range ((a + l.length + 255) / 256 - a / 256)).map (a / 256 + ·)).filter fun u => tget false s.store.poison u
  writeBytes (units.foldl (fun s u => writeBytes s (u * 256) (List.replicate 256 0)) s) a l

/-- Store a tile row: every block and then the row's record; the slot is filled with zeros (R108, R143). -/
def storeRow (s : State) (x : Surface) (r : Nat) (blocks : List (List Byte)) : State :=
  let body := blocks.flatten
  let s := writeBytes s (x.base + dataOffset x.width x.height + r * x.pitch) (body ++ List.replicate (x.pitch - body.length) 0)
  storeRecord s (x.base + r * recordSize x.width) (rowRecord r (offsetsFrom 0 (blocks.map List.length)))

/-- The offsets of a tile row's record, or none when its ROW_CHECK fails or the offsets decrease or pass the slot (R142, R148). -/
def rowOffsets (s : State) (x : Surface) (r : Nat) : Option (List Nat) :=
  let t := x.width / 64
  let rec_ := readBytes s (x.base + r * recordSize x.width) (recordSize x.width)
  let body := rec_.take (2 * (t + 1))
  let offs := (List.range (t + 1)).map fun c => leAt rec_ (2 * c) 2
  let good := leAt rec_ (2 * (t + 1)) 4 == (crcRef 0x82F63B78 (0xFFFFFFFF ^^^ (0x80000000 + r)) body ^^^ 0xFFFFFFFF)
  let rising := (offs.zip (offs.drop 1)).all fun p => decide (p.1 ≤ p.2)
  if good && rising && decide (offs.getD t 0 * 16 ≤ x.pitch) then some offs else none

/-- The raw bytes of tile (c, r), or why it is discarded (R148); a poisoned unit discards it too (R150). -/
def readTile (s : State) (x : Surface) (c r : Nat) : Except Discard (List Byte) :=
  match rowOffsets s x r with
  | none => .error .index
  | some offs =>
    let a := x.base + dataOffset x.width x.height + r * x.pitch + offs.getD c 0 * 16
    let n := (offs.getD (c + 1) 0 - offs.getD c 0) * 16
    if n = 0 then .error .length
    else if rangePoisoned s a n || rangePoisoned s (x.base + r * recordSize x.width) (recordSize x.width) then .error .check
    else decodeBlock (r * (x.width / 64) + c) (tileRaw x.format) n (readBytes s a n)

/-- One line of a surface as uncompressed bytes, zeros where a tile is discarded, and whether anything was discarded or poisoned. Plane 1 is chroma. -/
def readLine (s : State) (x : Surface) (plane y : Nat) : List Byte × Bool :=
  if x.format = 0 then
    let n := min 4096 (x.length - y * 4096)
    if rangePoisoned s (x.base + y * 4096) n then
      ((List.range n).map fun i => if rangePoisoned s (x.base + y * 4096 + i) 1 then 0 else readByte s (x.base + y * 4096 + i), true)
    else (readBytes s (x.base + y * 4096) n, false)
  else if formatCompressed x.format then
    let t := x.width / 64
    let r := if plane = 1 then y / 2 else y / 4
    let bpp := if x.format = 0x44 ∨ x.format = 0x60 then 1 else 4
    (List.range t).foldl (fun acc c =>
      match readTile s x c r with
      | .ok raw =>
        let o := if plane = 1 then 256 + 64 * (y % 2) else 64 * bpp * (y % 4)
        (acc.1 ++ (raw.drop o).take (64 * bpp), acc.2)
      | .error _ => (acc.1 ++ List.replicate (64 * bpp) 0, true)) ([], false)
  else
    let row := if plane = 1 then x.height + y else y
    let a := x.base + row * x.pitch
    let n := lineSize x.format x.width
    if rangePoisoned s a n then
      ((List.range n).map fun i => if rangePoisoned s (a + i) 1 then 0 else readByte s (a + i), true)
    else (readBytes s a n, false)

/-! Gauge results. -/

/-- The check value of R382 over fold bytes and data. -/
def gaugeCheck (crc64 : Bool) (fold data : List Byte) : Nat :=
  if crc64 then crcRef 0xC96C5795D7870F42 0xFFFFFFFFFFFFFFFF (fold ++ data) ^^^ 0xFFFFFFFFFFFFFFFF else crc32c (fold ++ data)

/-- A Gauge record's 32 bytes (R383). -/
def gaugeRecBits (r : GaugeRec) : Nat :=
  packFields [fAt 0 0 3 r.unit, fAt 0 3 3 r.kind, fAt 0 6 1 r.crc64.toNat, fAt 0 7 1 r.lost.toNat, fAt 1 0 1 r.port,
    fAt 2 0 16 r.dropped, fAt 4 0 32 r.tagA, fAt 8 0 32 r.tagB, fAt 12 0 16 r.pass, fAt 16 0 64 r.check, fAt 24 0 64 r.wp]

/-- EV_GAUGE_FIFO of a cause (R383). -/
def gaugeEvent (s : State) (cause : Nat) : State :=
  post s 0 0x0A01 [fAt 2 0 8 cause, fAt 4 0 11 s.gauge.fifo.length, fAt 6 0 16 s.gauge.droppedSince]

/-- Queue a Gauge result: in the FIFO of 1,024 records, or dropped and counted, with EV_GAUGE_FIFO at most once per wall frame per cause (R383). -/
def queueGauge (s : State) (r : GaugeRec) : State :=
  let g := s.gauge
  if 1024 ≤ g.fifo.length then
    let first := g.droppedSince = 0
    let s := { s with gauge := { g with dropped := satAdd 16 g.dropped 1, droppedSince := satAdd 16 g.droppedSince 1 } }
    if first && g.dropFrame != some (now s).frame then
      gaugeEvent { s with gauge := { s.gauge with dropFrame := some (now s).frame } } 2
    else s
  else
    let s := { s with gauge := { g with fifo := g.fifo ++ [{ r with dropped := g.dropped }], dropped := 0 } }
    if g.levelArmed && s.gauge.fifo.length == 768 then
      let s := { s with gauge := { s.gauge with levelArmed := false } }
      if g.levelFrame != some (now s).frame then gaugeEvent { s with gauge := { s.gauge with levelFrame := some (now s).frame } } 1 else s
    else s

/-- Unit u computes a result over fold bytes and data (R381 to R383). -/
def gaugeResult (s : State) (u kind port tagA tagB pass : Nat) (lost : Bool) (fold data : List Byte) : State :=
  let x := tget {} s.gauge.units u
  let v := gaugeCheck x.crc64 fold data
  let x' := { x with results := (x.results + 1) % 2 ^ 32, last := v, tagA, tagB }
  let s := { s with gauge := { s.gauge with units := tset {} s.gauge.units u x' } }
  queueGauge s { unit := u, kind, crc64 := x.crc64, lost, port, tagA, tagB, pass, check := v, wp := nowBits s }

/-- A line, unit or tile row of a surface was written: every unit that watches the surface or its source takes a result (R381). -/
def gaugeLine (s : State) (i line : Nat) (data : List Byte) : State :=
  let x := getSurf s i
  let h := handleOf i x
  forEach (List.range 8) (fun u s =>
    let g := tget {} s.gauge.units u
    let mine := (g.kind == 0 && g.handle == h) || (g.kind == 1 && x.source == some g.source)
    if g.enable && mine && g.firstLine ≤ line && (g.lineCount == 0 || decide (line < g.firstLine + g.lineCount)) then
      gaugeResult s u g.kind 0 h line x.pass false (bytesLE 4 h ++ bytesLE 4 line) data
    else s) s

/-! Commands. -/

/-- SURFACE_ALLOC parameters. -/
def allocResv : List (Nat × Nat × Nat) := [(16, 0, 8), (17, 0, 1), (18, 0, 14), (20, 0, 14), (24, 0, 32), (28, 0, 32)]

/-- Granules and pitch a SURFACE_ALLOC asks for. -/
def allocSize (p : Packet) : Nat × Nat :=
  let f := pf p 16 0 8; let w := pf p 18 0 14; let h := pf p 20 0 14
  if f = 0 then (0, (pf p 28 0 32 + 65535) / 65536)
  else
    let pitch := if pb p 17 0 then pf p 24 0 32 else choosePitch (pitchBase f w)
    (pitch, (surfaceBytes f w h pitch + 65535) / 65536)

/-- Step 8 checks of SURFACE_ALLOC (R129). -/
def checkSurfaceAlloc (s : State) (h : Held) (_ : Cmd) : Option Fail :=
  let p := h.pkt
  let f := pf p 16 0 8; let w := pf p 18 0 14; let ht := pf p 20 0 14; let len := pf p 28 0 32
  let force := pb p 17 0; let pitch := pf p 24 0 32
  let bad :=
    !reservedZero p allocResv || (f != 0 && !formatKnown f) ||
    (f == 0 && (w != 0 || ht != 0 || force || len == 0 || decide (4294901760 < len))) ||
    (f != 0 && (len != 0 || !inRange w 1 8192 || !inRange ht 1 8192)) ||
    (formatTwoPlane (formatPlain f) && (w % 2 == 1 || ht % 2 == 1)) || (f == 0x22 && w % 2 == 1) ||
    (formatCompressed f && (w % 64 != 0 || ht % 4 != 0)) ||
    (f != 0 && force && (pitch % 256 != 0 || decide (pitch < (if formatCompressed f then w / 64 * tileWorst f else lineSize f w))))
  if bad then some (failWith .badParam)
  else match allocReason s h.slice (allocSize p).2 with
    | some r => some (.noResource, [fAt 16 0 8 r, fAt 24 0 64 (largestFree s)])
    | none => none

/-- SURFACE_ALLOC's effect (R129). -/
def actSurfaceAlloc (s : State) (h : Held) (c : Cmd) : State :=
  let p := h.pkt
  let (pitch, n) := allocSize p
  match choosePlace s n c.obs with
  | none => finishNow s h .noResource [fAt 16 0 8 4, fAt 24 0 64 (largestFree s)]
  | some (i, g) =>
    let s := placeSurface s i g { owner := h.slice, format := pf p 16 0 8, width := pf p 18 0 14, height := pf p 20 0 14,
                                  pitch, granules := n, length := pf p 28 0 32 }
    finishNow s h .ok [fAt 16 0 32 (handleOf i (getSurf s i)), fAt 20 0 32 pitch, fAt 24 0 64 (g * 65536)]

/-- SURFACE_ALLOC (0x101). -/
def execSurfaceAlloc (c : Cmd) (s : State) : Host.Outcome State Fault Refusal :=
  .next (runPacket s c 0x101 (fun _ => true) checkSurfaceAlloc actSurfaceAlloc)

/-- An open audio stream reads its ring from the storage of a surface (R130). -/
def audioReads (s : State) (x : Surface) : Bool :=
  s.io.audio.streams.any fun e => e.2.used && e.2.space && decide (e.2.addr < x.base + x.granules * 65536 ∧ x.base < e.2.addr + max 1 e.2.length)

/-- Step 8 checks of SURFACE_RELEASE (R130). -/
def checkSurfaceRelease (s : State) (h : Held) (_ : Cmd) : Option Fail :=
  let hd := pf h.pkt 16 0 32
  if !reservedZero h.pkt [(16, 0, 32)] then some (failWith .badParam)
  else match lookup s hd with
    | none => some (failWith .handleStale)
    | some x => firstFail [(h.slice != 0 && x.owner != h.slice, failWith .notPermitted), (x.users != 0 || audioReads s x, failWith .notReady)]

/-- SURFACE_RELEASE's effect (R121). -/
def actSurfaceRelease (s : State) (h : Held) (_ : Cmd) : State :=
  let i := handleIndex (pf h.pkt 16 0 32)
  let n := latchCount s i
  let s := beginRelease s i (some (heldKey h))
  if releaseReady s i then finishNow (freeStorage s i) h .ok [fAt 16 0 64 (nowBits s)]
  else defer s h [fAt 16 0 64 0xFFFFFFFFFFFFFFFF, fAt 24 0 16 n]

/-- SURFACE_RELEASE (0x102). -/
def execSurfaceRelease (c : Cmd) (s : State) : Host.Outcome State Fault Refusal :=
  .next (runPacket s c 0x102 (fun _ => true) checkSurfaceRelease actSurfaceRelease)

/-- Complete the deferred release of a surface index: the storage is freed, and the command replies, or, when no reply is owed any more, EV_SURFACE_RELEASED is posted (R121, R124). -/
def completeRelease (s : State) (i : Nat) : State :=
  let x := getSurf s i
  let s := freeStorage s i
  match x.relKey.bind (findHeld s) with
  | some h => finishNow s h .ok [fAt 16 0 64 (nowBits s)]
  | none => post s x.owner 0x0102 [fAt 4 0 32 x.relHandle, fAt 16 0 32 x.granules]

/-- SURFACE_RELEASE_COMPLETE: at a wall frame boundary, a deferred release whose conditions hold (R121). -/
def execSurfaceReleaseComplete (handle : Nat) (s : State) : Host.Outcome State Fault Refusal :=
  let i := handleIndex handle
  let x := getSurf s i
  .next (if x.used && x.releasePending && x.relHandle == handle && releaseReady s i && (now s).line == 0 then completeRelease s i else s)

/-- SURFACE_WRITE parameters. -/
def writeResv : List (Nat × Nat × Nat) := [(16, 0, 32), (20, 0, 32), (24, 0, 32), (28, 0, 3), (32, 0, 32), (40, 0, 64)]

/-- Step 8 checks of SURFACE_WRITE (R131). -/
def checkSurfaceWrite (s : State) (h : Held) (_ : Cmd) : Option Fail :=
  let p := h.pkt
  let hd := pf p 16 0 32; let first := pf p 20 0 32; let count := pf p 24 0 32
  let start := pb p 28 0; let mark := pb p 28 1; let sp := pf p 32 0 32
  let x := latchedSurf s hd
  let lines := surfaceLines x
  let unit := if x.format = 0 then 4096 else lineSize (formatPlain x.format) x.width
  let bad :=
    count == 0 || (start && first != 0) || (!start && (first != x.frontier || x.needStart)) || decide (lines < first + count) ||
    (formatTwoPlane x.format && (first % 2 == 1 || count % 2 == 1)) ||
    (formatCompressed x.format && (mark || first % 4 != 0 || (count % 4 != 0 && first + count != lines))) ||
    (mark && (sp != 0 || pf p 40 0 64 != 0)) || (!mark && decide (sp < unit))
  if !reservedZero p writeResv then some (failWith .badParam)
  else match lookup s hd with
    | none => some (failWith .handleStale)
    | some y =>
      firstFail [(y.owner != h.slice || y.writer != .host, failWith .notPermitted),
        (bad, (.badParam, [fAt 16 0 32 x.frontier, fAt 20 0 16 x.pass]))]

/-- Cut bytes into n pieces of a size. -/
def chunksOf (sz : Nat) : Nat → List Byte → List (List Byte)
  | 0, _ => []
  | n + 1, l => l.take sz :: chunksOf sz n (l.drop sz)

/-- Source lines of a SURFACE_WRITE in the order of its source, as far as they could be read, and whether all were: from the Reservoir at SRC + i x SRC_PITCH, or as host memory returned them (R131). -/
def writeSource (s : State) (sl : Nat) (space : Bool) (c : Cmd) (src pitch n sz : Nat) : State × List (List Byte) × Bool :=
  if space then
    (List.range n).foldl (fun (acc : State × List (List Byte) × Bool) i =>
      if !acc.2.2 then acc
      else match storeRead acc.1 sl engHost (src + i * pitch) sz with
        | (t, some l) => (t, acc.2.1 ++ [l], true)
        | (t, none) => (t, acc.2.1, false)) (s, [], true)
  else if c.ok && c.data.length = n * sz then (s, chunksOf sz n c.data, true)
  else
    let k := min n (c.data.length / max 1 sz)
    (denyAt s sl engHost false 0xFFF (src + k * pitch), chunksOf sz k c.data, false)

/-- The bytes of line y of a surface, or of a 4 KiB unit: where they are stored. -/
def lineAt (x : Surface) (y : Nat) : Nat × Nat :=
  if x.format = 0 then (x.base + y * 4096, 4096) else (x.base + y * x.pitch, lineSize x.format x.width)

/-- One line of an uncompressed surface is written for a slice and the Gauge sees it (R381), or the write is refused (R366). -/
def putLine (s : State) (sl i y : Nat) (l : List Byte) : State × Bool :=
  let x := getSurf s i
  match weirDenied s sl engHost true (lineAt x y).1 (lineAt x y).2 with
  | some (u, r) => (denyAt s sl engHost true r u, false)
  | none => (gaugeLine (if x.format = 0 then storeUnit s x y l else storeLine s x y l) i y l, true)

/-- Lines of an uncompressed surface are written from a line on, each recorded when it and its chroma line are (R116, R131); whether every write was allowed. -/
def writeLines (s : State) (sl i first : Nat) (luma chroma : List (List Byte)) : State × Bool :=
  (List.range luma.length).foldl (fun (acc : State × Bool) k =>
    if !acc.2 then acc
    else
      let y := first + k
      let x := getSurf acc.1 i
      let c := if formatTwoPlane x.format ∧ y % 2 = 0 then
          match chroma[k / 2]? with
          | some l => putLine acc.1 sl i (x.height + y / 2) l
          | none => acc
        else acc
      if !c.2 then c
      else match putLine c.1 sl i y (luma.getD k []) with
        | (t, true) => (modSurf t i (advance 1), true)
        | r => r) (s, true)

/-- The tile rows of a SURFACE_WRITE go to the lanes, and the command ends with a status when they are written (R131, R155). -/
def laneLines (s : State) (h : Held) (i first : Nat) (st : Status) (luma chroma : List (List Byte)) : State :=
  let n := luma.length / 4
  let s := forEach (List.range n) (fun k s =>
    let raw := ((luma.drop (4 * k)).take 4).flatten ++ ((chroma.drop (2 * k)).take 2).flatten
    gaugeLine (queueWork s { kind := .surfaceWrite, slice := h.slice, surf := some i, row := first / 4 + k, raw }) i (first / 4 + k) raw) s
  holdOn { s with sluice := { s.sluice with writes := s.sluice.writes ++
    [{ key := heldKey h, slice := h.slice, surf := i, stop := first + 4 * n, status := st }] } } h

/-- Lines that software has written through BAR2 are recorded: the Gauge takes their bytes now (R131, R381). -/
def markLines (s : State) (i first count : Nat) : State :=
  let x := getSurf s i
  let s := (List.range count).foldl (fun s k => gaugeLine s i (first + k) (readLine s x 0 (first + k)).1) s
  if formatTwoPlane x.format then
    (List.range (count / 2)).foldl (fun s k => gaugeLine s i (x.height + first / 2 + k) (readLine s x 1 (first / 2 + k)).1) s
  else s

/-- Detail of a SURFACE_WRITE reply: FRONTIER and PASS (R131). -/
def writeDetail (s : State) (i : Nat) : List Field := [fAt 16 0 32 (getSurf s i).frontier, fAt 20 0 16 (getSurf s i).pass]

/-- SURFACE_WRITE's effect (R131): the lines are stored and recorded as far as the source could be read; those already complete stay. -/
def actSurfaceWrite (s : State) (h : Held) (c : Cmd) : State :=
  let p := h.pkt
  let hd := pf p 16 0 32; let i := handleIndex hd
  let first := pf p 20 0 32; let count := pf p 24 0 32
  let s := if pb p 28 0 then beginPass s i else s
  let x := getSurf s i
  let two := formatTwoPlane (formatPlain x.format)
  let sz := if x.format = 0 then 4096 else lineSize (formatPlain x.format) x.width
  let total := if two then count + count / 2 else count
  if pb p 28 1 then
    let s := modSurf (markLines s i first count) i (advance count)
    finishNow s h .ok (writeDetail s i)
  else
    let (s, ls, whole) := writeSource s h.slice (pb p 28 2) c (pf p 40 0 64) (pf p 32 0 32) total sz
    let n := if two then min (ls.length) (2 * (ls.length - count)) else ls.length
    let luma := (ls.take count).take n
    let st : Status := if whole then .ok else .weirDenied
    if formatCompressed x.format then
      if luma.length < 4 then finishNow s h st (writeDetail s i) else laneLines s h i first st luma (ls.drop count)
    else
      let (s, allowed) := writeLines s h.slice i first luma (ls.drop count)
      finishNow s h (if allowed then st else .weirDenied) (writeDetail s i)

/-- Step 8 checks of SURFACE_READ (R132). -/
def checkSurfaceRead (s : State) (h : Held) (_ : Cmd) : Option Fail :=
  let p := h.pkt
  let first := pf p 20 0 32; let count := pf p 24 0 32
  let x := latchedSurf s (pf p 16 0 32)
  let unit := if x.format = 0 then 4096 else lineSize (formatPlain x.format) x.width
  if !reservedZero p [(16, 0, 32), (20, 0, 32), (24, 0, 32), (28, 0, 1), (32, 0, 32), (40, 0, 64)] then some (failWith .badParam)
  else match lookup s (pf p 16 0 32) with
    | none => some (failWith .handleStale)
    | some _ =>
      firstFail [(h.slice != 0 && x.owner != h.slice, failWith .notPermitted),
        (count == 0 || decide (surfaceLines x < first + count) || (formatTwoPlane x.format && (first % 2 == 1 || count % 2 == 1)) ||
          decide (pf p 32 0 32 < unit), failWith .badParam)]

/-- The address at which the bytes of a line begin. -/
def lineStart (x : Surface) (y : Nat) : Nat :=
  if x.format = 0 then x.base + y * 4096
  else if formatCompressed x.format then x.base + dataOffset x.width x.height + y / 4 * x.pitch else x.base + y * x.pitch

/-- The ranges of the store that lines of a surface are read from: data, and chroma or index records. -/
def readRanges (x : Surface) (first count : Nat) : List (Nat × Nat) :=
  if x.format = 0 then [(x.base + first * 4096, count * 4096)]
  else if formatCompressed x.format then
    let r := first / 4; let n := (first + count + 3) / 4 - r
    [(x.base + r * recordSize x.width, n * recordSize x.width), (x.base + dataOffset x.width x.height + r * x.pitch, n * x.pitch)]
  else (x.base + first * x.pitch, count * x.pitch) ::
    if formatTwoPlane x.format then [(x.base + (x.height + first / 2) * x.pitch, (count + 1) / 2 * x.pitch)] else []

/-- A reader takes lines of a surface: poison that it meets is noted (R108). -/
def noteLines (s : State) (x : Surface) (first count cls : Nat) : State :=
  forEach (readRanges x first count) (fun r s => noteRead s r.1 r.2 cls) s

/-- A decompressor's discard counts by cause (R150). -/
def countDiscard (s : State) (d : Discard) : State :=
  bump s 2 2 (match d with | .check => 0 | .code => 1 | .length => 2 | .index => 3) 1

/-- A reader decompresses the tile rows that hold lines of a surface: each discarded block is counted (R150). -/
def countDiscards (s : State) (x : Surface) (first count : Nat) : State :=
  if !formatCompressed x.format then s
  else forEach ((List.range ((first + count + 3) / 4 - first / 4)).map (first / 4 + ·)) (fun r s =>
    forEach (List.range (x.width / 64)) (fun c s => match readTile s x c r with
      | .ok _ => s
      | .error d => countDiscard s d) s) s

/-- SURFACE_READ's effect (R132): every line is copied, poison and discards as zeros; a refused write leaves the whole destination undefined. -/
def actSurfaceRead (s : State) (h : Held) (c : Cmd) : State :=
  let p := h.pkt
  let i := handleIndex (pf p 16 0 32)
  let x := getSurf s i
  let first := pf p 20 0 32; let count := pf p 24 0 32; let pitch := pf p 32 0 32; let dst := pf p 40 0 64
  let luma := (List.range count).map fun k => readLine s x 0 (first + k)
  let chroma := if formatTwoPlane (formatPlain x.format) then (List.range (count / 2)).map fun k => readLine s x 1 (first / 2 + k) else []
  let badLine := (List.range count).find? fun k => (luma.getD k ([], false)).2 || (chroma.getD (k / 2) ([], false)).2
  let all := luma ++ chroma
  let s := countDiscards (noteLines s x first count 2) x first count
  let put (acc : State × Bool) (k : Nat) : State × Bool :=
    let l := (all.getD k ([], false)).1
    if acc.2 then destWrite acc.1 h.slice engHost (pb p 28 0) c.ok (dst + k * pitch) l
    else (if pb p 28 0 then undefineDest acc.1 h.slice engHost (dst + k * pitch) l.length else acc.1, false)
  let res := (List.range all.length).foldl put (s, true)
  let res := if res.2 then res else ((List.range all.length).foldl put (res.1, false))
  let complete := decide (first + count ≤ x.frontier) && !x.rebuilding
  let det := [fAt 16 0 16 x.pass, fAt 18 0 1 complete.toNat, fAt 20 0 32 x.frontier]
  if !res.2 then finishNow res.1 h .weirDenied []
  else match badLine with
    | some k => finishNow res.1 h .checkFailed (det ++ [fAt 24 0 32 (first + k)])
    | none => finishNow res.1 h .ok det

/-- SURFACE_READ (0x104). -/
def execSurfaceRead (c : Cmd) (s : State) : Host.Outcome State Fault Refusal :=
  .next (runPacket s c 0x104 (fun _ => true) checkSurfaceRead actSurfaceRead)

/-- PASS is later than P under serial order modulo 2^16 (R133). -/
def passLater (a p : Nat) : Bool := let d := (a + 2 ^ 16 - p % 2 ^ 16) % 2 ^ 16; 1 ≤ d && d ≤ 2 ^ 15 - 1

/-- A fence's condition (R133). -/
def fenceMet (s : State) (f : Fence) : Bool :=
  let x := getSurf s f.surf
  if f.unlatched then latchCount s f.surf == 0
  else !x.rebuilding && (passLater x.pass f.pass || (x.pass == f.pass && decide (f.line ≤ x.frontier)))

/-- The fence a packet asks for. -/
def fenceOf (s : State) (h : Held) : Fence :=
  let p := h.pkt
  let i := handleIndex (pf p 16 0 32)
  { key := heldKey h, surf := i, gen := (getSurf s i).gen, unlatched := pb p 20 0, pass := pf p 22 0 16, line := pf p 24 0 32,
    startFrame := (now s).frame, timeout := pf p 21 0 8 }

/-- Detail of a SURFACE_FENCE reply (R133). -/
def fenceDetail (s : State) (i : Nat) : List Field :=
  [fAt 16 0 16 (getSurf s i).pass, fAt 20 0 32 (getSurf s i).frontier, fAt 24 0 16 (latchCount s i)]

/-- Step 8 checks of SURFACE_FENCE (R133). -/
def checkSurfaceFence (s : State) (h : Held) (_ : Cmd) : Option Fail :=
  let p := h.pkt
  let x := latchedSurf s (pf p 16 0 32)
  if !reservedZero p [(16, 0, 32), (20, 0, 1), (21, 0, 8), (22, 0, 16), (24, 0, 32)] || pf p 21 0 8 == 0 then some (failWith .badParam)
  else match lookup s (pf p 16 0 32) with
    | none => some (failWith .handleStale)
    | some _ =>
      firstFail [(!pb p 20 0 && !inRange (pf p 24 0 32) 1 (surfaceLines x), failWith .badParam),
        (h.slice != 0 && x.owner != h.slice, failWith .notPermitted)]

/-- SURFACE_FENCE's effect (R133). -/
def actSurfaceFence (s : State) (h : Held) (_ : Cmd) : State :=
  let f := fenceOf s h
  if fenceMet s f then finishNow s h .ok (fenceDetail s f.surf)
  else defer { s with store := { s.store with fences := s.store.fences ++ [f] } } h (fenceDetail s f.surf)

/-- SURFACE_FENCE (0x105). -/
def execSurfaceFence (c : Cmd) (s : State) : Host.Outcome State Fault Refusal :=
  .next (runPacket s c 0x105 (fun _ => true) checkSurfaceFence actSurfaceFence)

/-- The waiting fence of a command. -/
def findFence (s : State) (c : Cmd) : Option Fence := s.store.fences.find? fun f => f.key == ⟨c.slice, c.ring, c.index⟩

/-- End a waiting fence with a status (R133). -/
def endFence (s : State) (f : Fence) (st : Status) : State :=
  finishKey { s with store := { s.store with fences := s.store.fences.filter fun g => g.key != f.key } } f.key st (nowBits s)
    (fenceDetail s f.surf)

/-- SURFACE_FENCE_MET: the awaited condition has come true (R133). -/
def execSurfaceFenceMet (c : Cmd) (s : State) : Host.Outcome State Fault Refusal :=
  .next (match findFence s c with
    | some f => if fenceMet s f then endFence s f .ok else s
    | none => s)

/-- SURFACE_FENCE_TIMEOUT: TIMEOUT wall frames have passed without the condition (R133). -/
def execSurfaceFenceTimeout (c : Cmd) (s : State) : Host.Outcome State Fault Refusal :=
  .next (match findFence s c with
    | some f => if !fenceMet s f && f.timeout ≤ frameDiff (now s).frame f.startFrame then endFence s f .timeout else s
    | none => s)

/-- BE traffic of whole granules charged to slice 0, spread over every pseudo-channel (R106, R112). -/
def chargeGranules (s : State) (n : Nat) : State :=
  (List.range 32).foldl (fun s pc => bump s 1 pc 2 (2048 * n)) (bump s 6 0 4 (65536 * n))

/-- ZERO_FILL_COMPLETE: the freed storage at a base address has been filled with zeros, as BE traffic charged to slice 0, and returns to the pool (R112). -/
def execZeroFillComplete (base : Nat) (s : State) : Host.Outcome State Fault Refusal :=
  .next (match s.store.fills.find? fun f => f.base == base with
    | none => s
    | some f => chargeGranules { s with store := { s.store with
        fills := s.store.fills.filter fun g => g.base != base
        mem := s.store.mem.filter fun e => !(f.base ≤ e.1 && decide (e.1 < f.base + f.granules * 65536))
        poison := s.store.poison.filter fun e => !(f.base ≤ e.1 * 256 && decide (e.1 * 256 < f.base + f.granules * 65536))
        poisonSeen := s.store.poisonSeen.filter fun e => !(f.base ≤ e.1 * 256 && decide (e.1 * 256 < f.base + f.granules * 65536)) } } f.granules)

end Sys2Proof.Machine
end

