-- ==== Sys2Proof/Machine/Ledger.lean ====
section
/-! DEFINITION. The Source Ledger: arrivals, evaluation and publication, liveness events, LIVENESS_SET, HEARTBEAT, LEDGER_READ and TREATMENT_ASSETS (R8 to R39). -/
namespace Sys2Proof.Machine
open Sys2Proof

/-! The entry record (R11, R12). -/

/-- The 64 bytes of entry i (R12). -/
def entryBits (i : Nat) (e : LedgerEntry) : Nat :=
  packFields [(0, 12, i), (12, 7, e.owner), (19, 2, kindCode e.kind), (21, 4, stateCode e.state), (25, 1, e.valid.toNat),
    (26, 1, e.static.toNat), (27, 1, e.changeBound.toNat), (28, 2, treatmentCode e.treatment), (30, 2, e.glyph),
    (32, 24, e.period), (56, 24, e.deadline), (80, 48, lineWpBits e.lastArrival), (128, 48, lineWpBits e.origin),
    (176, 48, lineWpBits e.ageBase), (224, 12, e.originAddr), (236, 16, e.changeCount), (252, 2, e.proven),
    (254, 1, e.touchDrop.toNat), (255, 1, e.events.toNat), (256, 4, e.holdColour), (260, 6, e.card), (272, 16, e.degradedTiles),
    (288, 16, e.lateCount), (304, 16, e.staleCount), (320, 16, e.frozenCount), (336, 16, e.concealCount),
    (352, 48, lineWpBits e.since), (400, 4, stateCode e.prev), (404, 4, e.unfitReason)]

/-! Arrivals (R9, R17, R18). -/

/-- What a delivery brings. -/
structure Arrival where
  origin : LineWp
  damaged : Bool := false
  concealed : Option Bool := none
  /-- Upstream state that came with it (R17), its AGE_BASE_WP, and whether the entry's own base is kept (R31, R33). -/
  upstream : LState := .live
  upBase : Option LineWp := none
  upOwn : Bool := false
  sei : Bool := false
  originAddr : Option Nat := none
  /-- Counts a change when no CHANGE rectangle is bound; a HEARTBEAT does not (R18). -/
  counts : Bool := true
  reason : Nat := 1
  deriving DecidableEq, Repr

/-- Record an arrival on an entry: R9's times, R15's inputs, R18's count. An entry that is withdrawn and not yet freed records none, a HEARTBEAT's among them (log entry 103). -/
def arrive (s : State) (i : Nat) (a : Arrival) : State :=
  modEntry s i fun e =>
    if !e.valid || e.inp.withdrawn then e
    else
      let fit := e.inp.unfit && e.unfitReason != 4
      { e with
        lastArrival := some (lineOf (now s))
        origin := some a.origin
        originAddr := a.originAddr.getD e.originAddr
        changeCount := if a.counts && !e.changeBound then (e.changeCount + 1) % 65536 else e.changeCount
        unfitReason := if fit then 0 else e.unfitReason
        inp := { e.inp with
          arrived := true, damaged := a.damaged, concealed := a.concealed.getD e.inp.concealed
          unfit := e.inp.unfit && !fit
          upstream := a.upstream, upAgeBase := a.upBase, upOwn := a.upOwn, sei := a.sei, reason := a.reason } }

/-- Set the damaged input at once, with no arrival (R15, R287, R349). -/
def markDamaged (s : State) (i : Nat) : State :=
  modEntry s i fun e => if e.valid then { e with inp := { e.inp with damaged := true, reason := 1 } } else e

/-- Report an entry UNFIT with a reason of R12 (R15); a ledger ECC reason stays (R13). R35's REASON of a report by a receiver or an import is the decoder's, 0x03, and of damage met before an arrival the arrival's, 0x01 (log entry 104). -/
def markUnfit (s : State) (i why reason : Nat) : State :=
  modEntry s i fun e =>
    if !e.valid || (e.inp.unfit && e.unfitReason == 4) then e
    else { e with unfitReason := why, inp := { e.inp with unfit := true, reason } }

/-- R13: an uncorrectable error in an entry. -/
def ledgerEcc (s : State) (i : Nat) : State :=
  if (getEntry s i).valid then
    addFault (modEntry s i fun e => { e with unfitReason := 4, inp := { e.inp with unfit := true, reason := 6 } }) 5 0 i
  else s

/-- Withdraw an entry (R95 step 3, R249). -/
def withdraw (s : State) (i : Nat) : State :=
  modEntry s i fun e => { e with inp := { e.inp with withdrawn := true, arrived := false, detached := true, reason := 5 } }

/-- Stillwater forgets a source (R218). -/
def clearStill (s : State) (i : Nat) : State :=
  let s := { s with scan := { s.scan with
      still := tmod {} s.scan.still i fun x => { x with run := 0, judgedValid := false, judgedPass := 0, judgedChanged := false }
      rects := tmap {} (fun _ r => if r.used && r.cfg.mode == 1 && r.cfg.source == i then { r with refValid := false } else r) s.scan.rects }
                    ledger := { s.ledger with reports := s.ledger.reports.filter fun q => q.1 != i || !q.2.1 } }
  modEntry s i fun e => { e with inp := { e.inp with frozen := false } }

/-! Evaluation (R15 to R18) and publication (R19). -/

/-- R15: the local result at a wall line start, for an entry that is evaluated. -/
def evaluate (lines : Nat) (e : LedgerEntry) (w : Wp) : LState :=
  if e.inp.withdrawn then .withdrawn
  else if e.inp.unfit then .unfit
  else if e.static then .notTracked
  else if !e.inp.arrived then .unproven
  else
    let age := match e.origin with
      | some o => linesBetween lines o w
      | none => 0
    if e.deadline < age then .stale
    else if e.inp.concealed then .concealed
    else if e.inp.damaged then .degraded
    else if e.inp.frozen then .frozen
    else if e.changeBound ∧ e.proven < 3 then .unproven
    else if e.period + e.period / 2 < age then .late
    else .live

/-- R17: an upstream state is combined for IMPORT entries and for DECODED entries with an accepted SEI. -/
def hasUpstream (e : LedgerEntry) : Bool := e.kind == .imported || (e.kind == .decoded && e.inp.sei)

/-- The result with upstream (R17), and whether upstream won, before an import's first arrival too; WITHDRAWN and UNFIT outrank every upstream state. -/
def evaluated (lines : Nat) (e : LedgerEntry) (w : Wp) : LState × Bool :=
  let l := evaluate lines e w
  if !e.static && hasUpstream e && decide (stateRank l < stateRank e.inp.upstream) then (e.inp.upstream, true)
  else (l, false)

/-- R18: a result that restarts proving. -/
def restartsProving (x : LState) : Bool := x == .stale || x == .unfit || x == .withdrawn

/-- Evaluate one entry at a wall line start. -/
def evalEntry (w : Wp) (i : Nat) (s : State) : State :=
  let e := getEntry s i
  if !e.valid then s
  else
    let (r, up) := evaluated (wallLines s) e w
    let was := match e.inp.computed with
      | some (x, _) => x
      | none => e.state
    let s := if restartsProving r && was != r then clearStill (modEntry s i fun e => { e with proven := 0 }) i else s
    modEntry s i fun e =>
      { e with
        ageBase := if r = .live ∧ e.state = .live then e.origin else e.ageBase
        inp := { e.inp with computed := some (r, if up && e.inp.reason != 4 then 7 else e.inp.reason, up), reason := 0 } }

/-- The age base that the counter counts from (R17, R25, R31). -/
def counterBase (e : LedgerEntry) : Option LineWp := if e.inp.upWon && !e.inp.upOwn then e.inp.upAgeBase else e.ageBase

/-- Publish an entry's computed state at a deciding WP: STATE, PREV_STATE, STATE_SINCE_WP, the counters and the event of R35. -/
def publishEntry (w : Wp) (i : Nat) (s : State) : State :=
  let e := getEntry s i
  match e.inp.computed with
  | none => s
  | some (r, why, up) =>
    modEntry s i fun e =>
      let e := { e with inp := { e.inp with computed := none, upWon := up } }
      if e.state = r then e
      else
        let old := e.state
        let e := { e with
          state := r, prev := old, since := some (lineOf w)
          ageBase := if r = .live then e.origin else e.ageBase
          lateCount := if r = .late then satAdd 16 e.lateCount 1 else e.lateCount
          staleCount := if r = .stale then satAdd 16 e.staleCount 1 else e.staleCount
          frozenCount := if r = .frozen then satAdd 16 e.frozenCount 1 else e.frozenCount
          concealCount := if r = .concealed then satAdd 16 e.concealCount 1 else e.concealCount }
        if !e.events then e
        else
          let first := match e.ev with | some v => v.prev | none => old
          let n := match e.ev with | some v => v.changes | none => 0
          { e with ev := some { prev := first, next := r, changes := satAdd 8 n 1, reason := why, wp := w, origin := e.origin,
                                age := ageSeconds s (counterBase e) w } }

/-- The entries in use. -/
def entryIds (s : State) : List Nat := s.ledger.entries.map Prod.fst

/-- Apply a function to every entry in use. -/
def forEntries (s : State) (f : Nat → State → State) : State := forEach (entryIds s) f s

/-! LIVENESS_SET (R36). -/

/-- Effective DEADLINE of a LIVENESS_SET on an entry: 0 selects three expected periods. -/
def setDeadline (e : LedgerEntry) (p : Packet) : Nat :=
  let period := if pb p 18 0 then e.period else pf p 24 0 24
  if pf p 28 0 24 = 0 then min 16777215 (3 * period) else pf p 28 0 24

/-- The values of a LIVENESS_SET on its entry (R22, R36). Leaving STATIC forgets the arrival; LAST_ARRIVAL_WP and ORIGIN_WP keep their values, and HEARTBEAT's lower bound with them (log entry 105). -/
def applySet (e : LedgerEntry) (p : Packet) : LedgerEntry :=
  let static := pb p 18 0
  { e with
    inp := { e.inp with arrived := e.inp.arrived && !(e.static && !static), reason := 4 }
    period := if static then e.period else pf p 24 0 24
    deadline := setDeadline e p
    static := static, touchDrop := pb p 18 1, events := pb p 18 2
    proven := if pb p 18 3 then 0 else e.proven
    treatment := treatmentOfCode (pf p 19 0 2), glyph := pf p 19 2 2, holdColour := pf p 19 4 4, card := pf p 20 0 6 }

/-- Apply the LIVENESS_SETs that take part in the evaluation at a wall line start (R36). -/
def applySets (w : Wp) (s : State) : State :=
  let due (l : LiveSet) : Bool := !l.applied && wpLater w l.after
  let s := forEach (s.ledger.sets.filter due) (fun l s => modEntry s (pf l.pkt 16 0 12) fun e => applySet e l.pkt) s
  { s with ledger := { s.ledger with sets := s.ledger.sets.map fun l => if due l then { l with applied := true } else l } }

/-- Reply to the LIVENESS_SETs whose evaluation has been published (R36). -/
def replySets (w : Wp) (s : State) : State :=
  let l := s.ledger.sets.filter LiveSet.applied
  let s := { s with ledger := { s.ledger with sets := s.ledger.sets.filter fun x => !x.applied } }
  forEach l (fun x s =>
    let i := pf x.pkt 16 0 12
    finishKey s ⟨x.key.1, x.key.2.1, x.key.2.2⟩ .ok (wpBits w)
      [fAt 16 0 16 i, fAt 18 0 4 (stateCode (getEntry s i).state), fAt 20 0 32 (getEntry s i).deadline]) s

/-- A changed signature reaches the Liveness Monitor: frozen ends, and proving counts (R15, R18). -/
def reportChanged (s : State) (src : Nat) : State :=
  modEntry s src fun e =>
    { e with
      changeCount := (e.changeCount + 1) % 65536, proven := if e.changeBound then min 3 (e.proven + 1) else e.proven
      inp := { e.inp with frozen := false, reason := 2 } }

/-- A FROZEN declaration reaches the Liveness Monitor. -/
def reportFrozen (s : State) (src : Nat) : State :=
  modEntry s src fun e => { e with inp := { e.inp with frozen := true, reason := 2 } }

/-- Stillwater makes a report now; the next evaluation takes it in if its line start lies at least 100 ns ahead, otherwise the one after it (R219). -/
def stillReport (s : State) (src : Nat) (frozen : Bool) : State :=
  let w : Wp := { now s with tick := 0 }
  let t := s.time.timing
  let left := 65536 - (now s).tick
  let late := ((now s).tick == 0 && s.ledger.evalAt != some (lineOf w)) ||
    decide (left * t.rateDen * 1000000000 < 100 * t.rateNum * wallLines s * 65536)
  { s with ledger := { s.ledger with reports := s.ledger.reports ++ [(src, frozen, late)] } }

/-- An evaluation takes in the reports that came in time for it (R219). -/
def takeReports (s : State) : State :=
  forEach (s.ledger.reports.filter fun q => !q.2.2) (fun q s => if q.2.1 then reportFrozen s q.1 else reportChanged s q.1)
    { s with ledger := { s.ledger with reports := (s.ledger.reports.filter fun q => q.2.2).map fun q => (q.1, q.2.1, false) } }

/-- R15: the evaluation at the start of the current wall line, once; everything that happened at that line start takes part. -/
def evaluateLine (s : State) : State :=
  let w : Wp := { now s with tick := 0 }
  if !s.time.running || s.ledger.evalAt = some (lineOf w) then s
  else
    let s := forEntries (takeReports (applySets w s)) (evalEntry w)
    { s with ledger := { s.ledger with evalAt := some (lineOf w) } }

/-- The start of the wall line after a WP. -/
def nextLine (s : State) (w : Wp) : Wp :=
  if w.line + 1 < wallLines s then ⟨w.frame, w.line + 1, 0⟩ else ⟨nextFrame w.frame, 0, 0⟩

/-- The liveness events of the wall frame that has ended are posted (R35). -/
def flushAllLiveness (s : State) : State := forEach (s.rings.map Prod.fst) (fun i s => flushLiveness s i) s

/-- R19: the next wall line starts, and the state computed at the last one is published; a new wall frame's changes start new events (R35). -/
def startLine (s : State) : State :=
  let w := nextLine s (now s)
  let s := { s with time := { s.time with wp := w }, ledger := { s.ledger with deciding := w } }
  replySets w (forEntries (if w.line = 0 then flushAllLiveness s else s) (publishEntry w))

/-- What a step does when no command waits: WP advances by one tick within its line (R40), and the line start's evaluation is done when WP leaves it; the line's end is the row LEDGER_EVALUATION (log entry 8). -/
def idle (s : State) : State :=
  if s.time.running && decide ((now s).tick < 65535) then
    let s := evaluateLine s
    { s with time := { s.time with wp := { now s with tick := (now s).tick + 1 } } }
  else s

/-- The ticks of the current wall line up to tick n pass, as one by one under `idle`; none when WP stands there or beyond (R40). -/
def passTicks (s : State) (n : Nat) : State :=
  if s.time.running ∧ (now s).tick < n then
    let s := evaluateLine s
    { s with time := { s.time with wp := { now s with tick := n } } }
  else s

/-- WP stands at w or beyond, or w is a later tick of the current wall line. -/
def comesThisLine (s : State) (w : Wp) : Bool :=
  wpReached (now s) w || (w.frame == (now s).frame && w.line == (now s).line && decide (w.tick < 65536))

/-- Time passes up to WP w in the current wall line: an event scheduled for w takes place there (R43). -/
def passTo (s : State) (w : Wp) : State := if wpReached (now s) w then s else passTicks s w.tick

/-- The wall line ends: its remaining ticks pass, up to its last (R40). -/
def endLine (s : State) : State := evaluateLine (passTicks s 65535)

/-- Step 8 checks of LIVENESS_SET (R36); with STATIC 1 the ignored EXPECTED_PERIOD bounds no DEADLINE (log entry 106). -/
def checkLivenessSet (s : State) (h : Held) (_ : Cmd) : Option Fail :=
  let p := h.pkt
  let e := getEntry s (pf p 16 0 12)
  let static := pb p 18 0; let period := pf p 24 0 24; let dl := pf p 28 0 24
  let classS := (getSlice s e.owner).cls = .s
  firstFail [
    (!reservedZero p [(16, 0, 12), (18, 0, 4), (19, 0, 8), (20, 0, 6), (24, 0, 24), (28, 0, 24)], failWith .badParam),
    (!e.valid, failWith .badParam),
    (h.slice != 0 && e.owner != h.slice, failWith .notPermitted),
    (!static && (period == 0 || (dl != 0 && decide (dl < period)) || (dl == 0 && decide (16777215 < 3 * period))), failWith .badParam),
    (static && e.kind != .surface, failWith .badParam),
    (pf p 19 2 2 == 3, failWith .badParam),
    (classS && (pf p 19 0 2 != 0 || pf p 19 2 2 == 0), failWith .notPermitted)]

/-- LIVENESS_SET's commit point: the values wait for the next wall line start (R36). -/
def actLivenessSet (s : State) (h : Held) (_ : Cmd) : State :=
  holdOn { s with ledger := { s.ledger with sets := s.ledger.sets ++
    [{ key := (h.slice, h.ring, h.index), pkt := h.pkt
       after := if h.phase = .armed ∧ wpLater h.due h.taken then h.due else now s }] } } h

/-- LIVENESS_SET (0x601). -/
def execLivenessSet (c : Cmd) (s : State) : Host.Outcome State Fault Refusal :=
  .next (runPacket s c 0x601 (fun _ => true) checkLivenessSet actLivenessSet)

/-! HEARTBEAT (R37). -/

/-- The entries a HEARTBEAT names. -/
def heartbeatIds (p : Packet) : List Nat := (List.range (pf p 16 0 4)).map fun k => pf p (18 + 2 * k) 0 12

/-- A stored position later than another, at line granularity; an unordered pair counts as later (R6). -/
def lineLater (a b : LineWp) : Bool := wpLater ⟨a.frame, a.line, 0⟩ ⟨b.frame, b.line, 0⟩ || frameDiff a.frame b.frame == 2 ^ 31

/-- Step 8 checks of HEARTBEAT (R37). -/
def checkHeartbeat (s : State) (h : Held) (_ : Cmd) : Option Fail :=
  let p := h.pkt
  let n := pf p 16 0 4
  let ids := heartbeatIds p
  let o := pf p 40 0 64
  let ow := lineOf (wpOfBits o)
  let bad (i : Nat) : Bool :=
    let e := getEntry s i
    !e.valid || e.kind != .surface || e.static || (o != 0 && match e.origin with | some x => lineLater x ow | none => false)
  if !inRange n 1 8 || !reservedZero p ([(16, 0, 4), (40, 0, 64)] ++ (List.range n).map fun k => (18 + 2 * k, 0, 12)) then
    some (failWith .badParam)
  else firstFail [
    (ids.any bad || (o != 0 && (wpBadLine s (wpOfBits o) || lineLater ow (lineOf (now s)))), failWith .badParam),
    (ids.any fun i => (getEntry s i).owner != h.slice, failWith .notPermitted)]

/-- HEARTBEAT's effect: an arrival on every named entry (R37). -/
def actHeartbeat (s : State) (h : Held) (_ : Cmd) : State :=
  let o := pf h.pkt 40 0 64
  let origin := if o = 0 then lineOf (now s) else lineOf (wpOfBits o)
  finishNow (forEach (heartbeatIds h.pkt) (fun i s => arrive s i { origin, counts := false }) s) h .ok []

/-- HEARTBEAT (0x602). -/
def execHeartbeat (c : Cmd) (s : State) : Host.Outcome State Fault Refusal :=
  .next (runPacket s c 0x602 (fun _ => true) checkHeartbeat actHeartbeat)

/-! LEDGER_READ (R38). -/

/-- Step 8 checks of LEDGER_READ. -/
def checkLedgerRead (_ : State) (h : Held) (_ : Cmd) : Option Fail :=
  let p := h.pkt
  let n := pf p 18 0 13
  if !reservedZero p [(16, 0, 12), (18, 0, 13), (24, 0, 64)] || n == 0 || decide (4096 < pf p 16 0 12 + n) || pf p 24 0 64 % 64 != 0
  then some (failWith .badParam) else none

/-- A slice may read an entry in full: the manager any, a guest its own (R38). -/
def entryVisible (s : State) (slice i : Nat) : Bool := slice == 0 || ((getEntry s i).valid && (getEntry s i).owner == slice)

/-- LEDGER_READ's effect: the records as of the latest deciding WP (R38). -/
def actLedgerRead (s : State) (h : Held) (c : Cmd) : State :=
  let p := h.pkt
  let ids := (List.range (pf p 18 0 13)).map (pf p 16 0 12 + ·)
  let body := ids.flatMap fun i => bytesLE 64 (if entryVisible s h.slice i then entryBits i (getEntry s i) else 0)
  let full := (ids.filter (entryVisible s h.slice)).length
  match destWrite s h.slice engLock (destSpace s) c.ok (pf p 24 0 64) body with
  | (s, true) => finishNow s h .ok [fAt 16 0 64 (wpBits s.ledger.deciding), fAt 24 0 16 full]
  | (s, false) => finishNow s h .weirDenied []

/-- LEDGER_READ (0x603). -/
def execLedgerRead (c : Cmd) (s : State) : Host.Outcome State Fault Refusal :=
  .next (runPacket s c 0x603 (fun _ => true) checkLedgerRead actLedgerRead)

/-! TREATMENT_ASSETS (R39). -/

/-- Formats a card may have (R39). -/
def cardFormat (f : Nat) : Bool := [0x04, 0x10, 0x11, 0x12, 0x44, 0x51, 0x52].contains f

/-- Step 8 checks of TREATMENT_ASSETS (R39). -/
def checkTreatmentAssets (s : State) (h : Held) (_ : Cmd) : Option Fail :=
  let p := h.pkt
  let asset := pf p 16 0 8; let index := pf p 17 0 8; let clear := pb p 18 0; let hd := pf p 24 0 32
  let x := latchedSurf s hd
  let bad := !reservedZero p [(16, 0, 8), (17, 0, 8), (18, 0, 1), (20, 0, 30), (24, 0, 32), (28, 0, 8)] ||
    !decide (asset ≤ 2) || (asset == 0 && !decide (index ≤ 15)) || (asset == 1 && !decide (index ≤ 63)) || (asset == 2 && index != 0) ||
    (asset != 1 && clear) || (asset == 2 && decide (pf p 28 0 8 < 0x20)) || (asset == 1 && !clear && hd == 0)
  if bad then some (failWith .badParam)
  else if asset == 1 && !clear then
    match lookup s hd with
    | none => some (failWith .handleStale)
    | some _ => firstFail [(x.owner != 0, failWith .notPermitted),
        (!cardFormat x.format || decide (1920 < x.width) || decide (1080 < x.height), failWith .badParam)]
  else none

/-- The newest complete pass of a surface (R39, R176). -/
def newestPass (x : Surface) : Nat := if passComplete x then x.pass else (x.pass + 65535) % 65536

/-- TREATMENT_ASSETS' commit point: the card is latched at once, the change applies at its boundary (R39). -/
def actTreatmentAssets (s : State) (h : Held) (_ : Cmd) : State :=
  let p := h.pkt
  let f := actBoundary s h
  let hd := pf p 24 0 32
  let a : AssetChange := {
    asset := pf p 16 0 8, index := pf p 17 0 8, clear := pb p 18 0, colour := pf p 20 0 30, handle := hd
    pass := newestPass (latchedSurf s hd), alpha := pf p 28 0 8, frame := f }
  finish { s with ledger := { s.ledger with pendAssets := s.ledger.pendAssets ++ [a] } } h .ok (boundaryBits f) 0

/-- TREATMENT_ASSETS (0x604). -/
def execTreatmentAssets (c : Cmd) (s : State) : Host.Outcome State Fault Refusal :=
  .next (runPacket s c 0x604 (fun _ => true) checkTreatmentAssets actTreatmentAssets)

/-- One asset change takes effect (R39). -/
def applyAsset (a : AssetChange) (s : State) : State :=
  let l := s.ledger
  { s with ledger :=
    if a.asset = 0 then { l with holdColours := tset 0x20080200 l.holdColours a.index a.colour }
    else if a.asset = 1 then { l with cards := tset none l.cards a.index (if a.clear then none else some (a.handle, a.pass)) }
    else { l with hatchColour := a.colour, hatchAlpha := a.alpha } }

/-- The asset changes of the current boundary take effect (R39). -/
def applyAssets (s : State) : State :=
  let due (a : AssetChange) : Bool := frameDue s a.frame
  let l := s.ledger.pendAssets.filter due
  forEach l applyAsset { s with ledger := { s.ledger with pendAssets := s.ledger.pendAssets.filter fun a => !due a } }

end Sys2Proof.Machine
end

