-- ==== Sys2Proof/Machine/Layers.lean ====
section
/-! DEFINITION. Layer slots, descriptors, limits, cost and line-buffer fit; LAYER_SET, LAYER_CLEAR, PALETTE_LOAD, COEFF_LOAD, COMMIT_GROUP_DEFINE and BANK_ASSIGN (R138, R139, R157 to R172, R184 to R199). -/
namespace Sys2Proof.Machine
open Sys2Proof

/-! Descriptors (R161). -/

/-- The key of a slot: 8 x output + slot. -/
def slotKey (output slot : Nat) : Nat := 8 * output + slot

/-- The descriptor in bytes 16 to 47 of a packet (R161). -/
def descOf (p : Packet) : Desc :=
  { output := pf p 16 0 3, slot := pf p 17 0 3, touch := pb p 18 0, alphaMode := pf p 18 1 2, linebuf := pb p 18 3
    coeffSet := pf p 18 4 2, triangle := pb p 18 6, format := pf p 19 0 8, source := pf p 20 0 12, planeAlpha := pf p 22 0 8
    csc := pf p 23 0 2, fullRange := pb p 23 2, vTaps := if pf p 23 3 3 = 0 then 6 else pf p 23 3 3
    nLead := if pf p 24 0 4 = 0 then 2 else pf p 24 0 4, handle := pf p 28 0 32
    srcX := pf p 32 0 14, srcY := pf p 34 0 14, srcW := pf p 36 0 14, srcH := pf p 38 0 14
    dstX := toSigned 16 (pf p 40 0 16), dstY := toSigned 16 (pf p 42 0 16), dstW := pf p 44 0 14, dstH := pf p 46 0 14 }

/-- The descriptor as bytes 16 to 47, as a migration image carries it (R99, R161). -/
def descBits (d : Desc) : Nat :=
  packFields [(0, 3, d.output), (8, 3, d.slot), (16, 1, d.touch.toNat), (17, 2, d.alphaMode), (19, 1, d.linebuf.toNat),
    (20, 2, d.coeffSet), (22, 1, d.triangle.toNat), (24, 8, d.format), (32, 12, d.source), (48, 8, d.planeAlpha), (56, 2, d.csc),
    (58, 1, d.fullRange.toNat), (59, 3, d.vTaps), (64, 4, d.nLead), (96, 32, d.handle), (128, 14, d.srcX), (144, 14, d.srcY),
    (160, 14, d.srcW), (176, 14, d.srcH), (192, 16, ofSigned 16 d.dstX), (208, 16, ofSigned 16 d.dstY), (224, 14, d.dstW),
    (240, 14, d.dstH)]

/-- Bits of LAYER_SET that are not reserved. -/
def layerResv : List (Nat × Nat × Nat) :=
  [(16, 0, 3), (17, 0, 3), (18, 0, 7), (19, 0, 8), (20, 0, 12), (22, 0, 8), (23, 0, 6), (24, 0, 4), (28, 0, 32), (32, 0, 14),
   (34, 0, 14), (36, 0, 14), (38, 0, 14), (40, 0, 16), (42, 0, 16), (44, 0, 14), (46, 0, 14)]

/-- The kind of the source a descriptor names. -/
def descKind (s : State) (d : Desc) : Kind := (getEntry s d.source).kind

/-- A layer of a device source (DECODED, DPIN, IMPORT). -/
def isDevice (s : State) (d : Desc) : Bool := descKind s d != .surface

/-- R197: a whole-frame layer. -/
def wholeFrame (s : State) (d : Desc) : Bool :=
  isDevice s d && d.srcX == 0 && d.srcY == 0 && d.srcW == 8192 && d.srcH == 8192

/-! Regions (R161) and output clocks (R48). -/

/-- A rectangle of output pixels. -/
structure Region where
  x : Nat := 0
  y : Nat := 0
  w : Nat := 0
  h : Nat := 0
  deriving DecidableEq, Repr

/-- The part of a span of pixels that lies on the output. -/
def clipSpan (start : Int) (len act : Nat) : Nat × Nat :=
  let a := max start 0
  let b := min (start + (len : Int)) (act : Int)
  if a < b then (a.toNat, (b - a).toNat) else (0, 0)

/-- A layer's region: its destination rectangle within the active area (R161). -/
def regionOf (c : OutCfg) (d : Desc) : Region :=
  let (x, w) := clipSpan d.dstX d.dstW c.hActive
  let (y, h) := clipSpan d.dstY d.dstH c.vActive
  if w = 0 ∨ h = 0 then {} else ⟨x, y, w, h⟩

/-- Two regions share a pixel. -/
def regionsMeet (a b : Region) : Bool :=
  a.w != 0 && b.w != 0 && decide (a.x < b.x + b.w ∧ b.x < a.x + a.w ∧ a.y < b.y + b.h ∧ b.y < a.y + a.h)

/-- Region a covers region b wholly. -/
def regionCovers (a b : Region) : Bool :=
  a.w != 0 && decide (a.x ≤ b.x ∧ b.x + b.w ≤ a.x + a.w ∧ a.y ≤ b.y ∧ b.y + b.h ≤ a.y + a.h)

/-- The region of a descriptor on its output now. -/
def layerRegion (s : State) (d : Desc) : Region := regionOf (getOut s d.output).cfg d

/-- R48: the pixel clock in pixels per second, as numerator and denominator. -/
def pixelClock (t : WallTiming) (c : OutCfg) : Nat × Nat :=
  let n := c.hTotal * c.vOut * t.rateNum
  if c.ratio = 1 then (2 * n, t.rateDen) else if c.ratio = 2 then (n, 2 * t.rateDen) else (n, t.rateDen)

/-- The pixel clock in kpix/s, rounded up. -/
def clockKpix (t : WallTiming) (c : OutCfg) : Nat := ceilDiv (pixelClock t c).1 ((pixelClock t c).2 * 1000)

/-! Buffers of device sources (R179, R197). -/

/-- The buffers a source's writer rotates over. -/
def sourceBuffers (s : State) (src : Nat) : List (Nat × Surface) :=
  s.store.surfs.filter fun e => e.2.used && !e.2.releasePending && e.2.source == some src

/-- The size of the pass a buffer holds: what was delivered, or the buffer's own. -/
def passSize (x : Surface) : Nat × Nat := (if x.trueW = 0 then x.width else x.trueW, if x.trueH = 0 then x.height else x.trueH)

/-- Lines of a pass: complete when FRONTIER covers them. -/
def passDone (x : Surface) : Bool := !x.rebuilding && x.pass != 0 && decide ((passSize x).2 ≤ x.frontier)

/-- The newest of a list of buffers by the order in which their passes began. -/
def newestOf (l : List (Nat × Surface)) : Option (Nat × Surface) :=
  l.foldl (fun b e => match b with
    | some x => if x.2.began < e.2.began then some e else b
    | none => some e) none

/-- The size COMMIT takes for a layer (R197). -/
def sizeOf (s : State) (d : Desc) : Nat × Nat :=
  if wholeFrame s d then
    match newestOf ((sourceBuffers s d.source).filter fun e => passDone e.2) with
    | some e => passSize e.2
    | none => (d.dstW, d.dstH)
  else (d.srcW, d.srcH)

/-! Scaling limits, cost and fit (R169, R188, R189, R195, R196). -/

/-- R188 at a source size. -/
def inLimits (d : Desc) (w h : Nat) : Bool :=
  if d.linebuf then
    inRange w 1 8192 && inRange h 1 8192 && decide (w ≤ 32 * d.dstW ∧ d.dstW ≤ w ∧ h ≤ 64 * d.dstH ∧ d.dstH ≤ h)
  else
    inRange w 1 4096 && inRange h 1 8192 && decide (w ≤ 4 * d.dstW ∧ d.dstW ≤ 16 * w ∧ h ≤ 2 * d.dstH ∧ d.dstH ≤ 16 * h)

/-- R169: the cost of a layer at a source size, kpix/s rounded up. -/
def layerCost (t : WallTiming) (c : OutCfg) (d : Desc) (w h : Nat) : Nat :=
  let r := regionOf c d
  let (n, m) := pixelClock t c
  ceilDiv (n * (r.w * r.h) * max w d.dstW * max h d.dstH) (m * 1000 * (c.hActive * c.vActive) * d.dstW * d.dstH)

/-- R195: lines a LINEBUF layer requires at a source height. -/
def linebufLines (d : Desc) (h : Nat) : Nat :=
  if !d.linebuf || h == d.dstH then 0
  else if d.triangle then ceilDiv (2 * h) d.dstH
  else ceilDiv (h + d.dstH - Nat.gcd h d.dstH) d.dstH

/-- R196: 64 x ceil(width / 64). -/
def w64 (w : Nat) : Nat := (w + 63) / 64 * 64

/-- R196: line-buffer slots a layer occupies. -/
def linebufSlots (d : Desc) (w h : Nat) : Nat := if linebufLines d h = 0 then 0 else (linebufLines d h + 1) * w64 w

/-- R196: lines available to a layer behind others' slots. -/
def linebufAvail (before w : Nat) : Nat := (32768 - before) / w64 w - 1

/-- The output limit of R169. -/
def outLimit : Nat := 4800000
/-- The bank limit of R169. -/
def bankLimit : Nat := 19200000

/-- R157: rank of a class in composition, lowest first. -/
def clsRank : Cls → Nat
  | .a => 0 | .o => 1 | .s => 2

/-- A layer as it stands on an output: slot, owner, class (R87), descriptor and the source size COMMIT took. -/
structure Placed where
  slot : Nat
  owner : Nat
  cls : Cls
  desc : Desc
  w : Nat
  h : Nat
  deriving DecidableEq, Repr

/-- R157: layers in composition order, lowest first. -/
def inOrder (l : List Placed) : List Placed :=
  let pick (c : Cls) : List Placed := l.filter fun x => x.cls == c
  pick .a ++ pick .o ++ pick .s

/-- The layers in force on an output. -/
def activeLayers (s : State) (o : Nat) : List Placed :=
  (List.range 8).filterMap fun k =>
    let x := getSlot s (slotKey o k)
    x.active.desc.map fun d => ⟨k, x.active.owner, x.active.cls, d, x.active.w, x.active.h⟩

/-- A layer's committed cost. -/
def placedCost (s : State) (t : WallTiming) (x : Placed) : Nat := layerCost t (getOut s x.desc.output).cfg x.desc x.w x.h

/-- The cost of a list of layers. -/
def totalCost (s : State) (t : WallTiming) (l : List Placed) : Nat := l.foldl (fun n x => n + placedCost s t x) 0

/-- R196: the first layer in composition order that does not fit its line buffer: slot, lines required, lines available. -/
def fitFail (l : List Placed) : Option (Nat × Nat × Nat) :=
  ((inOrder l).foldl (fun (acc : Nat × Option (Nat × Nat × Nat)) x =>
    match acc.2 with
    | some _ => acc
    | none =>
      let n := linebufSlots x.desc x.w x.h
      if 32768 < acc.1 + n then (acc.1, some (x.slot, linebufLines x.desc x.h, linebufAvail acc.1 x.w)) else (acc.1 + n, none)) (0, none)).2

/-! Coefficient sets (R192, R193). -/

/-- A set counts as loaded for LAYER_SET from the commit point of the command that loads or clears it (R193). -/
def setLoaded (s : State) (n : Nat) : Bool :=
  match (s.comp.pendCoeffs.filter fun e => e.1 == n).getLast? with
  | some (_, c, _) => c.loaded
  | none => (tget {} s.comp.coeffs n).loaded

/-- A descriptor names a set in POLYPHASE mode. -/
def namesSet (n : Nat) (d : Option Desc) : Bool := match d with
  | some d => !d.linebuf && d.coeffSet == n
  | none => false

/-- Layers, active or pending, that name a set (R193). -/
def setUsers (s : State) (n : Nat) : Nat :=
  (s.comp.slots.filter fun e => namesSet n e.2.active.desc || namesSet n e.2.pending).length

/-- A commit record names a set. -/
def recordsName (s : State) (n : Nat) : Bool := s.comp.records.any fun r => r.layers.any fun l => namesSet n l.desc

/-- COEFF_LOAD parameters. -/
def checkCoeffLoad (s : State) (h : Held) (_ : Cmd) : Option Fail :=
  let p := h.pkt
  let clear := pb p 16 2; let src := pf p 24 0 64; let n := pf p 16 0 2
  let det := [fAt 16 0 8 n, fAt 18 0 16 (setUsers s n)]
  firstFail [
    (!reservedZero p [(16, 0, 3), (17, 0, 1), (24, 0, 64)] || (clear && src != 0) || (!clear && src % 64 != 0), (.badParam, det)),
    (clear && (setUsers s n != 0 || recordsName s n), (.notReady, det))]

/-- The words of one phase of an image and the first cause it fails on (R193). -/
def phaseFail (l : List Byte) (off n : Nat) : Option Nat :=
  let ws := (List.range n).map fun k => leAt l (off + 2 * k) 2
  if ws.any fun w => !(w / 512 == 0 || w / 512 == 127) then some 1
  else if (ws.foldl (fun a w => a + toSigned 16 w) 0) ≠ 256 then some 2 else none

/-- The coefficients of one phase. -/
def phaseRow (l : List Byte) (off n : Nat) : List Int := (List.range n).map fun k => toSigned 16 (leAt l (off + 2 * k) 2)

/-- The first failing phase of an image: phase, direction, cause. -/
def imageFail (l : List Byte) : Option (Nat × Nat × Nat) :=
  (List.range 64).findSome? fun p =>
    match phaseFail l (16 * p) 8 with
    | some c => some (p, 0, c)
    | none => (phaseFail l (1024 + 12 * p) 6).map fun c => (p, 1, c)

/-- COEFF_LOAD's effect (R193). -/
def actCoeffLoad (s : State) (h : Held) (c : Cmd) : State :=
  let p := h.pkt
  let n := pf p 16 0 2
  let f := boundaryAfter (now s)
  let put (s : State) (x : CoeffSet) : State :=
    let s := { s with comp := { s.comp with pendCoeffs := s.comp.pendCoeffs ++ [(n, x, f)] } }
    finish s h .ok (boundaryBits f) (packFields [fAt 16 0 8 n, fAt 18 0 16 (setUsers s n)])
  if pb p 16 2 then put s {}
  else match srcRead s 0 engLock (pb p 17 0) c (pf p 24 0 64) 1792 with
    | (s, none) => finishNow s h .weirDenied [fAt 16 0 8 n, fAt 18 0 16 (setUsers s n)]
    | (s, some l) => match imageFail l with
      | some (ph, d, k) => finishNow s h .badParam [fAt 16 0 8 n, fAt 18 0 16 (setUsers s n), fAt 20 0 8 ph, fAt 21 0 8 d, fAt 22 0 8 k]
      | none => put s { loaded := true, h := (List.range 64).map fun ph => phaseRow l (16 * ph) 8
                        v := (List.range 64).map fun ph => phaseRow l (1024 + 12 * ph) 6 }

/-- COEFF_LOAD (0x205). -/
def execCoeffLoad (c : Cmd) (s : State) : Host.Outcome State Fault Refusal :=
  .next (runPacket s c 0x205 (fun _ => true) checkCoeffLoad actCoeffLoad)

/-- The coefficient sets of the current boundary take effect (R193). -/
def applyCoeffs (s : State) : State :=
  let due (e : Nat × CoeffSet × Nat) : Bool := frameDue s e.2.2
  let l := s.comp.pendCoeffs.filter due
  { s with comp := { s.comp with
      coeffs := l.foldl (fun t e => tset {} t e.1 e.2.1) s.comp.coeffs
      pendCoeffs := s.comp.pendCoeffs.filter fun e => !due e } }

/-! LAYER_SET (R158, R159, R162). -/

/-- The commit group of an output (R171). -/
def groupOfOutput (s : State) (o : Nat) : Nat := s.comp.groupOf.getD o o

/-- A group's PLACE_MASK admits a slice; the manager always (R158). -/
def admits (g : Group) (slice : Nat) : Bool := slice == 0 || bitAt g.placeMask (slice - 1)

/-- Slots a slice owns: what counts against its LAYERS ceiling (R158). -/
def slotsOwned (s : State) (slice : Nat) : Nat := (s.comp.slots.filter fun e => e.2.owner == some slice).length

/-- A value of the descriptor that is out of range whatever the state. -/
def descBad (p : Packet) : Bool :=
  let d := descOf p
  !reservedZero p layerResv || d.alphaMode == 3 || d.csc == 3 || !([2, 4, 6].contains d.vTaps) ||
  !inRange d.srcW 1 8192 || !inRange d.srcH 1 8192 || !inRange d.dstW 1 8192 || !inRange d.dstH 1 8192 ||
  decide (d.dstX < -8192 ∨ 8191 < d.dstX ∨ d.dstY < -8192 ∨ 8191 < d.dstY)

/-- Step 8 checks of LAYER_SET (R162). -/
def checkLayerSet (s : State) (h : Held) (_ : Cmd) : Option Fail :=
  let d := descOf h.pkt
  let e := getEntry s d.source
  let x := getSlot s (slotKey d.output d.slot)
  let surf := e.kind = .surface
  let y := latchedSurf s d.handle
  firstFail [
    (descBad h.pkt, failWith .badParam),
    (!e.valid, failWith .notReady),
    (!admits (getGroup s (groupOfOutput s d.output)) h.slice, failWith .notPermitted),
    ((match x.owner with | some w => w != h.slice | none => false), failWith .notPermitted),
    (e.owner != h.slice && e.owner != 0, failWith .notPermitted),
    (surf && d.handle == 0, failWith .badParam),
    (!decide surf && (d.handle != 0 || d.format != 0), failWith .badParam),
    (surf && (lookup s d.handle).isNone, failWith .handleStale),
    (surf && y.owner != h.slice, failWith .notPermitted),
    (surf && (y.format != d.format || d.format == 0 || decide (y.width < d.srcX + d.srcW) || decide (y.height < d.srcY + d.srcH)), failWith .badParam),
    (!wholeFrame s d && !inLimits d d.srcW d.srcH, failWith .badParam),
    (!d.linebuf && !setLoaded s d.coeffSet, failWith .notReady),
    (x.owner.isNone && decide ((getSlice s h.slice).share.layers < slotsOwned s h.slice + 1), failWith .noResource)]

/-- LAYER_SET's effect (R162): the pending descriptor, and the slot claimed with a palette of zeros if it was empty (R138). -/
def actLayerSet (s : State) (h : Held) (_ : Cmd) : State :=
  let d := descOf h.pkt
  let k := slotKey d.output d.slot
  let claimed := (getSlot s k).owner.isNone
  let s := modSlot s k fun x =>
    { x with owner := some h.slice, pending := some d, cleared := false, pendPal := if claimed then [] else x.pendPal }
  finishNow s h .ok [fAt 16 0 8 h.slice, fAt 17 0 8 claimed.toNat]

/-- LAYER_SET (0x201). -/
def execLayerSet (c : Cmd) (s : State) : Host.Outcome State Fault Refusal :=
  .next (runPacket s c 0x201 (fun _ => true) checkLayerSet actLayerSet)

/-! LAYER_CLEAR (R184). -/

/-- Empty a slot: its layer leaves the state in force, and its claim ends; what is on the glass stays to the next output frame start (R174). -/
def freeSlot (x : Slot) : Slot :=
  { x with owner := none, pending := none, pendPal := [], cleared := false, took := false, active := {}, shed := false, mgrClear := none }

/-- Cancel what commit records hold of a slot (R184, R185). -/
def cancelSlot (s : State) (k : Nat) : State :=
  { s with comp := { s.comp with records := s.comp.records.map fun r => { r with layers := r.layers.filter fun l => l.key != k } } }

/-- Step 8 checks of LAYER_CLEAR (R184). -/
def checkLayerClear (s : State) (h : Held) (_ : Cmd) : Option Fail :=
  let p := h.pkt
  let x := getSlot s (slotKey (pf p 16 0 3) (pf p 17 0 3))
  firstFail [
    (!reservedZero p [(16, 0, 3), (17, 0, 3)], failWith .badParam),
    (x.owner.isNone, failWith .notReady),
    (h.slice != 0 && x.owner != some h.slice, failWith .notPermitted)]

/-- LAYER_CLEAR's effect (R184). -/
def actLayerClear (s : State) (h : Held) (_ : Cmd) : State :=
  let p := h.pkt
  let k := slotKey (pf p 16 0 3) (pf p 17 0 3)
  let x := getSlot s k
  if x.owner = some h.slice then
    if x.took then finishNow (modSlot s k fun x => { x with pending := none, pendPal := [], cleared := true }) h .ok []
    else finishNow (cancelSlot (modSlot s k freeSlot) k) h .ok [fAt 16 0 8 2]
  else
    let f := boundaryAfter (now s)
    finishNow (modSlot s k fun x => { x with mgrClear := some f }) h .ok [fAt 16 0 8 1, fAt 24 0 64 (boundaryBits f)]

/-- LAYER_CLEAR (0x202). -/
def execLayerClear (c : Cmd) (s : State) : Host.Outcome State Fault Refusal :=
  .next (runPacket s c 0x202 (fun _ => true) checkLayerClear actLayerClear)

/-- The slot keys of the device. -/
def allSlots : List Nat := List.range 64

/-- The manager's clears of the current boundary (R181, R184). -/
def applyClears (s : State) : State :=
  forEach allSlots (fun k s => match (getSlot s k).mgrClear with
    | some f => if frameDue s f then cancelSlot (modSlot s k freeSlot) k else s
    | none => s) s

/-! PALETTE_LOAD (R139). -/

/-- Step 8 checks of PALETTE_LOAD. -/
def checkPaletteLoad (s : State) (h : Held) (_ : Cmd) : Option Fail :=
  let p := h.pkt
  let first := pf p 18 0 8; let n := pf p 20 0 9
  let x := getSlot s (slotKey (pf p 16 0 3) (pf p 17 0 3))
  firstFail [
    (!reservedZero p [(16, 0, 3), (17, 0, 3), (18, 0, 8), (20, 0, 9), (22, 0, 1), (24, 0, 64)] || n == 0 ||
      decide (256 < first + n) || pf p 24 0 64 % 4 != 0, failWith .badParam),
    (x.owner.isNone, failWith .notReady),
    (x.owner != some h.slice, failWith .notPermitted)]

/-- PALETTE_LOAD's effect: every entry is read before any is written (R139). -/
def actPaletteLoad (s : State) (h : Held) (c : Cmd) : State :=
  let p := h.pkt
  let first := pf p 18 0 8; let n := pf p 20 0 9
  let k := slotKey (pf p 16 0 3) (pf p 17 0 3)
  match srcRead s h.slice engLock (pb p 22 0) c (pf p 24 0 64) (4 * n) with
  | (s, none) => finishNow s h .weirDenied []
  | (s, some l) =>
    let s := modSlot s k fun x =>
      { x with pendPal := (List.range n).foldl (fun t i => tset 0 t (first + i) (leAt l (4 * i) 4)) x.pendPal }
    finishNow s h .ok [fAt 16 0 16 n]

/-- PALETTE_LOAD (0x106). -/
def execPaletteLoad (c : Cmd) (s : State) : Host.Outcome State Fault Refusal :=
  .next (runPacket s c 0x106 (fun _ => true) checkPaletteLoad actPaletteLoad)

/-! COMMIT_GROUP_DEFINE (R171, R185). -/

/-- Outputs of a group. -/
def groupOutputs (s : State) (g : Nat) : List Nat := (List.range 8).filter fun o => groupOfOutput s o == g

/-- The commit group of an output once every change accepted has taken effect (R185). -/
def groupToBe (s : State) (o : Nat) : Nat :=
  s.comp.pendGroups.foldl (fun g c => if bitAt c.outputs o then c.group else g) (groupOfOutput s o)

/-- Outputs of a group once every change accepted has taken effect. -/
def outputsToBe (s : State) (g : Nat) : List Nat := (List.range 8).filter fun o => groupToBe s o == g

/-- A commit record is outstanding on a group. -/
def recordOn (s : State) (g : Nat) : Bool := s.comp.records.any fun r => r.group == g

/-- A pending change affects a group (R185). -/
def groupChanging (s : State) (g : Nat) : Bool :=
  s.comp.pendGroups.any fun c => c.group == g || (groupOutputs s g).any fun o => bitAt c.outputs o

/-- The outputs with stored timing of a list have one frame ratio (R171). -/
def sameRatio (s : State) (l : List Nat) : Bool :=
  match (l.filter fun o => (getOut s o).state != .unconfigured).map fun o => (getOut s o).cfg.ratio with
  | [] => true
  | r :: rest => rest.all (· == r)

/-- Step 8 checks of COMMIT_GROUP_DEFINE (R185); members are those that earlier changes leave. -/
def checkGroupDefine (s : State) (h : Held) (_ : Cmd) : Option Fail :=
  let p := h.pkt
  let g := pf p 16 0 3; let outs := pf p 17 0 8; let hold := pb p 18 0; let n := pf p 19 0 4
  let moved := (List.range 8).filter fun o => bitAt outs o
  firstFail [
    (!reservedZero p [(16, 0, 3), (17, 0, 8), (18, 0, 1), (19, 0, 4), (24, 0, 64)] || (hold && n == 0) || (!hold && n != 0), failWith .badParam),
    (!sameRatio s (outputsToBe s g ++ moved), failWith .badParam),
    (recordOn s g || moved.any fun o => recordOn s (groupOfOutput s o), failWith .notReady)]

/-- COMMIT_GROUP_DEFINE's commit point (R185). -/
def actGroupDefine (s : State) (h : Held) (_ : Cmd) : State :=
  let p := h.pkt
  let g := pf p 16 0 3; let outs := pf p 17 0 8
  let f := boundaryAfter (now s)
  let after := (List.range 8).foldl (fun n o => if bitAt outs o || groupToBe s o == g then n + 2 ^ o else n) 0
  let c : GroupChange := { group := g, outputs := outs, frame := f, new := { hold := pb p 18 0, holdFrames := pf p 19 0 4, placeMask := pf p 24 0 64 } }
  finish { s with comp := { s.comp with pendGroups := s.comp.pendGroups ++ [c] } } h .ok (boundaryBits f) (packFields [fAt 16 0 8 after])

/-- COMMIT_GROUP_DEFINE (0x204). -/
def execCommitGroupDefine (c : Cmd) (s : State) : Host.Outcome State Fault Refusal :=
  .next (runPacket s c 0x204 (fun _ => true) checkGroupDefine actGroupDefine)

/-- A group change takes effect: membership, settings, and the removal of layers it no longer admits (R185). -/
def applyGroup (c : GroupChange) (s : State) : State :=
  let s := { s with comp := { s.comp with
      groupOf := (List.range 8).map fun o => if bitAt c.outputs o then c.group else groupOfOutput s o
      groups := tset {} s.comp.groups c.group c.new } }
  forEach allSlots (fun k s =>
    match (getSlot s k).owner with
    | some w => if groupOfOutput s (k / 8) = c.group ∧ !admits c.new w then cancelSlot (modSlot s k freeSlot) k else s
    | none => s) s

/-- The group changes of the current boundary (R181). -/
def applyGroups (s : State) : State :=
  let due (c : GroupChange) : Bool := frameDue s c.frame
  let l := s.comp.pendGroups.filter due
  forEach l applyGroup { s with comp := { s.comp with pendGroups := s.comp.pendGroups.filter fun c => !due c } }

/-! BANK_ASSIGN (R167, R186). -/

/-- Bits set in a mask of outputs. -/
def popcount8 (m : Nat) : Nat := ((List.range 8).filter fun o => bitAt m o).length

/-- The bank of an output in normal service (R167): 0 Left, 1 Right. -/
def homeBank (s : State) (o : Nat) : Nat := if bitAt s.comp.left o then 0 else 1

/-- The pipe of an output in normal service: its place among its bank's outputs (R167). -/
def homePipe (s : State) (o : Nat) : Nat := ((List.range o).filter fun q => homeBank s q == homeBank s o).length

/-- A takeover, a rehearsal or a return hold-off is in force (R186). -/
def bankBusy (s : State) : Bool :=
  (getBank s 0).state != .normal || (getBank s 1).state != .normal || s.bank.rehearsal.isSome ||
  s.bank.carry.any fun c => c.arming.isSome || c.stranded || c.taken

/-- Step 8 checks of BANK_ASSIGN. -/
def checkBankAssign (s : State) (h : Held) (_ : Cmd) : Option Fail :=
  firstFail [
    (!reservedZero h.pkt [(16, 0, 8)] || popcount8 (pf h.pkt 16 0 8) != 4, failWith .badParam),
    (bankBusy s, failWith .notReady)]

/-- BANK_ASSIGN's effect (R186); a takeover that began since it was armed refuses it. -/
def actBankAssign (s : State) (h : Held) (_ : Cmd) : State :=
  let f := actBoundary s h
  if bankBusy s then finishNow s h .notReady []
  else finish { s with comp := { s.comp with pendLeft := some (pf h.pkt 16 0 8, f) } } h .ok (boundaryBits f)
    (packFields [fAt 16 0 8 s.comp.left])

/-- BANK_ASSIGN (0x307). -/
def execBankAssign (c : Cmd) (s : State) : Host.Outcome State Fault Refusal :=
  .next (runPacket s c 0x307 (fun _ => true) checkBankAssign actBankAssign)

/-- The split of the current boundary: each output that changes bank or pipe moves at its next output frame start (R186). -/
def applyLeft (s : State) : State :=
  match s.comp.pendLeft with
  | some (m, f) =>
    if !frameDue s f then s
    else
      let s := { s with comp := { s.comp with left := m, pendLeft := none } }
      if bankBusy s then s
      else forEach (List.range 8) (fun o s => modCarry s o fun c =>
        if c.bank = homeBank s o ∧ c.pipe = homePipe s o then { c with moveTo := none } else { c with moveTo := some (homeBank s o, homePipe s o) }) s
  | none => s

end Sys2Proof.Machine
end

