-- ==== Sys2Proof/Machine/Commits.lean ====
section
/-! DEFINITION. COMMIT, commit records, the ready test, GROUP_HOLD, superseding and shedding (R160, R170 to R178, R183, R187). -/
namespace Sys2Proof.Machine
open Sys2Proof

/-! The projected state (R173). -/

/-- The layer a snapshot puts in its slot. -/
def snapPlaced (slice : Nat) (cls : Cls) (l : SnapLayer) : Option Placed := l.desc.map fun d => ⟨l.key % 8, slice, cls, d, l.w, l.h⟩

/-- Put a snapshot's layers of an output over a list of layers. -/
def overlay (o slice : Nat) (cls : Cls) (ls : List SnapLayer) (st : List Placed) : List Placed :=
  (List.range 8).filterMap fun k =>
    match ls.find? fun l => l.key == slotKey o k with
    | some l => snapPlaced slice cls l
    | none => st.find? fun x => x.slot == k

/-- The layers of an output with every accepted record that `keep` admits applied over the layers in force. -/
def projected (s : State) (keep : CommitRecord → Bool) (o : Nat) : List Placed :=
  (s.comp.records.filter keep).foldl (fun st r => overlay o r.slice (getSlice s r.slice).cls r.layers st) (activeLayers s o)

/-- The layers as COMMIT sizes them: each at the size of its source's newest complete pass (R197). -/
def sized (s : State) (l : List Placed) : List Placed :=
  l.map fun x => { x with w := (sizeOf s x.desc).1, h := (sizeOf s x.desc).2 }

/-! COMMIT's checks. -/

/-- FLIP entries of a COMMIT: slot key and handle. -/
def flipsOf (p : Packet) : List (Nat × Nat) :=
  (List.range (min 8 (pf p 17 0 4))).map fun i => (pf p (24 + i) 0 6, pf p (32 + 4 * i) 0 32)

/-- Reserved bits of COMMIT: entries at and beyond FLIP_COUNT must be 0. -/
def commitReserved (p : Packet) : Bool :=
  let n := min 8 (pf p 17 0 4)
  !reservedZero p ([(16, 0, 3), (17, 0, 4)] ++ ((List.range n).map fun i => (24 + i, 0, 6)) ++
    (List.range n).map fun i => (32 + 4 * i, 0, 32))

/-- The status a FLIP entry fails with (R183); a slot may be named by an earlier entry too. -/
def flipFail (s : State) (slice g : Nat) (f : Nat × Nat) : Option Status :=
  let x := getSlot s f.1
  let y := latchedSurf s f.2
  if groupOfOutput s (f.1 / 8) ≠ g then some .badParam
  else if x.owner ≠ some slice then some .notPermitted
  else match x.pending with
    | none => some .badParam
    | some d =>
      if descKind s d ≠ .surface ∨ f.2 = 0 then some .badParam
      else if (lookup s f.2).isNone then some .handleStale
      else if y.owner ≠ slice ∨ y.format ≠ d.format ∨ y.width < d.srcX + d.srcW ∨ y.height < d.srcY + d.srcH then some .badParam
      else none

/-- The last handle a FLIP list gives a slot. -/
def flipped (fl : List (Nat × Nat)) (k : Nat) : Option Nat := (fl.reverse.find? fun f => f.1 == k).map Prod.snd

/-- The snapshot of a slice's pending state on a group, its FLIP list applied (R172, R173). -/
def snapshot (s : State) (slice g : Nat) (fl : List (Nat × Nat)) : List SnapLayer :=
  (List.range 64).filterMap fun k =>
    let x := getSlot s k
    if groupOfOutput s (k / 8) ≠ g ∨ x.owner ≠ some slice then none
    else match x.pending with
      | some d =>
        let d := { d with handle := (flipped fl k).getD d.handle }
        let (w, h) := sizeOf s d
        some { key := k, desc := some d, w, h }
      | none => if x.cleared then some { key := k } else none

/-- The target boundary of a COMMIT (R173); a WP_DUE that has passed acts at the next boundary (R43). -/
def commitTarget (s : State) (p : Packet) : Nat :=
  if pktTimed p ∧ !wpReached (now s) (wpOfBits (pktDue p)) then boundaryAtOrAfter (wpOfBits (pktDue p)) else boundaryAfter (now s)

/-- The slice's outstanding record of a group (R178). -/
def outstanding (s : State) (slice g : Nat) : Option CommitRecord := s.comp.records.find? fun r => r.slice == slice && r.group == g

/-- R160 on one output: the first changed layer of a class O or A slice above an overlapped class S layer: its slot and that layer's. -/
def orderFail (s : State) (slice o : Nat) (snap : List SnapLayer) (base new : List Placed) : Option (Nat × Nat) :=
  if (getSlice s slice).cls = .s then none
  else (List.range 8).findSome? fun k =>
    match new.find? fun x => x.slot == k && x.owner == slice with
    | none => none
    | some x =>
      if !(snap.any fun l => l.key == slotKey o k) || (base.find? fun y => y.slot == k).map Placed.desc == some x.desc then none
      else (new.find? fun y => decide (y.slot < k) && y.cls == .s &&
          regionsMeet (layerRegion s x.desc) (layerRegion s y.desc)).map fun y => (k, y.slot)

/-- A COMMIT's checks on the projected state, in the order of R173. -/
def projectedFail (s : State) (slice g : Nat) (snap : List SnapLayer) : Option Fail :=
  let keep (r : CommitRecord) : Bool := !(r.slice == slice && r.group == g)
  let base (o : Nat) : List Placed := sized s (projected s keep o)
  let new (o : Nat) : List Placed := overlay o slice (getSlice s slice).cls snap (base o)
  let outs := groupOutputs s g
  let t := s.time.timing
  let cost (o : Nat) : Nat := totalCost s t (new o)
  let stale := snap.any fun l => match l.desc with
    | some d => d.handle != 0 && (lookup s d.handle).isNone
    | none => false
  if stale then some (failWith .handleStale)
  else match outs.findSome? fun o => (orderFail s slice o snap (base o) (new o)).map fun f => (o, f) with
    | some (o, k, m) => some (.notPermitted, [fAt 16 0 8 o, fAt 17 0 8 k, fAt 18 0 8 m])
    | none =>
      match outs.find? fun o => decide (outLimit < cost o) with
      | some o => some (.budgetExceeded, [fAt 16 0 8 o, fAt 20 0 32 (cost o), fAt 24 0 32 outLimit])
      | none =>
        let bank (b : Nat) : Nat := (List.range 8).foldl (fun n o => if homeBank s o == b then n + cost o else n) 0
        match [0, 1].find? fun b => decide (bankLimit < bank b) with
        | some b => some (.budgetExceeded, [fAt 16 0 8 0xFF, fAt 17 0 8 b, fAt 20 0 32 (bank b), fAt 24 0 32 bankLimit])
        | none => match outs.findSome? fun o => (fitFail (new o)).map fun f => (o, f) with
          | some (o, k, n, a) => some (.linebufShort, [fAt 16 0 8 o, fAt 17 0 8 k, fAt 20 0 32 n, fAt 24 0 32 a])
          | none => none

/-- Step 8 checks of COMMIT (R173, R178, R183, R185). -/
def checkCommit (s : State) (h : Held) (_ : Cmd) : Option Fail :=
  let p := h.pkt
  let g := pf p 16 0 3
  if commitReserved p || decide (8 < pf p 17 0 4) then some (failWith .badParam)
  else match (flipsOf p).findSome? (flipFail s h.slice g) with
    | some st => some (failWith st)
    | none =>
      let other := match outstanding s h.slice g with
        | some r => r.target != commitTarget s p && !frameReached (now s) r.target
        | none => false
      if other || groupChanging s g then some (failWith .notReady)
      else match projectedFail s h.slice g (snapshot s h.slice g (flipsOf p)) with
        | some f => some f
        | none => if pktTimed p && decide (64 ≤ armedCount s h.slice) then some (failWith .noResource) else none

/-- COMMIT's commit point: the FLIP list writes the pending handles, and the snapshot becomes the group's record, superseding the slice's last one (R173, R178). -/
def actCommit (s : State) (h : Held) (_ : Cmd) : State :=
  let p := h.pkt
  let g := pf p 16 0 3
  let snap := snapshot s h.slice g (flipsOf p)
  let old := outstanding s h.slice g
  let owed := match old with
    | some r => r.superseded ++ (if r.applied then [] else [r.key])
    | none => []
  let rec_ : CommitRecord := { slice := h.slice, group := g, target := commitTarget s p, layers := snap, key := heldKey h, superseded := owed }
  let s := forEach (flipsOf p) (fun f s => modSlot s f.1 fun x => { x with pending := x.pending.map fun d => { d with handle := f.2 } }) s
  let s := { s with comp := { s.comp with
      records := (s.comp.records.filter fun r => !(r.slice == h.slice && r.group == g)) ++ [rec_] } }
  modHeld s (heldKey h) fun x =>
    if pktTimed p then { x with phase := .armed, due := wpOfBits (pktDue p) } else { x with phase := .committed }

/-- COMMIT (0x203): its record is made when a queue engine accepts it, also with WP_TIMED (R173). -/
def execCommit (c : Cmd) (s : State) : Host.Outcome State Fault Refusal :=
  .next (runDirect s c 0x203 (fun _ => true) checkCommit actCommit)

/-! The ready test (R176). -/

/-- A layer of a record at a boundary: none when ready, else the reason of EV_LAYER_NOT_READY. -/
def notReady (s : State) (l : SnapLayer) : Option Nat :=
  match l.desc with
  | none => none
  | some d =>
    if d.handle = 0 then none
    else
      let x := latchedSurf s d.handle
      if (getSlot s l.key).active.buf = some (d.handle, x.pass) then none
      else if l.cancelled || (lookup s d.handle).isNone then some 2
      else if passComplete x then none else some 1

/-- EV_LAYER_NOT_READY (R187). -/
def notReadyBits (k reason handle source pass frontier : Nat) (w : Wp) : Nat :=
  eventBits 0x0201 (wpBits w) [fAt 2 0 3 (k / 8), fAt 2 3 3 (k % 8), fAt 3 0 8 reason, fAt 4 0 32 handle, fAt 16 0 12 source,
    fAt 18 0 16 pass, fAt 20 0 32 frontier]

/-- Post EV_LAYER_NOT_READY for the layers of a record not ready, once per record and layer (R176). -/
def postNotReady (b : Wp) (r : CommitRecord) (s : State) : State :=
  forEach r.layers (fun l s => match notReady s l, l.desc with
    | some why, some d =>
      if l.posted then s
      else postEvent s r.slice (notReadyBits l.key why d.handle d.source (latchedSurf s d.handle).pass (latchedSurf s d.handle).frontier b)
    | _, _ => s) s

/-- The record's layers with what was posted noted. -/
def notePosted (s : State) (r : CommitRecord) : List SnapLayer :=
  r.layers.map fun l => if (notReady s l).isSome then { l with posted := true } else l

/-- Bits 8 x output + slot of the layers not ready. -/
def notReadyMask (s : State) (r : CommitRecord) : Nat :=
  r.layers.foldl (fun m l => if (notReady s l).isSome then m ||| 2 ^ l.key else m) 0

/-- The image a layer of a record puts on its slot. -/
def imageOf (s : State) (slice : Nat) (l : SnapLayer) (d : Desc) (latch : Bool) (pal : Tab Nat) : LayerImage :=
  { desc := some d, owner := slice, cls := (getSlice s slice).cls, latched := latch && d.handle != 0, pal, w := l.w, h := l.h
    buf := if latch && d.handle != 0 then some (d.handle, (latchedSurf s d.handle).pass) else none }

/-- The slot shows content that a not-ready layer leaves standing (R176): a device layer, or a surface that was latched. -/
def keepsOld (x : Slot) : Bool := match x.active.desc with
  | some d => d.handle == 0 || x.active.latched
  | none => false

/-- R221: note a cause that ends self-refresh at the next output frame start. -/
def refreshCause (s : State) (o cause : Nat) : State :=
  if (getOut s o).state = .selfRefresh ∧ (getOut s o).sr.cause = 0 then modOut s o fun x => { x with sr := { x.sr with cause } } else s

/-- One layer of a record takes effect: removed, latched, or left on its previous state; a slot that never latched takes its descriptor without content (R23, R176, R184). -/
def takeLayer (slice : Nat) (l : SnapLayer) (s : State) : State :=
  let x := getSlot s l.key
  if x.owner ≠ some slice then s
  else match l.desc with
    | none => modSlot s l.key freeSlot
    | some d =>
      if (notReady s l).isNone then
        modSlot s l.key fun x => { x with active := imageOf s slice l d true x.pendPal, took := true }
      else if keepsOld x then s
      else modSlot s l.key fun x => { x with active := imageOf s slice l d false x.pendPal, took := true }

/-- Sources of kind SURFACE that a record's ready layers latch a different buffer of (R175). -/
def latchedSources (s : State) (r : CommitRecord) : List Nat :=
  r.layers.filterMap fun l => match l.desc with
    | some d =>
      if d.handle ≠ 0 ∧ (getSlot s l.key).owner = some r.slice ∧ notReady s l = none ∧
          (getSlot s l.key).active.buf ≠ some (d.handle, (latchedSurf s d.handle).pass) then some d.source else none
    | none => none

/-- A record's layers take effect at boundary b; the layers not ready stay in the record (R176). Gives the sources that arrive too. -/
def applyRecord (b : Wp) (r : CommitRecord) (s : State) : State × List Nat :=
  let mask := notReadyMask s r
  let src := latchedSources s r
  let s := postNotReady b r s
  let left := (notePosted s r).filter fun l => (notReady s l).isSome && (getSlot s l.key).owner == some r.slice
  let s := forEach r.layers (takeLayer r.slice) s
  let s := forEach r.layers (fun l s => modOut (refreshCause s (l.key / 8) 2) (l.key / 8) fun x => { x with cardDone := true }) s
  let first := !r.applied
  let s := if first then forEach r.superseded (fun k s => finishKey s k .ok (wpBits b) [fAt 24 0 1 1]) s else s
  let s := if first then finishKey s r.key .ok (wpBits b) [fAt 16 0 64 mask, fAt 25 0 8 r.held] else s
  let s := if first && r.expired then
      postEvent s 0 (eventBits 0x0202 (wpBits b) [fAt 2 0 3 r.group, fAt 3 0 7 r.slice, fAt 4 0 4 r.held, fAt 16 0 64 mask])
    else s
  let upd (t : CommitRecord) : List CommitRecord :=
    if t.slice == r.slice && t.group == r.group then
      (if left.isEmpty then [] else [{ t with applied := true, layers := left, superseded := [] }])
    else [t]
  ({ s with comp := { s.comp with records := s.comp.records.flatMap upd } }, src)

/-- Hold a record under GROUP_HOLD for one more boundary (R177). -/
def holdRecord (b : Wp) (r : CommitRecord) (s : State) : State :=
  let s := postNotReady b r s
  let ls := notePosted s r
  let upd (t : CommitRecord) : CommitRecord :=
    if t.slice == r.slice && t.group == r.group then { t with held := t.held + 1, layers := ls } else t
  { s with comp := { s.comp with records := s.comp.records.map upd } }

/-- Mark a record whose HOLD_FRAMES have passed: it takes effect at this boundary, the row GROUP_HOLD_EXPIRY (R177). -/
def expireRecord (r : CommitRecord) (s : State) : State :=
  let upd (t : CommitRecord) : CommitRecord := if t.slice == r.slice && t.group == r.group then { t with expired := true } else t
  { s with comp := { s.comp with records := s.comp.records.map upd } }

/-- The arrivals of surface sources that a boundary latched: one for each source, origin the boundary (R9, R175). -/
def latchArrivals (b : Wp) (src : List Nat) (s : State) : State :=
  forEach (distinct src) (fun i s => if (getEntry s i).kind = .surface then arrive s i { origin := lineOf b } else s) s

/-- One record at boundary b (R176, R177). -/
def recordAt (b : Wp) (acc : State × List Nat) (r : CommitRecord) : State × List Nat :=
  let s := acc.1
  let g := getGroup s r.group
  if notReadyMask s r ≠ 0 ∧ g.hold ∧ !r.applied ∧ !r.expired then
    if r.held < g.holdFrames then (holdRecord b r s, acc.2) else (expireRecord r s, acc.2)
  else
    let (s, src) := applyRecord b r s
    (s, acc.2 ++ src)

/-- The commit records due at boundary b, in order of acceptance (R181). -/
def applyRecords (b : Wp) (s : State) : State :=
  let due := s.comp.records.filter fun r => frameDue s r.target
  let (s, src) := due.foldl (recordAt b) (s, [])
  latchArrivals b src s

/-! Shedding (R170). -/

/-- Layers of an output that shedding drops: class A first, then O, lowest slot first, until the rest fits. -/
def shedSlots (s : State) (o : Nat) : List Nat :=
  let ls := activeLayers s o
  let t := s.time.timing
  let pick (c : Cls) : List Placed := ls.filter fun x => x.cls == c
  ((pick .a ++ pick .o).foldl (fun (acc : Nat × List Nat) x =>
    if acc.1 ≤ outLimit then acc else (acc.1 - placedCost s t x, acc.2 ++ [x.slot])) (totalCost s t ls, [])).2

/-- Shed or return the layers of every output at boundary b, with an event for each newly shed layer (R170). -/
def applyShedding (b : Wp) (s : State) : State :=
  forEach (List.range 8) (fun o s =>
    let l := shedSlots s o
    forEach (List.range 8) (fun k s =>
      let key := slotKey o k
      let x := getSlot s key
      let on := l.contains k
      if x.shed == on then s
      else
        let s := modSlot s key fun x => { x with shed := on }
        if on then postEvent s x.active.owner (notReadyBits key 3 0 (x.active.desc.map Desc.source |>.getD 0) 0 0 b) else s) s) s

/-- GROUP_HOLD_EXPIRY: the slice's record that was held HOLD_FRAMES boundaries takes effect at the boundary that found it still not ready (R177). -/
def execGroupHoldExpiry (slice group : Nat) (s : State) : Host.Outcome State Fault Refusal :=
  .next (match outstanding s slice group with
    | some r =>
      if r.expired && !r.applied then
        let b : Wp := ⟨(now s).frame, 0, 0⟩
        let (s, src) := applyRecord b r s
        let s := latchArrivals b src s
        if s.comp.records.any fun r => r.expired && !r.applied then s else applyShedding b s
      else s
    | none => s)

end Sys2Proof.Machine
end

