-- ==== Sys2Proof/Machine/Pixels.lean ====
section
/-! DEFINITION. The pixel path of a Layer Pipe: fetch, widening, colour conversion, premultiplication, scaling, plane alpha and blending (R135 to R138, R163 to R166, R189 to R194). -/
namespace Sys2Proof.Machine
open Sys2Proof

/-- A pixel of four 12-bit components. -/
structure Px where
  a : Nat := 4095
  r : Nat := 0
  g : Nat := 0
  b : Nat := 0
  deriving DecidableEq, Repr

/-- R136: a component of n bits widened to 12 by replication. -/
def widen (n v : Nat) : Nat :=
  if n = 0 then 0 else
    let rep := (List.range 12).foldl (fun x _ => x * 2 ^ n + v) 0
    rep / 2 ^ (12 * n - 12) % 4096

/-- R164: x * y / 4095, rounded. -/
def mul12 (x y : Nat) : Nat := let t := x * y + 2048; (t + t / 4096) / 4096

/-- A 30-bit colour (R39) as an opaque pixel. -/
def colour30 (c : Nat) : Px := ⟨4095, widen 10 (bitsAt c 20 10), widen 10 (bitsAt c 10 10), widen 10 (bitsAt c 0 10)⟩

/-- R135: an ARGB8888 word. -/
def argb8888 (w : Nat) : Px :=
  ⟨widen 8 (bitsAt w 24 8), widen 8 (bitsAt w 16 8), widen 8 (bitsAt w 8 8), widen 8 (bitsAt w 0 8)⟩

/-- R163 stage 4: premultiplication under an alpha mode: 0 OPAQUE, 1 PREMULTIPLIED, 2 STRAIGHT by the descriptor's codes. -/
def premultiply (mode : Nat) (p : Px) : Px :=
  if mode = 0 then { p with a := 4095 }
  else if mode = 1 then p
  else { p with r := mul12 p.r p.a, g := mul12 p.g p.a, b := mul12 p.b p.a }

/-- R165: plane alpha. -/
def planeAlpha (ga : Nat) (p : Px) : Px :=
  let g := widen 8 ga
  ⟨mul12 p.a g, mul12 p.r g, mul12 p.g g, mul12 p.b g⟩

/-- R164: one premultiplied channel over the result below. -/
def blendCh (c cs as : Nat) : Nat := min 4095 (cs + mul12 c (4095 - as))

/-- A premultiplied pixel over the result below. -/
def blend (under p : Px) : Px := ⟨4095, blendCh under.r p.r p.a, blendCh under.g p.g p.a, blendCh under.b p.b p.a⟩

/-! One source line (R163 stages 1 to 4). -/

/-- A chroma sample (Cb, Cr) of an NV12 or P010 chroma line, widened; columns beyond the picture take the edge (R137). -/
def chromaAt (f : Nat) (line : List Byte) (pairs k : Nat) : Nat × Nat :=
  let k := min k (pairs - 1)
  if f = 0x21 then (widen 10 (leAt line (4 * k) 2 / 64), widen 10 (leAt line (4 * k + 2) 2 / 64))
  else (widen 8 (byteAt line (2 * k)), widen 8 (byteAt line (2 * k + 1)))

/-- Sums with eight weights of the chroma at column x of a luma line: three quarters of the near line, one of the far (R137). -/
def chroma8 (f : Nat) (near far : List Byte) (w x : Nat) : Nat × Nat :=
  let n := w / 2
  let v (k : Nat) : Nat × Nat :=
    let a := chromaAt f near n k; let b := chromaAt f far n k
    (3 * a.1 + b.1, 3 * a.2 + b.2)
  let l := v (x / 2); let r := if x % 2 = 0 then v (x / 2) else v (x / 2 + 1)
  (l.1 + r.1, l.2 + r.2)

/-- The RGB pixel of a YCbCr sample. -/
def yccPx (d : Desc) (y : Nat) (c : Nat × Nat) : Px :=
  let v := (Config.yccToRgb d.csc d.fullRange y c.1 c.2).toNat
  ⟨4095, bitsAt v 24 12, bitsAt v 12 12, bitsAt v 0 12⟩

/-- Where a Layer Pipe reads a line of a buffer: address and length, the slot of a compressed tile row. -/
def lineRange (x : Surface) (plane y : Nat) : Nat × Nat :=
  if formatCompressed x.format then (x.base + dataOffset x.width x.height + (if plane = 1 then y / 2 else y / 4) * x.pitch, x.pitch)
  else (x.base + (if plane = 1 then x.height + y else y) * x.pitch, lineSize x.format x.width)

/-- The bytes a Layer Pipe fetches for a line on behalf of a layer's owner: zeros where a tile is discarded, a unit poisoned or refused (R108, R150, R371). -/
def fetchLine (s : State) (owner : Nat) (x : Surface) (plane y : Nat) : List Byte :=
  let l := (readLine s x plane y).1
  let (a, n) := lineRange x plane y
  if weirAllows s owner engLayer false a n then l
  else if formatCompressed x.format then List.replicate l.length 0
  else (List.range l.length).map fun i => if (weirDecide s owner engLayer false (a + i)).isNone then l.getD i 0 else 0

/-- The indexed, RGB or packed pixel at column c of a line. -/
def packedPx (d : Desc) (pal : Tab Nat) (f : Nat) (line : List Byte) (w c : Nat) : Px :=
  if f = 0x01 then argb8888 (tget 0 pal (bitsAt (byteAt line (c / 8)) (c % 8) 1))
  else if f = 0x02 then argb8888 (tget 0 pal (bitsAt (byteAt line (c / 4)) (c % 4 * 2) 2))
  else if f = 0x03 then argb8888 (tget 0 pal (bitsAt (byteAt line (c / 2)) (c % 2 * 4) 4))
  else if f = 0x04 then argb8888 (tget 0 pal (byteAt line c))
  else if f = 0x10 then
    let v := leAt line (2 * c) 2
    ⟨4095, widen 5 (bitsAt v 11 5), widen 6 (bitsAt v 5 6), widen 5 (bitsAt v 0 5)⟩
  else if f = 0x11 then argb8888 (leAt line (4 * c) 4)
  else if f = 0x12 then { argb8888 (leAt line (4 * c) 4) with a := 4095 }
  else if f = 0x13 then
    let v := leAt line (4 * c) 4
    ⟨widen 2 (bitsAt v 30 2), widen 10 (bitsAt v 20 10), widen 10 (bitsAt v 10 10), widen 10 (bitsAt v 0 10)⟩
  else
    let pair (k : Nat) : Nat × Nat :=
      let v := leAt line (4 * min k (w / 2 - 1)) 4
      (widen 8 (bitsAt v 8 8), widen 8 (bitsAt v 24 8))
    let l := pair (c / 2); let r := if c % 2 = 0 then l else pair (c / 2 + 1)
    yccPx d (widen 8 (byteAt line (2 * c))) (4 * (l.1 + r.1), 4 * (l.2 + r.2))

/-- The premultiplied pixels of columns x0 to x0 + n - 1 of source line y of a buffer (R163 stages 1 to 4). -/
def sourceRow (s : State) (owner : Nat) (x : Surface) (d : Desc) (pal : Tab Nat) (x0 n y : Nat) : List Px :=
  let f := formatPlain x.format
  let line := fetchLine s owner x 0 y
  if formatTwoPlane f then
    let c := y / 2
    let far := if y % 2 = 0 then c - 1 else min (c + 1) (x.height / 2 - 1)
    let nl := fetchLine s owner x 1 c; let fl := fetchLine s owner x 1 far
    (List.range n).map fun i =>
      let k := x0 + i
      let lum := if f = 0x21 then widen 10 (leAt line (2 * k) 2 / 64) else widen 8 (byteAt line k)
      premultiply d.alphaMode (yccPx d lum (chroma8 f nl fl x.width k))
  else (List.range n).map fun i => premultiply d.alphaMode (packedPx d pal f line x.width (x0 + i))

/-! Scaling (R189 to R195). -/

/-- The source samples of one output sample with their weights; `den` 0 is the polyphase rounding, otherwise the sum is divided by it. -/
structure Taps where
  items : List (Int × Int) := []
  den : Nat := 0
  deriving DecidableEq, Repr

/-- R190: source sample and phase of output sample x. -/
def srcPos (x src dst : Nat) : Int × Nat :=
  let n : Int := ((2 * x + 1) * src : Nat) - (dst : Int)
  let d : Int := 2 * (dst : Int)
  (n / d, ((n % d) * 64 / d).toNat)

/-- R191: coefficients with dropped outer taps folded into the outermost in use. -/
def foldTaps (n : Nat) (c : List Int) : List Int :=
  if n = 2 then [c.getD 0 0 + c.getD 1 0 + c.getD 2 0, c.getD 3 0 + c.getD 4 0 + c.getD 5 0]
  else if n = 4 then [c.getD 0 0 + c.getD 1 0, c.getD 2 0, c.getD 3 0, c.getD 4 0 + c.getD 5 0]
  else c

/-- Items from consecutive samples and weights. -/
def tapItems (first : Int) (w : List Int) : List (Int × Int) := (List.range w.length).map fun (k : Nat) => (first + (k : Int), w.getD k 0)

/-- R194: the weights of the box or triangle mean of output sample y. -/
def meanTaps (triangle : Bool) (y src dst : Nat) : Taps :=
  if triangle then
    let mid : Int := ((2 * y + 1) * src : Nat)
    let lo : Int := (mid - 2 * (src : Int) - (dst : Int)) / (2 * (dst : Int))
    let n := 2 * src / dst + 3
    let w (i : Int) : Int := max 0 (2 * (src : Int) - (((mid - (2 * i + 1) * (dst : Int)).natAbs : Nat) : Int))
    let items : List (Int × Int) := ((List.range n).map fun (k : Nat) => (lo + (k : Int), w (lo + (k : Int)))).filter fun p => decide (p.2 ≠ 0)
    ⟨items, (items.foldl (fun (a : Int) p => a + p.2) 0).toNat⟩
  else
    let a := y * src; let b := (y + 1) * src
    let lo := a / dst
    let n := (b + dst - 1) / dst - lo
    ⟨(List.range n).map fun (k : Nat) =>
      let i := lo + k
      ((i : Int), ((min b ((i + 1) * dst) - max a (i * dst) : Nat) : Int)), src⟩

/-- The vertical taps of output line y of a layer at a source height; bypassed at equal heights (R189). -/
def vTapsOf (s : State) (d : Desc) (srcH y : Nat) : Taps :=
  if srcH = d.dstH then ⟨[((y : Int), 1)], 1⟩
  else if d.linebuf then meanTaps d.triangle y srcH d.dstH
  else
    let (i, p) := srcPos y srcH d.dstH
    let c := (tget {} (getOut s d.output).coeffs d.coeffSet).v.getD p []
    let first : Int := if d.vTaps = 2 then i else if d.vTaps = 4 then i - 1 else i - 2
    ⟨tapItems first (foldTaps d.vTaps c), 0⟩

/-- The horizontal taps of output column x of a layer at a source width. -/
def hTapsOf (s : State) (d : Desc) (srcW x : Nat) : Taps :=
  if srcW = d.dstW then ⟨[((x : Int), 1)], 1⟩
  else if d.linebuf then meanTaps d.triangle x srcW d.dstW
  else
    let (i, p) := srcPos x srcW d.dstW
    ⟨tapItems (i - 3) ((tget {} (getOut s d.output).coeffs d.coeffSet).h.getD p []), 0⟩

/-- R191, R194: a sample outside 0 to n - 1 is the nearest inside. -/
def clampTo (n : Nat) (i : Int) : Nat := min i.toNat (n - 1)

/-- The source lines the taps touch, after the edge replacement: lowest and highest (R199). -/
def tapSpan (n : Nat) (t : Taps) : Nat × Nat :=
  let l := t.items.map fun p => clampTo n p.1
  (l.foldl min (n - 1), l.foldl max 0)

/-- One component of a weighted sum, rounded and clamped. -/
def weigh (den : Nat) (l : List (Int × Nat)) : Nat :=
  let v := l.foldl (fun a p => a + p.1 * (p.2 : Int)) 0
  if den = 0 then min 4095 ((v + 128) / 256).toNat else ((v + ((den / 2 : Nat) : Int)) / (den : Int)).toNat

/-- The taps applied to samples. -/
def applyTaps (t : Taps) (n : Nat) (get : Nat → Px) : Px :=
  let l := t.items.map fun p => (p.2, get (clampTo n p.1))
  ⟨weigh t.den (l.map fun p => (p.1, p.2.a)), weigh t.den (l.map fun p => (p.1, p.2.r)), weigh t.den (l.map fun p => (p.1, p.2.g)),
   weigh t.den (l.map fun p => (p.1, p.2.b))⟩

/-- R226: after a takeover, a line of the span that the stores do not hold yet is replaced by the nearest they hold; they fill from the bottom upward. -/
def replicate (repl : Option Nat) (span : Nat × Nat) (i : Nat) : Nat :=
  match repl with
  | none => i
  | some k =>
    let n := span.2 - span.1 + 1
    max i (span.2 - min (n - 1) (Config.storeFill k n))

/-- A buffer seen through a layer: the buffer, the rectangle of it that is shown. -/
structure Fetch where
  surf : Surface
  x : Nat
  y : Nat
  w : Nat
  h : Nat
  deriving DecidableEq, Repr

/-- Output line y of a layer (counted from its destination's top), columns x0 to x0 + n - 1, after stage 6 (R163). -/
def layerRow (s : State) (owner : Nat) (d : Desc) (pal : Tab Nat) (f : Fetch) (repl : Option Nat) (y x0 n : Nat) : List Px :=
  let t := vTapsOf s d f.h y
  let span := tapSpan f.h t
  let bypass := f.h == d.dstH
  let line (i : Nat) : Nat := if bypass then i else replicate repl span i
  let rows := (distinct (t.items.map fun p => line (clampTo f.h p.1))).map fun i => (i, sourceRow s owner f.surf d pal f.x f.w (f.y + i))
  let row (i : Nat) : List Px := (assoc rows i).getD []
  let vert := (List.range f.w).map fun c => applyTaps t f.h fun i => (row (line i)).getD c {}
  (List.range n).map fun k => planeAlpha d.planeAlpha (applyTaps (hTapsOf s d f.w (x0 + k)) f.w fun c => vert.getD c {})

/-! Reduction to the link (R203) and the words of R212. -/

/-- R203: a 12-bit component at b bits. -/
def reduce (b c : Nat) : Nat := min (2 ^ b - 1) ((c + 2 ^ (11 - b)) / 2 ^ (12 - b))

/-- R212: a pixel as the word that enters a check value. -/
def pixelWord (bpc : Nat) (p : Px) : Nat := reduce bpc p.r * 2 ^ 20 + reduce bpc p.g * 2 ^ 10 + reduce bpc p.b

/-- The CRC-32 register after pixel words (R212). -/
def crcWords (c : Nat) (l : List Nat) : Nat := crcRef 0xEDB88320 c (l.flatMap fun w => bytesLE 4 w)

end Sys2Proof.Machine
end

