-- ==== Sys2Proof/Machine/Scan.lean ====
section
/-! DEFINITION. Output frames and lines: pass decisions, treatments, composition, layer maps and self-refresh (R19 to R33, R163 to R166, R179, R180, R182, R197 to R204, R220, R221). -/
namespace Sys2Proof.Machine
open Sys2Proof

/-! The frame of an output (R47). -/

/-- The number of the output frame that WP lies in. -/
def outFrameNow (s : State) (c : OutCfg) (w : Wp) : Nat :=
  let b := addTicks (wallLines s) w (-(c.offset : Int))
  if c.ratio = 1 then (2 * b.frame + (if frameTicks s / 2 ≤ b.line * 65536 + b.tick then 1 else 0)) % 2 ^ 33
  else if c.ratio = 2 then b.frame / 2 else b.frame

/-- The sequencer schedules and the pipe composes (R201). -/
def scheduling (x : OutputSt) : Bool :=
  x.state == .training || x.state == .running || x.state == .linkDown || x.state == .selfRefresh

/-! Pass decisions (R179, R197 to R199). -/

/-- The source size a layer has at a pass: the pass's own for a whole-frame layer (R197). -/
def sizeAt (s : State) (d : Desc) (x : Surface) : Nat × Nat := if wholeFrame s d then passSize x else (d.srcW, d.srcH)

/-- The highest source line of the buffer that output line y of a layer needs (R199). -/
def needLine (s : State) (d : Desc) (x : Surface) (y : Nat) : Nat :=
  let h := (sizeAt s d x).2
  let top := if wholeFrame s d then 0 else d.srcY
  min (top + (tapSpan h (vTapsOf s d h y)).2) ((passSize x).2 - 1)

/-- The newest of a source's passes for which `holds` is true, none begun before the floor: surface index and pass. -/
def newestPassOf (s : State) (src floor : Nat) (holds : Surface → Bool) : Option (Nat × Nat) :=
  let ok (e : Nat × Surface) : Bool := e.2.pass != 0 && !e.2.rebuilding && decide (floor ≤ e.2.began) && holds e.2
  (newestOf ((sourceBuffers s src).filter ok)).map fun e => (e.1, e.2.pass)

/-- R179: the newest pass that holds every line, begun no earlier than the newest one used in the frame; a whole-frame layer reads only passes of the frame's size (R198). -/
def choosePass (s : State) (d : Desc) (y : Nat) (size : Nat × Nat) (floor : Nat) : Option (Nat × Nat) :=
  newestPassOf s d.source floor fun x =>
    decide (needLine s d x y < x.frontier) && (!wholeFrame s d || passSize x == size)

/-- Row of a layer's destination that an output line shows. -/
def destRow (d : Desc) (j : Nat) : Nat := ((j : Int) - d.dstY).toNat

/-- An output line lies in a layer's region. -/
def inRegionRow (r : Region) (j : Nat) : Bool := r.w != 0 && r.y ≤ j && decide (j < r.y + r.h)

/-- R198: the pass chosen for output line 0 of the next frame, of any size: ready for what line 0 shows of the layer. -/
def chooseFirst (s : State) (d : Desc) (r : Region) : Option (Nat × Nat) :=
  newestPassOf s d.source 0 fun x => !inRegionRow r 0 || decide (needLine s d x (destRow d 0) < x.frontier)

/-- An absolute source rectangle leaves the buffer of a pass (R180). -/
def leavesBuffer (s : State) (d : Desc) (x : Surface) : Bool :=
  !wholeFrame s d && decide ((passSize x).1 < d.srcX + d.srcW ∨ (passSize x).2 < d.srcY + d.srcH)

/-- R180: a layer whose rectangle leaves the buffer of the pass decided is reported at that line start, once until it fits again. -/
def noteOutside (s : State) (key : Nat) (img : LayerImage) (p : Option (Nat × Nat)) : State :=
  match img.desc, p with
  | some d, some (i, _) =>
    let x := getSurf s i
    let bad := leavesBuffer s d x
    let s := if bad && !(getSlot s key).outside then postEvent s img.owner (notReadyBits key 4 0 d.source x.pass x.frontier (now s)) else s
    modSlot s key fun x => { x with outside := bad }
  | _, _ => s

/-- The pass of a device layer for an output line of this frame is decided now (R179, R180). -/
def decideLine (s : State) (key y : Nat) (d : Desc) : State :=
  let x := getSlot s key
  let p := choosePass s d (destRow d y) (x.frameW, x.frameH) x.usedBegan
  noteOutside (modSlot s key fun x => { x with
    decided := x.decided ++ [(y, p)]
    usedBegan := match p with | some (i, _) => (getSurf s i).began | none => x.usedBegan
    lastPass := match p with | some p => some p | none => x.lastPass }) key x.shown p

/-- The size that a whole-frame layer begins the next frame with: that of the pass chosen for line 0, else the one it has (R198). -/
def nextSize (s : State) (x : Slot) : Nat × Nat := match x.sizeNext with
  | some (i, _) => passSize (getSurf s i)
  | none => (x.frameW, x.frameH)

/-- The pass of a device layer for an output line of the next frame is decided now. -/
def decideNext (s : State) (key y : Nat) (d : Desc) : State :=
  let x := getSlot s key
  let p := choosePass s d (destRow d y) (nextSize s x) x.nextBegan
  noteOutside (modSlot s key fun x => { x with
    decNext := x.decNext ++ [(y, p)], decFor := x.active.desc
    nextBegan := match p with | some (i, _) => (getSurf s i).began | none => x.nextBegan }) key x.active p

/-- Output line j starts: the pass for the line N_LEAD lines ahead is decided, in this frame or the next, and for line 0 of the next frame the size (R179, R198). -/
def decideSlot (s : State) (o j k : Nat) : State :=
  let key := slotKey o k
  let x := getSlot s key
  let c := (getOut s o).cfg
  let lead (img : LayerImage) : Nat := match img.desc with
    | some d => d.nLead
    | none => 1
  let y := j + lead x.shown
  let z := j + lead x.active
  if y < c.vActive then
    match x.shown.desc with
    | some d => if isDevice s d && inRegionRow (regionOf c d) y then decideLine s key y d else s
    | none => s
  else if c.vOut ≤ z then
    match x.active.desc with
    | some d =>
      if !isDevice s d then s
      else
        let r := regionOf c d
        let s := if z = c.vOut then modSlot s key fun x => { x with sizeNext := chooseFirst s d r, sizeWp := now s, decFor := x.active.desc } else s
        if inRegionRow r (z - c.vOut) then decideNext s key (z - c.vOut) d else s
    | none => s
  else s

/-! Content and treatment of a layer. -/

/-- The state an entry has on an output line that starts now: a state whose deciding WP is this very line start does not apply yet (R19). -/
def lineState (s : State) (e : LedgerEntry) : LState :=
  if (now s).tick = 0 ∧ e.since = some (lineOf (now s)) then e.prev else e.state

/-- A state that takes a treatment: not LIVE and not NOT_TRACKED (R21, R23). -/
def treated (x : LState) : Bool := x != .live && x != .notTracked

/-- A latched SUBSTITUTE rectangle of the output names the source (R215). -/
def substituted (s : State) (o source : Nat) : Bool :=
  (getOut s o).actions.contains (1, source)

/-- A latched BLANK rectangle blacks out the output (R215). -/
def blanked (s : State) (o : Nat) : Bool :=
  (getOut s o).actions.any fun a => a.1 == 2

/-- The buffer a surface layer reads: the one it latched, at that pass (R118). -/
def latchedFetch (s : State) (d : Desc) (b : Nat × Nat) : Option Fetch :=
  let x := latchedSurf s b.1
  if x.pass = b.2 && !x.rebuilding then some ⟨x, d.srcX, d.srcY, d.srcW, d.srcH⟩ else none

/-- The buffer that a layer reads for output line j, if any (R23, R118, R176, R179, R180, R198). -/
def contentOf (s : State) (x : Slot) (d : Desc) (j : Nat) : Option Fetch :=
  if isDevice s d then
    match (assoc x.decided j).join with
    | some (i, p) =>
      let y := getSurf s i
      if y.pass ≠ p ∨ x.unfitLayer then none
      else if wholeFrame s d then some ⟨y, 0, 0, (passSize y).1, (passSize y).2⟩
      else if leavesBuffer s d y then none
      else some ⟨y, d.srcX, d.srcY, d.srcW, d.srcH⟩
    | none => none
  else match x.shown.buf with
    | some b => latchedFetch s d b
    | none => none

/-- The buffer of a layer whose latched pass a rebuild of the ledger entry has lost: what it would read for output line j (R115). -/
def lostContent (s : State) (x : Slot) (d : Desc) (j : Nat) : Option Fetch :=
  let at_ (y : Surface) (pass : Nat) : Option Fetch :=
    if y.rebuilding || (y.pass != pass && y.rebuiltPass.isSome) then
      (if wholeFrame s d then some ⟨y, 0, 0, (passSize y).1, (passSize y).2⟩ else some ⟨y, d.srcX, d.srcY, d.srcW, d.srcH⟩)
    else none
  if isDevice s d then
    match (assoc x.decided j).join with
    | some (i, p) => if x.unfitLayer then none else at_ (getSurf s i) p
    | none => none
  else match x.shown.buf with
    | some b => at_ (latchedSurf s b.1) b.2
    | none => none

/-- The state and AGE_BASE_WP stored for the row group that holds a source line (R33); none for a picture without row groups. -/
def rowGroup (x : Surface) (y : Nat) : Option (LState × Option LineWp) :=
  if x.rowStates.isEmpty then none
  else some (x.rowStates.foldl (fun acc g => if g.1 ≤ y then (g.2.1, g.2.2) else acc) (.live, none))

/-- An entry's state and that of the row group of a source line: the higher-ranked of the two; the entry's alone where there is no group (R14, R33). -/
def withRow (st : LState) (x : Surface) (y : Nat) : LState := match rowGroup x y with
  | some g => stateMax st g.1
  | none => st

/-- The source sample at the centre of an output sample. -/
def centre (k src dst : Nat) : Nat := min ((2 * k + 1) * src / (2 * dst)) (src - 1)

/-- Why the tile area (c, r) of a buffer cannot be shown: 0 check, 1 code, 2 length, 3 index for a discarded block, 4 for poison, 5 for an access refused (R108, R148, R150, R371). -/
def tileBad (s : State) (owner : Nat) (x : Surface) (c r : Nat) : Option Nat :=
  let refused (a n : Nat) : Bool := !weirAllows s owner engLayer false a n
  if formatCompressed x.format then
    if refused (lineRange x 0 (4 * r)).1 x.pitch || refused (x.base + r * recordSize x.width) (recordSize x.width) then some 5 else
    match readTile s x c r with
    | .ok _ => none
    | .error .check => some 0
    | .error .code => some 1
    | .error .length => some 2
    | .error .index => some 3
  else
    let n := lineSize x.format 64
    let at_ (row : Nat) (a n : Nat) : Bool := rangePoisoned s (x.base + row * x.pitch + a) n
    let no (row : Nat) (a n : Nat) : Bool := refused (x.base + row * x.pitch + a) n
    let luma := (List.range 4).any fun i => decide (4 * r + i < x.height) && at_ (4 * r + i) (n * c) n
    let m := if x.format = 0x21 then 2 else 1
    let chroma := formatTwoPlane x.format && (List.range 4).any fun i =>
      decide (1 ≤ 2 * r + i ∧ 2 * r + i - 1 < x.height / 2) && at_ (x.height + 2 * r + i - 1) (64 * m * c) (66 * m)
    let lumaNo := (List.range 4).any fun i => decide (4 * r + i < x.height) && no (4 * r + i) (n * c) n
    let chromaNo := formatTwoPlane x.format && (List.range 4).any fun i =>
      decide (1 ≤ 2 * r + i ∧ 2 * r + i - 1 < x.height / 2) && no (x.height + 2 * r + i - 1) (64 * m * c) (66 * m)
    if lumaNo || chromaNo then some 5 else if luma || chroma then some 4 else none

/-- What a Layer Pipe draws of one layer on one line. -/
structure Draw where
  key : Nat
  desc : Desc
  region : Region
  owner : Nat
  cls : Cls
  /-- Row of the destination. -/
  row : Nat
  content : Option Fetch
  /-- What the pass it latched held before a rebuild lost its lines (R115). -/
  lost : Option Fetch
  shed : Bool
  /-- The whole row takes the treatment. -/
  treat : Bool
  /-- The state shown, and the source rows whose group is treated. -/
  st : LState
  check : Bool
  deriving DecidableEq, Repr

/-- The layer of a slot on output line j. -/
def drawOf (s : State) (o k j : Nat) : Option Draw :=
  let key := slotKey o k
  let x := getSlot s key
  match x.shown.desc with
  | none => none
  | some d =>
    let r := regionOf (getOut s o).cfg d
    if !inRegionRow r j then none
    else
      let row := destRow d j
      let f := contentOf s x d j
      let e := getEntry s d.source
      let own := if x.shown.gone then .withdrawn else lineState s e
      let st := match f with
        | some f => withRow own f.surf (f.y + centre row f.h d.dstH)
        | none => own
      let chk := substituted s o d.source
      some { key, desc := d, region := r, owner := x.shown.owner, cls := x.shown.cls, row, content := f, lost := lostContent s x d j, shed := x.shed
             treat := f.isNone || treated st || chk, st, check := chk }

/-- The layers of an output in composition order (R157). -/
def shownLayers (s : State) (o : Nat) : List Nat :=
  let l := (List.range 8).filter fun k => (getSlot s (slotKey o k)).shown.desc.isSome
  let pick (c : Cls) : List Nat := l.filter fun k => (getSlot s (slotKey o k)).shown.cls == c
  pick .a ++ pick .o ++ pick .s

/-- The treatment a layer takes: HATCH for class S; SUBSTITUTE with an empty card slot is HOLD (R26, R27). -/
def treatmentOf (s : State) (cls : Cls) (e : LedgerEntry) : Treatment :=
  if cls = .s then .hatch
  else if e.treatment = .substitute ∧ tget none s.ledger.cards e.card = none then .hold
  else e.treatment

/-- The name of a state as the counter shows it, in character codes (R25). -/
def stateName : LState → List Nat
  | .unproven => [85, 78, 80, 82, 79, 86, 69, 78] | .live => [76, 73, 86, 69] | .late => [76, 65, 84, 69]
  | .stale => [83, 84, 65, 76, 69] | .frozen => [70, 82, 79, 90, 69, 78] | .concealed => [67, 79, 78, 67, 69, 65, 76, 69, 68]
  | .degraded => [68, 69, 71, 82, 65, 68, 69, 68] | .unfit => [85, 78, 70, 73, 84]
  | .withdrawn => [87, 73, 84, 72, 68, 82, 65, 87, 78] | .notTracked => [78, 79, 84, 32, 84, 82, 65, 67, 75, 69, 68]

/-- Decimal digits of a number below 10,000. -/
def digits (n : Nat) : List Nat :=
  if n < 10 then [48 + n] else if n < 100 then [48 + n / 10, 48 + n % 10]
  else if n < 1000 then [48 + n / 100, 48 + n / 10 % 10, 48 + n % 10]
  else [48 + n / 1000 % 10, 48 + n / 100 % 10, 48 + n / 10 % 10, 48 + n % 10]

/-- The counter's text (R25, R215). -/
def counterText (check : Bool) (c : LState × Option Nat) : List Nat :=
  (if check then [67, 72, 69, 67, 75] else stateName c.1) ++ [32] ++
  match c.2 with
  | none => [45, 45, 45, 45]
  | some a => if 9999 < a then [57, 57, 57, 57, 43, 115] else digits a ++ [115]

/-- Cell height that fits, from GLYPH_SIZE downward; class S starts at 32 or above (R25, R27). -/
def cellHeight (g : Nat) (classS : Bool) (chars : Nat) (r : Region) : Option Nat :=
  let start := if g = 2 then 64 else if g = 1 ∨ classS then 32 else 16
  ([64, 32, 16].filter fun h => decide (h ≤ start)).find? fun h => decide (chars * (h / 2) + 16 ≤ r.w ∧ h + 16 ≤ r.h)

/-- The counter's pixel at a place of the region, where its box covers it (R25). -/
def counterPx (text : List Nat) (h : Nat) (r : Region) (x y : Nat) : Option Px :=
  let bx := r.x + 8; let by_ := r.y + 8
  if bx ≤ x ∧ x < bx + text.length * (h / 2) ∧ by_ ≤ y ∧ y < by_ + h then
    let i := (x - bx) / (h / 2)
    some (if Config.glyph h (text.getD i 32) ((x - bx) % (h / 2)) (y - by_) then ⟨4095, 4095, 4095, 4095⟩ else {})
  else none

/-- The card's pixel over the hold colour at a place of the region (R26); a line that the card's latched pass does not hold shows the hold colour (R118). -/
def cardPx (s : State) (owner : Nat) (e : LedgerEntry) (hold : Px) (r : Region) (x y : Nat) : Px :=
  match tget none s.ledger.cards e.card with
  | none => hold
  | some (h, pass) =>
    let c := latchedSurf s h
    let left : Int := (r.x : Int) + ((r.w : Int) - (c.width : Int)) / 2
    let top : Int := (r.y : Int) + ((r.h : Int) - (c.height : Int)) / 2
    let cx := (x : Int) - left; let cy := (y : Int) - top
    if cx < 0 ∨ (c.width : Int) ≤ cx ∨ cy < 0 ∨ (c.height : Int) ≤ cy ∨ c.pass ≠ pass ∨ c.rebuilding ∨ c.frontier ≤ cy.toNat then hold
    else
      let line := fetchLine s owner c 0 cy.toNat
      let i := cx.toNat
      let f := formatPlain c.format
      let p : Px :=
        if f = 0x04 then (let v := widen 8 (byteAt line i); ⟨4095, v, v, v⟩)
        else premultiply (if f = 0x11 then 2 else 0) (packedPx {} [] f line c.width i)
      blend hold p

/-- The treatment at one pixel over what lies there, `own` being the layer's result there (R23 to R26, R166). -/
def treatPx (s : State) (owner : Nat) (t : Treatment) (classS : Bool) (e : LedgerEntry) (text : Option (List Nat)) (r : Region) (x y : Nat) (own : Px) : Px :=
  let hold := colour30 (tget 0x20080200 s.ledger.holdColours e.holdColour)
  let box : Option Px := match text with
    | none => none
    | some l => match cellHeight e.glyph classS l.length r with
      | some h => counterPx l h r x y
      | none => none
  match t with
  | .blank => {}
  | .substitute => cardPx s owner e hold r x y
  | .hold => box.getD hold
  | .hatch => match box with
    | some p => p
    | none =>
      if (x + y) % 32 < 8 then
        let a8 := if classS then max 0x80 s.ledger.hatchAlpha else s.ledger.hatchAlpha
        let c := colour30 s.ledger.hatchColour
        let a := widen 8 a8
        blend own ⟨a, mul12 c.r a, mul12 c.g a, mul12 c.b a⟩
      else own

/-- The layer's own pixels of a row before treatment: content, or the hold colour (R23). -/
def ownRow (s : State) (g : Draw) (repl : Option Nat) : List Px :=
  let hold := colour30 (tget 0x20080200 s.ledger.holdColours (getEntry s g.desc.source).holdColour)
  match g.content with
  | some f => layerRow s g.owner g.desc (getSlot s g.key).shown.pal f repl g.row ((g.region.x : Int) - g.desc.dstX).toNat g.region.w
  | none => List.replicate g.region.w hold

/-- The tile area that column k of a row shows (R28). -/
def tileOfCol (g : Draw) (f : Fetch) (k : Nat) : Nat × Nat :=
  ((f.x + centre ((g.region.x : Int) - g.desc.dstX + (k : Int)).toNat f.w g.desc.dstW) / 64, (f.y + centre g.row f.h g.desc.dstH) / 4)

/-- The tile row that a destination row's centre lies in. -/
def tileRowAt (g : Draw) (f : Fetch) (row : Nat) : Nat := (f.y + centre row f.h g.desc.dstH) / 4

/-- The tile rows shown at a destination row (R28): the one its centre lies in, and those that its vertical taps read and that no row's centre lies in. -/
def tileRows (s : State) (g : Draw) (f : Fetch) (row : Nat) : List Nat :=
  let here := tileRowAt g f row
  let span := tapSpan f.h (vTapsOf s g.desc f.h row)
  let lo := if row = 0 then 0 else tileRowAt g f (row - 1) + 1
  let hi := if row + 1 < g.desc.dstH then tileRowAt g f (row + 1) else (f.y + f.h + 3) / 4
  (List.range (max (hi) (here + 1) - min lo here)).map (· + min lo here) |>.filter fun r =>
    r == here || (decide (lo ≤ r) && decide (r < hi) && decide ((f.y + span.1) / 4 ≤ r) && decide (r ≤ (f.y + span.2) / 4))

/-- The tile columns of a tile row that cannot be shown, with their causes. -/
def badInRow (s : State) (g : Draw) (f : Fetch) (r : Nat) : List (Nat × Nat) :=
  let cols := distinct ((List.range g.region.w).map fun k => (tileOfCol g f k).1)
  cols.filterMap fun c => (tileBad s g.owner f.surf c r).map fun w => (c, w)

/-- The tile columns of a row that cannot be shown, with their causes. -/
def badTiles (s : State) (g : Draw) : List (Nat × Nat) :=
  match g.content with
  | none => []
  | some f => (tileRows s g f g.row).flatMap (badInRow s g f)

/-- Compose one layer over a line (R163, R164, R166). -/
def composeLayer (s : State) (j : Nat) (g : Draw) (own : List Px) (line : List Px) : List Px :=
  let e := getEntry s g.desc.source
  let classS := g.cls = .s
  let t := treatmentOf s g.cls e
  let text := if g.treat then ((getSlot s g.key).counter).map (counterText g.check) else none
  let bad := (badTiles s g).map Prod.fst
  (List.range line.length).map fun x =>
    let under := line.getD x {}
    if x < g.region.x ∨ g.region.x + g.region.w ≤ x then under
    else if g.shed then {}
    else
      let k := x - g.region.x
      let mixed := blend under (own.getD k {})
      let tile := match g.content with
        | some f => bad.contains (tileOfCol g f k).1
        | none => false
      if g.treat || tile then treatPx s g.owner t classS e text g.region x j mixed else mixed

/-- The characters "STARTING NOT LIVE". -/
def startText : List Nat := [83, 84, 65, 82, 84, 73, 78, 71, 32, 78, 79, 84, 32, 76, 73, 86, 69]

/-- A pixel of the built-in starting card: hold colour 0, the hatch over it, and the text centred in 64-pixel cells (R24, R420). -/
def startPx (s : State) (w h x y : Nat) : Px :=
  let tx : Int := (x : Int) - ((w : Int) - 544) / 2
  let ty : Int := (y : Int) - ((h : Int) - 64) / 2
  if 0 ≤ tx ∧ tx < 544 ∧ 0 ≤ ty ∧ ty < 64 then
    if Config.glyph 64 (startText.getD (tx.toNat / 32) 32) (tx.toNat % 32) ty.toNat then ⟨4095, 4095, 4095, 4095⟩ else {}
  else
    let own := colour30 (tget 0x20080200 s.ledger.holdColours 0)
    if (x + y) % 32 < 8 then
      let c := colour30 s.ledger.hatchColour
      let a := widen 8 s.ledger.hatchAlpha
      blend own ⟨a, mul12 c.r a, mul12 c.g a, mul12 c.b a⟩
    else own

/-- The composed pixels of output line j (R164, R215, R420). -/
def composeLine (s : State) (o j : Nat) (repl : Option Nat) : List Px :=
  let w := (getOut s o).cfg.hActive
  let black : List Px := List.replicate w {}
  if blanked s o then black
  else if (getOut s o).starting then (List.range w).map fun x => startPx s w (getOut s o).cfg.vActive x j
  else ((shownLayers s o).filterMap fun k => drawOf s o k j).foldl
    (fun line g => composeLayer s j g (ownRow s g repl) line) black

/-- The tile rows that a line shows and the line above it in the region does not. -/
def newTileRows (s : State) (g : Draw) (f : Fetch) : List Nat :=
  let above := if g.row = destRow g.desc g.region.y then [] else tileRows s g f (g.row - 1)
  (tileRows s g f g.row).filter fun r => !above.contains r

/-- The tile areas of a pass that a rebuild lost count as poisoned units do (R108, R115). -/
def countLost (s : State) (g : Draw) : State :=
  match g.lost with
  | none => s
  | some f =>
    let cols := (distinct ((List.range g.region.w).map fun k => (tileOfCol g f k).1)).length
    if g.shed then s
    else modEntry s g.desc.source fun e => { e with degradedTiles := satAdd 16 e.degradedTiles (cols * (newTileRows s g f).length) }

/-- Count the discarded blocks that a line meets for the first time in its frame: DEGRADED_TILES and the SLUICE counters (R28, R150). -/
def countTiles (s : State) (g : Draw) : State :=
  match g.content with
  | none => countLost s g
  | some f =>
    if g.shed then s
    else forEach ((newTileRows s g f).flatMap fun r => (badInRow s g f r).map fun b => (r, b)) (fun rb s =>
      let r := rb.1; let b := rb.2
      let s := modEntry s g.desc.source fun e => { e with degradedTiles := satAdd 16 e.degradedTiles 1 }
      if b.2 = 5 then
        let a := (lineRange f.surf 0 (4 * r)).1
        match weirDenied s g.owner engLayer false a (4 * f.surf.pitch) with
        | some (u, q) => denyAt s g.owner engLayer false q u
        | none => s
      else if b.2 = 4 then noteRead s (lineRange f.surf 0 (4 * r)).1 (4 * f.surf.pitch) 0
      else bump s 2 2 b.2 1) s

/-! Frame starts (R25, R47, R182, R198, R215, R220, R221). -/

/-- One layer's size check at a frame start (R198): slots of the layers below, cost of all, the layers' sizes so far. -/
structure SizeCheck where
  st : State
  slots : Nat := 0
  cost : Nat := 0

/-- R198 for one layer, in composition order: the size of the pass chosen for line 0, when it is not the one in force, is checked against R188, R196 and R169. -/
def sizeLayer (o : Nat) (acc : SizeCheck) (k : Nat) : SizeCheck :=
  let s := acc.st
  let key := slotKey o k
  let x := getSlot s key
  let c := (getOut s o).cfg
  match x.shown.desc with
  | none => acc
  | some d =>
    let keep : SizeCheck := { acc with slots := acc.slots + linebufSlots d x.shown.w x.shown.h }
    if !wholeFrame s d then keep
    else match x.sizeNext with
      | none => keep
      | some (i, _) =>
        let y := getSurf s i
        let (w, h) := passSize y
        let n := linebufSlots d w h
        let committed := layerCost s.time.timing c d x.shown.w x.shown.h
        let new := layerCost s.time.timing c d w h
        if (w, h) = (x.frameW, x.frameH) ∧ !x.unfitLayer then { acc with slots := acc.slots + n }
        else if inLimits d w h && decide (acc.slots + n ≤ 32768) && decide (acc.cost + new - committed ≤ outLimit) then
          { st := modSlot s key fun x => { x with frameW := w, frameH := h, unfitLayer := false, reported := none }
            slots := acc.slots + n, cost := acc.cost + new - committed }
        else
          let s := if x.reported = some (w, h) then s
            else postEvent s x.shown.owner (notReadyBits key 5 0 d.source y.pass y.frontier x.sizeWp)
          { keep with st := modSlot s key fun x => { x with unfitLayer := true, reported := some (w, h) } }

/-- The size checks of an output's layers at its frame start (R198). -/
def sizeChecks (s : State) (o : Nat) : State :=
  let total := (shownLayers s o).foldl (fun n k =>
    let x := getSlot s (slotKey o k)
    match x.shown.desc with
    | some d => n + layerCost s.time.timing (getOut s o).cfg d x.shown.w x.shown.h
    | none => n) 0
  ((shownLayers s o).foldl (sizeLayer o) { st := s, cost := total }).st

/-- The state that a layer's counter names: its entry's, or UNFIT where the source is unfit for this layer alone (R25, R28, R198). -/
def layerState (s : State) (x : Slot) (d : Desc) : LState :=
  let own := if x.shown.gone then .withdrawn else lineState s (getEntry s d.source)
  if x.unfitLayer || x.outside then stateMax own .unfit else own

/-- The counter text a region latches at a frame start, when its first row is treated then: the higher-ranked of its entry's state and that of the row group nearest its top, and the age from that group's base where it has one (R25, R33). -/
def latchCounter (s : State) (o k : Nat) : Option (LState × Option Nat) :=
  let x := getSlot s (slotKey o k)
  match x.shown.desc with
  | none => none
  | some d =>
    let e := getEntry s d.source
    let r := regionOf (getOut s o).cfg d
    let f := contentOf s x d r.y
    let g := match f with
      | some f => rowGroup f.surf (f.y + centre (destRow d r.y) f.h d.dstH)
      | none => none
    let st := match g with
      | some g => stateMax (layerState s x d) g.1
      | none => layerState s x d
    let base := match g with
      | some (_, some b) => some b
      | _ => counterBase e
    if treated st || f.isNone || substituted s o d.source then some (st, ageSeconds s base (now s)) else none

/-- The layer map of an output (R182). -/
def layerMap (s : State) (o : Nat) : LayerMap :=
  { start := (getOut s o).start
    layers := (shownLayers s o).filterMap fun k =>
      let x := getSlot s (slotKey o k)
      x.shown.desc.map fun d =>
        let r := regionOf (getOut s o).cfg d
        { slot := k, cls := x.shown.cls, owner := x.shown.owner, source := d.source, touch := d.touch
          x := r.x, y := r.y, w := r.w, h := r.h, desc := d } }

/-- R220's conditions but for the grant and the idle frames: 0 when all hold, else the code of the first that fails. -/
def refreshBar (s : State) (o : Nat) : Nat :=
  let x := getOut s o
  let tracked := (List.range 8).any fun k => match (getSlot s (slotKey o k)).active.desc with
    | some d => (getEntry s d.source).state != .notTracked
    | none => false
  let latched := (List.range 16).any fun r => let q := getRect s (16 * o + r); q.used && q.latch && q.cfg.action != 0
  let c := getCarry s o
  let bankBad := c.taken || c.stranded || c.arming.isSome || (getBank s c.bank).state == .holdoff ||
    (getBank s (homeBank s o)).state != .normal
  if !x.sr.sink then 1 else if tracked then 2 else if latched then 3 else if bankBad then 4 else 0

/-- R221: a source shown on the output has changed state since the last frame start. -/
def shownChanged (s : State) (o : Nat) : Bool :=
  (List.range 8).any fun k => match (getSlot s (slotKey o k)).shown.desc with
    | some d => match (getEntry s d.source).since with
      | some w => !wpLater { (getOut s o).start with tick := 0 } ⟨w.frame, w.line, 0⟩
      | none => false
    | none => false

/-- Self-refresh at a frame start at WP w: exit on a cause, or entry (R220, R221). -/
def refreshFrame (s : State) (o : Nat) (w : Wp) : State :=
  let x := getOut s o
  let bar := refreshBar s o
  if x.state = .selfRefresh then
    let cause := if x.sr.cause ≠ 0 then x.sr.cause else if shownChanged s o then 3 else if !x.sr.granted then 6
      else if bar = 3 then 4 else if bar ≠ 0 then 5 else 0
    if cause = 0 then modOut s o fun x => { x with sr := { x.sr with frames := x.sr.frames + 1 } }
    else
      let s := emit (modOut s o fun x => { x with state := .running, sr := { x.sr with cause := 0, equal := 0, frames := 0 } }) (.link o 3)
      postEvent s 0 (eventBits 0x0304 (wpBits w) [fAt 2 0 3 o, fAt 3 0 8 cause, fAt 4 0 32 (x.sr.frames + 1)])
  else if bar ≠ 0 || !x.sr.granted || !x.cfg.srAllowed then modOut s o fun x => { x with sr := { x.sr with equal := 0, cause := 0 } }
  else if x.state = .running && decide (x.sr.idleFrames ≤ x.sr.equal) then
    emit (modOut s o fun x => { x with state := .selfRefresh, sr := { x.sr with cause := 0, frames := 0 } }) (.link o 2)
  else modOut s o fun x => { x with sr := { x.sr with cause := 0 } }

/-- Slot k of an output takes the state in force at its frame start (R174, R179). -/
def latchSlot (o k : Nat) (s : State) : State :=
  modSlot s (slotKey o k) fun x =>
    let kept := x.decFor == x.active.desc
    let same := x.shown.desc == x.active.desc
    { x with
      shown := x.active
      decided := if kept then x.decNext else [], decNext := [], decFor := if kept then x.decFor else none
      usedBegan := if kept then x.nextBegan else 0, nextBegan := 0
      sizeNext := if kept then x.sizeNext else none
      lastPass := match (if kept then x.decNext.filterMap Prod.snd else []).getLast? with
        | some p => some p
        | none => if same then x.lastPass else none
      frameW := if same then x.frameW else 0
      frameH := if same then x.frameH else 0
      unfitLayer := same && x.unfitLayer, reported := if same then x.reported else none, outside := same && x.outside }

/-- A layer whose image is new at the frame start chooses its size now (R198). -/
def chooseNow (o k : Nat) (s : State) : State :=
  let x := getSlot s (slotKey o k)
  match x.shown.desc with
  | none => s
  | some d =>
    if !isDevice s d || x.decFor.isSome || x.sizeNext.isSome then s
    else modSlot s (slotKey o k) fun x => { x with sizeNext := chooseFirst s d (regionOf (getOut s o).cfg d), sizeWp := now s }

/-- A layer whose first lines were not decided in the frame before decides them now. -/
def decideFirst (o k : Nat) (s : State) : State :=
  let x := getSlot s (slotKey o k)
  match x.shown.desc with
  | none => s
  | some d =>
    if !isDevice s d || !x.decided.isEmpty then s
    else forEach ((List.range d.nLead).filter fun y => inRegionRow (regionOf (getOut s o).cfg d) y) (fun y s => decideLine s (slotKey o k) y d) s

/-- An output moves to the bank and pipe it is due on, at its frame start (R186, R223, R231). -/
def moveOutput (s : State) (o : Nat) : State :=
  modCarry s o fun c => match c.moveTo with
    | some (b, p) => { c with bank := b, pipe := p, moveTo := none, stranded := false, taken := !(decide (b = homeBank s o)), gap := 0, repl := 0, lastGap := false }
    | none => c

/-- The latched actions of an output's rectangles are drawn from this frame, and its rectangles may be evaluated again (R213, R215). -/
def rectEffects (s : State) (o : Nat) : State :=
  let latched := (List.range 16).filterMap fun r =>
    let x := getRect s (16 * o + r)
    if x.used && x.latch then some (x.cfg.action, x.cfg.source) else none
  forEach (List.range 16) (fun r s => modRect s (16 * o + r) fun x => { x with done := false }) (modOut s o fun x => { x with actions := latched })

/-- The start of output frame i at WP w, after the rectangle operations due (R25, R174, R182, R198). -/
def frameStart (s : State) (o i : Nat) (w : Wp) : State :=
  let s := moveOutput s o
  let s := refreshFrame s o w
  let s := forEach (List.range 8) (fun k s => chooseNow o k (latchSlot o k s)) s
  let s := modOut s o fun x =>
    { x with
      coeffs := s.comp.coeffs
      frame := i, start := w, inFrame := true, line := 0, starting := x.starting && !x.cardDone, gapLines := [], replLines := [], badLines := [], passLines := []
      checkLines := [], sourceLines := [], sr := { x.sr with crcRun := 0xFFFFFFFF } }
  let s := rectEffects s o
  let s := forEach (List.range 8) (fun k s => modSlot (decideFirst o k s) (slotKey o k) fun x => { x with sizeNext := none, decFor := none }) (sizeChecks s o)
  let s := forEach (List.range 8) (fun k s =>
    let c := latchCounter s o k
    modSlot s (slotKey o k) fun x => if x.shown.desc.isSome then { x with counter := c } else { x with counter := none }) s
  let m := layerMap s o
  { s with comp := { s.comp with maps := tset [] s.comp.maps o ((m :: tget [] s.comp.maps o).take 4) } }

end Sys2Proof.Machine
end

