-- ==== Sys2Proof/Machine/Banks.lean ====
section
/-! DEFINITION. Bank faults, takeover, rehearsal and return (R222 to R232). -/
namespace Sys2Proof.Machine
open Sys2Proof

/-- The pipe of an output on the bank that is not its own: k + 4 (R223). -/
def reservePipe (s : State) (o : Nat) : Nat := homePipe s o + 4

/-- The pipe an output takes on a bank: its own on its home bank, otherwise the reserve (R167, R223). -/
def pipeOn (s : State) (b o : Nat) : Nat := if homeBank s o = b then homePipe s o else reservePipe s o

/-- A mask of outputs. -/
def outMask (l : List Nat) : Nat := l.foldl (fun m o => m ||| 2 ^ o) 0

/-- EV_BANK_TAKEOVER (R232). -/
def takeoverBits (s : State) (t : Takeover) (stranded : Nat) : Nat :=
  eventBits 0x0305 (wpBits t.wp) [fAt 2 0 1 t.bank, fAt 3 0 8 t.cause, fAt 4 0 3 t.pipe, fAt 5 0 8 t.moved, fAt 6 0 8 stranded,
    fAt 7 0 2 t.gapLines, fAt 16 0 32 t.gapCycles, fAt 20 0 32 s.bank.takeovers]

/-- Count a takeover and post its event (R232). -/
def postTakeover (s : State) (t : Takeover) (stranded : Nat) : State :=
  let s := { s with bank := { s.bank with takeovers := satAdd 32 s.bank.takeovers 1 } }
  postEvent s 0 (takeoverBits s t stranded)

/-- EV_BANK_RETURN (R232). -/
def postReturn (s : State) (b result outs clean : Nat) (w : Wp) : State :=
  postEvent s 0 (eventBits 0x0306 (wpBits w) [fAt 2 0 1 b, fAt 3 0 8 result, fAt 4 0 8 outs, fAt 16 0 32 clean])

/-- Arm the takeover of one output by a bank, or move it at once when it does not schedule lines (R201, R224). -/
def armOutput (b : Nat) (o : Nat) (s : State) : State :=
  let p := pipeOn s b o
  if scheduling (getOut s o) then
    modCarry (refreshCause s o 5) o fun c => { c with arming := some (b, p), moveTo := none, gap := 0, lastGap := false }
  else modCarry s o fun c => { c with bank := b, pipe := p, moveTo := none, arming := none, stranded := false, taken := !(decide (b = homeBank s o)) }

/-- Outputs a bank carries now and that are not stranded. -/
def carried (s : State) (b : Nat) : List Nat :=
  (List.range 8).filter fun o => (getCarry s o).bank == b && !(getCarry s o).stranded

/-- The outputs of a list that schedule lines. -/
def live (s : State) (l : List Nat) : List Nat := l.filter fun o => scheduling (getOut s o)

/-- Strand outputs: GAP_COLOUR on every line, a fault record and the takeover's event; a takeover that had some of them to move has moved or stranded them then, and posts its own (R229, R232). `own` are those of this takeover. -/
def strand (s : State) (t : Takeover) (l own : List Nat) : State :=
  let s := forEach l (fun o s => modCarry (refreshCause s o 5) o fun c => { c with stranded := true, arming := none, moveTo := none }) s
  let s := addFault s 8 t.bank (outMask l)
  let left := s.bank.moving.map fun m =>
    let lost := m.toMove &&& outMask l &&& (0xFF ^^^ m.moved)
    { m with toMove := m.toMove &&& (0xFF ^^^ lost), stranded := m.stranded ||| lost }
  let s := { s with bank := { s.bank with moving := left.filter fun m => m.toMove != m.moved } }
  let s := forEach (left.filter fun m => m.toMove == m.moved) (fun m s => postTakeover s m m.stranded) s
  postTakeover s t (outMask own)

/-- The bank of a faulting pipe latches its fault (R223, R228). -/
def failBank (s : State) (b pipe cause : Nat) : State :=
  modBank s b fun x => if x.state = .failed then x else { x with state := .failed, pipe, cause, clean := 0 }

/-- The detail of BANK_REHEARSE's replies (R230). -/
def rehearseDetail (r : Rehearsal) (pipe cause : Nat) : List Field :=
  [fAt 16 0 8 r.moved, fAt 17 0 8 r.gapLines, fAt 18 0 8 pipe, fAt 19 0 8 cause, fAt 20 0 32 r.gapCycles]

/-- The carrying bank faults during a rehearsal: the rehearsed bank takes all eight outputs (R230). -/
def rehearsalFault (s : State) (r : Rehearsal) (pipe cause : Nat) : State :=
  let b := 1 - r.bank
  let s := failBank (modBank s r.bank fun x => { x with state := .normal }) b pipe cause
  let outs := live s (List.range 8)
  let t : Takeover := { bank := b, cause := 5, pipe, wp := now s, toMove := outMask outs }
  let s := forEach (List.range 8) (armOutput r.bank) s
  let s := forEach s.bank.moving (fun m s => postTakeover s m m.stranded) s
  let s := { s with bank := { s.bank with rehearsal := none, moving := if outs.isEmpty then [] else [t] } }
  let s := if outs.isEmpty then postTakeover s t 0 else s
  let s := postReturn s r.bank 4 (outMask (List.range 8)) 0 (now s)
  finishKey s r.key .checkFailed (nowBits s) (rehearseDetail r (pipe % 8 + 8 * b) cause)

/-- A bank fault detected in the pipe of an output (R222, R223, R229, R230). -/
def bankFault (s : State) (o cause : Nat) : State :=
  let c := getCarry s o
  let b := c.bank; let other := 1 - b
  if c.stranded || c.arming.isSome then s
  else
    let s := addFault s 7 b (c.pipe + 256 * cause)
    match s.bank.rehearsal.filter Rehearsal.armed with
    | some r =>
      if r.bank != b then rehearsalFault s r c.pipe cause
      else strand (failBank s b c.pipe cause) { bank := b, cause, pipe := c.pipe % 8, wp := now s } [o] [o]
    | none =>
      let t : Takeover := { bank := b, cause, pipe := c.pipe % 8, wp := now s, toMove := 2 ^ o }
      let window := (List.range 8).filter fun q => match (getCarry s q).arming with
        | some (nb, _) => nb == b
        | none => false
      if !window.isEmpty then strand (failBank s b c.pipe cause) t (window ++ [o]) [o]
      else if (getBank s other).state ≠ .normal then strand (failBank s b c.pipe cause) t [o] [o]
      else
        let s := failBank s b c.pipe cause
        let s := armOutput other o s
        let s := forEach ((carried s b).filter fun q => q != o && (getCarry s q).arming.isNone) (fun q s =>
          if scheduling (getOut s q) then modCarry s q fun x => { x with moveTo := some (other, pipeOn s other q) }
          else armOutput other q s) s
        if scheduling (getOut s o) then { s with bank := { s.bank with moving := s.bank.moving ++ [t] } } else postTakeover s t 0

/-- BANK_PIPE_WATCHDOG (R222). -/
def execBankPipeWatchdog (output : Nat) (s : State) : Host.Outcome State Fault Refusal :=
  .next (if output < 8 ∧ scheduling (getOut s output) then bankFault s output 1 else s)

/-- BANK_STORE_ECC_FAULT (R222). -/
def execBankStoreEccFault (output : Nat) (s : State) : Host.Outcome State Fault Refusal :=
  .next (if output < 8 ∧ scheduling (getOut s output) then bankFault s output 2 else s)

/-- The outputs of a rehearsal have moved: ST_DEFERRED (R230). -/
def rehearsalMoved (s : State) (t : Takeover) : State :=
  match s.bank.rehearsal with
  | some r =>
    let r := { r with since := some (now s).frame, moved := t.moved, gapLines := t.gapLines, gapCycles := t.gapCycles }
    let s := { s with bank := { s.bank with rehearsal := some r } }
    match findHeld s r.key with
    | some h => defer s h (rehearseDetail r 0xFF 0)
    | none => s
  | none => s

/-- The record of a takeover with one more output moved; the event when it was the last (R232). -/
def noteMoved (s : State) (o gapLines gapCycles : Nat) : State :=
  match s.bank.moving.find? fun t => bitAt t.toMove o && !bitAt t.moved o with
  | none => s
  | some t =>
    let u := { t with moved := t.moved ||| 2 ^ o, gapLines := max t.gapLines gapLines, gapCycles := max t.gapCycles gapCycles }
    let rest := s.bank.moving.filter (· != t)
    if u.moved = u.toMove then
      let s := postTakeover { s with bank := { s.bank with moving := rest } } u u.stranded
      if u.cause = 4 then rehearsalMoved s u else s
    else { s with bank := { s.bank with moving := rest ++ [u] } }

/-- TAKEOVER_ARMED: the reserve pipe takes the output; when an active line starts next, it is the last of the gap; the pipe composes from the next line start, and EV_BANK_TAKEOVER follows the last output (R224 to R226). -/
def execTakeoverArmed (output gapCycles : Nat) (s : State) : Host.Outcome State Fault Refusal :=
  .next (match (getCarry s output).arming with
    | none => s
    | some (b, p) =>
      let x := getOut s output
      let next := x.line < x.cfg.vActive ∨ x.cfg.vOut ≤ x.line ∨ !x.inFrame
      let lines := (getCarry s output).gap + (if next then 1 else 0)
      let home := homeBank s output
      let s := modCarry s output fun c =>
        { c with bank := b, pipe := p, arming := none, lastGap := true, repl := 3, taken := !(decide (b = home)) }
      noteMoved s output lines gapCycles)

/-! BANK_REHEARSE (R230). -/

/-- Both banks are NORMAL and the reserve of a bank's other bank is idle (R230). -/
def banksReady (s : State) (b : Nat) : Bool :=
  (getBank s 0).state == .normal && (getBank s 1).state == .normal &&
  (List.range 8).all fun o => let c := getCarry s o; c.arming.isNone && !c.stranded && !(c.bank == 1 - b && decide (4 ≤ c.pipe))

/-- Whether a rehearsal of a bank may begin. -/
def rehearsable (s : State) (b : Nat) : Bool := s.bank.rehearsal.isNone && banksReady s b

/-- Step 8 checks of BANK_REHEARSE. -/
def checkBankRehearse (s : State) (h : Held) (_ : Cmd) : Option Fail :=
  firstFail [
    (!reservedZero h.pkt [(16, 0, 1), (18, 0, 16)] || pf h.pkt 18 0 16 == 0, failWith .badParam),
    (!rehearsable s (pf h.pkt 16 0 1), failWith .notReady)]

/-- Arm the rehearsal: every output of the bank moves by takeover (R230); a bank that is no longer NORMAL by then ends it with ST_NOT_READY (R228; log entry 113). -/
def armRehearsal (s : State) : State :=
  match s.bank.rehearsal with
  | none => s
  | some r =>
    if r.armed || (now s).tick != 0 || !wpReached (now s) r.start then s
    else if !banksReady s r.bank then finishKey { s with bank := { s.bank with rehearsal := none } } r.key .notReady (nowBits s) []
    else
      let outs := carried s r.bank
      let l := live s outs
      let t : Takeover := { bank := r.bank, cause := 4, wp := now s, toMove := outMask l }
      let s := modBank s r.bank fun x => { x with state := .rehearsing }
      let s := forEach outs (armOutput (1 - r.bank)) s
      let s := { s with bank := { s.bank with rehearsal := some { r with armed := true }, moving := s.bank.moving ++ (if l.isEmpty then [] else [t]) } }
      if l.isEmpty then rehearsalMoved (postTakeover s t 0) t else s

/-- BANK_REHEARSE's commit point: it arms at the first wall line start at or after it (R230). -/
def actBankRehearse (s : State) (h : Held) (_ : Cmd) : State :=
  let b := pf h.pkt 16 0 1
  if !rehearsable s b then finishNow s h .notReady []
  else
    let r : Rehearsal := { bank := b, key := heldKey h, frames := pf h.pkt 18 0 16, start := now s }
    armRehearsal (holdOn { s with bank := { s.bank with rehearsal := some r } } h)

/-- BANK_REHEARSE (0x306). -/
def execBankRehearse (c : Cmd) (s : State) : Host.Outcome State Fault Refusal :=
  .next (runPacket s c 0x306 (fun _ => true) checkBankRehearse actBankRehearse)

/-! Return (R231). -/

/-- A bank becomes NORMAL: its own outputs and the stranded ones move to it at their next output frame start (R229, R231). -/
def returnBank (s : State) (b : Nat) : State × Nat :=
  let outs := (List.range 8).filter fun o => homeBank s o == b || (getCarry s o).stranded
  let s := modBank s b fun x => { x with state := .normal, cause := 0, clean := 0 }
  (forEach outs (fun o s =>
    if scheduling (getOut s o) then modCarry s o fun c => { c with moveTo := some (b, pipeOn s b o) }
    else modCarry s o fun c => { c with bank := b, pipe := pipeOn s b o, stranded := false, moveTo := none, taken := !(decide (b = homeBank s o)) }) s,
   outMask outs)

/-- BANK_REHEARSE_END: FRAMES wall frames have passed since the last output moved; the outputs return and the final reply follows (R230). -/
def execBankRehearseEnd (s : State) : Host.Outcome State Fault Refusal :=
  .next (match s.bank.rehearsal with
    | some r => match r.since with
      | some f =>
        if (now s).line = 0 && decide (r.frames < frameDiff (now s).frame f) then
          let (s, outs) := returnBank { s with bank := { s.bank with rehearsal := none } } r.bank
          let s := postReturn s r.bank 4 outs 0 ⟨(now s).frame, 0, 0⟩
          finishKey s r.key .ok (nowBits s) (rehearseDetail r 0xFF 0)
        else s
      | none => s
    | none => s)

/-- A bank's reinitialisation ends without success: the unit stays FAILED (R228, R436). -/
def failReinit (s : State) (b result test : Nat) : State :=
  let x := getBank s b
  let s := modBank s b fun x => { x with state := .failed, reinit := none, clean := 0 }
  let s := postReturn s b result 0 x.clean (now s)
  match x.reinit with
  | some k => finishKey s k .checkFailed (nowBits s) [fAt 16 0 32 test]
  | none => s

/-- BANK_SELF_CHECK_END (R228, R231). -/
def execBankSelfCheckEnd (bank : Nat) (ok : Bool) (test : Nat) (s : State) : Host.Outcome State Fault Refusal :=
  .next (if (getBank s bank).state ≠ .checking then s
    else if ok then modBank s bank fun x => { x with state := .holdoff, clean := 0, cleanFrom := boundaryAtOrAfter (now s) }
    else failReinit s bank 2 test)

/-- HOLDOFF_SELF_CHECK_ERROR (R228). -/
def execHoldoffSelfCheckError (bank test : Nat) (s : State) : Host.Outcome State Fault Refusal :=
  .next (if (getBank s bank).state = .holdoff then failReinit s bank 3 test else s)

/-- At a wall frame boundary a bank in HOLDOFF has one more clean frame (R231). -/
def countClean (s : State) : State :=
  forEach [0, 1] (fun b s => modBank s b fun x =>
    if x.state = .holdoff ∧ frameLater (now s).frame x.cleanFrom then { x with clean := x.clean + 1 } else x) s

/-- BANK_HOLDOFF_EXPIRY: at a wall frame boundary after HOLDOFF_FRAMES clean frames, the bank returns (R231). -/
def execBankHoldoffExpiry (bank : Nat) (s : State) : Host.Outcome State Fault Refusal :=
  .next (
    let x := getBank s bank
    if x.state = .holdoff && decide (x.holdoffFrames ≤ x.clean) && (now s).line == 0 then
      let (s, outs) := returnBank s bank
      let s := modBank s bank fun y => { y with reinit := none }
      let s := postReturn s bank 1 outs x.clean ⟨(now s).frame, 0, 0⟩
      match x.reinit with
      | some k => finishKey s k .ok (nowBits s) []
      | none => s
    else s)

end Sys2Proof.Machine
end

