-- ==== Sys2Proof/Machine/Outputs.lean ====
section
/-! DEFINITION. Outputs: OUTPUT_CONFIGURE, OUTPUT_ENABLE, OUTPUT_DISABLE, SELF_REFRESH_REQUEST, output frame and line starts, hot plug and link training (R200 to R210, R220, R221). -/
namespace Sys2Proof.Machine
open Sys2Proof

/-! OUTPUT_CONFIGURE (R208). -/

/-- The settings in an OUTPUT_CONFIGURE packet. -/
def cfgOf (p : Packet) : OutCfg :=
  { edp := pb p 17 0, lanes := 2 ^ pf p 17 1 2, ssc := pb p 17 3, bpc := 6 + 2 * pf p 17 4 2, ratio := pf p 17 6 2
    maxRate := pf p 18 0 4, hPol := pb p 18 4, vPol := pb p 18 5, srAllowed := pb p 18 6, gap := pf p 19 0 4
    hActive := pf p 20 0 14, hTotal := pf p 22 0 14, hFront := pf p 24 0 12, hSync := pf p 26 0 10, vActive := pf p 28 0 13
    vOut := pf p 30 0 14, vFront := pf p 32 0 10, vSync := pf p 34 0 8, offset := pf p 36 0 32 }

/-- Bits of OUTPUT_CONFIGURE that are not reserved. -/
def configureResv : List (Nat × Nat × Nat) :=
  [(16, 0, 3), (17, 0, 8), (18, 0, 7), (19, 0, 4), (20, 0, 14), (22, 0, 14), (24, 0, 12), (26, 0, 10), (28, 0, 13), (30, 0, 14),
   (32, 0, 10), (34, 0, 8), (36, 0, 32)]

/-- Link rates in units of 0.01 Gb/s per lane by code. -/
def linkRate (code : Nat) : Nat := [162, 216, 243, 270, 324, 432, 540, 810].getD code 0

/-- R206: the output fits a link. -/
def linkFits (t : WallTiming) (c : OutCfg) (lanes rate : Nat) : Bool :=
  let (n, m) := pixelClock t c
  decide (n * 3 * c.bpc * 100 ≤ 792 * lanes * linkRate rate * (m * 1000000))

/-- A field of OUTPUT_CONFIGURE out of range. -/
def configureBad (s : State) (o : Nat) (p : Packet) : Bool :=
  let c := cfgOf p
  !reservedZero p configureResv || pf p 17 1 2 == 3 || pf p 17 4 2 == 3 || c.ratio == 3 || decide (7 < c.maxRate) ||
  (!c.edp && (c.bpc == 6 || [1, 2, 4, 5].contains c.maxRate || c.srAllowed)) ||
  !inRange c.hActive 320 7680 || c.hActive % 2 == 1 || !inRange c.hTotal (c.hActive + c.hFront + c.hSync + 1) 8192 ||
  c.hFront == 0 || c.hSync == 0 || !inRange c.vActive 200 4320 || !inRange c.vOut (c.vActive + c.vFront + c.vSync + 1) 8192 ||
  c.vFront == 0 || c.vSync == 0 || decide (outFrameSpan s c.ratio ≤ c.offset) ||
  ((groupOutputs s (groupOfOutput s o) ++ outputsToBe s (groupToBe s o)).any fun q => q != o && (getOut s q).state != .unconfigured && (getOut s q).cfg.ratio != c.ratio)

/-- The committed cost of an output's layers under a timing and settings (R169). -/
def committedCost (t : WallTiming) (c : OutCfg) (l : List Placed) : Nat :=
  l.foldl (fun n x => n + layerCost t c x.desc x.w x.h) 0

/-- The cause for which settings break a limit under a timing: 1 pixel clock, 2 link, 3 blanking, 4 layers; 0 none. -/
def limitBroken (s : State) (t : WallTiming) (o : Nat) (c : OutCfg) : Nat :=
  let (n, m) := pixelClock t c
  if 600000000 * m < n then 1
  else if !linkFits t c c.lanes c.maxRate then 2
  else if t.spread && decide ((c.hTotal - c.hActive) * 100 < c.hTotal) then 3
  else if outLimit < committedCost t c (projected s (fun _ => true) o) then 4 else 0

/-- Step 8 checks of OUTPUT_CONFIGURE. -/
def checkOutputConfigure (s : State) (h : Held) (_ : Cmd) : Option Fail :=
  let p := h.pkt
  let o := pf p 16 0 3
  let c := cfgOf p
  let x := getOut s o
  let t := s.time.timing
  let why := limitBroken s t o c
  firstFail [
    (configureBad s o p, failWith .badParam),
    (x.state != .unconfigured && x.state != .disabled, failWith .notReady),
    (why != 0, (.budgetExceeded, [fAt 16 0 32 (clockKpix t c), fAt 20 0 32 (outFrameSpan s c.ratio), fAt 24 0 8 why,
      fAt 28 0 32 (if why = 4 then committedCost t c (projected s (fun _ => true) o) else 0)]))]

/-- OUTPUT_CONFIGURE's effect (R208). -/
def actOutputConfigure (s : State) (h : Held) (_ : Cmd) : State :=
  let o := pf h.pkt 16 0 3
  let c := cfgOf h.pkt
  let s := modOut s o fun x => { x with state := .disabled, cfg := c, sr := { x.sr with granted := false, idleFrames := 0 } }
  finishNow s h .ok [fAt 16 0 32 (clockKpix s.time.timing c), fAt 20 0 32 (outFrameSpan s c.ratio)]

/-- OUTPUT_CONFIGURE (0x301). -/
def execOutputConfigure (c : Cmd) (s : State) : Host.Outcome State Fault Refusal :=
  .next (runPacket s c 0x301 (fun _ => true) checkOutputConfigure actOutputConfigure)

/-! Rectangle operations at an output frame start (R216). -/

/-- Rectangles of an output that are CHANGE rectangles of a source. -/
def changeRects (s : State) (src : Nat) : List Nat :=
  s.scan.rects.filterMap fun e => if e.2.used ∧ e.2.cfg.mode = 1 ∧ e.2.cfg.source = src then some e.1 else none

/-- R218: the last CHANGE rectangle of a source is gone: its record, frozen and CHANGE_BOUND end. -/
def unbindChange (s : State) (src : Nat) : State :=
  if (changeRects s src).isEmpty then
    let s := { s with scan := { s.scan with still := tset {} s.scan.still src {} } }
    modEntry s src fun e => { e with changeBound := false, inp := { e.inp with frozen := false } }
  else s

/-- Remove a rectangle (R211, R216, R218). -/
def removeRect (s : State) (r : Nat) : State :=
  let x := getRect s r
  let s := modRect s r fun _ => {}
  if x.used ∧ x.cfg.mode = 1 then unbindChange s x.cfg.source else s

/-- Put a rectangle in place of what the slot holds: a CHANGE rectangle binds its source, sets its N and clears its run; one replaced may have been its source's last (R15, R217, R218). -/
def setRect (s : State) (r owner : Nat) (c : RectCfg) : State :=
  let old := getRect s r
  let s := modRect s r fun _ => { used := true, owner, cfg := c }
  let s := if old.used ∧ old.cfg.mode = 1 then unbindChange s old.cfg.source else s
  if c.mode = 1 then
    let s := { s with scan := { s.scan with
        still := tmod {} s.scan.still c.source fun x => { x with used := true, run := 0, n := if c.freezeN = 0 then 6 else c.freezeN } } }
    modEntry s c.source fun e => { e with changeBound := true }
  else s

/-- One rectangle operation takes effect. -/
def applyRectOp (op : RectOp) (s : State) : State :=
  if op.op = 0 then setRect s op.rect op.owner op.cfg
  else if op.op = 1 then removeRect s op.rect
  else modRect s op.rect fun x => if x.used then { x with latch := false, failures := 0 } else x

/-- The operations of an output whose boundary has come take effect at its frame start (R216). -/
def applyRectOps (s : State) (o : Nat) : State :=
  let due (p : RectOp) : Bool := p.replied && p.rect / 16 == o
  let l := s.scan.rectOps.filter due
  forEach l applyRectOp { s with scan := { s.scan with rectOps := s.scan.rectOps.filter fun p => !due p } }

/-! Frames (R47, R209, R210). -/

/-- Begin output frame i of an output. -/
def beginFrame (s : State) (o i : Nat) : State := frameStart (applyRectOps s o) o i (outFrameStart s (getOut s o).cfg i)

/-- The output frame after one. -/
def nextOutFrame (c : OutCfg) (i : Nat) : Nat := (i + 1) % (if c.ratio = 1 then 2 ^ 33 else if c.ratio = 2 then 2 ^ 31 else 2 ^ 32)

/-- OUTPUT_FRAME_START: the frame of an output that WP lies in starts, once, or the next one when its start comes in this wall line (R43, R47). -/
def outputFrameStart (output : Nat) (s : State) : State :=
  let x := getOut s output
  let i := outFrameNow s x.cfg (now s)
  let k := nextOutFrame x.cfg i
  (if !decide (output < 8) || !scheduling x || !s.time.running then s
    else if !(x.inFrame && x.start == outFrameStart s x.cfg i) then beginFrame s output i
    else if comesThisLine s (outFrameStart s x.cfg k) then beginFrame (passTo s (outFrameStart s x.cfg k)) output k
    else s)

/-! Lines (R201 to R204, R225). -/

/-- The rectangles of an output that hold a line. -/
def rectsOnLine (s : State) (o j : Nat) : List Nat :=
  (List.range 16).filterMap fun r =>
    let x := getRect s (16 * o + r)
    if x.used ∧ x.cfg.y ≤ j ∧ j < x.cfg.y + x.cfg.h then some (16 * o + r) else none

/-- Surface and pass that a drawn layer reads on a line. -/
def passOf (s : State) (g : Draw) (j : Nat) : Option (Nat × Nat) :=
  match g.content with
  | none => none
  | some _ =>
    let x := getSlot s g.key
    if isDevice s g.desc then (assoc x.decided j).join else x.shown.buf.map fun b => (handleIndex b.1, b.2)

/-- Hand a line's words on: to the transmitter when RUNNING, into FRAME_CRC, and to the rectangles that hold it (R201, R212, R220). -/
def sendWords (s : State) (o j : Nat) (words : List Nat) : State :=
  let x := getOut s o
  let s := if x.state = .running then emit s (.line o j words) else s
  let crc := crcWords x.sr.crcRun words
  let keep := !(rectsOnLine s o j).isEmpty
  let last := j + 1 == x.cfg.vActive
  let final := crc ^^^ 0xFFFFFFFF
  let s := modOut s o fun x =>
    { x with
      checkLines := if keep then x.checkLines ++ [(j, words)] else x.checkLines
      sr := if last then { x.sr with crcRun := crc, frameCrc := final, equal := if x.sr.frameCrc = final then x.sr.equal + 1 else 1 }
            else { x.sr with crcRun := crc } }
  if last && x.sr.frameCrc != final then refreshCause s o 1 else s

/-- A line's active area in GAP_COLOUR (R204, R225). -/
def sendGap (s : State) (o j : Nat) : State :=
  let c := (getOut s o).cfg
  let p := colour30 (tget 0x20080200 s.ledger.holdColours c.gap)
  let s := modOut s o fun x => { x with gapLines := x.gapLines ++ [j] }
  sendWords s o j (List.replicate c.hActive (pixelWord c.bpc p))

/-- Sources of the rectangles on a line that are neither LIVE nor NOT_TRACKED there (R213). -/
def badSources (s : State) (o j : Nat) : List (Nat × Nat) :=
  (rectsOnLine s o j).filterMap fun r =>
    let c := (getRect s r).cfg
    if c.sourceValid && treated (lineState s (getEntry s c.source)) then some (j, c.source) else none

/-- Compose line j and send it (R163, R203, R213). -/
def sendComposed (s : State) (o j : Nat) : State :=
  let c := (getOut s o).cfg
  let left := (getCarry s o).repl
  let repl := if left = 0 then none else some (3 - left)
  let draws := (shownLayers s o).filterMap fun k => drawOf s o k j
  let words := (composeLine s o j repl).map (pixelWord c.bpc)
  let change := (rectsOnLine s o j).filterMap fun r => let x := getRect s r; if x.cfg.mode = 1 then some x.cfg.source else none
  let srcs := (draws.filter fun g => change.contains g.desc.source).map fun g =>
    (j, g.key % 8, (ownRow s g repl).map (pixelWord c.bpc))
  let passes := (draws.filter fun g => !g.shed).filterMap fun g => (passOf s g j).map fun p => (j, g.key % 8, p.1, p.2)
  let blurred := repl.isSome && draws.any fun g => match g.content with
    | some f => f.h != g.desc.dstH
    | none => false
  let bad := badSources s o j
  let s := forEach draws (fun g s => countTiles s g) s
  let s := modOut s o fun x =>
    { x with
      sourceLines := x.sourceLines ++ srcs, passLines := x.passLines ++ passes, badLines := x.badLines ++ bad
      replLines := if blurred then x.replLines ++ [j] else x.replLines }
  let s := modCarry s o fun c => { c with repl := c.repl - 1 }
  sendWords s o j words

/-- An underflow (R204): the line is counted, sent in GAP_COLOUR as the first of the gap, and a bank fault. -/
def underflow (s : State) (o j : Nat) : State :=
  let x := getOut s o
  let w := addTicks (wallLines s) x.start (outLineOffset s x.cfg j)
  let s := modOut s o fun x =>
    { x with under := { lines := satAdd 8 x.under.lines 1, first := if x.under.lines = 0 then j else x.under.first
                        wp := if x.under.lines = 0 then w else x.under.wp, total := satAdd 32 x.under.total 1 } }
  let s := bankFault (sendGap s o j) o 3
  modCarry s o fun c => if c.arming.isSome then { c with gap := c.gap + 1 } else c

/-- An active line of an output starts. -/
def activeLine (s : State) (o j : Nat) (inTime : Bool) : State :=
  let c := getCarry s o
  if c.stranded then sendGap s o j
  else if c.arming.isSome || c.lastGap then sendGap (modCarry s o fun c => { c with gap := c.gap + 1, lastGap := false }) o j
  else if !inTime then underflow s o j
  else sendComposed s o j

/-- The Main Stream Attributes of an output's timing: a start counts from the leading edge of sync (R202). -/
def streamAttributes (c : OutCfg) : List Nat :=
  [c.hTotal, c.vOut, c.hTotal - c.hActive - c.hFront, c.vOut - c.vActive - c.vFront, c.hActive, c.vActive, c.hSync, c.hPol.toNat, c.vSync, c.vPol.toNat, c.bpc]

/-- Maud and Naud of the 48 kHz wall-locked audio clock on a link: 512 x 48 kHz over the link symbol clock, in lowest terms (R205). -/
def audioStamp (rate : Nat) : Nat × Nat :=
  let g := Nat.gcd 3072 (125 * linkRate rate)
  (3072 / g, 125 * linkRate rate / g)

/-- The first blanking line of a frame: a RUNNING output sends its stream attributes and audio timestamp (R202, R205). -/
def sendAttributes (s : State) (o : Nat) : State :=
  let x := getOut s o
  if x.state ≠ .running then s
  else
    let a := audioStamp x.rate
    emit (emit s (.attributes o (streamAttributes x.cfg))) (.audioTime o a.1 a.2)

/-- The WP at which line j of an output's frame is scheduled (R47). -/
def lineDue (s : State) (o j : Nat) : Wp := addTicks (wallLines s) (getOut s o).start (outLineOffset s (getOut s o).cfg j)

/-- OUTPUT_LINE_START: at its scheduled WP, no earlier, the next line of the frame leaves, and the passes of the lines ahead are decided (R44, R47, R179, R203). -/
def outputLineStart (output : Nat) (inTime : Bool) (s : State) : State :=
  let x := getOut s output
  let j := x.line
  (if !decide (output < 8) || !scheduling x || !x.inFrame || !decide (j < x.cfg.vOut) || !comesThisLine s (lineDue s output j) then s
    else
      let s := passTo s (lineDue s output j)
      let s := if j < x.cfg.vActive then activeLine s output j inTime else modCarry s output fun c => { c with lastGap := false }
      let s := if j = x.cfg.vActive then sendAttributes s output else s
      let s := forEach (List.range 8) (fun k s => decideSlot s output j k) s
      modOut s output fun x => { x with line := j + 1 })

/-! The link (R205 to R207). -/

/-- EV_LINK_TRAINING (R207). -/
def postTraining (s : State) (o result lanes rate : Nat) : State :=
  let x := getOut s o
  postEvent s 0 (eventBits 0x0303 (nowBits s) [fAt 2 0 3 o, fAt 3 0 4 (outStateCode x.state), fAt 3 4 4 result, fAt 4 0 3 lanes,
    fAt 5 0 4 rate, fAt 6 0 16 x.attempts])

/-- Start a link training attempt (R207). -/
def startTraining (s : State) (o : Nat) : State :=
  emit (modOut s o fun x =>
    { x with trainingNow := true, retryArmed := false, attempts := satAdd 16 x.attempts 1, lanes := x.cfg.lanes, rate := x.cfg.maxRate
             state := if x.state = .running then .training else x.state }) (.link o 1)

/-- HPD_RISE (R207). -/
def execHpdRise (output : Nat) (s : State) : Host.Outcome State Fault Refusal :=
  .next (if !decide (output < 8) then s
    else
      let x := getOut s output
      let s := modOut s output fun x => { x with hpd := true }
      if !x.hpd && (x.state == .training || x.state == .running || x.state == .linkDown) then startTraining s output else s)

/-- The link is trained again after a loss of link status (R207). -/
def retrain (s : State) (o : Nat) : State :=
  let x := getOut s o
  if x.hpd && !x.trainingNow && (x.state == .training || x.state == .running || x.state == .linkDown) then startTraining s o else s

/-- IRQ_HPD that reports loss of link status (R207). -/
def execIrqHpd (output : Nat) (s : State) : Host.Outcome State Fault Refusal := .next (if output < 8 then retrain s output else s)

/-- HPD_FALL (R207). -/
def execHpdFall (output : Nat) (s : State) : Host.Outcome State Fault Refusal :=
  .next (
    let x := getOut s output
    if !decide (output < 8) || !x.hpd then s
    else
      let down := x.state == .running || x.state == .training
      let s := modOut s output fun x =>
        { x with hpd := false, trainingNow := false, retryArmed := false, state := if down then .linkDown else x.state }
      if x.state == .running || x.trainingNow then postTraining s output 5 x.lanes x.rate else s)

/-- The detail of OUTPUT_ENABLE's final reply (R209). -/
def enableDetail (s : State) (o : Nat) : List Field :=
  let x := getOut s o
  let first := match x.enable with
    | some e => e.first
    | none => {}
  [fAt 16 0 8 (outStateCode x.state), fAt 17 0 8 (if x.state = .running then x.lanes else 0), fAt 18 0 8 (if x.state = .running then x.rate else 0),
   fAt 19 0 8 x.edidDone.toNat, fAt 20 0 16 x.attempts, fAt 24 0 64 (wpBits first)]

/-- The detail of the final reply of an enable whose output has been disabled since (R209). -/
def pastDetail (x : OutputSt) (e : EnableCmd) : List Field :=
  [fAt 16 0 8 (outStateCode x.state), fAt 20 0 16 x.attempts, fAt 24 0 64 (wpBits e.first)]

/-- OUTPUT_ENABLE's final reply once the link is RUNNING (R209). -/
def enableDone (s : State) (o : Nat) : State :=
  let x := getOut s o
  match x.enable with
  | some e =>
    if e.started then
      let s' := finishKey s e.key (if x.edidDenied then .weirDenied else .ok) (nowBits s) (enableDetail s o)
      modOut s' o fun x => { x with enable := none }
    else s
  | none => s

/-- The EDID read of the first training attempt is written to EDID_DEST; one that failed is not made again (R209). -/
def writeEdid (s : State) (o : Nat) (edid : List Byte) (ok : Bool) : State :=
  match (getOut s o).enable with
  | some e =>
    let tried := (getOut s o).edidTried
    let s := modOut s o fun x => { x with edidTried := true }
    if e.edidDest = 0 ∨ edid.length ≠ 256 ∨ tried then s
    else
      let (s, done) := destWrite s e.key.slice engLock e.space ok e.edidDest edid
      modOut s o fun x => { x with edidDone := done, edidDenied := !done }
  | none => s

/-- The lane counts and rate codes that an attempt may come to: those of R205, falling back from LANES and MAX_RATE (R207). -/
def trainable (c : OutCfg) (lanes rate : Nat) : Bool :=
  [1, 2, 4].contains lanes && decide (lanes ≤ c.lanes) && decide (rate ≤ c.maxRate) && (c.edp || !([1, 2, 4, 5].contains rate))

/-- LINK_TRAINING_END: an attempt ends with the sink's answer: trained, when the configuration holds R206, or failed (R207). No attempt ends at a configuration that the fallback does not reach (log entry 113). -/
def execLinkTrainingEnd (output result lanes rate : Nat) (sinkPsr : Bool) (edid : List Byte) (edidOk : Bool) (s : State) :
    Host.Outcome State Fault Refusal :=
  .next (
    let x := getOut s output
    if !decide (output < 8) || !x.trainingNow || !scheduling x || !trainable x.cfg lanes rate then s
    else
      let res := if result = 0 ∧ !linkFits s.time.timing x.cfg lanes rate then 3 else result % 16
      let s := writeEdid s output edid edidOk
      let s := modOut s output fun x =>
        { x with trainingNow := false, lanes, rate, retryArmed := res != 0 && x.hpd, downAt := if res = 0 then x.downAt else upTime s
                 state := if res = 0 then .running else .linkDown
                 sr := { x.sr with sink := sinkPsr } }
      let s := postTraining s output res lanes rate
      if res = 0 then enableDone s output else s)

/-- LINK_RETRY_TIMER: one second after the link went down, with HPD high, another attempt starts (R207). -/
def execLinkRetryTimer (output : Nat) (s : State) : Host.Outcome State Fault Refusal :=
  .next (
    let x := getOut s output
    if decide (output < 8) && x.state == .linkDown && x.hpd && x.retryArmed && !x.trainingNow && passed s x.downAt 1000000000 then startTraining s output else s)

/-! OUTPUT_ENABLE (R209). -/

/-- Step 8 checks of OUTPUT_ENABLE. -/
def checkOutputEnable (s : State) (h : Held) (_ : Cmd) : Option Fail :=
  let p := h.pkt
  let o := pf p 16 0 3
  let x := getOut s o
  firstFail [
    (!reservedZero p [(16, 0, 3), (17, 0, 1), (24, 0, 64)] || pf p 24 0 64 % 64 != 0, failWith .badParam),
    (x.state != .disabled || x.enable.isSome, failWith .notReady),
    (decide (outLimit < committedCost s.time.timing x.cfg (projected s (fun _ => true) o)), failWith .budgetExceeded)]

/-- OUTPUT_ENABLE's commit point: the sequencer starts at the first output frame start at or after the boundary (R209). -/
def actOutputEnable (s : State) (h : Held) (_ : Cmd) : State :=
  let p := h.pkt
  let f := actBoundary s h
  holdOn (modOut s (pf p 16 0 3) fun x =>
    { x with enable := some { key := heldKey h, space := pb p 17 0, edidDest := pf p 24 0 64, frame := f } }) h

/-- OUTPUT_ENABLE (0x302). -/
def execOutputEnable (c : Cmd) (s : State) : Host.Outcome State Fault Refusal :=
  .next (runPacket s c 0x302 (fun _ => true) checkOutputEnable actOutputEnable)

/-- A record waits on a slot. -/
def slotAwaited (s : State) (k : Nat) : Bool := s.comp.records.any fun r => r.layers.any fun l => l.key == k

/-- R210: an active surface layer without a buffer latches the one its descriptor names when that is ready at a boundary. -/
def relatch (s : State) (k : Nat) : State :=
  let x := getSlot s k
  match x.active.desc with
  | some d =>
    if d.handle = 0 ∨ x.active.buf.isSome ∨ slotAwaited s k then s
    else match lookup s d.handle with
      | some y => if passComplete y then modSlot s k fun x => { x with active := { x.active with buf := some (d.handle, y.pass) } } else s
      | none => s
  | none => s

/-- At a boundary the surface layers of the outputs that compose latch again; on an output about to start, the test is made anew at each boundary before its first frame (R210). -/
def relatchAll (s : State) : State :=
  forEach allSlots (fun k s =>
    let x := getOut s (k / 8)
    if scheduling x then relatch s k
    else if x.enable.any fun e => frameReached (now s) e.frame then
      relatch (modSlot s k fun y => { y with active := { y.active with buf := none } }) k
    else s) s

/-- OUTPUT_ENABLE_START: at the first output frame start at or after the boundary the sequencer starts, and ST_DEFERRED is sent (R209). -/
def outputEnableStart (output : Nat) (s : State) : State :=
  let x := getOut s output
  let i := outFrameNow s x.cfg (now s)
  let w := outFrameStart s x.cfg i
  (match x.enable with
    | some e =>
      if e.started || x.state != .disabled || !wpReached w ⟨e.frame, 0, 0⟩ || !wpReached (now s) w then s
      else
        let s := modOut s output fun x =>
          { x with state := .training, attempts := 0, edidTried := false, edidDone := false, edidDenied := false, inFrame := false
                   enable := some { e with started := true, first := w, startAt := upTime s } }
        let s := match findHeld s e.key with
          | some h => defer s h []
          | none => s
        let s := beginFrame s output i
        if x.hpd then startTraining s output else s
    | none => s)

/-- OUTPUT_ENABLE_TIMEOUT: two seconds without a trained link (R209); the oldest enable that waits for one ends, be its output disabled since. -/
def execOutputEnableTimeout (output : Nat) (s : State) : Host.Outcome State Fault Refusal :=
  let x := getOut s output
  .next (match x.pastEnables, x.enable with
    | e :: l, _ => if !passed s e.startAt 2000000000 then s
      else finishKey (modOut s output fun x => { x with pastEnables := l }) e.key .timeout (nowBits s) (pastDetail x e)
    | [], some e =>
      if !e.started || !passed s e.startAt 2000000000 then s
      else
        let s := modOut s output fun x => if x.state = .training then { x with state := .linkDown, retryArmed := x.hpd && !x.trainingNow, downAt := upTime s } else x
        let s := finishKey s e.key .timeout (nowBits s) (enableDetail s output)
        modOut s output fun x => { x with enable := none }
    | [], none => s)

/-! OUTPUT_DISABLE (R210). -/

/-- Step 8 checks of OUTPUT_DISABLE. -/
def checkOutputDisable (s : State) (h : Held) (_ : Cmd) : Option Fail :=
  let x := getOut s (pf h.pkt 16 0 3)
  firstFail [
    (!reservedZero h.pkt [(16, 0, 3)], failWith .badParam),
    (!scheduling x, failWith .notReady)]

/-- OUTPUT_DISABLE's commit point (R210). -/
def actOutputDisable (s : State) (h : Held) (_ : Cmd) : State :=
  let f := actBoundary s h
  holdOn (modOut s (pf h.pkt 16 0 3) fun x => { x with disables := x.disables ++ [(heldKey h, f)] }) h

/-- OUTPUT_DISABLE (0x303). -/
def execOutputDisable (c : Cmd) (s : State) : Host.Outcome State Fault Refusal :=
  .next (runPacket s c 0x303 (fun _ => true) checkOutputDisable actOutputDisable)

/-- The Layer Pipe releases the latches of a slot; its layer stays (R210). -/
def unlatchSlot (x : Slot) : Slot :=
  { x with active := { x.active with buf := none }, shown := {}, lastPass := none, decided := [], decNext := [], decFor := none
           counter := none, frameW := 0, frameH := 0, unfitLayer := false, reported := none, outside := false }

/-- OUTPUT_DISABLE_ACT: at the first output frame start at or after the boundary the output stops; an OUTPUT_DISABLE for a later one finds it DISABLED and ends with ST_NOT_READY (R210; log entry 113). -/
def execOutputDisableAct (output : Nat) (s : State) : Host.Outcome State Fault Refusal :=
  let x := getOut s output
  let i := outFrameNow s x.cfg (now s)
  let w := outFrameStart s x.cfg i
  let due (d : CmdKey × Nat) : Bool := wpReached w ⟨d.2, 0, 0⟩ && wpReached (now s) w
  .next (if !x.disables.any due then s
      else
        let s := modOut s output fun x =>
          { x with state := .disabled, disables := [], inFrame := false, line := 0, trainingNow := false, retryArmed := false
                   actions := [], enable := if x.enable.any EnableCmd.started then none else x.enable
                   pastEnables := x.pastEnables ++ (x.enable.toList.filter EnableCmd.started)
                   lanes := 0, rate := 0, sr := { x.sr with granted := false, idleFrames := 0, equal := 0, cause := 0, frames := 0 } }
        let s := forEach (List.range 8) (fun k s => modSlot s (slotKey output k) unlatchSlot) s
        let s := modCarry s output fun c => match c.moveTo with
          | some (b, p) => { c with bank := b, pipe := p, moveTo := none, stranded := false, arming := none }
          | none => match c.arming with
            | some (b, p) => { c with bank := b, pipe := p, arming := none }
            | none => c
        let s := noteMoved s output 0 0
        let s := applyRectOps s output
        forEach x.disables (fun d s => finishKey s d.1 (if due d then .ok else .notReady) (wpBits w) []) (emit s (.link output 4)))

/-! SELF_REFRESH_REQUEST (R220). -/

/-- Step 8 checks of SELF_REFRESH_REQUEST. -/
def checkSelfRefresh (s : State) (h : Held) (_ : Cmd) : Option Fail :=
  let p := h.pkt
  let x := getOut s (pf p 16 0 3)
  let grant := pb p 16 7; let n := pf p 17 0 8
  firstFail [
    (!reservedZero p [(16, 0, 3), (16, 7, 1), (17, 0, 8)] || (grant && decide (n < 2)) || (!grant && n != 0), failWith .badParam),
    (x.state == .unconfigured || x.state == .disabled, failWith .notReady),
    (grant && (!x.cfg.srAllowed || !x.cfg.edp), failWith .badParam)]

/-- SELF_REFRESH_REQUEST's effect. -/
def actSelfRefresh (s : State) (h : Held) (_ : Cmd) : State :=
  let p := h.pkt
  let o := pf p 16 0 3
  let grant := pb p 16 7
  let s := modOut s o fun x => { x with sr := { x.sr with granted := grant, idleFrames := pf p 17 0 8 } }
  let s := if grant then s else refreshCause s o 6
  let bar := refreshBar s o
  finishNow s h .ok [fAt 16 0 8 (grant && bar == 0).toNat, fAt 17 0 8 bar]

/-- SELF_REFRESH_REQUEST (0x305). -/
def execSelfRefreshRequest (c : Cmd) (s : State) : Host.Outcome State Fault Refusal :=
  .next (runPacket s c 0x305 (fun _ => true) checkSelfRefresh actSelfRefresh)

end Sys2Proof.Machine
end

