-- ==== Sys2Proof/Machine/Rects.lean ====
section
/-! DEFINITION. Rectangle checks and Stillwater (R211 to R219). -/
namespace Sys2Proof.Machine
open Sys2Proof

/-- R214: the CRC-8 of an expected value, its rectangle and its letter. -/
def expectedCheck (value rect letter : Nat) : Nat :=
  crcFwd 8 0x07 0xFF (bytesLE 4 value ++ [BitVec.ofNat 8 rect, BitVec.ofNat 8 letter])

/-- The settings of a SET. -/
def rectCfgOf (p : Packet) : RectCfg :=
  { mode := pf p 17 2 2, action := pf p 17 4 2, sourceValid := pb p 17 6, bValid := pb p 17 7, source := pf p 18 0 12
    freezeN := pf p 20 0 8, checkA := pf p 21 0 8, checkB := pf p 22 0 8, x := pf p 24 0 13, y := pf p 26 0 13, w := pf p 28 0 13
    h := pf p 30 0 13, expA := pf p 32 0 32, expB := pf p 36 0 32 }

/-- Index of the rectangle a packet names: 16 x output + rectangle. -/
def rectOf (p : Packet) : Nat := 16 * pf p 16 0 3 + pf p 16 3 4

/-- The rectangles as the operations already replied leave them (R216). -/
def rectView (s : State) (r : Nat) : Rect :=
  (s.scan.rectOps.filter fun op => op.replied && op.rect == r).foldl (fun x op =>
    if op.op = 0 then { used := true, owner := op.owner, cfg := op.cfg }
    else if op.op = 1 then {} else { x with latch := false, failures := 0 }) (getRect s r)

/-- A field of SET out of range. -/
def setBad (s : State) (p : Packet) : Bool :=
  let c := rectCfgOf p
  let o := (getOut s (pf p 16 0 3)).cfg
  !reservedZero p [(16, 0, 7), (17, 0, 8), (18, 0, 12), (20, 0, 8), (21, 0, 8), (22, 0, 8), (24, 0, 13), (26, 0, 13), (28, 0, 13),
    (30, 0, 13), (32, 0, 32), (36, 0, 32)] || c.mode == 3 || c.action == 3 ||
  (c.mode == 1 && (!c.sourceValid || c.action != 0)) || (c.action == 1 && !c.sourceValid) ||
  (c.mode != 1 && c.freezeN != 0) || (c.mode != 0 && c.expA != 0) || (!(c.mode == 0 && c.bValid) && c.expB != 0) ||
  ((getOut s (pf p 16 0 3)).state != .unconfigured &&
    (c.w == 0 || c.h == 0 || decide (o.hActive < c.x + c.w) || decide (o.vActive < c.y + c.h)))

/-- Step 8 checks of RECT_CHECK_SET SET. -/
def checkRectSet (s : State) (h : Held) (_ : Cmd) : Option Fail :=
  let p := h.pkt
  let o := pf p 16 0 3
  let c := rectCfgOf p
  let r := rectOf p
  let x := rectView s r
  let guest := h.slice != 0
  let e := getEntry s c.source
  firstFail [
    (setBad s p, failWith .badParam),
    ((getOut s o).state == .unconfigured, failWith .notReady),
    (c.sourceValid && !e.valid, failWith .notReady),
    (guest && (!admits (getGroup s (groupOfOutput s o)) h.slice || (x.used && x.owner != h.slice) || (c.sourceValid && e.owner != h.slice) ||
      c.action == 2), failWith .notPermitted),
    (c.mode == 0 && (expectedCheck c.expA r 0 != c.checkA || (c.bValid && expectedCheck c.expB r 1 != c.checkB)), failWith .checkFailed)]

/-- Step 8 checks of REMOVE, REARM and READ. -/
def checkRectOther (s : State) (h : Held) (_ : Cmd) : Option Fail :=
  let p := h.pkt
  let x := rectView s (rectOf p)
  firstFail [
    (!reservedZero p [(16, 0, 7), (17, 0, 2)], failWith .badParam),
    ((getOut s (pf p 16 0 3)).state == .unconfigured || !x.used, failWith .notReady),
    (h.slice != 0 && x.owner != h.slice, failWith .notPermitted)]

/-- The commit point of SET, REMOVE and REARM: the operation waits for its boundary (R216). -/
def actRectOp (s : State) (h : Held) (_ : Cmd) : State :=
  let p := h.pkt
  let op : RectOp := { key := heldKey h, rect := rectOf p, op := pf p 17 0 2, cfg := rectCfgOf p, owner := h.slice, frame := actBoundary s h }
  holdOn { s with scan := { s.scan with rectOps := s.scan.rectOps ++ [op] } } h

/-- RECT_CHECK_SET with OP SET (0x304). -/
def execRectCheckSetSet (c : Cmd) (s : State) : Host.Outcome State Fault Refusal :=
  .next (runPacket s c 0x304 (fun h => pf h.pkt 17 0 2 == 0) checkRectSet actRectOp)

/-- RECT_CHECK_SET with OP REMOVE (0x304). -/
def execRectCheckSetRemove (c : Cmd) (s : State) : Host.Outcome State Fault Refusal :=
  .next (runPacket s c 0x304 (fun h => pf h.pkt 17 0 2 == 1) checkRectOther actRectOp)

/-- RECT_CHECK_SET with OP REARM (0x304). -/
def execRectCheckSetRearm (c : Cmd) (s : State) : Host.Outcome State Fault Refusal :=
  .next (runPacket s c 0x304 (fun h => pf h.pkt 17 0 2 == 2) checkRectOther actRectOp)

/-- READ's effect: the result record; a latched rectangle reads SKIPPED (R215, R216). -/
def actRectRead (s : State) (h : Held) (_ : Cmd) : State :=
  let x := getRect s (rectOf h.pkt)
  finishNow s h .ok [fAt 16 0 32 x.crc, fAt 20 0 8 (if x.latch then 4 else x.result), fAt 21 0 1 x.latch.toNat,
    fAt 22 0 16 (min x.failures 0xFFFF), fAt 24 0 32 x.lastFrame, fAt 28 0 16 x.undetermined]

/-- RECT_CHECK_SET with OP READ (0x304). -/
def execRectCheckSetRead (c : Cmd) (s : State) : Host.Outcome State Fault Refusal :=
  .next (runPacket s c 0x304 (fun h => pf h.pkt 17 0 2 == 3) checkRectOther actRectRead)

/-- Reply to the rectangle operations of boundary f; on an output that starts no frames they take effect at once (R216). -/
def replyRectOps (s : State) : State :=
  let due (op : RectOp) : Bool := !op.replied && frameDue s op.frame
  let s := forEach (s.scan.rectOps.filter due) (fun op s =>
    let b := boundaryBits op.frame
    let mark (ok : Bool) (s : State) : State := { s with scan := { s.scan with rectOps := s.scan.rectOps.flatMap fun q =>
      if q.key == op.key && !q.replied then (if ok then [{ q with replied := true }] else []) else [q] } }
    if op.op ≠ 0 ∧ !(rectView s op.rect).used then finishKey (mark false s) op.key .notReady b []
    else finishKey (mark true s) op.key .ok b []) s
  forEach (List.range 8) (fun o s => if scheduling (getOut s o) then s else applyRectOps s o) s

/-! Events (R215). -/

/-- EV_RECT_CHECK. -/
def rectEventBits (s : State) (r : Nat) : Nat :=
  let x := getRect s r
  eventBits 0x0301 (wpBits (getOut s (r / 16)).start) [fAt 2 0 3 (r / 16), fAt 2 3 4 (r % 16), fAt 3 0 8 x.result,
    fAt 4 0 32 (if x.result = 3 then 0 else x.crc), fAt 16 0 32 x.cfg.expA, fAt 20 0 2 (if x.latch then x.cfg.action else 0),
    fAt 21 0 8 x.owner, fAt 22 0 12 (if x.cfg.sourceValid then x.cfg.source else 0), fAt 24 0 32 x.failures]

/-- Post EV_RECT_CHECK to the manager and the owner, at most once a wall frame; a further change waits for the next (R215). -/
def postRect (s : State) (r : Nat) : State :=
  let x := getRect s r
  if x.eventFrame = some (now s).frame then modRect s r fun x => { x with pendEvent := true }
  else
    let s := modRect s r fun x => { x with eventFrame := some (now s).frame, pendEvent := false }
    let bits := rectEventBits s r
    let s := postEvent s 0 bits
    if x.owner = 0 then s else postEvent s x.owner bits

/-- The rectangle events that waited for this wall frame (R215). -/
def postRects (s : State) : State :=
  forEach (s.scan.rects.map Prod.fst) (fun r s => if (getRect s r).pendEvent then postRect s r else s) s

/-! Stillwater (R217 to R219). -/

/-- R217: take a signature of a rectangle, of a source pass named by its buffer and PASS; the result code too. -/
def takeSignature (s : State) (r pass crc : Nat) : State × Nat :=
  let x := getRect s r
  let src := x.cfg.source
  if x.refValid ∧ x.refPass = pass then (s, 8)
  else
    let changed := x.refValid && crc != x.refCrc
    let s := modRect s r fun x => { x with refValid := true, refPass := pass, refCrc := crc }
    if !x.refValid then (s, 0)
    else
      let w := tget {} s.scan.still src
      let put (w : Stillwater) (s : State) : State := { s with scan := { s.scan with still := tset {} s.scan.still src w } }
      let judged := w.judgedValid && w.judgedPass == pass
      if changed then
        let s := if judged && w.judgedChanged then s else stillReport s src false
        (put { w with run := 0, judgedValid := true, judgedPass := pass, judgedChanged := true } s, 6)
      else if judged then (s, 7)
      else
        let run := if w.run < 255 then w.run + 1 else w.run
        let s := put { w with judgedValid := true, judgedPass := pass, judgedChanged := false, run } s
        (if w.run < 255 ∧ run = w.n then stillReport s src true else s, 7)

/-! Evaluation (R212 to R215). -/

/-- The words of a rectangle out of kept lines, top to bottom. -/
def rectWords (c : RectCfg) (x0 : Nat) (l : List (Nat × List Nat)) : List Nat :=
  (List.range c.h).flatMap fun i => match assoc l (c.y + i) with
    | some ws => (ws.drop (c.x - x0)).take c.w
    | none => []

/-- A line of the rectangle is in a list. -/
def lineIn (c : RectCfg) (l : List Nat) : Bool := l.any fun j => c.y ≤ j && decide (j < c.y + c.h)

/-- The topmost layer on the output that shows the source and covers the rectangle (R212): its slot and region. -/
def coveringLayer (s : State) (o : Nat) (c : RectCfg) (p : Nat → MapEntry → Bool) : Option (Nat × Region) :=
  match tget [] s.comp.maps o with
  | [] => none
  | m :: _ =>
    ((m.layers.filter fun e => p e.slot e && regionCovers ⟨e.x, e.y, e.w, e.h⟩ ⟨c.x, c.y, c.w, c.h⟩).getLast?).map
      fun e => (e.slot, ⟨e.x, e.y, e.w, e.h⟩)

/-- Results of MATCH and OBSERVE: whether the frame is skipped (R213). -/
def skipped (s : State) (o owner : Nat) (c : RectCfg) : Bool :=
  let x := getOut s o
  lineIn c x.gapLines || lineIn c x.replLines ||
  (c.sourceValid && lineIn c ((x.badLines.filter fun p => p.2 == c.source).map Prod.fst)) ||
  (owner != 0 && (coveringLayer s o c fun _ e => e.owner == owner).isNone)

/-- R214: the result of a MATCH at a check value. -/
def matchResult (c : RectCfg) (r crc : Nat) : Nat :=
  if expectedCheck c.expA r 0 ≠ c.checkA ∨ (c.bValid ∧ expectedCheck c.expB r 1 ≠ c.checkB) then 3
  else if crc = c.expA ∨ (c.bValid ∧ crc = c.expB) then 1 else 2

/-- Store a MATCH or OBSERVE result, latch its action and report a change (R213, R215). -/
def storeMatch (s : State) (r crc result : Nat) : State :=
  let x := getRect s r
  let bad := result == 2 || result == 3
  let judged := bad || result == 1
  let s := modRect s r fun x =>
    { x with
      crc := if result = 4 then x.crc else crc, result, lastFrame := (getOut s (r / 16)).start.frame
      failures := if bad then satAdd 32 x.failures 1 else x.failures
      undetermined := if result = 3 then satAdd 16 x.undetermined 1 else x.undetermined
      latch := x.latch || (bad && x.cfg.mode == 0 && x.cfg.action != 0)
      lastBad := if judged then bad else x.lastBad }
  let s := if bad then refreshCause s (r / 16) 4 else s
  if judged && bad != x.lastBad then postRect s r else s

/-- The result of a CHANGE rectangle (R212, R213, R217). -/
def evalChange (s : State) (r : Nat) : State :=
  let x := getRect s r
  let o := r / 16
  let c := x.cfg
  let out := getOut s o
  let put (result crc : Nat) (s : State) : State :=
    let was := (getRect s r).notCovered
    let s := modRect s r fun x => { x with result, crc, lastFrame := out.start.frame, notCovered := result == 9 }
    if was != (result == 9) then postRect s r else s
  match coveringLayer s o c fun _ e => e.source == c.source with
  | none => put 9 x.crc s
  | some (k, reg) =>
    let lines := out.sourceLines.filterMap fun l => if l.2.1 = k then some (l.1, l.2.2) else none
    let passes := out.passLines.filterMap fun l => if l.2.1 = k ∧ c.y ≤ l.1 ∧ l.1 < c.y + c.h then some (l.2.2.1, l.2.2.2) else none
    if lineIn c out.gapLines || lineIn c out.replLines || passes.length != c.h || passes.any (· != passes.headD (0, 0)) then put 10 x.crc s
    else
      let crc := crcWords 0xFFFFFFFF (rectWords c reg.x lines) ^^^ 0xFFFFFFFF
      let p := passes.headD (0, 0)
      let (s, result) := takeSignature s r (p.1 * 65536 + p.2) crc
      put result crc s

/-- Evaluate a rectangle of the frame in progress. -/
def evalRect (s : State) (r : Nat) : State :=
  let x := getRect s r
  let o := r / 16
  let s := modRect s r fun x => { x with done := true }
  if x.latch then s
  else if x.cfg.mode = 1 then evalChange s r
  else if skipped s o x.owner x.cfg then storeMatch s r x.crc 4
  else
    let crc := crcWords 0xFFFFFFFF (rectWords x.cfg 0 (getOut s o).checkLines) ^^^ 0xFFFFFFFF
    storeMatch s r crc (if x.cfg.mode = 2 then 5 else matchResult x.cfg r crc)

/-- The WP at which the last pixel of a rectangle's last line leaves its unit (R47, R202, R213). -/
def rectDue (s : State) (o : Nat) (c : RectCfg) : Wp :=
  let x := (getOut s o).cfg
  addTicks (wallLines s) (getOut s o).start (outPixelOffset s x (c.y + c.h - 1) (c.x + c.w))

/-- RECT_EVALUATE: the last pixel of a rectangle's last line leaves its unit, once an output frame (R213). -/
def execRectEvaluate (output rect : Nat) (s : State) : Host.Outcome State Fault Refusal :=
  let r := 16 * output + rect
  let x := getRect s r
  let o := getOut s output
  .next (if decide (output < 8) && decide (rect < 16) && x.used && scheduling o && o.inFrame && o.line == x.cfg.y + x.cfg.h && !x.done &&
        comesThisLine s (rectDue s output x.cfg) then evalRect (passTo s (rectDue s output x.cfg)) r
    else s)

end Sys2Proof.Machine
end

