-- ==== Sys2Proof/Machine/Fabric.lean ====
section
/-! DEFINITION. Latches of readers, and exports (R118, R345, R346): what a writer's progress sends over the fabric. -/
namespace Sys2Proof.Machine
open Sys2Proof

/-- A latch of a reader is taken (R118). -/
def takeLatch (s : State) (r : Reader) (i pass : Nat) : State :=
  { s with store := { s.store with latches := s.store.latches ++ [{ reader := r, surf := i, pass }] } }

/-- A reader's latches end. -/
def endLatch (s : State) (r : Reader) : State :=
  { s with store := { s.store with latches := s.store.latches.filter fun l => l.reader != r } }

/-- An export. -/
def getExport (s : State) (n : Nat) : Export := tget {} s.fabric.exports n
/-- Change an export. -/
def modExport (s : State) (n : Nat) (f : Export → Export) : State :=
  { s with fabric := { s.fabric with exports := tmod {} s.fabric.exports n f } }

/-! Exports (R345). -/

/-- The FRAME and STATE payload of a source and a pass (R346). -/
def framePayload (s : State) (n src i : Nat) : List Byte :=
  let e := getEntry s src
  let x := getSurf s i
  bytesLE 32 (packFields [fAt 0 0 32 s.time.timing.wallId, fAt 4 0 48 (lineWpBits e.origin), fAt 10 0 48 (lineWpBits e.ageBase),
    fAt 16 0 12 (if e.kind = .imported then e.originAddr else s.fabric.addr), fAt 18 0 4 (stateCode e.state), fAt 19 0 8 x.format,
    fAt 20 0 14 (passSize x).1, fAt 22 0 14 (passSize x).2, fAt 24 0 32 (getExport s n).frames])

/-- A packet of an export on VC 1. -/
def exportPkt (s : State) (n kind : Nat) (payload : List Byte) : Pkt :=
  { dest := (getExport s n).dest, src := s.fabric.addr, vc := 1, kind, exportId := n, frameSeq := (getExport s n).frames, payload }

/-- Running exports of a source, not suspended. -/
def exportsOf (s : State) (src : Nat) : List Nat :=
  (s.fabric.exports.filter fun e => e.2.used && e.2.source == src).map Prod.fst

/-- The pass an export sends ends. -/
def endExportPass (s : State) (n : Nat) : State :=
  endLatch (modExport s n fun e => { e with cur := none, sent := 0, sentC := 0 }) (.exporter n)

/-- A writer starts a pass of a source: its exports latch it, as far as LATCHES goes, and send FRAME (R114, R345). -/
def exportFrame (s : State) (src i : Nat) : State :=
  let t := (getEntry s src).state
  forEach (exportsOf s src) (fun n s =>
    let s := endExportPass s n
    if (getExport s n).suspended || t == .stale || t == .unfit || t == .withdrawn || 511 ≤ (latchPasses s i).length then s
    else
      let pass := (getSurf s i).pass
      let s := takeLatch (modExport s n fun e => { e with cur := some (i, pass), frames := (e.frames + 1) % 2 ^ 32, state := t }) (.exporter n) i pass
      routePkt s none (exportPkt s n 3 (framePayload s n src i))) s

/-- Bytes of one line, chroma line or tile row in the stored format, or none when they cannot be read: an access refused, a unit poisoned, or a block that a decompressor would discard (R108, R150, R371). -/
def storedLine (s : State) (x : Surface) (y : Nat) (chroma : Bool) : Option (List Byte) :=
  if formatCompressed x.format then
    let head := readBytes s (x.base + y * recordSize x.width) (recordSize x.width)
    match rowOffsets s x y with
    | none => none
    | some o =>
      let a := x.base + dataOffset x.width x.height + y * x.pitch
      let n := o.getLastD 0 * 16
      let whole := (List.range (x.width / 64)).all fun c => match readTile s x c y with | .ok _ => true | .error _ => false
      if !whole || !weirAllows s x.owner engFabric false a (max n 1) then none else some (head ++ readBytes s a n)
  else
    let a := x.base + (if chroma then x.height + y else y) * x.pitch
    let n := lineSize x.format x.width
    if rangePoisoned s a n || !weirAllows s x.owner engFabric false a n then none else some (readBytes s a n)

/-- What an export's read of a line or tile row meets is recorded: poison (R108), blocks discarded (R150), an access refused (R371). -/
def noteSent (s : State) (x : Surface) (y : Nat) (chroma : Bool) : State :=
  let (y0, n) := if formatCompressed x.format then (4 * y, 4) else (y, 1)
  let (a, len) := if formatCompressed x.format then (x.base + dataOffset x.width x.height + y * x.pitch, x.pitch)
    else (x.base + (if chroma then x.height + y else y) * x.pitch, lineSize x.format x.width)
  match weirDenied s x.owner engFabric false a (max len 1) with
  | some (u, r) => denyAt s x.owner engFabric false r u
  | none => countDiscards (noteRead s a len 1) x y0 n

/-- A LINE packet; a line that cannot be read is sent as LOST. -/
def sendLine (s : State) (n : Nat) (x : Surface) (y : Nat) (chroma : Bool) : State :=
  let d := storedLine s x y chroma
  let s := noteSent s x y chroma
  routePkt s none { exportPkt s n 5 (d.getD []) with lost := d.isNone, chroma, line := y, complete := nowBits s }

/-- Chroma lines complete when FRONTIER stands at a line (R113). -/
def chromaDone (x : Surface) (f : Nat) : Nat := if formatTwoPlane x.format then (f + 1) / 2 else 0

/-- Luma line y of an export, and the chroma line that completes with it. -/
def sendPair (s : State) (n : Nat) (x : Surface) (y : Nat) : State :=
  let s := modExport (sendLine s n x y false) n fun e => { e with sent := y + 1 }
  let c := (getExport s n).sentC
  if c < chromaDone x (y + 1) then modExport (sendLine s n x c true) n fun e => { e with sentC := c + 1 } else s

/-- FRONTIER of a buffer has advanced: the exports that send its pass send each complete line or tile row (R345). -/
def exportLines (s : State) (i : Nat) : State :=
  let x := getSurf s i
  match x.source with
  | none => s
  | some src =>
    let rows := formatCompressed x.format
    let h := if rows then ((passSize x).2 + 3) / 4 else (passSize x).2
    let f := min h (if rows then x.frontier / 4 else x.frontier)
    forEach ((exportsOf s src).filter fun n => (getExport s n).cur == some (i, x.pass)) (fun n s =>
      let k := (getExport s n).sent
      let s := forEach ((List.range (f - k)).map (· + k)) (fun y s => sendPair s n x y) s
      if h ≤ f then endExportPass s n else s) s

/-- A line start: an export whose source's state has changed in a pass sends STATE (R345). -/
def exportStates (s : State) : State :=
  forEach (s.fabric.exports.map Prod.fst) (fun n s =>
    let e := getExport s n
    match e.cur with
    | some (i, _) =>
      let t := (getEntry s e.source).state
      if t = e.state then s
      else routePkt (modExport s n fun e => { e with state := t }) none (exportPkt s n 4 (framePayload s n e.source i))
    | none => s) s

/-- End an export (R249, R345). -/
def endExport (s : State) (n : Nat) : State :=
  let s := endExportPass s n
  { s with fabric := { s.fabric with exports := tset {} s.fabric.exports n {} } }

end Sys2Proof.Machine
end

