-- ==== Sys2Proof/Machine/Reservoir.lean ====
section
/-! DEFINITION. The Reservoir's arbiters and scrubber, device writers, the line ledger's rebuild, SURFACE_WRITE behind readers, and the Sluice lanes (R107, R112 to R119, R125, R126, R152 to R156, R458). -/
namespace Sys2Proof.Machine
open Sys2Proof

/-! Readers that a waitable writer waits for (R119). -/

/-- The luma lines whose fetch reads what a writer stores with lines y0 to y1: in a two-plane format the chroma of a line serves its neighbours (R137). -/
def linesServed (x : Surface) (y0 y1 : Nat) : Nat × Nat :=
  if formatTwoPlane (formatPlain x.format) then (y0 - 1, y1 + 2) else (y0, y1)

/-- A layer still has to fetch one of the source lines y0 to y1 of a buffer in its current output frame. -/
def stillFetches (s : State) (k y0 y1 : Nat) : Bool :=
  let o := k / 8
  let out := getOut s o
  let x := getSlot s k
  match x.shown.desc with
  | none => false
  | some d =>
    let r := regionOf out.cfg d
    scheduling out && out.inFrame && (List.range r.h).any fun i =>
      let j := r.y + i
      let t := tapSpan d.srcH (vTapsOf s d d.srcH (destRow d j))
      decide (out.line ≤ j) && decide (d.srcY + t.1 ≤ y1 ∧ y0 ≤ d.srcY + t.2)

/-- A layer that draws a card of a surface in its current output frame still has lines of the card up to y1 before it (R26). -/
def cardBehind (s : State) (k i pass y1 : Nat) : Bool :=
  let out := getOut s (k / 8)
  let x := getSlot s k
  match x.shown.desc with
  | none => false
  | some d =>
    let e := getEntry s d.source
    match tget none s.ledger.cards e.card with
    | none => false
    | some (h, p) =>
      let r := regionOf out.cfg d
      let top : Int := (r.y : Int) + ((r.h : Int) - ((getSurf s i).height : Int)) / 2
      handleIndex h == i && p != pass && treatmentOf s x.shown.cls e == .substitute && scheduling out && out.inFrame &&
        decide ((out.line : Int) ≤ top + y1) && decide (out.line < r.y + r.h)

/-- CTU or macroblock height of an encode session (R254). -/
def rowHeight (x : Session) : Nat := if x.h264 then 16 else 64

/-- A reader with a latch record of its own still has lines y0 to y1 of a surface to read: an export those it has not sent, an encode session those of rows not coded. -/
def readerBehind (s : State) (r : Reader) (i y0 y1 : Nat) : Bool := match r with
  | .exporter n =>
    let e := getExport s n
    let done := if formatCompressed (getSurf s i).format then 4 * e.sent else e.sent
    decide (done ≤ y1)
  | .session n =>
    let x := tget {} s.media.sessions n
    match x.coding with
    | some p => decide (x.cropY + p.row * rowHeight x ≤ y1 ∧ y0 < x.cropY + x.height)
    | none => false
  | .transit _ => false

/-- A reader latched at a pass other than the one being written has not passed lines y0 to y1 (R119). -/
def writerBlocked (s : State) (i pass y0 y1 : Nat) : Bool :=
  let (z0, z1) := linesServed (getSurf s i) y0 y1
  (s.comp.slots.any fun e =>
    let latched := match e.2.shown.buf with
      | some (h, p) => h != 0 && handleIndex h == i && p != pass
      | none => match e.2.lastPass with
        | some (j, p) => j == i && p != pass
        | none => false
    (latched && stillFetches s e.1 z0 z1) || cardBehind s e.1 i pass z1) ||
  s.store.latches.any fun l => l.surf == i && l.pass != pass && readerBehind s l.reader i z0 z1

/-! The line ledger's errors (R115). -/

/-- The pass a SURFACE_WRITE writes into. -/
def writePass (x : Surface) (p : Packet) : Nat := if pb p 28 0 then (x.pass + 1) % 65536 else x.pass

/-- Every writer whose pass of a surface is in progress abandons it: a DisplayPort frame, an import's pass, a decoder's picture, the rows with the lanes (R115). -/
def abandonPass (s : State) (i : Nat) : State :=
  let s := abandonRows s i
  let pic (x : DecCtx) : Bool := match x.pic with | some p => p.surf == i && !p.orphan | none => false
  { s with
    media := { s.media with
      deliveries := s.media.deliveries.filter fun d => d.surf != i
      dpins := tmap {} (fun _ d => { d with frame := d.frame.filter fun f => f.surf != i }) s.media.dpins
      ctxs := tmap {} (fun _ x => if pic x then { x with pic := none, queue := x.queue.drop 1, damaged := satAdd 32 x.damaged 1 } else x) s.media.ctxs }
    fabric := { s.fabric with imports := tmap {} (fun _ m => { m with passes := m.passes.filter fun p => p.surf != i }) s.fabric.imports } }

/-- An uncorrectable error in a surface's ledger entry: the entry is rebuilt, with its event and fault record; a pass in progress is abandoned, and a picture kept there for reference is lost (R115). -/
def lineLedgerEcc (s : State) (i : Nat) : State :=
  let x := getSurf s i
  let h := handleOf i x
  let job := s.sluice.writes.find? fun j => j.surf == i && !j.orphan
  let s := abandonPass s i
  let s := { s with
    sluice := { s.sluice with writes := s.sluice.writes.filter fun j => j.surf != i || j.orphan }
    media := { s.media with ctxs := tmap {} (fun _ c => { c with refs := c.refs.map fun r => if r.surf = i then { r with lost := true } else r }) s.media.ctxs } }
  let s := modSurf s i fun x => { x with rebuilding := true, failKey := match job with | some j => some j.key | none => x.failKey }
  let s := match x.source with
    | some src => if x.frontier < surfaceLines x ∧ x.pass ≠ 0 then { s with store := { s.store with redo := src :: s.store.redo.filter (· != src) } } else s
    | none => s
  let s := postEvent s 0 (eventBits 0x0101 (nowBits s) [fAt 2 0 8 4, fAt 24 0 32 h, fAt 28 0 2 1])
  addFault s 0x0D 0 h

/-- What an access to a ledger entry finds: nothing, a single-bit error, corrected and counted on pseudo-channel 0, or an error that makes the entry lost (R115). -/
def ledgerAccess (s : State) (i ecc : Nat) : State :=
  if ecc = 1 then countCorrected s 0 1 else if ecc = 2 ∧ !(getSurf s i).rebuilding then lineLedgerEcc s i else s

/-- SURFACE_WRITE (0x103).  A write to a handle of an old generation is recorded as a violation (R123); one that meets a rebuild, a reader behind it or rows of an earlier write still with the lanes waits (R115, R119, R131); a first value of 1 with the command says that the ledger entry failed while its lines were recorded, one of 2 that a single-bit error in it was corrected (R115). -/
def execSurfaceWrite (c : Cmd) (s : State) : Host.Outcome State Fault Refusal :=
  .next (match findHeld s ⟨c.slice, c.ring, c.index⟩ with
    | none => s
    | some h =>
      let p := h.pkt
      let hd := pf p 16 0 32; let i := handleIndex hd
      let x := latchedSurf s hd
      let first := pf p 20 0 32; let count := pf p 24 0 32
      let mine := h.phase = .taken && pktOpcode p == 0x103
      let busy := x.rebuilding || (s.sluice.writes.any fun j => j.surf == i) || (decide (0 < count) && writerBlocked s i (writePass x p) first (first + count - 1))
      if mine && (lookup s hd).isSome && busy then s
      else if mine && c.obs.getD 0 0 == 1 && (checkSurfaceWrite s h c).isNone && h.len == 1 then
        holdOn (modSurf (lineLedgerEcc s i) i fun x => { x with failKey := some (heldKey h) }) h
      else
        let s := if mine && c.obs.getD 0 0 == 2 && (lookup s hd).isSome then ledgerAccess s i 1 else s
        let s := if mine && reservedZero p writeResv && (lookup s hd).isNone then denyStale s h.slice engHost x.base hd else s
        runPacket s c 0x103 (fun _ => true) checkSurfaceWrite actSurfaceWrite)

/-- The highest pass that a reader's latch holds (R115). -/
def highestLatch (s : State) (i : Nat) : Option Nat :=
  (latchPasses s i).foldl (fun b p => some (match b with | some q => if passLater p q then p else q | none => p)) none

/-- LINE_LEDGER_REBUILT: the rebuilt entry takes effect, and what waited for it ends (R115). -/
def execLineLedgerRebuilt (index : Nat) (s : State) : Host.Outcome State Fault Refusal :=
  .next (
    let x := getSurf s index
    if !x.rebuilding then s
    else
      let p := match highestLatch s index with
        | some q => (q + 1) % 65536
        | none => 1
      let s := modSurf s index fun x =>
        { x with rebuilding := false, pass := p, frontier := 0, rowsDone := [], rebuiltPass := some p, poisoned := true
                 needStart := decide (x.writer = .host), failKey := none }
      let s := match x.failKey with
        | some k => finishKey s k .checkFailed (nowBits s) [fAt 16 0 32 0, fAt 20 0 16 p]
        | none => s
      forEach (s.store.fences.filter fun f => f.surf == index && !f.unlatched) (fun f s => endFence s f .checkFailed) s)

/-! Device writers (R116, R117, R119, R156). -/

/-- The engine class of a writer (R365). -/
def writerEngine : Writer → Nat
  | .host => engHost | .decode => engDecode | .dpin => engIngress | .fabric => engFabric | .batch => engSluice | .capture => engEncode

/-- A writer may start a pass on a surface now (R119). -/
def passAllowed (s : State) (i : Nat) : Bool :=
  let x := getSurf s i
  x.used && !x.releasePending && x.writer != .host && !x.rebuilding && (x.waitable || latchCount s i == 0)

/-- WRITER_PASS_START: a device writer starts a pass on a buffer (R116, R119). -/
def execWriterPassStart (handle : Nat) (s : State) : Host.Outcome State Fault Refusal :=
  .next (if (lookup s handle).isSome && passAllowed s (handleIndex handle) then beginPass s (handleIndex handle) else s)

/-- A device writer's unit is denied: the write is dropped, and the delivery is damaged (R371). -/
def dropWrite (s : State) (i engine : Nat) (d : Nat × Nat) : State :=
  let x := getSurf s i
  let s := denyAt s x.owner engine true d.2 d.1
  match x.source with
  | none => s
  | some src =>
    let s := markDamaged s src
    { s with store := { s.store with redo := s.store.redo.filter (· != src) ++ [src] } }

/-- Bytes of a luma or packed line of a compressed format's uncompressed form, and of one of its pixels (R140). -/
def rowLineBytes (x : Surface) : Nat := if x.format = 0x60 ∨ x.format = 0x44 then x.width else 4 * x.width

/-- Bytes of the pixel that is repeated at the end of a line: a chroma pair in a chroma plane, a pair of pixels in YUYV (R135, R248). -/
def pixelBytes (f : Nat) (chroma : Bool) : Nat :=
  let n := if f = 0x10 ∨ f = 0x21 then 2 else if inRange f 0x11 0x13 || inRange f 0x51 0x53 || f == 0x22 then 4 else 1
  if chroma then 2 * n else n

/-- The last element repeated until a list has n. -/
def padLast {α : Type} (n : Nat) (l : List α) : List α := match l.getLast? with
  | some a => l ++ List.replicate (n - l.length) a
  | none => l

/-- A line of bytes whose last pixel of m bytes is repeated to n bytes (R248, R285). -/
def padPixels (m n : Nat) (l : List Byte) : List Byte :=
  let p := l.drop (l.length - m)
  (l ++ (List.replicate ((n - l.length) / m + 1) p).flatten).take n

/-- One plane line of a device writer, its rounded part filled with the last pixel, checked by the Weir, stored and shown to the Gauge (R248, R381), or dropped when denied (R371). -/
def planeLine (s : State) (i y : Nat) (data : List Byte) : State :=
  let x := getSurf s i
  let e := writerEngine x.writer
  let n := lineSize x.format x.width
  let data := padPixels (pixelBytes x.format (decide (x.height ≤ y))) n (data.take n)
  match weirDenied s x.owner e true (x.base + y * x.pitch) n with
  | some d => dropWrite s i e d
  | none => gaugeLine (storeLine s x y data) i y data

/-- One line, with its chroma line, or one 4 KiB unit of a byte buffer, of a writer reaches an uncompressed surface (R113, R116, R117); a denied line is dropped (R371). -/
def writerLine (s : State) (i : Nat) (data : List Byte) : State :=
  let x := getSurf s i
  let y := x.frontier
  let s :=
    if x.format = 0 then
      match weirDenied s x.owner (writerEngine x.writer) true (x.base + y * 4096) 4096 with
      | some d => dropWrite s i (writerEngine x.writer) d
      | none => gaugeLine (storeUnit s x y data) i y (data.take 4096)
    else
      let n := lineSize x.format x.width
      let s := planeLine s i y (data.take n)
      if formatTwoPlane x.format ∧ y % 2 = 0 ∧ n < data.length then planeLine s i (x.height + y / 2) (data.drop n) else s
  exportLines (modSurf s i (advance 1)) i

/-! Tile rows (R143, R151 to R156). -/

/-- The SURFACE_WRITE whose tile rows stand with the lanes ends with a status (R131). -/
def endWriteJob (s : State) (j : WriteJob) (st : Status) : State :=
  finishKey { s with sluice := { s.sluice with writes := s.sluice.writes.filter fun k => k.key != j.key || k.surf != j.surf } } j.key st (nowBits s)
    (writeDetail s j.surf)

/-- A tile row of a SURFACE_WRITE is refused: those after it are not written, and the command ends with ST_WEIR_DENIED (R131, R371). -/
def refuseRow (s : State) (i : Nat) (d : Nat × Nat) : State :=
  let s := denyAt (abandonRows s i) (getSurf s i).owner engHost true d.2 d.1
  match s.sluice.writes.find? fun j => j.surf == i with
  | some j => endWriteJob s j .weirDenied
  | none => s

/-- Write one tile row of a surface, with the columns that are stored raw, count it, and let FRONTIER pass it once every older row is written (R143, R156, R439); a refused row is dropped (R371). -/
def writeTileRow (s : State) (engine lane i r : Nat) (raw : List Byte) (rawCols : List Nat) : State :=
  let x := getSurf s i
  let host := x.writer = .host
  match weirDenied s x.owner engine true (x.base + dataOffset x.width x.height + r * x.pitch) x.pitch with
  | some d => if host then refuseRow s i d else exportLines (rowWritten (dropWrite s i engine d) i r) i
  | none =>
    let luma := chunksOf (rowLineBytes x) 4 raw
    let chroma := if x.format = 0x60 then chunksOf x.width 2 (raw.drop (4 * x.width)) else []
    let t := x.width / 64
    let blocks := (List.range t).map fun c => encodeBlock (r * t + c) (rawCols.contains c) none (tileOf x.format c luma chroma)
    let rawN := (blocks.filter blockIsRaw).length
    let bytes := (blocks.map List.length).foldl (· + ·) 0
    let s := bump (bump (bump (bump s 2 lane 0 blocks.length) 2 lane 1 rawN) 2 lane 2 raw.length) 2 lane 3 bytes
    exportLines (rowWritten (storeRow s x r blocks) i r) i

/-- A complete tile row is offered to the lanes; when the writer's older row still waits, its raw-block writer writes that one (R156). -/
def offerRow (s : State) (i r : Nat) (raw : List Byte) : State :=
  let x := getSurf s i
  let older := s.sluice.queue.find? fun w => w.surf == some i && w.kind == .intake && !w.orphan
  let s := match older with
    | some w => writeTileRow { s with sluice := { s.sluice with queue := s.sluice.queue.filter (· != w) } } (writerEngine x.writer) 0 i w.row w.raw
        (List.range (x.width / 64))
    | none => s
  gaugeLine (queueWork s { kind := .intake, slice := x.owner, surf := some i, row := r, raw }) i r raw

/-- A whole tile row goes to the lanes (R143, R155). -/
def laneRow (s : State) (i r : Nat) (kind : LaneKind) (luma chroma : List (List Byte)) : State :=
  let x := getSurf s i
  let raw := ((padLast 4 luma).map (padPixels (pixelBytes x.format false) (rowLineBytes x))).flatten ++ ((padLast 2 chroma).map (padPixels 2 x.width)).flatten
  gaugeLine (queueWork s { kind, slice := x.owner, surf := some i, row := r, raw }) i r raw

/-- The first line that the writer of a compressed surface has yet to give: after the rows written, with the lanes, and gathered. -/
def nextLineOf (s : State) (i : Nat) : Nat :=
  4 * ((getSurf s i).frontier / 4 + rowsOpen s i) + (tget [] s.sluice.staging i).length

/-- A line enters the staging buffer of a compressed surface's writer (R156). -/
def stageLine (s : State) (i : Nat) (data : List Byte) : State :=
  let x := getSurf s i
  let l := tget [] s.sluice.staging i ++ [data]
  let n := rowLineBytes x
  let r := x.frontier / 4 + rowsOpen s i
  if l.length < 4 ∧ r * 4 + l.length < x.height then { s with sluice := { s.sluice with staging := tset [] s.sluice.staging i l } }
  else
    let luma := l.flatMap fun d => d.take n
    let chroma := if x.format = 0x60 then l.flatMap fun d => d.drop n else []
    offerRow { s with sluice := { s.sluice with staging := tset [] s.sluice.staging i [] } } i r (luma ++ chroma)

/-- A device writer delivers the next line of its pass (R116); behind a reader a WAITABLE one waits (R119), and during a rebuild nothing is recorded (R115). -/
def deliverLine (s : State) (i : Nat) (data : List Byte) : State :=
  let x := getSurf s i
  let y := if formatCompressed x.format then nextLineOf s i else x.frontier
  if x.rebuilding || surfaceLines x ≤ y || x.pass == 0 || (x.waitable && writerBlocked s i x.pass y y) then s
  else if formatCompressed x.format then stageLine s i data
  else writerLine s i data

/-- WRITER_LINE_COMPLETE: a writer's line or unit is acknowledged and FRONTIER advances; ledgerEcc says what the access to the ledger entry found: 0 nothing, 1 a single-bit error, corrected, 2 an uncorrectable one (R115, R116). -/
def execWriterLineComplete (handle : Nat) (data : List Byte) (ledgerEcc : Nat) (s : State) : Host.Outcome State Fault Refusal :=
  .next (
    let i := handleIndex handle
    if (lookup s handle).isNone || (getSurf s i).rebuilding then s
    else
      let s := ledgerAccess s i ledgerEcc
      let x := getSurf s i
      if x.rebuilding || x.writer = .host then s else deliverLine s i data)

/-! Sluice lanes (R151 to R156). -/

/-- The next work in the order of R155: kind by kind, each in arrival order. -/
def nextWork (q : List LaneWork) : Option LaneWork :=
  [LaneKind.intake, .decode, .surfaceWrite, .batch].findSome? fun k => q.find? fun w => w.kind == k

/-- Remove the first element equal to one. -/
def dropFirst (w : LaneWork) : List LaneWork → List LaneWork
  | [] => []
  | a :: r => if a = w then r else a :: dropFirst w r

/-- SLUICE_LANE_TAKE_WORK (R155). -/
def execSluiceLaneTakeWork (lane : Nat) (s : State) : Host.Outcome State Fault Refusal :=
  .next (
    let x := tget {} s.sluice.lanes lane
    if !decide (lane < 2) || x.job.isSome || !x.inService then s
    else match nextWork s.sluice.queue with
      | none => s
      | some w => { s with sluice := { s.sluice with
          queue := dropFirst w s.sluice.queue, lanes := tset {} s.sluice.lanes lane { x with job := some w } } })

/-- Count a mismatch: the lane's coalesced event of its surface, or of byte streams, the total, and the lane's limit (R152). -/
def countMismatch (s : State) (lane : Nat) (w : LaneWork) (block : Nat) : State :=
  let x := tget {} s.sluice.lanes lane
  let total := satAdd 32 x.total 1
  let stream := w.surf.isNone
  let (h, owner) := match w.surf with
    | some i =>
      let y := getSurf s i
      (if y.releasePending then y.relHandle else handleOf i y, y.owner)
    | none => (0, 0)
  let mine (m : MismatchEvent) : Bool := m.lane == lane && m.handle == h && m.stream == stream
  let evs := if s.sluice.events.any mine then s.sluice.events.map fun m => if mine m then { m with count := m.count + 1 } else m
    else s.sluice.events ++ [{ lane, stream, handle := h, owner, wp := now s, block, count := 1 }]
  let hit := total == 256
  let s := { s with sluice := { s.sluice with events := evs, lanes := tset {} s.sluice.lanes lane { x with total, rawMode := x.rawMode || hit } } }
  let s := bump s 2 lane 4 1
  if hit then addFault s 6 lane 0 else s

/-- A lane verifies the blocks of a tile row in column order: the columns to be stored raw, each mismatch counted; from its limit on the lane stores every block raw (R152). -/
def verifyRow (s : State) (lane : Nat) (w : LaneWork) (t : Nat) (bad : List Nat) : State × List Nat :=
  (List.range t).foldl (fun (acc : State × List Nat) c =>
    if (tget {} acc.1.sluice.lanes lane).rawMode then (acc.1, acc.2 ++ [c])
    else if bad.contains c then (countMismatch acc.1 lane w (w.row * t + c), acc.2 ++ [c]) else acc) (s, [])

/-- A lane has compressed and verified a block of a byte stream, which joins the image it belongs to (R99, R152, R153). -/
def streamBlock (s : State) (lane : Nat) (w : LaneWork) (bad : Bool) : State :=
  let rawMode := (tget {} s.sluice.lanes lane).rawMode
  let s := if bad && !rawMode then countMismatch s lane w w.row else s
  let b := encodeBlock w.row (rawMode || bad) (if w.last then some w.raw.length else none) w.raw
  let s := bump (bump (bump (bump s 2 lane 0 1) 2 lane 1 (blockIsRaw b).toNat) 2 lane 2 w.raw.length) 2 lane 3 b.length
  match w.save with
  | some k => { s with migr := { s.migr with saves := s.migr.saves.map fun j => if j.key = k then { j with blocks := tset [] j.blocks w.row b } else j } }
  | none => s

/-- A lane has decompressed a block of a byte stream received over the fabric: one that it discards is counted (R148, R150, R153). -/
def streamCheck (s : State) (w : LaneWork) : State :=
  let hdr := leAt w.raw 0 4
  match decodeBlock w.row (if bitAt hdr 16 then bitsAt hdr 17 12 + 1 else 4096) 0 w.raw with
  | .ok _ => s
  | .error d => countDiscard s d

/-- A lane has compressed and verified its row or block, with the columns whose verification failed, and writes it; a row of a released surface or of an abandoned pass is discarded (R96, R151, R152).  A lane's accesses carry SLUICE, those of a SURFACE_WRITE HOST (R365). -/
def rowComplete (lane : Nat) (mismatch : List Nat) (s : State) : State :=
  match (tget {} s.sluice.lanes lane).job with
  | none => s
  | some w =>
    let s := { s with sluice := { s.sluice with lanes := tmod {} s.sluice.lanes lane fun x => { x with job := none } } }
    match w.surf with
    | some i =>
      let (s, raws) := verifyRow s lane w ((getSurf s i).width / 64) mismatch
      if w.orphan then s else writeTileRow s (if w.kind = .surfaceWrite then engHost else engSluice) lane i w.row w.raw raws
    | none => if w.received then streamCheck s w else streamBlock s lane w (!mismatch.isEmpty)

/-- EV_SLUICE_MISMATCH for every coalesced event, once a wall frame (R152). -/
def postMismatches (s : State) : State :=
  let l := s.sluice.events
  forEach l (fun m s => postEvent s m.owner (eventBits 0x0103 (wpBits m.wp) [fAt 2 0 1 m.lane, fAt 3 0 8 (if m.stream then 2 else 1),
    fAt 4 0 32 m.handle, fAt 16 0 32 m.block, fAt 20 0 32 m.count, fAt 24 0 32 (tget {} s.sluice.lanes m.lane).total]))
    { s with sluice := { s.sluice with events := [] } }

/-! Arbiters (R92, R125, R126). -/

/-- The class an arbiter serves a requester in (R125): 0 RT, 1 ST, 2 BE. -/
def reqClass (r : MemReq) : Nat := match r.requester with
  | .layer _ => 0
  | .host _ | .batch _ | .zeroFill | .scrub | .lockkeeper => 2
  | _ => 1

/-- The engine class that a requester's accesses carry (R365); a host queue in the Reservoir carries HOST. -/
def reqEngine (r : MemReq) : Nat := match r.requester with
  | .layer _ => engLayer
  | .decode _ => engDecode
  | .encode _ | .capture _ => engEncode
  | .dpin _ | .flow _ => engIngress
  | .queue _ | .host _ => engHost
  | .imported _ | .exported _ | .transit => engFabric
  | .audio _ | .haptic _ => engOpio
  | .batch _ => engSluice
  | .zeroFill | .scrub | .lockkeeper => engLock

/-- The source whose delivery a requester serves, if any. -/
def reqSource (s : State) (r : MemReq) : Option Nat := match r.requester with
  | .decode i | .imported i => some i
  | .dpin d => (tget {} s.media.dpins d).source
  | .flow n => let x := tget {} s.media.rules n; if x.bound then some x.source else none
  | .exported n => some (getExport s n).source
  | _ => none

/-- The slice a request is made for and charged to: the owner of the layer, context, session, transfer or job; slice 0 for transit, zero-fill, scrub and Lockkeeper's working store (R92, R126). -/
def reqSlice (s : State) (r : MemReq) : Nat := match r.requester with
  | .layer k => (getSlot s k).shown.owner
  | .encode n | .capture n => (tget {} s.media.sessions n).owner
  | .queue q => (tget {} s.media.queues q).owner
  | .audio n => (tget {} s.io.audio.streams n).owner
  | .haptic c => (tget {} s.io.haptics c).owner
  | .host n | .batch n => n
  | .transit | .zeroFill | .scrub | .lockkeeper => 0
  | _ => match reqSource s r with
    | some i => (getEntry s i).owner
    | none => 0

/-- The weight of a slice in a class. -/
def reqWeight (s : State) (cls slice : Nat) : Nat :=
  let sh := (getSlice s slice).share
  if cls = 1 then sh.stWeight else sh.beWeight

/-- Credits after the start of a round when no slice with a request has any (R126). -/
def roundCredits (s : State) (cls : Nat) (cr : Tab Nat) (slices : List Nat) : Tab Nat :=
  if slices.any fun i => tget 0 cr i != 0 then cr
  else slices.foldl (fun t i => tset 0 t i (min (2 * 256 * reqWeight s cls i) (tget 0 t i + 256 * reqWeight s cls i))) cr

/-- Slices in round-robin order from a number on. -/
def fromNext (n : Nat) (l : List Nat) : List Nat := (l.filter fun i => decide (n ≤ i)) ++ l.filter fun i => decide (i < n)

/-- The slice served next: with credit before without, S before O before A, round robin within (R126). -/
def chooseSlice (s : State) (cr : Tab Nat) (next : Nat) (slices : List Nat) : Option Nat :=
  let ord := fromNext next ((List.range 65).filter fun i => slices.contains i)
  let rank (c : Cls) (credit : Bool) : List Nat := ord.filter fun i => (getSlice s i).cls == c && (tget 0 cr i != 0) == credit
  (rank .s true ++ rank .o true ++ rank .a true ++ rank .s false ++ rank .o false ++ rank .a false).head?

/-- The request an arbiter serves next: RT first, ST before BE but for one slot in 16 (R125, R126), and the pseudo-channel after it. -/
def arbitrate (s : State) (p : PseudoChannel) (reqs : List MemReq) : Option (MemReq × PseudoChannel) :=
  let of (c : Nat) : List MemReq := reqs.filter fun r => reqClass r == c
  let be := of 2; let st := of 1
  let wait := if be.isEmpty then 0 else p.beWait + 1
  match of 0 with
  | r :: _ => some (r, { p with beWait := wait })
  | [] =>
    if !st.isEmpty && (be.isEmpty || decide (wait < 16)) then
      let sl := distinct (st.map (reqSlice s))
      let cr := roundCredits s 1 p.stCredit sl
      match chooseSlice s cr p.stNext sl with
      | some i => (st.find? fun r => reqSlice s r == i).map fun r =>
          (r, { p with stCredit := tset 0 cr i (tget 0 cr i - r.length), stNext := i + 1, beWait := wait })
      | none => none
    else
      let sl := distinct (be.map (reqSlice s))
      let cr := roundCredits s 2 p.beCredit sl
      match chooseSlice s cr p.beNext sl with
      | some i => (be.find? fun r => reqSlice s r == i).map fun r =>
          (r, { p with beCredit := tset 0 cr i (tget 0 cr i - r.length), beNext := i + 1, beWait := 0 })
      | none => none

/-- Occupancies of the three classes added to the group's running figures (R439). -/
def noteOccupancy (p : PseudoChannel) (reqs : List MemReq) : PseudoChannel :=
  let n (c : Nat) : Nat := (reqs.filter fun r => reqClass r == c).length
  let l := [n 0, n 1, n 2]
  { p with occSum := (List.range 3).map fun k => p.occSum.getD k 0 + l.getD k 0
           occPeak := (List.range 3).map fun k => max (p.occPeak.getD k 0) (l.getD k 0), occCount := p.occCount + 1 }

/-- Carry out a request that has passed the Weir: the write, or the read with what its word's check found (R107, R108). -/
def carryOut (s : State) (pc : Nat) (r : MemReq) (ecc : Nat) : State :=
  let c := reqClass r
  let s := bump (bump s 1 pc c r.length) 6 (reqSlice s r) (2 + c) r.length
  if r.write then writeBytes s r.addr (r.data.take r.length)
  else
    let s := if ecc = 1 then countCorrected s pc c else if ecc = 2 then poisonUnit s r.addr else s
    noteRead s r.addr r.length c

/-- The Weir decides a request; the Reservoir's own zero-fill and scrub are not checked (R366). -/
def reqDenied (s : State) (r : MemReq) : Option (Nat × Nat) := match r.requester with
  | .zeroFill | .scrub => none
  | _ => weirDenied s (reqSlice s r) (reqEngine r) r.write r.addr r.length

/-- A request is denied: it is recorded, and the delivery that it serves is damaged; an export's line goes LOST by itself (R371). -/
def denyRequest (s : State) (r : MemReq) (d : Nat × Nat) : State :=
  let s := denyAt s (reqSlice s r) (reqEngine r) r.write d.2 d.1
  match r.requester, reqSource s r with
  | .exported _, _ => s
  | _, some i => markDamaged s i
  | _, none => s

/-- Serve a request: an access by a handle of an old generation fails, a write with a violation (R123), and the Weir decides the rest (R366). -/
def serveRequest (s : State) (pc : Nat) (r : MemReq) (ecc : Nat) : State :=
  if r.handle ≠ 0 ∧ (lookup s r.handle).isNone then
    if r.write then denyStale s (reqSlice s r) (reqEngine r) r.addr r.handle else s
  else match reqDenied s r with
    | some d => denyRequest s r d
    | none => carryOut s pc r ecc

/-- The requests that a pseudo-channel has: those whose unit it serves (R106). -/
def pendingAt (pc : Nat) (reqs : List MemReq) : List MemReq :=
  reqs.filter fun r => pseudoChannel r.addr == pc && decide (r.addr % 256 + r.length ≤ 256)

/-- RESERVOIR_REQUEST_SERVED: the arbiter of a pseudo-channel serves one of its pending requests; ecc says what the read word's check found, 0 nothing, 1 corrected, 2 uncorrectable, or that of the ledger entry of the surface named, 3 corrected, 4 uncorrectable (R108, R115). -/
def execReservoirRequestServed (pc : Nat) (reqs : List MemReq) (ecc : Nat) (s : State) : Host.Outcome State Fault Refusal :=
  .next (match if pc < 32 then arbitrate s (tget {} s.store.pcs pc) (pendingAt pc reqs) else none with
    | none => s
    | some (r, p) =>
      let s := { s with store := { s.store with pcs := tset {} s.store.pcs pc (noteOccupancy p (pendingAt pc reqs)) }
                        power := { s.power with selfRefresh := false } }
      let s := if (lookup s r.handle).isSome ∧ 3 ≤ ecc then ledgerAccess s (handleIndex r.handle) (ecc - 2) else s
      serveRequest s pc r ecc)

/-- PATROL_SCRUB: the scrubber reads the word at an address (R107, R108). -/
def execPatrolScrub (addr ecc : Nat) (s : State) : Host.Outcome State Fault Refusal :=
  .next (if !decide (addr ≤ 0x5FFFFFFFF) then s
    else
      let pc := pseudoChannel addr
      let s := { s with power := { s.power with selfRefresh := false } }
      let s := bump (bump s 1 pc 2 32) 6 0 4 32
      if ecc = 1 then countCorrected s pc 3
      else if ecc = 2 then (let s := poisonUnit s addr; postEvent s 0 (eccBits s 3 addr 3)) else s)

/-- RESERVOIR_IDLE_TIMER: 100 µs without a request and with no output composing (R458). -/
def execReservoirIdleTimer (s : State) : Host.Outcome State Fault Refusal :=
  .next (if (List.range 8).any fun o => scheduling (getOut s o) then s else { s with power := { s.power with selfRefresh := true } })

end Sys2Proof.Machine
end

