-- ==== Sys2Proof/Machine/Sources.lean ====
section
/-! DEFINITION. Deliveries of device sources: the lines a device writer stores and the arrival at the end of a pass (R9, R15, R115, R246). -/
namespace Sys2Proof.Machine
open Sys2Proof

/-- A decode context. -/
def getCtx (s : State) (i : Nat) : DecCtx := tget {} s.media.ctxs i
/-- Change a decode context. -/
def modCtx (s : State) (i : Nat) (f : DecCtx → DecCtx) : State :=
  { s with media := { s.media with ctxs := tmod {} s.media.ctxs i f } }
/-- What SOURCE_ATTACH gave a source. -/
def getSource (s : State) (i : Nat) : SourceRec := tget {} s.media.sources i
/-- An encode session. -/
def getSession (s : State) (i : Nat) : Session := tget {} s.media.sessions i
/-- Change an encode session. -/
def modSession (s : State) (i : Nat) (f : Session → Session) : State :=
  { s with media := { s.media with sessions := tmod {} s.media.sessions i f } }

/-- A happening joins the event of its cause, or starts one (R247, R277). -/
def addCause (l : List CauseEvent) (v : CauseEvent) : List CauseEvent :=
  if l.any fun e => e.cause == v.cause then
    l.map fun e => if e.cause = v.cause then { e with count := satAdd 16 e.count v.count } else e
  else l ++ [v]

/-- A decoder happening of a source (R247). -/
def happen (s : State) (i cause detail : Nat) : State :=
  modCtx s i fun x => { x with events := addCause x.events { cause, detail, count := 1, wp := now s, picture := x.decoded } }

/-- The slice's intake is stopped: it freezes or is frozen (R98). -/
def intakeStopped (s : State) (slice : Nat) : Bool :=
  let t := (getSlice s slice).state
  t == .freezing || t == .frozen || t == .restoring

/-! Slice states and orphans (R86, R96). -/

/-- Change a slice's state with EV_SLICE_STATE to the manager, and to the slice while its event ring is enabled (R86); a slice that becomes FREE keeps no more than its count of aborts. -/
def setSliceState (s : State) (i : Nat) (t : SliceState) (cause : Nat) : State :=
  let x := getSlice s i
  if x.state = t then s
  else
    let s := modSlice s i fun x => if t = .free then { orphanAborts := x.orphanAborts } else { x with state := t }
    let fs := [fAt 2 0 7 i, fAt 3 0 4 (sliceStateCode t), fAt 4 0 4 (sliceStateCode x.state), fAt 5 0 8 cause, fAt 6 0 16 x.orphans]
    let s := post s 0 0x0C01 fs
    if (getRings s i).eq.enable then post s i 0x0C01 fs else s

/-- An orphan of a slice retires, or is aborted at the limit; the last one posts EV_ORPHANS_RETIRED and ends DRAINING (R86, R96). -/
def orphanDone (s : State) (i : Nat) (aborted : Bool) : State :=
  let x := getSlice s i
  if x.orphans = 0 then s
  else
    let n := aborted.toNat
    let s := modSlice s i fun x => { x with
      orphans := x.orphans - 1, retired := satAdd 32 x.retired 1, aborted := satAdd 32 x.aborted n, orphanAborts := satAdd 32 x.orphanAborts n }
    if x.orphans ≠ 1 then s
    else
      let y := getSlice s i
      let s := post s 0 0x0C02 [fAt 2 0 7 i, fAt 4 0 32 y.retired, fAt 16 0 32 y.aborted]
      if y.state = .draining then setSliceState s i .free 2 else s

/-- A delivery is complete: its arrival, and the decode context's counters (R9, R115, R234, R246, R250). -/
def deliverNow (s : State) (d : Delivery) : State :=
  let e := getEntry s d.source
  let x := getCtx s d.source
  let redo := s.store.redo.contains d.source
  let s := { s with store := { s.store with redo := s.store.redo.filter (· != d.source) } }
  let s := arrive s d.source { origin := d.origin, damaged := d.damaged || redo, concealed := d.concealed, upstream := d.upstream,
                               upBase := d.upBase, upOwn := d.upOwn, sei := d.sei, originAddr := d.originAddr }
  if !x.used || e.kind != .decoded then s
  else
    let stale := d.refusals != x.refusals
    let s := if stale then modEntry s d.source fun n => { n with unfitReason := e.unfitReason, inp := { n.inp with unfit := e.inp.unfit } } else s
    modCtx s d.source fun x =>
      { x with decoded := satAdd 32 x.decoded 1, lastRap := if d.cleanRap then some (now s) else x.lastRap
               unfitDetail := if stale then x.unfitDetail else 0 }

/-- Record the arrival of the delivery on a surface whose FRONTIER has reached its height. -/
def completeDeliveries (s : State) (i : Nat) : State :=
  let x := getSurf s i
  match s.media.deliveries.find? fun d => d.surf == i && d.pass == x.pass with
  | none => s
  | some d =>
    if x.rebuilding || decide (x.frontier < d.height) then s
    else deliverNow { s with media := { s.media with deliveries := s.media.deliveries.filter (· != d) } } d

/-- Put a delivery on record; its arrival is at once when FRONTIER is there already. -/
def addDelivery (s : State) (d : Delivery) : State :=
  completeDeliveries { s with media := { s.media with deliveries := s.media.deliveries.filter (fun q => q.surf != d.surf) ++ [d] } } d.surf

/-- A SURFACE_WRITE whose tile rows are all written ends; one that its slice's reset left is an orphan that retires (R96, R131). -/
def settleWrites (s : State) (i : Nat) : State :=
  match s.sluice.writes.find? fun j => j.surf == i with
  | none => s
  | some j =>
    if j.orphan then
      if rowsAhead s i = 0 then orphanDone { s with sluice := { s.sluice with writes := s.sluice.writes.filter (· != j) } } j.slice false else s
    else if j.stop ≤ (getSurf s i).frontier then endWriteJob s j j.status else s

/-- SLUICE_ROW_COMPLETE: a lane has compressed and verified its row or block, with the columns whose verification failed, and writes it; the row may complete a delivery or a SURFACE_WRITE (R131, R151, R152). -/
def execSluiceRowComplete (lane : Nat) (mismatch : List Nat) (s : State) : Host.Outcome State Fault Refusal :=
  .next (
    let job := (tget {} s.sluice.lanes lane).job
    let s := rowComplete lane mismatch s
    match job with
    | some w => match w.surf with
      | some i => settleWrites (completeDeliveries s i) i
      | none => s
    | none => s)

/-- A surface index is a buffer whose pass is the newest of a list by the order passes began, lowest first. -/
def oldestBuffer (s : State) (l : List Nat) : Option Nat :=
  l.foldl (fun b i => match b with
    | none => some i
    | some j => if (getSurf s i).began < (getSurf s j).began then some i else some j) none

/-- Buffers of a source, by surface index. -/
def buffersOf (s : State) (src : Nat) : List Nat := (sourceBuffers s src).map Prod.fst

/-- Set a pass's true size (R197, R248). -/
def setPassSize (s : State) (i w h : Nat) : State := modSurf s i fun x => { x with trueW := w, trueH := h }

/-- The deciding WP of an input that changes now: the evaluation at the next line start that is still to come publishes one line later (R19). -/
def decidingAfter (s : State) : Wp :=
  let w : Wp := { now s with tick := 0 }
  if s.ledger.evalAt = some (lineOf w) || (now s).tick ≠ 0 then nextLine s (nextLine s w) else nextLine s w

end Sys2Proof.Machine
end

