-- ==== Sys2Proof/Machine/Motion.lean ====
section
/-! DEFINITION. The motion search of the encode cores (R256, R261): three levels, sub-sample refinement, costs, clipping and the choice among equal costs. -/
namespace Sys2Proof.Machine
open Sys2Proof

/-- Luma samples of a picture by column and line; a place outside is the nearest inside (edge replication). -/
abbrev Luma : Type := Int → Int → Nat

/-- A vector with its cost: in samples of its level, or in quarter samples after level 3. -/
structure Motion where
  x : Int := 0
  y : Int := 0
  cost : Nat := 0
  deriving DecidableEq, Repr

/-- The square of a vector's length. -/
def Motion.length2 (m : Motion) : Nat := (m.x * m.x + m.y * m.y).toNat

/-- A candidate takes the place of one found before it: less cost, or the same and a shorter vector; otherwise the lower candidate number stays (R256). -/
def Motion.better (a b : Motion) : Bool := decide (a.cost < b.cost) || (a.cost == b.cost && decide (a.length2 < b.length2))

/-- Put a candidate into the best two, best first. -/
def keepTwo (l : List Motion) (m : Motion) : List Motion := match l with
  | [] => [m]
  | [a] => if m.better a then [m, a] else [a, m]
  | a :: b :: _ => if m.better a then [m, a] else if m.better b then [a, m] else [a, b]

/-- The best two of candidates in order of their number, under a cost. -/
def bestTwo (cost : Int × Int → Nat) (l : List (Int × Int)) : List Motion :=
  l.foldl (fun acc v => keepTwo acc { x := v.1, y := v.2, cost := cost v }) []

/-- Vectors within w by h of a centre, line by line (log entry 111). -/
def window (c : Int × Int) (w h : Nat) : List (Int × Int) :=
  (List.range (2 * h + 1)).flatMap fun (j : Nat) => (List.range (2 * w + 1)).map fun (i : Nat) => (c.1 + (i : Int) - (w : Int), c.2 + (j : Int) - (h : Int))

/-- A picture at 1 / f of its resolution; the spec gives no filter. -/
def reduceLuma (f : Nat) (l : Luma) : Luma := fun x y =>
  Config.reduceBlock f ((List.range f).flatMap fun (j : Nat) => (List.range f).map fun (i : Nat) => l (x * f + i) (y * f + j))

/-- The sum of absolute differences of a 16 x 16 block at (x, y) and a reference block moved by a vector (levels 1 and 2). -/
def sad16 (cur ref : Luma) (x y : Int) (v : Int × Int) : Nat :=
  (List.range 16).foldl (fun n (j : Nat) => (List.range 16).foldl (fun n (i : Nat) =>
    n + ((cur (x + i) (y + j) : Int) - (ref (x + i + v.1) (y + j + v.2) : Int)).natAbs) n) 0

/-- Level 1: the best two vectors of block (bx, by) of 64 x 64 samples, over every one of ±128 by ±64 level-1 samples. -/
def level1 (cur ref : Luma) (bx by_ : Nat) : List Motion :=
  bestTwo (sad16 (reduceLuma 4 cur) (reduceLuma 4 ref) (16 * bx : Nat) (16 * by_ : Nat)) (window (0, 0) 128 64)

/-- Level 2: the best two vectors of block (bx, by) of 32 x 32 samples, around the covering block's level-1 vectors, zero, and the chosen vectors of the left and upper blocks. -/
def level2 (cur ref : Luma) (bx by_ : Nat) (near : List (Int × Int)) : List Motion :=
  let centres := ((level1 cur ref (bx / 2) (by_ / 2)).map fun m => (2 * m.x, 2 * m.y)) ++ (0, 0) :: near
  bestTwo (sad16 (reduceLuma 2 cur) (reduceLuma 2 ref) (16 * bx : Nat) (16 * by_ : Nat)) (centres.flatMap fun c => window c 4 4)

/-- The sign of entry (u, i) of a Hadamard matrix of order 2^3 or less. -/
def hadamardSign (u i : Nat) : Int := if ((List.range 3).filter fun b => u.testBit b && i.testBit b).length % 2 = 0 then 1 else -1

/-- The sum of the magnitudes of the Hadamard transform of an n x n block of differences. -/
def hadamardSum (n : Nat) (d : Nat → Nat → Int) : Nat :=
  ((List.range n).flatMap fun u => (List.range n).map fun v =>
    ((List.range n).foldl (fun (a : Int) i => (List.range n).foldl (fun (a : Int) j => a + hadamardSign u i * hadamardSign v j * d i j) a) 0).natAbs).foldl (· + ·) 0

/-- A reference sample at a place in quarter samples: of the picture itself, or interpolated from its neighbourhood as the standard coded for says. -/
def subSample (h264 : Bool) (ref : Luma) (x y : Int) : Nat :=
  if x % 4 = 0 ∧ y % 4 = 0 then ref (x / 4) (y / 4)
  else Config.interpolate h264 (x % 4).toNat (y % 4).toNat
    ((List.range 8).flatMap fun (j : Nat) => (List.range 8).map fun (i : Nat) => ref (x / 4 + i - 3) (y / 4 + j - 3))

/-- Level 3's cost of a vector in quarter samples for a block of n x n samples at (x, y): transformed differences, and λ of the row's quantiser times the estimated vector bits. -/
def vectorCost (h264 : Bool) (cur ref : Luma) (qp n x y : Nat) (v : Int × Int) : Nat :=
  let t := if Config.hadamard8 then 8 else 4
  let d (bx by_ i j : Nat) : Int :=
    let px := x + t * bx + i; let py := y + t * by_ + j
    (cur px py : Int) - (subSample h264 ref (4 * (px : Int) + v.1) (4 * (py : Int) + v.2) : Int)
  let sum := (List.range (n / t)).foldl (fun a by_ => (List.range (n / t)).foldl (fun a bx => a + hadamardSum t (d bx by_)) a) 0
  sum + Config.lambda qp * Config.vectorBits v.1 v.2

/-- Vectors are clipped to ±524 by ±268 samples and to 64 samples outside the picture (R256), in quarter samples. -/
def clipVector (w h n x y : Nat) (v : Int × Int) : Int × Int :=
  let clip (a lo hi : Int) : Int := max lo (min hi a)
  (clip (clip v.1 (-2096) 2096) (-4 * ((x : Int) + 64)) (4 * ((w : Int) + 64 - (x : Int) - (n : Int))),
   clip (clip v.2 (-1072) 1072) (-4 * ((y : Int) + 64)) (4 * ((h : Int) + 64 - (y : Int) - (n : Int))))

/-- R261: a block left of the refresh column uses only vectors whose prediction samples, interpolation taps included, end 8 samples before the right edge of the refreshed columns. -/
def refreshAllows (edge : Option Nat) (n x : Nat) (v : Int × Int) : Bool := match edge with
  | none => true
  | some e => decide (e < x + n) || decide ((x : Int) + (n : Int) + (v.1 + 3) / 4 + (if v.1 % 4 = 0 then 0 else 4) + 8 ≤ (e : Int))

/-- One step of a CU's search: the best of candidates that may be used, in quarter samples. -/
def bestVector (cost : Int × Int → Nat) (allowed : Int × Int → Bool) (l : List (Int × Int)) : Option Motion := (bestTwo cost (l.filter allowed)).head?

/-- A vector of a search step and its eight neighbours at a distance in quarter samples. -/
def around (m : Motion) (d : Int) : List (Int × Int) :=
  (m.x, m.y) :: ((window (0, 0) 1 1).filter fun v => v ≠ (0, 0)).map fun v => (m.x + d * v.1, m.y + d * v.2)

/-- Level 3 and the refinement for a CU of n x n samples at (x, y), around the level-2 vectors of its block; none where R261 allows none of the vectors (R256). -/
def searchCu (h264 : Bool) (cur ref : Luma) (w h qp : Nat) (edge : Option Nat) (n x y : Nat) (near : List Motion) : Option Motion :=
  let cost := vectorCost h264 cur ref qp n x y
  let ok := refreshAllows edge n x
  let clip := clipVector w h n x y
  let whole := (near.flatMap fun m => window (2 * m.x, 2 * m.y) 3 3).map fun v => clip (4 * v.1, 4 * v.2)
  let finer (m : Motion) (d : Int) : Option Motion := bestVector cost ok ((around m d).map clip)
  (bestVector cost ok whole).bind fun m => (finer m 2).bind fun m => finer m 1

/-- Level 2 over the blocks that lines y0 to y1 - 1 touch, each after its left and upper neighbours; `above` holds the vectors chosen before. -/
def level2Row (cur ref : Luma) (cols y0 y1 : Nat) (above : List (Nat × Nat × Int × Int)) : List (Nat × Nat × List Motion) :=
  (List.range ((y1 + 31) / 32 - y0 / 32)).foldl (fun acc (j : Nat) => (List.range cols).foldl (fun acc bx =>
    let by_ := y0 / 32 + j
    let chosen (cx cy : Nat) : List (Int × Int) := match acc.find? fun b => b.1 == cx && b.2.1 == cy with
      | some b => (b.2.2.take 1).map fun m => (m.x, m.y)
      | none => (above.filter fun b => b.1 == cx && b.2.1 == cy).map fun b => b.2.2
    let near := (if bx = 0 then [] else chosen (bx - 1) by_) ++ (if by_ = 0 then [] else chosen bx (by_ - 1))
    acc ++ [(bx, by_, level2 cur ref bx by_ near)]) acc) []

/-- The level-1 SAD of a row of 64 x 64 blocks that rate control weighs it by (R257). -/
def rowSad (cur ref : Luma) (cols by_ : Nat) : Nat :=
  (List.range cols).foldl (fun n bx => n + (((level1 cur ref bx by_).head?).map Motion.cost).getD 0) 0

end Sys2Proof.Machine
end

