-- ==== Sys2Proof/Machine/Encode.lean ====
section
/-! DEFINITION. The Encode Cluster: sessions, capture, rate control, slices and the output ring, the provenance SEI (chapter 12). -/
namespace Sys2Proof.Machine
open Sys2Proof

/-! Levels (R253, R255; the level tables of the two standards). -/

/-- H.265 Main tier levels: level_idc, luma samples, samples/s, kb/s. -/
def levels265 : List (Nat × Nat × Nat × Nat) :=
  [(30, 36864, 552960, 128), (60, 122880, 3686400, 1500), (63, 245760, 7372800, 3000), (90, 552960, 16588800, 6000),
   (93, 983040, 33177600, 10000), (120, 2228224, 66846720, 12000), (123, 2228224, 133693440, 20000),
   (150, 8912896, 267386880, 25000), (153, 8912896, 534773760, 40000)]

/-- H.264 levels for High: level_idc, macroblocks, macroblocks/s, kb/s at 1.25 times the base rate. -/
def levels264 : List (Nat × Nat × Nat × Nat) :=
  [(10, 99, 1485, 80), (11, 396, 3000, 240), (12, 396, 6000, 480), (13, 396, 11880, 960), (20, 396, 11880, 2500),
   (21, 792, 19800, 5000), (22, 1620, 20250, 5000), (30, 1620, 40500, 12500), (31, 3600, 108000, 17500), (32, 5120, 216000, 25000),
   (40, 8192, 245760, 25000), (41, 8192, 245760, 62500), (42, 8704, 522240, 62500), (50, 22080, 589824, 168750),
   (51, 36864, 983040, 300000), (52, 36864, 2073600, 300000)]

/-- The picture rate of a session's input over DECIMATE: numerator and denominator (R253). -/
def pictureRate (s : State) (x : Session) : Nat × Nat :=
  let t := s.time.timing
  if x.input = 0 then
    let c := (getOut s x.output).cfg
    (t.rateNum * (if c.ratio = 1 then 2 else 1), t.rateDen * (if c.ratio = 2 then 2 else 1) * x.decimate)
  else if x.input = 1 then (t.rateNum * t.lines, t.rateDen * max 1 (getEntry s x.source).period * x.decimate)
  else (t.rateNum, t.rateDen * x.decimate)

/-- The lowest level that fits size, rate and bit rate (R255), or none. -/
def levelOf (s : State) (x : Session) : Option Nat :=
  let (n, d) := pictureRate s x
  let fits (l : Nat × Nat × Nat × Nat) (size : Nat) : Bool :=
    decide (size ≤ l.2.1 ∧ size * n ≤ l.2.2.1 * d) && (x.rate.cqp || decide (x.rate.bitrate ≤ l.2.2.2))
  if x.h264 then (levels264.find? fun l => fits l (ceilDiv x.width 16 * ceilDiv x.height 16)).map Prod.fst
  else (levels265.find? fun l => fits l (x.width * x.height) && decide (x.width * x.width ≤ 8 * l.2.1 ∧ x.height * x.height ≤ 8 * l.2.1)).map Prod.fst

/-- The bit rate ceiling of a chosen level. -/
def levelRate (x : Session) : Nat :=
  match ((if x.h264 then levels264 else levels265).find? fun l => l.1 == x.level) with
  | some l => l.2.2.2
  | none => 0

/-- CTU or macroblock rows of a picture. -/
def encRows (x : Session) : Nat := ceilDiv x.height (rowHeight x)
/-- CTU or macroblock columns. -/
def encCols (x : Session) : Nat := ceilDiv x.width (rowHeight x)

/-! ENCODE_OPEN (R266). -/

/-- The rate parameters in a packet (R266, R267). -/
def rateOf (p : Packet) : RateCfg :=
  { cqp := pb p 17 0, bitrate := pf p 36 0 32, qpMin := pf p 31 0 6, qpMax := pf p 32 0 6, overshoot := pf p 33 0 8, keyMult := pf p 34 0 4 }

/-- Rate parameters out of range for a codec. -/
def rateBad (h264 : Bool) (r : RateCfg) : Bool :=
  decide (51 < r.qpMin) || decide (51 < r.qpMax) || decide (r.qpMax < r.qpMin) || !inRange r.keyMult 1 8 ||
  (if r.cqp then r.bitrate != 0 else !inRange r.bitrate 64 (if h264 then 300000 else 40000))

/-- The session an ENCODE_OPEN asks for. -/
def openSession (owner : Nat) (p : Packet) : Session :=
  { used := true, owner, input := pf p 16 0 2, output := pf p 16 2 3, h264 := pb p 16 5, main10 := pb p 16 6, sourceValid := pb p 16 7
    csc := pf p 17 1 2, full := pb p 17 3, rowsPerSlice := pf p 18 0 5, decimate := pf p 19 0 4, source := pf p 20 0 12
    cropX := pf p 22 0 14, cropY := pf p 24 0 14, width := pf p 26 0 14, height := pf p 28 0 14, initQp := pf p 30 0 6
    irWidth := pf p 34 4 4, handle := pf p 40 0 32, keyInterval := pf p 48 0 16, rate := rateOf p
    ringSize := pf p 44 0 32 * 1024, qpRef := pf p 30 0 6 }

/-- Width and height of a session's input. -/
def inputSize (s : State) (x : Session) : Nat × Nat :=
  if x.input = 0 then ((getOut s x.output).cfg.hActive, (getOut s x.output).cfg.vActive)
  else if x.input = 1 then ((getSource s x.source).maxW, (getSource s x.source).maxH)
  else ((latchedSurf s x.handle).width, (latchedSurf s x.handle).height)

/-- ENCODE_OPEN parameters. -/
def openResv : List (Nat × Nat × Nat) :=
  [(16, 0, 8), (17, 0, 4), (18, 0, 5), (19, 0, 6), (20, 0, 12), (22, 0, 14), (24, 0, 14), (26, 0, 14), (28, 0, 14), (30, 0, 6),
   (31, 0, 6), (32, 0, 6), (33, 0, 8), (34, 0, 8), (36, 0, 32), (40, 0, 32), (44, 0, 32), (48, 0, 16)]

/-- ENCODE_OPEN's range checks. -/
def openBad (p : Packet) (x : Session) : Bool :=
  !reservedZero p openResv || x.input == 3 || (x.input != 0 && x.output != 0) || (x.h264 && x.main10) || x.csc == 3 ||
  !inRange x.rowsPerSlice 1 16 || !inRange x.decimate 1 8 || pf p 19 4 2 == 3 || (x.input != 0 && pf p 19 4 2 != 0) ||
  (x.input == 0 && x.sourceValid) || (x.input == 1 && !x.sourceValid) || (!x.sourceValid && x.source != 0) ||
  !inRange x.width 64 4096 || !inRange x.height 64 2304 || x.width % 2 == 1 || x.height % 2 == 1 || decide (51 < x.initQp) ||
  rateBad x.h264 x.rate || decide (8 < x.irWidth) || (x.irWidth != 0 && x.keyInterval != 0) || (x.input != 2 && x.handle != 0) ||
  (x.input == 2 && x.handle == 0) || !inRange (pf p 44 0 32) 64 65536

/-- Step 8 checks of ENCODE_OPEN (R251, R253, R266). -/
def checkEncodeOpen (s : State) (h : Held) (_ : Cmd) : Option Fail :=
  let p := h.pkt
  let x := openSession h.slice p
  let e := getEntry s x.source
  let y := latchedSurf s x.handle
  let (w, ht) := inputSize s x
  if openBad p x then some (failWith .badParam)
  else if x.input = 2 ∧ (lookup s x.handle).isNone then some (failWith .handleStale)
  else firstFail [
    (x.input == 0 && h.slice != 0, failWith .notPermitted),
    (x.sourceValid && !e.valid, failWith .notReady),
    (x.sourceValid && e.owner != h.slice && e.owner != 0, failWith .notPermitted),
    (x.input == 2 && y.owner != h.slice, failWith .notPermitted),
    (x.input == 0 && (getOut s x.output).state == .unconfigured, failWith .notReady),
    ((x.input == 1 && e.kind == .surface) || (x.input == 2 && y.format == 0) || decide (w < x.cropX + x.width) || decide (ht < x.cropY + x.height),
      failWith .badParam),
    ((levelOf s x).isNone, failWith .budgetExceeded),
    ((firstIdx (fun i => !(getSession s i).used) 0 16).isNone, failWith .noResource)]

/-- Allocate n pixel surfaces of a format for a session; their handles, or none. -/
def allocMany (sl fmt w h : Nat) (wr : Writer) : Nat → State → State × Option (List Nat)
  | 0, s => (s, some [])
  | n + 1, s => match allocPixel s sl fmt w h wr with
    | (s, some hd) => match allocMany sl fmt w h wr n s with
      | (s, some l) => (s, some (hd :: l))
      | (s, none) => (s, none)
    | (s, none) => (s, none)

/-- Granules of a list of handles. -/
def granulesOf (s : State) (l : List Nat) : Nat := l.foldl (fun n h => n + (latchedSurf s h).granules) 0

/-- ENCODE_OPEN's effect: everything is allocated, or nothing (R266). -/
def actEncodeOpen (s : State) (h : Held) (_ : Cmd) : State :=
  let x := openSession h.slice h.pkt
  let c := (getOut s x.output).cfg
  let up (n : Nat) : Nat := (n + 7) / 8 * 8
  let caps := if x.input = 0 then allocMany h.slice 0x13 c.hActive c.vActive .capture (pf h.pkt 19 4 2 + 2) s else (s, some [])
  match caps with
  | (_, none) => finishNow s h .noResource []
  | (s1, some cl) => match allocMany h.slice 0x21 (up x.width) (up x.height) .capture 2 s1 with
    | (_, none) => finishNow s h .noResource []
    | (s2, some rl) => match allocBytes s2 h.slice x.ringSize .capture, firstIdx (fun i => !(getSession s i).used) 0 16 with
      | (s3, some ring), some n =>
        let x := { x with level := (levelOf s x).getD 0, ring, captures := cl, recon := rl }
        let s3 := forEach (ring :: (cl ++ rl ++ if x.input = 2 then [x.handle] else [])) (fun hd s => addUser s hd) s3
        let s3 := { s3 with media := { s3.media with sessions := tset {} s3.media.sessions n x }
                            power := { s3.power with encodeOn := tset false (tset false s3.power.encodeOn 0 true) 1 true } }
        finishNow s3 h .ok [fAt 16 0 8 n, fAt 17 0 8 x.level, fAt 20 0 32 ring, fAt 24 0 32 (granulesOf s3 (ring :: (cl ++ rl)))]
      | _, _ => finishNow s h .noResource []

/-- ENCODE_OPEN (0x501). -/
def execEncodeOpen (c : Cmd) (s : State) : Host.Outcome State Fault Refusal :=
  .next (runPacket s c 0x501 (fun _ => true) checkEncodeOpen actEncodeOpen)

/-! ENCODE_SET_RATE, KEY_PICTURE (R260, R267). -/

/-- Step 8 checks that the commands on an open session share: reserved bits, the session (one that ENCODE_CLOSE closes is open no more), its owner. -/
def checkSession (s : State) (h : Held) (resv : List (Nat × Nat × Nat)) (bad : Session → Bool) : Option Fail :=
  let x := getSession s (pf h.pkt 16 0 4)
  firstFail [(!reservedZero h.pkt resv || bad x, failWith .badParam), (!x.used || x.closing.isSome, failWith .notReady),
    (h.slice != 0 && x.owner != h.slice, failWith .notPermitted)]

/-- Step 8 checks of ENCODE_SET_RATE. -/
def checkEncodeSetRate (s : State) (h : Held) (_ : Cmd) : Option Fail :=
  let x := getSession s (pf h.pkt 16 0 4)
  let r := rateOf h.pkt
  match checkSession s h [(16, 0, 4), (17, 0, 1), (31, 0, 6), (32, 0, 6), (33, 0, 8), (34, 0, 4), (36, 0, 32)] (fun x => x.used && rateBad x.h264 r) with
  | some f => some f
  | none => firstFail [(!r.cqp && decide (levelRate x < r.bitrate), failWith .budgetExceeded)]

/-- ENCODE_SET_RATE waits for the next picture's capture start (R267). -/
def actEncodeSetRate (s : State) (h : Held) (_ : Cmd) : State :=
  holdOn (modSession s (pf h.pkt 16 0 4) fun x => { x with rateReqs := x.rateReqs ++ [(heldKey h, none, rateOf h.pkt)] }) h

/-- ENCODE_SET_RATE (0x502). -/
def execEncodeSetRate (c : Cmd) (s : State) : Host.Outcome State Fault Refusal :=
  .next (runPacket s c 0x502 (fun _ => true) checkEncodeSetRate actEncodeSetRate)

/-- A session's input is capturing (R251, R268). -/
def capturing (s : State) (x : Session) : Bool :=
  x.used && !x.stopped && x.closing.isNone &&
  (if x.input = 0 then scheduling (getOut s x.output)
   else if x.input = 1 then (getEntry s x.source).valid && !(getEntry s x.source).inp.withdrawn
   else (lookup s x.handle).isSome)

/-- Step 8 checks of KEY_PICTURE (R260). -/
def checkKeyPicture (s : State) (h : Held) (_ : Cmd) : Option Fail :=
  match checkSession s h [(16, 0, 4)] (fun _ => false) with
  | some f => some f
  | none => firstFail [(!capturing s (getSession s (pf h.pkt 16 0 4)), failWith .notReady)]

/-- KEY_PICTURE waits for the next picture's capture start (R260). -/
def actKeyPicture (s : State) (h : Held) (_ : Cmd) : State :=
  holdOn (modSession s (pf h.pkt 16 0 4) fun x => { x with keyReqs := x.keyReqs ++ [(heldKey h, none)] }) h

/-- KEY_PICTURE (0x503). -/
def execKeyPicture (c : Cmd) (s : State) : Host.Outcome State Fault Refusal :=
  .next (runPacket s c 0x503 (fun _ => true) checkKeyPicture actKeyPicture)

/-! Captures (R251 to R254, R259 to R261). -/

/-- EV_ENCODE_OVERRUN (R258). -/
def overrun (s : State) (n cause : Nat) (p : EncPic) : State :=
  let x := getSession s n
  postEvent s x.owner (eventBits 0x0501 (wpBits p.wp) [fAt 2 0 4 n, fAt 3 0 8 cause, fAt 4 0 32 p.number,
    fAt 16 0 16 p.clamped, fAt 18 0 16 p.skipped, fAt 20 0 32 x.carry.toNat, fAt 24 0 32 p.u])

/-- The rate and key requests that wait act on the picture that starts now, and reply (R260, R267). -/
def serveRequests (s : State) (n : Nat) : State :=
  let x := getSession s n
  let s := forEach x.rateReqs (fun r s =>
    let y := getSession s n
    let carry := if r.2.2.cqp then 0 else y.carry
    finishKey (modSession s n fun y => { y with rate := r.2.2, carry }) r.1 .ok (nowBits s) [fAt 16 0 32 y.carry.toNat]) s
  let s := forEach x.keyReqs (fun r s => finishKey s r.1 .ok (nowBits s) [fAt 16 0 32 x.number]) s
  modSession s n fun y => { y with rateReqs := [], keyReqs := [], keyNext := y.keyNext || !x.keyReqs.isEmpty }

/-- The regions of a picture: the layers of the captured frame that meet it, or the whole picture (R265). -/
def pictureRegions (s : State) (x : Session) : List SeiRegion :=
  if x.input = 0 then
    (((tget [] s.comp.maps x.output).head?.map LayerMap.layers).getD []).filterMap fun m =>
      let l := max m.x x.cropX; let r := min (m.x + m.w) (x.cropX + x.width)
      let t := max m.y x.cropY; let b := min (m.y + m.h) (x.cropY + x.height)
      if l < r ∧ t < b then
        some { source := m.source, tracked := (getEntry s m.source).valid, x := l - x.cropX, y := t - x.cropY, w := r - l, h := b - t }
      else none
  else [{ source := if x.sourceValid then x.source else 0, tracked := x.sourceValid, x := 0, y := 0, w := x.width, h := x.height }]

/-- A capture starts on a session: requests act, the picture is made with the rate in force, or dropped when one waits already (R254, R257, R259 to R261).
`buf` is the buffer and pass to code; none when every capture buffer is latched. -/
def captureStart (s : State) (n : Nat) (buf : Option (Nat × Nat)) : State :=
  let s := serveRequests s n
  let x := getSession s n
  let p : EncPic := { number := x.number, wp := now s }
  match buf, x.waiting with
  | some (i, pass), none =>
    let key := x.keyNext || (x.keyInterval != 0 && decide (x.keyInterval ≤ x.sinceKey))
    let cycle := ceilDiv (encCols x) (max 1 x.irWidth)
    let rec_ := !key && x.irWidth != 0 && x.irPos == 0
    let (a, b) := pictureRate s x
    let p := { p with key, recovery := rec_, cycle := x.irPos, rate := x.rate, t := x.rate.bitrate * 1000 * b / max 1 a
                      surf := i, pass, regions := pictureRegions s x }
    modSession s n fun x =>
      { x with waiting := some p, number := (x.number + 1) % 2 ^ 32, keyNext := false, sinceKey := if key then 1 else x.sinceKey + 1
               irPos := if key ∨ x.irWidth = 0 then 0 else (x.irPos + 1) % cycle }
  | _, _ => overrun (modSession s n fun x => { x with number := (x.number + 1) % 2 ^ 32, dropped := satAdd 32 x.dropped 1 }) n 3 p

/-- Whether this input frame is one that DECIMATE takes; the count moves on. -/
def takeDecimated (s : State) (n : Nat) : State × Bool :=
  let x := getSession s n
  (modSession s n fun y => { y with seen := (y.seen + 1) % y.decimate }, x.seen == 0)

/-- Sessions that meet a test. -/
def sessionsWhere (s : State) (f : Session → Bool) : List Nat := (List.range 16).filter fun n => f (getSession s n)

/-- The captured frame before this one was cut short (R305): the lines it never had are damaged input (log entry 112). -/
def cutCaptures (s : State) (o : Nat) : State :=
  forEach (sessionsWhere s fun x => x.used && x.input == 0 && x.output == o) (fun n s =>
    let x := getSession s n
    let cut (p : EncPic) : Bool := (getSurf s p.surf).pass == p.pass && decide ((getSurf s p.surf).frontier < (getSurf s p.surf).height)
    let mark (p : EncPic) : EncPic :=
      let have_ := (getSurf s p.surf).frontier - x.cropY
      if cut p then { p with badLines := p.badLines ++ (List.range (x.height - have_)).map (have_ + ·) } else p
    let surfs := (x.waiting.toList ++ x.coding.toList).filter cut
    let s := modSession s n fun x => { x with waiting := x.waiting.map mark, coding := x.coding.map mark }
    forEach surfs (fun p s => modSurf s p.surf fun y => { y with frontier := y.height }) s) s

/-- A frame of an output starts: every session on it captures (R251, R252). -/
def captureFrame (s : State) (o : Nat) : State :=
  let s := cutCaptures s o
  forEach (sessionsWhere s fun x => x.input == 0 && x.output == o && capturing s x) (fun n s =>
    match takeDecimated s n with
    | (s, false) => s
    | (s, true) =>
      let x := getSession s n
      let free := (x.captures.map handleIndex).filter fun i => latchCount s i == 0
      match oldestBuffer s free, x.waiting with
      | some i, none =>
        let s := beginPass s i
        captureStart s n (some (i, (getSurf s i).pass))
      | _, _ => captureStart s n none) s

/-- The ARGB2101010 bytes of a composed line (R203, R252). -/
def captureBytes (l : List Px) : List Byte :=
  l.flatMap fun p => bytesLE 4 (3 * 2 ^ 30 + reduce 10 p.r * 2 ^ 20 + reduce 10 p.g * 2 ^ 10 + reduce 10 p.b)

/-- Line j of an output is composed: the sessions that capture the frame write it and note the states applied (R252, R265). -/
def captureLine (s : State) (o j : Nat) (line : List Px) : State :=
  forEach (sessionsWhere s fun x => x.input == 0 && x.output == o && x.used) (fun n s =>
    let x := getSession s n
    let out := getOut s o
    let mine (p : EncPic) : Bool := p.wp == out.start && (getSurf s p.surf).pass == p.pass
    match (match x.waiting with
      | some p => if mine p then some p else x.coding
      | none => x.coding) with
    | none => s
    | some p =>
      if !mine p || (getSurf s p.surf).frontier != j then s
      else
        let y := getSurf s p.surf
        let denied := (weirDenied s y.owner engEncode true (y.base + j * y.pitch) (lineSize y.format y.width)).isSome
        let s := writerLine s p.surf (captureBytes line)
        let inPic := x.cropY ≤ j && decide (j < x.cropY + x.height)
        let bad := out.gapLines.contains j || out.replLines.contains j || denied
        let add (q : EncPic) : EncPic :=
          if q.number ≠ p.number ∨ !inPic then q
          else
            let y := j - x.cropY
            let rows := (List.range q.regions.length).filterMap fun k =>
              let r := q.regions.getD k {}
              if y < r.y ∨ r.y + r.h ≤ y then
                let e := getEntry s r.source
                if y % (x.rowsPerSlice * rowHeight x) = 0 then some (y, k, LState.notTracked, e.origin, e.ageBase) else none
              else
                let m := (((tget [] s.comp.maps o).head?.map LayerMap.layers).getD []).find? fun m =>
                  m.source == r.source && decide (max m.x x.cropX - x.cropX = r.x)
                let g := m.bind fun m => drawOf s o m.slot j
                let e := getEntry s r.source
                let st := match g with
                  | some g => if g.content.isSome && !(badTiles s g).isEmpty then stateMax g.st .degraded else g.st
                  | none => e.state
                some (y, k, st, e.origin, e.ageBase)
            { q with lines := q.lines ++ rows, badLines := if bad then q.badLines ++ [y] else q.badLines }
        modSession s n fun x => { x with waiting := x.waiting.map add, coding := x.coding.map add }) s

/-- A writer starts a pass of a source: its exports send FRAME and the sessions on it take it (R251, R345). -/
def captureSource (s : State) (src i : Nat) : State :=
  let s := exportFrame s src i
  forEach (sessionsWhere s fun x => x.input == 1 && x.source == src && capturing s x) (fun n s =>
    match takeDecimated s n with
    | (s, false) => s
    | (s, true) => captureStart s n (some (i, (getSurf s i).pass))) s

/-- A wall frame boundary: SURFACE sessions take the newest complete pass (R251). -/
def captureSurfaces (s : State) : State :=
  forEach (sessionsWhere s fun x => x.input == 2 && capturing s x) (fun n s =>
    match takeDecimated s n with
    | (s, false) => s
    | (s, true) =>
      let i := handleIndex (getSession s n).handle
      if passDone (getSurf s i) then captureStart s n (some (i, (getSurf s i).pass)) else s) s

/-- OUTPUT_FRAME_START: the frame of an output that WP lies in starts, once, and sessions capture it (R47, R251). -/
def execOutputFrameStart (output : Nat) (s : State) : Host.Outcome State Fault Refusal :=
  let t := outputFrameStart output s
  .next (if (getOut t output).start = (getOut s output).start ∧ (getOut s output).inFrame then t else captureFrame t output)

/-- OUTPUT_ENABLE_START: the first frame of an output starts; its sessions begin with a key picture (R209, R259). -/
def execOutputEnableStart (output : Nat) (s : State) : Host.Outcome State Fault Refusal :=
  let t := outputEnableStart output s
  .next (if (getOut s output).state = (getOut t output).state then t
    else captureFrame (forEach (sessionsWhere t fun x => x.used && x.input == 0 && x.output == output)
      (fun n s => modSession s n fun x => { x with keyNext := true }) t) output)

/-- OUTPUT_LINE_START: the next line of the frame leaves, the passes of the lines ahead are decided, and sessions capture it as it is sent (R179, R203, R227, R252). -/
def execOutputLineStart (output : Nat) (inTime : Bool) (s : State) : Host.Outcome State Fault Refusal :=
  let x := getOut s output
  let j := x.line
  let left := (getCarry s output).repl
  let t := outputLineStart output inTime s
  let any := !(sessionsWhere s fun n => n.used && n.input == 0 && n.output == output).isEmpty
  .next (if !any || x.line == (getOut t output).line || !decide (j < x.cfg.vActive) then t
    else if (getOut t output).gapLines.contains j then
      captureLine t output j (List.replicate x.cfg.hActive (colour30 (tget 0x20080200 s.ledger.holdColours x.cfg.gap)))
    else captureLine t output j (composeLine s output j (if left = 0 then none else some (3 - left))))

/-! Scheduling (R254). -/

/-- The lines of its pass are no longer there: the ledger entry was rebuilt, or the buffer went to a later pass before the picture's first row (R115; log entry 112). -/
def inputLost (s : State) (p : EncPic) : Bool := (getSurf s p.surf).pass != p.pass

/-- Row r of a picture can be coded: FRONTIER covers its source lines, or its pass has no lines any more. -/
def rowReady (s : State) (x : Session) (p : EncPic) : Bool :=
  let y := getSurf s p.surf
  let need := min (x.cropY + x.height) (x.cropY + (p.row + 1) * rowHeight x)
  !y.rebuilding && (inputLost s p || decide (need ≤ y.frontier))

/-- A session has a picture that a core can take. -/
def encReady (s : State) (x : Session) : Bool :=
  x.used && (match x.coding with
    | some p => p.core.isNone && rowReady s x p
    | none => match x.waiting with
      | some p => x.closing.isNone && !x.stopped && rowReady s x p
      | none => false)

/-- Capture start of the picture a session would go on with. -/
def encStart (x : Session) : Wp := match x.coding, x.waiting with
  | some p, _ => p.wp
  | none, some p => p.wp
  | none, none => {}

/-- Choose by credit, class and age (R240, R254): `slice` and `wp` of a candidate. -/
def bestOf (s : State) (credit : Tab Nat) (slice : Nat → Nat) (wp : Nat → Wp) (l : List Nat) : Option Nat :=
  let rank (i : Nat) : Nat :=
    (if tget 0 credit (slice i) = 0 then 3 else 0) + (match (getSlice s (slice i)).cls with | .s => 0 | .o => 1 | .a => 2)
  l.foldl (fun b i => match b with
    | none => some i
    | some j => if rank i < rank j ∨ (rank i = rank j ∧ wpLater (wp j) (wp i)) then some i else some j) none

/-- The budget of a picture (R257): B and skip_at. -/
def pictureBudget (x : Session) (p : EncPic) : Int × Int :=
  let t : Int := (p.t : Int)
  let b0 : Int := (if p.key then t * (p.rate.keyMult : Int) else t) - x.carry
  let b : Int := if b0 < t / 4 then t / 4 else b0
  (b, b + b * (p.rate.overshoot : Int) / 256)

/-- ENCODE_CORE_SCHEDULE: a free core takes the ready picture that comes first (R254). -/
def execEncodeCoreSchedule (core : Nat) (s : State) : Host.Outcome State Fault Refusal :=
  .next (
    let busy := (sessionsWhere s fun x => match x.coding with | some p => p.core == some core | none => false)
    if !decide (core < 2) || s.media.encOut.contains core || !busy.isEmpty || s.media.encOrphans.any (fun e => e.core == core) then s
    else match bestOf s s.media.encCredit (fun n => (getSession s n).owner) (fun n => encStart (getSession s n)) (sessionsWhere s (encReady s)) with
      | none => s
      | some n =>
        let x := getSession s n
        match x.coding, x.waiting with
        | some p, _ => modSession s n fun x => { x with coding := some { p with core := some core } }
        | none, some p =>
          let (b, k) := pictureBudget x p
          modSession (takeLatch s (.session n) p.surf p.pass) n fun x =>
            { x with waiting := none, coding := some { p with core := some core, budget := b, skipAt := k } }
        | none, none => s)

/-! Rate control (R257). -/

/-- floor(log2 n) of a positive number. -/
def log2Floor (n : Nat) : Nat := Nat.log2 n

/-- ceil(log2 n) of a positive number. -/
def log2Ceil (n : Nat) : Nat := if 2 ^ Nat.log2 n < n then Nat.log2 n + 1 else Nat.log2 n

/-- floor(log2 (n / d)) of positive numbers. -/
def log2Ratio (n d : Nat) : Int :=
  if d ≤ n then ((log2Floor (n / d) : Nat) : Int) else 0 - ((log2Ceil ((d + n - 1) / n) : Nat) : Int)

/-- round(6 x log2(a / b)) for positive a and b: floor(log2(2 (a/b)^12) / 2). -/
def sixLog2 (a b : Nat) : Int := log2Ratio (2 * a ^ 12) (b ^ 12) / 2

/-- A value held to a range. -/
def clampInt (v lo hi : Int) : Int := max lo (min hi v)

/-- The quantiser of row r in phase NORMAL; the free counter moves on where the formula divides by zero (R257). -/
def normalQp (s : State) (x : Session) (p : EncPic) (w : List Nat) : State × Nat :=
  let lo : Int := p.rate.qpMin; let hi : Int := p.rate.qpMax
  let total := w.foldl (· + ·) 0
  let r := p.row
  let prev (q : Int) : Nat := (match p.qps.getLast? with
    | some l => clampInt q ((l : Int) - 3) ((l : Int) + 3)
    | none => q).toNat
  let free : State × Nat :=
    let (v, s) := freshValue s
    (s, prev (clampInt (v.toNat % 52 : Nat) lo hi))
  let left : Int := p.budget - (p.u : Int)
  if total = 0 then free
  else
    let b := (left * ((w.headD 0 : Nat) : Int) / (total : Int)).toNat
    let rows := encRows x
    if b = 0 then (s, prev hi)
    else if x.prevBits.isEmpty then
      let est := (p.budget / (rows : Int)).toNat
      if est = 0 then (s, prev lo) else (s, prev (clampInt ((x.qpRef : Int) + sixLog2 est b) lo hi))
    else
      let wp := x.prevW.getD r 0
      if wp = 0 then free
      else
        let a := x.prevBits.getD r 0 * w.headD 0
        if a = 0 then (s, prev lo)
        else (s, prev (clampInt ((x.prevQp.getD r 0 : Int) + sixLog2 a (wp * b)) lo hi))

/-- The phase before a row (R257). -/
def rowPhase (p : EncPic) : Nat :=
  if p.rate.cqp then 0
  else
    let ph := if p.phase = 0 ∧ p.budget ≤ (p.u : Int) then 1 else p.phase
    if ph = 1 ∧ p.skipAt ≤ (p.u : Int) then 2 else ph

/-! The provenance SEI (R263 to R265). -/

/-- The UUID of the provenance SEI. -/
def seiUuid : List Byte :=
  [0x4C, 0x59, 0x43, 0x48, 0x41, 0x4C, 0x41, 0x4E, 0x2D, 0x44, 0x5A, 0x50, 0x52, 0x4F, 0x56, 0x31]

/-- The oldest of two stored positions. -/
def olderLine (a b : Option LineWp) : Option LineWp := match a, b with
  | some x, some y => if lineLater x y then some y else some x
  | some x, none => some x
  | none, y => y

/-- One group record of rows f to f + n - 1 with its region records (R264, R265). -/
def groupRecord (x : Session) (p : EncPic) (f n : Nat) (skip : Bool) : List Byte :=
  let y0 := f * rowHeight x; let y1 := min x.height ((f + n) * rowHeight x)
  let regs := (List.range p.regions.length).filterMap fun k =>
    let r := p.regions.getD k {}
    if r.y + r.h ≤ y0 ∨ y1 ≤ r.y then none
    else
      let ls := p.lines.filter fun l => l.2.1 == k && decide (y0 ≤ l.1 ∧ l.1 < y1)
      let st := if !r.tracked then .notTracked else ls.foldl (fun a l => stateMax a l.2.2.1) .notTracked
      let o := if st = .notTracked then none else (ls.head?.map fun l => l.2.2.2.1).join
      let b := if st = .notTracked then none else (ls.head?.map fun l => l.2.2.2.2).join
      some (k, st, o, b)
  let tracked := regs.filter fun r => r.2.1 != .notTracked
  let cap := p.badLines.any fun l => y0 ≤ l && decide (l < y1)
  let st0 := tracked.foldl (fun a r => stateMax a r.2.1) LState.notTracked
  let st := if skip || cap then stateMax st0 .degraded else st0
  let o := tracked.foldl (fun a r => olderLine a r.2.2.1) none
  let b := tracked.foldl (fun a r => olderLine a r.2.2.2) none
  let mask := regs.foldl (fun m r => m + 2 ^ r.1) 0
  bytesLE 16 (packFields [(0, 4, stateCode st), (4, 1, skip.toNat), (5, 1, cap.toNat), (16, 8, mask), (32, 48, lineWpBits o), (80, 48, lineWpBits b)]) ++
  regs.flatMap fun r => bytesLE 14 (packFields [(0, 48, lineWpBits r.2.2.1), (48, 48, lineWpBits r.2.2.2), (96, 4, stateCode r.2.1)])

/-- A provenance SEI message's payload after the UUID: groups g to g + n - 1, given by their records (R264). -/
def seiBody (s : State) (x : Session) (p : EncPic) (g n : Nat) (last : Bool) (recs : List Byte) : List Byte :=
  bytesLE 24 (packFields [(0, 8, 1), (8, 1, last.toNat), (16, 4, p.regions.length), (24, 8, n), (32, 32, s.time.timing.wallId),
    (64, 64, wpBits p.wp), (128, 32, p.number), (160, 16, g), (176, 16, x.rowsPerSlice * rowHeight x)]) ++
  (p.regions.flatMap fun r => bytesLE 12 (packFields [(0, 12, r.source), (16, 12, (getEntry s r.source).originAddr),
    (32, 16, r.x), (48, 16, r.y), (64, 16, r.w), (80, 16, r.h)])) ++ recs

/-- The NAL layer's emulation prevention. -/
def emulate : Nat → List Byte → List Byte
  | _, [] => []
  | z, b :: r =>
    if z ≥ 2 ∧ b.toNat ≤ 3 then 3 :: b :: emulate (if b = 0 then 1 else 0) r
    else b :: emulate (if b = 0 then z + 1 else 0) r

/-- A size or type of an SEI message: 0xFF bytes and the rest. -/
def seiSize (n : Nat) : List Byte := List.replicate (n / 255) 0xFF ++ [BitVec.ofNat 8 (n % 255)]

/-- The SEI NAL unit of a payload, start code included (R264). -/
def seiNal (h264 : Bool) (body : List Byte) : List Byte :=
  let pay := seiUuid ++ body
  [0, 0, 0, 1] ++ (if h264 then [0x06] else [0x4E, 0x01]) ++ emulate 0 ([5] ++ seiSize pay.length ++ pay ++ [0x80])

/-- An unsigned Exp-Golomb code, first bit first. -/
def expGolomb (v : Nat) : List Bool :=
  let n := Nat.log2 (v + 1)
  List.replicate n false ++ (List.range (n + 1)).map fun (k : Nat) => (v + 1).testBit (n - k)

/-- Bytes of bits, first bit highest; a stop bit and zeros fill the last one. -/
def trailBytes (l : List Bool) : List Byte :=
  let l := if l.length % 8 = 0 then l else l ++ [true]
  (List.range (ceilDiv l.length 8)).map fun (k : Nat) => BitVec.ofNat 8 ((List.range 8).foldl (fun v (b : Nat) => 2 * v + ((l.drop (8 * k)).getD b false).toNat) 0)

/-- The recovery point SEI of a refresh cycle of c pictures (R261): recovery_frame_cnt c - 1, in H.265 the same count in its signed code; R261 gives no value of the two flags after it. -/
def recoveryNal (h264 : Bool) (c : Nat) : List Byte :=
  let flags := [Config.recoveryFlags.getLsbD 0, Config.recoveryFlags.getLsbD 1]
  let body := trailBytes (if h264 then expGolomb (c - 1) ++ flags ++ [false, false] else expGolomb (2 * (c - 1) - 1) ++ flags)
  [0, 0, 0, 1] ++ (if h264 then [0x06] else [0x4E, 0x01]) ++ emulate 0 ([6] ++ seiSize body.length ++ body ++ [0x80])

/-! The output ring (R262). -/

/-- CONSUMED of a session's ring, read under the owner's rules; none when the read is denied (R371). -/
def ringConsumed (s : State) (x : Session) : State × Option Nat :=
  match storeRead s x.owner engEncode ((latchedSurf s x.ring).base + 64) 8 with
  | (s, some l) => (s, some (leAt l 0 8))
  | (s, none) => (s, none)

/-- A device write into a session's ring under the owner's rules: a denied unit is dropped (R371); and whether none was. -/
def ringPut (s : State) (x : Session) (off : Nat) (l : List Byte) : State × Bool :=
  writeChecked s x.owner engEncode ((latchedSurf s x.ring).base + off) l

/-- The ring's writer has reached an offset: FRONTIER covers the whole 4 KiB units below it, and a new pass starts with the ring's first unit (R116; log entry 112). -/
def ringReached (s : State) (x : Session) (first : Bool) (off : Nat) : State :=
  let i := handleIndex x.ring
  modSurf (if first then beginPass s i else s) i fun y => { y with frontier := off / 4096 }

/-- A unit's header (R262). -/
def unitHeader (p : EncPic) (len first rows flags : Nat) (done : Nat) : List Byte :=
  bytesLE 32 (packFields [(0, 32, len), (32, 32, p.number), (64, 64, wpBits p.wp), (128, 16, first), (144, 16, rows), (160, 8, flags), (192, 64, done)])

/-- After a loss the next picture is a key picture: the one that waits already, or the next captured (R259, R262). -/
def keyAfterLoss (x : Session) : Session := match x.waiting with
  | some p => { x with waiting := some { p with key := true, recovery := false }, sinceKey := 1, irPos := 0 }
  | none => { x with keyNext := true }

/-- Write one unit, its header last: a PAD unit first when it would wrap, or nothing and the picture is lost when the ring lacks room (R262), as one of which CONSUMED cannot be read does (log entry 116); a part of it that the Weir denies is dropped and the header says DEGRADED (R371). -/
def putUnit (s : State) (n : Nat) (p : EncPic) (first rows flags : Nat) (nal : List Byte) : State × EncPic :=
  let x := getSession s n
  let span := x.ringSize - 4096
  let size := 32 + (nal.length + 31) / 32 * 32
  let pos := x.produced % span
  let pad := if span < pos + size then span - pos else 0
  if p.lost then (s, p)
  else
  let (s, c) := ringConsumed s x
  let used := match c with
    | some c => (x.produced + 2 ^ 64 - c) % 2 ^ 64
    | none => span
  if span < used + pad + size then
    (overrun (modSession s n keyAfterLoss) n 4 p, { p with lost := true })
  else
    let s := if pad = 0 then s else (ringPut s x (4096 + pos) (unitHeader p 0 0 0 0x80 (nowBits s) ++ List.replicate (pad - 32) 0)).1
    let at_ := if pad = 0 then pos else 0
    let (s, whole) := ringPut s x (4096 + at_ + 32) (nal ++ List.replicate (size - 32 - nal.length) 0)
    let flags := if whole || flags.testBit 4 then flags else flags + 16
    let s := (ringPut s x (4096 + at_) (unitHeader p nal.length first rows flags (nowBits s))).1
    let prod := (x.produced + pad + size) % 2 ^ 64
    let s := (ringPut s x 0 (bytesLE 8 prod)).1
    let s := (ringPut s x 128 (bytesLE 8 (nowBits s))).1
    let s := ringReached s x (at_ == 0) (4096 + at_ + size)
    (modSession s n fun x => { x with produced := prod, lastUnit := now s }, p)

/-- FLAGS of a unit. -/
def unitFlags (p : EncPic) (first last degraded : Bool) : Nat :=
  first.toNat + 2 * last.toNat + 4 * p.key.toNat + 8 * p.recovery.toNat + 16 * degraded.toNat

/-- A slice is coded: in H.265 its unit is written at once; in H.264 all units with the last slice (R263). -/
def endSlice (s : State) (n : Nat) (p : EncPic) (last : Bool) : State × EncPic :=
  let x := getSession s n
  let f := p.sliceFirst; let rows := p.row - f
  let g := f / max 1 x.rowsPerSlice
  let rec_ := groupRecord x p f rows p.sliceSkip
  let deg (f rows : Nat) (skip : Bool) : Bool := skip || p.badLines.any fun l => f * rowHeight x ≤ l && decide (l < (f + rows) * rowHeight x)
  let lost := p.sliceSkip || p.sliceBad
  let head := p.head ++ if p.recovery then recoveryNal x.h264 (ceilDiv (encCols x) (max 1 x.irWidth)) else []
  let q := { p with slice := [], sliceFirst := p.row, sliceSkip := false, sliceBad := false, done := p.done ++ [(f, rows, lost, p.slice)], sei := p.sei ++ rec_ }
  if !x.h264 then
    putUnit s n q f rows (unitFlags p (f == 0) last (deg f rows lost))
      ((if f = 0 then head else []) ++ seiNal false (seiBody s x p g 1 last rec_) ++ p.slice)
  else if !last then (s, q)
  else
    let sei := seiNal true (seiBody s x q 0 q.done.length true q.sei)
    (List.range q.done.length).foldl (fun acc k =>
      let d := q.done.getD k (0, 0, false, [])
      putUnit acc.1 n acc.2 d.1 d.2.1 (unitFlags q (k == 0) (k + 1 == q.done.length) (deg d.1 d.2.1 d.2.2.1))
        ((if k = 0 then head ++ sei else []) ++ d.2.2.2)) (s, q)

/-- The end of a picture: carry, reference quantiser, event, latch (R257, R258). -/
def endPicture (s : State) (n : Nat) (p : EncPic) : State :=
  let x := getSession s n
  let carry : Int := if p.rate.cqp then x.carry else max 0 (x.carry + (p.u : Int) - (p.t : Int))
  let counted := p.qps.take (p.qps.length - p.skipped)
  let mean := counted.foldl (· + ·) 0 / max 1 counted.length
  let s := modSession (endLatch s (.session n)) n fun x =>
    { x with coding := none, coded := satAdd 32 x.coded 1, carry, qpRef := if counted.isEmpty then x.qpRef else mean
             prevBits := if p.key then [] else p.rowBits, prevQp := p.qps, prevW := p.weights }
  if p.skipped ≠ 0 then overrun s n 2 p else if p.clamped ≠ 0 then overrun s n 1 p else s

/-- The state of a SOURCE or SURFACE session's region in the rows of row r, and whether its input is damaged there (R264, R265). -/
def rowSources (s : State) (x : Session) (p : EncPic) : List (Nat × Nat × LState × Option LineWp × Option LineWp) × List Nat :=
  if x.input = 0 then ([], [])
  else
    let y := getSurf s p.surf
    let l0 := p.row * rowHeight x; let n := min (rowHeight x) (x.height - l0)
    let e := getEntry s x.source
    let st := if !x.sourceValid then LState.notTracked
      else if x.input = 1 then (List.range n).foldl (fun a k => withRow a y (x.cropY + l0 + k)) e.state else e.state
    let bad := (List.range n).filter fun k => inputLost s p || (readLine s y 0 (x.cropY + l0 + k)).2 ||
      (formatTwoPlane (formatPlain y.format) && (readLine s y 1 ((x.cropY + l0 + k) / 2)).2)
    ((List.range n).map fun k => (l0 + k, 0, st, e.origin, e.ageBase), bad.map (l0 + ·))

/-- A core reads lines of a surface: a denied read is recorded, poison and discarded blocks are noted (R108, R150, R371); whether it was denied. -/
def coreReads (s : State) (x : Session) (i first count : Nat) : State × Bool :=
  let y := getSurf s i
  match (readRanges y first count).findSome? fun a => weirDenied s x.owner engEncode false a.1 a.2 with
  | some (u, r) => (denyAt s x.owner engEncode false r u, true)
  | none => (countDiscards (noteLines s y first count 1) y first count, false)

/-! The motion search of a row (R256, R261). -/

/-- Bits of a luma sample of the session's pictures. -/
def lumaBits (x : Session) : Nat := if x.main10 then 10 else 8

/-- The luma sample at column c of line l of a surface, at the depth coded: as stored, or converted from RGB by the session's matrix (R135, R253). -/
def lumaAt (s : State) (x : Session) (y : Surface) (c l : Nat) : Nat :=
  let f := formatPlain y.format
  let line := (readLine s y 0 l).1
  if f = 0x21 then Config.toDepth 10 (lumaBits x) (leAt line (2 * c) 2 / 64)
  else if f = 0x20 then Config.toDepth 8 (lumaBits x) (byteAt line c)
  else if f = 0x22 then Config.toDepth 8 (lumaBits x) (byteAt line (2 * c))
  else
    let q := packedPx {} [] f line y.width c
    Config.rgbToLuma x.csc x.full q.r q.g q.b (lumaBits x)

/-- The luma of the picture coded; below the lines that FRONTIER covers the last of them stands (log entry 111). -/
def inputLuma (s : State) (x : Session) (p : EncPic) : Luma := fun c l =>
  let y := getSurf s p.surf
  lumaAt s x y (x.cropX + clampTo x.width c) (x.cropY + clampTo (min x.height (y.frontier - x.cropY)) l)

/-- The surface that holds the reconstruction of the picture coded now, and of the one before it. -/
def reconSurf (x : Session) (prev : Bool) : Nat := handleIndex (x.recon.getD ((x.coded + prev.toNat) % 2) 0)

/-- The luma of the previous coded picture, extended by its edges (R255, R256). -/
def refLuma (s : State) (x : Session) : Luma := fun c l =>
  let r := getSurf s (reconSurf x true)
  leAt (readLine s r 0 (clampTo r.height l)).1 (2 * clampTo r.width c) 2 / 64 / (if x.main10 then 1 else 4)

/-- The weights of the picture's rows from the current one: the level-1 SAD where the input is there and a reference is, otherwise what the core gives (R257; log entry 111). -/
def rowWeights (s : State) (x : Session) (p : EncPic) (given : List Nat) : List Nat :=
  if p.key then given
  else (List.range (encRows x - p.row)).map fun k =>
    let y := getSurf s p.surf
    if min (x.cropY + x.height) (x.cropY + (p.row + k + 1) * rowHeight x) ≤ y.frontier && y.pass == p.pass then
      rowSad (inputLuma s x p) (refLuma s x) (ceilDiv x.width 64) ((p.row + k) * rowHeight x / 64)
    else given.getD k 0

/-- The inter CUs of the row: those that lie in it, outside the columns that this picture of the cycle refreshes (R261). -/
def interCus (x : Session) (p : EncPic) (cus : List (Nat × Nat × Nat)) : List (Nat × Nat × Nat) :=
  if p.key then []
  else cus.filter fun c =>
    let col := c.1 / rowHeight x
    c.2.1 / rowHeight x == p.row && decide (c.1 < x.width) &&
    (x.irWidth == 0 || decide (col < p.cycle * x.irWidth) || decide ((p.cycle + 1) * x.irWidth ≤ col))

/-- The vectors of the row's inter CUs, and the level-2 vectors chosen for its blocks: zero in a SKIP row, otherwise as R256 searches them. -/
def rowVectors (s : State) (x : Session) (p : EncPic) (qp : Nat) (cus : List (Nat × Nat × Nat)) : List CuVector × List (Nat × Nat × Int × Int) :=
  let cus := interCus x p cus
  if cus.isEmpty then ([], [])
  else if rowPhase p = 2 then (cus.map fun c => { x := c.1, y := c.2.1, size := c.2.2 }, [])
  else
    let cur := inputLuma s x p; let ref := refLuma s x
    let edge := if x.irWidth = 0 then none else some (p.cycle * x.irWidth * rowHeight x)
    let y0 := p.row * rowHeight x
    let found := level2Row cur ref (ceilDiv x.width 32) y0 (min x.height (y0 + rowHeight x)) p.blocks
    (cus.filterMap fun c =>
      let near := ((found.find? fun b => b.1 == c.1 / 32 && b.2.1 == c.2.1 / 32).map fun b => b.2.2).getD []
      (searchCu x.h264 cur ref x.width x.height qp edge c.2.2 c.1 c.2.1 near).map fun m =>
        { x := c.1, y := c.2.1, size := c.2.2, vx := m.x, vy := m.y },
     found.filterMap fun b => b.2.2.head?.map fun m => (b.1, b.2.1, m.x, m.y))

/-- The lines of the reference that vectors read, interpolation taps included: first and count; none without a vector. -/
def refLines (height : Nat) (l : List CuVector) : Option (Nat × Nat) :=
  if l.isEmpty then none
  else
    let top (v : CuVector) : Nat := clampTo height ((v.y : Int) + v.vy / 4 - 3)
    let end_ (v : CuVector) : Nat := clampTo height ((v.y : Int) + (v.size : Int) + v.vy / 4 + 4)
    let a := l.foldl (fun n v => min n (top v)) height; let b := l.foldl (fun n v => max n (end_ v)) 0
    some (a, b + 1 - a)

/-- The core reads the reference of a row's vectors; whether a read was denied or met poison (R108, R371). -/
def readReference (s : State) (x : Session) (l : List CuVector) : State × Bool :=
  let r := reconSurf x true
  match refLines (getSurf s r).height l with
  | none => (s, false)
  | some (a, n) =>
    let bad := (List.range n).any fun k => (readLine s (getSurf s r) 0 (a + k)).2
    let (s, denied) := coreReads s x r a n
    (s, denied || bad)

/-- The core writes the reconstructed lines of row r; whether a unit was denied and dropped (R255, R371). -/
def storeRecon (s : State) (x : Session) (r : Nat) (row : CodedRow) : State × Bool :=
  let i := reconSurf x false
  let s := if r = 0 then beginPass s i else s
  let y := getSurf s i
  let y0 := r * rowHeight x
  let lines := ((List.range row.luma.length).map fun k => (y0 + k, row.luma.getD k [])) ++
    (List.range row.chroma.length).map fun k => (y.height + y0 / 2 + k, row.chroma.getD k [])
  let denied := lines.any fun l => (weirDenied s y.owner engEncode true (y.base + l.1 * y.pitch) (lineSize y.format y.width)).isSome
  let s := forEach lines (fun l s => planeLine s i l.1 l.2) s
  (modSurf s i (advance (rowHeight x)), denied)

/-- A core codes the next row of the picture it holds (R254 to R258, R262, R263). -/
def codeRow (s : State) (n : Nat) (p : EncPic) (row : CodedRow) : State :=
  let x := getSession s n
  let ph := rowPhase p
  let l0 := p.row * rowHeight x; let count := min (rowHeight x) (x.height - l0)
  let weights := rowWeights s x p row.weights
  let (s, qp) := if p.rate.cqp then (s, x.initQp) else if ph = 0 then normalQp s x p weights else (s, p.rate.qpMax)
  let (vs, blocks) := rowVectors s x p qp row.cus
  let (ls, bad) := rowSources s x p
  let (s, denied) := coreReads s x p.surf (x.cropY + l0) count
  let (s, refBad) := readReference s x vs
  let bad := if denied || refBad then (List.range count).map (l0 + ·) else bad
  let last := p.row + 1 == encRows x
  let (s, dropped) := storeRecon s x p.row row
  let p := { p with
    phase := ph, row := p.row + 1, u := p.u + row.bits, qps := p.qps ++ [qp], rowBits := p.rowBits ++ [row.bits], weights := p.weights ++ [weights.headD 0]
    clamped := p.clamped + (if ph = 1 then 1 else 0), skipped := p.skipped + (if ph = 2 then 1 else 0)
    sliceSkip := p.sliceSkip || ph == 2, sliceBad := p.sliceBad || dropped, vectors := p.vectors ++ vs
    blocks := (p.blocks.filter fun b => !blocks.any fun c => c.1 == b.1 && c.2.1 == b.2.1) ++ blocks, slice := p.slice ++ row.bytes, head := if p.row = 0 then row.head else p.head
    lines := p.lines ++ ls, badLines := p.badLines ++ bad }
  let charge := encCols x * rowHeight x * rowHeight x
  let s := { s with media := { s.media with encCredit := tmod 0 s.media.encCredit x.owner fun c => c - charge } }
  let (s, p) := if last || p.row - p.sliceFirst == x.rowsPerSlice then endSlice s n p last else (s, p)
  if last then endPicture s n p
  else modSession s n fun x => { x with coding := some { p with core := if rowReady s x p then p.core else none } }

/-- ENCODE_CTU_ROW_CODED: the core's picture gains a row; a core that would wait for input gives the picture up after it (R254). -/
def execEncodeCtuRowCoded (core : Nat) (row : CodedRow) (s : State) : Host.Outcome State Fault Refusal :=
  .next (match (sessionsWhere s fun x => match x.coding with | some p => p.core == some core | none => false).head? with
    | none => s
    | some n => match (getSession s n).coding with
      | none => s
      | some p =>
        if rowReady s (getSession s n) p then codeRow s n p row
        else modSession s n fun x => { x with coding := some { p with core := none } })

/-! ENCODE_CLOSE (R268). -/

/-- Release a list of device surfaces under R121: freed at once when nothing holds them, otherwise later. -/
def releaseAll (s : State) (l : List Nat) : State :=
  forEach l (fun h s =>
    let i := handleIndex h
    let s := modSurf s i fun x => { x with users := 0 }
    let s := beginRelease s i none
    if releaseReady s i then freeStorage s i else s) s

/-- A session's requests that no picture will serve end. -/
def failRequests (s : State) (n : Nat) : State :=
  let x := getSession s n
  let s := forEach (x.rateReqs.map Prod.fst ++ x.keyReqs.map Prod.fst) (fun k s => finishKey s k .notReady (nowBits s) []) s
  modSession s n fun x => { x with rateReqs := [], keyReqs := [] }

/-- Step 8 checks of ENCODE_CLOSE. -/
def checkEncodeClose (s : State) (h : Held) (_ : Cmd) : Option Fail :=
  checkSession s h [(16, 0, 5)] (fun _ => false)

/-- ENCODE_CLOSE's commit point: no new picture; with DISCARD the picture in progress is abandoned (R268). -/
def actEncodeClose (s : State) (h : Held) (_ : Cmd) : State :=
  let n := pf h.pkt 16 0 4
  let s := failRequests s n
  let s := modSession s n fun x =>
    { x with closing := some (heldKey h), discard := pb h.pkt 16 4, waiting := none
             coding := if pb h.pkt 16 4 then none else x.coding, lastUnit := if pb h.pkt 16 4 then now s else x.lastUnit }
  let s := if pb h.pkt 16 4 then endLatch s (.session n) else s
  defer s h []

/-- ENCODE_CLOSE (0x504). -/
def execEncodeClose (c : Cmd) (s : State) : Host.Outcome State Fault Refusal :=
  .next (runPacket s c 0x504 (fun _ => true) checkEncodeClose actEncodeClose)

/-- Encode cores stay powered while a session is open (R458). -/
def encodePower (s : State) : State :=
  if (sessionsWhere s Session.used).isEmpty then { s with power := { s.power with encodeOn := [] } } else s

/-- The detail of ENCODE_CLOSE's final reply (R268). -/
def closeDetail (x : Session) : List Field := [fAt 16 0 32 x.coded, fAt 20 0 32 x.dropped]

/-- A session is gone: its buffers are released, the ring stays its owner's surface, and requests on it end (R268). -/
def dropSession (s : State) (n : Nat) : State :=
  let x := getSession s n
  let s := failRequests s n
  let s := releaseAll (endLatch s (.session n)) (x.captures ++ x.recon)
  let s := dropUser s x.ring
  let s := if x.input = 2 then dropUser s x.handle else s
  encodePower { s with media := { s.media with sessions := tset {} s.media.sessions n {} } }

/-- ENCODE_CLOSE_COMPLETE: the last picture is written or abandoned; the buffers are released and the final reply is sent (R268). -/
def execEncodeCloseComplete (session : Nat) (s : State) : Host.Outcome State Fault Refusal :=
  .next (
    let x := getSession s session
    match x.closing with
    | none => s
    | some k =>
      if x.coding.isSome then s
      else
        if x.coded = 0 ∧ !x.discard then finishKey (dropSession s session) k .ok (nowBits s) (closeDetail x)
        else finishKey (dropSession s session) k .ok (wpBits x.lastUnit) (closeDetail x))

/-- ENCODE_RATE and DECODE_RATE credit of a wall frame: at most two frames' worth (R240, R254). -/
def frameCredit (s : State) (rate old : Nat) : Nat :=
  let g := rate * 1000000 * s.time.timing.rateDen / max 1 s.time.timing.rateNum
  min (2 * g) (old + g)

/-- The codec credits of every slice at a wall frame boundary. -/
def grantCredits (s : State) : State :=
  forEach (List.range 65) (fun i s =>
    let sh := (getSlice s i).share
    { s with media := { s.media with
        decCredit := tset 0 s.media.decCredit i (frameCredit s sh.decodeRate (tget 0 s.media.decCredit i))
        encCredit := tset 0 s.media.encCredit i (frameCredit s sh.encodeRate (tget 0 s.media.encCredit i)) } }) s

end Sys2Proof.Machine
end

