-- ==== Sys2Proof/Machine/DecodeCluster.lean ====
section
/-! DEFINITION. The Decode Cluster: contexts, scheduling, random-access starts, concealment, provenance SEI, row output and DECODE_STATUS (R233 to R247, R250). -/
namespace Sys2Proof.Machine
open Sys2Proof

/-! NAL units (R233, R242; headers of the two standards). -/

/-- nal_unit_type of a NAL unit. -/
def nalType (h265 : Bool) (n : List Byte) : Nat := if h265 then byteAt n 0 / 2 % 64 else byteAt n 0 % 32

/-- A payload without its emulation prevention bytes. -/
def stripEmulation : Nat → List Byte → List Byte
  | _, [] => []
  | z, b :: r => if z ≥ 2 ∧ b = 3 then stripEmulation 0 r else b :: stripEmulation (if b = 0 then z + 1 else 0) r

/-- Bits of the first n bytes of a payload without emulation prevention, most significant first. -/
def rbspBits (n : Nat) (l : List Byte) : List Bool :=
  (stripEmulation 0 (l.take n)).flatMap fun b => (List.range 8).map fun i => bitAt b.toNat (7 - i)

/-- ue(v) at the front of a bit list, and the rest. -/
def readUe (l : List Bool) : Nat × List Bool :=
  let z := (l.takeWhile fun b => !b).length
  let r := l.drop z
  (((r.take (z + 1)).foldl (fun v b => 2 * v + b.toNat) 0) - 1, r.drop (z + 1))

/-- A coded slice NAL unit. -/
def isSlice (h265 : Bool) (n : List Byte) : Bool := if h265 then decide (nalType true n ≤ 31) else inRange (nalType false n) 1 5

/-- se(v) from the value of its ue(v). -/
def seOf (k : Nat) : Int := if k % 2 = 1 then (((k + 1) / 2 : Nat) : Int) else -((k / 2 : Nat) : Int)

/-- The messages of an SEI payload, as type and body; n bounds them. -/
def seiMessages : Nat → List Byte → List (Nat × List Byte)
  | 0, _ => []
  | k + 1, l =>
    let t0 := (l.takeWhile fun b => b == 0xFF).length
    let t := 255 * t0 + byteAt l t0
    let l1 := l.drop (t0 + 1)
    let z0 := (l1.takeWhile fun b => b == 0xFF).length
    let n := 255 * z0 + byteAt l1 z0
    let body := l1.drop (z0 + 1)
    if l.length ≤ 2 then [] else (t, body.take n) :: seiMessages k (body.drop n)

/-- The SEI messages of a NAL unit, without emulation prevention; none of another unit. -/
def seiOf (h265 : Bool) (n : List Byte) : List (Nat × List Byte) :=
  if nalType h265 n = (if h265 then 39 else 6) then seiMessages 64 (stripEmulation 0 (n.drop (if h265 then 2 else 1))) else []

/-- recovery_frame_cnt of H.264, or recovery_poc_cnt of H.265, of an access unit (payloadType 6). -/
def recoveryCount (h265 : Bool) (nals : List (List Byte)) : Option Int :=
  (nals.flatMap (seiOf h265)).findSome? fun m =>
    if m.1 = 6 then
      let v := (readUe (m.2.flatMap fun b => (List.range 8).map fun i => bitAt b.toNat (7 - i))).1
      some (if h265 then seOf v else (v : Int))
    else none

/-- The UUID of the provenance SEI (R264). -/
def provenanceUuid : List Byte := [0x4C, 0x59, 0x43, 0x48, 0x41, 0x4C, 0x41, 0x4E, 0x2D, 0x44, 0x5A, 0x50, 0x52, 0x4F, 0x56, 0x31]

/-- The provenance SEI payloads of NAL units, after the UUID: user data unregistered messages that carry it (R245, R264). -/
def provenanceOf (h265 : Bool) (nals : List (List Byte)) : List (List Byte) :=
  (nals.flatMap (seiOf h265)).filterMap fun m => if m.1 = 5 ∧ m.2.take 16 = provenanceUuid then some (m.2.drop 16) else none

/-- What an access unit's headers say. -/
structure AuInfo where
  coded : Bool := false
  rap : Bool := false
  idr : Bool := false
  /-- CRA or BLA. -/
  open_ : Bool := false
  bla : Bool := false
  rasl : Bool := false
  isRef : Bool := false
  recovery : Option Int := none
  deriving DecidableEq, Repr

/-- Classify an access unit (R242). -/
def auInfo (h265 : Bool) (nals : List (List Byte)) : AuInfo :=
  match nals.find? (isSlice h265) with
  | none => {}
  | some n =>
    let t := nalType h265 n
    let rc := recoveryCount h265 nals
    if h265 then
      { coded := true, rap := inRange t 16 21, idr := t == 19 || t == 20, open_ := t == 21 || inRange t 16 18, bla := inRange t 16 18
        rasl := t == 8 || t == 9, isRef := !(decide (t ≤ 14) && t % 2 == 0), recovery := rc }
    else
      let intra := (nals.filter (isSlice false)).all fun n => (readUe (readUe (rbspBits 16 (n.drop 1))).2).1 % 5 == 2
      { coded := true, rap := t == 5 || (intra && rc == some 0), idr := t == 5, isRef := byteAt n 0 / 32 % 4 != 0, recovery := rc }

/-- An access unit is a random-access point of a context (R242). -/
def auStarts (x : DecCtx) (a : AccessUnit) : Bool :=
  let f := auInfo (x.codec == 1) a.nals
  f.rap || (x.gdr && match f.recovery with | some n => decide (0 < n) | none => false)

/-! Parameter sets (R233 to R235). -/

/-- UNFIT_DETAIL of the first failing check, 0 when a set passes (R233, R235, R238, R250); a coded picture above 4,096 x 2,304 counts as 0x06, a CTU height other than 16, 32 or 64, which no profile of R233 has, as 0x01 (DESIGN CHOICE, log entry 110). -/
def seqDetail (x : DecCtx) (r : SourceRec) (q : SeqInfo) : Nat :=
  let h265 := x.codec = 1
  let main10 := decide h265 && (q.profile == 2 || q.compatMain10)
  (firstFail [
    (q.h265 != decide h265, 0x09),
    (if h265 then !(q.profile == 1 || q.profile == 2 || q.compatMain || q.compatMain10) || !([16, 32, 64].contains q.ctu)
      else !((q.profile == 66 && q.constraint1) || q.profile == 77 || q.profile == 100), 0x01),
    (decide ((if h265 then 153 else 52) < q.level) || (decide h265 && q.highTier), 0x02),
    (q.interlaced, 0x03),
    (q.chroma != 1, 0x04),
    (!((q.depth == 8 && q.depthC == 8) || (main10 && (q.depth == 8 || q.depth == 10) && (q.depthC == 8 || q.depthC == 10))), 0x05),
    (decide (r.maxW < q.width ∨ r.maxH < q.height ∨ 4096 < q.codedW ∨ 2304 < q.codedH), 0x06),
    (q.cropLeft != 0 || q.cropTop != 0, 0x07),
    (decide (x.maxRefs < q.refs), 0x08)]).getD 0

/-! Coded data (R239 to R241). -/

/-- Coded bytes of an access unit in Annex B form (R274). -/
def auBytes (a : AccessUnit) : Nat := a.nals.foldl (fun n l => n + 4 + l.length) 0

/-- Coded bytes that a context holds (R276). -/
def ctxFill (x : DecCtx) : Nat := x.queue.foldl (fun n a => n + auBytes a) 0

/-- Access units that no core has started. -/
def unstarted (x : DecCtx) : List AccessUnit := if x.pic.isSome then x.queue.drop 1 else x.queue

/-- The unit in decoding, if any. -/
def started (x : DecCtx) : List AccessUnit := if x.pic.isSome then x.queue.take 1 else []

/-- The access units left of a list when every picture before the n-th is dropped; units without a coded slice stay. -/
def dropPictures (x : DecCtx) (n : Nat) (l : List AccessUnit) : List AccessUnit :=
  (l.take n).filter (fun a => !(auInfo (x.codec == 1) a.nals).coded) ++ l.drop n

/-- R241: more than two complete access units wait: the oldest non-reference picture goes, otherwise every picture up to the next random-access point. -/
def dropWork (s : State) (i : Nat) : State :=
  let x := getCtx s i
  let l := unstarted x
  let info (a : AccessUnit) : AuInfo := auInfo (x.codec == 1) a.nals
  let whole := l.filter AccessUnit.complete
  if whole.length ≤ 2 then s
  else match whole.find? fun a => (info a).coded && !(info a).isRef with
    | some a =>
      let s := modCtx s i fun x => { x with queue := started x ++ l.erase a, dropped := satAdd 32 x.dropped 1 }
      happen s i 4 0
    | none =>
      let n := match (l.drop 1).findIdx? fun a => (info a).coded && auStarts x a with
        | some k => k + 1
        | none => l.length
      let gone := ((l.take n).filter fun a => (info a).coded).length
      let s := modCtx s i fun x => { x with queue := started x ++ dropPictures x n l, dropped := satAdd 32 x.dropped gone, wait := true, gdrTo := none }
      forEach (List.range gone) (fun _ s => happen s i 4 0) s

/-- The core that a context's picture is in. -/
def ctxCore (x : DecCtx) : Option Nat := x.pic.bind DecPic.core

/-- A context is ready (R240): coded bytes that it has not consumed, its picture in no core, and its slice not stopped for new pictures (R98). -/
def ctxReady (s : State) (x : DecCtx) : Bool :=
  x.used && (match x.pic with
    | some p => p.core.isNone && (match x.queue.head? with
      | some a => a.complete || decide (p.starvedAt < auBytes a)
      | none => p.orphan)
    | none => !x.detached && !intakeStopped s x.slice && (match x.queue.head? with
      | some a => (auInfo (x.codec == 1) a.nals).coded || a.complete
      | none => false))

/-- MAC stamp of the picture a context would go on with. -/
def ctxStamp (x : DecCtx) : Wp := match x.queue.head? with
  | some a => a.stamp
  | none => {}

/-- Sources whose context meets a test. -/
def ctxsWhere (s : State) (f : DecCtx → Bool) : List Nat := (s.media.ctxs.filter fun e => f e.2).map Prod.fst

/-- Remove the access unit at the front of a context. -/
def popUnit (s : State) (i : Nat) : State := modCtx s i fun x => { x with queue := x.queue.drop 1 }

/-- The access unit at the front is discarded before a random-access point (R242). -/
def discardUnit (s : State) (i : Nat) : State :=
  modCtx (popUnit s i) i fun x => { x with discarded := satAdd 32 x.discarded 1 }

/-- A parameter set is refused (R234). -/
def refuseSet (s : State) (i detail : Nat) (q : SeqInfo) : State :=
  let x := getCtx s i
  let again := x.refused && x.seq == some q
  let s := modCtx (popUnit s i) i fun x =>
    { x with refused := true, seq := some q, unfitDetail := detail, wait := true, gdrTo := none, refusals := if again then x.refusals else x.refusals + 1 }
  if again then s
  else
    let r := getSource s i
    happen (markUnfit s i (if r.maxW < q.width ∨ r.maxH < q.height then 3 else 1) 3) i 6 detail

/-- The buffer for the next picture (R237): holding no picture kept for reference or output, lowest LATCHES, then oldest pass. -/
def decodeBuffer (s : State) (i : Nat) : Option Nat :=
  let x := getCtx s i
  let l := (buffersOf s i).filter fun b => passAllowed s b && !(x.refs.any fun r => r.surf == b) && (getSurf s b).orphans == 0
  let least := l.foldl (fun m b => min m (latchCount s b)) 512
  oldestBuffer s (l.filter fun b => latchCount s b == least)

/-- The held picture nearest in picture order count, the earlier on a tie (R243). -/
def nearestRef (l : List RefPic) (poc : Int) : Option RefPic :=
  l.foldl (fun b r => match b with
    | none => some r
    | some q =>
      let a := (r.poc - poc).natAbs; let c := (q.poc - poc).natAbs
      if a < c ∨ (a = c ∧ r.poc < q.poc) then some r else some q) none

/-- A gradual refresh that recovers at a frame_num or picture order count has done so with a picture (R242). -/
def gdrReached (h265 : Bool) (q : PicInfo) (target : Int) : Bool :=
  if h265 then decide (target ≤ q.poc)
  else decide ((((q.frameNum : Int) - target) % (max 1 q.maxFrameNum : Nat)) < ((max 1 q.maxFrameNum + 1) / 2 : Nat))

/-- The start of the picture at the front of a context finds no buffer: it is dropped, and after a reference picture the context waits for a random-access point (R237, R241). -/
def dropStart (s : State) (i : Nat) (isRef : Bool) : State :=
  happen (modCtx (popUnit s i) i fun x => { x with
    dropped := satAdd 32 x.dropped 1, wait := x.wait || isRef, gdrTo := if isRef then none else x.gdrTo }) i 4 0

/-- Begin the picture at the front of a context in a core (R237, R242, R243). -/
def beginPicture (s : State) (i core : Nat) (a : AccessUnit) (f : AuInfo) (q : PicInfo) (starting : Bool) : State :=
  let x := getCtx s i
  let h265 := x.codec == 1
  let gdrStart := starting && !f.rap
  let target := if f.rap then none
    else if gdrStart then f.recovery.map fun n => if h265 then q.poc + n else ((q.frameNum : Int) + n) % (max 1 q.maxFrameNum : Nat)
    else x.gdrTo
  let recovery := !gdrStart && match target with | some t => gdrReached h265 q t | none => false
  let pre := target.isSome && !recovery
  let kept := if starting || f.idr || f.bla then [] else x.refs
  let refs := if f.rap then [] else q.refs
  let missing := refs.filter fun r => !(kept.any fun k => k.isRef && k.poc == r)
  let startPoc := if starting then q.poc else x.startPoc
  let early := pre && missing.all fun r => decide (r < startPoc)
  let tainted := refs.any fun r => kept.any fun k => k.poc == r && k.bad
  let gap := q.gap && !h265 && !f.rap
  let other := (!missing.isEmpty && !early) || gap || tainted
  let subst := other || pre
  let held := kept.filter fun k => (k.isRef && q.keep.contains k.poc) || q.await.contains k.poc
  let s := modCtx s i fun x =>
    { x with
      wait := false, startPoc, refused := false, seq := some q.seq, width := q.seq.width, height := q.seq.height
      raslSkip := if starting then f.open_ else if h265 && f.rap then f.bla else x.raslSkip
      gdrTo := if recovery then none else target, refs := held
      concealing := x.concealing || subst, concealed := if subst then satAdd 32 x.concealed 1 else x.concealed }
  let s := if !missing.isEmpty || gap then happen s i 1 0 else s
  match decodeBuffer s i with
  | none => dropStart s i f.isRef
  | some b =>
    let s := setPassSize (beginPass s b) b q.seq.width q.seq.height
    let s := modCtx s i fun x =>
      { x with pic := some { surf := b, width := q.seq.width, height := q.seq.height, ctu := if h265 then q.seq.ctu else 16
                             codedW := q.seq.codedW, codedH := q.seq.codedH, depth := q.seq.depth, depthC := q.seq.depthC, poc := q.poc
                             standIns := missing.map fun r => (r, nearestRef kept r)
                             isRef := f.isRef, rap := f.rap || recovery, subst, other, origin := lineOf a.stamp, core := some core, refusals := x.refusals } }
    captureSource s i b

/-- A new access unit reaches a core: its parameter sets, and whether it may be decoded (R234, R242). -/
def startUnit (s : State) (i core : Nat) (a : AccessUnit) (q : PicInfo) : State :=
  let x := getCtx s i
  let f := auInfo (x.codec == 1) a.nals
  let bad := seqDetail x (getSource s i) q.seq
  let starts := auStarts x a
  if !f.coded then popUnit s i
  else if bad ≠ 0 then refuseSet s i bad q.seq
  else if x.wait && !starts then discardUnit s i
  else if f.rasl && x.raslSkip && !x.wait then discardUnit s i
  else beginPicture s i core a f q x.wait

/-- DECODE_CONTEXT_SCHEDULE: a free core takes the ready context that comes first (R240, R458). -/
def execDecodeContextSchedule (core : Nat) (pic : PicInfo) (s : State) : Host.Outcome State Fault Refusal :=
  .next (if !decide (core < 8) || s.media.decOut.contains core || !(ctxsWhere s fun x => ctxCore x == some core).isEmpty then s
    else match bestOf s s.media.decCredit (fun i => (getCtx s i).slice) (fun i => ctxStamp (getCtx s i)) (ctxsWhere s (ctxReady s)) with
      | none => s
      | some i =>
        let s := { s with power := { s.power with decodeOn := tset false s.power.decodeOn core true } }
        match (getCtx s i).pic, (getCtx s i).queue.head? with
        | some _, _ => modCtx s i fun x => { x with pic := x.pic.map fun p => { p with core := some core } }
        | none, some a => startUnit s i core a pic
        | none, none => s)

/-- DECODE_CORE_IDLE_TIMER: a core with no ready context for 1 ms powers off (R458). -/
def execDecodeCoreIdleTimer (core : Nat) (s : State) : Host.Outcome State Fault Refusal :=
  .next (if (ctxsWhere s fun x => ctxCore x == some core || ctxReady s x).isEmpty then
    { s with power := { s.power with decodeOn := tset false s.power.decodeOn core false } } else s)

/-! Provenance SEI (R33, R245, R264). -/

/-- The group records of a provenance SEI: k of them from record g on. -/
def seiGroups (first lines : Nat) : Nat → Nat → List Byte → Option (List SeiGroup)
  | 0, _, _ => some []
  | k + 1, g, l =>
    let mask := bitsAt (leAt l 2 2) 0 8
    let n := 16 + 14 * ((List.range 8).filter fun b => bitAt mask b).length
    let code := byteAt l 0 % 16
    if l.length < n || inRange code 9 14 then none
    else match seiGroups first lines k (g + 1) (l.drop n) with
      | none => none
      | some r =>
        let st := stateOfCode code
        some ({ first := (first + g) * lines, state := if st = .notTracked then .live else st
                origin := lineWpOfBits (leAt l 4 6), base := lineWpOfBits (leAt l 10 6) } :: r)

/-- A provenance SEI payload after the UUID: the wall identifier and its groups, or none when it cannot be parsed (R245, R264). -/
def parseSei (l : List Byte) : Option (Nat × List SeiGroup) :=
  let m := byteAt l 2; let n := byteAt l 3
  if l.length < 24 || byteAt l 0 != 1 || decide (8 < m) || !inRange n 1 144 || leAt l 22 2 == 0 then none
  else (seiGroups (leAt l 20 2) (leAt l 22 2) n 0 (l.drop (24 + 12 * m))).map fun g => (leAt l 4 4, g)

/-- A picture takes a provenance SEI: its groups go to the pass (R33), or it is discarded and the picture is damaged (R245). -/
def takeSei (s : State) (i : Nat) (l : List Byte) : State :=
  match (getCtx s i).pic with
  | none => s
  | some p => match parseSei l with
    | none => modCtx (happen s i 7 0) i fun x => { x with pic := some { p with damaged := true } }
    | some (wall, g) =>
      let same := wall == s.time.timing.wallId
      let s := modCtx s i fun x => { x with pic := some { p with groups := p.groups ++ g, hasSei := true, sameWall := same } }
      modSurf s p.surf fun y => { y with rowStates := y.rowStates ++ g.map fun q => (q.first, q.state, if same then q.base else none) }

/-- The newest of two stored positions. -/
def newerLine (a b : Option LineWp) : Option LineWp := match a, b with
  | some x, some y => if lineLater y x then some y else some x
  | some x, none => some x
  | none, y => y

/-- Origin, upstream state and base of a finished picture (R245). -/
def picUpstream (p : DecPic) : LineWp × LState × Option LineWp × Bool :=
  if !p.hasSei || !p.sameWall || p.groups.isEmpty then (p.origin, .live, none, false)
  else
    let o := p.groups.foldl (fun a g => newerLine a g.origin) none
    let low := p.groups.foldl (fun a g => if stateRank g.state < stateRank a then g.state else a) (p.groups.headD {}).state
    let top := p.groups.find? fun g => g.state == low
    (o.getD p.origin, low, (top.map SeiGroup.base).join, true)

/-! Rows (R236, R238, R244, R246). -/

/-- The bytes of a line of samples in an output format (R236). -/
def packSamples (fmt depth : Nat) (l : List Nat) : List Byte :=
  if formatPlain fmt = 0x21 then l.flatMap fun v => bytesLE 2 ((if depth = 8 then v * 4 else v) * 64)
  else l.map fun v => BitVec.ofNat 8 (if depth = 8 then v else min 255 ((v + 2) / 4))

/-- A line with the columns that could not be decoded taken from the co-located line of the reference, or mid-grey (R244). -/
def fillLine (fmt : Nat) (ref : Option (List Byte)) (cols : List (Nat × Nat)) (l : List Byte) : List Byte :=
  let b := if formatPlain fmt = 0x21 then 2 else 1
  (List.range l.length).map fun k =>
    if cols.any fun c => c.1 * b ≤ k && decide (k < c.2 * b) then
      match ref with
      | some r => r.getD k 0
      | none => if b = 2 then (if k % 2 = 0 then 0 else 0x80) else 0x80
    else l.getD k 0

/-- CTU or macroblock rows of a picture, by its coded height. -/
def picRows (p : DecPic) : Nat := max 1 (ceilDiv p.codedH p.ctu)

/-- FRONTIER when the row in decoding is done (R238). -/
def rowFrontier (p : DecPic) : Nat := if picRows p ≤ p.row + 1 then p.height else min p.height ((p.row + 1) * p.ctu - 8)

/-- The pixel columns of a line that were filled: those of its row, which is the row in decoding or, in the 8 lines held back, the one before (R238, R244). -/
def fillsOf (p : DecPic) (row : DecodedRow) (line : Nat) : List (Nat × Nat) :=
  (if line / p.ctu = p.row then row.fills else if line / p.ctu + 1 = p.row then p.fills else []).map fun c => (c.1 * p.ctu, c.2 * p.ctu)

/-- The lines a finished row makes final are written, or offered to the compressor lanes tile row by tile row (R236, R238, R244). -/
def writeDecoded (s : State) (p : DecPic) (x : DecCtx) (row : DecodedRow) : State :=
  let y := getSurf s p.surf
  let f0 := p.lines; let f1 := rowFrontier p
  let ref := (nearestRef x.refs p.poc).map fun r => getSurf s r.surf
  let line (plane n depth : Nat) (l : List Nat) : List Byte :=
    fillLine y.format (ref.map fun r => (readLine s r plane n).1) (fillsOf p row (if plane = 1 then 2 * n else n)) (packSamples y.format depth l)
  let luma := (List.range (f1 - f0)).map fun k => line 0 (f0 + k) p.depth (row.luma.getD k [])
  let chroma := (List.range (f1 / 2 - f0 / 2)).map fun k => line 1 (f0 / 2 + k) p.depthC (row.chroma.getD k [])
  if formatCompressed y.format then
    forEach (List.range ((f1 - f0 + 3) / 4)) (fun k s =>
      laneRow s p.surf (f0 / 4 + k) .decode ((luma.drop (4 * k)).take 4) ((chroma.drop (2 * k)).take 2)) s
  else
    let s := forEach (List.range luma.length) (fun k s => planeLine s p.surf (f0 + k) (luma.getD k [])) s
    let s := forEach (List.range chroma.length) (fun k s => planeLine s p.surf (y.height + f0 / 2 + k) (chroma.getD k [])) s
    exportLines (modSurf s p.surf (advance (f1 - f0))) p.surf

/-- A core reads lines of a picture as references: what it meets of poison, discarded blocks, denials and lost ledger entries, and whether it met any (R108, R115, R150, R371). -/
def readRefs (s : State) (i : Nat) (l : List (Int × Nat × Nat)) : State × Bool :=
  let x := getCtx s i
  l.foldl (fun (acc : State × Bool) r =>
    match x.refs.find? fun k => k.poc == r.1 with
    | none => acc
    | some k =>
      let y := getSurf acc.1 k.surf
      let bad := (List.range r.2.2).any fun n => (readLine acc.1 y 0 (r.2.1 + n)).2 || (formatTwoPlane y.format && (readLine acc.1 y 1 ((r.2.1 + n) / 2)).2)
      let denied := (readRanges y r.2.1 r.2.2).findSome? fun a => weirDenied acc.1 y.owner engDecode false a.1 a.2
      match denied with
      | some (u, q) => (denyAt acc.1 y.owner engDecode false q u, true)
      | none => (countDiscards (noteLines acc.1 y r.2.1 r.2.2 1) y r.2.1 r.2.2, acc.2 || bad || k.lost)) (s, false)

/-- The area of n CTUs or macroblocks of a picture is charged to its slice (R240). -/
def chargeCtus (s : State) (slice : Nat) (p : DecPic) (n : Nat) : State :=
  { s with media := { s.media with decCredit := tmod 0 s.media.decCredit slice fun c => c - n * p.ctu * p.ctu } }

/-- The picture of a context is finished: its delivery, and what it leaves for later pictures (R243, R245 to R247). -/
def finishPicture (s : State) (i : Nat) (p : DecPic) : State :=
  let x := getCtx s i
  let lost := match x.queue.head? with | some a => a.lost | none => false
  let damaged := p.damaged || lost
  let s := if lost then happen s i 2 0 else s
  let clean := p.rap && !damaged && !p.other
  let ends := clean && x.concealing
  let s := modCtx s i fun x =>
    { x with
      pic := none, queue := x.queue.drop 1, concealing := x.concealing && !clean, damaged := if damaged then satAdd 32 x.damaged 1 else x.damaged
      decodeUs := p.us
      refs := x.refs ++ [{ poc := p.poc, surf := p.surf, isRef := p.isRef, bad := damaged || p.other }] }
  let s := if ends then happen s i 5 0 else s
  let (origin, up, base, sei) := picUpstream p
  addDelivery s { source := i, surf := p.surf, pass := (getSurf s p.surf).pass, height := p.height, origin, damaged
                  concealed := some (getCtx s i).concealing, upstream := up, upBase := base, sei, cleanRap := clean, refusals := p.refusals }

/-- A picture that was finished only to be discarded is gone; one that its slice's reset left counts as retired (R96, R249). -/
def dropOrphan (s : State) (i : Nat) (p : DecPic) (aborted : Bool) : State :=
  let s := modCtx s i fun x => { x with pic := none, queue := [] }
  let s := modSurf s p.surf fun x => { x with orphans := x.orphans - 1 }
  if p.counted then orphanDone s (getCtx s i).slice aborted else s

/-- A row of a picture that is finished only to be discarded (R96, R249). -/
def discardRow (s : State) (i : Nat) (p : DecPic) : State :=
  if picRows p ≤ p.row + 1 then dropOrphan s i p false
  else modCtx s i fun x => { x with pic := some { p with row := p.row + 1, ctus := 0 } }

/-- The NAL units of a picture that have come since the last row are searched for provenance SEI (R245). -/
def newSei (s : State) (i : Nat) (p : DecPic) : State :=
  let x := getCtx s i
  let nals := match x.queue.head? with | some a => a.nals | none => []
  let s := forEach (provenanceOf (x.codec == 1) (nals.drop p.nals)) (fun l s => takeSei s i l) s
  modCtx s i fun x => { x with pic := x.pic.map fun p => { p with nals := nals.length } }

/-- A core reads the coded bytes of the first access unit that it has not read yet: a denied or poisoned range makes the picture a damaged arrival (R108, R371). -/
def readCoded (s : State) (i : Nat) : State :=
  let x := getCtx s i
  match x.queue with
  | [] => s
  | a :: rest =>
    let (s, bad) := (a.spans.drop a.read).foldl (fun (acc : State × Bool) r =>
      match weirDenied acc.1 x.slice engDecode false r.1 r.2 with
      | some (u, q) => (denyAt acc.1 x.slice engDecode false q u, true)
      | none => (noteRead acc.1 r.1 r.2 1, acc.2 || rangePoisoned acc.1 r.1 r.2)) (s, false)
    modCtx s i fun x => { x with queue := { a with read := a.spans.length, lost := a.lost || bad } :: rest }

/-- A row of the picture of context i is finished, or suspended at a CTU for want of coded bytes (R238, R240, R244). -/
def decodeRow (s : State) (i : Nat) (p : DecPic) (row : DecodedRow) : State :=
  let s := readCoded s i
  let x := getCtx s i
  let y := getSurf s p.surf
  let bytes := match x.queue.head? with | some a => auBytes a | none => 0
  let cols := ceilDiv p.codedW p.ctu
  if row.starved then
    let n := min (cols - 1) (max p.ctus row.ctus)
    chargeCtus (modCtx s i fun x => { x with pic := some { p with core := none, starvedAt := bytes, ctus := n } }) x.slice p (n - p.ctus)
  else if p.orphan then chargeCtus (discardRow s i p) x.slice p (cols - p.ctus)
  else if y.rebuilding || writerBlocked s p.surf y.pass p.lines (rowFrontier p - 1) then s
  else
    let s := chargeCtus s x.slice p (cols - p.ctus)
    let s := newSei s i p
    let s := if row.damaged then happen s i 3 0 else s
    let (s, bad) := readRefs s i row.reads
    let p := ((getCtx s i).pic).getD p
    let s := writeDecoded s p x row
    let q := { p with row := p.row + 1, ctus := 0, fills := row.fills, lines := rowFrontier p
                      damaged := p.damaged || row.damaged || !row.fills.isEmpty || bad, us := p.us + row.us }
    let s := modCtx s i fun x => { x with pic := some q }
    if picRows p ≤ p.row + 1 then finishPicture s i q else s

/-- DECODE_CTU_ROW_DONE: a core finishes a row of its picture (R238). -/
def execDecodeCtuRowDone (core : Nat) (row : DecodedRow) (s : State) : Host.Outcome State Fault Refusal :=
  .next (match (ctxsWhere s fun x => ctxCore x == some core).head? with
    | none => s
    | some i => match (getCtx s i).pic with
      | none => s
      | some p => decodeRow s i p row)

/-- EV_DECODE_CONCEAL for what a source's context gathered in a wall frame (R247). -/
def postDecodeEvents (s : State) : State :=
  forEach (s.media.ctxs.map Prod.fst) (fun i s =>
    let x := getCtx s i
    let s := modCtx s i fun x => { x with events := [] }
    forEach x.events (fun e s => postEvent s x.slice (eventBits 0x0401 (wpBits e.wp) [fAt 2 0 12 i, fAt 4 0 8 e.cause, fAt 5 0 8 e.detail,
      fAt 6 0 16 e.count, fAt 16 0 32 e.picture])) s) s

/-! DECODE_STATUS (R250). -/

/-- CTX_STATE of a context. -/
def ctxState (s : State) (x : DecCtx) : Nat :=
  if x.detached then 5 else if x.refused || x.unfitDetail != 0 then 3
  else if intakeStopped s x.slice then 4 else if x.wait then 0 else if x.concealing then 2 else 1

/-- The 64-byte record of a context. -/
def ctxRecord (s : State) (x : DecCtx) : Nat :=
  let q := x.seq
  let g (f : SeqInfo → Nat) : Nat := (q.map f).getD 0
  packFields [fAt 0 0 8 (ctxState s x), fAt 1 0 8 x.unfitDetail, fAt 2 0 16 x.width, fAt 4 0 16 x.height, fAt 6 0 8 (g SeqInfo.profile),
    fAt 7 0 8 (g SeqInfo.level), fAt 8 0 32 x.decoded, fAt 12 0 32 x.dropped, fAt 16 0 32 x.concealed, fAt 20 0 32 x.damaged,
    fAt 24 0 32 x.discarded, fAt 28 0 8 (g SeqInfo.depth), fAt 29 0 8 (if x.codec = 0 ∧ q.isSome then 16 else g SeqInfo.ctu),
    fAt 30 0 8 (if x.codec = 0 ∧ q.isSome then 1 else g SeqInfo.tileCols), fAt 31 0 8 (g SeqInfo.refs),
    fAt 32 0 64 (match x.lastRap with | some w => wpBits w | none => 0xFFFFFFFFFFFFFFFF), fAt 40 0 32 x.decodeUs, fAt 44 0 32 x.codedBytes]

/-- Step 8 checks of DECODE_STATUS. -/
def checkDecodeStatus (s : State) (h : Held) (_ : Cmd) : Option Fail :=
  let e := getEntry s (pf h.pkt 16 0 12)
  firstFail [(!reservedZero h.pkt [(16, 0, 12), (24, 0, 64)] || pf h.pkt 24 0 64 % 64 != 0, failWith .badParam),
    (!e.valid, failWith .notReady), (e.kind != .decoded, failWith .badParam),
    (h.slice != 0 && e.owner != h.slice, failWith .notPermitted)]

/-- DECODE_STATUS's effect. -/
def actDecodeStatus (s : State) (h : Held) (c : Cmd) : State :=
  let r := ctxRecord s (getCtx s (pf h.pkt 16 0 12))
  let det := [fAt 16 0 128 r]
  let dest := pf h.pkt 24 0 64
  if dest = 0 then finishNow s h .ok det
  else match destWrite s h.slice engLock (destSpace s) c.ok dest (bytesLE 64 r) with
    | (s, true) => finishNow s h .ok det
    | (s, false) => finishNow s h .weirDenied []

/-- DECODE_STATUS (0x405). -/
def execDecodeStatus (c : Cmd) (s : State) : Host.Outcome State Fault Refusal :=
  .next (runPacket s c 0x405 (fun _ => true) checkDecodeStatus actDecodeStatus)

end Sys2Proof.Machine
end

