-- ==== Sys2Proof/Machine/Ingress.lean ====
section
/-! DEFINITION. Ethernet ingress and egress: frames, the classifier, RTP reception and transmission, host queues, FLOW_SET (R269 to R282). -/
namespace Sys2Proof.Machine
open Sys2Proof

/-- An Ethernet port. -/
def getPort (s : State) (i : Nat) : EthPort := tget {} s.media.ports i
/-- Change an Ethernet port. -/
def modPort (s : State) (i : Nat) (f : EthPort → EthPort) : State := { s with media := { s.media with ports := tmod {} s.media.ports i f } }
/-- A classifier rule. -/
def getRule (s : State) (i : Nat) : FlowRule := tget {} s.media.rules i
/-- Change a classifier rule. -/
def modRule (s : State) (i : Nat) (f : FlowRule → FlowRule) : State := { s with media := { s.media with rules := tmod {} s.media.rules i f } }
/-- A host queue. -/
def getQueue (s : State) (i : Nat) : HostQueue := tget {} s.media.queues i
/-- Change a host queue. -/
def modQueue (s : State) (i : Nat) (f : HostQueue → HostQueue) : State := { s with media := { s.media with queues := tmod {} s.media.queues i f } }
/-- An RTP transmit stream. -/
def getStream (s : State) (i : Nat) : RtpStream := tget {} s.media.streams i
/-- Change an RTP transmit stream. -/
def modStream (s : State) (i : Nat) (f : RtpStream → RtpStream) : State := { s with media := { s.media with streams := tmod {} s.media.streams i f } }

/-! Frames (R269 to R271). -/

/-- One's complement sum of 16-bit words, folded. -/
def sum16 : List Byte → Nat
  | [] => 0
  | [a] => a.toNat * 256
  | a :: b :: r => let t := a.toNat * 256 + b.toNat + sum16 r; t % 65536 + t / 65536

/-- A received frame taken apart; addresses are numbers of 48, 32 or 128 bits. -/
structure FrameInfo where
  dst : Nat := 0
  src : Nat := 0
  tag : Option Nat := none
  etype : Nat := 0
  /-- Bytes after the EtherType. -/
  body : List Byte := []
  ip : Option Bool := none
  saddr : Nat := 0
  daddr : Nat := 0
  fragment : Bool := false
  udp : Option (Nat × Nat) := none
  payload : List Byte := []
  sumOk : Bool := true
  deriving DecidableEq, Repr

/-- The UDP part of an IP packet: ports, payload and checksum; a fragment has its ports in the first one alone, and its checksum is over all of them (R269, R271). -/
def udpPart (i : FrameInfo) (v6 first : Bool) (pseudo l : List Byte) : FrameInfo :=
  let len := beAt l 4 2
  let u := l.take len
  let c := beAt l 6 2
  let ok := if c = 0 then !v6 else sum16 (pseudo ++ u) == 0xFFFF
  if i.fragment then { i with udp := if first then some (beAt l 0 2, beAt l 2 2) else none, payload := l.drop 8 }
  else { i with udp := some (beAt l 0 2, beAt l 2 2), payload := u.drop 8, sumOk := i.sumOk && ok && decide (8 ≤ len ∧ len ≤ l.length) }

/-- Skip IPv6 extension headers: next header, the offset and more-fragments bit of a fragment, and the rest (R269). -/
def skipV6 : Nat → Nat → Nat × Nat → List Byte → Nat × (Nat × Nat) × List Byte
  | 0, h, f, l => (h, f, l)
  | n + 1, h, f, l =>
    if h = 0 ∨ h = 43 ∨ h = 60 then skipV6 n (byteAt l 0) f (l.drop (8 + 8 * byteAt l 1))
    else if h = 44 then skipV6 n (byteAt l 0) (beAt l 2 2 / 8, beAt l 2 2 % 2) (l.drop 8)
    else (h, f, l)

/-- Take a frame apart; the FCS is already removed. -/
def parseFrame (f : List Byte) : FrameInfo :=
  let t0 := beAt f 12 2
  let tag := if t0 = 0x8100 then some (beAt f 14 2) else none
  let o := if t0 = 0x8100 then 16 else 12
  let et := beAt f o 2
  let b := f.drop (o + 2)
  let i : FrameInfo := { dst := beAt f 0 6, src := beAt f 6 6, tag, etype := et, body := b }
  if et = 0x0800 then
    let hl := byteAt b 0 % 16 * 4
    let frag := beAt b 6 2 % 2 ^ 13 != 0 || beAt b 6 2 / 2 ^ 13 % 2 == 1
    let i := { i with ip := some false, saddr := beAt b 12 4, daddr := beAt b 16 4, fragment := frag, sumOk := sum16 (b.take hl) == 0xFFFF && byteAt b 0 / 16 == 4 }
    let l := (b.take (beAt b 2 2)).drop hl
    if byteAt b 9 = 17 then udpPart i false (beAt b 6 2 % 2 ^ 13 == 0) ((b.drop 12).take 8 ++ [0, 17] ++ bytesBE 2 (beAt l 4 2)) l else i
  else if et = 0x86DD then
    let (h, frag, l) := skipV6 8 (byteAt b 6) (0, 0) ((b.take (40 + beAt b 4 2)).drop 40)
    let i := { i with ip := some true, saddr := beAt b 8 16, daddr := beAt b 24 16, fragment := frag != (0, 0), sumOk := byteAt b 0 / 16 == 6 }
    if h = 17 then udpPart i true (frag.1 == 0) ((b.drop 8).take 32 ++ bytesBE 4 (beAt l 4 2) ++ [0, 0, 0, 17]) l else i
  else i

/-- The FCS of a frame's other bytes. -/
def fcs (l : List Byte) : List Byte := bytesLE 4 (crc32 l)

/-- A multicast or broadcast destination. -/
def isMulticast (dst : Nat) : Bool := bitAt dst 40

/-- R269: the frame is for this port. -/
def addressOk (p : EthPort) (i : FrameInfo) : Bool := isMulticast i.dst || i.dst == p.mac

/-- Two addresses agree in their first n bits of a width. -/
def prefixOk (v6 : Bool) (n a b : Nat) : Bool := let w := if v6 then 128 else 32; a / 2 ^ (w - n) == b / 2 ^ (w - n)

/-- A rule matches a frame on a port (R271). -/
def ruleHit (r : FlowRule) (port : Nat) (i : FrameInfo) : Bool :=
  r.enable && bitAt r.ports port &&
  (if r.vlan = 0 then i.tag.isNone else if r.vlan = 1 then (match i.tag with | some t => t % 4096 == r.vid | none => false) else true) &&
  i.ip == some r.ipv6 && prefixOk r.ipv6 r.srcPrefix r.srcAddr i.saddr && prefixOk r.ipv6 r.dstPrefix r.dstAddr i.daddr &&
  (match i.udp with
   | some (sp, dp) => dp == r.dstUdp && (r.srcUdp == 0 || sp == r.srcUdp)
   | none => false) &&
  !(r.action == 1 && i.fragment)

/-- The lowest-numbered enabled rule that matches (R271). -/
def classify (s : State) (port : Nat) (i : FrameInfo) : Option Nat :=
  (s.media.rules.find? fun e => ruleHit e.2 port i).map Prod.fst

/-! RTP reception (R272 to R277). -/

/-- A happening of a rule (R277). -/
def flowEvent (s : State) (r cause n : Nat) : State :=
  modRule s r fun x => { x with events := addCause x.events { cause, count := n, wp := now s } }

/-- Change the newest access unit of a context. -/
def modLastUnit (f : AccessUnit → AccessUnit) (x : DecCtx) : DecCtx :=
  match x.queue.reverse with
  | a :: r => { x with queue := (f a :: r).reverse }
  | [] => x

/-- The access unit in progress of a rule's flow is reported as data lost (R272, R274, R276). -/
def loseUnit (s : State) (r : Nat) : State :=
  let x := getRule s r
  if x.ended then modRule s r fun x => { x with gap := true } else modCtx s x.source (modLastUnit fun a => { a with lost := true })

/-- A NAL unit whose last fragment has not come is discarded whole and reported as data lost (R274). -/
def dropFragment (s : State) (r : Nat) : State :=
  if (getRule s r).frag.isSome then loseUnit (modRule s r fun x => { x with frag := none }) r else s

/-- The access unit in progress ends (R274); a context with too much work drops some (R241). -/
def endUnit (s : State) (r : Nat) : State :=
  let s := dropFragment s r
  let x := getRule s r
  if x.ended then s
  else dropWork (modCtx (modRule s r fun x => { x with ended := true }) x.source (modLastUnit fun a => { a with complete := true })) x.source

/-- Ranges of a coded buffer that the next n bytes take, wrapping (R276). -/
def codedSpans (s : State) (r n : Nat) : List (Nat × Nat) :=
  let x := getRule s r
  let b := latchedSurf s x.handle
  let n1 := min n (x.size - x.wpos)
  (b.base + x.wpos, n1) :: (if n1 < n then [(b.base, n - n1)] else [])

/-- Write bytes into the coded buffer at its write position; a denied unit is dropped (R274, R276, R371). Whether every unit was written. -/
def putCoded (s : State) (r : Nat) (l : List Byte) : State × Bool :=
  let owner := (latchedSurf s (getRule s r).handle).owner
  let w := (codedSpans s r l.length).foldl (fun (acc : (State × Bool) × List Byte) p =>
    let t := writeChecked acc.1.1 owner engIngress p.1 (acc.2.take p.2)
    ((t.1, acc.1.2 && t.2), acc.2.drop p.2)) ((s, true), l)
  (modRule w.1.1 r fun x => { x with wpos := (x.wpos + l.length) % max 1 x.size }, w.1.2)

/-- A whole NAL unit of the flow joins its access unit; one of which a unit was dropped is data lost (R274, R371). -/
def putNal (s : State) (r : Nat) (n : List Byte) : State :=
  let l := [0, 0, 0, 1] ++ n
  let spans := codedSpans s r l.length
  match putCoded s r l with
  | (s, false) => loseUnit s r
  | (s, true) => modCtx s (getRule s r).source fun c =>
    modLastUnit (fun a => { a with nals := a.nals ++ [n], spans := a.spans ++ spans }) { c with codedBytes := (c.codedBytes + n.length + 4) % 2 ^ 32 }

/-- The NAL units that a packet completes, or an overflow of the coded buffer when they do not fit together (R276). -/
def putNals (s : State) (r : Nat) (l : List (List Byte)) : State :=
  let x := getRule s r
  if x.size < ctxFill (getCtx s x.source) + l.foldl (fun t n => t + n.length + 4) 0 then loseUnit (flowEvent s r 5 1) r
  else forEach l (fun n s => putNal s r n) s

/-- The NAL units of an aggregation packet. -/
def aggregated : Nat → List Byte → List (List Byte)
  | 0, _ => []
  | k + 1, l =>
    let n := beAt l 0 2
    if l.length < 2 + n ∨ n = 0 then [] else (l.drop 2).take n :: aggregated k (l.drop (2 + n))

/-- A fragment of a NAL unit: header bytes of the whole unit, start, end, and the bytes (R274). -/
def putFragment (s : State) (r : Nat) (head : List Byte) (first last : Bool) (l : List Byte) : State :=
  let x := getRule s r
  let s := if first then dropFragment s r else s
  let f : Option (List Byte) := if first then some (head ++ l) else x.frag.map (· ++ l)
  match f with
  | none => loseUnit s r
  | some n =>
    let s := modRule s r fun x => { x with frag := if last then none else some n }
    if last then putNals s r [n] else s

/-- The payload of a passed packet (R273). -/
def putPayload (s : State) (r : Nat) (l : List Byte) : State :=
  let h265 := (getCtx s (getRule s r).source).codec = 1
  let b0 := byteAt l 0
  let s := if (if h265 then b0 / 2 % 64 = 49 else b0 % 32 = 28) then s else dropFragment s r
  if h265 then
    let t := b0 / 2 % 64
    if t = 48 then putNals s r (aggregated l.length (l.drop 2))
    else if t = 49 then
      let f := byteAt l 2
      putFragment s r [BitVec.ofNat 8 (b0 / 128 * 128 + f % 64 * 2 + b0 % 2), BitVec.ofNat 8 (byteAt l 1)] (bitAt f 7) (bitAt f 6) (l.drop 3)
    else if t < 48 then putNals s r [l]
    else flowEvent s r 6 1
  else
    let t := b0 % 32
    if inRange t 1 23 then putNals s r [l]
    else if t = 24 then putNals s r (aggregated l.length (l.drop 1))
    else if t = 28 then
      let f := byteAt l 1
      putFragment s r [BitVec.ofNat 8 (b0 / 32 * 32 + f % 32)] (bitAt f 7) (bitAt f 6) (l.drop 2)
    else flowEvent s r 6 1

/-- A packet passes to the context (R274). -/
def passPacket (s : State) (r : Nat) (p : RtpPacket) : State :=
  let x := getRule s r
  let s := if !x.ended && x.lastTs != some p.ts then endUnit s r else s
  let x := getRule s r
  let s := if x.gap && x.frag.isSome then modRule s r fun x => { x with frag := none } else s
  let s := if x.ended then
      modCtx (modRule s r fun x => { x with ended := false, frag := none }) x.source fun c => { c with queue := c.queue ++ [{ stamp := p.stamp }] }
    else s
  let s := modCtx s x.source (modLastUnit fun a => { a with stamp := if wpLater a.stamp p.stamp then p.stamp else a.stamp, lost := a.lost || x.gap })
  let s := modRule s r fun x => { x with gap := false, lastTs := some p.ts, received := satAdd 32 x.received 1, expected := some ((p.seq + 1) % 65536) }
  let s := putPayload s r p.payload
  if p.marker then endUnit s r else s

/-- Held packets that follow on without a gap pass (R275). -/
def passRun : Nat → Nat → State → State
  | 0, _, s => s
  | n + 1, r, s =>
    let x := getRule s r
    match x.held.find? fun p => some p.seq == x.expected with
    | none => s
    | some p => passRun n r (passPacket (modRule s r fun x => { x with held := x.held.filter fun q => q.seq != p.seq }) r p)

/-- Numbers ahead of the expected one. -/
def seqAhead (x : FlowRule) (q : Nat) : Nat := (q + 65536 - x.expected.getD 0) % 65536

/-- The missing numbers before the first held packet are lost, and what follows on passes (R275). -/
def declareLost (s : State) (r : Nat) : State :=
  let x := getRule s r
  match x.held.foldl (fun b p => match b with | some q => if seqAhead x p.seq < seqAhead x q then some p.seq else some q | none => some p.seq) none with
  | none => s
  | some q =>
    let n := seqAhead x q
    let s := bump (flowEvent s r 1 n) 3 x.port 7 n
    let s := modRule s r fun x => { x with lost := satAdd 32 x.lost n, gap := true, expected := some q }
    passRun 64 r s

/-- A held marker packet ends the run that begins at the first held packet (R275). -/
def markerHeld (x : FlowRule) : Bool :=
  let d := x.held.map fun p => (seqAhead x p.seq, p.marker)
  let lo := d.foldl (fun m e => min m e.1) 65536
  d.any fun e => e.2 && (List.range (e.1 - lo)).all fun k => d.any fun f => f.1 == lo + k

/-- Declare losses while a condition of R275 asks for it. -/
def settleHold : Nat → Nat → State → State
  | 0, _, s => s
  | n + 1, r, s =>
    let x := getRule s r
    if decide (x.reorder < x.held.length) || markerHeld x then settleHold n r (declareLost s r) else s

/-- The flow restarts at a packet (R272, R275). -/
def restartFlow (s : State) (r cause ssrc : Nat) (p : RtpPacket) : State :=
  let s := loseUnit (flowEvent s r cause 1) r
  let s := endUnit s r
  let s := modRule s r fun x => { x with held := [], latched := some ssrc, expected := some p.seq, frag := none, gap := false }
  passPacket s r p

/-- A packet in sequence order (R275). -/
def orderPacket (s : State) (r port : Nat) (p : RtpPacket) : State :=
  let x := getRule s r
  match x.expected with
  | none => passPacket s r p
  | some _ =>
    let d := seqAhead x p.seq
    if d = 0 then settleHold 64 r (passRun 64 r (passPacket s r p))
    else if d ≤ 3000 then
      if x.held.any fun q => q.seq == p.seq then bump (flowEvent s r 2 1) 3 port 8 1
      else settleHold 64 r (modRule s r fun x => { x with held := x.held ++ [p] })
    else if d < 32768 then restartFlow s r 4 (x.latched.getD 0) p
    else bump (flowEvent s r 2 1) 3 port 8 1

/-- Gauge units on a rule take a packet (R381, R382). -/
def gaugePacket (s : State) (r port ssrc seq : Nat) (data : List Byte) : State :=
  forEach (List.range 8) (fun u s =>
    let g := tget {} s.gauge.units u
    if g.enable && g.kind == 3 && g.exportId == r then
      gaugeResult s u 3 port ssrc seq 0 false (bytesLE 4 ssrc ++ bytesLE 2 seq ++ [0, 0]) data
    else s) s

/-- A frame that an RTP rule takes (R272). -/
def rtpFrame (s : State) (r port : Nat) (stamp : Wp) (l : List Byte) : State :=
  let x := getRule s r
  let c := getCtx s x.source
  let b0 := byteAt l 0
  let skip := 12 + 4 * (b0 % 16)
  let l1 := l.drop skip
  let l2 := if bitAt b0 4 then l1.drop (4 + 4 * beAt l1 2 2) else l1
  let pad := if bitAt b0 5 then byteAt l2 (l2.length - 1) else 0
  let body := l2.take (l2.length - pad)
  let ssrc := beAt l 8 4
  let p : RtpPacket := { seq := beAt l 2 2, ts := beAt l 4 4, marker := bitAt (byteAt l 1) 7, stamp, payload := body }
  if !x.bound || c.detached || intakeStopped s c.slice then s
  else if b0 / 64 ≠ 2 ∨ l.length < skip then flowEvent s r 6 1
  else if byteAt l 1 % 128 ≠ x.pt then flowEvent s r 7 1
  else if x.ssrcMatch && ssrc != x.ssrc then s
  else
    let s := gaugePacket (modRule s r fun x => { x with port }) r port ssrc p.seq body
    match x.latched with
    | none => orderPacket (modRule s r fun x => { x with latched := some ssrc }) r port p
    | some q => if q ≠ ssrc then restartFlow s r 3 ssrc p else orderPacket s r port p

/-- REORDER_HOLD_TIMEOUT: HOLD_LINES have passed since the earliest held packet's stamp (R275). -/
def execReorderHoldTimeout (rule : Nat) (s : State) : Host.Outcome State Fault Refusal :=
  let x := getRule s rule
  let due := x.held.any fun p => decide (x.holdLines ≤ linesBetween (wallLines s) (lineOf p.stamp) (now s))
  .next (if due then settleHold 64 rule (declareLost s rule) else s)

/-- EV_FLOW_LOSS for what a rule gathered (R277). -/
def postFlow (r : Nat) (s : State) : State :=
  let x := getRule s r
  forEach x.events (fun e s => postEvent s (getEntry s x.source).owner (eventBits 0x0402 (wpBits e.wp) [fAt 2 0 9 r, fAt 4 0 8 e.cause,
    fAt 6 0 16 e.count, fAt 16 0 12 x.source, fAt 20 0 32 x.lost, fAt 24 0 32 x.received])) (modRule s r fun x => { x with events := [] })

/-- EV_FLOW_LOSS for what rules gathered in a wall frame (R277). -/
def postFlowEvents (s : State) : State := forEach (s.media.rules.map Prod.fst) postFlow s

/-! Host queues (R278, R279). -/

/-- Nanoseconds from one WP to another. -/
def nsBetween (s : State) (a b : Wp) : Int :=
  let t := s.time.timing
  tickDelta t.lines a b * ((t.rateDen * 1000000000 : Nat) : Int) / ((t.rateNum * t.lines * 65536 : Nat) : Int)

/-- A queue's interrupt: raised at once, or held back until 8 µs after the last (R278). -/
def queueInterrupt (s : State) (q : Nat) : State :=
  let x := getQueue s q
  let early := match x.irqAt with
    | some w => !passed s w 8000
    | none => false
  if early then modQueue s q fun x => { x with irqPending := true }
  else raiseEntry (modQueue s q fun x => { x with irqPending := false, irqAt := some (upTime s) }) (msixEntry x.owner x.vector)

/-- Raise the queue interrupts whose 8 µs have passed. -/
def queueInterrupts (s : State) : State :=
  forEach (List.range 16) (fun q s => if (getQueue s q).irqPending then queueInterrupt s q else s) s

/-- A descriptor ring is within reach: the Reservoir, or host memory of a bound slice. -/
def queueReach (s : State) (x : HostQueue) : Bool :=
  x.space || (hostReachable s && (x.owner == 0 || (match (getSlice s x.owner).pasid with | some p => p != 0 | none => false)))

/-- The next descriptor of a queue's ring, from the Reservoir or as host memory returned it; index, address and length. -/
def nextDesc (s : State) (q : Nat) (x : HostQueue) (tx : Bool) (host : List HostDesc) : State × Option HostDesc :=
  let head := if tx then x.txHead else x.rxHead
  let log := if tx then x.txLog else x.rxLog
  let a := (if tx then x.txBase else x.rxBase) + head.toNat % 2 ^ log * 32
  if !x.enable || head == (if tx then x.txTail else x.rxTail) || !queueReach s x then (s, none)
  else if x.space then
    match storeRead s x.owner engIngress a 32 with
    | (s, some l) => (s, some { queue := q, index := head.toNat, addr := leAt l 0 8, length := leAt l 8 2 })
    | (s, none) => (s, none)
  else (s, host.find? fun d => d.queue == q && d.index == head.toNat && d.ok)

/-- A device write for a queue's owner. -/
def queuePut (s : State) (x : HostQueue) (a : Nat) (l : List Byte) : State :=
  if x.space then (storeWrite s x.owner engIngress a l).1 else hostPut s x.owner a l

/-- Deliver a frame to a host queue (R278, R279): `word` stands in bytes 16 to 23 of the descriptor. -/
def deliverQueue (s : State) (q port : Nat) (rule : Option Nat) (word : Nat) (frame : List Byte) (host : List HostDesc) : State :=
  let x := getQueue s q
  match nextDesc s q x false host with
  | (s, none) => bump s 3 port 5 1
  | (s, some d) =>
    let cut := decide (d.length < frame.length)
    let a := x.rxBase + x.rxHead.toNat % 2 ^ x.rxLog * 32
    let s := queuePut s x d.addr (frame.take d.length)
    let s := queuePut s x a (bytesLE 32 (packFields [(0, 64, d.addr), (64, 16, d.length), (80, 16, min d.length frame.length), (96, 1, 1),
      (98, 1, cut.toNat), (99, 1, rule.isNone.toNat), (104, 1, port), (112, 9, rule.getD 0), (128, 64, word)]))
    queueInterrupt (modQueue s q fun x => { x with rxHead := x.rxHead + 1 }) q

/-- Steps 4 and 5 of R270 for a frame that is not a PTP message of an enabled engine. -/
def classifyFrame (s : State) (port : Nat) (stamp : Wp) (frame : List Byte) (i : FrameInfo) (host : List HostDesc) : State :=
  match classify s port i with
  | some r =>
    let x := getRule s r
    if x.action = 1 then rtpFrame s r port stamp i.payload
    else if x.action = 2 then
      if (getQueue s x.queue).enable then deliverQueue s x.queue port (some r) (wpBits stamp) frame host else s
    else s
  | none =>
    let p := getPort s port
    match p.dflt with
    | some q => if isMulticast i.dst && i.dst != 2 ^ 48 - 1 && !p.mcToHost then s else deliverQueue s q port none (wpBits stamp) frame host
    | none => s

/-- RX_TAIL_DOORBELL (R278). -/
def execRxTailDoorbell (queue tail : Nat) (s : State) : Host.Outcome State Fault Refusal :=
  .next (writeQueueTail s (getQueue s queue).owner queue false tail)

/-- TX_TAIL_DOORBELL (R278). -/
def execTxTailDoorbell (queue tail : Nat) (s : State) : Host.Outcome State Fault Refusal :=
  .next (writeQueueTail s (getQueue s queue).owner queue true tail)

/-! RTP transmit (R281). -/

/-- The NAL units of a byte string with start codes: 00 00 01 ends one unit and starts the next. -/
def splitNals : List Byte → List (List Byte)
  | [] => [[]]
  | b :: r =>
    match splitNals r with
    | (c :: d :: n) :: ns => if b = 0 ∧ c = 0 ∧ d = 1 then [] :: n :: ns else (b :: c :: d :: n) :: ns
    | n :: ns => (b :: n) :: ns
    | [] => [[b]]

/-- Trailing zero bytes before a start code are part of it. -/
def trimZeros (l : List Byte) : List Byte := (l.reverse.dropWhile fun b => b == 0).reverse

/-- The NAL units of a unit's bytes. -/
def unitNals (l : List Byte) : List (List Byte) := ((splitNals l).map trimZeros).filter fun n => !n.isEmpty

/-- Cut bytes into pieces of at most n. -/
def pieces (n : Nat) : Nat → List Byte → List (List Byte)
  | 0, _ => []
  | k + 1, l => if l.length ≤ n then [l] else l.take n :: pieces n k (l.drop n)

/-- RTP payloads of a NAL unit for a maximum size (R281). -/
def rtpPayloads (h264 : Bool) (room : Nat) (n : List Byte) : List (List Byte) :=
  if n.length ≤ room then [n]
  else
    let hl := if h264 then 1 else 2
    let b0 := byteAt n 0
    let ps := pieces (room - hl - 1) (n.length + 1) (n.drop hl)
    (List.range ps.length).map fun k =>
      let fl := (if k = 0 then 128 else 0) + (if k + 1 = ps.length then 64 else 0)
      let head : List Byte := if h264 then [BitVec.ofNat 8 (b0 / 32 * 32 + 28), BitVec.ofNat 8 (fl + b0 % 32)]
        else [BitVec.ofNat 8 (b0 / 128 * 128 + 98 + b0 % 2), BitVec.ofNat 8 (byteAt n 1), BitVec.ofNat 8 (fl + b0 / 2 % 64)]
      head ++ ps.getD k []

/-- The 90 kHz count at a WP (R281). -/
def rtpClock (s : State) (w : Wp) : Nat :=
  let t := s.time.timing
  ((w.frame * t.lines + w.line) * 65536 + w.tick) * 90000 * t.rateDen / max 1 (t.rateNum * t.lines * 65536)

/-- An Ethernet header of a port. -/
def etherHead (dmac smac : Nat) (tag : Option Nat) (etype : Nat) : List Byte :=
  bytesBE 6 dmac ++ bytesBE 6 smac ++ (match tag with | some t => [0x81, 0x00] ++ bytesBE 2 t | none => []) ++ bytesBE 2 etype

/-- A checksum field: the complement of the folded sum. -/
def checksum (l : List Byte) : Nat := 0xFFFF - sum16 l

/-- A UDP packet over IPv4 or IPv6 with its checksums; identification, don't-fragment and flow label are free values. -/
def udpFrame (s : State) (p : EthPort) (v6 : Bool) (dmac : Nat) (tag : Option Nat) (daddr dscp ttl sp dp : Nat) (zeroSum : Bool) (l : List Byte) : State × List Byte :=
  let (v, s) := freshValue s
  let n := l.length + 8
  let udp0 := bytesBE 2 sp ++ bytesBE 2 dp ++ bytesBE 2 n
  if v6 then
    let pseudo := bytesBE 16 p.ip6 ++ bytesBE 16 daddr ++ bytesBE 4 n ++ [0, 0, 0, 17]
    let c := checksum (pseudo ++ udp0 ++ [0, 0] ++ l)
    (s, etherHead dmac p.mac tag 0x86DD ++ bytesBE 4 (6 * 2 ^ 28 + dscp * 2 ^ 22 + v.toNat % 2 ^ 20) ++ bytesBE 2 n ++ [17, BitVec.ofNat 8 ttl] ++
      bytesBE 16 p.ip6 ++ bytesBE 16 daddr ++ udp0 ++ bytesBE 2 (if c = 0 then 0xFFFF else c) ++ l)
  else
    let a := [0x45] ++ bytesBE 1 (dscp * 4) ++ bytesBE 2 (n + 20) ++ bytesBE 2 v.toNat ++ bytesBE 2 (v.toNat / 65536 % 2 * 0x4000) ++ [BitVec.ofNat 8 ttl, 17]
    let b := bytesBE 4 p.ip4 ++ bytesBE 4 daddr
    let c := checksum (bytesBE 4 p.ip4 ++ bytesBE 4 daddr ++ [0, 17] ++ bytesBE 2 n ++ udp0 ++ [0, 0] ++ l)
    (s, etherHead dmac p.mac tag 0x0800 ++ a ++ bytesBE 2 (checksum (a ++ [0, 0] ++ b)) ++ b ++ udp0 ++
      bytesBE 2 (if zeroSum then 0 else if c = 0 then 0xFFFF else c) ++ l)

/-- A frame of at least 60 bytes. -/
def padFrame (l : List Byte) : List Byte := l ++ List.replicate (60 - l.length) 0

/-- Queue one RTP packet of a stream. -/
def queueRtp (s : State) (n : Nat) (marker : Bool) (ts : Nat) (payload : List Byte) : State :=
  let x := getStream s n
  let p := getPort s x.port
  let rtp := [0x80, BitVec.ofNat 8 (x.pt + 128 * marker.toNat)] ++ bytesBE 2 x.seq ++ bytesBE 4 ts ++ bytesBE 4 x.ssrc ++ payload
  let (s, f) := udpFrame s p x.ipv6 x.dmac (if x.tagged then some x.vid else none) x.daddr x.dscp x.ttl x.srcUdp x.dstUdp false rtp
  modStream s n fun x => { x with seq := (x.seq + 1) % 65536, packets := x.packets ++ [padFrame f] }

/-- RTP_TRANSMIT_UNIT: the stream consumes the next unit of its session's ring; one whose read is denied stays and nothing is sent (R262, R281; log entry 116). -/
def execRtpTransmitUnit (stream : Nat) (s : State) : Host.Outcome State Fault Refusal :=
  .next (
    let x := getStream s stream
    let e := getSession s x.session
    match if x.enable && e.used then ringConsumed s e else (s, none) with
    | (s, none) => s
    | (s, some c) =>
    if c == e.produced then s
    else
      let span := e.ringSize - 4096
      let pos := c % span
      let base := (latchedSurf s e.ring).base + 4096 + pos
      match storeRead s e.owner engEncode base 32 with
      | (s, none) => s
      | (s, some h) =>
      let len := leAt h 0 4
      let next := if bitAt (byteAt h 20) 7 then c + (span - pos) else c + 32 + (len + 31) / 32 * 32
      let done (s : State) : State := (ringPut s e 64 (bytesLE 8 (next % 2 ^ 64))).1
      if bitAt (byteAt h 20) 7 then done s
      else match storeRead s e.owner engEncode (base + 32) len with
      | (s, none) => s
      | (s, some unit) =>
        let p := getPort s x.port
        let room := p.mtu - (if x.ipv6 then 40 else 20) - 20
        let ts := (x.tsOffset + rtpClock s (wpOfBits (leAt h 8 8))) % 2 ^ 32
        let l := (unitNals unit).flatMap (rtpPayloads e.h264 room)
        let lastUnit := bitAt (byteAt h 20) 1
        done (forEach (List.range l.length) (fun k s => queueRtp s stream (lastUnit && k + 1 == l.length) ts (l.getD k [])) s))

/-! Transmission (R280). -/

/-- Send a frame on a port. -/
def sendFrame (s : State) (port : Nat) (f : List Byte) : State := bump (emit s (.eth port (f ++ fcs f))) 3 port 1 1

/-- A transmit frame's length is refused (R279). -/
def txBad (p : EthPort) (f : List Byte) : Bool :=
  decide (f.length < 60) || decide (p.mtu + (if beAt f 12 2 = 0x8100 then 22 else 18) < f.length)

/-- Complete a transmit descriptor: `word` stands in bytes 16 to 23. -/
def completeTx (s : State) (q port : Nat) (d : HostDesc) (err : Bool) (word : Nat) : State :=
  let x := getQueue s q
  let a := x.txBase + x.txHead.toNat % 2 ^ x.txLog * 32
  let s := queuePut s x a (bytesLE 32 (packFields [(0, 64, d.addr), (64, 16, d.length), (96, 1, 1), (97, 1, err.toNat), (104, 1, port), (128, 64, word)]))
  queueInterrupt (modQueue s q fun x => { x with txHead := x.txHead + 1 }) q

/-- Frame bytes of a transmit descriptor. -/
def txBytes (s : State) (x : HostQueue) (d : HostDesc) : State × Option (List Byte) :=
  if x.space then storeRead s x.owner engIngress d.addr d.length else (s, if d.data.length = d.length then some d.data else none)

/-- Indexes below n that meet a test, beginning after the last served. -/
def roundRobin (n last : Nat) (f : Nat → Bool) : Option Nat := (fromNext last (List.range n)).find? f

/-! FLOW_SET (R282). -/

/-- A binding ends: its coded buffer is released and what it held is dropped (R282). -/
def endBinding (s : State) (r : Nat) : State :=
  let x := getRule s r
  if !x.bound then s
  else
    let s := releaseAll (postFlow r s) [x.handle]
    let s := modCtx s x.source fun c => { c with queue := (started c).map fun a => { a with complete := true, lost := a.lost || !a.complete } }
    modRule s r fun x => { x with bound := false, source := 0, handle := 0, size := 0, latched := none, expected := none, held := [], lastTs := none
                                  ended := true, gap := false, frag := none, wpos := 0, lost := 0, received := 0 }

/-- Step 8 checks that the FLOW_SET rows share: range, then the manager (already checked), then readiness. -/
def flowCheck (h : Held) (resv : List (Nat × Nat × Nat)) (bad : Bool) (rest : List (Bool × Fail)) : Option Fail :=
  firstFail ((!reservedZero h.pkt ((16, 0, 3) :: resv) || bad, failWith .badParam) :: rest)

/-- Detail of FLOW_SET. -/
def flowDetail (op index : Nat) : List Field := [fAt 16 0 8 op, fAt 18 0 16 index]

/-- OP of a FLOW_SET packet. -/
def flowOp (p : Packet) : Nat := pf p 16 0 3

/-- Step 8 checks of FLOW_SET PORT; an OP above 4 is refused here. -/
def checkFlowPort (s : State) (h : Held) (_ : Cmd) : Option Fail :=
  let p := h.pkt
  let n := pf p 17 0 1
  flowCheck h [(17, 0, 6), (18, 0, 16), (20, 0, 48), (28, 0, 160)]
    (decide (4 < flowOp p) || pf p 17 2 2 == 3 || (pf p 17 2 2 == 2 && pb p 17 1) || !inRange (pf p 18 0 16) 1500 9000)
    [(pf p 28 0 32 == 0 && pf p 32 0 128 == 0 && s.media.streams.any fun e => e.2.enable && e.2.port == n, failWith .notReady)]

/-- n bytes of a packet at a place, first octet most significant. -/
def pktBE (p : Packet) (byte n : Nat) : Nat := natBE (bytesLE n (pf p byte 0 (8 * n)))

/-- FLOW_SET PORT's effect; TX_DISABLE is released while ENABLE is 1 (R465). -/
def actFlowPort (s : State) (h : Held) (_ : Cmd) : State :=
  let p := h.pkt
  let n := pf p 17 0 1
  let s := if (getPort s n).enable = pb p 17 4 then s else emit s (.pin (67 + 4 * n) (pb p 17 4))
  let s := if !pb p 17 4 || (getPort s n).rate10 != pb p 17 1 then endScans s (76 + n) 1 else s
  let s := modPort s n fun x =>
    { x with rate10 := pb p 17 1, fec := pf p 17 2 2, enable := pb p 17 4, mcToHost := pb p 17 5, mtu := pf p 18 0 16, mac := pktBE p 20 6
             ip4 := pktBE p 28 4, ip6 := pktBE p 32 16, up := x.up && pb p 17 4 }
  finishNow s h .ok (flowDetail 0 0)

/-- FLOW_SET with OP PORT (0x403). -/
def execFlowSetPort (c : Cmd) (s : State) : Host.Outcome State Fault Refusal :=
  .next (runPacket s c 0x403 (fun h => flowOp h.pkt == 0 || decide (4 < flowOp h.pkt)) checkFlowPort actFlowPort)

/-- Step 8 checks of FLOW_SET RULE. -/
def checkFlowRule (s : State) (h : Held) (_ : Cmd) : Option Fail :=
  let p := h.pkt
  let v6 := pb p 17 2
  let w := if v6 then 128 else 32
  let act := pf p 17 5 2
  flowCheck h [(17, 0, 8), (18, 0, 9), (20, 0, 12), (22, 0, 16), (24, 0, 16), (26, 0, 8), (27, 0, 8), (28, 0, 4), (32, 0, 128), (48, 0, 128)]
    (pf p 17 3 2 == 3 || act == 3 || pf p 22 0 16 == 0 || decide (w < pf p 26 0 8) || decide (w < pf p 27 0 8) ||
      (act != 2 && pf p 28 0 4 != 0) || (!v6 && (pf p 36 0 96 != 0 || pf p 52 0 96 != 0)))
    [(pb p 17 7 && act == 1 && !(getRule s (pf p 18 0 9)).bound, failWith .notReady)]

/-- FLOW_SET RULE's effect: a disabled RTP rule, or one that becomes another, loses its binding. -/
def actFlowRule (s : State) (h : Held) (_ : Cmd) : State :=
  let p := h.pkt
  let i := pf p 18 0 9
  let v6 := pb p 17 2
  let addr (b : Nat) : Nat := if v6 then pktBE p b 16 else pktBE p b 4
  let x := getRule s i
  let s := if (x.enable && !pb p 17 7) || pf p 17 5 2 != 1 then endBinding s i else s
  let s := modRule s i fun x =>
    { x with ports := pf p 17 0 2, ipv6 := v6, vlan := pf p 17 3 2, action := pf p 17 5 2, enable := pb p 17 7, vid := pf p 20 0 12
             dstUdp := pf p 22 0 16, srcUdp := pf p 24 0 16, srcPrefix := pf p 26 0 8, dstPrefix := pf p 27 0 8, queue := pf p 28 0 4
             srcAddr := addr 32, dstAddr := addr 48 }
  finishNow s h .ok (flowDetail 1 i)

/-- FLOW_SET with OP RULE (0x403). -/
def execFlowSetRule (c : Cmd) (s : State) : Host.Outcome State Fault Refusal :=
  .next (runPacket s c 0x403 (fun h => flowOp h.pkt == 1) checkFlowRule actFlowRule)

/-- Step 8 checks of FLOW_SET BIND. -/
def checkFlowBind (s : State) (h : Held) (_ : Cmd) : Option Fail :=
  let p := h.pkt
  let i := pf p 18 0 9; let src := pf p 20 0 12
  let e := getEntry s src
  flowCheck h [(17, 0, 1), (18, 0, 9), (20, 0, 12), (22, 0, 7), (23, 0, 6), (24, 0, 32), (28, 0, 16), (32, 0, 32)]
    ((getRule s i).enable || (!pb p 17 0 && pf p 24 0 32 != 0) || pf p 28 0 16 == 0 || !inRange (pf p 32 0 32) 256 65536)
    [(!e.valid || e.inp.withdrawn || e.kind != .decoded || s.media.rules.any fun r => r.1 != i && r.2.bound && r.2.source == src, failWith .notReady)]

/-- FLOW_SET BIND's effect: the coded buffer is allocated in the source owner's name (R276). -/
def actFlowBind (s : State) (h : Held) (_ : Cmd) : State :=
  let p := h.pkt
  let i := pf p 18 0 9; let src := pf p 20 0 12
  let size := pf p 32 0 32 * 1024
  match allocBytes (endBinding s i) (getEntry s src).owner size .decode with
  | (_, none) => finishNow s h .noResource (flowDetail 2 i)
  | (s, some hd) =>
    let s := modRule (addUser s hd) i fun x =>
      { x with bound := true, source := src, ssrcMatch := pb p 17 0, pt := pf p 22 0 7, reorder := pf p 23 0 6, ssrc := pf p 24 0 32
               holdLines := pf p 28 0 16, handle := hd, size, events := [] }
    finishNow s h .ok (flowDetail 2 i ++ [fAt 20 0 32 hd])

/-- FLOW_SET with OP BIND (0x403). -/
def execFlowSetBind (c : Cmd) (s : State) : Host.Outcome State Fault Refusal :=
  .next (runPacket s c 0x403 (fun h => flowOp h.pkt == 2) checkFlowBind actFlowBind)

/-- Step 8 checks of FLOW_SET QUEUE. -/
def checkFlowQueue (s : State) (h : Held) (_ : Cmd) : Option Fail :=
  let p := h.pkt
  let o := pf p 18 0 7
  flowCheck h [(17, 0, 8), (18, 0, 7), (19, 0, 4), (20, 0, 5), (21, 0, 5), (24, 0, 64), (32, 0, 64)]
    (decide (64 < o) || !inRange (pf p 20 0 5) 4 12 || !inRange (pf p 21 0 5) 4 12 || pf p 24 0 64 % 4096 != 0 || pf p 32 0 64 % 4096 != 0)
    [((getSlice s o).state != .active, failWith .notReady)]

/-- FLOW_SET QUEUE's effect. -/
def actFlowQueue (s : State) (h : Held) (_ : Cmd) : State :=
  let p := h.pkt
  let q := pf p 17 0 4; let port := pf p 17 4 1
  let s := { s with media := { s.media with queues := tset {} s.media.queues q {
      owner := pf p 18 0 7, port, enable := pb p 17 5, space := pb p 17 7, vector := pf p 19 0 4, rxLog := pf p 20 0 5, txLog := pf p 21 0 5
      rxBase := pf p 24 0 64, txBase := pf p 32 0 64 } } }
  let drop (s : State) (i : Nat) : State := modPort s i fun x => if x.dflt = some q then { x with dflt := none } else x
  let s := drop (drop s 0) 1
  let s := if pb p 17 5 && pb p 17 6 then modPort s port fun x => { x with dflt := some q } else s
  finishNow s h .ok (flowDetail 3 q)

/-- FLOW_SET with OP QUEUE (0x403). -/
def execFlowSetQueue (c : Cmd) (s : State) : Host.Outcome State Fault Refusal :=
  .next (runPacket s c 0x403 (fun h => flowOp h.pkt == 3) checkFlowQueue actFlowQueue)

/-- Step 8 checks of FLOW_SET TRANSMIT. -/
def checkFlowTransmit (s : State) (h : Held) (_ : Cmd) : Option Fail :=
  let p := h.pkt
  let n := pf p 17 0 4
  let e := getSession s (pf p 18 0 4)
  flowCheck h [(17, 0, 8), (18, 0, 4), (19, 0, 7), (20, 0, 15), (22, 0, 16), (24, 0, 16), (26, 0, 6), (27, 0, 8), (28, 0, 32), (32, 0, 48), (40, 0, 32), (48, 0, 128)]
    (pf p 22 0 16 == 0 || pf p 24 0 16 == 0 || pf p 27 0 8 == 0 || (!pb p 17 6 && pf p 52 0 96 != 0))
    [(pb p 17 4 && (!e.used || (e.consumer.isSome && e.consumer != some n)), failWith .notReady)]

/-- The ring of a stream goes back to the host (R281). -/
def endStream (s : State) (n : Nat) : State :=
  let x := getStream s n
  if !x.enable then s
  else
    let e := getSession s x.session
    let s := if e.used ∧ e.consumer = some n then modSession (dropUser s e.ring) x.session fun e => { e with consumer := none } else s
    modStream s n fun x => { x with enable := false, packets := [] }

/-- FLOW_SET TRANSMIT's effect: sequence numbers start at a random value (R281). -/
def actFlowTransmit (s : State) (h : Held) (_ : Cmd) : State :=
  let p := h.pkt
  let n := pf p 17 0 4; let k := pf p 18 0 4
  let old := getStream s n
  let s := endStream s n
  let seq := if old.enable then old.seq else (Config.random s.free).toNat % 65536
  let s := { s with free := s.free + 1 }
  let x : RtpStream := {
    enable := pb p 17 4, port := pf p 17 5 1, ipv6 := pb p 17 6, tagged := pb p 17 7, session := k, pt := pf p 19 0 7, vid := pf p 20 0 15
    srcUdp := pf p 22 0 16, dstUdp := pf p 24 0 16, dscp := pf p 26 0 6, ttl := pf p 27 0 8, ssrc := pf p 28 0 32, dmac := pktBE p 32 6
    tsOffset := pf p 40 0 32, daddr := if pb p 17 6 then pktBE p 48 16 else pktBE p 48 4, seq }
  let s := { s with media := { s.media with streams := tset {} s.media.streams n x } }
  let s := if x.enable then modSession (addUser s (getSession s k).ring) k fun e => { e with consumer := some n } else s
  finishNow s h .ok (flowDetail 4 n)

/-- FLOW_SET with OP TRANSMIT (0x403). -/
def execFlowSetTransmit (c : Cmd) (s : State) : Host.Outcome State Fault Refusal :=
  .next (runPacket s c 0x403 (fun h => flowOp h.pkt == 4) checkFlowTransmit actFlowTransmit)

end Sys2Proof.Machine
end

