-- ==== Sys2Proof/Machine/NetTime.lean ====
section
/-! DEFINITION. The PTP time counters (R309, R310) and the anchored Wall Position (R53, R304). -/
namespace Sys2Proof.Machine
open Sys2Proof

/-- A PTP counter. -/
def getClock (s : State) (p : Nat) : PtpClock := tget {} s.ptp.clocks p
/-- Change a PTP counter. -/
def modClock (s : State) (p : Nat) (f : PtpClock → PtpClock) : State := { s with ptp := { s.ptp with clocks := tmod {} s.ptp.clocks p f } }
/-- A PTP port. -/
def getPtp (s : State) (p : Nat) : PtpPort := tget {} s.ptp.ports p
/-- Change a PTP port. -/
def modPtp (s : State) (p : Nat) (f : PtpPort → PtpPort) : State := { s with ptp := { s.ptp with ports := tmod {} s.ptp.ports p f } }

/-- A counter at a WP, in 2^-32 ns (R309). -/
def clockUnits (s : State) (p : Nat) (w : Wp) : Int :=
  let c := getClock s p
  (c.value : Int) + elapsedUnits s c.base w * (1000000000000 + c.rate) / 1000000000000

/-- Seconds and nanoseconds of a counter's value; 48 bits of seconds. -/
def ptpOf (v : Int) : PtpTime :=
  let ns := v / nsUnit
  ⟨((ns / 1000000000) % (2 ^ 48 : Nat)).toNat, (ns % 1000000000).toNat⟩

/-- A counter carries its value over to the WP now. -/
def rebaseClock (s : State) (p : Nat) : State :=
  let v := (clockUnits s p (now s)).toNat
  modClock s p fun c => { c with value := v, base := now s }

/-- Both counters, and the uptime, carry their values over. -/
def rebaseClocks (s : State) : State :=
  let s := { s with boot := { s.boot with uptime := upTime s, upWp := now s } }
  rebaseClock (rebaseClock s 0) 1

/-- WP has moved: both counters and the uptime go on from it (R52). -/
def restartClocks (s : State) : State :=
  let f (s : State) (p : Nat) : State := modClock s p fun c => { c with base := now s }
  let s := { s with boot := { s.boot with upWp := now s } }
  f (f s 0) 1

/-- A counter is given a value: a step (R317, R319). -/
def stepClock (s : State) (p : Nat) (v : Int) : State :=
  bump (modClock s p fun c => { c with value := v.toNat, base := now s, notSet := false, epoch := (c.epoch + 1) % 256 }) 4 p 3 1

/-- A counter is given a rate (R317, R320). -/
def setRate (s : State) (p : Nat) (r : Int) : State := modClock (rebaseClock s p) p fun c => { c with rate := r }

/-- PTP time is locked (R310). -/
def ptpLocked (s : State) : Bool := (getPtp s s.ptp.primary).servo == .locked

/-- The anchored WP at a WP, under a timing (R53); none without an anchor or without locked time. -/
def anchoredAt (s : State) (t : WallTiming) (w : Wp) : Option Wp :=
  match t.anchor with
  | some a => if ptpLocked s then some (anchoredWp t a (clockUnits s s.ptp.anchorPort w)) else none
  | none => none

/-- MIS_ANCHOR (R304). -/
def misAnchor (s : State) : Option Int := (anchoredAt s s.time.timing (now s)).map fun a => tickDelta (wallLines s) (now s) a

/-- A misalignment as 64 bits; one that does not apply reads 0x8000_0000_0000_0000 (R304). -/
def misBits : Option Int → Nat
  | some m => ofSigned 64 m
  | none => 0x8000000000000000

end Sys2Proof.Machine
end

