-- ==== Sys2Proof/Machine/Headwater.lean ====
section
/-! DEFINITION. Headwater (R291 to R308), WALL_TIMING_SET (R49) and REALIGN (R305). -/
namespace Sys2Proof.Machine
open Sys2Proof

/-- A priority-table entry. -/
def getRef (s : State) (n : Nat) : RefEntry := tget {} s.head.entries n
/-- Change a priority-table entry. -/
def modRef (s : State) (n : Nat) (f : RefEntry → RefEntry) : State := { s with head := { s.head with entries := tmod {} s.head.entries n f } }
/-- What is measured on a Toden timing lane. -/
def getLane (s : State) (p : Nat) : RefEntry := tget {} s.head.lanes p
/-- Change what is measured on a Toden timing lane. -/
def modLane (s : State) (p : Nat) (f : RefEntry → RefEntry) : State := { s with head := { s.head with lanes := tmod {} s.head.lanes p f } }

/-- The device belongs to a fabric: a trained port's partner is of its fabric (R339, R340). -/
def onFabric (s : State) : Bool := (List.range 4).any fun p => todUp (getTod s p) && (getTod s p).same

/-- A member that is not the root (R341). -/
def isMember (s : State) : Bool := onFabric s && s.fabric.rootPort.isSome

/-- State codes of R294. -/
def refCode : RefState → Nat
  | .disabled => 0 | .disqualified => 1 | .qualifying => 2 | .qualified => 3 | .alarm => 4

/-- State codes of R296. -/
def dpllCode : DpllState → Nat
  | .freeRun => 0 | .switching => 1 | .locked => 2 | .holdover => 3

/-! Inputs (R291, R299). -/

/-- An input with frame phase (R291). -/
def hasPhase (e : RefEntry) : Bool := (decide (e.input < 2) && e.refType == 2) || inRange e.input 4 11

/-- BANDWIDTH codes in 0.01 Hz; 0 selects the default of the type (R291, R306). -/
def bandwidthOf (e : RefEntry) : Nat :=
  if e.bandwidth = 0 then
    (if e.input < 2 then [1, 100, 50].getD e.refType 0 else if e.input < 4 then 5 else if e.input < 8 then 2000 else 200)
  else [0, 1, 5, 10, 50, 100, 200, 500, 2000].getD e.bandwidth 0

/-- Expected edge rate in Hz as a fraction; none for PTP and LOCAL (R291). -/
def edgeRate (t : WallTiming) (e : RefEntry) : Option (Nat × Nat) :=
  if e.input < 2 then
    (if e.refType = 0 then some (1, 1) else if e.refType = 1 then some (10000000, 1) else some (t.rateNum, t.rateDen * e.frameDiv))
  else if e.input < 4 ∨ e.input = 15 then none
  else if e.input < 8 then some (t.rateNum * t.lines, t.rateDen)
  else some (t.rateNum, t.rateDen * e.frameDiv)

/-- A bandwidth of 0.01 Hz units is above 1/10 of the edge rate (R299). -/
def aboveLimit (t : WallTiming) (e : RefEntry) (b : Nat) : Bool :=
  match edgeRate t e with
  | some (n, d) => decide (n * 100 < b * 10 * d)
  | none => false

/-- The bandwidth in use, in 0.01 Hz as a fraction (R299). -/
def bandwidthInUse (t : WallTiming) (e : RefEntry) : Nat × Nat :=
  match edgeRate t e with
  | some (n, d) => if aboveLimit t e (bandwidthOf e) then (10 * n, d) else (bandwidthOf e, 1)
  | none => (bandwidthOf e, 1)

/-- The measurement interval of an input in ns (R291). -/
def intervalNs (e : RefEntry) : Nat :=
  if e.input < 2 then (if e.refType = 0 then 16000000000 else 1000000000)
  else if e.input < 4 then 16000000000 else if e.input < 8 then 100000000 else 1000000000

/-- The loss condition of an input that the device itself watches still holds (R291, R294). -/
def lossHolds (s : State) (e : RefEntry) : Bool :=
  if e.input = 2 ∨ e.input = 3 then (getPtp s (e.input - 2)).servo != .locked
  else if inRange e.input 4 7 then !todUp (getTod s (e.input - 4))
  else if inRange e.input 8 11 then
    let t := (tget {} s.media.dpins (e.input - 8)).state
    t != .held && t != .receiving
  else false

/-! Misalignment (R304). -/

/-- A difference reduced to -n/2 exclusive to n/2 inclusive. -/
def reduceMis (n : Nat) (d : Int) : Int :=
  let m := (d % (n : Int))
  if (n : Int) < 2 * m then m - (n : Int) else m

/-- The phase of an entry: its reference's WP minus the running WP (R304). -/
def phaseOf (s : State) (e : RefEntry) : Int :=
  if inRange e.input 4 7 then (getLane s (e.input - 4)).phase else reduceMis (frameTicks s * max 1 e.frameDiv) e.phase

/-- MIS_SELECTED. -/
def misSelected (s : State) : Option Int :=
  match s.head.selected with
  | some (.toden p) => some (getLane s p).phase
  | some (.entry n) => if hasPhase (getRef s n) then some (phaseOf s (getRef s n)) else none
  | none => none

/-- The entry number that reports a selection: 0xFF for none, the table's entry for a timing lane that it names (R341). -/
def selIndex (s : State) : Option RefSel → Nat
  | none => 0xFF
  | some (.entry n) => n
  | some (.toden p) => (firstIdx (fun n => (getRef s n).enable && (getRef s n).input == 4 + p) 0 8).getD 0xFF

/-- A misalignment is above MIS_TOL_NS, or below half of it. -/
def misNs (s : State) (m : Int) : Nat × Nat :=
  let t := s.time.timing
  (m.natAbs * t.rateDen * 1000000000, t.rateNum * t.lines * 65536)

/-- EV_MISALIGNED (R304). -/
def postMis (s : State) (basis kind : Nat) (m : Int) : State :=
  post s 0 0x0703 [fAt 2 0 8 basis, fAt 3 0 8 kind, fAt 4 0 3 (if basis = 1 then selIndex s s.head.selected else 0), fAt 16 0 64 (ofSigned 64 m)]

/-- Whether a misalignment now stands above, with the event of the change. -/
def checkOne (s : State) (basis : Nat) (above : Bool) (m : Option Int) : State × Bool :=
  match m with
  | none => (s, false)
  | some m =>
    let (n, d) := misNs s m
    if !above && decide (s.head.misTol * d < n) then (postMis s basis 1 m, true)
    else if above && decide (2 * n < s.head.misTol * d) then (postMis s basis 2 m, false)
    else (s, above)

/-- Both misalignments are compared with MIS_TOL_NS. -/
def checkMis (s : State) : State :=
  let (s, a) := checkOne s 1 s.head.aboveSel (misSelected s)
  let (s, b) := checkOne s 2 s.head.aboveAnchor (misAnchor s)
  { s with head := { s.head with aboveSel := a, aboveAnchor := b } }

/-! Selection (R295 to R298). -/

/-- HOLDOVER_READY (R300). -/
def holdoverReady (s : State) : Bool := decide (300 ≤ s.head.historyS)

/-- The learned frequency: the mean over the newest 300 s spent LOCKED (R300). -/
def learned (s : State) : Int :=
  let l := s.head.hist.take 300
  if l.isEmpty then 0 else l.foldl (· + ·) 0 / (l.length : Int)

/-- EV_REF_SWITCH (R308). -/
def postSwitch (s : State) (frm cause : Nat) : State :=
  post s 0 0x0701 [fAt 2 0 8 frm, fAt 3 0 8 (selIndex s s.head.selected), fAt 4 0 4 (dpllCode s.head.dpll), fAt 5 0 8 cause,
    fAt 6 0 16 s.head.historyS, fAt 16 0 64 (misBits (misSelected s))]

/-- The exit from LOCKED: its last 2 s are left out of the history (R300). -/
def leaveLocked (s : State) : State :=
  if s.head.dpll = .locked then
    { s with head := { s.head with hist := (s.head.hist.drop (min 2 s.head.lockedFor)).take 300, lockedFor := 0 } }
  else s

/-- Enter SWITCHING towards a reference (R296). -/
def startSwitch (s : State) (t : RefSel) (cause : Nat) : State :=
  let frm := selIndex s s.head.selected
  let s := leaveLocked s
  let s := { s with head := { s.head with
    dpll := .switching, selected := some t, switchAt := upTime s, switches := satAdd 32 s.head.switches 1, freq := if holdoverReady s then learned s else s.head.freq } }
  postSwitch s frm cause

/-- No reference is left: HOLDOVER or FREE_RUN (R295). -/
def enterHold (s : State) : State :=
  let frm := selIndex s s.head.selected
  if s.head.selected.isNone then s
  else
    let s := leaveLocked s
    let s := { s with head := { s.head with selected := none, switches := satAdd 32 s.head.switches 1 } }
    if holdoverReady s then postSwitch { s with head := { s.head with dpll := .holdover, holdoverS := 0, freq := learned s } } frm 5
    else postSwitch { s with head := { s.head with dpll := .freeRun } } frm 6

/-- A candidate (R294). -/
def candidate (e : RefEntry) : Bool := e.enable && (e.state == .qualified || e.state == .alarm)

/-- A better priority: the lower value, then the lower index (R295). -/
def betterRef (s : State) (a b : Nat) : Bool :=
  decide ((getRef s a).priority < (getRef s b).priority) || ((getRef s a).priority == (getRef s b).priority && decide (a < b))

/-- The best candidate. -/
def bestRef (s : State) : Option Nat :=
  ((List.range 8).filter fun n => candidate (getRef s n)).foldl (fun b n => match b with
    | none => some n
    | some m => if betterRef s n m then some n else some m) none

/-- Take the best candidate, or hold (R295). -/
def takeBest (s : State) (cause : Nat) : State :=
  match bestRef s with
  | some n => if (getRef s n).input = 15 then enterHold s else startSwitch s (.entry n) cause
  | none => enterHold s

/-- The selection is reconsidered after a loss or a change (R295, R341). -/
def reselect (s : State) (cause : Nat) : State :=
  match isMember s, s.fabric.rootPort with
  | true, some p => if s.head.selected = some (.toden p) then s else startSwitch s (.toden p) cause
  | _, _ =>
    match s.head.selected with
    | some (.entry n) => if candidate (getRef s n) then s else takeBest s cause
    | _ => takeBest s cause

/-- An entry has become QUALIFIED: a better revertive one takes over (R295, R297). -/
def becameQualified (s : State) (n : Nat) : State :=
  if isMember s then s
  else match s.head.selected with
    | some (.entry c) =>
      if c != n && betterRef s n c && (getRef s n).revertive then
        (if (getRef s n).input = 15 then enterHold s else startSwitch s (.entry n) (if s.head.dpll = .switching then 4 else 2))
      else s
    | _ => reselect s 2

/-! Measuring and qualifying (R293, R294). -/

/-- An offset as 32 bits; one that does not exist reads 0x8000_0000. -/
def peersBits : Option Int → Nat
  | some v => ofSigned 32 v
  | none => 0x80000000

/-- OFFSET_PEERS exists only while at least two other candidates do (R293). -/
def peersNow (s : State) (n : Nat) : Option Int :=
  if ((List.range 8).filter fun m => m != n && candidate (getRef s m) && (getRef s m).input != 15).length < 2 then none else (getRef s n).offsetPeers

/-- A change of an entry's state: EV_REF_ALARM (R294, R308). -/
def setRef (s : State) (n : Nat) (t : RefState) (cause : Nat) : State :=
  let e := getRef s n
  if e.state = t then s
  else
    let s := modRef s n fun e => { e with state := t, since := now s, timer := none }
    post s 0 0x0702 [fAt 2 0 3 n, fAt 3 0 4 (refCode t), fAt 3 4 4 (refCode e.state), fAt 4 0 8 cause, fAt 16 0 32 (ofSigned 32 e.offsetLocal),
      fAt 20 0 32 (peersBits (peersNow s n))]

/-- An entry meets its loss condition (R294). -/
def loseEntry (s : State) (n : Nat) : State :=
  let e := getRef s n
  if !e.enable || e.input == 15 then s
  else
    let s := modRef s n fun e => { e with loss := true }
    if e.state = .disqualified then s else reselect (setRef s n .disqualified 1) 1

/-- An input meets its loss condition: the entries that name it are disqualified (R291). -/
def loseInput (s : State) (input : Nat) : State :=
  forEach ((List.range 8).filter fun n => (getRef s n).enable && (getRef s n).input == input) (fun n s => loseEntry s n) s

/-- REF_LOSS_CONDITION (R294): edges or symbol lock fail; of PTP and DPIN inputs the device itself knows. -/
def execRefLossCondition (entry : Nat) (s : State) : Host.Outcome State Fault Refusal :=
  let i := (getRef s entry).input
  .next (if entry < 8 && (lossHolds s (getRef s entry) || decide (i < 2) || inRange i 4 7) then loseEntry s entry else s)

/-- A number's place in a sorted list. -/
def insertInt (x : Int) : List Int → List Int
  | [] => [x]
  | y :: r => if x ≤ y then x :: y :: r else y :: insertInt x r

/-- The median; of an even count, the mean of the two in the middle. -/
def median (l : List Int) : Int :=
  let q := l.foldr insertInt []
  let n := q.length
  if n % 2 = 1 then q.getD (n / 2) 0 else (q.getD (n / 2 - 1) 0 + q.getD (n / 2) 0) / 2

/-- OFFSET_PEERS (R293): against the median of the other candidates, when at least two exist. -/
def peerOffset (s : State) (n : Nat) (v : Int) : Option Int :=
  let l := (List.range 8).filter fun m => m != n && candidate (getRef s m) && (getRef s m).input != 15
  if l.length < 2 then none else some (v - median (l.map fun m => (getRef s m).offsetLocal))

/-- The state of an entry after a measurement (R294). -/
def judgeRef (s : State) (n : Nat) : State :=
  let e := getRef s n
  let o := (e.offsetPeers.getD e.offsetLocal).natAbs
  let w := e.window * 10
  let soft := decide (3 * w ≤ 4 * o)
  let outside := decide (w ≤ o)
  let startTimer (s : State) : State := modRef s n fun e => { e with timer := some (e.timer.getD (upTime s)) }
  let watch (s : State) : State :=
    if !outside then modRef s n fun e => { e with timer := none }
    else if e.disqualifyMs = 0 then reselect (setRef s n .disqualified 2) 1 else startTimer s
  match e.state with
  | .disabled => s
  | .disqualified => if soft then s else startTimer (setRef s n .qualifying 2)
  | .qualifying => if soft then reselect (setRef s n .disqualified 2) 1 else startTimer s
  | .qualified => if outside && e.disqualifyMs == 0 then watch s else if soft then watch (setRef s n .alarm 2) else s
  | .alarm =>
    if 20 * o < 13 * w then becameQualified (setRef s n .qualified 2) n else watch s

/-- REF_MEASUREMENT_INTERVAL_END: an interval with edges gives both offsets and the phase; the loss has then ended (R293, R294, R304). -/
def execRefMeasurementIntervalEnd (entry : Nat) (freqPpb phase : Int) (ok : Bool) (s : State) : Host.Outcome State Fault Refusal :=
  .next (
    let e := getRef s entry
    if !decide (entry < 8) || !e.enable || e.input == 15 || !passed s e.begun (intervalNs e) then s
    else if !ok || lossHolds s e then modRef s entry fun e => { e with begun := upTime s }
    else
      let s := modRef s entry fun e => { e with
        begun := upTime s
        offsetLocal := freqPpb, offsetPeers := peerOffset s entry freqPpb, phase, loss := false, measured := true }
      checkMis (judgeRef s entry))

/-- The time that an entry's timer gives has passed. -/
def timerDone (s : State) (e : RefEntry) (ns : Nat) : Bool := e.timer.any fun t => passed s t ns

/-- REF_QUALIFY_TIMER: QUALIFY_S has passed inside the soft-alarm level (R294). -/
def execRefQualifyTimer (entry : Nat) (s : State) : Host.Outcome State Fault Refusal :=
  .next (
    let e := getRef s entry
    if decide (entry < 8) && e.state == .qualifying && timerDone s e (e.qualifyS * 1000000000) then becameQualified (setRef s entry .qualified 3) entry else s)

/-- REF_DISQUALIFY_TIMER: the offset stood outside the window for DISQUALIFY_MS (R294). -/
def execRefDisqualifyTimer (entry : Nat) (s : State) : Host.Outcome State Fault Refusal :=
  .next (
    let e := getRef s entry
    if decide (entry < 8) && candidate e && timerDone s e (e.disqualifyMs * 1000000) then reselect (setRef s entry .disqualified 2) 1 else s)

/-- The input that the loop switches to. -/
def lockTarget (s : State) : RefEntry := match s.head.selected with
  | some (.entry n) => getRef s n
  | some (.toden p) => { input := 4 + p }
  | none => {}

/-- DPLL_LOCK_COMPLETE: the target's interval has passed; its phase in ns splits into whole periods of 10 ns that stand and a remainder that the loop pulls in (R296, R298). -/
def execDpllLockComplete (offset : Int) (s : State) : Host.Outcome State Fault Refusal :=
  .next (
    if s.head.dpll ≠ .switching ∨ !passed s s.head.switchAt (intervalNs (lockTarget s)) then s
    else
      let f := match s.head.selected with
        | some (.entry n) => (getRef s n).offsetLocal
        | some (.toden p) => match firstIdx (fun n => (getRef s n).measured && (getRef s n).input == 4 + p) 0 8 with
          | some n => (getRef s n).offsetLocal
          | none => s.head.freq
        | none => 0
      let s := { s with head := { s.head with
        dpll := .locked, lockedFor := 0, freq := max (-50000) (min 50000 f), standing := offset / 10, remainder := offset % 10 } }
      postSwitch s (selIndex s s.head.selected) 7)

/-- HISTORY_SECOND_TICK: one second of history while LOCKED, of holdover, or of the move to the oscillator's frequency at no more than 0.1 ppm/s (R300, R301); WP_RUN_S counts (R337). -/
def execHistorySecondTick (freq : Int) (s : State) : Host.Outcome State Fault Refusal :=
  .next (if !passed s s.head.secondAt 1000000000 then s else
    let s := { s with head := { s.head with secondAt := s.head.secondAt + 1000000000 * 4294967296 } }
    let s := if s.time.running then { s with fabric := { s.fabric with runS := satAdd 32 s.fabric.runS 1 } } else s
    let x := s.head
    match x.dpll with
    | .locked =>
      let f := max (-50000) (min 50000 freq)
      { s with head := { x with freq := f, hist := (f :: x.hist).take 302, historyS := satAdd 16 x.historyS 1, lockedFor := x.lockedFor + 1 } }
    | .holdover => { s with head := { x with holdoverS := satAdd 32 x.holdoverS 1 } }
    | .freeRun => { s with head := { x with freq := x.freq - max (-100) (min 100 x.freq) } }
    | .switching => s)

/-! Reference outputs (R303). -/

/-- An output's level by its mode at the WP now: FRAME is active for WIDTH lines from F:LINE.0 of every frame that DIV divides. -/
def refLevel (s : State) (r : RefOut) : Bool :=
  let w := now s
  let hit (f : Nat) : Bool :=
    let d := lineDelta (wallLines s) f r.line w.frame w.line
    f % r.div == 0 && decide (0 ≤ d) && decide (d < (r.width : Int))
  r.mode == 1 && ((hit w.frame || hit ((w.frame + 2 ^ 32 - 1) % 2 ^ 32)) != r.invert)

/-- Drive one reference output. -/
def driveRef (s : State) (which : Nat) : State :=
  let v := refLevel s (if which = 0 then s.head.outA else s.head.outB)
  if v = (if which = 0 then s.head.levelA else s.head.levelB) then s
  else emit { s with head := (if which = 0 then { s.head with levelA := v } else { s.head with levelB := v }) } (.pin which v)

/-- REFOUT_PULSE: the output takes its level at a pulse's start or end (R303). -/
def execRefoutPulse (which : Nat) (s : State) : Host.Outcome State Fault Refusal :=
  .next (if which < 2 && (if which = 0 then s.head.outA else s.head.outB).mode == 1 then driveRef s which else s)

/-- A wall frame boundary: output settings accepted take effect; an output that leaves FRAME is held low (R303). -/
def applyRefOuts (s : State) : State :=
  match s.head.pendOuts with
  | some (a, b, f) =>
    if frameDue s f then
      let s := { s with head := { s.head with outA := a, outB := b, pendOuts := none } }
      driveRef (driveRef s 0) 1
    else s
  | none => s

/-! REF_TABLE_SET (R306). -/

/-- The entry that a packet writes. -/
def refOfPkt (p : Packet) : RefEntry :=
  { enable := pb p 17 3, revertive := pb p 17 4, input := pf p 18 0 4, priority := pf p 18 4 4, refType := pf p 19 0 2, falling := pb p 19 2
    term50 := pb p 19 3, bandwidth := pf p 19 4 4, window := pf p 20 0 16, qualifyS := pf p 22 0 12, disqualifyMs := pf p 24 0 16
    frameDiv := pf p 26 0 8 }

/-- A field of an entry is out of range or given for the wrong input. -/
def refBad (s : State) (n : Nat) (e : RefEntry) : Bool :=
  let divided := (decide (e.input < 2) && e.refType == 2) || inRange e.input 8 11
  !(decide (e.input ≤ 11) || e.input == 15) || e.priority == 0 || e.refType == 3 ||
  (decide (2 ≤ e.input) && (e.refType != 0 || e.falling || e.term50)) || decide (8 < e.bandwidth) || (e.input == 15 && e.bandwidth != 0) ||
  !inRange e.window 10 5000 || !inRange e.qualifyS 1 3600 || (if divided then e.frameDiv == 0 else e.frameDiv != 0) ||
  (e.bandwidth != 0 && aboveLimit s.time.timing e (bandwidthOf e)) ||
  (e.enable && (List.range 8).any fun m => m != n && (getRef s m).enable && (getRef s m).input == e.input)

/-- Step 8 checks of OP ENTRY. -/
def checkRefEntry (s : State) (h : Held) (_ : Cmd) : Option Fail :=
  let p := h.pkt
  if pf p 16 0 2 != 0 || !reservedZero p [(16, 0, 2), (17, 0, 5), (18, 0, 8), (19, 0, 8), (20, 0, 16), (22, 0, 12), (24, 0, 16), (26, 0, 8)] ||
    refBad s (pf p 17 0 3) (refOfPkt p) then some (failWith .badParam) else none

/-- What an entry becomes: a change of what it measures restarts its qualification. -/
def applyRef (s : State) (n : Nat) (e : RefEntry) : State :=
  let o := getRef s n
  let restart := o.input != e.input || o.refType != e.refType || o.falling != e.falling || o.term50 != e.term50 || o.frameDiv != e.frameDiv
  let fresh := !o.enable || restart
  let s := modRef s n fun o => { o with
    enable := e.enable, revertive := e.revertive, input := e.input, priority := e.priority, refType := e.refType, falling := e.falling
    term50 := e.term50, bandwidth := e.bandwidth, window := e.window, qualifyS := e.qualifyS, disqualifyMs := e.disqualifyMs
    frameDiv := e.frameDiv }
  let clear (s : State) : State := modRef s n fun o => { o with
    measured := false, timer := none, begun := upTime s, loss := false, offsetLocal := 0, offsetPeers := none, phase := 0 }
  if !e.enable then reselect (clear (setRef s n .disabled 4)) 3
  else if e.input = 15 then
    let was := o.enable && o.state == .qualified
    let s := setRef s n .qualified 4
    if was && !restart then reselect s 3 else becameQualified (reselect s 3) n
  else if fresh then
    let s := reselect (clear (setRef s n .qualifying 4)) 3
    if lossHolds s e then loseEntry s n else s
  else reselect s 3

/-- OP ENTRY's effect. -/
def actRefEntry (s : State) (h : Held) (_ : Cmd) : State :=
  let n := pf h.pkt 17 0 3
  let s := applyRef s n (refOfPkt h.pkt)
  finishNow s h .ok [fAt 16 0 8 0, fAt 17 0 8 n, fAt 18 0 8 (refCode (getRef s n).state), fAt 19 0 8 (dpllCode s.head.dpll)]

/-- REF_TABLE_SET with OP ENTRY (0x701). -/
def execRefTableSetEntry (c : Cmd) (s : State) : Host.Outcome State Fault Refusal :=
  .next (runPacket s c 0x701 (fun h => pf h.pkt 16 0 2 != 1) checkRefEntry actRefEntry)

/-- Settings of REFOUT_A (at byte 17 and 20) or REFOUT_B (at 18 and 24). -/
def refOutOf (p : Packet) (b : Nat) : RefOut :=
  { mode := pf p (17 + b) 0 2, invert := pb p (17 + b) 2, div := pf p (20 + 4 * b) 0 8, width := pf p (21 + 4 * b) 0 8, line := pf p (22 + 4 * b) 0 16 }

/-- A reference output's settings are out of range. -/
def refOutBad (s : State) (r : RefOut) : Bool :=
  r.mode == 3 || decide (wallLines s ≤ r.line) ||
  (if r.mode = 1 then r.div == 0 || r.width == 0 || decide (r.div * wallLines s ≤ r.width) else r.div != 0)

/-- Step 8 checks of OP OUTPUTS. -/
def checkRefOutputs (s : State) (h : Held) (_ : Cmd) : Option Fail :=
  let p := h.pkt
  if !reservedZero p [(16, 0, 2), (17, 0, 3), (18, 0, 3), (20, 0, 64), (28, 0, 16)] || refOutBad s (refOutOf p 0) || refOutBad s (refOutOf p 1)
  then some (failWith .badParam) else none

/-- OP OUTPUTS's effect: the outputs change at the first wall frame boundary after the command (R303). -/
def actRefOutputs (s : State) (h : Held) (_ : Cmd) : State :=
  let p := h.pkt
  let t := pf p 28 0 16
  let s := { s with head := { s.head with
    pendOuts := some (refOutOf p 0, refOutOf p 1, boundaryAfter (now s)), misTol := if t = 0 then 100 else t } }
  finishNow s h .ok [fAt 16 0 8 1]

/-- REF_TABLE_SET with OP OUTPUTS (0x701). -/
def execRefTableSetOutputs (c : Cmd) (s : State) : Host.Outcome State Fault Refusal :=
  .next (runPacket s c 0x701 (fun h => pf h.pkt 16 0 2 == 1) checkRefOutputs actRefOutputs)

/-! Slews (R305). -/

/-- Ticks of a slew still to remove: the rate acts on the WP's own advance. -/
def slewLeft (s : State) : Int :=
  match s.time.slew with
  | none => 0
  | some w =>
    let e := tickDelta (wallLines s) w.start (now s)
    if 0 ≤ w.total then max 0 (w.total - e * (w.rate : Int) / (1000000 + (w.rate : Int)))
    else min 0 (w.total + e * (w.rate : Int) / (1000000 - (w.rate : Int)))

/-- What a moved WP does to measured phases: each falls by the ticks moved. -/
def movePhases (s : State) (d : Int) : State :=
  { s with head := { s.head with
      entries := tmap {} (fun _ e => if e.measured then { e with phase := e.phase - d } else e) s.head.entries
      lanes := tmap {} (fun _ e => if e.measured then { e with phase := e.phase - d } else e) s.head.lanes } }

/-- A slew ends, with a status for its command, after removing what it has removed (R305). -/
def endSlew (s : State) (st : Status) (left : Int) : State :=
  match s.time.slew with
  | none => s
  | some w =>
    let s := movePhases (rebaseClocks s) (w.total - left)
    let s := { s with time := { s.time with slew := none } }
    match w.key with
    | some k => finishKey s k st (nowBits s) [fAt 16 0 64 (ofSigned 64 w.total), fAt 24 0 64 (ofSigned 64 left)]
    | none => s

/-- REALIGN_SLEW_COMPLETE: the remaining ticks reach 0 (R305). -/
def execRealignSlewComplete (s : State) : Host.Outcome State Fault Refusal := .next (if slewLeft s = 0 then endSlew s .ok 0 else s)

/-! CONTROL messages of the root (R342).  Their layout is the model's own (log entry 60). -/

/-- The payload of a CONTROL message: kind, flags, lines or address, rate, wall identifier, device, acting frame, base frame, delta, slew rate, anchor. -/
def ctlTiming (t : WallTiming) (frame base : Nat) : List Byte :=
  let a := t.anchor.getD {}
  bytesLE 56 (packFields [fAt 0 0 8 2, fAt 1 0 1 t.spread.toNat, fAt 1 1 1 t.anchor.isSome.toNat, fAt 2 0 16 t.lines, fAt 4 0 32 t.rateNum,
    fAt 8 0 16 t.rateDen, fAt 12 0 32 t.wallId, fAt 24 0 32 frame, fAt 28 0 32 base, fAt 42 0 48 a.sec, fAt 48 0 32 a.ns])

/-- A realign announcement: a jump (3), a slew (4) or the end of one (5). -/
def ctlRealign (kind : Nat) (delta : Int) (rate frame : Nat) : List Byte :=
  bytesLE 56 (packFields [fAt 0 0 8 kind, fAt 24 0 32 frame, fAt 32 0 64 (ofSigned 64 delta), fAt 40 0 16 rate])

/-- An address assignment. -/
def ctlAddress (id addr : Nat) : List Byte := bytesLE 56 (packFields [fAt 0 0 8 1, fAt 2 0 16 addr, fAt 16 0 64 id])

/-- Send a CONTROL message to a destination. -/
def sendControl (s : State) (dest : Nat) (l : List Byte) : State :=
  routePkt s none { dest, src := s.fabric.addr, vc := 0, kind := 2, payload := l }

/-- The root announces to every member. -/
def announce (s : State) (l : List Byte) : State := if onFabric s then sendControl s 4095 l else s

/-- The acting boundary: on a fabric also at least 4 wall frames after the command (R49, R305). -/
def fabricBoundary (s : State) (h : Held) : Nat :=
  let b := actBoundary s h
  if onFabric s then
    let m := boundaryAtOrAfter { now s with frame := ((now s).frame + 4) % 2 ^ 32 }
    if frameLater m b then m else b
  else b

/-! WALL_TIMING_SET (R49). -/

/-- The timing that a packet gives; WALL_ID 0 keeps the identifier in force at its boundary. -/
def timingOf (p : Packet) : WallTiming :=
  { lines := pf p 16 0 16, rateDen := pf p 18 0 16, rateNum := pf p 20 0 32, spread := pb p 24 1
    wallId := pf p 28 0 32
    anchor := if pb p 24 0 then some ⟨pf p 32 0 48, pf p 40 0 30⟩ else none }

/-- Cost of the committed class S layers of an output alone (R49, R170). -/
def classCost (s : State) (t : WallTiming) (o : Nat) : Nat :=
  committedCost t (getOut s o).cfg ((projected s (fun _ => true) o).filter fun l => l.cls == .s)

/-- An enabled output that a timing would break. -/
def timingBreaks (s : State) (t : WallTiming) (o : Nat) : Bool :=
  let x := getOut s o
  let why := limitBroken s t o x.cfg
  x.state != .unconfigured && x.state != .disabled && (inRange why 1 3 || decide (outLimit < classCost s t o))

/-- Step 8 checks of WALL_TIMING_SET. -/
def checkTiming (s : State) (h : Held) (_ : Cmd) : Option Fail :=
  let p := h.pkt
  let t := timingOf p
  let o := (List.range 8).find? (timingBreaks s t)
  firstFail [
    (!reservedZero p [(16, 0, 64), (24, 0, 2), (28, 0, 32), (32, 0, 48), (40, 0, 30)] || !inRange t.lines 256 8192 || t.rateDen == 0 ||
      decide (t.rateNum < 24 * t.rateDen) || decide (120 * t.rateDen < t.rateNum) || decide (999999999 < pf p 40 0 30), failWith .badParam),
    (isMember s, failWith .notPermitted),
    (o.isSome, (.budgetExceeded, [fAt 16 0 8 (o.getD 0)]))]

/-- WALL_TIMING_SET's reply detail: the anchored WP at its boundary and the standing misalignment (R49). -/
def timingDetail (s : State) (t : WallTiming) (b : Nat) : List Field :=
  let w : Wp := ⟨b, 0, 0⟩
  let (a, m) := if t.anchor.isNone then (0, 0) else match anchoredAt s t w with
    | some a => (wpBits a, ofSigned 64 (tickDelta t.lines w a))
    | none => (0xFFFFFFFFFFFFFFFF, 0xFFFFFFFFFFFFFFFF)
  [fAt 16 0 64 a, fAt 24 0 64 m]

/-- WALL_TIMING_SET's effect: stored for its boundary and announced by a root (R49, R342); replied at once, by a timed command when the timing takes effect (R70). -/
def actTiming (s : State) (h : Held) (_ : Cmd) : State :=
  let t := timingOf h.pkt
  let b := fabricBoundary s h
  let timed := h.phase == .armed
  let s := { s with time := { s.time with pendTiming := s.time.pendTiming ++ [(t, b, if timed then some (heldKey h) else none)] } }
  let s := announce s (ctlTiming t b b)
  if timed then holdOn s h else finish s h .ok (boundaryBits b) (packFields (timingDetail s t b))

/-- WALL_TIMING_SET (0x703). -/
def execWallTimingSet (c : Cmd) (s : State) : Host.Outcome State Fault Refusal :=
  .next (runPacket s c 0x703 (fun _ => true) checkTiming actTiming)

/-! REALIGN (R305). -/

/-- The misalignment a TARGET names; none when it does not apply. -/
def realignTarget (s : State) (target : Nat) (delta : Int) : Option Int :=
  if target = 0 then misSelected s else if target = 1 then misAnchor s else some delta

/-- MODE of a packet. -/
def realignMode (p : Packet) : Nat := pf p 16 0 2

/-- A field of REALIGN is out of range. -/
def realignBad (p : Packet) : Bool :=
  let m := realignMode p
  let t := pf p 16 2 2
  let d := pf p 24 0 64
  !reservedZero p [(16, 0, 4), (17, 0, 8), (24, 0, 64)] || m == 3 || t == 3 || (m == 2 && (t != 0 || pktTimed p)) ||
  (if m = 1 then !inRange (pf p 17 0 8) 1 100 else pf p 17 0 8 != 0) || (if t = 2 then d == 0 else d != 0)

/-- Step 8 checks of JUMP and SLEW; a JUMP that meets a running slew is left to the action. -/
def checkRealign (s : State) (h : Held) (_ : Cmd) : Option Fail :=
  let p := h.pkt
  firstFail [
    (realignBad p, failWith .badParam),
    (isMember s, failWith .notPermitted),
    (realignMode p != 2 && !s.time.slew.isSome && (realignTarget s (pf p 16 2 2) 1).isNone, failWith .notReady),
    ((realignMode p == 1 && s.time.slew.isSome) || (realignMode p == 2 && s.time.slew.isNone), failWith .notReady)]

/-- The REALIGN waits for its acting boundary, which a root announces with a delta known already (R342); a JUMP while a slew runs ends the slew and is itself refused. -/
def actRealign (s : State) (h : Held) (_ : Cmd) : State :=
  let p := h.pkt
  if s.time.slew.isSome then finishNow (endSlew s .notReady (slewLeft s)) h .notReady []
  else
    let r : Realign := { key := some (heldKey h), slew := realignMode p == 1, target := pf p 16 2 2, delta := toSigned 64 (pf p 24 0 64)
                         rate := pf p 17 0 8, frame := fabricBoundary s h }
    let s := if r.target = 2 then announce s (ctlRealign (if r.slew then 4 else 3) r.delta r.rate r.frame) else s
    holdOn { s with time := { s.time with realign := s.time.realign ++ [r] } } h

/-- REALIGN with MODE JUMP (0x704). -/
def execRealignJump (c : Cmd) (s : State) : Host.Outcome State Fault Refusal :=
  .next (runPacket s c 0x704 (fun h => realignMode h.pkt == 0 || realignMode h.pkt == 3) checkRealign actRealign)

/-- REALIGN with MODE SLEW (0x704). -/
def execRealignSlew (c : Cmd) (s : State) : Host.Outcome State Fault Refusal :=
  .next (runPacket s c 0x704 (fun h => realignMode h.pkt == 1) checkRealign actRealign)

/-- CANCEL's effect: the slew ends at once, here and on every member. -/
def actRealignCancel (s : State) (h : Held) (_ : Cmd) : State :=
  let left := slewLeft s
  let total := (s.time.slew.map Slew.total).getD 0
  let s := announce (endSlew s .notReady left) (ctlRealign 5 0 0 0)
  finishNow s h .ok [fAt 16 0 64 (ofSigned 64 total), fAt 24 0 64 (ofSigned 64 left)]

/-- REALIGN with MODE CANCEL (0x704). -/
def execRealignCancel (c : Cmd) (s : State) : Host.Outcome State Fault Refusal :=
  .next (runPacket s c 0x704 (fun h => realignMode h.pkt == 2) checkRealign actRealignCancel)

/-! REF_STATUS (R307). -/

/-- TIMER_MS: time left to qualify or disqualify. -/
def timerMs (s : State) (e : RefEntry) : Nat :=
  match e.timer with
  | none => 0
  | some w =>
    let full := if e.state = .qualifying then e.qualifyS * 1000 else e.disqualifyMs
    full - (upTime s - w) / (4294967296 * 1000000)

/-- A 24-byte entry record. -/
def refRecord (s : State) (n : Nat) : List Byte :=
  let e := getRef s n
  bytesLE 24 (packFields [fAt 0 0 8 (refCode e.state), fAt 1 0 8 e.input, fAt 2 0 1 e.loss.toNat, fAt 4 0 32 (ofSigned 32 e.offsetLocal),
    fAt 8 0 32 (peersBits (peersNow s n)), fAt 12 0 32 (timerMs s e), fAt 16 0 64 (wpBits e.since)])

/-- The 256-byte record. -/
def refStatusRecord (s : State) : List Byte :=
  let x := s.head
  bytesLE 64 (packFields [fAt 0 0 8 (dpllCode x.dpll), fAt 1 0 8 (selIndex s x.selected), fAt 2 0 1 (holdoverReady s).toNat,
    fAt 2 1 1 (s.time.timing.anchor.isSome && ptpLocked s).toNat, fAt 2 2 1 s.time.slew.isSome.toNat, fAt 4 0 32 x.historyS, fAt 8 0 64 (nowBits s),
    fAt 16 0 64 (misBits (misSelected s)), fAt 24 0 64 (misBits (misAnchor s)), fAt 32 0 32 (ofSigned 32 x.freq),
    fAt 36 0 32 (ofSigned 32 (learned s)), fAt 40 0 32 x.holdoverS, fAt 44 0 32 x.switches, fAt 48 0 64 (ofSigned 64 (slewLeft s))]) ++
  (List.range 8).flatMap (refRecord s)

/-- Step 8 checks of a status command: DEST in bytes 24 to 31, aligned to 64 or 0. -/
def checkStatusDest (_ : State) (h : Held) (_ : Cmd) : Option Fail :=
  if !reservedZero h.pkt [(24, 0, 64)] || pf h.pkt 24 0 64 % 64 != 0 then some (failWith .badParam) else none

/-- Write a status record to DEST when it is not 0, then reply. -/
def replyWithRecord (s : State) (h : Held) (c : Cmd) (rec_ : List Byte) (detail : List Field) : State :=
  let a := pf h.pkt 24 0 64
  if a = 0 then finishNow s h .ok detail
  else match destWrite s h.slice engLock (destSpace s) c.ok a rec_ with
    | (s, true) => finishNow s h .ok detail
    | (s, false) => finishNow s h .weirDenied []

/-- REF_STATUS's effect. -/
def actRefStatus (s : State) (h : Held) (c : Cmd) : State :=
  replyWithRecord s h c (refStatusRecord s) [fAt 16 0 8 (dpllCode s.head.dpll), fAt 17 0 8 (selIndex s s.head.selected),
    fAt 18 0 1 (holdoverReady s).toNat, fAt 20 0 16 s.head.historyS, fAt 24 0 64 (misBits (misSelected s))]

/-- REF_STATUS (0x702). -/
def execRefStatus (c : Cmd) (s : State) : Host.Outcome State Fault Refusal :=
  .next (runPacket s c 0x702 (fun _ => true) checkStatusDest actRefStatus)

end Sys2Proof.Machine
end

