-- ==== Sys2Proof/Machine/DpIn.lean ====
section
/-! DEFINITION. DisplayPort inputs (R283 to R290). -/
namespace Sys2Proof.Machine
open Sys2Proof

/-- A DisplayPort input. -/
def getDp (s : State) (i : Nat) : DpIn := tget {} s.media.dpins i
/-- Change a DisplayPort input. -/
def modDp (s : State) (i : Nat) (f : DpIn → DpIn) : State := { s with media := { s.media with dpins := tmod {} s.media.dpins i f } }

/-- State codes of R284. -/
def dpCode : DpState → Nat
  | .disabled => 0 | .waiting => 1 | .training => 2 | .noVideo => 3 | .held => 4 | .receiving => 5

/-- The link is trained (R284). -/
def dpTrained (t : DpState) : Bool := t == .noVideo || t == .held || t == .receiving

/-- EV_DPIN_LINK with a result (R290). -/
def postDp (s : State) (i result : Nat) : State :=
  let d := getDp s i
  post s 0 0x0403 [fAt 2 0 2 i, fAt 3 0 4 (dpCode d.state), fAt 3 4 4 result, fAt 4 0 3 d.lanes, fAt 5 0 2 d.rate, fAt 6 0 16 d.attempt,
    fAt 16 0 16 d.hActive, fAt 18 0 16 d.vActive, fAt 20 0 32 d.pixelRate]

/-- The input gives a reference no edges outside HELD and RECEIVING (R291). -/
def dpRefLoss (s : State) (i : Nat) : State :=
  let t := (getDp s i).state
  if t == .held || t == .receiving then s else loseInput s (8 + i)

/-- Enter a state; a change is posted (R284), and eye scans end when the link is no longer trained (R361). -/
def dpEnter (s : State) (i : Nat) (t : DpState) (result : Nat) : State :=
  if (getDp s i).state = t then s
  else
    let s := if dpTrained (getDp s i).state && !dpTrained t then endScans s (60 + 4 * i) 4 else s
    dpRefLoss (postDp (modDp s i fun d => { d with state := t }) i result) i

/-- Drive HPD (R288). -/
def driveHpd (s : State) (i : Nat) (level : Bool) : State :=
  if (getDp s i).hpd = level then s else emit (modDp s i fun d => { d with hpd := level }) (.pin (16 + i) level)

/-- The frame in progress stops for want of lock: the source is damaged at once and the frame records no arrival (R287). -/
def dpAbandon (s : State) (i : Nat) : State :=
  let d := getDp s i
  let s := match d.frame, d.source with
    | some _, some src => markDamaged s src
    | _, _ => s
  modDp s i fun d => { d with frame := none }

/-- The video of an input ends: nothing is measured any more (R289, R290). -/
def dpNoVideo (s : State) (i : Nat) : State :=
  modDp (dpAbandon s i) i fun d => { d with enc := 0, hActive := 0, vActive := 0, pixelRate := 0 }

/-- The state of an input with video (R284): frames are written unless the source is absent, its slice's intake is stopped, or it is UNFIT by the ledger or the frame. -/
def dpVideoState (s : State) (i : Nat) (bad : Bool) : DpState :=
  match (getDp s i).source with
  | none => .held
  | some src =>
    let e := getEntry s src
    if bad || intakeStopped s e.owner || e.inp.withdrawn || (e.inp.unfit && e.unfitReason == 4) then .held else .receiving

/-- Settle a trained input that has video after a change of its source or its source's slice (R284). -/
def dpSettle (s : State) (i : Nat) : State :=
  let d := getDp s i
  if d.state != .held && d.state != .receiving then s
  else
    let t := dpVideoState s i false
    if t = .held then dpEnter (modDp s i fun d => { d with frame := none }) i .held 0 else s

/-! Pixels (R285). -/

/-- A component of n bits as m bits. -/
def dpBits (n m c : Nat) : Nat :=
  if m < n then min (2 ^ m - 1) ((c + 2 ^ (n - m - 1)) / 2 ^ (n - m))
  else if n < m then widen n c / 2 ^ (12 - m) else c

/-- The bytes of an RGB pixel word in a format; alpha, and the ignored byte of XRGB8888, are all ones. -/
def dpRgb (fmt bpc w : Nat) : List Byte :=
  let r := bitsAt w 20 bpc
  let g := bitsAt w 10 bpc
  let b := bitsAt w 0 bpc
  if fmt = 0x10 then bytesLE 2 (dpBits bpc 5 r * 2048 + dpBits bpc 6 g * 32 + dpBits bpc 5 b)
  else if fmt = 0x13 then bytesLE 4 (3 * 2 ^ 30 + dpBits bpc 10 r * 2 ^ 20 + dpBits bpc 10 g * 2 ^ 10 + dpBits bpc 10 b)
  else bytesLE 4 (0xFF000000 + dpBits bpc 8 r * 65536 + dpBits bpc 8 g * 256 + dpBits bpc 8 b)

/-- Pixel pairs of a 4:2:2 line as YUYV; a last pixel without a partner is taken twice. -/
def dpYuyv : List Nat → List Byte
  | a :: b :: r => [BitVec.ofNat 8 (a >>> 20), BitVec.ofNat 8 a, BitVec.ofNat 8 (b >>> 20), BitVec.ofNat 8 b] ++ dpYuyv r
  | [a] => [BitVec.ofNat 8 (a >>> 20), BitVec.ofNat 8 a, BitVec.ofNat 8 (a >>> 20), BitVec.ofNat 8 a]
  | [] => []

/-- A sample of 8 bits in a two-plane format. -/
def dpSample (fmt c : Nat) : List Byte :=
  if formatPlain fmt = 0x21 then bytesLE 2 (dpBits 8 10 (c % 256) * 64) else [BitVec.ofNat 8 c]

/-- Luma or packed bytes of a line. -/
def dpLuma (fmt bpc : Nat) (ycc : Bool) (l : List Nat) : List Byte :=
  if !ycc then l.flatMap (dpRgb (formatPlain fmt) bpc)
  else if fmt = 0x22 then dpYuyv l
  else l.flatMap fun w => dpSample fmt (w >>> 20)

/-- Chroma bytes of an even line of a two-plane format. -/
def dpChroma (fmt : Nat) (ycc : Bool) (l : List Nat) : List Byte :=
  if ycc && (formatPlain fmt == 0x20 || formatPlain fmt == 0x21) then l.flatMap fun w => dpSample fmt w else []

/-- The encoding code of R289, 0 for one that R283 excludes. -/
def dpEncoding (m : Msa) : Nat :=
  if m.encoding = 0 then (if m.bpc = 6 then 1 else if m.bpc = 8 then 2 else if m.bpc = 10 then 3 else 0)
  else if m.encoding = 1 ∧ m.bpc = 8 then 4 else 0

/-- The pairings of R285. -/
def dpPairs (enc fmt : Nat) : Bool :=
  if enc = 4 then [0x22, 0x20, 0x21, 0x60].contains fmt else [0x10, 0x11, 0x12, 0x13, 0x51, 0x52, 0x53].contains fmt

/-- Why a frame makes its source UNFIT (R287): 2 not supported, 3 too large, 0 neither. -/
def dpUnfit (r : SourceRec) (m : Msa) : Nat :=
  if m.interlaced || dpEncoding m == 0 || decide (600000 < m.rate) || !dpPairs (dpEncoding m) r.fmt then 2
  else if r.maxW < m.hActive ∨ r.maxH < m.vActive then 3 else 0

/-- The buffer that takes a frame: not latched, oldest pass (R286). -/
def dpBuffer (s : State) (src : Nat) : Option Nat :=
  oldestBuffer s ((buffersOf s src).filter fun i => passAllowed s i && latchCount s i == 0)

/-- DPIN_FRAME_START: the MSA is checked, and the first active line starts a pass or the frame is dropped (R286, R287). -/
def execDpinFrameStart (input : Nat) (msa : Msa) (s : State) : Host.Outcome State Fault Refusal :=
  .next (
    let d := getDp s input
    if !decide (input < 4) || !(d.state == .held || d.state == .receiving) || !d.lock then s
    else
      let s := modDp s input fun d => { d with
        frame := none, enc := dpEncoding msa, hActive := msa.hActive, vActive := msa.vActive, pixelRate := msa.rate }
      match d.source with
      | none => s
      | some src =>
        let why := dpUnfit (getSource s src) msa
        let s := if why ≠ 0 ∧ !intakeStopped s (getEntry s src).owner then markUnfit s src why 3 else s
        let t := dpVideoState s input (why != 0)
        let s := dpEnter s input t (if why ≠ 0 then 7 else 0)
        if t = .held then s
        else match dpBuffer s src with
          | none => modDp s input fun d => { d with dropped := d.dropped + 1 }
          | some i =>
            let s := setPassSize (beginPass s i) i msa.hActive msa.vActive
            let s := captureSource s src i
            modDp s input fun d => { d with
              frame := some { surf := i, origin := lineOf (now s), width := msa.hActive, height := msa.vActive, bpc := msa.bpc, ycc := dpEncoding msa == 4 } })

/-- One line of an input frame in its buffer's format: both planes of an uncompressed surface, or the whole padded width for the lanes (R285). -/
def dpLine (s : State) (i y : Nat) (f : DpFrame) (l : List Nat) : State :=
  let x := getSurf s i
  let luma := dpLuma x.format f.bpc f.ycc l
  let chroma := if y % 2 = 0 then dpChroma x.format f.ycc l else []
  if formatCompressed x.format then
    let m := if x.format = 0x60 then 1 else 4
    deliverLine s i (padPixels m (m * x.width) luma ++ (if chroma.isEmpty then [] else padPixels 2 x.width chroma))
  else if chroma.isEmpty then deliverLine s i luma
  else if x.rebuilding || x.frontier != y then s
  else exportLines (modSurf (planeLine (planeLine s i y luma) i (x.height + y / 2) chroma) i (advance 1)) i

/-- The last line repeated to a multiple of 4 lines, for a compressed format (R285). -/
def dpBottom (s : State) (i : Nat) (f : DpFrame) (l : List Nat) : State :=
  if formatCompressed (getSurf s i).format then
    forEach (List.range ((4 - f.height % 4) % 4)) (fun k s => dpLine s i (f.height + k) f l) s
  else s

/-- DPIN_ACTIVE_LINE: a line is converted and written, and the last one records the arrival (R285 to R287). -/
def execDpinActiveLine (input : Nat) (pixels : List Nat) (s : State) : Host.Outcome State Fault Refusal :=
  .next (
    let d := getDp s input
    match d.frame, d.source with
    | some f, some src =>
      let l := pixels.take f.width
      let s := dpLine s f.surf f.line f l
      if f.line + 1 < f.height then modDp s input fun d => { d with frame := some { f with line := f.line + 1 } }
      else
        let s := dpBottom s f.surf f l
        let s := modDp s input fun d => { d with frame := none }
        addDelivery s { source := src, surf := f.surf, pass := (getSurf s f.surf).pass, height := f.height, origin := f.origin, damaged := f.damaged }
    | _, _ => s)

/-- DPIN_LOCK_LOSS: every lane in use counts it, the frame is damaged at once, and stops, and the input has no video (R287, R290 result 0x3, R355). -/
def execDpinLockLoss (input : Nat) (s : State) : Host.Outcome State Fault Refusal :=
  .next (if dpTrained (getDp s input).state && (getDp s input).lock then
    let s := forEach (List.range (getDp s input).lanes) (fun n s => bump s 5 (60 + 4 * input + n) 4 1) s
    dpEnter (modDp (dpNoVideo s input) input fun d => { d with lock := false }) input .noVideo 3 else s)

/-- DPIN_LOCK_REGAINED: the receiver has lock again; with video the next frame starts a new pass (R287). -/
def execDpinLockRegained (input : Nat) (s : State) : Host.Outcome State Fault Refusal :=
  .next (
    let d := getDp s input
    if d.state != .noVideo || d.lock then s
    else
      let s := modDp s input fun d => { d with lock := true }
      if d.video then dpEnter s input (dpVideoState s input false) 5 else s)

/-- DPIN_SYMBOL_ERROR: a code violation or disparity error of a lane, which the receiver counts, within a frame's active lines (R287, R355). -/
def execDpinSymbolError (error : DpSymbol) (s : State) : Host.Outcome State Fault Refusal :=
  .next (
    let s := bump s 5 (60 + 4 * error.input + error.lane) error.disparity.toNat 1
    let d := getDp s error.input
    match d.frame, d.source with
    | some f, some src => modDp (markDamaged s src) error.input fun d => { d with frame := some { f with damaged := true } }
    | _, _ => s)

/-- DPIN_VIDEO_CHANGE: video starts or stops on a trained input (R284, R290 results 0x5 and 0x6). -/
def execDpinVideoChange (input : Nat) (on : Bool) (s : State) : Host.Outcome State Fault Refusal :=
  .next (
    let d := getDp s input
    if !dpTrained d.state || !d.lock then s
    else if on then
      if d.state = .noVideo then dpEnter (modDp s input fun d => { d with video := true }) input (dpVideoState s input false) 5 else s
    else if d.state = .noVideo then s
    else
      let s := modDp s input fun d => { d with frame := none, video := false, enc := 0, hActive := 0, vActive := 0, pixelRate := 0 }
      dpEnter s input .noVideo 6)

/-- DPIN_TRAINING_START: the source computer begins training while HPD is high (R284, R289). -/
def execDpinTrainingStart (input : Nat) (s : State) : Host.Outcome State Fault Refusal :=
  .next (
    let d := getDp s input
    if !(d.state == .waiting || dpTrained d.state) || !d.hpd then s
    else
      let s := modDp (dpNoVideo s input) input fun d => { d with attempt := satAdd 16 d.attempt 1, lanes := 0, rate := 0, video := false }
      dpEnter s input .training 0)

/-- DPIN_TRAINING_END: trained (result 0) with lanes and a rate within the limits, or failed (1, 2) (R284, R289). -/
def execDpinTrainingEnd (input result lanes rate : Nat) (s : State) : Host.Outcome State Fault Refusal :=
  .next (
    let d := getDp s input
    if d.state != .training then s
    else if result = 0 then
      if !([1, 2, 4].contains lanes) || decide (d.maxLanes < lanes) || decide (d.maxRate < rate) then s
      else dpEnter (modDp s input fun d => { d with lanes, rate, lock := true }) input .noVideo 0
    else if result < 3 then dpEnter s input .waiting result else s)

/-- DPIN_HPD_PULSE_END: HPD is raised again 100 ms after a new EDID; nothing is posted (R288). -/
def execDpinHpdPulseEnd (input : Nat) (s : State) : Host.Outcome State Fault Refusal :=
  .next (if (getDp s input).pulse && passed s (getDp s input).pulseAt 100000000 then driveHpd (modDp s input fun d => { d with pulse := false }) input true else s)

/-! DPIN_CONFIGURE (R289). -/

/-- An EDID that passes the whole check: header, block sums, extension count. -/
def edidGood (l : List Byte) : Bool :=
  l.take 8 == [0x00, 0xFF, 0xFF, 0xFF, 0xFF, 0xFF, 0xFF, 0x00] &&
  ((List.range (l.length / 128)).all fun k => (((l.drop (128 * k)).take 128).foldl (fun n b => n + b.toNat) 0) % 256 == 0) &&
  byteAt l 126 + 1 == l.length / 128

/-- DPIN_CONFIGURE's checks. -/
def checkDpin (s : State) (h : Held) (_ : Cmd) : Option Fail :=
  let p := h.pkt
  let load := pb p 16 3
  let len := pf p 18 0 16
  let bad := !reservedZero p [(16, 0, 5), (17, 0, 4), (18, 0, 16), (24, 0, 64)] || pf p 17 0 2 == 3 ||
    !(if load then [128, 256, 384, 512].contains len && pf p 24 0 64 % 64 == 0 else len == 0 && pf p 24 0 64 == 0) ||
    (pb p 16 2 && !load && (getDp s (pf p 16 0 2)).edid.isEmpty)
  if bad then some (failWith .badParam) else none

/-- The limits, the EDID and the enable of a packet take effect. -/
def applyDpin (s : State) (i : Nat) (p : Packet) (edid : Option (List Byte)) : State :=
  let d := getDp s i
  let lanes := 2 ^ pf p 17 0 2
  let rate := pf p 17 2 2
  let changed := d.maxLanes != lanes || d.maxRate != rate
  let s := modDp s i fun d => { d with maxLanes := lanes, maxRate := rate, edid := edid.getD d.edid, enable := pb p 16 2 }
  let off (s : State) : State := modDp (dpNoVideo s i) i fun d => { d with lanes := 0, rate := 0, video := false, lock := true }
  if !pb p 16 2 then
    dpEnter (driveHpd (modDp (off s) i fun d => { d with pulse := false, attempt := 0 }) i false) i .disabled 0
  else if d.state = .disabled then dpEnter (driveHpd (modDp s i fun d => { d with attempt := 0 }) i true) i .waiting 0
  else if edid.isSome then
    dpRefLoss (postDp (driveHpd (modDp (off s) i fun d => { d with pulse := true, pulseAt := upTime s, state := .waiting }) i false) i 4) i
  else if changed && dpTrained d.state then emit s (.link (16 + i) 2) else s

/-- DPIN_CONFIGURE's effect and reply. -/
def actDpin (s : State) (h : Held) (c : Cmd) : State :=
  let p := h.pkt
  let i := pf p 16 0 2
  let done (s : State) : State :=
    let d := getDp s i
    finishNow s h .ok [fAt 16 0 8 (dpCode d.state), fAt 17 0 8 d.lanes, fAt 18 0 8 d.rate, fAt 19 0 8 d.enc, fAt 20 0 16 d.hActive,
      fAt 22 0 16 d.vActive, fAt 24 0 32 d.pixelRate]
  if pb p 16 3 then
    match srcRead s h.slice engLock (pb p 16 4) c (pf p 24 0 64) (pf p 18 0 16) with
    | (s, none) => finishNow s h .weirDenied []
    | (s, some l) => if edidGood l then done (applyDpin s i p (some l)) else finishNow s h .badParam []
  else done (applyDpin s i p none)

/-- DPIN_CONFIGURE (0x404). -/
def execDpinConfigure (c : Cmd) (s : State) : Host.Outcome State Fault Refusal :=
  .next (runPacket s c 0x404 (fun _ => true) checkDpin actDpin)

end Sys2Proof.Machine
end

