-- ==== Sys2Proof/Machine/Ptp.lean ====
section
/-! DEFINITION. PTP ports and the servo (R311 to R321), event stamps (R322 to R325), and the reception and transmission of Ethernet frames (R270, R280). -/
namespace Sys2Proof.Machine
open Sys2Proof

/-! PTP messages (IEEE 1588, R311). -/

/-- A PTP message: type, bytes. -/
structure PtpMsg where
  kind : Nat := 0
  bytes : List Byte := []
  deriving DecidableEq, Repr

/-- The PTP message of a frame on UDP ports 319 and 320 or EtherType 0x88F7. -/
def ptpMessage (i : FrameInfo) : Option PtpMsg :=
  if i.etype = 0x88F7 then some ⟨byteAt i.body 0 % 16, i.body⟩
  else match i.udp with
    | some (_, dp) => if (dp = 319 ∨ dp = 320) ∧ !i.fragment then some ⟨byteAt i.payload 0 % 16, i.payload⟩ else none
    | none => none

/-- An event message (R313). -/
def isEventMsg (k : Nat) : Bool := decide (k < 4)

/-- A time field of 6 and 4 bytes, in 2^-32 ns. -/
def msgTime (l : List Byte) (i : Nat) : Int := ((beAt l i 6 * 1000000000 + beAt l (i + 6) 4 : Nat) : Int) * nsUnit

/-- correctionField in 2^-32 ns. -/
def msgCorr (l : List Byte) : Int := toSigned 64 (beAt l 8 8) * 65536

/-- Picoseconds in the counter's units. -/
def psUnits (x : Int) : Int := x * nsUnit / 1000

/-- Corrections of R313 in 0.1 ns: egress and ingress. -/
def portCorr (e : EthPort) : Nat × Nat :=
  if e.rate10 then (320, 415) else if e.fec = 0 then (211, 274) else if e.fec = 1 then (389, 1126) else (442, 2517)

/-- The PTP stamp of a message that entered at a WP (R313). -/
def ingressTime (s : State) (n : Nat) (w : Wp) : Int :=
  clockUnits s n w - ((portCorr (getPort s n)).2 : Int) * nsUnit / 10 - psUnits (getPtp s n).extraIn

/-- The PTP stamp of a message that leaves now (R313). -/
def egressTime (s : State) (n : Nat) : Int :=
  clockUnits s n (now s) + ((portCorr (getPort s n)).1 : Int) * nsUnit / 10 + psUnits (getPtp s n).extraOut

/-- A stamp as a descriptor carries it in HOST mode (R312). -/
def stampWord (v : Int) : Nat := (ptpOf v).ns + (ptpOf v).sec % 2 ^ 34 * 2 ^ 30

/-- The port's identity: its MAC as an EUI-64, and port number 1. -/
def portIdentity (s : State) (n : Nat) : Nat :=
  let m := (getPort s n).mac
  (m / 2 ^ 24 * 2 ^ 40 + 0xFFFE * 2 ^ 24 + m % 2 ^ 24) * 65536 + 1

/-- Put bytes at a place of a list. -/
def patch (l : List Byte) (i : Nat) (b : List Byte) : List Byte := l.take i ++ b ++ l.drop (i + b.length)

/-- A header and body of a message that the device sends. -/
def makeMsg (s : State) (n kind len seq interval : Nat) (body : List Byte) : List Byte :=
  let x := getPtp s n
  [BitVec.ofNat 8 kind, 0x12] ++ bytesBE 2 len ++ [BitVec.ofNat 8 x.domain, 0] ++ List.replicate 14 0 ++ bytesBE 10 (portIdentity s n) ++
    bytesBE 2 seq ++ [0, BitVec.ofNat 8 interval] ++ body

/-- A message as a frame in the port's transport, with the two bytes that follow it on IPv6 (R315). -/
def ptpFrame (s : State) (n : Nat) (peer : Bool) (m : List Byte) : State × List Byte :=
  let x := getPtp s n
  let p := getPort s n
  let tag := if x.tagged then some x.vid else none
  if x.transport = 2 then
    (s, padFrame (etherHead (if peer then 0x0180C200000E else 0x011B19000000) p.mac tag 0x88F7 ++ m))
  else if x.transport = 1 then
    let (s, f) := udpFrame s p true (if peer then 0x33330000006B else 0x333300000181) tag
      (if peer then 0xFF02 * 2 ^ 112 + 0x6B else 0xFF0E * 2 ^ 112 + 0x181) 0 1 319 319 false (m ++ [0, 0])
    (s, padFrame f)
  else
    let (s, f) := udpFrame s p false (if peer then 0x01005E00006B else 0x01005E000181) tag (if peer then 0xE000006B else 0xE0000181) 0 1 319 319 true m
    (s, padFrame f)

/-- Queue a message for the port (R280). -/
def queuePtp (s : State) (n : Nat) (peer : Bool) (m : List Byte) : State :=
  let (s, f) := ptpFrame s n peer m
  modPort s n fun p => { p with ptp := p.ptp ++ [f] }

/-! The servo (R316 to R318). -/

/-- Enter a servo state; outside LOCKED the PTP reference is lost (R316). -/
def setServo (s : State) (n : Nat) (t : Servo) : State :=
  let s := modPtp s n fun x => { x with servo := t, below := 0, above := 0, settled := if x.servo = t then x.settled else false }
  if t = .locked then s else loseInput s (2 + n)

/-- A loss (R318). -/
def loseServo (s : State) (n : Nat) : State :=
  let t := (getPtp s n).servo
  if t == .acquiring || t == .locked then setServo s n .listening else s

/-- The controller's new rate: the spec gives its bandwidth and not its coefficients, so the value is free within MAX_SLEW (R317). -/
def servoRate (s : State) (n : Nat) : State :=
  let (v, s) := freshValue s
  let m := ((getPtp s n).maxSlew * 1000000 : Nat)
  setRate s n (max (-(m : Int)) (min (m : Int) v.toInt))

/-- An offset from the master is measured (R316 to R318). -/
def takeOffset (s : State) (n : Nat) (off : Int) : State :=
  let s := modPtp s n fun x => { x with lastOffset := off / nsUnit }
  let s := if (getPtp s n).servo = .listening then setServo s n .acquiring else s
  let x := getPtp s n
  let small := decide (off.natAbs < x.lockNs * 4294967296)
  let large := decide (x.stepNs * 4294967296 < off.natAbs)
  if x.servo = .acquiring then
    let s := modPtp s n fun x => { x with settled := true, below := if small then x.below + 1 else 0 }
    let s := if !x.settled && large then stepClock s n (clockUnits s n (now s) - off) else servoRate s n
    if 16 ≤ (getPtp s n).below then setServo s n .locked else s
  else if x.servo = .locked then
    let s := modPtp (servoRate s n) n fun x => { x with above := if large then x.above + 1 else 0 }
    if 4 ≤ (getPtp s n).above then loseServo s n else s
  else s

/-- A Sync's origin time and correction are known: the offset, once a delay has been measured. -/
def takeSync (s : State) (n : Nat) (t2 t1 corr : Int) : State :=
  let d := t2 - t1 - corr - psUnits (getPtp s n).asymmetry
  let s := modPtp s n fun x => { x with t21 := some d, sync := none }
  match (getPtp s n).pathDelay with
  | some p => takeOffset s n (d - p)
  | none => s

/-- Order of data sets, field by field. -/
def datasetLess : List Nat → List Nat → Bool
  | [], _ => false
  | _ :: _, [] => false
  | a :: r, b :: q => decide (a < b) || (a == b && datasetLess r q)

/-- The best master among those heard at least twice (R312). -/
def bestMaster (l : List Foreign) : Option Foreign :=
  (l.filter fun f => decide (2 ≤ f.heard)).foldl (fun b f => match b with
    | none => some f
    | some g => if datasetLess f.dataset g.dataset then some f else b) none

/-- An Announce message: the masters heard, and the best of them (R312, R318). -/
def takeAnnounce (s : State) (n : Nat) (m : List Byte) : State :=
  let id := beAt m 20 10
  let ds := [beAt m 47 1, beAt m 48 1, beAt m 49 1, beAt m 50 2, beAt m 52 1, beAt m 53 8, beAt m 61 2, id]
  let s := bump s 4 n 1 1
  let s := modPtp s n fun x =>
    let old := x.foreign.find? fun f => f.portId == id
    let f : Foreign := { portId := id, dataset := ds, utcOffset := beAt m 44 2, heard := min 2 ((old.map Foreign.heard).getD 0 + 1) }
    { x with foreign := x.foreign.filter (fun f => f.portId != id) ++ [f] }
  match bestMaster (getPtp s n).foreign with
  | none => s
  | some f =>
    let s := modPtp s n fun x => { x with utcOffset := f.utcOffset % 256 }
    let s := if f.portId = id then modPtp s n fun x => { x with annAt := upTime s, annLog := toSigned 8 (byteAt m 33) } else s
    if (getPtp s n).master = some f.portId then s
    else
      let s := loseServo (bump s 4 n 4 1) n
      modPtp s n fun x => { x with master := some f.portId, sync := none, t21 := none, req := none, pathDelay := if x.p2p then x.pathDelay else none }

/-- A message of the port's domain in DEVICE mode, with its ingress time (R311, R314). -/
def takePtp (s : State) (n : Nat) (k : Nat) (m : List Byte) (t : Int) : State :=
  let x := getPtp s n
  let src := beAt m 20 10
  let seq := beAt m 30 2
  let two := bitAt (byteAt m 6) 1
  let mine := beAt m 44 10 == portIdentity s n
  let asym := psUnits x.asymmetry
  if k = 0xB then takeAnnounce s n m
  else if k = 0 then
    if x.master != some src then s
    else
      let s := modPtp (bump s 4 n 0 1) n fun x => { x with syncAt := upTime s, syncLog := toSigned 8 (byteAt m 33) }
      if two then modPtp s n fun x => { x with sync := some (seq, t, msgCorr m) } else takeSync s n t (msgTime m 34) (msgCorr m)
  else if k = 8 then
    match x.sync with
    | some (q, t2, c) => if q = seq ∧ x.master = some src then takeSync s n t2 (msgTime m 34) (c + msgCorr m) else s
    | none => s
  else if k = 9 then
    match x.req, x.t21 with
    | some (q, t3), some d =>
      if q = seq ∧ mine ∧ x.master = some src ∧ !x.p2p then
        modPtp s n fun x => { x with req := none, pathDelay := some ((d + (msgTime m 34 - t3 - msgCorr m + asym)) / 2) }
      else s
    | _, _ => s
  else if k = 2 then
    if !x.p2p then s
    else
      let s := modPtp s n fun x => { x with asked := some (seq, src, t) }
      queuePtp s n true (makeMsg s n 3 54 seq 0x7F (List.replicate 10 0 ++ bytesBE 10 src))
  else if k = 3 then
    match x.req with
    | some (q, t1) =>
      if q = seq ∧ mine ∧ x.p2p then
        if two then modPtp s n fun x => { x with resp := some (seq, t - t1 + msgTime m 34 - msgCorr m) }
        else modPtp s n fun x => { x with req := none, pathDelay := some ((t - t1 - msgCorr m) / 2) }
      else s
    | none => s
  else if k = 0xA then
    match x.resp with
    | some (q, d) =>
      if q = seq ∧ mine then
        modPtp s n fun x => { x with req := none, resp := none, pathDelay := some ((d - msgTime m 34 - msgCorr m) / 2) }
      else s
    | none => s
  else s

/-- The message arrived in the port's transport and tag (R311). -/
def ptpAccepted (x : PtpPort) (i : FrameInfo) : Bool :=
  (if x.transport = 2 then i.etype == 0x88F7 else i.ip == some (x.transport == 1)) &&
  (match i.tag with
   | some t => x.tagged && t % 4096 == x.vid % 4096
   | none => !x.tagged)

/-- Step 3 of R270: a PTP message of a port whose engine is enabled. -/
def ptpReceive (s : State) (n : Nat) (stamp : Wp) (frame : List Byte) (i : FrameInfo) (m : PtpMsg) (host : List HostDesc) : State :=
  let x := getPtp s n
  let t := ingressTime s n stamp
  if x.engine = 2 then
    let s := if m.kind = 2 then modPtp s n fun x => { x with asked := some (beAt m.bytes 30 2, beAt m.bytes 20 10, t) } else s
    deliverQueue s x.hostQueue n (some 0) (stampWord t) frame host
  else if ptpAccepted x i && byteAt m.bytes 4 == x.domain && byteAt m.bytes 1 % 16 == 2 && s.boot.lk == .running then takePtp s n m.kind m.bytes t
  else s

/-- ETH_FRAME_RECEIVED: the order of R270, with the WP at which the frame passed the MAC. -/
def execEthFrameReceived (port : Nat) (frame : List Byte) (stamp : Nat) (host : List HostDesc) (s : State) : Host.Outcome State Fault Refusal :=
  .next (
    let p := getPort s port
    if !decide (port < 2) || !p.enable || !p.up then s
    else
      let s := bump s 3 port 0 1
      let l := frame.take (frame.length - 4)
      let i := parseFrame l
      if frame.length < 18 || frame.drop (frame.length - 4) != fcs l then bump s 3 port 2 1
      else if i.etype = 0x8808 then bump s 3 port 6 1
      else if !addressOk p i then bump s 3 port 3 1
      else if !i.sumOk then bump s 3 port 4 1
      else match ptpMessage i with
        | some m => if (getPtp s port).engine = 0 then classifyFrame s port (wpOfBits stamp) l i host else ptpReceive s port (wpOfBits stamp) l i m host
        | none => classifyFrame s port (wpOfBits stamp) l i host)

/-! One-step transmission (R314, R315). -/

/-- Where the PTP message of a frame that leaves begins. -/
def msgOffset (f : List Byte) : Nat :=
  let o := if beAt f 12 2 = 0x8100 then 18 else 14
  let et := beAt f (o - 2) 2
  if et = 0x0800 then o + byteAt f o % 16 * 4 + 8 else if et = 0x86DD then o + 48 else o

/-- A ones' complement sum of 16 bits less another. -/
def sumLess (a b : Nat) : Nat := let t := a + (0xFFFF - b); t % 65536 + t / 65536

/-- The two bytes after an IPv6 message keep the checksum; whether the frame holds them. -/
def keepSum (f g : List Byte) (o : Nat) : List Byte × Bool :=
  let e := o + beAt g (o + 2) 2
  if beAt g (o - 4) 2 < beAt g (o + 2) 2 + 10 then (g, false)
  else
    let was := sum16 ((f.drop o).take (e - o))
    let is_ := sum16 ((g.drop o).take (e - o))
    let t := beAt f e 2 + sumLess was is_
    (patch g e (bytesBE 2 (t % 65536 + t / 65536)), true)

/-- An event message gets its departure time as it leaves: the frame sent, the time, and whether the frame's checksum is right. -/
def stampFrame (s : State) (n : Nat) (f : List Byte) (k : Nat) : List Byte × Int × Bool :=
  let t := egressTime s n
  let o := msgOffset f
  let g := patch f (o + 6) [BitVec.ofNat 8 (byteAt f (o + 6) / 4 * 4 + byteAt f (o + 6) % 2)]
  let g := if k = 3 then
      let back := match (getPtp s n).asked with
        | some (q, src, t2) => if q = beAt f (o + 30) 2 ∧ src = beAt f (o + 44) 10 then t - t2 else 0
        | none => 0
      patch (patch g (o + 8) (bytesBE 8 (ofSigned 64 (toSigned 64 (beAt f (o + 8) 8) + back / 65536)))) (o + 34) (List.replicate 10 0)
    else patch g (o + 34) (bytesBE 6 (ptpOf t).sec ++ bytesBE 4 (ptpOf t).ns)
  let et := beAt f ((if beAt f 12 2 = 0x8100 then 18 else 14) - 2) 2
  if et = 0x0800 then (patch g (o - 2) [0, 0], t, true)
  else if et = 0x86DD then let (g, ok) := keepSum f g o; (g, t, ok)
  else (g, t, true)

/-- Send an event message, and remember the time of a request (R314). -/
def sendPtp (s : State) (n : Nat) (f : List Byte) (k : Nat) : State × Int :=
  let (g, t, ok) := stampFrame s n f k
  let s := if ok then s else bump s 4 n 5 1
  let s := if (k = 1 ∨ k = 2) ∧ (getPtp s n).engine = 1 then
      modPtp s n fun x => { x with req := some (beAt g (msgOffset g + 30) 2, t) }
    else s
  (sendFrame s n g, t)

/-- The PTP message type of a frame that the host queue of a HOST-mode port supplies. -/
def hostPtpKind (s : State) (n q : Nat) (f : List Byte) : Option Nat :=
  let x := getPtp s n
  if x.engine = 2 ∧ x.hostQueue = q then (ptpMessage (parseFrame f)).map PtpMsg.kind else none

/-- The next frame of a host queue: its descriptor, and its bytes when they can be read. -/
def queueFrame (s : State) (q : Nat) (host : List HostDesc) : State × Option (HostDesc × List Byte) :=
  let x := getQueue s q
  match nextDesc s q x true host with
  | (s, none) => (s, none)
  | (s, some d) => match txBytes s x d with
    | (s, some l) => (s, some (d, l))
    | (s, none) => (s, none)

/-- Send the next frame of a host queue; a refused one completes with ERROR (R279, R312). -/
def sendQueued (s : State) (port q : Nat) (host : List HostDesc) : State :=
  match queueFrame s q host with
  | (s, none) => s
  | (s, some (d, f)) =>
    if txBad (getPort s port) f then completeTx s q port d true 0
    else match hostPtpKind s port q f with
      | some k =>
        if isEventMsg k && k != 0 then let (s, t) := sendPtp s port f k; completeTx s q port d false (stampWord t)
        else completeTx (sendFrame s port f) q port d false (stampWord (egressTime s port))
      | none => completeTx (sendFrame s port f) q port d false (nowBits s)

/-- A host queue of a port has a frame to send. -/
def queueReady (s : State) (port : Nat) (host : List HostDesc) (q : Nat) : Bool :=
  (getQueue s q).port == port && (getQueue s q).enable && (queueFrame s q host).2.isSome

/-- ETH_FRAME_TRANSMIT: the port sends its next frame: PTP messages, then RTP streams in turn, then host queues in turn (R280). -/
def execEthFrameTransmit (port : Nat) (host : List HostDesc) (s : State) : Host.Outcome State Fault Refusal :=
  .next (
    let p := getPort s port
    if !decide (port < 2) || !p.enable || !p.up then s
    else match p.ptp with
      | f :: rest => (sendPtp (modPort s port fun p => { p with ptp := rest }) port f (byteAt f (msgOffset f) % 16)).1
      | [] =>
        let hq := (getPtp s port).hostQueue
        let urgent := match (queueFrame s hq host).2 with
          | some (_, f) => (hostPtpKind s port hq f).isSome && queueReady s port host hq
          | none => false
        if urgent then sendQueued s port hq host
        else match roundRobin 16 p.nextStream (fun n => (getStream s n).enable && (getStream s n).port == port && !(getStream s n).packets.isEmpty) with
          | some n =>
            let s := match (getStream s n).packets with
              | f :: rest => sendFrame (modStream s n fun x => { x with packets := rest }) port f
              | [] => s
            modPort s port fun p => { p with nextStream := n + 1 }
          | none => match roundRobin 16 p.nextQueue (queueReady s port host) with
            | some q => modPort (sendQueued s port q host) port fun p => { p with nextQueue := q + 1 }
            | none => s)

/-- ETHERNET_LINK_CHANGE: block lock and the SFP28 inputs; a new TX_FAULT and a loss of lock are counted (R355, R465). -/
def execEthernetLinkChange (port : Nat) (up modAbs rxLos txFault : Bool) (s : State) : Host.Outcome State Fault Refusal :=
  .next (
    if !decide (port < 2) then s
    else
      let s := if txFault && !(getPort s port).txFault then bump s 3 port 9 1 else s
      let was := (getPort s port).up
      let s := modPort s port fun p => { p with up := up && p.enable && !modAbs && !rxLos, modAbs, rxLos, txFault }
      if (getPort s port).up then s else endScans (if was then bump s 5 (76 + port) 4 1 else s) (76 + port) 1)

/-! Timed happenings (R314, R318, R320). -/

/-- PTP_DELAY_REQ_SEND: a Delay_Req to the chosen master, or a Pdelay_Req (R311, R314). -/
def execPtpDelayReqSend (port : Nat) (s : State) : Host.Outcome State Fault Refusal :=
  .next (
    let x := getPtp s port
    if !decide (port < 2) || x.engine != 1 || s.boot.lk != .running || (!x.p2p && x.master.isNone) then s
    else
      let m := if x.p2p then makeMsg s port 2 54 x.reqSeq 0x7F (List.replicate 20 0) else makeMsg s port 1 44 x.reqSeq 0x7F (List.replicate 10 0)
      let s := bump (queuePtp s port x.p2p m) 4 port 2 1
      modPtp s port fun x => { x with reqSeq := (x.reqSeq + 1) % 65536, req := none, resp := none })

/-- A message interval of 2^k seconds, in ns. -/
def messageNs (k : Int) : Nat := if 0 ≤ k then 1000000000 * 2 ^ k.toNat else 1000000000 / 2 ^ (-k).toNat

/-- PTP_SYNC_TIMEOUT: no Sync of the chosen master for 4 intervals (R318). -/
def execPtpSyncTimeout (port : Nat) (s : State) : Host.Outcome State Fault Refusal :=
  let x := getPtp s port
  .next (if port < 2 && x.engine == 1 && passed s x.syncAt (4 * messageNs x.syncLog) then loseServo s port else s)

/-- PTP_ANNOUNCE_TIMEOUT: announceReceiptTimeout, which is of 2 to 10 intervals, has expired; the chosen master is given up (R311, R318). -/
def execPtpAnnounceTimeout (port : Nat) (s : State) : Host.Outcome State Fault Refusal :=
  let y := getPtp s port
  .next (if port < 2 && y.engine == 1 && passed s y.annAt (2 * messageNs y.annLog) then
    modPtp (loseServo s port) port fun x => { x with
      master := none, foreign := x.foreign.filter (fun f => x.master != some f.portId), sync := none, t21 := none, req := none }
  else s)

/-- PTP_LOCK_HOLD_LAPSE: LOCK_HOLD_MS without a TIME_RATE_ADJUST with LOCK 1 (R320). -/
def execPtpLockHoldLapse (port : Nat) (s : State) : Host.Outcome State Fault Refusal :=
  .next (if port < 2 && (getPtp s port).engine == 2 && (getPtp s port).servo == .locked && passed s (getPtp s port).lockAt ((getPtp s port).lockHoldMs * 1000000) then setServo s port .listening else s)

/-! TIME_STEP (R319) and TIME_RATE_ADJUST (R320). -/

/-- Servo codes (R316). -/
def servoCode : Servo → Nat
  | .disabled => 0 | .listening => 1 | .acquiring => 2 | .locked => 3

/-- The counter's value that a TIME_STEP gives. -/
def stepTarget (s : State) (p : Packet) : Int :=
  if pb p 16 1 then unitsOfPtp ⟨pf p 36 0 48, pf p 44 0 30⟩
  else clockUnits s (pf p 16 0 1) (now s) + toSigned 64 (pf p 24 0 64) * nsUnit + (pf p 32 0 32 : Nat)

/-- Step 8 checks of TIME_STEP. -/
def checkTimeStep (s : State) (h : Held) (_ : Cmd) : Option Fail :=
  let p := h.pkt
  let x := getPtp s (pf p 16 0 1)
  let wrong := if pb p 16 1 then pf p 24 0 64 != 0 || pf p 32 0 32 != 0 || decide (999999999 < pf p 44 0 30)
    else pf p 36 0 48 != 0 || pf p 44 0 30 != 0
  firstFail [
    (!reservedZero p [(16, 0, 3), (24, 0, 64), (32, 0, 32), (36, 0, 48), (44, 0, 30)] || wrong || decide (stepTarget s p < 0), failWith .badParam),
    (!pb p 16 2 && (x.servo == .locked || x.engine == 1), failWith .notReady)]

/-- TIME_STEP's effect. -/
def actTimeStep (s : State) (h : Held) (_ : Cmd) : State :=
  let n := pf h.pkt 16 0 1
  let x := getPtp s n
  let s := if pb h.pkt 16 2 && x.engine == 1 then setServo s n .listening
    else if pb h.pkt 16 2 && x.servo == .locked then setServo s n .acquiring else s
  let s := stepClock s n (stepTarget s h.pkt)
  let t := ptpOf (clockUnits s n (now s))
  finishNow s h .ok [fAt 16 0 48 t.sec, fAt 24 0 32 t.ns, fAt 28 0 8 (getClock s n).epoch]

/-- TIME_STEP (0x707). -/
def execTimeStep (c : Cmd) (s : State) : Host.Outcome State Fault Refusal :=
  .next (runPacket s c 0x707 (fun _ => true) checkTimeStep actTimeStep)

/-- Step 8 checks of TIME_RATE_ADJUST. -/
def checkTimeRate (s : State) (h : Held) (_ : Cmd) : Option Fail :=
  let p := h.pkt
  let n := pf p 16 0 1
  let x := getPtp s n
  let hold := pf p 28 0 16
  firstFail [
    (!reservedZero p [(16, 0, 2), (20, 0, 64), (28, 0, 16)] || decide (x.maxSlew * 1000000 < (toSigned 64 (pf p 20 0 64)).natAbs) ||
      !(hold == 0 || inRange hold 100 60000), failWith .badParam),
    (x.engine != 2 || (pb p 16 1 && (getClock s n).notSet), failWith .notReady)]

/-- TIME_RATE_ADJUST's effect. -/
def actTimeRate (s : State) (h : Held) (_ : Cmd) : State :=
  let p := h.pkt
  let n := pf p 16 0 1
  let old := (getClock s n).rate
  let hold := pf p 28 0 16
  let t : Servo := if pb p 16 1 then .locked else .acquiring
  let s := modPtp (setServo (setRate s n (toSigned 64 (pf p 20 0 64))) n t) n fun x => { x with
    lockHoldMs := if hold = 0 then 4000 else hold, lockAt := if pb p 16 1 then upTime s else x.lockAt }
  finishNow s h .ok [fAt 16 0 64 (ofSigned 64 old), fAt 24 0 8 (servoCode t)]

/-- TIME_RATE_ADJUST (0x708). -/
def execTimeRateAdjust (c : Cmd) (s : State) : Host.Outcome State Fault Refusal :=
  .next (runPacket s c 0x708 (fun _ => true) checkTimeRate actTimeRate)

/-! PTP_PORT_SET (R321). -/

/-- The settings that OP PORT gives a port. -/
def ptpOfPkt (x : PtpPort) (p : Packet) : PtpPort :=
  let slew := pf p 24 0 7
  let step := pf p 28 0 32
  let lock := pf p 32 0 32
  { x with engine := pf p 17 1 2, transport := pf p 17 4 2, p2p := pb p 17 6, tagged := pb p 17 7, profile := pf p 18 0 8, domain := pf p 19 0 8
           logDelay := toSigned 8 (pf p 20 0 8), hostQueue := pf p 21 0 4, vid := pf p 22 0 15, maxSlew := if slew = 0 then 100 else slew
           stepNs := if step = 0 then 1000 else step, lockNs := if lock = 0 then 100 else lock, extraIn := toSigned 32 (pf p 36 0 32)
           extraOut := toSigned 32 (pf p 40 0 32), asymmetry := toSigned 32 (pf p 44 0 32) }

/-- Step 8 checks of OP PORT. -/
def checkPtpPort (s : State) (h : Held) (_ : Cmd) : Option Fail :=
  let p := h.pkt
  let n := pf p 17 0 1
  let x := ptpOfPkt (getPtp s n) p
  let q := getQueue s x.hostQueue
  let e := getPort s n
  let profileBad := decide (3 < x.profile) || (x.profile == 0 && x.p2p) || ((x.profile == 1 || x.profile == 3) && !x.p2p) ||
    (x.profile == 3 && (x.transport != 2 || !x.tagged))
  let bad := pf p 16 0 2 != 0 ||
    !reservedZero p [(16, 0, 2), (17, 0, 8), (18, 0, 8), (19, 0, 8), (20, 0, 8), (21, 0, 4), (22, 0, 15), (24, 0, 7), (28, 0, 160)] ||
    x.engine == 3 || x.transport == 3 || profileBad || decide (x.logDelay < -7 ∨ 4 < x.logDelay) || decide (100 < x.maxSlew) ||
    decide (x.stepNs < x.lockNs) || (pb p 17 3 && x.engine == 0) ||
    (if x.engine = 2 then !q.enable || q.owner != 0 || q.port != n else x.hostQueue != 0)
  firstFail [
    (bad, failWith .badParam),
    (x.engine != 0 && ((x.transport == 0 && e.ip4 == 0) || (x.transport == 1 && e.ip6 == 0)), failWith .notReady)]

/-- OP PORT's effect: a change of what the port speaks restarts its servo. -/
def actPtpPort (s : State) (h : Held) (_ : Cmd) : State :=
  let p := h.pkt
  let n := pf p 17 0 1
  let o := getPtp s n
  let x := ptpOfPkt o p
  let restart := o.engine != x.engine || o.transport != x.transport || o.p2p != x.p2p || o.profile != x.profile || o.domain != x.domain ||
    o.tagged != x.tagged || o.vid != x.vid || o.hostQueue != x.hostQueue
  let s := modPtp s n fun _ => x
  let s := if pb p 17 3 then { s with ptp := { s.ptp with primary := n } } else s
  let s := if restart then
      setServo (modPtp s n fun x => { x with master := none, foreign := [], sync := none, t21 := none, req := none, resp := none, pathDelay := none })
        n (if x.engine = 0 then .disabled else .listening)
    else s
  let y := getPtp s n
  finishNow s h .ok [fAt 16 0 8 (servoCode y.servo), fAt 17 0 64 (y.master.getD 0 / 65536), fAt 25 0 32 (ofSigned 32 y.lastOffset),
    fAt 29 0 16 (min 65535 ((y.pathDelay.getD 0) / nsUnit).toNat), fAt 31 0 8 y.utcOffset]

/-- PTP_PORT_SET with OP PORT (0x705). -/
def execPtpPortSetPort (c : Cmd) (s : State) : Host.Outcome State Fault Refusal :=
  .next (runPacket s c 0x705 (fun h => pf h.pkt 16 0 2 != 1) checkPtpPort actPtpPort)

/-- An event input. -/
def getEvt (s : State) (i : Nat) : EvtIn := tget {} s.ptp.events i
/-- Change an event input. -/
def modEvt (s : State) (i : Nat) (f : EvtIn → EvtIn) : State := { s with ptp := { s.ptp with events := tmod {} s.ptp.events i f } }

/-- A slice that may be named as an owner: neither FREE nor DRAINING. -/
def ownerReady (s : State) (i : Nat) : Bool := (getSlice s i).state != .free && (getSlice s i).state != .draining

/-- Step 8 checks of OP EVENT. -/
def checkPtpEvent (s : State) (h : Held) (_ : Cmd) : Option Fail :=
  let p := h.pkt
  firstFail [
    (!reservedZero p [(16, 0, 2), (17, 0, 7), (18, 0, 7)] || pf p 17 4 2 == 3 || decide (64 < pf p 18 0 7), failWith .badParam),
    (!ownerReady s (pf p 18 0 7), failWith .notReady)]

/-- OP EVENT's effect: changed settings empty the FIFO. -/
def actPtpEvent (s : State) (h : Held) (_ : Cmd) : State :=
  let p := h.pkt
  let i := pf p 17 0 3
  let o := getEvt s i
  let x := { o with enable := pb p 17 3, edge := pf p 17 4 2, notify := pb p 17 6, owner := pf p 18 0 7 }
  let n := if x = o then 0 else o.fifo.length
  finishNow (modEvt s i fun _ => if x = o then o else { x with fifo := [] }) h .ok [fAt 16 0 16 n]

/-- PTP_PORT_SET with OP EVENT (0x705). -/
def execPtpPortSetEvent (c : Cmd) (s : State) : Host.Outcome State Fault Refusal :=
  .next (runPacket s c 0x705 (fun h => pf h.pkt 16 0 2 == 1) checkPtpEvent actPtpEvent)

/-! Event stamps (R322 to R325). -/

/-- The 32-byte stamp record. -/
def evtBits (i : Nat) (r : EvtRec) : Nat :=
  packFields [(0, 16, 0x0704), fAt 2 0 3 i, fAt 2 3 1 r.falling.toNat, fAt 2 4 1 r.locked.toNat, fAt 2 5 1 r.set.toNat, fAt 3 0 8 r.epoch,
    fAt 4 0 32 r.seq, fAt 8 0 64 (wpBits r.wp), fAt 16 0 48 r.ptp.sec, fAt 22 0 1 r.primary, fAt 23 0 8 r.coalesced, fAt 24 0 30 r.ptp.ns,
    fAt 28 0 16 r.lost]

/-- Ticks that a number of nanoseconds spans, rounded down. -/
def ticksOfNs (s : State) (ns : Nat) : Nat := ns * s.time.timing.rateNum * s.time.timing.lines * 65536 / (s.time.timing.rateDen * 1000000000)

/-- EVENT_INPUT_EDGE: an edge leaves the glitch filter and is stamped 50 ns earlier; edges less than 100 ns apart are one (R322 to R324). -/
def execEventInputEdge (input : Nat) (rising : Bool) (s : State) : Host.Outcome State Fault Refusal :=
  .next (
    let x := getEvt s input
    let close := match x.lastEdge with
      | some w => !passed s w 100
      | none => false
    if !decide (input < 8) || !x.enable || (x.edge == 0 && !rising) || (x.edge == 1 && rising) || close then s
    else
      let w := addTicks (wallLines s) (now s) (-(ticksOfNs s 50 : Int))
      let p := s.ptp.primary
      let t := clockUnits s p (now s) - 50 * nsUnit
      let line := lineOf (now s)
      let post_ := x.notify && x.lastLine != some line
      let full := 64 ≤ x.fifo.length
      let r : EvtRec := { falling := !rising, locked := (getPtp s p).servo == .locked, set := !(getClock s p).notSet, epoch := (getClock s p).epoch
                          seq := (x.seq + 1) % 2 ^ 32, wp := w, ptp := ptpOf t, primary := p, coalesced := x.coalesced, lost := x.lost }
      let s := modEvt s input fun x => { x with
        lastEdge := some (upTime s), seq := (x.seq + 1) % 2 ^ 32, fifo := if full then x.fifo else x.fifo ++ [r]
        lost := if full then satAdd 16 x.lost 1 else 0
        coalesced := if post_ || !x.notify then 0 else satAdd 8 x.coalesced 1
        lastLine := if post_ then some line else x.lastLine }
      if post_ then postEvent s 0 (evtBits input r) else s)

/-- Step 8 checks of EVENT_STAMP_READ. -/
def checkStampRead (s : State) (h : Held) (_ : Cmd) : Option Fail :=
  let p := h.pkt
  let x := getEvt s (pf p 16 0 3)
  firstFail [
    (!reservedZero p [(16, 0, 3), (17, 0, 7), (24, 0, 64)] || !inRange (pf p 17 0 7) 1 64 || pf p 24 0 64 % 32 != 0, failWith .badParam),
    (h.slice != 0 && x.owner != h.slice, failWith .notPermitted),
    (!x.enable, failWith .notReady)]

/-- EVENT_STAMP_READ's effect: the oldest records are written, and removed when the write is allowed (R325). -/
def actStampRead (s : State) (h : Held) (c : Cmd) : State :=
  let p := h.pkt
  let i := pf p 16 0 3
  let x := getEvt s i
  let l := x.fifo.take (pf p 17 0 7)
  let newest := match l.getLast? with | some r => wpBits r.wp | none => 0
  if l.isEmpty then finishNow s h .ok []
  else match destWrite s h.slice engLock (destSpace s) c.ok (pf p 24 0 64) (l.flatMap fun r => bytesLE 32 (evtBits i r)) with
    | (s, true) =>
      finishNow (modEvt s i fun x => { x with fifo := x.fifo.drop l.length }) h .ok
        [fAt 16 0 8 l.length, fAt 17 0 8 (x.fifo.length - l.length), fAt 24 0 64 newest]
    | (s, false) => finishNow s h .weirDenied []

/-- EVENT_STAMP_READ (0x706). -/
def execEventStampRead (c : Cmd) (s : State) : Host.Outcome State Fault Refusal :=
  .next (runPacket s c 0x706 (fun _ => true) checkStampRead actStampRead)

end Sys2Proof.Machine
end

