-- ==== Sys2Proof/Machine/Toden.lean ====
section
/-! DEFINITION. Toden ports: training, HELLO, the tree, addresses, joins, routes, and the timing lane (R326 to R344, R350, R353). -/
namespace Sys2Proof.Machine
open Sys2Proof

/-- Codes of the timing lane's symbols (R332): K28.1, K27.7, K29.7, K30.7, K23.7. -/
abbrev symLine : Nat := 0x3C
/-- K27.7. -/
abbrev symFrame : Nat := 0xFB
/-- K29.7. -/
abbrev symEpoch : Nat := 0xFD
/-- K30.7. -/
abbrev symRequest : Nat := 0xFE
/-- K23.7. -/
abbrev symResponse : Nat := 0xF7

/-- State codes of R327. -/
def todCode : TodState → Nat
  | .disabled => 0 | .down => 1 | .training => 2 | .forwarding => 3 | .blocked => 4

/-- The cable delay in use, ps: the mean of the last 16 measurements (R334). -/
def cablePs (x : TodPort) : Nat := if x.cable.isEmpty then 0 else x.cable.foldl (· + ·) 0 / x.cable.length

/-- The device's own ID. -/
def ownId : Nat := Config.deviceId.toNat

/-- The port that this device's WP follows: the one it joins over, otherwise its root port. -/
def upPort (s : State) : Option Nat := match s.fabric.joining with
  | some p => some p
  | none => s.fabric.rootPort

/-- The partner's data of a port. -/
def partner (s : State) (p : Nat) : Hello := (getTod s p).partner.getD {}

/-- The size of this device's fabric (R337): a member reports what its root port's partner does. -/
def todSize (s : State) : Nat :=
  if !onFabric s then 1
  else match s.fabric.rootPort with
    | some p => max 2 (partner s p).size
    | none => 1 + (distinct ((forwarding s).flatMap fun p => (getTod s p).below.map TreeDev.id)).length

/-- A port changes state: EV_PORT_STATE (R353), and GPIO11 FABRIC (R465). -/
def todEnter (s : State) (p : Nat) (t : TodState) (cause phase : Nat) : State :=
  let x := getTod s p
  if x.state = t then s
  else
    let was := (forwarding s).isEmpty
    let s := modTod s p fun x => { x with state := t }
    let s := post s 0 0x0801 [fAt 2 0 2 p, fAt 3 0 4 (todCode t), fAt 3 4 4 (todCode x.state), fAt 4 0 8 cause, fAt 5 0 2 phase, fAt 6 0 16 x.retries,
      fAt 16 0 64 (x.partner.getD {}).id, fAt 24 0 32 (cablePs x)]
    if (forwarding s).isEmpty = was then s else emit s (.pin 75 was)

/-! Addresses (R339). -/

/-- Insert by a key, keeping order. -/
def insertKey {α : Type} (k : α → Nat) (x : α) : List α → List α
  | [] => [x]
  | y :: r => if k x ≤ k y then x :: y :: r else y :: insertKey k x r

/-- Sort by a key. -/
def sortKey {α : Type} (k : α → Nat) (l : List α) : List α := l.foldr (insertKey k) []

/-- Addresses of the devices of one hop count, after those known: by the parent's address, then the parent's port. -/
def assignLevel (known : List (Nat × Nat)) (l : List TreeDev) : List (Nat × Nat) :=
  (sortKey (fun d => ((assoc known d.parent).getD 0) * 4 + d.port) l).foldl (fun k d =>
    if (assoc k d.id).isSome || 4094 ≤ k.length then k else k ++ [(d.id, k.length + 1)]) known

/-- Addresses level by level. -/
def assignFrom : Nat → Nat → List TreeDev → List (Nat × Nat) → List (Nat × Nat)
  | 0, _, _, known => known
  | n + 1, level, devs, known => assignFrom n (level + 1) devs (assignLevel known (devs.filter fun d => d.hops == level))

/-- Devices that FORWARDING ports reach. -/
def treeDevs (s : State) : List TreeDev := (forwarding s).flatMap fun p => (getTod s p).below

/-- The root assigns addresses breadth first and sends each one that differs (R339). -/
def assignAddresses (s : State) : State :=
  let devs := treeDevs s
  let known := assignFrom (min 4094 devs.length) 1 devs [(ownId, 1)]
  let s := { s with fabric := { s.fabric with addr := 1 } }
  let s := forEach (devs.filter fun d => (assoc known d.id).getD 0 != d.addr) (fun d s => sendControl s 4095 (ctlAddress d.id ((assoc known d.id).getD 0))) s
  forEach (List.range 4) (fun p s => modTod s p fun x => { x with below := x.below.map fun d => { d with addr := (assoc known d.id).getD d.addr } }) s

/-! Routes and reservations (R344, R350). -/

/-- Runs of neighbouring addresses on one port: low, high, port. -/
def mergeRuns : List (Nat × Nat) → List (Nat × Nat × Nat)
  | [] => []
  | (a, p) :: r => match mergeRuns r with
    | (lo, hi, q) :: t => if q = p ∧ lo = a + 1 then (a, hi, p) :: t else (a, a, p) :: (lo, hi, q) :: t
    | [] => [(a, a, p)]

/-- Entries 512 to 1,023, from the tree. -/
def autoRoutes (s : State) : List (Nat × Route) :=
  let l := (forwarding s).flatMap fun p => (getTod s p).below.filterMap fun d => if d.addr = 0 ∨ d.addr = s.fabric.addr then none else some (d.addr, p)
  let runs := mergeRuns (sortKey (fun e => e.1 * 4 + e.2) l)
  let own := if s.fabric.addr = 0 then [] else [(s.fabric.addr, s.fabric.addr, 15)]
  ((own ++ runs).take 512).zipIdx.map fun e => (512 + e.2, { low := e.1.1, high := e.1.2.1, port := e.1.2.2, enable := true })

/-- MB/s reserved on the transmit direction of a port. -/
def reservedOn (s : State) (p : Nat) : Nat :=
  s.fabric.exports.foldl (fun n e => if e.2.used && !e.2.suspended && (portsFor s e.2.dest none).contains p then n + e.2.mbps else n) 0

/-- The first port of an export's route whose reservation would pass 12,000 MB/s (R329). -/
def fullPort (s : State) (dest mbps : Nat) : Option Nat := (portsFor s dest none).find? fun p => decide (12000 < reservedOn s p + mbps)

/-- Reservations are made again in order of export ID; how many exports were suspended (R350). -/
def reserveAll (s : State) : State × Nat :=
  let ids := s.fabric.exports.map Prod.fst
  let was := ids.filter fun n => (getExport s n).suspended
  let s := forEach ids (fun n s => modExport s n fun e => { e with suspended := true }) s
  let s := forEach ids (fun n s =>
    let e := getExport s n
    if (portsFor s e.dest none).isEmpty || (fullPort s e.dest e.mbps).isSome then endExportPass s n
    else modExport s n fun e => { e with suspended := false }) s
  (s, (ids.filter fun n => (getExport s n).suspended && !was.contains n).length)

/-- EV_ROUTES_CHANGED (R353). -/
def postRoutes (s : State) (cause suspended : Nat) : State :=
  post s 0 0x0802 [fAt 2 0 12 s.fabric.addr, fAt 4 0 8 cause, fAt 5 0 8 (s.fabric.rootPort.getD 0xFF), fAt 6 0 16 suspended, fAt 16 0 64 s.fabric.rootId]

/-- An address can be reached: a broadcast on any fabric, an address by a route to a port (R344). -/
def reachable (s : State) (dest : Nat) : Bool :=
  if dest = 4095 then onFabric s else match routeOf s dest with
    | some p => decide (p < 4)
    | none => false

/-- The remote manager's address is out of reach from now on, or within reach (R352). -/
def noteClaim (s : State) : State :=
  match s.regs.claim with
  | none => s
  | some a =>
    let t := if reachable s a then none else some (s.regs.lostAt.getD (upTime s))
    { s with regs := { s.regs with lostAt := t } }

/-! The tree (R338). -/

/-- A port whose partner offers a way to the root. -/
def offers (s : State) (p : Nat) : Bool :=
  let x := getTod s p
  todUp x && x.same && x.partner.isSome && !(partner s p).rootPort && decide ((partner s p).hops + 1 ≤ 4093)

/-- A port is a better way to the root than another: fewer hops, then the neighbour with the lower ID, then the lower number (R338). -/
def betterPort (s : State) (a b : Nat) : Bool :=
  let x := partner s a
  let y := partner s b
  decide (x.hops < y.hops) || (x.hops == y.hops && (decide (x.id < y.id) || (x.id == y.id && decide (a < b))))

/-- The root choice: root, root port, hops. -/
def chooseRoot (s : State) : Nat × Option Nat × Nat :=
  let l := (List.range 4).filter (offers s)
  let root := l.foldl (fun r p => min r (partner s p).root) ownId
  if root = ownId then (ownId, none, 0)
  else
    let best := (l.filter fun p => (partner s p).root == root).foldl (fun b p => match b with
      | none => some p
      | some q => if betterPort s p q then some p else some q) none
    (root, best, match best with | some p => (partner s p).hops + 1 | none => 0)

/-- A trained port's state on the tree: a link that either end has as its root port forwards (R338). -/
def onTree (s : State) (p : Nat) : Bool :=
  upPort s == some p || ((getTod s p).same && (partner s p).rootPort)

/-- The tree, addresses, routes and reservations are worked out again after a change, with EV_ROUTES_CHANGED when something changed (R338, R339, R344, R350). -/
def retree (s : State) (cause : Nat) : State :=
  let old := s.fabric
  let s := if s.fabric.joining.isSome then s
    else
      let (root, port, hops) := chooseRoot s
      { s with fabric := { s.fabric with rootId := root, rootPort := port, hops } }
  let s := forEach ((List.range 4).filter fun p => todUp (getTod s p)) (fun p s => todEnter s p (if onTree s p then .forwarding else .blocked) 6 0) s
  let s := if !onFabric s then { s with fabric := { s.fabric with addr := 0 } }
    else if s.fabric.rootPort.isNone && s.fabric.joining.isNone then assignAddresses s else s
  let s := { s with fabric := { s.fabric with routes := s.fabric.routes.filter (fun e => decide (e.1 < 512)) ++ autoRoutes s } }
  let s := noteClaim s
  let routed := old.routes != s.fabric.routes
  let (s, n) := if routed then reserveAll s else (s, 0)
  let s := if routed || old.addr != s.fabric.addr || old.rootId != s.fabric.rootId || old.rootPort != s.fabric.rootPort || cause == 5 then
      postRoutes s (if old.rootId != s.fabric.rootId && cause != 5 then 2 else cause) n else s
  reselect s (match s.head.selected with
    | some (.toden p) => if todUp (getTod s p) then 3 else 1
    | _ => 3)

/-! Ports going down and training (R343). -/

/-- What a port holds of its link is lost. -/
def clearLink (x : TodPort) : TodPort :=
  { x with partner := none, same := false, below := [], cable := [], pathDelay := 0, markAt := none, epochFrame := 0, good := 0, disagree := 0
           credits := [], replay := [], txSeq0 := 0, txSeq2 := 0, rxSeq0 := none, rxSeq2 := none
           tx := [{}, {}, {}, {}], txBlocks := 0, rx := [{}, {}, {}, {}], rxLane := 0, asm := none }

/-- The link of a port ends. -/
def dropLink (s : State) (p : Nat) : State :=
  let s := modTod (endScans (endScans s (8 + 4 * p) 4) (24 + p) 1) p clearLink
  let s := { s with fabric := { s.fabric with
    joining := if s.fabric.joining = some p then none else s.fabric.joining
    joinBase := if s.fabric.joining = some p then none else s.fabric.joinBase
    took := s.fabric.took && s.fabric.joining != some p
    jumpPort := if s.fabric.jumpPort = some p then none else s.fabric.jumpPort } }
  retree (loseInput s (4 + p)) 1

/-- A port goes DOWN for a cause; it trains again after its back-off unless its cable is looped back. -/
def todDown (s : State) (p cause phase : Nat) : State :=
  let s := todEnter s p .down cause phase
  dropLink (modTod s p fun x => { x with backing := cause != 5, backAt := upTime s }) p

/-- A port begins to train at phase 1 with its back-off reset (R363). -/
def todTrain (s : State) (p cause : Nat) : State :=
  modTod (todEnter s p .training cause 0) p fun x => { x with phase := 1, phaseAt := upTime s, series := 0, backoffMs := 100, backing := false }

/-- TODEN_TRAINING_PHASE_COMPLETE: the next phase, or after a HELLO and a delay measurement the port is trained (R343). -/
def execTodenTrainingPhaseComplete (port : Nat) (s : State) : Host.Outcome State Fault Refusal :=
  .next (
    let x := getTod s port
    if !decide (port < 4) || x.state != .training then s
    else if x.phase < 3 then modTod s port fun x => { x with phase := x.phase + 1, phaseAt := upTime s, helloAt := none, measureAt := none }
    else if x.partner.isNone || x.cable.isEmpty then s
    else
      let s := todEnter s port .blocked 1 0
      let s := modTod s port fun x => { x with phase := 0, series := 0, retries := 0, backoffMs := 100, heardAt := upTime s }
      retree s 1)

/-- TODEN_PHASE_TIMEOUT: a phase has lasted 2 ms; up to three retries from phase 1, then DOWN with a back-off (R343). -/
def execTodenPhaseTimeout (port : Nat) (s : State) : Host.Outcome State Fault Refusal :=
  .next (
    let x := getTod s port
    if !decide (port < 4) || x.state != .training || !passed s x.phaseAt 2000000 then s
    else if x.series < 3 then
      modTod s port fun x => { x with phase := 1, phaseAt := upTime s, series := x.series + 1, retries := satAdd 16 x.retries 1, partner := none, below := [], cable := [] }
    else todDown s port 2 x.phase)

/-- TODEN_BACKOFF_EXPIRY: the port trains again, and its next back-off is twice as long, at most 1 s (R343). -/
def execTodenBackoffExpiry (port : Nat) (s : State) : Host.Outcome State Fault Refusal :=
  .next (
    let x := getTod s port
    if !decide (port < 4) || x.state != .down || !x.backing || !passed s x.backAt (x.backoffMs * 1000000) then s
    else modTod (todEnter s port .training 2 0) port fun x => { x with
      phase := 1, phaseAt := upTime s, series := 0, retries := satAdd 16 x.retries 1, backing := false, backoffMs := min 1000 (2 * x.backoffMs) })

/-- TODEN_HELLO_SILENCE: no HELLO for 1 ms (R343). -/
def execTodenHelloSilence (port : Nat) (s : State) : Host.Outcome State Fault Refusal :=
  .next (if port < 4 && todUp (getTod s port) && passed s (getTod s port).heardAt 1000000 then todDown s port 4 0 else s)

/-- TODEN_LOCK_LOSS: data lane 0 to 3 loses block lock, or the timing lane, 4, is out of symbol lock for 10 symbols; the receiver counts it (R343, R355). -/
def execTodenLockLoss (lane : TodenLane) (s : State) : Host.Outcome State Fault Refusal :=
  let entry := if lane.lane < 4 then 8 + 4 * lane.port + lane.lane else 24 + lane.port
  .next (if lane.port < 4 && todUp (getTod s lane.port) then todDown (bump s 5 entry 4 1) lane.port 3 0 else s)

/-! HELLO and joins (R337, R340). -/

/-- The HELLO payload of a port (R337). -/
def helloBytes (s : State) (p : Nat) : List Byte :=
  bytesLE 32 (packFields [fAt 0 0 64 ownId, fAt 8 0 64 s.fabric.rootId, fAt 16 0 16 s.fabric.hops, fAt 18 0 16 s.fabric.addr,
    fAt 20 0 32 s.time.timing.wallId, fAt 24 0 16 (todSize s), fAt 26 0 1 s.regs.headless.toNat, fAt 26 1 1 (upPort s == some p).toNat,
    fAt 28 0 32 s.fabric.runS])

/-- What a HELLO payload says. -/
def helloOf (l : List Byte) : Hello :=
  { id := leAt l 0 8, root := leAt l 8 8, hops := leAt l 16 2, addr := leAt l 18 2, wallId := leAt l 20 4, size := leAt l 24 2
    headless := bitAt (byteAt l 26) 0, rootPort := bitAt (byteAt l 26) 1, runS := leAt l 28 4 }

/-- A time between two sendings of a port has passed since the last one. -/
def dueAgain (s : State) (last : Option Nat) (ns : Nat) : Bool := match last with
  | none => true
  | some t => passed s t ns

/-- TODEN_HELLO_SEND: an UP port sends a HELLO every 100 µs; one in phase 3 exchanges its first (R337, R343). -/
def execTodenHelloSend (port : Nat) (s : State) : Host.Outcome State Fault Refusal :=
  .next (
    let x := getTod s port
    if port < 4 && (todUp x || (x.state == .training && x.phase == 3)) && dueAgain s x.helloAt 100000 then
      sendPkt (modTod s port fun x => { x with helloAt := some (upTime s) }) port { dest := 4095, src := s.fabric.addr, kind := 1, payload := helloBytes s port }
    else s)

/-- A packet received on a Toden port gives a result to every Gauge unit that watches it; a LOST line's data is 0 bytes (R381, R382). -/
def gaugePkt (s : State) (port : Nat) (q : Pkt) : State :=
  forEach (List.range 8) (fun u s =>
    let g := tget {} s.gauge.units u
    let fold := bytesLE 2 q.src ++ bytesLE 2 q.exportId ++ bytesLE 2 q.frameSeq ++ bytesLE 2 (q.line % 65536)
    if g.enable && g.kind == 2 && g.port == port && (g.anyExport || (q.kind == 5 && q.exportId == g.exportId)) then
      gaugeResult s u 2 0 (q.src + q.exportId * 65536) (q.frameSeq + q.line % 65536 * 65536) 0 q.lost fold (if q.lost then [] else q.payload)
    else s) s

/-- The bits of the data lanes arrive at a port: the LANE counters of its receivers, and the packet that ends in them; none when there is no end or its packet is discarded for a block error (R328, R331, R355, R356). -/
def takeLanes (s : State) (port : Nat) (bits : List (List Bool)) : State × Option (List Byte) :=
  let (x, errs, r) := takePacket (getTod s port) bits
  let s := modTod s port fun _ => x
  let s := forEach (List.range 4) (fun n s =>
    let e := errs.getD n (0, 0)
    bump (bump s 5 (8 + 4 * port + n) 2 e.2) 5 (8 + 4 * port + n) 3 e.1) s
  match r with
  | none => (s, none)
  | some none => (modTod s port fun x => { x with errors := satAdd 32 x.errors 1 }, none)
  | some (some l) => (s, some l)

/-- A packet arrives on a port that carries packets: its check, and on VC 0 and 2 its place in the replay sequence, each taken once and in order and acknowledged; one out of order has the newest acknowledged again (R330, R331). -/
def takePkt (s : State) (port kind : Nat) (bits : List (List Bool)) : State × Option Pkt :=
  let x := getTod s port
  if !decide (port < 4) || !(todUp x || (x.state == .training && x.phase == 3)) then (s, none)
  else match takeLanes s port bits with
  | (s, none) => (s, none)
  | (s, some l) => match parsePkt l with
    | none => (modTod s port fun x => { x with errors := satAdd 32 x.errors 1 }, none)
    | some q =>
      if q.kind != kind then (s, none)
      else if q.vc = 1 then (gaugePkt s port q, some { q with hops := (q.hops + 1) % 256 })
      else
        let last := if q.vc = 0 then x.rxSeq0 else x.rxSeq2
        if last.isSome && last != some ((q.seq + 65535) % 65536) then
          (sendCtlBlock s port 0x66 (BitVec.ofNat 8 q.vc :: bytesLE 2 (last.getD 0)), none)
        else
          let s := modTod s port fun x => if q.vc = 0 then { x with rxSeq0 := some q.seq } else { x with rxSeq2 := some q.seq }
          (gaugePkt (sendCtlBlock s port 0x66 (BitVec.ofNat 8 q.vc :: bytesLE 2 q.seq)) port q, some { q with hops := (q.hops + 1) % 256 })

/-- A packet that waits is acknowledged by the newest of its virtual channel that the partner has. -/
def acked (acks : List Nat) (e : Nat × Nat × List Byte) : Bool :=
  match acks[if e.1 = 0 then 0 else 1]? with
  | some a => decide ((a + 65536 - e.2.1) % 65536 < 32768)
  | none => false

/-- The packets of a virtual channel that are sent again: all that wait, when an acknowledgement of the channel acknowledges none of them (R330, log entry 58). -/
def replayed (acks : List Nat) (l : List (Nat × Nat × List Byte)) (vc : Nat) : List (List Byte) :=
  let l := l.filter fun e => e.1 == vc
  if acks[if vc = 0 then 0 else 1]?.isSome && !l.any (acked acks) then l.map fun e => e.2.2 else []

/-- CREDIT_BLOCK_RECEIVED: the receive credits of the partner, and the newest packets of VC 0 and VC 2 that it acknowledges; a channel of which it acknowledges nothing new is replayed (R328, R330). -/
def execCreditBlockReceived (port : Nat) (credits acks : List Nat) (s : State) : Host.Outcome State Fault Refusal :=
  .next (
    if port < 4 && todUp (getTod s port) then
      let l := (getTod s port).replay
      let s := modTod s port fun x => { x with credits, replay := x.replay.filter fun e => !acked acks e }
      forEach (replayed acks l 0 ++ replayed acks l 2) (fun b s => resend s port b) s
    else s)

/-- The message by which the kept side gives a joining device its timing, base frame and wall identifier (R340). -/
def ctlJoin (s : State) : List Byte := (6 : Byte) :: (ctlTiming s.time.timing 0 s.io.audio.baseFrame).drop 1

/-- This device's side loses a join against a partner's (R340). -/
def joinLoses (s : State) (q : Hello) : Bool :=
  let n := todSize s
  if 2 ≤ n ∧ 2 ≤ q.size then decide (q.root < s.fabric.rootId)
  else if 2 ≤ q.size then true
  else if 2 ≤ n then false
  else decide (s.fabric.runS < q.runS) || (s.fabric.runS == q.runS && decide (q.id < ownId))

/-- Two fabrics meet on a port (R340). -/
def joinStep (s : State) (p : Nat) (q : Hello) : State :=
  let f := s.fabric
  if (getTod s p).same then s
  else if f.joining != some p && q.root == f.rootId then modTod s p fun x => { x with same := true }
  else if f.joining != some p && q.rootPort then
    sendPkt (modTod s p fun x => { x with same := true }) p { dest := 4095, src := f.addr, kind := 2, payload := ctlJoin s }
  else if f.joining.isSome && f.joining != some p then s
  else if f.took then s
  else if joinLoses s q then
    if f.joining = some p then s
    else modTod { s with fabric := { f with joining := some p, joinBase := none, took := false } } p fun x => { x with good := 0 }
  else { s with fabric := { f with joining := none, joinBase := none } }

/-- TODEN_HELLO_RECEIVED: the partner's data, with the devices that the port reaches as the fabric reports them; joins and the tree are reconsidered, and a looped-back port goes DOWN (R326, R337 to R340). -/
def execTodenHelloReceived (port : Nat) (bits : List (List Bool)) (below : List TreeDev) (s : State) : Host.Outcome State Fault Refusal :=
  .next (
    match takePkt s port 1 bits with
    | (s, none) => s
    | (s, some q) =>
      let h := helloOf q.payload
      if h.id = ownId then todDown s port 5 0
      else
        let s := modTod s port fun x => { x with partner := some h, below, heardAt := upTime s }
        if todUp (getTod s port) then retree (joinStep s port h) 1 else s)

/-! CONTROL messages (R339, R340, R342). -/

/-- The timing in a CONTROL payload. -/
def timingOfCtl (l : List Byte) : WallTiming :=
  let b := byteAt l 1
  { lines := leAt l 2 2, rateNum := leAt l 4 4, rateDen := leAt l 8 2, spread := bitAt b 0, wallId := leAt l 12 4
    anchor := if bitAt b 1 then some ⟨leAt l 42 6, leAt l 48 4⟩ else none }

/-- A CONTROL message takes effect on a device that is not the root. -/
def takeControl (s : State) (p : Nat) (l : List Byte) : State :=
  let k := byteAt l 0
  let pend (s : State) (f : Nat) : State := { s with time := { s.time with pendTiming := s.time.pendTiming ++ [(timingOfCtl l, f, none)] } }
  let frame := leAt l 24 4
  let realign (slew : Bool) : State := { s with time := { s.time with
    realign := s.time.realign ++ [{ slew, delta := toSigned 64 (leAt l 32 8), rate := leAt l 40 2, frame }] } }
  if k = 1 then
    if leAt l 16 8 = ownId ∧ s.fabric.addr ≠ leAt l 2 2 then
      let s := { s with fabric := { s.fabric with addr := leAt l 2 2 } }
      let s := { s with fabric := { s.fabric with routes := s.fabric.routes.filter (fun e => decide (e.1 < 512)) ++ autoRoutes s } }
      let (s, n) := reserveAll (noteClaim s)
      postRoutes s 1 n
    else s
  else if k = 2 then pend s frame
  else if k = 3 then realign false
  else if k = 4 then realign true
  else if k = 5 then endSlew s .notReady (slewLeft s)
  else if k = 6 then
    let b := boundaryAfter (now s)
    modTod (pend { s with fabric := { s.fabric with joining := some p, joinBase := some (leAt l 28 4), took := false } } b) p fun x => { x with good := 0 }
  else s

/-- CONTROL_MESSAGE: taken and passed on (R342). -/
def execControlMessage (port : Nat) (bits : List (List Bool)) (s : State) : Host.Outcome State Fault Refusal :=
  .next (
    match takePkt s port 2 bits with
    | (s, none) => s
    | (s, some q) =>
      if !todUp (getTod s port) then s
      else
        let s := if q.dest = 4095 ∨ routeOf s q.dest ≠ some 15 then routePkt s (some port) q else s
        if upPort s == some port && isLocal s q.dest then takeControl s port q.payload else s)

/-! The timing lane (R332 to R336, R341). -/

/-- A mark and its FINE, whose value the symbol phase gives (R333). -/
def sendMark (s : State) (p : Nat) (frameMark : Bool) : State :=
  let (v, s) := freshValue s
  emit s (.toden p (if frameMark then symFrame else symLine) [BitVec.ofNat 8 (v.toNat % 64)])

/-- An epoch's 8 bytes (R333). -/
def epochBytes (frame path : Nat) : List Byte :=
  let l := bytesLE 4 frame ++ bytesLE 3 path
  l ++ [BitVec.ofNat 8 (crcFwd 8 0x07 0xFF l)]

/-- A line start of the root, or of a device that another joins: the mark on every FORWARDING port, and the epoch after a frame mark (R335). -/
def rootMarks (s : State) : State :=
  if (upPort s).isSome then s
  else
    let first := (now s).line = 0
    forEach (forwarding s) (fun p s =>
      let s := sendMark s p first
      if first then emit s (.toden p symEpoch (epochBytes (now s).frame 0)) else s) s

/-- Ports that carry marks onward from the port that this device follows. -/
def markPorts (s : State) (port : Nat) : List Nat := (forwarding s).filter fun p => p != port

/-- A phase whose place within a line is known, nearest to the phase before. -/
def nearPhase (old : Int) (t : Nat) : Int :=
  let d := (-(t : Int) - old) % 65536
  old + (if 32768 < d then d - 65536 else d)

/-- The root's line start of a mark that arrives `sub` ps into the current tick: the arrival less FINE (31.25 ps units), the last good PATH_DELAY (1/16 ns) and the port's cable delay (R58, R333, R336). -/
def markStart (s : State) (x : TodPort) (fine sub : Nat) : Wp :=
  let t := s.time.timing
  let quarter : Int := ((4 * sub : Nat) : Int) - ((125 * fine + 250 * x.pathDelay + 4 * cablePs x : Nat) : Int)
  addTicks (wallLines s) (now s) (quarter * ((t.rateNum * t.lines * 65536 : Nat) : Int) / ((4 * t.rateDen * 10 ^ 12 : Nat) : Int))

/-- TODEN_MARK_RECEIVED: a mark and its FINE arrive; the lane's phase follows the root's line start, and the mark goes on 4.8 ns after the received line start (R335, R336). -/
def execTodenMarkReceived (port : Nat) (frameMark : Bool) (arrival : MarkPhase) (s : State) : Host.Outcome State Fault Refusal :=
  .next (
    if !decide (port < 4) || (getTod s port).state != .forwarding || upPort s != some port then s
    else
      let at_ := markStart s (getTod s port) arrival.fine arrival.sub
      let s := modLane s port fun e => { e with measured := true, phase := nearPhase e.phase at_.tick }
      let s := if frameMark then modTod s port fun x => { x with markAt := some at_ } else s
      forEach (markPorts s port) (fun p s => sendMark s p frameMark) s)

/-- PATH_DELAY sent onward: plus the cable delay and 4.8 ns, to the nearest 1/16 ns (R335). -/
def onwardPath (path cable : Nat) : Nat := (path + ((cable + 4800) * 16 + 500) / 1000) % 2 ^ 24

/-- TODEN_EPOCH_RECEIVED: FRAME and PATH_DELAY of the mark before; two good epochs after the joined side's timing was taken, or two whose frame is not the own WP's, lead to a jump at the next wall frame boundary (R333, R340, R341). -/
def execTodenEpochReceived (port : Nat) (epoch : List Byte) (s : State) : Host.Outcome State Fault Refusal :=
  .next (
    let x := getTod s port
    let l := epoch.take 7
    if !decide (port < 4) || x.state != .forwarding || upPort s != some port || byteAt epoch 7 != crcFwd 8 0x07 0xFF l then s
    else
      let f := leAt l 0 4
      let path := leAt l 4 3
      let s := modTod s port fun x => { x with pathDelay := path, epochFrame := f }
      let s := match x.markAt with
        | none => s
        | some m =>
          let d := tickDelta (wallLines s) m ⟨f, 0, 0⟩
          let s := modLane s port fun e => { e with phase := d }
          if s.fabric.joining = some port then
            if s.fabric.took then
              let s := modTod s port fun x => { x with good := x.good + 1 }
              if 1 ≤ x.good then { s with fabric := { s.fabric with jumpPort := some port } } else s
            else s
          else if (frameTicks s : Int) < 2 * (d.natAbs : Int) then
            let s := modTod s port fun x => { x with disagree := x.disagree + 1 }
            if 1 ≤ x.disagree then { s with fabric := { s.fabric with jumpPort := some port } } else s
          else modTod s port fun x => { x with disagree := 0 }
      forEach (markPorts s port) (fun p s => emit s (.toden p symEpoch (epochBytes f (onwardPath path (cablePs x))))) s)

/-- A link in phase 3 or trained measures its delay (R334, R343). -/
def measures (x : TodPort) : Bool := todUp x || (x.state == .training && x.phase == 3)

/-- DELAY_MEASURE_SEND: K30.7 every 62.5 ms (R334). -/
def execDelayMeasureSend (port : Nat) (s : State) : Host.Outcome State Fault Refusal :=
  .next (if port < 4 && measures (getTod s port) && dueAgain s (getTod s port).measureAt 62500000 then
    emit (modTod s port fun x => { x with measureAt := some (upTime s) }) (.toden port symRequest []) else s)

/-- DELAY_MEASURE_REQUEST: answered with K23.7 exactly 64 symbols later (R334). -/
def execDelayMeasureRequest (port : Nat) (s : State) : Host.Outcome State Fault Refusal :=
  .next (if port < 4 && measures (getTod s port) then emit s (.toden port symResponse []) else s)

/-- DELAY_MEASURE_RESPONSE: the round trip in units of 1/64 symbol gives d = (round trip - 128 ns) / 2; the newest 16 are kept (R334). -/
def execDelayMeasureResponse (port roundTrip : Nat) (s : State) : Host.Outcome State Fault Refusal :=
  .next (if port < 4 && measures (getTod s port) then
    modTod s port fun x => { x with cable := ((roundTrip * 125 - 512000) / 8 :: x.cable).take 16 } else s)

/-! FABRIC_STATUS and FABRIC_ROUTE_SET. -/

/-- The 128-byte record of FABRIC_STATUS. -/
def fabricRecord (s : State) : List Byte :=
  let path := match s.fabric.rootPort with
    | some p => (getTod s p).pathDelay + (cablePs (getTod s p) * 16 + 500) / 1000
    | none => 0
  bytesLE 32 (packFields [fAt 0 0 64 ownId, fAt 8 0 64 s.fabric.rootId, fAt 16 0 32 path, fAt 20 0 32 s.time.timing.wallId, fAt 24 0 64 (nowBits s)]) ++
  (List.range 4).flatMap fun p =>
    let x := getTod s p
    let q := partner s p
    bytesLE 24 (packFields [fAt 0 0 8 (todCode x.state), fAt 1 0 1 (s.fabric.rootPort == some p).toNat, fAt 1 1 1 q.headless.toNat, fAt 2 0 16 q.addr,
      fAt 4 0 64 q.id, fAt 12 0 32 (cablePs x), fAt 16 0 32 (reservedOn s p), fAt 20 0 32 x.errors])

/-- FABRIC_STATUS's effect. -/
def actFabricStatus (s : State) (h : Held) (c : Cmd) : State :=
  let f := s.fabric
  replyWithRecord s h c (fabricRecord s) [fAt 16 0 16 f.addr, fAt 18 0 16 (if onFabric s then 1 else 0), fAt 20 0 8 (f.rootPort.getD 0xFF),
    fAt 21 0 8 f.hops, fAt 22 0 16 (todSize s)]

/-- FABRIC_STATUS (0x801). -/
def execFabricStatus (c : Cmd) (s : State) : Host.Outcome State Fault Refusal :=
  .next (runPacket s c 0x801 (fun _ => true) checkStatusDest actFabricStatus)

/-- Step 8 checks of FABRIC_ROUTE_SET. -/
def checkRouteSet (_ : State) (h : Held) (_ : Cmd) : Option Fail :=
  let p := h.pkt
  let port := pf p 18 0 4
  let lo := pf p 20 0 12
  let hi := pf p 22 0 12
  if !reservedZero p [(16, 0, 9), (18, 0, 5), (20, 0, 12), (22, 0, 12)] || (decide (3 < port) && port != 15) || !inRange lo 1 4094 || !inRange hi lo 4094
  then some (failWith .badParam) else none

/-- FABRIC_ROUTE_SET's effect: the entry, and the exports' reservations again (R344, R350). -/
def actRouteSet (s : State) (h : Held) (_ : Cmd) : State :=
  let p := h.pkt
  let i := pf p 16 0 9
  let old := s.fabric.routes
  let s := { s with fabric := { s.fabric with
    routes := tset {} s.fabric.routes i { low := pf p 20 0 12, high := pf p 22 0 12, port := pf p 18 0 4, enable := pb p 18 4 } } }
  let (s, n) := if s.fabric.routes = old then (s, 0) else reserveAll (noteClaim s)
  let s := if s.fabric.routes = old then s else postRoutes s 3 n
  finishNow s h .ok [fAt 16 0 16 n]

/-- FABRIC_ROUTE_SET (0x802). -/
def execFabricRouteSet (c : Cmd) (s : State) : Host.Outcome State Fault Refusal :=
  .next (runPacket s c 0x802 (fun _ => true) checkRouteSet actRouteSet)

end Sys2Proof.Machine
end

