-- ==== Sys2Proof/Machine/Links.lean ====
section
/-! DEFINITION. Frames, lines and streams over the fabric: transit, import, FABRIC_EXPORT and FABRIC_IMPORT (R345 to R350). -/
namespace Sys2Proof.Machine
open Sys2Proof

/-- An import binding, by source. -/
def getImport (s : State) (i : Nat) : Import := tget {} s.fabric.imports i
/-- Change an import binding. -/
def modImport (s : State) (i : Nat) (f : Import → Import) : State :=
  { s with fabric := { s.fabric with imports := tmod {} s.fabric.imports i f } }

/-! Transit (R347). -/

/-- Key of a stream: origin address and export ID. -/
def streamKey (origin exportId : Nat) : Nat := origin * 4096 + exportId

/-- A transit ring. -/
def getTransit (s : State) (k : Nat) : Transit := tget {} s.fabric.transits k
/-- Change a transit ring. -/
def modTransit (s : State) (k : Nat) (f : Transit → Transit) : State :=
  { s with fabric := { s.fabric with transits := tmod {} s.fabric.transits k f } }

/-- Largest stored line or tile row of a format and width. -/
def streamLineBytes (fmt w : Nat) : Nat :=
  if formatCompressed fmt then recordSize (roundUp w 64) + roundUp w 64 / 64 * tileWorst fmt else lineSize fmt w

/-- Free a transit ring. -/
def freeTransit (s : State) (k : Nat) : State :=
  let h := (getTransit s k).handle
  let s := { s with fabric := { s.fabric with transits := tset {} s.fabric.transits k {} } }
  if h = 0 then s else releaseAll s [h]

/-- The first FRAME packet of a stream allocates its ring of 16 lines, charged to slice 0; one that needs larger lines allocates it again (R347). -/
def openTransit (s : State) (k bytes : Nat) : State :=
  let t := getTransit s k
  let s := if t.handle ≠ 0 ∧ bytes ≤ t.lineBytes then s
    else
      let s := freeTransit s k
      match allocBytes s 0 (16 * bytes) .fabric with
      | (s, some h) => modTransit s k fun t => { t with handle := h, lineBytes := bytes }
      | (s, none) => { s with fabric := { s.fabric with noRing := s.fabric.noRing + 1 } }
  if (getTransit s k).handle = 0 then s else modTransit s k fun t => { t with lastFrame := (now s).frame, next := 0, nextC := 0 }

/-- Send a packet onward on every port that carries it. -/
def onward (s : State) (port : Nat) (q : Pkt) : State := forEach (portsFor s q.dest (some port)) (fun p s => sendPkt s p q) s

/-- Write one line into the ring; whether it was written (R347, R371).  A lap of the ring is a pass of its surface, which no reader may latch, and FRONTIER counts its whole 4 KiB units (R116, R119). -/
def ringLine (s : State) (k slot : Nat) (chroma : Bool) (l : List Byte) : State × Bool :=
  let t := getTransit s k
  let i := handleIndex t.handle
  let first := slot % 16 == 0 && !chroma
  let x := getSurf s i
  let a := x.base + (slot % 16) * t.lineBytes
  if t.lineBytes < l.length ∨ (first ∧ !passAllowed s i) then (s, false)
  else
    let s := if first then beginPass s i else s
    match weirDenied s 0 engFabric true a (max 1 l.length) with
    | some (u, r) => (denyAt s 0 engFabric true r u, false)
    | none => (modSurf (writeBytes s a l) i fun x => { x with frontier := max x.frontier ((slot % 16 + 1) * t.lineBytes / 4096) }, true)

/-- A transit device forwards a line once it is written, and lines that did not come as LOST (R347, R349). -/
def transitLine (s : State) (port : Nat) (q : Pkt) : State :=
  let k := streamKey q.src q.exportId
  let t := getTransit s k
  let s := countUnrouted s q.dest
  if (portsFor s q.dest (some port)).isEmpty || t.handle == 0 then s
  else
    let first := if q.chroma then t.nextC else t.next
    let s := forEach ((List.range (q.line - first)).map (first + ·)) (fun y s => onward s port { q with lost := true, line := y, payload := [] }) s
    let (s, ok) := if q.lost then (s, false) else ringLine s k q.line q.chroma q.payload
    let s := onward s port (if ok then q else { q with lost := true, payload := [] })
    modTransit s k fun t => if q.chroma then { t with nextC := max t.nextC (q.line + 1) } else { t with next := max t.next (q.line + 1) }

/-- TRANSIT_RING_FREE: 16 wall frames without a FRAME packet (R347). -/
def execTransitRingFree (origin exportId : Nat) (s : State) : Host.Outcome State Fault Refusal :=
  .next (
    let k := streamKey origin exportId
    let t := getTransit s k
    if t.handle ≠ 0 && 16 ≤ frameDiff (now s).frame t.lastFrame then freeTransit s k else s)

/-! Import (R348, R349). -/

/-- The import that a stream feeds, if any. -/
def importOf (s : State) (q : Pkt) : Option Nat :=
  if !isLocal s q.dest then none
  else (s.fabric.imports.find? fun e => e.2.used && e.2.origin == q.src && e.2.exportId == q.exportId).map Prod.fst

/-- The upstream data of a payload (R346); times are taken only under the device's own wall identifier (R31). -/
def upOf (s : State) (l : List Byte) : UpData :=
  let mine := leAt l 0 4 == s.time.timing.wallId
  { state := stateOfCode (byteAt l 18 % 16), origin := if mine then lineWpOfBits (leAt l 4 6) else none
    base := if mine then lineWpOfBits (leAt l 10 6) else none, own := !mine }

/-- Upstream data take effect on the entry (R17). -/
def setUpstream (s : State) (i : Nat) (u : UpData) : State :=
  modEntry s i fun e => { e with inp := { e.inp with upstream := u.state, upAgeBase := u.base, upOwn := u.own } }

/-- Units of a pass: lines, or tile rows. -/
def passUnits (x : Surface) (height : Nat) : Nat := if formatCompressed x.format then (height + 3) / 4 else height

/-- Chroma lines of a pass. -/
def passChroma (x : Surface) (height : Nat) : Nat := if formatTwoPlane x.format then (height + 1) / 2 else 0

/-- The pass of an import that is received now. -/
def curPass (s : State) (i : Nat) : Option ImpPass := (getImport s i).passes.getLast?

/-- Change the pass that is received now. -/
def modCur (s : State) (i : Nat) (f : ImpPass → ImpPass) : State :=
  modImport s i fun m => { m with passes := m.passes.dropLast ++ (m.passes.getLast?.map f).toList }

/-- The tiles of a received tile row, which its record finds among the sender's columns, each as raw bytes or with why it is discarded; none when the record fails (R141 to R148). -/
def importTiles (x : Surface) (r : Nat) (l : List Byte) : Option (List (Except Discard (List Byte))) :=
  let fits (t : Nat) : Bool :=
    let n := recordSize (64 * t)
    let rec_ := l.take n
    n ≤ l.length && leAt rec_ (2 * t) 2 * 16 + n == l.length &&
      leAt rec_ (2 * (t + 1)) 4 == (crcRef 0x82F63B78 (0xFFFFFFFF ^^^ (0x80000000 + r)) (rec_.take (2 * (t + 1))) ^^^ 0xFFFFFFFF)
  match firstIdx fits 1 128 with
  | none => none
  | some t =>
    let n := recordSize (64 * t)
    let off (c : Nat) : Nat := leAt l (2 * c) 2
    if !(List.range t).all fun c => decide (off c ≤ off (c + 1)) then none
    else some ((List.range t).map fun c =>
      let size := (off (c + 1) - off c) * 16
      if size = 0 then .error .length else decodeBlock (r * t + c) (tileRaw x.format) size ((l.drop (n + off c * 16)).take size))

/-- Why tiles of a received row are discarded; a record that fails discards every tile of it (R148). -/
def importDiscards (x : Surface) : Option (List (Except Discard (List Byte))) → List Discard
  | none => List.replicate (x.width / 64) .index
  | some l => l.filterMap fun t => match t with
    | .ok _ => none
    | .error d => some d

/-- The raw lines of a tile row out of its tiles, each filled to the surface's width by its last pixel, luma and then chroma (R140, R156, R248). -/
def tileLines (x : Surface) (tiles : List (List Byte)) : List Byte :=
  let b := 64 * pixelBytes x.format false
  ((List.range 4).flatMap fun k => padPixels (pixelBytes x.format false) (rowLineBytes x) (tiles.flatMap fun t => (t.drop (b * k)).take b)) ++
  (if x.format = 0x60 then (List.range 2).flatMap fun k => padPixels 2 x.width (tiles.flatMap fun t => (t.drop (256 + 64 * k)).take 64) else [])

/-- Raw bytes of a tile row of zeros. -/
def zeroRow (x : Surface) : List Byte := List.replicate (4 * rowLineBytes x + if x.format = 0x60 then 2 * x.width else 0) 0

/-- The delivery of a pass is damaged at once (R349). -/
def damageCur (s : State) (i : Nat) (surf : Nat) : State :=
  modImport (markDamaged s i) i fun m => { m with passes := m.passes.map fun p => if p.surf = surf then { p with damaged := true } else p }

/-- A tile row becomes complete: its blocks are decompressed, zeros where any is lost, and the raw row is offered to the lanes (R150, R156, R349). -/
def completeRow (s : State) (i surf : Nat) (l : ImpLine) : State :=
  let x := getSurf s surf
  let tiles := importTiles x l.line l.data
  let bad := importDiscards x tiles
  if l.lost || !bad.isEmpty then
    let s := if l.lost then s else forEach bad (fun d s => countDiscard s d) s
    offerRow (damageCur s i surf) surf l.line (zeroRow x)
  else offerRow s surf l.line (tileLines x ((tiles.getD []).filterMap fun t => match t with | .ok b => some b | .error _ => none))

/-- Change the pass of an import that writes a buffer. -/
def modPass (s : State) (i surf : Nat) (f : ImpPass → ImpPass) : State :=
  modImport s i fun m => { m with passes := m.passes.map fun p => if p.surf = surf then f p else p }

/-- A line or chroma line becomes complete: written, zeros where it is lost, the last one also in the line that fills the surface, and FRONTIER passes the lines of which both planes are complete (R113, R248, R348, R349). -/
def completeLine (s : State) (i surf height : Nat) (l : ImpLine) : State :=
  let x := getSurf s surf
  let data := if l.lost then List.replicate (lineSize x.format x.width) 0 else l.data
  let s := if l.lost then damageCur s i surf else s
  let s := planeLine s surf (if l.chroma then x.height + l.line else l.line) data
  let fill := !l.chroma && formatTwoPlane x.format && l.line + 1 == height && height % 2 == 1
  let s := if fill then planeLine s surf height data else s
  let s := modPass s i surf fun p => if l.chroma then { p with doneC := l.line + 1 } else { p with doneY := l.line + 1 + fill.toNat }
  match (getImport s i).passes.find? fun p => p.surf == surf with
  | none => s
  | some p =>
    let f := if formatTwoPlane x.format then min p.doneY (2 * p.doneC) else p.doneY
    exportLines (modSurf s surf fun x => { x with frontier := min (surfaceLines x) (max x.frontier f) }) surf

/-- One line or tile row becomes complete (R348, R349). -/
def completeUnit (s : State) (i surf height : Nat) (l : ImpLine) : State :=
  let x := getSurf s surf
  if x.rebuilding then s
  else if formatCompressed x.format then completeRow s i surf l
  else completeLine s i surf height l

/-- The first waiting unit of a pass, once its time has come. -/
def takeUnit (w : Wp) (p : ImpPass) : Option (ImpLine × List ImpLine) :=
  match p.lines with
  | [] => none
  | a :: r => if wpReached w a.due then some (a, r) else none

/-- A finished pass is delivered (R9, R349). -/
def finishImport (s : State) (i : Nat) (p : ImpPass) : State :=
  let s := modImport s i fun m => { m with passes := m.passes.filter fun q => q.surf != p.surf }
  addDelivery s { source := i, surf := p.surf, pass := (getSurf s p.surf).pass, height := p.height, origin := p.up.origin.getD p.origin, damaged := p.damaged,
                  upstream := p.up.state, upBase := p.up.base, upOwn := p.up.own, originAddr := some p.originAddr }

/-- Units whose time has come become complete, in order; n bounds them (R348). -/
def runImport : Nat → Nat → State → State
  | 0, _, s => s
  | n + 1, i, s =>
    match (getImport s i).passes.head? with
    | none => s
    | some p =>
      let x := getSurf s p.surf
      match takeUnit (now s) p with
      | none => if p.lines.isEmpty && passUnits x p.height ≤ p.next && passChroma x p.height ≤ p.nextC then runImport n i (finishImport s i p) else s
      | some (l, rest) =>
        let s := modImport s i fun m => { m with passes := m.passes.map fun q => if q.surf = p.surf then { q with lines := rest } else q }
        let s := completeUnit s i p.surf p.height l
        let s := match l.upstream with
          | some u => modImport (setUpstream s i u) i fun m => { m with passes := m.passes.map fun q =>
              if q.surf = p.surf then { q with up := { u with origin := q.up.origin } } else q }
          | none => s
        runImport n i s

/-- Steps that the waiting units of an import can take. -/
def importWork (s : State) (i : Nat) : Nat :=
  (getImport s i).passes.foldl (fun n p => n + p.lines.length + 1) 1

/-- Run an import's waiting units. -/
def advanceImport (s : State) (i : Nat) : State := runImport (importWork s i) i s

/-- IMPORT_LINE_COMPLETE: COMPLETE_WP plus HOPS lines has come (R348). -/
def execImportLineComplete (source : Nat) (s : State) : Host.Outcome State Fault Refusal := .next (advanceImport s source)

/-- Missing units of the pass received now, up to counts of lines and chroma lines, are given up as LOST at a time (R349). -/
def giveUp (s : State) (i : Nat) (lines chroma : Nat) (due : Wp) : State :=
  modCur s i fun p => { p with
    lines := p.lines ++ (List.range (lines - p.next)).map (fun k => { line := p.next + k, lost := true, due }) ++
      (List.range (chroma - p.nextC)).map (fun k => { line := p.nextC + k, chroma := true, lost := true, due })
    next := max p.next lines, nextC := max p.nextC chroma }

/-- The exporter's frame has ended: units of the pass that have not come are LOST (R349). -/
def closePass (s : State) (i : Nat) : State :=
  match curPass s i with
  | none => s
  | some p =>
    let x := getSurf s p.surf
    advanceImport (giveUp s i (passUnits x p.height) (passChroma x p.height) (now s)) i

/-- A FRAME packet reaches an import: the state at once when it ranks higher, and a new pass on the oldest buffer that is not latched (R17, R31, R349). -/
def importFrame (s : State) (i : Nat) (q : Pkt) : State :=
  let l := q.payload
  let u := upOf s l
  let r := getSource s i
  let e := getEntry s i
  let s := closePass s i
  let s := if stateRank e.inp.upstream < stateRank u.state then setUpstream s i u else s
  let w := leAt l 20 2 % 16384
  let ht := leAt l 22 2 % 16384
  if !e.valid || e.inp.withdrawn then s
  else if byteAt l 19 ≠ r.fmt then markUnfit s i 2 3
  else if r.maxW < w ∨ r.maxH < ht then markUnfit s i 3 3
  else if intakeStopped s e.owner then s
  else
    let busy := (getImport s i).passes.map ImpPass.surf
    match oldestBuffer s ((buffersOf s i).filter fun b => passAllowed s b && latchCount s b == 0 && !busy.contains b) with
    | none => modImport s i fun m => { m with dropped := m.dropped + 1 }
    | some b =>
      let s := captureSource (setPassSize (beginPass s b) b w ht) i b
      modImport s i fun m => { m with passes := m.passes ++ [{ surf := b, frameSeq := q.frameSeq, height := ht, origin := lineOf (now s), up := u, originAddr := leAt l 16 2 % 4096 }] }

/-- FRAME_PACKET: passed on, with the ring of a new stream, and taken by an import (R347, R349). -/
def execFramePacket (port : Nat) (bits : List (List Bool)) (s : State) : Host.Outcome State Fault Refusal :=
  .next (
    match takePkt s port 3 bits with
    | (s, none) => s
    | (s, some q) =>
      let k := streamKey q.src q.exportId
      let s := countUnrouted s q.dest
      let s := if (portsFor s q.dest (some port)).isEmpty then s
        else
          let s := openTransit s k (streamLineBytes (byteAt q.payload 19) (leAt q.payload 20 2 % 16384))
          if (getTransit s k).handle = 0 then s else onward s port q
      match importOf s q with
      | some i => importFrame s i q
      | none => s)

/-- A LINE packet reaches an import: due at COMPLETE_WP plus HOPS lines, or at once and late (R348, R349). -/
def importLine (s : State) (i : Nat) (q : Pkt) : State :=
  match curPass s i with
  | none => s
  | some p =>
    let x := getSurf s p.surf
    let limit := if q.chroma then passChroma x p.height else passUnits x p.height
    if p.frameSeq ≠ q.frameSeq ∨ limit ≤ q.line ∨ q.line < (if q.chroma then p.nextC else p.next) then s
    else
      let w := wpOfBits q.complete
      let due := addTicks (wallLines s) w ((q.hops * 65536 : Nat) : Int)
      let late := wpLater (now s) due
      let s := if late then modImport s i fun m => { m with late := m.late + 1 } else s
      let at_ := if late then now s else due
      let s := if q.chroma then giveUp s i p.next q.line at_ else giveUp s i q.line (min (passChroma x p.height) ((q.line + 1) / 2)) at_
      let bad := q.lost || (!formatCompressed x.format && decide (q.payload.length < lineSize x.format (passSize x).1))
      let s := if bad then damageCur s i p.surf else s
      let s := modCur s i fun p => { p with
        lines := p.lines ++ [{ line := q.line, chroma := q.chroma, lost := bad, due := at_, data := q.payload }]
        next := if q.chroma then p.next else q.line + 1, nextC := if q.chroma then q.line + 1 else p.nextC }
      advanceImport s i

/-- LINE_PACKET (R347 to R349). -/
def execLinePacket (port : Nat) (bits : List (List Bool)) (s : State) : Host.Outcome State Fault Refusal :=
  .next (
    match takePkt s port 5 bits with
    | (s, none) => s
    | (s, some q) =>
      let s := transitLine s port q
      match importOf s q with
      | some i => importLine s i q
      | none => s)

/-- STATE_PACKET: takes effect at the line after which it arrives, at once when none waits (R345, R349). -/
def execStatePacket (port : Nat) (bits : List (List Bool)) (s : State) : Host.Outcome State Fault Refusal :=
  .next (
    match takePkt s port 4 bits with
    | (s, none) => s
    | (s, some q) =>
      let s := countUnrouted s q.dest
      let s := if (getTransit s (streamKey q.src q.exportId)).handle = 0 then s else onward s port q
      match importOf s q with
      | none => s
      | some i =>
        let u := upOf s q.payload
        match curPass s i with
        | none => s
        | some p =>
          if p.frameSeq ≠ q.frameSeq then s
          else if p.lines.isEmpty then modCur (setUpstream s i u) i fun p => { p with up := { u with origin := p.up.origin } }
          else modCur s i fun p => { p with lines := p.lines.dropLast ++ (p.lines.getLast?.map fun l => { l with upstream := some u }).toList })

/-- STREAM_PACKET: a Sluice block of a byte stream is passed on, or goes to the lanes, which check it (R148, R150, R153, R155, R330). -/
def execStreamPacket (port : Nat) (bits : List (List Bool)) (s : State) : Host.Outcome State Fault Refusal :=
  .next (
    match takePkt s port 6 bits with
    | (s, none) => s
    | (s, some q) =>
      let s := if q.dest = 4095 ∨ routeOf s q.dest ≠ some 15 then routePkt s (some port) q else s
      if !isLocal s q.dest then s
      else queueWork s { kind := .batch, row := q.line, raw := q.payload, received := true })

/-! FABRIC_EXPORT. -/

/-- A line of a source is too large for its time at the current wall timing (R348): more than 12.0 GB/s x t_line_wall / 2. -/
def lineTooBig (s : State) (src : Nat) : Bool :=
  let t := s.time.timing
  let r := getSource s src
  decide (12000000000 * t.rateDen < streamLineBytes r.fmt r.maxW * 2 * t.rateNum * t.lines)

/-- The lowest free export ID. -/
def freeExport (s : State) : Option Nat := firstIdx (fun n => !(getExport s n).used) 0 4096

/-- MB/s left on a port. -/
def leftOn (s : State) (p : Nat) : Nat := 12000 - reservedOn s p

/-- One more export of a source could take LATCHES of a buffer above 511: the latches of other readers and one for each export (R114). -/
def exportLatches (s : State) (src : Nat) : Bool :=
  (buffersOf s src).any fun i =>
    let own := (s.store.latches.filter fun l => l.surf == i && match l.reader with | .exporter _ => true | _ => false).length
    decide (511 < (latchPasses s i).length - own + (exportsOf s src).length + 1)

/-- Step 8 checks of FABRIC_EXPORT; a link of another device that fails, which the reservation meets on its way, comes as a value of the command: address, port, MB/s left. -/
def checkExport (s : State) (h : Held) (c : Cmd) : Option Fail :=
  let p := h.pkt
  let src := pf p 16 0 12
  let stop := pb p 18 0
  let dest := pf p 20 0 12
  let id := pf p 22 0 12
  let mb := pf p 24 0 32
  let e := getEntry s src
  let x := getExport s id
  if !reservedZero p [(16, 0, 12), (18, 0, 1), (20, 0, 12), (22, 0, 12), (24, 0, 32)] then some (failWith .badParam)
  else if stop then
    firstFail [(x.used && h.slice != 0 && (getEntry s x.source).owner != h.slice, failWith .notPermitted), (!x.used, failWith .notReady)]
  else firstFail [
    (dest == 0 || id != 0 || !inRange mb 1 12000 || (e.valid && e.kind == .surface), failWith .badParam),
    (e.valid && h.slice != 0 && e.owner != h.slice, failWith .notPermitted),
    (!onFabric s || !reachable s dest || !e.valid, failWith .notReady),
    ((fullPort s dest mb).isSome, (.budgetExceeded, [fAt 20 0 32 s.fabric.addr, fAt 24 0 8 ((fullPort s dest mb).getD 0),
      fAt 28 0 32 (leftOn s ((fullPort s dest mb).getD 0))])),
    (3 ≤ c.obs.length, (.budgetExceeded, [fAt 20 0 32 (c.obs.getD 0 0), fAt 24 0 8 (c.obs.getD 1 0), fAt 28 0 32 (c.obs.getD 2 0)])),
    (lineTooBig s src, failWith .budgetExceeded),
    ((freeExport s).isNone || exportLatches s src, failWith .noResource)]

/-- FABRIC_EXPORT's effect. -/
def actExport (s : State) (h : Held) (_ : Cmd) : State :=
  let p := h.pkt
  if pb p 18 0 then finishNow (endExport s (pf p 22 0 12)) h .ok []
  else match freeExport s with
    | none => finishNow s h .noResource []
    | some n =>
      let s := modExport s n fun _ => { used := true, source := pf p 16 0 12, dest := pf p 20 0 12, mbps := pf p 24 0 32 }
      finishNow s h .ok [fAt 16 0 16 n]

/-- FABRIC_EXPORT (0x803). -/
def execFabricExport (c : Cmd) (s : State) : Host.Outcome State Fault Refusal :=
  .next (runPacket s c 0x803 (fun _ => true) checkExport actExport)

/-! FABRIC_IMPORT. -/

/-- Links to an address, as the fabric reports them. -/
def hopsTo (s : State) (a : Nat) : Nat := (((treeDevs s).find? fun d => d.addr == a).map TreeDev.hops).getD 0

/-- Step 8 checks of FABRIC_IMPORT. -/
def checkImport (s : State) (h : Held) (_ : Cmd) : Option Fail :=
  let p := h.pkt
  let src := pf p 16 0 12
  let e := getEntry s src
  firstFail [
    (!reservedZero p [(16, 0, 12), (18, 0, 1), (20, 0, 12), (22, 0, 12)], failWith .badParam),
    (e.valid && e.owner != h.slice, failWith .notPermitted),
    (!e.valid || e.kind != .imported || (pb p 18 0 && ((getImport s src).used || !reachable s (pf p 20 0 12))), failWith .notReady)]

/-- An import binding ends: its passes record no arrival. -/
def endImport (s : State) (i : Nat) : State := { s with fabric := { s.fabric with imports := tset {} s.fabric.imports i {} } }

/-- FABRIC_IMPORT's effect: the binding applies from the next FRAME packet. -/
def actImport (s : State) (h : Held) (_ : Cmd) : State :=
  let p := h.pkt
  let src := pf p 16 0 12
  let s := if pb p 18 0 then modImport s src fun _ => { used := true, origin := pf p 20 0 12, exportId := pf p 22 0 12 } else endImport s src
  finishNow s h .ok [fAt 16 0 8 (hopsTo s (pf p 20 0 12))]

/-- FABRIC_IMPORT (0x804). -/
def execFabricImport (c : Cmd) (s : State) : Host.Outcome State Fault Refusal :=
  .next (runPacket s c 0x804 (fun _ => true) checkImport actImport)

end Sys2Proof.Machine
end

