-- ==== Sys2Proof/Machine/Lanes.lean ====
section
/-! DEFINITION. Lanes: eye scans and PORT_CONTROL (R354 to R363). -/
namespace Sys2Proof.Machine
open Sys2Proof

/-- A receiving lane is in service (R359, R361). -/
def laneInService (s : State) (l : Nat) : Bool :=
  if l < 8 then hostReachable s
  else if l < 24 then todUp (getTod s ((l - 8) / 4))
  else if l < 28 then todUp (getTod s (l - 24))
  else if l < 60 then false
  else if l < 76 then dpTrained (getDp s ((l - 60) / 4)).state && decide ((l - 60) % 4 < (getDp s ((l - 60) / 4)).lanes)
  else decide (l < 78) && (getPort s (l - 76)).enable && (getPort s (l - 76)).up

/-- Line rate of a lane, Mb/s (R354); a PCI Express lane's negotiated rate is given. -/
def laneRate (s : State) (l pcie : Nat) : Nat :=
  if l < 8 then pcie else if l < 24 then 25000 else if l < 28 then 5000
  else if l < 76 then [1620, 2700, 5400, 8100].getD (getDp s ((l - 60) / 4)).rate 0
  else if (getPort s (l - 76)).rate10 then 10312 else 25781

/-- VSTEP in microvolts (R360). -/
def laneVstep (l : Nat) : Nat := if inRange l 24 27 || inRange l 60 75 then 4000 else 2000

/-- Step 8 checks of LANE_EYE_SCAN. -/
def checkEyeScan (s : State) (h : Held) (_ : Cmd) : Option Fail :=
  let p := h.pkt
  let l := pf p 16 0 7
  let d := pf p 24 0 64
  firstFail [
    (!reservedZero p [(16, 0, 7), (17, 0, 5), (24, 0, 64)] || decide (77 < l) || inRange l 28 59 || pf p 17 2 2 == 3 || d == 0 || d % 64 != 0, failWith .badParam),
    (!laneInService s l || s.lane.scans.any fun e => e.1 == l, failWith .notReady),
    (8 ≤ s.lane.scans.length, failWith .noResource)]

/-- LANE_EYE_SCAN's commit point: the scan runs (R361). -/
def actEyeScan (s : State) (h : Held) (_ : Cmd) : State :=
  let l := pf h.pkt 16 0 7
  defer { s with lane := { s.lane with scans := tset {} s.lane.scans l { key := heldKey h, start := now s } } } h
    [fAt 16 0 8 l, fAt 18 0 16 (scanPoints h.pkt)]

/-- LANE_EYE_SCAN (0x805). -/
def execLaneEyeScan (c : Cmd) (s : State) : Host.Outcome State Fault Refusal :=
  .next (runPacket s c 0x805 (fun _ => true) checkEyeScan actEyeScan)

/-- Errors at point (p, v), 0 to 254: 0xFF where STEP leaves it out (R362). -/
def pointAt (step : Nat) (l : List Byte) (p v : Nat) : Nat :=
  if p % step = 0 ∧ v % step = 0 then min 254 (byteAt l (v / step * (64 / step) + p / step)) else 0xFF

/-- Length in visited points of the longest run of zeros: the best so far, and the run that ends here. -/
def longestRun (l : List Nat) : Nat :=
  (l.foldl (fun (b : Nat × Nat) x => if x = 0 then (max b.1 (b.2 + 1), b.2 + 1) else (b.1, 0)) (0, 0)).1

/-- The opening along a line of visited points: b - a + STEP (R362). -/
def opening (step : Nat) (l : List Nat) : Nat := longestRun l * step

/-- Horizontal and vertical openings. -/
def openings (step : Nat) (l : List Byte) : Nat × Nat :=
  let ks := (List.range (64 / step)).map (· * step)
  (opening step (ks.map fun p => pointAt step l p 32), opening step (ks.map fun v => pointAt step l 32 v))

/-- The 4,160-byte record (R362). -/
def scanRecord (s : State) (lane pcie : Nat) (e : EyeScan) (p : Packet) (l : List Byte) : List Byte :=
  let step := scanStep p
  let t := pf p 17 0 2
  let (ho, vo) := openings step l
  bytesLE 64 (packFields [fAt 0 0 8 lane, fAt 1 0 8 t, fAt 2 0 8 step, fAt 4 0 32 (laneRate s lane pcie), fAt 8 0 64 (3 * 10 ^ (6 + t)),
    fAt 16 0 64 (wpBits e.start), fAt 24 0 64 (nowBits s), fAt 32 0 16 (laneVstep lane), fAt 34 0 8 ho, fAt 35 0 8 vo,
    fAt 36 0 16 (scanPoints p), fAt 38 0 16 (l.filter fun b => decide (254 ≤ b.toNat)).length]) ++
  (List.range 64).flatMap fun v => (List.range 64).map fun q => BitVec.ofNat 8 (pointAt step l q v)

/-- LANE_EYE_SCAN_COMPLETE: the last point is measured; the errors of the visited points come in the order of the scan, with the line rate of a PCI Express lane (R361, R362). -/
def execLaneEyeScanComplete (c : Cmd) (s : State) : Host.Outcome State Fault Refusal :=
  .next (
    let k : CmdKey := ⟨c.slice, c.ring, c.index⟩
    match s.lane.scans.find? fun e => e.2.key == k, findHeld s k with
    | some (lane, e), some h =>
      if c.data.length ≠ scanPoints h.pkt then s
      else
        let s := { s with lane := { s.lane with scans := s.lane.scans.filter fun x => x.1 != lane } }
        let (ho, vo) := openings (scanStep h.pkt) c.data
        let d := [fAt 16 0 8 lane, fAt 18 0 16 (scanPoints h.pkt)]
        match destWrite s h.slice engLock (pb h.pkt 17 4) c.ok (pf h.pkt 24 0 64) (scanRecord s lane (c.obs.getD 0 0) e h.pkt c.data) with
        | (s, true) => finishNow s h .ok (d ++ [fAt 20 0 8 ho, fAt 21 0 8 vo])
        | (s, false) => finishNow s h .weirDenied d
    | _, _ => s)

/-! PORT_CONTROL (R363). -/

/-- OP of a packet. -/
def portOp (p : Packet) : Nat := pf p 18 0 2

/-- First lane and number of receiving lanes of a group, and of a Toden port's timing lane apart. -/
def groupScans (s : State) (g i : Nat) : Nat :=
  if g = 1 then (scansOn s (8 + 4 * i) 4 ++ scansOn s (24 + i) 1).length
  else if g = 3 then (scansOn s (60 + 4 * i) 4).length else if g = 4 then (scansOn s (76 + i) 1).length else 0

/-- The state that byte 16 of the detail reports. -/
def groupState (s : State) (g i : Nat) : Nat :=
  if g = 1 then todCode (getTod s i).state else if g = 2 then outStateCode (getOut s i).state
  else if g = 3 then dpCode (getDp s i).state else (getPort s i).up.toNat

/-- A group that a RESET finds out of use, or a port that an ENABLE finds enabled. -/
def portNotReady (s : State) (op g i : Nat) : Bool :=
  if op = 0 then (getTod s i).state != .disabled
  else if op = 2 then
    (if g = 2 then (getOut s i).state == .unconfigured || (getOut s i).state == .disabled
     else if g = 3 then (getDp s i).state == .disabled else g == 4 && !(getPort s i).enable)
  else false

/-- Step 8 checks of PORT_CONTROL. -/
def checkPortControl (s : State) (h : Held) (_ : Cmd) : Option Fail :=
  let p := h.pkt
  let g := pf p 16 0 3
  let i := pf p 17 0 3
  let op := portOp p
  firstFail [
    (!reservedZero p [(16, 0, 3), (17, 0, 3), (18, 0, 2), (19, 0, 3)] || !inRange g 1 4 || decide ([4, 8, 4, 2].getD (g - 1) 0 ≤ i) ||
      (op != 2 && g != 1) || (op != 3 && pf p 19 0 3 != 0), failWith .badParam),
    (portNotReady s op g i, failWith .notReady)]

/-- The reply of PORT_CONTROL, with the scans that stood before. -/
def donePort (s : State) (h : Held) (scans : Nat) : State :=
  finishNow s h .ok [fAt 16 0 8 (groupState s (pf h.pkt 16 0 3) (pf h.pkt 17 0 3)), fAt 17 0 8 scans]

/-- ENABLE: the port powers its lanes and trains. -/
def actPortEnable (s : State) (h : Held) (_ : Cmd) : State := donePort (todTrain s (pf h.pkt 17 0 3) 7) h 0

/-- PORT_CONTROL with OP ENABLE (0x806). -/
def execPortControlEnable (c : Cmd) (s : State) : Host.Outcome State Fault Refusal :=
  .next (runPacket s c 0x806 (fun h => portOp h.pkt == 0) checkPortControl actPortEnable)

/-- DISABLE: the port powers down, and the fabric recomputes as for a port going DOWN. -/
def actPortDisable (s : State) (h : Held) (_ : Cmd) : State :=
  let i := pf h.pkt 17 0 3
  let n := groupScans s 1 i
  donePort (dropLink (modTod (todEnter s i .disabled 7 0) i fun x => { x with backing := false }) i) h n

/-- PORT_CONTROL with OP DISABLE (0x806). -/
def execPortControlDisable (c : Cmd) (s : State) : Host.Outcome State Fault Refusal :=
  .next (runPacket s c 0x806 (fun h => portOp h.pkt == 1) checkPortControl actPortDisable)

/-- RESET of a Toden port: DOWN with cause 0x07 and training at once; one that is TRAINING starts again at phase 1, and a DISABLED one stays so. -/
def resetTod (s : State) (i : Nat) : State :=
  let t := (getTod s i).state
  if t = .disabled then s
  else if t = .training then modTod s i fun x => { x with phase := 1, phaseAt := upTime s, series := 0, backoffMs := 100, partner := none, below := [], cable := [] }
  else todTrain (dropLink (todEnter s i .down 7 0) i) i 7

/-- RESET of an Ethernet port: frames in progress are lost and counted, and the link is down until its partner answers. -/
def resetEth (s : State) (i lost : Nat) : State :=
  endScans (bump (modPort s i fun x => { x with up := false }) 3 i 2 lost) (76 + i) 1

/-- RESET's effect by group; the frames that an Ethernet port loses come as a value of the command. -/
def actPortReset (s : State) (h : Held) (c : Cmd) : State :=
  let g := pf h.pkt 16 0 3
  let i := pf h.pkt 17 0 3
  let n := groupScans s g i
  let s := if g = 1 then resetTod s i
    else if g = 2 then retrain s i
    else if g = 3 then emit (dpAbandon (endScans s (60 + 4 * i) 4) i) (.link (16 + i) 2)
    else resetEth s i (c.obs.getD 0 0)
  donePort s h n

/-- PORT_CONTROL with OP RESET (0x806). -/
def execPortControlReset (c : Cmd) (s : State) : Host.Outcome State Fault Refusal :=
  .next (runPacket s c 0x806 (fun h => portOp h.pkt == 2) checkPortControl actPortReset)

/-- PRESET: the de-emphasis of the port's next training. -/
def actPortPreset (s : State) (h : Held) (_ : Cmd) : State :=
  donePort (modTod s (pf h.pkt 17 0 3) fun x => { x with preset := pf h.pkt 19 0 3 }) h 0

/-- PORT_CONTROL with OP PRESET (0x806). -/
def execPortControlPreset (c : Cmd) (s : State) : Host.Outcome State Fault Refusal :=
  .next (runPacket s c 0x806 (fun h => portOp h.pkt == 3) checkPortControl actPortPreset)

end Sys2Proof.Machine
end

