-- ==== Sys2Proof/Machine/Gauge.lean ====
section
/-! DEFINITION. GAUGE_SET (R381, R385). -/
namespace Sys2Proof.Machine
open Sys2Proof

/-- Lines or tile rows of a pass that the Gauge numbers, chroma lines included (R381). -/
def gaugeLines (x : Surface) : Nat :=
  if x.format = 0 then surfaceLines x
  else if formatCompressed x.format then x.height / 4
  else if formatTwoPlane x.format then x.height + x.height / 2 else x.height

/-- Lines of the target of KIND SURFACE or SOURCE. -/
def targetLines (s : State) (p : Packet) : Nat :=
  if pf p 17 0 2 = 0 then gaugeLines (getSurf s (handleIndex (pf p 20 0 32)))
  else match buffersOf s (pf p 24 0 12) with
    | i :: _ => gaugeLines (getSurf s i)
    | [] => 0

/-- The bits GAUGE_SET defines. -/
def gaugeResv : List (Nat × Nat × Nat) := [(16, 0, 5), (17, 0, 5), (20, 0, 32), (24, 0, 12), (26, 0, 12), (28, 0, 32), (32, 0, 32)]

/-- A field given for the wrong KIND, or a rule out of range (R385). -/
def gaugeFieldBad (p : Packet) : Bool :=
  let k := pf p 17 0 2
  (k != 2 && (pf p 17 2 2 != 0 || pb p 17 4)) || (k != 0 && pf p 20 0 32 != 0) || (k != 1 && pf p 24 0 12 != 0) ||
  (decide (k < 2) && pf p 26 0 12 != 0) || (decide (2 ≤ k) && (pf p 28 0 32 != 0 || pf p 32 0 32 != 0)) ||
  (k == 3 && decide (511 < pf p 26 0 12))

/-- Step 8 checks of GAUGE_SET; a unit that is stopped needs no target (R385). -/
def checkGaugeSet (s : State) (h : Held) (_ : Cmd) : Option Fail :=
  let p := h.pkt
  let k := pf p 17 0 2
  let rule := tget {} s.media.rules (pf p 26 0 12)
  let e := getEntry s (pf p 24 0 12)
  if !reservedZero p gaugeResv || gaugeFieldBad p then some (failWith .badParam)
  else if !pb p 16 3 then none
  else if k = 0 then
    match lookup s (pf p 20 0 32) with
    | none => some (failWith .handleStale)
    | some _ => if targetLines s p ≤ pf p 28 0 32 then some (failWith .badParam) else none
  else if k = 1 then
    if !e.valid then some (failWith .notReady)
    else if targetLines s p ≠ 0 ∧ targetLines s p ≤ pf p 28 0 32 then some (failWith .badParam) else none
  else if k = 2 then (if (getTod s (pf p 17 2 2)).state = .disabled then some (failWith .notReady) else none)
  else if rule.action ≠ 1 then some (failWith .badParam)
  else if !rule.enable then some (failWith .notReady) else none

/-- GAUGE_SET's effect: the settings, and RESULTS from 0; the latest values stay (R385). -/
def actGaugeSet (s : State) (h : Held) (_ : Cmd) : State :=
  let p := h.pkt
  let first := pf p 28 0 32
  let count := pf p 32 0 32
  let left := targetLines s p - first
  let n := if !pb p 16 3 ∨ 2 ≤ pf p 17 0 2 then 0 else if count = 0 then left else min count left
  let s := { s with gauge := { s.gauge with units := tmod {} s.gauge.units (pf p 16 0 3) fun u => { u with
    enable := pb p 16 3, crc64 := pb p 16 4, kind := pf p 17 0 2, port := pf p 17 2 2, anyExport := pb p 17 4, handle := pf p 20 0 32
    source := pf p 24 0 12, exportId := pf p 26 0 12, firstLine := first, lineCount := count, results := 0 } } }
  finishNow s h .ok [fAt 16 0 3 (pf p 16 0 3), fAt 20 0 32 n]

/-- GAUGE_SET (0xA01). -/
def execGaugeSet (c : Cmd) (s : State) : Host.Outcome State Fault Refusal :=
  .next (runPacket s c 0xA01 (fun _ => true) checkGaugeSet actGaugeSet)

end Sys2Proof.Machine
end

