-- ==== Sys2Proof/Machine/Remote.lean ====
section
/-! DEFINITION. Accesses from outside the rings: the debug port, BAR2, the fabric window, remote management, fabric interrupts and the PCI Express link (R351, R352, R358, R371, R375, R448 to R450, R455). -/
namespace Sys2Proof.Machine
open Sys2Proof

/-! Accesses decided unit by unit (R366, R371). -/

/-- The pieces of a range that lie in one 256-byte unit each: address and length. -/
def piecesOf (a n : Nat) : List (Nat × Nat) :=
  (unitsOf a n).map fun u => (u, min (a + n) ((u / 256 + 1) * 256) - u)

/-- Bytes that a denied read returns: 32-bit words 0xDEB0_DEB0 (R371). -/
def deniedBytes (n : Nat) : List Byte := ((List.replicate ((n + 3) / 4) (bytesLE 4 0xDEB0DEB0)).flatten).take n

/-- Write each unit that a decision allows; the others are dropped and recorded (R371). -/
def writeUnits (s : State) (decide_ : State → Nat → Option Nat) (v : Violation) (a : Nat) (l : List Byte) : State :=
  forEach (piecesOf a l.length) (fun p s =>
    match decide_ s p.1 with
    | none => weirWrite s p.1 ((l.drop (p.1 - a)).take p.2)
    | some r => recordDenial s { v with write := true, rule := r, wp := nowBits s, address := p.1 / 256 * 256 }) s

/-- Read each unit that a decision allows; a denied unit reads as 0xDEB0_DEB0 and is recorded (R371). -/
def readUnits (s : State) (decide_ : State → Nat → Option Nat) (v : Violation) (a n : Nat) : State × List Byte :=
  (piecesOf a n).foldl (fun (x : State × List Byte) p =>
    match decide_ x.1 p.1 with
    | none =>
      let (s, l) := weirRead x.1 p.1 p.2
      (s, x.2 ++ l)
    | some r => (recordDenial x.1 { v with rule := r, wp := nowBits x.1, address := p.1 / 256 * 256 }, x.2 ++ deniedBytes p.2)) (s, [])

/-- A read that a decision allows meets a poisoned unit of the store. -/
def readsPoison (s : State) (decide_ : State → Nat → Option Nat) (a n : Nat) : Bool :=
  (piecesOf a n).any fun p => (decide_ s p.1).isNone && !inRegSpace p.1 && rangePoisoned s p.1 p.2

/-- An access of a kind: a write, or a read whose bytes are returned. -/
def accessUnits (s : State) (decide_ : State → Nat → Option Nat) (v : Violation) (write : Bool) (a : Nat) (l : List Byte) : State :=
  if write then writeUnits s decide_ v a l
  else
    let (s, r) := readUnits s decide_ v a l.length
    emit s (.readData l.length (natLE r))

/-- DEBUG_ACCESS: an access of the debug port while the fuses enable it, decided by locked rules; of a read, `data` gives the length (R375, R455). -/
def execDebugAccess (write : Bool) (addr : Nat) (data : List Byte) (s : State) : Host.Outcome State Fault Refusal :=
  .next (if debugOn s then accessUnits s (fun s u => debugDecide s write u) { debug := true } write addr data else s)

/-- DBG_KILL_FUSE_WRITE: Lockkeeper blows the fuse for the manager; it is never cleared (R455). -/
def execDbgKillFuseWrite (s : State) : Host.Outcome State Fault Refusal :=
  .next (if s.boot.lk = .running then { s with boot := { s.boot with dbgKill := true } } else s)

/-- BAR2_APERTURE_ACCESS: aperture offset / 0x1000_0000, checked as its slice with class HOST; a disabled aperture denies with RULE 0xFFC; of a read, `data` gives the length, and one that meets poison is completed poisoned (R108, R371, R450). -/
def execBar2ApertureAccess (write : Bool) (offset : Nat) (data : List Byte) (s : State) : Host.Outcome State Fault Refusal :=
  let a := tget {} s.regs.apertures (offset / 0x10000000)
  let addr := a.base / 65536 * 65536 + offset % 0x10000000
  .next (
    if !regsOpen s || decide (64 * 0x10000000 ≤ offset) then (if write then s else emit s (.readData data.length 0))
    else
      let decide_ (s : State) (u : Nat) : Option Nat := if a.enable then weirDecide s a.slice engHost write u else some 0xFFC
      let v : Violation := { slice := a.slice, engine := engHost }
      if !write && readsPoison s decide_ addr data.length then
        let (s, r) := readUnits s decide_ v addr data.length
        emit s (.readPoisoned data.length (natLE r))
      else accessUnits s decide_ v write addr data)

/-! The fabric window (R448). -/

/-- Address bytes of a REMOTE packet's payload (log entry 61). -/
def remoteHead (addr : Nat) : List Byte := bytesLE 8 addr

/-- FABRIC_WINDOW_ACCESS: a host access at a window offset becomes a REMOTE packet to the target; without the window or a way to the target a read returns 0xFF and a write is dropped (R448). -/
def execFabricWindowAccess (write : Bool) (offset size value : Nat) (s : State) : Host.Outcome State Fault Refusal :=
  let r := s.regs
  let addr := r.fwinBase / 2 ^ 24 * 2 ^ 24 + offset % 2 ^ 24
  let ones := 2 ^ (8 * size) - 1
  .next (
    if !regsOpen s then (if write then s else emit s (.readData size 0))
    else if !r.fwinEnable || !inRange r.fwinTarget 1 4094 || !reachable s r.fwinTarget then
      (if write then s else emit s (.readData size ones))
    else if write then
      routePkt s none { dest := r.fwinTarget, src := s.fabric.addr, kind := 7, payload := remoteHead addr ++ bytesLE size value }
    else
      let n := r.winSeq
      let s := { s with regs := { r with
        winSeq := (n + 1) % 2 ^ 32, winReads := r.winReads ++ [{ target := r.fwinTarget, addr, size, seq := n, at_ := upTime s }] } }
      routePkt s none { dest := r.fwinTarget, src := s.fabric.addr, kind := 8, payload := remoteHead addr ++ bytesLE 4 size ++ bytesLE 4 n })

/-- FABRIC_WINDOW_READ_TIMEOUT: the oldest window read has waited 50 µs; it completes with every byte 0xFF and sets TIMEOUT (R448). -/
def execFabricWindowReadTimeout (s : State) : Host.Outcome State Fault Refusal :=
  .next (match s.regs.winReads with
    | [] => s
    | w :: rest => if !passed s w.at_ 50000 then s else emit { s with regs := { s.regs with winReads := rest, fwinTimeout := true } } (.readData w.size (2 ^ (8 * w.size) - 1)))

/-! REMOTE packets, interrupts and the claim (R351, R352, R449). -/

/-- A management packet: passed on, or both when it is a broadcast, or for this device. -/
def takeMgmt (s : State) (port kind : Nat) (bits : List (List Bool)) : State × Option Pkt :=
  match takePkt s port kind bits with
  | (s, none) => (s, none)
  | (s, some q) =>
    let s := if q.dest = 4095 ∨ routeOf s q.dest ≠ some 15 then routePkt s (some port) q else s
    (s, if isLocal s q.dest then some q else none)

/-- The Weir address of the claim register (R445, R448). -/
def claimAddr : Nat := regSpace + 0x220

/-- REMOTE_WRITE: an access as slice 0 under its rules; the first write to the claim register of a headless device makes the sender its remote manager, and further ones are dropped while the claim is held (R351, R352, R448). -/
def execRemoteWrite (port : Nat) (bits : List (List Bool)) (s : State) : Host.Outcome State Fault Refusal :=
  .next (
    match takeMgmt s port 7 bits with
    | (s, none) => s
    | (s, some q) =>
      let a := leAt q.payload 0 8
      let l := q.payload.drop 8
      if a = claimAddr then
        match weirDenied s 0 engFabric true a l.length with
        | some (u, r) => denyAt s 0 engFabric true r u
        | none => if s.regs.headless ∧ s.regs.claim = none then { s with regs := { s.regs with claim := some q.src, lostAt := none } } else s
      else writeUnits s (fun s u => weirDecide s 0 engFabric true u) { slice := 0, engine := engFabric } a l)

/-- REMOTE_READ: checked as slice 0 and answered with REMOTE_DATA; a denied unit returns 0xDEB0_DEB0 (R352, R448). -/
def execRemoteRead (port : Nat) (bits : List (List Bool)) (s : State) : Host.Outcome State Fault Refusal :=
  .next (
    match takeMgmt s port 8 bits with
    | (s, none) => s
    | (s, some q) =>
      let (s, l) := readUnits s (fun s u => weirDecide s 0 engFabric false u) { slice := 0, engine := engFabric }
        (leAt q.payload 0 8) (leAt q.payload 8 4)
      routePkt s none { dest := q.src, src := s.fabric.addr, kind := 9, payload := (q.payload.drop 12).take 4 ++ l })

/-- REMOTE_DATA: completes the window read that it answers; a late answer is discarded (R448). -/
def execRemoteData (port : Nat) (bits : List (List Bool)) (s : State) : Host.Outcome State Fault Refusal :=
  .next (
    match takeMgmt s port 9 bits with
    | (s, none) => s
    | (s, some q) =>
      match s.regs.winReads.find? fun w => w.seq == leAt q.payload 0 4 && w.target == q.src with
      | none => s
      | some w => emit { s with regs := { s.regs with winReads := s.regs.winReads.filter (· != w) } }
          (.readData w.size (natLE ((q.payload.drop 4).take w.size))))

/-- An INTERRUPT enters the FIFO of 64 and raises vector 16; one already pending is merged, and a full FIFO sets OVERFLOW (R449). -/
def takeInterrupt (s : State) (src vector : Nat) : State :=
  let f : Firq := { src, vector }
  let q := s.regs.firq
  if q.contains f then s
  else if 64 ≤ q.length then { s with regs := { s.regs with firqOverflow := true } }
  else raiseEntry { s with regs := { s.regs with firq := q ++ [f] } } 16

/-- INTERRUPT_PACKET (R449). -/
def execInterruptPacket (port : Nat) (bits : List (List Bool)) (s : State) : Host.Outcome State Fault Refusal :=
  .next (
    match takeMgmt s port 10 bits with
    | (s, none) => s
    | (s, some q) => takeInterrupt s q.src (byteAt q.payload 0 % 64))

/-- HEADLESS_DETECT: 1 s after READY, the link has not reached L0 since the last reset (R351). -/
def execHeadlessDetect (s : State) : Host.Outcome State Fault Refusal :=
  .next (if s.boot.state = .ready ∧ !s.regs.reachedL0 ∧ passed s s.boot.readyAt 1000000000 then { s with regs := { s.regs with headless := true } } else s)

/-- The claim ends, with EV_ROUTES_CHANGED of cause 0x04 (R352). -/
def endClaim (s : State) : State :=
  match s.regs.claim with
  | none => s
  | some _ => postRoutes { s with regs := { s.regs with claim := none, lostAt := none } } 4 0

/-- REMOTE_CLAIM_LOST: the remote manager's address has been unreachable for 1 s (R352). -/
def execRemoteClaimLost (s : State) : Host.Outcome State Fault Refusal :=
  .next (match s.regs.claim with
    | some _ => match s.regs.lostAt with
      | some t => if passed s t 1000000000 then endClaim s else s
      | none => s
    | none => s)

/-! The PCI Express link (R352, R358). -/

/-- Host memory is in reach again: waiting interrupts, replies and events are written (R358). -/
def resumeHost (s : State) : State :=
  let due := (List.range 1088).filter fun e => tget false s.regs.msixPending e && tget false s.regs.unmasked e
  let s := forEach due (fun e s => raiseEntry { s with regs := { s.regs with msixPending := tset false s.regs.msixPending e false } } e) s
  forEach (s.rings.map Prod.fst) (fun n s => flushLiveness (flushLost (flushWaiting s n) n) n) s

/-- PCIE_LINK_UP: the link reaches L0; headless status and a claim end (R352). -/
def execPcieLinkUp (s : State) : Host.Outcome State Fault Refusal :=
  .next (if s.power.inRange ∧ s.regs.perst ∧ !s.regs.linkUp then
    resumeHost (endClaim { s with regs := { s.regs with linkUp := true, reachedL0 := true, headless := false } })
  else s)

/-- PCIE_LOOPBACK_ENTRY: the link goes into Loopback as follower; transactions and rings in host memory stop, and scans of its lanes end (R358, R361). -/
def execPcieLoopbackEntry (s : State) : Host.Outcome State Fault Refusal :=
  .next (if s.regs.linkUp then endScans { s with regs := { s.regs with loopback := true } } 0 8 else s)

/-- PCIE_LOOPBACK_EXIT: transactions and ring progress resume (R358). -/
def execPcieLoopbackExit (s : State) : Host.Outcome State Fault Refusal :=
  .next (if s.regs.loopback then resumeHost { s with regs := { s.regs with loopback := false } } else s)

end Sys2Proof.Machine
end

