-- ==== Sys2Proof/Machine/Smb.lean ====
section
/-! DEFINITION. The SMBus side band, which Platform answers in every state (R425, R446, R452 to R454). -/
namespace Sys2Proof.Machine
open Sys2Proof

/-- Platform answers: 12 V is in range (R416, R452). -/
def smbAnswer (s : State) (l : List Byte) : State := if s.power.inRange then emit s (.smbData l) else s

/-- SMB_STATUS (R452). -/
def execSmbStatus (s : State) : Host.Outcome State Fault Refusal := .next (smbAnswer s (bytesLE 1 (smbStatusByte s)))

/-- The image of the running bank (R422). -/
def runningImage (s : State) : FwImage := if s.boot.running then s.boot.bankB.image else s.boot.bankA.image

/-- The active bank: 0 A, 1 B (R429, R440). -/
def activeBank (s : State) : Nat :=
  if s.boot.bankA.state = .active then 0 else if s.boot.bankB.state = .active then 1 else s.boot.running.toNat

/-- SMB_IDENT (R452). -/
def execSmbIdent (s : State) : Host.Outcome State Fault Refusal :=
  let g := runningImage s
  .next (smbAnswer s (bytesLE 16 (packFields [fAt 0 0 64 Config.deviceId.toNat, fAt 8 0 8 g.major, fAt 9 0 8 g.minor, fAt 10 0 16 g.patch,
    fAt 12 0 8 (activeBank s), fAt 13 0 8 Config.stepping.toNat])))

/-- Eight measured sensors become the state's. -/
def setSensors (s : State) (temps : List Int) : State :=
  if temps.length = 8 then { s with boot := { s.boot with sensors := temps } } else s

/-- SMB_TEMP: the hottest sensor, signed 0.1 degC (R452). -/
def execSmbTemp (temps : List Int) (s : State) : Host.Outcome State Fault Refusal :=
  let s := setSensors s temps
  .next (smbAnswer s (bytesLE 2 (ofSigned 16 (hottest s.boot.sensors))))

/-- SMB_SENSORS (R452). -/
def execSmbSensors (temps : List Int) (s : State) : Host.Outcome State Fault Refusal :=
  let s := setSensors s temps
  .next (smbAnswer s (s.boot.sensors.flatMap fun t => bytesLE 2 (ofSigned 16 t)))

/-- SMB_VIN: the input voltage measured, mV (R452). -/
def execSmbVin (mv : Nat) (s : State) : Host.Outcome State Fault Refusal := .next (smbAnswer s (bytesLE 2 mv))

/-- SMB_IIN: the input current measured, mA (R452). -/
def execSmbIin (ma : Nat) (s : State) : Host.Outcome State Fault Refusal := .next (smbAnswer s (bytesLE 2 ma))

/-- SMB_PIN: the input power measured, 10 mW units (R452). -/
def execSmbPin (units : Nat) (s : State) : Host.Outcome State Fault Refusal := .next (smbAnswer s (bytesLE 2 units))

/-- SMB_FAULT_COUNT (R452). -/
def execSmbFaultCount (s : State) : Host.Outcome State Fault Refusal := .next (smbAnswer s (bytesLE 1 s.boot.faults.length))

/-- SMB_FAULT_INDEX: latches the SEQ of the record at a position, or the SEQ after the newest where none is held (R453). -/
def execSmbFaultIndex (index : Nat) (s : State) : Host.Outcome State Fault Refusal :=
  .next (if !s.power.inRange || decide (63 < index) then s
    else { s with smb := { s.smb with latchedSeq := ((s.boot.faults[index]?).map FaultRec.seq).getD s.boot.nextSeq } })

/-- The record a FAULT_RECORD read returns: the latched one, the oldest when that is gone, none past the newest (R453). -/
def faultToRead (s : State) : Option FaultRec :=
  match s.boot.faults.find? fun f => f.seq == s.smb.latchedSeq with
  | some f => some f
  | none => if seqFrom s.smb.latchedSeq s.boot.nextSeq then none else s.boot.faults.head?

/-- SMB_FAULT_RECORD (R453). -/
def execSmbFaultRecord (s : State) : Host.Outcome State Fault Refusal :=
  .next (if !s.power.inRange then s
    else match faultToRead s with
      | some f => emit { s with smb := { s.smb with latchedSeq := (f.seq + 1) % 2 ^ 32 } } (.smbData (bytesLE 32 (faultBits f)))
      | none => emit s (.smbData (List.replicate 32 0)))

/-- SMB_FAULT_NEWEST: the newest record's SEQ, 0 when none is held (R452). -/
def execSmbFaultNewest (s : State) : Host.Outcome State Fault Refusal :=
  .next (smbAnswer s (bytesLE 4 ((s.boot.faults.getLast?.map FaultRec.seq).getD 0)))

/-- SMB_RESET: 0xA5 requests a device reset, as RESET_REQ does (R446, R452). -/
def execSmbReset (value : Nat) (s : State) : Host.Outcome State Fault Refusal := .next (if value = 0xA5 then requestReset s 6 else s)

/-- SMB_ALERT_RESPONSE: an asserted SMB_ALERT_N answers with the target's address and is released (R454). -/
def execSmbAlertResponse (s : State) : Host.Outcome State Fault Refusal :=
  .next (if s.power.inRange && s.smb.alert then
    emit (emit { s with smb := { s.smb with alert := false } } (.smbData [if s.smb.asel then 0x5B else 0x5A])) (.pin 32 true)
  else s)

end Sys2Proof.Machine
end

