-- ==== Sys2Proof/Machine/Boot.lean ====
section
/-! DEFINITION. Start-up, resets, Lockkeeper restarts, device faults and heat (R416 to R427, R429 to R431, R435, R457). -/
namespace Sys2Proof.Machine
open Sys2Proof

/-! Power and reset pins (R416, R425, R426, R457). -/

/-- POWER_INPUT_IN_RANGE (R416). -/
def execPowerInputInRange (s : State) : Host.Outcome State Fault Refusal := .next (if s.power.inRange then s else powerOn s)

/-- POWER_INPUT_FALL: a 12 V cycle; the fault record goes too (R426, R457). -/
def execPowerInputFall (s : State) : Host.Outcome State Fault Refusal :=
  .next (if s.power.inRange then
    let r := keepFlash (resetPins s)
    { r with power := { r.power with inRange := false } }
  else s)

/-- RST_N_ASSERT: low for 1 µs (R426); the start-up waits for the release (R416). -/
def execRstNAssert (s : State) : Host.Outcome State Fault Refusal :=
  .next (if s.regs.rst then s else requestReset { s with regs := { s.regs with rst := true } } 2)

/-- RST_N_RELEASE (R416). -/
def execRstNRelease (s : State) : Host.Outcome State Fault Refusal := .next { s with regs := { s.regs with rst := false } }

/-- PERST_N_ASSERT (R426). -/
def execPerstNAssert (s : State) : Host.Outcome State Fault Refusal :=
  .next (if s.regs.perst then requestReset { s with regs := { s.regs with perst := false, linkUp := false, loopback := false } } 3 else s)

/-- PERST_N_RELEASE (R416). -/
def execPerstNRelease (s : State) : Host.Outcome State Fault Refusal := .next { s with regs := { s.regs with perst := true } }

/-- PCIE_HOT_RESET, which comes over a link that is up (R426). -/
def execPcieHotReset (s : State) : Host.Outcome State Fault Refusal :=
  .next (if s.power.inRange ∧ s.regs.linkUp ∧ s.boot.state ≠ .thermalTrip then deviceReset s 4 else s)

/-- WARN_N is low while any junction sensor is at or above 95 degC (R465). -/
def driveWarn (s : State) (was : Bool) : State :=
  let hot := decide (950 ≤ hottest s.boot.sensors)
  if hot = was then s else emit s (.pin 74 (!hot))

/-- New sensor values, with WARN_N following them. -/
def measureSensors (s : State) (temps : List Int) : State :=
  driveWarn (setSensors s temps) (decide (950 ≤ hottest s.boot.sensors))

/-- HELD_RESET_RELEASE: every sensor is below 100 degC again (R425). -/
def execHeldResetRelease (temps : List Int) (s : State) : Host.Outcome State Fault Refusal :=
  .next (
    let s := measureSensors s temps
    match s.boot.heldReset with
    | some c => if s.boot.state = .thermalTrip ∧ hottest s.boot.sensors < 1000 then deviceReset s c else s
    | none => s)

/-- DEVICE_RESET_DELAY_EXPIRY: 10 ms after the reply (R435). -/
def execDeviceResetDelayExpiry (s : State) : Host.Outcome State Fault Refusal := .next (if s.boot.resetDelay && passed s s.boot.resetAt 10000000 then deviceReset s 5 else s)

/-! Firmware banks (R429 to R431). -/

/-- A bank: false A, true B. -/
def getFw (s : State) (b : Bool) : FwBank := if b then s.boot.bankB else s.boot.bankA
/-- Change a bank. -/
def modFw (s : State) (b : Bool) (f : FwBank → FwBank) : State :=
  if b then { s with boot := { s.boot with bankB := f s.boot.bankB } } else { s with boot := { s.boot with bankA := f s.boot.bankA } }

/-- Set a bank's state with EV_FW_STATE (R429, R431). -/
def setFw (s : State) (b : Bool) (t : FwState) (cause : Nat) : State :=
  let old := (getFw s b).state
  if old = t then s
  else
    let s := modFw s b fun x => { x with state := t, image := if t = .invalid then {} else x.image }
    let g := (getFw s b).image
    post s 0 0x0F02 [fAt 2 0 1 b.toNat, fAt 3 0 4 (fwStateCode t), fAt 3 4 4 (fwStateCode old), fAt 4 0 8 cause,
      fAt 16 0 8 g.major, fAt 17 0 8 g.minor, fAt 18 0 16 g.patch]

/-- The banks in the order the boot ROM tries them: the one marked TRIAL, the ACTIVE one, the PREVIOUS one (R421, R430). -/
def bootOrder (s : State) : List Bool :=
  let pick (t : FwState) : List Bool := [false, true].filter fun b => (getFw s b).state == t
  pick .trial ++ pick .active ++ pick .previous

/-- The boot ROM tries banks in order with the check that each fails, 0 for none: one that fails is INVALID with a record of KIND 0x0A (R421). Gives the bank that boots. -/
def tryBanks (fail : Bool → Nat) : List Bool → State → State × Option Bool
  | [], s => (s, none)
  | b :: r, s =>
    if fail b = 0 then (if (getFw s b).state = .previous then setFw s b .active 3 else s, some b)
    else tryBanks fail r (addFault (setFw s b .invalid 5) 0xA b.toNat (fail b))

/-- BOOT_ROM_VERIFY_COMPLETE: the failing check of each bank's image, 0 when it passes; Lockkeeper starts, or BOOT_FAILED (R421). -/
def execBootRomVerifyComplete (aFail bFail : Nat) (s : State) : Host.Outcome State Fault Refusal :=
  .next (if !s.power.inRange || s.regs.rst || s.boot.state != .bootRom || !s.time.running then s
    else match tryBanks (fun b => if b then bFail else aFail) (bootOrder s) s with
      | (s, none) => setDevState s .bootFailed
      | (s, some b) => setDevState { s with boot := { s.boot with
          running := b, lk := .running, trialRunning := (getFw s b).state == .trial, trialAt := upTime s } } .storeTraining)

/-- Lockkeeper runs from a bank: a TRIAL bank is confirmed, and a bank found STAGING or VERIFIED is INVALID (R430, R431). -/
def confirmBanks (s : State) : State :=
  let b := s.boot.running
  let s := if s.boot.trialRunning && (getFw s b).state == .trial then
      let s := if (getFw s (!b)).state = .active then setFw s (!b) .previous 4 else s
      setFw s b .active 4
    else s
  let s := { s with boot := { s.boot with trialRunning := false } }
  forEach [false, true] (fun b s =>
    let t := (getFw s b).state
    if t = .staging ∨ t = .verified then addFault (setFw s b .invalid 2) 0xB b.toNat 0 else s) s

/-! Start-up (R416 to R420). -/

/-- LOCKED_CLOCKS_RELEASE: WP starts at 0:0.0 (R42, R416). -/
def execLockedClocksRelease (s : State) : Host.Outcome State Fault Refusal :=
  .next (if s.power.inRange && !s.regs.rst && s.boot.state != .thermalTrip && !s.time.running then
    { s with time := { s.time with running := true, wp := {} } } else s)

/-- Lockkeeper halts in DEVICE_FAULT, with a record of KIND 0x03 (R424). -/
def enterFault (s : State) (cause : Nat) : State :=
  if s.boot.state = .deviceFault ∨ s.boot.state = .thermalTrip ∨ !s.power.inRange then s
  else addFault (setDevState { s with boot := { s.boot with lk := .halted } } .deviceFault) 3 0 cause

/-- STORE_TRAINING_COMPLETE (R416, R418). -/
def execStoreTrainingComplete (ok : Bool) (s : State) : Host.Outcome State Fault Refusal :=
  .next (if s.boot.state ≠ .storeTraining then s else if ok then setDevState s .fwInit else enterFault s 3)

/-- The command key of an output that the boot display record enables; no packet has it. -/
def bootKey : CmdKey := { ring := 255 }

/-- One image of the boot display record: the output is configured and enabled as the commands would (R420; log entry 63). -/
def bootOutput (p : Packet) (s : State) : State :=
  let o := pf p 16 0 3
  let c := cfgOf p
  if p = 0 || configureBad s o p || limitBroken s s.time.timing o c != 0 || (getOut s o).state != .unconfigured then s
  else modOut s o fun x => { x with
    state := .disabled, cfg := c, starting := true, enable := some { key := bootKey, frame := boundaryAfter (now s) } }

/-- The outputs of the boot display record: eight images of 64 bytes (R420). -/
def bootDisplay (s : State) : State :=
  forEach (List.range 8) (fun k s => bootOutput (BitVec.ofNat 512 (natLE ((s.boot.display.drop (64 * k)).take 64))) s) s

/-- STARTUP_ZERO_FILL_COMPLETE: every byte of the stack is zero, and the boot display record's outputs start (R418, R420). -/
def execStartupZeroFillComplete (ok : Bool) (s : State) : Host.Outcome State Fault Refusal :=
  .next (if s.boot.state ≠ .fwInit ∨ s.boot.filled then s
    else if !ok then enterFault s 3
    else bootDisplay { s with
      store := { s.store with mem := [], poison := [], poisonSeen := [] }
      boot := { s.boot with filled := true } })

/-- DEVICE_READY (R416, R419, R430, R437). -/
def execDeviceReady (s : State) : Host.Outcome State Fault Refusal :=
  .next (if s.boot.state ≠ .fwInit ∨ !s.boot.filled then s
    else
      let s := setDevState { s with boot := { s.boot with wasReady := true, readyAt := upTime s } } .ready
      confirmBanks (postFaults s))

/-- TRIAL_BOOT_TIMEOUT: a TRIAL image has neither reached READY nor run again within 2 s; its bank is INVALID and the other boots (R430). -/
def execTrialBootTimeout (s : State) : Host.Outcome State Fault Refusal :=
  let b := s.boot.running
  .next (if !s.boot.trialRunning || (getFw s b).state != .trial || !passed s s.boot.trialAt 2000000000 then s
    else
      let s := setFw s b .invalid 3
      let s := if (getFw s (!b)).state = .previous then setFw s (!b) .active 3 else s
      let s := { s with boot := { s.boot with running := !b, trialRunning := false } }
      let s := addFault s 0xC b.toNat 0
      if s.boot.lk = .restarting then s
      else if s.boot.state = .storeTraining ∨ s.boot.state = .fwInit then
        setDevState { s with boot := { s.boot with lk := .halted, filled := false } } .bootRom
      else s)

/-! Lockkeeper restarts (R73, R423). -/

/-- A restart interrupts the commands that Lockkeeper had not committed: ST_ENGINE_FAULT with 0x01, sent once Lockkeeper runs (R73, R423, R428). -/
def interruptHeld (s : State) : State :=
  forEach (s.rings.flatMap fun e => e.2.held) (fun h s =>
    if h.phase = .taken ∧ !opIsQe (pktOpcode h.pkt) then finishNow s h .engineFault [fAt 16 0 8 1] else s) s

/-- Lockkeeper goes down and its image is verified again (R423). -/
def beginRestart (s : State) : State := interruptHeld { s with boot := { s.boot with lk := .restarting } }

/-- LOCKKEEPER_WATCHDOG_EXPIRY: a record of KIND 0x02; the third reset within 60 s is a device fault (R423, R424). -/
def execLockkeeperWatchdogExpiry (processor : Nat) (s : State) : Host.Outcome State Fault Refusal :=
  .next (if s.boot.lk ≠ .running then s
    else
      let t := uptimeMs s
      let recent := s.boot.dogTimes.filter fun x => decide (t < x + 60000)
      let s := addFault (beginRestart { s with boot := { s.boot with dogTimes := t :: recent } }) 2 processor 0
      if 2 ≤ recent.length then enterFault s 1 else s)

/-- FW_ACTIVATE_RESTART_DELAY: Lockkeeper restarts from the TRIAL bank (R434). -/
def execFwActivateRestartDelay (s : State) : Host.Outcome State Fault Refusal :=
  .next (if !s.boot.restartDelay || !passed s s.boot.restartAt 10000000 then s
    else
      let s := { s with boot := { s.boot with restartDelay := false } }
      match [false, true].find? fun b => (getFw s b).state == .trial with
      | none => s
      | some b => if s.boot.lk = .running then beginRestart { s with boot := { s.boot with running := b, trialRunning := true, trialAt := upTime s } } else s)

/-- Every reply and event that waited for Lockkeeper is written. -/
def sendOwed (s : State) : State := postFaults (forEach (s.rings.map Prod.fst) (fun n s => flushWaiting s n) s)

/-- LOCKKEEPER_RESTART_COMPLETE: the failing check of the running bank's image, 0 when it passes; then Lockkeeper runs again and sends what it owes (R423, R430, R431). -/
def execLockkeeperRestartComplete (fail : Nat) (s : State) : Host.Outcome State Fault Refusal :=
  .next (if s.boot.lk ≠ .restarting then s
    else if fail = 0 then
      let s := { s with boot := { s.boot with lk := .running } }
      let s := sendOwed s
      if s.boot.state = .ready then confirmBanks s else s
    else
      let b := s.boot.running
      let s := addFault (setFw s b .invalid 5) 0xA b.toNat fail
      match tryBanks (fun _ => 0) ((bootOrder s).filter (· != b)) s with
      | (s, some c) => { s with boot := { s.boot with running := c, trialRunning := (getFw s c).state == .trial, trialAt := upTime s } }
      | (s, none) => setDevState { s with boot := { s.boot with lk := .halted } } .bootFailed)

/-- RAIL_OUT_OF_TOLERANCE (R424). -/
def execRailOutOfTolerance (_rail : Nat) (s : State) : Host.Outcome State Fault Refusal := .next (enterFault s 4)

/-- LOCKKEEPER_MEMORY_ECC (R424). -/
def execLockkeeperMemoryEcc (s : State) : Host.Outcome State Fault Refusal := .next (if s.boot.lk = .halted then s else enterFault s 2)

/-! Heat (R425, R454). -/

/-- The lowest-numbered hottest sensor. -/
def hotSensor (s : State) : Nat := (firstIdx (fun i => s.boot.sensors.getD i 0 == hottest s.boot.sensors) 0 8).getD 0

/-- EV_THERMAL (R425). -/
def postThermal (s : State) (kind : Nat) : State :=
  post s 0 0x0F01 [fAt 2 0 8 kind, fAt 3 0 8 (hotSensor s), fAt 4 0 16 (ofSigned 16 (hottest s.boot.sensors))]

/-- THERMAL_SENSOR_CROSSING: a sensor reaches 95 degC, or every sensor has fallen below 90 degC (R425, R454). -/
def execThermalSensorCrossing (temps : List Int) (s : State) : Host.Outcome State Fault Refusal :=
  .next (if !s.power.inRange then s
    else
      let s := measureSensors s temps
      let t := hottest s.boot.sensors
      if !s.boot.warning && decide (950 ≤ t) then assertAlert (postThermal { s with boot := { s.boot with warning := true } } 1)
      else if s.boot.warning && decide (t < 900) then postThermal { s with boot := { s.boot with warning := false } } 2
      else s)

/-- A haptic channel. -/
def getHap (s : State) (c : Nat) : HapChan := tget {} s.io.haptics c
/-- Change a haptic channel. -/
def modHap (s : State) (c : Nat) (f : HapChan → HapChan) : State := { s with io := { s.io with haptics := tmod {} s.io.haptics c f } }

/-- R407: a fault turns a channel off, with EV_HAPTIC_FAULT to the manager and to the owner. -/
def hapticOff (s : State) (c cause peak : Nat) : State :=
  let x := getHap s c
  let s := emit (modHap s c fun x => { x with fault := cause, play := none, next := [], brake := 0 }) (.haptic c 0)
  let fs := [fAt 2 0 3 c, fAt 3 0 8 cause, fAt 4 0 16 peak, fAt 6 0 16 (if x.erm then 0 else x.freq)]
  let s := post s 0 0x0904 fs
  if x.owner = 0 then s else post s x.owner 0x0904 fs

/-- Every haptic channel in use goes off on a thermal trip; its peak current then is an open value (R407). -/
def hapticsOff (s : State) : State :=
  forEach ((List.range 8).filter fun c => (getHap s c).enable && (getHap s c).fault == 0) (fun c s =>
    let (v, s) := freshValue s
    hapticOff s c 5 (v.toNat % 2 ^ 16)) s

/-- Power is off everything but Platform, which keeps the fault store and the side band (R425). -/
def powerDown (s : State) : State :=
  let b := s.boot
  let r := keepFlash (resetPins { s with boot := { s.boot with state := .ready } })
  { r with
    boot := { r.boot with
      state := b.state, faults := b.faults, nextSeq := b.nextSeq, overwritten := b.overwritten, resets := b.resets, unposted := b.unposted
      uptime := upTime s, warning := b.warning, heldReset := b.heldReset }
    smb := s.smb }

/-- THERMAL_TRIP: a sensor reaches 115 degC (R425). -/
def execThermalTrip (temps : List Int) (s : State) : Host.Outcome State Fault Refusal :=
  .next (
    let s := measureSensors s temps
    if !s.power.inRange || s.boot.state == .thermalTrip || decide (hottest s.boot.sensors < 1150) then s
    else
      let s := hapticsOff s
      let s := setDevState { s with boot := { s.boot with lk := .halted } } .thermalTrip
      powerDown (addFault s 4 (hotSensor s) (ofSigned 16 (hottest s.boot.sensors))))

end Sys2Proof.Machine
end

