-- ==== Sys2Proof/Machine/Firmware.lean ====
section
/-! DEFINITION. Firmware update, DEVICE_RESET, ENGINE_REINIT, the fault record, counters and IDENTIFY (R429 to R440). -/
namespace Sys2Proof.Machine
open Sys2Proof

/-! FW_STAGE (R432). -/

/-- The staging bank: the one that is neither ACTIVE nor TRIAL (R430). -/
def stagingBank (s : State) : Bool := (getFw s false).state == .active || (getFw s false).state == .trial

/-- Bytes of a bank (the flash layout). -/
def bankBytes : Nat := 25165824

/-- Step 8 checks of FW_STAGE. -/
def checkFwStage (s : State) (h : Held) (_ : Cmd) : Option Fail :=
  let p := h.pkt
  let off := pf p 20 0 32
  let n := pf p 24 0 32
  firstFail [
    (!reservedZero p [(16, 0, 2), (20, 0, 32), (24, 0, 32), (32, 0, 64)] || pf p 32 0 64 % 64 != 0 || !inRange n 1 65536 || off % 65536 != 0 ||
      (if pb p 16 0 then off != 0 || decide (512 < n) else decide (bankBytes < off + n)), failWith .badParam),
    ([false, true].any (fun b => (getFw s b).state == .trial) || s.boot.verify.isSome, failWith .notReady)]

/-- Detail of FW_STAGE: the staging bank and its state. -/
def stageDetail (s : State) : List Field := [fAt 16 0 8 (stagingBank s).toNat, fAt 17 0 8 (fwStateCode (getFw s (stagingBank s)).state)]

/-- FW_STAGE's effect: the bank is STAGING before any sector is erased; a read-back that differs comes as a value of the command (R430, R432). -/
def actFwStage (s : State) (h : Held) (c : Cmd) : State :=
  let p := h.pkt
  let b := stagingBank s
  let s := if pb p 16 0 then s else setFw s b .staging 1
  match srcRead s h.slice engLock (pb p 16 1) c (pf p 32 0 64) (pf p 24 0 32) with
  | (s, none) => finishNow s h .weirDenied (stageDetail s)
  | (s, some l) =>
    let bad := c.obs.getD 0 0 ≠ 0
    let s := if pb p 16 0 then { s with boot := { s.boot with display := if bad then [] else l } }
      else modFw s b fun x => { x with chunks := tset [] x.chunks (pf p 20 0 32 / 65536) (if bad then [] else l) }
    finishNow s h (if bad then .checkFailed else .ok) (stageDetail s)

/-- FW_STAGE (0xF01). -/
def execFwStage (c : Cmd) (s : State) : Host.Outcome State Fault Refusal :=
  .next (runPacket s c 0xF01 (fun _ => true) checkFwStage actFwStage)

/-! FW_VERIFY (R433). -/

/-- The bank in STAGING. -/
def bankIn (s : State) (t : FwState) : Option Bool := [false, true].find? fun b => (getFw s b).state == t

/-- Step 8 checks of FW_VERIFY. -/
def checkFwVerify (s : State) (h : Held) (_ : Cmd) : Option Fail :=
  firstFail [(!reservedZero h.pkt [], failWith .badParam), ((bankIn s .staging).isNone || s.boot.verify.isSome, failWith .notReady)]

/-- FW_VERIFY's commit point: ST_DEFERRED. -/
def actFwVerify (s : State) (h : Held) (_ : Cmd) : State := defer { s with boot := { s.boot with verify := some (heldKey h) } } h []

/-- FW_VERIFY (0xF02). -/
def execFwVerify (c : Cmd) (s : State) : Host.Outcome State Fault Refusal :=
  .next (runPacket s c 0xF02 (fun _ => true) checkFwVerify actFwVerify)

/-- The header of a bank's staged image (R422). -/
def headerOf (l : List Byte) : FwImage := { major := byteAt l 4, minor := byteAt l 5, patch := leAt l 6 2, svn := leAt l 8 4, keySlot := byteAt l 16 % 4 }

/-- The first check of R421 that a staged image fails, as R433 numbers them; the hash and the signature are checked outside the model and come as `result`. -/
def verifyReason (s : State) (l : List Byte) (result : Nat) : Nat :=
  let g := headerOf l
  if leAt l 0 4 ≠ 0x57464B4C ∨ 25164544 < leAt l 12 4 ∨ result = 1 then 1
  else if result = 2 then 2
  else if bitAt s.boot.revoked g.keySlot ∨ result = 3 then 3
  else if g.svn < s.boot.minSvn ∨ result ≠ 0 then 4 else 0

/-- FW_VERIFY_COMPLETE: the bank is VERIFIED or INVALID, and the final reply is sent (R433). -/
def execFwVerifyComplete (result : Nat) (s : State) : Host.Outcome State Fault Refusal :=
  .next (match s.boot.verify with
    | none => s
    | some k =>
      let s := { s with boot := { s.boot with verify := none } }
      match bankIn s .staging with
      | none => finishKey s k .checkFailed (nowBits s) [fAt 18 0 8 result]
      | some b =>
        let l := tget [] (getFw s b).chunks 0
        let g := headerOf l
        let why := verifyReason s l result
        let det := [fAt 16 0 8 b.toNat, fAt 18 0 8 why, fAt 20 0 8 g.major, fAt 21 0 8 g.minor, fAt 22 0 8 g.svn]
        if why = 0 then finishKey (setFw (modFw s b fun x => { x with image := g }) b .verified 1) k .ok (nowBits s) det
        else finishKey (setFw s b .invalid 1) k .checkFailed (nowBits s) det)

/-! FW_ACTIVATE (R434). -/

/-- Step 8 checks of FW_ACTIVATE. -/
def checkFwActivate (s : State) (h : Held) (_ : Cmd) : Option Fail :=
  let p := h.pkt
  let mode := pb p 16 0
  let rev := pb p 16 1
  let svn := pb p 16 2
  let target := bankIn s (if rev then .previous else .verified)
  let active := bankIn s .active
  firstFail [
    (!reservedZero p [(16, 0, 3)] || (svn && (mode || rev)), failWith .badParam),
    (svn && ((bankIn s .verified).isSome || (bankIn s .trial).isSome || active.isNone), failWith .notReady),
    (!svn && (match target with
      | none => true
      | some b => (mode && decide ((getFw s b).image.major ≠ (getFw s (!b)).image.major)) ||
                  (rev && decide ((getFw s b).image.svn < s.boot.minSvn))), failWith .notReady)]

/-- FW_ACTIVATE's effect. -/
def actFwActivate (s : State) (h : Held) (_ : Cmd) : State :=
  let p := h.pkt
  if pb p 16 2 then
    let n := max s.boot.minSvn (match bankIn s .active with | some b => (getFw s b).image.svn | none => 0)
    finishNow { s with boot := { s.boot with minSvn := n } } h .ok [fAt 17 0 8 n]
  else match bankIn s (if pb p 16 1 then .previous else .verified) with
    | none => finishNow s h .notReady []
    | some b =>
      let s := setFw s b .trial 1
      finishNow { s with boot := { s.boot with restartDelay := pb p 16 0, restartAt := upTime s } } h .ok [fAt 16 0 8 b.toNat]

/-- FW_ACTIVATE (0xF03). -/
def execFwActivate (c : Cmd) (s : State) : Host.Outcome State Fault Refusal :=
  .next (runPacket s c 0xF03 (fun _ => true) checkFwActivate actFwActivate)

/-! DEVICE_RESET (R435). -/

/-- Step 8 checks of DEVICE_RESET. -/
def checkDeviceReset (_ : State) (h : Held) (_ : Cmd) : Option Fail :=
  if !reservedZero h.pkt [(16, 0, 32)] || pf h.pkt 16 0 32 != 0x44455652 then some (failWith .badParam) else none

/-- DEVICE_RESET's effect: the reply; the reset follows 10 ms later. -/
def actDeviceReset (s : State) (h : Held) (_ : Cmd) : State :=
  finishNow { s with boot := { s.boot with resetDelay := true, resetAt := upTime s } } h .ok []

/-- DEVICE_RESET (0xF04). -/
def execDeviceReset (c : Cmd) (s : State) : Host.Outcome State Fault Refusal :=
  .next (runPacket s c 0xF04 (fun _ => true) checkDeviceReset actDeviceReset)

/-! ENGINE_REINIT (R436). -/

/-- Units of each kind: banks, Sluice lanes, decode cores, encode cores. -/
def unitCount (unit : Nat) : Nat := if unit = 1 ∨ unit = 2 ∨ unit = 4 then 2 else if unit = 3 then 8 else 0

/-- Step 8 checks of ENGINE_REINIT. -/
def checkReinit (s : State) (h : Held) (_ : Cmd) : Option Fail :=
  let p := h.pkt
  let u := pf p 16 0 8
  let i := pf p 17 0 3
  firstFail [
    (!reservedZero p [(16, 0, 8), (17, 0, 3), (18, 0, 16)] || !decide (i < unitCount u) || (u != 1 && pf p 18 0 16 != 0), failWith .badParam),
    ((u == 1 && ((getBank s i).state != .failed || (getBank s i).reinit.isSome)) || s.boot.reinits.any (fun r => r.unit == u && r.index == i),
      failWith .notReady)]

/-- A Sluice lane's work goes back to the queue, and its mismatch count is reset (R152, R436). -/
def resetLane (s : State) (i : Nat) : State :=
  let x := tget {} s.sluice.lanes i
  { s with sluice := { s.sluice with
      queue := (match x.job with | some w => [w] | none => []) ++ s.sluice.queue
      lanes := tset {} s.sluice.lanes i { inService := false } } }

/-- The picture in a decode core is discarded, and its context waits for a random-access point (R242, R436). -/
def resetDecodeCore (s : State) (i : Nat) : State :=
  let s := { s with media := { s.media with decOut := s.media.decOut.filter (· != i) ++ [i] } }
  forEach (ctxsWhere s fun x => ctxCore x == some i) (fun n s =>
    match (getCtx s n).pic with
    | none => s
    | some p =>
      if p.orphan then dropOrphan s n p false
      else modCtx (popUnit s n) n fun x => { x with pic := none, wait := true, gdrTo := none, dropped := satAdd 32 x.dropped 1 }) s

/-- An encode picture that outlived its session is gone (R96). -/
def dropEncOrphan (s : State) (e : EncOrphan) (aborted : Bool) : State :=
  let s := { s with media := { s.media with encOrphans := s.media.encOrphans.filter (· != e) } }
  orphanDone (forEach e.surfs (fun i s => modSurf s i fun x => { x with orphans := x.orphans - 1 }) s) e.slice aborted

/-- The picture in an encode core is abandoned, and its session's next picture is a key picture (R436). -/
def resetEncodeCore (s : State) (i : Nat) : State :=
  let s := { s with media := { s.media with encOut := s.media.encOut.filter (· != i) ++ [i] } }
  let s := forEach (s.media.encOrphans.filter fun e => e.core == i) (fun e s => dropEncOrphan s e false) s
  forEach (sessionsWhere s fun x => match x.coding with | some p => p.core == some i | none => false) (fun n s =>
    modSession (endLatch s (.session n)) n fun x => { x with coding := none, keyNext := true, dropped := satAdd 32 x.dropped 1 }) s

/-- ENGINE_REINIT's commit point: the unit is reset and its self-check begins (R228, R436). -/
def actReinit (s : State) (h : Held) (_ : Cmd) : State :=
  let p := h.pkt
  let u := pf p 16 0 8
  let i := pf p 17 0 3
  let n := pf p 18 0 16
  let s := if u = 1 then modBank s i fun x => { x with state := .checking, reinit := some (heldKey h), holdoffFrames := if n = 0 then 120 else n }
    else if u = 2 then resetLane s i else if u = 3 then resetDecodeCore s i else resetEncodeCore s i
  let s := if u = 1 then s else { s with boot := { s.boot with reinits := s.boot.reinits ++ [{ unit := u, index := i, key := heldKey h, at_ := upTime s }] } }
  defer s h []

/-- ENGINE_REINIT (0xF05). -/
def execEngineReinit (c : Cmd) (s : State) : Host.Outcome State Fault Refusal :=
  .next (runPacket s c 0xF05 (fun _ => true) checkReinit actReinit)

/-- A unit other than a bank returns to service. -/
def backInService (s : State) (u i : Nat) : State :=
  if u = 2 then { s with sluice := { s.sluice with lanes := tmod {} s.sluice.lanes i fun x => { x with inService := true } } }
  else if u = 3 then { s with media := { s.media with decOut := s.media.decOut.filter (· != i) } }
  else { s with media := { s.media with encOut := s.media.encOut.filter (· != i) } }

/-- ENGINE_SELF_CHECK_COMPLETE of a lane, 1 ms, or a core, 5 ms; a bank's check is BANK_SELF_CHECK_END (R436). -/
def execEngineSelfCheckComplete (unit index : Nat) (ok : Bool) (test : Nat) (s : State) : Host.Outcome State Fault Refusal :=
  .next (match s.boot.reinits.find? fun r => r.unit == unit && r.index == index with
    | none => s
    | some r =>
      if !passed s r.at_ (if unit = 2 then 1000000 else 5000000) then s
      else
      let s := { s with boot := { s.boot with reinits := s.boot.reinits.filter (· != r) } }
      if ok then finishKey (backInService s unit index) r.key .ok (nowBits s) []
      else finishKey s r.key .checkFailed (nowBits s) [fAt 16 0 32 test])

/-! FAULT_READ and FAULT_CLEAR (R438). -/

/-- Step 8 checks of FAULT_READ. -/
def checkFaultRead (_ : State) (h : Held) (_ : Cmd) : Option Fail :=
  let d := pf h.pkt 24 0 64
  if !reservedZero h.pkt [(24, 0, 64)] || d % 32 != 0 || d == 0 then some (failWith .badParam) else none

/-- FAULT_READ's effect. -/
def actFaultRead (s : State) (h : Held) (c : Cmd) : State :=
  let fs := s.boot.faults
  replyWithRecord s h c (fs.flatMap fun f => bytesLE 32 (faultBits f))
    [fAt 16 0 8 fs.length, fAt 20 0 32 ((fs.getLast?.map FaultRec.seq).getD 0)]

/-- FAULT_READ (0xA04). -/
def execFaultRead (c : Cmd) (s : State) : Host.Outcome State Fault Refusal :=
  .next (runPacket s c 0xA04 (fun _ => true) checkFaultRead actFaultRead)

/-- Step 8 checks of FAULT_CLEAR. -/
def checkFaultClear (_ : State) (h : Held) (_ : Cmd) : Option Fail :=
  if !reservedZero h.pkt [(16, 0, 32)] then some (failWith .badParam) else none

/-- FAULT_CLEAR's effect. -/
def actFaultClear (s : State) (h : Held) (_ : Cmd) : State :=
  let left := s.boot.faults.filter fun f => decide (pf h.pkt 16 0 32 < f.seq)
  finishNow { s with boot := { s.boot with faults := left } } h .ok [fAt 16 0 8 (s.boot.faults.length - left.length)]

/-- FAULT_CLEAR (0xA05). -/
def execFaultClear (c : Cmd) (s : State) : Host.Outcome State Fault Refusal :=
  .next (runPacket s c 0xA05 (fun _ => true) checkFaultClear actFaultClear)

/-! COUNTERS_READ (R439). -/

/-- Entries of a group and counters of an entry. -/
def groupShape (g : Nat) : Nat × Nat :=
  if g = 1 then (32, 10) else if g = 2 then (3, 5) else if g = 3 then (2, 10) else if g = 4 then (2, 6) else if g = 5 then (78, 5) else (1, 6)

/-- One counter of an entry; mean and peak occupancies come from the pseudo-channel. -/
def counterValue (s : State) (g e k : Nat) : Nat :=
  if g = 1 ∧ inRange k 3 8 then
    let x := tget {} s.store.pcs e
    if k < 6 then (if x.occCount = 0 then 0 else x.occSum.getD (k - 3) 0 * 65536 / x.occCount) else x.occPeak.getD (k - 6) 0
  else getCounter s g e k

/-- The 64-byte header and the entries of a group. -/
def counterBytes (s : State) (g slice : Nat) : List Byte :=
  let (n, m) := groupShape g
  bytesLE 64 (packFields [fAt 0 0 8 g, fAt 2 0 16 n, fAt 4 0 16 (8 * m), fAt 8 0 64 (nowBits s)]) ++
  (List.range n).flatMap fun e => (List.range m).flatMap fun k => bytesLE 8 (counterValue s g (if g = 6 then slice else e) k)

/-- Step 8 checks of COUNTERS_READ. -/
def checkCounters (_ : State) (h : Held) (_ : Cmd) : Option Fail :=
  let p := h.pkt
  let g := pf p 16 0 8
  let sl := pf p 17 0 7
  let d := pf p 24 0 64
  firstFail [
    (!reservedZero p [(16, 0, 8), (17, 0, 7), (24, 0, 64)] || !inRange g 1 6 || (g != 6 && sl != 0) || decide (64 < sl) || d % 64 != 0 || d == 0,
      failWith .badParam),
    (h.slice != 0 && (g != 6 || sl != h.slice), failWith .notPermitted)]

/-- Mean and peak occupancies restart (R439). -/
def restartOccupancy (s : State) : State :=
  { s with store := { s.store with pcs := tmap {} (fun _ x => { x with occSum := [0, 0, 0], occCount := 0, occPeak := [0, 0, 0] }) s.store.pcs } }

/-- COUNTERS_READ's effect. -/
def actCounters (s : State) (h : Held) (c : Cmd) : State :=
  let g := pf h.pkt 16 0 8
  let l := counterBytes s g (pf h.pkt 17 0 7)
  match destWrite s h.slice engLock (destSpace s) c.ok (pf h.pkt 24 0 64) l with
  | (s, true) => finishNow (if g = 1 then restartOccupancy s else s) h .ok [fAt 16 0 32 l.length, fAt 24 0 64 (nowBits s)]
  | (s, false) => finishNow s h .weirDenied []

/-- COUNTERS_READ (0xA03). -/
def execCountersRead (c : Cmd) (s : State) : Host.Outcome State Fault Refusal :=
  .next (runPacket s c 0xA03 (fun _ => true) checkCounters actCounters)

/-! IDENTIFY (R440). -/

/-- IDENTIFY's detail. -/
def identityDetail (s : State) : List Field :=
  let g := runningImage s
  [fAt 16 0 64 Config.deviceId.toNat, fAt 24 0 8 g.major, fAt 25 0 8 g.minor, fAt 26 0 16 g.patch, fAt 28 0 8 (activeBank s),
   fAt 29 0 8 Config.stepping.toNat, fAt 30 0 1 (debugOn s).toNat, fAt 30 1 1 s.regs.headless.toNat]

/-- The characters "DZ-7208-IB". -/
def partBytes : List Byte := [0x44, 0x5A, 0x2D, 0x37, 0x32, 0x30, 0x38, 0x2D, 0x49, 0x42]

/-- IDENTIFY's 64-byte record. -/
def identityRecord (s : State) : List Byte :=
  let g := runningImage s
  bytesLE 16 (packFields (identityDetail s) >>> 128) ++ partBytes ++ List.replicate 6 0 ++
  bytesLE 32 (packFields [fAt 0 0 8 g.svn, fAt 1 0 8 s.boot.minSvn, fAt 2 0 8 g.keySlot, fAt 3 0 8 (fwStateCode s.boot.bankA.state),
    fAt 4 0 8 (fwStateCode s.boot.bankB.state), fAt 8 0 32 s.boot.resets, fAt 12 0 32 (uptimeMs s)])

/-- IDENTIFY's effect. -/
def actIdentify (s : State) (h : Held) (c : Cmd) : State := replyWithRecord s h c (identityRecord s) (identityDetail s)

/-- IDENTIFY (0xF06). -/
def execIdentify (c : Cmd) (s : State) : Host.Outcome State Fault Refusal :=
  .next (runPacket s c 0xF06 (fun _ => true) checkStatusDest actIdentify)

end Sys2Proof.Machine
end

