-- ==== Sys2Proof/Machine/Keys.lean ====
section
/-! DEFINITION. Capacitive keys and sliders (R388 to R396). -/
namespace Sys2Proof.Machine
open Sys2Proof

/-- A key object. -/
def getKey (s : State) (n : Nat) : KeyObj := tget {} s.io.keys.objects n
/-- Change a key object. -/
def modKey (s : State) (n : Nat) (f : KeyObj → KeyObj) : State :=
  { s with io := { s.io with keys := { s.io.keys with objects := tmod {} s.io.keys.objects n f } } }
/-- Change the keys. -/
def modKeys (s : State) (f : KeysSt → KeysSt) : State := { s with io := { s.io with keys := f s.io.keys } }

/-- Channels of an object. -/
def channelsOf (o : KeyObj) : List Nat := (List.range o.count).map fun i => o.first + i

/-- A channel's delta (R389). -/
def deltaOf (k : KeysSt) (c : Nat) : Int := (k.raw.getD c 0 : Int) - (k.base.getD c 0 : Int)

/-- An object's delta: the largest of its channels (R390). -/
def objectDelta (k : KeysSt) (o : KeyObj) : Int :=
  (channelsOf o).foldl (fun m c => max m (deltaOf k c)) (deltaOf k o.first)

/-- The enabled object that a channel belongs to. -/
def ownerObject (k : KeysSt) (c : Nat) : Option KeyObj :=
  (k.objects.find? fun e => e.2.enable && (channelsOf e.2).contains c).map Prod.snd

/-- POSITION of a slider: floor(255 x sum(i d_i) / ((COUNT - 1) x sum(d_i)) + 1/2) over positive deltas (R393). -/
def sliderPosition (k : KeysSt) (o : KeyObj) : Nat :=
  let d (i : Nat) : Nat := (deltaOf k (o.first + i)).toNat
  let num := (List.range o.count).foldl (fun n i => n + i * d i) 0
  let den := (o.count - 1) * (List.range o.count).foldl (fun n i => n + d i) 0
  if den = 0 then 0 else (2 * 255 * num + den) / (2 * den)

/-- POSITION of an event; 0 for keys. -/
def positionOf (k : KeysSt) (o : KeyObj) : Nat := if o.count = 1 then 0 else sliderPosition k o

/-- EV_KEY to the object's owner (R394): kinds 1 PRESS, 2 RELEASE, 3 POSITION. -/
def postKey (s : State) (n kind reason : Nat) : State :=
  let k := s.io.keys
  let o := getKey s n
  post s o.owner 0x0901 [fAt 2 0 6 n, fAt 2 6 1 (decide (1 < o.count)).toNat, fAt 3 0 8 kind, fAt 4 0 8 reason, fAt 5 0 8 (positionOf k o),
    fAt 6 0 16 (ofSigned 16 (objectDelta k o)), fAt 16 0 32 k.scan]

/-- R392: the baseline of every channel of an object becomes the raw count of the current scan, with EV_KEY_RECAL. -/
def recalibrate (s : State) (n cause : Nat) : State :=
  let o := getKey s n
  let old := s.io.keys.base.getD o.first 0
  let s := modKeys s fun k => { k with base := (channelsOf o).foldl (fun b c => b.set c (k.raw.getD c 0)) k.base }
  let s := modKey s n fun o => { o with negRun := 0 }
  post s 0 0x0903 [fAt 2 0 6 n, fAt 3 0 8 cause, fAt 4 0 16 old, fAt 6 0 16 (s.io.keys.base.getD o.first 0)]

/-- The channels under a self-test that runs. -/
def testedMask (k : KeysSt) : Nat := match k.test with
  | some t => if t.finished then 0 else t.mask
  | none => 0

/-- An object has a channel under test (R396). -/
def underTest (k : KeysSt) (o : KeyObj) : Bool := (channelsOf o).any fun c => bitAt (testedMask k) c

/-- One object at the end of a scan (R390, R392, R393). -/
def scanObject (n : Nat) (s : State) : State :=
  let k := s.io.keys
  let o := getKey s n
  let d := objectDelta k o
  if !o.enable || underTest k o then s
  else
    let debounce := if o.debounce = 0 then 3 else o.debounce
    if o.pressed then
      let run := if d < (o.thresh : Int) - (o.hyst : Int) then o.run + 1 else 0
      if debounce ≤ run then postKey (modKey s n fun o => { o with pressed := false, run := 0, negRun := 0 }) n 2 0
      else
        let s := modKey s n fun o => { o with run }
        let p := sliderPosition k o
        if 1 < o.count ∧ 2 ≤ max p o.lastPos - min p o.lastPos then postKey (modKey s n fun o => { o with lastPos := p }) n 3 0 else s
    else
      let run := if (o.thresh : Int) ≤ d then o.run + 1 else 0
      let neg := if (channelsOf o).any fun c => decide (deltaOf k c ≤ -(o.negThresh : Int)) then o.negRun + 1 else 0
      if debounce ≤ run then
        postKey (modKey s n fun o => { o with pressed := true, pressAt := upTime s, run := 0, negRun := 0, lastPos := positionOf k o }) n 1 0
      else
        let s := modKey s n fun o => { o with run, negRun := neg }
        if 3 ≤ neg then recalibrate s n 1 else s

/-- R391: a channel's baseline moves one count towards the raw count every 8 scans while it may track. -/
def trackChannel (k : KeysSt) (c : Nat) : KeysSt :=
  let d := deltaOf k c
  let (free, thresh, tested) := match ownerObject k c with
    | some o => (!o.pressed, o.thresh, underTest k o)
    | none => (true, 256, bitAt (testedMask k) c)
  if tested then k
  else if !free || decide ((thresh : Int) < 4 * (d.natAbs : Int)) then { k with track := k.track.set c 0 }
  else if k.track.getD c 0 < 7 then { k with track := k.track.set c (k.track.getD c 0 + 1) }
  else { k with track := k.track.set c 0, base := k.base.set c (if 0 < d then k.base.getD c 0 + 1 else if d < 0 then k.base.getD c 0 - 1 else k.base.getD c 0) }

/-! KEYS_CONFIGURE (R395). -/

/-- The object a KEYS_CONFIGURE gives. -/
def keyOf (p : Packet) : KeyObj :=
  { enable := pb p 16 6, owner := pf p 19 0 7, first := pf p 17 0 6, count := pf p 18 0 4, debounce := pf p 18 4 4, thresh := pf p 20 0 16
    hyst := pf p 22 0 16, negThresh := pf p 24 0 16, maxOnS := if pf p 26 0 12 = 0 then 30 else pf p 26 0 12 }

/-- Objects as they stand once the accepted KEYS_CONFIGUREs have acted. -/
def keysToBe (k : KeysSt) : Tab KeyObj := k.sets.foldl (fun t e => tset {} t (pf e.pkt 16 0 6) (keyOf e.pkt)) k.objects

/-- A channel belongs to another enabled object. -/
def keyClash (k : KeysSt) (p : Packet) : Bool :=
  (keysToBe k).any fun e => e.1 != pf p 16 0 6 && e.2.enable && (channelsOf (keyOf p)).any fun c => (channelsOf e.2).contains c

/-- A slice that cannot own: FREE or DRAINING. -/
def absent (s : State) (slice : Nat) : Bool := slice != 0 && ((getSlice s slice).state == .free || (getSlice s slice).state == .draining)

/-- Step 8 checks of KEYS_CONFIGURE. -/
def checkKeys (s : State) (h : Held) (_ : Cmd) : Option Fail :=
  let p := h.pkt
  let o := keyOf p
  firstFail [
    (!reservedZero p [(16, 0, 8), (17, 0, 6), (18, 0, 8), (19, 0, 7), (20, 0, 16), (22, 0, 16), (24, 0, 16), (26, 0, 12)] || decide (47 < pf p 16 0 6) ||
      !(o.count == 1 || inRange o.count 4 8) || decide (48 < o.first + o.count) || decide (64 < o.owner) || !inRange o.thresh 16 32767 ||
      decide (o.thresh ≤ o.hyst) || !inRange o.negThresh 8 32767 || decide (3600 < o.maxOnS) || (o.enable && keyClash s.io.keys p), failWith .badParam),
    (o.owner != 0 && (getSlice s o.owner).cls == .a, failWith .notPermitted),
    (absent s o.owner, failWith .notReady)]

/-- KEYS_CONFIGURE's commit point: the object is written at the end of the current scan. -/
def actKeys (s : State) (h : Held) (_ : Cmd) : State :=
  holdOn (modKeys s fun k => { k with sets := k.sets ++ [{ key := heldKey h, pkt := h.pkt }] }) h

/-- KEYS_CONFIGURE (0x901). -/
def execKeysConfigure (c : Cmd) (s : State) : Host.Outcome State Fault Refusal :=
  .next (runPacket s c 0x901 (fun _ => true) checkKeys actKeys)

/-- Ticks of a key scan's 5 ms (R388). -/
def scanTicks (s : State) : Nat := s.time.timing.rateNum * wallLines s * 65536 / (200 * s.time.timing.rateDen)

/-- A KEYS_CONFIGURE acts at the end of a scan, and replies (R395). -/
def applyKeySet (e : KeySet) (s : State) : State :=
  let n := pf e.pkt 16 0 6
  let o := keyOf e.pkt
  let old := getKey s n
  if absent s o.owner then finishKey s e.key .notReady (nowBits s) [] else
  let same := old.enable == o.enable && old.owner == o.owner && old.first == o.first && old.count == o.count
  let s := modKey s n fun x => { o with pressed := same && x.pressed, pressAt := x.pressAt, run := if same then x.run else 0, negRun := if same then x.negRun else 0
                                        lastPos := x.lastPos }
  let s := if pb e.pkt 16 7 then recalibrate s n 3 else s
  finishKey s e.key .ok (nowBits s) [fAt 16 0 16 (s.io.keys.raw.getD o.first 0), fAt 18 0 16 (s.io.keys.base.getD o.first 0),
    fAt 24 0 64 (wpBits (addTicks (wallLines s) (now s) (scanTicks s : Nat)))]

/-- 5 ms have passed since the last scan (R388). -/
def scanDue (s : State) : Bool := match s.io.keys.scanAt with
  | none => true
  | some t => passed s t 5000000

/-- KEY_SCAN: every 5 ms, 48 raw counts at the WP of the last channel's measurement (R388 to R393, R395, R396). -/
def execKeyScan (counts : List Nat) (s : State) : Host.Outcome State Fault Refusal :=
  .next (if counts.length ≠ 48 || !s.time.running || !scanDue s then s
    else
      let raw := counts.map (· % 65536)
      let n := s.io.keys.scan
      let early := n < 4
      let s := modKeys s fun k => { k with
        raw, sum := if early then k.sum.zipWith (· + ·) raw else k.sum
        scanAt := some (upTime s)
        test := k.test.map fun t => if t.scans.length < 8 then { t with scans := t.scans ++ [raw], wp := now s } else { t with finished := true } }
      let s := if n = 3 then modKeys s fun k => { k with base := k.sum.map (· / 4) } else s
      let s := if early then s
        else
          let s := forEach (List.range 48) scanObject s
          modKeys s fun k => (List.range 48).foldl trackChannel k
      let sets := s.io.keys.sets
      let s := forEach sets applyKeySet (modKeys s fun k => { k with sets := [] })
      modKeys s fun k => { k with scan := if k.scan = 2 ^ 32 - 1 then 4 else k.scan + 1 })

/-- KEY_MAX_ON_EXPIRY: MAX_ON_S seconds since the PRESS event, the object is released and recalibrated (R390, R392). -/
def execKeyMaxOnExpiry (object : Nat) (s : State) : Host.Outcome State Fault Refusal :=
  .next (
    let o := getKey s object
    if object < 48 && o.enable && o.pressed && !underTest s.io.keys o && passed s o.pressAt (o.maxOnS * 1000000000) then
      recalibrate (postKey (modKey s object fun o => { o with pressed := false, run := 0, negRun := 0 }) object 2 1) object 2
    else s)

/-! KEY_SELFTEST (R396). -/

/-- Step 8 checks of KEY_SELFTEST. -/
def checkSelftest (s : State) (h : Held) (_ : Cmd) : Option Fail :=
  let p := h.pkt
  firstFail [
    (!reservedZero p [(16, 0, 48), (22, 0, 16), (24, 0, 16), (32, 0, 64), (40, 0, 1)] || pf p 16 0 48 == 0 || pf p 32 0 64 % 64 != 0, failWith .badParam),
    (s.io.keys.test.isSome, failWith .notReady)]

/-- KEY_SELFTEST's commit point: the next eight scans belong to the test. -/
def actSelftest (s : State) (h : Held) (_ : Cmd) : State :=
  let p := h.pkt
  defer (modKeys s fun k => { k with test := some { key := heldKey h, mask := pf p 16 0 48
                                                    openMin := if pf p 22 0 16 = 0 then 1024 else pf p 22 0 16
                                                    neighMax := if pf p 24 0 16 = 0 then 2048 else pf p 24 0 16
                                                    dest := pf p 32 0 64, space := pb p 40 0 } }) h []

/-- KEY_SELFTEST (0x902). -/
def execKeySelftest (c : Cmd) (s : State) : Host.Outcome State Fault Refusal :=
  .next (runPacket s c 0x902 (fun _ => true) checkSelftest actSelftest)

/-- A channel's result: the first cause that applies. -/
def testResult (t : KeyTest) (c : Nat) : Nat :=
  let r := t.scans.map fun l => l.getD c 0
  let sum := (r.take 4).foldl (· + ·) 0
  if !bitAt t.mask c then 0xFF
  else if r.any fun x => x == 0 || x == 0xFFFF then 1
  else if r.any fun x => decide (x < t.openMin) then 2
  else if (r.drop 4).any fun x => decide (4 * t.neighMax < max (4 * x) sum - min (4 * x) sum) then 3 else 0

/-- KEY_SELFTEST_COMPLETE: after the eighth scan, with the outcome of a host write of the record. -/
def execKeySelftestComplete (ok : Bool) (s : State) : Host.Outcome State Fault Refusal :=
  .next (match s.io.keys.test with
    | none => s
    | some t =>
      if t.scans.length < 8 then s
      else
        let res := (List.range 48).map (testResult t)
        let mask := (List.range 48).foldl (fun m c => if inRange (res.getD c 0) 1 3 then m ||| 2 ^ c else m) 0
        let det := [fAt 16 0 48 mask, fAt 24 0 64 (wpBits t.wp)]
        let s := modKeys s fun k => { k with test := none }
        if t.dest = 0 then finishKey s t.key .ok (nowBits s) det
        else match destWrite s 0 engLock (t.space || destSpace s) ok t.dest (res.map (BitVec.ofNat 8) ++ List.replicate 16 0) with
          | (s, true) => finishKey s t.key .ok (nowBits s) det
          | (s, false) => finishKey s t.key .weirDenied (nowBits s) [])

end Sys2Proof.Machine
end

