-- ==== Sys2Proof/Machine/Haptics.lean ====
section
/-! DEFINITION. Haptic channels: waveforms, drive periods, faults (R403 to R409), and the grid of sample boundaries that they share with sound (R410). -/
namespace Sys2Proof.Machine
open Sys2Proof

/-! The sample grid (R410). -/

/-- Samples in a group of wall frames. -/
def groupSamples (s : State) : Nat := 48000 * s.time.timing.rateDen

/-- Ticks from a group's first frame start to its sample k. -/
def sampleTicks (s : State) (k : Nat) : Nat := k * s.time.timing.rateNum * frameTicks s / groupSamples s

/-- WP at which the next sample starts. -/
def nextSampleWp (s : State) : Wp :=
  let a := s.io.audio
  addTicks (wallLines s) ⟨(a.baseFrame + a.group * s.time.timing.rateNum) % 2 ^ 32, 0, 0⟩ (sampleTicks s a.sample : Nat)

/-- The place after a sample: the next of its group, or sample 0 of the next group; the group that holds the wrap of the frame counter ends there, and the next starts at frame 0. -/
def nextSample (s : State) (a : AudioSt) : AudioSt :=
  let t := s.time.timing
  let b := if a.sample + 1 < groupSamples s then { a with sample := a.sample + 1 } else { a with sample := 0, group := a.group + 1 }
  if 2 ^ 32 * frameTicks s ≤ (b.baseFrame + b.group * t.rateNum) * frameTicks s + sampleTicks s b.sample then
    { b with baseFrame := 0, group := 0, sample := 0 }
  else b

/-- The first sample place of the grid at or after a WP. -/
def gridAt (s : State) (w : Wp) : Nat × Nat :=
  let n := s.time.timing.rateNum
  let d := frameDiff w.frame s.io.audio.baseFrame
  let t := ((d % n) * frameTicks s + w.line * 65536 + w.tick)
  let k := ceilDiv (t * groupSamples s) (n * frameTicks s)
  let k := if 0 < k && t ≤ sampleTicks s (k - 1) then k - 1 else k
  if k < groupSamples s then (d / n, k) else (d / n + 1, 0)

/-- The WP of the first sample after a WP. -/
def sampleAfter (s : State) (w : Wp) : Wp :=
  let g := gridAt s (addTicks (wallLines s) w 1)
  addTicks (wallLines s) ⟨(s.io.audio.baseFrame + g.1 * s.time.timing.rateNum) % 2 ^ 32, 0, 0⟩ (sampleTicks s g.2 : Nat)

/-! The waveform library (R404). -/

/-- An entry of a channel's library, read under the owner's slice: offset and length in samples; length 0 when it is empty, cannot be read or there is no library (R365, R404). -/
def readEntry (s : State) (x : HapChan) (wave : Nat) : State × Nat × Nat :=
  match lookup s x.lib with
  | none => (s, 0, 0)
  | some b => match storeRead s x.owner engOpio (b.base + 8 * wave) 8 with
    | (s, none) => (s, 0, 0)
    | (s, some l) => (s, leAt l 0 4, if leAt l 4 4 ≤ 65535 then leAt l 4 4 else 0)

/-- The entry as it stands, without a record of the read. -/
def libEntry (s : State) (x : HapChan) (wave : Nat) : Nat × Nat := (readEntry s x wave).2

/-- A sample of a play, read under the owner's slice; none when it cannot be read. -/
def hapSample (s : State) (x : HapChan) (p : HapPlay) : State × Option Int :=
  match lookup s x.lib with
  | none => (s, none)
  | some b =>
    if b.length ≤ p.offset + p.pos then (s, none)
    else match storeRead s x.owner engOpio (b.base + p.offset + p.pos) 1 with
      | (s, some l) => (s, some (toSigned 8 (byteAt l 0)))
      | (s, none) => (s, none)

/-! HAPTIC_CONFIGURE (R408). -/

/-- Bits of HAPTIC_CONFIGURE that are not reserved. -/
def hapResv : List (Nat × Nat × Nat) :=
  [(16, 0, 6), (17, 0, 7), (18, 0, 13), (20, 0, 9), (22, 0, 9), (24, 0, 32), (28, 0, 6), (29, 0, 6)]

/-- Step 8 checks of HAPTIC_CONFIGURE. -/
def checkHapticConfigure (s : State) (h : Held) (_ : Cmd) : Option Fail :=
  let p := h.pkt
  let owner := pf p 17 0 7
  let lib := pf p 24 0 32
  let bad := !reservedZero p hapResv || decide (64 < owner) || !inRange (pf p 18 0 13) 500 5000 || !inRange (pf p 20 0 9) 50 400 ||
    (if pb p 16 4 then pf p 22 0 9 != 0 else !inRange (pf p 22 0 9) 50 300) || (pb p 16 5 && lib == 0)
  if bad then some (failWith .badParam)
  else if owner ≠ 0 ∧ (getSlice s owner).cls = .a then some (failWith .notPermitted)
  else if absent s owner then some (failWith .notReady)
  else if lib = 0 then none
  else match lookup s lib with
    | none => some (failWith .handleStale)
    | some b => firstFail [(b.owner != owner && b.owner != 0, failWith .notPermitted), (b.format != 0, failWith .badParam)]

/-- HAPTIC_CONFIGURE's commit point: any play stops, and the settings are written; the library is latched while the channel names it (R130). -/
def actHapticConfigure (s : State) (h : Held) (_ : Cmd) : State :=
  let p := h.pkt
  let c := pf p 16 0 3
  let old := getHap s c
  let lib := pf p 24 0 32
  let erm := pb p 16 4
  let s := if old.lib = 0 then s else dropUser s old.lib
  let s := if lib = 0 then s else addUser s lib
  let s := if old.play.isSome || old.brake != 0 then emit s (.haptic c 0) else s
  let x : HapChan := { enable := pb p 16 3, erm, trigEnable := pb p 16 5, owner := pf p 17 0 7, ratedMv := pf p 18 0 13, ilimit := pf p 20 0 9
                       f0 := pf p 22 0 9, lib, trigOutput := pf p 28 0 3, trigSlot := pf p 28 3 3, trigWave := pf p 29 0 6
                       fault := if pb p 16 3 then 0 else old.fault, freq := 10 * pf p 22 0 9, period := old.period
                       brake := if old.erm && erm && pb p 16 3 && (old.play.isSome || old.brake != 0) then 10 else 0 }
  finishNow (modHap s c fun _ => x) h .ok []

/-- HAPTIC_CONFIGURE (0x907). -/
def execHapticConfigure (c : Cmd) (s : State) : Host.Outcome State Fault Refusal :=
  .next (runPacket s c 0x907 (fun _ => true) checkHapticConfigure actHapticConfigure)

/-! HAPTIC_PLAY (R409). -/

/-- Channels a HAPTIC_PLAY names. -/
def playChannels (p : Packet) : List Nat := (List.range 8).filter fun c => bitAt (pf p 16 0 8) c

/-- Step 8 checks of HAPTIC_PLAY. -/
def checkHapticPlay (s : State) (h : Held) (_ : Cmd) : Option Fail :=
  let p := h.pkt
  let cs := playChannels p
  firstFail [
    (!reservedZero p [(16, 0, 8), (17, 0, 7), (18, 0, 8)] || cs.isEmpty || (pb p 17 6 && pf p 17 0 6 != 0), failWith .badParam),
    (h.slice != 0 && cs.any fun c => (getHap s c).owner != h.slice, failWith .notPermitted),
    (cs.any fun c => !(getHap s c).enable || (getHap s c).fault != 0 || (getHap s c).lib == 0, failWith .notReady),
    (!pb p 17 6 && cs.any fun c => (libEntry s (getHap s c) (pf p 17 0 6)).2 == 0, failWith .badParam)]

/-- HAPTIC_PLAY's effect: every named channel starts, or stops, at the first drive period from WP_DUE or from now. -/
def actHapticPlay (s : State) (h : Held) (_ : Cmd) : State :=
  let p := h.pkt
  let n : HapNext := { stop := pb p 17 6, wave := pf p 17 0 6, gain := pf p 18 0 8, due := if h.phase = .armed then some h.due else none }
  finishNow (forEach (playChannels p) (fun c s => modHap s c fun x => { x with next := x.next ++ [n] }) s) h .ok []

/-- HAPTIC_PLAY (0x904). -/
def execHapticPlay (c : Cmd) (s : State) : Host.Outcome State Fault Refusal :=
  .next (runPacket s c 0x904 (fun _ => true) checkHapticPlay actHapticPlay)

/-- R406: a DOWN owned by a channel's owner on its output and slot fires its trigger. -/
def fireTriggers (s : State) (owner output slot : Nat) : State :=
  forEach (List.range 8) (fun c s => modHap s c fun x =>
    if x.enable && x.fault == 0 && x.trigEnable && x.owner == owner && x.trigOutput == output && x.trigSlot == slot then
      { x with next := x.next ++ [{ wave := x.trigWave }] }
    else x) s

/-! Drive periods (R403 to R406). -/

/-- Drive of a sample: the sample times the gain times RATED_MV, in 1/32,768 mV; gain 0xFF is full. -/
def hapDrive (x : HapChan) (g : Nat) (v : Int) : Int := v * ((if g = 255 then 256 else g : Nat) : Int) * (x.ratedMv : Int)

/-- The channel after a play has ended or was stopped: an ERM is braked for ten periods, an LRA is not driven. -/
def hapEnd (x : HapChan) : HapChan := { x with play := none, brake := if x.erm then 10 else 0 }

/-- The requests due take effect, the later accepted over the earlier. -/
def hapStart (s : State) (c : Nat) : State :=
  let x := getHap s c
  let due (n : HapNext) : Bool := match n.due with
    | some w => wpReached (now s) w
    | none => true
  let rest := x.next.filter fun n => !due n
  match (x.next.filter due).getLast? with
  | none => s
  | some n =>
    let (s, offset, length) := if n.stop then (s, 0, 0) else readEntry s x n.wave
    modHap s c fun x =>
      if n.stop then { (if x.play.isSome then hapEnd x else x) with next := rest }
      else if length = 0 then { x with next := rest }
      else { x with next := rest, play := some { offset, length, gain := n.gain }, brake := 0 }

/-- Braking of an ERM at -RATED_MV for one period, or no drive. -/
def hapBrake (s : State) (c : Nat) : State :=
  let x := getHap s c
  if x.brake = 0 then s
  else emit (modHap s c fun x => { x with brake := x.brake - 1 }) (.haptic c (0 - (x.ratedMv : Int) * 32768))

/-- The sample of this period, or the end of the play. -/
def hapPeriod (s : State) (c : Nat) : State :=
  let x := getHap s c
  match x.play with
  | none => hapBrake s c
  | some p =>
    let stop (s : State) : State := hapBrake (emit (modHap s c hapEnd) (.haptic c 0)) c
    if p.length ≤ p.pos then stop s
    else match hapSample s x p with
      | (s, none) => stop s
      | (s, some v) => emit (modHap s c fun x => { x with play := some { p with pos := p.pos + 1 } }) (.haptic c (hapDrive x p.gain v))

/-- R405: the carrier moves towards the measured resonance by at most 1 %, within 10 % of F0_HZ. -/
def trackFreq (x : HapChan) (resonance : Nat) : HapChan :=
  if x.erm ∨ x.play = none ∨ resonance = 0 then x
  else
    let step := x.freq / 100
    let f := max (x.freq - step) (min (x.freq + step) resonance)
    { x with freq := max (9 * x.f0) (min (11 * x.f0) f) }

/-- HAPTIC_DRIVE_PERIOD: every 48 samples of the grid; resonance is the back-EMF measurement of a cycle in 0.1 Hz, 0 for none. -/
def execHapticDrivePeriod (channel resonance : Nat) (s : State) : Host.Outcome State Fault Refusal :=
  .next (
    let a := s.io.audio
    let x := getHap s channel
    -- the sample in progress is the one before the next
    let at_ := if a.sample = 0 then none else some (a.group, (a.sample - 1) / 48)
    if channel < 8 && x.enable && x.fault == 0 && at_.isSome && x.period != at_ then
      hapPeriod (hapStart (modHap s channel fun x => { trackFreq x resonance with period := at_ }) channel) channel
    else s)

/-- HAPTIC_FAULT: causes 1 to 4 on a channel in use; an open actuator shows on an LRA (R407). -/
def execHapticFault (channel cause peakMa : Nat) (s : State) : Host.Outcome State Fault Refusal :=
  .next (
    let x := getHap s channel
    if channel < 8 && x.enable && x.fault == 0 && inRange cause 1 4 && !(cause == 3 && x.erm) then hapticOff s channel cause peakMa else s)

end Sys2Proof.Machine
end

