-- ==== Sys2Proof/Machine/Touch.lean ====
section
/-! DEFINITION. Touch intake: report descriptors, reports, contacts and hit-tests (R397 to R402). The descriptor and report format is that of the USB HID class, which R398 names. -/
namespace Sys2Proof.Machine
open Sys2Proof

/-- A touch port. -/
def getTouch (s : State) (p : Nat) : TouchPort := tget {} s.io.touch p
/-- Change a touch port. -/
def modTouch (s : State) (p : Nat) (f : TouchPort → TouchPort) : State := { s with io := { s.io with touch := tmod {} s.io.touch p f } }

/-! Report descriptors (R398). -/

/-- Usages, as page x 65,536 + usage. -/
abbrev useScreen : Nat := 0x0D0004
/-- Finger. -/
abbrev useFinger : Nat := 0x0D0022
/-- Tip Switch. -/
abbrev useTip : Nat := 0x0D0042
/-- Confidence. -/
abbrev useConf : Nat := 0x0D0047
/-- Contact Identifier. -/
abbrev useId : Nat := 0x0D0051
/-- Contact Count. -/
abbrev useCount : Nat := 0x0D0054
/-- X. -/
abbrev useX : Nat := 0x010030
/-- Y. -/
abbrev useY : Nat := 0x010031

/-- Global items of a descriptor, which Push saves and Pop restores. -/
structure HidGlobals where
  page : Nat := 0
  logMin : Int := 0
  size : Nat := 0
  count : Nat := 0
  report : Nat := 0
  deriving DecidableEq, Repr

/-- A descriptor as read so far. -/
structure HidParse where
  glob : HidGlobals := {}
  stack : List HidGlobals := []
  /-- Local usages: whether each gives its own page, and its value; and a usage range. -/
  usages : List (Bool × Nat) := []
  lo : Nat := 0
  hi : Nat := 0
  /-- Open collections, innermost first: 1 the application collection, 2 a Finger collection, 0 another. -/
  colls : List Nat := []
  apps : Nat := 0
  /-- Input bits of each report so far. -/
  bits : Tab Nat := []
  cur : HidFinger := {}
  layout : HidLayout := {}
  deriving DecidableEq, Repr

/-- The usage of the i-th field of a main item. -/
def hidUsage (x : HidParse) (i : Nat) : Nat :=
  match x.usages.getLast? with
  | some l =>
    let u := x.usages.getD i l
    if u.1 then u.2 else x.glob.page * 65536 + u.2
  | none => if x.lo + i ≤ x.hi then x.glob.page * 65536 + x.lo + i else 0

/-- A field of an Input item, kept when it is one that R398 names; none when it is too wide. -/
def hidField (base : Nat) (x : HidParse) (i : Nat) : Option HidParse :=
  let u := hidUsage x i
  let f : HidField := { usage := u, bit := base + i * x.glob.size, width := x.glob.size, logMin := x.glob.logMin }
  if x.colls.contains 2 then
    if [useTip, useId, useX, useY].contains u && !inRange f.width 1 16 then none
    else if [useTip, useId, useX, useY, useConf].contains u then
      some { x with cur := { report := x.glob.report, fields := x.cur.fields ++ [f] } }
    else some x
  else if x.colls.contains 1 && u == useCount then
    some { x with layout := { x.layout with count := some (x.glob.report, f) } }
  else some x

/-- The fields of an Input item of a data variable. -/
def hidFields (base : Nat) : List Nat → HidParse → Option HidParse
  | [], x => some x
  | i :: r, x => match hidField base x i with
    | some x => hidFields base r x
    | none => none

/-- A Finger collection has the fields that R398 requires. -/
def fingerWhole (f : HidFinger) : Bool := [useTip, useId, useX, useY].all fun u => f.fields.any fun x => x.usage == u

/-- One main item: its tag and data. -/
def hidMain (x : HidParse) (tag v : Nat) : Option HidParse :=
  if tag = 8 then
    let base := tget 0 x.bits x.glob.report
    let x := { x with bits := tset 0 x.bits x.glob.report (base + x.glob.size * x.glob.count) }
    if bitAt v 0 || !bitAt v 1 then some x else hidFields base (List.range (min x.glob.count 4096)) x
  else if tag = 10 then
    let u := hidUsage x 0
    if v = 1 then
      if x.apps ≠ 0 ∨ !x.colls.isEmpty ∨ u ≠ useScreen then none else some { x with apps := 1, colls := [1] }
    else if v = 2 ∧ u = useFinger ∧ x.colls.contains 1 then
      if x.colls.contains 2 ∨ 10 ≤ x.layout.fingers.length then none else some { x with colls := 2 :: x.colls, cur := {} }
    else some { x with colls := 0 :: x.colls }
  else if tag = 12 then
    match x.colls with
    | [] => none
    | k :: r =>
      if k = 2 then
        if fingerWhole x.cur then some { x with colls := r, layout := { x.layout with fingers := x.layout.fingers ++ [x.cur] } } else none
      else if k = 1 ∧ x.layout.fingers.isEmpty then none
      else some { x with colls := r }
  else some x

/-- One global item. -/
def hidGlobal (x : HidParse) (tag n v : Nat) : Option HidParse :=
  if tag = 0 then some { x with glob := { x.glob with page := v } }
  else if tag = 1 then some { x with glob := { x.glob with logMin := if n = 0 then 0 else toSigned (8 * n) v } }
  else if tag = 7 then some { x with glob := { x.glob with size := v } }
  else if tag = 8 then some { x with glob := { x.glob with report := v }, layout := { x.layout with ids := true } }
  else if tag = 9 then some { x with glob := { x.glob with count := v } }
  else if tag = 10 then (if 4 ≤ x.stack.length then none else some { x with stack := x.glob :: x.stack })
  else if tag = 11 then
    match x.stack with
    | [] => none
    | g :: r => some { x with glob := g, stack := r }
  else some x

/-- One local item. -/
def hidLocal (x : HidParse) (tag n v : Nat) : HidParse :=
  if tag = 0 then { x with usages := x.usages ++ [(n == 4, v)] }
  else if tag = 1 then { x with lo := v }
  else if tag = 2 then { x with hi := v }
  else x

/-- Read the items of a descriptor; an error gives the offset of the first item that fails. -/
def hidItems : Nat → Nat → List Byte → HidParse → Except Nat HidParse
  | 0, off, _, _ => .error off
  | fuel + 1, off, l, x =>
    match l with
    | [] => .ok x
    | p :: r =>
      let n := if p.toNat % 4 = 3 then 4 else p.toNat % 4
      let type := p.toNat / 4 % 4
      let tag := p.toNat / 16
      let v := leAt r 0 n
      let y :=
        if r.length < n then none
        else if type = 0 then (hidMain x tag v).map fun y => { y with usages := [], lo := 0, hi := 0 }
        else if type = 1 then hidGlobal x tag n v
        else if type = 2 then some (hidLocal x tag n v)
        else none
      match y with
      | none => .error off
      | some y => hidItems fuel (off + 1 + n) (r.drop n) y

/-- The layout that a descriptor gives, or the offset at which it leaves R398; what is missing at the end fails at the last byte. -/
def hidLayout (l : List Byte) : Except Nat HidLayout :=
  match hidItems (l.length + 1) 0 l {} with
  | .error e => .error e
  | .ok x => if x.apps = 1 ∧ x.colls.isEmpty then .ok x.layout else .error (l.length - 1)

/-! Events (R401). -/

/-- The state of a contact's source at a stamp, or now; NOT_TRACKED for a contact of no layer. -/
def contactState (s : State) (c : Contact) (st : Option TouchStamp) : LState :=
  match c.source with
  | none => .notTracked
  | some i => match st with
    | some t => tget .unproven t.states i
    | none => (getEntry s i).state

/-- EV_TOUCH to a contact's owner: phases 0 DOWN, 1 MOVE, 2 UP, 3 CANCEL; discarded under TOUCH_DROP and after the owner's reset (R29, R401). -/
def postTouch (s : State) (port phase : Nat) (c : Contact) (st : Option TouchStamp) : State :=
  let q := contactState s c st
  let src := c.source.getD 0
  let notLive := q != .live && q != .notTracked
  let wp := match st with
    | some t => wpBits t.wp
    | none => nowBits s
  if c.dead || (notLive && (getEntry s src).touchDrop) then s
  else postEvent s c.owner (eventBits 0x0902 wp [fAt 2 0 3 port, fAt 2 3 3 (getTouch s port).output, fAt 2 6 2 phase, fAt 3 0 8 c.id,
    fAt 4 0 1 notLive.toNat, fAt 4 1 1 c.clamped.toNat, fAt 4 2 1 c.oldMap.toNat, fAt 5 0 4 (stateCode q), fAt 6 0 8 c.slot,
    fAt 7 0 8 c.owner, fAt 16 0 16 c.x, fAt 18 0 16 c.y, fAt 20 0 12 src])

/-- Every contact of a port is CANCELLED (R397, R400, R402). -/
def cancelContacts (s : State) (port : Nat) (st : Option TouchStamp) : State :=
  modTouch (forEach (getTouch s port).contacts (fun c s => postTouch s port 3 c st) s) port fun p => { p with contacts := [], left := 0, seen := [] }

/-! TOUCH_PORT_SET (R402). -/

/-- Step 8 checks of TOUCH_PORT_SET before its descriptor is read. -/
def checkTouchPortSet (s : State) (h : Held) (_ : Cmd) : Option Fail :=
  let p := h.pkt
  firstFail [
    (!reservedZero p ([(16, 0, 6), (17, 0, 3), (18, 0, 7), (20, 0, 16), (22, 0, 13), (24, 0, 64)] ++ (List.range 6).map fun k => (32 + 4 * k, 0, 32)) ||
      !inRange (pf p 18 0 7) 8 0x77 || !inRange (pf p 22 0 13) 1 4096, failWith .badParam),
    ((getOut s (pf p 17 0 3)).state == .unconfigured, failWith .notReady)]

/-- TOUCH_PORT_SET's effect: the descriptor is read and checked whole, then the port is written and its contacts are CANCELLED. -/
def actTouchPortSet (s : State) (h : Held) (c : Cmd) : State :=
  let p := h.pkt
  let port := pf p 16 0 3
  match srcRead s h.slice engLock (pb p 16 5 || destSpace s) c (pf p 24 0 64) (pf p 22 0 13) with
  | (s, none) => finishNow s h .weirDenied []
  | (s, some l) => match hidLayout l with
    | .error off => finishNow s h .badParam [fAt 18 0 8 (off / 16)]
    | .ok layout =>
      let n := (getTouch s port).contacts.length
      let s := cancelContacts s port none
      let s := modTouch s port fun _ => { enable := pb p 16 3, attnHigh := pb p 16 4, output := pf p 17 0 3, i2c := pf p 18 0 7, inputReg := pf p 20 0 16
                                          matrix := (List.range 6).map fun k => toSigned 32 (pf p (32 + 4 * k) 0 32), layout }
      finishNow s h .ok [fAt 16 0 8 layout.fingers.length, fAt 17 0 8 n]

/-- TOUCH_PORT_SET (0x903). -/
def execTouchPortSet (c : Cmd) (s : State) : Host.Outcome State Fault Refusal :=
  .next (runPacket s c 0x903 (fun _ => true) checkTouchPortSet actTouchPortSet)

/-! Reports (R397 to R400). -/

/-- The source states at this WP, for a stamp. -/
def touchStamp (s : State) : TouchStamp :=
  { wp := now s, states := s.ledger.entries.filterMap fun e => if e.2.state = .unproven then none else some (e.1, e.2.state) }

/-- TOUCH_ATTN_EDGE: the active edge of ATTN is stamped and a read starts, or follows the read that runs. -/
def execTouchAttnEdge (port : Nat) (s : State) : Host.Outcome State Fault Refusal :=
  .next (if port < 8 && (getTouch s port).enable then
    let t := touchStamp s
    modTouch s port fun p => if p.stamp.isNone then { p with stamp := some t, readAt := upTime s } else { p with nextStamp := some t }
  else s)

/-- A read ends, and the next begins with the next edge's stamp, or with the same one when ATTN is still active; otherwise ATTN is idle. -/
def endRead (s : State) (port : Nat) (attn : Bool) : State :=
  modTouch s port fun p => { p with nextStamp := none, readAt := upTime s, stamp := if p.nextStamp.isSome then p.nextStamp else if attn then p.stamp else none }

/-- A port error; the third in a row cancels every contact (R397). -/
def portError (s : State) (port : Nat) : State :=
  let p := getTouch s port
  if p.errors < 2 then modTouch s port fun p => { p with errors := p.errors + 1 }
  else modTouch (cancelContacts s port p.stamp) port fun p => { p with errors := 0 }

/-- A field of a report, less its logical minimum; bits that the report does not hold are open. -/
def hidValue (s : State) (l : List Byte) (ids : Bool) (f : HidField) : State × Int :=
  let b := f.bit + if ids then 8 else 0
  let (v, s) := if b + f.width ≤ 8 * l.length then (bitsAt (natLE l) b f.width, s) else
    let (u, s) := freshValue s
    (u.toNat % 2 ^ f.width, s)
  (s, (if f.logMin < 0 then toSigned f.width v else (v : Int)) - f.logMin)

/-- The raw value of a field, without its logical minimum. -/
def hidRaw (s : State) (l : List Byte) (ids : Bool) (f : HidField) : State × Nat :=
  let r := hidValue s l ids { f with logMin := 0 }
  (r.1, r.2.toNat)

/-- The field of a usage. -/
def fieldOf (fs : List HidField) (u : Nat) : HidField := (fs.find? fun f => f.usage == u).getD {}

/-- R399: a raw point on the output's pixels, and whether it was clamped. -/
def mapPoint (s : State) (p : TouchPort) (x y : Int) : Nat × Nat × Bool :=
  let m (k : Nat) : Int := p.matrix.getD k 0
  let c := (getOut s p.output).cfg
  let px := (m 0 * x + m 1 * y + m 2 + 32768) / 65536
  let py := (m 3 * x + m 4 * y + m 5 + 32768) / 65536
  let cx := (max 0 (min px ((c.hActive : Int) - 1))).toNat
  let cy := (max 0 (min py ((c.vActive : Int) - 1))).toNat
  (cx, cy, decide ((cx : Int) ≠ px ∨ (cy : Int) ≠ py))

/-- R400: the layer map of a report's WP; the oldest of four when the WP is older still, with OLD_MAP. -/
def mapAt (s : State) (o : Nat) (w : Wp) : LayerMap × Bool :=
  let ms := tget [] s.comp.maps o
  match ms.find? fun m => wpReached w m.start with
  | some m => (m, false)
  | none => if ms.length < 4 then ({}, false) else (ms.getLast?.getD {}, true)

/-- R400: the topmost touch layer at a point; maps list layers in composition order. -/
def hitLayer (m : LayerMap) (x y : Nat) : Option MapEntry :=
  (m.layers.filter fun e => e.touch && decide (e.x ≤ x ∧ x < e.x + e.w ∧ e.y ≤ y ∧ y < e.y + e.h)).getLast?

/-- A contact's entry in a report. -/
structure TouchEntry where
  id : Nat := 0
  tip : Bool := false
  conf : Bool := true
  x : Int := 0
  y : Int := 0
  deriving DecidableEq, Repr

/-- The entry of a Finger collection in a report. -/
def entryOf (s : State) (l : List Byte) (ids : Bool) (f : HidFinger) : State × TouchEntry :=
  let (s, tip) := hidRaw s l ids (fieldOf f.fields useTip)
  let (s, id) := hidRaw s l ids (fieldOf f.fields useId)
  let (s, x) := hidValue s l ids (fieldOf f.fields useX)
  let (s, y) := hidValue s l ids (fieldOf f.fields useY)
  let (s, conf) := if f.fields.any fun g => g.usage == useConf then hidRaw s l ids (fieldOf f.fields useConf) else (s, 1)
  (s, { id, tip := tip != 0, conf := conf != 0, x, y })

/-- A contact goes DOWN: the hit-test gives its owner, and triggers fire (R400, R406). -/
def touchDown (s : State) (port : Nat) (t : TouchStamp) (e : TouchEntry) : State :=
  let p := getTouch s port
  let (x, y, clamped) := mapPoint s p e.x e.y
  let (m, oldMap) := mapAt s p.output t.wp
  let c : Contact := match hitLayer m x y with
    | some g => { id := e.id, owner := g.owner, slot := g.slot, source := some g.source, x, y, clamped, oldMap }
    | none => { id := e.id, x, y, clamped, oldMap }
  let s := postTouch (modTouch s port fun p => { p with contacts := p.contacts ++ [c] }) port 0 c (some t)
  if c.slot = 0xFF then s else fireTriggers s c.owner p.output c.slot

/-- A contact ends: UP or CANCEL. -/
def touchEnd (s : State) (port phase : Nat) (c : Contact) (t : TouchStamp) : State :=
  modTouch (postTouch s port phase c (some t)) port fun p => { p with contacts := p.contacts.filter fun d => d.id != c.id }

/-- One entry of a frame; an identifier that the frame has held already posts nothing more (R400, R401). -/
def touchEntry (port : Nat) (t : TouchStamp) (e : TouchEntry) (s : State) : State :=
  let p := getTouch s port
  if p.seen.contains e.id then s
  else
    let s := modTouch s port fun p => { p with seen := e.id :: p.seen }
    match p.contacts.find? fun c => c.id == e.id with
    | none => if e.tip && e.conf then touchDown s port t e else s
    | some c =>
      let (x, y, clamped) := mapPoint s p e.x e.y
      let c := { c with x, y, clamped }
      if !e.conf then touchEnd s port 3 c t
      else if !e.tip then touchEnd s port 2 c t
      else postTouch (modTouch s port fun p => { p with contacts := replFirst (fun d => d.id == c.id) (fun _ => c) p.contacts }) port 1 c (some t)

/-- The entries of a list of Finger collections. -/
def touchEntries (port : Nat) (t : TouchStamp) (l : List Byte) (ids : Bool) (fs : List HidFinger) (s : State) : State :=
  forEach fs (fun f s =>
    let (s, e) := entryOf s l ids f
    touchEntry port t e s) s

/-- A frame is complete: contacts that it omits go UP (R400). -/
def closeFrame (s : State) (port : Nat) (t : TouchStamp) : State :=
  let p := getTouch s port
  let s := forEach (p.contacts.filter fun c => !p.seen.contains c.id) (fun c s => touchEnd s port 2 c t) s
  modTouch s port fun p => { p with seen := [], left := 0 }

/-- A report's bytes: discarded unless its ID names a Finger collection; frames follow Contact Count (R398). -/
def touchReport (s : State) (port : Nat) (t : TouchStamp) (l : List Byte) : State :=
  let y := (getTouch s port).layout
  let id := if y.ids then byteAt l 0 else 0
  let fs := y.fingers.filter fun f => f.report == id
  if fs.isEmpty then s
  else match y.count with
    | none => closeFrame (touchEntries port t l y.ids fs s) port t
    | some (_, f) =>
      let (s, n) := if (getTouch s port).left = 0 then hidRaw s l y.ids f else (s, (getTouch s port).left)
      let k := min n fs.length
      let s := touchEntries port t l y.ids (fs.take k) s
      if n ≤ k then closeFrame s port t else modTouch s port fun p => { p with left := n - k }

/-- TOUCH_REPORT_READ: the bytes read, with their length, and whether ATTN is still active; none is a missing acknowledge (R397). -/
def execTouchReportRead (port : Nat) (report : List Byte) (attn : Bool) (s : State) : Host.Outcome State Fault Refusal :=
  .next (
    let p := getTouch s port
    match p.stamp with
    | none => s
    | some t =>
      if !p.enable then s
      else
        let n := leAt report 0 2
        let short := decide (report.length < 2 ∨ report.length < n)
        let s := if short || n == 1 || decide (514 < n) then portError s port
          else
            let s := modTouch s port fun p => { p with errors := 0 }
            if n = 0 then s else touchReport s port t ((report.take n).drop 2)
        endRead s port attn)

/-- TOUCH_READ_TIMEOUT: a read unfinished after 2 ms (R397). -/
def execTouchReadTimeout (port : Nat) (attn : Bool) (s : State) : Host.Outcome State Fault Refusal :=
  .next (if (getTouch s port).enable && (getTouch s port).stamp.isSome && passed s (getTouch s port).readAt 2000000 then endRead (portError s port) port attn else s)

/-- TOUCH_ATTN_IDLE_TIMEOUT: ATTN inactive for 500 ms while contacts are down (R400). -/
def execTouchAttnIdleTimeout (port : Nat) (s : State) : Host.Outcome State Fault Refusal :=
  .next (if (getTouch s port).enable && (getTouch s port).stamp.isNone && passed s (getTouch s port).readAt 500000000 then cancelContacts s port none else s)

end Sys2Proof.Machine
end

