-- ==== Sys2Proof/Machine/Audio.lean ====
section
/-! DEFINITION. Sound: the mixer, streams, ducking and tones (R410 to R415). -/
namespace Sys2Proof.Machine
open Sys2Proof

/-- Change the sound state. -/
def modAudio (s : State) (f : AudioSt → AudioSt) : State := { s with io := { s.io with audio := f s.io.audio } }
/-- A stream. -/
def getAud (s : State) (n : Nat) : AudStream := tget {} s.io.audio.streams n
/-- Change a stream. -/
def modAud (s : State) (n : Nat) (f : AudStream → AudStream) : State := modAudio s fun a => { a with streams := tmod {} a.streams n f }
/-- A tone generator. -/
def getTone (s : State) (n : Nat) : Tone := tget {} s.io.audio.tones n
/-- Change a tone generator. -/
def modTone (s : State) (n : Nat) (f : Tone → Tone) : State := modAudio s fun a => { a with tones := tmod {} a.tones n f }

/-! Gains (R412, R414). -/

/-- A ramp's value, in 1/480 of u1.15. -/
def rampNum (r : Ramp) : Nat := r.src * r.left + r.dst * (480 - r.left)

/-- Aim a ramp at a gain; one that aims elsewhere begins again from its value, rounded down. -/
def rampAim (r : Ramp) (g : Nat) : Ramp := if r.dst = g then r else { src := rampNum r / 480, dst := g, left := 480 }

/-- One sample of a ramp. -/
def rampStep (r : Ramp) : Ramp := { r with left := r.left - 1 }

/-- u1.15 gain of an attenuation in dB. -/
def duckGain (db : Nat) : Nat := if db = 0 then 32768 else (Config.duckGain db).toNat

/-! Destinations (R411, R414). -/

/-- R414: a slice may use every destination of a mask. -/
def destAllowed (s : State) (slice mask : Nat) : Bool :=
  slice == 0 || (((getSlice s slice).cls != .a || mask / 256 == 0) &&
    (List.range 8).all fun o => !bitAt mask o || admits (getGroup s (groupOfOutput s o)) slice)

/-! AUDIO_STREAM_SET (R413, R414). -/

/-- OP of AUDIO_STREAM_SET. -/
def audioOp (p : Packet) : Nat := pf p 16 0 2

/-- Step 8 checks of AUDIO_STREAM_SET. -/
def checkAudioStreamSet (s : State) (h : Held) (_ : Cmd) : Option Fail :=
  let p := h.pkt
  let op := audioOp p
  let len := pf p 32 0 32
  let start := pf p 40 0 64
  let x := getAud s (pf p 17 0 5)
  let bad := !reservedZero p [(16, 0, 4), (17, 0, 5), (18, 0, 12), (20, 0, 16), (22, 0, 6), (23, 0, 6), (24, 0, 64), (32, 0, 32), (36, 0, 16), (40, 0, 64)] ||
    decide (23 < pf p 17 0 5) ||
    (op == 0 && (pf p 24 0 64 % 4096 != 0 || !inRange len 8192 0x1000000 || len % 4096 != 0 || !inRange (pf p 36 0 16) 48 48000 ||
      (start != 0 && wpBadLine s (wpOfBits start)))) ||
    (op == 3 && (decide (60 < pf p 22 0 6) || decide (60 < pf p 23 0 6)))
  firstFail [
    (bad, failWith .badParam),
    (op == 3 && h.slice != 0, failWith .notPermitted),
    (op == 0 && !destAllowed s h.slice (pf p 18 0 12), failWith .notPermitted),
    ((op == 1 || op == 2) && h.slice != 0 && x.used && x.owner != h.slice, failWith .notPermitted),
    (op == 0 && x.used, failWith .notReady),
    ((op == 1 || op == 2) && !x.used, failWith .notReady)]

/-- A reply of AUDIO_STREAM_SET: it acts at the first sample after the commit point. -/
def audioReply (s : State) (h : Held) (fields : List Field) : State :=
  finish s h .ok (wpBits (sampleAfter s (now s))) (packFields (fAt 16 0 8 (pf h.pkt 17 0 5) :: fields))

/-- OPEN. -/
def actAudioOpen (s : State) (h : Held) (_ : Cmd) : State :=
  let p := h.pkt
  let g := pf p 20 0 16
  let start := pf p 40 0 64
  audioReply (modAud s (pf p 17 0 5) fun _ =>
    { used := true, owner := h.slice, stereo := pb p 16 2, space := pb p 16 3 || destSpace s, dest := pf p 18 0 12, gain := { src := g, dst := g }
      addr := pf p 24 0 64, length := pf p 32 0 32, prefill := pf p 36 0 16, start := if start = 0 then none else some (wpOfBits start) }) h []

/-- A stream closes; its input counts on as silent (R412). -/
def closeStream (x : AudStream) : AudStream := { owner := x.owner, quiet := x.quiet }

/-- CLOSE. -/
def actAudioClose (s : State) (h : Held) (_ : Cmd) : State :=
  let n := pf h.pkt 17 0 5
  audioReply (modAud s n closeStream) h [fAt 20 0 32 (min (getAud s n).underruns (2 ^ 32 - 1))]

/-- GAIN: a ramp of 480 samples. -/
def actAudioGain (s : State) (h : Held) (_ : Cmd) : State :=
  audioReply (modAud s (pf h.pkt 17 0 5) fun x => { x with gain := rampAim x.gain (pf h.pkt 20 0 16) }) h []

/-- GLOBAL. -/
def actAudioGlobal (s : State) (h : Held) (_ : Cmd) : State :=
  audioReply (modAudio s fun a => { a with duckS := pf h.pkt 22 0 6, duckO := pf h.pkt 23 0 6 }) h []

/-- AUDIO_STREAM_SET (0x905), OP OPEN. -/
def execAudioStreamSetOpen (c : Cmd) (s : State) : Host.Outcome State Fault Refusal :=
  .next (runPacket s c 0x905 (fun h => audioOp h.pkt == 0) checkAudioStreamSet actAudioOpen)
/-- AUDIO_STREAM_SET (0x905), OP CLOSE. -/
def execAudioStreamSetClose (c : Cmd) (s : State) : Host.Outcome State Fault Refusal :=
  .next (runPacket s c 0x905 (fun h => audioOp h.pkt == 1) checkAudioStreamSet actAudioClose)
/-- AUDIO_STREAM_SET (0x905), OP GAIN. -/
def execAudioStreamSetGain (c : Cmd) (s : State) : Host.Outcome State Fault Refusal :=
  .next (runPacket s c 0x905 (fun h => audioOp h.pkt == 2) checkAudioStreamSet actAudioGain)
/-- AUDIO_STREAM_SET (0x905), OP GLOBAL. -/
def execAudioStreamSetGlobal (c : Cmd) (s : State) : Host.Outcome State Fault Refusal :=
  .next (runPacket s c 0x905 (fun h => audioOp h.pkt == 3) checkAudioStreamSet actAudioGlobal)

/-! TONE_PLAY (R415). -/

/-- A generator is busy for a slice: with a tone of an equal or higher class. -/
def toneBusy (s : State) (gen slice : Nat) : Bool :=
  let t := getTone s gen
  t.on && decide (clsRank (getSlice s slice).cls ≤ clsRank (getSlice s t.owner).cls)

/-- Step 8 checks of TONE_PLAY. -/
def checkTonePlay (s : State) (h : Held) (_ : Cmd) : Option Fail :=
  let p := h.pkt
  let gen := pf p 16 0 3
  let t := getTone s gen
  firstFail [
    (!reservedZero p [(16, 0, 6), (18, 0, 12), (20, 0, 16), (22, 0, 16), (24, 0, 16), (26, 0, 16), (28, 0, 16)] || pf p 16 4 2 == 3 ||
      !inRange (pf p 20 0 16) 20 20000 || pf p 24 0 16 == 0, failWith .badParam),
    (!destAllowed s h.slice (pf p 18 0 12), failWith .notPermitted),
    (pb p 16 3 && t.on && h.slice != 0 && t.owner != h.slice, failWith .notPermitted),
    (!pb p 16 3 && toneBusy s gen h.slice, failWith .notReady)]

/-- TONE_PLAY's effect; an armed one that finds its generator busy when it acts is refused then. -/
def actTonePlay (s : State) (h : Held) (_ : Cmd) : State :=
  let p := h.pkt
  let gen := pf p 16 0 3
  let armed := h.phase == .armed
  let done := wpBits (sampleAfter s (if armed then addTicks (wallLines s) h.due (-1) else now s))
  if pb p 16 3 then finish (modTone s gen fun t => if t.on then { t with ending := true } else t) h .ok done 0
  else if toneBusy s gen h.slice then finishNow s h .notReady []
  else finish (modTone s gen fun _ =>
    { on := true, owner := h.slice, wave := pf p 16 4 2, dest := pf p 18 0 12, freq := pf p 20 0 16, level := pf p 22 0 16, onMs := pf p 24 0 16
      offMs := pf p 26 0 16, cycles := pf p 28 0 16, start := if armed then some h.due else none }) h .ok done 0

/-- TONE_PLAY (0x906). -/
def execTonePlay (c : Cmd) (s : State) : Host.Outcome State Fault Refusal :=
  .next (runPacket s c 0x906 (fun _ => true) checkTonePlay actTonePlay)

/-! Samples (R410 to R413, R415). -/

/-- What an input gives the mixer in one sample: class, destinations, left and right sample, gain in 1/(480 x 32,768). -/
structure MixIn where
  cls : Cls := .s
  dest : Nat := 0
  left : Int := 0
  right : Int := 0
  gain : Nat := 0
  deriving DecidableEq, Repr

/-- Samples since one exceeded 8,389 in magnitude, after this one. -/
def quietAfter (q : Nat) (l r : Int) : Nat := if decide (8389 < l.natAbs) || decide (8389 < r.natAbs) then 0 else min 960 (q + 1)

/-- Bytes of a sample frame. -/
def frameBytes (x : AudStream) : Nat := if x.stereo then 8 else 4

/-- Bytes of host memory that a stream's reads return; none when they fail. -/
def hostFor (host : List HostBytes) (n len : Nat) : Option (List Byte) :=
  match host.find? fun b => b.stream == n with
  | some b => if b.ok && b.data.length == len then some b.data else none
  | none => none

/-- Read bytes of a stream's ring under its owner's slice (R365). -/
def ringBytes (s : State) (n : Nat) (x : AudStream) (host : List HostBytes) (off len : Nat) : State × Option (List Byte) :=
  if x.space then storeRead s x.owner engOpio (x.addr + off) len else (s, hostFor host n len)

/-- The next sample of a stream: its words' bits 31 to 8; one that has not been produced, or cannot be read, plays as 0 and is an underrun (R413). -/
def streamSample (host : List HostBytes) (s : State) (n : Nat) : State × Option MixIn :=
  let x := getAud s n
  let silent (s : State) : State × Option MixIn := (modAud s n fun x => { x with quiet := quietAfter x.quiet 0 0, gain := rampStep x.gain }, none)
  let begin := x.running || (match x.start with
    | some w => wpReached (nextSampleWp s) w
    | none => false)
  if !x.used || !begin then silent s
  else
    let s := modAud s n fun x => { x with running := true }
    let under (s : State) (used : Nat) : State × Option MixIn :=
      silent (modAud s n fun x => { x with underruns := x.underruns + 1, consumed := x.consumed + used })
    if x.produced ≤ x.consumed then under s 0
    else match ringBytes s n x host (4096 + x.consumed % ((x.length - 4096) / frameBytes x) * frameBytes x) (frameBytes x) with
      | (s, none) => under s 1
      | (s, some b) =>
        let l := toSigned 24 (leAt b 1 3)
        let r := if x.stereo then toSigned 24 (leAt b 5 3) else l
        let g := rampStep x.gain
        (modAud s n fun x => { x with consumed := x.consumed + 1, quiet := quietAfter x.quiet l r, gain := g },
          some { cls := (getSlice s x.owner).cls, dest := x.dest, left := l, right := r, gain := rampNum g })

/-- A tone's sample at its place: the phase runs from the start sample, and is silent while the cadence is off. -/
def toneValue (t : Tone) : Int :=
  let peak : Int := (t.level * 128 : Nat)
  let ph := t.pos * t.freq % 48000
  if t.offMs ≠ 0 ∧ 48 * t.onMs ≤ t.pos % (48 * (t.onMs + t.offMs)) then 0
  else if t.wave = 0 then toSigned 24 (Config.toneSine ph (t.level * 128)).toNat
  else if t.wave = 1 then (if ph < 24000 then peak else 0 - peak)
  else if ph ≤ 12000 then peak * (ph : Int) / 12000
  else if ph ≤ 36000 then peak * (24000 - (ph : Int)) / 12000
  else peak * ((ph : Int) - 48000) / 12000

/-- A tone's sample; it ends on STOP or after its cycles. -/
def toneSample (s : State) (n : Nat) : State × Option MixIn :=
  let t := getTone s n
  let off (s : State) : State × Option MixIn := (modTone s n fun t => { t with quiet := quietAfter t.quiet 0 0 }, none)
  let waits := match t.start with
    | some w => !wpReached (nextSampleWp s) w
    | none => false
  if !t.on then off s
  else if t.ending || (t.cycles != 0 && decide (48 * (t.onMs + t.offMs) * t.cycles ≤ t.pos)) then
    off (modTone s n fun t => { owner := t.owner, quiet := t.quiet })
  else if waits then off s
  else
    let v := toneValue t
    (modTone s n fun t => { t with start := none, pos := t.pos + 1, quiet := quietAfter t.quiet v v },
      some { cls := (getSlice s t.owner).cls, dest := t.dest, left := v, right := v, gain := 480 * 32768 })

/-- The samples of all inputs, in order. -/
def allInputs (host : List HostBytes) (s : State) : State × List MixIn :=
  let one (f : State → Nat → State × Option MixIn) (acc : State × List MixIn) (n : Nat) : State × List MixIn :=
    match f acc.1 n with
    | (s, some m) => (s, acc.2 ++ [m])
    | (s, none) => (s, acc.2)
  (List.range 8).foldl (one toneSample) ((List.range 24).foldl (one (streamSample host)) (s, []))

/-- R412: an input of a class is active. -/
def classActive (s : State) (c : Cls) : Bool :=
  (s.io.audio.streams.any fun e => decide (e.2.quiet < 960) && (getSlice s e.2.owner).cls == c) ||
  (s.io.audio.tones.any fun e => decide (e.2.quiet < 960) && (getSlice s e.2.owner).cls == c)

/-- R412: aim and move the attenuation of class O and class A inputs. -/
def duckStep (s : State) : State :=
  let a := s.io.audio
  let ds := if classActive s .s then a.duckS else 0
  let dO := if classActive s .o then a.duckO else 0
  modAudio s fun a => { a with gainO := rampStep (rampAim a.gainO (duckGain ds)), gainA := rampStep (rampAim a.gainA (duckGain (max ds dO))) }

/-- Attenuation of an input's class now, in 1/(480 x 32,768). -/
def duckOf (a : AudioSt) : Cls → Nat
  | .s => 480 * 32768 | .o => rampNum a.gainO | .a => rampNum a.gainA

/-- The exact sum as a 24-bit sample, saturated; which way a fraction rounds is open. -/
def mixOut (s : State) (v : Int) : State × Int :=
  let d : Int := ((480 * 32768 : Nat) : Int) * ((480 * 32768 : Nat) : Int)
  let (s, q) := if v % d = 0 then (s, v / d) else
    let (u, s) := freshValue s
    (s, v / d + ((u.toNat % 2 : Nat) : Int))
  (s, max (-8388608) (min 8388607 q))

/-- The sample of a destination: the saturating sums of the inputs routed to it (R411). -/
def mixDest (ins : List MixIn) (d : Nat) (s : State) : State :=
  if d < 8 ∧ (getOut s d).state ≠ .running then s
  else
    let a := s.io.audio
    let w (m : MixIn) : Int := (m.gain * duckOf a m.cls : Nat)
    let l := (ins.filter fun m => bitAt m.dest d).foldl (fun v m => v + m.left * w m) 0
    let r := (ins.filter fun m => bitAt m.dest d).foldl (fun v m => v + m.right * w m) 0
    let (s, l) := mixOut s l
    let (s, r) := mixOut s r
    emit s (.audio d l r)

/-- AUDIO_SAMPLE: the next sample of the grid, once its WP has come; the host bytes are the sample frames read for streams in host memory. -/
def execAudioSample (host : List HostBytes) (s : State) : Host.Outcome State Fault Refusal :=
  .next (if !s.time.running || !wpReached (now s) (nextSampleWp s) then s
    else
      let (s, ins) := allInputs host s
      let s := forEach (List.range 12) (mixDest ins) (duckStep s)
      modAudio s fun a => { nextSample s a with poll := min 48 (a.poll + 1) })

/-- One stream at a poll: PRODUCED is read, CONSUMED is written, and a stream that waits for PREFILL may start (R413). -/
def pollStream (host : List HostBytes) (n : Nat) (s : State) : State :=
  let x := getAud s n
  if !x.used then s
  else
    let (s, r) := ringBytes s n x host 0 8
    let s := match r with
      | none => s
      | some b => modAud s n fun x => { x with produced := natLE b, running := x.running || (x.start.isNone && decide (x.prefill ≤ natLE b)) }
    if x.space then (storeWrite s x.owner engOpio (x.addr + 64) (bytesLE 8 x.consumed)).1 else hostPut s x.owner (x.addr + 64) (bytesLE 8 x.consumed)

/-- AUDIO_PRODUCED_POLL: every 48 samples; the host bytes are the PRODUCED words of streams in host memory. -/
def execAudioProducedPoll (host : List HostBytes) (s : State) : Host.Outcome State Fault Refusal :=
  .next (if s.io.audio.poll < 48 then s else forEach (List.range 24) (pollStream host) (modAudio s fun a => { a with poll := 0 }))

/-! Grid changes (R410). -/

/-- A wall timing change takes effect at a boundary: the group and the sample end, and the grid of the new timing starts there. -/
def audioRebase (s : State) (frame : Nat) : State := modAudio s fun a => { a with baseFrame := frame, group := 0, sample := 0 }

/-- A REALIGN JUMP: the grid continues with its first point at or after the WP jumped to. -/
def audioJump (s : State) : State :=
  let g := gridAt s (now s)
  modAudio s fun a => { a with group := g.1, sample := g.2 }

end Sys2Proof.Machine
end

