-- ==== Sys2Proof/Machine/Attach.lean ====
section
/-! DEFINITION. Sources: SOURCE_ATTACH, SOURCE_DETACH and the freeing of entries (R235, R239, R248, R249). -/
namespace Sys2Proof.Machine
open Sys2Proof

/-! SOURCE_ATTACH (R248). -/

/-- What a SOURCE_ATTACH asks for. -/
structure AttachReq where
  id : Nat := 0
  any : Bool := false
  kind : Nat := 0
  static : Bool := false
  gdr : Bool := false
  codec : Nat := 0
  fmt : Nat := 0
  dpin : Nat := 0
  w : Nat := 0
  h : Nat := 0
  refs : Nat := 0
  buffers : Nat := 0
  rate : Nat := 0
  period : Nat := 0
  deadline : Nat := 0
  deriving DecidableEq, Repr

/-- The parameters of a packet. -/
def attachReq (p : Packet) : AttachReq :=
  { id := pf p 16 0 12, any := pb p 17 4, kind := pf p 18 0 2, static := pb p 18 2, gdr := pb p 18 3, codec := pf p 19 0 2, fmt := pf p 20 0 8
    dpin := pf p 21 0 2, w := pf p 22 0 14, h := pf p 24 0 14, refs := pf p 26 0 5, buffers := pf p 27 0 4, rate := pf p 28 0 10
    period := pf p 32 0 24, deadline := pf p 36 0 24 }

/-- Bits of SOURCE_ATTACH that are not reserved. -/
def attachResv : List (Nat × Nat × Nat) :=
  [(16, 0, 13), (18, 0, 4), (19, 0, 2), (20, 0, 8), (21, 0, 2), (22, 0, 14), (24, 0, 14), (26, 0, 5), (27, 0, 4), (28, 0, 10), (32, 0, 24), (36, 0, 24)]

/-- Fields of one kind: DECODED, or DPIN and IMPORT, or SURFACE. -/
def attachKindBad (q : AttachReq) : Bool :=
  if q.kind = 0 then
    q.static || decide (1 < q.codec) || !([0x20, 0x21, 0x60].contains q.fmt) || q.dpin != 0 || !inRange q.w 16 4096 || !inRange q.h 16 2304 ||
      q.w % 2 != 0 || q.h % 2 != 0 || !inRange q.refs 1 16 || q.buffers != 0 || !inRange q.rate 1 520 || (q.fmt == 0x60 && (q.w % 64 != 0 || q.h % 4 != 0))
  else if q.kind = 3 then
    q.gdr || q.codec != 0 || q.fmt != 0 || q.dpin != 0 || q.w != 0 || q.h != 0 || q.refs != 0 || q.buffers != 0 || q.rate != 0
  else
    q.static || q.gdr || q.codec != 0 || !formatKnown q.fmt || [0x01, 0x02, 0x03, 0x04, 0x44].contains q.fmt || (q.kind != 1 && q.dpin != 0) ||
      !inRange q.w 1 8192 || !inRange q.h 1 8192 || q.refs != 0 || !inRange q.buffers 2 8 || q.rate != 0

/-- A field of a request is out of range or given for the wrong kind. -/
def attachBad (q : AttachReq) : Bool :=
  (q.any && q.id != 0) || attachKindBad q || (q.static && q.period != 0) || (!q.static && q.period == 0) || (q.deadline != 0 && decide (q.deadline < q.period))

/-- Step 8 checks of SOURCE_ATTACH. -/
def checkSourceAttach (s : State) (h : Held) (_ : Cmd) : Option Fail :=
  let q := attachReq h.pkt
  firstFail [
    (!reservedZero h.pkt attachResv || attachBad q, failWith .badParam),
    (q.kind == 1 && h.slice != 0, failWith .notPermitted),
    (!q.any && (getEntry s q.id).valid, failWith .notReady),
    (q.kind == 1 && (getDp s q.dpin).source.isSome, failWith .notReady)]

/-- Source Ledger entries of a slice. -/
def sourcesUsed (s : State) (slice : Nat) : Nat := (s.ledger.entries.filter fun e => e.2.valid && e.2.owner == slice).length

/-- Decode contexts of a slice: from attach to the freeing of the entry (R239). -/
def ctxsUsed (s : State) (slice : Nat) : Nat := (ctxsWhere s fun x => x.used && x.slice == slice).length

/-- R239: a reserved context of the slice, or one that no slice reserves, is free. -/
def ctxFree (s : State) (slice : Nat) : Bool :=
  let used := ctxsUsed s slice
  decide (used < (getSlice s slice).share.decodeCtx) ||
  decide ((List.range 65).foldl (fun n i => n + max (getSlice s i).share.decodeCtx (ctxsUsed s i)) 0 < 256)

/-- The size of a DPIN or IMPORT source's buffers (R248). -/
def roundedSize (q : AttachReq) : Nat × Nat :=
  if formatCompressed q.fmt then (roundUp q.w 64, roundUp q.h 4)
  else if formatTwoPlane q.fmt then (roundUp q.w 2, roundUp q.h 2)
  else if q.fmt = 0x22 then (roundUp q.w 2, q.h) else (q.w, q.h)

/-- Writer of a source's buffers. -/
def sourceWriter (kind : Nat) : Writer := if kind = 0 then .decode else if kind = 1 then .dpin else .fabric

/-- Allocate n buffers; the reason of the allocation that fails (R129). -/
def attachBuffers (slice fmt w h : Nat) (wr : Writer) : Nat → State → State × Except Nat (List Nat)
  | 0, s => (s, .ok [])
  | n + 1, s =>
    match allocPixel s slice fmt w h wr with
    | (t, some hd) => match attachBuffers slice fmt w h wr n t with
      | (t, .ok l) => (t, .ok (hd :: l))
      | (t, .error e) => (t, .error e)
    | (_, none) =>
      (s, .error ((allocReason s slice ((surfaceBytes fmt w h (choosePitch (pitchBase fmt w)) + 65535) / 65536)).getD 4))

/-- The entry that SOURCE_ATTACH creates (R248). -/
def attachEntry (s : State) (slice i : Nat) (q : AttachReq) : LedgerEntry :=
  { owner := slice, kind := kindOfCode q.kind, state := if q.static then .notTracked else .unproven, valid := true, static := q.static
    changeBound := !(changeRects s i).isEmpty, period := q.period, deadline := if q.deadline = 0 then min 16777215 (3 * q.period) else q.deadline }

/-- SOURCE_ATTACH's effect: everything is created, or nothing. -/
def actSourceAttach (s : State) (h : Held) (_ : Cmd) : State :=
  let q := attachReq h.pkt
  let sl := h.slice
  let none_ (r x : Nat) : State := finishNow s h .noResource [fAt 16 0 8 r, fAt 17 0 8 x]
  match if q.any then firstIdx (fun i => !(getEntry s i).valid) 0 4096 else some q.id with
  | none => none_ 1 0
  | some i =>
    if (getSlice s sl).share.sources ≤ sourcesUsed s sl then none_ 2 0
    else if q.kind = 0 ∧ !ctxFree s sl then none_ 3 0
    else
      let (w, ht) := if q.kind = 0 then (q.w, q.h) else roundedSize q
      let n := if q.kind = 0 then q.refs + 2 else if q.kind = 3 then 0 else q.buffers
      match attachBuffers sl q.fmt w ht (sourceWriter q.kind) n s with
      | (_, .error e) => none_ 4 e
      | (t, .ok l) =>
        let e := attachEntry t sl i q
        let t := forEach l (fun hd s => modSurf s (handleIndex hd) fun x => { x with source := some i, users := 1 }) t
        let t := { t with
          ledger := { t.ledger with entries := tset {} t.ledger.entries i e }
          media := { t.media with sources := tset {} t.media.sources i { fmt := q.fmt, maxW := q.w, maxH := q.h, dpin := q.dpin } } }
        let t := if q.kind = 0 then modCtx t i fun _ => { used := true, slice := sl, codec := q.codec, gdr := q.gdr, maxRefs := q.refs, maxRate := q.rate }
          else if q.kind = 1 then modDp t q.dpin fun d => { d with source := some i } else t
        finishNow t h .ok [fAt 16 0 16 i, fAt 18 0 8 n, fAt 20 0 32 e.deadline, fAt 24 0 32 (granulesOf t l)]

/-- SOURCE_ATTACH (0x401). -/
def execSourceAttach (c : Cmd) (s : State) : Host.Outcome State Fault Refusal :=
  .next (runPacket s c 0x401 (fun _ => true) checkSourceAttach actSourceAttach)

/-! The end of a source (R249). -/

/-- A surface goes: its rows with the lanes are finished and discarded, and what its writer has gathered goes (R96, R121, R249). -/
def orphanRows (s : State) (i : Nat) : State :=
  let mark (w : LaneWork) : LaneWork := if w.surf = some i then { w with orphan := true } else w
  { s with sluice := { s.sluice with
      queue := s.sluice.queue.map mark
      lanes := tmap {} (fun _ x => { x with job := x.job.map mark }) s.sluice.lanes
      staging := tset [] s.sluice.staging i [] } }

/-- A decode context stops: a picture in a core is finished and discarded, what waits is dropped; with `counted` the picture is an orphan of its slice (R96, R249). -/
def endContext (s : State) (i : Nat) (counted : Bool) : State :=
  let x := getCtx s i
  if !x.used then s
  else
    let s := modCtx s i fun x => { x with detached := true, gdrTo := none, refs := [] }
    match x.pic with
    | none => modCtx s i fun x => { x with queue := [] }
    | some p =>
      if p.core.isNone && !p.orphan then modCtx s i fun x => { x with pic := none, queue := [] }
      else
        let s := if p.orphan then s else modSurf s p.surf fun y => { y with orphans := y.orphans + 1 }
        let add := counted && !p.counted
        let s := modCtx s i fun x => { x with pic := some { p with orphan := true, counted := p.counted || counted, orphanAt := if add then uptimeMs s else p.orphanAt }
                                              queue := (started x).map fun a => { a with complete := true } }
        if add then modSlice s x.slice fun y => { y with orphans := y.orphans + 1 } else s

/-- A source ends: the entry is withdrawn, its context, bindings, input, import and exports end, and its buffers are released (R249). -/
def endSource (s : State) (i : Nat) (counted : Bool) : State :=
  let bufs := buffersOf s i
  let s := endContext (clearStill (withdraw s i) i) i counted
  let s := forEach (s.media.rules.filterMap fun e => if e.2.bound ∧ e.2.source = i then some e.1 else none) (fun r s => endBinding s r) s
  let s := forEach (List.range 4) (fun d s =>
    if (getDp s d).source = some i then dpSettle (modDp s d fun x => { x with source := none, frame := none }) d else s) s
  let s := endImport s i
  let s := forEach (s.fabric.exports.filterMap fun e => if e.2.used ∧ e.2.source = i then some e.1 else none) (fun n s => endExport s n) s
  let s := { s with
    media := { s.media with deliveries := s.media.deliveries.filter fun d => d.source != i }
    store := { s.store with redo := s.store.redo.filter (· != i) }
    gauge := { s.gauge with units := tmap {} (fun _ u => if u.enable && u.kind == 1 && u.source == i then { u with enable := false } else u) s.gauge.units } }
  releaseAll (forEach bufs (fun b s => orphanRows s b) s) (bufs.map fun b => handleOf b (getSurf s b))

/-- Slots whose layer in force or pending names a source. -/
def layersNaming (s : State) (i : Nat) : Nat :=
  let names (d : Option Desc) : Bool := match d with | some d => d.source == i | none => false
  (s.comp.slots.filter fun e => names e.2.active.desc || names e.2.pending).length

/-- Step 8 checks of SOURCE_DETACH. -/
def checkSourceDetach (s : State) (h : Held) (_ : Cmd) : Option Fail :=
  let e := getEntry s (pf h.pkt 16 0 12)
  firstFail [(!reservedZero h.pkt [(16, 0, 12)], failWith .badParam), (!e.valid, failWith .notReady),
    (h.slice != 0 && e.owner != h.slice, failWith .notPermitted), (e.inp.withdrawn, failWith .notReady)]

/-- SOURCE_DETACH's commit point. -/
def actSourceDetach (s : State) (h : Held) (_ : Cmd) : State :=
  let i := pf h.pkt 16 0 12
  finishNow (endSource s i false) h .ok [fAt 16 0 64 (wpBits (decidingAfter s)), fAt 24 0 16 (layersNaming s i)]

/-- SOURCE_DETACH (0x402). -/
def execSourceDetach (c : Cmd) (s : State) : Host.Outcome State Fault Refusal :=
  .next (runPacket s c 0x402 (fun _ => true) checkSourceDetach actSourceDetach)

/-- A descriptor or commit record names a source. -/
def sourceNamed (s : State) (i : Nat) : Bool :=
  let names (d : Option Desc) : Bool := match d with | some d => d.source == i | none => false
  (s.comp.slots.any fun e => names e.2.active.desc || names e.2.shown.desc || names e.2.pending) ||
  (s.comp.records.any fun r => r.layers.any fun l => names l.desc) || s.migr.held.any fun l => l.desc.source == i

/-- What a freed entry keeps: its counters, which only SOURCE_ATTACH and a device reset clear (R12). -/
def freedEntry (e : LedgerEntry) : LedgerEntry :=
  { degradedTiles := e.degradedTiles, lateCount := e.lateCount, staleCount := e.staleCount, frozenCount := e.frozenCount, concealCount := e.concealCount }

/-- A wall frame boundary frees the withdrawn entries that nothing names and whose buffers' storage has been freed (R249); an event that an entry still owes its owner stays owed (R35). -/
def freeEntries (s : State) : State :=
  forEach (s.ledger.entries.filterMap fun e => if e.2.valid ∧ e.2.inp.withdrawn then some e.1 else none) (fun i s =>
    if sourceNamed s i || s.store.surfs.any (fun e => e.2.used && e.2.source == some i) then s
    else
    let e := getEntry s i
    { s with
      ledger := { s.ledger with
        entries := tset {} s.ledger.entries i (freedEntry e)
        owedEvents := s.ledger.owedEvents ++ (match e.ev with | some v => [(i, e.owner, v)] | none => []) }
      media := { s.media with sources := tset {} s.media.sources i {}, ctxs := tset {} s.media.ctxs i {} } }) s

end Sys2Proof.Machine
end

