-- ==== Sys2Proof/Machine/Slices.lean ====
section
/-! DEFINITION. Slices: creation, shares, quiesce, freeze, reset, destruction, thaw and query (R85 to R98, R101 to R104). -/
namespace Sys2Proof.Machine
open Sys2Proof

/-! Share records (R89, R90). -/

/-- The share record of a 32-byte number. -/
def shareOf (x : Nat) : Share :=
  { capacity := bitsAt x 0 32, handles := bitsAt x 32 16, sources := bitsAt x 48 13, stWeight := bitsAt x 64 8, beWeight := bitsAt x 72 8
    layers := bitsAt x 80 7, decodeCtx := bitsAt x 96 9, decodeRate := bitsAt x 112 13, encodeRate := bitsAt x 128 11, cmdRate := bitsAt x 144 16
    queueLimit := bitsAt x 160 11 }

/-- The share record as a number. -/
def shareBits (x : Share) : Nat :=
  packFields [(0, 32, x.capacity), (32, 16, x.handles), (48, 13, x.sources), (64, 8, x.stWeight), (72, 8, x.beWeight), (80, 7, x.layers),
    (96, 9, x.decodeCtx), (112, 13, x.decodeRate), (128, 11, x.encodeRate), (144, 16, x.cmdRate), (160, 11, x.queueLimit)]

/-- Bits of bytes 24 to 55 that are not reserved. -/
def shareResv : List (Nat × Nat × Nat) :=
  [(24, 0, 32), (28, 0, 16), (30, 0, 13), (32, 0, 8), (33, 0, 8), (34, 0, 7), (36, 0, 9), (38, 0, 13), (40, 0, 11), (42, 0, 16), (44, 0, 11)]

/-- The guarantees, weights and queue limit of a record are in range. -/
def shareCoreBad (x : Share) : Bool :=
  x.stWeight == 0 || x.beWeight == 0 || decide (256 < x.decodeCtx ∨ 4160 < x.decodeRate ∨ 1200 < x.encodeRate) || !inRange x.queueLimit 1 1024

/-- A value of a record is out of range (R89). -/
def shareBad (x : Share) : Bool :=
  shareCoreBad x || decide (393216 < x.capacity ∨ 16384 < x.handles ∨ 4096 < x.sources ∨ 64 < x.layers) || x.cmdRate == 0

/-- A guarantee of a slice that R90 counts: the larger of the one in force and those accepted. -/
def guarantee (s : State) (f : Share → Nat) (i : Nat) : Nat :=
  (getSlice s i).pendShares.foldl (fun n e => max n (f e.1)) (f (getSlice s i).share)

/-- R90: the guarantees fit with slice i's replaced by x. -/
def sharesFit (s : State) (i : Nat) (x : Share) : Bool :=
  let sum (f : Share → Nat) : Nat := (List.range 65).foldl (fun n j => n + if j = i then f x else guarantee s f j) 0
  decide (sum Share.decodeCtx ≤ 256 ∧ sum Share.decodeRate ≤ 4160 ∧ sum Share.encodeRate ≤ 1200)

/-- SLICE of a 0xCxx packet. -/
def pktSlice (p : Packet) : Nat := pf p 16 0 7

/-- Checks that the 0xCxx commands share: reserved bits and range, then slice 0, then the rest (R85). -/
def sliceCheck (h : Held) (resv : List (Nat × Nat × Nat)) (bad : Bool) (rest : List (Bool × Fail)) : Option Fail :=
  firstFail ([(!reservedZero h.pkt ((16, 0, 7) :: resv) || decide (64 < pktSlice h.pkt) || bad, failWith .badParam),
    (pktSlice h.pkt == 0, failWith .notPermitted)] ++ rest)

/-- A slice's state is one of a list. -/
def stateIn (s : State) (i : Nat) (l : List SliceState) : Bool := l.contains (getSlice s i).state

/-! SLICE_CREATE (0xC01). -/

/-- Step 8 checks of SLICE_CREATE. -/
def checkSliceCreate (s : State) (h : Held) (_ : Cmd) : Option Fail :=
  let p := h.pkt
  let x := shareOf (pf p 24 0 256)
  sliceCheck h ((17, 0, 2) :: shareResv) (pf p 17 0 2 == 3 || shareBad x)
    [(!stateIn s (pktSlice p) [.free], failWith .notReady), (!sharesFit s (pktSlice p) x, failWith .budgetExceeded)]

/-- SLICE_CREATE's effect. -/
def actSliceCreate (s : State) (h : Held) (_ : Cmd) : State :=
  let p := h.pkt
  let i := pktSlice p
  let s := modSlice s i fun _ => { cls := clsOfCode (pf p 17 0 2), share := shareOf (pf p 24 0 256) }
  finishNow (setSliceState s i .created 0) h .ok []

/-- SLICE_CREATE (0xC01). -/
def execSliceCreate (c : Cmd) (s : State) : Host.Outcome State Fault Refusal :=
  .next (runPacket s c 0xC01 (fun _ => true) checkSliceCreate actSliceCreate)

/-! SLICE_BIND_PASID (R102). -/

/-- Step 8 checks of SLICE_BIND_PASID. -/
def checkBindPasid (s : State) (h : Held) (_ : Cmd) : Option Fail :=
  let i := pktSlice h.pkt
  let v := pf h.pkt 20 0 20
  let held := (List.range 65).any fun j => j != i && (getSlice s j).pasid == some v
  sliceCheck h [(20, 0, 20)] false [(!stateIn s i [.created, .quiesced, .frozen] || (v != 0 && held), failWith .notReady)]

/-- SLICE_BIND_PASID's effect; a CREATED slice becomes ACTIVE. -/
def actBindPasid (s : State) (h : Held) (_ : Cmd) : State :=
  let i := pktSlice h.pkt
  let old := (getSlice s i).pasid.getD 0
  let s := modSlice s i fun x => { x with pasid := some (pf h.pkt 20 0 20) }
  finishNow (if (getSlice s i).state = .created then setSliceState s i .active 0 else s) h .ok [fAt 16 0 32 old]

/-- SLICE_BIND_PASID (0xC02). -/
def execSliceBindPasid (c : Cmd) (s : State) : Host.Outcome State Fault Refusal :=
  .next (runPacket s c 0xC02 (fun _ => true) checkBindPasid actBindPasid)

/-! SLICE_SET_SHARE (R93). -/

/-- Packets a slice holds. -/
def heldCount (s : State) (i : Nat) : Nat := (getRings s i).held.length

/-- The use of a slice at its share-record offsets (SLICE_SET_SHARE, SLICE_QUERY), from a first byte. -/
def useFields (s : State) (i b : Nat) : List Field :=
  [fAt b 0 32 (granulesUsed s i), fAt (b + 4) 0 16 (handlesUsed s i), fAt (b + 6) 0 16 (sourcesUsed s i), fAt (b + 8) 0 16 (heldCount s i),
   fAt (b + 10) 0 8 (slotsOwned s i), fAt (b + 12) 0 16 (ctxsUsed s i)]

/-- Step 8 checks of SLICE_SET_SHARE, which may name slice 0 and then ignores the ceilings and CMD_RATE. -/
def checkSetShare (s : State) (h : Held) (_ : Cmd) : Option Fail :=
  let p := h.pkt
  let i := pktSlice p
  let x := shareOf (pf p 24 0 256)
  firstFail [
    (!reservedZero p ((16, 0, 7) :: shareResv) || decide (64 < i) || (if i = 0 then shareCoreBad x else shareBad x), failWith .badParam),
    (stateIn s i [.free, .draining], failWith .notReady),
    (!sharesFit s i x, failWith .budgetExceeded)]

/-- SLICE_SET_SHARE's commit point: the change waits for its boundary; an armed one is checked again against what has changed. -/
def actSetShare (s : State) (h : Held) (c : Cmd) : State :=
  match checkSetShare s h c with
  | some f => finishNow s h f.1 f.2
  | none =>
    holdOn (modSlice s (pktSlice h.pkt) fun x => { x with pendShares := x.pendShares ++ [(shareOf (pf h.pkt 24 0 256), heldKey h, actBoundary s h)] }) h

/-- SLICE_SET_SHARE (0xC03). -/
def execSliceSetShare (c : Cmd) (s : State) : Host.Outcome State Fault Refusal :=
  .next (runPacket s c 0xC03 (fun _ => true) checkSetShare actSetShare)

/-- The shares that a record gives a slice: slice 0 keeps its ceilings and CMD_RATE. -/
def sharePut (i : Nat) (old x : Share) : Share :=
  if i = 0 then { x with capacity := old.capacity, handles := old.handles, sources := old.sources, layers := old.layers, cmdRate := old.cmdRate } else x

/-- The share changes of the current boundary take effect, and reply (R93). -/
def applyShares (s : State) : State :=
  forEach (List.range 65) (fun i s =>
    let due (e : Share × CmdKey × Nat) : Bool := frameDue s e.2.2
    let l := (getSlice s i).pendShares.filter due
    let s := modSlice s i fun x => { x with pendShares := x.pendShares.filter fun e => !due e }
    forEach l (fun e s =>
      let s := modSlice s i fun x => { x with share := sharePut i x.share e.1 }
      finishKey s e.2.1 .ok (boundaryBits e.2.2) (useFields s i 16)) s) s

/-! SLICE_QUIESCE and SLICE_FREEZE (R94, R98, R103). -/

/-- Outstanding engine jobs of a slice that R94 counts, and with a freeze the pictures in progress (R98). -/
def engineJobs (s : State) (i : Nat) (freeze : Bool) : Nat :=
  let mine (w : LaneWork) : Bool := w.slice == i && (w.kind == .batch || w.kind == .surfaceWrite)
  let lanes := (s.sluice.lanes.filter fun e => match e.2.job with | some w => mine w | none => false).length + (s.sluice.queue.filter mine).length
  let pics := (ctxsWhere s fun x => x.used && x.slice == i && x.pic.isSome).length + (sessionsWhere s fun x => x.used && x.owner == i && x.coding.isSome).length
  lanes + if freeze then pics else 0

/-- Detail of a final reply of SLICE_QUIESCE or SLICE_FREEZE. -/
def waitDetail (s : State) (i : Nat) (freeze : Bool) : List Field := [fAt 16 0 16 (heldCount s i), fAt 18 0 32 (engineJobs s i freeze)]

/-- Step 8 checks of SLICE_QUIESCE. -/
def checkQuiesce (s : State) (h : Held) (_ : Cmd) : Option Fail :=
  sliceCheck h [(17, 0, 8)] (pf h.pkt 17 0 8 == 0) [(!stateIn s (pktSlice h.pkt) [.active, .quiescing], failWith .notReady)]

/-- Step 8 checks of SLICE_FREEZE. -/
def checkFreeze (s : State) (h : Held) (_ : Cmd) : Option Fail :=
  sliceCheck h [(17, 0, 8)] (pf h.pkt 17 0 8 == 0) [(!stateIn s (pktSlice h.pkt) [.active, .quiescing, .quiesced, .freezing], failWith .notReady)]

/-- What is left of a commit record whose armed COMMIT is cancelled: nothing, or an empty record while it still has commands to end that it superseded (R94, R178). -/
def cancelRecord (k : CmdKey) (r : CommitRecord) : Option CommitRecord :=
  if r.key ≠ k ∨ r.applied then some r else if r.superseded.isEmpty then none else some { r with layers := [] }

/-- R94: armed commands of a slice are cancelled, a COMMIT with its record. -/
def cancelArmed (s : State) (i : Nat) : State :=
  forEach ((getRings s i).held.filter fun h => h.phase == .armed) (fun h s =>
    finishNow { s with comp := { s.comp with records := s.comp.records.filterMap (cancelRecord (heldKey h)) } } h .notReady [fAt 16 0 8 1]) s

/-- The wait that a command starts, with ST_DEFERRED. -/
def beginWait (s : State) (h : Held) (freeze : Bool) : State :=
  defer (modSlice s (pktSlice h.pkt) fun x => { x with
    waits := x.waits ++ [{ key := heldKey h, freeze, startFrame := (now s).frame, timeout := pf h.pkt 17 0 8 }] }) h []

/-- SLICE_QUIESCE's commit point. -/
def actQuiesce (s : State) (h : Held) (_ : Cmd) : State :=
  let i := pktSlice h.pkt
  beginWait (setSliceState (cancelArmed s i) i .quiescing 0) h false

/-- SLICE_QUIESCE (0xC04). -/
def execSliceQuiesce (c : Cmd) (s : State) : Host.Outcome State Fault Refusal :=
  .next (runPacket s c 0xC04 (fun _ => true) checkQuiesce actQuiesce)

/-- R98: contexts take no more coded data, what waits is dropped, and sessions end after their picture (R268). -/
def stopIntake (s : State) (i : Nat) : State :=
  let s := forEach (ctxsWhere s fun x => x.used && !x.detached && x.slice == i) (fun k s =>
    modCtx s k fun x => { x with queue := (started x).map fun a => { a with complete := true, lost := a.lost || !a.complete } }) s
  forEach (sessionsWhere s fun x => x.used && x.owner == i) (fun n s =>
    modSession (failRequests s n) n fun x => { x with stopped := true, waiting := none }) s

/-- SLICE_FREEZE's commit point. -/
def actFreeze (s : State) (h : Held) (_ : Cmd) : State :=
  let i := pktSlice h.pkt
  beginWait (setSliceState (stopIntake (cancelArmed s i) i) i .freezing 0) h true

/-- SLICE_FREEZE (0xC07). -/
def execSliceFreeze (c : Cmd) (s : State) : Host.Outcome State Fault Refusal :=
  .next (runPacket s c 0xC07 (fun _ => true) checkFreeze actFreeze)

/-- Every wait of a slice ends with a status. -/
def endWaits (s : State) (i : Nat) (st : Status) : State :=
  let l := (getSlice s i).waits
  let det (w : SliceWait) : List Field := waitDetail s i w.freeze
  forEach l (fun w s => finishKey s w.key st (nowBits s) (det w)) (modSlice s i fun x => { x with waits := [] })

/-- SLICE_QUIESCED: no packet held and no other engine job outstanding (R86, R94). -/
def execSliceQuiesced (slice : Nat) (s : State) : Host.Outcome State Fault Refusal :=
  .next (if (getSlice s slice).state = .quiescing ∧ heldCount s slice = 0 ∧ engineJobs s slice false = 0 then
    endWaits (setSliceState s slice .quiesced 1) slice .ok
  else s)

/-- SLICE_FROZEN: as SLICE_QUIESCED, with the pictures in progress done; an import's frame in progress runs on to its boundary (R86, R98). -/
def execSliceFrozen (slice : Nat) (s : State) : Host.Outcome State Fault Refusal :=
  .next (if (getSlice s slice).state = .freezing ∧ heldCount s slice = 0 ∧ engineJobs s slice true = 0 then
    endWaits (setSliceState s slice .frozen 1) slice .ok
  else s)

/-- SLICE_WAIT_TIMEOUT: TIMEOUT wall frames have passed since the command's commit point (R103): frame numbers, so that the one under way counts (log entry 107). -/
def execSliceWaitTimeout (c : Cmd) (s : State) : Host.Outcome State Fault Refusal :=
  .next (
    let k : CmdKey := ⟨c.slice, c.ring, c.index⟩
    match (List.range 65).findSome? fun i => ((getSlice s i).waits.find? fun w => w.key == k).map fun w => (i, w) with
    | none => s
    | some (i, w) =>
      if frameDiff (now s).frame w.startFrame < w.timeout then s
      else
        let s := modSlice s i fun x => { x with waits := x.waits.filter (· != w) }
        finishKey s k .timeout (nowBits s) (waitDetail s i w.freeze))

/-! SLICE_RESET and SLICE_DESTROY (R95, R96, R103, R104). -/

/-- An encode session closes as DISCARD 1 does; a picture in a core is an orphan (R96, R268). -/
def closeSession (slice : Nat) (n : Nat) (s : State) : State :=
  let x := getSession s n
  let s := match x.coding with
    | some p => match p.core with
      | some core =>
        let l := (x.ring :: (x.captures ++ x.recon)).map handleIndex
        let s := forEach l (fun i s => modSurf s i fun y => { y with orphans := y.orphans + 1 }) s
        let s := { s with media := { s.media with encOrphans := s.media.encOrphans ++ [{ slice, core, surfs := l, at_ := uptimeMs s }] } }
        modSlice s slice fun y => { y with orphans := y.orphans + 1 }
      | none => s
    | none => s
  let s := match x.consumer with
    | some k => endStream s k
    | none => s
  let s := dropSession s n
  match x.closing with
  | some k => finishKey s k .ok (nowBits s) (closeDetail x)
  | none => s

/-- R95 step 3: entries, contexts, sessions, exports, imports, streams, contacts, keys and haptics of a slice. -/
def endOwned (s : State) (i : Nat) : State :=
  let s := forEach (ctxsWhere s fun x => x.used && x.slice == i) (fun k s => endContext s k true) s
  let s := forEach (s.ledger.entries.filterMap fun e => if e.2.valid ∧ e.2.owner = i ∧ !e.2.inp.withdrawn then some e.1 else none)
    (fun k s => endSource s k true) s
  let s := forEach (sessionsWhere s fun x => x.used && x.owner == i) (closeSession i) s
  let s := modAudio s fun a => { a with
    streams := tmap {} (fun _ x => if x.used && x.owner == i then closeStream x else x) a.streams
    tones := tmap {} (fun _ t => if t.on && t.owner == i then { owner := t.owner, quiet := t.quiet } else t) a.tones }
  let s := { s with
    io := { s.io with
      touch := tmap {} (fun _ p => { p with contacts := p.contacts.map fun c => if c.owner = i then { c with dead := true } else c }) s.io.touch
      keys := { s.io.keys with objects := tmap {} (fun _ o => if o.owner = i then { o with owner := 0, pressed := false, run := 0, negRun := 0 } else o) s.io.keys.objects } }
    media := { s.media with queues := tmap {} (fun _ q => if q.owner = i then { q with enable := false } else q) s.media.queues } }
  let s := forEach ((List.range 8).filter fun c => (getHap s c).owner == i) (fun c s =>
    let x := getHap s c
    let s := if x.lib = 0 then s else dropUser s x.lib
    let s := if x.play.isSome || x.brake != 0 then emit s (.haptic c 0) else s
    modHap s c fun x => { x with owner := 0, play := none, next := [], brake := 0, lib := 0, trigEnable := false }) s
  forEach (s.scan.rects.filterMap fun e => if e.2.used ∧ e.2.owner = i then some e.1 else none) (fun r s => removeRect s r) s

/-- The SURFACE_WRITEs of a slice whose tile rows stand with the lanes become orphans (R96). -/
def orphanWrites (s : State) (i : Nat) : State :=
  let mine (j : WriteJob) : Bool := j.slice == i && !j.orphan
  let n := (s.sluice.writes.filter mine).length
  let s := { s with sluice := { s.sluice with writes := s.sluice.writes.map fun j => if mine j then { j with orphan := true, at_ := uptimeMs s } else j } }
  modSlice s i fun x => { x with orphans := x.orphans + n }

/-- R95 step 4: every surface of a slice is released; those latched or used by an orphan are freed later. -/
def releaseOwned (s : State) (i : Nat) : State :=
  let s := { s with store := { s.store with surfs := tmap {} (fun _ x => if x.used && x.owner == i && x.releasePending then { x with relKey := none } else x) s.store.surfs } }
  forEach (s.store.surfs.filterMap fun e => if e.2.used ∧ e.2.owner = i ∧ !e.2.releasePending then some e.1 else none) (fun k s =>
    let s := orphanRows s k
    let s := modSurf s k fun x => { x with users := 0, failKey := none }
    let s := beginRelease s k none
    if releaseReady s k then freeStorage s k else s) s

/-- R95 step 5: the slice's layers leave composition at the first boundary, WITHDRAWN until then; slots whose layer never took effect are freed now. -/
def dropLayers (s : State) (i : Nat) : State :=
  let f := boundaryAfter (now s)
  let out_ (x : LayerImage) : LayerImage := if x.desc.isSome && x.owner == i then { x with gone := true } else x
  let s := { s with
    comp := { s.comp with
      records := s.comp.records.filter fun r => r.slice != i
      slots := tmap {} (fun _ x => { x with active := out_ x.active, shown := out_ x.shown }) s.comp.slots }
    migr := { s.migr with held := s.migr.held.filter fun l => l.slice != i } }
  forEach (s.comp.slots.filterMap fun e => if e.2.owner = some i then some e.1 else none) (fun k s =>
    if (getSlot s k).active.desc.isNone then modSlot s k freeSlot
    else
      let s := modSlot s k fun x => { x with pending := none, pendPal := [], cleared := false, mgrClear := none }
      { s with comp := { s.comp with removals := s.comp.removals ++ [(k, f)] } }) s

/-- The layer removals of the current boundary (R95, R181); what the slice has set in the slot since stays pending. -/
def applyRemovals (s : State) : State :=
  let due (e : Nat × Nat) : Bool := frameDue s e.2
  let l := s.comp.removals.filter due
  forEach l (fun e s => refreshCause (modSlot s e.1 fun x => if x.pending.isSome then { x with active := {}, shed := false, took := false } else freeSlot x) (e.1 / 8) 2)
    { s with comp := { s.comp with removals := s.comp.removals.filter fun e => !due e } }

/-- What the slice's commands left waiting elsewhere is dropped with its held packets. -/
def dropPending (s : State) (i : Nat) : State :=
  { s with
    store := { s.store with fences := s.store.fences.filter fun f => f.key.slice != i }
    ledger := { s.ledger with sets := s.ledger.sets.filter fun l => l.key.1 != i }
    scan := { s.scan with rectOps := s.scan.rectOps.filter fun p => p.key.slice != i } }

/-- A slice's rings as a reset leaves them, disabled and empty; what they have given stays counted. -/
def emptyRings (r : SliceRings) : SliceRings := { sq := tmap {} (fun _ q => { count := q.count }) r.sq }

/-- R95: everything a slice owns is withdrawn, closed or released, in order. -/
def resetSlice (s : State) (i : Nat) : State :=
  let s := endWaits s i .notReady
  let s := modSlice s i fun x => { x with retired := 0, aborted := 0 }
  let s := dropPending (modRings s i emptyRings) i
  dropLayers (releaseOwned (orphanWrites (endOwned s i) i) i) i

/-- Step 8 checks of SLICE_RESET and SLICE_DESTROY, with the states each accepts without FORCE. -/
def checkSliceEnd (ok : List SliceState) (s : State) (h : Held) (_ : Cmd) : Option Fail :=
  let i := pktSlice h.pkt
  let live : List SliceState := [.active, .quiescing, .freezing]
  sliceCheck h [(17, 0, 1)] false [(stateIn s i live && !pb h.pkt 17 0, failWith .notQuiesced), (!stateIn s i (live ++ ok), failWith .notReady)]

/-- Detail of SLICE_RESET and SLICE_DESTROY. -/
def endDetail (s : State) (i : Nat) : List Field :=
  [fAt 16 0 32 (getSlice s i).orphans, fAt 20 0 16 (s.store.surfs.filter fun e => e.2.used && e.2.owner == i && e.2.releasePending).length]

/-- SLICE_RESET's commit point: the slice is ACTIVE and empty. -/
def actSliceReset (s : State) (h : Held) (_ : Cmd) : State :=
  let i := pktSlice h.pkt
  let s := setSliceState (resetSlice s i) i .active 0
  finishNow s h .ok (endDetail s i)

/-- SLICE_RESET (0xC05). -/
def execSliceReset (c : Cmd) (s : State) : Host.Outcome State Fault Refusal :=
  .next (runPacket s c 0xC05 (fun _ => true) (checkSliceEnd [.quiesced, .frozen]) actSliceReset)

/-- R93: a SLICE_DESTROY cancels the slice's share changes, armed ones included. -/
def cancelShares (s : State) (i : Nat) : State :=
  let l := (getSlice s i).pendShares
  let s := modSlice s i fun x => { x with pendShares := [] }
  let s := forEach l (fun e s => finishKey s e.2.1 .notReady (nowBits s) [fAt 16 0 8 2]) s
  forEach ((getRings s 0).held.filter fun h => h.phase == .armed && pktOpcode h.pkt == 0xC03 && pktSlice h.pkt == i)
    (fun h s => finishNow s h .notReady [fAt 16 0 8 2]) s

/-- SLICE_DESTROY's commit point: the slice is DRAINING, or FREE without orphans (R104). -/
def actSliceDestroy (s : State) (h : Held) (_ : Cmd) : State :=
  let i := pktSlice h.pkt
  let s := cancelShares (resetSlice s i) i
  let det := endDetail s i
  let s := modSlice s i fun x => { x with share := {} }
  let s := setSliceState s i (if (getSlice s i).orphans = 0 then .free else .draining) 0
  finishNow s h .ok det

/-- SLICE_DESTROY (0xC06). -/
def execSliceDestroy (c : Cmd) (s : State) : Host.Outcome State Fault Refusal :=
  .next (runPacket s c 0xC06 (fun _ => true) (checkSliceEnd [.created, .quiesced, .frozen]) actSliceDestroy)

/-! Orphans (R96). -/

/-- The rows of a SURFACE_WRITE that its slice's reset left are gone, and it counts as retired (R96). -/
def dropWriteOrphan (s : State) (j : WriteJob) (aborted : Bool) : State :=
  orphanDone { s with sluice := { s.sluice with
    writes := s.sluice.writes.filter (· != j)
    queue := s.sluice.queue.filter fun w => w.surf != some j.surf
    lanes := tmap {} (fun _ x => { x with job := x.job.filter fun w => w.surf != some j.surf }) s.sluice.lanes } } j.slice aborted

/-- One orphan of a slice leaves, of those whose reset came at a time that meets a test: a decode picture, otherwise an encode picture or a SURFACE_WRITE. -/
def dropOne (due : Nat → Bool) (s : State) (i : Nat) (aborted : Bool) : State :=
  let mine (x : DecCtx) : Bool := x.slice == i && match x.pic with | some p => p.counted && due p.orphanAt | none => false
  match (ctxsWhere s mine).head?, s.media.encOrphans.find? fun e => e.slice == i && due e.at_,
      s.sluice.writes.find? fun j => j.slice == i && j.orphan && due j.at_ with
  | some k, _, _ => match (getCtx s k).pic with
    | some p => dropOrphan s k p aborted
    | none => s
  | none, some e, _ => dropEncOrphan s e aborted
  | none, none, some j => dropWriteOrphan s j aborted
  | none, none, none => s

/-- ORPHAN_RETIRED: an orphan job of a slice finishes (R96). -/
def execOrphanRetired (slice : Nat) (s : State) : Host.Outcome State Fault Refusal :=
  .next (if (getSlice s slice).orphans = 0 then s else dropOne (fun _ => true) s slice false)

/-- ORPHAN_ABORT_LIMIT: the orphans that still run 100 ms after their reset are aborted (R96). -/
def execOrphanAbortLimit (slice : Nat) (s : State) : Host.Outcome State Fault Refusal :=
  .next (forEach (List.range (getSlice s slice).orphans) (fun _ t => dropOne (fun at_ => decide (at_ + 100 ≤ uptimeMs s)) t slice true) s)

/-! SLICE_THAW (R101). -/

/-- A submission, reply or event ring, or the writeback block, of a slice is enabled in host memory. -/
def hostRings (s : State) (i : Nat) : Bool :=
  let r := getRings s i
  (r.sq.any fun e => e.2.enable && !e.2.space) || (r.rq.enable && !r.rq.space) || (r.eq.enable && !r.eq.space)

/-- Step 8 checks of SLICE_THAW. -/
def checkThaw (s : State) (h : Held) (_ : Cmd) : Option Fail :=
  let i := pktSlice h.pkt
  sliceCheck h [] false [(!stateIn s i [.quiesced, .frozen] || ((getSlice s i).pasid.getD 0 == 0 && hostRings s i), failWith .notReady)]

/-- SLICE_THAW's commit point: packets are taken again; from FROZEN, intake restarts, and restored layers enter at the boundary. -/
def actThaw (s : State) (h : Held) (_ : Cmd) : State :=
  let i := pktSlice h.pkt
  let s := if (getSlice s i).state = .frozen then
      let s := forEach (ctxsWhere s fun x => x.used && !x.detached && x.slice == i) (fun k s =>
        modCtx s k fun x => { x with wait := true, gdrTo := none }) s
      forEach (sessionsWhere s fun x => x.used && x.owner == i) (fun n s => modSession s n fun x => { x with stopped := false, keyNext := true }) s
    else s
  let f := boundaryAfter (now s)
  let waits := s.migr.held.any fun l => l.slice == i
  let s := { s with migr := { s.migr with held := s.migr.held.map fun l => if l.slice = i then { l with frame := some f } else l } }
  finish (setSliceState s i .active 0) h .ok (if waits then boundaryBits f else nowBits s) 0

/-- SLICE_THAW (0xC0A). -/
def execSliceThaw (c : Cmd) (s : State) : Host.Outcome State Fault Refusal :=
  .next (runPacket s c 0xC0A (fun _ => true) checkThaw actThaw)

/-! SLICE_QUERY. -/

/-- Step 8 checks of SLICE_QUERY. -/
def checkQuery (_ : State) (h : Held) (_ : Cmd) : Option Fail :=
  if !reservedZero h.pkt [(16, 0, 7), (24, 0, 64)] || decide (64 < pktSlice h.pkt) || pf h.pkt 24 0 64 % 64 != 0 then some (failWith .badParam) else none

/-- The 64-byte record of SLICE_QUERY. -/
def queryRecord (s : State) (i : Nat) : List Byte :=
  bytesLE 64 (shareBits (getSlice s i).share ||| packFields (useFields s i 32 ++ [fAt 56 0 32 (getSlice s i).orphanAborts]))

/-- SLICE_QUERY's effect. -/
def actQuery (s : State) (h : Held) (c : Cmd) : State :=
  let i := pktSlice h.pkt
  let x := getSlice s i
  let det := [fAt 16 0 8 (sliceStateCode x.state), fAt 17 0 8 (clsCode x.cls), fAt 18 0 16 x.orphans,
    fAt 20 0 32 (if x.state = .draining then 0 else x.pasid.getD 0), fAt 24 0 16 (heldCount s i), fAt 26 0 16 (armedCount s i), fAt 28 0 32 x.saveSerial]
  let dest := pf h.pkt 24 0 64
  if dest = 0 then finishNow s h .ok det
  else match destWrite s h.slice engLock (destSpace s) c.ok dest (queryRecord s i) with
    | (s, true) => finishNow s h .ok det
    | (s, false) => finishNow s h .weirDenied []

/-- SLICE_QUERY (0xC0B). -/
def execSliceQuery (c : Cmd) (s : State) : Host.Outcome State Fault Refusal :=
  .next (runPacket s c 0xC0B (fun _ => true) checkQuery actQuery)

end Sys2Proof.Machine
end

