-- ==== Sys2Proof/Machine/Image.lean ====
section
/-! DEFINITION. The migration image: its header, its sections, and what it carries of a slice (R99).  The spec gives the layout of the header, of shares, descriptors and ledger records; every other record is a run of 64-bit words of the model's own (log entry 84). -/
namespace Sys2Proof.Machine
open Sys2Proof

/-! Reading words. -/

/-- A reader of 64-bit words: it fails at the end of a section. -/
abbrev Rd := StateT (List Nat) Option

/-- The next word. -/
def rdNat : Rd Nat := fun l => match l with
  | [] => none
  | a :: r => some (a, r)

/-- The next word as a flag. -/
def rdBool : Rd Bool := do return (← rdNat) == 1

/-- n records. -/
def rdMany {α : Type} (p : Rd α) : Nat → Rd (List α)
  | 0 => return []
  | n + 1 => do
    let a ← p
    return a :: (← rdMany p n)

/-- A list with its length before it. -/
def rdList {α : Type} (p : Rd α) : Rd (List α) := fun l => match l with
  | [] => none
  | n :: r => if r.length < n then none else rdMany p n r

/-- Something that may be absent. -/
def rdOpt {α : Type} (p : Rd α) : Rd (Option α) := do
  let l ← rdList p
  return l.head?

/-- A list with its length before it. -/
def wList {α : Type} (f : α → List Nat) (l : List α) : List Nat := l.length :: l.flatMap f

/-- Something that may be absent. -/
def wOpt {α : Type} (f : α → List Nat) (x : Option α) : List Nat := wList f x.toList

/-- Words as bytes. -/
def wordBytes (l : List Nat) : List Byte := l.flatMap (bytesLE 8)

/-- Bytes as words; n bounds how many. -/
def wordsOf : Nat → List Byte → List Nat
  | 0, _ => []
  | n + 1, l => if l.isEmpty then [] else leAt l 0 8 :: wordsOf n (l.drop 8)

/-- A whole section read as one record. -/
def readAll {α : Type} (p : Rd α) (l : List Byte) : Option α := match p (wordsOf l.length l) with
  | some (a, []) => some a
  | _ => none

/-! Rings (R59, R76, R78). -/

/-- A stored status, by its place in R82's list. -/
def statusOfCode (c : Nat) : Option Status :=
  [Status.ok, .deferred, .duplicate, .badOpcode, .badParam, .notPermitted, .noResource, .backpressure, .notQuiesced, .linebufShort,
   .budgetExceeded, .handleStale, .weirDenied, .checkFailed, .timeout, .notReady, .engineFault, .deviceFault].find? fun s => statusCode s == c

/-- A cached reply: its 32-byte entry. -/
def wReply (r : Reply) : List Nat := let b := replyBits r; (List.range 4).map fun i => bitsAt b (64 * i) 64
/-- A cached reply. -/
def rdReply : Rd Reply := do
  let a ← rdNat
  let w ← rdNat
  let d0 ← rdNat
  let d1 ← rdNat
  match statusOfCode (bitsAt a 32 16) with
  | none => failure
  | some status =>
    return { tag := bitsAt a 0 32, status, opcode := bitsAt a 48 12, orig := bitsAt a 60 2, ring := bitsAt a 62 2, wpDone := w
             detail := d0 * 2 ^ 128 + d1 * 2 ^ 192 }

/-- A tag window's record. -/
def wTag (t : TagRec) : List Nat := [t.tag, t.opcode, t.crc, t.final.toNat] ++ wOpt wReply t.reply
/-- A tag window's record. -/
def rdTag : Rd TagRec := do
  return { tag := ← rdNat, opcode := ← rdNat, crc := ← rdNat, final := ← rdBool, reply := ← rdOpt rdReply }

/-- A submission ring. -/
def wSub (e : Nat × SubRing) : List Nat :=
  let q := e.2
  [e.1, q.base, q.enable.toNat, q.space.toNat, q.sizeLog2, q.error.toNat, q.head.toNat, q.tail.toNat] ++ wList wTag q.tags
/-- A submission ring. -/
def rdSub : Rd (Nat × SubRing) := do
  return (← rdNat, { base := ← rdNat, enable := ← rdBool, space := ← rdBool, sizeLog2 := ← rdNat, error := ← rdBool
                     head := BitVec.ofNat 32 (← rdNat), tail := BitVec.ofNat 32 (← rdNat), tags := ← rdList rdTag })

/-- A reply or event ring. -/
def wRep (q : RepRing) : List Nat :=
  [q.base, q.enable.toNat, q.space.toNat, q.sizeLog2, q.error.toNat, q.vector, q.holdoff, q.head.toNat, q.tail.toNat]
/-- A reply or event ring. -/
def rdRep : Rd RepRing := do
  return { base := ← rdNat, enable := ← rdBool, space := ← rdBool, sizeLog2 := ← rdNat, error := ← rdBool, vector := ← rdNat
           holdoff := ← rdNat, head := BitVec.ofNat 32 (← rdNat), tail := BitVec.ofNat 32 (← rdNat) }

/-- A slice's rings. -/
def wRings (r : SliceRings) : List Nat :=
  wList wSub r.sq ++ wRep r.rq ++ wRep r.eq ++ [r.wbEnable.toNat, r.wbSpace.toNat, r.wbAddr, r.wbError.toNat]
/-- A slice's rings. -/
def rdRings : Rd SliceRings := do
  let l ← rdList rdSub
  return { sq := l.foldl (fun t e => if e.1 < 4 then tset {} t e.1 e.2 else t) [], rq := ← rdRep, eq := ← rdRep
           wbEnable := ← rdBool, wbSpace := ← rdBool, wbAddr := ← rdNat, wbError := ← rdBool }

/-! Layers (R161). -/

/-- A layer of an image: in force or pending, with its palette and its output's commit group. -/
structure ImgLayer where
  pending : Bool := false
  group : Nat := 0
  w : Nat := 0
  h : Nat := 0
  desc : Desc := {}
  pal : Tab Nat := []
  deriving DecidableEq, Repr

/-- A pair of words. -/
def wPair (e : Nat × Nat) : List Nat := [e.1, e.2]
/-- A pair of words. -/
def rdPair : Rd (Nat × Nat) := do return (← rdNat, ← rdNat)

/-- A layer. -/
def wLayer (x : ImgLayer) : List Nat :=
  ((List.range 4).map fun i => bitsAt (descBits x.desc) (64 * i) 64) ++ [x.pending.toNat, x.group, x.w, x.h] ++ wList wPair x.pal
/-- A layer: bytes 16 to 47 of a LAYER_SET and what follows them. -/
def rdLayer : Rd ImgLayer := do
  let d ← rdMany rdNat 4
  return { desc := descOf (BitVec.ofNat 512 (natLE (wordBytes (0 :: 0 :: d)))), pending := ← rdBool, group := ← rdNat, w := ← rdNat
           h := ← rdNat, pal := (← rdList rdPair).foldl (fun t e => tset 0 t e.1 e.2) [] }

/-! Ledger entries (R12, R34). -/

/-- The entry of a LEDGER_READ record as R34 brings it back: arrived cleared, PROVEN_CHANGES 0, AGE_BASE_WP kept, UNPROVEN or NOT_TRACKED. -/
def restoredEntry (owner x : Nat) : LedgerEntry :=
  let static := bitAt x 26
  { owner, kind := kindOfCode (bitsAt x 19 2), state := if static then .notTracked else .unproven, valid := true, static
    changeBound := bitAt x 27, treatment := treatmentOfCode (bitsAt x 28 2), glyph := bitsAt x 30 2, period := bitsAt x 32 24
    deadline := bitsAt x 56 24, lastArrival := lineWpOfBits (bitsAt x 80 48), origin := lineWpOfBits (bitsAt x 128 48)
    ageBase := lineWpOfBits (bitsAt x 176 48), originAddr := bitsAt x 224 12, changeCount := bitsAt x 236 16, proven := 0
    touchDrop := bitAt x 254, events := bitAt x 255, holdColour := bitsAt x 256 4, card := bitsAt x 260 6
    degradedTiles := bitsAt x 272 16, lateCount := bitsAt x 288 16, staleCount := bitsAt x 304 16, frozenCount := bitsAt x 320 16
    concealCount := bitsAt x 336 16, since := lineWpOfBits (bitsAt x 352 48), prev := stateOfCode (bitsAt x 400 4)
    unfitReason := bitsAt x 404 4 }

/-! Surfaces, contexts, sessions, rectangles and streams. -/

/-- A surface of an image: its index, its line ledger entry and its block index table (R141). -/
structure ImgSurf where
  index : Nat := 0
  surf : Surface := {}
  table : List Nat := []
  deriving DecidableEq, Repr

/-- Writers by code (R113). -/
def writerOfCode (c : Nat) : Writer :=
  if c = 0 then .host else if c = 1 then .decode else if c = 2 then .dpin else if c = 3 then .fabric else if c = 4 then .batch else .capture

/-- A surface. -/
def wSurf (e : ImgSurf) : List Nat :=
  let x := e.surf
  [e.index, x.gen, x.format, x.width, x.height, x.pitch, x.granules, x.length, x.frontier, x.pass, writerCode x.writer, x.waitable.toNat,
   x.poisoned.toNat, x.needStart.toNat, match x.source with | some i => i + 1 | none => 0, x.trueW, x.trueH, x.began] ++ wList (fun b => [b]) e.table
/-- A surface. -/
def rdSurf (owner : Nat) : Rd ImgSurf := do
  let index ← rdNat
  let x : Surface := {
    used := true, owner, gen := ← rdNat, format := ← rdNat, width := ← rdNat, height := ← rdNat, pitch := ← rdNat, granules := ← rdNat
    length := ← rdNat, frontier := ← rdNat, pass := ← rdNat, writer := writerOfCode (← rdNat), waitable := ← rdBool
    poisoned := ← rdBool, needStart := ← rdBool }
  let src ← rdNat
  let x := { x with source := if src = 0 then none else some (src - 1), trueW := ← rdNat, trueH := ← rdNat, began := ← rdNat }
  return { index, surf := x, table := ← rdList rdNat }

/-- Bytes of a surface that an image carries as its content. -/
def contentLength (x : Surface) : Nat := if x.format = 0 then x.length else surfaceBytes x.format x.width x.height x.pitch

/-- Words of a compressed surface's block index table. -/
def indexTable (s : State) (x : Surface) : List Nat :=
  if formatCompressed x.format then
    let n := x.height / 4 * recordSize x.width
    wordsOf n (readBytes s x.base n)
  else []

/-- A source's parameters of SOURCE_ATTACH, with its context's when it has one. -/
structure ImgSource where
  id : Nat := 0
  rec_ : SourceRec := {}
  ctx : Option DecCtx := none
  deriving DecidableEq, Repr

/-- A source. -/
def wSource (e : ImgSource) : List Nat :=
  [e.id, e.rec_.fmt, e.rec_.maxW, e.rec_.maxH] ++ wOpt (fun x : DecCtx => [x.codec, x.gdr.toNat, x.maxRefs, x.maxRate]) e.ctx
/-- A source; its context holds no reference picture and waits for a random-access point. -/
def rdSource (owner : Nat) : Rd ImgSource := do
  return { id := ← rdNat, rec_ := { fmt := ← rdNat, maxW := ← rdNat, maxH := ← rdNat }
           ctx := ← rdOpt (do return { used := true, slice := owner, codec := ← rdNat, gdr := ← rdBool, maxRefs := ← rdNat, maxRate := ← rdNat }) }

/-- An encode session's parameters, with its picture number and PRODUCED. -/
def wSession (e : Nat × Session) : List Nat :=
  let x := e.2
  [e.1, x.input, x.h264.toNat, x.main10.toNat, x.sourceValid.toNat, x.csc, x.full.toNat, x.rowsPerSlice, x.decimate, x.source, x.cropX, x.cropY,
   x.width, x.height, x.initQp, x.irWidth, x.handle, x.keyInterval, x.rate.cqp.toNat, x.rate.bitrate, x.rate.qpMin, x.rate.qpMax,
   x.rate.overshoot, x.rate.keyMult, x.level, x.ring, x.ringSize, x.number, x.produced] ++ wList (fun b => [b]) x.recon
/-- An encode session, stopped until SLICE_THAW (R101). -/
def rdSession (owner : Nat) : Rd (Nat × Session) := do
  let n ← rdNat
  let x : Session := {
    used := true, owner, stopped := true, input := ← rdNat, h264 := ← rdBool, main10 := ← rdBool, sourceValid := ← rdBool, csc := ← rdNat
    full := ← rdBool, rowsPerSlice := ← rdNat, decimate := ← rdNat, source := ← rdNat, cropX := ← rdNat, cropY := ← rdNat, width := ← rdNat
    height := ← rdNat, initQp := ← rdNat, irWidth := ← rdNat, handle := ← rdNat, keyInterval := ← rdNat }
  let r : RateCfg := { cqp := ← rdBool, bitrate := ← rdNat, qpMin := ← rdNat, qpMax := ← rdNat, overshoot := ← rdNat, keyMult := ← rdNat }
  let x := { x with rate := r, qpRef := x.initQp, level := ← rdNat, ring := ← rdNat, ringSize := ← rdNat, number := ← rdNat, produced := ← rdNat }
  return (n, { x with recon := ← rdList rdNat })

/-- A rectangle. -/
def wRect (e : Nat × RectCfg) : List Nat :=
  let c := e.2
  [e.1, c.mode, c.action, c.sourceValid.toNat, c.bValid.toNat, c.source, c.freezeN, c.checkA, c.checkB, c.x, c.y, c.w, c.h, c.expA, c.expB]
/-- A rectangle. -/
def rdRect : Rd (Nat × RectCfg) := do
  return (← rdNat, { mode := ← rdNat, action := ← rdNat, sourceValid := ← rdBool, bValid := ← rdBool, source := ← rdNat, freezeN := ← rdNat
                     checkA := ← rdNat, checkB := ← rdNat, x := ← rdNat, y := ← rdNat, w := ← rdNat, h := ← rdNat, expA := ← rdNat, expB := ← rdNat })

/-- An audio stream. -/
def wAud (e : Nat × AudStream) : List Nat :=
  let x := e.2
  [e.1, x.stereo.toNat, x.space.toNat, x.dest, x.gain.dst, x.addr, x.length, x.prefill, x.running.toNat, x.produced, x.consumed, x.underruns] ++
    wOpt (fun w => [wpBits w]) x.start
/-- An audio stream. -/
def rdAud (owner : Nat) : Rd (Nat × AudStream) := do
  let n ← rdNat
  let x : AudStream := { used := true, owner, stereo := ← rdBool, space := ← rdBool, dest := ← rdNat }
  let g ← rdNat
  let x := { x with gain := { src := g, dst := g }, addr := ← rdNat, length := ← rdNat, prefill := ← rdNat, running := ← rdBool
                    produced := ← rdNat, consumed := ← rdNat, underruns := ← rdNat }
  return (n, { x with start := (← rdOpt rdNat).map wpOfBits })

/-! The image. -/

/-- What an image carries of a slice (R99). -/
structure Image where
  share : Share := {}
  rings : SliceRings := {}
  layers : List ImgLayer := []
  entries : List (Nat × LedgerEntry) := []
  surfs : List ImgSurf := []
  content : List (Nat × List Byte) := []
  sources : List ImgSource := []
  sessions : List (Nat × Session) := []
  rects : List (Nat × RectCfg) := []
  auds : List (Nat × AudStream) := []
  deriving DecidableEq, Repr

/-- Live surfaces of a slice, by index. -/
def liveSurfs (s : State) (i : Nat) : List (Nat × Surface) := s.store.surfs.filter fun e => e.2.used && !e.2.releasePending && e.2.owner == i

/-- Ledger entries of a slice that are attached. -/
def liveEntries (s : State) (i : Nat) : List (Nat × LedgerEntry) := s.ledger.entries.filter fun e => e.2.valid && e.2.owner == i && !e.2.inp.withdrawn

/-- The layers of a slice, in force and pending. -/
def layersOf (s : State) (i : Nat) : List ImgLayer :=
  allSlots.flatMap fun k =>
    let x := getSlot s k
    let group := groupOfOutput s (k / 8)
    if x.owner ≠ some i then []
    else (x.active.desc.map fun d => { desc := d, group, w := x.active.w, h := x.active.h, pal := x.active.pal }).toList ++
      (x.pending.map fun d => { desc := d, group, pending := true, pal := x.pendPal }).toList

/-- A section: type and length, then its bytes (R99). -/
def section_ (t : Nat) (l : List Byte) : List Byte := bytesLE 4 t ++ bytesLE 4 l.length ++ l

/-- The decompressed body of a slice's image, with contents when `content` is set (R99). -/
def imageBody (s : State) (i : Nat) (content : Bool) : List Byte :=
  let surfs := liveSurfs s i
  section_ 1 (bytesLE 32 (shareBits (getSlice s i).share)) ++
  section_ 2 (wordBytes (wRings (getRings s i))) ++
  section_ 3 (wordBytes (wList wLayer (layersOf s i))) ++
  section_ 4 ((liveEntries s i).flatMap fun e => bytesLE 64 (entryBits e.1 e.2)) ++
  section_ 5 (wordBytes (wList wSurf (surfs.map fun e => { index := e.1, surf := e.2, table := indexTable s e.2 }))) ++
  (if content then surfs.flatMap fun e => section_ 6 (bytesLE 8 e.1 ++ readBytes s e.2.base (contentLength e.2)) else []) ++
  section_ 7 (wordBytes (wList wSource ((liveEntries s i).filterMap fun e => if e.2.kind = .surface then none else
    some { id := e.1, rec_ := getSource s e.1, ctx := if (getCtx s e.1).used then some (getCtx s e.1) else none }))) ++
  section_ 8 (wordBytes (wList wSession (s.media.sessions.filter fun e => e.2.used && e.2.owner == i && e.2.closing.isNone))) ++
  section_ 9 (wordBytes (wList wRect (s.scan.rects.filterMap fun e => if e.2.used ∧ e.2.owner = i then some (e.1, e.2.cfg) else none))) ++
  section_ 10 (wordBytes (wList wAud (s.io.audio.streams.filter fun e => e.2.used && e.2.owner == i)))

/-- The compressed body out of its blocks, padded to a multiple of 4,096 (R99, R153). -/
def packBody (blocks : List (List Byte)) : List Byte := padTo 4096 blocks.flatten

/-- The fields of an image's header that its commit point gives (R99). -/
def imageHead (s : State) (i : Nat) (content : Bool) : Nat :=
  let f := runningImage s
  packFields [fAt 0 0 32 0x445A5349, fAt 4 0 16 1, fAt 6 0 8 f.major, fAt 7 0 8 f.minor, fAt 8 0 64 Config.deviceId.toNat,
    fAt 16 0 32 s.time.timing.wallId, fAt 20 0 7 i, fAt 21 0 2 (clsCode (getSlice s i).cls), fAt 22 0 1 content.toNat, fAt 24 0 64 (nowBits s)]

/-- The 64-byte header of an image: what its commit point gave, the serial of the save, and the body's length and check (R99). -/
def imageHeader (head serial : Nat) (body : List Byte) : List Byte :=
  bytesLE 64 (head ||| packFields [fAt 32 0 32 serial, fAt 36 0 32 body.length, fAt 40 0 32 (crc32c body)])

/-- One section put into an image; none when it cannot be read. -/
def readSection (owner : Nat) (m : Image) (t : Nat) (l : List Byte) : Option Image :=
  if t = 1 then if l.length = 32 then some { m with share := shareOf (natLE l) } else none
  else if t = 2 then (readAll rdRings l).map fun r => { m with rings := r }
  else if t = 3 then (readAll (rdList rdLayer) l).map fun r => { m with layers := r }
  else if t = 4 then
    if l.length % 64 ≠ 0 then none
    else some { m with entries := (List.range (l.length / 64)).map fun k =>
      let x := natLE ((l.drop (64 * k)).take 64)
      (bitsAt x 0 12, restoredEntry owner x) }
  else if t = 5 then (readAll (rdList (rdSurf owner)) l).map fun r => { m with surfs := r }
  else if t = 6 then if l.length < 8 then none else some { m with content := m.content ++ [(leAt l 0 8, l.drop 8)] }
  else if t = 7 then (readAll (rdList (rdSource owner)) l).map fun r => { m with sources := r }
  else if t = 8 then (readAll (rdList (rdSession owner)) l).map fun r => { m with sessions := r }
  else if t = 9 then (readAll (rdList rdRect) l).map fun r => { m with rects := r }
  else if t = 10 then (readAll (rdList (rdAud owner)) l).map fun r => { m with auds := r }
  else none

/-- The sections of a body in order; n bounds how many. -/
def readSections (owner : Nat) : Nat → Image → List Byte → Option Image
  | 0, m, l => if l.isEmpty then some m else none
  | n + 1, m, l =>
    if l.isEmpty then some m
    else
      let len := leAt l 4 4
      if l.length < 8 + len ∨ leAt l 2 2 ≠ 0 then none
      else match readSection owner m (leAt l 0 2) ((l.drop 8).take len) with
        | none => none
        | some m => readSections owner n m (l.drop (8 + len))

/-- The header fields that SLICE_RESTORE reads. -/
structure ImgHead where
  slice : Nat := 0
  cls : Nat := 0
  content : Bool := false
  serial : Nat := 0
  deriving DecidableEq, Repr

/-- R100: an image header this device accepts: MAGIC, FORMAT and reserved bits, FW_MAJOR, and for an image by reference DEVICE_ID. -/
def readHead (s : State) (l : List Byte) : Option ImgHead :=
  let x := natLE (l.take 64)
  let f (byte bit w : Nat) : Nat := bitsAt x (8 * byte + bit) w
  let content := f 22 0 1 == 1
  if l.length < 64 || f 0 0 32 != 0x445A5349 || f 4 0 16 != 1 || decide ((runningImage s).major < f 6 0 8) ||
      (!content && f 8 0 64 != Config.deviceId.toNat) || f 20 7 1 != 0 || f 21 2 6 != 0 || f 21 0 2 == 3 || f 22 1 15 != 0 || f 44 0 160 != 0 then none
  else some { slice := f 20 0 7, cls := f 21 0 2, content, serial := f 32 0 32 }

/-- R100: the body of an image, whose length and check the header gives, read into sections; why a block was discarded, if one was. -/
def readBody (owner : Nat) (l : List Byte) : Except (Option Discard) Image :=
  let n := leAt l 36 4
  let body := (l.drop 64).take n
  if n % 4096 ≠ 0 ∨ n = 0 ∨ l.length < 64 + n ∨ crc32c body ≠ leAt l 40 4 then .error none
  else match decodeStream body.length 0 body with
    | .error d => .error (some d)
    | .ok b => match readSections owner b.length {} b with
      | none => .error none
      | some m => .ok m

end Sys2Proof.Machine
end

