-- ==== Sys2Proof/Machine/Migrate.lean ====
section
/-! DEFINITION. SLICE_SAVE and SLICE_RESTORE, and the entry of restored layers (R99 to R101). -/
namespace Sys2Proof.Machine
open Sys2Proof

/-! SLICE_SAVE (R99). -/

/-- Step 8 checks of SLICE_SAVE. -/
def checkSliceSave (s : State) (h : Held) (_ : Cmd) : Option Fail :=
  sliceCheck h [(17, 0, 1), (24, 0, 64), (32, 0, 64)] (pf h.pkt 24 0 64 % 4096 != 0) [(!stateIn s (pktSlice h.pkt) [.frozen], failWith .notReady)]

/-- SLICE_SAVE's commit point: the content of the image is taken, and its blocks go to the lanes as batch work (R153, R155). -/
def actSliceSave (s : State) (h : Held) (_ : Cmd) : State :=
  let p := h.pkt
  let i := pktSlice p
  let content := pb p 17 0
  let s := if content then forEach (liveSurfs s i) (fun e s => noteRead s e.2.base (contentLength e.2) 2) s else s
  let body := imageBody s i content
  let n := (body.length + 4095) / 4096
  let chunks := chunksOf 4096 n body
  let s := forEach (List.range n) (fun k s =>
    queueWork s { kind := .batch, row := k, raw := chunks.getD k [], last := k + 1 == n, save := some (heldKey h) }) s
  let j : SaveJob := { key := heldKey h, slice := i, head := imageHead s i content, count := n, maxLength := pf p 32 0 64, dest := pf p 24 0 64 }
  defer { s with migr := { s.migr with saves := s.migr.saves ++ [j] } } h []

/-- SLICE_SAVE (0xC08). -/
def execSliceSave (c : Cmd) (s : State) : Host.Outcome State Fault Refusal :=
  .next (runPacket s c 0xC08 (fun _ => true) checkSliceSave actSliceSave)

/-- The image of a save whose blocks are all coded is written when it fits, which increments SAVE_SERIAL: the header by Lockkeeper, the body by Sluice (R99, R365). -/
def endSave (s : State) (j : SaveJob) (ok : Bool) : State :=
  let s := { s with migr := { s.migr with saves := s.migr.saves.filter fun x => x.key != j.key } }
  let serial := ((getSlice s j.slice).saveSerial + 1) % 2 ^ 32
  let body := packBody ((List.range j.count).map (tget [] j.blocks))
  let n := fAt 16 0 64 (64 + body.length)
  if j.maxLength < 64 + body.length then finishKey s j.key .noResource (nowBits s) [n]
  else
    let s := modSlice s j.slice fun x => { x with saveSerial := serial }
    match destWrite s 0 engLock (destSpace s) ok j.dest (imageHeader j.head serial body) with
    | (s, false) => finishKey (if destSpace s then undefineDest s 0 engSluice (j.dest + 64) body.length else s) j.key .weirDenied (nowBits s) []
    | (s, true) => match destWrite s 0 engSluice (destSpace s) ok (j.dest + 64) body with
      | (s, false) => finishKey s j.key .weirDenied (nowBits s) []
      | (s, true) => finishKey s j.key .ok (nowBits s) [n, fAt 24 0 32 serial]

/-- SLICE_SAVE_COMPLETE: the lanes have coded every block of the image, and it has been written, or did not fit, or a write of it was refused. -/
def execSliceSaveComplete (c : Cmd) (s : State) : Host.Outcome State Fault Refusal :=
  .next (match s.migr.saves.find? fun j => j.key == (⟨c.slice, c.ring, c.index⟩ : CmdKey) with
    | some j => if j.blocks.length = j.count then endSave s j c.ok else s
    | none => s)

/-! SLICE_RESTORE (R100). -/

/-- OUTPUT_MAP of a packet: the target output of a saved output, or none. -/
def outputMap (p : Packet) (o : Nat) : Option Nat := let v := pf p (16 + o) 0 8; if o < 8 ∧ v < 8 then some v else none

/-- Step 8 checks of SLICE_RESTORE. -/
def checkSliceRestore (_ : State) (h : Held) (_ : Cmd) : Option Fail :=
  let bad := (List.range 8).any fun n => decide (7 < pf h.pkt (16 + n) 0 8) && pf h.pkt (16 + n) 0 8 != 0xFF
  if bad || pf h.pkt 24 0 64 % 4096 != 0 || !reservedZero h.pkt [(16, 0, 64), (24, 0, 64), (32, 0, 64)] then some (failWith .badParam) else none

/-- The slice is in the state R100 requires of an image. -/
def restorable (s : State) (m : ImgHead) : Bool := inRange m.slice 1 64 && stateIn s m.slice [if m.content then .free else .frozen]

/-- SLICE_RESTORE's commit point: ST_DEFERRED, and RESTORING for the slice that an accepted header names. -/
def actSliceRestore (s : State) (h : Held) (c : Cmd) : State :=
  let hd := match (srcRead s 0 engLock (destSpace s) c (pf h.pkt 24 0 64) 64).2 with
    | some l => (readHead s l).filter (restorable s)
    | none => none
  let s := match hd with
    | some m => setSliceState s m.slice .restoring 0
    | none => s
  let j : RestoreJob := { key := heldKey h, slice := hd.map ImgHead.slice, byRef := match hd with | some m => !m.content | none => false }
  defer { s with migr := { s.migr with restores := s.migr.restores ++ [j] } } h []

/-- SLICE_RESTORE (0xC09). -/
def execSliceRestore (c : Cmd) (s : State) : Host.Outcome State Fault Refusal :=
  .next (runPacket s c 0xC09 (fun _ => true) checkSliceRestore actSliceRestore)

/-- A restore that cannot be done: a status, and the conflicting source. -/
abbrev Restored := Except (Status × List Field) State

/-- Apply a function that may fail to each element. -/
def eachTry {α : Type} (f : α → State → Restored) : List α → State → Restored
  | [], s => .ok s
  | a :: r, s => match f a s with
    | .ok s => eachTry f r s
    | .error e => .error e

/-- R100: the slice's handles, capacity or numbers are exhausted. -/
def noRoom : Status × List Field := (.noResource, [])

/-- A surface of an image by content is created at its index with its generation, its storage where room is. -/
def restoreSurf (m : Image) (e : ImgSurf) (s : State) : Restored :=
  match firstFit s e.surf.granules with
  | none => .error noRoom
  | some g =>
    if (getSurf s e.index).used || !decide (e.index < 16384) then .error noRoom
    else
      let s := modSurf s e.index fun _ => { e.surf with base := g * 65536, users := if e.surf.source.isSome then 1 else 0 }
      let s := { s with store := { s.store with passSeq := max s.store.passSeq e.surf.began } }
      .ok (match m.content.find? fun c => c.1 == e.index with
        | some c => writeBytes s (g * 65536) (c.2.take (contentLength e.surf))
        | none => s)

/-- A source's entry and parameters, with buffers for those of the image that no longer stand; its context is one that R239 gives. -/
def restoreSource (i : Nat) (m : Image) (e : Nat × LedgerEntry) (s : State) : Restored :=
  let old := getEntry s e.1
  if old.valid && (old.owner != i || old.inp.withdrawn) then .error (.noResource, [fAt 18 0 16 e.1])
  else
    let r := m.sources.find? fun x => x.id == e.1
    let ctx := match r with | some x => x.ctx | none => none
    if ctx.isSome && !(getCtx s e.1).used && !ctxFree s i then .error noRoom
    else
      let rec_ := match r with | some x => x.rec_ | none => {}
      let q : AttachReq := { kind := kindCode e.2.kind, fmt := rec_.fmt, w := rec_.maxW, h := rec_.maxH }
      let (w, ht) := if e.2.kind = .decoded then (q.w, q.h) else roundedSize q
      let n := (m.surfs.filter fun x => x.surf.source == some e.1).length - (buffersOf s e.1).length
      match attachBuffers i q.fmt w ht (sourceWriter q.kind) n s with
      | (_, .error _) => .error noRoom
      | (s, .ok l) =>
        let s := forEach l (fun hd s => modSurf s (handleIndex hd) fun x => { x with source := some e.1, users := 1 }) s
        .ok { s with
          ledger := { s.ledger with entries := tset {} s.ledger.entries e.1 { e.2 with changeBound := !(changeRects s e.1).isEmpty } }
          media := { s.media with sources := tset {} s.media.sources e.1 rec_, ctxs := tset {} s.media.ctxs e.1 (ctx.getD {}) } }

/-- A session under its number when that is free, else another; a ring or picture buffer that no longer stands is allocated again as ENCODE_OPEN does. -/
def restoreSession (i : Nat) (e : Nat × Session) (s : State) : Restored :=
  let up (n : Nat) : Nat := (n + 7) / 8 * 8
  let x := e.2
  let whole := (x.ring :: x.recon).all fun hd => (lookup s hd).isSome
  let bufs := if whole then (s, some (x.ring, x.recon)) else
    match allocMany i 0x21 (up x.width) (up x.height) .capture 2 s with
    | (t, some rl) => match allocBytes t i x.ringSize .capture with
      | (t, some ring) => (t, some (ring, rl))
      | (t, none) => (t, none)
    | (t, none) => (t, none)
  match bufs, (if (getSession s e.1).used then firstIdx (fun k => !(getSession s k).used) 0 16 else some e.1) with
  | (s, some (ring, rl)), some n =>
    let s := forEach (ring :: (rl ++ if x.input = 2 then [x.handle] else [])) (fun hd s => addUser s hd) s
    let x := if whole then x else { x with ring, recon := rl, produced := 0 }
    .ok { s with media := { s.media with sessions := tset {} s.media.sessions n x }
                 power := { s.power with encodeOn := tset false (tset false s.power.encodeOn 0 true) 1 true } }
  | _, _ => .error noRoom

/-- The destinations of an audio stream with its outputs mapped (R411). -/
def mapDest (p : Packet) (d : Nat) : Nat :=
  (List.range 8).foldl (fun m o => if bitAt d o then match outputMap p o with | some t => m ||| 2 ^ t | none => m else m) (d / 256 * 256)

/-- An audio stream under its number when that is free, else another. -/
def restoreAud (p : Packet) (e : Nat × AudStream) (s : State) : Restored :=
  match if (getAud s e.1).used then firstIdx (fun k => !(getAud s k).used) 0 24 else some e.1 with
  | some n => .ok (modAud s n fun _ => { e.2 with dest := mapDest p e.2.dest })
  | none => .error noRoom

/-- A layer of the image on its mapped output: a pending one is pending again, one in force waits for SLICE_THAW; discarded where the slot or the group is another's, or the slot has its layer from the image already. -/
def restoreLayer (i : Nat) (p : Packet) (s : State) (x : ImgLayer) : State :=
  match outputMap p x.desc.output with
  | none => s
  | some o =>
    let d := { x.desc with output := o }
    let k := slotKey o d.slot
    if (match (getSlot s k).owner with | some w => w != i | none => false) || !admits (getGroup s (groupOfOutput s o)) i then s
    else
      let s := modSlot s k fun y => { y with owner := some i }
      if x.pending then modSlot s k fun y => if y.pending.isSome then y else { y with pending := some d, pendPal := x.pal }
      else if s.migr.held.any fun l => slotKey l.desc.output l.desc.slot == k then s
      else { s with migr := { s.migr with held := s.migr.held ++ [{ slice := i, desc := d, pal := x.pal }] } }

/-- A rectangle on its mapped output, where that rectangle is free (R211). -/
def restoreRect (i : Nat) (p : Packet) (s : State) (e : Nat × RectCfg) : State :=
  match outputMap p (e.1 / 16) with
  | none => s
  | some o =>
    let r := 16 * o + e.1 % 16
    if (getRect s r).used then s else setRect s r i e.2

/-- What an image by reference replaces ends first: what the slice owns beyond it, and what its layers, rectangles and streams were. -/
def clearForRef (i : Nat) (m : Image) (s : State) : State :=
  let s := forEach ((liveEntries s i).filter fun e => !m.entries.any fun x => x.1 == e.1) (fun e s => endSource s e.1 false) s
  let s := forEach (sessionsWhere s fun x => x.used && x.owner == i) (fun n s =>
    if m.sessions.any fun e => e.1 == n && e.2.ring == (getSession s n).ring then
      let x := getSession s n
      let s := forEach (x.ring :: (x.recon ++ if x.input = 2 then [x.handle] else [])) (fun hd s => dropUser s hd) s
      let s := failRequests s n
      { s with media := { s.media with sessions := tset {} s.media.sessions n {} } }
    else closeSession i n s) s
  let s := forEach (s.scan.rects.filterMap fun e => if e.2.used ∧ e.2.owner = i then some e.1 else none) (fun r s => removeRect s r) s
  let s := modAudio s fun a => { a with streams := tmap {} (fun _ x => if x.used && x.owner == i then closeStream x else x) a.streams }
  let f := boundaryAfter (now s)
  let s := { s with
    comp := { s.comp with records := s.comp.records.filter fun r => r.slice != i }
    migr := { s.migr with held := s.migr.held.filter fun l => l.slice != i } }
  forEach (allSlots.filter fun k => (getSlot s k).owner == some i) (fun k s =>
    let s := modSlot s k fun x => { x with pending := none, pendPal := [], cleared := false }
    if (getSlot s k).active.desc.isNone then modSlot s k freeSlot
    else { s with comp := { s.comp with removals := s.comp.removals ++ [(k, f)] } }) s

/-- The layers in force that the image holds too stay in composition until SLICE_THAW. -/
def keepHeld (i : Nat) (s : State) : State :=
  let held (k : Nat) : Bool := s.migr.held.any fun l => l.slice == i && slotKey l.desc.output l.desc.slot == k
  { s with comp := { s.comp with removals := s.comp.removals.filter fun e => !(held e.1 && (getSlot s e.1).owner == some i) } }

/-- The rings of an image, numbering on what this device's rings have given. -/
def keepCounts (r new : SliceRings) : SliceRings :=
  { new with sq := (List.range 4).foldl (fun t k => tmod {} t k fun q => { q with count := (tget {} r.sq k).count }) new.sq }

/-- An accepted image is applied to its slice, or refused with everything unchanged (R100). -/
def applyImage (p : Packet) (hd : ImgHead) (m : Image) (s : State) : Restored :=
  let i := hd.slice
  let busy := if hd.content then m.entries.find? fun e => (getEntry s e.1).valid else none
  if hd.content && (shareBad m.share || !sharesFit s i m.share) then .error (.budgetExceeded, [])
  else match busy with
    | some e => .error (.noResource, [fAt 18 0 16 e.1])
    | none =>
      let s := if hd.content then
          modRings (modSlice s i fun x => { x with cls := clsOfCode hd.cls, share := m.share, saveSerial := 0 }) i fun r => keepCounts r m.rings
        else
          modRings (clearForRef i m s) i fun r => { keepCounts r m.rings with held := r.held, waiting := r.waiting, lost := r.lost, firstLost := r.firstLost, lastLost := r.lastLost }
      match eachTry (restoreSurf m) (if hd.content then m.surfs else []) s with
      | .error e => .error e
      | .ok s => match eachTry (restoreSource i m) m.entries s with
        | .error e => .error e
        | .ok s => match eachTry (restoreSession i) m.sessions s with
          | .error e => .error e
          | .ok s => match eachTry (restoreAud p) m.auds s with
            | .error e => .error e
            | .ok s =>
              let s := m.rects.foldl (restoreRect i p) s
              .ok (keepHeld i (m.layers.foldl (restoreLayer i p) s))

/-- The end of a restore: the slice goes to a state, and the final reply is sent. -/
def endRestore (s : State) (j : RestoreJob) (st : Status) (fields : List Field) : State :=
  let s := match j.slice with
    | some i => if st = .ok then setSliceState s i .frozen 0 else setSliceState s i (if j.byRef then .frozen else .free) 3
    | none => s
  finishKey s j.key st (nowBits s) (fields ++ match j.slice with | some i => [fAt 16 0 8 i] | none => [])

/-- R100: whether the image is the one that its slice's latest save made; an image by content needs none. -/
def serialOk (s : State) (hd : ImgHead) : Bool := hd.content || hd.serial == (getSlice s hd.slice).saveSerial

/-- The image as read: checked, then applied. -/
def restoreImage (s : State) (j : RestoreJob) (p : Packet) (l : List Byte) : State :=
  match readHead s l with
  | none => endRestore s j .checkFailed []
  | some hd => match readBody hd.slice l with
    | .error d => endRestore (match d with | some d => countDiscard s d | none => s) j .checkFailed []
    | .ok m =>
      if !serialOk s hd then endRestore s j .checkFailed []
      else if j.slice ≠ some hd.slice ∨ j.byRef = hd.content then endRestore s j .notReady []
      else match applyImage p hd m s with
        | .ok t => endRestore t j .ok []
        | .error (st, f) => endRestore s j st f

/-- SLICE_RESTORE_COMPLETE: the image has been read; it is applied or refused, and the final reply is sent. -/
def execSliceRestoreComplete (c : Cmd) (s : State) : Host.Outcome State Fault Refusal :=
  .next (
    let k : CmdKey := ⟨c.slice, c.ring, c.index⟩
    match s.migr.restores.find? fun j => j.key == k, findHeld s k with
    | some j, some h =>
      let s := { s with migr := { s.migr with restores := s.migr.restores.filter fun x => x.key != k } }
      match srcRead s 0 engSluice (destSpace s) c (pf h.pkt 24 0 64) (pf h.pkt 32 0 64) with
      | (s, none) => endRestore s j .weirDenied []
      | (s, some l) => restoreImage s j h.pkt l
    | _, _ => s)

/-! SLICE_THAW's restored layers (R101). -/

/-- One restored layer enters composition, on the pass of its surface that is complete. -/
def enterLayer (l : HeldLayer) (s : State) : State :=
  let k := slotKey l.desc.output l.desc.slot
  if (getSlot s k).owner ≠ some l.slice || !admits (getGroup s (groupOfOutput s l.desc.output)) l.slice then s
  else
    let (w, h) := sizeOf s l.desc
    let x : SnapLayer := { key := k, desc := some l.desc, w, h }
    let ok := (notReady s x).isNone
    refreshCause (modSlot s k fun y => { y with active := imageOf s l.slice x l.desc ok l.pal, took := true }) l.desc.output 2

/-- The restored layers of thawed slices enter at the current boundary (R101). -/
def enterLayers (s : State) : State :=
  let due (l : HeldLayer) : Bool := match l.frame with | some f => frameDue s f | none => false
  let ls := s.migr.held.filter due
  forEach ls enterLayer { s with migr := { s.migr with held := s.migr.held.filter fun l => !due l } }

end Sys2Proof.Machine
end

