-- ==== Sys2Proof/Machine/Weir.lean ====
section
/-! DEFINITION. Weir commands (R376 to R380) and Gauge results (R381 to R383, R386). -/
namespace Sys2Proof.Machine
open Sys2Proof

/-- A rule's 256 bits (R368). -/
def ruleBits (r : WeirRule) : Nat :=
  packFields [(0, 28, r.base), (32, 28, r.limit), (64, 65, r.slices), (129, 9, r.engines), (138, 1, (r.debug).toNat),
    (139, 3, r.crit), (142, 1, r.read.toNat), (143, 1, r.write.toNat), (144, 2, r.owned), (146, 1, r.enable.toNat),
    (147, 1, r.lock.toNat)]

/-- The rule that 256 bits give (R368). -/
def ruleOfBits (x : Nat) : WeirRule :=
  { base := bitsAt x 0 28, limit := bitsAt x 32 28, slices := bitsAt x 64 65, engines := bitsAt x 129 9, debug := bitAt x 138,
    crit := bitsAt x 139 3, read := bitAt x 142, write := bitAt x 143, owned := bitsAt x 144 2, enable := bitAt x 146,
    lock := bitAt x 147 }

/-- An image that R376 refuses: LOCK 1, OWNED 0b11, a reserved bit, or ENABLE with LIMIT below BASE. -/
def ruleImageBad (x : Nat) : Bool :=
  let r := ruleOfBits x
  r.lock || r.owned == 3 || (r.enable && decide (r.limit < r.base)) || bitsAt x 28 4 != 0 || bitsAt x 60 4 != 0 || x >>> 148 != 0

/-- The enabled form of a table write: rules are kept in number order. -/
def setRule (s : State) (n : Nat) (r : WeirRule) : State :=
  { s with weir := { s.weir with rules := tset {} s.weir.rules n r } }

/-- WEIR_RULE_SET parameters. -/
def ruleSetResv (p : Packet) : List (Nat × Nat × Nat) :=
  [(16, 0, 12), (18, 0, 13), (20, 0, 2), (24, 0, 64)] ++ (if pf p 18 0 13 = 0 then [(32, 0, 256)] else [])

/-- Rules of a WEIR_RULE_SET's images: inline, from the Reservoir, or as host memory returned them; none when refused. -/
def ruleImages (s : State) (h : Held) (c : Cmd) : State × Option (List Nat) :=
  let p := h.pkt
  let n := pf p 18 0 13
  if n = 0 then (s, some [pf p 32 0 256])
  else match srcRead s h.slice engLock (pb p 20 1) c (pf p 24 0 64) (32 * n) with
    | (s, some l) => (s, some ((chunksOf 32 n l).map natLE))
    | (s, none) => (s, none)

/-- Range and alignment checks of WEIR_RULE_SET (R376), and locked rules for WRITE. -/
def checkRuleSet (s : State) (h : Held) (_ : Cmd) : Option Fail :=
  let p := h.pkt
  let first := pf p 16 0 12; let n := pf p 18 0 13; let read := pb p 20 0; let addr := pf p 24 0 64
  let cnt := max n 1
  let bad := !reservedZero p (ruleSetResv p) || decide (3072 < first + cnt) || (n == 0 && read) || addr % 32 != 0 || (n == 0 && addr != 0)
  if bad then some (.badParam, [fAt 16 0 16 first, fAt 20 0 16 first])
  else if read then none
  else match firstIdx (fun k => (tget {} s.weir.rules (first + k)).lock) 0 cnt with
    | some k => some (.notPermitted, [fAt 16 0 16 first, fAt 20 0 16 (first + k)])
    | none => none

/-- WEIR_RULE_SET WRITE: every image is checked before any rule is written (R376). -/
def actRuleWrite (s : State) (h : Held) (c : Cmd) : State :=
  let first := pf h.pkt 16 0 12
  match ruleImages s h c with
  | (s, none) => finishNow s h .weirDenied [fAt 16 0 16 first]
  | (s, some imgs) =>
    match firstIdx (fun k => ruleImageBad (imgs.getD k 0)) 0 imgs.length with
    | some k => finishNow s h .badParam [fAt 16 0 16 first, fAt 20 0 16 (first + k)]
    | none =>
      let s := (List.range imgs.length).foldl (fun s k => setRule s (first + k) (ruleOfBits (imgs.getD k 0))) s
      finishNow s h .ok [fAt 16 0 16 first, fAt 18 0 16 imgs.length]

/-- WEIR_RULE_SET READ: the rules, LOCK included, are copied to ADDR (R376). -/
def actRuleRead (s : State) (h : Held) (c : Cmd) : State :=
  let p := h.pkt
  let first := pf p 16 0 12; let n := pf p 18 0 13
  let img := (List.range n).flatMap fun k => bytesLE 32 (ruleBits (tget {} s.weir.rules (first + k)))
  match destWrite s h.slice engLock (pb p 20 1) c.ok (pf p 24 0 64) img with
  | (s, true) => finishNow s h .ok [fAt 16 0 16 first, fAt 18 0 16 n]
  | (s, false) => finishNow s h .weirDenied [fAt 16 0 16 first]

/-- WEIR_RULE_SET with OP WRITE (0xB01). -/
def execWeirRuleSetWrite (c : Cmd) (s : State) : Host.Outcome State Fault Refusal :=
  .next (runPacket s c 0xB01 (fun h => !pb h.pkt 20 0) checkRuleSet actRuleWrite)

/-- WEIR_RULE_SET with OP READ (0xB01). -/
def execWeirRuleSetRead (c : Cmd) (s : State) : Host.Outcome State Fault Refusal :=
  .next (runPacket s c 0xB01 (fun h => pb h.pkt 20 0) checkRuleSet actRuleRead)

/-- A packet with no parameters (R377, R433). -/
def checkNoParams (_ : State) (h : Held) (_ : Cmd) : Option Fail :=
  if reservedZero h.pkt [] then none else some (failWith .badParam)

/-- WEIR_BARRIER: accesses still in flight at the commit point are given as a value of the command; with none it replies at once, otherwise it waits (R377). -/
def actWeirBarrier (s : State) (h : Held) (c : Cmd) : State :=
  let n := c.obs.getD 0 0
  if n = 0 then finishNow s h .ok []
  else holdOn { s with weir := { s.weir with inFlight := n, barriers := s.weir.barriers ++ [{ key := heldKey h, waited := n, start := upTime s }] } } h

/-- WEIR_BARRIER (0xB02). -/
def execWeirBarrier (c : Cmd) (s : State) : Host.Outcome State Fault Refusal :=
  .next (runPacket s c 0xB02 (fun _ => true) checkNoParams actWeirBarrier)

/-- End a waiting barrier: the accesses waited for, those aborted, and the time waited in microseconds (R377). -/
def endBarrier (s : State) (c : Cmd) (st : Status) (aborted : Nat) : State :=
  let k : CmdKey := ⟨c.slice, c.ring, c.index⟩
  match s.weir.barriers.find? fun b => b.key == k with
  | none => s
  | some b =>
    let s := { s with weir := { s.weir with inFlight := 0, barriers := s.weir.barriers.filter fun b => b.key != k } }
    finishKey s k st (nowBits s) [fAt 16 0 32 b.waited, fAt 20 0 32 aborted, fAt 24 0 32 ((upTime s - b.start) / (4294967296 * 1000))]

/-- WEIR_BARRIER_DRAINED: the accesses waited for have completed (R377). -/
def execWeirBarrierDrained (c : Cmd) (s : State) : Host.Outcome State Fault Refusal := .next (endBarrier s c .ok 0)

/-- WEIR_BARRIER_TIMEOUT: after 1 ms the stalled accesses, which are given as a value, are aborted (R377). -/
def execWeirBarrierTimeout (c : Cmd) (s : State) : Host.Outcome State Fault Refusal :=
  .next (match s.weir.barriers.find? fun b => b.key == ⟨c.slice, c.ring, c.index⟩ with
    | none => s
    | some b => if passed s b.start 1000000 then endBarrier s c .timeout (c.obs.getD 1 0) else s)

/-- Step 8 checks of WEIR_VIOLATION_READ (R379). -/
def checkViolationRead (_ : State) (h : Held) (_ : Cmd) : Option Fail :=
  if !reservedZero h.pkt [(24, 0, 64)] || pf h.pkt 24 0 64 % 32 != 0 then some (failWith .badParam) else none

/-- WEIR_VIOLATION_READ (R379). -/
def actViolationRead (s : State) (h : Held) (c : Cmd) : State :=
  let dest := pf h.pkt 24 0 64
  let det : List Field := match s.weir.violation with
    | none => []
    | some v => [fAt 16 0 1 1, fAt 17 0 7 v.slice, fAt 17 7 1 (v.debug).toNat, fAt 18 0 16 v.count, fAt 20 0 16 v.rule, fAt 24 0 64 v.address]
  let body := bytesLE 32 (match s.weir.violation with | some v => violationBits v | none => 0)
  if dest = 0 then finishNow s h .ok det
  else match destWrite s 0 engLock (destSpace s) c.ok dest body with
    | (s, true) => finishNow s h .ok det
    | (s, false) => finishNow s h .weirDenied []

/-- WEIR_VIOLATION_READ (0xB03). -/
def execWeirViolationRead (c : Cmd) (s : State) : Host.Outcome State Fault Refusal :=
  .next (runPacket s c 0xB03 (fun _ => true) checkViolationRead actViolationRead)

/-- Step 8 checks of WEIR_VIOLATION_CLEAR (R380); EXPECT_WP is a WP in a command (R6). -/
def checkViolationClear (s : State) (h : Held) (_ : Cmd) : Option Fail :=
  let e := pf h.pkt 24 0 64
  if !reservedZero h.pkt [(24, 0, 64)] || wpBadLine s (wpOfBits e) then some (failWith .badParam)
  else if e != 0 && (match s.weir.violation with | some v => v.wp != e | none => true) then some (failWith .notReady) else none

/-- WEIR_VIOLATION_CLEAR (R380). -/
def actViolationClear (s : State) (h : Held) (_ : Cmd) : State :=
  let v := s.weir.violation.getD {}
  finishNow { s with weir := { s.weir with violation := none } } h .ok [fAt 16 0 16 v.count, fAt 24 0 64 v.wp]

/-- WEIR_VIOLATION_CLEAR (0xB04). -/
def execWeirViolationClear (c : Cmd) (s : State) : Host.Outcome State Fault Refusal :=
  .next (runPacket s c 0xB04 (fun _ => true) checkViolationClear actViolationClear)

/-- Step 8 checks of WEIR_LOCK (R378). -/
def checkWeirLock (_ : State) (h : Held) (_ : Cmd) : Option Fail :=
  let n := pf h.pkt 18 0 13
  if !reservedZero h.pkt [(16, 0, 12), (18, 0, 13)] || n == 0 || decide (3072 < pf h.pkt 16 0 12 + n) then some (failWith .badParam)
  else none

/-- WEIR_LOCK: LOCK on every rule of the range, disabled ones included (R378). -/
def actWeirLock (s : State) (h : Held) (_ : Cmd) : State :=
  let first := pf h.pkt 16 0 12; let n := pf h.pkt 18 0 13
  let newly := ((List.range n).filter fun k => !(tget {} s.weir.rules (first + k)).lock).length
  let s := (List.range n).foldl (fun s k => setRule s (first + k) { tget {} s.weir.rules (first + k) with lock := true }) s
  finishNow s h .ok [fAt 16 0 16 newly]

/-- WEIR_LOCK (0xB05). -/
def execWeirLock (c : Cmd) (s : State) : Host.Outcome State Fault Refusal :=
  .next (runPacket s c 0xB05 (fun _ => true) checkWeirLock actWeirLock)

/-! Gauge. -/

/-- GAUGE_READ's checks (R386). -/
def checkGaugeRead (_ : State) (h : Held) (_ : Cmd) : Option Fail :=
  if !reservedZero h.pkt [(16, 0, 11), (24, 0, 64)] || !inRange (pf h.pkt 16 0 11) 1 1024 || pf h.pkt 24 0 64 % 32 != 0 then
    some (failWith .badParam) else none

/-- GAUGE_READ: removes up to MAX records, oldest first; a refused write leaves them (R386). -/
def actGaugeRead (s : State) (h : Held) (c : Cmd) : State :=
  let recs := s.gauge.fifo.take (pf h.pkt 16 0 11)
  let left := s.gauge.fifo.drop (pf h.pkt 16 0 11)
  let newest := match recs.getLast? with | some r => r.wp | none => 0
  match destWrite s 0 engLock (destSpace s) c.ok (pf h.pkt 24 0 64) (recs.flatMap fun r => bytesLE 32 (gaugeRecBits r)) with
  | (s, true) =>
    let armed := s.gauge.levelArmed || decide (left.length < 512)
    let since := if left.isEmpty then 0 else s.gauge.droppedSince
    let s := { s with gauge := { s.gauge with fifo := left, levelArmed := armed, droppedSince := since } }
    finishNow s h .ok [fAt 16 0 16 recs.length, fAt 18 0 16 left.length, fAt 24 0 64 newest]
  | (s, false) => finishNow s h .weirDenied []

/-- GAUGE_READ (0xA02). -/
def execGaugeRead (c : Cmd) (s : State) : Host.Outcome State Fault Refusal :=
  .next (runPacket s c 0xA02 (fun _ => true) checkGaugeRead actGaugeRead)

end Sys2Proof.Machine
end

