-- ==== Sys2Proof/Machine/Intake.lean ====
section
/-! DEFINITION. PACKET_FETCH and ARMED_COMMAND_ACTS: the intake of packets, atomic groups, and timed commands that act (R64, R68 to R75, R91). -/
namespace Sys2Proof.Machine
open Sys2Proof

/-- The meaning of an opcode as its own row gives it: the form, the checks of R68 step 8, and the action. -/
structure Meaning where
  op : Nat
  form : Packet → Bool
  check : State → Held → Cmd → Option Fail
  act : State → Held → Cmd → State

/-- Reservoir, surfaces, composition and outputs. -/
def meaningsA : List Meaning :=
  [⟨0x000, fun _ => true, checkNop, actNop⟩,
   ⟨0x101, fun _ => true, checkSurfaceAlloc, actSurfaceAlloc⟩,
   ⟨0x104, fun _ => true, checkSurfaceRead, actSurfaceRead⟩,
   ⟨0x106, fun _ => true, checkPaletteLoad, actPaletteLoad⟩,
   ⟨0x201, fun _ => true, checkLayerSet, actLayerSet⟩,
   ⟨0x202, fun _ => true, checkLayerClear, actLayerClear⟩,
   ⟨0x204, fun _ => true, checkGroupDefine, actGroupDefine⟩,
   ⟨0x205, fun _ => true, checkCoeffLoad, actCoeffLoad⟩,
   ⟨0x301, fun _ => true, checkOutputConfigure, actOutputConfigure⟩,
   ⟨0x302, fun _ => true, checkOutputEnable, actOutputEnable⟩,
   ⟨0x303, fun _ => true, checkOutputDisable, actOutputDisable⟩,
   ⟨0x304, fun p => pf p 17 0 2 == 0, checkRectSet, actRectOp⟩,
   ⟨0x304, fun p => pf p 17 0 2 == 1, checkRectOther, actRectOp⟩,
   ⟨0x304, fun p => pf p 17 0 2 == 2, checkRectOther, actRectOp⟩,
   ⟨0x304, fun p => pf p 17 0 2 == 3, checkRectOther, actRectRead⟩,
   ⟨0x305, fun _ => true, checkSelfRefresh, actSelfRefresh⟩,
   ⟨0x306, fun _ => true, checkBankRehearse, actBankRehearse⟩,
   ⟨0x307, fun _ => true, checkBankAssign, actBankAssign⟩]

/-- Sources, codecs, the ledger and time. -/
def meaningsB : List Meaning :=
  [⟨0x401, fun _ => true, checkSourceAttach, actSourceAttach⟩,
   ⟨0x402, fun _ => true, checkSourceDetach, actSourceDetach⟩,
   ⟨0x403, fun p => flowOp p == 0 || decide (4 < flowOp p), checkFlowPort, actFlowPort⟩,
   ⟨0x403, fun p => flowOp p == 1, checkFlowRule, actFlowRule⟩,
   ⟨0x403, fun p => flowOp p == 2, checkFlowBind, actFlowBind⟩,
   ⟨0x403, fun p => flowOp p == 3, checkFlowQueue, actFlowQueue⟩,
   ⟨0x403, fun p => flowOp p == 4, checkFlowTransmit, actFlowTransmit⟩,
   ⟨0x404, fun _ => true, checkDpin, actDpin⟩,
   ⟨0x405, fun _ => true, checkDecodeStatus, actDecodeStatus⟩,
   ⟨0x501, fun _ => true, checkEncodeOpen, actEncodeOpen⟩,
   ⟨0x502, fun _ => true, checkEncodeSetRate, actEncodeSetRate⟩,
   ⟨0x503, fun _ => true, checkKeyPicture, actKeyPicture⟩,
   ⟨0x601, fun _ => true, checkLivenessSet, actLivenessSet⟩,
   ⟨0x603, fun _ => true, checkLedgerRead, actLedgerRead⟩,
   ⟨0x604, fun _ => true, checkTreatmentAssets, actTreatmentAssets⟩,
   ⟨0x701, fun p => pf p 16 0 2 != 1, checkRefEntry, actRefEntry⟩,
   ⟨0x701, fun p => pf p 16 0 2 == 1, checkRefOutputs, actRefOutputs⟩,
   ⟨0x702, fun _ => true, checkStatusDest, actRefStatus⟩,
   ⟨0x703, fun _ => true, checkTiming, actTiming⟩,
   ⟨0x704, fun p => realignMode p == 0 || realignMode p == 3, checkRealign, actRealign⟩,
   ⟨0x704, fun p => realignMode p == 1, checkRealign, actRealign⟩,
   ⟨0x704, fun p => realignMode p == 2, checkRealign, actRealignCancel⟩,
   ⟨0x705, fun p => pf p 16 0 2 != 1, checkPtpPort, actPtpPort⟩,
   ⟨0x705, fun p => pf p 16 0 2 == 1, checkPtpEvent, actPtpEvent⟩,
   ⟨0x706, fun _ => true, checkStampRead, actStampRead⟩,
   ⟨0x707, fun _ => true, checkTimeStep, actTimeStep⟩,
   ⟨0x708, fun _ => true, checkTimeRate, actTimeRate⟩]

/-- Fabric, operator I/O, service, the Weir, slices and firmware. -/
def meaningsC : List Meaning :=
  [⟨0x801, fun _ => true, checkStatusDest, actFabricStatus⟩,
   ⟨0x802, fun _ => true, checkRouteSet, actRouteSet⟩,
   ⟨0x803, fun _ => true, checkExport, actExport⟩,
   ⟨0x804, fun _ => true, checkImport, actImport⟩,
   ⟨0x806, fun p => portOp p == 0, checkPortControl, actPortEnable⟩,
   ⟨0x806, fun p => portOp p == 1, checkPortControl, actPortDisable⟩,
   ⟨0x806, fun p => portOp p == 2, checkPortControl, actPortReset⟩,
   ⟨0x806, fun p => portOp p == 3, checkPortControl, actPortPreset⟩,
   ⟨0x901, fun _ => true, checkKeys, actKeys⟩,
   ⟨0x903, fun _ => true, checkTouchPortSet, actTouchPortSet⟩,
   ⟨0x904, fun _ => true, checkHapticPlay, actHapticPlay⟩,
   ⟨0x905, fun p => audioOp p == 0, checkAudioStreamSet, actAudioOpen⟩,
   ⟨0x905, fun p => audioOp p == 1, checkAudioStreamSet, actAudioClose⟩,
   ⟨0x905, fun p => audioOp p == 2, checkAudioStreamSet, actAudioGain⟩,
   ⟨0x905, fun p => audioOp p == 3, checkAudioStreamSet, actAudioGlobal⟩,
   ⟨0x906, fun _ => true, checkTonePlay, actTonePlay⟩,
   ⟨0x907, fun _ => true, checkHapticConfigure, actHapticConfigure⟩,
   ⟨0xA01, fun _ => true, checkGaugeSet, actGaugeSet⟩,
   ⟨0xA02, fun _ => true, checkGaugeRead, actGaugeRead⟩,
   ⟨0xA03, fun _ => true, checkCounters, actCounters⟩,
   ⟨0xA04, fun _ => true, checkFaultRead, actFaultRead⟩,
   ⟨0xA05, fun _ => true, checkFaultClear, actFaultClear⟩,
   ⟨0xB01, fun p => !pb p 20 0, checkRuleSet, actRuleWrite⟩,
   ⟨0xB01, fun p => pb p 20 0, checkRuleSet, actRuleRead⟩,
   ⟨0xB02, fun _ => true, checkNoParams, actWeirBarrier⟩,
   ⟨0xB03, fun _ => true, checkViolationRead, actViolationRead⟩,
   ⟨0xB04, fun _ => true, checkViolationClear, actViolationClear⟩,
   ⟨0xB05, fun _ => true, checkWeirLock, actWeirLock⟩,
   ⟨0xC01, fun _ => true, checkSliceCreate, actSliceCreate⟩,
   ⟨0xC02, fun _ => true, checkBindPasid, actBindPasid⟩,
   ⟨0xC03, fun _ => true, checkSetShare, actSetShare⟩,
   ⟨0xC05, fun _ => true, (checkSliceEnd [.quiesced, .frozen]), actSliceReset⟩,
   ⟨0xC06, fun _ => true, (checkSliceEnd [.created, .quiesced, .frozen]), actSliceDestroy⟩,
   ⟨0xC0A, fun _ => true, checkThaw, actThaw⟩,
   ⟨0xC0B, fun _ => true, checkQuery, actQuery⟩,
   ⟨0xF01, fun _ => true, checkFwStage, actFwStage⟩,
   ⟨0xF03, fun _ => true, checkFwActivate, actFwActivate⟩,
   ⟨0xF04, fun _ => true, checkDeviceReset, actDeviceReset⟩,
   ⟨0xF06, fun _ => true, checkStatusDest, actIdentify⟩]

/-- The meaning of a packet that an atomic group or a timed command may hold: the opcodes of R72 and those marked T in R83. -/
def meaningOf (p : Packet) : Option Meaning :=
  (meaningsA ++ meaningsB ++ meaningsC).find? fun m => m.op == pktOpcode p && m.form p

/-! Atomic groups (R72). -/

/-- What the host answered during a packet, or nothing. -/
def ioOf (ios : List Cmd) (h : Held) : Cmd :=
  (ios.find? fun c => c.ring == h.ring && c.index == h.index).getD { slice := h.slice, ring := h.ring, index := h.index, ok := false }

/-- The members of the group that a held packet leads. -/
def groupOf (s : State) (h : Held) : List Held :=
  (getRings s h.slice).held.filter fun x => x.ring == h.ring && x.len == h.len && h.index ≤ x.index && decide (x.index < h.index + h.len)

/-- The status and detail of a packet that an action finished without keeping it (R78); none when it was done or is still held. -/
def actFailed (s : State) (h : Held) : Option (Status × Nat) :=
  let mine (r : Reply) : Bool := r.tag == pktTag h.pkt && r.opcode == pktOpcode h.pkt
  if (findHeld s (heldKey h)).isSome || (tget {} (getRings s h.slice).sq h.ring).tags.any fun t => t.tag == pktTag h.pkt then none
  else
    let sent := s.out.reverse.findSome? fun o => match o with
      | .reply i _ _ _ r => if i = h.slice ∧ mine r then some r else none
      | _ => none
    match (getRings s h.slice).waiting.find? mine with
    | some r => some (r.status, r.detail)
    | none => sent.map fun r => (r.status, r.detail)

/-- Each member's checks and action on the state that the members before it leave; the first that fails, with its status and detail. -/
def tryGroup (ios : List Cmd) : List Held → State → Except (Held × Status × Nat) State
  | [], s => .ok s
  | h :: r, s => match meaningOf h.pkt with
    | none => .error (h, .badParam, 0)
    | some m => match m.check s h (ioOf ios h) with
      | some f => .error (h, f.1, packFields f.2)
      | none =>
        let t := m.act s h (ioOf ios h)
        match actFailed t h with
        | some (st, d) => .error (h, st, d)
        | none => tryGroup ios r t

/-- No member acts: the failing one replies with its own status, every other with ST_CHECK_FAILED and its tag (R72). -/
def refuseGroup (s : State) (ms : List Held) (bad : Held) (st : Status) (detail : Nat) : State :=
  forEach ms (fun h s => if heldKey h = heldKey bad then finish s h st (nowBits s) detail
    else finishNow s h .checkFailed [fAt 16 0 32 (pktTag bad.pkt)]) s

/-- Lockkeeper runs a group that has been taken: every member acts at one WP, or all are armed with the first member's WP_DUE (R70, R72). -/
def runGroup (s : State) (lead : Held) (ios : List Cmd) : State :=
  let ms := groupOf s lead
  match tryGroup ios ms s with
  | .error (h, st, d) => refuseGroup s ms h st d
  | .ok t =>
    if !pktTimed lead.pkt then t
    else if 64 < armedCount s lead.slice + ms.length then refuseGroup s ms lead .noResource 0
    else forEach ms (fun h s => modHeld s (heldKey h) fun x => { x with phase := .armed, due := wpOfBits (pktDue lead.pkt) }) s

/-- A group of a slice that has been taken and not run. -/
def waitingGroup (s : State) (slice : Nat) : Option Held :=
  (getRings s slice).held.find? fun h => h.phase == .taken && decide (1 < h.len) && h.pos == 0

/-- PACKET_FETCH: ring writes that failed stop their rings (R64); a group taken before runs (R72), or the slice's next packet or group is taken (R68, R75). -/
def execPacketFetch (slice : Nat) (host : List HostEntry) (errs : List Nat) (ios : List Cmd) (s : State) : Host.Outcome State Fault Refusal :=
  let s := forEach errs (fun w s => hostWriteError s slice w) s
  .next (match waitingGroup s slice with
    | some h => if s.boot.lk = .running then runGroup s h ios else takeNext s slice host
    | none => takeNext s slice host)

/-! Timed commands (R43, R70). -/

/-- The action of an armed packet. -/
def actArmed (h : Held) (c : Cmd) (s : State) : State := match meaningOf h.pkt with
  | some m => m.act s h c
  | none => s

/-- Opcodes whose whole effect is a change at a wall frame boundary: timed, they act there (R39, R70, R186). -/
def actsAtBoundary (op : Nat) : Bool := op == 0x307 || op == 0x604

/-- The WP at which an armed command acts: WP_DUE, or its boundary: the first at or after WP_DUE, or after the arming when WP_DUE had passed (R43, R70). -/
def actsAt (h : Held) : Wp :=
  if actsAtBoundary (pktOpcode h.pkt) then ⟨boundaryAtOrAfter (if wpReached h.taken h.due then h.taken else h.due), 0, 0⟩ else h.due

/-- An armed command, with its group, acts: its executor runs, its WP has come, and it is no COMMIT, which acts through its record at its boundary (R43, R70, R72, R173). -/
def actWhenDue (h : Held) (c : Cmd) (s : State) : State :=
  if h.phase != .armed || h.pos != 0 || pktOpcode h.pkt == 0x203 || !wpReached (now s) (actsAt h) || !executorRuns s (pktOpcode h.pkt) then s
  else if h.len = 1 then actArmed h c s
  else forEach (groupOf s h) (fun m s => actArmed m (if heldKey m = heldKey h then c else ioOf [] m) s) s

/-- ARMED_COMMAND_ACTS: an armed command whose WP has come acts (R43, R70). -/
def execArmedCommandActs (c : Cmd) (s : State) : Host.Outcome State Fault Refusal :=
  .next (match findHeld s ⟨c.slice, c.ring, c.index⟩ with
    | none => s
    | some h => actWhenDue h c s)

/-- Every held packet. -/
def heldAll (s : State) : List Held := s.rings.flatMap fun e => e.2.held

/-- Put a command into a list in the order in which commands act. -/
def insertDue (h : Held) : List Held → List Held
  | [] => [h]
  | g :: r => if wpLater (actsAt h) (actsAt g) then g :: insertDue h r else h :: g :: r

/-- The armed commands whose WP is at or before w act, in WP order (R43, R52). -/
def runDue (w : Wp) (s : State) : State :=
  let l := (heldAll s).filter fun h => h.phase == .armed && wpReached w (actsAt h)
  forEach (l.foldr insertDue []) (fun h s => match findHeld s (heldKey h) with
    | some h => actWhenDue h (ioOf [] h) s
    | none => s) s

end Sys2Proof.Machine
end

