-- ==== Sys2Proof/Machine/Boundary.lean ====
section
/-! DEFINITION. Wall line starts and wall frame boundaries: the rows LEDGER_EVALUATION and WALL_FRAME_BOUNDARY, a new wall timing and a REALIGN (R15, R19, R49 to R52, R181, R305). -/
namespace Sys2Proof.Machine
open Sys2Proof

/-! Line starts. -/

/-- What else happens at a wall line start: a rehearsal arms, queue interrupts held back are raised, exports send STATE, a root sends its marks (R230, R278, R335, R345). -/
def lineHappenings (s : State) : State := rootMarks (exportStates (queueInterrupts (armRehearsal s)))

/-- LEDGER_EVALUATION: the evaluation of R15 at the line start now standing, with the errors that ECC met (R13); the line's remaining ticks pass (R40), and the next line start publishes what was computed (R19; log entry 8). -/
def execLedgerEvaluation (eccFailed : List Nat) (corrected : Nat) (s : State) : Host.Outcome State Fault Refusal :=
  .next (if !s.time.running then s
    else
      let s := { s with ledger := { s.ledger with corrected := s.ledger.corrected + corrected } }
      lineHappenings (startLine (endLine (forEach eccFailed (fun i s => ledgerEcc s i) s))))

/-! A new wall timing (R49 to R51). -/

/-- Change every stored WP field of an entry (R50, R52), and the age base that an upstream device gave. -/
def mapWps (f : LineWp → LineWp) (e : LedgerEntry) : LedgerEntry :=
  { e with
    lastArrival := e.lastArrival.map f, origin := e.origin.map f, ageBase := e.ageBase.map f, since := e.since.map f
    inp := { e.inp with upAgeBase := e.inp.upAgeBase.map f } }

/-- R50: an entry under a new timing, from a boundary frame. -/
def rescaleEntry (old new : WallTiming) (b : Nat) (e : LedgerEntry) : LedgerEntry :=
  if !e.valid then e
  else { mapWps (rescaleWp old new b) e with period := rescaleLines old new e.period, deadline := rescaleLines old new e.deadline }

/-- R51: an output's frame offset under new frame lengths. -/
def rescaleOffset (old new : WallTiming) (x : OutputSt) : OutputSt :=
  { x with cfg := { x.cfg with offset := x.cfg.offset * (new.lines * 65536) / (old.lines * 65536) } }

/-- A wall timing takes effect at boundary frame b, where a slew ends (R305); `base` is the timing base frame of R410. -/
def takeTiming (b base : Nat) (t : WallTiming) (s : State) : State :=
  let old := s.time.timing
  let t := if t.wallId = 0 then { t with wallId := old.wallId } else t
  let s := rebaseClocks (endSlew s .notReady (slewLeft s))
  let on := (List.range 8).filter fun o => scheduling (getOut s o)
  let s := { s with
    time := { s.time with timing := t }
    ledger := { s.ledger with entries := tmap {} (fun _ e => rescaleEntry old t b e) s.ledger.entries }
    scan := { s.scan with outputs := tmap {} (fun _ x => rescaleOffset old t x) s.scan.outputs } }
  audioRebase (forEach on (fun o s => emit (refreshCause s o 5) (.link o 3)) s) base

/-- The wall timings due at the current boundary; one that a joining device was given brings its base frame (R340). -/
def applyTimings (s : State) : State :=
  let due (e : WallTiming × Nat × Option CmdKey) : Bool := frameDue s e.2.1
  let l := s.time.pendTiming.filter due
  let s := { s with time := { s.time with pendTiming := s.time.pendTiming.filter fun e => !due e } }
  forEach l (fun e s =>
    let s := match s.fabric.joinBase with
      | some base => takeTiming e.2.1 base e.1 { s with fabric := { s.fabric with took := true, joinBase := none } }
      | none => takeTiming e.2.1 e.2.1 e.1 s
    match e.2.2 with
    | some k => finishKey s k .ok (boundaryBits e.2.1) (timingDetail s e.1 e.2.1)
    | none => s) s

/-! REALIGN (R52, R305, R340). -/

/-- WP moves by d ticks, and every stored WP field with it; outputs take their schedule from the new WP (R52, R305). -/
def moveWp (s : State) (d : Int) : State :=
  let n := wallLines s
  let shift (w : LineWp) : LineWp := lineOf (addTicks n ⟨w.frame, w.line, 0⟩ d)
  let s := rebaseClocks s
  let w := addTicks n (now s) d
  let s := { s with
    time := { s.time with wp := w }
    ledger := { s.ledger with entries := tmap {} (fun _ e => if e.valid then mapWps shift e else e) s.ledger.entries, evalAt := none }
    scan := { s.scan with outputs := tmap {} (fun _ x => { x with inFrame := false }) s.scan.outputs }
    fabric := { s.fabric with runS := 0 } }
  forEach (List.range 8) (fun o s => refreshCause s o 5) (audioJump (restartClocks (movePhases s d)))

/-- A SLEW starts at a boundary: ST_DEFERRED with its captured delta (R305). -/
def startSlew (r : Realign) (d : Int) (s : State) : State :=
  let s := rebaseClocks s
  let s := { s with time := { s.time with slew := some { key := r.key, total := d, rate := r.rate, start := now s } } }
  let s := if r.key.isSome ∧ r.target ≠ 2 then announce s (ctlRealign 4 d r.rate r.frame) else s
  match r.key.bind (findHeld s) with
  | some h => defer s h [fAt 16 0 64 (ofSigned 64 d), fAt 24 0 64 (ofSigned 64 d)]
  | none => s

/-- A JUMP at a boundary (R305); a root announces a delta that was measured here (R342). -/
def doJump (r : Realign) (d : Int) (s : State) : State :=
  let b := nowBits s
  let s := if r.key.isSome ∧ r.target ≠ 2 then announce s (ctlRealign 3 d 0 r.frame) else s
  let s := moveWp s d
  match r.key with
  | some k => finishKey s k .ok b [fAt 16 0 64 (ofSigned 64 d)]
  | none => s

/-- One REALIGN at its acting boundary: refused when its misalignment does not apply or a slew runs (R305). -/
def actAtBoundary (r : Realign) (s : State) : State :=
  let no (s : State) : State := match r.key with
    | some k => finishKey s k .notReady (nowBits s) []
    | none => s
  match realignTarget s r.target r.delta with
  | none => no s
  | some d =>
    if s.time.slew.isSome then (if r.slew then no s else no (endSlew s .notReady (slewLeft s)))
    else if r.slew then startSlew r d s
    else doJump r d s

/-- The REALIGNs due at the current boundary, and the jump of a device that joins a fabric or has lost its root's WP (R340, R341). -/
def applyRealigns (s : State) : State :=
  let due (r : Realign) : Bool := frameDue s r.frame
  let l := s.time.realign.filter due
  let s := forEach l actAtBoundary { s with time := { s.time with realign := s.time.realign.filter fun r => !due r } }
  match s.fabric.jumpPort with
  | none => s
  | some p =>
    let s := moveWp s (getLane s p).phase
    let joined := s.fabric.joining = some p
    let s := modTod s p fun x => { x with disagree := 0, good := 0, same := x.same || decide joined }
    let s := { s with fabric := { s.fabric with jumpPort := none, joining := if joined then none else s.fabric.joining, took := s.fabric.took && !decide joined } }
    retree s 5

/-! The boundary. -/

/-- EV_OUTPUT_UNDERFLOW for the lines of the wall frame that ends (R204). -/
def postUnderflow (o : Nat) (s : State) : State :=
  let u := (getOut s o).under
  if u.lines = 0 then s
  else postEvent (modOut s o fun x => { x with under := { total := u.total } }) 0
    (eventBits 0x0302 (wpBits u.wp) [fAt 2 0 3 o, fAt 3 0 8 u.lines, fAt 4 0 32 u.first, fAt 16 0 32 u.total])

/-- The events that are posted once a wall frame (R35, R152, R204, R215, R247, R277). -/
def frameEvents (s : State) : State :=
  let s := forEach (List.range 8) postUnderflow s
  let s := postFlowEvents (postDecodeEvents (postRects (postMismatches s)))
  flushAllLiveness s

/-- What R181 orders at a boundary before shedding, and the restored layers of R101 with the commit records. -/
def applyChanges (s : State) : State :=
  enterLayers (applyRecords (now s) (applyClears (applyGroups (applyRemovals (applyLeft s)))))

/-- What R181 orders at a boundary; shedding comes after every record, also one that GROUP_HOLD_EXPIRY has yet to bring in (R177). -/
def applyLayers (s : State) : State :=
  let s := applyChanges s
  if s.comp.records.any fun r => r.expired && !r.applied then s else applyShedding (now s) s

/-- What else is scheduled for a boundary: assets, shares and rectangle operations (R39, R93, R216). -/
def applyScheduled (s : State) : State := replyRectOps (applyShares (applyAssets s))

/-- What else takes effect at a boundary: what is scheduled, bank and output moves, reference outputs, and the PTP port that an anchor counts by (R231, R303). -/
def applyOthers (s : State) : State :=
  let s := { s with ptp := { s.ptp with anchorPort := s.ptp.primary } }
  checkMis (relatchAll (countClean (applyRefOuts (applyScheduled s))))

/-! A forward jump (R52). -/

/-- Boundary frames at which something is scheduled. -/
def scheduledFrames (s : State) : List Nat :=
  s.time.pendTiming.map (fun e => e.2.1) ++ s.ledger.pendAssets.map AssetChange.frame ++ s.comp.records.map CommitRecord.target ++
  s.comp.pendGroups.map GroupChange.frame ++ s.comp.pendCoeffs.map (fun e => e.2.2) ++ s.comp.removals.map Prod.snd ++
  s.scan.rectOps.map RectOp.frame ++ s.slices.flatMap (fun e => e.2.pendShares.map fun x => x.2.2) ++
  (s.comp.pendLeft.map Prod.snd).toList ++ s.comp.slots.filterMap (fun e => e.2.mgrClear) ++ s.migr.held.filterMap HeldLayer.frame ++
  (heldAll s).filterMap fun h => if h.phase = .armed then some (boundaryAtOrAfter h.due) else none

/-- The boundaries after frame `old` that a jump has skipped and at which something is scheduled, in WP order. -/
def skippedFrames (s : State) (old : Nat) : List Nat :=
  let l := distinct ((scheduledFrames s).filter fun f => frameLater f old && frameDue s f && f != (now s).frame)
  l.foldr (fun f acc => acc.takeWhile (fun g => frameLater f g) ++ f :: acc.dropWhile (fun g => frameLater f g)) []

/-- What was scheduled for a boundary that a forward jump has skipped takes place now (R52). -/
def runSkipped (f : Nat) (s : State) : State :=
  let s := runDue ⟨f, 0, 0⟩ { s with time := { s.time with skip := some f } }
  let s := applyScheduled (applyChanges (applyCoeffs (applyTimings s)))
  { s with time := { s.time with skip := none } }

/-- A new wall frame's allowances: packets taken and codec credits (R91, R240, R254). -/
def newAllowances (s : State) : State :=
  grantCredits { s with slices := tmap {} (fun _ x => { x with taken := 0 }) s.slices }

/-- WALL_FRAME_BOUNDARY: once at the first line of each wall frame, after the armed commands whose WP has come (R43, R181); what a forward jump has skipped takes place in WP order first (R52). -/
def execWallFrameBoundary (s : State) : Host.Outcome State Fault Refusal :=
  .next (if !s.time.running || (now s).line != 0 || s.time.lastBoundary == some (now s).frame then s
    else
      let old := now s
      let s := runDue old s
      let s := applyRealigns (applyTimings { s with time := { s.time with lastBoundary := some (now s).frame } })
      let s := { s with time := { s.time with lastBoundary := some (now s).frame } }
      let s := if wpLater (now s) old then runDue (now s) (forEach (skippedFrames s old.frame) runSkipped s) else s
      freeEntries (captureSurfaces (newAllowances (frameEvents (applyOthers (applyLayers (applyCoeffs s)))))))

end Sys2Proof.Machine
end

