-- ==== Sys2Proof/Machine/Dispatch.lean ====
section
/-! DEFINITION. One arm per command: what each does to everything but the queue. -/
namespace Sys2Proof.Machine
open Sys2Proof

/-- The command's effect. -/
def exec (i : Instr) (s : State) : Host.Outcome State Fault Refusal :=
  match i with
  | .powerInputInRange => Sys2Proof.Machine.execPowerInputInRange s
  | .powerInputFall => Sys2Proof.Machine.execPowerInputFall s
  | .rstNAssert => Sys2Proof.Machine.execRstNAssert s
  | .perstNAssert => Sys2Proof.Machine.execPerstNAssert s
  | .perstNRelease => Sys2Proof.Machine.execPerstNRelease s
  | .pcieHotReset => Sys2Proof.Machine.execPcieHotReset s
  | .pcieLinkUp => Sys2Proof.Machine.execPcieLinkUp s
  | .lockedClocksRelease => Sys2Proof.Machine.execLockedClocksRelease s
  | .bootRomVerifyComplete aFail bFail => Sys2Proof.Machine.execBootRomVerifyComplete aFail bFail s
  | .storeTrainingComplete ok => Sys2Proof.Machine.execStoreTrainingComplete ok s
  | .startupZeroFillComplete ok => Sys2Proof.Machine.execStartupZeroFillComplete ok s
  | .deviceReady => Sys2Proof.Machine.execDeviceReady s
  | .trialBootTimeout => Sys2Proof.Machine.execTrialBootTimeout s
  | .lockkeeperWatchdogExpiry processor => Sys2Proof.Machine.execLockkeeperWatchdogExpiry processor s
  | .lockkeeperRestartComplete fail => Sys2Proof.Machine.execLockkeeperRestartComplete fail s
  | .railOutOfTolerance rail => Sys2Proof.Machine.execRailOutOfTolerance rail s
  | .lockkeeperMemoryEcc => Sys2Proof.Machine.execLockkeeperMemoryEcc s
  | .thermalSensorCrossing temps => Sys2Proof.Machine.execThermalSensorCrossing temps s
  | .thermalTrip temps => Sys2Proof.Machine.execThermalTrip temps s
  | .deviceResetDelayExpiry => Sys2Proof.Machine.execDeviceResetDelayExpiry s
  | .fwActivateRestartDelay => Sys2Proof.Machine.execFwActivateRestartDelay s
  | .sqTailDoorbell slice ring tail => Sys2Proof.Machine.execSqTailDoorbell slice ring tail s
  | .ringEnableWrite slice which value => Sys2Proof.Machine.execRingEnableWrite slice which value s
  | .ringErrorClear slice which => Sys2Proof.Machine.execRingErrorClear slice which s
  | .rqHeadWrite slice head => Sys2Proof.Machine.execRqHeadWrite slice head s
  | .eqHeadWrite slice head => Sys2Proof.Machine.execEqHeadWrite slice head s
  | .packetFetch slice host errs ios => Sys2Proof.Machine.execPacketFetch slice host errs ios s
  | .interruptHoldoffExpiry slice which => Sys2Proof.Machine.execInterruptHoldoffExpiry slice which s
  | .armedCommandActs c => Sys2Proof.Machine.execArmedCommandActs c s
  | .nop c => Sys2Proof.Machine.execNop c s
  | .surfaceAlloc c => Sys2Proof.Machine.execSurfaceAlloc c s
  | .surfaceRelease c => Sys2Proof.Machine.execSurfaceRelease c s
  | .surfaceReleaseComplete handle => Sys2Proof.Machine.execSurfaceReleaseComplete handle s
  | .surfaceWrite c => Sys2Proof.Machine.execSurfaceWrite c s
  | .surfaceRead c => Sys2Proof.Machine.execSurfaceRead c s
  | .surfaceFence c => Sys2Proof.Machine.execSurfaceFence c s
  | .surfaceFenceMet c => Sys2Proof.Machine.execSurfaceFenceMet c s
  | .surfaceFenceTimeout c => Sys2Proof.Machine.execSurfaceFenceTimeout c s
  | .paletteLoad c => Sys2Proof.Machine.execPaletteLoad c s
  | .layerSet c => Sys2Proof.Machine.execLayerSet c s
  | .layerClear c => Sys2Proof.Machine.execLayerClear c s
  | .commit c => Sys2Proof.Machine.execCommit c s
  | .commitGroupDefine c => Sys2Proof.Machine.execCommitGroupDefine c s
  | .coeffLoad c => Sys2Proof.Machine.execCoeffLoad c s
  | .bankAssign c => Sys2Proof.Machine.execBankAssign c s
  | .outputConfigure c => Sys2Proof.Machine.execOutputConfigure c s
  | .outputEnable c => Sys2Proof.Machine.execOutputEnable c s
  | .outputEnableStart output => Sys2Proof.Machine.execOutputEnableStart output s
  | .outputEnableTimeout output => Sys2Proof.Machine.execOutputEnableTimeout output s
  | .outputDisable c => Sys2Proof.Machine.execOutputDisable c s
  | .outputDisableAct output => Sys2Proof.Machine.execOutputDisableAct output s
  | .rectCheckSetSet c => Sys2Proof.Machine.execRectCheckSetSet c s
  | .rectCheckSetRemove c => Sys2Proof.Machine.execRectCheckSetRemove c s
  | .rectCheckSetRearm c => Sys2Proof.Machine.execRectCheckSetRearm c s
  | .rectCheckSetRead c => Sys2Proof.Machine.execRectCheckSetRead c s
  | .selfRefreshRequest c => Sys2Proof.Machine.execSelfRefreshRequest c s
  | .bankRehearse c => Sys2Proof.Machine.execBankRehearse c s
  | .bankRehearseEnd => Sys2Proof.Machine.execBankRehearseEnd s
  | .sourceAttach c => Sys2Proof.Machine.execSourceAttach c s
  | .sourceDetach c => Sys2Proof.Machine.execSourceDetach c s
  | .flowSetPort c => Sys2Proof.Machine.execFlowSetPort c s
  | .flowSetRule c => Sys2Proof.Machine.execFlowSetRule c s
  | .flowSetBind c => Sys2Proof.Machine.execFlowSetBind c s
  | .flowSetQueue c => Sys2Proof.Machine.execFlowSetQueue c s
  | .flowSetTransmit c => Sys2Proof.Machine.execFlowSetTransmit c s
  | .dpinConfigure c => Sys2Proof.Machine.execDpinConfigure c s
  | .decodeStatus c => Sys2Proof.Machine.execDecodeStatus c s
  | .encodeOpen c => Sys2Proof.Machine.execEncodeOpen c s
  | .encodeSetRate c => Sys2Proof.Machine.execEncodeSetRate c s
  | .keyPicture c => Sys2Proof.Machine.execKeyPicture c s
  | .encodeClose c => Sys2Proof.Machine.execEncodeClose c s
  | .encodeCloseComplete session => Sys2Proof.Machine.execEncodeCloseComplete session s
  | .livenessSet c => Sys2Proof.Machine.execLivenessSet c s
  | .heartbeat c => Sys2Proof.Machine.execHeartbeat c s
  | .ledgerRead c => Sys2Proof.Machine.execLedgerRead c s
  | .treatmentAssets c => Sys2Proof.Machine.execTreatmentAssets c s
  | .refTableSetEntry c => Sys2Proof.Machine.execRefTableSetEntry c s
  | .refTableSetOutputs c => Sys2Proof.Machine.execRefTableSetOutputs c s
  | .refStatus c => Sys2Proof.Machine.execRefStatus c s
  | .wallTimingSet c => Sys2Proof.Machine.execWallTimingSet c s
  | .realignJump c => Sys2Proof.Machine.execRealignJump c s
  | .realignSlew c => Sys2Proof.Machine.execRealignSlew c s
  | .realignCancel c => Sys2Proof.Machine.execRealignCancel c s
  | .realignSlewComplete => Sys2Proof.Machine.execRealignSlewComplete s
  | .ptpPortSetPort c => Sys2Proof.Machine.execPtpPortSetPort c s
  | .ptpPortSetEvent c => Sys2Proof.Machine.execPtpPortSetEvent c s
  | .eventStampRead c => Sys2Proof.Machine.execEventStampRead c s
  | .timeStep c => Sys2Proof.Machine.execTimeStep c s
  | .timeRateAdjust c => Sys2Proof.Machine.execTimeRateAdjust c s
  | .fabricStatus c => Sys2Proof.Machine.execFabricStatus c s
  | .fabricRouteSet c => Sys2Proof.Machine.execFabricRouteSet c s
  | .fabricExport c => Sys2Proof.Machine.execFabricExport c s
  | .fabricImport c => Sys2Proof.Machine.execFabricImport c s
  | .laneEyeScan c => Sys2Proof.Machine.execLaneEyeScan c s
  | .laneEyeScanComplete c => Sys2Proof.Machine.execLaneEyeScanComplete c s
  | .portControlEnable c => Sys2Proof.Machine.execPortControlEnable c s
  | .portControlDisable c => Sys2Proof.Machine.execPortControlDisable c s
  | .portControlReset c => Sys2Proof.Machine.execPortControlReset c s
  | .portControlPreset c => Sys2Proof.Machine.execPortControlPreset c s
  | .keysConfigure c => Sys2Proof.Machine.execKeysConfigure c s
  | .keySelftest c => Sys2Proof.Machine.execKeySelftest c s
  | .keySelftestComplete ok => Sys2Proof.Machine.execKeySelftestComplete ok s
  | .touchPortSet c => Sys2Proof.Machine.execTouchPortSet c s
  | .hapticConfigure c => Sys2Proof.Machine.execHapticConfigure c s
  | .hapticPlay c => Sys2Proof.Machine.execHapticPlay c s
  | .audioStreamSetOpen c => Sys2Proof.Machine.execAudioStreamSetOpen c s
  | .audioStreamSetClose c => Sys2Proof.Machine.execAudioStreamSetClose c s
  | .audioStreamSetGain c => Sys2Proof.Machine.execAudioStreamSetGain c s
  | .audioStreamSetGlobal c => Sys2Proof.Machine.execAudioStreamSetGlobal c s
  | .tonePlay c => Sys2Proof.Machine.execTonePlay c s
  | .gaugeSet c => Sys2Proof.Machine.execGaugeSet c s
  | .gaugeRead c => Sys2Proof.Machine.execGaugeRead c s
  | .countersRead c => Sys2Proof.Machine.execCountersRead c s
  | .faultRead c => Sys2Proof.Machine.execFaultRead c s
  | .faultClear c => Sys2Proof.Machine.execFaultClear c s
  | .weirRuleSetWrite c => Sys2Proof.Machine.execWeirRuleSetWrite c s
  | .weirRuleSetRead c => Sys2Proof.Machine.execWeirRuleSetRead c s
  | .weirBarrier c => Sys2Proof.Machine.execWeirBarrier c s
  | .weirBarrierDrained c => Sys2Proof.Machine.execWeirBarrierDrained c s
  | .weirBarrierTimeout c => Sys2Proof.Machine.execWeirBarrierTimeout c s
  | .weirViolationRead c => Sys2Proof.Machine.execWeirViolationRead c s
  | .weirViolationClear c => Sys2Proof.Machine.execWeirViolationClear c s
  | .weirLock c => Sys2Proof.Machine.execWeirLock c s
  | .sliceCreate c => Sys2Proof.Machine.execSliceCreate c s
  | .sliceBindPasid c => Sys2Proof.Machine.execSliceBindPasid c s
  | .sliceSetShare c => Sys2Proof.Machine.execSliceSetShare c s
  | .sliceQuiesce c => Sys2Proof.Machine.execSliceQuiesce c s
  | .sliceQuiesced slice => Sys2Proof.Machine.execSliceQuiesced slice s
  | .sliceFreeze c => Sys2Proof.Machine.execSliceFreeze c s
  | .sliceFrozen slice => Sys2Proof.Machine.execSliceFrozen slice s
  | .sliceWaitTimeout c => Sys2Proof.Machine.execSliceWaitTimeout c s
  | .sliceReset c => Sys2Proof.Machine.execSliceReset c s
  | .sliceDestroy c => Sys2Proof.Machine.execSliceDestroy c s
  | .sliceSave c => Sys2Proof.Machine.execSliceSave c s
  | .sliceSaveComplete c => Sys2Proof.Machine.execSliceSaveComplete c s
  | .sliceRestore c => Sys2Proof.Machine.execSliceRestore c s
  | .sliceRestoreComplete c => Sys2Proof.Machine.execSliceRestoreComplete c s
  | .sliceThaw c => Sys2Proof.Machine.execSliceThaw c s
  | .sliceQuery c => Sys2Proof.Machine.execSliceQuery c s
  | .orphanRetired slice => Sys2Proof.Machine.execOrphanRetired slice s
  | .orphanAbortLimit slice => Sys2Proof.Machine.execOrphanAbortLimit slice s
  | .fwStage c => Sys2Proof.Machine.execFwStage c s
  | .fwVerify c => Sys2Proof.Machine.execFwVerify c s
  | .fwVerifyComplete result => Sys2Proof.Machine.execFwVerifyComplete result s
  | .fwActivate c => Sys2Proof.Machine.execFwActivate c s
  | .deviceReset c => Sys2Proof.Machine.execDeviceReset c s
  | .engineReinit c => Sys2Proof.Machine.execEngineReinit c s
  | .engineSelfCheckComplete unit index ok test => Sys2Proof.Machine.execEngineSelfCheckComplete unit index ok test s
  | .identify c => Sys2Proof.Machine.execIdentify c s
  | .ledgerEvaluation eccFailed corrected => Sys2Proof.Machine.execLedgerEvaluation eccFailed corrected s
  | .wallFrameBoundary => Sys2Proof.Machine.execWallFrameBoundary s
  | .groupHoldExpiry slice group => Sys2Proof.Machine.execGroupHoldExpiry slice group s
  | .outputFrameStart output => Sys2Proof.Machine.execOutputFrameStart output s
  | .outputLineStart output inTime => Sys2Proof.Machine.execOutputLineStart output inTime s
  | .rectEvaluate output rect => Sys2Proof.Machine.execRectEvaluate output rect s
  | .hpdRise output => Sys2Proof.Machine.execHpdRise output s
  | .irqHpd output => Sys2Proof.Machine.execIrqHpd output s
  | .hpdFall output => Sys2Proof.Machine.execHpdFall output s
  | .linkTrainingEnd output result lanes rate sinkPsr edid edidOk => Sys2Proof.Machine.execLinkTrainingEnd output result lanes rate sinkPsr edid edidOk s
  | .linkRetryTimer output => Sys2Proof.Machine.execLinkRetryTimer output s
  | .bankPipeWatchdog output => Sys2Proof.Machine.execBankPipeWatchdog output s
  | .bankStoreEccFault output => Sys2Proof.Machine.execBankStoreEccFault output s
  | .takeoverArmed output gapCycles => Sys2Proof.Machine.execTakeoverArmed output gapCycles s
  | .bankSelfCheckEnd bank ok test => Sys2Proof.Machine.execBankSelfCheckEnd bank ok test s
  | .bankHoldoffExpiry bank => Sys2Proof.Machine.execBankHoldoffExpiry bank s
  | .reservoirRequestServed pc reqs ecc => Sys2Proof.Machine.execReservoirRequestServed pc reqs ecc s
  | .patrolScrub addr ecc => Sys2Proof.Machine.execPatrolScrub addr ecc s
  | .zeroFillComplete base => Sys2Proof.Machine.execZeroFillComplete base s
  | .writerPassStart handle => Sys2Proof.Machine.execWriterPassStart handle s
  | .writerLineComplete handle data ledgerEcc => Sys2Proof.Machine.execWriterLineComplete handle data ledgerEcc s
  | .lineLedgerRebuilt index => Sys2Proof.Machine.execLineLedgerRebuilt index s
  | .sluiceLaneTakeWork lane => Sys2Proof.Machine.execSluiceLaneTakeWork lane s
  | .sluiceRowComplete lane mismatch => Sys2Proof.Machine.execSluiceRowComplete lane mismatch s
  | .decodeContextSchedule core pic => Sys2Proof.Machine.execDecodeContextSchedule core pic s
  | .decodeCtuRowDone core row => Sys2Proof.Machine.execDecodeCtuRowDone core row s
  | .decodeCoreIdleTimer core => Sys2Proof.Machine.execDecodeCoreIdleTimer core s
  | .reservoirIdleTimer => Sys2Proof.Machine.execReservoirIdleTimer s
  | .encodeCoreSchedule core => Sys2Proof.Machine.execEncodeCoreSchedule core s
  | .encodeCtuRowCoded core row => Sys2Proof.Machine.execEncodeCtuRowCoded core row s
  | .ethFrameReceived port frame stamp host => Sys2Proof.Machine.execEthFrameReceived port frame stamp host s
  | .reorderHoldTimeout rule => Sys2Proof.Machine.execReorderHoldTimeout rule s
  | .rxTailDoorbell queue tail => Sys2Proof.Machine.execRxTailDoorbell queue tail s
  | .txTailDoorbell queue tail => Sys2Proof.Machine.execTxTailDoorbell queue tail s
  | .ethFrameTransmit port host => Sys2Proof.Machine.execEthFrameTransmit port host s
  | .rtpTransmitUnit stream => Sys2Proof.Machine.execRtpTransmitUnit stream s
  | .dpinHpdPulseEnd input => Sys2Proof.Machine.execDpinHpdPulseEnd input s
  | .dpinTrainingStart input => Sys2Proof.Machine.execDpinTrainingStart input s
  | .dpinTrainingEnd input result lanes rate => Sys2Proof.Machine.execDpinTrainingEnd input result lanes rate s
  | .dpinVideoChange input on => Sys2Proof.Machine.execDpinVideoChange input on s
  | .dpinFrameStart input msa => Sys2Proof.Machine.execDpinFrameStart input msa s
  | .dpinActiveLine input pixels => Sys2Proof.Machine.execDpinActiveLine input pixels s
  | .dpinLockLoss input => Sys2Proof.Machine.execDpinLockLoss input s
  | .dpinSymbolError input => Sys2Proof.Machine.execDpinSymbolError input s
  | .refMeasurementIntervalEnd entry freqPpb phase ok => Sys2Proof.Machine.execRefMeasurementIntervalEnd entry freqPpb phase ok s
  | .refLossCondition entry => Sys2Proof.Machine.execRefLossCondition entry s
  | .refQualifyTimer entry => Sys2Proof.Machine.execRefQualifyTimer entry s
  | .refDisqualifyTimer entry => Sys2Proof.Machine.execRefDisqualifyTimer entry s
  | .dpllLockComplete offset => Sys2Proof.Machine.execDpllLockComplete offset s
  | .historySecondTick freq => Sys2Proof.Machine.execHistorySecondTick freq s
  | .refoutPulse which => Sys2Proof.Machine.execRefoutPulse which s
  | .ptpDelayReqSend port => Sys2Proof.Machine.execPtpDelayReqSend port s
  | .ptpSyncTimeout port => Sys2Proof.Machine.execPtpSyncTimeout port s
  | .ptpAnnounceTimeout port => Sys2Proof.Machine.execPtpAnnounceTimeout port s
  | .ptpLockHoldLapse port => Sys2Proof.Machine.execPtpLockHoldLapse port s
  | .eventInputEdge input rising => Sys2Proof.Machine.execEventInputEdge input rising s
  | .todenHelloSend port => Sys2Proof.Machine.execTodenHelloSend port s
  | .todenHelloReceived port bits below => Sys2Proof.Machine.execTodenHelloReceived port bits below s
  | .todenHelloSilence port => Sys2Proof.Machine.execTodenHelloSilence port s
  | .todenLockLoss port => Sys2Proof.Machine.execTodenLockLoss port s
  | .todenTrainingPhaseComplete port => Sys2Proof.Machine.execTodenTrainingPhaseComplete port s
  | .todenPhaseTimeout port => Sys2Proof.Machine.execTodenPhaseTimeout port s
  | .todenBackoffExpiry port => Sys2Proof.Machine.execTodenBackoffExpiry port s
  | .todenMarkReceived port frameMark offset => Sys2Proof.Machine.execTodenMarkReceived port frameMark offset s
  | .todenEpochReceived port epoch => Sys2Proof.Machine.execTodenEpochReceived port epoch s
  | .delayMeasureSend port => Sys2Proof.Machine.execDelayMeasureSend port s
  | .delayMeasureRequest port => Sys2Proof.Machine.execDelayMeasureRequest port s
  | .delayMeasureResponse port roundTrip => Sys2Proof.Machine.execDelayMeasureResponse port roundTrip s
  | .controlMessage port bits => Sys2Proof.Machine.execControlMessage port bits s
  | .framePacket port bits => Sys2Proof.Machine.execFramePacket port bits s
  | .linePacket port bits => Sys2Proof.Machine.execLinePacket port bits s
  | .importLineComplete source => Sys2Proof.Machine.execImportLineComplete source s
  | .statePacket port bits => Sys2Proof.Machine.execStatePacket port bits s
  | .streamPacket port bits => Sys2Proof.Machine.execStreamPacket port bits s
  | .transitRingFree origin exportId => Sys2Proof.Machine.execTransitRingFree origin exportId s
  | .remoteWrite port bits => Sys2Proof.Machine.execRemoteWrite port bits s
  | .remoteRead port bits => Sys2Proof.Machine.execRemoteRead port bits s
  | .remoteData port bits => Sys2Proof.Machine.execRemoteData port bits s
  | .interruptPacket port bits => Sys2Proof.Machine.execInterruptPacket port bits s
  | .headlessDetect => Sys2Proof.Machine.execHeadlessDetect s
  | .remoteClaimLost => Sys2Proof.Machine.execRemoteClaimLost s
  | .keyScan counts => Sys2Proof.Machine.execKeyScan counts s
  | .keyMaxOnExpiry object => Sys2Proof.Machine.execKeyMaxOnExpiry object s
  | .touchAttnEdge port => Sys2Proof.Machine.execTouchAttnEdge port s
  | .touchReportRead port report attn => Sys2Proof.Machine.execTouchReportRead port report attn s
  | .touchReadTimeout port attn => Sys2Proof.Machine.execTouchReadTimeout port attn s
  | .touchAttnIdleTimeout port => Sys2Proof.Machine.execTouchAttnIdleTimeout port s
  | .hapticDrivePeriod channel resonance => Sys2Proof.Machine.execHapticDrivePeriod channel resonance s
  | .hapticFault channel cause peakMa => Sys2Proof.Machine.execHapticFault channel cause peakMa s
  | .audioSample host => Sys2Proof.Machine.execAudioSample host s
  | .audioProducedPoll host => Sys2Proof.Machine.execAudioProducedPoll host s
  | .fabricWindowAccess write offset size value => Sys2Proof.Machine.execFabricWindowAccess write offset size value s
  | .fabricWindowReadTimeout => Sys2Proof.Machine.execFabricWindowReadTimeout s
  | .fwinTimeoutClear => Sys2Proof.Machine.execFwinTimeoutClear s
  | .firqPop => Sys2Proof.Machine.execFirqPop s
  | .resetReqWrite value => Sys2Proof.Machine.execResetReqWrite value s
  | .bar2ApertureAccess write offset data => Sys2Proof.Machine.execBar2ApertureAccess write offset data s
  | .gaugeLastRead unit => Sys2Proof.Machine.execGaugeLastRead unit s
  | .registerLowerHalfRead offset => Sys2Proof.Machine.execRegisterLowerHalfRead offset s
  | .registerWrite offset size value => Sys2Proof.Machine.execRegisterWrite offset size value s
  | .debugAccess write addr data => Sys2Proof.Machine.execDebugAccess write addr data s
  | .smbStatus => Sys2Proof.Machine.execSmbStatus s
  | .smbIdent => Sys2Proof.Machine.execSmbIdent s
  | .smbTemp temps => Sys2Proof.Machine.execSmbTemp temps s
  | .smbSensors temps => Sys2Proof.Machine.execSmbSensors temps s
  | .smbVin mv => Sys2Proof.Machine.execSmbVin mv s
  | .smbIin ma => Sys2Proof.Machine.execSmbIin ma s
  | .smbPin units => Sys2Proof.Machine.execSmbPin units s
  | .smbFaultCount => Sys2Proof.Machine.execSmbFaultCount s
  | .smbFaultIndex index => Sys2Proof.Machine.execSmbFaultIndex index s
  | .smbFaultRecord => Sys2Proof.Machine.execSmbFaultRecord s
  | .smbFaultNewest => Sys2Proof.Machine.execSmbFaultNewest s
  | .smbReset value => Sys2Proof.Machine.execSmbReset value s
  | .smbAlertResponse => Sys2Proof.Machine.execSmbAlertResponse s
  | .rstNRelease => Sys2Proof.Machine.execRstNRelease s
  | .heldResetRelease temps => Sys2Proof.Machine.execHeldResetRelease temps s
  | .ethernetLinkChange port up modAbs rxLos txFault => Sys2Proof.Machine.execEthernetLinkChange port up modAbs rxLos txFault s
  | .dpinLockRegained input => Sys2Proof.Machine.execDpinLockRegained input s
  | .creditBlockReceived port credits acks => Sys2Proof.Machine.execCreditBlockReceived port credits acks s
  | .holdoffSelfCheckError bank test => Sys2Proof.Machine.execHoldoffSelfCheckError bank test s
  | .msixVectorUnmask vector => Sys2Proof.Machine.execMsixVectorUnmask vector s
  | .dbgKillFuseWrite => Sys2Proof.Machine.execDbgKillFuseWrite s
  | .pcieLoopbackEntry => Sys2Proof.Machine.execPcieLoopbackEntry s
  | .pcieLoopbackExit => Sys2Proof.Machine.execPcieLoopbackExit s

end Sys2Proof.Machine
end

