-- ==== Sys2Proof/Safety.lean ====
section
/-! DEFINITION. The terms in which the claims speak: canonical memory, a command that is ready to run, and what replies, events and denials leave alone. -/
namespace Sys2Proof.Machine
open Sys2Proof

/-- The store's memory has its one canonical form: addresses rise, and no listed byte is what an unlisted address reads as. -/
abbrev Memory.wf (m : List (Nat × Byte)) : Prop := tabWf 0 m = true

/-- The state without what replies, events, interrupts and recorded denials change: rings, outputs, pending vectors, store bytes and their poison, the violation record, counters, and what the fabric ports and the route count hold for packets sent. -/
def quiet (s : State) : State :=
  { s with
    rings := [], out := []
    regs := { s.regs with msixPending := [] }
    store := { s.store with mem := [], poison := [], poisonSeen := [] }
    weir := { s.weir with violation := none }
    boot := { s.boot with counters := [] }
    fabric := { s.fabric with ports := [], noRoute := 0 } }

/-- What replies, events and interrupts leave alone of a slice's rings: submission rings, held packets, heads, places and sizes. -/
def ringFixed (r : SliceRings) : SliceRings :=
  { sq := r.sq, held := r.held, wbSpace := r.wbSpace, wbAddr := r.wbAddr
    rq := { r.rq with tail := 0, enable := false, error := false, irqPending := false, holdRunning := false, holdAt := 0 }
    eq := { r.eq with tail := 0, enable := false, error := false, irqPending := false, holdRunning := false, holdAt := 0 } }

/-- A byte of the store lies in a reply ring, an event ring or a writeback block of some slice (R61, R63). -/
def ringByte (s : State) (a : Nat) : Prop :=
  ∃ j, let r := getRings s j
    (r.rq.space = true ∧ r.rq.base * 4096 ≤ a ∧ a < r.rq.base * 4096 + 2 ^ r.rq.sizeLog2 * 32) ∨
    (r.eq.space = true ∧ r.eq.base * 4096 ≤ a ∧ a < r.eq.base * 4096 + 2 ^ r.eq.sizeLog2 * 32) ∨
    (r.wbSpace = true ∧ r.wbAddr ≤ a ∧ a < r.wbAddr + 64)

/-- The Weir allows a slice's host write of n bytes at an address while surface i is being written, whatever its FRONTIER (R366). -/
def writable (s : State) (i slice a n : Nat) : Prop :=
  weirDenied s slice engHost true a n = none ∧ ∀ f, weirDenied (modSurf s i fun x => { x with frontier := f }) slice engHost true a n = none

/-- Outside the rings and writeback blocks every byte of the store reads in t as in e. -/
def sameBytes (t e : State) : Prop := ∀ a, ¬ ringByte e a → readByte t a = readByte e a

/-- The key of the held packet that a packet row names. -/
def Cmd.key (c : Cmd) : CmdKey := ⟨c.slice, c.ring, c.index⟩

/-- The packet that c names is held as h, taken and alone; it has the opcode, and the opcode's executor runs (R68, R73). -/
abbrev Ready (s : State) (c : Cmd) (op : Nat) (h : Held) : Prop :=
  findHeld s (Cmd.key c) = some h ∧ h.slice = c.slice ∧ h.phase = .taken ∧ h.len = 1 ∧ pktOpcode h.pkt = op ∧ executorRuns s op = true

/-- As Ready, with a packet that is not timed. -/
abbrev ReadyNow (s : State) (c : Cmd) (op : Nat) (h : Held) : Prop := Ready s c op h ∧ pktTimed h.pkt = false

/-- The packet that c names is finished in t: it is held no more. -/
abbrev Finished (t : State) (c : Cmd) : Prop := findHeld t (Cmd.key c) = none

/-- The reply to h of status, WP_DONE and detail has been written or waits for its ring; a queue engine's ST_OK without REPLY_ALWAYS is silent (R69, R76). -/
def Replied (t : State) (h : Held) (st : Status) (wp detail : Nat) : Prop :=
  (opIsQe (pktOpcode h.pkt) = true ∧ st = .ok ∧ pktReplyAlways h.pkt = false) ∨
  (∃ pasid space addr, Output.reply h.slice pasid space addr (mkReply h st wp detail) ∈ t.out) ∨
  mkReply h st wp detail ∈ (getRings t h.slice).waiting

/-- The command runs and leaves a state of which P holds. -/
def Runs (i : Instr) (s : State) (P : State → Prop) : Prop := ∃ t, exec i s = .next t ∧ P t

/-- The packet c names is finished with this reply; everything that quiet keeps, what is fixed of other slices' rings, and every byte of the store outside the rings is as in e. -/
def Answers (i : Instr) (s : State) (c : Cmd) (h : Held) (st : Status) (wp : Nat) (detail : List Field) (e : State) : Prop :=
  Runs i s fun t => Finished t c ∧ Replied t h st wp (packFields detail) ∧ quiet t = quiet e ∧
    (∀ j, j ≠ c.slice → ringFixed (getRings t j) = ringFixed (getRings e j)) ∧ sameBytes t e

/-- The packet c names has replied ST_DEFERRED and stays held for its final reply; all else is as in e (R77). -/
def Defers (i : Instr) (s : State) (c : Cmd) (h : Held) (detail : List Field) (e : State) : Prop :=
  Runs i s fun t => findHeld t (Cmd.key c) = some { h with phase := .deferred } ∧
    Replied t h .deferred (nowBits e) (packFields detail) ∧ quiet t = quiet e ∧
    (∀ j, j ≠ c.slice → ringFixed (getRings t j) = ringFixed (getRings e j)) ∧ sameBytes t e

/-- The packet c names is past its commit point, its one reply still to come; all else is as in e (R74). -/
def Holds (i : Instr) (s : State) (c : Cmd) (h : Held) (e : State) : Prop :=
  Runs i s fun t => findHeld t (Cmd.key c) = some { h with phase := .committed } ∧ t.out = e.out ∧ t.store = e.store ∧
    quiet t = quiet e ∧ ∀ j, j ≠ c.slice → getRings t j = getRings e j

/-- The command runs and leaves e, up to the events and interrupts it raises. -/
def Leaves (i : Instr) (s e : State) : Prop :=
  Runs i s fun t => quiet t = quiet e ∧ (∀ j, ringFixed (getRings t j) = ringFixed (getRings e j)) ∧ sameBytes t e

/-- The command runs and leaves exactly e. -/
def Becomes (i : Instr) (s e : State) : Prop := exec i s = .next e

/-- s with a fault record added and the alert asserted; its EV_FAULT posted, or still to come (R437). -/
def faulted (s : State) (kind unit detail : Nat) (posted : Bool) : State :=
  let full := 64 ≤ s.boot.faults.length
  let ow := if full then satAdd 16 s.boot.overwritten 1 else s.boot.overwritten
  let f : FaultRec := ⟨kind, unit, s.boot.nextSeq, nowBits s, s.boot.resets, uptimeMs s, detail, ow⟩
  { s with
    smb := { s.smb with alert := true }
    boot := { s.boot with
      faults := (if full then s.boot.faults.drop 1 else s.boot.faults) ++ [f]
      nextSeq := (s.boot.nextSeq + 1) % 2 ^ 32
      overwritten := ow
      unposted := if posted then s.boot.unposted else s.boot.unposted ++ [s.boot.nextSeq] } }

/-- What every step keeps: the store's memory is in its canonical form. -/
abbrev MemInv (s : State) : Prop := Memory.wf s.store.mem

/-- A row of the table that runs a packet: its opcode, which packets of it are its own, its checks at step 8 of R68, and the row. -/
structure PacketRow where
  op : Nat
  form : Held → Bool
  check : State → Held → Cmd → Option Fail
  row : Cmd → Instr

/-- The rows of opcodes marked T in R83, but for COMMIT. -/
def timedRows : List PacketRow :=
  [⟨0x302, fun _ => true, checkOutputEnable, .outputEnable⟩,
   ⟨0x303, fun _ => true, checkOutputDisable, .outputDisable⟩,
   ⟨0x304, fun h => pf h.pkt 17 0 2 == 0, checkRectSet, .rectCheckSetSet⟩,
   ⟨0x304, fun h => pf h.pkt 17 0 2 == 1, checkRectOther, .rectCheckSetRemove⟩,
   ⟨0x304, fun h => pf h.pkt 17 0 2 == 2, checkRectOther, .rectCheckSetRearm⟩,
   ⟨0x304, fun h => pf h.pkt 17 0 2 == 3, checkRectOther, .rectCheckSetRead⟩,
   ⟨0x306, fun _ => true, checkBankRehearse, .bankRehearse⟩,
   ⟨0x307, fun _ => true, checkBankAssign, .bankAssign⟩,
   ⟨0x502, fun _ => true, checkEncodeSetRate, .encodeSetRate⟩,
   ⟨0x503, fun _ => true, checkKeyPicture, .keyPicture⟩,
   ⟨0x601, fun _ => true, checkLivenessSet, .livenessSet⟩,
   ⟨0x604, fun _ => true, checkTreatmentAssets, .treatmentAssets⟩,
   ⟨0x703, fun _ => true, checkTiming, .wallTimingSet⟩,
   ⟨0x704, fun h => realignMode h.pkt == 0 || realignMode h.pkt == 3, checkRealign, .realignJump⟩,
   ⟨0x704, fun h => realignMode h.pkt == 1, checkRealign, .realignSlew⟩,
   ⟨0x704, fun h => realignMode h.pkt == 2, checkRealign, .realignCancel⟩,
   ⟨0x904, fun _ => true, checkHapticPlay, .hapticPlay⟩,
   ⟨0x906, fun _ => true, checkTonePlay, .tonePlay⟩,
   ⟨0xC03, fun _ => true, checkSetShare, .sliceSetShare⟩]

/-- Rows of opcodes not marked T, and COMMIT: the store, composition, outputs and sources. -/
def storeRows : List PacketRow :=
  [⟨0x000, fun _ => true, checkNop, .nop⟩,
   ⟨0x101, fun _ => true, checkSurfaceAlloc, .surfaceAlloc⟩,
   ⟨0x102, fun _ => true, checkSurfaceRelease, .surfaceRelease⟩,
   ⟨0x104, fun _ => true, checkSurfaceRead, .surfaceRead⟩,
   ⟨0x105, fun _ => true, checkSurfaceFence, .surfaceFence⟩,
   ⟨0x106, fun _ => true, checkPaletteLoad, .paletteLoad⟩,
   ⟨0x201, fun _ => true, checkLayerSet, .layerSet⟩,
   ⟨0x202, fun _ => true, checkLayerClear, .layerClear⟩,
   ⟨0x203, fun _ => true, checkCommit, .commit⟩,
   ⟨0x204, fun _ => true, checkGroupDefine, .commitGroupDefine⟩,
   ⟨0x205, fun _ => true, checkCoeffLoad, .coeffLoad⟩,
   ⟨0x301, fun _ => true, checkOutputConfigure, .outputConfigure⟩,
   ⟨0x305, fun _ => true, checkSelfRefresh, .selfRefreshRequest⟩,
   ⟨0x401, fun _ => true, checkSourceAttach, .sourceAttach⟩,
   ⟨0x402, fun _ => true, checkSourceDetach, .sourceDetach⟩,
   ⟨0x403, fun h => flowOp h.pkt == 0 || decide (4 < flowOp h.pkt), checkFlowPort, .flowSetPort⟩,
   ⟨0x403, fun h => flowOp h.pkt == 1, checkFlowRule, .flowSetRule⟩,
   ⟨0x403, fun h => flowOp h.pkt == 2, checkFlowBind, .flowSetBind⟩,
   ⟨0x403, fun h => flowOp h.pkt == 3, checkFlowQueue, .flowSetQueue⟩,
   ⟨0x403, fun h => flowOp h.pkt == 4, checkFlowTransmit, .flowSetTransmit⟩,
   ⟨0x404, fun _ => true, checkDpin, .dpinConfigure⟩,
   ⟨0x405, fun _ => true, checkDecodeStatus, .decodeStatus⟩,
   ⟨0x501, fun _ => true, checkEncodeOpen, .encodeOpen⟩,
   ⟨0x504, fun _ => true, checkEncodeClose, .encodeClose⟩]

/-- Rows of opcodes not marked T: liveness, time, fabric, lanes and operator I/O. -/
def timeRows : List PacketRow :=
  [⟨0x602, fun _ => true, checkHeartbeat, .heartbeat⟩,
   ⟨0x603, fun _ => true, checkLedgerRead, .ledgerRead⟩,
   ⟨0x701, fun h => pf h.pkt 16 0 2 != 1, checkRefEntry, .refTableSetEntry⟩,
   ⟨0x701, fun h => pf h.pkt 16 0 2 == 1, checkRefOutputs, .refTableSetOutputs⟩,
   ⟨0x702, fun _ => true, checkStatusDest, .refStatus⟩,
   ⟨0x705, fun h => pf h.pkt 16 0 2 != 1, checkPtpPort, .ptpPortSetPort⟩,
   ⟨0x705, fun h => pf h.pkt 16 0 2 == 1, checkPtpEvent, .ptpPortSetEvent⟩,
   ⟨0x706, fun _ => true, checkStampRead, .eventStampRead⟩,
   ⟨0x707, fun _ => true, checkTimeStep, .timeStep⟩,
   ⟨0x708, fun _ => true, checkTimeRate, .timeRateAdjust⟩,
   ⟨0x801, fun _ => true, checkStatusDest, .fabricStatus⟩,
   ⟨0x802, fun _ => true, checkRouteSet, .fabricRouteSet⟩,
   ⟨0x803, fun _ => true, checkExport, .fabricExport⟩,
   ⟨0x804, fun _ => true, checkImport, .fabricImport⟩,
   ⟨0x805, fun _ => true, checkEyeScan, .laneEyeScan⟩,
   ⟨0x806, fun h => portOp h.pkt == 0, checkPortControl, .portControlEnable⟩,
   ⟨0x806, fun h => portOp h.pkt == 1, checkPortControl, .portControlDisable⟩,
   ⟨0x806, fun h => portOp h.pkt == 2, checkPortControl, .portControlReset⟩,
   ⟨0x806, fun h => portOp h.pkt == 3, checkPortControl, .portControlPreset⟩,
   ⟨0x901, fun _ => true, checkKeys, .keysConfigure⟩,
   ⟨0x902, fun _ => true, checkSelftest, .keySelftest⟩,
   ⟨0x903, fun _ => true, checkTouchPortSet, .touchPortSet⟩,
   ⟨0x905, fun h => audioOp h.pkt == 0, checkAudioStreamSet, .audioStreamSetOpen⟩,
   ⟨0x905, fun h => audioOp h.pkt == 1, checkAudioStreamSet, .audioStreamSetClose⟩,
   ⟨0x905, fun h => audioOp h.pkt == 2, checkAudioStreamSet, .audioStreamSetGain⟩,
   ⟨0x905, fun h => audioOp h.pkt == 3, checkAudioStreamSet, .audioStreamSetGlobal⟩,
   ⟨0x907, fun _ => true, checkHapticConfigure, .hapticConfigure⟩]

/-- Rows of opcodes not marked T: service, the Weir, slices and firmware. -/
def serviceRows : List PacketRow :=
  [⟨0xA01, fun _ => true, checkGaugeSet, .gaugeSet⟩,
   ⟨0xA02, fun _ => true, checkGaugeRead, .gaugeRead⟩,
   ⟨0xA03, fun _ => true, checkCounters, .countersRead⟩,
   ⟨0xA04, fun _ => true, checkFaultRead, .faultRead⟩,
   ⟨0xA05, fun _ => true, checkFaultClear, .faultClear⟩,
   ⟨0xB01, fun h => !pb h.pkt 20 0, checkRuleSet, .weirRuleSetWrite⟩,
   ⟨0xB01, fun h => pb h.pkt 20 0, checkRuleSet, .weirRuleSetRead⟩,
   ⟨0xB02, fun _ => true, checkNoParams, .weirBarrier⟩,
   ⟨0xB03, fun _ => true, checkViolationRead, .weirViolationRead⟩,
   ⟨0xB04, fun _ => true, checkViolationClear, .weirViolationClear⟩,
   ⟨0xB05, fun _ => true, checkWeirLock, .weirLock⟩,
   ⟨0xC01, fun _ => true, checkSliceCreate, .sliceCreate⟩,
   ⟨0xC02, fun _ => true, checkBindPasid, .sliceBindPasid⟩,
   ⟨0xC04, fun _ => true, checkQuiesce, .sliceQuiesce⟩,
   ⟨0xC05, fun _ => true, checkSliceEnd [.quiesced, .frozen], .sliceReset⟩,
   ⟨0xC06, fun _ => true, checkSliceEnd [.created, .quiesced, .frozen], .sliceDestroy⟩,
   ⟨0xC07, fun _ => true, checkFreeze, .sliceFreeze⟩,
   ⟨0xC08, fun _ => true, checkSliceSave, .sliceSave⟩,
   ⟨0xC09, fun _ => true, checkSliceRestore, .sliceRestore⟩,
   ⟨0xC0A, fun _ => true, checkThaw, .sliceThaw⟩,
   ⟨0xC0B, fun _ => true, checkQuery, .sliceQuery⟩,
   ⟨0xF01, fun _ => true, checkFwStage, .fwStage⟩,
   ⟨0xF02, fun _ => true, checkFwVerify, .fwVerify⟩,
   ⟨0xF03, fun _ => true, checkFwActivate, .fwActivate⟩,
   ⟨0xF04, fun _ => true, checkDeviceReset, .deviceReset⟩,
   ⟨0xF05, fun _ => true, checkReinit, .engineReinit⟩,
   ⟨0xF06, fun _ => true, checkStatusDest, .identify⟩]

end Sys2Proof.Machine
end

