-- ==== Sys2Proof/Certificates/Slice0/Obligations.lean ====
section
/-! DEFINITION. What is claimed of the model, for the provers: one definition per claim. -/


open Sys2Proof Sys2Proof.Machine

/-- A command at the front of the queue is what a step runs, on the queue's rest; with none waiting, a step is one tick of time (log entry 8). -/
def Obligations.StepRunsTheFrontCommand : Prop :=
  (∀ (s : State) (i : Instr) (rest : List Instr), s.pending = i :: rest → step s = exec i { s with pending := rest }) ∧
  (∀ s : State, s.pending = [] → step s = .next (idle s))

/-- R59, R60: ENABLE written 1 on a stopped ring starts it with HEAD and TAIL 0 and an empty tag window; while ENABLE is 1, SPACE, SIZE_LOG2 and the ring's place stay.  Writing ERROR clears it. R60: ENABLE written 1 on a ring of a slice in state CREATED leaves ENABLE 0 and sets ERROR. -/
def Obligations.RingsEnabled : Prop :=
  (∀ (s : State) (i k v : Nat), pageOpen s i = true → k < 4 → ringsAllowed s i = true → sizeOk (bitsAt v 2 5) = true → bitAt v 0 = true →
    (tget {} (getRings s i).sq k).enable = false →
    Runs (.ringEnableWrite i k v) s fun t => quiet t = quiet s ∧ t.out = s.out ∧ t.store = s.store ∧
      (let q := tget {} (getRings s i).sq k; let q' := tget {} (getRings t i).sq k
       q'.enable = true ∧ q'.head = 0 ∧ q'.tail = 0 ∧ q'.tags = [] ∧ q'.space = bitAt v 1 ∧ q'.sizeLog2 = bitsAt v 2 5 ∧ q'.base = q.base) ∧
      (∀ j m, (j, m) ≠ (i, k) → tget {} (getRings t j).sq m = tget {} (getRings s j).sq m)) ∧
  (∀ (s : State) (i v : Nat), pageOpen s i = true → ringsAllowed s i = true → sizeOk (bitsAt v 2 5) = true → bitAt v 0 = true →
    (getRings s i).rq.enable = false → (getRings s i).waiting = [] →
    Runs (.ringEnableWrite i 4 v) s fun t => quiet t = quiet s ∧ t.out = s.out ∧ t.store = s.store ∧
      (let q := (getRings t i).rq
       q.enable = true ∧ q.head = 0 ∧ q.tail = 0 ∧ q.space = bitAt v 1 ∧ q.sizeLog2 = bitsAt v 2 5 ∧ q.base = (getRings s i).rq.base ∧
       q.vector = bitsAt v 8 4 ∧ q.holdoff = bitsAt v 16 8) ∧
      (∀ j, (getRings t j).sq = (getRings s j).sq ∧ (getRings t j).eq = (getRings s j).eq ∧ (getRings t j).held = (getRings s j).held)) ∧
  (∀ (s : State) (i v : Nat), pageOpen s i = true → ringsAllowed s i = true → sizeOk (bitsAt v 2 5) = true → bitAt v 0 = true →
    (getRings s i).eq.enable = false → (getRings s i).lost = 0 →
    ringDenied s i (bitAt v 1) ((getRings s i).eq.base * 4096) 32 = none →
    ((getRings s i).wbEnable = true → ringDenied s i (getRings s i).wbSpace (getRings s i).wbAddr 64 = none) →
    Runs (.ringEnableWrite i 5 v) s fun t => quiet t = quiet s ∧ t.out = s.out ∧ t.store = s.store ∧
      (let q := (getRings t i).eq
       q.enable = true ∧ q.head = 0 ∧ q.tail = 0 ∧ q.space = bitAt v 1 ∧ q.sizeLog2 = bitsAt v 2 5 ∧ q.base = (getRings s i).eq.base ∧
       q.vector = bitsAt v 8 4 ∧ q.holdoff = bitsAt v 16 8) ∧
      (∀ j, (getRings t j).sq = (getRings s j).sq ∧ (getRings t j).rq = (getRings s j).rq ∧ (getRings t j).held = (getRings s j).held)) ∧
  (∀ (s : State) (i k v : Nat), pageOpen s i = true → k < 4 → (tget {} (getRings s i).sq k).enable = true →
    Runs (.ringEnableWrite i k v) s fun t => quiet t = quiet s ∧ t.out = s.out ∧ t.store = s.store ∧
      (let q := tget {} (getRings s i).sq k; let q' := tget {} (getRings t i).sq k
       q' = { q with enable := bitAt v 0, error := q.error && !bitAt v 7 })) ∧
  (∀ (s : State) (i k : Nat), pageOpen s i = true → k < 4 →
    Runs (.ringErrorClear i k) s fun t => quiet t = quiet s ∧ t.out = s.out ∧ t.store = s.store ∧
      tget {} (getRings t i).sq k = { tget {} (getRings s i).sq k with error := false } ∧
      (∀ j m, (j, m) ≠ (i, k) → tget {} (getRings t j).sq m = tget {} (getRings s j).sq m)) ∧
  (∀ (s : State) (i k v : Nat), pageOpen s i = true → k < 4 → i ≠ 0 → (getSlice s i).state = .created → bitAt v 0 = true →
     (tget {} (getRings s i).sq k).enable = false →
     Runs (.ringEnableWrite i k v) s fun t => quiet t = quiet s ∧
       (tget {} (getRings t i).sq k).enable = false ∧ (tget {} (getRings t i).sq k).error = true)

/-- R62, R77, R80, R63: a doorbell within the ring's size announces packets; one beyond it, or before HEAD, is ignored; the heads of the reply and event rings move as written; the end of an interval raises an interrupt that waits. -/
def Obligations.RingDoorbells : Prop :=
  (∀ (s : State) (i k n : Nat), pageOpen s i = true → k < 4 →
    (BitVec.ofNat 32 n - (tget {} (getRings s i).sq k).head).toNat ≤ 2 ^ (tget {} (getRings s i).sq k).sizeLog2 →
    Runs (.sqTailDoorbell i k n) s fun t => quiet t = quiet s ∧ t.out = s.out ∧ t.store = s.store ∧
      (let q := tget {} (getRings s i).sq k
       tget {} (getRings t i).sq k = { q with tail := BitVec.ofNat 32 n, ahead := q.ahead.take (BitVec.ofNat 32 n - q.head).toNat }) ∧
      (∀ j m, (j, m) ≠ (i, k) → tget {} (getRings t j).sq m = tget {} (getRings s j).sq m)) ∧
  (∀ (s : State) (i k n : Nat), pageOpen s i = true → k < 4 →
    2 ^ (tget {} (getRings s i).sq k).sizeLog2 < (BitVec.ofNat 32 n - (tget {} (getRings s i).sq k).head).toNat →
    Runs (.sqTailDoorbell i k n) s fun t => quiet t = quiet s ∧ ∀ j, (getRings t j).sq = (getRings s j).sq) ∧
  (∀ (s : State) (i n : Nat), pageOpen s i = true →
    Runs (.rqHeadWrite i n) s fun t => quiet t = quiet s ∧ (getRings t i).rq.head = BitVec.ofNat 32 n ∧
      ∀ j, (getRings t j).sq = (getRings s j).sq ∧ (getRings t j).held = (getRings s j).held ∧ (getRings t j).eq.head = (getRings s j).eq.head) ∧
  (∀ (s : State) (i n : Nat), pageOpen s i = true →
    Runs (.eqHeadWrite i n) s fun t => (getRings t i).eq.head = BitVec.ofNat 32 n ∧
      ∀ j, (getRings t j).sq = (getRings s j).sq ∧ (getRings t j).held = (getRings s j).held ∧ (getRings t j).rq.head = (getRings s j).rq.head) ∧
  (∀ (s : State) (i : Nat), (getRings s i).rq.holdRunning = true → (getRings s i).rq.irqPending = true → (getRings s i).rq.holdoff ≠ 0 →
    s.regs.headless = false → s.regs.loopback = false →
    passed s (getRings s i).rq.holdAt (1000 * (getRings s i).rq.holdoff) = true →
    tget false s.regs.unmasked (msixEntry i (getRings s i).rq.vector) = true →
    Runs (.interruptHoldoffExpiry i 4) s fun t => t.out = s.out ++ [.msix (msixEntry i (getRings s i).rq.vector)] ∧ quiet t = quiet s ∧
      t.store = s.store ∧ getRings t i = { getRings s i with rq := { (getRings s i).rq with irqPending := false, holdAt := upTime s } }) ∧
  (∀ (s : State) (i : Nat), (getRings s i).eq.holdRunning = true → (getRings s i).eq.irqPending = false →
    passed s (getRings s i).eq.holdAt (1000 * (getRings s i).eq.holdoff) = true →
    Runs (.interruptHoldoffExpiry i 5) s fun t => t.out = s.out ∧ quiet t = quiet s ∧ t.store = s.store ∧
      getRings t i = { getRings s i with eq := { (getRings s i).eq with holdRunning := false } })

/-- R68, R75, R78, R91: the packet that a slice's rings give next, when it passes the checks of R68, is held and recorded in its ring's tag window, HEAD moves past it, and it is counted against the slice's command rate. Where the spec leaves a point open, the model's choice of log entries 10 and 25 holds. -/
def Obligations.PacketFetchTakes : Prop :=
  ∀ (s : State) (i k : Nat) (host : List HostEntry) (ios : List Cmd) (raw : Packet) (row : OpRow),
    waitingGroup s i = none → canTake s i 1 = true → sliceTurn s i = true → pickFrom s i host [0, 1, 2, 3] = .take k [raw] →
    inRange (pktLength raw) 16 64 = true → pf raw 3 0 8 = 0 → opRow (pktOpcode (maskPacket raw)) = some row →
    s.boot.state ≠ .deviceFault → tagCheck s i k (maskPacket raw) = none → (row.manager = true → i = 0) →
    flagsOk s row (pktTimed (maskPacket raw)) (pktDue (maskPacket raw)) = true →
    (getRings s i).held.length < (getSlice s i).share.queueLimit →
    Runs (.packetFetch i host [] ios) s fun t =>
      (let q := tget {} (getRings s i).sq k; let q' := tget {} (getRings t i).sq k; let p := maskPacket raw
       q'.head = q.head + 1 ∧ q'.tail = q.tail ∧ q'.count = q.count + 1 ∧ q'.ahead = q.ahead.drop 1 ∧
       q'.tags = (({ tag := pktTag p, opcode := pktOpcode p, crc := pktCrc p } : TagRec) :: q.tags).take 256 ∧
       (getRings t i).held = (getRings s i).held ++ [{ slice := i, ring := k, index := q.count, pkt := p, taken := now s, pos := 0, len := 1 }]) ∧
      quiet t = quiet (modSlice { s with intakeLast := tset 64 s.intakeLast (clsCode (getSlice s i).cls) i } i fun x => { x with taken := x.taken + 1 }) ∧
      ∀ j, j ≠ i → ringFixed (getRings t j) = ringFixed (getRings s j)

/-- R43, R70, R72: an armed command acts once its WP has come, with the effect its own row gives it, and the members of an armed group act together; before that, or while its executor does not run, nothing happens. So ARMED_COMMAND_ACTS completes for an armed HAPTIC_PLAY, KEY_PICTURE or LIVENESS_SET as its row says. Where the spec leaves a point open, the model's choice of log entry 2 holds. -/
def Obligations.ArmedCommandActs : Prop :=
  (∀ (s : State) (c : Cmd) (h : Held) (m : Meaning), findHeld s (Cmd.key c) = some h → h.phase = .armed → h.pos = 0 → h.len = 1 →
    pktOpcode h.pkt ≠ 0x203 → wpReached (now s) (actsAt h) = true → executorRuns s (pktOpcode h.pkt) = true → meaningOf h.pkt = some m →
    Becomes (.armedCommandActs c) s (m.act s h c)) ∧
  (∀ (s : State) (c : Cmd) (h : Held), findHeld s (Cmd.key c) = some h → h.phase = .armed → h.pos = 0 → h.len ≠ 1 →
    pktOpcode h.pkt ≠ 0x203 → wpReached (now s) (actsAt h) = true → executorRuns s (pktOpcode h.pkt) = true →
    Becomes (.armedCommandActs c) s (forEach (groupOf s h) (fun m s => actArmed m (if heldKey m = heldKey h then c else ioOf [] m) s) s)) ∧
  (∀ (s : State) (c : Cmd) (h : Held), findHeld s (Cmd.key c) = some h →
    (h.phase ≠ .armed ∨ h.pos ≠ 0 ∨ wpReached (now s) (actsAt h) = false ∨ executorRuns s (pktOpcode h.pkt) = false) →
    Becomes (.armedCommandActs c) s s) ∧
  (∀ (s : State) (c : Cmd) (h : Held), findHeld s (Cmd.key c) = some h → h.slice = c.slice → h.phase = .armed → h.pos = 0 → h.len = 1 →
    wpReached (now s) h.due = true → executorRuns s (pktOpcode h.pkt) = true →
    (pktOpcode h.pkt = 0x904 → Answers (.armedCommandActs c) s c h .ok (nowBits s) []
      (forEach (playChannels h.pkt) (fun k s => modHap s k fun x => { x with
        next := x.next ++ [{ stop := pb h.pkt 17 6, wave := pf h.pkt 17 0 6, gain := pf h.pkt 18 0 8, due := some h.due }] }) s)) ∧
    (pktOpcode h.pkt = 0x503 → Holds (.armedCommandActs c) s c h
      (modSession s (pf h.pkt 16 0 4) fun x => { x with keyReqs := x.keyReqs ++ [(Cmd.key c, none)] })) ∧
    (pktOpcode h.pkt = 0x601 → Holds (.armedCommandActs c) s c h { s with ledger := { s.ledger with sets := s.ledger.sets ++
      [{ key := (c.slice, c.ring, c.index), pkt := h.pkt, after := if wpLater h.due h.taken then h.due else now s }] } }))

/-- R109, R111, R112, R129: SURFACE_ALLOC places a surface on a free index and a free range of granules, at PASS 0 and FRONTIER 0, and replies its handle, pitch and address. R110, R121, R124: SURFACE_RELEASE bumps the generation; it frees the storage at once when nothing latches it, otherwise it defers until a wall frame boundary, and freed storage waits for its zero-fill. Where the spec leaves a point open, the model's choice of log entry 7 holds. -/
def Obligations.SurfaceStorage : Prop :=
  (∀ (s : State) (c : Cmd) (h : Held), ReadyNow s c 0x101 h → checkSurfaceAlloc s h c = none →
     ∃ i g, i < 16384 ∧ (getSurf s i).used = false ∧ rangeFree s g (allocSize h.pkt).2 = true ∧
       Answers (.surfaceAlloc c) s c h .ok (nowBits s)
         [fAt 16 0 32 (i + (getSurf s i).gen * 2 ^ 14 + h.slice * 2 ^ 25), fAt 20 0 32 (allocSize h.pkt).1, fAt 24 0 64 (g * 65536)]
         (modSurf s i fun o =>
           { used := true, gen := o.gen, owner := h.slice, format := pf h.pkt 16 0 8, width := pf h.pkt 18 0 14, height := pf h.pkt 20 0 14,
             pitch := (allocSize h.pkt).1, base := g * 65536, granules := (allocSize h.pkt).2, length := pf h.pkt 28 0 32 })) ∧
  (∀ (s : State) (c : Cmd) (h : Held), ReadyNow s c 0x102 h → checkSurfaceRelease s h c = none →
    let i := handleIndex (pf h.pkt 16 0 32)
    releaseReady s i = true →
    Runs (.surfaceRelease c) s fun t => Finished t c ∧ Replied t h .ok (nowBits s) (packFields [fAt 16 0 64 (nowBits s)]) ∧ sameBytes t s ∧
      getSurf t i = { gen := nextGen (getSurf s i).gen } ∧ (∀ j, j ≠ i → getSurf t j = getSurf s j) ∧
      t.store.fills = s.store.fills ++ [{ base := (getSurf s i).base, granules := (getSurf s i).granules, owner := (getSurf s i).owner }] ∧
      t.slices = s.slices ∧ t.ledger = s.ledger ∧ t.comp.slots = s.comp.slots ∧ t.scan = s.scan) ∧
  (∀ (s : State) (c : Cmd) (h : Held), ReadyNow s c 0x102 h → checkSurfaceRelease s h c = none →
    let i := handleIndex (pf h.pkt 16 0 32)
    releaseReady s i = false →
    Runs (.surfaceRelease c) s fun t =>
      getSurf t i = { getSurf s i with gen := nextGen (getSurf s i).gen, releasePending := true, relKey := some (Cmd.key c), relHandle := pf h.pkt 16 0 32 } ∧
      (∀ j, j ≠ i → getSurf t j = getSurf s j) ∧ t.store.fills = s.store.fills ∧ sameBytes t s ∧
      Replied t h .deferred (nowBits s) (packFields [fAt 16 0 64 0xFFFFFFFFFFFFFFFF, fAt 24 0 16 (latchCount s i)])) ∧
  (∀ (s : State) (hd : Nat),
    let i := handleIndex hd
    let x := getSurf s i
    x.used = true → x.releasePending = true → x.relHandle = hd → releaseReady s i = true → (now s).line = 0 → x.relKey = none →
    Leaves (.surfaceReleaseComplete hd) s
      { s with store := { s.store with
          surfs := tset {} s.store.surfs i { gen := x.gen }
          fills := s.store.fills ++ [{ base := x.base, granules := x.granules, owner := x.owner }] } }) ∧
  (∀ (s : State) (hd : Nat) (c : Cmd) (h : Held),
    let i := handleIndex hd
    let x := getSurf s i
    x.used = true → x.releasePending = true → x.relHandle = hd → releaseReady s i = true → (now s).line = 0 →
    x.relKey = some (Cmd.key c) → findHeld s (Cmd.key c) = some h → h.slice = c.slice →
    Answers (.surfaceReleaseComplete hd) s c h .ok (nowBits s) [fAt 16 0 64 (nowBits s)]
      { s with store := { s.store with
          surfs := tset {} s.store.surfs i { gen := x.gen }
          fills := s.store.fills ++ [{ base := x.base, granules := x.granules, owner := x.owner }] } }) ∧
  (∀ (s : State) (f : FillJob), s.store.fills.find? (fun g => g.base == f.base) = some f →
    Runs (.zeroFillComplete f.base) s fun t =>
      (∀ a, f.base ≤ a → a < f.base + f.granules * 65536 → readByte t a = 0) ∧
      (∀ a, a < f.base ∨ f.base + f.granules * 65536 ≤ a → readByte t a = readByte s a) ∧
      t.store.fills = s.store.fills.filter (fun g => g.base != f.base) ∧ t.out = s.out ∧ t.rings = s.rings ∧
      quiet t = quiet { s with store := { s.store with fills := s.store.fills.filter fun g => g.base != f.base } })

/-- R116, R131: SURFACE_WRITE of whole lines from host memory stores each at its line's address, advances FRONTIER past them, starts a pass when asked, and writes no other byte. R132, R139: SURFACE_READ copies lines to host memory and PALETTE_LOAD reads entries from it; neither changes the surface. Where the spec leaves a point open, the model's choice of log entries 6 and 29 holds. -/
def Obligations.SurfaceCopies : Prop :=
  (∀ (s : State) (c : Cmd) (h : Held) (x : Surface), ReadyNow s c 0x103 h → checkSurfaceWrite s h c = none →
     let hd := pf h.pkt 16 0 32; let i := handleIndex hd; let first := pf h.pkt 20 0 32; let count := pf h.pkt 24 0 32
     let sz := lineSize x.format x.width
     let at_ := fun k : Nat => x.base + (first + k) * x.pitch
     lookup s hd = some x → x.format ≠ 0 → formatCompressed x.format = false → formatTwoPlane x.format = false →
     pb h.pkt 28 1 = false → pb h.pkt 28 2 = false → c.ok = true → c.data.length = count * sz → c.obs = [] →
     x.rebuilding = false → (s.sluice.writes.any fun j => j.surf == i) = false →
     writerBlocked s i (writePass x h.pkt) first (first + count - 1) = false →
     (∀ k, k < count → writable (if pb h.pkt 28 0 then beginPass s i else s) i h.slice (at_ k) sz) →
     (∀ u, u < 8 → (tget {} s.gauge.units u).enable = false) →
     roundUp sz 256 ≤ x.pitch → x.base + (first + count) * x.pitch ≤ storeEnd →
     Runs (.surfaceWrite c) s fun t => Finished t c ∧
       Replied t h .ok (nowBits s) (packFields [fAt 16 0 32 (first + count), fAt 20 0 16 (writePass x h.pkt)]) ∧
       (getSurf t i).frontier = first + count ∧ (getSurf t i).pass = writePass x h.pkt ∧ (∀ j, j ≠ i → getSurf t j = getSurf s j) ∧
       (∀ k b, k < count → b < sz → ¬ ringByte s (at_ k + b) → readByte t (at_ k + b) = c.data.getD (k * sz + b) 0) ∧
       (∀ a, ¬ ringByte s a → (∀ k, k < count → a < at_ k ∨ at_ k + roundUp sz 256 ≤ a) → readByte t a = readByte s a)) ∧
  (∀ (s : State) (c : Cmd) (h : Held), ReadyNow s c 0x104 h → checkSurfaceRead s h c = none →
    let x := getSurf s (handleIndex (pf h.pkt 16 0 32)); let first := pf h.pkt 20 0 32; let count := pf h.pkt 24 0 32
    let n := lineSize x.format x.width
    x.format ≠ 0 → formatCompressed x.format = false → formatTwoPlane x.format = false → pb h.pkt 28 0 = false → c.ok = true →
    (∀ k, k < count → rangePoisoned s (x.base + (first + k) * x.pitch) n = false) →
    Runs (.surfaceRead c) s fun t => Finished t c ∧
      Replied t h .ok (nowBits s) (packFields [fAt 16 0 16 x.pass, fAt 18 0 1 (decide (first + count ≤ x.frontier) && !x.rebuilding).toNat, fAt 20 0 32 x.frontier]) ∧
      quiet t = quiet s ∧ sameBytes t s ∧
      ∀ k, k < count → Output.hostWrite h.slice (pasidOf s h.slice) (pf h.pkt 40 0 64 + k * pf h.pkt 32 0 32) (readBytes s (x.base + (first + k) * x.pitch) n) ∈ t.out) ∧
  (∀ (s : State) (c : Cmd) (h : Held), ReadyNow s c 0x106 h → checkPaletteLoad s h c = none →
    pb h.pkt 22 0 = false → c.ok = true → c.data.length = 4 * pf h.pkt 20 0 9 →
    Answers (.paletteLoad c) s c h .ok (nowBits s) [fAt 16 0 16 (pf h.pkt 20 0 9)]
      (modSlot s (slotKey (pf h.pkt 16 0 3) (pf h.pkt 17 0 3)) fun y =>
        { y with pendPal := (List.range (pf h.pkt 20 0 9)).foldl (fun t i => tset 0 t (pf h.pkt 18 0 8 + i) (leAt c.data (4 * i) 4)) y.pendPal }))

/-- R133: SURFACE_FENCE replies ST_OK when its condition holds already, otherwise ST_DEFERRED; its final reply follows when the condition comes true, or after TIMEOUT wall frames. -/
def Obligations.SurfaceFences : Prop :=
  (∀ (s : State) (c : Cmd) (h : Held), ReadyNow s c 0x105 h → checkSurfaceFence s h c = none → fenceMet s (fenceOf s h) = true →
    let i := handleIndex (pf h.pkt 16 0 32)
    Answers (.surfaceFence c) s c h .ok (nowBits s) [fAt 16 0 16 (getSurf s i).pass, fAt 20 0 32 (getSurf s i).frontier, fAt 24 0 16 (latchCount s i)] s) ∧
  (∀ (s : State) (c : Cmd) (h : Held), ReadyNow s c 0x105 h → checkSurfaceFence s h c = none → fenceMet s (fenceOf s h) = false →
    let i := handleIndex (pf h.pkt 16 0 32)
    Defers (.surfaceFence c) s c h [fAt 16 0 16 (getSurf s i).pass, fAt 20 0 32 (getSurf s i).frontier, fAt 24 0 16 (latchCount s i)]
      { s with store := { s.store with fences := s.store.fences ++ [fenceOf s h] } }) ∧
  (∀ (s : State) (c : Cmd) (h : Held) (f : Fence), findHeld s (Cmd.key c) = some h → h.slice = c.slice →
    s.store.fences.find? (fun f => f.key == Cmd.key c) = some f → fenceMet s f = true →
    Answers (.surfaceFenceMet c) s c h .ok (nowBits s) (fenceDetail s f.surf)
      { s with store := { s.store with fences := s.store.fences.filter fun g => g.key != f.key } }) ∧
  (∀ (s : State) (c : Cmd) (h : Held) (f : Fence), findHeld s (Cmd.key c) = some h → h.slice = c.slice →
    s.store.fences.find? (fun f => f.key == Cmd.key c) = some f → fenceMet s f = false →
    f.timeout ≤ frameDiff (now s).frame f.startFrame →
    Answers (.surfaceFenceTimeout c) s c h .timeout (nowBits s) (fenceDetail s f.surf)
      { s with store := { s.store with fences := s.store.fences.filter fun g => g.key != f.key } })

/-- R115, R116, R119: a device writer starts passes and advances FRONTIER line by line, each line stored at its address; a rebuilt ledger entry starts over poisoned. R151, R152, R155: a free lane takes the next work; a verified row is written with its record, the lane is free again and FRONTIER passes its four lines. Where the spec leaves a point open, the model's choice of log entries 6, 25 and 32 holds. -/
def Obligations.DeviceWriters : Prop :=
  (∀ (s : State) (hd : Nat), (lookup s hd).isSome = true → passAllowed s (handleIndex hd) = true →
    Becomes (.writerPassStart hd) s (modSurf { abandonRows s (handleIndex hd) with store := { s.store with passSeq := s.store.passSeq + 1 } } (handleIndex hd) fun x =>
      { x with pass := (x.pass + 1) % 2 ^ 16, frontier := 0, needStart := false, rowStates := [], rowsDone := [], began := s.store.passSeq + 1 })) ∧
  (∀ (s : State) (hd : Nat) (data : List Byte),
    let i := handleIndex hd
    let x := getSurf s i
    (lookup s hd).isSome = true → x.rebuilding = false → x.writer ≠ .host → x.pass ≠ 0 → x.frontier < surfaceLines x →
    (x.waitable && writerBlocked s i x.pass x.frontier x.frontier) = false →
    x.format ≠ 0 → formatCompressed x.format = false → formatTwoPlane x.format = false →
    weirDenied s x.owner (writerEngine x.writer) true (x.base + x.frontier * x.pitch) (lineSize x.format x.width) = none →
    (∀ u, u < 8 → (tget {} s.gauge.units u).enable = false) → (∀ src, x.source = some src → exportsOf s src = []) →
    let n := lineSize x.format x.width
    Becomes (.writerLineComplete hd data 0) s
      (modSurf (writeBytes s (x.base + x.frontier * x.pitch) (padTo 256 (padPixels (pixelBytes x.format false) n (data.take n)))) i fun y =>
        { y with frontier := min (surfaceLines y) (y.frontier + 1) })) ∧
  (∀ (s : State) (i : Nat), (getSurf s i).rebuilding = true → (getSurf s i).failKey = none →
    (s.store.fences.filter fun f => f.surf == i && !f.unlatched) = [] →
    Becomes (.lineLedgerRebuilt i) s (modSurf s i fun x =>
      { x with rebuilding := false, pass := (match highestLatch s i with | some q => (q + 1) % 65536 | none => 1), frontier := 0, rowsDone := []
               rebuiltPass := some (match highestLatch s i with | some q => (q + 1) % 65536 | none => 1), poisoned := true
               needStart := decide (x.writer = .host), failKey := none })) ∧
  (∀ (s : State) (lane : Nat) (w : LaneWork), lane < 2 → (tget {} s.sluice.lanes lane).job = none →
    (tget {} s.sluice.lanes lane).inService = true → nextWork s.sluice.queue = some w →
    Becomes (.sluiceLaneTakeWork lane) s { s with sluice := { s.sluice with
      queue := dropFirst w s.sluice.queue, lanes := tset {} s.sluice.lanes lane { tget {} s.sluice.lanes lane with job := some w } } }) ∧
  (∀ (s : State) (lane i : Nat) (w : LaneWork),
    let x := getSurf s i
    (tget {} s.sluice.lanes lane).job = some w → w.surf = some i → w.orphan = false → x.rowsDone = [] → x.frontier ≤ 4 * w.row →
    weirDenied s x.owner (if w.kind = .surfaceWrite then engHost else engSluice) true (x.base + dataOffset x.width x.height + w.row * x.pitch) x.pitch = none →
    (∀ src, x.source = some src → exportsOf s src = []) → (s.media.deliveries.find? fun d => d.surf == i) = none →
    (s.sluice.writes.find? fun j => j.surf == i) = none →
    let n := if x.format = 0x60 ∨ x.format = 0x44 then x.width else 4 * x.width
    Runs (.sluiceRowComplete lane []) s fun t =>
      (tget {} t.sluice.lanes lane).job = none ∧ (x.frontier = 4 * w.row → (getSurf t i).frontier = min (surfaceLines x) (x.frontier + 4)) ∧
      (x.frontier < 4 * w.row → (getSurf t i).frontier = x.frontier ∧ (getSurf t i).rowsDone = [w.row]) ∧
      (∀ j, j ≠ i → getSurf t j = getSurf s j) ∧ t.out = s.out ∧ t.rings = s.rings ∧
      t.store.mem = (storeRow s x w.row (rowBlocks x w.row (tget {} s.sluice.lanes lane).rawMode (chunksOf n 4 w.raw)
        (if x.format = 0x60 then chunksOf x.width 2 (w.raw.drop (4 * x.width)) else []))).store.mem)

/-- R107, R108, R125, R366, R458: the arbiter's choice is carried out: a write stores exactly its bytes; a scrub of a good word changes only counters, of a bad one poisons its unit; an idle store goes to self-refresh. Where the spec leaves a point open, the model's choice of log entries 21 and 31 holds. -/
def Obligations.ReservoirService : Prop :=
  (∀ (s : State) (pc : Nat) (reqs : List MemReq) (r : MemReq) (p : PseudoChannel), pc < 32 → arbitrate s (tget {} s.store.pcs pc) (pendingAt pc reqs) = some (r, p) →
    r.write = true → r.handle = 0 → reqDenied s r = none → r.data.length = r.length →
    Runs (.reservoirRequestServed pc reqs 0) s fun t => t.out = s.out ∧ t.rings = s.rings ∧ t.power.selfRefresh = false ∧
      (∀ k, k < r.length → r.addr + k < storeEnd → readByte t (r.addr + k) = r.data.getD k 0) ∧
      (∀ a, a < r.addr ∨ r.addr + r.length ≤ a → readByte t a = readByte s a)) ∧
  (∀ (s : State) (addr : Nat), addr < storeEnd →
    Becomes (.patrolScrub addr 0) s (bump (bump { s with power := { s.power with selfRefresh := false } } 1 (pseudoChannel addr) 2 32) 6 0 4 32)) ∧
  (∀ (s : State) (addr i : Nat) (x : Surface), addr < storeEnd →
    s.store.surfs.find? (fun e => e.2.used && e.2.base ≤ addr && decide (addr < e.2.base + e.2.granules * 65536)) = some (i, x) →
    Leaves (.patrolScrub addr 2) s (modSurf { s with power := { s.power with selfRefresh := false } } i fun x => { x with poisoned := true })) ∧
  (∀ s : State, (∀ o, o < 8 → scheduling (getOut s o) = false) →
    Becomes .reservoirIdleTimer s { s with power := { s.power with selfRefresh := true } })

/-- R138, R162: LAYER_SET writes a slot's pending descriptor, claims an empty slot for its slice with a palette of zeros, and puts nothing in force. R184: LAYER_CLEAR of the owner marks a slot that a commit has shown for removal at its next COMMIT, and frees at once one that none has; the manager's clear of another slice's slot acts at the next boundary. Where the spec leaves a point open, the model's choice of log entry 27 holds. -/
def Obligations.PendingLayers : Prop :=
  (∀ (s : State) (c : Cmd) (h : Held), ReadyNow s c 0x201 h → checkLayerSet s h c = none →
     let d := descOf h.pkt
     Answers (.layerSet c) s c h .ok (nowBits s) [fAt 16 0 8 h.slice, fAt 17 0 8 (getSlot s (slotKey d.output d.slot)).owner.isNone.toNat]
       (modSlot s (slotKey d.output d.slot) fun x =>
         { x with owner := some h.slice, pending := some d, cleared := false, pendPal := if x.owner.isNone then [] else x.pendPal })) ∧
  (∀ (s : State) (c : Cmd) (h : Held), ReadyNow s c 0x202 h → checkLayerClear s h c = none →
     let k := slotKey (pf h.pkt 16 0 3) (pf h.pkt 17 0 3)
     ((getSlot s k).owner = some h.slice → (getSlot s k).took = true →
       Answers (.layerClear c) s c h .ok (nowBits s) [] (modSlot s k fun x => { x with pending := none, pendPal := [], cleared := true })) ∧
     ((getSlot s k).owner = some h.slice → (getSlot s k).took = false →
       Answers (.layerClear c) s c h .ok (nowBits s) [fAt 16 0 8 2] (cancelSlot (modSlot s k freeSlot) k)) ∧
     ((getSlot s k).owner ≠ some h.slice →
       Answers (.layerClear c) s c h .ok (nowBits s) [fAt 16 0 8 1, fAt 24 0 64 (boundaryBits (boundaryAfter (now s)))]
         (modSlot s k fun x => { x with mgrClear := some (boundaryAfter (now s)) })))

/-- R172, R173, R178, R183: COMMIT's one effect at its commit point is its group's record, the slice's pending layers with the FLIP list's handles, in place of the slice's last record; no layer in force changes. R176, R177: a record held for its HOLD_FRAMES takes effect on the slots its slice still owns: a removal frees its slot, a ready layer puts its snapshot in force, and no other slot changes but for the shedding that follows (R170). Where the spec leaves a point open, the model's choice of log entries 6 and 35 holds. -/
def Obligations.Commits : Prop :=
  (∀ (s : State) (c : Cmd) (h : Held), Ready s c 0x203 h → checkCommit s h c = none →
     let g := pf h.pkt 16 0 3
     Runs (.commit c) s fun t =>
       findHeld t (Cmd.key c) = some (if pktTimed h.pkt then { h with phase := .armed, due := wpOfBits (pktDue h.pkt) } else { h with phase := .committed }) ∧
       t.comp = { s.comp with slots := t.comp.slots, records := (s.comp.records.filter fun r => !(r.slice == h.slice && r.group == g)) ++
         [{ slice := h.slice, group := g, target := commitTarget s h.pkt, layers := snapshot s h.slice g (flipsOf h.pkt), key := Cmd.key c
            superseded := match outstanding s h.slice g with
              | some r => r.superseded ++ (if r.applied then [] else [r.key])
              | none => [] }] } ∧
       (∀ k, getSlot t k = { getSlot s k with pending := match flipped (flipsOf h.pkt) k with
         | some hd => (getSlot s k).pending.map fun d => { d with handle := hd }
         | none => (getSlot s k).pending }) ∧
       quiet t = quiet { s with comp := t.comp } ∧ t.out = s.out ∧ t.store = s.store ∧
       ∀ j, j ≠ c.slice → getRings t j = getRings s j) ∧
  (∀ (s : State) (i g : Nat) (r : CommitRecord), outstanding s i g = some r → r.expired = true → r.applied = false →
     (r.layers.map SnapLayer.key).Nodup →
     Runs (.groupHoldExpiry i g) s fun t =>
       (∀ l, l ∈ r.layers → (getSlot s l.key).owner = some i → l.desc = none → getSlot t l.key = freeSlot (getSlot s l.key)) ∧
       (∀ l d, l ∈ r.layers → (getSlot s l.key).owner = some i → l.desc = some d → notReady s l = none →
         { getSlot t l.key with shed := false } = { getSlot s l.key with active := imageOf s i l d true (getSlot s l.key).pendPal, took := true, shed := false }) ∧
       (∀ l, l ∈ r.layers → (getSlot s l.key).owner ≠ some i → { getSlot t l.key with shed := false } = { getSlot s l.key with shed := false }) ∧
       (∀ k, (∀ l, l ∈ r.layers → l.key ≠ k) → { getSlot t k with shed := false } = { getSlot s k with shed := false }) ∧ t.store.surfs = s.store.surfs ∧ t.slices = s.slices)

/-- R185, R193, R186: COMMIT_GROUP_DEFINE, COEFF_LOAD and BANK_ASSIGN reply with the boundary at which their change takes effect, and until then only note it; COEFF_LOAD refuses an image whose phases fail and loads nothing. Where the spec leaves a point open, the model's choice of log entry 12 holds. -/
def Obligations.CompositionSettings : Prop :=
  (∀ (s : State) (c : Cmd) (h : Held), ReadyNow s c 0x204 h → checkGroupDefine s h c = none →
    let g := pf h.pkt 16 0 3; let outs := pf h.pkt 17 0 8; let f := boundaryAfter (now s)
    Answers (.commitGroupDefine c) s c h .ok (boundaryBits f)
      [fAt 16 0 8 ((List.range 8).foldl (fun n o => if bitAt outs o || groupToBe s o == g then n + 2 ^ o else n) 0)]
      { s with comp := { s.comp with pendGroups := s.comp.pendGroups ++
          [{ group := g, outputs := outs, frame := f, new := { hold := pb h.pkt 18 0, holdFrames := pf h.pkt 19 0 4, placeMask := pf h.pkt 24 0 64 } }] } }) ∧
  (∀ (s : State) (c : Cmd) (h : Held), ReadyNow s c 0x205 h → checkCoeffLoad s h c = none → pb h.pkt 16 2 = true →
    let n := pf h.pkt 16 0 2
    Answers (.coeffLoad c) s c h .ok (boundaryBits (boundaryAfter (now s))) [fAt 16 0 8 n, fAt 18 0 16 (setUsers s n)]
      { s with comp := { s.comp with pendCoeffs := s.comp.pendCoeffs ++ [(n, {}, boundaryAfter (now s))] } }) ∧
  (∀ (s u : State) (c : Cmd) (h : Held) (l : List Byte), ReadyNow s c 0x205 h → checkCoeffLoad s h c = none → pb h.pkt 16 2 = false →
    srcRead s 0 engLock (pb h.pkt 17 0) c (pf h.pkt 24 0 64) 1792 = (u, some l) → imageFail l = none →
    let n := pf h.pkt 16 0 2
    Answers (.coeffLoad c) s c h .ok (boundaryBits (boundaryAfter (now s))) [fAt 16 0 8 n, fAt 18 0 16 (setUsers u n)]
      { u with comp := { u.comp with pendCoeffs := u.comp.pendCoeffs ++ [(n, { loaded := true, h := (List.range 64).map fun ph => phaseRow l (16 * ph) 8
                                                                               v := (List.range 64).map fun ph => phaseRow l (1024 + 12 * ph) 6 },
        boundaryAfter (now s))] } }) ∧
  (∀ (s u : State) (c : Cmd) (h : Held) (l : List Byte) (f : Nat × Nat × Nat), ReadyNow s c 0x205 h → checkCoeffLoad s h c = none → pb h.pkt 16 2 = false →
    srcRead s 0 engLock (pb h.pkt 17 0) c (pf h.pkt 24 0 64) 1792 = (u, some l) → imageFail l = some f →
    let n := pf h.pkt 16 0 2
    Answers (.coeffLoad c) s c h .badParam (nowBits s) [fAt 16 0 8 n, fAt 18 0 16 (setUsers u n), fAt 20 0 8 f.1, fAt 21 0 8 f.2.1, fAt 22 0 8 f.2.2] u) ∧
  (∀ (s : State) (c : Cmd) (h : Held), ReadyNow s c 0x307 h → checkBankAssign s h c = none →
    Answers (.bankAssign c) s c h .ok (boundaryBits (boundaryAfter (now s))) [fAt 16 0 8 s.comp.left]
      { s with comp := { s.comp with pendLeft := some (pf h.pkt 16 0 8, boundaryAfter (now s)) } })

/-- R208: OUTPUT_CONFIGURE stores an output's timing and leaves it DISABLED; SELF_REFRESH_REQUEST stores the grant and answers the first condition of R220 that fails. R209, R210: OUTPUT_ENABLE and OUTPUT_DISABLE wait, with no reply, for the first output frame start at or after their boundary. Where the spec leaves a point open, the model's choice of log entries 11 and 28 holds. -/
def Obligations.OutputSettings : Prop :=
  (∀ (s : State) (c : Cmd) (h : Held), ReadyNow s c 0x301 h → checkOutputConfigure s h c = none →
    let k := cfgOf h.pkt
    Answers (.outputConfigure c) s c h .ok (nowBits s) [fAt 16 0 32 (clockKpix s.time.timing k), fAt 20 0 32 (outFrameSpan s k.ratio)]
      (modOut s (pf h.pkt 16 0 3) fun x => { x with state := .disabled, cfg := k, sr := { x.sr with granted := false, idleFrames := 0 } })) ∧
  (∀ (s : State) (c : Cmd) (h : Held), ReadyNow s c 0x305 h → checkSelfRefresh s h c = none →
    let o := pf h.pkt 16 0 3
    let x := getOut s o
    let e := modOut s o fun x => { x with sr :=
      { x.sr with granted := pb h.pkt 16 7, idleFrames := pf h.pkt 17 0 8
                  cause := if pb h.pkt 16 7 = false ∧ x.state = .selfRefresh ∧ x.sr.cause = 0 then 6 else x.sr.cause } }
    Runs (.selfRefreshRequest c) s fun t => Finished t c ∧
      Replied t h .ok (nowBits s) (packFields [fAt 16 0 8 (pb h.pkt 16 7 && refreshBar e o == 0).toNat, fAt 17 0 8 (refreshBar e o)]) ∧
      (getOut t o).sr.granted = pb h.pkt 16 7 ∧ (getOut t o).sr.idleFrames = pf h.pkt 17 0 8 ∧ (getOut t o).cfg = x.cfg ∧
      (∀ q, q ≠ o → getOut t q = getOut s q) ∧ t.comp = s.comp ∧ t.bank = s.bank ∧ sameBytes t s) ∧
  (∀ (s : State) (c : Cmd) (h : Held), ReadyNow s c 0x302 h → checkOutputEnable s h c = none →
    Holds (.outputEnable c) s c h (modOut s (pf h.pkt 16 0 3) fun x => { x with
      enable := some { key := Cmd.key c, space := pb h.pkt 17 0, edidDest := pf h.pkt 24 0 64, frame := boundaryAfter (now s) } })) ∧
  (∀ (s : State) (c : Cmd) (h : Held), ReadyNow s c 0x303 h → checkOutputDisable s h c = none →
    Holds (.outputDisable c) s c h (modOut s (pf h.pkt 16 0 3) fun x => { x with disables := x.disables ++ [(Cmd.key c, boundaryAfter (now s))] }))

/-- R207, R209, R210: the sequencer of an enabled output starts in TRAINING at its first frame, replies ST_TIMEOUT when the link is not trained in time, and stops at a frame start once disabled. R207: hot plug starts training, its loss takes the link down, an attempt ends RUNNING or LINK_DOWN by the sink's answer and R206, and a link that is down is tried again. Where the spec leaves a point open, the model's choice of log entries 11 and 21 holds. -/
def Obligations.OutputLinks : Prop :=
  (∀ (s : State) (o : Nat) (e : EnableCmd),
    let x := getOut s o
    let i := outFrameNow s x.cfg (now s)
    let w := outFrameStart s x.cfg i
    x.enable = some e → e.started = false → x.state = .disabled → wpReached w ⟨e.frame, 0, 0⟩ = true → wpReached (now s) w = true →
    Runs (.outputEnableStart o) s fun t => (getOut t o).state = .training ∧ (getOut t o).enable = some { e with started := true, first := w, startAt := upTime s } ∧
      (getOut t o).inFrame = true ∧ (getOut t o).frame = i ∧ (getOut t o).start = w ∧ (getOut t o).cfg = x.cfg) ∧
  (∀ (s : State) (o : Nat) (c : Cmd) (h : Held) (e : EnableCmd),
    (getOut s o).pastEnables = [] → (getOut s o).enable = some e → e.started = true → passed s e.startAt 2000000000 = true →
    e.key = Cmd.key c → findHeld s (Cmd.key c) = some h → h.slice = c.slice →
    let u := modOut s o fun x => if x.state = .training then { x with state := .linkDown, retryArmed := x.hpd && !x.trainingNow, downAt := upTime s } else x
    Answers (.outputEnableTimeout o) s c h .timeout (nowBits s) (enableDetail u o) (modOut u o fun x => { x with enable := none })) ∧
  (∀ (s : State) (o : Nat) (c : Cmd) (h : Held) (e : EnableCmd) (l : List EnableCmd),
    (getOut s o).pastEnables = e :: l → passed s e.startAt 2000000000 = true →
    e.key = Cmd.key c → findHeld s (Cmd.key c) = some h → h.slice = c.slice →
    Answers (.outputEnableTimeout o) s c h .timeout (nowBits s) (pastDetail (getOut s o) e) (modOut s o fun x => { x with pastEnables := l })) ∧
  (∀ (s : State) (o : Nat),
    let x := getOut s o
    let w := outFrameStart s x.cfg (outFrameNow s x.cfg (now s))
    (x.disables.any fun d => wpReached w ⟨d.2, 0, 0⟩ && wpReached (now s) w) = true →
    (∀ d h, d ∈ x.disables → findHeld s d.1 = some h → h.slice = d.1.slice) →
    Runs (.outputDisableAct o) s fun t => (getOut t o).state = .disabled ∧ (getOut t o).disables = [] ∧ (getOut t o).inFrame = false ∧
      (getOut t o).cfg = x.cfg ∧ (∀ q, q ≠ o → (getOut t q).state = (getOut s q).state) ∧
      (∀ p, p < 8 → (getSlot t (slotKey o p)).active.buf = none ∧ (getSlot t (slotKey o p)).active.desc = (getSlot s (slotKey o p)).active.desc ∧
        (getSlot t (slotKey o p)).pending = (getSlot s (slotKey o p)).pending) ∧
      (∀ d, d ∈ x.disables → findHeld t d.1 = none) ∧ Output.link o 4 ∈ t.out) ∧
  (∀ (s : State) (o : Nat),
    let x := getOut s o
    o < 8 → x.hpd = false → (x.state = .training ∨ x.state = .running ∨ x.state = .linkDown) →
    Becomes (.hpdRise o) s (emit (modOut s o fun x => { x with
      hpd := true, trainingNow := true, retryArmed := false
      attempts := satAdd 16 x.attempts 1, lanes := x.cfg.lanes, rate := x.cfg.maxRate, state := if x.state = .running then .training else x.state }) (.link o 1))) ∧
  (∀ (s : State) (o : Nat),
    let x := getOut s o
    o < 8 → x.hpd = true → x.trainingNow = false → (x.state = .training ∨ x.state = .running ∨ x.state = .linkDown) →
    Becomes (.irqHpd o) s (emit (modOut s o fun x => { x with
      trainingNow := true, retryArmed := false
      attempts := satAdd 16 x.attempts 1, lanes := x.cfg.lanes, rate := x.cfg.maxRate, state := if x.state = .running then .training else x.state }) (.link o 1))) ∧
  (∀ (s : State) (o : Nat),
    let x := getOut s o
    o < 8 → x.hpd = true →
    Leaves (.hpdFall o) s (modOut s o fun x => { x with
      hpd := false, trainingNow := false, retryArmed := false
      state := if x.state = .running ∨ x.state = .training then .linkDown else x.state })) ∧
  (∀ (s : State) (o res lanes rate : Nat) (psr : Bool) (edid : List Byte) (ok : Bool),
    let x := getOut s o
    let good := res = 0 ∧ linkFits s.time.timing x.cfg lanes rate = true
    o < 8 → x.trainingNow = true → scheduling x = true → trainable x.cfg lanes rate = true → res < 16 →
    Runs (.linkTrainingEnd o res lanes rate psr edid ok) s fun t =>
      (getOut t o).trainingNow = false ∧ (getOut t o).lanes = lanes ∧ (getOut t o).rate = rate ∧ (getOut t o).sr.sink = psr ∧ (getOut t o).cfg = x.cfg ∧
      (good → (getOut t o).state = .running ∧ ((∃ e, x.enable = some e ∧ e.started = true) → (getOut t o).enable = none)) ∧
      (¬ good → (getOut t o).state = .linkDown ∧ (getOut t o).retryArmed = x.hpd ∧ (getOut t o).enable = x.enable) ∧
      ∀ q, q ≠ o → getOut t q = getOut s q) ∧
  (∀ (s : State) (o : Nat),
    let x := getOut s o
    o < 8 → x.hpd = true → x.retryArmed = true → x.trainingNow = false → x.state = .linkDown → passed s x.downAt 1000000000 = true →
    Becomes (.linkRetryTimer o) s (emit (modOut s o fun x => { x with
      trainingNow := true, retryArmed := false
      attempts := satAdd 16 x.attempts 1, lanes := x.cfg.lanes, rate := x.cfg.maxRate }) (.link o 1)))

/-- R47, R174: an output's frame starts at the WP its schedule gives, and each of its slots shows from then on the layer in force. R163, R203, R204: a line of a running output leaves at its scheduled WP, not before, with the pixels composed of its layers then; a line not composed in time leaves in GAP_COLOUR and is counted as an underflow. Where the spec leaves a point open, the model's choice of log entry 9 holds. -/
def Obligations.OutputScan : Prop :=
  (∀ (s : State) (o : Nat),
     let x := getOut s o
     let i := outFrameNow s x.cfg (now s)
     let w := outFrameStart s x.cfg i
     o < 8 → scheduling x = true → s.time.running = true → (x.inFrame = false ∨ x.start ≠ w) →
     Runs (.outputFrameStart o) s fun t =>
       (getOut t o).inFrame = true ∧ (getOut t o).frame = i ∧ (getOut t o).start = w ∧ (getOut t o).line = 0 ∧ (getOut t o).cfg = x.cfg ∧
       (∀ k, k < 8 → (getSlot t (slotKey o k)).shown = (getSlot s (slotKey o k)).active ∧ (getSlot t (slotKey o k)).active = (getSlot s (slotKey o k)).active)) ∧
  (∀ (s : State) (o : Nat) (inTime : Bool),
    let x := getOut s o
    o < 8 → scheduling x = true → x.inFrame = true → x.line < x.cfg.vOut → comesThisLine s (lineDue s o x.line) = true →
    Runs (.outputLineStart o inTime) s fun t => (getOut t o).line = x.line + 1 ∧ (getOut t o).inFrame = true ∧ (getOut t o).start = x.start) ∧
  (∀ (s : State) (o : Nat) (inTime : Bool), comesThisLine s (lineDue s o (getOut s o).line) = false → Becomes (.outputLineStart o inTime) s s) ∧
  (∀ (s : State) (o : Nat),
    let x := getOut s o
    let c := getCarry s o
    let u := passTo s (lineDue s o x.line)
    o < 8 → x.state = .running → x.inFrame = true → x.line < x.cfg.vOut → x.line < x.cfg.vActive →
    comesThisLine s (lineDue s o x.line) = true → c.stranded = false → c.arming = none → c.lastGap = false →
    Runs (.outputLineStart o true) s fun t =>
      Output.line o x.line ((composeLine u o x.line (if c.repl = 0 then none else some (3 - c.repl))).map (pixelWord x.cfg.bpc)) ∈ t.out ∧
      (getOut t o).under = x.under) ∧
  (∀ (s : State) (o : Nat),
    let x := getOut s o
    let c := getCarry s o
    o < 8 → x.state = .running → x.inFrame = true → x.line < x.cfg.vOut → x.line < x.cfg.vActive →
    comesThisLine s (lineDue s o x.line) = true → c.stranded = false → c.arming = none → c.lastGap = false →
    Runs (.outputLineStart o false) s fun t =>
      Output.line o x.line (List.replicate x.cfg.hActive (pixelWord x.cfg.bpc (colour30 (tget 0x20080200 s.ledger.holdColours x.cfg.gap)))) ∈ t.out ∧
      (getOut t o).under.lines = satAdd 8 x.under.lines 1 ∧ (getOut t o).under.total = satAdd 32 x.under.total 1)

/-- R216: SET, REMOVE and REARM of a rectangle wait for their boundary with no reply; READ answers the rectangle's result, SKIPPED while it is latched, and changes nothing. R213, R214, R215: the CRC of a rectangle's pixels is its result: PASS when it is an expected value, else FAIL, which counts, latches the action, and ends self-refresh; a rectangle that shows a held or bad source is SKIPPED, and a latched one is not evaluated. Where the spec leaves a point open, the model's choice of log entries 11, 26 and 34 holds. -/
def Obligations.Rectangles : Prop :=
  (∀ (s : State) (c : Cmd) (h : Held), ReadyNow s c 0x304 h → pf h.pkt 17 0 2 = 0 → checkRectSet s h c = none →
    Holds (.rectCheckSetSet c) s c h { s with scan := { s.scan with rectOps := s.scan.rectOps ++
      [{ key := Cmd.key c, rect := rectOf h.pkt, op := 0, cfg := rectCfgOf h.pkt, owner := h.slice, frame := boundaryAfter (now s) }] } }) ∧
  (∀ (s : State) (c : Cmd) (h : Held), ReadyNow s c 0x304 h → pf h.pkt 17 0 2 = 1 → checkRectOther s h c = none →
    Holds (.rectCheckSetRemove c) s c h { s with scan := { s.scan with rectOps := s.scan.rectOps ++
      [{ key := Cmd.key c, rect := rectOf h.pkt, op := 1, cfg := rectCfgOf h.pkt, owner := h.slice, frame := boundaryAfter (now s) }] } }) ∧
  (∀ (s : State) (c : Cmd) (h : Held), ReadyNow s c 0x304 h → pf h.pkt 17 0 2 = 2 → checkRectOther s h c = none →
    Holds (.rectCheckSetRearm c) s c h { s with scan := { s.scan with rectOps := s.scan.rectOps ++
      [{ key := Cmd.key c, rect := rectOf h.pkt, op := 2, cfg := rectCfgOf h.pkt, owner := h.slice, frame := boundaryAfter (now s) }] } }) ∧
  (∀ (s : State) (c : Cmd) (h : Held), ReadyNow s c 0x304 h → pf h.pkt 17 0 2 = 3 → checkRectOther s h c = none →
    let x := getRect s (rectOf h.pkt)
    Answers (.rectCheckSetRead c) s c h .ok (nowBits s) [fAt 16 0 32 x.crc, fAt 20 0 8 (if x.latch then 4 else x.result), fAt 21 0 1 x.latch.toNat,
      fAt 22 0 16 (min x.failures 0xFFFF), fAt 24 0 32 x.lastFrame, fAt 28 0 16 x.undetermined] s) ∧
  (∀ (s : State) (o r : Nat),
     let i := 16 * o + r
     let x := getRect s i
     let y := getOut s o
     let crc := crcWords 0xFFFFFFFF (rectWords x.cfg 0 y.checkLines) ^^^ 0xFFFFFFFF
     let u := passTo s (rectDue s o x.cfg)
     o < 8 → r < 16 → x.used = true → scheduling y = true → y.inFrame = true → y.line = x.cfg.y + x.cfg.h →
     x.done = false → comesThisLine s (rectDue s o x.cfg) = true →
     (x.latch = true → Becomes (.rectEvaluate o r) s (modRect u i fun x => { x with done := true })) ∧
     (x.latch = false → x.cfg.mode ≠ 1 → skipped s o x.owner x.cfg = true →
       Becomes (.rectEvaluate o r) s (modRect u i fun x => { x with done := true, result := 4, lastFrame := y.start.frame })) ∧
     (x.latch = false → x.cfg.mode = 2 → skipped s o x.owner x.cfg = false →
       Becomes (.rectEvaluate o r) s (modRect u i fun x => { x with done := true, crc := crc, result := 5, lastFrame := y.start.frame })) ∧
     (x.latch = false → x.cfg.mode = 0 → skipped s o x.owner x.cfg = false →
       expectedCheck x.cfg.expA i 0 = x.cfg.checkA → (x.cfg.bValid = true → expectedCheck x.cfg.expB i 1 = x.cfg.checkB) →
       let good := crc = x.cfg.expA ∨ (x.cfg.bValid = true ∧ crc = x.cfg.expB)
       Runs (.rectEvaluate o r) s fun t =>
         (getRect t i).crc = crc ∧ (getRect t i).lastFrame = y.start.frame ∧ (getRect t i).cfg = x.cfg ∧
         (good → (getRect t i).result = 1 ∧ (getRect t i).latch = false ∧ (getRect t i).failures = x.failures) ∧
         (¬ good → (getRect t i).result = 2 ∧ (getRect t i).latch = decide (x.cfg.action ≠ 0) ∧ (getRect t i).failures = satAdd 32 x.failures 1) ∧
         ∀ j, j ≠ i → getRect t j = getRect u j) ∧
     (x.latch = false → x.cfg.mode = 1 → (coveringLayer s o x.cfg fun _ e => e.source == x.cfg.source) = none →
       Runs (.rectEvaluate o r) s fun t => (getRect t i).result = 9 ∧ (getRect t i).notCovered = true ∧ (getRect t i).crc = x.crc ∧ t.ledger = u.ledger))

/-- R222, R223, R224: a fault in the pipe of an output fails the bank that carries it and arms the output's takeover by the other bank, on the pipe that R223 gives it; the other outputs of the bank move at their next frame starts. R224, R225, R226: the armed pipe takes its output: it composes from the next line start, and its first three lines come from replicated history. Where the spec leaves a point open, the model's choice of log entries 26 and 30 holds. -/
def Obligations.BankTakeover : Prop :=
  (∀ (s : State) (o : Nat) (i : Instr) (cause : Nat),
     let c := getCarry s o
     let other := 1 - c.bank
     (i = .bankPipeWatchdog o ∧ cause = 1) ∨ (i = .bankStoreEccFault o ∧ cause = 2) →
     o < 8 → scheduling (getOut s o) = true → c.stranded = false → c.arming = none → s.bank.rehearsal.filter Rehearsal.armed = none → s.bank.carry.length = 8 →
     (getBank s other).state = .normal → (getBank s c.bank).state = .normal → c.bank < 2 →
     (∀ q, q < 8 → (getCarry s q).arming = none) →
     Runs i s fun t =>
       (getBank t c.bank).state = .failed ∧ (getBank t c.bank).pipe = c.pipe ∧ (getBank t c.bank).cause = cause ∧ getBank t other = getBank s other ∧
       (getCarry t o).arming = some (other, pipeOn s other o) ∧ (getCarry t o).bank = c.bank ∧
       (∀ q, q < 8 → q ≠ o → (getCarry s q).bank = c.bank → (getCarry s q).stranded = false → scheduling (getOut s q) = true →
         (getCarry t q).moveTo = some (other, pipeOn s other q)) ∧
       (∀ q, q < 8 → (getCarry s q).bank ≠ c.bank → getCarry t q = getCarry s q) ∧
       ∃ f, f ∈ t.boot.faults ∧ f.kind = 7 ∧ f.unit = c.bank ∧ f.detail = c.pipe + 256 * cause) ∧
  (∀ (s : State) (o gap b p : Nat), o < 8 → s.bank.carry.length = 8 → (getCarry s o).arming = some (b, p) →
     Runs (.takeoverArmed o gap) s fun t =>
       getCarry t o = { getCarry s o with bank := b, pipe := p, arming := none, lastGap := true, repl := 3, taken := !(decide (b = homeBank s o)) } ∧
       (∀ q, q ≠ o → getCarry t q = getCarry s q) ∧ t.comp = s.comp ∧ t.scan = s.scan ∧ (∀ k, getBank t k = getBank s k))

/-- R228, R230, R231, R436: a rehearsal arms at a wall line start and ends after its frames; a bank that passes its self-check waits in HOLDOFF, counts clean frames and returns to NORMAL, and one that fails it stays FAILED; outputs move back at their next frame starts. Where the spec leaves a point open, the model's choice of log entry 2 holds. -/
def Obligations.BankReturns : Prop :=
  (∀ (s : State) (c : Cmd) (h : Held), ReadyNow s c 0x306 h → checkBankRehearse s h c = none → (now s).tick ≠ 0 →
    Holds (.bankRehearse c) s c h
      { s with bank := { s.bank with rehearsal := some { bank := pf h.pkt 16 0 1, key := Cmd.key c, frames := pf h.pkt 18 0 16, start := now s } } }) ∧
  (∀ (s : State) (c : Cmd) (h : Held), ReadyNow s c 0x306 h → checkBankRehearse s h c = none → (now s).tick = 0 →
    let b := pf h.pkt 16 0 1
    Runs (.bankRehearse c) s fun t => (getBank t b).state = .rehearsing ∧ getBank t (1 - b) = getBank s (1 - b) ∧
      (findHeld t (Cmd.key c)).isSome = true ∧ (∃ r, t.bank.rehearsal = some r ∧ r.bank = b ∧ r.key = Cmd.key c ∧ r.armed = true ∧ r.frames = pf h.pkt 18 0 16)) ∧
  (∀ (s : State) (r : Rehearsal) (f : Nat), s.bank.rehearsal = some r → r.since = some f → (now s).line = 0 →
    r.frames < frameDiff (now s).frame f → (∀ h, findHeld s r.key = some h → h.slice = r.key.slice) → s.bank.carry.length = 8 →
    Runs .bankRehearseEnd s fun t => t.bank.rehearsal = none ∧ (getBank t r.bank).state = .normal ∧ findHeld t r.key = none ∧
      (∀ o, o < 8 → homeBank s o = r.bank → scheduling (getOut s o) = true → (getCarry t o).moveTo = some (r.bank, pipeOn s r.bank o))) ∧
  (∀ (s : State) (b test : Nat), (getBank s b).state = .checking →
    Becomes (.bankSelfCheckEnd b true test) s (modBank s b fun x => { x with state := .holdoff, clean := 0, cleanFrom := boundaryAtOrAfter (now s) })) ∧
  (∀ (s : State) (b test : Nat) (i : Instr),
    (i = .bankSelfCheckEnd b false test ∧ (getBank s b).state = .checking) ∨ (i = .holdoffSelfCheckError b test ∧ (getBank s b).state = .holdoff) →
    (∀ k h, (getBank s b).reinit = some k → findHeld s k = some h → h.slice = k.slice) →
    Runs i s fun t => getBank t b = { getBank s b with state := .failed, reinit := none, clean := 0 } ∧ t.bank.carry = s.bank.carry ∧
      ∀ k, (getBank s b).reinit = some k → findHeld t k = none) ∧
  (∀ (s : State) (b : Nat), (getBank s b).state = .holdoff → (getBank s b).holdoffFrames ≤ (getBank s b).clean → (now s).line = 0 →
    (∀ k h, (getBank s b).reinit = some k → findHeld s k = some h → h.slice = k.slice) → s.bank.carry.length = 8 →
    Runs (.bankHoldoffExpiry b) s fun t =>
      getBank t b = { getBank s b with state := .normal, cause := 0, clean := 0, reinit := none } ∧
      (∀ k, (getBank s b).reinit = some k → findHeld t k = none) ∧
      (∀ o, o < 8 → homeBank s o = b → scheduling (getOut s o) = true → (getCarry t o).moveTo = some (b, pipeOn s b o)))

/-- R36, R37, R39: LIVENESS_SET waits for the next evaluation, HEARTBEAT is an arrival on each entry that it names, TREATMENT_ASSETS latches its change for its boundary. Where the spec leaves a point open, the model's choice of log entries 11 and 12 holds. -/
def Obligations.LivenessCommands : Prop :=
  (∀ (s : State) (c : Cmd) (h : Held), ReadyNow s c 0x601 h → checkLivenessSet s h c = none →
    Holds (.livenessSet c) s c h { s with ledger := { s.ledger with sets := s.ledger.sets ++ [{ key := (c.slice, c.ring, c.index), pkt := h.pkt, after := now s }] } }) ∧
  (∀ (s : State) (c : Cmd) (h : Held), ReadyNow s c 0x602 h → checkHeartbeat s h c = none →
    let at_ := if pf h.pkt 40 0 64 = 0 then lineOf (now s) else lineOf (wpOfBits (pf h.pkt 40 0 64))
    Runs (.heartbeat c) s fun t => Finished t c ∧ Replied t h .ok (nowBits s) 0 ∧ sameBytes t s ∧
      (∀ i, i ∈ heartbeatIds h.pkt → (getEntry s i).inp.withdrawn = false →
        (getEntry t i).origin = some at_ ∧ (getEntry t i).lastArrival = some (lineOf (now s)) ∧ (getEntry t i).inp.arrived = true ∧
        (getEntry t i).changeCount = (getEntry s i).changeCount ∧ (getEntry t i).state = (getEntry s i).state) ∧
      (∀ i, i ∉ heartbeatIds h.pkt → getEntry t i = getEntry s i) ∧ quiet t = quiet { s with ledger := t.ledger }) ∧
  (∀ (s : State) (c : Cmd) (h : Held), ReadyNow s c 0x604 h → checkTreatmentAssets s h c = none →
    let hd := pf h.pkt 24 0 32
    Answers (.treatmentAssets c) s c h .ok (boundaryBits (boundaryAfter (now s))) []
      { s with ledger := { s.ledger with pendAssets := s.ledger.pendAssets ++
        [{ asset := pf h.pkt 16 0 8, index := pf h.pkt 17 0 8, clear := pb h.pkt 18 0, colour := pf h.pkt 20 0 30, handle := hd
           pass := newestPass (latchedSurf s hd), alpha := pf h.pkt 28 0 8, frame := boundaryAfter (now s) }] } })

/-- R12, R38: LEDGER_READ writes the 64-byte records of its range to its destination, zeros for entries that the slice may not see; it changes no entry. R15, R19: the state of each entry at a wall line start is computed from what reached it by then and is published at the next one: a source that is tracked, has arrived and is older than its deadline is STALE, with the change's WP and its former state. Where the spec leaves a point open, the model's choice of log entries 5, 8 and 92 holds. -/
def Obligations.LedgerRecords : Prop :=
  (∀ (s u : State) (c : Cmd) (h : Held), ReadyNow s c 0x603 h → checkLedgerRead s h c = none →
     let ids := (List.range (pf h.pkt 18 0 13)).map (pf h.pkt 16 0 12 + ·)
     let body := ids.flatMap fun i => bytesLE 64 (if entryVisible s h.slice i then entryBits i (getEntry s i) else 0)
     (destWrite s h.slice engLock (destSpace s) c.ok (pf h.pkt 24 0 64) body = (u, true) →
       Answers (.ledgerRead c) s c h .ok (nowBits s) [fAt 16 0 64 (wpBits s.ledger.deciding), fAt 24 0 16 (ids.filter (entryVisible s h.slice)).length] u ∧
       (inRegSpace (pf h.pkt 24 0 64) = false → u.ledger = s.ledger)) ∧
     (destWrite s h.slice engLock (destSpace s) c.ok (pf h.pkt 24 0 64) body = (u, false) →
       Answers (.ledgerRead c) s c h .weirDenied (nowBits s) [] u) ∧
     (s.regs.headless = false → c.ok = true →
       Runs (.ledgerRead c) s fun t => Output.hostWrite h.slice (pasidOf s h.slice) (pf h.pkt 24 0 64) body ∈ t.out)) ∧
  (∀ (s : State) (i n : Nat),
     let w : Wp := { now s with tick := 0 }
     let x := getEntry (takeReports s) i
     let r := (evaluated (wallLines s) x w).1
     s.time.running = true → s.ledger.evalAt ≠ some (lineOf w) → s.ledger.sets = [] → i ∈ entryIds s → x.valid = true →
     Runs (.ledgerEvaluation [] n) s fun t =>
       now t = nextLine s (now s) ∧ t.ledger.deciding = nextLine s (now s) ∧ (getEntry t i).state = r ∧
       (r ≠ x.state → (getEntry t i).prev = x.state ∧ (getEntry t i).since = some (lineOf (nextLine s (now s)))) ∧
       (r = x.state → (getEntry t i).prev = x.prev ∧ (getEntry t i).since = x.since) ∧
       (∀ b, x.inp.withdrawn = false → x.inp.unfit = false → x.static = false → x.inp.arrived = true → hasUpstream x = false →
         x.origin = some b → x.deadline < linesBetween (wallLines s) b w → (getEntry t i).state = .stale))

/-- R91, R181, R193, R39, R204: WALL_FRAME_BOUNDARY completes at the first line of a wall frame, once in it: it renews every slice's command allowance and ends the wall frame's count of underflows; with no command armed and no REALIGN due, WP stays and every wall timing, group, coefficient set and treatment asset due at the boundary is in force after it. Where the spec leaves a point open, the model's choice of log entry 26 holds. -/
def Obligations.WallFrameBoundaryTaken : Prop :=
  (∀ s : State, s.time.running = true → (now s).line = 0 → s.time.lastBoundary ≠ some (now s).frame →
    Runs .wallFrameBoundary s fun t => (∀ i, (getSlice t i).taken = 0) ∧ (∀ o, o < 8 → (getOut t o).under.lines = 0)) ∧
  (∀ s : State, s.time.running = true → (now s).line = 0 → s.time.lastBoundary ≠ some (now s).frame →
    ((heldAll s).all fun h => h.phase != .armed) = true → (s.time.realign.all fun r => !frameDue s r.frame) = true → s.fabric.jumpPort = none →
    Runs .wallFrameBoundary s fun t => t.time.lastBoundary = some (now s).frame ∧ now t = now s ∧
      (∀ e, e ∈ t.time.pendTiming → frameDue s e.2.1 = false) ∧ (∀ e, e ∈ t.comp.pendCoeffs → frameDue s e.2.2 = false) ∧
      (∀ g, g ∈ t.comp.pendGroups → frameDue s g.frame = false) ∧ (∀ a, a ∈ t.ledger.pendAssets → frameDue s a.frame = false) ∧
      (∀ n k f, s.comp.pendCoeffs = [(n, k, f)] → frameDue s f = true → tget {} t.comp.coeffs n = k) ∧
      (∀ a, s.ledger.pendAssets = [a] → frameDue s a.frame = true → a.asset = 0 → tget 0x20080200 t.ledger.holdColours a.index = a.colour)) ∧
  (∀ s : State, s.time.lastBoundary = some (now s).frame ∨ (now s).line ≠ 0 ∨ s.time.running = false → Becomes .wallFrameBoundary s s)

/-- R248, R249: SOURCE_ATTACH makes an entry, UNPROVEN or NOT_TRACKED, with its context and the buffers that could be allocated; SOURCE_DETACH withdraws an entry and ends the bindings of its rules. Where the spec leaves a point open, the model's choice of log entry 7 holds. -/
def Obligations.SourceAttachAndDetach : Prop :=
  (∀ (s u : State) (c : Cmd) (h : Held) (i : Nat) (l : List Nat), ReadyNow s c 0x401 h → checkSourceAttach s h c = none →
    let q := attachReq h.pkt
    let size := if q.kind = 0 then (q.w, q.h) else roundedSize q
    let n := if q.kind = 0 then q.refs + 2 else if q.kind = 3 then 0 else q.buffers
    (if q.any then firstIdx (fun i => !(getEntry s i).valid) 0 4096 else some q.id) = some i →
    sourcesUsed s h.slice < (getSlice s h.slice).share.sources → (q.kind = 0 → ctxFree s h.slice = true) →
    attachBuffers h.slice q.fmt size.1 size.2 (sourceWriter q.kind) n s = (u, .ok l) →
    Runs (.sourceAttach c) s fun t => Finished t c ∧
      getEntry t i = { owner := h.slice, kind := kindOfCode q.kind, state := if q.static then .notTracked else .unproven, valid := true
                       static := q.static, changeBound := !(changeRects u i).isEmpty, period := q.period
                       deadline := if q.deadline = 0 then min 16777215 (3 * q.period) else q.deadline } ∧
      (∀ j, j ≠ i → getEntry t j = getEntry u j) ∧ getSource t i = { fmt := q.fmt, maxW := q.w, maxH := q.h, dpin := q.dpin } ∧
      (q.kind = 0 → getCtx t i = { used := true, slice := h.slice, codec := q.codec, gdr := q.gdr, maxRefs := q.refs, maxRate := q.rate }) ∧
      (q.kind = 1 → (getDp t q.dpin).source = some i) ∧ (∀ hd, hd ∈ l → (getSurf t (handleIndex hd)).source = some i)) ∧
  (∀ (s : State) (c : Cmd) (h : Held), ReadyNow s c 0x402 h → checkSourceDetach s h c = none →
    let i := pf h.pkt 16 0 12
    Runs (.sourceDetach c) s fun t => Finished t c ∧
      Replied t h .ok (nowBits s) (packFields [fAt 16 0 64 (wpBits (decidingAfter s)), fAt 24 0 16 (layersNaming s i)]) ∧
      (getEntry t i).valid = true ∧ (getEntry t i).inp.withdrawn = true ∧ (getEntry t i).inp.arrived = false ∧
      (∀ r, (getRule t r).bound = true → (getRule t r).source ≠ i))

/-- R276, R282: the five FLOW_SET forms store a port's, a rule's, a binding's, a host queue's or a transmit stream's settings and reply. Where the spec leaves a point open, the model's choice of log entry 39 holds. -/
def Obligations.FlowSettings : Prop :=
  (∀ (s : State) (c : Cmd) (h : Held), ReadyNow s c 0x403 h → flowOp h.pkt = 0 → checkFlowPort s h c = none →
    let n := pf h.pkt 17 0 1
    Runs (.flowSetPort c) s fun t => Finished t c ∧ Replied t h .ok (nowBits s) (packFields (flowDetail 0 0)) ∧
      getPort t n = { getPort s n with
        rate10 := pb h.pkt 17 1, fec := pf h.pkt 17 2 2, enable := pb h.pkt 17 4, mcToHost := pb h.pkt 17 5, mtu := pf h.pkt 18 0 16
        mac := pktBE h.pkt 20 6, ip4 := pktBE h.pkt 28 4, ip6 := pktBE h.pkt 32 16, up := (getPort s n).up && pb h.pkt 17 4 } ∧
      ∀ m, m ≠ n → getPort t m = getPort s m) ∧
  (∀ (s : State) (c : Cmd) (h : Held), ReadyNow s c 0x403 h → flowOp h.pkt = 1 → checkFlowRule s h c = none →
    let i := pf h.pkt 18 0 9
    Runs (.flowSetRule c) s fun t => Finished t c ∧ Replied t h .ok (nowBits s) (packFields (flowDetail 1 i)) ∧
      (let r := getRule t i
       r.enable = pb h.pkt 17 7 ∧ r.action = pf h.pkt 17 5 2 ∧ r.ports = pf h.pkt 17 0 2 ∧ r.ipv6 = pb h.pkt 17 2 ∧ r.vlan = pf h.pkt 17 3 2 ∧
       r.vid = pf h.pkt 20 0 12 ∧ r.dstUdp = pf h.pkt 22 0 16 ∧ r.srcUdp = pf h.pkt 24 0 16 ∧ r.queue = pf h.pkt 28 0 4 ∧
       r.dstAddr = (if pb h.pkt 17 2 then pktBE h.pkt 48 16 else pktBE h.pkt 48 4)) ∧
      ∀ j, j ≠ i → getRule t j = getRule s j) ∧
  (∀ (s u : State) (c : Cmd) (h : Held) (hd : Nat), ReadyNow s c 0x403 h → flowOp h.pkt = 2 → checkFlowBind s h c = none →
    let i := pf h.pkt 18 0 9; let src := pf h.pkt 20 0 12; let size := pf h.pkt 32 0 32 * 1024
    allocBytes (endBinding s i) (getEntry s src).owner size .decode = (u, some hd) →
    Runs (.flowSetBind c) s fun t => Finished t c ∧ Replied t h .ok (nowBits s) (packFields (flowDetail 2 i ++ [fAt 20 0 32 hd])) ∧
      (let r := getRule t i
       r.bound = true ∧ r.source = src ∧ r.handle = hd ∧ r.size = size ∧ r.pt = pf h.pkt 22 0 7 ∧ r.reorder = pf h.pkt 23 0 6 ∧
       r.holdLines = pf h.pkt 28 0 16 ∧ r.ssrc = pf h.pkt 24 0 32 ∧ r.ssrcMatch = pb h.pkt 17 0)) ∧
  (∀ (s : State) (c : Cmd) (h : Held), ReadyNow s c 0x403 h → flowOp h.pkt = 3 → checkFlowQueue s h c = none →
    let q := pf h.pkt 17 0 4
    Runs (.flowSetQueue c) s fun t => Finished t c ∧ Replied t h .ok (nowBits s) (packFields (flowDetail 3 q)) ∧
      getQueue t q = { owner := pf h.pkt 18 0 7, port := pf h.pkt 17 4 1, enable := pb h.pkt 17 5, space := pb h.pkt 17 7, vector := pf h.pkt 19 0 4
                       rxLog := pf h.pkt 20 0 5, txLog := pf h.pkt 21 0 5, rxBase := pf h.pkt 24 0 64, txBase := pf h.pkt 32 0 64 } ∧
      (∀ j, j ≠ q → getQueue t j = getQueue s j) ∧
      (pb h.pkt 17 5 = true → pb h.pkt 17 6 = true → (getPort t (pf h.pkt 17 4 1)).dflt = some q)) ∧
  (∀ (s : State) (c : Cmd) (h : Held), ReadyNow s c 0x403 h → flowOp h.pkt = 4 → checkFlowTransmit s h c = none →
    let n := pf h.pkt 17 0 4
    Runs (.flowSetTransmit c) s fun t => Finished t c ∧ Replied t h .ok (nowBits s) (packFields (flowDetail 4 n)) ∧
      (let x := getStream t n
       x.enable = pb h.pkt 17 4 ∧ x.port = pf h.pkt 17 5 1 ∧ x.ipv6 = pb h.pkt 17 6 ∧ x.session = pf h.pkt 18 0 4 ∧ x.pt = pf h.pkt 19 0 7 ∧
       x.srcUdp = pf h.pkt 22 0 16 ∧ x.dstUdp = pf h.pkt 24 0 16 ∧ x.ssrc = pf h.pkt 28 0 32 ∧ x.packets = [] ∧
       ((getStream s n).enable = true → x.seq = (getStream s n).seq)) ∧
      (∀ j, j ≠ n → getStream t j = getStream s j))

/-- R269, R270, R275, R278, R280, R281: frames that arrive are counted and dropped by their defect or delivered to the queue of the rule that takes them; frames leave a port; numbers that did not come in time are lost; a stream sends its session's next unit. Where the spec leaves a point open, the model's choice of log entries 38, 46 and 95 holds. -/
def Obligations.FramesAndFlows : Prop :=
  (∀ (s : State) (q n : Nat), q < 16 → pageOpen s (getQueue s q).owner = true →
    Becomes (.rxTailDoorbell q n) s (modQueue s q fun x => { x with rxTail := BitVec.ofNat 32 n }) ∧
    Becomes (.txTailDoorbell q n) s (modQueue s q fun x => { x with txTail := BitVec.ofNat 32 n })) ∧
  (∀ (s : State) (port : Nat) (frame : List Byte) (stamp : Nat) (host : List HostDesc), port < 2 → (getPort s port).enable = true → (getPort s port).up = true →
    (frame.length < 18 ∨ frame.drop (frame.length - 4) ≠ fcs (frame.take (frame.length - 4))) →
    Becomes (.ethFrameReceived port frame stamp host) s (bump (bump s 3 port 0 1) 3 port 2 1)) ∧
  (∀ (s : State) (port r : Nat) (frame : List Byte) (stamp : Nat) (host : List HostDesc) (d : HostDesc),
    let l := frame.take (frame.length - 4)
    let i := parseFrame l
    let x := getQueue s (getRule s r).queue
    port < 2 → (getPort s port).enable = true → (getPort s port).up = true → 18 ≤ frame.length → frame.drop (frame.length - 4) = fcs l →
    i.etype ≠ 0x8808 → addressOk (getPort s port) i = true → i.sumOk = true → (getPtp s port).engine = 0 → classify s port i = some r →
    (getRule s r).action = 2 → x.enable = true → x.space = false → nextDesc s (getRule s r).queue x false host = (s, some d) →
    Runs (.ethFrameReceived port frame stamp host) s fun t => (getQueue t (getRule s r).queue).rxHead = x.rxHead + 1 ∧
      Output.hostWrite x.owner (pasidOf s x.owner) d.addr (l.take d.length) ∈ t.out ∧ (∀ k, getRule t k = getRule s k)) ∧
  (∀ (s : State) (port n : Nat) (host : List HostDesc) (f : List Byte) (rest : List (List Byte)),
    port < 2 → (getPort s port).enable = true → (getPort s port).up = true → (getPort s port).ptp = [] →
    (queueFrame s (getPtp s port).hostQueue host).2 = none →
    roundRobin 16 (getPort s port).nextStream (fun n => (getStream s n).enable && (getStream s n).port == port && !(getStream s n).packets.isEmpty) = some n →
    (getStream s n).packets = f :: rest →
    Runs (.ethFrameTransmit port host) s fun t => t.out = s.out ++ [.eth port (f ++ fcs f)] ∧ getStream t n = { getStream s n with packets := rest } ∧
      (getPort t port).nextStream = n + 1 ∧ t.store = s.store ∧ t.rings = s.rings) ∧
  (∀ (s : State) (port : Nat) (up modAbs rxLos txFault : Bool), port < 2 →
    Runs (.ethernetLinkChange port up modAbs rxLos txFault) s fun t =>
      getPort t port = { getPort s port with up := up && (getPort s port).enable && !modAbs && !rxLos, modAbs := modAbs, rxLos := rxLos, txFault := txFault } ∧
      ∀ m, m ≠ port → getPort t m = getPort s m) ∧
  (∀ (s : State) (r : Nat) (p : RtpPacket), (getRule s r).held = [p] → p.marker = false →
    (getRule s r).holdLines ≤ linesBetween (wallLines s) (lineOf p.stamp) (now s) →
    Runs (.reorderHoldTimeout r) s fun t => (getRule t r).held = [] ∧ (getRule t r).expected = some ((p.seq + 1) % 65536) ∧
      (getRule t r).lost = satAdd 32 (getRule s r).lost (seqAhead (getRule s r) p.seq)) ∧
  (∀ (s s1 s2 s3 : State) (n c : Nat) (hd unit : List Byte),
    let x := getStream s n
    let e := getSession s x.session
    let base := (latchedSurf s1 e.ring).base + 4096 + c % (e.ringSize - 4096)
    let l := (unitNals unit).flatMap (rtpPayloads e.h264 ((getPort s3 x.port).mtu - (if x.ipv6 then 40 else 20) - 20))
    x.enable = true → e.used = true → ringConsumed s e = (s1, some c) → c ≠ e.produced →
    storeRead s1 e.owner engEncode base 32 = (s2, some hd) → bitAt (byteAt hd 20) 7 = false →
    storeRead s2 e.owner engEncode (base + 32) (leAt hd 0 4) = (s3, some unit) → x.seq < 65536 →
    Runs (.rtpTransmitUnit n) s fun t => (getStream t n).packets.length = x.packets.length + l.length ∧
      (getStream t n).seq = (x.seq + l.length) % 65536 ∧ (∀ m, m ≠ n → getStream t m = getStream s m))

/-- R234, R237, R238, R240, R242, R250, R458: a free decode core takes up the picture of the context that comes first, refuses an unfit parameter set, or begins a new picture in a free buffer; each finished row advances it, and its last one ends it; DECODE_STATUS answers the context's record; an idle core powers off. Where the spec leaves a point open, the model's choice of log entries 37 and 39 holds. -/
def Obligations.DecodeWork : Prop :=
  (∀ (s : State) (core i : Nat) (pic : PicInfo), core < 8 → s.media.decOut.contains core = false → ctxsWhere s (fun x => ctxCore x == some core) = [] →
    bestOf s s.media.decCredit (fun i => (getCtx s i).slice) (fun i => ctxStamp (getCtx s i)) (ctxsWhere s (ctxReady s)) = some i →
    let x := getCtx s i
    (∀ p, x.pic = some p → Runs (.decodeContextSchedule core pic) s fun t => getCtx t i = { x with pic := some { p with core := some core } } ∧
      tget false t.power.decodeOn core = true ∧ (∀ j, j ≠ i → getCtx t j = getCtx s j)) ∧
    (∀ a, x.pic = none → x.queue.head? = some a → (auInfo (x.codec == 1) a.nals).coded = true → seqDetail x (getSource s i) pic.seq ≠ 0 →
      x.refused = false → (getEntry s i).valid = true → (getEntry s i).inp.unfit = false →
      Runs (.decodeContextSchedule core pic) s fun t => (getCtx t i).unfitDetail = seqDetail x (getSource s i) pic.seq ∧ (getCtx t i).wait = true ∧
        (getCtx t i).queue = x.queue.drop 1 ∧ (getEntry t i).inp.unfit = true) ∧
    (∀ a b, x.pic = none → x.queue.head? = some a → (auInfo (x.codec == 1) a.nals).coded = true → seqDetail x (getSource s i) pic.seq = 0 →
      x.wait = true → (auInfo (x.codec == 1) a.nals).rap = true → decodeBuffer (modCtx s i fun x => { x with refs := [] }) i = some b →
      Runs (.decodeContextSchedule core pic) s fun t => (getCtx t i).wait = false ∧ (getSurf t b).pass = ((getSurf s b).pass + 1) % 2 ^ 16 ∧
        (getSurf t b).frontier = 0 ∧ ∃ p, (getCtx t i).pic = some p ∧ p.surf = b ∧ p.core = some core ∧ p.rap = true ∧ p.subst = false ∧
          p.width = pic.seq.width ∧ p.height = pic.seq.height)) ∧
  (∀ (s : State) (core i : Nat) (row : DecodedRow) (p : DecPic), (ctxsWhere s fun x => ctxCore x == some core).head? = some i → (getCtx s i).pic = some p →
    let u := readCoded s i
    let n := min (ceilDiv p.codedW p.ctu - 1) (max p.ctus row.ctus)
    (row.starved = true → Runs (.decodeCtuRowDone core row) s fun t => (∃ q, (getCtx t i).pic = some q ∧ q.core = none ∧ q.row = p.row ∧ q.ctus = n) ∧
      tget 0 t.media.decCredit (getCtx s i).slice = tget 0 s.media.decCredit (getCtx s i).slice - (n - p.ctus) * p.ctu * p.ctu) ∧
    (row.starved = false → p.orphan = false → (getSurf u p.surf).rebuilding = false →
      writerBlocked u p.surf (getSurf u p.surf).pass p.lines (rowFrontier p - 1) = false →
      (p.row + 1 < picRows p → Runs (.decodeCtuRowDone core row) s fun t =>
        ∃ q, (getCtx t i).pic = some q ∧ q.row = p.row + 1 ∧ q.lines = rowFrontier p ∧ q.surf = p.surf ∧ q.core = p.core) ∧
      (picRows p ≤ p.row + 1 → Runs (.decodeCtuRowDone core row) s fun t =>
        (getCtx t i).pic = none ∧ (getCtx t i).queue = (getCtx s i).queue.drop 1))) ∧
  (∀ (s : State) (core : Nat), ctxsWhere s (fun x => ctxCore x == some core || ctxReady s x) = [] →
    Becomes (.decodeCoreIdleTimer core) s { s with power := { s.power with decodeOn := tset false s.power.decodeOn core false } }) ∧
  (∀ (s u : State) (c : Cmd) (h : Held), ReadyNow s c 0x405 h → checkDecodeStatus s h c = none →
    let r := ctxRecord s (getCtx s (pf h.pkt 16 0 12))
    (pf h.pkt 24 0 64 = 0 → Answers (.decodeStatus c) s c h .ok (nowBits s) [fAt 16 0 128 r] s) ∧
    (pf h.pkt 24 0 64 ≠ 0 → destWrite s h.slice engLock (destSpace s) c.ok (pf h.pkt 24 0 64) (bytesLE 64 r) = (u, true) →
      Answers (.decodeStatus c) s c h .ok (nowBits s) [fAt 16 0 128 r] u))

/-- R254, R256, R257, R260, R266 to R268: ENCODE_OPEN makes a session when all that it needs can be allocated; rate and key requests wait for the next capture; a core takes a session's picture and codes it row by row; ENCODE_CLOSE defers and ends the session after its last picture. Where the spec leaves a point open, the model's choice of log entries 37, 43, 45 and 111 holds. -/
def Obligations.EncodeSessions : Prop :=
  (∀ (s s1 s2 s3 : State) (c : Cmd) (h : Held) (cl rl : List Nat) (ring n : Nat), ReadyNow s c 0x501 h → checkEncodeOpen s h c = none →
    let x := openSession h.slice h.pkt
    let k := (getOut s x.output).cfg
    let up := fun n : Nat => (n + 7) / 8 * 8
    (if x.input = 0 then allocMany h.slice 0x13 k.hActive k.vActive .capture (pf h.pkt 19 4 2 + 2) s else (s, some [])) = (s1, some cl) →
    allocMany h.slice 0x21 (up x.width) (up x.height) .capture 2 s1 = (s2, some rl) →
    allocBytes s2 h.slice x.ringSize .capture = (s3, some ring) → firstIdx (fun i => !(getSession s i).used) 0 16 = some n →
    Runs (.encodeOpen c) s fun t => Finished t c ∧ getSession t n = { x with level := (levelOf s x).getD 0, ring := ring, captures := cl, recon := rl } ∧
      (∀ m, m ≠ n → getSession t m = getSession s m) ∧ tget false t.power.encodeOn 0 = true ∧ tget false t.power.encodeOn 1 = true) ∧
  (∀ (s : State) (c : Cmd) (h : Held), ReadyNow s c 0x502 h → checkEncodeSetRate s h c = none →
    Holds (.encodeSetRate c) s c h (modSession s (pf h.pkt 16 0 4) fun x => { x with rateReqs := x.rateReqs ++ [(Cmd.key c, none, rateOf h.pkt)] })) ∧
  (∀ (s : State) (c : Cmd) (h : Held), ReadyNow s c 0x503 h → checkKeyPicture s h c = none →
    Holds (.keyPicture c) s c h (modSession s (pf h.pkt 16 0 4) fun x => { x with keyReqs := x.keyReqs ++ [(Cmd.key c, none)] })) ∧
  (∀ (s : State) (core n : Nat), core < 2 → s.media.encOut.contains core = false →
    sessionsWhere s (fun x => match x.coding with | some p => p.core == some core | none => false) = [] →
    s.media.encOrphans.any (fun e => e.core == core) = false →
    bestOf s s.media.encCredit (fun n => (getSession s n).owner) (fun n => encStart (getSession s n)) (sessionsWhere s (encReady s)) = some n →
    (∀ p, (getSession s n).coding = some p →
      Becomes (.encodeCoreSchedule core) s (modSession s n fun x => { x with coding := some { p with core := some core } })) ∧
    (∀ p, (getSession s n).coding = none → (getSession s n).waiting = some p →
      Runs (.encodeCoreSchedule core) s fun t => (getSession t n).waiting = none ∧ (getSession t n).coding =
        some { p with core := some core, budget := (pictureBudget (getSession s n) p).1, skipAt := (pictureBudget (getSession s n) p).2 })) ∧
  (∀ (s : State) (core n : Nat) (row : CodedRow) (p : EncPic),
    let x := getSession s n
    (sessionsWhere s fun x => match x.coding with | some p => p.core == some core | none => false).head? = some n → x.coding = some p →
    (rowReady s x p = false → Becomes (.encodeCtuRowCoded core row) s (modSession s n fun x => { x with coding := some { p with core := none } })) ∧
    (rowReady s x p = true → p.row + 1 ≠ encRows x → Runs (.encodeCtuRowCoded core row) s fun t =>
      ∃ q, (getSession t n).coding = some q ∧ q.row = p.row + 1 ∧ q.u = p.u + row.bits ∧ q.number = p.number ∧
        (p.rate.cqp = true → q.vectors = p.vectors ++ (rowVectors s x p x.initQp row.cus).1)) ∧
    (rowReady s x p = true → p.row + 1 = encRows x → Runs (.encodeCtuRowCoded core row) s fun t =>
      (getSession t n).coding = none ∧ (getSession t n).coded = satAdd 32 x.coded 1)) ∧
  (∀ (s : State) (c : Cmd) (h : Held), ReadyNow s c 0x504 h → checkEncodeClose s h c = none →
    let n := pf h.pkt 16 0 4
    Runs (.encodeClose c) s fun t => (getSession t n).closing = some (Cmd.key c) ∧ (getSession t n).discard = pb h.pkt 16 4 ∧ (getSession t n).waiting = none ∧
      (getSession t n).coding = (if pb h.pkt 16 4 then none else (getSession s n).coding) ∧ (getSession t n).rateReqs = [] ∧ (getSession t n).keyReqs = [] ∧
      ((getSession s n).rateReqs = [] → (getSession s n).keyReqs = [] → findHeld t (Cmd.key c) = some { h with phase := .deferred })) ∧
  (∀ (s : State) (n : Nat) (k : CmdKey), (getSession s n).closing = some k → (getSession s n).coding = none → n < 16 →
    (∀ h, findHeld s k = some h → h.slice = k.slice) →
    Runs (.encodeCloseComplete n) s fun t => getSession t n = {} ∧ findHeld t k = none ∧ ∀ m, m ≠ n → getSession t m = getSession s m)

/-- R284, R287, R288, R289: DPIN_CONFIGURE stores an input's limits, EDID and enable, and raises, drops or pulses HPD; training, video, lock and a symbol error move the input between its states. R286, R287: a frame of an input starts a pass in a free buffer, or makes its source UNFIT when its format or size does not suit; its lines follow one by one, and the last one ends it. Where the spec leaves a point open, the model's choice of log entries 21 and 48 holds. -/
def Obligations.DisplayPortInputs : Prop :=
  (∀ (s u : State) (c : Cmd) (h : Held) (l : List Byte), ReadyNow s c 0x404 h → checkDpin s h c = none →
    let i := pf h.pkt 16 0 2
    let load := pb h.pkt 16 3
    (load = true → srcRead s h.slice engLock (pb h.pkt 16 4) c (pf h.pkt 24 0 64) (pf h.pkt 18 0 16) = (u, some l) ∧ edidGood l = true) →
    Runs (.dpinConfigure c) s fun t => Finished t c ∧
      (let d := getDp s i; let d' := getDp t i
       d'.enable = pb h.pkt 16 2 ∧ d'.maxLanes = 2 ^ pf h.pkt 17 0 2 ∧ d'.maxRate = pf h.pkt 17 2 2 ∧ d'.edid = (if load then l else d.edid) ∧ d'.source = d.source ∧
       (pb h.pkt 16 2 = false → d'.state = .disabled ∧ d'.hpd = false ∧ d'.frame = none) ∧
       (pb h.pkt 16 2 = true → d.state = .disabled → d'.state = .waiting ∧ d'.hpd = true) ∧
       (pb h.pkt 16 2 = true → d.state ≠ .disabled → load = true → d'.state = .waiting ∧ d'.hpd = false ∧ d'.pulse = true) ∧
       (pb h.pkt 16 2 = true → d.state ≠ .disabled → load = false → d'.state = d.state ∧ d'.hpd = d.hpd)) ∧
      ∀ j, j ≠ i → getDp t j = getDp s j) ∧
  (∀ (s : State) (i : Nat), (getDp s i).pulse = true → passed s (getDp s i).pulseAt 100000000 = true →
    Runs (.dpinHpdPulseEnd i) s fun t => (getDp t i).pulse = false ∧ (getDp t i).hpd = true ∧ (getDp t i).state = (getDp s i).state) ∧
  (∀ (s : State) (i : Nat), ((getDp s i).state = .waiting ∨ dpTrained (getDp s i).state = true) → (getDp s i).hpd = true →
    Runs (.dpinTrainingStart i) s fun t => (getDp t i).state = .training ∧ (getDp t i).attempt = satAdd 16 (getDp s i).attempt 1 ∧
      (getDp t i).lanes = 0 ∧ (getDp t i).video = false ∧ (getDp t i).frame = none) ∧
  (∀ (s : State) (i lanes rate : Nat), (getDp s i).state = .training → (lanes = 1 ∨ lanes = 2 ∨ lanes = 4) → lanes ≤ (getDp s i).maxLanes → rate ≤ (getDp s i).maxRate →
    Runs (.dpinTrainingEnd i 0 lanes rate) s fun t => (getDp t i).state = .noVideo ∧ (getDp t i).lanes = lanes ∧ (getDp t i).rate = rate ∧ (getDp t i).lock = true) ∧
  (∀ (s : State) (i r lanes rate : Nat), (getDp s i).state = .training → (r = 1 ∨ r = 2) →
    Runs (.dpinTrainingEnd i r lanes rate) s fun t => (getDp t i).state = .waiting) ∧
  (∀ (s : State) (i : Nat), (getDp s i).lock = true → (getDp s i).state = .noVideo →
    Runs (.dpinVideoChange i true) s fun t => (getDp t i).state = dpVideoState s i false ∧ (getDp t i).video = true) ∧
  (∀ (s : State) (i : Nat), (getDp s i).lock = true → ((getDp s i).state = .held ∨ (getDp s i).state = .receiving) →
    Runs (.dpinVideoChange i false) s fun t => (getDp t i).state = .noVideo ∧ (getDp t i).video = false ∧ (getDp t i).frame = none ∧ (getDp t i).hActive = 0) ∧
  (∀ (s : State) (i : Nat), dpTrained (getDp s i).state = true → (getDp s i).lock = true →
    Runs (.dpinLockLoss i) s fun t => (getDp t i).state = .noVideo ∧ (getDp t i).lock = false ∧ (getDp t i).frame = none ∧
      ∀ f src, (getDp s i).frame = some f → (getDp s i).source = some src → (getEntry s src).valid = true → (getEntry t src).inp.damaged = true) ∧
  (∀ (s : State) (i : Nat), (getDp s i).state = .noVideo → (getDp s i).lock = false →
    Runs (.dpinLockRegained i) s fun t => (getDp t i).lock = true ∧ (getDp t i).state = if (getDp s i).video then dpVideoState s i false else .noVideo) ∧
  (∀ (s : State) (i lane src : Nat) (disparity : Bool) (f : DpFrame), (getDp s i).frame = some f → (getDp s i).source = some src →
    Runs (.dpinSymbolError ⟨i, lane, disparity⟩) s fun t => (getDp t i).frame = some { f with damaged := true } ∧ ((getEntry s src).valid = true → (getEntry t src).inp.damaged = true)) ∧
  (∀ (s : State) (i src b : Nat) (m : Msa),
    i < 4 → ((getDp s i).state = .held ∨ (getDp s i).state = .receiving) → (getDp s i).lock = true → (getDp s i).source = some src →
    dpUnfit (getSource s src) m = 0 → dpVideoState s i false = .receiving → dpBuffer s src = some b →
    Runs (.dpinFrameStart i m) s fun t => (getDp t i).state = .receiving ∧
      (getDp t i).frame = some { surf := b, origin := lineOf (now s), width := m.hActive, height := m.vActive, bpc := m.bpc, ycc := dpEncoding m == 4 } ∧
      (getSurf t b).pass = ((getSurf s b).pass + 1) % 2 ^ 16 ∧ (getSurf t b).frontier = 0 ∧ (getDp t i).hActive = m.hActive ∧ (getDp t i).vActive = m.vActive) ∧
  (∀ (s : State) (i src : Nat) (m : Msa),
    i < 4 → ((getDp s i).state = .held ∨ (getDp s i).state = .receiving) → (getDp s i).lock = true → (getDp s i).source = some src →
    dpUnfit (getSource s src) m ≠ 0 → intakeStopped s (getEntry s src).owner = false → (getEntry s src).valid = true → (getEntry s src).inp.unfit = false →
    Runs (.dpinFrameStart i m) s fun t => (getDp t i).state = .held ∧ (getDp t i).frame = none ∧ (getEntry t src).inp.unfit = true ∧
      (getEntry t src).unfitReason = dpUnfit (getSource s src) m) ∧
  (∀ (s : State) (i src : Nat) (f : DpFrame) (px : List Nat), (getDp s i).frame = some f → (getDp s i).source = some src →
    (f.line + 1 < f.height → Runs (.dpinActiveLine i px) s fun t => (getDp t i).frame = some { f with line := f.line + 1 }) ∧
    (f.height ≤ f.line + 1 → Runs (.dpinActiveLine i px) s fun t => (getDp t i).frame = none ∧ (getDp t i).state = (getDp s i).state))

/-- R292, R294, R306: REF_TABLE_SET writes an entry, which restarts its qualification when what it measures changes, or the settings of the reference outputs for the next boundary; REF_STATUS answers the loop and writes its record. R293, R294: a measurement gives an entry its offsets and phase and moves its state by them; a loss disqualifies it; its timers qualify and disqualify it. Where the spec leaves a point open, the model's choice of log entries 49 and 51 holds. -/
def Obligations.References : Prop :=
  (∀ (s : State) (c : Cmd) (h : Held), ReadyNow s c 0x701 h → pf h.pkt 16 0 2 = 0 → checkRefEntry s h c = none →
    let n := pf h.pkt 17 0 3
    let e := refOfPkt h.pkt
    Runs (.refTableSetEntry c) s fun t => Finished t c ∧
      (let x := getRef t n; let o := getRef s n
       x.enable = e.enable ∧ x.revertive = e.revertive ∧ x.input = e.input ∧ x.priority = e.priority ∧ x.refType = e.refType ∧ x.falling = e.falling ∧
       x.term50 = e.term50 ∧ x.bandwidth = e.bandwidth ∧ x.window = e.window ∧ x.qualifyS = e.qualifyS ∧ x.disqualifyMs = e.disqualifyMs ∧ x.frameDiv = e.frameDiv ∧
       (e.enable = false → x.state = .disabled) ∧ (e.enable = true → e.input = 15 → x.state = .qualified) ∧
       (e.enable = true → e.input ≠ 15 → o.enable = false → x.state = (if lossHolds s e then .disqualified else .qualifying) ∧ x.measured = false) ∧
       (e.enable = true → e.input ≠ 15 → o.enable = true → o.input = e.input → o.refType = e.refType → o.falling = e.falling → o.term50 = e.term50 →
         o.frameDiv = e.frameDiv → x.state = o.state)) ∧
      ∀ m, m ≠ n → getRef t m = getRef s m) ∧
  (∀ (s : State) (c : Cmd) (h : Held), ReadyNow s c 0x701 h → pf h.pkt 16 0 2 = 1 → checkRefOutputs s h c = none →
    Answers (.refTableSetOutputs c) s c h .ok (nowBits s) [fAt 16 0 8 1]
      { s with head := { s.head with
          pendOuts := some (refOutOf h.pkt 0, refOutOf h.pkt 1, boundaryAfter (now s)), misTol := if pf h.pkt 28 0 16 = 0 then 100 else pf h.pkt 28 0 16 } }) ∧
  (∀ (s u : State) (c : Cmd) (h : Held), ReadyNow s c 0x702 h → checkStatusDest s h c = none →
    (u = s ∧ pf h.pkt 24 0 64 = 0) ∨ (pf h.pkt 24 0 64 ≠ 0 ∧ destWrite s h.slice engLock (destSpace s) c.ok (pf h.pkt 24 0 64) (refStatusRecord s) = (u, true)) →
    Answers (.refStatus c) s c h .ok (nowBits s) [fAt 16 0 8 (dpllCode s.head.dpll), fAt 17 0 8 (selIndex s s.head.selected), fAt 18 0 1 (holdoverReady s).toNat,
      fAt 20 0 16 s.head.historyS, fAt 24 0 64 (misBits (misSelected s))] u) ∧
  (∀ (s : State) (n : Nat) (freq phase : Int),
    let e := getRef s n
    let o := ((peerOffset s n freq).getD freq).natAbs
    let w := e.window * 10
    n < 8 → e.enable = true → e.input ≠ 15 → lossHolds s e = false → passed s e.begun (intervalNs e) = true →
    Runs (.refMeasurementIntervalEnd n freq phase true) s fun t =>
      (let x := getRef t n
       x.offsetLocal = freq ∧ x.offsetPeers = peerOffset s n freq ∧ x.phase = phase ∧ x.loss = false ∧ x.measured = true ∧
       (e.state = .disqualified → x.state = if 3 * w ≤ 4 * o then .disqualified else .qualifying) ∧
       (e.state = .qualifying → x.state = if 3 * w ≤ 4 * o then .disqualified else .qualifying) ∧
       (e.state = .qualified → 4 * o < 3 * w → x.state = .qualified) ∧
       (e.state = .qualified → 3 * w ≤ 4 * o → o < w → x.state = .alarm) ∧
       (e.state = .alarm → 20 * o < 13 * w → x.state = .qualified) ∧
       (e.state = .alarm → 13 * w ≤ 20 * o → o < w → x.state = .alarm ∧ x.timer = none) ∧
       ((e.state = .qualified ∨ e.state = .alarm) → w ≤ o → 0 < w → e.disqualifyMs = 0 → x.state = .disqualified)) ∧
      ∀ m, m ≠ n → getRef t m = getRef s m) ∧
  (∀ (s : State) (n : Nat) (freq phase : Int) (ok : Bool), passed s (getRef s n).begun (intervalNs (getRef s n)) = false →
    Becomes (.refMeasurementIntervalEnd n freq phase ok) s s) ∧
  (∀ (s : State) (n : Nat), n < 8 → (getRef s n).enable = true → (getRef s n).input ≠ 15 →
    (lossHolds s (getRef s n) = true ∨ (getRef s n).input < 2 ∨ inRange (getRef s n).input 4 7 = true) →
    Runs (.refLossCondition n) s fun t => (getRef t n).state = .disqualified ∧ (getRef t n).loss = true ∧ ∀ m, m ≠ n → getRef t m = getRef s m) ∧
  (∀ (s : State) (n : Nat), n < 8 → (getRef s n).state = .qualifying → timerDone s (getRef s n) ((getRef s n).qualifyS * 1000000000) = true →
    Runs (.refQualifyTimer n) s fun t => (getRef t n).state = .qualified ∧ (getRef t n).timer = none) ∧
  (∀ (s : State) (n : Nat), n < 8 → candidate (getRef s n) = true → timerDone s (getRef s n) ((getRef s n).disqualifyMs * 1000000) = true →
    Runs (.refDisqualifyTimer n) s fun t => (getRef t n).state = .disqualified ∧ (getRef t n).timer = none)

/-- R295, R296, R298, R300, R301, R303: with its selected entry lost the loop goes to the best candidate left, or holds; it locks after its interval; each second counts its history, holdover or return; a reference output takes its level. Where the spec leaves a point open, the model's choice of log entry 50 holds. -/
def Obligations.ReferenceLoop : Prop :=
  (∀ (s : State) (n : Nat), n < 8 → (getRef s n).enable = true → (getRef s n).input ≠ 15 → (getRef s n).state ≠ .disqualified → isMember s = false →
    (lossHolds s (getRef s n) = true ∨ (getRef s n).input < 2 ∨ inRange (getRef s n).input 4 7 = true) → s.head.selected = some (.entry n) →
    let u := modRef s n fun e => { e with state := .disqualified }
    (∀ m, bestRef u = some m → (getRef s m).input ≠ 15 → Runs (.refLossCondition n) s fun t => t.head.selected = some (.entry m) ∧ t.head.dpll = .switching) ∧
    (bestRef u = none → Runs (.refLossCondition n) s fun t => t.head.selected = none ∧ t.head.dpll = if holdoverReady s then .holdover else .freeRun)) ∧
  (∀ (s : State) (off : Int), s.head.dpll = .switching → passed s s.head.switchAt (intervalNs (lockTarget s)) = true →
    Runs (.dpllLockComplete off) s fun t => t.head.dpll = .locked ∧ t.head.standing = off / 10 ∧ t.head.remainder = off % 10 ∧ t.head.lockedFor = 0 ∧
      t.head.selected = s.head.selected ∧ t.head.entries = s.head.entries) ∧
  (∀ (s : State) (freq : Int), passed s s.head.secondAt 1000000000 = true →
    Runs (.historySecondTick freq) s fun t =>
      (s.head.dpll = .locked → t.head.freq = max (-50000) (min 50000 freq) ∧ t.head.historyS = satAdd 16 s.head.historyS 1 ∧ t.head.lockedFor = s.head.lockedFor + 1) ∧
      (s.head.dpll = .holdover → t.head.holdoverS = satAdd 32 s.head.holdoverS 1 ∧ t.head.freq = s.head.freq) ∧
      (s.head.dpll = .freeRun → t.head.freq = s.head.freq - max (-100) (min 100 s.head.freq)) ∧ t.head.dpll = s.head.dpll ∧
      t.fabric.runS = (if s.time.running then satAdd 32 s.fabric.runS 1 else s.fabric.runS) ∧ t.out = s.out) ∧
  (∀ s : State, s.head.outA.mode = 1 →
    Runs (.refoutPulse 0) s fun t => t.head.levelA = refLevel s s.head.outA ∧ t.out = (if refLevel s s.head.outA = s.head.levelA then s.out else s.out ++ [.pin 0 (refLevel s s.head.outA)])) ∧
  (∀ s : State, s.head.outB.mode = 1 →
    Runs (.refoutPulse 1) s fun t => t.head.levelB = refLevel s s.head.outB ∧ t.out = (if refLevel s s.head.outB = s.head.levelB then s.out else s.out ++ [.pin 1 (refLevel s s.head.outB)]))

/-- R49, R305: a wall timing and a REALIGN wait for their acting boundary, a root's at least four wall frames ahead; a JUMP while a slew runs ends the slew and is refused; CANCEL and the last tick end a slew. Where the spec leaves a point open, the model's choice of log entries 12, 52 and 66 holds. -/
def Obligations.TimingAndRealign : Prop :=
  (∀ (s : State) (c : Cmd) (h : Held), ReadyNow s c 0x703 h → checkTiming s h c = none →
    let tm := timingOf h.pkt
    let b := fabricBoundary s h
    let am := if tm.anchor.isNone then (0, 0) else match anchoredAt s tm ⟨b, 0, 0⟩ with
      | some a => (wpBits a, ofSigned 64 (tickDelta tm.lines ⟨b, 0, 0⟩ a))
      | none => (0xFFFFFFFFFFFFFFFF, 0xFFFFFFFFFFFFFFFF)
    Answers (.wallTimingSet c) s c h .ok (boundaryBits b) [fAt 16 0 64 am.1, fAt 24 0 64 am.2]
      { s with time := { s.time with pendTiming := s.time.pendTiming ++ [(tm, b, none)] } }) ∧
  (∀ (s : State) (c : Cmd) (h : Held) (i : Instr), (i = .realignJump c ∧ realignMode h.pkt = 0) ∨ (i = .realignSlew c ∧ realignMode h.pkt = 1) →
    ReadyNow s c 0x704 h → checkRealign s h c = none → s.time.slew = none →
    Runs i s fun t => findHeld t (Cmd.key c) = some { h with phase := .committed } ∧
      quiet t = quiet { s with time := { s.time with realign := s.time.realign ++ [{
        key := some (Cmd.key c), slew := realignMode h.pkt == 1, target := pf h.pkt 16 2 2, delta := toSigned 64 (pf h.pkt 24 0 64)
        rate := pf h.pkt 17 0 8, frame := fabricBoundary s h }] } }) ∧
  (∀ (s : State) (c : Cmd) (h : Held) (w : Slew), ReadyNow s c 0x704 h → realignMode h.pkt = 0 → checkRealign s h c = none → s.time.slew = some w →
    Runs (.realignJump c) s fun t => Finished t c ∧ t.time.slew = none ∧ t.time.realign = s.time.realign ∧ Replied t h .notReady (nowBits s) 0) ∧
  (∀ (s : State) (c : Cmd) (h : Held) (w : Slew), ReadyNow s c 0x704 h → realignMode h.pkt = 2 → checkRealign s h c = none → s.time.slew = some w →
    Runs (.realignCancel c) s fun t => Finished t c ∧ t.time.slew = none ∧ now t = now s ∧
      Replied t h .ok (nowBits s) (packFields [fAt 16 0 64 (ofSigned 64 w.total), fAt 24 0 64 (ofSigned 64 (slewLeft s))])) ∧
  (∀ (s : State) (w : Slew), s.time.slew = some w → slewLeft s = 0 → (∀ k h, w.key = some k → findHeld s k = some h → h.slice = k.slice) →
    Runs .realignSlewComplete s fun t => t.time.slew = none ∧ now t = now s ∧ ∀ k, w.key = some k → findHeld t k = none)

/-- R442, R446, R447, R449, R451: a 64-bit register takes a whole write, or the value of a held lower half with its upper half; a lower-half read holds the upper half; GAUGE_LAST holds its tag and count with it; RESET_REQ takes only its word; FIRQ_POP removes the oldest entry and raises vector 16 while one is left; a vector that waits is sent when it is unmasked. Where the spec leaves a point open, the model's choice of log entry 67 holds. -/
def Obligations.RegisterAccess : Prop :=
  (∀ (s : State) (v : Nat), regsOpen s = true → v < 2 ^ 64 →
    Becomes (.registerWrite 0x230 8 v) s { s with regs := { s.regs with fwinBase := v } }) ∧
  (∀ (s : State) (off v old : Nat), regAt s off = some (8, old) → off % 8 = 0 → v < 2 ^ 32 →
    Becomes (.registerWrite off 4 v) s { s with regs := { s.regs with writeLatch := tset none s.regs.writeLatch off (some v) } }) ∧
  (∀ (s : State) (lo hi : Nat), regsOpen s = true → tget none s.regs.writeLatch 0x230 = some lo → hi < 2 ^ 32 →
    Becomes (.registerWrite 0x234 4 hi) s { s with regs := { s.regs with
      fwinBase := lo + hi * 2 ^ 32
      writeLatch := tset none s.regs.writeLatch 0x230 none } }) ∧
  (∀ (s : State) (off size v : Nat), size ≠ 4 → size ≠ 8 → Becomes (.registerWrite off size v) s s) ∧
  (∀ (s : State) (off v : Nat), regAt s off = some (8, v) → ¬ (0x800 ≤ off ∧ off ≤ 0x8FF) →
    Becomes (.registerLowerHalfRead off) s { s with
      regs := { s.regs with readLatch := tset none s.regs.readLatch off (some (v / 2 ^ 32)) }
      out := s.out ++ [.readData 4 (v % 2 ^ 32)] }) ∧
  (∀ (s : State) (off v w : Nat), regAt s off = some (8, w) → regAt s (off + 4) = none → off % 8 = 0 → tget none s.regs.readLatch off = some v →
    Becomes (.registerLowerHalfRead (off + 4)) s { s with
      regs := { s.regs with readLatch := tset none s.regs.readLatch off none }
      out := s.out ++ [.readData 4 v] }) ∧
  (∀ (s : State) (u : Nat), regsOpen s = true → u < 8 →
    Becomes (.gaugeLastRead u) s { s with
      regs := { s.regs with
        gaugeTag := tset 0 s.regs.gaugeTag u ((tget {} s.gauge.units u).tagB * 2 ^ 32 + (tget {} s.gauge.units u).tagA)
        gaugeCount := tset 0 s.regs.gaugeCount u (tget {} s.gauge.units u).results }
      out := s.out ++ [.readData 8 (tget {} s.gauge.units u).last] }) ∧
  (∀ (s : State) (v : Nat), v % 2 ^ 32 ≠ 0x52535451 → Becomes (.resetReqWrite v) s s) ∧
  (∀ (s : State) (v : Nat), v % 2 ^ 32 = 0x52535451 → s.power.inRange = true → (s.boot.state = .thermalTrip → hottest s.boot.sensors < 1000) →
    Becomes (.resetReqWrite v) s (deviceReset s 6)) ∧
  (∀ (s : State), regsOpen s = true →
    Leaves .firqPop s { s with regs := { s.regs with firq := s.regs.firq.drop 1, firqOverflow := false } }) ∧
  (∀ (s : State), regsOpen s = true → 1 < s.regs.firq.length → s.regs.headless = false → s.regs.loopback = false →
    tget false s.regs.unmasked 16 = true → Runs .firqPop s fun t => t.out = s.out ++ [.msix 16]) ∧
  (∀ (s : State), regsOpen s = true → Becomes .fwinTimeoutClear s { s with regs := { s.regs with fwinTimeout := false } }) ∧
  (∀ (s : State) (v : Nat), v < 1088 → tget false s.regs.msixPending v = true →
    Becomes (.msixVectorUnmask v) s { s with
      regs := { s.regs with
        unmasked := tset false s.regs.unmasked v true
        msixPending := tset false s.regs.msixPending v false }
      out := s.out ++ [.msix v] }) ∧
  (∀ (s : State) (v : Nat), v < 1088 → tget false s.regs.msixPending v = false →
    Becomes (.msixVectorUnmask v) s { s with regs := { s.regs with unmasked := tset false s.regs.unmasked v true } })

/-- R366, R371, R375, R450, R455: an access through an aperture or the debug port is decided unit by unit: what is allowed is done, and a denied read answers 0xDEB0_DEB0; an aperture that is off denies with RULE 0xFFC; with the fuses off the debug port does nothing, and the fuse stays blown. Where the spec leaves a point open, the model's choice of log entry 13 holds. -/
def Obligations.ApertureAndDebugAccess : Prop :=
  (∀ (s : State) (off a : Nat) (l : List Byte), regsOpen s = true → off < 64 * 0x10000000 →
    (tget {} s.regs.apertures (off / 0x10000000)).enable = true →
    a = (tget {} s.regs.apertures (off / 0x10000000)).base / 65536 * 65536 + off % 0x10000000 →
    inRegSpace a = false → a / 256 = (a + l.length - 1) / 256 → 0 < l.length →
    weirDecide s (tget {} s.regs.apertures (off / 0x10000000)).slice engHost true a = none →
    Becomes (.bar2ApertureAccess true off l) s (writeBytes s a l)) ∧
  (∀ (s : State) (off a : Nat) (l : List Byte), regsOpen s = true → off < 64 * 0x10000000 →
    (tget {} s.regs.apertures (off / 0x10000000)).enable = true →
    a = (tget {} s.regs.apertures (off / 0x10000000)).base / 65536 * 65536 + off % 0x10000000 →
    inRegSpace a = false → a / 256 = (a + l.length - 1) / 256 → 0 < l.length →
    weirDecide s (tget {} s.regs.apertures (off / 0x10000000)).slice engHost false a = none → rangePoisoned s a l.length = false →
    Becomes (.bar2ApertureAccess false off l) s { s with out := s.out ++ [.readData l.length (natLE (readBytes s a l.length))] }) ∧
  (∀ (s : State) (off a : Nat), regsOpen s = true → off < 64 * 0x10000000 →
    (tget {} s.regs.apertures (off / 0x10000000)).enable = false → off % 256 + 4 ≤ 256 →
    a = (tget {} s.regs.apertures (off / 0x10000000)).base / 65536 * 65536 + off % 0x10000000 →
    Runs (.bar2ApertureAccess false off [0, 0, 0, 0]) s fun t =>
      Output.readData 4 0xDEB0DEB0 ∈ t.out ∧ quiet t = quiet s ∧ sameBytes t s ∧
      (s.weir.violation = none → ∃ n, t.weir.violation = some { slice := (tget {} s.regs.apertures (off / 0x10000000)).slice, engine := engHost, rule := 0xFFC, wp := nowBits s, address := a / 256 * 256, count := n })) ∧
  (∀ (s : State) (a : Nat) (l : List Byte), debugOn s = true → inRegSpace a = false → a / 256 = (a + l.length - 1) / 256 → 0 < l.length →
    debugDecide s true a = none → Becomes (.debugAccess true a l) s (writeBytes s a l)) ∧
  (∀ (s : State) (w : Bool) (a : Nat) (l : List Byte), debugOn s = false → Becomes (.debugAccess w a l) s s) ∧
  (∀ (s : State), s.boot.lk = .running →
    Runs .dbgKillFuseWrite s fun t => t = { s with boot := { s.boot with dbgKill := true } } ∧ debugOn t = false)

/-- R448, R449: an access in the window becomes a REMOTE packet to the target, its answer completes it, and one that waits 50 µs completes with ones and sets TIMEOUT; without the window a read is ones and a write is dropped; an INTERRUPT enters the FIFO once, and a full FIFO sets OVERFLOW. Where the spec leaves a point open, the model's choice of log entry 61 holds. -/
def Obligations.FabricWindow : Prop :=
  (∀ (s : State) (off size v : Nat), regsOpen s = true → s.regs.fwinEnable = true → inRange s.regs.fwinTarget 1 4094 = true →
    reachable s s.regs.fwinTarget = true →
    Becomes (.fabricWindowAccess true off size v) s (routePkt s none { dest := s.regs.fwinTarget, src := s.fabric.addr, kind := 7, payload := bytesLE 8 (s.regs.fwinBase / 2 ^ 24 * 2 ^ 24 + off % 2 ^ 24) ++ bytesLE size v })) ∧
  (∀ (s : State) (off size v : Nat), regsOpen s = true → s.regs.fwinEnable = true → inRange s.regs.fwinTarget 1 4094 = true →
    reachable s s.regs.fwinTarget = true →
    Leaves (.fabricWindowAccess false off size v) s { s with regs := { s.regs with
      winSeq := (s.regs.winSeq + 1) % 2 ^ 32
      winReads := s.regs.winReads ++ [{ target := s.regs.fwinTarget, addr := s.regs.fwinBase / 2 ^ 24 * 2 ^ 24 + off % 2 ^ 24, size := size, seq := s.regs.winSeq, at_ := upTime s }] } }) ∧
  (∀ (s : State) (w : Bool) (off size v : Nat), regsOpen s = true → s.regs.fwinEnable = false →
    Becomes (.fabricWindowAccess w off size v) s { s with out := s.out ++ if w then [] else [.readData size (2 ^ (8 * size) - 1)] }) ∧
  (∀ (s : State) (w : WinRead) (rest : List WinRead), s.regs.winReads = w :: rest → passed s w.at_ 50000 = true →
    Becomes .fabricWindowReadTimeout s { s with
      regs := { s.regs with winReads := rest, fwinTimeout := true }
      out := s.out ++ [.readData w.size (2 ^ (8 * w.size) - 1)] }) ∧
  (∀ (s u : State) (port : Nat) (pkt : List (List Bool)) (q : Pkt) (w : WinRead), takeMgmt s port 9 pkt = (u, some q) →
    u.regs.winReads.find? (fun w => w.seq == leAt q.payload 0 4 && w.target == q.src) = some w →
    Becomes (.remoteData port pkt) s { u with
      regs := { u.regs with winReads := u.regs.winReads.filter (· != w) }
      out := u.out ++ [.readData w.size (natLE ((q.payload.drop 4).take w.size))] }) ∧
  (∀ (s u : State) (port : Nat) (pkt : List (List Bool)) (q : Pkt) (a : Nat), takeMgmt s port 7 pkt = (u, some q) → a = leAt q.payload 0 8 →
    inRegSpace a = false → a / 256 = (a + (q.payload.length - 8) - 1) / 256 → 8 < q.payload.length →
    weirDecide u 0 engFabric true a = none →
    Becomes (.remoteWrite port pkt) s (writeBytes u a (q.payload.drop 8))) ∧
  (∀ (s u : State) (port : Nat) (pkt : List (List Bool)) (q : Pkt) (a n : Nat), takeMgmt s port 8 pkt = (u, some q) → a = leAt q.payload 0 8 →
    n = leAt q.payload 8 4 → inRegSpace a = false → a / 256 = (a + n - 1) / 256 → 0 < n → weirDecide u 0 engFabric false a = none → rangePoisoned u a n = false →
    Becomes (.remoteRead port pkt) s (routePkt u none { dest := q.src, src := u.fabric.addr, kind := 9, payload := (q.payload.drop 12).take 4 ++ readBytes u a n })) ∧
  (∀ (s u : State) (port : Nat) (pkt : List (List Bool)) (q : Pkt) (f : Firq), takeMgmt s port 10 pkt = (u, some q) →
    f = { src := q.src, vector := byteAt q.payload 0 % 64 } → f ∉ u.regs.firq → u.regs.firq.length < 64 →
    Leaves (.interruptPacket port pkt) s { u with regs := { u.regs with firq := u.regs.firq ++ [f] } }) ∧
  (∀ (s u : State) (port : Nat) (pkt : List (List Bool)) (q : Pkt) (f : Firq), takeMgmt s port 10 pkt = (u, some q) →
    f = { src := q.src, vector := byteAt q.payload 0 % 64 } → f ∈ u.regs.firq → Becomes (.interruptPacket port pkt) s u) ∧
  (∀ (s u : State) (port : Nat) (pkt : List (List Bool)) (q : Pkt) (f : Firq), takeMgmt s port 10 pkt = (u, some q) →
    f = { src := q.src, vector := byteAt q.payload 0 % 64 } → f ∉ u.regs.firq → 64 ≤ u.regs.firq.length →
    Becomes (.interruptPacket port pkt) s { u with regs := { u.regs with firqOverflow := true } }) ∧
  (∀ (s u : State) (port kind : Nat) (bits : List (List Bool)) (l : List Byte) (q : Pkt), port < 4 → (getTod s port).state = .forwarding →
    takeLanes s port bits = (u, some l) → parsePkt l = some q → q.kind = kind → q.vc = 1 → q.dest ≠ 4095 → routeOf u q.dest = some 15 →
    takeMgmt s port kind bits = (gaugePkt u port q, some { q with hops := (q.hops + 1) % 256 }))

/-- R351, R352, R358, R448: a device without its link after 1 s is headless; the first write to its claim register claims it; the claim ends when its manager is lost or the link comes up; Loopback holds back what goes to the host until it ends. Where the spec leaves a point open, the model's choice of log entry 70 holds. -/
def Obligations.HostLink : Prop :=
  (∀ (s : State), s.boot.state = .ready → s.regs.reachedL0 = false → passed s s.boot.readyAt 1000000000 = true →
    Becomes .headlessDetect s { s with regs := { s.regs with headless := true } }) ∧
  (∀ (s : State), s.regs.reachedL0 = true → Becomes .headlessDetect s s) ∧
  (∀ (s u : State) (port : Nat) (pkt : List (List Bool)) (q : Pkt), takeMgmt s port 7 pkt = (u, some q) → leAt q.payload 0 8 = claimAddr →
    weirDenied u 0 engFabric true claimAddr (q.payload.length - 8) = none → u.regs.headless = true → u.regs.claim = none →
    Becomes (.remoteWrite port pkt) s { u with regs := { u.regs with claim := some q.src, lostAt := none } }) ∧
  (∀ (s u : State) (port : Nat) (pkt : List (List Bool)) (q : Pkt), takeMgmt s port 7 pkt = (u, some q) → leAt q.payload 0 8 = claimAddr →
    weirDenied u 0 engFabric true claimAddr (q.payload.length - 8) = none → u.regs.claim ≠ none → Becomes (.remoteWrite port pkt) s u) ∧
  (∀ (s : State) (a n : Nat), s.regs.claim = some a → s.regs.lostAt = some n → passed s n 1000000000 = true →
    Leaves .remoteClaimLost s { s with regs := { s.regs with claim := none, lostAt := none } }) ∧
  (∀ (s : State), s.regs.lostAt = none → Becomes .remoteClaimLost s s) ∧
  (∀ (s : State), s.power.inRange = true → s.regs.perst = true → s.regs.linkUp = false →
    Runs .pcieLinkUp s fun t =>
      quiet { t with ledger := s.ledger } = quiet { s with regs := { s.regs with
        linkUp := true
        reachedL0 := true
        headless := false
        claim := none
        lostAt := if s.regs.claim.isSome then none else s.regs.lostAt } } ∧
      (∀ j, ringFixed (getRings t j) = ringFixed (getRings s j)) ∧ sameBytes t s ∧
      ∀ i, { getEntry t i with ev := none } = { getEntry s i with ev := none }) ∧
  (∀ (s : State), s.regs.linkUp = true → Becomes .pcieLoopbackEntry s (endScans { s with regs := { s.regs with loopback := true } } 0 8)) ∧
  (∀ (s : State), s.regs.loopback = true → Runs .pcieLoopbackExit s fun t =>
      quiet { t with ledger := s.ledger } = quiet { s with regs := { s.regs with loopback := false } } ∧
      (∀ j, ringFixed (getRings t j) = ringFixed (getRings s j)) ∧ sameBytes t s ∧
      ∀ i, { getEntry t i with ev := none } = { getEntry s i with ev := none })

/-- R452, R453, R454: what each side-band read returns, what it changes, and the alert response. Where the spec leaves a point open, the model's choice of log entries 4 and 62 holds. -/
def Obligations.SideBand : Prop :=
  (∀ (s : State), s.power.inRange = true →
    Becomes .smbStatus s { s with out := s.out ++ [.smbData (bytesLE 1 (smbStatusByte s))] } ∧
    Becomes .smbIdent s { s with out := s.out ++ [.smbData (bytesLE 16 (packFields
      [fAt 0 0 64 Config.deviceId.toNat, fAt 8 0 8 (runningImage s).major, fAt 9 0 8 (runningImage s).minor, fAt 10 0 16 (runningImage s).patch,
       fAt 12 0 8 (activeBank s), fAt 13 0 8 Config.stepping.toNat]))] } ∧
    Becomes .smbFaultCount s { s with out := s.out ++ [.smbData (bytesLE 1 s.boot.faults.length)] } ∧
    Becomes .smbFaultNewest s { s with out := s.out ++ [.smbData (bytesLE 4 ((s.boot.faults.getLast?.map FaultRec.seq).getD 0))] }) ∧
  (∀ (s : State) (temps : List Int), s.power.inRange = true → temps.length = 8 →
    Becomes (.smbTemp temps) s { s with
      boot := { s.boot with sensors := temps }
      out := s.out ++ [.smbData (bytesLE 2 (ofSigned 16 (hottest temps)))] } ∧
    Becomes (.smbSensors temps) s { s with
      boot := { s.boot with sensors := temps }
      out := s.out ++ [.smbData (temps.flatMap fun t => bytesLE 2 (ofSigned 16 t))] }) ∧
  (∀ (s : State) (v : Nat), s.power.inRange = true →
    Becomes (.smbVin v) s { s with out := s.out ++ [.smbData (bytesLE 2 v)] } ∧
    Becomes (.smbIin v) s { s with out := s.out ++ [.smbData (bytesLE 2 v)] } ∧
    Becomes (.smbPin v) s { s with out := s.out ++ [.smbData (bytesLE 2 v)] }) ∧
  (∀ (s : State) (i : Nat) (f : FaultRec), s.power.inRange = true → i < 64 → s.boot.faults[i]? = some f →
    Becomes (.smbFaultIndex i) s { s with smb := { s.smb with latchedSeq := f.seq } }) ∧
  (∀ (s : State) (i : Nat), s.power.inRange = true → i < 64 → s.boot.faults.length ≤ i →
    Becomes (.smbFaultIndex i) s { s with smb := { s.smb with latchedSeq := s.boot.nextSeq } }) ∧
  (∀ (s : State) (f : FaultRec), s.power.inRange = true → s.boot.faults.find? (fun f => f.seq == s.smb.latchedSeq) = some f →
    Becomes .smbFaultRecord s { s with
      smb := { s.smb with latchedSeq := (f.seq + 1) % 2 ^ 32 }
      out := s.out ++ [.smbData (bytesLE 32 (faultBits f))] }) ∧
  (∀ (s : State), s.power.inRange = true → s.smb.latchedSeq = s.boot.nextSeq →
    s.boot.faults.find? (fun f => f.seq == s.smb.latchedSeq) = none →
    Becomes .smbFaultRecord s { s with out := s.out ++ [.smbData (List.replicate 32 0)] }) ∧
  (∀ (s : State) (v : Nat), v ≠ 0xA5 → Becomes (.smbReset v) s s) ∧
  (∀ (s : State), s.power.inRange = true → s.smb.alert = true →
    Becomes .smbAlertResponse s { s with
      smb := { s.smb with alert := false }
      out := s.out ++ [.smbData [if s.smb.asel then 0x5B else 0x5A], .pin 32 true] }) ∧
  (∀ (s : State), s.smb.alert = false → Becomes .smbAlertResponse s s)

/-- R42, R416 to R421: 12 V in range leaves the machine of reset with its one record; the clocks' release starts WP; a bank that passes boots, and with none BOOT_FAILED; then the store trains, every byte is zero, and the device is READY with its waiting records posted. Where the spec leaves a point open, the model's choice of log entries 14, 15, 16 and 63 holds. -/
def Obligations.StartUp : Prop :=
  (∀ (s : State), s.power.inRange = false →
    Becomes .powerInputInRange s { State.reset with
      boot := { State.reset.boot with
        bankA := s.boot.bankA
        bankB := s.boot.bankB
        running := s.boot.running
        display := s.boot.display
        minSvn := s.boot.minSvn
        revoked := s.boot.revoked
        dbgEn := s.boot.dbgEn
        dbgKill := s.boot.dbgKill
        sensors := s.boot.sensors
        resets := 1
        faults := [{ kind := 1, unit := 0, seq := 1, wp := 0, resets := 1, uptime := 0, detail := 1, overwritten := 0 }]
        nextSeq := 2
        unposted := [1] }
      regs := { State.reset.regs with perst := s.regs.perst, rst := s.regs.rst }
      smb := { State.reset.smb with asel := s.smb.asel, alert := true }
      power := { State.reset.power with inRange := true }
      out := s.out ++ [.pin 32 false]
      free := s.free
      pending := s.pending }) ∧
  (∀ (s : State), s.power.inRange = true → s.regs.rst = false → s.boot.state ≠ .thermalTrip → s.time.running = false →
    Becomes .lockedClocksRelease s { s with time := { s.time with running := true, wp := ⟨0, 0, 0⟩ } }) ∧
  (∀ (s : State) (f : Nat), s.power.inRange = true → s.regs.rst = false → s.boot.state = .bootRom → s.time.running = true →
    s.boot.bankA.state = .active → s.boot.bankB.state ≠ .trial →
    Leaves (.bootRomVerifyComplete 0 f) s { s with boot := { s.boot with state := .storeTraining, running := false, lk := .running, trialRunning := false, trialAt := upTime s } }) ∧
  (∀ (s : State) (f : Nat), s.power.inRange = true → s.regs.rst = false → s.boot.state = .bootRom → s.time.running = true →
    s.boot.bankA.state = .active → s.boot.bankB.state = .trial →
    Leaves (.bootRomVerifyComplete f 0) s { s with boot := { s.boot with state := .storeTraining, running := true, lk := .running, trialRunning := true, trialAt := upTime s } }) ∧
  (∀ (s : State) (f g : Nat), s.power.inRange = true → s.regs.rst = false → s.boot.state = .bootRom → s.time.running = true →
    s.boot.lk = .halted → s.boot.bankA.state = .active → s.boot.bankB.state = .invalid → f ≠ 0 →
    Leaves (.bootRomVerifyComplete f g) s (faulted { s with boot := { s.boot with
      state := .bootFailed
      bankA := { s.boot.bankA with state := .invalid, image := {} } } } 0xA 0 f false)) ∧
  (∀ (s : State), s.boot.state = .storeTraining →
    Leaves (.storeTrainingComplete true) s { s with boot := { s.boot with state := .fwInit } }) ∧
  (∀ (s : State), s.boot.state = .storeTraining → s.power.inRange = true →
    Leaves (.storeTrainingComplete false) s (faulted { s with boot := { s.boot with state := .deviceFault, lk := .halted } } 3 0 3 false)) ∧
  (∀ (s : State), s.boot.state = .fwInit → s.boot.filled = false → s.boot.display = [] →
    Becomes (.startupZeroFillComplete true) s { s with
      store := { s.store with mem := [], poison := [], poisonSeen := [] }
      boot := { s.boot with filled := true } }) ∧
  (∀ (s : State), s.boot.state = .fwInit → s.boot.filled = true → s.boot.trialRunning = false →
    (∀ b, (getFw s b).state ≠ .staging ∧ (getFw s b).state ≠ .verified) →
    Leaves .deviceReady s { s with boot := { s.boot with state := .ready, wasReady := true, readyAt := upTime s, unposted := [] } }) ∧
  (∀ (s : State), s.boot.state = .fwInit → s.boot.filled = true → s.boot.trialRunning = true → s.boot.running = true →
    s.boot.bankB.state = .trial → s.boot.bankA.state = .active →
    Leaves .deviceReady s { s with boot := { s.boot with
      state := .ready
      wasReady := true
      readyAt := upTime s
      unposted := []
      trialRunning := false
      bankA := { s.boot.bankA with state := .previous }
      bankB := { s.boot.bankB with state := .active } } })

/-- R425, R426, R435, R437, R446: a device reset leaves the machine of reset but for flash, fuses, pins and sensors, and adds its record; each of its causes does so; in THERMAL_TRIP above 100 degC a request is held until every sensor has cooled; losing 12 V clears the record too. Where the spec leaves a point open, the model's choice of log entries 15 and 17 holds. -/
def Obligations.Resets : Prop :=
  (∀ (s : State) (cause : Nat), ∃ o, deviceReset s cause = { State.reset with
      boot := { State.reset.boot with
        bankA := s.boot.bankA
        bankB := s.boot.bankB
        running := s.boot.running
        display := s.boot.display
        minSvn := s.boot.minSvn
        revoked := s.boot.revoked
        dbgEn := s.boot.dbgEn
        dbgKill := s.boot.dbgKill
        sensors := s.boot.sensors
        resets := (s.boot.resets + 1) % 2 ^ 32
        faults := (faulted { s with boot := { s.boot with resets := (s.boot.resets + 1) % 2 ^ 32 } } 1 0 cause false).boot.faults
        nextSeq := (s.boot.nextSeq + 1) % 2 ^ 32
        overwritten := (faulted s 1 0 cause false).boot.overwritten
        unposted := s.boot.unposted ++ [s.boot.nextSeq] }
      regs := { State.reset.regs with perst := s.regs.perst, rst := s.regs.rst }
      smb := { State.reset.smb with asel := s.smb.asel, alert := true }
      power := { State.reset.power with inRange := s.power.inRange }
      out := s.out ++ o
      free := s.free
      pending := s.pending }) ∧
  (∀ (s : State), s.power.inRange = true → s.regs.rst = false → s.boot.state ≠ .thermalTrip →
    Becomes .rstNAssert s (deviceReset { s with regs := { s.regs with rst := true } } 2)) ∧
  (∀ (s : State), Becomes .rstNRelease s { s with regs := { s.regs with rst := false } }) ∧
  (∀ (s : State), s.power.inRange = true → s.regs.perst = true → s.boot.state ≠ .thermalTrip →
    Becomes .perstNAssert s (deviceReset { s with regs := { s.regs with perst := false, linkUp := false, loopback := false } } 3)) ∧
  (∀ (s : State), Becomes .perstNRelease s { s with regs := { s.regs with perst := true } }) ∧
  (∀ (s : State), s.power.inRange = true → s.regs.linkUp = true → s.boot.state ≠ .thermalTrip → Becomes .pcieHotReset s (deviceReset s 4)) ∧
  (∀ (s : State), s.boot.resetDelay = true → passed s s.boot.resetAt 10000000 = true → Becomes .deviceResetDelayExpiry s (deviceReset s 5)) ∧
  (∀ (s : State), s.power.inRange = true → s.boot.state ≠ .thermalTrip → Becomes (.smbReset 0xA5) s (deviceReset s 6)) ∧
  (∀ (s : State), s.power.inRange = true → s.boot.state = .thermalTrip → 1000 ≤ hottest s.boot.sensors → s.boot.heldReset = none →
    Becomes (.smbReset 0xA5) s { s with boot := { s.boot with heldReset := some 6 } }) ∧
  (∀ (s : State) (temps : List Int) (cause : Nat), s.boot.state = .thermalTrip → s.boot.heldReset = some cause → temps.length = 8 →
    hottest temps < 1000 → Runs (.heldResetRelease temps) s fun t => t = deviceReset (measureSensors s temps) cause) ∧
  (∀ (s : State), s.power.inRange = true → Runs .powerInputFall s fun t => { t with out := s.out } = { State.reset with
      boot := { State.reset.boot with
        bankA := s.boot.bankA
        bankB := s.boot.bankB
        running := s.boot.running
        display := s.boot.display
        minSvn := s.boot.minSvn
        revoked := s.boot.revoked
        dbgEn := s.boot.dbgEn
        dbgKill := s.boot.dbgKill
        sensors := s.boot.sensors }
      regs := { State.reset.regs with perst := s.regs.perst, rst := s.regs.rst }
      smb := { State.reset.smb with asel := s.smb.asel }
      out := s.out
      free := s.free
      pending := s.pending })

/-- R73, R423, R424, R425, R430, R434, R454: a Lockkeeper restart answers what it had not committed with ST_ENGINE_FAULT and adds its record, the third within 60 s is a device fault; once verified, Lockkeeper sends what it owes; a bad image gives way to the other bank; a rail or memory error is a device fault; a warm sensor warns and a hot one trips. Where the spec leaves a point open, the model's choice of log entries 18 and 19 holds. -/
def Obligations.LockkeeperAndHeat : Prop :=
  (∀ (s : State) (n : Nat), s.boot.lk = .running → (s.boot.dogTimes.filter fun x => decide (uptimeMs s < x + 60000)).length < 2 →
    Runs (.lockkeeperWatchdogExpiry n) s fun t =>
      quiet t = quiet (faulted { s with boot := { s.boot with
        lk := .restarting
        dogTimes := uptimeMs s :: s.boot.dogTimes.filter fun x => decide (uptimeMs s < x + 60000) } } 2 n 0 false) ∧
      ∀ k h, findHeld s k = some h → heldKey h = k → h.phase = .taken → opIsQe (pktOpcode h.pkt) = false →
        findHeld t k = none ∧ mkReply h .engineFault (nowBits s) (packFields [fAt 16 0 8 1]) ∈ (getRings t k.slice).waiting) ∧
  (∀ (s : State) (n : Nat), s.boot.lk = .running → s.power.inRange = true → s.boot.state ≠ .deviceFault → s.boot.state ≠ .thermalTrip →
    2 ≤ (s.boot.dogTimes.filter fun x => decide (uptimeMs s < x + 60000)).length →
    Runs (.lockkeeperWatchdogExpiry n) s fun t => t.boot.state = .deviceFault ∧ t.boot.lk = .halted ∧
      (t.boot.faults.getLast?.map fun f => (f.kind, f.detail)) = some (3, 1)) ∧
  (∀ (s : State), s.boot.lk = .restarting → s.boot.state = .ready → s.boot.trialRunning = false →
    (∀ b, (getFw s b).state ≠ .staging ∧ (getFw s b).state ≠ .verified) →
    Leaves (.lockkeeperRestartComplete 0) s { s with boot := { s.boot with lk := .running, unposted := [] } }) ∧
  (∀ (s : State) (f : Nat), s.boot.lk = .restarting → f ≠ 0 → s.boot.running = false → s.boot.bankA.state ≠ .invalid → s.boot.bankB.state = .previous →
    Leaves (.lockkeeperRestartComplete f) s (faulted { s with boot := { s.boot with
      bankA := { s.boot.bankA with state := .invalid, image := {} }
      bankB := { s.boot.bankB with state := .active }
      running := true
      trialRunning := false
      trialAt := upTime s } } 0xA 0 f false)) ∧
  (∀ (s : State), s.boot.restartDelay = true → s.boot.lk = .running → s.boot.bankA.state ≠ .trial → s.boot.bankB.state = .trial →
    passed s s.boot.restartAt 10000000 = true →
    Runs .fwActivateRestartDelay s fun t =>
      quiet t = quiet { s with boot := { s.boot with restartDelay := false, running := true, trialRunning := true, trialAt := upTime s, lk := .restarting } }) ∧
  (∀ (s : State), s.boot.trialRunning = true → s.boot.running = true → s.boot.bankB.state = .trial → s.boot.bankA.state = .previous →
    s.boot.lk = .restarting → passed s s.boot.trialAt 2000000000 = true →
    Leaves .trialBootTimeout s (faulted { s with boot := { s.boot with
      bankB := { s.boot.bankB with state := .invalid, image := {} }
      bankA := { s.boot.bankA with state := .active }
      running := false
      trialRunning := false } } 0xC 1 0 false)) ∧
  (∀ (s : State) (r : Nat), s.power.inRange = true → s.boot.state ≠ .deviceFault → s.boot.state ≠ .thermalTrip →
    Leaves (.railOutOfTolerance r) s (faulted { s with boot := { s.boot with state := .deviceFault, lk := .halted } } 3 0 4 false)) ∧
  (∀ (s : State), s.power.inRange = true → s.boot.lk ≠ .halted → s.boot.state ≠ .deviceFault → s.boot.state ≠ .thermalTrip →
    Leaves .lockkeeperMemoryEcc s (faulted { s with boot := { s.boot with state := .deviceFault, lk := .halted } } 3 0 2 false)) ∧
  (∀ (s : State) (temps : List Int), s.power.inRange = true → temps.length = 8 → s.boot.warning = false → 950 ≤ hottest temps →
    Leaves (.thermalSensorCrossing temps) s { s with
      boot := { s.boot with sensors := temps, warning := true }
      smb := { s.smb with alert := true } }) ∧
  (∀ (s : State) (temps : List Int), s.power.inRange = true → temps.length = 8 → s.boot.warning = true → hottest temps < 900 →
    Leaves (.thermalSensorCrossing temps) s { s with boot := { s.boot with sensors := temps, warning := false } }) ∧
  (∀ (s : State) (temps : List Int), s.power.inRange = true → temps.length = 8 → 1150 ≤ hottest temps → s.boot.state ≠ .thermalTrip →
    Runs (.thermalTrip temps) s fun t => t.boot.state = .thermalTrip ∧ t.boot.lk = .halted ∧
      (t.boot.faults.getLast?.map fun f => (f.kind, f.detail)) = some (4, ofSigned 16 (hottest temps)) ∧
      t.rings = [] ∧ t.store = State.reset.store ∧ t.comp = State.reset.comp ∧ t.scan = State.reset.scan ∧ t.bank = State.reset.bank ∧
      t.slices = State.reset.slices ∧ t.ledger = State.reset.ledger ∧ t.weir = State.reset.weir ∧ t.media = State.reset.media ∧ t.io = State.reset.io)

/-- R430, R432 to R434: FW_STAGE programs a chunk of the bank that is not in use, which is then STAGING; FW_VERIFY replies later, its end makes the bank VERIFIED or INVALID; FW_ACTIVATE marks it TRIAL. Where the spec leaves a point open, the model's choice of log entries 14 and 19 holds. -/
def Obligations.FirmwareUpdate : Prop :=
  (∀ (s : State) (c : Cmd) (h : Held) (b : Bool) (f : FwBank → FwBank), ReadyNow s c 0xF01 h → checkFwStage s h c = none → b = stagingBank s →
    pb h.pkt 16 0 = false → pb h.pkt 16 1 = false → c.ok = true → c.data.length = pf h.pkt 24 0 32 → c.obs.getD 0 0 = 0 →
    f = (fun x => { x with state := .staging, chunks := tset [] x.chunks (pf h.pkt 20 0 32 / 65536) c.data }) →
    Answers (.fwStage c) s c h .ok (nowBits s) [fAt 16 0 8 b.toNat, fAt 17 0 8 1] (modFw s b f)) ∧
  (∀ (s : State) (c : Cmd) (h : Held), ReadyNow s c 0xF01 h → checkFwStage s h c = none → pb h.pkt 16 0 = true → pb h.pkt 16 1 = false →
    c.ok = true → c.data.length = pf h.pkt 24 0 32 → c.obs.getD 0 0 = 0 →
    Answers (.fwStage c) s c h .ok (nowBits s) (stageDetail s) { s with boot := { s.boot with display := c.data } }) ∧
  (∀ (s : State) (c : Cmd) (h : Held), ReadyNow s c 0xF01 h → reservedZero h.pkt [(16, 0, 2), (20, 0, 32), (24, 0, 32), (32, 0, 64)] = true →
    pf h.pkt 32 0 64 % 64 = 0 → 0 < pf h.pkt 24 0 32 → pf h.pkt 24 0 32 ≤ 65536 → pf h.pkt 20 0 32 % 65536 = 0 → pb h.pkt 16 0 = false →
    pf h.pkt 20 0 32 + pf h.pkt 24 0 32 ≤ 25165824 → s.boot.bankA.state = .trial →
    Answers (.fwStage c) s c h .notReady (nowBits s) [] s) ∧
  (∀ (s : State) (c : Cmd) (h : Held), ReadyNow s c 0xF02 h → reservedZero h.pkt [] = true → s.boot.verify = none →
    (∃ b, (getFw s b).state = .staging) →
    Defers (.fwVerify c) s c h [] { s with boot := { s.boot with verify := some (Cmd.key c) } }) ∧
  (∀ (s : State) (k : CmdKey) (h : Held) (b : Bool) (g : FwImage), s.boot.verify = some k → findHeld s k = some h → h.slice = k.slice →
    bankIn s .staging = some b → verifyReason s (tget [] (getFw s b).chunks 0) 0 = 0 → g = headerOf (tget [] (getFw s b).chunks 0) →
    Answers (.fwVerifyComplete 0) s { slice := k.slice, ring := k.ring, index := k.index } h .ok (nowBits s)
      [fAt 16 0 8 b.toNat, fAt 18 0 8 0, fAt 20 0 8 g.major, fAt 21 0 8 g.minor, fAt 22 0 8 g.svn]
      (modFw { s with boot := { s.boot with verify := none } } b fun x => { x with state := .verified, image := g })) ∧
  (∀ (s : State) (k : CmdKey) (h : Held) (b : Bool) (r : Nat) (g : FwImage), s.boot.verify = some k → findHeld s k = some h → h.slice = k.slice →
    bankIn s .staging = some b → verifyReason s (tget [] (getFw s b).chunks 0) r ≠ 0 → g = headerOf (tget [] (getFw s b).chunks 0) →
    Answers (.fwVerifyComplete r) s { slice := k.slice, ring := k.ring, index := k.index } h .checkFailed (nowBits s)
      [fAt 16 0 8 b.toNat, fAt 18 0 8 (verifyReason s (tget [] (getFw s b).chunks 0) r), fAt 20 0 8 g.major, fAt 21 0 8 g.minor, fAt 22 0 8 g.svn]
      (modFw { s with boot := { s.boot with verify := none } } b fun x => { x with state := .invalid, image := {} })) ∧
  (∀ (s : State) (c : Cmd) (h : Held) (b : Bool), ReadyNow s c 0xF03 h → checkFwActivate s h c = none → pb h.pkt 16 1 = false → pb h.pkt 16 2 = false →
    bankIn s .verified = some b →
    Answers (.fwActivate c) s c h .ok (nowBits s) [fAt 16 0 8 b.toNat]
      (modFw { s with boot := { s.boot with restartDelay := pb h.pkt 16 0, restartAt := upTime s } } b fun x => { x with state := .trial })) ∧
  (∀ (s : State) (c : Cmd) (h : Held) (b : Bool) (n : Nat), ReadyNow s c 0xF03 h → checkFwActivate s h c = none → pb h.pkt 16 2 = true →
    bankIn s .active = some b → n = max s.boot.minSvn (getFw s b).image.svn →
    Answers (.fwActivate c) s c h .ok (nowBits s) [fAt 17 0 8 n] { s with boot := { s.boot with minSvn := n } })

/-- R228, R435, R436, R438 to R440: DEVICE_RESET replies and its reset follows; ENGINE_REINIT replies later, and the end of the self-check returns the unit to service; FAULT_READ, FAULT_CLEAR, COUNTERS_READ and IDENTIFY. Where the spec leaves a point open, the model's choice of log entries 31, 71 and 92 holds. -/
def Obligations.RecoveryAndReports : Prop :=
  (∀ (s : State) (c : Cmd) (h : Held), ReadyNow s c 0xF04 h → checkDeviceReset s h c = none →
    Answers (.deviceReset c) s c h .ok (nowBits s) [] { s with boot := { s.boot with resetDelay := true, resetAt := upTime s } }) ∧
  (∀ (s : State) (c : Cmd) (h : Held), ReadyNow s c 0xF04 h → pf h.pkt 16 0 32 ≠ 0x44455652 →
    Answers (.deviceReset c) s c h .badParam (nowBits s) [] s) ∧
  (∀ (s : State) (c : Cmd) (h : Held) (i n : Nat), ReadyNow s c 0xF05 h → checkReinit s h c = none → pf h.pkt 16 0 8 = 1 → i = pf h.pkt 17 0 3 →
    n = pf h.pkt 18 0 16 →
    Defers (.engineReinit c) s c h [] (modBank s i fun x => { x with
      state := .checking
      reinit := some (Cmd.key c)
      holdoffFrames := if n = 0 then 120 else n })) ∧
  (∀ (s : State) (c : Cmd) (h : Held) (i : Nat) (r : Reinit), ReadyNow s c 0xF05 h → checkReinit s h c = none → pf h.pkt 16 0 8 = 2 → i = pf h.pkt 17 0 3 →
    (tget {} s.sluice.lanes i).job = none → r = { unit := 2, index := i, key := Cmd.key c, at_ := upTime s } →
    Defers (.engineReinit c) s c h [] { s with
      sluice := { s.sluice with lanes := tset {} s.sluice.lanes i { inService := false } }
      boot := { s.boot with reinits := s.boot.reinits ++ [r] } }) ∧
  (∀ (s : State) (i t : Nat) (r : Reinit) (h : Held), s.boot.reinits.find? (fun r => r.unit == 2 && r.index == i) = some r →
    findHeld s r.key = some h → h.slice = r.key.slice → passed s r.at_ 1000000 = true →
    Answers (.engineSelfCheckComplete 2 i true t) s { slice := r.key.slice, ring := r.key.ring, index := r.key.index } h .ok (nowBits s) []
      { s with
        boot := { s.boot with reinits := s.boot.reinits.filter (· != r) }
        sluice := { s.sluice with lanes := tmod {} s.sluice.lanes i fun x => { x with inService := true } } }) ∧
  (∀ (s : State) (i t : Nat) (r : Reinit) (h : Held), s.boot.reinits.find? (fun r => r.unit == 2 && r.index == i) = some r →
    findHeld s r.key = some h → h.slice = r.key.slice → passed s r.at_ 1000000 = true →
    Answers (.engineSelfCheckComplete 2 i false t) s { slice := r.key.slice, ring := r.key.ring, index := r.key.index } h .checkFailed (nowBits s) [fAt 16 0 32 t]
      { s with boot := { s.boot with reinits := s.boot.reinits.filter (· != r) } }) ∧
  (∀ (s u : State) (c : Cmd) (h : Held), ReadyNow s c 0xA04 h → checkFaultRead s h c = none →
    destWrite s h.slice engLock (destSpace s) c.ok (pf h.pkt 24 0 64) (s.boot.faults.flatMap fun f => bytesLE 32 (faultBits f)) = (u, true) →
    Answers (.faultRead c) s c h .ok (nowBits u) [fAt 16 0 8 s.boot.faults.length, fAt 20 0 32 ((s.boot.faults.getLast?.map FaultRec.seq).getD 0)] u) ∧
  (∀ (s : State) (c : Cmd) (h : Held) (left : List FaultRec), ReadyNow s c 0xA05 h → reservedZero h.pkt [(16, 0, 32)] = true →
    left = s.boot.faults.filter (fun f => decide (pf h.pkt 16 0 32 < f.seq)) →
    Answers (.faultClear c) s c h .ok (nowBits s) [fAt 16 0 8 (s.boot.faults.length - left.length)] { s with boot := { s.boot with faults := left } }) ∧
  (∀ (s u : State) (c : Cmd) (h : Held) (l : List Byte), ReadyNow s c 0xA03 h → checkCounters s h c = none → pf h.pkt 16 0 8 ≠ 1 →
    l = counterBytes s (pf h.pkt 16 0 8) (pf h.pkt 17 0 7) →
    destWrite s h.slice engLock (destSpace s) c.ok (pf h.pkt 24 0 64) l = (u, true) →
    Answers (.countersRead c) s c h .ok (nowBits u) [fAt 16 0 32 l.length, fAt 24 0 64 (nowBits u)] u) ∧
  (∀ (s : State) (c : Cmd) (h : Held), ReadyNow s c 0xF06 h → checkStatusDest s h c = none → pf h.pkt 24 0 64 = 0 →
    Answers (.identify c) s c h .ok (nowBits s) (identityDetail s) s) ∧
  (∀ (s u : State) (c : Cmd) (h : Held), ReadyNow s c 0xF06 h → checkStatusDest s h c = none → pf h.pkt 24 0 64 ≠ 0 →
    destWrite s h.slice engLock (destSpace s) c.ok (pf h.pkt 24 0 64) (identityRecord s) = (u, true) →
    Answers (.identify c) s c h .ok (nowBits u) (identityDetail s) u)

/-- R309, R311, R312, R314, R316, R318 to R321: a PTP port's engine restarts with its new settings; TIME_STEP sets a counter and TIME_RATE_ADJUST its rate, in HOST mode; a Delay_Req is queued; a Sync, Announce or LOCK_HOLD lapse leaves LISTENING. R322 to R325: an edge is stamped and its record joins the input's FIFO, or is counted as lost when it is full; settings that change empty the FIFO; a read takes the oldest records away. Where the spec leaves a point open, the model's choice of log entries 53 and 54 holds. -/
def Obligations.NetworkTime : Prop :=
  (∀ (s : State) (c : Cmd) (h : Held) (n : Nat) (o y : PtpPort), ReadyNow s c 0x705 h → pf h.pkt 16 0 2 ≠ 1 → checkPtpPort s h c = none →
    n = pf h.pkt 17 0 1 → o = getPtp s n → pf h.pkt 17 1 2 = 1 → o.engine ≠ 1 → pb h.pkt 17 3 = false →
    y = { ptpOfPkt o h.pkt with
      master := none
      foreign := []
      sync := none
      t21 := none
      req := none
      resp := none
      pathDelay := none
      servo := .listening
      below := 0
      above := 0
      settled := if o.servo = .listening then o.settled else false } →
    ∃ hd, Answers (.ptpPortSetPort c) s c h .ok (nowBits s)
      [fAt 16 0 8 1, fAt 17 0 64 0, fAt 25 0 32 (ofSigned 32 o.lastOffset), fAt 29 0 16 0, fAt 31 0 8 o.utcOffset]
      { (modPtp s n fun _ => y) with head := hd }) ∧
  (∀ (s : State) (c : Cmd) (h : Held) (n : Nat) (v : Int), ReadyNow s c 0x707 h → checkTimeStep s h c = none → pb h.pkt 16 2 = false →
    n = pf h.pkt 16 0 1 → v = stepTarget s h.pkt →
    Answers (.timeStep c) s c h .ok (nowBits s)
      [fAt 16 0 48 (ptpOf v).sec, fAt 24 0 32 (ptpOf v).ns, fAt 28 0 8 (((getClock s n).epoch + 1) % 256)]
      (modClock s n fun c => { c with value := v.toNat, base := now s, notSet := false, epoch := (c.epoch + 1) % 256 })) ∧
  (∀ (s : State) (c : Cmd) (h : Held) (n : Nat) (v : Int), ReadyNow s c 0x707 h → checkTimeStep s h c = none → pb h.pkt 16 2 = true →
    n = pf h.pkt 16 0 1 → v = stepTarget s h.pkt → (getPtp s n).engine = 1 →
    ∃ hd, Answers (.timeStep c) s c h .ok (nowBits s)
      [fAt 16 0 48 (ptpOf v).sec, fAt 24 0 32 (ptpOf v).ns, fAt 28 0 8 (((getClock s n).epoch + 1) % 256)]
      { (modPtp (modClock s n fun c => { c with value := v.toNat, base := now s, notSet := false, epoch := (c.epoch + 1) % 256 }) n fun x => { x with
        servo := .listening
        below := 0
        above := 0
        settled := if x.servo = .listening then x.settled else false }) with head := hd }) ∧
  (∀ (s : State) (c : Cmd) (h : Held) (n hold : Nat) (r : Int), ReadyNow s c 0x708 h → checkTimeRate s h c = none → pb h.pkt 16 1 = true →
    n = pf h.pkt 16 0 1 → r = toSigned 64 (pf h.pkt 20 0 64) → hold = pf h.pkt 28 0 16 →
    Answers (.timeRateAdjust c) s c h .ok (nowBits s) [fAt 16 0 64 (ofSigned 64 (getClock s n).rate), fAt 24 0 8 3]
      (modPtp (modClock s n fun c => { c with value := (clockUnits s n (now s)).toNat, base := now s, rate := r }) n fun x => { x with
        servo := .locked
        below := 0
        above := 0
        settled := if x.servo = .locked then x.settled else false
        lockHoldMs := if hold = 0 then 4000 else hold
        lockAt := upTime s })) ∧
  (∀ (s : State) (c : Cmd) (h : Held), ReadyNow s c 0x708 h → checkTimeRate s h c = some (failWith .notReady) →
    Answers (.timeRateAdjust c) s c h .notReady (nowBits s) [] s) ∧
  (∀ (s u : State) (n : Nat) (x : PtpPort) (m f : List Byte), n < 2 → x = getPtp s n → x.engine = 1 → s.boot.lk = .running → (x.p2p = true ∨ x.master ≠ none) →
    m = (if x.p2p then makeMsg s n 2 54 x.reqSeq 0x7F (List.replicate 20 0) else makeMsg s n 1 44 x.reqSeq 0x7F (List.replicate 10 0)) →
    ptpFrame s n x.p2p m = (u, f) →
    Becomes (.ptpDelayReqSend n) s (modPtp (bump (modPort u n fun p => { p with ptp := p.ptp ++ [f] }) 4 n 2 1) n fun x => { x with
      reqSeq := (x.reqSeq + 1) % 65536
      req := none
      resp := none })) ∧
  (∀ (s : State) (n : Nat), n < 2 → (getPtp s n).engine = 1 → (getPtp s n).servo = .locked →
    passed s (getPtp s n).syncAt (4 * messageNs (getPtp s n).syncLog) = true →
    Runs (.ptpSyncTimeout n) s fun t => quiet { t with head := s.head } =
      quiet (modPtp s n fun x => { x with servo := .listening, below := 0, above := 0, settled := false })) ∧
  (∀ (s : State) (n m : Nat), n < 2 → (getPtp s n).engine = 1 → (getPtp s n).servo = .locked → (getPtp s n).master = some m →
    passed s (getPtp s n).annAt (2 * messageNs (getPtp s n).annLog) = true →
    Runs (.ptpAnnounceTimeout n) s fun t => quiet { t with head := s.head } =
      quiet (modPtp s n fun x => { x with
        servo := .listening
        below := 0
        above := 0
        settled := false
        master := none
        foreign := x.foreign.filter (fun f => f.portId != m)
        sync := none
        t21 := none
        req := none })) ∧
  (∀ (s : State) (n : Nat), n < 2 → (getPtp s n).engine = 2 → (getPtp s n).servo = .locked →
    passed s (getPtp s n).lockAt ((getPtp s n).lockHoldMs * 1000000) = true →
    Runs (.ptpLockHoldLapse n) s fun t => quiet { t with head := s.head } =
      quiet (modPtp s n fun x => { x with servo := .listening, below := 0, above := 0, settled := false })) ∧
  (∀ (s : State) (i : Nat) (rising : Bool) (x : EvtIn), i < 8 → x = getEvt s i → x.enable = true → x.edge = (if rising then 1 else 0) →
    Becomes (.eventInputEdge i rising) s s) ∧
  (∀ (s : State) (i : Nat) (rising : Bool) (x : EvtIn) (w : Nat), i < 8 → x = getEvt s i → x.enable = true → x.lastEdge = some w →
    passed s w 100 = false → Becomes (.eventInputEdge i rising) s s) ∧
  (∀ (s : State) (i : Nat) (x : EvtIn) (r : EvtRec), i < 8 → x = getEvt s i → x.enable = true → x.edge = 0 →
    (∀ w, x.lastEdge = some w → passed s w 100 = true) → x.fifo.length < 64 → x.notify = false →
    r = { falling := false, locked := (getPtp s s.ptp.primary).servo == .locked, set := !(getClock s s.ptp.primary).notSet, epoch := (getClock s s.ptp.primary).epoch, seq := (x.seq + 1) % 2 ^ 32, wp := addTicks (wallLines s) (now s) (-(ticksOfNs s 50 : Int)), ptp := ptpOf (clockUnits s s.ptp.primary (now s) - 50 * nsUnit), primary := s.ptp.primary, coalesced := x.coalesced, lost := x.lost } →
    Becomes (.eventInputEdge i true) s (modEvt s i fun x => { x with
      lastEdge := some (upTime s)
      seq := (x.seq + 1) % 2 ^ 32
      fifo := x.fifo ++ [r]
      lost := 0
      coalesced := 0 })) ∧
  (∀ (s : State) (i : Nat) (x : EvtIn), i < 8 → x = getEvt s i → x.enable = true → x.edge = 0 →
    (∀ w, x.lastEdge = some w → passed s w 100 = true) → 64 ≤ x.fifo.length → x.notify = true → x.lastLine ≠ some (lineOf (now s)) →
    Leaves (.eventInputEdge i true) s (modEvt s i fun x => { x with
      lastEdge := some (upTime s)
      seq := (x.seq + 1) % 2 ^ 32
      lost := satAdd 16 x.lost 1
      coalesced := 0
      lastLine := some (lineOf (now s)) })) ∧
  (∀ (s : State) (c : Cmd) (h : Held) (i : Nat) (o x : EvtIn), ReadyNow s c 0x705 h → pf h.pkt 16 0 2 = 1 → checkPtpEvent s h c = none → i = pf h.pkt 17 0 3 →
    o = getEvt s i → x = { o with enable := pb h.pkt 17 3, edge := pf h.pkt 17 4 2, notify := pb h.pkt 17 6, owner := pf h.pkt 18 0 7 } →
    (x ≠ o → Answers (.ptpPortSetEvent c) s c h .ok (nowBits s) [fAt 16 0 16 o.fifo.length] (modEvt s i fun _ => { x with fifo := [] })) ∧
    (x = o → Answers (.ptpPortSetEvent c) s c h .ok (nowBits s) [fAt 16 0 16 0] (modEvt s i fun _ => o))) ∧
  (∀ (s u : State) (c : Cmd) (h : Held) (i : Nat) (x : EvtIn) (l : List EvtRec), ReadyNow s c 0x706 h → checkStampRead s h c = none → i = pf h.pkt 16 0 3 →
    x = getEvt s i → l = x.fifo.take (pf h.pkt 17 0 7) →
    (l = [] → Answers (.eventStampRead c) s c h .ok (nowBits s) [] s) ∧
    (l ≠ [] → destWrite s h.slice engLock (destSpace s) c.ok (pf h.pkt 24 0 64) (l.flatMap fun r => bytesLE 32 (evtBits i r)) = (u, true) →
      ∃ r, l.getLast? = some r ∧ Answers (.eventStampRead c) s c h .ok (nowBits u)
        [fAt 16 0 8 l.length, fAt 17 0 8 (x.fifo.length - l.length), fAt 24 0 64 (wpBits r.wp)]
        (modEvt u i fun x => { x with fifo := x.fifo.drop l.length })))

/-- R326, R332 to R334, R337, R343: a Toden port's training goes from phase to phase, is tried again and backs off; a HELLO tells the device to its partner, and its loss or the lane's takes the port DOWN; the delay measurement keeps the newest 16 cable delays. R333, R335, R336, R340 to R342: the root's marks set the lane's phase and its epochs the path delay; two epochs in a row that disagree lead to a jump; a CONTROL message of the root takes effect and is passed on. Where the spec leaves a point open, the model's choice of log entries 55, 56, 57, 58 and 60 holds. -/
def Obligations.TodenPorts : Prop :=
  (∀ (s : State) (p : Nat), p < 4 → ((getTod s p).state = .forwarding ∨ (getTod s p).state = .blocked) → dueAgain s (getTod s p).helloAt 100000 = true →
    Becomes (.todenHelloSend p) s (sendPkt (modTod s p fun x => { x with helloAt := some (upTime s) }) p { dest := 4095, src := s.fabric.addr, kind := 1, payload := helloBytes s p })) ∧
  (∀ (s : State) (p : Nat), p < 4 → (getTod s p).state = .training → (getTod s p).phase < 3 →
    Becomes (.todenTrainingPhaseComplete p) s (modTod s p fun x => { x with phase := x.phase + 1, phaseAt := upTime s, helloAt := none, measureAt := none })) ∧
  (∀ (s : State) (p : Nat), p < 4 → (getTod s p).state = .training → 3 ≤ (getTod s p).phase → (getTod s p).partner ≠ none → (getTod s p).cable ≠ [] →
    Runs (.todenTrainingPhaseComplete p) s fun t => todUp (getTod t p) = true ∧ (getTod t p).phase = 0 ∧ (getTod t p).series = 0 ∧
      (getTod t p).retries = 0 ∧ (getTod t p).backoffMs = 100 ∧ (getTod t p).cable = (getTod s p).cable) ∧
  (∀ (s : State) (p : Nat), p < 4 → (getTod s p).state = .training → (getTod s p).series < 3 →
    passed s (getTod s p).phaseAt 2000000 = true →
    Becomes (.todenPhaseTimeout p) s (modTod s p fun x => { x with
      phase := 1
      phaseAt := upTime s
      series := x.series + 1
      retries := satAdd 16 x.retries 1
      partner := none
      below := []
      cable := [] })) ∧
  (∀ (s : State) (p : Nat), p < 4 → (getTod s p).state = .training → 3 ≤ (getTod s p).series → passed s (getTod s p).phaseAt 2000000 = true →
    Runs (.todenPhaseTimeout p) s fun t => (getTod t p).state = .down ∧ (getTod t p).backing = true ∧ (getTod t p).partner = none ∧
      (getTod t p).retries = (getTod s p).retries) ∧
  (∀ (s : State) (p : Nat), p < 4 → (getTod s p).state = .down → (getTod s p).backing = true →
    passed s (getTod s p).backAt ((getTod s p).backoffMs * 1000000) = true →
    Runs (.todenBackoffExpiry p) s fun t => quiet t = quiet s ∧ getTod t p = { getTod s p with
      state := .training
      phase := 1
      phaseAt := upTime s
      series := 0
      retries := satAdd 16 (getTod s p).retries 1
      backing := false
      backoffMs := min 1000 (2 * (getTod s p).backoffMs) }) ∧
  (∀ (s : State) (p n : Nat), p < 4 → todUp (getTod s p) = true →
    (passed s (getTod s p).heardAt 1000000 = true → Runs (.todenHelloSilence p) s fun t => (getTod t p).state = .down ∧ (getTod t p).backing = true ∧ (getTod t p).partner = none ∧ (getTod t p).cable = []) ∧
    (Runs (.todenLockLoss ⟨p, n⟩) s fun t => (getTod t p).state = .down ∧ (getTod t p).backing = true ∧ (getTod t p).partner = none ∧ (getTod t p).cable = [])) ∧
  (∀ (s u : State) (p : Nat) (pkt : List (List Bool)) (below : List TreeDev) (q : Pkt), takePkt s p 1 pkt = (u, some q) → (helloOf q.payload).id ≠ ownId →
    (getTod u p).state = .training →
    Becomes (.todenHelloReceived p pkt below) s (modTod u p fun x => { x with partner := some (helloOf q.payload), below := below, heardAt := upTime u })) ∧
  (∀ (s u : State) (p : Nat) (pkt : List (List Bool)) (below : List TreeDev) (q : Pkt), takePkt s p 1 pkt = (u, some q) → (helloOf q.payload).id = ownId →
    Runs (.todenHelloReceived p pkt below) s fun t => (getTod t p).state = .down ∧ (getTod t p).backing = false) ∧
  (∀ (s : State) (p : Nat), p < 4 → todUp (getTod s p) = true →
    (dueAgain s (getTod s p).measureAt 62500000 = true → Becomes (.delayMeasureSend p) s
      { (modTod s p fun x => { x with measureAt := some (upTime s) }) with out := s.out ++ [.toden p symRequest []] }) ∧
    (dueAgain s (getTod s p).measureAt 62500000 = false → Becomes (.delayMeasureSend p) s s) ∧
    Becomes (.delayMeasureRequest p) s { s with out := s.out ++ [.toden p symResponse []] }) ∧
  (∀ (s : State) (p n : Nat), p < 4 → todUp (getTod s p) = true →
    Becomes (.delayMeasureResponse p n) s (modTod s p fun x => { x with cable := ((n * 125 - 512000) / 8 :: x.cable).take 16 })) ∧
  (∀ (s : State) (p a b : Nat) (credits : List Nat), p < 4 → todUp (getTod s p) = true →
    Becomes (.creditBlockReceived p credits [a, b]) s
      (forEach (replayed [a, b] (getTod s p).replay 0 ++ replayed [a, b] (getTod s p).replay 2) (fun l s => resend s p l) (modTod s p fun x => { x with
        credits := credits
        replay := x.replay.filter fun e => !decide (((if e.1 = 0 then a else b) + 65536 - e.2.1) % 65536 < 32768) }))) ∧
  (∀ (s : State) (p fine sub : Nat) (ps4 : Int) (w : Wp), p < 4 → (getTod s p).state = .forwarding → upPort s = some p → markPorts s p = [] →
    ps4 = (4 * sub : Nat) - (125 * fine + 250 * (getTod s p).pathDelay + 4 * cablePs (getTod s p) : Nat) →
    w = addTicks (wallLines s) (now s) (ps4 * (s.time.timing.rateNum * s.time.timing.lines * 65536 : Nat) / (4 * s.time.timing.rateDen * 10 ^ 12 : Nat)) →
    Becomes (.todenMarkReceived p true ⟨fine, sub⟩) s (modTod (modLane s p fun e => { e with
      measured := true
      phase := nearPhase e.phase w.tick }) p fun x => { x with markAt := some w })) ∧
  (∀ (s : State) (p : Nat) (e : List Byte), byteAt e 7 ≠ crcFwd 8 0x07 0xFF (e.take 7) → Becomes (.todenEpochReceived p e) s s) ∧
  (∀ (s : State) (p : Nat) (e : List Byte) (m : Wp) (d : Int), p < 4 → (getTod s p).state = .forwarding → upPort s = some p → markPorts s p = [] →
    byteAt e 7 = crcFwd 8 0x07 0xFF (e.take 7) → (getTod s p).markAt = some m → d = tickDelta (wallLines s) m ⟨leAt (e.take 7) 0 4, 0, 0⟩ →
    s.fabric.joining = none → (frameTicks s : Int) < 2 * (d.natAbs : Int) →
    Runs (.todenEpochReceived p e) s fun t =>
      getTod t p = { getTod s p with
        pathDelay := leAt (e.take 7) 4 3
        epochFrame := leAt (e.take 7) 0 4
        disagree := (getTod s p).disagree + 1 } ∧ (getLane t p).phase = d ∧
      t.fabric.jumpPort = (if 1 ≤ (getTod s p).disagree then some p else s.fabric.jumpPort) ∧ t.time = s.time ∧ t.out = s.out) ∧
  (∀ (s u : State) (p : Nat) (pkt : List (List Bool)) (l : List Byte) (q : Pkt), takePkt s p 2 pkt = (u, some q) → l = q.payload → todUp (getTod u p) = true → upPort u = some p →
    q.dest = u.fabric.addr → q.dest ≠ 4095 → routeOf u q.dest = some 15 →
    (byteAt l 0 = 2 → Becomes (.controlMessage p pkt) s { u with time := { u.time with pendTiming := u.time.pendTiming ++ [(timingOfCtl l, leAt l 24 4, none)] } }) ∧
    (byteAt l 0 = 3 → Becomes (.controlMessage p pkt) s { u with time := { u.time with realign := u.time.realign ++ [{ slew := false, delta := toSigned 64 (leAt l 32 8), rate := leAt l 40 2, frame := leAt l 24 4 }] } })) ∧
  (∀ (s u : State) (p : Nat) (pkt : List (List Bool)) (q : Pkt), takePkt s p 2 pkt = (u, some q) → todUp (getTod u p) = true → upPort u ≠ some p →
    q.dest ≠ 4095 → routeOf u q.dest ≠ some 15 →
    Becomes (.controlMessage p pkt) s (routePkt u (some p) q))

/-- R344 to R350: FABRIC_ROUTE_SET, FABRIC_EXPORT and FABRIC_IMPORT change their entry; FABRIC_STATUS reports; a FRAME begins a pass of an import, a LINE waits until COMPLETE_WP plus HOPS lines and is then stored, a STATE takes effect; a ring unused for 16 frames is freed. R361 to R363: LANE_EYE_SCAN replies later and its end writes the record; PORT_CONTROL enables, disables, resets or sets the de-emphasis of a port. Where the spec leaves a point open, the model's choice of log entries 21, 58 and 65 holds. -/
def Obligations.FabricStreams : Prop :=
  (∀ (s u : State) (c : Cmd) (h : Held), ReadyNow s c 0x801 h → checkStatusDest s h c = none →
    (pf h.pkt 24 0 64 = 0 → u = s) →
    (pf h.pkt 24 0 64 ≠ 0 → destWrite s h.slice engLock (destSpace s) c.ok (pf h.pkt 24 0 64) (fabricRecord s) = (u, true)) →
    Answers (.fabricStatus c) s c h .ok (nowBits u) [fAt 16 0 16 s.fabric.addr, fAt 18 0 16 (if onFabric s then 1 else 0),
      fAt 20 0 8 (s.fabric.rootPort.getD 0xFF), fAt 21 0 8 s.fabric.hops, fAt 22 0 16 (todSize s)] u) ∧
  (∀ (s u e : State) (c : Cmd) (h : Held) (n : Nat), ReadyNow s c 0x802 h → checkRouteSet s h c = none →
    e = { s with fabric := { s.fabric with routes := tset {} s.fabric.routes (pf h.pkt 16 0 9) { low := pf h.pkt 20 0 12, high := pf h.pkt 22 0 12, port := pf h.pkt 18 0 4, enable := pb h.pkt 18 4 } } } →
    e.fabric.routes ≠ s.fabric.routes → reserveAll (noteClaim e) = (u, n) →
    Answers (.fabricRouteSet c) s c h .ok (nowBits u) [fAt 16 0 16 n] u) ∧
  (∀ (s : State) (c : Cmd) (h : Held) (n : Nat), ReadyNow s c 0x803 h → checkExport s h c = none → pb h.pkt 18 0 = false → freeExport s = some n →
    Answers (.fabricExport c) s c h .ok (nowBits s) [fAt 16 0 16 n]
      (modExport s n fun _ => { used := true, source := pf h.pkt 16 0 12, dest := pf h.pkt 20 0 12, mbps := pf h.pkt 24 0 32 })) ∧
  (∀ (s : State) (c : Cmd) (h : Held), ReadyNow s c 0x803 h → checkExport s h c = none → pb h.pkt 18 0 = true →
    Answers (.fabricExport c) s c h .ok (nowBits s) [] (endExport s (pf h.pkt 22 0 12))) ∧
  (∀ (s : State) (c : Cmd) (h : Held), ReadyNow s c 0x804 h → checkImport s h c = none →
    Answers (.fabricImport c) s c h .ok (nowBits s) [fAt 16 0 8 (hopsTo s (pf h.pkt 20 0 12))]
      (if pb h.pkt 18 0 then modImport s (pf h.pkt 16 0 12) fun _ => { used := true, origin := pf h.pkt 20 0 12, exportId := pf h.pkt 22 0 12 }
       else { s with fabric := { s.fabric with imports := tset {} s.fabric.imports (pf h.pkt 16 0 12) {} } })) ∧
  (∀ (s u : State) (p i b w ht : Nat) (pkt : List (List Bool)) (q : Pkt), takePkt s p 3 pkt = (u, some q) → portsFor u q.dest (some p) = [] →
    importOf u q = some i → curPass u i = none → w = leAt q.payload 20 2 % 16384 → ht = leAt q.payload 22 2 % 16384 →
    stateRank (upOf u q.payload).state ≤ stateRank (getEntry u i).inp.upstream → (getEntry u i).valid = true → (getEntry u i).inp.withdrawn = false →
    byteAt q.payload 19 = (getSource u i).fmt → w ≤ (getSource u i).maxW → ht ≤ (getSource u i).maxH → intakeStopped u (getEntry u i).owner = false →
    oldestBuffer u ((buffersOf u i).filter fun b => passAllowed u b && latchCount u b == 0 && !((getImport u i).passes.map ImpPass.surf).contains b) = some b →
    Becomes (.framePacket p pkt) s (modImport (captureSource (setPassSize (beginPass u b) b w ht) i b) i fun m => { m with
      passes := m.passes ++ [{ surf := b, frameSeq := q.frameSeq, height := ht, origin := lineOf (now u), up := upOf u q.payload, originAddr := leAt q.payload 16 2 % 4096 }] })) ∧
  (∀ (s u : State) (p i : Nat) (pkt : List (List Bool)) (q : Pkt) (m : ImpPass) (due : Wp), takePkt s p 5 pkt = (u, some q) → portsFor u q.dest (some p) = [] →
    importOf u q = some i → (getImport u i).passes = [m] → m.lines = [] → m.frameSeq = q.frameSeq → q.chroma = false → q.lost = false → m.next = q.line →
    q.line < passUnits (getSurf u m.surf) m.height → passChroma (getSurf u m.surf) m.height = 0 → due = addTicks (wallLines u) (wpOfBits q.complete) ((q.hops * 65536 : Nat) : Int) →
    wpReached (now u) due = false → wpLater (now u) due = false → lineSize (getSurf u m.surf).format (passSize (getSurf u m.surf)).1 ≤ q.payload.length →
    Runs (.linePacket p pkt) s fun t => quiet { t with fabric := u.fabric } = quiet u ∧
      (getImport t i).passes = [{ m with next := q.line + 1, lines := [{ line := q.line, chroma := false, lost := false, due := due, data := q.payload }] }]) ∧
  (∀ (s u v : State) (i n f : Nat) (m : ImpPass) (l : ImpLine), (getImport s i).passes = [m] → m.lines = [l] → wpReached (now s) l.due = true →
    l.upstream = none → l.lost = false → l.chroma = false → (getSurf s m.surf).rebuilding = false → formatCompressed (getSurf s m.surf).format = false →
    m.next < m.height → (formatTwoPlane (getSurf s m.surf).format = true → l.line + 1 < m.height) → n = l.line + 1 →
    f = (if formatTwoPlane (getSurf s m.surf).format then min n (2 * m.doneC) else n) →
    u = modImport s i (fun x => { x with passes := [{ m with lines := [] }] }) →
    v = modPass (planeLine u m.surf l.line l.data) i m.surf (fun p => { p with doneY := n }) →
    Becomes (.importLineComplete i) s (exportLines (modSurf v m.surf fun x => { x with frontier := min (surfaceLines x) (max x.frontier f) }) m.surf)) ∧
  (∀ (s u : State) (p i : Nat) (pkt : List (List Bool)) (q : Pkt) (m : ImpPass), takePkt s p 4 pkt = (u, some q) → (getTransit u (streamKey q.src q.exportId)).handle = 0 →
    importOf u q = some i → curPass u i = some m → m.frameSeq = q.frameSeq → m.lines = [] →
    Becomes (.statePacket p pkt) s (modCur (setUpstream u i (upOf u q.payload)) i fun m => { m with up := { upOf u q.payload with origin := m.up.origin } })) ∧
  (∀ (s u : State) (p : Nat) (pkt : List (List Bool)) (q : Pkt), takePkt s p 6 pkt = (u, some q) → q.dest ≠ 4095 →
    (routeOf u q.dest = some 15 → Becomes (.streamPacket p pkt) s { u with sluice := { u.sluice with
      queue := u.sluice.queue ++ [{ kind := .batch, row := q.line, raw := q.payload, received := true }] } }) ∧
    (routeOf u q.dest ≠ some 15 → Becomes (.streamPacket p pkt) s (routePkt u (some p) q))) ∧
  (∀ (s : State) (o e : Nat), (getTransit s (streamKey o e)).handle ≠ 0 → 16 ≤ frameDiff (now s).frame (getTransit s (streamKey o e)).lastFrame →
    Becomes (.transitRingFree o e) s (releaseAll { s with fabric := { s.fabric with transits := tset {} s.fabric.transits (streamKey o e) {} } }
      [(getTransit s (streamKey o e)).handle])) ∧
  (∀ (s : State) (o e : Nat), frameDiff (now s).frame (getTransit s (streamKey o e)).lastFrame < 16 → Becomes (.transitRingFree o e) s s) ∧
  (∀ (s : State) (c : Cmd) (h : Held), ReadyNow s c 0x805 h → checkEyeScan s h c = none →
    Defers (.laneEyeScan c) s c h [fAt 16 0 8 (pf h.pkt 16 0 7), fAt 18 0 16 (scanPoints h.pkt)]
      { s with lane := { s.lane with scans := tset {} s.lane.scans (pf h.pkt 16 0 7) { key := Cmd.key c, start := now s } } }) ∧
  (∀ (s u : State) (c : Cmd) (h : Held) (lane : Nat) (e : EyeScan), s.lane.scans.find? (fun e => e.2.key == Cmd.key c) = some (lane, e) →
    findHeld s (Cmd.key c) = some h → h.slice = c.slice → c.data.length = scanPoints h.pkt →
    destWrite { s with lane := { s.lane with scans := s.lane.scans.filter fun x => x.1 != lane } } h.slice engLock (pb h.pkt 17 4) c.ok (pf h.pkt 24 0 64)
      (scanRecord s lane (c.obs.getD 0 0) e h.pkt c.data) = (u, true) →
    Answers (.laneEyeScanComplete c) s c h .ok (nowBits u) [fAt 16 0 8 lane, fAt 18 0 16 (scanPoints h.pkt),
      fAt 20 0 8 (openings (scanStep h.pkt) c.data).1, fAt 21 0 8 (openings (scanStep h.pkt) c.data).2] u) ∧
  (∀ (s : State) (c : Cmd) (h : Held) (i : Nat), ReadyNow s c 0x806 h → portOp h.pkt = 0 → checkPortControl s h c = none → i = pf h.pkt 17 0 3 →
    Answers (.portControlEnable c) s c h .ok (nowBits s) [fAt 16 0 8 2, fAt 17 0 8 0] s ∧
    (Runs (.portControlEnable c) s fun t => getTod t i = { getTod s i with state := .training, phase := 1, phaseAt := upTime s, series := 0, backoffMs := 100, backing := false })) ∧
  (∀ (s : State) (c : Cmd) (h : Held) (i : Nat), ReadyNow s c 0x806 h → portOp h.pkt = 1 → checkPortControl s h c = none → i = pf h.pkt 17 0 3 →
    Runs (.portControlDisable c) s fun t => Finished t c ∧ Replied t h .ok (nowBits s) (packFields [fAt 16 0 8 0, fAt 17 0 8 (groupScans s 1 i)]) ∧
      (getTod t i).state = .disabled ∧ (getTod t i).backing = false ∧ (getTod t i).partner = none ∧ (getTod t i).cable = []) ∧
  (∀ (s : State) (c : Cmd) (h : Held) (o : Nat), ReadyNow s c 0x806 h → portOp h.pkt = 2 → checkPortControl s h c = none → pf h.pkt 16 0 3 = 2 → o = pf h.pkt 17 0 3 →
    (getOut s o).hpd = true → (getOut s o).trainingNow = false → (getOut s o).state = .running →
    Answers (.portControlReset c) s c h .ok (nowBits s) [fAt 16 0 8 2, fAt 17 0 8 0] (modOut s o fun x => { x with
      trainingNow := true
      retryArmed := false
      attempts := satAdd 16 x.attempts 1
      lanes := x.cfg.lanes
      rate := x.cfg.maxRate
      state := .training })) ∧
  (∀ (s : State) (c : Cmd) (h : Held) (i : Nat), ReadyNow s c 0x806 h → portOp h.pkt = 2 → checkPortControl s h c = none → pf h.pkt 16 0 3 = 4 → i = pf h.pkt 17 0 3 →
    scansOn s (76 + i) 1 = [] →
    Answers (.portControlReset c) s c h .ok (nowBits s) [fAt 16 0 8 0, fAt 17 0 8 0] (modPort s i fun x => { x with up := false })) ∧
  (∀ (s : State) (c : Cmd) (h : Held) (i : Nat), ReadyNow s c 0x806 h → portOp h.pkt = 3 → checkPortControl s h c = none → i = pf h.pkt 17 0 3 →
    Answers (.portControlPreset c) s c h .ok (nowBits s) [fAt 16 0 8 (todCode (getTod s i).state), fAt 17 0 8 0] s ∧
    (Runs (.portControlPreset c) s fun t => (getTod t i).preset = pf h.pkt 19 0 3 ∧ (getTod t i).state = (getTod s i).state))

/-- R388 to R396: KEYS_CONFIGURE waits for the end of the scan; the first four scans give the baselines, a later one moves an object's press and its release; MAX_ON_S releases and recalibrates; KEY_SELFTEST replies after its eight scans. Where the spec leaves a point open, the model's choice of log entry 74 holds. -/
def Obligations.KeyObjects : Prop :=
  (∀ (s : State) (c : Cmd) (h : Held), ReadyNow s c 0x901 h → checkKeys s h c = none →
    Holds (.keysConfigure c) s c h (modKeys s fun k => { k with sets := k.sets ++ [{ key := Cmd.key c, pkt := h.pkt }] })) ∧
  (∀ (s : State) (counts : List Nat), counts.length = 48 → (∀ x ∈ counts, x < 65536) → s.time.running = true → scanDue s = true → s.io.keys.scan < 3 → s.io.keys.sets = [] →
    s.io.keys.test = none →
    Becomes (.keyScan counts) s (modKeys s fun k => { k with raw := counts, sum := k.sum.zipWith (· + ·) counts, scanAt := some (upTime s), scan := k.scan + 1 })) ∧
  (∀ (s : State) (counts : List Nat), counts.length = 48 → (∀ x ∈ counts, x < 65536) → s.time.running = true → scanDue s = true → s.io.keys.scan = 3 → s.io.keys.sets = [] →
    s.io.keys.test = none →
    Becomes (.keyScan counts) s (modKeys s fun k => { k with
      raw := counts
      sum := k.sum.zipWith (· + ·) counts
      base := (k.sum.zipWith (· + ·) counts).map (· / 4)
      scanAt := some (upTime s)
      scan := 4 })) ∧
  (∀ (s : State) (counts : List Nat), scanDue s = false → Becomes (.keyScan counts) s s) ∧
  (∀ (s : State) (counts : List Nat) (n : Nat) (o : KeyObj) (d : Int), counts.length = 48 → (∀ x ∈ counts, x < 65536) → s.time.running = true → scanDue s = true →
    4 ≤ s.io.keys.scan → s.io.keys.sets = [] → s.io.keys.test = none → n < 48 → o = getKey s n → o.enable = true → 0 < o.debounce →
    (∀ m, m < 48 → m ≠ n → (getKey s m).enable = true → ∀ c ∈ channelsOf (getKey s m), c ∉ channelsOf o) → 0 < o.count →
    d = objectDelta { s.io.keys with raw := counts } o →
    (o.pressed = false → (o.thresh : Int) ≤ d → o.debounce ≤ o.run + 1 →
      Runs (.keyScan counts) s fun t => (getKey t n).pressed = true ∧ (getKey t n).pressAt = upTime s ∧ (getKey t n).run = 0 ∧ t.io.keys.raw = counts ∧ sameBytes t s) ∧
    (o.pressed = false → d < (o.thresh : Int) → Runs (.keyScan counts) s fun t => (getKey t n).pressed = false ∧ (getKey t n).run = 0) ∧
    (o.pressed = true → d < (o.thresh : Int) - o.hyst → o.debounce ≤ o.run + 1 →
      Runs (.keyScan counts) s fun t => (getKey t n).pressed = false ∧ (getKey t n).run = 0 ∧ (getKey t n).negRun = 0)) ∧
  (∀ (s : State) (n : Nat), n < 48 → (getKey s n).enable = true → (getKey s n).pressed = true → s.io.keys.test = none →
    passed s (getKey s n).pressAt ((getKey s n).maxOnS * 1000000000) = true →
    Leaves (.keyMaxOnExpiry n) s (modKeys (modKey s n fun o => { o with pressed := false, run := 0, negRun := 0 }) fun k =>
      { k with base := (channelsOf (getKey s n)).foldl (fun b c => b.set c (k.raw.getD c 0)) k.base })) ∧
  (∀ (s : State) (c : Cmd) (h : Held), ReadyNow s c 0x902 h → checkSelftest s h c = none →
    Defers (.keySelftest c) s c h [] (modKeys s fun k => { k with test := some {
      key := Cmd.key c
      mask := pf h.pkt 16 0 48
      openMin := if pf h.pkt 22 0 16 = 0 then 1024 else pf h.pkt 22 0 16
      neighMax := if pf h.pkt 24 0 16 = 0 then 2048 else pf h.pkt 24 0 16
      dest := pf h.pkt 32 0 64
      space := pb h.pkt 40 0 } })) ∧
  (∀ (s : State) (t : KeyTest) (h : Held) (ok : Bool) (m : Nat), s.io.keys.test = some t → t.scans.length = 8 → t.dest = 0 →
    findHeld s t.key = some h → h.slice = t.key.slice →
    m = (List.range 48).foldl (fun m c => if inRange (((List.range 48).map (testResult t)).getD c 0) 1 3 then m ||| 2 ^ c else m) 0 →
    Answers (.keySelftestComplete ok) s { slice := t.key.slice, ring := t.key.ring, index := t.key.index } h .ok (nowBits s)
      [fAt 16 0 48 m, fAt 24 0 64 (wpBits t.wp)] (modKeys s fun k => { k with test := none }))

/-- R397 to R402: TOUCH_PORT_SET takes a descriptor that R398 admits; an edge of ATTN is stamped; a report moves contacts by the layer map of its stamp; errors and silence cancel them. Where the spec leaves a point open, the model's choice of log entries 77, 78 and 79 holds. -/
def Obligations.TouchPorts : Prop :=
  (∀ (s : State) (c : Cmd) (h : Held) (port : Nat) (y : HidLayout), ReadyNow s c 0x903 h → checkTouchPortSet s h c = none → port = pf h.pkt 16 0 3 →
    pb h.pkt 16 5 = false → s.regs.headless = false → c.ok = true → c.data.length = pf h.pkt 22 0 13 → hidLayout c.data = .ok y →
    Answers (.touchPortSet c) s c h .ok (nowBits s) [fAt 16 0 8 y.fingers.length, fAt 17 0 8 (getTouch s port).contacts.length]
      (modTouch s port fun _ => {
        enable := pb h.pkt 16 3
        attnHigh := pb h.pkt 16 4
        output := pf h.pkt 17 0 3
        i2c := pf h.pkt 18 0 7
        inputReg := pf h.pkt 20 0 16
        matrix := (List.range 6).map fun k => toSigned 32 (pf h.pkt (32 + 4 * k) 0 32)
        layout := y })) ∧
  (∀ (s : State) (c : Cmd) (h : Held) (off : Nat), ReadyNow s c 0x903 h → checkTouchPortSet s h c = none →
    pb h.pkt 16 5 = false → s.regs.headless = false → c.ok = true → c.data.length = pf h.pkt 22 0 13 → hidLayout c.data = .error off →
    Answers (.touchPortSet c) s c h .badParam (nowBits s) [fAt 18 0 8 (off / 16)] s) ∧
  (∀ (s : State) (p : Nat), p < 8 → (getTouch s p).enable = true →
    Becomes (.touchAttnEdge p) s (modTouch s p fun x =>
      if x.stamp.isNone then { x with stamp := some (touchStamp s), readAt := upTime s } else { x with nextStamp := some (touchStamp s) })) ∧
  (∀ (s : State) (p : Nat) (r : List Byte) (attn : Bool) (t : TouchStamp), (getTouch s p).enable = true → (getTouch s p).stamp = some t →
    2 ≤ r.length → leAt r 0 2 = 0 →
    Becomes (.touchReportRead p r attn) s (modTouch s p fun x => { x with
      errors := 0
      nextStamp := none
      readAt := upTime s
      stamp := if x.nextStamp.isSome then x.nextStamp else if attn then some t else none })) ∧
  (∀ (s u : State) (p : Nat) (r : List Byte) (t : TouchStamp) (x : TouchPort) (f : HidFinger) (e : TouchEntry) (px py : Nat) (cl old : Bool) (m : LayerMap) (g : MapEntry),
    x = getTouch s p → x.enable = true → x.stamp = some t → x.nextStamp = none → x.contacts = [] → x.seen = [] → x.layout = { ids := false, fingers := [f], count := none } →
    f.report = 0 → 2 < leAt r 0 2 → leAt r 0 2 ≤ 514 → leAt r 0 2 ≤ r.length →
    entryOf (modTouch s p fun x => { x with errors := 0 }) ((r.take (leAt r 0 2)).drop 2) false f = (u, e) → e.tip = true → e.conf = true →
    mapPoint s x e.x e.y = (px, py, cl) → mapAt s x.output t.wp = (m, old) → hitLayer m px py = some g → g.slot ≠ 0xFF →
    Runs (.touchReportRead p r false) s fun t =>
      (getTouch t p).contacts = [{ id := e.id, owner := g.owner, slot := g.slot, source := some g.source, x := px, y := py, clamped := cl, oldMap := old }] ∧
      (getTouch t p).stamp = none ∧ (getTouch t p).errors = 0 ∧ (getTouch t p).seen = [] ∧ (getTouch t p).layout = x.layout ∧ (∀ q, q ≠ p → getTouch t q = getTouch s q) ∧
      t.comp = s.comp ∧ sameBytes t s) ∧
  (∀ (s : State) (p : Nat) (attn : Bool), (getTouch s p).enable = true → (getTouch s p).stamp ≠ none → passed s (getTouch s p).readAt 2000000 = true → (getTouch s p).errors < 2 →
    Becomes (.touchReadTimeout p attn) s (modTouch s p fun x => { x with
      errors := x.errors + 1
      nextStamp := none
      readAt := upTime s
      stamp := if x.nextStamp.isSome then x.nextStamp else if attn then x.stamp else none })) ∧
  (∀ (s : State) (p : Nat) (attn : Bool), (getTouch s p).enable = true → (getTouch s p).stamp ≠ none → passed s (getTouch s p).readAt 2000000 = true → 2 ≤ (getTouch s p).errors →
    Leaves (.touchReadTimeout p attn) s (modTouch s p fun x => { x with
      errors := 0
      contacts := []
      left := 0
      seen := []
      nextStamp := none
      readAt := upTime s
      stamp := if x.nextStamp.isSome then x.nextStamp else if attn then x.stamp else none })) ∧
  (∀ (s : State) (p : Nat), (getTouch s p).enable = true → (getTouch s p).stamp = none → passed s (getTouch s p).readAt 500000000 = true →
    Leaves (.touchAttnIdleTimeout p) s (modTouch s p fun x => { x with contacts := [], left := 0, seen := [] }))

/-- R403 to R409: HAPTIC_CONFIGURE writes a channel and HAPTIC_PLAY gives it a waveform; each drive period drives one sample times the gain and RATED_MV, or brakes; a fault turns the channel off. Where the spec leaves a point open, the model's choice of log entries 75 and 76 holds. -/
def Obligations.HapticChannels : Prop :=
  (∀ (s u : State) (c : Cmd) (h : Held) (n : Nat) (o : HapChan), ReadyNow s c 0x907 h → checkHapticConfigure s h c = none → n = pf h.pkt 16 0 3 →
    o = getHap s n → o.lib = 0 → u = (if pf h.pkt 24 0 32 = 0 then s else addUser s (pf h.pkt 24 0 32)) →
    Answers (.hapticConfigure c) s c h .ok (nowBits s) [] (modHap u n fun _ => {
      enable := pb h.pkt 16 3
      erm := pb h.pkt 16 4
      trigEnable := pb h.pkt 16 5
      owner := pf h.pkt 17 0 7
      ratedMv := pf h.pkt 18 0 13
      ilimit := pf h.pkt 20 0 9
      f0 := pf h.pkt 22 0 9
      lib := pf h.pkt 24 0 32
      trigOutput := pf h.pkt 28 0 3
      trigSlot := pf h.pkt 28 3 3
      trigWave := pf h.pkt 29 0 6
      fault := if pb h.pkt 16 3 then 0 else o.fault
      freq := 10 * pf h.pkt 22 0 9
      period := o.period
      brake := if o.erm && pb h.pkt 16 4 && pb h.pkt 16 3 && (o.play.isSome || o.brake != 0) then 10 else 0 })) ∧
  (∀ (s : State) (c : Cmd) (h : Held), ReadyNow s c 0x904 h → checkHapticPlay s h c = none →
    Answers (.hapticPlay c) s c h .ok (nowBits s) [] (forEach (playChannels h.pkt) (fun n s => modHap s n fun x => { x with
      next := x.next ++ [{ stop := pb h.pkt 17 6, wave := pf h.pkt 17 0 6, gain := pf h.pkt 18 0 8, due := none }] }) s)) ∧
  (∀ (s : State) (c : Cmd) (h : Held), ReadyNow s c 0x904 h → checkHapticPlay s h c = some (failWith .notPermitted) →
    Answers (.hapticPlay c) s c h .notPermitted (nowBits s) [] s) ∧
  (∀ (s u : State) (n r : Nat) (x : HapChan) (p : HapPlay) (v : Int) (at_ : Nat × Nat), n < 8 → x = getHap s n → x.enable = true → x.fault = 0 →
    s.io.audio.sample ≠ 0 → at_ = (s.io.audio.group, (s.io.audio.sample - 1) / 48) → x.period ≠ some at_ → x.erm = true → x.next = [] → x.play = some p →
    p.pos < p.length → hapSample (modHap s n fun x => { x with period := some at_ }) { x with period := some at_ } p = (u, some v) →
    Becomes (.hapticDrivePeriod n r) s (emit (modHap u n fun x => { x with play := some { p with pos := p.pos + 1 } })
      (.haptic n (v * ((if p.gain = 255 then 256 else p.gain : Nat) : Int) * (x.ratedMv : Int))))) ∧
  (∀ (s : State) (n r : Nat) (x : HapChan) (at_ : Nat × Nat), n < 8 → x = getHap s n → x.enable = true → x.fault = 0 →
    s.io.audio.sample ≠ 0 → at_ = (s.io.audio.group, (s.io.audio.sample - 1) / 48) → x.period ≠ some at_ → x.erm = true → x.next = [] → x.play = none →
    0 < x.brake →
    Becomes (.hapticDrivePeriod n r) s (emit (modHap s n fun x => { x with period := some at_, brake := x.brake - 1 }) (.haptic n (0 - (x.ratedMv : Int) * 32768)))) ∧
  (∀ (s : State) (n cause peak : Nat), n < 8 → (getHap s n).enable = true → (getHap s n).fault = 0 → 1 ≤ cause → cause ≤ 4 →
    (cause = 3 → (getHap s n).erm = false) →
    Leaves (.hapticFault n cause peak) s (modHap s n fun x => { x with fault := cause, play := none, next := [], brake := 0 }) ∧
    Runs (.hapticFault n cause peak) s fun t => Output.haptic n 0 ∈ t.out)

/-- R410 to R415: AUDIO_STREAM_SET and TONE_PLAY act at the next sample; a sample moves every tone and stream on and the place in the grid; a poll reads PRODUCED and starts a stream that has its PREFILL. Where the spec leaves a point open, the model's choice of log entries 80, 81, 82 and 83 holds. -/
def Obligations.Sound : Prop :=
  (∀ (s : State) (c : Cmd) (h : Held), ReadyNow s c 0x905 h → audioOp h.pkt = 0 → checkAudioStreamSet s h c = none →
    Answers (.audioStreamSetOpen c) s c h .ok (wpBits (sampleAfter s (now s))) [fAt 16 0 8 (pf h.pkt 17 0 5)] (modAud s (pf h.pkt 17 0 5) fun _ => {
      used := true
      owner := h.slice
      stereo := pb h.pkt 16 2
      space := pb h.pkt 16 3 || destSpace s
      dest := pf h.pkt 18 0 12
      gain := { src := pf h.pkt 20 0 16, dst := pf h.pkt 20 0 16 }
      addr := pf h.pkt 24 0 64
      length := pf h.pkt 32 0 32
      prefill := pf h.pkt 36 0 16
      start := if pf h.pkt 40 0 64 = 0 then none else some (wpOfBits (pf h.pkt 40 0 64)) })) ∧
  (∀ (s : State) (c : Cmd) (h : Held) (n : Nat), ReadyNow s c 0x905 h → audioOp h.pkt = 1 → checkAudioStreamSet s h c = none → n = pf h.pkt 17 0 5 →
    Answers (.audioStreamSetClose c) s c h .ok (wpBits (sampleAfter s (now s))) [fAt 16 0 8 n, fAt 20 0 32 (min (getAud s n).underruns (2 ^ 32 - 1))]
      (modAud s n fun x => { owner := x.owner, quiet := x.quiet })) ∧
  (∀ (s : State) (c : Cmd) (h : Held), ReadyNow s c 0x905 h → audioOp h.pkt = 2 → checkAudioStreamSet s h c = none →
    Answers (.audioStreamSetGain c) s c h .ok (wpBits (sampleAfter s (now s))) [fAt 16 0 8 (pf h.pkt 17 0 5)]
      (modAud s (pf h.pkt 17 0 5) fun x => { x with gain := if x.gain.dst = pf h.pkt 20 0 16 then x.gain else
        { src := (x.gain.src * x.gain.left + x.gain.dst * (480 - x.gain.left)) / 480, dst := pf h.pkt 20 0 16, left := 480 } })) ∧
  (∀ (s : State) (c : Cmd) (h : Held), ReadyNow s c 0x905 h → audioOp h.pkt = 3 → checkAudioStreamSet s h c = none →
    Answers (.audioStreamSetGlobal c) s c h .ok (wpBits (sampleAfter s (now s))) [fAt 16 0 8 (pf h.pkt 17 0 5)]
      (modAudio s fun a => { a with duckS := pf h.pkt 22 0 6, duckO := pf h.pkt 23 0 6 })) ∧
  (∀ (s : State) (c : Cmd) (h : Held), ReadyNow s c 0x906 h → checkTonePlay s h c = none → pb h.pkt 16 3 = false →
    Answers (.tonePlay c) s c h .ok (wpBits (sampleAfter s (now s))) [] (modTone s (pf h.pkt 16 0 3) fun _ => {
      on := true
      owner := h.slice
      wave := pf h.pkt 16 4 2
      dest := pf h.pkt 18 0 12
      freq := pf h.pkt 20 0 16
      level := pf h.pkt 22 0 16
      onMs := pf h.pkt 24 0 16
      offMs := pf h.pkt 26 0 16
      cycles := pf h.pkt 28 0 16
      start := none })) ∧
  (∀ (s : State) (c : Cmd) (h : Held), ReadyNow s c 0x906 h → checkTonePlay s h c = none → pb h.pkt 16 3 = true → (getTone s (pf h.pkt 16 0 3)).on = true →
    Answers (.tonePlay c) s c h .ok (wpBits (sampleAfter s (now s))) [] (modTone s (pf h.pkt 16 0 3) fun t => { t with ending := true })) ∧
  (∀ (s : State) (host : List HostBytes), s.time.running = true → wpReached (now s) (nextSampleWp s) = true →
    Runs (.audioSample host) s fun t => t.io.audio.group = (nextSample s s.io.audio).group ∧ t.io.audio.sample = (nextSample s s.io.audio).sample ∧
      t.io.audio.baseFrame = (nextSample s s.io.audio).baseFrame ∧ t.io.audio.poll = min 48 (s.io.audio.poll + 1) ∧ t.io.keys = s.io.keys ∧ t.io.haptics = s.io.haptics ∧
      (∀ n, n < 8 → (getTone s n).on = true → (getTone s n).ending = false → (getTone s n).start = none → (getTone s n).cycles = 0 →
        (getTone t n).pos = (getTone s n).pos + 1 ∧ (getTone t n).on = true) ∧
      (∀ n b, n < 24 → (getAud s n).used = true → (getAud s n).running = true → (getAud s n).space = false → (getAud s n).consumed < (getAud s n).produced →
        hostFor host n (frameBytes (getAud s n)) = some b →
        (getAud t n).consumed = (getAud s n).consumed + 1 ∧ (getAud t n).underruns = (getAud s n).underruns) ∧
      (∀ n, n < 24 → (getAud s n).used = true → (getAud s n).running = true → (getAud s n).produced ≤ (getAud s n).consumed →
        (getAud t n).underruns = (getAud s n).underruns + 1 ∧ (getAud t n).consumed = (getAud s n).consumed)) ∧
  (∀ (s : State) (host : List HostBytes), s.time.running = true → wpReached (now s) (nextSampleWp s) = false → Becomes (.audioSample host) s s) ∧
  (∀ (s : State) (host : List HostBytes), 48 ≤ s.io.audio.poll →
    (∀ n, n < 24 → (getAud s n).space = true → (getAud s n).addr + 64 < regSpace) →
    Runs (.audioProducedPoll host) s fun t => t.io.audio.poll = 0 ∧ t.io.audio.tones = s.io.audio.tones ∧
      (∀ n b, n < 24 → (getAud s n).used = true → (getAud s n).space = false → hostFor host n 8 = some b →
        (getAud t n).produced = natLE b ∧ (getAud t n).consumed = (getAud s n).consumed ∧
        (getAud t n).running = ((getAud s n).running || ((getAud s n).start.isNone && decide ((getAud s n).prefill ≤ natLE b))) ∧
        Output.hostWrite (getAud s n).owner (pasidOf s (getAud s n).owner) ((getAud s n).addr + 64) (bytesLE 8 (getAud s n).consumed) ∈ t.out))

/-- R376 to R380: WEIR_RULE_SET writes and reads rules that are not locked, WEIR_LOCK locks them until reset, WEIR_BARRIER waits for the accesses in flight, and the violation record is read and cleared. R381, R385, R386: GAUGE_SET gives a unit its target and counts from 0; GAUGE_READ takes the oldest records away once they are written. Where the spec leaves a point open, the model's choice of log entry 92 holds. -/
def Obligations.WeirAndGauge : Prop :=
  (∀ (s : State) (c : Cmd) (h : Held), ReadyNow s c 0xB01 h → pb h.pkt 20 0 = false → checkRuleSet s h c = none → pf h.pkt 18 0 13 = 0 →
    (ruleImageBad (pf h.pkt 32 0 256) = false →
      Answers (.weirRuleSetWrite c) s c h .ok (nowBits s) [fAt 16 0 16 (pf h.pkt 16 0 12), fAt 18 0 16 1]
        { s with weir := { s.weir with rules := tset {} s.weir.rules (pf h.pkt 16 0 12) (ruleOfBits (pf h.pkt 32 0 256)) } }) ∧
    (ruleImageBad (pf h.pkt 32 0 256) = true →
      Answers (.weirRuleSetWrite c) s c h .badParam (nowBits s) [fAt 16 0 16 (pf h.pkt 16 0 12), fAt 20 0 16 (pf h.pkt 16 0 12)] s)) ∧
  (∀ (s : State) (c : Cmd) (h : Held), ReadyNow s c 0xB01 h → pb h.pkt 20 0 = false →
    reservedZero h.pkt (ruleSetResv h.pkt) = true → pf h.pkt 16 0 12 < 3072 → pf h.pkt 18 0 13 = 0 → pf h.pkt 24 0 64 = 0 →
    (tget {} s.weir.rules (pf h.pkt 16 0 12)).lock = true →
    Answers (.weirRuleSetWrite c) s c h .notPermitted (nowBits s) [fAt 16 0 16 (pf h.pkt 16 0 12), fAt 20 0 16 (pf h.pkt 16 0 12)] s) ∧
  (∀ (s u : State) (c : Cmd) (h : Held) (first n : Nat), ReadyNow s c 0xB01 h → pb h.pkt 20 0 = true → checkRuleSet s h c = none →
    first = pf h.pkt 16 0 12 → n = pf h.pkt 18 0 13 →
    destWrite s h.slice engLock (pb h.pkt 20 1) c.ok (pf h.pkt 24 0 64) ((List.range n).flatMap fun k => bytesLE 32 (ruleBits (tget {} s.weir.rules (first + k)))) = (u, true) →
    Answers (.weirRuleSetRead c) s c h .ok (nowBits u) [fAt 16 0 16 first, fAt 18 0 16 n] u) ∧
  (∀ (s : State) (c : Cmd) (h : Held) (first n : Nat), ReadyNow s c 0xB05 h → checkWeirLock s h c = none → first = pf h.pkt 16 0 12 → n = pf h.pkt 18 0 13 →
    Runs (.weirLock c) s fun t => Finished t c ∧
      Replied t h .ok (nowBits s) (packFields [fAt 16 0 16 ((List.range n).filter fun k => !(tget {} s.weir.rules (first + k)).lock).length]) ∧
      quiet { t with weir := s.weir } = quiet s ∧ sameBytes t s ∧
      ∀ r, tget {} t.weir.rules r = { tget {} s.weir.rules r with lock := (tget {} s.weir.rules r).lock || decide (first ≤ r ∧ r < first + n) }) ∧
  (∀ (s : State) (c : Cmd) (h : Held), ReadyNow s c 0xB02 h → reservedZero h.pkt [] = true → c.obs.getD 0 0 = 0 →
    Answers (.weirBarrier c) s c h .ok (nowBits s) [] s) ∧
  (∀ (s : State) (c : Cmd) (h : Held) (n : Nat), ReadyNow s c 0xB02 h → reservedZero h.pkt [] = true → n = c.obs.getD 0 0 → n ≠ 0 →
    Holds (.weirBarrier c) s c h
      { s with weir := { s.weir with inFlight := n, barriers := s.weir.barriers ++ [{ key := Cmd.key c, waited := n, start := upTime s }] } }) ∧
  (∀ (s : State) (c : Cmd) (h : Held) (b : Barrier), s.weir.barriers.find? (fun b => b.key == Cmd.key c) = some b → findHeld s (Cmd.key c) = some h → h.slice = c.slice →
    Answers (.weirBarrierDrained c) s c h .ok (nowBits s) [fAt 16 0 32 b.waited, fAt 20 0 32 0, fAt 24 0 32 ((upTime s - b.start) / (2 ^ 32 * 1000))]
      { s with weir := { s.weir with inFlight := 0, barriers := s.weir.barriers.filter fun b => b.key != Cmd.key c } } ∧
    (passed s b.start 1000000 = true →
      Answers (.weirBarrierTimeout c) s c h .timeout (nowBits s)
        [fAt 16 0 32 b.waited, fAt 20 0 32 (c.obs.getD 1 0), fAt 24 0 32 ((upTime s - b.start) / (2 ^ 32 * 1000))]
        { s with weir := { s.weir with inFlight := 0, barriers := s.weir.barriers.filter fun b => b.key != Cmd.key c } }) ∧
    (passed s b.start 1000000 = false → Becomes (.weirBarrierTimeout c) s s)) ∧
  (∀ (s : State) (c : Cmd) (h : Held) (v : Violation), ReadyNow s c 0xB03 h → checkViolationRead s h c = none → pf h.pkt 24 0 64 = 0 → s.weir.violation = some v →
    Answers (.weirViolationRead c) s c h .ok (nowBits s)
      [fAt 16 0 1 1, fAt 17 0 7 v.slice, fAt 17 7 1 (v.debug).toNat, fAt 18 0 16 v.count, fAt 20 0 16 v.rule, fAt 24 0 64 v.address] s) ∧
  (∀ (s : State) (c : Cmd) (h : Held), ReadyNow s c 0xB03 h → checkViolationRead s h c = none → pf h.pkt 24 0 64 = 0 → s.weir.violation = none →
    Answers (.weirViolationRead c) s c h .ok (nowBits s) [] s) ∧
  (∀ (s : State) (c : Cmd) (h : Held) (v : Violation), ReadyNow s c 0xB04 h → reservedZero h.pkt [(24, 0, 64)] = true → wpBadLine s (wpOfBits (pf h.pkt 24 0 64)) = false → s.weir.violation = some v →
    (pf h.pkt 24 0 64 = 0 ∨ pf h.pkt 24 0 64 = v.wp) →
    Becomes (.weirViolationClear c) s (finish { s with weir := { s.weir with violation := none } } h .ok (nowBits s) (packFields [fAt 16 0 16 v.count, fAt 24 0 64 v.wp])) ∧
    Answers (.weirViolationClear c) s c h .ok (nowBits s) [fAt 16 0 16 v.count, fAt 24 0 64 v.wp] s) ∧
  (∀ (s : State) (c : Cmd) (h : Held) (v : Violation), ReadyNow s c 0xB04 h → reservedZero h.pkt [(24, 0, 64)] = true → wpBadLine s (wpOfBits (pf h.pkt 24 0 64)) = false → s.weir.violation = some v →
    pf h.pkt 24 0 64 ≠ 0 → pf h.pkt 24 0 64 ≠ v.wp →
    Answers (.weirViolationClear c) s c h .notReady (nowBits s) [] s) ∧
  (∀ (s : State) (c : Cmd) (h : Held), ReadyNow s c 0xB04 h → wpBadLine s (wpOfBits (pf h.pkt 24 0 64)) = true →
    Answers (.weirViolationClear c) s c h .badParam (nowBits s) [] s) ∧
  (∀ (s : State) (c : Cmd) (h : Held) (left n : Nat), ReadyNow s c 0xA01 h → checkGaugeSet s h c = none → left = targetLines s h.pkt - pf h.pkt 28 0 32 →
    n = (if pb h.pkt 16 3 = false ∨ 2 ≤ pf h.pkt 17 0 2 then 0 else if pf h.pkt 32 0 32 = 0 then left else min (pf h.pkt 32 0 32) left) →
    Answers (.gaugeSet c) s c h .ok (nowBits s) [fAt 16 0 3 (pf h.pkt 16 0 3), fAt 20 0 32 n]
      { s with gauge := { s.gauge with units := tmod {} s.gauge.units (pf h.pkt 16 0 3) fun u => { u with
        enable := pb h.pkt 16 3
        crc64 := pb h.pkt 16 4
        kind := pf h.pkt 17 0 2
        port := pf h.pkt 17 2 2
        anyExport := pb h.pkt 17 4
        handle := pf h.pkt 20 0 32
        source := pf h.pkt 24 0 12
        exportId := pf h.pkt 26 0 12
        firstLine := pf h.pkt 28 0 32
        lineCount := pf h.pkt 32 0 32
        results := 0 } } }) ∧
  (∀ (s : State) (c : Cmd) (h : Held), ReadyNow s c 0xA01 h → reservedZero h.pkt gaugeResv = true → gaugeFieldBad h.pkt = false → pb h.pkt 16 3 = true →
    pf h.pkt 17 0 2 = 0 → lookup s (pf h.pkt 20 0 32) = none → Answers (.gaugeSet c) s c h .handleStale (nowBits s) [] s) ∧
  (∀ (s u : State) (c : Cmd) (h : Held) (recs left : List GaugeRec), ReadyNow s c 0xA02 h → checkGaugeRead s h c = none →
    recs = s.gauge.fifo.take (pf h.pkt 16 0 11) → left = s.gauge.fifo.drop (pf h.pkt 16 0 11) →
    (destWrite s 0 engLock (destSpace s) c.ok (pf h.pkt 24 0 64) (recs.flatMap fun r => bytesLE 32 (gaugeRecBits r)) = (u, true) →
      u.gauge = s.gauge →
      Answers (.gaugeRead c) s c h .ok (nowBits u) [fAt 16 0 16 recs.length, fAt 18 0 16 left.length, fAt 24 0 64 ((recs.getLast?.map GaugeRec.wp).getD 0)]
        { u with gauge := { u.gauge with
          fifo := left
          levelArmed := s.gauge.levelArmed || decide (left.length < 512)
          droppedSince := if left.isEmpty then 0 else s.gauge.droppedSince } }) ∧
    (destWrite s 0 engLock (destSpace s) c.ok (pf h.pkt 24 0 64) (recs.flatMap fun r => bytesLE 32 (gaugeRecBits r)) = (u, false) →
      Answers (.gaugeRead c) s c h .weirDenied (nowBits u) [] u))

/-- R85 to R87, R89, R90, R93, R101, R102: SLICE_CREATE, SLICE_BIND_PASID, SLICE_SET_SHARE, SLICE_THAW and SLICE_QUERY change and report a slice's record; slice 0 is refused where R85 says so. Where the spec leaves a point open, the model's choice of log entries 87 and 90 holds. -/
def Obligations.SliceRecords : Prop :=
  (∀ (s : State) (c : Cmd) (h : Held) (i : Nat), ReadyNow s c 0xC01 h → checkSliceCreate s h c = none → i = pktSlice h.pkt →
    Answers (.sliceCreate c) s c h .ok (nowBits s) []
      (modSlice s i fun _ => { state := .created, cls := clsOfCode (pf h.pkt 17 0 2), share := shareOf (pf h.pkt 24 0 256) })) ∧
  (∀ (s : State) (c : Cmd) (h : Held), ReadyNow s c 0xC01 h → reservedZero h.pkt ((16, 0, 7) :: (17, 0, 2) :: shareResv) = true → pf h.pkt 17 0 2 ≠ 3 →
    shareBad (shareOf (pf h.pkt 24 0 256)) = false → pktSlice h.pkt ≤ 64 →
    (pktSlice h.pkt = 0 → Answers (.sliceCreate c) s c h .notPermitted (nowBits s) [] s) ∧
    (pktSlice h.pkt ≠ 0 → (getSlice s (pktSlice h.pkt)).state ≠ .free → Answers (.sliceCreate c) s c h .notReady (nowBits s) [] s) ∧
    (pktSlice h.pkt ≠ 0 → (getSlice s (pktSlice h.pkt)).state = .free → sharesFit s (pktSlice h.pkt) (shareOf (pf h.pkt 24 0 256)) = false →
      Answers (.sliceCreate c) s c h .budgetExceeded (nowBits s) [] s)) ∧
  (∀ (s : State) (c : Cmd) (h : Held) (i : Nat), ReadyNow s c 0xC02 h → checkBindPasid s h c = none → i = pktSlice h.pkt →
    Answers (.sliceBindPasid c) s c h .ok (nowBits s) [fAt 16 0 32 ((getSlice s i).pasid.getD 0)] (modSlice s i fun x => { x with
      pasid := some (pf h.pkt 20 0 20)
      state := if x.state = .created then .active else x.state })) ∧
  (∀ (s : State) (c : Cmd) (h : Held) (i : Nat), ReadyNow s c 0xC03 h → checkSetShare s h c = none → i = pktSlice h.pkt →
    Holds (.sliceSetShare c) s c h (modSlice s i fun x => { x with pendShares := x.pendShares ++ [(shareOf (pf h.pkt 24 0 256), Cmd.key c, boundaryAfter (now s))] })) ∧
  (∀ (s : State) (c : Cmd) (h : Held) (i : Nat), ReadyNow s c 0xC0A h → checkThaw s h c = none → i = pktSlice h.pkt → (getSlice s i).state = .quiesced →
    (∀ l ∈ s.migr.held, l.slice ≠ i) →
    Answers (.sliceThaw c) s c h .ok (nowBits s) [] (modSlice s i fun x => { x with state := .active })) ∧
  (∀ (s : State) (c : Cmd) (h : Held) (i : Nat), ReadyNow s c 0xC0A h → checkThaw s h c = none → i = pktSlice h.pkt → (getSlice s i).state = .frozen →
    s.media.ctxs = [] → s.media.sessions = [] → (∃ l ∈ s.migr.held, l.slice = i) →
    Answers (.sliceThaw c) s c h .ok (boundaryBits (boundaryAfter (now s))) [] (modSlice { s with migr := { s.migr with
      held := s.migr.held.map fun l => if l.slice = i then { l with frame := some (boundaryAfter (now s)) } else l } } i fun x => { x with state := .active })) ∧
  (∀ (s : State) (c : Cmd) (h : Held) (i : Nat), ReadyNow s c 0xC0B h → checkQuery s h c = none → i = pktSlice h.pkt → pf h.pkt 24 0 64 = 0 →
    Answers (.sliceQuery c) s c h .ok (nowBits s) [fAt 16 0 8 (sliceStateCode (getSlice s i).state), fAt 17 0 8 (clsCode (getSlice s i).cls),
      fAt 18 0 16 (getSlice s i).orphans, fAt 20 0 32 (if (getSlice s i).state = .draining then 0 else (getSlice s i).pasid.getD 0),
      fAt 24 0 16 (getRings s i).held.length, fAt 26 0 16 (armedCount s i), fAt 28 0 32 (getSlice s i).saveSerial] s)

/-- R86, R94 to R96, R98, R103, R104: SLICE_QUIESCE and SLICE_FREEZE cancel armed commands and reply later, or ST_TIMEOUT; SLICE_RESET withdraws all a slice owns and SLICE_DESTROY ends it, once its orphans have retired or been aborted. Where the spec leaves a point open, the model's choice of log entries 88 and 89 holds. -/
def Obligations.SliceEnds : Prop :=
  (∀ (s : State) (c : Cmd) (h : Held) (i : Nat), ReadyNow s c 0xC04 h → checkQuiesce s h c = none → i = pktSlice h.pkt → c.slice = 0 →
    (∀ x ∈ (getRings s i).held, x.phase ≠ .armed) →
    Defers (.sliceQuiesce c) s c h [] (modSlice s i fun x => { x with
      state := .quiescing
      waits := x.waits ++ [{ key := Cmd.key c, freeze := false, startFrame := (now s).frame, timeout := pf h.pkt 17 0 8 }] })) ∧
  (∀ (s : State) (c : Cmd) (h : Held) (i : Nat), ReadyNow s c 0xC04 h → checkQuiesce s h c = none → i = pktSlice h.pkt → c.slice = 0 →
    (∀ x ∈ (getRings s i).held, x.slice = i) →
    Runs (.sliceQuiesce c) s fun t => (getSlice t i).state = .quiescing ∧
      ∀ x ∈ (getRings s i).held, x.phase = .armed → findHeld t (heldKey x) = none ∧ Replied t x .notReady (nowBits s) (packFields [fAt 16 0 8 1])) ∧
  (∀ (s : State) (c : Cmd) (h : Held) (i : Nat), ReadyNow s c 0xC07 h → checkFreeze s h c = none → i = pktSlice h.pkt → c.slice = 0 →
    (∀ x ∈ (getRings s i).held, x.phase ≠ .armed) → s.media.sessions = [] →
    Defers (.sliceFreeze c) s c h [] (modSlice (stopIntake s i) i fun x => { x with
      state := .freezing
      waits := x.waits ++ [{ key := Cmd.key c, freeze := true, startFrame := (now s).frame, timeout := pf h.pkt 17 0 8 }] })) ∧
  (∀ (s : State) (i : Nat) (w : SliceWait) (h : Held), (getSlice s i).state = .quiescing → (getRings s i).held = [] → engineJobs s i false = 0 →
    (getSlice s i).waits = [w] → w.freeze = false → findHeld s w.key = some h → h.slice = w.key.slice →
    Answers (.sliceQuiesced i) s { slice := w.key.slice, ring := w.key.ring, index := w.key.index } h .ok (nowBits s) [fAt 16 0 16 0, fAt 18 0 32 0]
      (modSlice s i fun x => { x with state := .quiesced, waits := [] })) ∧
  (∀ (s : State) (i : Nat) (w : SliceWait) (h : Held), (getSlice s i).state = .freezing → (getRings s i).held = [] → engineJobs s i true = 0 →
    (getSlice s i).waits = [w] → w.freeze = true → findHeld s w.key = some h → h.slice = w.key.slice →
    Answers (.sliceFrozen i) s { slice := w.key.slice, ring := w.key.ring, index := w.key.index } h .ok (nowBits s) [fAt 16 0 16 0, fAt 18 0 32 0]
      (modSlice s i fun x => { x with state := .frozen, waits := [] })) ∧
  (∀ (s : State) (i : Nat), (getRings s i).held ≠ [] → Becomes (.sliceQuiesced i) s s ∧ Becomes (.sliceFrozen i) s s) ∧
  (∀ (s : State) (c : Cmd) (h : Held) (i : Nat) (w : SliceWait),
    (List.range 65).findSome? (fun i => ((getSlice s i).waits.find? fun w => w.key == Cmd.key c).map fun w => (i, w)) = some (i, w) →
    w.timeout ≤ frameDiff (now s).frame w.startFrame → findHeld s (Cmd.key c) = some h → h.slice = c.slice →
    Answers (.sliceWaitTimeout c) s c h .timeout (nowBits s) [fAt 16 0 16 (getRings s i).held.length, fAt 18 0 32 (engineJobs s i w.freeze)]
      (modSlice s i fun x => { x with waits := x.waits.filter (· != w) })) ∧
  (∀ (s : State) (c : Cmd) (h : Held) (i : Nat), ReadyNow s c 0xC05 h → checkSliceEnd [.quiesced, .frozen] s h c = none → i = pktSlice h.pkt → c.slice = 0 →
    Runs (.sliceReset c) s fun t => Finished t c ∧ (getSlice t i).state = .active ∧ (getSlice t i).waits = [] ∧ (getSlice t i).share = (getSlice s i).share ∧
      (getRings t i).held = [] ∧ (∀ k, tget {} (getRings t i).sq k = { count := (tget {} (getRings t i).sq k).count }) ∧ (getRings t i).rq.enable = false ∧ (getRings t i).eq.enable = false ∧
      (∀ k, (getEntry t k).valid = true → (getEntry t k).owner = i → (getEntry t k).inp.withdrawn = true) ∧
      (∀ k, (getSurf t k).used = true → (getSurf t k).owner = i → (getSurf t k).releasePending = true) ∧
      (∀ n, n < 16 → (getSession t n).used = true → (getSession t n).owner ≠ i) ∧ (∀ n, (getAud t n).used = true → (getAud t n).owner ≠ i) ∧
      (∀ n, (getKey t n).owner ≠ i)) ∧
  (∀ (s : State) (c : Cmd) (h : Held), ReadyNow s c 0xC05 h → reservedZero h.pkt [(16, 0, 7), (17, 0, 1)] = true → pktSlice h.pkt ≤ 64 → pktSlice h.pkt ≠ 0 →
    (getSlice s (pktSlice h.pkt)).state = .active → pb h.pkt 17 0 = false →
    Answers (.sliceReset c) s c h .notQuiesced (nowBits s) [] s) ∧
  (∀ (s : State) (c : Cmd) (h : Held) (i : Nat), ReadyNow s c 0xC06 h → checkSliceEnd [.created, .quiesced, .frozen] s h c = none → i = pktSlice h.pkt → c.slice = 0 →
    Runs (.sliceDestroy c) s fun t => Finished t c ∧ (getSlice t i).state = (if (getSlice t i).orphans = 0 then .free else .draining) ∧
      (getSlice t i).pendShares = [] ∧ (getRings t i).held = [] ∧
      (∀ k, (getEntry t k).valid = true → (getEntry t k).owner = i → (getEntry t k).inp.withdrawn = true) ∧
      (∀ k, (getSurf t k).used = true → (getSurf t k).owner = i → (getSurf t k).releasePending = true)) ∧
  (∀ (s : State) (i : Nat), (getSlice s i).orphans = 0 → Becomes (.orphanRetired i) s s ∧ Becomes (.orphanAbortLimit i) s s) ∧
  (∀ (s : State) (i : Nat) (e : EncOrphan), s.media.ctxs = [] → s.media.encOrphans = [e] → e.slice = i → e.surfs = [] → 2 ≤ (getSlice s i).orphans →
    Becomes (.orphanRetired i) s (modSlice { s with media := { s.media with encOrphans := [] } } i fun x => { x with
      orphans := x.orphans - 1
      retired := satAdd 32 x.retired 1
      aborted := satAdd 32 x.aborted 0
      orphanAborts := satAdd 32 x.orphanAborts 0 })) ∧
  (∀ (s : State) (i : Nat) (e : EncOrphan), s.media.ctxs = [] → s.media.encOrphans = [e] → e.slice = i → e.surfs = [] → (getSlice s i).orphans = 1 →
    (getSlice s i).state = .draining → e.at_ + 100 ≤ uptimeMs s →
    Leaves (.orphanAbortLimit i) s (modSlice { s with media := { s.media with encOrphans := [] } } i fun x =>
      { orphanAborts := satAdd 32 x.orphanAborts 1 })) ∧
  (∀ (s : State) (i : Nat), s.media.ctxs = [] → s.sluice.writes = [] → (∀ e ∈ s.media.encOrphans, uptimeMs s < e.at_ + 100) →
    Becomes (.orphanAbortLimit i) s s)

/-- R99, R100: SLICE_SAVE takes the image at its commit point, gives its blocks to the lanes, and replies once they are coded and written, with the next serial, or that the image does not fit; SLICE_RESTORE makes the slice RESTORING and ends with it FROZEN, or back where it was. Where the spec leaves a point open, the model's choice of log entries 84, 85 and 86 holds. -/
def Obligations.SliceMigration : Prop :=
  (∀ (s : State) (c : Cmd) (h : Held) (i n : Nat) (body : List Byte), ReadyNow s c 0xC08 h → checkSliceSave s h c = none → i = pktSlice h.pkt →
    pb h.pkt 17 0 = false → body = imageBody s i false → n = (body.length + 4095) / 4096 →
    Defers (.sliceSave c) s c h [] { s with
      migr := { s.migr with saves := s.migr.saves ++
        [{ key := Cmd.key c, slice := i, head := imageHead s i false, count := n, maxLength := pf h.pkt 32 0 64, dest := pf h.pkt 24 0 64 }] }
      sluice := { s.sluice with queue := s.sluice.queue ++ (List.range n).map fun k =>
        { kind := .batch, row := k, raw := (body.drop (4096 * k)).take 4096, last := k + 1 == n, save := some (Cmd.key c) } } }) ∧
  (∀ (s : State) (c : Cmd) (j : SaveJob), s.migr.saves.find? (fun j => j.key == Cmd.key c) = some j → j.blocks.length ≠ j.count →
    Becomes (.sliceSaveComplete c) s s) ∧
  (∀ (s u : State) (c : Cmd) (h : Held) (j : SaveJob) (body : List Byte), s.migr.saves.find? (fun j => j.key == Cmd.key c) = some j →
    findHeld s (Cmd.key c) = some h → h.slice = c.slice → j.blocks.length = j.count → body = packBody ((List.range j.count).map (tget [] j.blocks)) →
    u = { s with migr := { s.migr with saves := s.migr.saves.filter fun x => x.key != Cmd.key c } } → j.maxLength < 64 + body.length →
    Answers (.sliceSaveComplete c) s c h .noResource (nowBits s) [fAt 16 0 64 (64 + body.length)] u) ∧
  (∀ (s u : State) (c : Cmd) (h : Held) (j : SaveJob) (serial : Nat) (body : List Byte), s.migr.saves.find? (fun j => j.key == Cmd.key c) = some j →
    findHeld s (Cmd.key c) = some h → h.slice = c.slice → j.blocks.length = j.count → body = packBody ((List.range j.count).map (tget [] j.blocks)) →
    u = { s with migr := { s.migr with saves := s.migr.saves.filter fun x => x.key != Cmd.key c } } → 64 + body.length ≤ j.maxLength →
    serial = ((getSlice s j.slice).saveSerial + 1) % 2 ^ 32 → s.regs.headless = false → c.ok = true →
    Answers (.sliceSaveComplete c) s c h .ok (nowBits s) [fAt 16 0 64 (64 + body.length), fAt 24 0 32 serial]
      (modSlice u j.slice fun x => { x with saveSerial := serial }) ∧
    Runs (.sliceSaveComplete c) s fun t => Output.hostWrite 0 (pasidOf s 0) j.dest (imageHeader j.head serial body) ∈ t.out ∧
      Output.hostWrite 0 (pasidOf s 0) (j.dest + 64) body ∈ t.out) ∧
  (∀ (s : State) (c : Cmd) (h : Held) (m : ImgHead), ReadyNow s c 0xC09 h → checkSliceRestore s h c = none → s.regs.headless = false → c.ok = true →
    c.data.length = 64 → readHead s c.data = some m → restorable s m = true →
    Defers (.sliceRestore c) s c h [] (modSlice { s with migr := { s.migr with
      restores := s.migr.restores ++ [{ key := Cmd.key c, slice := some m.slice, byRef := !m.content }] } } m.slice fun x => { x with state := .restoring })) ∧
  (∀ (s u : State) (c : Cmd) (h : Held) (j : RestoreJob), s.migr.restores.find? (fun j => j.key == Cmd.key c) = some j → j.key = Cmd.key c →
    findHeld s (Cmd.key c) = some h → h.slice = c.slice → u = { s with migr := { s.migr with restores := s.migr.restores.filter fun x => x.key != Cmd.key c } } →
    s.regs.headless = false → c.ok = true → c.data.length = pf h.pkt 32 0 64 → readHead s c.data = none → j.slice = none →
    Answers (.sliceRestoreComplete c) s c h .checkFailed (nowBits s) [] u) ∧
  (∀ (s u : State) (c : Cmd) (h : Held) (j : RestoreJob) (i : Nat), s.migr.restores.find? (fun j => j.key == Cmd.key c) = some j → j.key = Cmd.key c →
    findHeld s (Cmd.key c) = some h → h.slice = c.slice → u = { s with migr := { s.migr with restores := s.migr.restores.filter fun x => x.key != Cmd.key c } } →
    s.regs.headless = false → c.ok = true → c.data.length = pf h.pkt 32 0 64 → readHead s c.data = none → j.slice = some i → j.byRef = true →
    (getSlice s i).state = .restoring →
    Answers (.sliceRestoreComplete c) s c h .checkFailed (nowBits s) [fAt 16 0 8 i] (modSlice u i fun x => { x with state := .frozen })) ∧
  (∀ (s u t' : State) (c : Cmd) (h g : Held) (j : RestoreJob) (m : ImgHead) (b : Image), s.migr.restores.find? (fun j => j.key == Cmd.key c) = some j →
    j.key = Cmd.key c → findHeld s (Cmd.key c) = some h → u = { s with migr := { s.migr with restores := s.migr.restores.filter fun x => x.key != Cmd.key c } } →
    s.regs.headless = false → c.ok = true → c.data.length = pf h.pkt 32 0 64 → readHead u c.data = some m → readBody m.slice c.data = .ok b →
    serialOk u m = true → j.slice = some m.slice → j.byRef = !m.content → applyImage h.pkt m b u = .ok t' → (getSlice t' m.slice).state = .restoring →
    findHeld t' (Cmd.key c) = some g → g.slice = c.slice →
    Answers (.sliceRestoreComplete c) s c g .ok (nowBits t') [fAt 16 0 8 m.slice] (modSlice t' m.slice fun x => { x with state := .frozen }))

/-- R68, R70, R84: a packet that fails its checks is answered with the first failing one's status and has no other effect; a timed one that passes is armed for its WP_DUE, or refused when its slice has 64 armed; NOP replies ST_OK with the WP of its execution and a detail of 0. Where the spec leaves a point open, the model's choice of log entries 2 and 10 holds. -/
def Obligations.PacketsCheckedAndArmed : Prop :=
  (∀ r ∈ timedRows ++ storeRows ++ timeRows ++ serviceRows, ∀ (s : State) (c : Cmd) (h : Held) (f : Fail),
    Ready s c r.op h → r.form h = true → r.check s h c = some f → Answers (r.row c) s c h f.1 (nowBits s) f.2 s) ∧
  (∀ r ∈ timedRows, ∀ (s : State) (c : Cmd) (h : Held), Ready s c r.op h → r.form h = true → r.check s h c = none → pktTimed h.pkt = true →
    (armedCount s h.slice < 64 →
      Runs (r.row c) s fun t => findHeld t (Cmd.key c) = some { h with phase := .armed, due := wpOfBits (pktDue h.pkt) } ∧
        t.out = s.out ∧ t.store = s.store ∧ quiet t = quiet s ∧ ∀ j, j ≠ c.slice → getRings t j = getRings s j) ∧
    (64 ≤ armedCount s h.slice → Answers (r.row c) s c h .noResource (nowBits s) [] s)) ∧
  (∀ r ∈ timedRows ++ storeRows ++ timeRows ++ serviceRows, ∀ (s : State) (c : Cmd), findHeld s (Cmd.key c) = none → Becomes (r.row c) s s) ∧
  (∀ (s : State) (c : Cmd) (h : Held), ReadyNow s c 0x000 h → checkNop s h c = none →
    Answers (.nop c) s c h .ok (nowBits s) [] s)

/-- R42: after any device reset the wall timing is 60 Hz with 2,250 lines, spread off and no anchor; the wall identifier is the device ID's halves XORed, or 1; WP starts at 0:0.0 when the locked clocks are released. -/
def Obligations.WallTimingAfterReset : Prop :=
  (∀ (s : State) (cause : Nat), let x := (Config.deviceId.toNat >>> 32) ^^^ (Config.deviceId.toNat % 2 ^ 32)
    let w : WallTiming := { rateNum := 60, rateDen := 1, lines := 2250, spread := false, anchor := none, wallId := if x = 0 then 1 else x }
    (deviceReset s cause).time.timing = w ∧ (powerOn s).time.timing = w ∧ State.reset.time.timing = w) ∧
  (∀ (s : State) (cause : Nat), (deviceReset s cause).time.running = false ∧ (powerOn s).time.running = false) ∧
  (∀ s : State, s.power.inRange = true → s.regs.rst = false → s.boot.state ≠ .thermalTrip → s.time.running = false →
    Runs .lockedClocksRelease s fun t => t.time.running = true ∧ t.time.wp = ⟨0, 0, 0⟩ ∧ t.time.timing = s.time.timing)

/-- R10, R16: LATE and STALE are judged on the whole wall lines from ORIGIN_WP to the line evaluated; the late threshold is the period and half of it, and an entry with a deadline at or below it is never LATE. -/
def Obligations.SourceAge : Prop :=
  (∀ (lines : Nat) (o : LineWp) (w : Wp), w.frame < 2 ^ 32 → o.frame ≤ w.frame → w.frame < o.frame + 2 ^ 31 →
    o.frame * lines + o.line ≤ w.frame * lines + w.line → o.frame * lines + o.line + linesBetween lines o w = w.frame * lines + w.line) ∧
  (∀ (s : State) (i n : Nat) (o : LineWp),
    let w : Wp := { now s with tick := 0 }
    let x := getEntry (takeReports s) i
    s.time.running = true → s.ledger.evalAt ≠ some (lineOf w) → s.ledger.sets = [] → i ∈ entryIds s → x.valid = true →
    x.inp.withdrawn = false → x.inp.unfit = false → x.static = false → x.inp.arrived = true → hasUpstream x = false → x.origin = some o →
    o.frame ≤ w.frame → w.frame < o.frame + 2 ^ 31 → o.frame * wallLines s + o.line ≤ w.frame * wallLines s + w.line →
    Runs (.ledgerEvaluation [] n) s fun t =>
      ((getEntry t i).state = .stale ↔ x.deadline < linesBetween (wallLines s) o w) ∧
      ((getEntry t i).state = .late ↔ linesBetween (wallLines s) o w ≤ x.deadline ∧ x.inp.concealed = false ∧ x.inp.damaged = false ∧
        x.inp.frozen = false ∧ (x.changeBound = true → 3 ≤ x.proven) ∧ x.period + x.period / 2 < linesBetween (wallLines s) o w) ∧
      (x.deadline ≤ x.period + x.period / 2 → (getEntry t i).state ≠ .late))

/-- R108: an uncorrectable word poisons its whole 256-byte unit and no other; a write clears the poison of the units that it covers whole, and leaves every other unit as it was. -/
def Obligations.PoisonedUnits : Prop :=
  (∀ (s : State) (addr : Nat), addr < storeEnd →
    Runs (.patrolScrub addr 2) s fun t => ∀ u, tget false t.store.poison u = (tget false s.store.poison u || decide (u = addr / 256))) ∧
  (∀ (s : State) (pc : Nat) (reqs : List MemReq) (r : MemReq) (p : PseudoChannel), pc < 32 → arbitrate s (tget {} s.store.pcs pc) (pendingAt pc reqs) = some (r, p) →
    r.write = true → r.handle = 0 → reqDenied s r = none → r.data.length = r.length →
    r.addr + r.length ≤ storeEnd →
    Runs (.reservoirRequestServed pc reqs 0) s fun t =>
      ∀ u, tget false t.store.poison u = (tget false s.store.poison u && !decide (r.addr ≤ 256 * u ∧ 256 * u + 256 ≤ r.addr + r.length))) ∧
  (∀ (s : State) (a : Nat) (l : List Byte), a + l.length ≤ storeEnd → ∀ u,
    tget false (writeBytes s a l).store.poison u = (tget false s.store.poison u && !decide (a ≤ 256 * u ∧ 256 * u + 256 ≤ a + l.length)))

/-- The machine of reset is in the invariant that every step keeps (log entry 64 gives what an unlisted byte reads as). -/
def Obligations.ResetIsInvariant : Prop := MemInv State.reset

/-- From every state whose memory is in its one canonical form, whatever command is in front, a step leaves it so: equal memories stay equal data. -/
def Obligations.EveryStepKeepsMemoryCanonical : Prop :=
  ∀ s t : State, MemInv s → step s = .next t → MemInv t

/-- R331: a fabric packet whose fields are in range is read from its bytes as it was sent, its check and LENGTH included. -/
def Obligations.FabricPacketsRead : Prop :=
  ∀ p : Pkt, p.dest < 4096 → p.src < 4096 → p.vc < 4 → p.kind < 64 → p.hops < 256 → p.seq < 65536 → p.exportId < 4096 →
    p.line < 2 ^ 32 → p.complete < 2 ^ 64 → p.frameSeq < 65536 → p.payload.length < 2 ^ 32 → parsePkt (pktBytes p) = some p

/-- R144 to R148, R151: what a compressor lane stores for a block, raw or coded, the decompressor reads back as the block's own bytes. -/
def Obligations.SluiceBlocksRead : Prop :=
  ∀ (index : Nat) (forceRaw : Bool) (last : Option Nat) (raw : List Byte) (size : Nat), index < 2 ^ 32 → 1 ≤ raw.length → raw.length ≤ 4096 →
    (∀ n, last = some n → 1 ≤ n ∧ n ≤ 4096) → (size = 0 ∨ size = (encodeBlock index forceRaw last raw).length) →
    decodeBlock index raw.length size (encodeBlock index forceRaw last raw) = .ok raw
end

