-- ==== Sys2Proof/Laws/Bits.lean ====
section
/-! SUPPORT. Laws of byte lists, their numbers and their checks. -/
namespace Sys2Proof.Machine

/-- The number of the bytes of a number is the number, as far as they hold it. -/
theorem natLE_bytesLE (n x : Nat) : natLE (bytesLE n x) = x % 256 ^ n := by
  induction n generalizing x with
  | zero => simp [bytesLE, natLE, Nat.mod_one]
  | succ n ih =>
    rw [bytesLE, natLE, ih, BitVec.toNat_ofNat, show 256 ^ (n + 1) = 256 * 256 ^ n from Nat.pow_succ', Nat.mod_mul]

theorem natLE_append (a b : List Byte) : natLE (a ++ b) = natLE a + 256 ^ a.length * natLE b := by
  induction a with
  | nil => simp [natLE]
  | cons x a ih => simp only [List.cons_append, natLE, ih, List.length_cons, Nat.pow_succ]; ring

theorem natLE_lt (l : List Byte) : natLE l < 256 ^ l.length := by
  induction l with
  | nil => simp [natLE]
  | cons x l ih =>
    have := x.isLt
    simp only [natLE, List.length_cons, Nat.pow_succ]; omega

theorem crcRef_append (poly c : Nat) (a b : List Byte) : crcRef poly c (a ++ b) = crcRef poly (crcRef poly c a) b := by
  simp [crcRef]

theorem crcRefBits_lt (poly n c w : Nat) (hp : poly < 2 ^ w) (hc : c < 2 ^ w) : crcRefBits poly n c < 2 ^ w := by
  induction n generalizing c with
  | zero => exact hc
  | succ n ih =>
    refine ih _ ?_
    have h : c / 2 < 2 ^ w := by omega
    unfold crcRefBit
    split
    · exact Nat.xor_lt_two_pow h hp
    · exact h

theorem crcRef_lt (poly c w : Nat) (l : List Byte) (hw : 8 ≤ w) (hp : poly < 2 ^ w) (hc : c < 2 ^ w) : crcRef poly c l < 2 ^ w := by
  induction l generalizing c with
  | nil => exact hc
  | cons b l ih =>
    refine ih _ (crcRefBits_lt poly 8 _ w hp (Nat.xor_lt_two_pow hc ?_))
    exact Nat.lt_of_lt_of_le b.isLt (Nat.pow_le_pow_right (by omega) hw)

/-- A CRC-32C is a number of 32 bits. -/
theorem crc32c_lt (l : List Byte) : crc32c l < 2 ^ 32 :=
  Nat.xor_lt_two_pow (crcRef_lt _ _ 32 l (by omega) (by decide) (by decide)) (by decide)

end Sys2Proof.Machine
end

