-- ==== Sys2Proof/Laws/State.lean ====
section
/-! SUPPORT. What each named update leaves: one lemma for each field of the state, true by rfl, so that no proof unfolds a record update. -/
namespace Sys2Proof.Machine
open Sys2Proof

@[simp] theorem modAud_time (s : State) (n : Nat) (f : AudStream → AudStream) : (modAud s n f).time = s.time := rfl
@[simp] theorem modAud_ledger (s : State) (n : Nat) (f : AudStream → AudStream) : (modAud s n f).ledger = s.ledger := rfl
@[simp] theorem modAud_rings (s : State) (n : Nat) (f : AudStream → AudStream) : (modAud s n f).rings = s.rings := rfl
@[simp] theorem modAud_slices (s : State) (n : Nat) (f : AudStream → AudStream) : (modAud s n f).slices = s.slices := rfl
@[simp] theorem modAud_store (s : State) (n : Nat) (f : AudStream → AudStream) : (modAud s n f).store = s.store := rfl
@[simp] theorem modAud_sluice (s : State) (n : Nat) (f : AudStream → AudStream) : (modAud s n f).sluice = s.sluice := rfl
@[simp] theorem modAud_comp (s : State) (n : Nat) (f : AudStream → AudStream) : (modAud s n f).comp = s.comp := rfl
@[simp] theorem modAud_scan (s : State) (n : Nat) (f : AudStream → AudStream) : (modAud s n f).scan = s.scan := rfl
@[simp] theorem modAud_bank (s : State) (n : Nat) (f : AudStream → AudStream) : (modAud s n f).bank = s.bank := rfl
@[simp] theorem modAud_media (s : State) (n : Nat) (f : AudStream → AudStream) : (modAud s n f).media = s.media := rfl
@[simp] theorem modAud_head (s : State) (n : Nat) (f : AudStream → AudStream) : (modAud s n f).head = s.head := rfl
@[simp] theorem modAud_ptp (s : State) (n : Nat) (f : AudStream → AudStream) : (modAud s n f).ptp = s.ptp := rfl
@[simp] theorem modAud_fabric (s : State) (n : Nat) (f : AudStream → AudStream) : (modAud s n f).fabric = s.fabric := rfl
@[simp] theorem modAud_lane (s : State) (n : Nat) (f : AudStream → AudStream) : (modAud s n f).lane = s.lane := rfl
@[simp] theorem modAud_boot (s : State) (n : Nat) (f : AudStream → AudStream) : (modAud s n f).boot = s.boot := rfl
@[simp] theorem modAud_regs (s : State) (n : Nat) (f : AudStream → AudStream) : (modAud s n f).regs = s.regs := rfl
@[simp] theorem modAud_smb (s : State) (n : Nat) (f : AudStream → AudStream) : (modAud s n f).smb = s.smb := rfl
@[simp] theorem modAud_power (s : State) (n : Nat) (f : AudStream → AudStream) : (modAud s n f).power = s.power := rfl
@[simp] theorem modAud_weir (s : State) (n : Nat) (f : AudStream → AudStream) : (modAud s n f).weir = s.weir := rfl
@[simp] theorem modAud_gauge (s : State) (n : Nat) (f : AudStream → AudStream) : (modAud s n f).gauge = s.gauge := rfl
@[simp] theorem modAud_migr (s : State) (n : Nat) (f : AudStream → AudStream) : (modAud s n f).migr = s.migr := rfl
@[simp] theorem modAud_out (s : State) (n : Nat) (f : AudStream → AudStream) : (modAud s n f).out = s.out := rfl
@[simp] theorem modAud_free (s : State) (n : Nat) (f : AudStream → AudStream) : (modAud s n f).free = s.free := rfl
@[simp] theorem modAud_pending (s : State) (n : Nat) (f : AudStream → AudStream) : (modAud s n f).pending = s.pending := rfl
@[simp] theorem modAud_intakeLast (s : State) (n : Nat) (f : AudStream → AudStream) : (modAud s n f).intakeLast = s.intakeLast := rfl

@[simp] theorem modAudio_time (s : State) (f : AudioSt → AudioSt) : (modAudio s f).time = s.time := rfl
@[simp] theorem modAudio_ledger (s : State) (f : AudioSt → AudioSt) : (modAudio s f).ledger = s.ledger := rfl
@[simp] theorem modAudio_rings (s : State) (f : AudioSt → AudioSt) : (modAudio s f).rings = s.rings := rfl
@[simp] theorem modAudio_slices (s : State) (f : AudioSt → AudioSt) : (modAudio s f).slices = s.slices := rfl
@[simp] theorem modAudio_store (s : State) (f : AudioSt → AudioSt) : (modAudio s f).store = s.store := rfl
@[simp] theorem modAudio_sluice (s : State) (f : AudioSt → AudioSt) : (modAudio s f).sluice = s.sluice := rfl
@[simp] theorem modAudio_comp (s : State) (f : AudioSt → AudioSt) : (modAudio s f).comp = s.comp := rfl
@[simp] theorem modAudio_scan (s : State) (f : AudioSt → AudioSt) : (modAudio s f).scan = s.scan := rfl
@[simp] theorem modAudio_bank (s : State) (f : AudioSt → AudioSt) : (modAudio s f).bank = s.bank := rfl
@[simp] theorem modAudio_media (s : State) (f : AudioSt → AudioSt) : (modAudio s f).media = s.media := rfl
@[simp] theorem modAudio_head (s : State) (f : AudioSt → AudioSt) : (modAudio s f).head = s.head := rfl
@[simp] theorem modAudio_ptp (s : State) (f : AudioSt → AudioSt) : (modAudio s f).ptp = s.ptp := rfl
@[simp] theorem modAudio_fabric (s : State) (f : AudioSt → AudioSt) : (modAudio s f).fabric = s.fabric := rfl
@[simp] theorem modAudio_lane (s : State) (f : AudioSt → AudioSt) : (modAudio s f).lane = s.lane := rfl
@[simp] theorem modAudio_boot (s : State) (f : AudioSt → AudioSt) : (modAudio s f).boot = s.boot := rfl
@[simp] theorem modAudio_regs (s : State) (f : AudioSt → AudioSt) : (modAudio s f).regs = s.regs := rfl
@[simp] theorem modAudio_smb (s : State) (f : AudioSt → AudioSt) : (modAudio s f).smb = s.smb := rfl
@[simp] theorem modAudio_power (s : State) (f : AudioSt → AudioSt) : (modAudio s f).power = s.power := rfl
@[simp] theorem modAudio_weir (s : State) (f : AudioSt → AudioSt) : (modAudio s f).weir = s.weir := rfl
@[simp] theorem modAudio_gauge (s : State) (f : AudioSt → AudioSt) : (modAudio s f).gauge = s.gauge := rfl
@[simp] theorem modAudio_migr (s : State) (f : AudioSt → AudioSt) : (modAudio s f).migr = s.migr := rfl
@[simp] theorem modAudio_out (s : State) (f : AudioSt → AudioSt) : (modAudio s f).out = s.out := rfl
@[simp] theorem modAudio_free (s : State) (f : AudioSt → AudioSt) : (modAudio s f).free = s.free := rfl
@[simp] theorem modAudio_pending (s : State) (f : AudioSt → AudioSt) : (modAudio s f).pending = s.pending := rfl
@[simp] theorem modAudio_intakeLast (s : State) (f : AudioSt → AudioSt) : (modAudio s f).intakeLast = s.intakeLast := rfl

@[simp] theorem modTone_time (s : State) (n : Nat) (f : Tone → Tone) : (modTone s n f).time = s.time := rfl
@[simp] theorem modTone_ledger (s : State) (n : Nat) (f : Tone → Tone) : (modTone s n f).ledger = s.ledger := rfl
@[simp] theorem modTone_rings (s : State) (n : Nat) (f : Tone → Tone) : (modTone s n f).rings = s.rings := rfl
@[simp] theorem modTone_slices (s : State) (n : Nat) (f : Tone → Tone) : (modTone s n f).slices = s.slices := rfl
@[simp] theorem modTone_store (s : State) (n : Nat) (f : Tone → Tone) : (modTone s n f).store = s.store := rfl
@[simp] theorem modTone_sluice (s : State) (n : Nat) (f : Tone → Tone) : (modTone s n f).sluice = s.sluice := rfl
@[simp] theorem modTone_comp (s : State) (n : Nat) (f : Tone → Tone) : (modTone s n f).comp = s.comp := rfl
@[simp] theorem modTone_scan (s : State) (n : Nat) (f : Tone → Tone) : (modTone s n f).scan = s.scan := rfl
@[simp] theorem modTone_bank (s : State) (n : Nat) (f : Tone → Tone) : (modTone s n f).bank = s.bank := rfl
@[simp] theorem modTone_media (s : State) (n : Nat) (f : Tone → Tone) : (modTone s n f).media = s.media := rfl
@[simp] theorem modTone_head (s : State) (n : Nat) (f : Tone → Tone) : (modTone s n f).head = s.head := rfl
@[simp] theorem modTone_ptp (s : State) (n : Nat) (f : Tone → Tone) : (modTone s n f).ptp = s.ptp := rfl
@[simp] theorem modTone_fabric (s : State) (n : Nat) (f : Tone → Tone) : (modTone s n f).fabric = s.fabric := rfl
@[simp] theorem modTone_lane (s : State) (n : Nat) (f : Tone → Tone) : (modTone s n f).lane = s.lane := rfl
@[simp] theorem modTone_boot (s : State) (n : Nat) (f : Tone → Tone) : (modTone s n f).boot = s.boot := rfl
@[simp] theorem modTone_regs (s : State) (n : Nat) (f : Tone → Tone) : (modTone s n f).regs = s.regs := rfl
@[simp] theorem modTone_smb (s : State) (n : Nat) (f : Tone → Tone) : (modTone s n f).smb = s.smb := rfl
@[simp] theorem modTone_power (s : State) (n : Nat) (f : Tone → Tone) : (modTone s n f).power = s.power := rfl
@[simp] theorem modTone_weir (s : State) (n : Nat) (f : Tone → Tone) : (modTone s n f).weir = s.weir := rfl
@[simp] theorem modTone_gauge (s : State) (n : Nat) (f : Tone → Tone) : (modTone s n f).gauge = s.gauge := rfl
@[simp] theorem modTone_migr (s : State) (n : Nat) (f : Tone → Tone) : (modTone s n f).migr = s.migr := rfl
@[simp] theorem modTone_out (s : State) (n : Nat) (f : Tone → Tone) : (modTone s n f).out = s.out := rfl
@[simp] theorem modTone_free (s : State) (n : Nat) (f : Tone → Tone) : (modTone s n f).free = s.free := rfl
@[simp] theorem modTone_pending (s : State) (n : Nat) (f : Tone → Tone) : (modTone s n f).pending = s.pending := rfl
@[simp] theorem modTone_intakeLast (s : State) (n : Nat) (f : Tone → Tone) : (modTone s n f).intakeLast = s.intakeLast := rfl

@[simp] theorem modHap_time (s : State) (c : Nat) (f : HapChan → HapChan) : (modHap s c f).time = s.time := rfl
@[simp] theorem modHap_ledger (s : State) (c : Nat) (f : HapChan → HapChan) : (modHap s c f).ledger = s.ledger := rfl
@[simp] theorem modHap_rings (s : State) (c : Nat) (f : HapChan → HapChan) : (modHap s c f).rings = s.rings := rfl
@[simp] theorem modHap_slices (s : State) (c : Nat) (f : HapChan → HapChan) : (modHap s c f).slices = s.slices := rfl
@[simp] theorem modHap_store (s : State) (c : Nat) (f : HapChan → HapChan) : (modHap s c f).store = s.store := rfl
@[simp] theorem modHap_sluice (s : State) (c : Nat) (f : HapChan → HapChan) : (modHap s c f).sluice = s.sluice := rfl
@[simp] theorem modHap_comp (s : State) (c : Nat) (f : HapChan → HapChan) : (modHap s c f).comp = s.comp := rfl
@[simp] theorem modHap_scan (s : State) (c : Nat) (f : HapChan → HapChan) : (modHap s c f).scan = s.scan := rfl
@[simp] theorem modHap_bank (s : State) (c : Nat) (f : HapChan → HapChan) : (modHap s c f).bank = s.bank := rfl
@[simp] theorem modHap_media (s : State) (c : Nat) (f : HapChan → HapChan) : (modHap s c f).media = s.media := rfl
@[simp] theorem modHap_head (s : State) (c : Nat) (f : HapChan → HapChan) : (modHap s c f).head = s.head := rfl
@[simp] theorem modHap_ptp (s : State) (c : Nat) (f : HapChan → HapChan) : (modHap s c f).ptp = s.ptp := rfl
@[simp] theorem modHap_fabric (s : State) (c : Nat) (f : HapChan → HapChan) : (modHap s c f).fabric = s.fabric := rfl
@[simp] theorem modHap_lane (s : State) (c : Nat) (f : HapChan → HapChan) : (modHap s c f).lane = s.lane := rfl
@[simp] theorem modHap_boot (s : State) (c : Nat) (f : HapChan → HapChan) : (modHap s c f).boot = s.boot := rfl
@[simp] theorem modHap_regs (s : State) (c : Nat) (f : HapChan → HapChan) : (modHap s c f).regs = s.regs := rfl
@[simp] theorem modHap_smb (s : State) (c : Nat) (f : HapChan → HapChan) : (modHap s c f).smb = s.smb := rfl
@[simp] theorem modHap_power (s : State) (c : Nat) (f : HapChan → HapChan) : (modHap s c f).power = s.power := rfl
@[simp] theorem modHap_weir (s : State) (c : Nat) (f : HapChan → HapChan) : (modHap s c f).weir = s.weir := rfl
@[simp] theorem modHap_gauge (s : State) (c : Nat) (f : HapChan → HapChan) : (modHap s c f).gauge = s.gauge := rfl
@[simp] theorem modHap_migr (s : State) (c : Nat) (f : HapChan → HapChan) : (modHap s c f).migr = s.migr := rfl
@[simp] theorem modHap_out (s : State) (c : Nat) (f : HapChan → HapChan) : (modHap s c f).out = s.out := rfl
@[simp] theorem modHap_free (s : State) (c : Nat) (f : HapChan → HapChan) : (modHap s c f).free = s.free := rfl
@[simp] theorem modHap_pending (s : State) (c : Nat) (f : HapChan → HapChan) : (modHap s c f).pending = s.pending := rfl
@[simp] theorem modHap_intakeLast (s : State) (c : Nat) (f : HapChan → HapChan) : (modHap s c f).intakeLast = s.intakeLast := rfl

@[simp] theorem modDp_time (s : State) (i : Nat) (f : DpIn → DpIn) : (modDp s i f).time = s.time := rfl
@[simp] theorem modDp_ledger (s : State) (i : Nat) (f : DpIn → DpIn) : (modDp s i f).ledger = s.ledger := rfl
@[simp] theorem modDp_rings (s : State) (i : Nat) (f : DpIn → DpIn) : (modDp s i f).rings = s.rings := rfl
@[simp] theorem modDp_slices (s : State) (i : Nat) (f : DpIn → DpIn) : (modDp s i f).slices = s.slices := rfl
@[simp] theorem modDp_store (s : State) (i : Nat) (f : DpIn → DpIn) : (modDp s i f).store = s.store := rfl
@[simp] theorem modDp_sluice (s : State) (i : Nat) (f : DpIn → DpIn) : (modDp s i f).sluice = s.sluice := rfl
@[simp] theorem modDp_comp (s : State) (i : Nat) (f : DpIn → DpIn) : (modDp s i f).comp = s.comp := rfl
@[simp] theorem modDp_scan (s : State) (i : Nat) (f : DpIn → DpIn) : (modDp s i f).scan = s.scan := rfl
@[simp] theorem modDp_bank (s : State) (i : Nat) (f : DpIn → DpIn) : (modDp s i f).bank = s.bank := rfl
@[simp] theorem modDp_head (s : State) (i : Nat) (f : DpIn → DpIn) : (modDp s i f).head = s.head := rfl
@[simp] theorem modDp_ptp (s : State) (i : Nat) (f : DpIn → DpIn) : (modDp s i f).ptp = s.ptp := rfl
@[simp] theorem modDp_fabric (s : State) (i : Nat) (f : DpIn → DpIn) : (modDp s i f).fabric = s.fabric := rfl
@[simp] theorem modDp_lane (s : State) (i : Nat) (f : DpIn → DpIn) : (modDp s i f).lane = s.lane := rfl
@[simp] theorem modDp_io (s : State) (i : Nat) (f : DpIn → DpIn) : (modDp s i f).io = s.io := rfl
@[simp] theorem modDp_boot (s : State) (i : Nat) (f : DpIn → DpIn) : (modDp s i f).boot = s.boot := rfl
@[simp] theorem modDp_regs (s : State) (i : Nat) (f : DpIn → DpIn) : (modDp s i f).regs = s.regs := rfl
@[simp] theorem modDp_smb (s : State) (i : Nat) (f : DpIn → DpIn) : (modDp s i f).smb = s.smb := rfl
@[simp] theorem modDp_power (s : State) (i : Nat) (f : DpIn → DpIn) : (modDp s i f).power = s.power := rfl
@[simp] theorem modDp_weir (s : State) (i : Nat) (f : DpIn → DpIn) : (modDp s i f).weir = s.weir := rfl
@[simp] theorem modDp_gauge (s : State) (i : Nat) (f : DpIn → DpIn) : (modDp s i f).gauge = s.gauge := rfl
@[simp] theorem modDp_migr (s : State) (i : Nat) (f : DpIn → DpIn) : (modDp s i f).migr = s.migr := rfl
@[simp] theorem modDp_out (s : State) (i : Nat) (f : DpIn → DpIn) : (modDp s i f).out = s.out := rfl
@[simp] theorem modDp_free (s : State) (i : Nat) (f : DpIn → DpIn) : (modDp s i f).free = s.free := rfl
@[simp] theorem modDp_pending (s : State) (i : Nat) (f : DpIn → DpIn) : (modDp s i f).pending = s.pending := rfl
@[simp] theorem modDp_intakeLast (s : State) (i : Nat) (f : DpIn → DpIn) : (modDp s i f).intakeLast = s.intakeLast := rfl

@[simp] theorem modExport_time (s : State) (n : Nat) (f : Export → Export) : (modExport s n f).time = s.time := rfl
@[simp] theorem modExport_ledger (s : State) (n : Nat) (f : Export → Export) : (modExport s n f).ledger = s.ledger := rfl
@[simp] theorem modExport_rings (s : State) (n : Nat) (f : Export → Export) : (modExport s n f).rings = s.rings := rfl
@[simp] theorem modExport_slices (s : State) (n : Nat) (f : Export → Export) : (modExport s n f).slices = s.slices := rfl
@[simp] theorem modExport_store (s : State) (n : Nat) (f : Export → Export) : (modExport s n f).store = s.store := rfl
@[simp] theorem modExport_sluice (s : State) (n : Nat) (f : Export → Export) : (modExport s n f).sluice = s.sluice := rfl
@[simp] theorem modExport_comp (s : State) (n : Nat) (f : Export → Export) : (modExport s n f).comp = s.comp := rfl
@[simp] theorem modExport_scan (s : State) (n : Nat) (f : Export → Export) : (modExport s n f).scan = s.scan := rfl
@[simp] theorem modExport_bank (s : State) (n : Nat) (f : Export → Export) : (modExport s n f).bank = s.bank := rfl
@[simp] theorem modExport_media (s : State) (n : Nat) (f : Export → Export) : (modExport s n f).media = s.media := rfl
@[simp] theorem modExport_head (s : State) (n : Nat) (f : Export → Export) : (modExport s n f).head = s.head := rfl
@[simp] theorem modExport_ptp (s : State) (n : Nat) (f : Export → Export) : (modExport s n f).ptp = s.ptp := rfl
@[simp] theorem modExport_lane (s : State) (n : Nat) (f : Export → Export) : (modExport s n f).lane = s.lane := rfl
@[simp] theorem modExport_io (s : State) (n : Nat) (f : Export → Export) : (modExport s n f).io = s.io := rfl
@[simp] theorem modExport_boot (s : State) (n : Nat) (f : Export → Export) : (modExport s n f).boot = s.boot := rfl
@[simp] theorem modExport_regs (s : State) (n : Nat) (f : Export → Export) : (modExport s n f).regs = s.regs := rfl
@[simp] theorem modExport_smb (s : State) (n : Nat) (f : Export → Export) : (modExport s n f).smb = s.smb := rfl
@[simp] theorem modExport_power (s : State) (n : Nat) (f : Export → Export) : (modExport s n f).power = s.power := rfl
@[simp] theorem modExport_weir (s : State) (n : Nat) (f : Export → Export) : (modExport s n f).weir = s.weir := rfl
@[simp] theorem modExport_gauge (s : State) (n : Nat) (f : Export → Export) : (modExport s n f).gauge = s.gauge := rfl
@[simp] theorem modExport_migr (s : State) (n : Nat) (f : Export → Export) : (modExport s n f).migr = s.migr := rfl
@[simp] theorem modExport_out (s : State) (n : Nat) (f : Export → Export) : (modExport s n f).out = s.out := rfl
@[simp] theorem modExport_free (s : State) (n : Nat) (f : Export → Export) : (modExport s n f).free = s.free := rfl
@[simp] theorem modExport_pending (s : State) (n : Nat) (f : Export → Export) : (modExport s n f).pending = s.pending := rfl
@[simp] theorem modExport_intakeLast (s : State) (n : Nat) (f : Export → Export) : (modExport s n f).intakeLast = s.intakeLast := rfl

@[simp] theorem modLane_time (s : State) (p : Nat) (f : RefEntry → RefEntry) : (modLane s p f).time = s.time := rfl
@[simp] theorem modLane_ledger (s : State) (p : Nat) (f : RefEntry → RefEntry) : (modLane s p f).ledger = s.ledger := rfl
@[simp] theorem modLane_rings (s : State) (p : Nat) (f : RefEntry → RefEntry) : (modLane s p f).rings = s.rings := rfl
@[simp] theorem modLane_slices (s : State) (p : Nat) (f : RefEntry → RefEntry) : (modLane s p f).slices = s.slices := rfl
@[simp] theorem modLane_store (s : State) (p : Nat) (f : RefEntry → RefEntry) : (modLane s p f).store = s.store := rfl
@[simp] theorem modLane_sluice (s : State) (p : Nat) (f : RefEntry → RefEntry) : (modLane s p f).sluice = s.sluice := rfl
@[simp] theorem modLane_comp (s : State) (p : Nat) (f : RefEntry → RefEntry) : (modLane s p f).comp = s.comp := rfl
@[simp] theorem modLane_scan (s : State) (p : Nat) (f : RefEntry → RefEntry) : (modLane s p f).scan = s.scan := rfl
@[simp] theorem modLane_bank (s : State) (p : Nat) (f : RefEntry → RefEntry) : (modLane s p f).bank = s.bank := rfl
@[simp] theorem modLane_media (s : State) (p : Nat) (f : RefEntry → RefEntry) : (modLane s p f).media = s.media := rfl
@[simp] theorem modLane_ptp (s : State) (p : Nat) (f : RefEntry → RefEntry) : (modLane s p f).ptp = s.ptp := rfl
@[simp] theorem modLane_fabric (s : State) (p : Nat) (f : RefEntry → RefEntry) : (modLane s p f).fabric = s.fabric := rfl
@[simp] theorem modLane_lane (s : State) (p : Nat) (f : RefEntry → RefEntry) : (modLane s p f).lane = s.lane := rfl
@[simp] theorem modLane_io (s : State) (p : Nat) (f : RefEntry → RefEntry) : (modLane s p f).io = s.io := rfl
@[simp] theorem modLane_boot (s : State) (p : Nat) (f : RefEntry → RefEntry) : (modLane s p f).boot = s.boot := rfl
@[simp] theorem modLane_regs (s : State) (p : Nat) (f : RefEntry → RefEntry) : (modLane s p f).regs = s.regs := rfl
@[simp] theorem modLane_smb (s : State) (p : Nat) (f : RefEntry → RefEntry) : (modLane s p f).smb = s.smb := rfl
@[simp] theorem modLane_power (s : State) (p : Nat) (f : RefEntry → RefEntry) : (modLane s p f).power = s.power := rfl
@[simp] theorem modLane_weir (s : State) (p : Nat) (f : RefEntry → RefEntry) : (modLane s p f).weir = s.weir := rfl
@[simp] theorem modLane_gauge (s : State) (p : Nat) (f : RefEntry → RefEntry) : (modLane s p f).gauge = s.gauge := rfl
@[simp] theorem modLane_migr (s : State) (p : Nat) (f : RefEntry → RefEntry) : (modLane s p f).migr = s.migr := rfl
@[simp] theorem modLane_out (s : State) (p : Nat) (f : RefEntry → RefEntry) : (modLane s p f).out = s.out := rfl
@[simp] theorem modLane_free (s : State) (p : Nat) (f : RefEntry → RefEntry) : (modLane s p f).free = s.free := rfl
@[simp] theorem modLane_pending (s : State) (p : Nat) (f : RefEntry → RefEntry) : (modLane s p f).pending = s.pending := rfl
@[simp] theorem modLane_intakeLast (s : State) (p : Nat) (f : RefEntry → RefEntry) : (modLane s p f).intakeLast = s.intakeLast := rfl

@[simp] theorem modRef_time (s : State) (n : Nat) (f : RefEntry → RefEntry) : (modRef s n f).time = s.time := rfl
@[simp] theorem modRef_ledger (s : State) (n : Nat) (f : RefEntry → RefEntry) : (modRef s n f).ledger = s.ledger := rfl
@[simp] theorem modRef_rings (s : State) (n : Nat) (f : RefEntry → RefEntry) : (modRef s n f).rings = s.rings := rfl
@[simp] theorem modRef_slices (s : State) (n : Nat) (f : RefEntry → RefEntry) : (modRef s n f).slices = s.slices := rfl
@[simp] theorem modRef_store (s : State) (n : Nat) (f : RefEntry → RefEntry) : (modRef s n f).store = s.store := rfl
@[simp] theorem modRef_sluice (s : State) (n : Nat) (f : RefEntry → RefEntry) : (modRef s n f).sluice = s.sluice := rfl
@[simp] theorem modRef_comp (s : State) (n : Nat) (f : RefEntry → RefEntry) : (modRef s n f).comp = s.comp := rfl
@[simp] theorem modRef_scan (s : State) (n : Nat) (f : RefEntry → RefEntry) : (modRef s n f).scan = s.scan := rfl
@[simp] theorem modRef_bank (s : State) (n : Nat) (f : RefEntry → RefEntry) : (modRef s n f).bank = s.bank := rfl
@[simp] theorem modRef_media (s : State) (n : Nat) (f : RefEntry → RefEntry) : (modRef s n f).media = s.media := rfl
@[simp] theorem modRef_ptp (s : State) (n : Nat) (f : RefEntry → RefEntry) : (modRef s n f).ptp = s.ptp := rfl
@[simp] theorem modRef_fabric (s : State) (n : Nat) (f : RefEntry → RefEntry) : (modRef s n f).fabric = s.fabric := rfl
@[simp] theorem modRef_lane (s : State) (n : Nat) (f : RefEntry → RefEntry) : (modRef s n f).lane = s.lane := rfl
@[simp] theorem modRef_io (s : State) (n : Nat) (f : RefEntry → RefEntry) : (modRef s n f).io = s.io := rfl
@[simp] theorem modRef_boot (s : State) (n : Nat) (f : RefEntry → RefEntry) : (modRef s n f).boot = s.boot := rfl
@[simp] theorem modRef_regs (s : State) (n : Nat) (f : RefEntry → RefEntry) : (modRef s n f).regs = s.regs := rfl
@[simp] theorem modRef_smb (s : State) (n : Nat) (f : RefEntry → RefEntry) : (modRef s n f).smb = s.smb := rfl
@[simp] theorem modRef_power (s : State) (n : Nat) (f : RefEntry → RefEntry) : (modRef s n f).power = s.power := rfl
@[simp] theorem modRef_weir (s : State) (n : Nat) (f : RefEntry → RefEntry) : (modRef s n f).weir = s.weir := rfl
@[simp] theorem modRef_gauge (s : State) (n : Nat) (f : RefEntry → RefEntry) : (modRef s n f).gauge = s.gauge := rfl
@[simp] theorem modRef_migr (s : State) (n : Nat) (f : RefEntry → RefEntry) : (modRef s n f).migr = s.migr := rfl
@[simp] theorem modRef_out (s : State) (n : Nat) (f : RefEntry → RefEntry) : (modRef s n f).out = s.out := rfl
@[simp] theorem modRef_free (s : State) (n : Nat) (f : RefEntry → RefEntry) : (modRef s n f).free = s.free := rfl
@[simp] theorem modRef_pending (s : State) (n : Nat) (f : RefEntry → RefEntry) : (modRef s n f).pending = s.pending := rfl
@[simp] theorem modRef_intakeLast (s : State) (n : Nat) (f : RefEntry → RefEntry) : (modRef s n f).intakeLast = s.intakeLast := rfl

@[simp] theorem modPort_time (s : State) (i : Nat) (f : EthPort → EthPort) : (modPort s i f).time = s.time := rfl
@[simp] theorem modPort_ledger (s : State) (i : Nat) (f : EthPort → EthPort) : (modPort s i f).ledger = s.ledger := rfl
@[simp] theorem modPort_rings (s : State) (i : Nat) (f : EthPort → EthPort) : (modPort s i f).rings = s.rings := rfl
@[simp] theorem modPort_slices (s : State) (i : Nat) (f : EthPort → EthPort) : (modPort s i f).slices = s.slices := rfl
@[simp] theorem modPort_store (s : State) (i : Nat) (f : EthPort → EthPort) : (modPort s i f).store = s.store := rfl
@[simp] theorem modPort_sluice (s : State) (i : Nat) (f : EthPort → EthPort) : (modPort s i f).sluice = s.sluice := rfl
@[simp] theorem modPort_comp (s : State) (i : Nat) (f : EthPort → EthPort) : (modPort s i f).comp = s.comp := rfl
@[simp] theorem modPort_scan (s : State) (i : Nat) (f : EthPort → EthPort) : (modPort s i f).scan = s.scan := rfl
@[simp] theorem modPort_bank (s : State) (i : Nat) (f : EthPort → EthPort) : (modPort s i f).bank = s.bank := rfl
@[simp] theorem modPort_head (s : State) (i : Nat) (f : EthPort → EthPort) : (modPort s i f).head = s.head := rfl
@[simp] theorem modPort_ptp (s : State) (i : Nat) (f : EthPort → EthPort) : (modPort s i f).ptp = s.ptp := rfl
@[simp] theorem modPort_fabric (s : State) (i : Nat) (f : EthPort → EthPort) : (modPort s i f).fabric = s.fabric := rfl
@[simp] theorem modPort_lane (s : State) (i : Nat) (f : EthPort → EthPort) : (modPort s i f).lane = s.lane := rfl
@[simp] theorem modPort_io (s : State) (i : Nat) (f : EthPort → EthPort) : (modPort s i f).io = s.io := rfl
@[simp] theorem modPort_boot (s : State) (i : Nat) (f : EthPort → EthPort) : (modPort s i f).boot = s.boot := rfl
@[simp] theorem modPort_regs (s : State) (i : Nat) (f : EthPort → EthPort) : (modPort s i f).regs = s.regs := rfl
@[simp] theorem modPort_smb (s : State) (i : Nat) (f : EthPort → EthPort) : (modPort s i f).smb = s.smb := rfl
@[simp] theorem modPort_power (s : State) (i : Nat) (f : EthPort → EthPort) : (modPort s i f).power = s.power := rfl
@[simp] theorem modPort_weir (s : State) (i : Nat) (f : EthPort → EthPort) : (modPort s i f).weir = s.weir := rfl
@[simp] theorem modPort_gauge (s : State) (i : Nat) (f : EthPort → EthPort) : (modPort s i f).gauge = s.gauge := rfl
@[simp] theorem modPort_migr (s : State) (i : Nat) (f : EthPort → EthPort) : (modPort s i f).migr = s.migr := rfl
@[simp] theorem modPort_out (s : State) (i : Nat) (f : EthPort → EthPort) : (modPort s i f).out = s.out := rfl
@[simp] theorem modPort_free (s : State) (i : Nat) (f : EthPort → EthPort) : (modPort s i f).free = s.free := rfl
@[simp] theorem modPort_pending (s : State) (i : Nat) (f : EthPort → EthPort) : (modPort s i f).pending = s.pending := rfl
@[simp] theorem modPort_intakeLast (s : State) (i : Nat) (f : EthPort → EthPort) : (modPort s i f).intakeLast = s.intakeLast := rfl

@[simp] theorem modQueue_time (s : State) (i : Nat) (f : HostQueue → HostQueue) : (modQueue s i f).time = s.time := rfl
@[simp] theorem modQueue_ledger (s : State) (i : Nat) (f : HostQueue → HostQueue) : (modQueue s i f).ledger = s.ledger := rfl
@[simp] theorem modQueue_rings (s : State) (i : Nat) (f : HostQueue → HostQueue) : (modQueue s i f).rings = s.rings := rfl
@[simp] theorem modQueue_slices (s : State) (i : Nat) (f : HostQueue → HostQueue) : (modQueue s i f).slices = s.slices := rfl
@[simp] theorem modQueue_store (s : State) (i : Nat) (f : HostQueue → HostQueue) : (modQueue s i f).store = s.store := rfl
@[simp] theorem modQueue_sluice (s : State) (i : Nat) (f : HostQueue → HostQueue) : (modQueue s i f).sluice = s.sluice := rfl
@[simp] theorem modQueue_comp (s : State) (i : Nat) (f : HostQueue → HostQueue) : (modQueue s i f).comp = s.comp := rfl
@[simp] theorem modQueue_scan (s : State) (i : Nat) (f : HostQueue → HostQueue) : (modQueue s i f).scan = s.scan := rfl
@[simp] theorem modQueue_bank (s : State) (i : Nat) (f : HostQueue → HostQueue) : (modQueue s i f).bank = s.bank := rfl
@[simp] theorem modQueue_head (s : State) (i : Nat) (f : HostQueue → HostQueue) : (modQueue s i f).head = s.head := rfl
@[simp] theorem modQueue_ptp (s : State) (i : Nat) (f : HostQueue → HostQueue) : (modQueue s i f).ptp = s.ptp := rfl
@[simp] theorem modQueue_fabric (s : State) (i : Nat) (f : HostQueue → HostQueue) : (modQueue s i f).fabric = s.fabric := rfl
@[simp] theorem modQueue_lane (s : State) (i : Nat) (f : HostQueue → HostQueue) : (modQueue s i f).lane = s.lane := rfl
@[simp] theorem modQueue_io (s : State) (i : Nat) (f : HostQueue → HostQueue) : (modQueue s i f).io = s.io := rfl
@[simp] theorem modQueue_boot (s : State) (i : Nat) (f : HostQueue → HostQueue) : (modQueue s i f).boot = s.boot := rfl
@[simp] theorem modQueue_regs (s : State) (i : Nat) (f : HostQueue → HostQueue) : (modQueue s i f).regs = s.regs := rfl
@[simp] theorem modQueue_smb (s : State) (i : Nat) (f : HostQueue → HostQueue) : (modQueue s i f).smb = s.smb := rfl
@[simp] theorem modQueue_power (s : State) (i : Nat) (f : HostQueue → HostQueue) : (modQueue s i f).power = s.power := rfl
@[simp] theorem modQueue_weir (s : State) (i : Nat) (f : HostQueue → HostQueue) : (modQueue s i f).weir = s.weir := rfl
@[simp] theorem modQueue_gauge (s : State) (i : Nat) (f : HostQueue → HostQueue) : (modQueue s i f).gauge = s.gauge := rfl
@[simp] theorem modQueue_migr (s : State) (i : Nat) (f : HostQueue → HostQueue) : (modQueue s i f).migr = s.migr := rfl
@[simp] theorem modQueue_out (s : State) (i : Nat) (f : HostQueue → HostQueue) : (modQueue s i f).out = s.out := rfl
@[simp] theorem modQueue_free (s : State) (i : Nat) (f : HostQueue → HostQueue) : (modQueue s i f).free = s.free := rfl
@[simp] theorem modQueue_pending (s : State) (i : Nat) (f : HostQueue → HostQueue) : (modQueue s i f).pending = s.pending := rfl
@[simp] theorem modQueue_intakeLast (s : State) (i : Nat) (f : HostQueue → HostQueue) : (modQueue s i f).intakeLast = s.intakeLast := rfl

@[simp] theorem modRule_time (s : State) (i : Nat) (f : FlowRule → FlowRule) : (modRule s i f).time = s.time := rfl
@[simp] theorem modRule_ledger (s : State) (i : Nat) (f : FlowRule → FlowRule) : (modRule s i f).ledger = s.ledger := rfl
@[simp] theorem modRule_rings (s : State) (i : Nat) (f : FlowRule → FlowRule) : (modRule s i f).rings = s.rings := rfl
@[simp] theorem modRule_slices (s : State) (i : Nat) (f : FlowRule → FlowRule) : (modRule s i f).slices = s.slices := rfl
@[simp] theorem modRule_store (s : State) (i : Nat) (f : FlowRule → FlowRule) : (modRule s i f).store = s.store := rfl
@[simp] theorem modRule_sluice (s : State) (i : Nat) (f : FlowRule → FlowRule) : (modRule s i f).sluice = s.sluice := rfl
@[simp] theorem modRule_comp (s : State) (i : Nat) (f : FlowRule → FlowRule) : (modRule s i f).comp = s.comp := rfl
@[simp] theorem modRule_scan (s : State) (i : Nat) (f : FlowRule → FlowRule) : (modRule s i f).scan = s.scan := rfl
@[simp] theorem modRule_bank (s : State) (i : Nat) (f : FlowRule → FlowRule) : (modRule s i f).bank = s.bank := rfl
@[simp] theorem modRule_head (s : State) (i : Nat) (f : FlowRule → FlowRule) : (modRule s i f).head = s.head := rfl
@[simp] theorem modRule_ptp (s : State) (i : Nat) (f : FlowRule → FlowRule) : (modRule s i f).ptp = s.ptp := rfl
@[simp] theorem modRule_fabric (s : State) (i : Nat) (f : FlowRule → FlowRule) : (modRule s i f).fabric = s.fabric := rfl
@[simp] theorem modRule_lane (s : State) (i : Nat) (f : FlowRule → FlowRule) : (modRule s i f).lane = s.lane := rfl
@[simp] theorem modRule_io (s : State) (i : Nat) (f : FlowRule → FlowRule) : (modRule s i f).io = s.io := rfl
@[simp] theorem modRule_boot (s : State) (i : Nat) (f : FlowRule → FlowRule) : (modRule s i f).boot = s.boot := rfl
@[simp] theorem modRule_regs (s : State) (i : Nat) (f : FlowRule → FlowRule) : (modRule s i f).regs = s.regs := rfl
@[simp] theorem modRule_smb (s : State) (i : Nat) (f : FlowRule → FlowRule) : (modRule s i f).smb = s.smb := rfl
@[simp] theorem modRule_power (s : State) (i : Nat) (f : FlowRule → FlowRule) : (modRule s i f).power = s.power := rfl
@[simp] theorem modRule_weir (s : State) (i : Nat) (f : FlowRule → FlowRule) : (modRule s i f).weir = s.weir := rfl
@[simp] theorem modRule_gauge (s : State) (i : Nat) (f : FlowRule → FlowRule) : (modRule s i f).gauge = s.gauge := rfl
@[simp] theorem modRule_migr (s : State) (i : Nat) (f : FlowRule → FlowRule) : (modRule s i f).migr = s.migr := rfl
@[simp] theorem modRule_out (s : State) (i : Nat) (f : FlowRule → FlowRule) : (modRule s i f).out = s.out := rfl
@[simp] theorem modRule_free (s : State) (i : Nat) (f : FlowRule → FlowRule) : (modRule s i f).free = s.free := rfl
@[simp] theorem modRule_pending (s : State) (i : Nat) (f : FlowRule → FlowRule) : (modRule s i f).pending = s.pending := rfl
@[simp] theorem modRule_intakeLast (s : State) (i : Nat) (f : FlowRule → FlowRule) : (modRule s i f).intakeLast = s.intakeLast := rfl

@[simp] theorem modStream_time (s : State) (i : Nat) (f : RtpStream → RtpStream) : (modStream s i f).time = s.time := rfl
@[simp] theorem modStream_ledger (s : State) (i : Nat) (f : RtpStream → RtpStream) : (modStream s i f).ledger = s.ledger := rfl
@[simp] theorem modStream_rings (s : State) (i : Nat) (f : RtpStream → RtpStream) : (modStream s i f).rings = s.rings := rfl
@[simp] theorem modStream_slices (s : State) (i : Nat) (f : RtpStream → RtpStream) : (modStream s i f).slices = s.slices := rfl
@[simp] theorem modStream_store (s : State) (i : Nat) (f : RtpStream → RtpStream) : (modStream s i f).store = s.store := rfl
@[simp] theorem modStream_sluice (s : State) (i : Nat) (f : RtpStream → RtpStream) : (modStream s i f).sluice = s.sluice := rfl
@[simp] theorem modStream_comp (s : State) (i : Nat) (f : RtpStream → RtpStream) : (modStream s i f).comp = s.comp := rfl
@[simp] theorem modStream_scan (s : State) (i : Nat) (f : RtpStream → RtpStream) : (modStream s i f).scan = s.scan := rfl
@[simp] theorem modStream_bank (s : State) (i : Nat) (f : RtpStream → RtpStream) : (modStream s i f).bank = s.bank := rfl
@[simp] theorem modStream_head (s : State) (i : Nat) (f : RtpStream → RtpStream) : (modStream s i f).head = s.head := rfl
@[simp] theorem modStream_ptp (s : State) (i : Nat) (f : RtpStream → RtpStream) : (modStream s i f).ptp = s.ptp := rfl
@[simp] theorem modStream_fabric (s : State) (i : Nat) (f : RtpStream → RtpStream) : (modStream s i f).fabric = s.fabric := rfl
@[simp] theorem modStream_lane (s : State) (i : Nat) (f : RtpStream → RtpStream) : (modStream s i f).lane = s.lane := rfl
@[simp] theorem modStream_io (s : State) (i : Nat) (f : RtpStream → RtpStream) : (modStream s i f).io = s.io := rfl
@[simp] theorem modStream_boot (s : State) (i : Nat) (f : RtpStream → RtpStream) : (modStream s i f).boot = s.boot := rfl
@[simp] theorem modStream_regs (s : State) (i : Nat) (f : RtpStream → RtpStream) : (modStream s i f).regs = s.regs := rfl
@[simp] theorem modStream_smb (s : State) (i : Nat) (f : RtpStream → RtpStream) : (modStream s i f).smb = s.smb := rfl
@[simp] theorem modStream_power (s : State) (i : Nat) (f : RtpStream → RtpStream) : (modStream s i f).power = s.power := rfl
@[simp] theorem modStream_weir (s : State) (i : Nat) (f : RtpStream → RtpStream) : (modStream s i f).weir = s.weir := rfl
@[simp] theorem modStream_gauge (s : State) (i : Nat) (f : RtpStream → RtpStream) : (modStream s i f).gauge = s.gauge := rfl
@[simp] theorem modStream_migr (s : State) (i : Nat) (f : RtpStream → RtpStream) : (modStream s i f).migr = s.migr := rfl
@[simp] theorem modStream_out (s : State) (i : Nat) (f : RtpStream → RtpStream) : (modStream s i f).out = s.out := rfl
@[simp] theorem modStream_free (s : State) (i : Nat) (f : RtpStream → RtpStream) : (modStream s i f).free = s.free := rfl
@[simp] theorem modStream_pending (s : State) (i : Nat) (f : RtpStream → RtpStream) : (modStream s i f).pending = s.pending := rfl
@[simp] theorem modStream_intakeLast (s : State) (i : Nat) (f : RtpStream → RtpStream) : (modStream s i f).intakeLast = s.intakeLast := rfl

@[simp] theorem modKey_time (s : State) (n : Nat) (f : KeyObj → KeyObj) : (modKey s n f).time = s.time := rfl
@[simp] theorem modKey_ledger (s : State) (n : Nat) (f : KeyObj → KeyObj) : (modKey s n f).ledger = s.ledger := rfl
@[simp] theorem modKey_rings (s : State) (n : Nat) (f : KeyObj → KeyObj) : (modKey s n f).rings = s.rings := rfl
@[simp] theorem modKey_slices (s : State) (n : Nat) (f : KeyObj → KeyObj) : (modKey s n f).slices = s.slices := rfl
@[simp] theorem modKey_store (s : State) (n : Nat) (f : KeyObj → KeyObj) : (modKey s n f).store = s.store := rfl
@[simp] theorem modKey_sluice (s : State) (n : Nat) (f : KeyObj → KeyObj) : (modKey s n f).sluice = s.sluice := rfl
@[simp] theorem modKey_comp (s : State) (n : Nat) (f : KeyObj → KeyObj) : (modKey s n f).comp = s.comp := rfl
@[simp] theorem modKey_scan (s : State) (n : Nat) (f : KeyObj → KeyObj) : (modKey s n f).scan = s.scan := rfl
@[simp] theorem modKey_bank (s : State) (n : Nat) (f : KeyObj → KeyObj) : (modKey s n f).bank = s.bank := rfl
@[simp] theorem modKey_media (s : State) (n : Nat) (f : KeyObj → KeyObj) : (modKey s n f).media = s.media := rfl
@[simp] theorem modKey_head (s : State) (n : Nat) (f : KeyObj → KeyObj) : (modKey s n f).head = s.head := rfl
@[simp] theorem modKey_ptp (s : State) (n : Nat) (f : KeyObj → KeyObj) : (modKey s n f).ptp = s.ptp := rfl
@[simp] theorem modKey_fabric (s : State) (n : Nat) (f : KeyObj → KeyObj) : (modKey s n f).fabric = s.fabric := rfl
@[simp] theorem modKey_lane (s : State) (n : Nat) (f : KeyObj → KeyObj) : (modKey s n f).lane = s.lane := rfl
@[simp] theorem modKey_boot (s : State) (n : Nat) (f : KeyObj → KeyObj) : (modKey s n f).boot = s.boot := rfl
@[simp] theorem modKey_regs (s : State) (n : Nat) (f : KeyObj → KeyObj) : (modKey s n f).regs = s.regs := rfl
@[simp] theorem modKey_smb (s : State) (n : Nat) (f : KeyObj → KeyObj) : (modKey s n f).smb = s.smb := rfl
@[simp] theorem modKey_power (s : State) (n : Nat) (f : KeyObj → KeyObj) : (modKey s n f).power = s.power := rfl
@[simp] theorem modKey_weir (s : State) (n : Nat) (f : KeyObj → KeyObj) : (modKey s n f).weir = s.weir := rfl
@[simp] theorem modKey_gauge (s : State) (n : Nat) (f : KeyObj → KeyObj) : (modKey s n f).gauge = s.gauge := rfl
@[simp] theorem modKey_migr (s : State) (n : Nat) (f : KeyObj → KeyObj) : (modKey s n f).migr = s.migr := rfl
@[simp] theorem modKey_out (s : State) (n : Nat) (f : KeyObj → KeyObj) : (modKey s n f).out = s.out := rfl
@[simp] theorem modKey_free (s : State) (n : Nat) (f : KeyObj → KeyObj) : (modKey s n f).free = s.free := rfl
@[simp] theorem modKey_pending (s : State) (n : Nat) (f : KeyObj → KeyObj) : (modKey s n f).pending = s.pending := rfl
@[simp] theorem modKey_intakeLast (s : State) (n : Nat) (f : KeyObj → KeyObj) : (modKey s n f).intakeLast = s.intakeLast := rfl

@[simp] theorem modKeys_time (s : State) (f : KeysSt → KeysSt) : (modKeys s f).time = s.time := rfl
@[simp] theorem modKeys_ledger (s : State) (f : KeysSt → KeysSt) : (modKeys s f).ledger = s.ledger := rfl
@[simp] theorem modKeys_rings (s : State) (f : KeysSt → KeysSt) : (modKeys s f).rings = s.rings := rfl
@[simp] theorem modKeys_slices (s : State) (f : KeysSt → KeysSt) : (modKeys s f).slices = s.slices := rfl
@[simp] theorem modKeys_store (s : State) (f : KeysSt → KeysSt) : (modKeys s f).store = s.store := rfl
@[simp] theorem modKeys_sluice (s : State) (f : KeysSt → KeysSt) : (modKeys s f).sluice = s.sluice := rfl
@[simp] theorem modKeys_comp (s : State) (f : KeysSt → KeysSt) : (modKeys s f).comp = s.comp := rfl
@[simp] theorem modKeys_scan (s : State) (f : KeysSt → KeysSt) : (modKeys s f).scan = s.scan := rfl
@[simp] theorem modKeys_bank (s : State) (f : KeysSt → KeysSt) : (modKeys s f).bank = s.bank := rfl
@[simp] theorem modKeys_media (s : State) (f : KeysSt → KeysSt) : (modKeys s f).media = s.media := rfl
@[simp] theorem modKeys_head (s : State) (f : KeysSt → KeysSt) : (modKeys s f).head = s.head := rfl
@[simp] theorem modKeys_ptp (s : State) (f : KeysSt → KeysSt) : (modKeys s f).ptp = s.ptp := rfl
@[simp] theorem modKeys_fabric (s : State) (f : KeysSt → KeysSt) : (modKeys s f).fabric = s.fabric := rfl
@[simp] theorem modKeys_lane (s : State) (f : KeysSt → KeysSt) : (modKeys s f).lane = s.lane := rfl
@[simp] theorem modKeys_boot (s : State) (f : KeysSt → KeysSt) : (modKeys s f).boot = s.boot := rfl
@[simp] theorem modKeys_regs (s : State) (f : KeysSt → KeysSt) : (modKeys s f).regs = s.regs := rfl
@[simp] theorem modKeys_smb (s : State) (f : KeysSt → KeysSt) : (modKeys s f).smb = s.smb := rfl
@[simp] theorem modKeys_power (s : State) (f : KeysSt → KeysSt) : (modKeys s f).power = s.power := rfl
@[simp] theorem modKeys_weir (s : State) (f : KeysSt → KeysSt) : (modKeys s f).weir = s.weir := rfl
@[simp] theorem modKeys_gauge (s : State) (f : KeysSt → KeysSt) : (modKeys s f).gauge = s.gauge := rfl
@[simp] theorem modKeys_migr (s : State) (f : KeysSt → KeysSt) : (modKeys s f).migr = s.migr := rfl
@[simp] theorem modKeys_out (s : State) (f : KeysSt → KeysSt) : (modKeys s f).out = s.out := rfl
@[simp] theorem modKeys_free (s : State) (f : KeysSt → KeysSt) : (modKeys s f).free = s.free := rfl
@[simp] theorem modKeys_pending (s : State) (f : KeysSt → KeysSt) : (modKeys s f).pending = s.pending := rfl
@[simp] theorem modKeys_intakeLast (s : State) (f : KeysSt → KeysSt) : (modKeys s f).intakeLast = s.intakeLast := rfl

@[simp] theorem modCur_time (s : State) (i : Nat) (f : ImpPass → ImpPass) : (modCur s i f).time = s.time := rfl
@[simp] theorem modCur_ledger (s : State) (i : Nat) (f : ImpPass → ImpPass) : (modCur s i f).ledger = s.ledger := rfl
@[simp] theorem modCur_rings (s : State) (i : Nat) (f : ImpPass → ImpPass) : (modCur s i f).rings = s.rings := rfl
@[simp] theorem modCur_slices (s : State) (i : Nat) (f : ImpPass → ImpPass) : (modCur s i f).slices = s.slices := rfl
@[simp] theorem modCur_store (s : State) (i : Nat) (f : ImpPass → ImpPass) : (modCur s i f).store = s.store := rfl
@[simp] theorem modCur_sluice (s : State) (i : Nat) (f : ImpPass → ImpPass) : (modCur s i f).sluice = s.sluice := rfl
@[simp] theorem modCur_comp (s : State) (i : Nat) (f : ImpPass → ImpPass) : (modCur s i f).comp = s.comp := rfl
@[simp] theorem modCur_scan (s : State) (i : Nat) (f : ImpPass → ImpPass) : (modCur s i f).scan = s.scan := rfl
@[simp] theorem modCur_bank (s : State) (i : Nat) (f : ImpPass → ImpPass) : (modCur s i f).bank = s.bank := rfl
@[simp] theorem modCur_media (s : State) (i : Nat) (f : ImpPass → ImpPass) : (modCur s i f).media = s.media := rfl
@[simp] theorem modCur_head (s : State) (i : Nat) (f : ImpPass → ImpPass) : (modCur s i f).head = s.head := rfl
@[simp] theorem modCur_ptp (s : State) (i : Nat) (f : ImpPass → ImpPass) : (modCur s i f).ptp = s.ptp := rfl
@[simp] theorem modCur_lane (s : State) (i : Nat) (f : ImpPass → ImpPass) : (modCur s i f).lane = s.lane := rfl
@[simp] theorem modCur_io (s : State) (i : Nat) (f : ImpPass → ImpPass) : (modCur s i f).io = s.io := rfl
@[simp] theorem modCur_boot (s : State) (i : Nat) (f : ImpPass → ImpPass) : (modCur s i f).boot = s.boot := rfl
@[simp] theorem modCur_regs (s : State) (i : Nat) (f : ImpPass → ImpPass) : (modCur s i f).regs = s.regs := rfl
@[simp] theorem modCur_smb (s : State) (i : Nat) (f : ImpPass → ImpPass) : (modCur s i f).smb = s.smb := rfl
@[simp] theorem modCur_power (s : State) (i : Nat) (f : ImpPass → ImpPass) : (modCur s i f).power = s.power := rfl
@[simp] theorem modCur_weir (s : State) (i : Nat) (f : ImpPass → ImpPass) : (modCur s i f).weir = s.weir := rfl
@[simp] theorem modCur_gauge (s : State) (i : Nat) (f : ImpPass → ImpPass) : (modCur s i f).gauge = s.gauge := rfl
@[simp] theorem modCur_migr (s : State) (i : Nat) (f : ImpPass → ImpPass) : (modCur s i f).migr = s.migr := rfl
@[simp] theorem modCur_out (s : State) (i : Nat) (f : ImpPass → ImpPass) : (modCur s i f).out = s.out := rfl
@[simp] theorem modCur_free (s : State) (i : Nat) (f : ImpPass → ImpPass) : (modCur s i f).free = s.free := rfl
@[simp] theorem modCur_pending (s : State) (i : Nat) (f : ImpPass → ImpPass) : (modCur s i f).pending = s.pending := rfl
@[simp] theorem modCur_intakeLast (s : State) (i : Nat) (f : ImpPass → ImpPass) : (modCur s i f).intakeLast = s.intakeLast := rfl

@[simp] theorem modImport_time (s : State) (i : Nat) (f : Import → Import) : (modImport s i f).time = s.time := rfl
@[simp] theorem modImport_ledger (s : State) (i : Nat) (f : Import → Import) : (modImport s i f).ledger = s.ledger := rfl
@[simp] theorem modImport_rings (s : State) (i : Nat) (f : Import → Import) : (modImport s i f).rings = s.rings := rfl
@[simp] theorem modImport_slices (s : State) (i : Nat) (f : Import → Import) : (modImport s i f).slices = s.slices := rfl
@[simp] theorem modImport_store (s : State) (i : Nat) (f : Import → Import) : (modImport s i f).store = s.store := rfl
@[simp] theorem modImport_sluice (s : State) (i : Nat) (f : Import → Import) : (modImport s i f).sluice = s.sluice := rfl
@[simp] theorem modImport_comp (s : State) (i : Nat) (f : Import → Import) : (modImport s i f).comp = s.comp := rfl
@[simp] theorem modImport_scan (s : State) (i : Nat) (f : Import → Import) : (modImport s i f).scan = s.scan := rfl
@[simp] theorem modImport_bank (s : State) (i : Nat) (f : Import → Import) : (modImport s i f).bank = s.bank := rfl
@[simp] theorem modImport_media (s : State) (i : Nat) (f : Import → Import) : (modImport s i f).media = s.media := rfl
@[simp] theorem modImport_head (s : State) (i : Nat) (f : Import → Import) : (modImport s i f).head = s.head := rfl
@[simp] theorem modImport_ptp (s : State) (i : Nat) (f : Import → Import) : (modImport s i f).ptp = s.ptp := rfl
@[simp] theorem modImport_lane (s : State) (i : Nat) (f : Import → Import) : (modImport s i f).lane = s.lane := rfl
@[simp] theorem modImport_io (s : State) (i : Nat) (f : Import → Import) : (modImport s i f).io = s.io := rfl
@[simp] theorem modImport_boot (s : State) (i : Nat) (f : Import → Import) : (modImport s i f).boot = s.boot := rfl
@[simp] theorem modImport_regs (s : State) (i : Nat) (f : Import → Import) : (modImport s i f).regs = s.regs := rfl
@[simp] theorem modImport_smb (s : State) (i : Nat) (f : Import → Import) : (modImport s i f).smb = s.smb := rfl
@[simp] theorem modImport_power (s : State) (i : Nat) (f : Import → Import) : (modImport s i f).power = s.power := rfl
@[simp] theorem modImport_weir (s : State) (i : Nat) (f : Import → Import) : (modImport s i f).weir = s.weir := rfl
@[simp] theorem modImport_gauge (s : State) (i : Nat) (f : Import → Import) : (modImport s i f).gauge = s.gauge := rfl
@[simp] theorem modImport_migr (s : State) (i : Nat) (f : Import → Import) : (modImport s i f).migr = s.migr := rfl
@[simp] theorem modImport_out (s : State) (i : Nat) (f : Import → Import) : (modImport s i f).out = s.out := rfl
@[simp] theorem modImport_free (s : State) (i : Nat) (f : Import → Import) : (modImport s i f).free = s.free := rfl
@[simp] theorem modImport_pending (s : State) (i : Nat) (f : Import → Import) : (modImport s i f).pending = s.pending := rfl
@[simp] theorem modImport_intakeLast (s : State) (i : Nat) (f : Import → Import) : (modImport s i f).intakeLast = s.intakeLast := rfl

@[simp] theorem modPass_time (s : State) (i surf : Nat) (f : ImpPass → ImpPass) : (modPass s i surf f).time = s.time := rfl
@[simp] theorem modPass_ledger (s : State) (i surf : Nat) (f : ImpPass → ImpPass) : (modPass s i surf f).ledger = s.ledger := rfl
@[simp] theorem modPass_rings (s : State) (i surf : Nat) (f : ImpPass → ImpPass) : (modPass s i surf f).rings = s.rings := rfl
@[simp] theorem modPass_slices (s : State) (i surf : Nat) (f : ImpPass → ImpPass) : (modPass s i surf f).slices = s.slices := rfl
@[simp] theorem modPass_store (s : State) (i surf : Nat) (f : ImpPass → ImpPass) : (modPass s i surf f).store = s.store := rfl
@[simp] theorem modPass_sluice (s : State) (i surf : Nat) (f : ImpPass → ImpPass) : (modPass s i surf f).sluice = s.sluice := rfl
@[simp] theorem modPass_comp (s : State) (i surf : Nat) (f : ImpPass → ImpPass) : (modPass s i surf f).comp = s.comp := rfl
@[simp] theorem modPass_scan (s : State) (i surf : Nat) (f : ImpPass → ImpPass) : (modPass s i surf f).scan = s.scan := rfl
@[simp] theorem modPass_bank (s : State) (i surf : Nat) (f : ImpPass → ImpPass) : (modPass s i surf f).bank = s.bank := rfl
@[simp] theorem modPass_media (s : State) (i surf : Nat) (f : ImpPass → ImpPass) : (modPass s i surf f).media = s.media := rfl
@[simp] theorem modPass_head (s : State) (i surf : Nat) (f : ImpPass → ImpPass) : (modPass s i surf f).head = s.head := rfl
@[simp] theorem modPass_ptp (s : State) (i surf : Nat) (f : ImpPass → ImpPass) : (modPass s i surf f).ptp = s.ptp := rfl
@[simp] theorem modPass_lane (s : State) (i surf : Nat) (f : ImpPass → ImpPass) : (modPass s i surf f).lane = s.lane := rfl
@[simp] theorem modPass_io (s : State) (i surf : Nat) (f : ImpPass → ImpPass) : (modPass s i surf f).io = s.io := rfl
@[simp] theorem modPass_boot (s : State) (i surf : Nat) (f : ImpPass → ImpPass) : (modPass s i surf f).boot = s.boot := rfl
@[simp] theorem modPass_regs (s : State) (i surf : Nat) (f : ImpPass → ImpPass) : (modPass s i surf f).regs = s.regs := rfl
@[simp] theorem modPass_smb (s : State) (i surf : Nat) (f : ImpPass → ImpPass) : (modPass s i surf f).smb = s.smb := rfl
@[simp] theorem modPass_power (s : State) (i surf : Nat) (f : ImpPass → ImpPass) : (modPass s i surf f).power = s.power := rfl
@[simp] theorem modPass_weir (s : State) (i surf : Nat) (f : ImpPass → ImpPass) : (modPass s i surf f).weir = s.weir := rfl
@[simp] theorem modPass_gauge (s : State) (i surf : Nat) (f : ImpPass → ImpPass) : (modPass s i surf f).gauge = s.gauge := rfl
@[simp] theorem modPass_migr (s : State) (i surf : Nat) (f : ImpPass → ImpPass) : (modPass s i surf f).migr = s.migr := rfl
@[simp] theorem modPass_out (s : State) (i surf : Nat) (f : ImpPass → ImpPass) : (modPass s i surf f).out = s.out := rfl
@[simp] theorem modPass_free (s : State) (i surf : Nat) (f : ImpPass → ImpPass) : (modPass s i surf f).free = s.free := rfl
@[simp] theorem modPass_pending (s : State) (i surf : Nat) (f : ImpPass → ImpPass) : (modPass s i surf f).pending = s.pending := rfl
@[simp] theorem modPass_intakeLast (s : State) (i surf : Nat) (f : ImpPass → ImpPass) : (modPass s i surf f).intakeLast = s.intakeLast := rfl

@[simp] theorem modTransit_time (s : State) (k : Nat) (f : Transit → Transit) : (modTransit s k f).time = s.time := rfl
@[simp] theorem modTransit_ledger (s : State) (k : Nat) (f : Transit → Transit) : (modTransit s k f).ledger = s.ledger := rfl
@[simp] theorem modTransit_rings (s : State) (k : Nat) (f : Transit → Transit) : (modTransit s k f).rings = s.rings := rfl
@[simp] theorem modTransit_slices (s : State) (k : Nat) (f : Transit → Transit) : (modTransit s k f).slices = s.slices := rfl
@[simp] theorem modTransit_store (s : State) (k : Nat) (f : Transit → Transit) : (modTransit s k f).store = s.store := rfl
@[simp] theorem modTransit_sluice (s : State) (k : Nat) (f : Transit → Transit) : (modTransit s k f).sluice = s.sluice := rfl
@[simp] theorem modTransit_comp (s : State) (k : Nat) (f : Transit → Transit) : (modTransit s k f).comp = s.comp := rfl
@[simp] theorem modTransit_scan (s : State) (k : Nat) (f : Transit → Transit) : (modTransit s k f).scan = s.scan := rfl
@[simp] theorem modTransit_bank (s : State) (k : Nat) (f : Transit → Transit) : (modTransit s k f).bank = s.bank := rfl
@[simp] theorem modTransit_media (s : State) (k : Nat) (f : Transit → Transit) : (modTransit s k f).media = s.media := rfl
@[simp] theorem modTransit_head (s : State) (k : Nat) (f : Transit → Transit) : (modTransit s k f).head = s.head := rfl
@[simp] theorem modTransit_ptp (s : State) (k : Nat) (f : Transit → Transit) : (modTransit s k f).ptp = s.ptp := rfl
@[simp] theorem modTransit_lane (s : State) (k : Nat) (f : Transit → Transit) : (modTransit s k f).lane = s.lane := rfl
@[simp] theorem modTransit_io (s : State) (k : Nat) (f : Transit → Transit) : (modTransit s k f).io = s.io := rfl
@[simp] theorem modTransit_boot (s : State) (k : Nat) (f : Transit → Transit) : (modTransit s k f).boot = s.boot := rfl
@[simp] theorem modTransit_regs (s : State) (k : Nat) (f : Transit → Transit) : (modTransit s k f).regs = s.regs := rfl
@[simp] theorem modTransit_smb (s : State) (k : Nat) (f : Transit → Transit) : (modTransit s k f).smb = s.smb := rfl
@[simp] theorem modTransit_power (s : State) (k : Nat) (f : Transit → Transit) : (modTransit s k f).power = s.power := rfl
@[simp] theorem modTransit_weir (s : State) (k : Nat) (f : Transit → Transit) : (modTransit s k f).weir = s.weir := rfl
@[simp] theorem modTransit_gauge (s : State) (k : Nat) (f : Transit → Transit) : (modTransit s k f).gauge = s.gauge := rfl
@[simp] theorem modTransit_migr (s : State) (k : Nat) (f : Transit → Transit) : (modTransit s k f).migr = s.migr := rfl
@[simp] theorem modTransit_out (s : State) (k : Nat) (f : Transit → Transit) : (modTransit s k f).out = s.out := rfl
@[simp] theorem modTransit_free (s : State) (k : Nat) (f : Transit → Transit) : (modTransit s k f).free = s.free := rfl
@[simp] theorem modTransit_pending (s : State) (k : Nat) (f : Transit → Transit) : (modTransit s k f).pending = s.pending := rfl
@[simp] theorem modTransit_intakeLast (s : State) (k : Nat) (f : Transit → Transit) : (modTransit s k f).intakeLast = s.intakeLast := rfl

@[simp] theorem modClock_time (s : State) (p : Nat) (f : PtpClock → PtpClock) : (modClock s p f).time = s.time := rfl
@[simp] theorem modClock_ledger (s : State) (p : Nat) (f : PtpClock → PtpClock) : (modClock s p f).ledger = s.ledger := rfl
@[simp] theorem modClock_rings (s : State) (p : Nat) (f : PtpClock → PtpClock) : (modClock s p f).rings = s.rings := rfl
@[simp] theorem modClock_slices (s : State) (p : Nat) (f : PtpClock → PtpClock) : (modClock s p f).slices = s.slices := rfl
@[simp] theorem modClock_store (s : State) (p : Nat) (f : PtpClock → PtpClock) : (modClock s p f).store = s.store := rfl
@[simp] theorem modClock_sluice (s : State) (p : Nat) (f : PtpClock → PtpClock) : (modClock s p f).sluice = s.sluice := rfl
@[simp] theorem modClock_comp (s : State) (p : Nat) (f : PtpClock → PtpClock) : (modClock s p f).comp = s.comp := rfl
@[simp] theorem modClock_scan (s : State) (p : Nat) (f : PtpClock → PtpClock) : (modClock s p f).scan = s.scan := rfl
@[simp] theorem modClock_bank (s : State) (p : Nat) (f : PtpClock → PtpClock) : (modClock s p f).bank = s.bank := rfl
@[simp] theorem modClock_media (s : State) (p : Nat) (f : PtpClock → PtpClock) : (modClock s p f).media = s.media := rfl
@[simp] theorem modClock_head (s : State) (p : Nat) (f : PtpClock → PtpClock) : (modClock s p f).head = s.head := rfl
@[simp] theorem modClock_fabric (s : State) (p : Nat) (f : PtpClock → PtpClock) : (modClock s p f).fabric = s.fabric := rfl
@[simp] theorem modClock_lane (s : State) (p : Nat) (f : PtpClock → PtpClock) : (modClock s p f).lane = s.lane := rfl
@[simp] theorem modClock_io (s : State) (p : Nat) (f : PtpClock → PtpClock) : (modClock s p f).io = s.io := rfl
@[simp] theorem modClock_boot (s : State) (p : Nat) (f : PtpClock → PtpClock) : (modClock s p f).boot = s.boot := rfl
@[simp] theorem modClock_regs (s : State) (p : Nat) (f : PtpClock → PtpClock) : (modClock s p f).regs = s.regs := rfl
@[simp] theorem modClock_smb (s : State) (p : Nat) (f : PtpClock → PtpClock) : (modClock s p f).smb = s.smb := rfl
@[simp] theorem modClock_power (s : State) (p : Nat) (f : PtpClock → PtpClock) : (modClock s p f).power = s.power := rfl
@[simp] theorem modClock_weir (s : State) (p : Nat) (f : PtpClock → PtpClock) : (modClock s p f).weir = s.weir := rfl
@[simp] theorem modClock_gauge (s : State) (p : Nat) (f : PtpClock → PtpClock) : (modClock s p f).gauge = s.gauge := rfl
@[simp] theorem modClock_migr (s : State) (p : Nat) (f : PtpClock → PtpClock) : (modClock s p f).migr = s.migr := rfl
@[simp] theorem modClock_out (s : State) (p : Nat) (f : PtpClock → PtpClock) : (modClock s p f).out = s.out := rfl
@[simp] theorem modClock_free (s : State) (p : Nat) (f : PtpClock → PtpClock) : (modClock s p f).free = s.free := rfl
@[simp] theorem modClock_pending (s : State) (p : Nat) (f : PtpClock → PtpClock) : (modClock s p f).pending = s.pending := rfl
@[simp] theorem modClock_intakeLast (s : State) (p : Nat) (f : PtpClock → PtpClock) : (modClock s p f).intakeLast = s.intakeLast := rfl

@[simp] theorem modPtp_time (s : State) (p : Nat) (f : PtpPort → PtpPort) : (modPtp s p f).time = s.time := rfl
@[simp] theorem modPtp_ledger (s : State) (p : Nat) (f : PtpPort → PtpPort) : (modPtp s p f).ledger = s.ledger := rfl
@[simp] theorem modPtp_rings (s : State) (p : Nat) (f : PtpPort → PtpPort) : (modPtp s p f).rings = s.rings := rfl
@[simp] theorem modPtp_slices (s : State) (p : Nat) (f : PtpPort → PtpPort) : (modPtp s p f).slices = s.slices := rfl
@[simp] theorem modPtp_store (s : State) (p : Nat) (f : PtpPort → PtpPort) : (modPtp s p f).store = s.store := rfl
@[simp] theorem modPtp_sluice (s : State) (p : Nat) (f : PtpPort → PtpPort) : (modPtp s p f).sluice = s.sluice := rfl
@[simp] theorem modPtp_comp (s : State) (p : Nat) (f : PtpPort → PtpPort) : (modPtp s p f).comp = s.comp := rfl
@[simp] theorem modPtp_scan (s : State) (p : Nat) (f : PtpPort → PtpPort) : (modPtp s p f).scan = s.scan := rfl
@[simp] theorem modPtp_bank (s : State) (p : Nat) (f : PtpPort → PtpPort) : (modPtp s p f).bank = s.bank := rfl
@[simp] theorem modPtp_media (s : State) (p : Nat) (f : PtpPort → PtpPort) : (modPtp s p f).media = s.media := rfl
@[simp] theorem modPtp_head (s : State) (p : Nat) (f : PtpPort → PtpPort) : (modPtp s p f).head = s.head := rfl
@[simp] theorem modPtp_fabric (s : State) (p : Nat) (f : PtpPort → PtpPort) : (modPtp s p f).fabric = s.fabric := rfl
@[simp] theorem modPtp_lane (s : State) (p : Nat) (f : PtpPort → PtpPort) : (modPtp s p f).lane = s.lane := rfl
@[simp] theorem modPtp_io (s : State) (p : Nat) (f : PtpPort → PtpPort) : (modPtp s p f).io = s.io := rfl
@[simp] theorem modPtp_boot (s : State) (p : Nat) (f : PtpPort → PtpPort) : (modPtp s p f).boot = s.boot := rfl
@[simp] theorem modPtp_regs (s : State) (p : Nat) (f : PtpPort → PtpPort) : (modPtp s p f).regs = s.regs := rfl
@[simp] theorem modPtp_smb (s : State) (p : Nat) (f : PtpPort → PtpPort) : (modPtp s p f).smb = s.smb := rfl
@[simp] theorem modPtp_power (s : State) (p : Nat) (f : PtpPort → PtpPort) : (modPtp s p f).power = s.power := rfl
@[simp] theorem modPtp_weir (s : State) (p : Nat) (f : PtpPort → PtpPort) : (modPtp s p f).weir = s.weir := rfl
@[simp] theorem modPtp_gauge (s : State) (p : Nat) (f : PtpPort → PtpPort) : (modPtp s p f).gauge = s.gauge := rfl
@[simp] theorem modPtp_migr (s : State) (p : Nat) (f : PtpPort → PtpPort) : (modPtp s p f).migr = s.migr := rfl
@[simp] theorem modPtp_out (s : State) (p : Nat) (f : PtpPort → PtpPort) : (modPtp s p f).out = s.out := rfl
@[simp] theorem modPtp_free (s : State) (p : Nat) (f : PtpPort → PtpPort) : (modPtp s p f).free = s.free := rfl
@[simp] theorem modPtp_pending (s : State) (p : Nat) (f : PtpPort → PtpPort) : (modPtp s p f).pending = s.pending := rfl
@[simp] theorem modPtp_intakeLast (s : State) (p : Nat) (f : PtpPort → PtpPort) : (modPtp s p f).intakeLast = s.intakeLast := rfl

@[simp] theorem bump_time (s : State) (group entry counter n : Nat) : (bump s group entry counter n).time = s.time := rfl
@[simp] theorem bump_ledger (s : State) (group entry counter n : Nat) : (bump s group entry counter n).ledger = s.ledger := rfl
@[simp] theorem bump_rings (s : State) (group entry counter n : Nat) : (bump s group entry counter n).rings = s.rings := rfl
@[simp] theorem bump_slices (s : State) (group entry counter n : Nat) : (bump s group entry counter n).slices = s.slices := rfl
@[simp] theorem bump_store (s : State) (group entry counter n : Nat) : (bump s group entry counter n).store = s.store := rfl
@[simp] theorem bump_sluice (s : State) (group entry counter n : Nat) : (bump s group entry counter n).sluice = s.sluice := rfl
@[simp] theorem bump_comp (s : State) (group entry counter n : Nat) : (bump s group entry counter n).comp = s.comp := rfl
@[simp] theorem bump_scan (s : State) (group entry counter n : Nat) : (bump s group entry counter n).scan = s.scan := rfl
@[simp] theorem bump_bank (s : State) (group entry counter n : Nat) : (bump s group entry counter n).bank = s.bank := rfl
@[simp] theorem bump_media (s : State) (group entry counter n : Nat) : (bump s group entry counter n).media = s.media := rfl
@[simp] theorem bump_head (s : State) (group entry counter n : Nat) : (bump s group entry counter n).head = s.head := rfl
@[simp] theorem bump_ptp (s : State) (group entry counter n : Nat) : (bump s group entry counter n).ptp = s.ptp := rfl
@[simp] theorem bump_fabric (s : State) (group entry counter n : Nat) : (bump s group entry counter n).fabric = s.fabric := rfl
@[simp] theorem bump_lane (s : State) (group entry counter n : Nat) : (bump s group entry counter n).lane = s.lane := rfl
@[simp] theorem bump_io (s : State) (group entry counter n : Nat) : (bump s group entry counter n).io = s.io := rfl
@[simp] theorem bump_regs (s : State) (group entry counter n : Nat) : (bump s group entry counter n).regs = s.regs := rfl
@[simp] theorem bump_smb (s : State) (group entry counter n : Nat) : (bump s group entry counter n).smb = s.smb := rfl
@[simp] theorem bump_power (s : State) (group entry counter n : Nat) : (bump s group entry counter n).power = s.power := rfl
@[simp] theorem bump_weir (s : State) (group entry counter n : Nat) : (bump s group entry counter n).weir = s.weir := rfl
@[simp] theorem bump_gauge (s : State) (group entry counter n : Nat) : (bump s group entry counter n).gauge = s.gauge := rfl
@[simp] theorem bump_migr (s : State) (group entry counter n : Nat) : (bump s group entry counter n).migr = s.migr := rfl
@[simp] theorem bump_out (s : State) (group entry counter n : Nat) : (bump s group entry counter n).out = s.out := rfl
@[simp] theorem bump_free (s : State) (group entry counter n : Nat) : (bump s group entry counter n).free = s.free := rfl
@[simp] theorem bump_pending (s : State) (group entry counter n : Nat) : (bump s group entry counter n).pending = s.pending := rfl
@[simp] theorem bump_intakeLast (s : State) (group entry counter n : Nat) : (bump s group entry counter n).intakeLast = s.intakeLast := rfl

@[simp] theorem modBank_time (s : State) (i : Nat) (f : Bank → Bank) : (modBank s i f).time = s.time := rfl
@[simp] theorem modBank_ledger (s : State) (i : Nat) (f : Bank → Bank) : (modBank s i f).ledger = s.ledger := rfl
@[simp] theorem modBank_rings (s : State) (i : Nat) (f : Bank → Bank) : (modBank s i f).rings = s.rings := rfl
@[simp] theorem modBank_slices (s : State) (i : Nat) (f : Bank → Bank) : (modBank s i f).slices = s.slices := rfl
@[simp] theorem modBank_store (s : State) (i : Nat) (f : Bank → Bank) : (modBank s i f).store = s.store := rfl
@[simp] theorem modBank_sluice (s : State) (i : Nat) (f : Bank → Bank) : (modBank s i f).sluice = s.sluice := rfl
@[simp] theorem modBank_comp (s : State) (i : Nat) (f : Bank → Bank) : (modBank s i f).comp = s.comp := rfl
@[simp] theorem modBank_scan (s : State) (i : Nat) (f : Bank → Bank) : (modBank s i f).scan = s.scan := rfl
@[simp] theorem modBank_media (s : State) (i : Nat) (f : Bank → Bank) : (modBank s i f).media = s.media := rfl
@[simp] theorem modBank_head (s : State) (i : Nat) (f : Bank → Bank) : (modBank s i f).head = s.head := rfl
@[simp] theorem modBank_ptp (s : State) (i : Nat) (f : Bank → Bank) : (modBank s i f).ptp = s.ptp := rfl
@[simp] theorem modBank_fabric (s : State) (i : Nat) (f : Bank → Bank) : (modBank s i f).fabric = s.fabric := rfl
@[simp] theorem modBank_lane (s : State) (i : Nat) (f : Bank → Bank) : (modBank s i f).lane = s.lane := rfl
@[simp] theorem modBank_io (s : State) (i : Nat) (f : Bank → Bank) : (modBank s i f).io = s.io := rfl
@[simp] theorem modBank_boot (s : State) (i : Nat) (f : Bank → Bank) : (modBank s i f).boot = s.boot := rfl
@[simp] theorem modBank_regs (s : State) (i : Nat) (f : Bank → Bank) : (modBank s i f).regs = s.regs := rfl
@[simp] theorem modBank_smb (s : State) (i : Nat) (f : Bank → Bank) : (modBank s i f).smb = s.smb := rfl
@[simp] theorem modBank_power (s : State) (i : Nat) (f : Bank → Bank) : (modBank s i f).power = s.power := rfl
@[simp] theorem modBank_weir (s : State) (i : Nat) (f : Bank → Bank) : (modBank s i f).weir = s.weir := rfl
@[simp] theorem modBank_gauge (s : State) (i : Nat) (f : Bank → Bank) : (modBank s i f).gauge = s.gauge := rfl
@[simp] theorem modBank_migr (s : State) (i : Nat) (f : Bank → Bank) : (modBank s i f).migr = s.migr := rfl
@[simp] theorem modBank_out (s : State) (i : Nat) (f : Bank → Bank) : (modBank s i f).out = s.out := rfl
@[simp] theorem modBank_free (s : State) (i : Nat) (f : Bank → Bank) : (modBank s i f).free = s.free := rfl
@[simp] theorem modBank_pending (s : State) (i : Nat) (f : Bank → Bank) : (modBank s i f).pending = s.pending := rfl
@[simp] theorem modBank_intakeLast (s : State) (i : Nat) (f : Bank → Bank) : (modBank s i f).intakeLast = s.intakeLast := rfl

@[simp] theorem modCarry_time (s : State) (o : Nat) (f : Carry → Carry) : (modCarry s o f).time = s.time := rfl
@[simp] theorem modCarry_ledger (s : State) (o : Nat) (f : Carry → Carry) : (modCarry s o f).ledger = s.ledger := rfl
@[simp] theorem modCarry_rings (s : State) (o : Nat) (f : Carry → Carry) : (modCarry s o f).rings = s.rings := rfl
@[simp] theorem modCarry_slices (s : State) (o : Nat) (f : Carry → Carry) : (modCarry s o f).slices = s.slices := rfl
@[simp] theorem modCarry_store (s : State) (o : Nat) (f : Carry → Carry) : (modCarry s o f).store = s.store := rfl
@[simp] theorem modCarry_sluice (s : State) (o : Nat) (f : Carry → Carry) : (modCarry s o f).sluice = s.sluice := rfl
@[simp] theorem modCarry_comp (s : State) (o : Nat) (f : Carry → Carry) : (modCarry s o f).comp = s.comp := rfl
@[simp] theorem modCarry_scan (s : State) (o : Nat) (f : Carry → Carry) : (modCarry s o f).scan = s.scan := rfl
@[simp] theorem modCarry_media (s : State) (o : Nat) (f : Carry → Carry) : (modCarry s o f).media = s.media := rfl
@[simp] theorem modCarry_head (s : State) (o : Nat) (f : Carry → Carry) : (modCarry s o f).head = s.head := rfl
@[simp] theorem modCarry_ptp (s : State) (o : Nat) (f : Carry → Carry) : (modCarry s o f).ptp = s.ptp := rfl
@[simp] theorem modCarry_fabric (s : State) (o : Nat) (f : Carry → Carry) : (modCarry s o f).fabric = s.fabric := rfl
@[simp] theorem modCarry_lane (s : State) (o : Nat) (f : Carry → Carry) : (modCarry s o f).lane = s.lane := rfl
@[simp] theorem modCarry_io (s : State) (o : Nat) (f : Carry → Carry) : (modCarry s o f).io = s.io := rfl
@[simp] theorem modCarry_boot (s : State) (o : Nat) (f : Carry → Carry) : (modCarry s o f).boot = s.boot := rfl
@[simp] theorem modCarry_regs (s : State) (o : Nat) (f : Carry → Carry) : (modCarry s o f).regs = s.regs := rfl
@[simp] theorem modCarry_smb (s : State) (o : Nat) (f : Carry → Carry) : (modCarry s o f).smb = s.smb := rfl
@[simp] theorem modCarry_power (s : State) (o : Nat) (f : Carry → Carry) : (modCarry s o f).power = s.power := rfl
@[simp] theorem modCarry_weir (s : State) (o : Nat) (f : Carry → Carry) : (modCarry s o f).weir = s.weir := rfl
@[simp] theorem modCarry_gauge (s : State) (o : Nat) (f : Carry → Carry) : (modCarry s o f).gauge = s.gauge := rfl
@[simp] theorem modCarry_migr (s : State) (o : Nat) (f : Carry → Carry) : (modCarry s o f).migr = s.migr := rfl
@[simp] theorem modCarry_out (s : State) (o : Nat) (f : Carry → Carry) : (modCarry s o f).out = s.out := rfl
@[simp] theorem modCarry_free (s : State) (o : Nat) (f : Carry → Carry) : (modCarry s o f).free = s.free := rfl
@[simp] theorem modCarry_pending (s : State) (o : Nat) (f : Carry → Carry) : (modCarry s o f).pending = s.pending := rfl
@[simp] theorem modCarry_intakeLast (s : State) (o : Nat) (f : Carry → Carry) : (modCarry s o f).intakeLast = s.intakeLast := rfl

@[simp] theorem modEntry_time (s : State) (i : Nat) (f : LedgerEntry → LedgerEntry) : (modEntry s i f).time = s.time := rfl
@[simp] theorem modEntry_rings (s : State) (i : Nat) (f : LedgerEntry → LedgerEntry) : (modEntry s i f).rings = s.rings := rfl
@[simp] theorem modEntry_slices (s : State) (i : Nat) (f : LedgerEntry → LedgerEntry) : (modEntry s i f).slices = s.slices := rfl
@[simp] theorem modEntry_store (s : State) (i : Nat) (f : LedgerEntry → LedgerEntry) : (modEntry s i f).store = s.store := rfl
@[simp] theorem modEntry_sluice (s : State) (i : Nat) (f : LedgerEntry → LedgerEntry) : (modEntry s i f).sluice = s.sluice := rfl
@[simp] theorem modEntry_comp (s : State) (i : Nat) (f : LedgerEntry → LedgerEntry) : (modEntry s i f).comp = s.comp := rfl
@[simp] theorem modEntry_scan (s : State) (i : Nat) (f : LedgerEntry → LedgerEntry) : (modEntry s i f).scan = s.scan := rfl
@[simp] theorem modEntry_bank (s : State) (i : Nat) (f : LedgerEntry → LedgerEntry) : (modEntry s i f).bank = s.bank := rfl
@[simp] theorem modEntry_media (s : State) (i : Nat) (f : LedgerEntry → LedgerEntry) : (modEntry s i f).media = s.media := rfl
@[simp] theorem modEntry_head (s : State) (i : Nat) (f : LedgerEntry → LedgerEntry) : (modEntry s i f).head = s.head := rfl
@[simp] theorem modEntry_ptp (s : State) (i : Nat) (f : LedgerEntry → LedgerEntry) : (modEntry s i f).ptp = s.ptp := rfl
@[simp] theorem modEntry_fabric (s : State) (i : Nat) (f : LedgerEntry → LedgerEntry) : (modEntry s i f).fabric = s.fabric := rfl
@[simp] theorem modEntry_lane (s : State) (i : Nat) (f : LedgerEntry → LedgerEntry) : (modEntry s i f).lane = s.lane := rfl
@[simp] theorem modEntry_io (s : State) (i : Nat) (f : LedgerEntry → LedgerEntry) : (modEntry s i f).io = s.io := rfl
@[simp] theorem modEntry_boot (s : State) (i : Nat) (f : LedgerEntry → LedgerEntry) : (modEntry s i f).boot = s.boot := rfl
@[simp] theorem modEntry_regs (s : State) (i : Nat) (f : LedgerEntry → LedgerEntry) : (modEntry s i f).regs = s.regs := rfl
@[simp] theorem modEntry_smb (s : State) (i : Nat) (f : LedgerEntry → LedgerEntry) : (modEntry s i f).smb = s.smb := rfl
@[simp] theorem modEntry_power (s : State) (i : Nat) (f : LedgerEntry → LedgerEntry) : (modEntry s i f).power = s.power := rfl
@[simp] theorem modEntry_weir (s : State) (i : Nat) (f : LedgerEntry → LedgerEntry) : (modEntry s i f).weir = s.weir := rfl
@[simp] theorem modEntry_gauge (s : State) (i : Nat) (f : LedgerEntry → LedgerEntry) : (modEntry s i f).gauge = s.gauge := rfl
@[simp] theorem modEntry_migr (s : State) (i : Nat) (f : LedgerEntry → LedgerEntry) : (modEntry s i f).migr = s.migr := rfl
@[simp] theorem modEntry_out (s : State) (i : Nat) (f : LedgerEntry → LedgerEntry) : (modEntry s i f).out = s.out := rfl
@[simp] theorem modEntry_free (s : State) (i : Nat) (f : LedgerEntry → LedgerEntry) : (modEntry s i f).free = s.free := rfl
@[simp] theorem modEntry_pending (s : State) (i : Nat) (f : LedgerEntry → LedgerEntry) : (modEntry s i f).pending = s.pending := rfl
@[simp] theorem modEntry_intakeLast (s : State) (i : Nat) (f : LedgerEntry → LedgerEntry) : (modEntry s i f).intakeLast = s.intakeLast := rfl

@[simp] theorem modHeld_time (s : State) (k : CmdKey) (f : Held → Held) : (modHeld s k f).time = s.time := rfl
@[simp] theorem modHeld_ledger (s : State) (k : CmdKey) (f : Held → Held) : (modHeld s k f).ledger = s.ledger := rfl
@[simp] theorem modHeld_slices (s : State) (k : CmdKey) (f : Held → Held) : (modHeld s k f).slices = s.slices := rfl
@[simp] theorem modHeld_store (s : State) (k : CmdKey) (f : Held → Held) : (modHeld s k f).store = s.store := rfl
@[simp] theorem modHeld_sluice (s : State) (k : CmdKey) (f : Held → Held) : (modHeld s k f).sluice = s.sluice := rfl
@[simp] theorem modHeld_comp (s : State) (k : CmdKey) (f : Held → Held) : (modHeld s k f).comp = s.comp := rfl
@[simp] theorem modHeld_scan (s : State) (k : CmdKey) (f : Held → Held) : (modHeld s k f).scan = s.scan := rfl
@[simp] theorem modHeld_bank (s : State) (k : CmdKey) (f : Held → Held) : (modHeld s k f).bank = s.bank := rfl
@[simp] theorem modHeld_media (s : State) (k : CmdKey) (f : Held → Held) : (modHeld s k f).media = s.media := rfl
@[simp] theorem modHeld_head (s : State) (k : CmdKey) (f : Held → Held) : (modHeld s k f).head = s.head := rfl
@[simp] theorem modHeld_ptp (s : State) (k : CmdKey) (f : Held → Held) : (modHeld s k f).ptp = s.ptp := rfl
@[simp] theorem modHeld_fabric (s : State) (k : CmdKey) (f : Held → Held) : (modHeld s k f).fabric = s.fabric := rfl
@[simp] theorem modHeld_lane (s : State) (k : CmdKey) (f : Held → Held) : (modHeld s k f).lane = s.lane := rfl
@[simp] theorem modHeld_io (s : State) (k : CmdKey) (f : Held → Held) : (modHeld s k f).io = s.io := rfl
@[simp] theorem modHeld_boot (s : State) (k : CmdKey) (f : Held → Held) : (modHeld s k f).boot = s.boot := rfl
@[simp] theorem modHeld_regs (s : State) (k : CmdKey) (f : Held → Held) : (modHeld s k f).regs = s.regs := rfl
@[simp] theorem modHeld_smb (s : State) (k : CmdKey) (f : Held → Held) : (modHeld s k f).smb = s.smb := rfl
@[simp] theorem modHeld_power (s : State) (k : CmdKey) (f : Held → Held) : (modHeld s k f).power = s.power := rfl
@[simp] theorem modHeld_weir (s : State) (k : CmdKey) (f : Held → Held) : (modHeld s k f).weir = s.weir := rfl
@[simp] theorem modHeld_gauge (s : State) (k : CmdKey) (f : Held → Held) : (modHeld s k f).gauge = s.gauge := rfl
@[simp] theorem modHeld_migr (s : State) (k : CmdKey) (f : Held → Held) : (modHeld s k f).migr = s.migr := rfl
@[simp] theorem modHeld_out (s : State) (k : CmdKey) (f : Held → Held) : (modHeld s k f).out = s.out := rfl
@[simp] theorem modHeld_free (s : State) (k : CmdKey) (f : Held → Held) : (modHeld s k f).free = s.free := rfl
@[simp] theorem modHeld_pending (s : State) (k : CmdKey) (f : Held → Held) : (modHeld s k f).pending = s.pending := rfl
@[simp] theorem modHeld_intakeLast (s : State) (k : CmdKey) (f : Held → Held) : (modHeld s k f).intakeLast = s.intakeLast := rfl

@[simp] theorem modOut_time (s : State) (i : Nat) (f : OutputSt → OutputSt) : (modOut s i f).time = s.time := rfl
@[simp] theorem modOut_ledger (s : State) (i : Nat) (f : OutputSt → OutputSt) : (modOut s i f).ledger = s.ledger := rfl
@[simp] theorem modOut_rings (s : State) (i : Nat) (f : OutputSt → OutputSt) : (modOut s i f).rings = s.rings := rfl
@[simp] theorem modOut_slices (s : State) (i : Nat) (f : OutputSt → OutputSt) : (modOut s i f).slices = s.slices := rfl
@[simp] theorem modOut_store (s : State) (i : Nat) (f : OutputSt → OutputSt) : (modOut s i f).store = s.store := rfl
@[simp] theorem modOut_sluice (s : State) (i : Nat) (f : OutputSt → OutputSt) : (modOut s i f).sluice = s.sluice := rfl
@[simp] theorem modOut_comp (s : State) (i : Nat) (f : OutputSt → OutputSt) : (modOut s i f).comp = s.comp := rfl
@[simp] theorem modOut_bank (s : State) (i : Nat) (f : OutputSt → OutputSt) : (modOut s i f).bank = s.bank := rfl
@[simp] theorem modOut_media (s : State) (i : Nat) (f : OutputSt → OutputSt) : (modOut s i f).media = s.media := rfl
@[simp] theorem modOut_head (s : State) (i : Nat) (f : OutputSt → OutputSt) : (modOut s i f).head = s.head := rfl
@[simp] theorem modOut_ptp (s : State) (i : Nat) (f : OutputSt → OutputSt) : (modOut s i f).ptp = s.ptp := rfl
@[simp] theorem modOut_fabric (s : State) (i : Nat) (f : OutputSt → OutputSt) : (modOut s i f).fabric = s.fabric := rfl
@[simp] theorem modOut_lane (s : State) (i : Nat) (f : OutputSt → OutputSt) : (modOut s i f).lane = s.lane := rfl
@[simp] theorem modOut_io (s : State) (i : Nat) (f : OutputSt → OutputSt) : (modOut s i f).io = s.io := rfl
@[simp] theorem modOut_boot (s : State) (i : Nat) (f : OutputSt → OutputSt) : (modOut s i f).boot = s.boot := rfl
@[simp] theorem modOut_regs (s : State) (i : Nat) (f : OutputSt → OutputSt) : (modOut s i f).regs = s.regs := rfl
@[simp] theorem modOut_smb (s : State) (i : Nat) (f : OutputSt → OutputSt) : (modOut s i f).smb = s.smb := rfl
@[simp] theorem modOut_power (s : State) (i : Nat) (f : OutputSt → OutputSt) : (modOut s i f).power = s.power := rfl
@[simp] theorem modOut_weir (s : State) (i : Nat) (f : OutputSt → OutputSt) : (modOut s i f).weir = s.weir := rfl
@[simp] theorem modOut_gauge (s : State) (i : Nat) (f : OutputSt → OutputSt) : (modOut s i f).gauge = s.gauge := rfl
@[simp] theorem modOut_migr (s : State) (i : Nat) (f : OutputSt → OutputSt) : (modOut s i f).migr = s.migr := rfl
@[simp] theorem modOut_out (s : State) (i : Nat) (f : OutputSt → OutputSt) : (modOut s i f).out = s.out := rfl
@[simp] theorem modOut_free (s : State) (i : Nat) (f : OutputSt → OutputSt) : (modOut s i f).free = s.free := rfl
@[simp] theorem modOut_pending (s : State) (i : Nat) (f : OutputSt → OutputSt) : (modOut s i f).pending = s.pending := rfl
@[simp] theorem modOut_intakeLast (s : State) (i : Nat) (f : OutputSt → OutputSt) : (modOut s i f).intakeLast = s.intakeLast := rfl

@[simp] theorem modRect_time (s : State) (i : Nat) (f : Rect → Rect) : (modRect s i f).time = s.time := rfl
@[simp] theorem modRect_ledger (s : State) (i : Nat) (f : Rect → Rect) : (modRect s i f).ledger = s.ledger := rfl
@[simp] theorem modRect_rings (s : State) (i : Nat) (f : Rect → Rect) : (modRect s i f).rings = s.rings := rfl
@[simp] theorem modRect_slices (s : State) (i : Nat) (f : Rect → Rect) : (modRect s i f).slices = s.slices := rfl
@[simp] theorem modRect_store (s : State) (i : Nat) (f : Rect → Rect) : (modRect s i f).store = s.store := rfl
@[simp] theorem modRect_sluice (s : State) (i : Nat) (f : Rect → Rect) : (modRect s i f).sluice = s.sluice := rfl
@[simp] theorem modRect_comp (s : State) (i : Nat) (f : Rect → Rect) : (modRect s i f).comp = s.comp := rfl
@[simp] theorem modRect_bank (s : State) (i : Nat) (f : Rect → Rect) : (modRect s i f).bank = s.bank := rfl
@[simp] theorem modRect_media (s : State) (i : Nat) (f : Rect → Rect) : (modRect s i f).media = s.media := rfl
@[simp] theorem modRect_head (s : State) (i : Nat) (f : Rect → Rect) : (modRect s i f).head = s.head := rfl
@[simp] theorem modRect_ptp (s : State) (i : Nat) (f : Rect → Rect) : (modRect s i f).ptp = s.ptp := rfl
@[simp] theorem modRect_fabric (s : State) (i : Nat) (f : Rect → Rect) : (modRect s i f).fabric = s.fabric := rfl
@[simp] theorem modRect_lane (s : State) (i : Nat) (f : Rect → Rect) : (modRect s i f).lane = s.lane := rfl
@[simp] theorem modRect_io (s : State) (i : Nat) (f : Rect → Rect) : (modRect s i f).io = s.io := rfl
@[simp] theorem modRect_boot (s : State) (i : Nat) (f : Rect → Rect) : (modRect s i f).boot = s.boot := rfl
@[simp] theorem modRect_regs (s : State) (i : Nat) (f : Rect → Rect) : (modRect s i f).regs = s.regs := rfl
@[simp] theorem modRect_smb (s : State) (i : Nat) (f : Rect → Rect) : (modRect s i f).smb = s.smb := rfl
@[simp] theorem modRect_power (s : State) (i : Nat) (f : Rect → Rect) : (modRect s i f).power = s.power := rfl
@[simp] theorem modRect_weir (s : State) (i : Nat) (f : Rect → Rect) : (modRect s i f).weir = s.weir := rfl
@[simp] theorem modRect_gauge (s : State) (i : Nat) (f : Rect → Rect) : (modRect s i f).gauge = s.gauge := rfl
@[simp] theorem modRect_migr (s : State) (i : Nat) (f : Rect → Rect) : (modRect s i f).migr = s.migr := rfl
@[simp] theorem modRect_out (s : State) (i : Nat) (f : Rect → Rect) : (modRect s i f).out = s.out := rfl
@[simp] theorem modRect_free (s : State) (i : Nat) (f : Rect → Rect) : (modRect s i f).free = s.free := rfl
@[simp] theorem modRect_pending (s : State) (i : Nat) (f : Rect → Rect) : (modRect s i f).pending = s.pending := rfl
@[simp] theorem modRect_intakeLast (s : State) (i : Nat) (f : Rect → Rect) : (modRect s i f).intakeLast = s.intakeLast := rfl

@[simp] theorem modRings_time (s : State) (i : Nat) (f : SliceRings → SliceRings) : (modRings s i f).time = s.time := rfl
@[simp] theorem modRings_ledger (s : State) (i : Nat) (f : SliceRings → SliceRings) : (modRings s i f).ledger = s.ledger := rfl
@[simp] theorem modRings_slices (s : State) (i : Nat) (f : SliceRings → SliceRings) : (modRings s i f).slices = s.slices := rfl
@[simp] theorem modRings_store (s : State) (i : Nat) (f : SliceRings → SliceRings) : (modRings s i f).store = s.store := rfl
@[simp] theorem modRings_sluice (s : State) (i : Nat) (f : SliceRings → SliceRings) : (modRings s i f).sluice = s.sluice := rfl
@[simp] theorem modRings_comp (s : State) (i : Nat) (f : SliceRings → SliceRings) : (modRings s i f).comp = s.comp := rfl
@[simp] theorem modRings_scan (s : State) (i : Nat) (f : SliceRings → SliceRings) : (modRings s i f).scan = s.scan := rfl
@[simp] theorem modRings_bank (s : State) (i : Nat) (f : SliceRings → SliceRings) : (modRings s i f).bank = s.bank := rfl
@[simp] theorem modRings_media (s : State) (i : Nat) (f : SliceRings → SliceRings) : (modRings s i f).media = s.media := rfl
@[simp] theorem modRings_head (s : State) (i : Nat) (f : SliceRings → SliceRings) : (modRings s i f).head = s.head := rfl
@[simp] theorem modRings_ptp (s : State) (i : Nat) (f : SliceRings → SliceRings) : (modRings s i f).ptp = s.ptp := rfl
@[simp] theorem modRings_fabric (s : State) (i : Nat) (f : SliceRings → SliceRings) : (modRings s i f).fabric = s.fabric := rfl
@[simp] theorem modRings_lane (s : State) (i : Nat) (f : SliceRings → SliceRings) : (modRings s i f).lane = s.lane := rfl
@[simp] theorem modRings_io (s : State) (i : Nat) (f : SliceRings → SliceRings) : (modRings s i f).io = s.io := rfl
@[simp] theorem modRings_boot (s : State) (i : Nat) (f : SliceRings → SliceRings) : (modRings s i f).boot = s.boot := rfl
@[simp] theorem modRings_regs (s : State) (i : Nat) (f : SliceRings → SliceRings) : (modRings s i f).regs = s.regs := rfl
@[simp] theorem modRings_smb (s : State) (i : Nat) (f : SliceRings → SliceRings) : (modRings s i f).smb = s.smb := rfl
@[simp] theorem modRings_power (s : State) (i : Nat) (f : SliceRings → SliceRings) : (modRings s i f).power = s.power := rfl
@[simp] theorem modRings_weir (s : State) (i : Nat) (f : SliceRings → SliceRings) : (modRings s i f).weir = s.weir := rfl
@[simp] theorem modRings_gauge (s : State) (i : Nat) (f : SliceRings → SliceRings) : (modRings s i f).gauge = s.gauge := rfl
@[simp] theorem modRings_migr (s : State) (i : Nat) (f : SliceRings → SliceRings) : (modRings s i f).migr = s.migr := rfl
@[simp] theorem modRings_out (s : State) (i : Nat) (f : SliceRings → SliceRings) : (modRings s i f).out = s.out := rfl
@[simp] theorem modRings_free (s : State) (i : Nat) (f : SliceRings → SliceRings) : (modRings s i f).free = s.free := rfl
@[simp] theorem modRings_pending (s : State) (i : Nat) (f : SliceRings → SliceRings) : (modRings s i f).pending = s.pending := rfl
@[simp] theorem modRings_intakeLast (s : State) (i : Nat) (f : SliceRings → SliceRings) : (modRings s i f).intakeLast = s.intakeLast := rfl

@[simp] theorem modSlice_time (s : State) (i : Nat) (f : Slice → Slice) : (modSlice s i f).time = s.time := rfl
@[simp] theorem modSlice_ledger (s : State) (i : Nat) (f : Slice → Slice) : (modSlice s i f).ledger = s.ledger := rfl
@[simp] theorem modSlice_rings (s : State) (i : Nat) (f : Slice → Slice) : (modSlice s i f).rings = s.rings := rfl
@[simp] theorem modSlice_store (s : State) (i : Nat) (f : Slice → Slice) : (modSlice s i f).store = s.store := rfl
@[simp] theorem modSlice_sluice (s : State) (i : Nat) (f : Slice → Slice) : (modSlice s i f).sluice = s.sluice := rfl
@[simp] theorem modSlice_comp (s : State) (i : Nat) (f : Slice → Slice) : (modSlice s i f).comp = s.comp := rfl
@[simp] theorem modSlice_scan (s : State) (i : Nat) (f : Slice → Slice) : (modSlice s i f).scan = s.scan := rfl
@[simp] theorem modSlice_bank (s : State) (i : Nat) (f : Slice → Slice) : (modSlice s i f).bank = s.bank := rfl
@[simp] theorem modSlice_media (s : State) (i : Nat) (f : Slice → Slice) : (modSlice s i f).media = s.media := rfl
@[simp] theorem modSlice_head (s : State) (i : Nat) (f : Slice → Slice) : (modSlice s i f).head = s.head := rfl
@[simp] theorem modSlice_ptp (s : State) (i : Nat) (f : Slice → Slice) : (modSlice s i f).ptp = s.ptp := rfl
@[simp] theorem modSlice_fabric (s : State) (i : Nat) (f : Slice → Slice) : (modSlice s i f).fabric = s.fabric := rfl
@[simp] theorem modSlice_lane (s : State) (i : Nat) (f : Slice → Slice) : (modSlice s i f).lane = s.lane := rfl
@[simp] theorem modSlice_io (s : State) (i : Nat) (f : Slice → Slice) : (modSlice s i f).io = s.io := rfl
@[simp] theorem modSlice_boot (s : State) (i : Nat) (f : Slice → Slice) : (modSlice s i f).boot = s.boot := rfl
@[simp] theorem modSlice_regs (s : State) (i : Nat) (f : Slice → Slice) : (modSlice s i f).regs = s.regs := rfl
@[simp] theorem modSlice_smb (s : State) (i : Nat) (f : Slice → Slice) : (modSlice s i f).smb = s.smb := rfl
@[simp] theorem modSlice_power (s : State) (i : Nat) (f : Slice → Slice) : (modSlice s i f).power = s.power := rfl
@[simp] theorem modSlice_weir (s : State) (i : Nat) (f : Slice → Slice) : (modSlice s i f).weir = s.weir := rfl
@[simp] theorem modSlice_gauge (s : State) (i : Nat) (f : Slice → Slice) : (modSlice s i f).gauge = s.gauge := rfl
@[simp] theorem modSlice_migr (s : State) (i : Nat) (f : Slice → Slice) : (modSlice s i f).migr = s.migr := rfl
@[simp] theorem modSlice_out (s : State) (i : Nat) (f : Slice → Slice) : (modSlice s i f).out = s.out := rfl
@[simp] theorem modSlice_free (s : State) (i : Nat) (f : Slice → Slice) : (modSlice s i f).free = s.free := rfl
@[simp] theorem modSlice_pending (s : State) (i : Nat) (f : Slice → Slice) : (modSlice s i f).pending = s.pending := rfl
@[simp] theorem modSlice_intakeLast (s : State) (i : Nat) (f : Slice → Slice) : (modSlice s i f).intakeLast = s.intakeLast := rfl

@[simp] theorem modSlot_time (s : State) (i : Nat) (f : Slot → Slot) : (modSlot s i f).time = s.time := rfl
@[simp] theorem modSlot_ledger (s : State) (i : Nat) (f : Slot → Slot) : (modSlot s i f).ledger = s.ledger := rfl
@[simp] theorem modSlot_rings (s : State) (i : Nat) (f : Slot → Slot) : (modSlot s i f).rings = s.rings := rfl
@[simp] theorem modSlot_slices (s : State) (i : Nat) (f : Slot → Slot) : (modSlot s i f).slices = s.slices := rfl
@[simp] theorem modSlot_store (s : State) (i : Nat) (f : Slot → Slot) : (modSlot s i f).store = s.store := rfl
@[simp] theorem modSlot_sluice (s : State) (i : Nat) (f : Slot → Slot) : (modSlot s i f).sluice = s.sluice := rfl
@[simp] theorem modSlot_scan (s : State) (i : Nat) (f : Slot → Slot) : (modSlot s i f).scan = s.scan := rfl
@[simp] theorem modSlot_bank (s : State) (i : Nat) (f : Slot → Slot) : (modSlot s i f).bank = s.bank := rfl
@[simp] theorem modSlot_media (s : State) (i : Nat) (f : Slot → Slot) : (modSlot s i f).media = s.media := rfl
@[simp] theorem modSlot_head (s : State) (i : Nat) (f : Slot → Slot) : (modSlot s i f).head = s.head := rfl
@[simp] theorem modSlot_ptp (s : State) (i : Nat) (f : Slot → Slot) : (modSlot s i f).ptp = s.ptp := rfl
@[simp] theorem modSlot_fabric (s : State) (i : Nat) (f : Slot → Slot) : (modSlot s i f).fabric = s.fabric := rfl
@[simp] theorem modSlot_lane (s : State) (i : Nat) (f : Slot → Slot) : (modSlot s i f).lane = s.lane := rfl
@[simp] theorem modSlot_io (s : State) (i : Nat) (f : Slot → Slot) : (modSlot s i f).io = s.io := rfl
@[simp] theorem modSlot_boot (s : State) (i : Nat) (f : Slot → Slot) : (modSlot s i f).boot = s.boot := rfl
@[simp] theorem modSlot_regs (s : State) (i : Nat) (f : Slot → Slot) : (modSlot s i f).regs = s.regs := rfl
@[simp] theorem modSlot_smb (s : State) (i : Nat) (f : Slot → Slot) : (modSlot s i f).smb = s.smb := rfl
@[simp] theorem modSlot_power (s : State) (i : Nat) (f : Slot → Slot) : (modSlot s i f).power = s.power := rfl
@[simp] theorem modSlot_weir (s : State) (i : Nat) (f : Slot → Slot) : (modSlot s i f).weir = s.weir := rfl
@[simp] theorem modSlot_gauge (s : State) (i : Nat) (f : Slot → Slot) : (modSlot s i f).gauge = s.gauge := rfl
@[simp] theorem modSlot_migr (s : State) (i : Nat) (f : Slot → Slot) : (modSlot s i f).migr = s.migr := rfl
@[simp] theorem modSlot_out (s : State) (i : Nat) (f : Slot → Slot) : (modSlot s i f).out = s.out := rfl
@[simp] theorem modSlot_free (s : State) (i : Nat) (f : Slot → Slot) : (modSlot s i f).free = s.free := rfl
@[simp] theorem modSlot_pending (s : State) (i : Nat) (f : Slot → Slot) : (modSlot s i f).pending = s.pending := rfl
@[simp] theorem modSlot_intakeLast (s : State) (i : Nat) (f : Slot → Slot) : (modSlot s i f).intakeLast = s.intakeLast := rfl

@[simp] theorem modSurf_time (s : State) (i : Nat) (f : Surface → Surface) : (modSurf s i f).time = s.time := rfl
@[simp] theorem modSurf_ledger (s : State) (i : Nat) (f : Surface → Surface) : (modSurf s i f).ledger = s.ledger := rfl
@[simp] theorem modSurf_rings (s : State) (i : Nat) (f : Surface → Surface) : (modSurf s i f).rings = s.rings := rfl
@[simp] theorem modSurf_slices (s : State) (i : Nat) (f : Surface → Surface) : (modSurf s i f).slices = s.slices := rfl
@[simp] theorem modSurf_sluice (s : State) (i : Nat) (f : Surface → Surface) : (modSurf s i f).sluice = s.sluice := rfl
@[simp] theorem modSurf_comp (s : State) (i : Nat) (f : Surface → Surface) : (modSurf s i f).comp = s.comp := rfl
@[simp] theorem modSurf_scan (s : State) (i : Nat) (f : Surface → Surface) : (modSurf s i f).scan = s.scan := rfl
@[simp] theorem modSurf_bank (s : State) (i : Nat) (f : Surface → Surface) : (modSurf s i f).bank = s.bank := rfl
@[simp] theorem modSurf_media (s : State) (i : Nat) (f : Surface → Surface) : (modSurf s i f).media = s.media := rfl
@[simp] theorem modSurf_head (s : State) (i : Nat) (f : Surface → Surface) : (modSurf s i f).head = s.head := rfl
@[simp] theorem modSurf_ptp (s : State) (i : Nat) (f : Surface → Surface) : (modSurf s i f).ptp = s.ptp := rfl
@[simp] theorem modSurf_fabric (s : State) (i : Nat) (f : Surface → Surface) : (modSurf s i f).fabric = s.fabric := rfl
@[simp] theorem modSurf_lane (s : State) (i : Nat) (f : Surface → Surface) : (modSurf s i f).lane = s.lane := rfl
@[simp] theorem modSurf_io (s : State) (i : Nat) (f : Surface → Surface) : (modSurf s i f).io = s.io := rfl
@[simp] theorem modSurf_boot (s : State) (i : Nat) (f : Surface → Surface) : (modSurf s i f).boot = s.boot := rfl
@[simp] theorem modSurf_regs (s : State) (i : Nat) (f : Surface → Surface) : (modSurf s i f).regs = s.regs := rfl
@[simp] theorem modSurf_smb (s : State) (i : Nat) (f : Surface → Surface) : (modSurf s i f).smb = s.smb := rfl
@[simp] theorem modSurf_power (s : State) (i : Nat) (f : Surface → Surface) : (modSurf s i f).power = s.power := rfl
@[simp] theorem modSurf_weir (s : State) (i : Nat) (f : Surface → Surface) : (modSurf s i f).weir = s.weir := rfl
@[simp] theorem modSurf_gauge (s : State) (i : Nat) (f : Surface → Surface) : (modSurf s i f).gauge = s.gauge := rfl
@[simp] theorem modSurf_migr (s : State) (i : Nat) (f : Surface → Surface) : (modSurf s i f).migr = s.migr := rfl
@[simp] theorem modSurf_out (s : State) (i : Nat) (f : Surface → Surface) : (modSurf s i f).out = s.out := rfl
@[simp] theorem modSurf_free (s : State) (i : Nat) (f : Surface → Surface) : (modSurf s i f).free = s.free := rfl
@[simp] theorem modSurf_pending (s : State) (i : Nat) (f : Surface → Surface) : (modSurf s i f).pending = s.pending := rfl
@[simp] theorem modSurf_intakeLast (s : State) (i : Nat) (f : Surface → Surface) : (modSurf s i f).intakeLast = s.intakeLast := rfl

@[simp] theorem modTag_time (s : State) (slice ring tag : Nat) (f : TagRec → Option TagRec) : (modTag s slice ring tag f).time = s.time := rfl
@[simp] theorem modTag_ledger (s : State) (slice ring tag : Nat) (f : TagRec → Option TagRec) : (modTag s slice ring tag f).ledger = s.ledger := rfl
@[simp] theorem modTag_slices (s : State) (slice ring tag : Nat) (f : TagRec → Option TagRec) : (modTag s slice ring tag f).slices = s.slices := rfl
@[simp] theorem modTag_store (s : State) (slice ring tag : Nat) (f : TagRec → Option TagRec) : (modTag s slice ring tag f).store = s.store := rfl
@[simp] theorem modTag_sluice (s : State) (slice ring tag : Nat) (f : TagRec → Option TagRec) : (modTag s slice ring tag f).sluice = s.sluice := rfl
@[simp] theorem modTag_comp (s : State) (slice ring tag : Nat) (f : TagRec → Option TagRec) : (modTag s slice ring tag f).comp = s.comp := rfl
@[simp] theorem modTag_scan (s : State) (slice ring tag : Nat) (f : TagRec → Option TagRec) : (modTag s slice ring tag f).scan = s.scan := rfl
@[simp] theorem modTag_bank (s : State) (slice ring tag : Nat) (f : TagRec → Option TagRec) : (modTag s slice ring tag f).bank = s.bank := rfl
@[simp] theorem modTag_media (s : State) (slice ring tag : Nat) (f : TagRec → Option TagRec) : (modTag s slice ring tag f).media = s.media := rfl
@[simp] theorem modTag_head (s : State) (slice ring tag : Nat) (f : TagRec → Option TagRec) : (modTag s slice ring tag f).head = s.head := rfl
@[simp] theorem modTag_ptp (s : State) (slice ring tag : Nat) (f : TagRec → Option TagRec) : (modTag s slice ring tag f).ptp = s.ptp := rfl
@[simp] theorem modTag_fabric (s : State) (slice ring tag : Nat) (f : TagRec → Option TagRec) : (modTag s slice ring tag f).fabric = s.fabric := rfl
@[simp] theorem modTag_lane (s : State) (slice ring tag : Nat) (f : TagRec → Option TagRec) : (modTag s slice ring tag f).lane = s.lane := rfl
@[simp] theorem modTag_io (s : State) (slice ring tag : Nat) (f : TagRec → Option TagRec) : (modTag s slice ring tag f).io = s.io := rfl
@[simp] theorem modTag_boot (s : State) (slice ring tag : Nat) (f : TagRec → Option TagRec) : (modTag s slice ring tag f).boot = s.boot := rfl
@[simp] theorem modTag_regs (s : State) (slice ring tag : Nat) (f : TagRec → Option TagRec) : (modTag s slice ring tag f).regs = s.regs := rfl
@[simp] theorem modTag_smb (s : State) (slice ring tag : Nat) (f : TagRec → Option TagRec) : (modTag s slice ring tag f).smb = s.smb := rfl
@[simp] theorem modTag_power (s : State) (slice ring tag : Nat) (f : TagRec → Option TagRec) : (modTag s slice ring tag f).power = s.power := rfl
@[simp] theorem modTag_weir (s : State) (slice ring tag : Nat) (f : TagRec → Option TagRec) : (modTag s slice ring tag f).weir = s.weir := rfl
@[simp] theorem modTag_gauge (s : State) (slice ring tag : Nat) (f : TagRec → Option TagRec) : (modTag s slice ring tag f).gauge = s.gauge := rfl
@[simp] theorem modTag_migr (s : State) (slice ring tag : Nat) (f : TagRec → Option TagRec) : (modTag s slice ring tag f).migr = s.migr := rfl
@[simp] theorem modTag_out (s : State) (slice ring tag : Nat) (f : TagRec → Option TagRec) : (modTag s slice ring tag f).out = s.out := rfl
@[simp] theorem modTag_free (s : State) (slice ring tag : Nat) (f : TagRec → Option TagRec) : (modTag s slice ring tag f).free = s.free := rfl
@[simp] theorem modTag_pending (s : State) (slice ring tag : Nat) (f : TagRec → Option TagRec) : (modTag s slice ring tag f).pending = s.pending := rfl
@[simp] theorem modTag_intakeLast (s : State) (slice ring tag : Nat) (f : TagRec → Option TagRec) : (modTag s slice ring tag f).intakeLast = s.intakeLast := rfl

@[simp] theorem writeBytes_time (s : State) (a : Nat) (l : List Byte) : (writeBytes s a l).time = s.time := rfl
@[simp] theorem writeBytes_ledger (s : State) (a : Nat) (l : List Byte) : (writeBytes s a l).ledger = s.ledger := rfl
@[simp] theorem writeBytes_rings (s : State) (a : Nat) (l : List Byte) : (writeBytes s a l).rings = s.rings := rfl
@[simp] theorem writeBytes_slices (s : State) (a : Nat) (l : List Byte) : (writeBytes s a l).slices = s.slices := rfl
@[simp] theorem writeBytes_sluice (s : State) (a : Nat) (l : List Byte) : (writeBytes s a l).sluice = s.sluice := rfl
@[simp] theorem writeBytes_comp (s : State) (a : Nat) (l : List Byte) : (writeBytes s a l).comp = s.comp := rfl
@[simp] theorem writeBytes_scan (s : State) (a : Nat) (l : List Byte) : (writeBytes s a l).scan = s.scan := rfl
@[simp] theorem writeBytes_bank (s : State) (a : Nat) (l : List Byte) : (writeBytes s a l).bank = s.bank := rfl
@[simp] theorem writeBytes_media (s : State) (a : Nat) (l : List Byte) : (writeBytes s a l).media = s.media := rfl
@[simp] theorem writeBytes_head (s : State) (a : Nat) (l : List Byte) : (writeBytes s a l).head = s.head := rfl
@[simp] theorem writeBytes_ptp (s : State) (a : Nat) (l : List Byte) : (writeBytes s a l).ptp = s.ptp := rfl
@[simp] theorem writeBytes_fabric (s : State) (a : Nat) (l : List Byte) : (writeBytes s a l).fabric = s.fabric := rfl
@[simp] theorem writeBytes_lane (s : State) (a : Nat) (l : List Byte) : (writeBytes s a l).lane = s.lane := rfl
@[simp] theorem writeBytes_io (s : State) (a : Nat) (l : List Byte) : (writeBytes s a l).io = s.io := rfl
@[simp] theorem writeBytes_boot (s : State) (a : Nat) (l : List Byte) : (writeBytes s a l).boot = s.boot := rfl
@[simp] theorem writeBytes_regs (s : State) (a : Nat) (l : List Byte) : (writeBytes s a l).regs = s.regs := rfl
@[simp] theorem writeBytes_smb (s : State) (a : Nat) (l : List Byte) : (writeBytes s a l).smb = s.smb := rfl
@[simp] theorem writeBytes_power (s : State) (a : Nat) (l : List Byte) : (writeBytes s a l).power = s.power := rfl
@[simp] theorem writeBytes_weir (s : State) (a : Nat) (l : List Byte) : (writeBytes s a l).weir = s.weir := rfl
@[simp] theorem writeBytes_gauge (s : State) (a : Nat) (l : List Byte) : (writeBytes s a l).gauge = s.gauge := rfl
@[simp] theorem writeBytes_migr (s : State) (a : Nat) (l : List Byte) : (writeBytes s a l).migr = s.migr := rfl
@[simp] theorem writeBytes_out (s : State) (a : Nat) (l : List Byte) : (writeBytes s a l).out = s.out := rfl
@[simp] theorem writeBytes_free (s : State) (a : Nat) (l : List Byte) : (writeBytes s a l).free = s.free := rfl
@[simp] theorem writeBytes_pending (s : State) (a : Nat) (l : List Byte) : (writeBytes s a l).pending = s.pending := rfl
@[simp] theorem writeBytes_intakeLast (s : State) (a : Nat) (l : List Byte) : (writeBytes s a l).intakeLast = s.intakeLast := rfl

@[simp] theorem emit_time (s : State) (o : Output) : (emit s o).time = s.time := rfl
@[simp] theorem emit_ledger (s : State) (o : Output) : (emit s o).ledger = s.ledger := rfl
@[simp] theorem emit_rings (s : State) (o : Output) : (emit s o).rings = s.rings := rfl
@[simp] theorem emit_slices (s : State) (o : Output) : (emit s o).slices = s.slices := rfl
@[simp] theorem emit_store (s : State) (o : Output) : (emit s o).store = s.store := rfl
@[simp] theorem emit_sluice (s : State) (o : Output) : (emit s o).sluice = s.sluice := rfl
@[simp] theorem emit_comp (s : State) (o : Output) : (emit s o).comp = s.comp := rfl
@[simp] theorem emit_scan (s : State) (o : Output) : (emit s o).scan = s.scan := rfl
@[simp] theorem emit_bank (s : State) (o : Output) : (emit s o).bank = s.bank := rfl
@[simp] theorem emit_media (s : State) (o : Output) : (emit s o).media = s.media := rfl
@[simp] theorem emit_head (s : State) (o : Output) : (emit s o).head = s.head := rfl
@[simp] theorem emit_ptp (s : State) (o : Output) : (emit s o).ptp = s.ptp := rfl
@[simp] theorem emit_fabric (s : State) (o : Output) : (emit s o).fabric = s.fabric := rfl
@[simp] theorem emit_lane (s : State) (o : Output) : (emit s o).lane = s.lane := rfl
@[simp] theorem emit_io (s : State) (o : Output) : (emit s o).io = s.io := rfl
@[simp] theorem emit_boot (s : State) (o : Output) : (emit s o).boot = s.boot := rfl
@[simp] theorem emit_regs (s : State) (o : Output) : (emit s o).regs = s.regs := rfl
@[simp] theorem emit_smb (s : State) (o : Output) : (emit s o).smb = s.smb := rfl
@[simp] theorem emit_power (s : State) (o : Output) : (emit s o).power = s.power := rfl
@[simp] theorem emit_weir (s : State) (o : Output) : (emit s o).weir = s.weir := rfl
@[simp] theorem emit_gauge (s : State) (o : Output) : (emit s o).gauge = s.gauge := rfl
@[simp] theorem emit_migr (s : State) (o : Output) : (emit s o).migr = s.migr := rfl
@[simp] theorem emit_free (s : State) (o : Output) : (emit s o).free = s.free := rfl
@[simp] theorem emit_pending (s : State) (o : Output) : (emit s o).pending = s.pending := rfl
@[simp] theorem emit_intakeLast (s : State) (o : Output) : (emit s o).intakeLast = s.intakeLast := rfl

@[simp] theorem modTod_time (s : State) (p : Nat) (f : TodPort → TodPort) : (modTod s p f).time = s.time := rfl
@[simp] theorem modTod_ledger (s : State) (p : Nat) (f : TodPort → TodPort) : (modTod s p f).ledger = s.ledger := rfl
@[simp] theorem modTod_rings (s : State) (p : Nat) (f : TodPort → TodPort) : (modTod s p f).rings = s.rings := rfl
@[simp] theorem modTod_slices (s : State) (p : Nat) (f : TodPort → TodPort) : (modTod s p f).slices = s.slices := rfl
@[simp] theorem modTod_store (s : State) (p : Nat) (f : TodPort → TodPort) : (modTod s p f).store = s.store := rfl
@[simp] theorem modTod_sluice (s : State) (p : Nat) (f : TodPort → TodPort) : (modTod s p f).sluice = s.sluice := rfl
@[simp] theorem modTod_comp (s : State) (p : Nat) (f : TodPort → TodPort) : (modTod s p f).comp = s.comp := rfl
@[simp] theorem modTod_scan (s : State) (p : Nat) (f : TodPort → TodPort) : (modTod s p f).scan = s.scan := rfl
@[simp] theorem modTod_bank (s : State) (p : Nat) (f : TodPort → TodPort) : (modTod s p f).bank = s.bank := rfl
@[simp] theorem modTod_media (s : State) (p : Nat) (f : TodPort → TodPort) : (modTod s p f).media = s.media := rfl
@[simp] theorem modTod_head (s : State) (p : Nat) (f : TodPort → TodPort) : (modTod s p f).head = s.head := rfl
@[simp] theorem modTod_ptp (s : State) (p : Nat) (f : TodPort → TodPort) : (modTod s p f).ptp = s.ptp := rfl
@[simp] theorem modTod_lane (s : State) (p : Nat) (f : TodPort → TodPort) : (modTod s p f).lane = s.lane := rfl
@[simp] theorem modTod_io (s : State) (p : Nat) (f : TodPort → TodPort) : (modTod s p f).io = s.io := rfl
@[simp] theorem modTod_boot (s : State) (p : Nat) (f : TodPort → TodPort) : (modTod s p f).boot = s.boot := rfl
@[simp] theorem modTod_regs (s : State) (p : Nat) (f : TodPort → TodPort) : (modTod s p f).regs = s.regs := rfl
@[simp] theorem modTod_smb (s : State) (p : Nat) (f : TodPort → TodPort) : (modTod s p f).smb = s.smb := rfl
@[simp] theorem modTod_power (s : State) (p : Nat) (f : TodPort → TodPort) : (modTod s p f).power = s.power := rfl
@[simp] theorem modTod_weir (s : State) (p : Nat) (f : TodPort → TodPort) : (modTod s p f).weir = s.weir := rfl
@[simp] theorem modTod_gauge (s : State) (p : Nat) (f : TodPort → TodPort) : (modTod s p f).gauge = s.gauge := rfl
@[simp] theorem modTod_migr (s : State) (p : Nat) (f : TodPort → TodPort) : (modTod s p f).migr = s.migr := rfl
@[simp] theorem modTod_out (s : State) (p : Nat) (f : TodPort → TodPort) : (modTod s p f).out = s.out := rfl
@[simp] theorem modTod_free (s : State) (p : Nat) (f : TodPort → TodPort) : (modTod s p f).free = s.free := rfl
@[simp] theorem modTod_pending (s : State) (p : Nat) (f : TodPort → TodPort) : (modTod s p f).pending = s.pending := rfl
@[simp] theorem modTod_intakeLast (s : State) (p : Nat) (f : TodPort → TodPort) : (modTod s p f).intakeLast = s.intakeLast := rfl

@[simp] theorem modEvt_time (s : State) (i : Nat) (f : EvtIn → EvtIn) : (modEvt s i f).time = s.time := rfl
@[simp] theorem modEvt_ledger (s : State) (i : Nat) (f : EvtIn → EvtIn) : (modEvt s i f).ledger = s.ledger := rfl
@[simp] theorem modEvt_rings (s : State) (i : Nat) (f : EvtIn → EvtIn) : (modEvt s i f).rings = s.rings := rfl
@[simp] theorem modEvt_slices (s : State) (i : Nat) (f : EvtIn → EvtIn) : (modEvt s i f).slices = s.slices := rfl
@[simp] theorem modEvt_store (s : State) (i : Nat) (f : EvtIn → EvtIn) : (modEvt s i f).store = s.store := rfl
@[simp] theorem modEvt_sluice (s : State) (i : Nat) (f : EvtIn → EvtIn) : (modEvt s i f).sluice = s.sluice := rfl
@[simp] theorem modEvt_comp (s : State) (i : Nat) (f : EvtIn → EvtIn) : (modEvt s i f).comp = s.comp := rfl
@[simp] theorem modEvt_scan (s : State) (i : Nat) (f : EvtIn → EvtIn) : (modEvt s i f).scan = s.scan := rfl
@[simp] theorem modEvt_bank (s : State) (i : Nat) (f : EvtIn → EvtIn) : (modEvt s i f).bank = s.bank := rfl
@[simp] theorem modEvt_media (s : State) (i : Nat) (f : EvtIn → EvtIn) : (modEvt s i f).media = s.media := rfl
@[simp] theorem modEvt_head (s : State) (i : Nat) (f : EvtIn → EvtIn) : (modEvt s i f).head = s.head := rfl
@[simp] theorem modEvt_fabric (s : State) (i : Nat) (f : EvtIn → EvtIn) : (modEvt s i f).fabric = s.fabric := rfl
@[simp] theorem modEvt_lane (s : State) (i : Nat) (f : EvtIn → EvtIn) : (modEvt s i f).lane = s.lane := rfl
@[simp] theorem modEvt_io (s : State) (i : Nat) (f : EvtIn → EvtIn) : (modEvt s i f).io = s.io := rfl
@[simp] theorem modEvt_boot (s : State) (i : Nat) (f : EvtIn → EvtIn) : (modEvt s i f).boot = s.boot := rfl
@[simp] theorem modEvt_regs (s : State) (i : Nat) (f : EvtIn → EvtIn) : (modEvt s i f).regs = s.regs := rfl
@[simp] theorem modEvt_smb (s : State) (i : Nat) (f : EvtIn → EvtIn) : (modEvt s i f).smb = s.smb := rfl
@[simp] theorem modEvt_power (s : State) (i : Nat) (f : EvtIn → EvtIn) : (modEvt s i f).power = s.power := rfl
@[simp] theorem modEvt_weir (s : State) (i : Nat) (f : EvtIn → EvtIn) : (modEvt s i f).weir = s.weir := rfl
@[simp] theorem modEvt_gauge (s : State) (i : Nat) (f : EvtIn → EvtIn) : (modEvt s i f).gauge = s.gauge := rfl
@[simp] theorem modEvt_migr (s : State) (i : Nat) (f : EvtIn → EvtIn) : (modEvt s i f).migr = s.migr := rfl
@[simp] theorem modEvt_out (s : State) (i : Nat) (f : EvtIn → EvtIn) : (modEvt s i f).out = s.out := rfl
@[simp] theorem modEvt_free (s : State) (i : Nat) (f : EvtIn → EvtIn) : (modEvt s i f).free = s.free := rfl
@[simp] theorem modEvt_pending (s : State) (i : Nat) (f : EvtIn → EvtIn) : (modEvt s i f).pending = s.pending := rfl
@[simp] theorem modEvt_intakeLast (s : State) (i : Nat) (f : EvtIn → EvtIn) : (modEvt s i f).intakeLast = s.intakeLast := rfl

@[simp] theorem modCtx_time (s : State) (i : Nat) (f : DecCtx → DecCtx) : (modCtx s i f).time = s.time := rfl
@[simp] theorem modCtx_ledger (s : State) (i : Nat) (f : DecCtx → DecCtx) : (modCtx s i f).ledger = s.ledger := rfl
@[simp] theorem modCtx_rings (s : State) (i : Nat) (f : DecCtx → DecCtx) : (modCtx s i f).rings = s.rings := rfl
@[simp] theorem modCtx_slices (s : State) (i : Nat) (f : DecCtx → DecCtx) : (modCtx s i f).slices = s.slices := rfl
@[simp] theorem modCtx_store (s : State) (i : Nat) (f : DecCtx → DecCtx) : (modCtx s i f).store = s.store := rfl
@[simp] theorem modCtx_sluice (s : State) (i : Nat) (f : DecCtx → DecCtx) : (modCtx s i f).sluice = s.sluice := rfl
@[simp] theorem modCtx_comp (s : State) (i : Nat) (f : DecCtx → DecCtx) : (modCtx s i f).comp = s.comp := rfl
@[simp] theorem modCtx_scan (s : State) (i : Nat) (f : DecCtx → DecCtx) : (modCtx s i f).scan = s.scan := rfl
@[simp] theorem modCtx_bank (s : State) (i : Nat) (f : DecCtx → DecCtx) : (modCtx s i f).bank = s.bank := rfl
@[simp] theorem modCtx_head (s : State) (i : Nat) (f : DecCtx → DecCtx) : (modCtx s i f).head = s.head := rfl
@[simp] theorem modCtx_ptp (s : State) (i : Nat) (f : DecCtx → DecCtx) : (modCtx s i f).ptp = s.ptp := rfl
@[simp] theorem modCtx_fabric (s : State) (i : Nat) (f : DecCtx → DecCtx) : (modCtx s i f).fabric = s.fabric := rfl
@[simp] theorem modCtx_lane (s : State) (i : Nat) (f : DecCtx → DecCtx) : (modCtx s i f).lane = s.lane := rfl
@[simp] theorem modCtx_io (s : State) (i : Nat) (f : DecCtx → DecCtx) : (modCtx s i f).io = s.io := rfl
@[simp] theorem modCtx_boot (s : State) (i : Nat) (f : DecCtx → DecCtx) : (modCtx s i f).boot = s.boot := rfl
@[simp] theorem modCtx_regs (s : State) (i : Nat) (f : DecCtx → DecCtx) : (modCtx s i f).regs = s.regs := rfl
@[simp] theorem modCtx_smb (s : State) (i : Nat) (f : DecCtx → DecCtx) : (modCtx s i f).smb = s.smb := rfl
@[simp] theorem modCtx_power (s : State) (i : Nat) (f : DecCtx → DecCtx) : (modCtx s i f).power = s.power := rfl
@[simp] theorem modCtx_weir (s : State) (i : Nat) (f : DecCtx → DecCtx) : (modCtx s i f).weir = s.weir := rfl
@[simp] theorem modCtx_gauge (s : State) (i : Nat) (f : DecCtx → DecCtx) : (modCtx s i f).gauge = s.gauge := rfl
@[simp] theorem modCtx_migr (s : State) (i : Nat) (f : DecCtx → DecCtx) : (modCtx s i f).migr = s.migr := rfl
@[simp] theorem modCtx_out (s : State) (i : Nat) (f : DecCtx → DecCtx) : (modCtx s i f).out = s.out := rfl
@[simp] theorem modCtx_free (s : State) (i : Nat) (f : DecCtx → DecCtx) : (modCtx s i f).free = s.free := rfl
@[simp] theorem modCtx_pending (s : State) (i : Nat) (f : DecCtx → DecCtx) : (modCtx s i f).pending = s.pending := rfl
@[simp] theorem modCtx_intakeLast (s : State) (i : Nat) (f : DecCtx → DecCtx) : (modCtx s i f).intakeLast = s.intakeLast := rfl

@[simp] theorem modSession_time (s : State) (i : Nat) (f : Session → Session) : (modSession s i f).time = s.time := rfl
@[simp] theorem modSession_ledger (s : State) (i : Nat) (f : Session → Session) : (modSession s i f).ledger = s.ledger := rfl
@[simp] theorem modSession_rings (s : State) (i : Nat) (f : Session → Session) : (modSession s i f).rings = s.rings := rfl
@[simp] theorem modSession_slices (s : State) (i : Nat) (f : Session → Session) : (modSession s i f).slices = s.slices := rfl
@[simp] theorem modSession_store (s : State) (i : Nat) (f : Session → Session) : (modSession s i f).store = s.store := rfl
@[simp] theorem modSession_sluice (s : State) (i : Nat) (f : Session → Session) : (modSession s i f).sluice = s.sluice := rfl
@[simp] theorem modSession_comp (s : State) (i : Nat) (f : Session → Session) : (modSession s i f).comp = s.comp := rfl
@[simp] theorem modSession_scan (s : State) (i : Nat) (f : Session → Session) : (modSession s i f).scan = s.scan := rfl
@[simp] theorem modSession_bank (s : State) (i : Nat) (f : Session → Session) : (modSession s i f).bank = s.bank := rfl
@[simp] theorem modSession_head (s : State) (i : Nat) (f : Session → Session) : (modSession s i f).head = s.head := rfl
@[simp] theorem modSession_ptp (s : State) (i : Nat) (f : Session → Session) : (modSession s i f).ptp = s.ptp := rfl
@[simp] theorem modSession_fabric (s : State) (i : Nat) (f : Session → Session) : (modSession s i f).fabric = s.fabric := rfl
@[simp] theorem modSession_lane (s : State) (i : Nat) (f : Session → Session) : (modSession s i f).lane = s.lane := rfl
@[simp] theorem modSession_io (s : State) (i : Nat) (f : Session → Session) : (modSession s i f).io = s.io := rfl
@[simp] theorem modSession_boot (s : State) (i : Nat) (f : Session → Session) : (modSession s i f).boot = s.boot := rfl
@[simp] theorem modSession_regs (s : State) (i : Nat) (f : Session → Session) : (modSession s i f).regs = s.regs := rfl
@[simp] theorem modSession_smb (s : State) (i : Nat) (f : Session → Session) : (modSession s i f).smb = s.smb := rfl
@[simp] theorem modSession_power (s : State) (i : Nat) (f : Session → Session) : (modSession s i f).power = s.power := rfl
@[simp] theorem modSession_weir (s : State) (i : Nat) (f : Session → Session) : (modSession s i f).weir = s.weir := rfl
@[simp] theorem modSession_gauge (s : State) (i : Nat) (f : Session → Session) : (modSession s i f).gauge = s.gauge := rfl
@[simp] theorem modSession_migr (s : State) (i : Nat) (f : Session → Session) : (modSession s i f).migr = s.migr := rfl
@[simp] theorem modSession_out (s : State) (i : Nat) (f : Session → Session) : (modSession s i f).out = s.out := rfl
@[simp] theorem modSession_free (s : State) (i : Nat) (f : Session → Session) : (modSession s i f).free = s.free := rfl
@[simp] theorem modSession_pending (s : State) (i : Nat) (f : Session → Session) : (modSession s i f).pending = s.pending := rfl
@[simp] theorem modSession_intakeLast (s : State) (i : Nat) (f : Session → Session) : (modSession s i f).intakeLast = s.intakeLast := rfl

@[simp] theorem modTouch_time (s : State) (p : Nat) (f : TouchPort → TouchPort) : (modTouch s p f).time = s.time := rfl
@[simp] theorem modTouch_ledger (s : State) (p : Nat) (f : TouchPort → TouchPort) : (modTouch s p f).ledger = s.ledger := rfl
@[simp] theorem modTouch_rings (s : State) (p : Nat) (f : TouchPort → TouchPort) : (modTouch s p f).rings = s.rings := rfl
@[simp] theorem modTouch_slices (s : State) (p : Nat) (f : TouchPort → TouchPort) : (modTouch s p f).slices = s.slices := rfl
@[simp] theorem modTouch_store (s : State) (p : Nat) (f : TouchPort → TouchPort) : (modTouch s p f).store = s.store := rfl
@[simp] theorem modTouch_sluice (s : State) (p : Nat) (f : TouchPort → TouchPort) : (modTouch s p f).sluice = s.sluice := rfl
@[simp] theorem modTouch_comp (s : State) (p : Nat) (f : TouchPort → TouchPort) : (modTouch s p f).comp = s.comp := rfl
@[simp] theorem modTouch_scan (s : State) (p : Nat) (f : TouchPort → TouchPort) : (modTouch s p f).scan = s.scan := rfl
@[simp] theorem modTouch_bank (s : State) (p : Nat) (f : TouchPort → TouchPort) : (modTouch s p f).bank = s.bank := rfl
@[simp] theorem modTouch_media (s : State) (p : Nat) (f : TouchPort → TouchPort) : (modTouch s p f).media = s.media := rfl
@[simp] theorem modTouch_head (s : State) (p : Nat) (f : TouchPort → TouchPort) : (modTouch s p f).head = s.head := rfl
@[simp] theorem modTouch_ptp (s : State) (p : Nat) (f : TouchPort → TouchPort) : (modTouch s p f).ptp = s.ptp := rfl
@[simp] theorem modTouch_fabric (s : State) (p : Nat) (f : TouchPort → TouchPort) : (modTouch s p f).fabric = s.fabric := rfl
@[simp] theorem modTouch_lane (s : State) (p : Nat) (f : TouchPort → TouchPort) : (modTouch s p f).lane = s.lane := rfl
@[simp] theorem modTouch_boot (s : State) (p : Nat) (f : TouchPort → TouchPort) : (modTouch s p f).boot = s.boot := rfl
@[simp] theorem modTouch_regs (s : State) (p : Nat) (f : TouchPort → TouchPort) : (modTouch s p f).regs = s.regs := rfl
@[simp] theorem modTouch_smb (s : State) (p : Nat) (f : TouchPort → TouchPort) : (modTouch s p f).smb = s.smb := rfl
@[simp] theorem modTouch_power (s : State) (p : Nat) (f : TouchPort → TouchPort) : (modTouch s p f).power = s.power := rfl
@[simp] theorem modTouch_weir (s : State) (p : Nat) (f : TouchPort → TouchPort) : (modTouch s p f).weir = s.weir := rfl
@[simp] theorem modTouch_gauge (s : State) (p : Nat) (f : TouchPort → TouchPort) : (modTouch s p f).gauge = s.gauge := rfl
@[simp] theorem modTouch_migr (s : State) (p : Nat) (f : TouchPort → TouchPort) : (modTouch s p f).migr = s.migr := rfl
@[simp] theorem modTouch_out (s : State) (p : Nat) (f : TouchPort → TouchPort) : (modTouch s p f).out = s.out := rfl
@[simp] theorem modTouch_free (s : State) (p : Nat) (f : TouchPort → TouchPort) : (modTouch s p f).free = s.free := rfl
@[simp] theorem modTouch_pending (s : State) (p : Nat) (f : TouchPort → TouchPort) : (modTouch s p f).pending = s.pending := rfl
@[simp] theorem modTouch_intakeLast (s : State) (p : Nat) (f : TouchPort → TouchPort) : (modTouch s p f).intakeLast = s.intakeLast := rfl

end Sys2Proof.Machine
end

