-- ==== Sys2Proof/Laws/Steady.lean ====
section
/-! SUPPORT. What replies, events, interrupts and denials do, said once: each is made of outputs, counts, pending vectors, the violation record, ring entries and writeback blocks, so it keeps every property that those keep. -/
namespace Sys2Proof.Machine
open Sys2Proof

/-- A property of states that the parts of a reply or an event keep. -/
structure Steady (P : State → Prop) : Prop where
  emit : ∀ s o, P s → P (emit s o)
  tod : ∀ s p f, P s → P (modTod s p f)
  noRoute : ∀ s n, P s → P { s with fabric := { s.fabric with noRoute := n } }
  vectors : ∀ s v, P s → P { s with regs := { s.regs with msixPending := v } }
  violation : ∀ s v, P s → P { s with weir := { s.weir with violation := v } }
  count : ∀ s g e c n, P s → P (bump s g e c n)
  rings : ∀ s i f, (∀ r, ringFixed (f r) = ringFixed r) → P s → P (modRings s i f)
  entry : ∀ s i r b, r = (getRings s i).rq ∨ r = (getRings s i).eq → r.space = true → P s → P (writeBytes s (repAddr r) (bytesLE 32 b))
  block : ∀ s i x, (getRings s i).wbSpace = true → P s → P (writeBytes s (getRings s i).wbAddr (bytesLE 64 x))

variable {P : State → Prop} {s : State}

/-- A fold of steps that keep a property. -/
theorem Steady.forEach {α : Type} {f : α → State → State} (hf : ∀ a t, P t → P (f a t)) (l : List α) (h : P s) : P (forEach l f s) := by
  unfold Machine.forEach
  induction l generalizing s with
  | nil => exact h
  | cons a l ih => exact ih (hf a s h)

theorem Steady.sendBlocks (k : Steady P) (p : Nat) (l : List (Nat × List Byte)) (h : P s) : P (sendBlocks s p l) := by
  unfold Machine.sendBlocks; generalize putBlocks (getTod s p) l = r; cases r
  exact k.emit _ _ (k.tod _ _ _ h)

theorem Steady.sendPkt (k : Steady P) (p : Nat) (q : Pkt) (h : P s) : P (sendPkt s p q) := by
  unfold Machine.sendPkt; dsimp only; split
  · exact k.sendBlocks _ _ (k.emit _ _ h)
  · exact k.tod _ _ _ (k.sendBlocks _ _ (k.emit _ _ h))

theorem Steady.routePkt (k : Steady P) (a : Option Nat) (p : Pkt) (h : P s) : P (routePkt s a p) := by
  refine Steady.forEach (fun q t ht => k.sendPkt q p ht) _ ?_
  unfold countUnrouted; split
  · exact k.noRoute _ _ h
  · exact h

theorem Steady.raiseEntry (k : Steady P) (e : Nat) (h : P s) : P (raiseEntry s e) := by
  unfold Machine.raiseEntry; split
  · exact k.routePkt _ _ h
  · split
    · exact k.emit _ _ h
    · exact k.vectors _ _ h

theorem Steady.writeback (k : Steady P) (i : Nat) (h : P s) : P (writeback s i) := by
  unfold Machine.writeback; dsimp only; split
  · unfold ringWrite; split
    · rename_i hw; exact k.block _ _ _ hw h
    · exact k.emit _ _ h
  · exact h

theorem Steady.ringInterrupt (k : Steady P) (i : Nat) (e : Bool) (h : P s) : P (ringInterrupt s i e) := by
  unfold Machine.ringInterrupt
  cases e <;> simp only [Bool.false_eq_true, if_false, if_true] <;> split
  iterate 2
    · exact k.rings _ _ _ (fun _ => rfl) h
    · exact k.raiseEntry _ (k.rings _ _ _ (fun _ => rfl) h)

theorem Steady.pushEntry (k : Steady P) (i : Nat) (e : Bool) (b : Nat) (h : P s) : P (pushEntry s i e b) := by
  unfold Machine.pushEntry; dsimp only
  refine k.ringInterrupt _ _ (k.writeback _ (k.rings _ _ _ (fun r => by cases e <;> rfl) ?_))
  generalize hr : (if e = true then (getRings s i).eq else (getRings s i).rq) = r
  split
  · rename_i hs; exact k.entry s i _ b (by cases e <;> simp at hr <;> simp [hr]) hs h
  · exact h

theorem Steady.pushEvent (k : Steady P) (i b : Nat) (h : P s) : P (pushEvent s i b) := k.pushEntry _ _ _ (k.emit _ _ h)

theorem Steady.loseEvent (k : Steady P) (i b : Nat) (h : P s) : P (loseEvent s i b) :=
  k.count _ _ _ _ _ (k.rings _ _ _ (fun _ => rfl) h)

theorem Steady.flushLost (k : Steady P) (i : Nat) (h : P s) : P (flushLost s i) := by
  unfold Machine.flushLost; dsimp only; split
  · exact k.pushEvent _ _ (k.rings _ _ _ (fun _ => rfl) h)
  · exact h

theorem Steady.rawPost (k : Steady P) (i b : Nat) (h : P s) : P (rawPost s i b) := by
  unfold Machine.rawPost; dsimp only; split
  · exact k.pushEvent _ _ (k.flushLost _ h)
  · exact k.loseEvent _ _ (k.flushLost _ h)

/-- A way of posting keeps a property. -/
abbrev Posts (P : State → Prop) (p : State → Nat → State) : Prop := ∀ s b, P s → P (p s b)

theorem Steady.recordDenialBy (k : Steady P) {p : State → Nat → State} (hp : Posts P p) (v : Violation) (h : P s) :
    P (recordDenialBy p s v) := by
  unfold Machine.recordDenialBy; split
  · exact hp _ _ (k.violation _ _ h)
  · exact k.violation _ _ h

/-- Stopping the reply ring, the event ring or the writeback block (R64). -/
theorem Steady.stopRing (k : Steady P) (i w : Nat) (hw : 4 ≤ w) (h : P s) : P (stopRing s i w) := by
  refine k.rings _ _ _ (fun r => ?_) h
  rw [if_neg (by omega)]; split
  · rfl
  · split <;> rfl

theorem Steady.stopDenied (k : Steady P) {p q : State → Nat → State} (hp : Posts P p) (hq : Posts P q) (i w x a : Nat) (d : Nat × Nat)
    (hw : 4 ≤ w) (h : P s) : P (stopDenied p q s i w x a d) :=
  hq _ _ (k.recordDenialBy hp _ (k.stopRing _ _ hw h))

theorem Steady.guardWriteback (k : Steady P) {p q : State → Nat → State} (hp : Posts P p) (hq : Posts P q) (i : Nat) (h : P s) :
    P (guardWriteback p q s i) := by
  unfold Machine.guardWriteback; dsimp only; split
  · split
    · exact k.stopDenied hp hq _ _ _ _ _ (by omega) h
    · exact h
  · exact h

theorem Steady.guardRing (k : Steady P) {p q : State → Nat → State} (hp : Posts P p) (hq : Posts P q) (i w : Nat) (hw : 4 ≤ w) (h : P s) :
    P (guardRing p q s i w) := by
  unfold Machine.guardRing; dsimp only
  generalize (if w = 5 then (getRings s i).eq else (getRings s i).rq) = r
  split
  · split
    · exact k.stopDenied hp hq _ _ _ _ _ hw h
    · exact h
  · exact h

theorem Steady.lastPost (k : Steady P) : Posts P lastPost := fun _ b h => k.rawPost 0 b h

theorem Steady.ownPost (k : Steady P) : Posts P ownPost := fun _ _ h =>
  k.lastPost _ _ (k.guardRing k.lastPost k.lastPost _ _ (by omega) h)

theorem Steady.managerPost (k : Steady P) : Posts P managerPost := fun _ _ h =>
  k.ownPost _ _ (k.guardWriteback k.ownPost k.ownPost _ h)

theorem Steady.slicePost (k : Steady P) (i b : Nat) (h : P s) : P (slicePost s i b) :=
  k.rawPost _ _ (k.guardRing k.managerPost k.managerPost _ _ (by omega) h)

theorem Steady.errorPost (k : Steady P) (i : Nat) : Posts P (errorPost i) := by
  intro s b h; unfold Machine.errorPost; split
  · exact k.slicePost _ _ h
  · exact k.ownPost _ _ h

theorem Steady.guardWb (k : Steady P) (i : Nat) (h : P s) : P (guardWb s i) := k.guardWriteback k.managerPost (k.errorPost i) _ h

theorem Steady.guardEvent (k : Steady P) (i : Nat) (h : P s) : P (guardEvent s i) := by
  unfold Machine.guardEvent; split
  · exact k.guardRing k.lastPost k.lastPost _ _ (by omega) (k.guardWriteback k.ownPost k.ownPost _ h)
  · exact k.guardRing k.managerPost k.managerPost _ _ (by omega) (k.guardWb _ h)

/-- An event keeps what is steady (R80). -/
theorem Steady.postEvent (k : Steady P) (i b : Nat) (h : P s) : P (postEvent s i b) := k.rawPost _ _ (k.guardEvent _ h)

theorem Steady.post (k : Steady P) (i c : Nat) (f : List Field) (h : P s) : P (post s i c f) := k.postEvent _ _ h

theorem Steady.postRingError (k : Steady P) (i w r x a : Nat) (h : P s) : P (postRingError s i w r x a) := by
  unfold Machine.postRingError; dsimp only; split
  · split
    · exact k.loseEvent _ _ h
    · split
      · exact k.postEvent _ _ h
      · exact k.loseEvent _ _ h
  · exact k.postEvent _ _ h

theorem Steady.pushReply (k : Steady P) (i : Nat) (r : Reply) (h : P s) : P (pushReply s i r) := k.pushEntry _ _ _ (k.emit _ _ h)

theorem Steady.guardReply (k : Steady P) (i : Nat) (h : P s) : P (guardReply s i) :=
  k.guardRing k.managerPost (k.errorPost i) _ _ (by omega) (k.guardWb _ h)

/-- A reply keeps what is steady (R76). -/
theorem Steady.sendReply (k : Steady P) (i : Nat) (r : Reply) (h : P s) : P (sendReply s i r) := by
  unfold Machine.sendReply; dsimp only; split
  · exact k.pushReply _ _ (k.guardReply _ h)
  · exact k.rings _ _ _ (fun _ => rfl) (k.guardReply _ h)

theorem Steady.flushReplies (k : Steady P) (n i : Nat) (h : P s) : P (flushReplies n i s) := by
  induction n generalizing s with
  | zero => exact h
  | succ n ih =>
    unfold Machine.flushReplies; dsimp only
    have hg := k.guardReply i h
    split
    · exact hg
    · split
      · exact ih (k.pushReply _ _ (k.rings _ _ _ (fun _ => rfl) hg))
      · exact hg

theorem Steady.flushWaiting (k : Steady P) (i : Nat) (h : P s) : P (flushWaiting s i) := k.flushReplies _ _ h

/-- A recorded denial keeps what is steady (R373). -/
theorem Steady.recordDenial (k : Steady P) (v : Violation) (h : P s) : P (recordDenial s v) := k.recordDenialBy k.managerPost v h

theorem Steady.denyAt (k : Steady P) (i e : Nat) (w : Bool) (r a : Nat) (h : P s) : P (denyAt s i e w r a) := k.recordDenial _ h

theorem Steady.denyStale (k : Steady P) (i e b hd : Nat) (h : P s) : P (denyStale s i e b hd) := k.recordDenial _ h

/-! The properties that are steady. -/

/-- What quiet keeps. -/
theorem steady_quiet (e : State) : Steady fun t => quiet t = quiet e :=
  ⟨fun _ _ h => h, fun _ _ _ h => h, fun _ _ h => h, fun _ _ h => h, fun _ _ h => h, fun _ _ _ _ _ h => h, fun _ _ _ _ h => h,
    fun _ _ _ _ _ _ h => h, fun _ _ _ _ h => h⟩

/-- An output that has been made stays made. -/
theorem steady_out (o : Output) : Steady fun t => o ∈ t.out :=
  ⟨fun _ _ h => List.mem_append_left _ h, fun _ _ _ h => h, fun _ _ h => h, fun _ _ h => h, fun _ _ h => h, fun _ _ _ _ _ h => h,
    fun _ _ _ _ h => h, fun _ _ _ _ _ _ h => h, fun _ _ _ _ h => h⟩

end Sys2Proof.Machine
end

