-- ==== Sys2Proof/Laws/Tab.lean ====
section
/-! SUPPORT. The laws of indexed state: reading after a write, the canonical form that every write keeps, and folds that keep what each step keeps. -/
namespace Sys2Proof.Machine
open Sys2Proof

section
variable {α : Type}

/-- Putting an entry does not disturb another index. -/
theorem tget_tput_ne (d : α) (i j : Nat) (x : α) (h : j ≠ i) : ∀ t : Tab α, tget d (tput i x t) j = tget d t j
  | [] => by simp [tput, tget, h]
  | (k, v) :: r => by
    simp only [tput]
    split
    · simp [tget, h]
    · simp [tget, tget_tput_ne d i j x h r]

/-- An entry put where the table lists none is the one that is read. -/
theorem tget_tput_eq (d : α) (i : Nat) (x : α) : ∀ t : Tab α, (∀ e ∈ t, e.1 ≠ i) → tget d (tput i x t) i = x
  | [], _ => by simp [tput, tget]
  | (k, v) :: r, h => by
    have hk : i ≠ k := fun e => h (k, v) (by simp) e.symm
    simp only [tput]
    split
    · simp [tget]
    · simp only [tget, hk, if_false]
      exact tget_tput_eq d i x r (fun e he => h e (by simp [he]))

/-- Dropping an index does not disturb another. -/
theorem tget_filter_ne (d : α) (i j : Nat) (h : j ≠ i) : ∀ t : Tab α, tget d (t.filter fun e => e.1 != i) j = tget d t j
  | [] => rfl
  | (k, v) :: r => by
    by_cases hk : k = i
    · subst hk; simp [tget, h, tget_filter_ne d k j h r]
    · simp [tget, hk, tget_filter_ne d i j h r]

/-- A dropped index reads as the default. -/
theorem tget_filter_eq (d : α) (i : Nat) : ∀ t : Tab α, tget d (t.filter fun e => e.1 != i) i = d
  | [] => rfl
  | (k, v) :: r => by
    by_cases hk : k = i
    · subst hk; simp [tget_filter_eq d k r]
    · simp [hk, tget, Ne.symm hk, tget_filter_eq d i r]

variable [DecidableEq α]

/-- An index reads what was set there. -/
@[simp] theorem tget_tset_eq (d : α) (t : Tab α) (i : Nat) (x : α) : tget d (tset d t i x) i = x := by
  unfold tset
  by_cases hx : x = d
  · simp [hx, tget_filter_eq]
  · simp only [hx, if_false]
    exact tget_tput_eq d i x _ (by simp)

/-- Every other index reads as before. -/
theorem tget_tset_ne (d : α) (t : Tab α) {i j : Nat} (x : α) (h : j ≠ i) : tget d (tset d t i x) j = tget d t j := by
  unfold tset
  by_cases hx : x = d
  · simp [hx, tget_filter_ne d i j h]
  · simp [hx, tget_tput_ne d i j x h, tget_filter_ne d i j h]

/-- Reading after a write. -/
theorem tget_tset (d : α) (t : Tab α) (i j : Nat) (x : α) : tget d (tset d t i x) j = if j = i then x else tget d t j := by
  by_cases h : j = i
  · subst h; simp
  · simp [h, tget_tset_ne d t x h]

/-- An index reads the changed value. -/
@[simp] theorem tget_tmod_eq (d : α) (t : Tab α) (i : Nat) (f : α → α) : tget d (tmod d t i f) i = f (tget d t i) := by
  simp [tmod]

/-- A change leaves every other index. -/
theorem tget_tmod_ne (d : α) (t : Tab α) {i j : Nat} (f : α → α) (h : j ≠ i) : tget d (tmod d t i f) j = tget d t j :=
  tget_tset_ne d t _ h

/-- Reading after a change. -/
theorem tget_tmod (d : α) (t : Tab α) (i j : Nat) (f : α → α) :
    tget d (tmod d t i f) j = if j = i then f (tget d t i) else tget d t j := tget_tset d t i j _

/-- The canonical form, entry by entry: an entry is no default and lies before every later one. -/
theorem tabWf_cons (d : α) (k : Nat) (v : α) (r : Tab α) :
    tabWf d ((k, v) :: r) = true ↔ v ≠ d ∧ (∀ e ∈ r, k < e.1) ∧ tabWf d r = true := by
  induction r generalizing k v with
  | nil => simp [tabWf]
  | cons e r ih =>
    obtain ⟨k', v'⟩ := e
    have h := ih k' v'
    simp only [tabWf, Bool.and_eq_true, decide_eq_true_eq, List.mem_cons, forall_eq_or_imp]
    constructor
    · rintro ⟨⟨a, b⟩, c⟩
      exact ⟨a, ⟨b, fun e he => Nat.lt_trans b ((h.1 c).2.1 e he)⟩, c⟩
    · rintro ⟨a, ⟨b, _⟩, c⟩
      exact ⟨⟨a, b⟩, c⟩

/-- Dropping entries keeps the canonical form. -/
theorem tabWf_filter (d : α) (p : Nat × α → Bool) : ∀ t : Tab α, tabWf d t = true → tabWf d (t.filter p) = true
  | [], _ => rfl
  | (k, v) :: r, h => by
    obtain ⟨a, b, c⟩ := (tabWf_cons d k v r).1 h
    by_cases hp : p (k, v) = true
    · simp only [List.filter_cons, hp, if_true]
      refine (tabWf_cons d k v _).2 ⟨a, fun e he => b e (List.mem_filter.1 he).1, tabWf_filter d p r c⟩
    · simp only [List.filter_cons, hp]
      exact tabWf_filter d p r c

omit [DecidableEq α] in
/-- What tput lists. -/
theorem mem_tput (i : Nat) (x : α) (e : Nat × α) : ∀ t : Tab α, e ∈ tput i x t → e = (i, x) ∨ e ∈ t
  | [], h => by simpa [tput] using h
  | (k, v) :: r, h => by
    simp only [tput] at h
    split at h
    · simpa using h
    · rcases List.mem_cons.1 h with h | h
      · exact .inr (by simp [h])
      · rcases mem_tput i x e r h with h | h
        · exact .inl h
        · exact .inr (by simp [h])

/-- Putting a value that is no default at an index the table does not list keeps the canonical form. -/
theorem tabWf_tput (d : α) (i : Nat) (x : α) (hx : x ≠ d) :
    ∀ t : Tab α, (∀ e ∈ t, e.1 ≠ i) → tabWf d t = true → tabWf d (tput i x t) = true
  | [], _, _ => by simp [tput, tabWf, hx]
  | (k, v) :: r, hn, h => by
    obtain ⟨a, b, c⟩ := (tabWf_cons d k v r).1 h
    have hk : k ≠ i := hn (k, v) (by simp)
    simp only [tput]
    split
    · rename_i hlt
      refine (tabWf_cons d i x _).2 ⟨hx, ?_, h⟩
      intro e he
      rcases List.mem_cons.1 he with he | he
      · simp [he, hlt]
      · exact Nat.lt_trans hlt (b e he)
    · rename_i hge
      refine (tabWf_cons d k v _).2 ⟨a, ?_, tabWf_tput d i x hx r (fun e he => hn e (by simp [he])) c⟩
      intro e he
      rcases mem_tput i x e r he with he | he
      · simp only [he]; omega
      · exact b e he

/-- Every write keeps the canonical form. -/
theorem tabWf_tset (d : α) (t : Tab α) (i : Nat) (x : α) (h : tabWf d t = true) : tabWf d (tset d t i x) = true := by
  unfold tset
  by_cases hx : x = d
  · simpa [hx] using tabWf_filter d _ t h
  · simpa [hx] using tabWf_tput d i x hx _ (by simp) (tabWf_filter d _ t h)

/-- Every change keeps the canonical form. -/
theorem tabWf_tmod (d : α) (t : Tab α) (i : Nat) (f : α → α) (h : tabWf d t = true) : tabWf d (tmod d t i f) = true :=
  tabWf_tset d t i _ h

end

/-- What each step of a fold keeps, the fold keeps. -/
theorem foldl_keeps {α β : Type} (P : β → Prop) (f : β → α → β) (h : ∀ b a, P b → P (f b a)) :
    ∀ (l : List α) (b : β), P b → P (l.foldl f b)
  | [], _, hb => hb
  | a :: l, b, hb => foldl_keeps P f h l (f b a) (h b a hb)

/-- What each step keeps, forEach keeps. -/
theorem forEach_keeps {α : Type} (P : State → Prop) (l : List α) (f : α → State → State) (s : State)
    (h : ∀ a s, P s → P (f a s)) (hs : P s) : P (forEach l f s) :=
  foldl_keeps P (fun s a => f a s) (fun s a hs => h a s hs) l s hs

/-- A value that no step of forEach changes. -/
theorem forEach_same {α β : Type} (g : State → β) (l : List α) (f : α → State → State) (s : State)
    (h : ∀ a s, g (f a s) = g s) : g (forEach l f s) = g s :=
  forEach_keeps (fun t => g t = g s) l f s (fun a t ht => (h a t).trans ht) rfl

/-- Writing bytes keeps the memory's canonical form. -/
theorem memWrite_wf : ∀ (l : List Byte) (m : List (Nat × Byte)) (a : Nat), Memory.wf m → Memory.wf (memWrite m a l)
  | [], _, _, h => h
  | b :: r, m, a, h => memWrite_wf r (tset 0 m a b) (a + 1) (tabWf_tset 0 m a b h)

/-- A byte after bytes are written: the byte written there, or the byte before. -/
theorem tget_memWrite : ∀ (l : List Byte) (m : List (Nat × Byte)) (a x : Nat),
    tget 0 (memWrite m a l) x = if a ≤ x ∧ x < a + l.length then l.getD (x - a) 0 else tget 0 m x
  | [], m, a, x => by simp only [memWrite, List.length_nil]; rw [if_neg (by omega)]
  | b :: r, m, a, x => by
    rw [memWrite, tget_memWrite r, tget_tset]
    simp only [List.length_cons]
    by_cases hx : x = a
    · subst hx; rw [if_neg (by omega), if_pos rfl, if_pos (by omega)]; simp
    · rw [if_neg hx]
      by_cases h2 : a + 1 ≤ x ∧ x < a + 1 + r.length
      · rw [if_pos h2, if_pos (by omega)]
        obtain ⟨n, rfl⟩ : ∃ n, x = a + 1 + n := ⟨x - (a + 1), by omega⟩
        rw [show a + 1 + n - a = n + 1 from by omega, show a + 1 + n - (a + 1) = n from by omega]
        simp
      · rw [if_neg h2, if_neg (by omega)]

/-- Nothing else of the store is written: a byte outside the range reads as before. -/
theorem readByte_writeBytes_ne (s : State) (a : Nat) (l : List Byte) (x : Nat) (h : x < a ∨ a + l.length ≤ x) :
    readByte (writeBytes s a l) x = readByte s x := by
  simp only [readByte, writeBytes]
  rw [tget_memWrite, if_neg]
  rw [List.length_take]
  omega

/-- A byte written below the store's end reads back. -/
theorem readByte_writeBytes_eq (s : State) (a : Nat) (l : List Byte) (i : Nat) (h : i < l.length) (hb : a + i < storeEnd) :
    readByte (writeBytes s a l) (a + i) = l.getD i 0 := by
  simp only [readByte, writeBytes]
  rw [tget_memWrite, if_pos (by rw [List.length_take]; omega)]
  rw [show a + i - a = i from by omega]
  simp only [List.getD_eq_getElem?_getD, List.getElem?_take]
  rw [if_pos (by omega)]

end Sys2Proof.Machine
end

