-- ==== Sys2Proof/Laws/Ops.lean ====
section
/-! SUPPORT. What replies, events, interrupts, denials and the end of a command leave alone: quiet says it once for each shared operation. -/
namespace Sys2Proof.Machine
open Sys2Proof

@[simp] theorem quiet_quiet (s : State) : quiet (quiet s) = quiet s := rfl
@[simp] theorem quiet_emit (s : State) (o : Output) : quiet (emit s o) = quiet s := rfl
@[simp] theorem quiet_modRings (s : State) (i : Nat) (f : SliceRings → SliceRings) : quiet (modRings s i f) = quiet s := rfl
@[simp] theorem quiet_writeBytes (s : State) (a : Nat) (l : List Byte) : quiet (writeBytes s a l) = quiet s := rfl
@[simp] theorem quiet_bump (s : State) (g e c n : Nat) : quiet (bump s g e c n) = quiet s := rfl
@[simp] theorem quiet_modTod (s : State) (p : Nat) (f : TodPort → TodPort) : quiet (modTod s p f) = quiet s := rfl
@[simp] theorem quiet_modHeld (s : State) (k : CmdKey) (f : Held → Held) : quiet (modHeld s k f) = quiet s := rfl
@[simp] theorem quiet_modTag (s : State) (i r t : Nat) (f : TagRec → Option TagRec) : quiet (modTag s i r t f) = quiet s := rfl
@[simp] theorem quiet_dropHeld (s : State) (k : CmdKey) : quiet (dropHeld s k) = quiet s := rfl
@[simp] theorem quiet_holdOn (s : State) (h : Held) : quiet (holdOn s h) = quiet s := rfl
@[simp] theorem quiet_stopRing (s : State) (i w : Nat) : quiet (stopRing s i w) = quiet s := rfl
@[simp] theorem quiet_loseEvent (s : State) (i b : Nat) : quiet (loseEvent s i b) = quiet s := rfl

/-- A fold of steps that quiet does not see. -/
theorem quiet_forEach {α : Type} (l : List α) (f : α → State → State) (s : State) (h : ∀ a s, quiet (f a s) = quiet s) :
    quiet (forEach l f s) = quiet s := forEach_same quiet l f s h

@[simp] theorem quiet_ringWrite (s : State) (i : Nat) (b : Bool) (a : Nat) (l : List Byte) : quiet (ringWrite s i b a l) = quiet s := by
  unfold ringWrite; split <;> rfl

/-! Packets, replies, events, interrupts and denials leave all that quiet keeps. -/

@[simp] theorem quiet_sendPkt (s : State) (p : Nat) (q : Pkt) : quiet (sendPkt s p q) = quiet s := (steady_quiet s).sendPkt p q rfl
@[simp] theorem quiet_routePkt (s : State) (a : Option Nat) (p : Pkt) : quiet (routePkt s a p) = quiet s := (steady_quiet s).routePkt a p rfl
@[simp] theorem quiet_raiseEntry (s : State) (e : Nat) : quiet (raiseEntry s e) = quiet s := (steady_quiet s).raiseEntry e rfl
@[simp] theorem quiet_writeback (s : State) (i : Nat) : quiet (writeback s i) = quiet s := (steady_quiet s).writeback i rfl
@[simp] theorem quiet_ringInterrupt (s : State) (i : Nat) (e : Bool) : quiet (ringInterrupt s i e) = quiet s := (steady_quiet s).ringInterrupt i e rfl
@[simp] theorem quiet_pushEntry (s : State) (i : Nat) (e : Bool) (b : Nat) : quiet (pushEntry s i e b) = quiet s := (steady_quiet s).pushEntry i e b rfl
@[simp] theorem quiet_pushEvent (s : State) (i b : Nat) : quiet (pushEvent s i b) = quiet s := (steady_quiet s).pushEvent i b rfl
@[simp] theorem quiet_flushLost (s : State) (i : Nat) : quiet (flushLost s i) = quiet s := (steady_quiet s).flushLost i rfl
@[simp] theorem quiet_rawPost (s : State) (i b : Nat) : quiet (rawPost s i b) = quiet s := (steady_quiet s).rawPost i b rfl
@[simp] theorem quiet_postEvent (s : State) (i b : Nat) : quiet (postEvent s i b) = quiet s := (steady_quiet s).postEvent i b rfl
@[simp] theorem quiet_post (s : State) (i c : Nat) (f : List Field) : quiet (post s i c f) = quiet s := (steady_quiet s).post i c f rfl
@[simp] theorem quiet_postRingError (s : State) (i w r x a : Nat) : quiet (postRingError s i w r x a) = quiet s := (steady_quiet s).postRingError i w r x a rfl
@[simp] theorem quiet_pushReply (s : State) (i : Nat) (r : Reply) : quiet (pushReply s i r) = quiet s := (steady_quiet s).pushReply i r rfl
@[simp] theorem quiet_guardReply (s : State) (i : Nat) : quiet (guardReply s i) = quiet s := (steady_quiet s).guardReply i rfl
@[simp] theorem quiet_sendReply (s : State) (i : Nat) (r : Reply) : quiet (sendReply s i r) = quiet s := (steady_quiet s).sendReply i r rfl
@[simp] theorem quiet_flushWaiting (s : State) (i : Nat) : quiet (flushWaiting s i) = quiet s := (steady_quiet s).flushWaiting i rfl
@[simp] theorem quiet_recordDenial (s : State) (v : Violation) : quiet (recordDenial s v) = quiet s := (steady_quiet s).recordDenial v rfl
@[simp] theorem quiet_denyAt (s : State) (i e : Nat) (w : Bool) (r a : Nat) : quiet (denyAt s i e w r a) = quiet s := (steady_quiet s).denyAt i e w r a rfl
@[simp] theorem quiet_denyStale (s : State) (i e b h : Nat) : quiet (denyStale s i e b h) = quiet s := (steady_quiet s).denyStale i e b h rfl

/-- The end of a command leaves all that quiet keeps. -/
@[simp] theorem quiet_finish (s : State) (h : Held) (st : Status) (w d : Nat) : quiet (finish s h st w d) = quiet s := by
  unfold finish; dsimp only; split <;> simp

@[simp] theorem quiet_finishNow (s : State) (h : Held) (st : Status) (f : List Field) : quiet (finishNow s h st f) = quiet s := by
  simp [finishNow]

@[simp] theorem quiet_finishKey (s : State) (k : CmdKey) (st : Status) (w : Nat) (f : List Field) :
    quiet (finishKey s k st w f) = quiet s := by
  unfold finishKey; split <;> simp

@[simp] theorem quiet_defer (s : State) (h : Held) (f : List Field) : quiet (defer s h f) = quiet s := by simp [defer]

@[simp] theorem quiet_armPacket (s : State) (h : Held) : quiet (armPacket s h) = quiet s := by
  unfold armPacket; split <;> simp

/-! What quiet keeps, field by field. -/

@[simp] theorem quiet_time (s : State) : (quiet s).time = s.time := rfl
@[simp] theorem quiet_ledger (s : State) : (quiet s).ledger = s.ledger := rfl
@[simp] theorem quiet_slices (s : State) : (quiet s).slices = s.slices := rfl
@[simp] theorem quiet_sluice (s : State) : (quiet s).sluice = s.sluice := rfl
@[simp] theorem quiet_comp (s : State) : (quiet s).comp = s.comp := rfl
@[simp] theorem quiet_scan (s : State) : (quiet s).scan = s.scan := rfl
@[simp] theorem quiet_bank (s : State) : (quiet s).bank = s.bank := rfl
@[simp] theorem quiet_media (s : State) : (quiet s).media = s.media := rfl
@[simp] theorem quiet_head (s : State) : (quiet s).head = s.head := rfl
@[simp] theorem quiet_ptp (s : State) : (quiet s).ptp = s.ptp := rfl
@[simp] theorem quiet_lane (s : State) : (quiet s).lane = s.lane := rfl
@[simp] theorem quiet_io (s : State) : (quiet s).io = s.io := rfl
@[simp] theorem quiet_smb (s : State) : (quiet s).smb = s.smb := rfl
@[simp] theorem quiet_power (s : State) : (quiet s).power = s.power := rfl
@[simp] theorem quiet_gauge (s : State) : (quiet s).gauge = s.gauge := rfl
@[simp] theorem quiet_migr (s : State) : (quiet s).migr = s.migr := rfl
@[simp] theorem quiet_free (s : State) : (quiet s).free = s.free := rfl
@[simp] theorem quiet_pending (s : State) : (quiet s).pending = s.pending := rfl
@[simp] theorem quiet_surfs (s : State) : (quiet s).store.surfs = s.store.surfs := rfl
@[simp] theorem quiet_rules (s : State) : (quiet s).weir.rules = s.weir.rules := rfl

/-- A field that quiet keeps is the same in two states that quiet does not tell apart. -/
theorem quiet_eq {α : Type} (g : State → α) (hg : ∀ s, g (quiet s) = g s) {s t : State} (h : quiet t = quiet s) : g t = g s := by
  rw [← hg t, h, hg s]

/-! quiet and the named updates. -/

@[simp] theorem quiet_modAud (s : State) (n : Nat) (f : AudStream → AudStream) : quiet (modAud s n f) = modAud (quiet s) n f := rfl
@[simp] theorem quiet_modAudio (s : State) (f : AudioSt → AudioSt) : quiet (modAudio s f) = modAudio (quiet s) f := rfl
@[simp] theorem quiet_modBank (s : State) (i : Nat) (f : Bank → Bank) : quiet (modBank s i f) = modBank (quiet s) i f := rfl
@[simp] theorem quiet_modCarry (s : State) (o : Nat) (f : Carry → Carry) : quiet (modCarry s o f) = modCarry (quiet s) o f := rfl
@[simp] theorem quiet_modClock (s : State) (p : Nat) (f : PtpClock → PtpClock) : quiet (modClock s p f) = modClock (quiet s) p f := rfl
@[simp] theorem quiet_modCtx (s : State) (i : Nat) (f : DecCtx → DecCtx) : quiet (modCtx s i f) = modCtx (quiet s) i f := rfl
@[simp] theorem quiet_modCur (s : State) (i : Nat) (f : ImpPass → ImpPass) : quiet (modCur s i f) = modCur (quiet s) i f := rfl
@[simp] theorem quiet_modDp (s : State) (i : Nat) (f : DpIn → DpIn) : quiet (modDp s i f) = modDp (quiet s) i f := rfl
@[simp] theorem quiet_modEntry (s : State) (i : Nat) (f : LedgerEntry → LedgerEntry) : quiet (modEntry s i f) = modEntry (quiet s) i f := rfl
@[simp] theorem quiet_modEvt (s : State) (i : Nat) (f : EvtIn → EvtIn) : quiet (modEvt s i f) = modEvt (quiet s) i f := rfl
@[simp] theorem quiet_modExport (s : State) (n : Nat) (f : Export → Export) : quiet (modExport s n f) = modExport (quiet s) n f := rfl
@[simp] theorem quiet_modHap (s : State) (c : Nat) (f : HapChan → HapChan) : quiet (modHap s c f) = modHap (quiet s) c f := rfl
@[simp] theorem quiet_modImport (s : State) (i : Nat) (f : Import → Import) : quiet (modImport s i f) = modImport (quiet s) i f := rfl
@[simp] theorem quiet_modKey (s : State) (n : Nat) (f : KeyObj → KeyObj) : quiet (modKey s n f) = modKey (quiet s) n f := rfl
@[simp] theorem quiet_modKeys (s : State) (f : KeysSt → KeysSt) : quiet (modKeys s f) = modKeys (quiet s) f := rfl
@[simp] theorem quiet_modLane (s : State) (p : Nat) (f : RefEntry → RefEntry) : quiet (modLane s p f) = modLane (quiet s) p f := rfl
@[simp] theorem quiet_modOut (s : State) (i : Nat) (f : OutputSt → OutputSt) : quiet (modOut s i f) = modOut (quiet s) i f := rfl
@[simp] theorem quiet_modPort (s : State) (i : Nat) (f : EthPort → EthPort) : quiet (modPort s i f) = modPort (quiet s) i f := rfl
@[simp] theorem quiet_modPtp (s : State) (p : Nat) (f : PtpPort → PtpPort) : quiet (modPtp s p f) = modPtp (quiet s) p f := rfl
@[simp] theorem quiet_modQueue (s : State) (i : Nat) (f : HostQueue → HostQueue) : quiet (modQueue s i f) = modQueue (quiet s) i f := rfl
@[simp] theorem quiet_modRect (s : State) (i : Nat) (f : Rect → Rect) : quiet (modRect s i f) = modRect (quiet s) i f := rfl
@[simp] theorem quiet_modRef (s : State) (n : Nat) (f : RefEntry → RefEntry) : quiet (modRef s n f) = modRef (quiet s) n f := rfl
@[simp] theorem quiet_modRule (s : State) (i : Nat) (f : FlowRule → FlowRule) : quiet (modRule s i f) = modRule (quiet s) i f := rfl
@[simp] theorem quiet_modSession (s : State) (i : Nat) (f : Session → Session) : quiet (modSession s i f) = modSession (quiet s) i f := rfl
@[simp] theorem quiet_modSlice (s : State) (i : Nat) (f : Slice → Slice) : quiet (modSlice s i f) = modSlice (quiet s) i f := rfl
@[simp] theorem quiet_modSlot (s : State) (i : Nat) (f : Slot → Slot) : quiet (modSlot s i f) = modSlot (quiet s) i f := rfl
@[simp] theorem quiet_modStream (s : State) (i : Nat) (f : RtpStream → RtpStream) : quiet (modStream s i f) = modStream (quiet s) i f := rfl
@[simp] theorem quiet_modSurf (s : State) (i : Nat) (f : Surface → Surface) : quiet (modSurf s i f) = modSurf (quiet s) i f := rfl
@[simp] theorem quiet_modTone (s : State) (n : Nat) (f : Tone → Tone) : quiet (modTone s n f) = modTone (quiet s) n f := rfl
@[simp] theorem quiet_modTouch (s : State) (p : Nat) (f : TouchPort → TouchPort) : quiet (modTouch s p f) = modTouch (quiet s) p f := rfl
@[simp] theorem quiet_modTransit (s : State) (k : Nat) (f : Transit → Transit) : quiet (modTransit s k f) = modTransit (quiet s) k f := rfl

/-! Named access after named changes. -/

@[simp] theorem getSlice_modSlice (s : State) (i j : Nat) (f : Slice → Slice) :
    getSlice (modSlice s i f) j = if j = i then f (getSlice s i) else getSlice s j := tget_tmod _ _ _ _ _
@[simp] theorem getRings_modRings (s : State) (i j : Nat) (f : SliceRings → SliceRings) :
    getRings (modRings s i f) j = if j = i then f (getRings s i) else getRings s j := tget_tmod _ _ _ _ _
@[simp] theorem getEntry_modEntry (s : State) (i j : Nat) (f : LedgerEntry → LedgerEntry) :
    getEntry (modEntry s i f) j = if j = i then f (getEntry s i) else getEntry s j := tget_tmod _ _ _ _ _
@[simp] theorem getSurf_modSurf (s : State) (i j : Nat) (f : Surface → Surface) :
    getSurf (modSurf s i f) j = if j = i then f (getSurf s i) else getSurf s j := tget_tmod _ _ _ _ _
@[simp] theorem getSlot_modSlot (s : State) (i j : Nat) (f : Slot → Slot) :
    getSlot (modSlot s i f) j = if j = i then f (getSlot s i) else getSlot s j := tget_tmod _ _ _ _ _
@[simp] theorem getOut_modOut (s : State) (i j : Nat) (f : OutputSt → OutputSt) :
    getOut (modOut s i f) j = if j = i then f (getOut s i) else getOut s j := tget_tmod _ _ _ _ _
@[simp] theorem getRect_modRect (s : State) (i j : Nat) (f : Rect → Rect) :
    getRect (modRect s i f) j = if j = i then f (getRect s i) else getRect s j := tget_tmod _ _ _ _ _
@[simp] theorem getBank_modBank (s : State) (i j : Nat) (f : Bank → Bank) :
    getBank (modBank s i f) j = if j = i then f (getBank s i) else getBank s j := tget_tmod _ _ _ _ _
@[simp] theorem getTod_modTod (s : State) (i j : Nat) (f : TodPort → TodPort) :
    getTod (modTod s i f) j = if j = i then f (getTod s i) else getTod s j := tget_tmod _ _ _ _ _

@[simp] theorem getRings_emit (s : State) (o : Output) (i : Nat) : getRings (emit s o) i = getRings s i := rfl
@[simp] theorem getRings_writeBytes (s : State) (a : Nat) (l : List Byte) (i : Nat) : getRings (writeBytes s a l) i = getRings s i := rfl
@[simp] theorem getRings_bump (s : State) (g e c n i : Nat) : getRings (bump s g e c n) i = getRings s i := rfl
@[simp] theorem getRings_modSlice (s : State) (j : Nat) (f : Slice → Slice) (i : Nat) : getRings (modSlice s j f) i = getRings s i := rfl
@[simp] theorem getSlice_modRings (s : State) (j : Nat) (f : SliceRings → SliceRings) (i : Nat) : getSlice (modRings s j f) i = getSlice s i := rfl
@[simp] theorem getSlice_emit (s : State) (o : Output) (i : Nat) : getSlice (emit s o) i = getSlice s i := rfl

/-! Held packets. -/

theorem findHeld_congr {s t : State} (k : CmdKey) (h : (getRings t k.slice).held = (getRings s k.slice).held) :
    findHeld t k = findHeld s k := by simp [findHeld, h]

/-- A dropped packet is held no more. -/
@[simp] theorem findHeld_dropHeld (s : State) (k : CmdKey) : findHeld (dropHeld s k) k = none := by
  simp only [findHeld, dropHeld, getRings_modRings, if_true, List.find?_eq_none]
  intro h hm
  have := (List.mem_filter.1 hm).2
  simp only [Bool.not_eq_true'] at this
  simp [this]

end Sys2Proof.Machine
end

