-- ==== Sys2Proof/Laws/Held.lean ====
section
/-! SUPPORT. What is fixed of the rings: replies, events, interrupts and denials take and drop no packet and move no head, and the end of a command drops exactly its own. -/
namespace Sys2Proof.Machine
open Sys2Proof

/-- What is fixed of the rings of every slice. -/
def fixedOf (s : State) : Nat → SliceRings := fun j => ringFixed (getRings s j)

theorem fixedOf_same {s t : State} (h : t.rings = s.rings) : fixedOf t = fixedOf s := by
  funext j; simp only [fixedOf, getRings, h]

/-- A change of rings that keeps what is fixed. -/
theorem fixedOf_modRings (s : State) (i : Nat) (f : SliceRings → SliceRings) (h : ∀ r, ringFixed (f r) = ringFixed r) :
    fixedOf (modRings s i f) = fixedOf s := by
  funext j; simp only [fixedOf, getRings_modRings]; split
  · rename_i e; subst e; exact h _
  · rfl

@[simp] theorem fixedOf_emit (s : State) (o : Output) : fixedOf (emit s o) = fixedOf s := rfl
@[simp] theorem fixedOf_writeBytes (s : State) (a : Nat) (l : List Byte) : fixedOf (writeBytes s a l) = fixedOf s := rfl
@[simp] theorem fixedOf_bump (s : State) (g e c n : Nat) : fixedOf (bump s g e c n) = fixedOf s := rfl
@[simp] theorem fixedOf_modTod (s : State) (p : Nat) (f : TodPort → TodPort) : fixedOf (modTod s p f) = fixedOf s := rfl
/-- A fold of steps that keep the held packets. -/
theorem fixedOf_forEach {α : Type} (l : List α) (f : α → State → State) (s : State) (h : ∀ a s, fixedOf (f a s) = fixedOf s) :
    fixedOf (forEach l f s) = fixedOf s := forEach_same fixedOf l f s h

/-- What is fixed of the rings. -/
theorem steady_fixedOf (e : State) : Steady fun t => fixedOf t = fixedOf e :=
  ⟨fun _ _ h => h, fun _ _ _ h => h, fun _ _ h => h, fun _ _ h => h, fun _ _ h => h, fun _ _ _ _ _ h => h,
    fun s i f hf h => (fixedOf_modRings s i f hf).trans h, fun _ _ _ _ _ _ h => h, fun _ _ _ _ h => h⟩

/-! Packets, replies, events, interrupts and denials take and drop no packet and move no head. -/

@[simp] theorem fixedOf_sendPkt (s : State) (p : Nat) (q : Pkt) : fixedOf (sendPkt s p q) = fixedOf s := (steady_fixedOf s).sendPkt p q rfl
@[simp] theorem fixedOf_routePkt (s : State) (a : Option Nat) (p : Pkt) : fixedOf (routePkt s a p) = fixedOf s := (steady_fixedOf s).routePkt a p rfl
@[simp] theorem fixedOf_raiseEntry (s : State) (e : Nat) : fixedOf (raiseEntry s e) = fixedOf s := (steady_fixedOf s).raiseEntry e rfl
@[simp] theorem fixedOf_writeback (s : State) (i : Nat) : fixedOf (writeback s i) = fixedOf s := (steady_fixedOf s).writeback i rfl
@[simp] theorem fixedOf_ringInterrupt (s : State) (i : Nat) (e : Bool) : fixedOf (ringInterrupt s i e) = fixedOf s := (steady_fixedOf s).ringInterrupt i e rfl
@[simp] theorem fixedOf_pushEntry (s : State) (i : Nat) (e : Bool) (b : Nat) : fixedOf (pushEntry s i e b) = fixedOf s := (steady_fixedOf s).pushEntry i e b rfl
@[simp] theorem fixedOf_pushEvent (s : State) (i b : Nat) : fixedOf (pushEvent s i b) = fixedOf s := (steady_fixedOf s).pushEvent i b rfl
@[simp] theorem fixedOf_flushLost (s : State) (i : Nat) : fixedOf (flushLost s i) = fixedOf s := (steady_fixedOf s).flushLost i rfl
@[simp] theorem fixedOf_rawPost (s : State) (i b : Nat) : fixedOf (rawPost s i b) = fixedOf s := (steady_fixedOf s).rawPost i b rfl
@[simp] theorem fixedOf_postEvent (s : State) (i b : Nat) : fixedOf (postEvent s i b) = fixedOf s := (steady_fixedOf s).postEvent i b rfl
@[simp] theorem fixedOf_post (s : State) (i c : Nat) (f : List Field) : fixedOf (post s i c f) = fixedOf s := (steady_fixedOf s).post i c f rfl
@[simp] theorem fixedOf_postRingError (s : State) (i w r x a : Nat) : fixedOf (postRingError s i w r x a) = fixedOf s := (steady_fixedOf s).postRingError i w r x a rfl
@[simp] theorem fixedOf_pushReply (s : State) (i : Nat) (r : Reply) : fixedOf (pushReply s i r) = fixedOf s := (steady_fixedOf s).pushReply i r rfl
@[simp] theorem fixedOf_guardReply (s : State) (i : Nat) : fixedOf (guardReply s i) = fixedOf s := (steady_fixedOf s).guardReply i rfl
@[simp] theorem fixedOf_sendReply (s : State) (i : Nat) (r : Reply) : fixedOf (sendReply s i r) = fixedOf s := (steady_fixedOf s).sendReply i r rfl
@[simp] theorem fixedOf_flushWaiting (s : State) (i : Nat) : fixedOf (flushWaiting s i) = fixedOf s := (steady_fixedOf s).flushWaiting i rfl
@[simp] theorem fixedOf_recordDenial (s : State) (v : Violation) : fixedOf (recordDenial s v) = fixedOf s := (steady_fixedOf s).recordDenial v rfl
@[simp] theorem fixedOf_denyAt (s : State) (i e : Nat) (w : Bool) (r a : Nat) : fixedOf (denyAt s i e w r a) = fixedOf s := (steady_fixedOf s).denyAt i e w r a rfl
@[simp] theorem fixedOf_denyStale (s : State) (i e b h : Nat) : fixedOf (denyStale s i e b h) = fixedOf s := (steady_fixedOf s).denyStale i e b h rfl

/-- Nothing of the held packets is lost or gained where the rings stay fixed. -/
theorem findHeld_of_fixedOf {s t : State} (h : fixedOf t = fixedOf s) (k : CmdKey) : findHeld t k = findHeld s k :=
  findHeld_congr k (by simpa [fixedOf, ringFixed] using congrArg SliceRings.held (congrFun h k.slice))

/-- The end of a command, up to what a reply changes. -/
theorem fixedOf_finish (s : State) (h : Held) (st : Status) (w d : Nat) :
    fixedOf (finish s h st w d) = fixedOf (modTag (dropHeld s (heldKey h)) h.slice h.ring (pktTag h.pkt) fun t =>
      if statusKept st then some { t with reply := some (mkReply h st w d), final := true } else none) := by
  unfold finish; dsimp only; split <;> simp

/-- The end of a command: its packet is held no more (R77). -/
@[simp] theorem findHeld_finish (s : State) (h : Held) (st : Status) (w d : Nat) : findHeld (finish s h st w d) (heldKey h) = none := by
  rw [findHeld_of_fixedOf (fixedOf_finish s h st w d), ← findHeld_dropHeld s (heldKey h)]
  apply findHeld_congr
  simp [modTag, heldKey]

@[simp] theorem findHeld_finishNow (s : State) (h : Held) (st : Status) (f : List Field) :
    findHeld (finishNow s h st f) (heldKey h) = none := findHeld_finish ..

/-- The end of a command leaves what is fixed of every other slice's rings. -/
theorem ringFixed_finish (s : State) (h : Held) (st : Status) (w d j : Nat) (hj : j ≠ h.slice) :
    ringFixed (getRings (finish s h st w d) j) = ringFixed (getRings s j) := by
  have := congrFun (fixedOf_finish s h st w d) j
  simpa [fixedOf, modTag, dropHeld, heldKey, hj] using this

end Sys2Proof.Machine
end

