-- ==== Sys2Proof/Laws/Outside.lean ====
section
/-! SUPPORT. The store's bytes outside the rings: replies, events, interrupts and denials write only ring entries and writeback blocks. -/
namespace Sys2Proof.Machine
open Sys2Proof

open Classical in
/-- The store's bytes outside the rings. -/
noncomputable def outside (s : State) : Nat → Option Byte := fun a => if ringByte s a then none else some (readByte s a)

/-- Where the rings and writeback block of a slice stand. -/
def ringPlaces (r : SliceRings) : (Bool × Nat × Nat) × (Bool × Nat × Nat) × (Bool × Nat) :=
  ((r.rq.space, r.rq.base, r.rq.sizeLog2), (r.eq.space, r.eq.base, r.eq.sizeLog2), (r.wbSpace, r.wbAddr))

theorem ringByte_congr {s t : State} (h : ∀ j, ringPlaces (getRings t j) = ringPlaces (getRings s j)) (a : Nat) :
    ringByte t a ↔ ringByte s a := by
  unfold ringByte
  refine exists_congr fun j => ?_
  have := h j
  simp only [ringPlaces, Prod.mk.injEq] at this
  obtain ⟨⟨a1, a2, a3⟩, ⟨b1, b2, b3⟩, c1, c2⟩ := this
  simp only [a1, a2, a3, b1, b2, b3, c1, c2]

theorem outside_at {s t : State} {a : Nat} (hp : ringByte t a ↔ ringByte s a) (hr : readByte t a = readByte s a) :
    outside t a = outside s a := by
  by_cases h : ringByte s a
  · simp [outside, h, hp.2 h]
  · have h2 : ¬ringByte t a := fun x => h (hp.1 x)
    simp [outside, h, h2, hr]

theorem outside_same {s t : State} (h : t.rings = s.rings) (hm : t.store.mem = s.store.mem) : outside t = outside s := by
  funext a
  have hp := ringByte_congr (s := s) (t := t) (fun j => by simp [getRings, h]) a
  exact outside_at hp (by simp [readByte, hm])

/-- A change of rings that keeps where they stand. -/
theorem outside_modRings (s : State) (i : Nat) (f : SliceRings → SliceRings) (h : ∀ r, ringPlaces (f r) = ringPlaces r) :
    outside (modRings s i f) = outside s := by
  funext a
  have hp := ringByte_congr (s := s) (t := modRings s i f) (fun j => by
    simp only [getRings_modRings]; split
    · rename_i e; subst e; exact h _
    · rfl) a
  have hr : readByte (modRings s i f) a = readByte s a := rfl
  exact outside_at hp hr

/-- Bytes written inside the rings. -/
theorem outside_writeBytes (s : State) (x : Nat) (l : List Byte) (h : ∀ a, x ≤ a → a < x + l.length → ringByte s a) :
    outside (writeBytes s x l) = outside s := by
  funext a
  have hp : ringByte (writeBytes s x l) a ↔ ringByte s a := ringByte_congr (fun j => rfl) a
  by_cases hr : ringByte s a
  · simp [outside, hp.2 hr, hr]
  · refine outside_at hp (readByte_writeBytes_ne s x l a ?_)
    by_cases h1 : x ≤ a
    · by_cases h2 : a < x + l.length
      · exact absurd (h a h1 h2) hr
      · omega
    · omega

theorem length_bytesLE (n x : Nat) : (bytesLE n x).length = n := by
  induction n generalizing x with
  | zero => rfl
  | succ n ih => simp [bytesLE, ih]

/-- The entry a ring takes next lies in it (R61). -/
theorem repAddr_inside (r : RepRing) (a : Nat) (h1 : repAddr r ≤ a) (h2 : a < repAddr r + 32) :
    r.base * 4096 ≤ a ∧ a < r.base * 4096 + 2 ^ r.sizeLog2 * 32 := by
  have : r.tail.toNat % 2 ^ r.sizeLog2 < 2 ^ r.sizeLog2 := Nat.mod_lt _ (Nat.two_pow_pos _)
  unfold repAddr at h1 h2
  omega

@[simp] theorem outside_emit (s : State) (o : Output) : outside (emit s o) = outside s := rfl
@[simp] theorem outside_bump (s : State) (g e c n : Nat) : outside (bump s g e c n) = outside s := rfl
@[simp] theorem outside_modTod (s : State) (p : Nat) (f : TodPort → TodPort) : outside (modTod s p f) = outside s := rfl
@[simp] theorem outside_modTag (s : State) (i r t : Nat) (f : TagRec → Option TagRec) : outside (modTag s i r t f) = outside s :=
  outside_modRings _ _ _ fun _ => rfl
@[simp] theorem outside_modHeld (s : State) (k : CmdKey) (f : Held → Held) : outside (modHeld s k f) = outside s :=
  outside_modRings _ _ _ fun _ => rfl
@[simp] theorem outside_dropHeld (s : State) (k : CmdKey) : outside (dropHeld s k) = outside s :=
  outside_modRings _ _ _ fun _ => rfl
/-- A fold of steps that keep the bytes. -/
theorem outside_forEach {α : Type} (l : List α) (f : α → State → State) (s : State) (h : ∀ a s, outside (f a s) = outside s) :
    outside (forEach l f s) = outside s := forEach_same outside l f s h

/-- A change that keeps what is fixed of the rings keeps where they stand. -/
theorem ringPlaces_of_fixed {r q : SliceRings} (h : ringFixed r = ringFixed q) : ringPlaces r = ringPlaces q :=
  show ringPlaces (ringFixed r) = ringPlaces (ringFixed q) from congrArg ringPlaces h

/-- A ring's entry lies in the ring. -/
theorem outside_entry (s : State) (i : Nat) (r : RepRing) (b : Nat) (hr : r = (getRings s i).rq ∨ r = (getRings s i).eq) (hs : r.space = true) :
    outside (writeBytes s (repAddr r) (bytesLE 32 b)) = outside s := by
  refine outside_writeBytes _ _ _ fun a h1 h2 => ?_
  rw [length_bytesLE] at h2
  have hb := repAddr_inside r a h1 h2
  rcases hr with rfl | rfl
  · exact ⟨i, .inl ⟨hs, hb⟩⟩
  · exact ⟨i, .inr (.inl ⟨hs, hb⟩)⟩

/-- A writeback block is one of the places. -/
theorem outside_block (s : State) (i x : Nat) (hw : (getRings s i).wbSpace = true) :
    outside (writeBytes s (getRings s i).wbAddr (bytesLE 64 x)) = outside s :=
  outside_writeBytes _ _ _ fun a h1 h2 => ⟨i, .inr (.inr ⟨hw, h1, by rw [length_bytesLE] at h2; exact h2⟩)⟩

/-- The store's bytes outside the rings. -/
theorem steady_outside (e : State) : Steady fun t => outside t = outside e :=
  ⟨fun _ _ h => h, fun _ _ _ h => h, fun _ _ h => h, fun _ _ h => h, fun _ _ h => h, fun _ _ _ _ _ h => h,
    fun s i f hf h => (outside_modRings s i f fun r => ringPlaces_of_fixed (hf r)).trans h,
    fun s i r b hr hs h => (outside_entry s i r b hr hs).trans h, fun s i x hw h => (outside_block s i x hw).trans h⟩

/-! Packets, replies, events, interrupts and denials write only ring entries and writeback blocks. -/

@[simp] theorem outside_sendPkt (s : State) (p : Nat) (q : Pkt) : outside (sendPkt s p q) = outside s := (steady_outside s).sendPkt p q rfl
@[simp] theorem outside_routePkt (s : State) (a : Option Nat) (p : Pkt) : outside (routePkt s a p) = outside s := (steady_outside s).routePkt a p rfl
@[simp] theorem outside_raiseEntry (s : State) (e : Nat) : outside (raiseEntry s e) = outside s := (steady_outside s).raiseEntry e rfl
@[simp] theorem outside_writeback (s : State) (i : Nat) : outside (writeback s i) = outside s := (steady_outside s).writeback i rfl
@[simp] theorem outside_ringInterrupt (s : State) (i : Nat) (e : Bool) : outside (ringInterrupt s i e) = outside s := (steady_outside s).ringInterrupt i e rfl
@[simp] theorem outside_pushEntry (s : State) (i : Nat) (e : Bool) (b : Nat) : outside (pushEntry s i e b) = outside s := (steady_outside s).pushEntry i e b rfl
@[simp] theorem outside_pushEvent (s : State) (i b : Nat) : outside (pushEvent s i b) = outside s := (steady_outside s).pushEvent i b rfl
@[simp] theorem outside_flushLost (s : State) (i : Nat) : outside (flushLost s i) = outside s := (steady_outside s).flushLost i rfl
@[simp] theorem outside_rawPost (s : State) (i b : Nat) : outside (rawPost s i b) = outside s := (steady_outside s).rawPost i b rfl
@[simp] theorem outside_postEvent (s : State) (i b : Nat) : outside (postEvent s i b) = outside s := (steady_outside s).postEvent i b rfl
@[simp] theorem outside_post (s : State) (i c : Nat) (f : List Field) : outside (post s i c f) = outside s := (steady_outside s).post i c f rfl
@[simp] theorem outside_postRingError (s : State) (i w r x a : Nat) : outside (postRingError s i w r x a) = outside s := (steady_outside s).postRingError i w r x a rfl
@[simp] theorem outside_pushReply (s : State) (i : Nat) (r : Reply) : outside (pushReply s i r) = outside s := (steady_outside s).pushReply i r rfl
@[simp] theorem outside_guardReply (s : State) (i : Nat) : outside (guardReply s i) = outside s := (steady_outside s).guardReply i rfl
@[simp] theorem outside_sendReply (s : State) (i : Nat) (r : Reply) : outside (sendReply s i r) = outside s := (steady_outside s).sendReply i r rfl
@[simp] theorem outside_flushWaiting (s : State) (i : Nat) : outside (flushWaiting s i) = outside s := (steady_outside s).flushWaiting i rfl
@[simp] theorem outside_recordDenial (s : State) (v : Violation) : outside (recordDenial s v) = outside s := (steady_outside s).recordDenial v rfl
@[simp] theorem outside_denyAt (s : State) (i e : Nat) (w : Bool) (r a : Nat) : outside (denyAt s i e w r a) = outside s := (steady_outside s).denyAt i e w r a rfl
@[simp] theorem outside_denyStale (s : State) (i e b h : Nat) : outside (denyStale s i e b h) = outside s := (steady_outside s).denyStale i e b h rfl

/-- The end of a command writes only ring entries. -/
@[simp] theorem outside_finish (s : State) (h : Held) (st : Status) (w d : Nat) : outside (finish s h st w d) = outside s := by
  unfold finish; dsimp only; split <;> simp

@[simp] theorem outside_finishNow (s : State) (h : Held) (st : Status) (f : List Field) :
    outside (finishNow s h st f) = outside s := outside_finish ..

@[simp] theorem outside_defer (s : State) (h : Held) (f : List Field) : outside (defer s h f) = outside s := by simp [defer]

/-- Equal bytes outside the rings. -/
theorem sameBytes_of_outside {s t : State} (h : outside t = outside s) : sameBytes t s := by
  intro a ha
  have := congrFun h a
  simp only [outside, ha, if_false] at this
  split at this
  · cases this
  · exact Option.some.inj this

end Sys2Proof.Machine
end

