-- ==== Sys2Proof/Laws/Packets.lean ====
section
/-! SUPPORT. Running a held packet: outputs only grow, the end of a command replies, and a packet that is ready runs its own checks and action. -/
namespace Sys2Proof.Machine
open Sys2Proof

/-- An output that has been made stays made through the end of a command. -/
theorem out_finish (s : State) (h : Held) (st : Status) (w d : Nat) (o : Output) (ho : o ∈ s.out) : o ∈ (finish s h st w d).out := by
  unfold finish; dsimp only; split
  · exact ho
  · exact (steady_out o).sendReply _ _ ho

/-- A reply is written to its ring or waits for it (R64, R76). -/
theorem sendReply_replied (s : State) (i : Nat) (r : Reply) :
    (∃ pasid space addr, Output.reply i pasid space addr r ∈ (sendReply s i r).out) ∨ r ∈ (getRings (sendReply s i r) i).waiting := by
  unfold sendReply; dsimp only; split
  · left
    refine ⟨pasidOf (guardReply s i) i, (getRings (guardReply s i) i).rq.space, repAddr (getRings (guardReply s i) i).rq, ?_⟩
    exact (steady_out _).pushEntry _ _ _ (by simp [emit])
  · right; simp

/-- The end of a command replies as R69 and R76 say. -/
theorem finish_replied (s : State) (h : Held) (st : Status) (w d : Nat) : Replied (finish s h st w d) h st w d := by
  unfold finish Replied; dsimp only
  by_cases hq : (opIsQe (pktOpcode h.pkt) && decide (st = Status.ok) && !pktReplyAlways h.pkt) = true
  · left; simpa [and_assoc] using hq
  · right; rw [if_neg hq]; exact sendReply_replied _ _ _

theorem finishNow_replied (s : State) (h : Held) (st : Status) (f : List Field) :
    Replied (finishNow s h st f) h st (nowBits s) (packFields f) := finish_replied ..

variable {s : State} {c : Cmd} {op : Nat} {h : Held}

/-- The key of the packet that is ready is the key that the row names. -/
theorem Ready.key (hr : Ready s c op h) : heldKey h = Cmd.key c := by
  obtain ⟨hf, hs, -⟩ := hr
  have hp := List.find?_some hf
  simp only [Cmd.key, Bool.and_eq_true, beq_iff_eq] at hp
  simp [heldKey, Cmd.key, hs, hp.1, hp.2]

/-- A ready packet whose checks pass acts. -/
theorem Ready.runDirect (hr : Ready s c op h) {form : Held → Bool} {check : State → Held → Cmd → Option Fail}
    {act : State → Held → Cmd → State} (hform : form h = true) (hc : check s h c = none) :
    runDirect s c op form check act = act s h c := by
  obtain ⟨hf, -, hp, hl, ho, he⟩ := hr
  simp only [Cmd.key] at hf
  simp [Machine.runDirect, hf, hp, hl, ho, he, hform, hc]

/-- A ready packet that fails a check is answered with that check's status and detail (R68). -/
theorem Ready.runDirect_fail (hr : Ready s c op h) {form : Held → Bool} {check : State → Held → Cmd → Option Fail}
    {act : State → Held → Cmd → State} {f : Fail} (hform : form h = true) (hc : check s h c = some f) :
    Machine.runDirect s c op form check act = finishNow s h f.1 f.2 := by
  obtain ⟨hf, -, hp, hl, ho, he⟩ := hr
  simp only [Cmd.key] at hf
  simp [Machine.runDirect, hf, hp, hl, ho, he, hform, hc]

/-- A ready packet that is not timed and whose checks pass acts. -/
theorem ReadyNow.runPacket (hr : ReadyNow s c op h) {form : Held → Bool} {check : State → Held → Cmd → Option Fail}
    {act : State → Held → Cmd → State} (hform : form h = true) (hc : check s h c = none) :
    runPacket s c op form check act = act s h c := by
  unfold Machine.runPacket; rw [hr.1.runDirect hform hc]; simp [hr.2]

/-- The end of the packet that is ready, after any change of other state. -/
theorem Ready.finished (hr : Ready s c op h) (t : State) (st : Status) (w d : Nat) : Finished (finish t h st w d) c := by
  unfold Finished; rw [← hr.key]; simp

/-- A row whose outcome is the end of its packet answers so. -/
theorem Ready.answers (hr : Ready s c op h) {i : Instr} {t : State} {st : Status} {w : Nat} {f : List Field}
    (he : exec i s = .next (finish t h st w (packFields f))) : Answers i s c h st w f t :=
  ⟨_, he, hr.finished t st w _, finish_replied .., quiet_finish .., fun j hj => ringFixed_finish _ _ _ _ _ j (hr.2.1 ▸ hj),
    sameBytes_of_outside (outside_finish ..)⟩

/-- The key of the held packet that a row names. -/
theorem heldKey_of_find (hf : findHeld s (Cmd.key c) = some h) (hs : h.slice = c.slice) : heldKey h = Cmd.key c := by
  have hp := List.find?_some hf
  simp only [Cmd.key, Bool.and_eq_true, beq_iff_eq] at hp
  simp [heldKey, Cmd.key, hs, hp.1, hp.2]

/-- A row whose outcome is the end of the packet it names answers so. -/
theorem answers_of_find (hf : findHeld s (Cmd.key c) = some h) (hs : h.slice = c.slice) {i : Instr} {t : State} {st : Status}
    {w : Nat} {f : List Field} (he : exec i s = .next (finish t h st w (packFields f))) : Answers i s c h st w f t :=
  ⟨_, he, by unfold Finished; rw [← heldKey_of_find hf hs]; simp, finish_replied .., quiet_finish ..,
    fun j hj => ringFixed_finish _ _ _ _ _ j (hs ▸ hj), sameBytes_of_outside (outside_finish ..)⟩

/-- The end of the packet of a key, when it is held. -/
theorem finishKey_of_find {k : CmdKey} (hf : findHeld s k = some h) (st : Status) (w : Nat) (f : List Field) :
    finishKey s k st w f = finish s h st w (packFields f) := by simp [finishKey, hf]

/-- Finding an element after the first that meets a test is replaced by one that meets it too. -/
theorem find_replFirst {α : Type} (p : α → Bool) (f : α → α) (x : α) (hp : ∀ a, p a = true → p (f a) = true) :
    ∀ l : List α, l.find? p = some x → (replFirst p f l).find? p = some (f x)
  | [], h => by simp at h
  | a :: l, h => by
    by_cases ha : p a = true
    · simp [ha] at h; subst h; simp [replFirst, ha, hp a ha]
    · simp [ha] at h
      simp [replFirst, ha, find_replFirst p f x hp l (by simpa using h)]

/-- The held packet after a change that keeps its place. -/
theorem findHeld_modHeld (t : State) (k : CmdKey) (f : Held → Held) (hf : ∀ h, (f h).ring = h.ring ∧ (f h).index = h.index)
    (hh : findHeld t k = some h) : findHeld (modHeld t k f) k = some (f h) := by
  unfold findHeld modHeld at *
  simp only [getRings_modRings, if_true]
  exact find_replFirst _ f h (fun a ha => by simpa [(hf a).1, (hf a).2] using ha) _ hh

/-- A row whose outcome is that its packet is past its commit point. -/
theorem Ready.holds (hr : Ready s c op h) {i : Instr} {t : State} (he : exec i s = .next (holdOn t h))
    (ht : t.rings = s.rings) : Holds i s c h t := by
  refine ⟨_, he, ?_, rfl, rfl, rfl, ?_⟩
  · have hk := hr.key
    unfold holdOn
    rw [hk]
    refine findHeld_modHeld t _ _ (fun _ => ⟨rfl, rfl⟩) ?_
    rw [← hr.1]; exact findHeld_congr _ (by simp [getRings, ht])
  · intro j hj
    have : heldKey h = Cmd.key c := hr.key
    simp [holdOn, modHeld, this, Cmd.key, hj]

/-- A row whose outcome is ST_DEFERRED. -/
theorem Ready.defers (hr : Ready s c op h) {i : Instr} {t : State} {f : List Field} (he : exec i s = .next (defer t h f))
    (ht : fixedOf t = fixedOf s) : Defers i s c h f t := by
  have hk := hr.key
  have hs : h.slice = c.slice := hr.2.1
  refine ⟨_, he, ?_, ?_, quiet_defer .., ?_, sameBytes_of_outside (outside_defer ..)⟩
  · unfold defer; dsimp only
    rw [findHeld_of_fixedOf (fixedOf_sendReply ..), hk]
    have h2 : findHeld (modHeld t (Cmd.key c) fun x => { x with phase := .deferred }) (Cmd.key c) = some { h with phase := .deferred } := by
      refine findHeld_modHeld t _ _ (fun _ => ⟨rfl, rfl⟩) ?_
      rw [← hr.1]; exact findHeld_of_fixedOf ht _
    rw [← h2]
    apply findHeld_congr
    simp [modTag, hs, Cmd.key]
  · right; exact sendReply_replied _ _ _
  · intro j hj
    unfold defer; dsimp only
    have e := congrFun (fixedOf_sendReply (modTag (modHeld t (heldKey h) fun x => { x with phase := .deferred }) h.slice h.ring
      (pktTag h.pkt) fun x => some { x with reply := some (mkReply h .deferred (nowBits t) (packFields f)), final := false })
      h.slice (mkReply h .deferred (nowBits t) (packFields f))) j
    simp only [fixedOf] at e
    rw [e]
    simp [modTag, modHeld, hk, hs, Cmd.key, hj]

end Sys2Proof.Machine
end

