-- ==== Sys2Proof/Laws/Store.lean ====
section
/-! SUPPORT. The store and its surfaces: placing, releasing, lines written, what watches them, poison, and accesses of one unit. -/
namespace Sys2Proof.Machine
open Sys2Proof

/-- Dropping an index drops what was put there. -/
theorem filter_tput {α : Type} (i : Nat) (x : α) : ∀ t : Tab α, (tput i x t).filter (fun e => e.1 != i) = t.filter (fun e => e.1 != i)
  | [] => by simp [tput]
  | (k, v) :: r => by
    unfold tput; split
    · simp
    · simp only [List.filter_cons]; rw [filter_tput i x r]

/-- A second write of an index stands alone. -/
theorem tset_tset {α : Type} [DecidableEq α] (d : α) (t : Tab α) (i : Nat) (a b : α) : tset d (tset d t i a) i b = tset d t i b := by
  have : (tset d t i a).filter (fun e => e.1 != i) = t.filter (fun e => e.1 != i) := by
    unfold tset; dsimp only; split
    · rw [List.filter_filter]; simp
    · rw [filter_tput, List.filter_filter]; simp
  unfold tset at *; dsimp only at *; rw [this]

/-- Two changes of an index are one. -/
theorem tmod_tmod {α : Type} [DecidableEq α] (d : α) (t : Tab α) (i : Nat) (f g : α → α) : tmod d (tmod d t i f) i g = tmod d t i (fun x => g (f x)) := by
  unfold tmod; rw [tset_tset, tget_tset_eq]

/-- A change is what it does to the value that stands there. -/
theorem tmod_congr {α : Type} [DecidableEq α] (d : α) (t : Tab α) (i : Nat) (f g : α → α) (h : f (tget d t i) = g (tget d t i)) : tmod d t i f = tmod d t i g := by
  unfold tmod; rw [h]

/-- Two changes of an output are one. -/
theorem modOut_modOut (s : State) (i : Nat) (f g : OutputSt → OutputSt) : modOut (modOut s i f) i g = modOut s i (fun x => g (f x)) := by
  unfold modOut; simp only [tmod_tmod]

/-- A change of an output is what it does to the output that stands there. -/
theorem modOut_congr (s : State) (i : Nat) (f g : OutputSt → OutputSt) (h : f (getOut s i) = g (getOut s i)) : modOut s i f = modOut s i g := by
  unfold modOut; rw [tmod_congr _ _ _ f g h]

/-- An index whose entries a filter keeps reads as before. -/
theorem tget_filter_true {α} (d : α) (p : Nat × α → Bool) (a : Nat) : ∀ t : Tab α, (∀ v, p (a, v) = true) → tget d (t.filter p) a = tget d t a
  | [], _ => rfl
  | (k, v) :: r, h => by
    by_cases hk : a = k
    · subst hk; simp [h v, tget]
    · by_cases hp : p (k, v) = true
      · simp [hp, tget, hk, tget_filter_true d p a r h]
      · simp [hp, tget, hk, tget_filter_true d p a r h]

/-- An index whose entries a filter drops reads as the default. -/
theorem tget_filter_false {α} (d : α) (p : Nat × α → Bool) (a : Nat) : ∀ t : Tab α, (∀ v, p (a, v) = false) → tget d (t.filter p) a = d
  | [], _ => rfl
  | (k, v) :: r, h => by
    by_cases hk : a = k
    · subst hk; simp [h v, tget_filter_false d p a r h]
    · by_cases hp : p (k, v) = true
      · simp [hp, tget, hk, tget_filter_false d p a r h]
      · simp [hp, tget_filter_false d p a r h]

/-- The index that firstIdx finds meets the test and lies in the range. -/
theorem firstIdx_spec (p : Nat → Bool) : ∀ n i k, firstIdx p i n = some k → p k = true ∧ i ≤ k ∧ k < i + n
  | 0, i, k, h => by simp [firstIdx] at h
  | n + 1, i, k, h => by
    simp only [firstIdx] at h
    split at h
    · cases h; exact ⟨by assumption, by omega, by omega⟩
    · have := firstIdx_spec p n (i + 1) k h; exact ⟨this.1, by omega, by omega⟩

/-- The least place that a fold finds meets its test. -/
theorem foldMin_spec (p : Nat → Bool) : ∀ (l : List Nat) (b : Option Nat), (∀ g, b = some g → p g = true) →
    ∀ g, l.foldl (fun b g => if p g then some (match b with | some x => min x g | none => g) else b) b = some g → p g = true
  | [], b, hb, g, h => hb g h
  | a :: l, b, hb, g, h => by
    refine foldMin_spec p l _ ?_ g h
    intro g hg
    dsimp only at hg
    split at hg
    · rename_i ha
      cases b with
      | none => cases hg; exact ha
      | some x =>
        cases hg
        rcases Nat.le_total x a with h1 | h1
        · simp [Nat.min_eq_left h1, hb x rfl]
        · simp [Nat.min_eq_right h1, ha]
    · exact hb g hg

/-- A surface is placed on a free index and a free range (R111, R112, R129). -/
theorem choosePlace_spec {s : State} {n : Nat} {obs : List Nat} {i g : Nat} (h : choosePlace s n obs = some (i, g)) :
    i < 16384 ∧ (getSurf s i).used = false ∧ rangeFree s g n = true := by
  unfold choosePlace at h
  split at h
  · rename_i i0 g0 h1 h2
    have hi := firstIdx_spec _ _ _ _ h1
    have hg : rangeFree s g0 n = true := foldMin_spec (fun g => rangeFree s g n) _ none (fun _ h => by cases h) g0 h2
    simp only [Option.some.injEq, Prod.mk.injEq] at h
    obtain ⟨rfl, rfl⟩ := h
    refine ⟨?_, ?_, ?_⟩
    · split
      · rename_i h; exact h.1
      · simpa using hi.2.2
    · split
      · rename_i h; simpa using h.2
      · simpa using hi.1
    · split
      · assumption
      · exact hg
  · cases h

/-- Ending what watches a surface changes its fences and the units that follow it. -/
theorem quiet_endWatchers (s : State) (i h : Nat) : quiet (endWatchers s i h) = quiet
   { s with store := { s.store with fences := s.store.fences.filter fun f => f.surf != i }
            gauge := { s.gauge with units := tmap {} (fun _ u => if u.enable && u.kind == 0 && u.handle == h then { u with enable := false } else u) s.gauge.units } } := by
  unfold endWatchers
  dsimp only
  have hq : ∀ (l : List Fence) (u : State), quiet (forEach l (fun f s => finishKey s f.key .handleStale (nowBits s)
    [fAt 16 0 16 (getSurf s i).pass, fAt 20 0 32 (getSurf s i).frontier, fAt 24 0 16 (latchCount s i)]) u) = quiet u := by
    intro l u; apply quiet_forEach; intro a t; simp
  have := hq (s.store.fences.filter fun f => f.surf == i) { s with store := { s.store with fences := s.store.fences.filter fun f => f.surf != i } }
  generalize forEach _ _ _ = u at this ⊢
  have hg : u.gauge = s.gauge := congrArg (fun s => s.gauge) this
  have : quiet { u with gauge := { s.gauge with units := tmap {} (fun _ u => if u.enable && u.kind == 0 && u.handle == h then { u with enable := false } else u) s.gauge.units } } = _ :=
    congrArg (fun q : State => { q with gauge := { s.gauge with units := tmap {} (fun _ u => if u.enable && u.kind == 0 && u.handle == h then { u with enable := false } else u) s.gauge.units } }) this
  rw [hg]; exact this

/-- The end of a held packet leaves every byte outside the rings. -/
theorem outside_finishKey (s : State) (k st w f) : outside (finishKey s k st w f) = outside s := by
  unfold finishKey; split <;> simp

/-- Ending what watches a surface leaves every byte outside the rings. -/
theorem outside_endWatchers (s : State) (i h : Nat) : outside (endWatchers s i h) = outside s := by
  unfold endWatchers
  dsimp only
  have hq : ∀ (l : List Fence) (u : State), outside (forEach l (fun f s => finishKey s f.key .handleStale (nowBits s)
    [fAt 16 0 16 (getSurf s i).pass, fAt 20 0 32 (getSurf s i).frontier, fAt 24 0 16 (latchCount s i)]) u) = outside u := by
    intro l u; apply outside_forEach; intro a t; rw [outside_finishKey]
  have := hq (s.store.fences.filter fun f => f.surf == i) { s with store := { s.store with fences := s.store.fences.filter fun f => f.surf != i } }
  exact (outside_same rfl rfl).trans (this.trans (outside_same rfl rfl))

/-- Beginning a release changes the surface's generation and its release, and what watched it (R110, R121, R122). -/
theorem quiet_beginRelease (s : State) (i : Nat) (k) : quiet (beginRelease s i k) = quiet
   { s with 
      comp := (cancelLatches s i).comp
      store := { s.store with 
        surfs := tmod {} s.store.surfs i (fun x => { x with gen := nextGen x.gen, releasePending := true, relKey := k, relHandle := handleOf i (getSurf s i) })
        fences := s.store.fences.filter fun f => f.surf != i }
      gauge := { s.gauge with units := tmap {} (fun _ u => if u.enable && u.kind == 0 && u.handle == handleOf i (getSurf s i) then { u with enable := false } else u) s.gauge.units } } := by
  unfold beginRelease
  dsimp only
  have := quiet_endWatchers (cancelLatches s i) i (handleOf i (getSurf s i))
  generalize endWatchers _ _ _ = u at this ⊢
  have hs : u.store.surfs = s.store.surfs := congrArg (fun s => s.store.surfs) this
  have := congrArg (fun q : State => { q with store := { q.store with surfs := tmod {} q.store.surfs i (fun x => { x with gen := nextGen x.gen, releasePending := true, relKey := k, relHandle := handleOf i (getSurf s i) }) } }) this
  exact this

/-- Beginning a release leaves every byte outside the rings. -/
theorem outside_beginRelease (s : State) (i : Nat) (k) : outside (beginRelease s i k) = outside s := by
  unfold beginRelease; dsimp only
  exact (outside_same rfl rfl).trans ((outside_endWatchers _ _ _).trans (outside_same rfl rfl))

/-- A surface that a handle names is in use and has that handle (R109). -/
theorem lookup_handle {s : State} {hd : Nat} {x : Surface} (h : lookup s hd = some x) :
   x = getSurf s (handleIndex hd) ∧ handleOf (handleIndex hd) x = hd ∧ x.used = true := by
  unfold lookup at h
  dsimp only at h
  split at h
  · rename_i h1; cases h; exact ⟨rfl, h1.2.2.2, h1.2.1⟩
  · cases h

/-- A SURFACE_RELEASE that passes names a surface. -/
theorem check_release {s : State} {h : Held} {c : Cmd} (hc : checkSurfaceRelease s h c = none) : ∃ x, lookup s (pf h.pkt 16 0 32) = some x := by
  cases hl : lookup s (pf h.pkt 16 0 32) with
  | some x => exact ⟨x, rfl⟩
  | none =>
    exfalso
    simp only [checkSurfaceRelease, hl] at hc
    split at hc <;> simp at hc

/-- Beginning a release changes no latch. -/
theorem latchCount_begin (s : State) (i k) : releaseReady (beginRelease s i k) i = releaseReady s i ∧ latchCount (beginRelease s i k) i = latchCount s i := by
  have hq := quiet_beginRelease s i k
  generalize beginRelease s i k = u at hq ⊢
  have h1 : u.store.surfs = _ := congrArg (fun s => s.store.surfs) hq
  have h2 : u.store.latches = s.store.latches := congrArg (fun s => s.store.latches) hq
  have h3 : u.comp.slots = s.comp.slots := congrArg (fun s => s.comp.slots) hq
  have h4 : u.ledger = s.ledger := congrArg (fun s => s.ledger) hq
  have h5 : u.bank = s.bank := congrArg (fun s => s.bank) hq
  have hl : latchCount u i = latchCount s i := by
    unfold latchCount latchPasses layerLatches cardLatches getSurf
    rw [h2, h3, h4, h1]
    have : (tget ({} : Surface) (quiet { s with 
      comp := (cancelLatches s i).comp
      store := { s.store with 
        surfs := tmod {} s.store.surfs i (fun x => { x with gen := nextGen x.gen, releasePending := true, relKey := k, relHandle := handleOf i (getSurf s i) })
        fences := s.store.fences.filter fun f => f.surf != i }
      gauge := { s.gauge with units := tmap {} (fun _ u => if u.enable && u.kind == 0 && u.handle == handleOf i (getSurf s i) then { u with enable := false } else u) s.gauge.units } }).store.surfs i).rebuilding = (tget {} s.store.surfs i).rebuilding := by
      simp
    rw [this]
  refine ⟨?_, hl⟩
  have h6 : u.sluice = s.sluice := congrArg (fun s => s.sluice) hq
  unfold releaseReady rowsAhead; rw [hl, h5, h6]; unfold getSurf; rw [h1]; simp [quiet]

/-- With every unit off, the Gauge takes no line. -/
theorem gaugeLine_off (s : State) (i line : Nat) (d : List Byte) (h : ∀ u, u < 8 → (tget {} s.gauge.units u).enable = false) : gaugeLine s i line d = s := by
  unfold gaugeLine forEach
  simp only
  have : ∀ (l : List Nat), (∀ u ∈ l, u < 8) → l.foldl (fun s_1 u =>
      if ((tget {} s_1.gauge.units u).enable &&
              ((tget {} s_1.gauge.units u).kind == 0 && (tget {} s_1.gauge.units u).handle == handleOf i (getSurf s i) ||
                (tget {} s_1.gauge.units u).kind == 1 && (getSurf s i).source == some (tget {} s_1.gauge.units u).source) &&
            decide ((tget {} s_1.gauge.units u).firstLine ≤ line) &&
            ((tget {} s_1.gauge.units u).lineCount == 0 || decide (line < (tget {} s_1.gauge.units u).firstLine + (tget {} s_1.gauge.units u).lineCount))) = true then
        gaugeResult s_1 u (tget {} s_1.gauge.units u).kind 0 (handleOf i (getSurf s i)) line (getSurf s i).pass false
          (bytesLE 4 (handleOf i (getSurf s i)) ++ bytesLE 4 line) d
      else s_1) s = s := by
    intro l hl
    induction l with
    | nil => rfl
    | cons a l ih =>
      simp only [List.foldl_cons, h a (hl a (by simp)), Bool.false_and, Bool.false_eq_true, if_false]
      exact ih (fun u hu => hl u (by simp [hu]))
  exact this _ (fun u hu => by simpa using hu)

/-- A surface that no export reads sends no line. -/
theorem exportLines_off (s : State) (i : Nat) (h : ∀ src, (getSurf s i).source = some src → exportsOf s src = []) : exportLines s i = s := by
  unfold exportLines
  dsimp only
  split
  · rfl
  · rename_i src hs; simp [h src hs, forEach]

/-- A surface with no delivery completes none. -/
theorem completeDeliveries_off (t : State) (i : Nat) (h : (t.media.deliveries.find? fun d => d.surf == i) = none) : completeDeliveries t i = t := by
  unfold completeDeliveries
  have : (t.media.deliveries.find? fun d => d.surf == i && d.pass == (getSurf t i).pass) = none := by
    rw [List.find?_eq_none] at h ⊢
    intro d hd; have := h d hd; simp at this ⊢; intro h; exact absurd h this
  dsimp only
  rw [this]

/-- What a write leaves of the store depends on the store alone. -/
theorem writeBytes_store {s t : State} (a : Nat) (l : List Byte) (h : t.store = s.store) : (writeBytes t a l).store = (writeBytes s a l).store := by
  unfold writeBytes; simp only [h]

/-- A tile row stored depends on the store alone. -/
theorem storeRow_store (s t : State) (x : Surface) (r : Nat) (b : List (List Byte)) (h : t.store = s.store) :
    (storeRow t x r b).store = (storeRow s x r b).store := by
  have hf : ∀ (l : List Nat) (u v : State), v.store = u.store → (l.foldl (fun s k => writeBytes s (k * 256) (List.replicate 256 0)) v).store
      = (l.foldl (fun s k => writeBytes s (k * 256) (List.replicate 256 0)) u).store := by
    intro l
    induction l with
    | nil => exact fun _ _ h => h
    | cons k l ih => exact fun u v h => ih _ _ (writeBytes_store _ _ h)
  have h1 := writeBytes_store (s := s) (t := t) (x.base + dataOffset x.width x.height + r * x.pitch) (b.flatten ++ List.replicate (x.pitch - b.flatten.length) 0) h
  unfold storeRow storeRecord
  dsimp only
  refine writeBytes_store _ _ ?_
  rw [h1]
  exact hf _ _ _ h1

/-- The columns that a lane stores raw when every block verifies: none, or all once it has reached its limit (R152). -/
theorem verifyRow_none (s : State) (lane : Nat) (w : LaneWork) (t : Nat) :
    verifyRow s lane w t [] = (s, if (tget {} s.sluice.lanes lane).rawMode then List.range t else []) := by
  unfold verifyRow
  simp only [List.contains_nil, Bool.false_eq_true, if_false]
  induction t with
  | zero => simp
  | succ t ih =>
    rw [List.range_succ, List.foldl_append, ih]
    by_cases hm : (tget ({} : Lane) s.sluice.lanes lane).rawMode = true <;> simp [hm]

/-- A verified tile row is counted and stored, and FRONTIER passes it once every older row is written (R152, R155). -/
theorem writeTileRow_eq (u : State) (engine lane i r : Nat) (raw : List Byte) (m : Bool) (x : Surface) (hux : getSurf u i = x)
    (hd : weirDenied u x.owner engine true (x.base + dataOffset x.width x.height + r * x.pitch) x.pitch = none) :
    let bl := rowBlocks x r m (chunksOf (rowLineBytes x) 4 raw) (if x.format = 0x60 then chunksOf x.width 2 (raw.drop (4 * x.width)) else [])
    writeTileRow u engine lane i r raw (if m then List.range (x.width / 64) else []) =
      exportLines (rowWritten (storeRow (bump (bump (bump (bump u 2 lane 0 bl.length) 2 lane 1 (bl.filter blockIsRaw).length) 2 lane 2 raw.length)
        2 lane 3 ((bl.map List.length).foldl (· + ·) 0)) x r bl) i r) i := by
  have hb : ∀ c ∈ List.range (x.width / 64), (if m then List.range (x.width / 64) else []).contains c = m := by
    intro c hc; cases m
    · simp
    · simpa using hc
  unfold writeTileRow rowBlocks
  simp only [hux, hd]
  rw [List.map_congr_left fun c hc => by rw [hb c hc]]

/-- Noting a read of poison changes only its record. -/
theorem quiet_noteRead (s : State) (a n c) : quiet (noteRead s a n c) = quiet s := by
  unfold noteRead; split
  · rfl
  · apply quiet_forEach; intro u t; split
    · rfl
    · simp only [quiet_postEvent]; rfl

/-- Noting a read of poison leaves every byte outside the rings. -/
theorem outside_noteRead (s : State) (a n c) : outside (noteRead s a n c) = outside s := by
  unfold noteRead; split
  · rfl
  · apply outside_forEach; intro u t; split
    · rfl
    · simp only [outside_postEvent]; rfl

/-- Lines stored with nothing that watches them. -/
theorem foldl_off (x : Surface) (i first : Nat) (luma : List (List Byte)) (P : State → Prop) (h1 : ∀ s, P s → ∀ k, P (storeLine s x (first + k) (luma.getD k [])))
   (h2 : ∀ s l d, P s → gaugeLine s i l d = s) (l : List Nat) (s : State) (hs : P s) :
   l.foldl (fun s k => gaugeLine (storeLine s x (first + k) (luma.getD k [])) i (first + k) (luma.getD k [])) s
   = l.foldl (fun s k => storeLine s x (first + k) (luma.getD k [])) s := by
  induction l generalizing s with
  | nil => simp only [List.foldl_nil]
  | cons a l ih =>
    simp only [List.foldl_cons]
    rw [h2 _ _ _ (h1 _ hs a)]
    exact ih _ (h1 _ hs a)

/-- Lines stored with the Gauge off. -/
theorem store_lines (x : Surface) (i first : Nat) (luma : List (List Byte)) (l : List Nat) (s : State)
   (hg : ∀ u, u < 8 → (tget {} s.gauge.units u).enable = false) :
   l.foldl (fun s k => gaugeLine (storeLine s x (first + k) (luma.getD k [])) i (first + k) (luma.getD k [])) s
   = l.foldl (fun s k => storeLine s x (first + k) (luma.getD k [])) s := by
  exact foldl_off x i first luma (fun s => ∀ u, u < 8 → (tget {} s.gauge.units u).enable = false) (fun s h k => h) (fun s l d h => gaugeLine_off s i l d h) l s hg

/-- A line that the device stores as it is given: of another format than P010, or of a surface that the host writes (R135). -/
theorem lineBytes_plain (x : Surface) (l : List Byte) (h : x.format ≠ 0x21 ∨ x.writer = .host) : lineBytes x l = l.take (lineSize x.format x.width) := by
  unfold lineBytes; rw [if_neg (by rcases h with h | h <;> simp [h])]

theorem length_clearLow (l : List Byte) : (clearLow l).length = l.length := by
  induction l using clearLow.induct with
  | case1 a b r ih => simp [clearLow, ih]
  | case2 l h => cases l with
    | nil => rfl
    | cons a l => cases l with
      | nil => rfl
      | cons b r => exact absurd rfl (h a b r)

/-- A line stored has as many bytes as the line. -/
theorem length_lineBytes (x : Surface) (l : List Byte) : (lineBytes x l).length = min (lineSize x.format x.width) l.length := by
  unfold lineBytes; dsimp only; split <;> simp [length_clearLow]

/-- Lines stored leave every byte outside their lines. -/
theorem store_frame (x : Surface) (first : Nat) (luma : List (List Byte)) (l : List Nat) (s : State) (a : Nat)
   (h : ∀ k ∈ l, a < x.base + (first + k) * x.pitch ∨ x.base + (first + k) * x.pitch + roundUp (lineSize x.format x.width) 256 ≤ a)
   (hl : ∀ k ∈ l, (luma.getD k []).length = lineSize x.format x.width) :
   readByte (l.foldl (fun s k => storeLine s x (first + k) (luma.getD k [])) s) a = readByte s a := by
  induction l generalizing s with
  | nil => rfl
  | cons k l ih =>
    simp only [List.foldl_cons]
    rw [ih]
    · unfold storeLine padUnit padTo
      apply readByte_writeBytes_ne
      have h1 := h k (by simp)
      have h2 := hl k (by simp)
      rw [List.length_append, List.length_replicate, length_lineBytes, h2, Nat.min_self]
      rcases h1 with h1 | h1
      · left; exact h1
      · right; have : lineSize x.format x.width ≤ roundUp (lineSize x.format x.width) 256 := by unfold roundUp; omega
        omega
    · intro k hk; exact h k (by simp [hk])
    · intro k hk; exact hl k (by simp [hk])

/-- Lines stored change nothing that quiet keeps. -/
theorem store_quiet (x : Surface) (first : Nat) (luma : List (List Byte)) (l : List Nat) (s : State) :
   let t := l.foldl (fun s k => storeLine s x (first + k) (luma.getD k [])) s
   quiet t = quiet s ∧ t.rings = s.rings := by
  induction l generalizing s with
  | nil => exact ⟨rfl, rfl⟩
  | cons k l ih =>
    simp only [List.foldl_cons]
    have := ih (storeLine s x (first + k) (luma.getD k []))
    exact ⟨this.1.trans (by simp [storeLine]), this.2⟩

/-- Each line stored stands at its line's address (R116). -/
theorem store_content (x : Surface) (first : Nat) (luma : List (List Byte)) (n : Nat) (s : State) (k b : Nat) (hk : k < n)
   (hl : ∀ k < n, (luma.getD k []).length = lineSize x.format x.width) (hb : b < lineSize x.format x.width)
   (hp : roundUp (lineSize x.format x.width) 256 ≤ x.pitch) (hx : x.format ≠ 0x21 ∨ x.writer = .host) (he : x.base + (first + n) * x.pitch ≤ storeEnd) :
   readByte ((List.range n).foldl (fun s k => storeLine s x (first + k) (luma.getD k [])) s) (x.base + (first + k) * x.pitch + b) = (luma.getD k []).getD b 0 := by
  have hrr : lineSize x.format x.width ≤ roundUp (lineSize x.format x.width) 256 := by unfold roundUp; omega
  induction n with
  | zero => omega
  | succ n ih =>
    rw [List.range_succ, List.foldl_append]
    simp only [List.foldl_cons, List.foldl_nil]
    have hmul : (first + (n + 1)) * x.pitch = (first + n) * x.pitch + x.pitch := Nat.succ_mul (first + n) x.pitch
    rcases Nat.lt_or_ge k n with h | h
    · have : readByte (storeLine ((List.range n).foldl (fun s k => storeLine s x (first + k) (luma.getD k [])) s) x (first + n) (luma.getD n [])) (x.base + (first + k) * x.pitch + b) = readByte ((List.range n).foldl (fun s k => storeLine s x (first + k) (luma.getD k [])) s) (x.base + (first + k) * x.pitch + b) := by
        apply readByte_writeBytes_ne
        left
        have : (first + k + 1) * x.pitch ≤ (first + n) * x.pitch := Nat.mul_le_mul_right _ (by omega)
        have h3 : (first + k + 1) * x.pitch = (first + k) * x.pitch + x.pitch := Nat.succ_mul _ _
        omega
      rw [this]
      exact ih h (fun k hk => hl k (by omega)) (by omega)
    · have : k = n := by omega
      subst this
      unfold storeLine padUnit padTo
      have h2 := hl k (by omega)
      rw [lineBytes_plain _ _ hx, List.take_of_length_le (by omega)]
      rw [readByte_writeBytes_eq]
      · simp only [List.getD_eq_getElem?_getD]
        rw [List.getElem?_append_left (by simp only [List.getD_eq_getElem?_getD] at h2; rw [h2]; exact hb)]
      · simp at h2 ⊢; omega
      · omega

/-- How many pieces a list is cut into. -/
theorem chunks_len (sz n : Nat) (l : List Byte) : (chunksOf sz n l).length = n := by
  induction n generalizing l with
  | zero => rfl
  | succ n ih => simp [chunksOf, ih]

/-- A byte of a piece is the byte of the list. -/
theorem chunks_get (sz n : Nat) (l : List Byte) (k b : Nat) (hk : k < n) (hb : b < sz) : ((chunksOf sz n l).getD k []).getD b 0 = l.getD (k * sz + b) 0 := by
  induction n generalizing l k with
  | zero => omega
  | succ n ih =>
    cases k with
    | zero => simp [chunksOf, hb]
    | succ k =>
      have := ih (l.drop sz) k (by omega)
      simp only [chunksOf, List.getD_cons_succ]
      rw [this]; simp [List.getElem?_drop]; congr 2; rw [Nat.succ_mul]; omega

/-- Each piece has the full size. -/
theorem chunks_size (sz n : Nat) (l : List Byte) (hl : l.length = n * sz) (k : Nat) (hk : k < n) : ((chunksOf sz n l).getD k []).length = sz := by
  induction n generalizing l k with
  | zero => omega
  | succ n ih =>
    have h1 : (n + 1) * sz = n * sz + sz := Nat.succ_mul _ _
    cases k with
    | zero => simp [chunksOf]; omega
    | succ k =>
      simp only [chunksOf, List.getD_cons_succ]
      exact ih (l.drop sz) (by simp [hl, h1]) k (by omega)

/-- An access within one unit is one piece. -/
theorem pieces_one (a n : Nat) (h : a / 256 = (a + n - 1) / 256) (hn : 0 < n) : piecesOf a n = [(a, n)] := by
  unfold piecesOf unitsOf
  rw [if_neg (by omega), ← h]
  simp
  constructor
  · omega
  · rw [Nat.max_eq_left (by omega)]; omega

/-- An allowed write within one unit is a write of its bytes (R371). -/
theorem write_one (s : State) (f : State → Nat → Option Nat) (v : Violation) (a : Nat) (l : List Byte) (h : a / 256 = (a + l.length - 1) / 256) (hn : 0 < l.length)
   (hf : f s a = none) (hr : inRegSpace a = false) : writeUnits s f v a l = writeBytes s a l := by
  unfold writeUnits forEach; rw [pieces_one a _ h hn]
  simp [hf, weirWrite, hr]

/-- An allowed read within one unit is a read of its bytes (R371). -/
theorem read_one (s : State) (f : State → Nat → Option Nat) (v : Violation) (a n : Nat) (h : a / 256 = (a + n - 1) / 256) (hn : 0 < n)
   (hf : f s a = none) (hr : inRegSpace a = false) : readUnits s f v a n = (noteRead s a n 2, readBytes s a n) := by
  have e : weirRead s a n = (noteRead s a n 2, readBytes s a n) := by unfold weirRead; rw [hr, if_neg (by decide)]
  unfold readUnits; rw [pieces_one a _ h hn]
  simp only [List.foldl_cons, List.foldl_nil, hf, e, List.nil_append]

/-- The store's bytes, or what was written of them, keep the canonical form. -/
theorem memInv_writeBytes (s : State) (a : Nat) (l : List Byte) (h : MemInv s) : MemInv (writeBytes s a l) := by
  simp only [MemInv, writeBytes]
  generalize List.take _ l = l'
  exact memWrite_wf _ _ _ h

/-- A run of units cleared reads as clear, every other unit as before. -/
theorem tget_clearRun (u : Nat) : ∀ (b k : Nat) (p : Tab Bool), tget false ((List.range k).foldl (fun p i => tset false p (b + i) false) p) u
    = (tget false p u && !decide (b ≤ u ∧ u < b + k)) := by
  intro b k
  induction k with
  | zero => intro p; simp; omega
  | succ k ih =>
    intro p
    rw [List.range_succ, List.foldl_append]
    simp only [List.foldl_cons, List.foldl_nil, tget_tset, ih]
    by_cases hu : u = b + k
    · subst hu; simp
    · rw [if_neg hu]
      have e : (b ≤ u ∧ u < b + k) ↔ (b ≤ u ∧ u < b + (k + 1)) := by omega
      rw [decide_eq_decide.2 e]

/-- The units that clearPoison clears are those that lie whole in the range. -/
theorem unit_whole (a n u : Nat) : ((a + 255) / 256 ≤ u ∧ u < (a + 255) / 256 + ((a + n) / 256 - (a + 255) / 256)) ↔
    (a ≤ 256 * u ∧ 256 * u + 256 ≤ a + n) := by omega

/-- Clearing poison: the units a write covers whole read as clear, every other as before (R108). -/
theorem tget_clearPoison (p : Tab Bool) (a n u : Nat) :
    tget false (clearPoison p a n) u = (tget false p u && !decide (a ≤ 256 * u ∧ 256 * u + 256 ≤ a + n)) := by
  refine (tget_clearRun u _ _ p).trans ?_
  rw [decide_eq_decide.2 (unit_whole a n u)]

end Sys2Proof.Machine
end

