-- ==== Sys2Proof/Laws/Rows.lean ====
section
/-! SUPPORT. Packet rows: a failing check, a timed packet that is armed, the boundary of one that acts now, FLIP lists, and what rings keep. -/
namespace Sys2Proof.Machine
open Sys2Proof

/-- A packet row answers the first check that fails (R68). -/
theorem Ready.fails {s : State} {c : Cmd} {op : Nat} {h : Held} {f : Fail} {i : Instr} {form : Held → Bool}
    {check : State → Held → Cmd → Option Fail} {act : State → Held → Cmd → State} (hr : Ready s c op h) (hf : form h = true)
    (hc : check s h c = some f) (he : exec i s = .next (runPacket s c op form check act)) : Answers i s c h f.1 (nowBits s) f.2 s := by
  refine hr.answers ?_
  rw [he]; unfold runPacket; rw [hr.runDirect_fail hf hc]; rfl

/-- A timed packet that passes its checks is armed (R70). -/
theorem Ready.arms {s : State} {c : Cmd} {op : Nat} {h : Held} {form : Held → Bool} {check : State → Held → Cmd → Option Fail}
    {act : State → Held → Cmd → State} (hr : Ready s c op h) (hf : form h = true) (hc : check s h c = none) (ht : pktTimed h.pkt = true) :
    runPacket s c op form check act = armPacket s h := by
  unfold runPacket; rw [hr.runDirect hf hc]; simp [ht]

/-- A packet that is not armed acts for the next boundary. -/
theorem ReadyNow.boundary {s : State} {c : Cmd} {op : Nat} {h : Held} (hr : ReadyNow s c op h) : actBoundary s h = boundaryAfter (now s) := by
  unfold actBoundary; rw [hr.1.2.2.1]; rfl

/-- What FLIP entries do to one slot (R183). -/
theorem flips_slot (fl : List (Nat × Nat)) : ∀ (s : State) (k : Nat),
    getSlot (forEach fl (fun f s => modSlot s f.1 fun x => { x with pending := x.pending.map fun d => { d with handle := f.2 } }) s) k
    = { getSlot s k with pending := match flipped fl k with
        | some hd => (getSlot s k).pending.map fun d => { d with handle := hd }
        | none => (getSlot s k).pending } := by
  induction fl using List.reverseRecOn with
  | nil => intro s k; simp [forEach, flipped]
  | append_singleton l f ih =>
    intro s k
    unfold forEach at *
    rw [List.foldl_append]
    simp only [List.foldl_cons, List.foldl_nil, getSlot_modSlot]
    have hfl : flipped (l ++ [f]) k = if f.1 = k then some f.2 else flipped l k := by
      unfold flipped; rw [List.reverse_append]
      by_cases h : f.1 = k <;> simp [h]
    rw [hfl]
    by_cases h : f.1 = k
    · subst h; simp only [if_true]; rw [ih]
      cases flipped l f.1 <;> simp [Function.comp_def]
    · rw [if_neg (Ne.symm h), if_neg h, ih]

/-- FLIP entries change slots alone (R183). -/
theorem flips_same (fl : List (Nat × Nat)) : ∀ (s : State),
    ∃ sl, (forEach fl (fun f s => modSlot s f.1 fun x => { x with pending := x.pending.map fun d => { d with handle := f.2 } }) s)
     = { s with comp := { s.comp with slots := sl } } := by
  intro s
  apply forEach_keeps (P := fun t : State => ∃ sl, t = { s with comp := { s.comp with slots := sl } })
  · rintro a t ⟨sl, rfl⟩; exact ⟨_, rfl⟩
  · exact ⟨_, rfl⟩

/-- Replies and events leave a slice's submission rings. -/
theorem sq_fixed {s t : State} (h : fixedOf t = fixedOf s) (j) : (getRings t j).sq = (getRings s j).sq := by
  simpa [fixedOf, ringFixed] using congrArg SliceRings.sq (congrFun h j)

/-- Replies and events leave a slice's held packets. -/
theorem held_fixed {s t : State} (h : fixedOf t = fixedOf s) (j) : (getRings t j).held = (getRings s j).held := by
  simpa [fixedOf, ringFixed] using congrArg SliceRings.held (congrFun h j)

/-- Replies and events leave the head of the reply ring. -/
theorem rqh_fixed {s t : State} (h : fixedOf t = fixedOf s) (j) : (getRings t j).rq.head = (getRings s j).rq.head := by
  simpa [fixedOf, ringFixed] using congrArg (fun r => r.rq.head) (congrFun h j)

/-- Replies and events leave the head of the event ring. -/
theorem eqh_fixed {s t : State} (h : fixedOf t = fixedOf s) (j) : (getRings t j).eq.head = (getRings s j).eq.head := by
  simpa [fixedOf, ringFixed] using congrArg (fun r => r.eq.head) (congrFun h j)

/-- A liveness event that is posted or stays pending keeps what is steady (R35). -/
theorem Steady.postLiveness {P : State → Prop} (k : Steady P) {s : State} (i n : Nat) (v : LiveEvent) (h : P s) : P (postLiveness s i n v).1 := by
  unfold Machine.postLiveness; split
  · exact h
  · have hg := k.guardEvent i (k.flushLost i (k.guardEvent i h))
    dsimp only; split
    · exact k.postEvent _ _ hg
    · exact hg

/-- Sending the liveness events that wait keeps what is steady and what the ledger does not touch (R35). -/
theorem Steady.flushLiveness {P : State → Prop} (k : Steady P) (hl : ∀ s l, P s → P { s with ledger := l }) {s : State} (i : Nat) (h : P s) :
    P (flushLiveness s i) := by
  refine Steady.forEach (fun n t ht => ?_) _ (Steady.forEach (fun o t ht => ?_) _ h)
  · dsimp only; split
    · rename_i v _
      split
      · exact ht
      · have := k.postLiveness i n v ht
        split <;> rename_i e <;> rw [e] at this
        · exact hl _ _ this
        · exact this
    · exact ht
  · have := k.postLiveness i o.1 o.2.2 ht
    split <;> rename_i e <;> rw [e] at this
    · exact hl _ _ this
    · exact this

/-- Sending the liveness events that wait changes no ring's fixed part. -/
theorem fixed_flushLiveness (s : State) (i : Nat) : fixedOf (flushLiveness s i) = fixedOf s :=
  (steady_fixedOf s).flushLiveness (fun _ _ h => h) i rfl

/-- A row that sends one packet leaves the rest. -/
theorem leaves_route (s : State) (i : Instr) (e : State) (p : Pkt) (h : exec i s = .next (routePkt e none p)) : Leaves i s e :=
  ⟨_, h, by simp, fun j => by exact congrFun (fixedOf_routePkt e none p) j, sameBytes_of_outside (by simp)⟩

end Sys2Proof.Machine
end

