-- ==== Sys2Proof/WellFormed.lean ====
section
/-! DEFINITION. What a well-formed command is: every operand within the range that the table's row gives the unit, register or packet it names.  A command outside these ranges names nothing that the device has. -/
namespace Sys2Proof

/-- The bounds of the operand that packet rows share: a slice, a ring, a packet's number on it. -/
def cmdBounds (c : Cmd) : List (Nat × Nat) := [(c.slice, 65), (c.ring, 4), (c.index, 2 ^ 64)]

/-- The operands of a command, each with the bound it lies below. -/
def Instr.bounds : Instr → List (Nat × Nat)
  | .powerInputInRange => []
  | .powerInputFall => []
  | .rstNAssert => []
  | .perstNAssert => []
  | .perstNRelease => []
  | .pcieHotReset => []
  | .pcieLinkUp => []
  | .lockedClocksRelease => []
  | .bootRomVerifyComplete _ _ => []
  | .storeTrainingComplete _ => []
  | .startupZeroFillComplete _ => []
  | .deviceReady => []
  | .trialBootTimeout => []
  | .lockkeeperWatchdogExpiry _ => []
  | .lockkeeperRestartComplete _ => []
  | .railOutOfTolerance _ => []
  | .lockkeeperMemoryEcc => []
  | .thermalSensorCrossing temps => [(temps.length, 9)]
  | .thermalTrip temps => [(temps.length, 9)]
  | .deviceResetDelayExpiry => []
  | .fwActivateRestartDelay => []
  | .sqTailDoorbell slice ring tail => [(slice, 65), (ring, 4), (tail, 2 ^ 32)]
  | .ringEnableWrite slice which value => [(slice, 65), (which, 6), (value, 2 ^ 32)]
  | .ringErrorClear slice which => [(slice, 65), (which, 6)]
  | .rqHeadWrite slice head => [(slice, 65), (head, 2 ^ 32)]
  | .eqHeadWrite slice head => [(slice, 65), (head, 2 ^ 32)]
  | .packetFetch slice _ _ _ => [(slice, 65)]
  | .interruptHoldoffExpiry slice which => [(slice, 65), (which, 6)]
  | .armedCommandActs c => cmdBounds c
  | .nop c => cmdBounds c
  | .surfaceAlloc c => cmdBounds c
  | .surfaceRelease c => cmdBounds c
  | .surfaceReleaseComplete handle => [(handle, 2 ^ 32)]
  | .surfaceWrite c => cmdBounds c
  | .surfaceRead c => cmdBounds c
  | .surfaceFence c => cmdBounds c
  | .surfaceFenceMet c => cmdBounds c
  | .surfaceFenceTimeout c => cmdBounds c
  | .paletteLoad c => cmdBounds c
  | .layerSet c => cmdBounds c
  | .layerClear c => cmdBounds c
  | .commit c => cmdBounds c
  | .commitGroupDefine c => cmdBounds c
  | .coeffLoad c => cmdBounds c
  | .bankAssign c => cmdBounds c
  | .outputConfigure c => cmdBounds c
  | .outputEnable c => cmdBounds c
  | .outputEnableStart output => [(output, 8)]
  | .outputEnableTimeout output => [(output, 8)]
  | .outputDisable c => cmdBounds c
  | .outputDisableAct output => [(output, 8)]
  | .rectCheckSetSet c => cmdBounds c
  | .rectCheckSetRemove c => cmdBounds c
  | .rectCheckSetRearm c => cmdBounds c
  | .rectCheckSetRead c => cmdBounds c
  | .selfRefreshRequest c => cmdBounds c
  | .bankRehearse c => cmdBounds c
  | .bankRehearseEnd => []
  | .sourceAttach c => cmdBounds c
  | .sourceDetach c => cmdBounds c
  | .flowSetPort c => cmdBounds c
  | .flowSetRule c => cmdBounds c
  | .flowSetBind c => cmdBounds c
  | .flowSetQueue c => cmdBounds c
  | .flowSetTransmit c => cmdBounds c
  | .dpinConfigure c => cmdBounds c
  | .decodeStatus c => cmdBounds c
  | .encodeOpen c => cmdBounds c
  | .encodeSetRate c => cmdBounds c
  | .keyPicture c => cmdBounds c
  | .encodeClose c => cmdBounds c
  | .encodeCloseComplete session => [(session, 16)]
  | .livenessSet c => cmdBounds c
  | .heartbeat c => cmdBounds c
  | .ledgerRead c => cmdBounds c
  | .treatmentAssets c => cmdBounds c
  | .refTableSetEntry c => cmdBounds c
  | .refTableSetOutputs c => cmdBounds c
  | .refStatus c => cmdBounds c
  | .wallTimingSet c => cmdBounds c
  | .realignJump c => cmdBounds c
  | .realignSlew c => cmdBounds c
  | .realignCancel c => cmdBounds c
  | .realignSlewComplete => []
  | .ptpPortSetPort c => cmdBounds c
  | .ptpPortSetEvent c => cmdBounds c
  | .eventStampRead c => cmdBounds c
  | .timeStep c => cmdBounds c
  | .timeRateAdjust c => cmdBounds c
  | .fabricStatus c => cmdBounds c
  | .fabricRouteSet c => cmdBounds c
  | .fabricExport c => cmdBounds c
  | .fabricImport c => cmdBounds c
  | .laneEyeScan c => cmdBounds c
  | .laneEyeScanComplete c => cmdBounds c
  | .portControlEnable c => cmdBounds c
  | .portControlDisable c => cmdBounds c
  | .portControlReset c => cmdBounds c
  | .portControlPreset c => cmdBounds c
  | .keysConfigure c => cmdBounds c
  | .keySelftest c => cmdBounds c
  | .keySelftestComplete _ => []
  | .touchPortSet c => cmdBounds c
  | .hapticConfigure c => cmdBounds c
  | .hapticPlay c => cmdBounds c
  | .audioStreamSetOpen c => cmdBounds c
  | .audioStreamSetClose c => cmdBounds c
  | .audioStreamSetGain c => cmdBounds c
  | .audioStreamSetGlobal c => cmdBounds c
  | .tonePlay c => cmdBounds c
  | .gaugeSet c => cmdBounds c
  | .gaugeRead c => cmdBounds c
  | .countersRead c => cmdBounds c
  | .faultRead c => cmdBounds c
  | .faultClear c => cmdBounds c
  | .weirRuleSetWrite c => cmdBounds c
  | .weirRuleSetRead c => cmdBounds c
  | .weirBarrier c => cmdBounds c
  | .weirBarrierDrained c => cmdBounds c
  | .weirBarrierTimeout c => cmdBounds c
  | .weirViolationRead c => cmdBounds c
  | .weirViolationClear c => cmdBounds c
  | .weirLock c => cmdBounds c
  | .sliceCreate c => cmdBounds c
  | .sliceBindPasid c => cmdBounds c
  | .sliceSetShare c => cmdBounds c
  | .sliceQuiesce c => cmdBounds c
  | .sliceQuiesced slice => [(slice, 65)]
  | .sliceFreeze c => cmdBounds c
  | .sliceFrozen slice => [(slice, 65)]
  | .sliceWaitTimeout c => cmdBounds c
  | .sliceReset c => cmdBounds c
  | .sliceDestroy c => cmdBounds c
  | .sliceSave c => cmdBounds c
  | .sliceSaveComplete c => cmdBounds c
  | .sliceRestore c => cmdBounds c
  | .sliceRestoreComplete c => cmdBounds c
  | .sliceThaw c => cmdBounds c
  | .sliceQuery c => cmdBounds c
  | .orphanRetired slice => [(slice, 65)]
  | .orphanAbortLimit slice => [(slice, 65)]
  | .fwStage c => cmdBounds c
  | .fwVerify c => cmdBounds c
  | .fwVerifyComplete _ => []
  | .fwActivate c => cmdBounds c
  | .deviceReset c => cmdBounds c
  | .engineReinit c => cmdBounds c
  | .engineSelfCheckComplete _ _ _ _ => []
  | .identify c => cmdBounds c
  | .ledgerEvaluation _ _ => []
  | .wallFrameBoundary => []
  | .groupHoldExpiry slice group => [(slice, 65), (group, 8)]
  | .outputFrameStart output => [(output, 8)]
  | .outputLineStart output _ => [(output, 8)]
  | .rectEvaluate output rect => [(output, 8), (rect, 16)]
  | .hpdRise output => [(output, 8)]
  | .irqHpd output => [(output, 8)]
  | .hpdFall output => [(output, 8)]
  | .linkTrainingEnd output _ _ _ _ edid _ => [(output, 8), (edid.length, 513)]
  | .linkRetryTimer output => [(output, 8)]
  | .bankPipeWatchdog output => [(output, 8)]
  | .bankStoreEccFault output => [(output, 8)]
  | .takeoverArmed output _ => [(output, 8)]
  | .bankSelfCheckEnd bank _ _ => [(bank, 2)]
  | .bankHoldoffExpiry bank => [(bank, 2)]
  | .reservoirRequestServed pc _ ecc => [(pc, 32), (ecc, 5)]
  | .patrolScrub addr ecc => [(addr, 2 ^ 64), (ecc, 3)]
  | .zeroFillComplete _ => []
  | .writerPassStart handle => [(handle, 2 ^ 32)]
  | .writerLineComplete handle _ ecc => [(handle, 2 ^ 32), (ecc, 3)]
  | .lineLedgerRebuilt index => [(index, 16384)]
  | .sluiceLaneTakeWork lane => [(lane, 2)]
  | .sluiceRowComplete lane _ => [(lane, 2)]
  | .decodeContextSchedule core _ => [(core, 8)]
  | .decodeCtuRowDone core _ => [(core, 8)]
  | .decodeCoreIdleTimer core => [(core, 8)]
  | .reservoirIdleTimer => []
  | .encodeCoreSchedule core => [(core, 2)]
  | .encodeCtuRowCoded core _ => [(core, 2)]
  | .ethFrameReceived port _ _ _ => [(port, 2)]
  | .reorderHoldTimeout rule => [(rule, 512)]
  | .rxTailDoorbell queue tail => [(queue, 16), (tail, 2 ^ 32)]
  | .txTailDoorbell queue tail => [(queue, 16), (tail, 2 ^ 32)]
  | .ethFrameTransmit port _ => [(port, 2)]
  | .rtpTransmitUnit stream => [(stream, 16)]
  | .dpinHpdPulseEnd input => [(input, 4)]
  | .dpinTrainingStart input => [(input, 4)]
  | .dpinTrainingEnd input _ _ _ => [(input, 4)]
  | .dpinVideoChange input _ => [(input, 4)]
  | .dpinFrameStart input _ => [(input, 4)]
  | .dpinActiveLine input _ => [(input, 4)]
  | .dpinLockLoss input => [(input, 4)]
  | .dpinSymbolError e => [(e.input, 4), (e.lane, 4)]
  | .refMeasurementIntervalEnd entry _ _ _ => [(entry, 8)]
  | .refLossCondition entry => [(entry, 8)]
  | .refQualifyTimer entry => [(entry, 8)]
  | .refDisqualifyTimer entry => [(entry, 8)]
  | .dpllLockComplete _ => []
  | .historySecondTick _ => []
  | .refoutPulse which => [(which, 2)]
  | .ptpDelayReqSend port => [(port, 2)]
  | .ptpSyncTimeout port => [(port, 2)]
  | .ptpAnnounceTimeout port => [(port, 2)]
  | .ptpLockHoldLapse port => [(port, 2)]
  | .eventInputEdge input _ => [(input, 8)]
  | .todenHelloSend port => [(port, 4)]
  | .todenHelloReceived port bits _ => [(port, 4), (bits.length, 5)]
  | .todenHelloSilence port => [(port, 4)]
  | .todenLockLoss l => [(l.port, 4), (l.lane, 5)]
  | .todenTrainingPhaseComplete port => [(port, 4)]
  | .todenPhaseTimeout port => [(port, 4)]
  | .todenBackoffExpiry port => [(port, 4)]
  | .todenMarkReceived port _ at_ => [(port, 4), (at_.fine, 64), (at_.sub, 2 ^ 32)]
  | .todenEpochReceived port epoch => [(port, 4), (epoch.length, 9)]
  | .delayMeasureSend port => [(port, 4)]
  | .delayMeasureRequest port => [(port, 4)]
  | .delayMeasureResponse port _ => [(port, 4)]
  | .controlMessage port bits => [(port, 4), (bits.length, 5)]
  | .framePacket port bits => [(port, 4), (bits.length, 5)]
  | .linePacket port bits => [(port, 4), (bits.length, 5)]
  | .importLineComplete source => [(source, 4096)]
  | .statePacket port bits => [(port, 4), (bits.length, 5)]
  | .streamPacket port bits => [(port, 4), (bits.length, 5)]
  | .transitRingFree origin exportId => [(origin, 4096), (exportId, 4096)]
  | .remoteWrite port bits => [(port, 4), (bits.length, 5)]
  | .remoteRead port bits => [(port, 4), (bits.length, 5)]
  | .remoteData port bits => [(port, 4), (bits.length, 5)]
  | .interruptPacket port bits => [(port, 4), (bits.length, 5)]
  | .headlessDetect => []
  | .remoteClaimLost => []
  | .keyScan counts => [(counts.length, 49)]
  | .keyMaxOnExpiry object => [(object, 48)]
  | .touchAttnEdge port => [(port, 4)]
  | .touchReportRead port report _ => [(port, 4), (report.length, 65536)]
  | .touchReadTimeout port _ => [(port, 4)]
  | .touchAttnIdleTimeout port => [(port, 4)]
  | .hapticDrivePeriod channel _ => [(channel, 8)]
  | .hapticFault channel _ _ => [(channel, 8)]
  | .audioSample _ => []
  | .audioProducedPoll _ => []
  | .fabricWindowAccess _ offset size value => [(offset, 2 ^ 32), (size, 9), (value, 2 ^ 64)]
  | .fabricWindowReadTimeout => []
  | .fwinTimeoutClear => []
  | .firqPop => []
  | .resetReqWrite value => [(value, 2 ^ 32)]
  | .bar2ApertureAccess _ offset _ => [(offset, 2 ^ 32)]
  | .gaugeLastRead unit => [(unit, 8)]
  | .registerLowerHalfRead offset => [(offset, 2 ^ 32)]
  | .registerWrite offset size value => [(offset, 2 ^ 32), (size, 9), (value, 2 ^ 64)]
  | .debugAccess _ addr _ => [(addr, 2 ^ 64)]
  | .smbStatus => []
  | .smbIdent => []
  | .smbTemp temps => [(temps.length, 9)]
  | .smbSensors temps => [(temps.length, 9)]
  | .smbVin _ => []
  | .smbIin _ => []
  | .smbPin _ => []
  | .smbFaultCount => []
  | .smbFaultIndex index => [(index, 256)]
  | .smbFaultRecord => []
  | .smbFaultNewest => []
  | .smbReset value => [(value, 256)]
  | .smbAlertResponse => []
  | .rstNRelease => []
  | .heldResetRelease temps => [(temps.length, 9)]
  | .ethernetLinkChange port _ _ _ _ => [(port, 2)]
  | .dpinLockRegained input => [(input, 4)]
  | .creditBlockReceived port _ _ => [(port, 4)]
  | .holdoffSelfCheckError bank _ => [(bank, 2)]
  | .msixVectorUnmask vector => [(vector, 1088)]
  | .dbgKillFuseWrite => []
  | .pcieLoopbackEntry => []
  | .pcieLoopbackExit => []

/-- A command is well formed when each operand lies below its bound. -/
def Instr.wf (i : Instr) : Bool := i.bounds.all fun b => decide (b.1 < b.2)

end Sys2Proof
end

