-- ==== Sys2Proof/Tests/Slice0.lean ====
section
/-! SUPPORT. The model's own tests: what well-formedness refuses, worked examples of the spec, and for each obligation a state that meets its hypotheses. -/
set_option Elab.async false
namespace Sys2Proof.Tests
open Sys2Proof Sys2Proof.Machine

/-- A packet of an opcode with some fields. -/
def pkt (op : Nat) (l : List Field) : Packet := BitVec.ofNat 512 (packFields (fAt 0 0 12 op :: fAt 2 0 8 64 :: fAt 4 0 32 7 :: l))

/-- A held packet of slice 0. -/
def hp (op : Nat) (l : List Field) : Held := { pkt := pkt op l }

/-- The held packet of slice 0, ring 0, index 0. -/
def c0 : Cmd := {}

/-- A machine that is READY, somewhere in wall frame 5. -/
def up : State := { State.reset with
  time := { State.reset.time with running := true, wp := ⟨5, 7, 100⟩, timing := { wallId := 7 } }
  fabric := { rootId := 3 }
  boot := { State.reset.boot with state := .ready, lk := .running, wasReady := true, filled := true, uptime := 100000000000 * 4294967296 }
  regs := { State.reset.regs with linkUp := true }
  power := { State.reset.power with inRange := true } }

/-- s with h held alone. -/
def on (s : State) (h : Held) : State := modRings s h.slice fun r => { r with held := [h] }

/-- s with slice 1 in a state. -/
def sl1 (s : State) (st : SliceState) : State := modSlice s 1 fun _ => { state := st, pasid := some 5, share := managerSlice.share }

/-- s with a surface of slice 0 at index 0, 64 pixels of 4 bytes by 8 lines; its handle is 16384. -/
def surf (s : State) (f : Surface → Surface) : State := modSurf s 0 fun _ => f
  { used := true, gen := 1, format := 0x11, width := 64, height := 8, pitch := 256, base := 0x10000000, granules := 1 }

/-- s with output 0 configured as f makes it. -/
def outp (s : State) (f : OutputSt → OutputSt) : State := modOut s 0 fun x => f { x with
  cfg := { hActive := 64, vActive := 4, vOut := 10, ratio := 1, lanes := 4, maxRate := 0 } }

/-- An Ethernet frame without its FCS: IPv4, UDP from port 4660 to port 5000, to the station 02:03:04:05:06:07. -/
def udp : List Byte := [2, 3, 4, 5, 6, 7, 0, 0, 0, 0, 0, 1, 8, 0, 0x45, 0, 0, 0x20, 0, 0, 0x40, 0] ++
  [0x40, 0x11, 0x26, 0xCB, 10, 0, 0, 1, 10, 0, 0, 2, 0x12, 0x34, 0x13, 0x88, 0, 12, 0, 0, 1, 2, 3, 4]

/-- The parameter sets of a 64 by 8 H.264 picture, and a picture of them. -/
def seq0 : SeqInfo := { h265 := false, profile := 100, constraint1 := false, compatMain := false, compatMain10 := false, level := 30, highTier := false
                        interlaced := false, chroma := 1, depth := 8, depthC := 8, codedW := 64, codedH := 8, width := 64, height := 8, cropLeft := 0, cropTop := 0, refs := 1, ctu := 16, tileCols := 1 }

/-- A picture of those parameter sets. -/
def pic0 : PicInfo := { seq := seq0, poc := 0, frameNum := 0, maxFrameNum := 16, refs := [], keep := [], await := [], gap := false }

/-- An access unit with one IDR slice. -/
def au0 : AccessUnit := { nals := [[0x65, 0x88, 0x80]], complete := true }

/-- A DECODED source 3 with surface 0 for its buffer. -/
def src3 : State := modEntry (surf { up with media := { up.media with sources := [(3, { fmt := 0x20, maxW := 64, maxH := 64 })] } } fun x =>
  { x with source := some 3, writer := .decode, users := 1, format := 0x20, pitch := 64 }) 3 fun e => { e with valid := true, kind := .decoded, period := 2250, deadline := 9000 }

/-- A row of a picture, with no samples. -/
def row0 : DecodedRow := { luma := [], chroma := [], damaged := false, fills := [], starved := false, ctus := 0, reads := [], us := 1 }

/-- A coded row of 8 bits. -/
def crow : CodedRow := { bits := 8, bytes := [1], head := [], weights := [1, 1], cus := [], luma := [], chroma := [] }

/-- A DPIN source 3 with surface 0 for its buffer. -/
def src3d : State := modEntry (surf { up with media := { up.media with sources := [(3, { fmt := 0x11, maxW := 64, maxH := 64 })] } } fun x =>
  { x with source := some 3, writer := .dpin, users := 1 }) 3 fun e => { e with valid := true, kind := .dpin }

/-- The attributes of a 64 by 8 RGB frame. -/
def msa0 : Msa := { hActive := 64, vActive := 8, hTotal := 80, vTotal := 10, bpc := 8, encoding := 0, interlaced := false, rate := 1000 }

/-- A device of address 5 with device 9 behind its port 0. -/
def fab : State := { up with
  fabric := { up.fabric with
    addr := 5
    ports := [(0, { state := .forwarding })]
    routes := [(0, { low := 5, high := 5, port := 15, enable := true }), (1, { low := 9, high := 9, port := 0, enable := true })] } }

/-- The boot ROM runs. -/
def boot0 : State := { State.reset with
  boot := { State.reset.boot with uptime := 100000000000 * 4294967296 }
  time := { State.reset.time with running := true }
  power := { State.reset.power with inRange := true } }

/-- An IMPORT source 3 on the fabric, bound to export 7 of device 9, with surface 0 for its buffer. -/
def imp3 : State := modImport (modEntry (surf { fab with media := { fab.media with sources := [(3, { fmt := 0x11, maxW := 64, maxH := 64 })] } } fun x =>
  { x with source := some 3, writer := .fabric, users := 1 }) 3 fun e => { e with valid := true, kind := .imported }) 3 fun _ => { used := true, origin := 9, exportId := 7 }

/-- A raw block of 16 bytes with its length, numbered i. -/
def block0 (i : Nat) : List Byte :=
  let b := bytesLE 4 (1 + 16 * 8 + 65536 + 15 * 131072) ++ List.replicate 16 7
  b ++ bytesLE 4 (blockCheck i b)

/-- What the four lanes carry of a packet. -/
def wire (p : Pkt) : List (List Bool) := (putBlocks { txBlocks := 4 } (packetBlocks (sopBytes p) p.payload ((pktBytes p).drop (32 + p.payload.length)))).2

/-- s with a packet whole at the lanes of a port. -/
def atLanes (s : State) (port : Nat) (p : Pkt) : State :=
  let l := packetBlocks (sopBytes p) p.payload ((pktBytes p).drop (32 + p.payload.length))
  modTod s port fun x => { x with rx := (List.range 4).map fun n =>
    { blocks := (List.range l.length).filterMap fun k => if k % 4 = n then l[k]?.map fun b => { header := b.1, bytes := b.2 } else none } }

/-- A report descriptor with one Finger collection: tip, contact identifier, X and Y. -/
def hidDesc : List Byte := [0x05, 0x0D, 0x09, 0x04, 0xA1, 0x01, 0x09, 0x22, 0xA1, 0x02, 0x75, 0x08, 0x95, 0x01, 0x09, 0x42] ++
  [0x81, 0x02, 0x09, 0x51, 0x81, 0x02, 0x05, 0x01, 0x75, 0x10, 0x09, 0x30, 0x81, 0x02, 0x09, 0x31] ++ [0x81, 0x02, 0xC0, 0xC0]

/-- A buffer at surface 0 with a haptic library: wave 1 is 4 samples of 5 at offset 64. -/
def lib0 : State := { surf up fun x => { x with format := 0, length := 4096 } with
  store := { (surf up fun x => { x with format := 0, length := 4096 }).store with
    mem := [(0x10000008, 64), (0x1000000C, 4), (0x10000040, 5), (0x10000041, 5), (0x10000042, 5), (0x10000043, 5)] } }

/-- A share record as a number. -/
def share1 : Nat := shareBits { capacity := 100, handles := 4, sources := 4, stWeight := 1, beWeight := 1, layers := 2, decodeCtx := 1, cmdRate := 10, queueLimit := 16 }

/-- The header of an image of slice 1 with content, its body's length and check. -/
def head1 (n crc : Nat) : List Byte :=
  bytesLE 64 (packFields [fAt 0 0 32 0x445A5349, fAt 4 0 16 1, fAt 20 0 7 1, fAt 22 0 1 1, fAt 36 0 32 n, fAt 40 0 32 crc])

/-- The body of such an image: one raw block that holds the slice's share record, and zeros. -/
def body1 : List Byte := packBlock 0 true 0 (some 40) (section_ 1 (bytesLE 32 share1)) ++ List.replicate 4048 0

/-- An image of slice 1, whole. -/
def image1 : List Byte := head1 4096 3248455613 ++ body1

/-- What body1 holds. -/
def held1 : Image := (readSections 1 40 {} (section_ 1 (bytesLE 32 share1))).getD {}



theorem also {a b c d e : Prop} (h : a ∧ b ∧ c ∧ d) (r : e) : a ∧ b ∧ c ∧ d ∧ e := ⟨h.1, h.2.1, h.2.2.1, h.2.2.2, r⟩

theorem pair_some {α β : Type} {p : α × Option β} {d : β} (h : p.2.isSome = true) : p = (p.1, some (p.2.getD d)) := by
  obtain ⟨a, _ | b⟩ := p
  · cases h
  · rfl

theorem keys_apart {P : Nat → Prop} {n : Nat} (h : ∀ m ∈ List.range 48, m ≠ n → P m) : ∀ m, m < 48 → m ≠ n → P m :=
  fun m hm => h m (List.mem_range.2 hm)

theorem pair_of {α β : Type} {p : α × β} {b : β} (h : p.2 = b) : p = (p.1, b) := by
  subst h; rfl

theorem pair_ok {α β ε : Type} {p : α × Except ε β} {d : β} (h : p.2.toOption.isSome = true) : p = (p.1, .ok (p.2.toOption.getD d)) := by
  obtain ⟨a, _ | b⟩ := p
  · cases h
  · rfl

theorem pair_eta {α β : Type} {p : α × β} : p = (p.1, p.2) := rfl

theorem ok_eq {α β : Type} {e : Except α β} {b : β} (h : e.toOption = some b) : e = .ok b := by
  cases e
  · cases h
  · exact congrArg _ (Option.some.inj h)

theorem ok_of {α β : Type} {e : Except α β} {d : β} (h : e.toOption.isSome = true) : e = .ok (e.toOption.getD d) := by
  cases e
  · cases h
  · rfl

theorem error_of {α β : Type} [DecidableEq α] {e : Except α β} {a : α} (h : (match e with | .error x => decide (x = a) | .ok _ => false) = true) : e = .error a := by
  cases e
  · exact congrArg _ (of_decide_eq_true h)
  · cases h

/-- The image of R193 whose every phase has one coefficient of 256. -/
def coeffImage : List Byte := (List.replicate 64 (0 :: 1 :: List.replicate 14 0)).flatten ++ (List.replicate 64 (0 :: 1 :: List.replicate 10 0)).flatten

theorem phaseFail_drop (l : List Byte) (off n : Nat) : phaseFail l off n = phaseFail (l.drop off) 0 n := by
  have e : ∀ k, leAt (l.drop off) (0 + 2 * k) 2 = leAt l (off + 2 * k) 2 := fun k => by simp [leAt, List.drop_drop]
  simp only [phaseFail, e]

theorem phaseFail_row (row r : List Byte) (n : Nat) (h : row.length = 2 * n) : phaseFail (row ++ r) 0 n = phaseFail row 0 n := by
  have e : (List.range n).map (fun k => leAt (row ++ r) (0 + 2 * k) 2) = (List.range n).map (fun k => leAt row (0 + 2 * k) 2) :=
    List.map_congr_left fun k hk => by
      have := List.mem_range.1 hk
      simp only [leAt]
      rw [List.drop_append_of_le_length (by omega), List.take_append_of_le_length (by simp; omega)]
  simp only [phaseFail, e]

theorem drop_rows (row rest : List Byte) (n p : Nat) (h : p < n) :
    ∃ r, ((List.replicate n row).flatten ++ rest).drop (row.length * p) = row ++ r := by
  induction n generalizing p with
  | zero => omega
  | succ n ih =>
    rw [List.replicate_succ, List.flatten_cons, List.append_assoc]
    cases p with
    | zero => exact ⟨_, rfl⟩
    | succ p =>
      obtain ⟨r, e⟩ := ih p (by omega)
      exact ⟨r, by rw [Nat.mul_succ, Nat.add_comm, ← List.drop_drop, List.drop_left, e]⟩

theorem coeffImage_good : imageFail coeffImage = none := by
  refine List.findSome?_eq_none_iff.2 fun p hp => ?_
  have hp := List.mem_range.1 hp
  obtain ⟨r, e⟩ := drop_rows (0 :: 1 :: List.replicate 14 0) ((List.replicate 64 (0 :: 1 :: List.replicate 10 0)).flatten) 64 p hp
  obtain ⟨r', e'⟩ := drop_rows (0 :: 1 :: List.replicate 10 0) [] 64 p hp
  have h1 : phaseFail coeffImage (16 * p) 8 = none := by
    rw [phaseFail_drop]; unfold coeffImage; rw [show (16 : Nat) = (0 :: 1 :: List.replicate 14 (0 : Byte)).length from rfl, e, phaseFail_row _ _ _ rfl]; decide +kernel
  have h2 : phaseFail coeffImage (1024 + 12 * p) 6 = none := by
    rw [phaseFail_drop, ← List.drop_drop]; unfold coeffImage
    rw [List.drop_left' (by decide +kernel), ← List.append_nil (List.flatten _), show (12 : Nat) = (0 :: 1 :: List.replicate 10 (0 : Byte)).length from rfl, e', phaseFail_row _ _ _ rfl]; decide +kernel
  rw [h1, h2]; rfl

/-- A queue whose ring is on the host takes the descriptor the host answers with. -/
theorem nextDesc_host {s : State} {q : Nat} {x : HostQueue} {host : List HostDesc} {d : HostDesc} (he : x.enable = true) (hn : (x.rxHead == x.rxTail) = false)
    (hr : queueReach s x = true) (hs : x.space = false) (hf : (host.find? fun d => d.queue == q && d.index == x.rxHead.toNat && d.ok) = some d) :
    nextDesc s q x false host = (s, some d) := by
  simp [nextDesc, he, hn, hr, hs, hf]

/-- A HELLO packet of 32 payload bytes, the first eight of them x. -/
def helloPkt (x : List Byte) : Pkt := { dest := 4095, src := 9, vc := 1, kind := 1, payload := x ++ List.replicate 24 0 }

theorem parse_hello (x : List Byte) (h : x.length = 8) : parsePkt (pktBytes (helloPkt x)) = some (helloPkt x) := by
  obtain ⟨a, b, c, d, e, f, g, i, rfl⟩ : ∃ a b c d e f g i, x = [a, b, c, d, e, f, g, i] := by
    match x, h with
    | [a, b, c, d, e, f, g, i], _ => exact ⟨a, b, c, d, e, f, g, i, rfl⟩
  have hs : sopBytes (helloPkt [a, b, c, d, e, f, g, i]) = sopBytes (helloPkt (List.replicate 8 0)) := rfl
  have hl : sopBytes (helloPkt (List.replicate 8 0)) = [0x4B, 0xFF, 0x0F, 9, 0, 5, 0, 0, 0, 0, 0, 0, 32, 0, 0, 0, 0, 0, 0, 0, 0, 0, 0, 0, 0, 0, 0, 0, 0, 0, 0, 0] := by decide +kernel
  have hk := natLE_bytesLE 4 (crc32c ((sopBytes (helloPkt [a, b, c, d, e, f, g, i]) ++ (helloPkt [a, b, c, d, e, f, g, i]).payload).drop 1))
  rw [Nat.mod_eq_of_lt (show _ < 256 ^ 4 from crc32c_lt _), hs, hl] at hk
  unfold pktBytes
  simp only [hs, hl]
  generalize hK : crc32c _ = K at hk ⊢
  unfold parsePkt
  rw [if_neg]
  · simp [helloPkt, leAt, byteAt, natLE, bitAt, bitsAt]
  · simp only [bne_iff_ne, Bool.or_eq_true, not_or, not_not]
    exact ⟨rfl, hk.trans hK.symm⟩

/-- The SOP of such a packet does not depend on its payload's bytes. -/
def helloSop : List Byte := sopBytes (helloPkt (List.replicate 8 0))

/-- Port 1 in training, its partner's first HELLO waiting at its lanes: eight bytes x of the payload, and the packet check k. -/
def trainer (x k : List Byte) : State := modTod fab 1 fun p => { p with
  state := .training, phase := 3
  rx := [{ blocks := [{ header := 2, bytes := helloSop }] }, { blocks := [{ header := 1, bytes := x ++ List.replicate 24 0 }] },
    { blocks := [{ header := 2, bytes := [0x55, 32, 0, 0] ++ k ++ List.replicate 24 0 }] }, {}] }

theorem lanes_hello (x k : List Byte) (hx : x.length = 8) (hk : k.length = 4) :
    (takeLanes (trainer x k) 1 []).2 = some (helloSop ++ (x ++ List.replicate 24 0) ++ k) ∧ (getTod (takeLanes (trainer x k) 1 []).1 1).state = .training ∧
    (takeLanes (trainer x k) 1 []).1.gauge.units = [] := by
  obtain ⟨a, b, c, d, e, f, g, i, rfl⟩ : ∃ a b c d e f g i, x = [a, b, c, d, e, f, g, i] := by
    match x, hx with
    | [a, b, c, d, e, f, g, i], _ => exact ⟨a, b, c, d, e, f, g, i, rfl⟩
  obtain ⟨p, q, r, t, rfl⟩ : ∃ p q r t, k = [p, q, r, t] := by
    match k, hk with
    | [p, q, r, t], _ => exact ⟨p, q, r, t, rfl⟩
  exact ⟨rfl, rfl, rfl⟩

/-- The packet check of such a HELLO. -/
def helloCheck (x : List Byte) : List Byte := bytesLE 4 (crc32c ((sopBytes (helloPkt x) ++ (helloPkt x).payload).drop 1))

theorem sop_hello (x : List Byte) (h : x.length = 8) : sopBytes (helloPkt x) = helloSop := by
  simp only [helloSop, sopBytes, helloPkt, List.length_append, h, List.length_replicate]

theorem gauge_off (s : State) (p : Nat) (q : Pkt) (h : s.gauge.units = []) : gaugePkt s p q = s := by
  unfold gaugePkt forEach
  induction List.range 8 with
  | nil => rfl
  | cons a l ih => rw [List.foldl_cons]; dsimp only; rw [h]; exact ih

theorem take_hello (x : List Byte) (h : x.length = 8) :
    ∃ u, takePkt (trainer x (helloCheck x)) 1 1 [] = (u, some { helloPkt x with hops := 1 }) ∧ (getTod u 1).state = .training := by
  obtain ⟨hl, hu, hq⟩ := lanes_hello x (helloCheck x) h (length_bytesLE _ _)
  have hp : helloSop ++ (x ++ List.replicate 24 0) ++ helloCheck x = pktBytes (helloPkt x) := by
    unfold pktBytes helloCheck; rw [sop_hello x h]; rfl
  rw [hp] at hl
  refine ⟨(takeLanes (trainer x (helloCheck x)) 1 []).1, ?_, hu⟩
  unfold takePkt
  rw [show takeLanes (trainer x (helloCheck x)) 1 [] = ((takeLanes (trainer x (helloCheck x)) 1 []).1, some (pktBytes (helloPkt x))) from Prod.ext rfl hl]
  have hg : (!decide (1 < 4) || !(todUp (getTod (trainer x (helloCheck x)) 1) ||
      ((getTod (trainer x (helloCheck x)) 1).state == .training && (getTod (trainer x (helloCheck x)) 1).phase == 3))) = false := rfl
  simp only [hg, parse_hello x h, gauge_off (takeLanes (trainer x (helloCheck x)) 1 []).1 1 (helloPkt x) hq]
  rfl

theorem id_hello (v : Nat) (h : v < 2 ^ 64) : (helloOf (helloPkt (bytesLE 8 v)).payload).id = v := by
  have : ((bytesLE 8 v ++ List.replicate 24 0).drop 0).take 8 = bytesLE 8 v := rfl
  show natLE _ = v
  rw [show ((helloPkt (bytesLE 8 v)).payload.drop 0).take 8 = bytesLE 8 v from rfl, natLE_bytesLE, Nat.mod_eq_of_lt (show _ < 256 ^ 8 from h)]

/-- A number of 64 bits that is not this device's identity. -/
def otherId : Nat := if ownId = 0 then 1 else 0

theorem otherId_ne : otherId ≠ ownId := by
  unfold otherId; split <;> omega

theorem otherId_lt : otherId < 2 ^ 64 := by
  unfold otherId; split <;> decide

/-- f of a number that is worked out first. -/
def strict (c : Nat) (f : Nat → Nat) : Nat :=
  match c with
  | 0 => f 0
  | n + 1 => f (n + 1)

/-- A check worked out byte by byte, so that no long expression waits. -/
def crcStrict (poly : Nat) : List Byte → Nat → Nat
  | [], c => c
  | b :: l, c => strict (crcRefBits poly 8 (c ^^^ b.toNat)) (crcStrict poly l)

theorem crcStrict_eq (poly c : Nat) (l : List Byte) : crcStrict poly l c = crcRef poly c l := by
  have hs : ∀ c f, strict c f = f c := fun c f => by cases c <;> rfl
  induction l generalizing c with
  | nil => rfl
  | cons b l ih => rw [crcStrict, hs, ih]; rfl

theorem zeros_split : List.replicate 4048 (0 : Byte) = List.replicate 506 0 ++ (List.replicate 506 0 ++ (List.replicate 506 0 ++ (List.replicate 506 0 ++
    (List.replicate 506 0 ++ (List.replicate 506 0 ++ (List.replicate 506 0 ++ (List.replicate 506 0 ++ []))))))) := by
  rw [List.append_nil]; simp only [List.replicate_append_replicate]

theorem crc_zeros {a b : Nat} (h : crcStrict 0x82F63B78 (List.replicate 506 0) a = b) (l : List Byte) : crcRef 0x82F63B78 a (List.replicate 506 0 ++ l) = crcRef 0x82F63B78 b l := by
  rw [crcRef_append, ← h, crcStrict_eq]

theorem body1_zeros : crcRef 0x82F63B78 3080238136 (List.replicate 4048 0) = 1046511682 := by
  rw [zeros_split]
  exact (crc_zeros (b := 3830750836) (by decide +kernel) _).trans ((crc_zeros (b := 1899273661) (by decide +kernel) _).trans
    ((crc_zeros (b := 217360975) (by decide +kernel) _).trans ((crc_zeros (b := 1500248444) (by decide +kernel) _).trans
    ((crc_zeros (b := 1428288646) (by decide +kernel) _).trans ((crc_zeros (b := 3061166052) (by decide +kernel) _).trans
    ((crc_zeros (b := 2612423557) (by decide +kernel) _).trans (crc_zeros (by decide +kernel) [])))))))

theorem body1_block : crcRef 0x82F63B78 0xFFFFFFFF (packBlock 0 true 0 (some 40) (section_ 1 (bytesLE 32 share1))) = 3080238136 := by decide +kernel

theorem crc32c_of {l : List Byte} {k : Nat} (h : crcRef 0x82F63B78 0xFFFFFFFF l = k) : crc32c l = k ^^^ 0xFFFFFFFF := by rw [crc32c, h]

theorem body1_crc : crc32c body1 = 3248455613 :=
  (crc32c_of (by unfold body1; rw [crcRef_append, body1_block, body1_zeros])).trans (by decide)

theorem decodeStream_last {n i hdr : Nat} {l p : List Byte} (h : leAt l 0 4 = hdr) (h16 : bitAt hdr 16 = true) (e : decodeBlock i (bitsAt hdr 17 12 + 1) 0 l = .ok p) :
    decodeStream (n + 1) i l = .ok p := by
  simp [decodeStream, h, h16, e]

theorem body1_len : body1.length = 4096 := by
  unfold body1; rw [List.length_append, List.length_replicate, show (packBlock 0 true 0 (some 40) (section_ 1 (bytesLE 32 share1))).length = 48 by decide +kernel]

theorem head1_len : (head1 4096 3248455613).length = 64 := length_bytesLE 64 _

theorem image1_len : image1.length = 4160 := by
  unfold image1; rw [List.length_append, head1_len, body1_len]

theorem image1_head (s : State) (h : (runningImage s).major = 0) : readHead s image1 = some { slice := 1, content := true } := by
  have ht : image1.take 64 = head1 4096 3248455613 := List.take_left' head1_len
  unfold readHead
  rw [image1_len, ht, h]
  decide +kernel

theorem image1_body : readBody 1 image1 = .ok held1 := by
  have hn : leAt image1 36 4 = 4096 := by decide +kernel
  have hc : leAt image1 40 4 = 3248455613 := by decide +kernel
  have hb : (image1.drop 64).take 4096 = body1 := by
    unfold image1; rw [List.drop_left' head1_len, ← body1_len, List.take_length]
  have hd : decodeStream 4096 0 body1 = .ok (section_ 1 (bytesLE 32 share1)) := by
    have e : decodeBlock 0 40 0 body1 = .ok (section_ 1 (bytesLE 32 share1)) := by
      unfold decodeBlock
      rw [body1_len]
      exact ok_eq (by decide +kernel)
    exact decodeStream_last (n := 4095) (hdr := 5177665) (by decide +kernel) (by decide +kernel) e
  unfold readBody
  simp only [hn, hb, hc, body1_crc, image1_len, body1_len, hd]
  decide +kernel

theorem owner_frontier (s : State) (x : Surface) (f : Nat) (h : s.store.surfs = [(0, x)]) (hu : x.used = true) (a : Nat) :
    granuleOwner (modSurf s 0 fun x => { x with frontier := f }) a = granuleOwner s a := by
  unfold granuleOwner
  rw [show (modSurf s 0 fun x => { x with frontier := f }).store.surfs = [(0, { x with frontier := f })] by
    have hd : ({ x with frontier := f } : Surface) ≠ {} := fun e => by have := congrArg Surface.used e; simp [hu] at this
    simp [modSurf, tmod, tset, tput, tget, h, hd], h]
  simp only [List.find?_cons, List.find?_nil]
  cases (x.used && decide (x.base ≤ a) && decide (a < x.base + x.granules * 65536)) <;> rfl

/-- A byte range of a machine with one surface stays allowed however far the surface is written. -/
theorem writable_one {s : State} {i slice a n : Nat} (hi : i = 0) (h : s.store.surfs = [(0, getSurf s 0)]) (hu : (getSurf s 0).used = true) (hw : weirDenied s slice engHost true a n = none) :
    writable s i slice a n := by
  subst hi
  refine ⟨hw, fun f => ?_⟩
  rw [← hw]
  unfold weirDenied weirDecide ruleMatches
  simp only [owner_frontier s _ f h hu]
  rfl

/-! What well-formedness refuses: for each operand that has a bound, a command whose operand is its bound. -/

theorem test_illFormed_0 : ([.thermalSensorCrossing (List.replicate 9 0), .thermalTrip (List.replicate 9 0), .sqTailDoorbell 65 0 0, .sqTailDoorbell 0 4 0, .sqTailDoorbell 0 0 (2 ^ 32), .ringEnableWrite 65 0 0,
    .ringEnableWrite 0 6 0, .ringEnableWrite 0 0 (2 ^ 32), .ringErrorClear 65 0, .ringErrorClear 0 6, .rqHeadWrite 65 0, .rqHeadWrite 0 (2 ^ 32),
    .eqHeadWrite 65 0, .eqHeadWrite 0 (2 ^ 32), .packetFetch 65 [] [] [], .interruptHoldoffExpiry 65 0, .interruptHoldoffExpiry 0 6, .surfaceReleaseComplete (2 ^ 32),
    .outputEnableStart 8, .outputEnableTimeout 8, .outputDisableAct 8, .encodeCloseComplete 16, .sliceQuiesced 65, .sliceFrozen 65,
    .orphanRetired 65, .orphanAbortLimit 65, .groupHoldExpiry 65 0, .groupHoldExpiry 0 8, .outputFrameStart 8, .outputLineStart 8 false] : List Instr).all (fun i => !i.wf) = true := by decide +kernel

theorem test_illFormed_1 : ([.rectEvaluate 8 0, .rectEvaluate 0 16, .hpdRise 8, .irqHpd 8, .hpdFall 8, .linkTrainingEnd 8 0 0 0 false [] false,
    .linkTrainingEnd 0 0 0 0 false (List.replicate 513 0) false, .linkRetryTimer 8, .bankPipeWatchdog 8, .bankStoreEccFault 8, .takeoverArmed 8 0, .bankSelfCheckEnd 2 false 0,
    .bankHoldoffExpiry 2, .reservoirRequestServed 32 [] 0, .reservoirRequestServed 0 [] 5, .patrolScrub (2 ^ 64) 0, .patrolScrub 0 3, .writerPassStart (2 ^ 32),
    .writerLineComplete (2 ^ 32) [] 0, .writerLineComplete 0 [] 3, .lineLedgerRebuilt 16384, .sluiceLaneTakeWork 2, .sluiceRowComplete 2 [], .decodeContextSchedule 8 pic0,
    .decodeCtuRowDone 8 row0, .decodeCoreIdleTimer 8, .encodeCoreSchedule 2, .encodeCtuRowCoded 2 crow, .ethFrameReceived 2 [] 0 [], .reorderHoldTimeout 512] : List Instr).all (fun i => !i.wf) = true := by decide +kernel

theorem test_illFormed_2 : ([.rxTailDoorbell 16 0, .rxTailDoorbell 0 (2 ^ 32), .txTailDoorbell 16 0, .txTailDoorbell 0 (2 ^ 32), .ethFrameTransmit 2 [], .rtpTransmitUnit 16,
    .dpinHpdPulseEnd 4, .dpinTrainingStart 4, .dpinTrainingEnd 4 0 0 0, .dpinVideoChange 4 false, .dpinFrameStart 4 msa0, .dpinActiveLine 4 [],
    .dpinLockLoss 4, .dpinSymbolError ⟨4, 0, false⟩, .dpinSymbolError ⟨0, 4, false⟩, .refMeasurementIntervalEnd 8 0 0 false, .refLossCondition 8, .refQualifyTimer 8,
    .refDisqualifyTimer 8, .refoutPulse 2, .ptpDelayReqSend 2, .ptpSyncTimeout 2, .ptpAnnounceTimeout 2, .ptpLockHoldLapse 2,
    .eventInputEdge 8 false, .todenHelloSend 4, .todenHelloReceived 4 [] [], .todenHelloReceived 0 (List.replicate 5 []) [], .todenHelloSilence 4, .todenLockLoss ⟨4, 0⟩] : List Instr).all (fun i => !i.wf) = true := by decide +kernel

theorem test_illFormed_3 : ([.todenLockLoss ⟨0, 5⟩, .todenTrainingPhaseComplete 4, .todenPhaseTimeout 4, .todenBackoffExpiry 4, .todenMarkReceived 4 false ⟨0, 0⟩, .todenMarkReceived 0 false ⟨64, 0⟩,
    .todenMarkReceived 0 false ⟨0, 2 ^ 32⟩, .todenEpochReceived 4 [], .todenEpochReceived 0 (List.replicate 9 0), .delayMeasureSend 4, .delayMeasureRequest 4, .delayMeasureResponse 4 0,
    .controlMessage 4 [], .controlMessage 0 (List.replicate 5 []), .framePacket 4 [], .framePacket 0 (List.replicate 5 []), .linePacket 4 [], .linePacket 0 (List.replicate 5 []),
    .importLineComplete 4096, .statePacket 4 [], .statePacket 0 (List.replicate 5 []), .streamPacket 4 [], .streamPacket 0 (List.replicate 5 []), .transitRingFree 4096 0,
    .transitRingFree 0 4096, .remoteWrite 4 [], .remoteWrite 0 (List.replicate 5 []), .remoteRead 4 [], .remoteRead 0 (List.replicate 5 []), .remoteData 4 []] : List Instr).all (fun i => !i.wf) = true := by decide +kernel

theorem test_illFormed_4 : ([.remoteData 0 (List.replicate 5 []), .interruptPacket 4 [], .interruptPacket 0 (List.replicate 5 []), .keyScan (List.replicate 49 0), .keyMaxOnExpiry 48, .touchAttnEdge 4,
    .touchReportRead 4 [] false, .touchReadTimeout 4 false, .touchAttnIdleTimeout 4, .hapticDrivePeriod 8 0, .hapticFault 8 0 0, .fabricWindowAccess false (2 ^ 32) 0 0,
    .fabricWindowAccess false 0 9 0, .fabricWindowAccess false 0 0 (2 ^ 64), .resetReqWrite (2 ^ 32), .bar2ApertureAccess false (2 ^ 32) [], .gaugeLastRead 8, .registerLowerHalfRead (2 ^ 32),
    .registerWrite (2 ^ 32) 0 0, .registerWrite 0 9 0, .registerWrite 0 0 (2 ^ 64), .debugAccess false (2 ^ 64) [], .smbTemp (List.replicate 9 0), .smbSensors (List.replicate 9 0),
    .smbFaultIndex 256, .smbReset 256, .heldResetRelease (List.replicate 9 0), .ethernetLinkChange 2 false false false false, .dpinLockRegained 4, .creditBlockReceived 4 [] []] : List Instr).all (fun i => !i.wf) = true := by decide +kernel

theorem test_illFormed_5 : ([.holdoffSelfCheckError 2 0, .msixVectorUnmask 1088] : List Instr).all (fun i => !i.wf) = true := by decide +kernel

theorem test_illFormed_long (l : List Byte) (h : 65536 ≤ l.length) :
    (Instr.touchReportRead 0 l false).wf = false := by
  simp [Instr.wf, Instr.bounds]; omega

theorem test_illFormed_packets : ∀ r ∈ timedRows ++ storeRows ++ timeRows ++ serviceRows,
    (r.row { slice := 65 }).wf = false ∧ (r.row { ring := 4 }).wf = false ∧ (r.row { index := 2 ^ 64 }).wf = false ∧ (r.row {}).wf = true := by decide +kernel

/-! Worked examples of the spec. -/

/-- 02_wall_position.md, a 1,481-line output on a 2,250-line wall: where its lines start. -/
theorem test_line_starts :
    [0, 1, 2, 3, 1480].map (outLineOffset up { vOut := 1481 }) = [0, 99565, 199130, 298695, 147356434] ∧
    addTicks 2250 ⟨81250, 0, 0⟩ 147356434 = ⟨81250, 2248, 31506⟩ ∧ addTicks 2250 ⟨81250, 0, 0⟩ 99565 = ⟨81250, 1, 34029⟩ := by decide +kernel

/-- 01_liveness_contract.md, the Quay 4 crane desk: the ages at which the source turns LATE and STALE, and one second. -/
theorem test_ages :
    linesBetween 2250 ⟨81250, 1120⟩ ⟨81254, 221, 0⟩ = 8101 ∧ linesBetween 2250 ⟨81250, 1120⟩ ⟨81257, 1571, 0⟩ = 16201 ∧
    linesBetween 2250 ⟨81250, 1120⟩ ⟨81310, 1120, 0⟩ = 135000 ∧ ageSeconds up (some ⟨81250, 1120⟩) ⟨81310, 1120, 0⟩ = some 1 := by decide +kernel

/-- 08_scaling.md, line-buffer fits: 1920 x 1080 by the box to 1280 x 720 and by the triangle to 640 x 360; what a layer alone has at 3,840 and 7,680. -/
theorem test_linebuf :
    linebufLines { linebuf := true, dstW := 1280, dstH := 720 } 1080 = 2 ∧ linebufSlots { linebuf := true, dstW := 1280, dstH := 720 } 1920 1080 = 5760 ∧
    linebufLines { linebuf := true, triangle := true, dstW := 640, dstH := 360 } 1080 = 6 ∧
    linebufSlots { linebuf := true, triangle := true, dstW := 640, dstH := 360 } 1920 1080 = 13440 ∧ linebufAvail 0 3840 = 7 ∧ linebufAvail 0 7680 = 3 := by decide +kernel

/-- 06_surfaces_and_sluice.md, the plant mimic: record, table, pitch and allocation of a compressed 1920 x 1080 surface. -/
theorem test_mimic_storage :
    recordSize 1920 = 80 ∧ dataOffset 1920 1080 = 21760 ∧ pitchBase 0x51 1920 = 31232 ∧ choosePitch 31232 = 31232 ∧
    surfaceBytes 0x51 1920 1080 31232 = 8454400 := by decide +kernel

/-- 06_surfaces_and_sluice.md, the background tile: table 3 wins, and the eight bytes of its payload. -/
theorem test_mimic_tile :
    bestPayload [.lit 0x80, .lit 0x40, .lit 0x20, .lit 0xFF, .copy 1020 4] = (3, [0xFB, 0xCF, 0x3F, 0xBE, 0x25, 0x78, 0xC4, 0x7F]) := by decide +kernel

/-- The published check of the nine digits "123456789" (R212 and R331 name the polynomials). -/
theorem test_checks :
    crc32c ((List.range 9).map fun k => BitVec.ofNat 8 (0x31 + k)) = 0xE3069283 ∧ crc32 ((List.range 9).map fun k => BitVec.ofNat 8 (0x31 + k)) = 0xCBF43926 := by decide +kernel

/-! How commands come to run from reset: the commands that take the device from power to READY (log entry 20). -/

/-- The state that commands leave, one after another, from reset. -/
def run (l : List Instr) : State := l.foldl (fun s i => match exec i s with | .next t => t | _ => s) State.reset

/-- The commands that start the device. -/
def startCommands : List Instr :=
  [.powerInputInRange, .lockedClocksRelease, .bootRomVerifyComplete 0 0, .storeTrainingComplete true, .startupZeroFillComplete true, .deviceReady]

theorem test_start_up : (run startCommands).boot.state = .ready ∧ (run startCommands).time.running = true := by decide +kernel

/-! For each obligation with hypotheses, states and operands that meet them. -/

/-- What Obligations.StepRunsTheFrontCommand asks of its states can be met, clause by clause. -/
theorem test_StepRunsTheFrontCommand :
  (∃ (s : State), ∃ (i : Instr), ∃ (rest : List Instr), s.pending = i :: rest) ∧
  (∃ (s : State), s.pending = []) :=
  ⟨⟨({ up with pending := [.deviceReady] }), .deviceReady, ([]), by decide +kernel⟩,
    ⟨up, by decide +kernel⟩⟩

/-- What Obligations.RingsEnabled asks of its states can be met, clause by clause. -/
theorem test_RingsEnabled :
  (∃ (s : State), ∃ (i k v : Nat), pageOpen s i = true ∧ k < 4 ∧ ringsAllowed s i = true ∧ sizeOk (bitsAt v 2 5) = true ∧ bitAt v 0 = true ∧ (tget {} (getRings s i).sq k).enable = false) ∧
  (∃ (s : State), ∃ (i v : Nat), pageOpen s i = true ∧ ringsAllowed s i = true ∧ sizeOk (bitsAt v 2 5) = true ∧ bitAt v 0 = true ∧ (getRings s i).rq.enable = false ∧ (getRings s i).waiting = []) ∧
  (∃ (s : State), ∃ (i v : Nat), pageOpen s i = true ∧ ringsAllowed s i = true ∧ sizeOk (bitsAt v 2 5) = true ∧ bitAt v 0 = true ∧ (getRings s i).eq.enable = false ∧ (getRings s i).lost = 0 ∧ ringDenied s i (bitAt v 1) ((getRings s i).eq.base * 4096) 32 = none ∧ (((getRings s i).wbEnable = true → ringDenied s i (getRings s i).wbSpace (getRings s i).wbAddr 64 = none))) ∧
  (∃ (s : State), ∃ (i k : Nat), pageOpen s i = true ∧ k < 4 ∧ (tget {} (getRings s i).sq k).enable = true) ∧
  (∃ (s : State), ∃ (i k : Nat), pageOpen s i = true ∧ k < 4) ∧
  (∃ (s : State), ∃ (i k v : Nat), pageOpen s i = true ∧ k < 4 ∧ i ≠ 0 ∧ (getSlice s i).state = .created ∧ bitAt v 0 = true ∧ (tget {} (getRings s i).sq k).enable = false) :=
  ⟨⟨up, 0, 3, 19, by decide +kernel⟩,
    ⟨up, 0, 65, by decide +kernel⟩,
    ⟨up, 0, 17, by decide +kernel⟩,
    ⟨(modRings up 0 fun r => { r with sq := tset {} r.sq 1 { enable := true, sizeLog2 := 4, error := true } }), 0, 1, by decide +kernel⟩,
    ⟨(modRings up 0 fun r => { r with sq := tset {} r.sq 1 { sizeLog2 := 4, error := true } }), 0, 1, by decide +kernel⟩,
    ⟨(sl1 up .created), 1, 0, 17, by decide +kernel⟩⟩

/-- What Obligations.RingDoorbells asks of its states can be met, clause by clause. -/
theorem test_RingDoorbells :
  (∃ (s : State), ∃ (i k n : Nat), pageOpen s i = true ∧ k < 4 ∧ (BitVec.ofNat 32 n - (tget {} (getRings s i).sq k).head).toNat ≤ 2 ^ (tget {} (getRings s i).sq k).sizeLog2) ∧
  (∃ (s : State), ∃ (i k n : Nat), pageOpen s i = true ∧ k < 4 ∧ 2 ^ (tget {} (getRings s i).sq k).sizeLog2 < (BitVec.ofNat 32 n - (tget {} (getRings s i).sq k).head).toNat) ∧
  (∃ (s : State), ∃ (i : Nat), pageOpen s i = true) ∧
  (∃ (s : State), ∃ (i : Nat), pageOpen s i = true) ∧
  (∃ (s : State), ∃ (i : Nat), (getRings s i).rq.holdRunning = true ∧ (getRings s i).rq.irqPending = true ∧ (getRings s i).rq.holdoff ≠ 0 ∧ s.regs.headless = false ∧ s.regs.loopback = false ∧ passed s (getRings s i).rq.holdAt (1000 * (getRings s i).rq.holdoff) = true ∧ tget false s.regs.unmasked (msixEntry i (getRings s i).rq.vector) = true) ∧
  (∃ (s : State), ∃ (i : Nat), (getRings s i).eq.holdRunning = true ∧ (getRings s i).eq.irqPending = false ∧ passed s (getRings s i).eq.holdAt (1000 * (getRings s i).eq.holdoff) = true) :=
  ⟨⟨(modRings up 0 fun r => { r with sq := tset {} r.sq 3 { enable := true, sizeLog2 := 4 } }), 0, 3, 16, by decide +kernel⟩,
    ⟨(modRings up 0 fun r => { r with sq := tset {} r.sq 3 { enable := true, sizeLog2 := 4 } }), 0, 3, 17, by decide +kernel⟩,
    ⟨up, 0, by decide +kernel⟩,
    ⟨up, 0, by decide +kernel⟩,
    ⟨({ modRings up 0 fun r => { r with rq := { holdRunning := true, irqPending := true, holdoff := 5, vector := 2 } } with regs := { up.regs with unmasked := [(2, true)] } }), 0, by decide +kernel⟩,
    ⟨(modRings up 0 fun r => { r with eq := { holdRunning := true } }), 0, by decide +kernel⟩⟩

/-- What Obligations.PacketFetchTakes asks of its states can be met. -/
theorem test_PacketFetchTakes :
  ∃ (s : State), ∃ (i k : Nat), ∃ (host : List HostEntry), ∃ (raw : Packet), ∃ (row : OpRow), waitingGroup s i = none ∧ canTake s i 1 = true ∧ sliceTurn s i = true ∧ pickFrom s i host [0, 1, 2, 3] = .take k [raw] ∧ inRange (pktLength raw) 16 64 = true ∧ pf raw 3 0 8 = 0 ∧ opRow (pktOpcode (maskPacket raw)) = some row ∧ s.boot.state ≠ .deviceFault ∧ tagCheck s i k (maskPacket raw) = none ∧ ((row.manager = true → i = 0)) ∧ flagsOk s row (pktTimed (maskPacket raw)) (pktDue (maskPacket raw)) = true ∧ (getRings s i).held.length < (getSlice s i).share.queueLimit :=
  ⟨(modRings up 0 fun r => { r with sq := [(0, { enable := true, sizeLog2 := 4, tail := 1 })], rq := { enable := true, sizeLog2 := 4 } }), 0, 0, ([⟨0, 0, (pkt 0 [])⟩]), (pkt 0 []), (⟨0, false, false, false, false⟩), by decide +kernel⟩

/-- What Obligations.ArmedCommandActs asks of its states can be met, clause by clause. -/
theorem test_ArmedCommandActs :
  (∃ (s : State), ∃ (c : Cmd), ∃ (h : Held), ∃ (m : Meaning), findHeld s (Cmd.key c) = some h ∧ h.phase = .armed ∧ h.pos = 0 ∧ h.len = 1 ∧ pktOpcode h.pkt ≠ 0x203 ∧ wpReached (now s) (actsAt h) = true ∧ executorRuns s (pktOpcode h.pkt) = true ∧ meaningOf h.pkt = some m) ∧
  (∃ (s : State), ∃ (c : Cmd), ∃ (h : Held), findHeld s (Cmd.key c) = some h ∧ h.phase = .armed ∧ h.pos = 0 ∧ h.len ≠ 1 ∧ pktOpcode h.pkt ≠ 0x203 ∧ wpReached (now s) (actsAt h) = true ∧ executorRuns s (pktOpcode h.pkt) = true) ∧
  (∃ (s : State), ∃ (c : Cmd), ∃ (h : Held), findHeld s (Cmd.key c) = some h ∧ ((h.phase ≠ .armed ∨ h.pos ≠ 0 ∨ wpReached (now s) (actsAt h) = false ∨ executorRuns s (pktOpcode h.pkt) = false))) ∧
  (∃ (s : State), ∃ (c : Cmd), ∃ (h : Held), findHeld s (Cmd.key c) = some h ∧ h.slice = c.slice ∧ h.phase = .armed ∧ h.pos = 0 ∧ h.len = 1 ∧ wpReached (now s) h.due = true ∧ executorRuns s (pktOpcode h.pkt) = true ∧ pktOpcode h.pkt = 0x904) ∧
  (∃ (s : State), ∃ (c : Cmd), ∃ (h : Held), findHeld s (Cmd.key c) = some h ∧ h.slice = c.slice ∧ h.phase = .armed ∧ h.pos = 0 ∧ h.len = 1 ∧ wpReached (now s) h.due = true ∧ executorRuns s (pktOpcode h.pkt) = true ∧ pktOpcode h.pkt = 0x503) ∧
  (∃ (s : State), ∃ (c : Cmd), ∃ (h : Held), findHeld s (Cmd.key c) = some h ∧ h.slice = c.slice ∧ h.phase = .armed ∧ h.pos = 0 ∧ h.len = 1 ∧ wpReached (now s) h.due = true ∧ executorRuns s (pktOpcode h.pkt) = true ∧ pktOpcode h.pkt = 0x601) :=
  ⟨⟨(on up ({ hp 0x302 [fAt 16 0 3 0] with phase := .armed, due := ⟨5, 0, 0⟩ })), c0, ({ hp 0x302 [fAt 16 0 3 0] with phase := .armed, due := ⟨5, 0, 0⟩ }), _, also (by decide +kernel) ⟨by decide +kernel, by decide +kernel, by decide +kernel, by unfold meaningOf; rw [show pktOpcode _ = 0x302 from by decide +kernel]; rfl⟩⟩,
    ⟨(modRings up 0 fun r => { r with held := [({ hp 0x904 [] with phase := .armed, due := ⟨5, 0, 0⟩, len := 2 }), { ({ hp 0x904 [] with phase := .armed, due := ⟨5, 0, 0⟩, len := 2 }) with index := 1, pos := 1 }] }), c0, ({ hp 0x904 [] with phase := .armed, due := ⟨5, 0, 0⟩, len := 2 }), by decide +kernel⟩,
    ⟨(on up ({ hp 0x302 [fAt 16 0 3 0] with phase := .armed, due := ⟨6, 0, 0⟩ })), c0, ({ hp 0x302 [fAt 16 0 3 0] with phase := .armed, due := ⟨6, 0, 0⟩ }), by decide +kernel⟩,
    ⟨(on up ({ hp 0x904 [fAt 16 0 8 3] with phase := .armed, due := ⟨5, 0, 0⟩ })), c0, ({ hp 0x904 [fAt 16 0 8 3] with phase := .armed, due := ⟨5, 0, 0⟩ }), by decide +kernel⟩,
    ⟨(on (modSession up 2 fun x => { x with used := true }) ({ hp 0x503 [fAt 16 0 4 2] with phase := .armed, due := ⟨5, 0, 0⟩ })), c0, ({ hp 0x503 [fAt 16 0 4 2] with phase := .armed, due := ⟨5, 0, 0⟩ }), by decide +kernel⟩,
    ⟨(on (modEntry up 3 fun e => { e with valid := true }) ({ hp 0x601 [fAt 16 0 12 3] with phase := .armed, due := ⟨5, 0, 0⟩ })), c0, ({ hp 0x601 [fAt 16 0 12 3] with phase := .armed, due := ⟨5, 0, 0⟩ }), by decide +kernel⟩⟩

/-- What Obligations.SurfaceStorage asks of its states can be met, clause by clause. -/
theorem test_SurfaceStorage :
  (∃ (s : State), ∃ (c : Cmd), ∃ (h : Held), ReadyNow s c 0x101 h ∧ checkSurfaceAlloc s h c = none) ∧
  (∃ (s : State), ∃ (c : Cmd), ∃ (h : Held), ReadyNow s c 0x102 h ∧ checkSurfaceRelease s h c = none ∧ let i := handleIndex (pf h.pkt 16 0 32); releaseReady s i = true) ∧
  (∃ (s : State), ∃ (c : Cmd), ∃ (h : Held), ReadyNow s c 0x102 h ∧ checkSurfaceRelease s h c = none ∧ let i := handleIndex (pf h.pkt 16 0 32); releaseReady s i = false) ∧
  (∃ (s : State), ∃ (hd : Nat), let i := handleIndex hd; let x := getSurf s i; x.used = true ∧ x.releasePending = true ∧ x.relHandle = hd ∧ releaseReady s i = true ∧ (now s).line = 0 ∧ x.relKey = none) ∧
  (∃ (s : State), ∃ (hd : Nat), ∃ (c : Cmd), ∃ (h : Held), let i := handleIndex hd; let x := getSurf s i; x.used = true ∧ x.releasePending = true ∧ x.relHandle = hd ∧ releaseReady s i = true ∧ (now s).line = 0 ∧ x.relKey = some (Cmd.key c) ∧ findHeld s (Cmd.key c) = some h ∧ h.slice = c.slice) ∧
  (∃ (s : State), ∃ (f : FillJob), s.store.fills.find? (fun g => g.base == f.base) = some f) :=
  ⟨⟨(on up (hp 0x101 [fAt 16 0 8 0x10, fAt 18 0 14 64, fAt 20 0 14 8])), c0, (hp 0x101 [fAt 16 0 8 0x10, fAt 18 0 14 64, fAt 20 0 14 8]), by decide +kernel⟩,
    ⟨(on (surf up id) (hp 0x102 [fAt 16 0 32 16384])), c0, (hp 0x102 [fAt 16 0 32 16384]), by decide +kernel, by decide +kernel, by decide +kernel⟩,
    ⟨(on { surf up id with bank := { up.bank with carry := up.bank.carry.set 0 { arming := some (1, 0) } } } (hp 0x102 [fAt 16 0 32 16384])), c0, (hp 0x102 [fAt 16 0 32 16384]), by decide +kernel, by decide +kernel, by decide +kernel⟩,
    ⟨(let u := surf up fun x => { x with releasePending := true, relHandle := 16384 }; { u with time := { u.time with wp := ⟨6, 0, 0⟩ } }), 16384, by decide +kernel⟩,
    ⟨(let u := on (surf up fun x => { x with releasePending := true, relHandle := 16384, relKey := some {} }) (hp 0x102 [fAt 16 0 32 16384]); { u with time := { u.time with wp := ⟨6, 0, 0⟩ } }), 16384, c0, (hp 0x102 [fAt 16 0 32 16384]), by decide +kernel⟩,
    ⟨({ up with store := { up.store with fills := [({ base := 0x10000000, granules := 1, owner := 0 })], mem := [(0x10000000, 3), (0x10010000, 4)] } }), ({ base := 0x10000000, granules := 1, owner := 0 }), by decide +kernel⟩⟩

/-- What Obligations.SurfaceCopies asks of its states can be met, clause by clause. -/
theorem test_SurfaceCopies :
  (∃ (s : State), ∃ (c : Cmd), ∃ (h : Held), ∃ (x : Surface), ReadyNow s c 0x103 h ∧ checkSurfaceWrite s h c = none ∧ let hd := pf h.pkt 16 0 32; let i := handleIndex hd; let first := pf h.pkt 20 0 32; let count := pf h.pkt 24 0 32; let sz := lineSize x.format x.width; let at_ := fun k : Nat => x.base + (first + k) * x.pitch; lookup s hd = some x ∧ x.format ≠ 0 ∧ formatCompressed x.format = false ∧ formatTwoPlane x.format = false ∧ pb h.pkt 28 1 = false ∧ pb h.pkt 28 2 = false ∧ c.ok = true ∧ c.data.length = count * sz ∧ c.obs = [] ∧ x.rebuilding = false ∧ (s.sluice.writes.any fun j => j.surf == i) = false ∧ writerBlocked s i (writePass x h.pkt) first (first + count - 1) = false ∧ ((∀ k, k < count → writable (if pb h.pkt 28 0 then beginPass s i else s) i h.slice (at_ k) sz)) ∧ ((∀ u, u < 8 → (tget {} s.gauge.units u).enable = false)) ∧ roundUp sz 256 ≤ x.pitch ∧ x.base + (first + count) * x.pitch ≤ storeEnd) ∧
  (∃ (s : State), ∃ (c : Cmd), ∃ (h : Held), ReadyNow s c 0x104 h ∧ checkSurfaceRead s h c = none ∧ let x := getSurf s (handleIndex (pf h.pkt 16 0 32)); let first := pf h.pkt 20 0 32; let count := pf h.pkt 24 0 32; let n := lineSize x.format x.width; x.format ≠ 0 ∧ formatCompressed x.format = false ∧ formatTwoPlane x.format = false ∧ pb h.pkt 28 0 = false ∧ c.ok = true ∧ ((∀ k, k < count → rangePoisoned s (x.base + (first + k) * x.pitch) n = false))) ∧
  (∃ (s : State), ∃ (c : Cmd), ∃ (h : Held), ReadyNow s c 0x106 h ∧ checkPaletteLoad s h c = none ∧ pb h.pkt 22 0 = false ∧ c.ok = true ∧ c.data.length = 4 * pf h.pkt 20 0 9) :=
  ⟨⟨(on (surf up id) (hp 0x103 [fAt 16 0 32 16384, fAt 24 0 32 1, fAt 28 0 3 1, fAt 32 0 32 256])), ({ data := List.replicate 256 9 }), (hp 0x103 [fAt 16 0 32 16384, fAt 24 0 32 1, fAt 28 0 3 1, fAt 32 0 32 256]), (getSurf (on (surf up id) (hp 0x103 [fAt 16 0 32 16384, fAt 24 0 32 1, fAt 28 0 3 1, fAt 32 0 32 256])) 0), also (by decide +kernel) (also (by decide +kernel) (also (by decide +kernel) ⟨by decide +kernel, by decide +kernel, fun k hk => by rw [show k = 0 from Nat.lt_one_iff.1 (Nat.lt_of_lt_of_eq hk (by decide +kernel))]; exact writable_one (by decide +kernel) (by decide +kernel) (by decide +kernel) (by decide +kernel), by decide +kernel⟩))⟩,
    ⟨(on { surf up id with store := { (surf up id).store with mem := [(0x10000100, 3)] } } (hp 0x104 [fAt 16 0 32 16384, fAt 24 0 32 2, fAt 32 0 32 256])), c0, (hp 0x104 [fAt 16 0 32 16384, fAt 24 0 32 2, fAt 32 0 32 256]), by decide +kernel, by decide +kernel, by decide +kernel⟩,
    ⟨(on (modSlot up 0 fun x => { x with owner := some 0 }) (hp 0x106 [fAt 20 0 9 2])), ({ data := [1, 2, 3, 4, 5, 6, 7, 8] }), (hp 0x106 [fAt 20 0 9 2]), by decide +kernel⟩⟩

/-- What Obligations.SurfaceFences asks of its states can be met, clause by clause. -/
theorem test_SurfaceFences :
  (∃ (s : State), ∃ (c : Cmd), ∃ (h : Held), ReadyNow s c 0x105 h ∧ checkSurfaceFence s h c = none ∧ fenceMet s (fenceOf s h) = true) ∧
  (∃ (s : State), ∃ (c : Cmd), ∃ (h : Held), ReadyNow s c 0x105 h ∧ checkSurfaceFence s h c = none ∧ fenceMet s (fenceOf s h) = false) ∧
  (∃ (s : State), ∃ (c : Cmd), ∃ (h : Held), ∃ (f : Fence), findHeld s (Cmd.key c) = some h ∧ h.slice = c.slice ∧ s.store.fences.find? (fun f => f.key == Cmd.key c) = some f ∧ fenceMet s f = true) ∧
  (∃ (s : State), ∃ (c : Cmd), ∃ (h : Held), ∃ (f : Fence), findHeld s (Cmd.key c) = some h ∧ h.slice = c.slice ∧ s.store.fences.find? (fun f => f.key == Cmd.key c) = some f ∧ fenceMet s f = false ∧ f.timeout ≤ frameDiff (now s).frame f.startFrame) :=
  ⟨⟨(on (surf up id) (hp 0x105 [fAt 16 0 32 16384, fAt 20 0 1 1, fAt 21 0 8 5])), c0, (hp 0x105 [fAt 16 0 32 16384, fAt 20 0 1 1, fAt 21 0 8 5]), by decide +kernel⟩,
    ⟨(on (surf up id) (hp 0x105 [fAt 16 0 32 16384, fAt 21 0 8 5, fAt 22 0 16 1, fAt 24 0 32 1])), c0, (hp 0x105 [fAt 16 0 32 16384, fAt 21 0 8 5, fAt 22 0 16 1, fAt 24 0 32 1]), by decide +kernel⟩,
    ⟨(on { surf up id with store := { (surf up id).store with fences := [({ unlatched := true, gen := 1 })] } } ({ hp 0x105 [fAt 16 0 32 16384, fAt 20 0 1 1] with phase := .deferred })), c0, ({ hp 0x105 [fAt 16 0 32 16384, fAt 20 0 1 1] with phase := .deferred }), ({ unlatched := true, gen := 1 }), by decide +kernel⟩,
    ⟨(on { surf up id with store := { (surf up id).store with fences := [({ pass := 1, line := 1, gen := 1, startFrame := 1, timeout := 3 })] } } ({ hp 0x105 [fAt 16 0 32 16384] with phase := .deferred })), c0, ({ hp 0x105 [fAt 16 0 32 16384] with phase := .deferred }), ({ pass := 1, line := 1, gen := 1, startFrame := 1, timeout := 3 }), by decide +kernel⟩⟩

/-- What Obligations.DeviceWriters asks of its states can be met, clause by clause. -/
theorem test_DeviceWriters :
  (∃ (s : State), ∃ (hd : Nat), (lookup s hd).isSome = true ∧ passAllowed s (handleIndex hd) = true) ∧
  (∃ (s : State), ∃ (hd : Nat), let i := handleIndex hd; let x := getSurf s i; (lookup s hd).isSome = true ∧ x.rebuilding = false ∧ x.writer ≠ .host ∧ x.pass ≠ 0 ∧ x.frontier < surfaceLines x ∧ (x.waitable && writerBlocked s i x.pass x.frontier x.frontier) = false ∧ x.format ≠ 0 ∧ formatCompressed x.format = false ∧ formatTwoPlane x.format = false ∧ weirDenied s x.owner (writerEngine x.writer) true (x.base + x.frontier * x.pitch) (lineSize x.format x.width) = none ∧ ((∀ u, u < 8 → (tget {} s.gauge.units u).enable = false)) ∧ ((∀ src, x.source = some src → exportsOf s src = []))) ∧
  (∃ (s : State), ∃ (i : Nat), (getSurf s i).rebuilding = true ∧ (getSurf s i).failKey = none ∧ (s.store.fences.filter fun f => f.surf == i && !f.unlatched) = []) ∧
  (∃ (s : State), ∃ (lane : Nat), ∃ (w : LaneWork), lane < 2 ∧ (tget {} s.sluice.lanes lane).job = none ∧ (tget {} s.sluice.lanes lane).inService = true ∧ nextWork s.sluice.queue = some w) ∧
  (∃ (s : State), ∃ (lane i : Nat), ∃ (w : LaneWork), let x := getSurf s i; (tget {} s.sluice.lanes lane).job = some w ∧ w.surf = some i ∧ w.orphan = false ∧ x.rowsDone = [] ∧ x.frontier ≤ 4 * w.row ∧ weirDenied s x.owner (if w.kind = .surfaceWrite then engHost else engSluice) true (x.base + dataOffset x.width x.height + w.row * x.pitch) x.pitch = none ∧ ((∀ src, x.source = some src → exportsOf s src = [])) ∧ (s.media.deliveries.find? fun d => d.surf == i) = none ∧ (s.sluice.writes.find? fun j => j.surf == i) = none) :=
  ⟨⟨(surf up fun x => { x with writer := .decode }), 16384, by decide +kernel⟩,
    ⟨(surf up fun x => { x with writer := .decode, pass := 1, waitable := false }), 16384, by decide +kernel⟩,
    ⟨(surf up fun x => { x with rebuilding := true }), 0, by decide +kernel⟩,
    ⟨({ up with sluice := { up.sluice with queue := [({ kind := .batch })] } }), 1, ({ kind := .batch }), by decide +kernel⟩,
    ⟨(let u := surf up fun x => { x with format := 0x51, pitch := 2048 }; { u with sluice := { u.sluice with lanes := [(1, { job := some ({ surf := some 0, raw := List.replicate 1024 0 }) })] } }), 1, 0, ({ surf := some 0, raw := List.replicate 1024 0 }), by decide +kernel⟩⟩

/-- What Obligations.ReservoirService asks of its states can be met, clause by clause. -/
theorem test_ReservoirService :
  (∃ (s : State), ∃ (pc : Nat), ∃ (reqs : List MemReq), ∃ (r : MemReq), ∃ (p : PseudoChannel), pc < 32 ∧ arbitrate s (tget {} s.store.pcs pc) (pendingAt pc reqs) = some (r, p) ∧ r.write = true ∧ r.handle = 0 ∧ reqDenied s r = none ∧ r.data.length = r.length) ∧
  (∃ (addr : Nat), addr < storeEnd) ∧
  (∃ (s : State), ∃ (addr i : Nat), ∃ (x : Surface), addr < storeEnd ∧ s.store.surfs.find? (fun e => e.2.used && e.2.base ≤ addr && decide (addr < e.2.base + e.2.granules * 65536)) = some (i, x)) ∧
  (∃ (s : State), ((∀ o, o < 8 → scheduling (getOut s o) = false))) :=
  ⟨⟨({ up with power := { up.power with selfRefresh := true } }), 1, ([({ requester := .host 0, write := true, addr := 0x10000000, length := 2, data := [1, 2] })]), ({ requester := .host 0, write := true, addr := 0x10000000, length := 2, data := [1, 2] }), (((arbitrate ({ up with power := { up.power with selfRefresh := true } }) {} [({ requester := .host 0, write := true, addr := 0x10000000, length := 2, data := [1, 2] })]).map Prod.snd).getD {}), by decide +kernel⟩,
    ⟨0x10000000, by decide +kernel⟩,
    ⟨(surf up id), 0x10000000, 0, (getSurf (surf up id) 0), by decide +kernel⟩,
    ⟨up, by decide +kernel⟩⟩

/-- What Obligations.PendingLayers asks of its states can be met, clause by clause. -/
theorem test_PendingLayers :
  (∃ (s : State), ∃ (c : Cmd), ∃ (h : Held), ReadyNow s c 0x201 h ∧ checkLayerSet s h c = none) ∧
  (∃ (s : State), ∃ (c : Cmd), ∃ (h : Held), ReadyNow s c 0x202 h ∧ checkLayerClear s h c = none ∧ let k := slotKey (pf h.pkt 16 0 3) (pf h.pkt 17 0 3); (getSlot s k).owner = some h.slice ∧ (getSlot s k).took = true) ∧
  (∃ (s : State), ∃ (c : Cmd), ∃ (h : Held), ReadyNow s c 0x202 h ∧ checkLayerClear s h c = none ∧ let k := slotKey (pf h.pkt 16 0 3) (pf h.pkt 17 0 3); (getSlot s k).owner = some h.slice ∧ (getSlot s k).took = false) ∧
  (∃ (s : State), ∃ (c : Cmd), ∃ (h : Held), ReadyNow s c 0x202 h ∧ checkLayerClear s h c = none ∧ let k := slotKey (pf h.pkt 16 0 3) (pf h.pkt 17 0 3); (getSlot s k).owner ≠ some h.slice) :=
  ⟨⟨(on (modEntry (surf (outp up id) id) 9 fun e => { e with valid := true, kind := .surface }) (hp 0x201 [fAt 17 0 3 2, fAt 18 3 1 1, fAt 19 0 8 0x11, fAt 20 0 12 9, fAt 28 0 32 16384, fAt 36 0 14 64, fAt 38 0 14 8, fAt 44 0 14 64, fAt 46 0 14 8])), c0, (hp 0x201 [fAt 17 0 3 2, fAt 18 3 1 1, fAt 19 0 8 0x11, fAt 20 0 12 9, fAt 28 0 32 16384, fAt 36 0 14 64, fAt 38 0 14 8, fAt 44 0 14 64, fAt 46 0 14 8]), by decide +kernel⟩,
    ⟨(on (modSlot up 2 fun x => { x with owner := some 0, took := true, pending := some {} }) (hp 0x202 [fAt 17 0 3 2])), c0, (hp 0x202 [fAt 17 0 3 2]), by decide +kernel, by decide +kernel, by decide +kernel⟩,
    ⟨(on (modSlot up 2 fun x => { x with owner := some 0, pending := some {} }) (hp 0x202 [fAt 17 0 3 2])), c0, (hp 0x202 [fAt 17 0 3 2]), by decide +kernel, by decide +kernel, by decide +kernel⟩,
    ⟨(on (modSlot up 2 fun x => { x with owner := some 1, pending := some {} }) (hp 0x202 [fAt 17 0 3 2])), c0, (hp 0x202 [fAt 17 0 3 2]), by decide +kernel, by decide +kernel, by decide +kernel⟩⟩

/-- What Obligations.Commits asks of its states can be met, clause by clause. -/
theorem test_Commits :
  (∃ (s : State), ∃ (c : Cmd), ∃ (h : Held), Ready s c 0x203 h ∧ checkCommit s h c = none) ∧
  (∃ (s : State), ∃ (i g : Nat), ∃ (r : CommitRecord), outstanding s i g = some r ∧ r.expired = true ∧ r.applied = false ∧ (r.layers.map SnapLayer.key).Nodup) :=
  ⟨⟨(on (modSlot (modEntry (surf (outp up id) id) 9 fun e => { e with valid := true, kind := .surface }) 2 fun x => { x with owner := some 0, pending := some { slot := 2, linebuf := true, format := 0x11, source := 9, srcW := 64, srcH := 4, dstW := 64, dstH := 4 } }) (hp 0x203 [fAt 17 0 4 1, fAt 24 0 6 2, fAt 32 0 32 16384])), c0, (hp 0x203 [fAt 17 0 4 1, fAt 24 0 6 2, fAt 32 0 32 16384]), by decide +kernel⟩,
    ⟨(let u := modSlot (modSlot (modEntry (surf (outp up id) fun x => { x with pass := 1, frontier := 8 }) 9 fun e => { e with valid := true, kind := .surface }) 3 fun x => { x with owner := some 0 }) 2 fun x => { x with owner := some 0, took := true }; { u with comp := { u.comp with records := [({ expired := true, layers := [{ key := 2 }, { key := 3, desc := some { slot := 3, linebuf := true, format := 0x11, source := 9, handle := 16384, srcW := 64, srcH := 4, dstW := 64, dstH := 4 } }] })] } }), 0, 0, ({ expired := true, layers := [{ key := 2 }, { key := 3, desc := some { slot := 3, linebuf := true, format := 0x11, source := 9, handle := 16384, srcW := 64, srcH := 4, dstW := 64, dstH := 4 } }] }), by decide +kernel⟩⟩

/-- What Obligations.CompositionSettings asks of its states can be met, clause by clause. -/
theorem test_CompositionSettings :
  (∃ (s : State), ∃ (c : Cmd), ∃ (h : Held), ReadyNow s c 0x204 h ∧ checkGroupDefine s h c = none) ∧
  (∃ (s : State), ∃ (c : Cmd), ∃ (h : Held), ReadyNow s c 0x205 h ∧ checkCoeffLoad s h c = none ∧ pb h.pkt 16 2 = true) ∧
  (∃ (s u : State), ∃ (c : Cmd), ∃ (h : Held), ∃ (l : List Byte), ReadyNow s c 0x205 h ∧ checkCoeffLoad s h c = none ∧ pb h.pkt 16 2 = false ∧ srcRead s 0 engLock (pb h.pkt 17 0) c (pf h.pkt 24 0 64) 1792 = (u, some l) ∧ imageFail l = none) ∧
  (∃ (s u : State), ∃ (c : Cmd), ∃ (h : Held), ∃ (l : List Byte), ∃ (f : Nat × Nat × Nat), ReadyNow s c 0x205 h ∧ checkCoeffLoad s h c = none ∧ pb h.pkt 16 2 = false ∧ srcRead s 0 engLock (pb h.pkt 17 0) c (pf h.pkt 24 0 64) 1792 = (u, some l) ∧ imageFail l = some f) ∧
  (∃ (s : State), ∃ (c : Cmd), ∃ (h : Held), ReadyNow s c 0x307 h ∧ checkBankAssign s h c = none) :=
  ⟨⟨(on up (hp 0x204 [fAt 16 0 3 1, fAt 17 0 8 3])), c0, (hp 0x204 [fAt 16 0 3 1, fAt 17 0 8 3]), by decide +kernel⟩,
    ⟨(on up (hp 0x205 [fAt 16 0 2 1, fAt 16 2 1 1])), c0, (hp 0x205 [fAt 16 0 2 1, fAt 16 2 1 1]), by decide +kernel⟩,
    ⟨(on up (hp 0x205 [fAt 16 0 2 1, fAt 24 0 64 64])), _, ({ data := coeffImage }), (hp 0x205 [fAt 16 0 2 1, fAt 24 0 64 64]), coeffImage, by decide +kernel, by decide +kernel, by decide +kernel, pair_of (by decide +kernel), coeffImage_good⟩,
    ⟨(on up (hp 0x205 [fAt 16 0 2 1, fAt 24 0 64 64])), _, ({ data := (List.replicate 1792 0) }), (hp 0x205 [fAt 16 0 2 1, fAt 24 0 64 64]), (List.replicate 1792 0), ((0, 0, 2)), by decide +kernel, by decide +kernel, by decide +kernel, pair_of (by decide +kernel), by decide +kernel⟩,
    ⟨(on up (hp 0x307 [fAt 16 0 8 0xF0])), c0, (hp 0x307 [fAt 16 0 8 0xF0]), by decide +kernel⟩⟩

/-- What Obligations.OutputSettings asks of its states can be met, clause by clause. -/
theorem test_OutputSettings :
  (∃ (s : State), ∃ (c : Cmd), ∃ (h : Held), ReadyNow s c 0x301 h ∧ checkOutputConfigure s h c = none) ∧
  (∃ (s : State), ∃ (c : Cmd), ∃ (h : Held), ReadyNow s c 0x305 h ∧ checkSelfRefresh s h c = none) ∧
  (∃ (s : State), ∃ (c : Cmd), ∃ (h : Held), ReadyNow s c 0x302 h ∧ checkOutputEnable s h c = none) ∧
  (∃ (s : State), ∃ (c : Cmd), ∃ (h : Held), ReadyNow s c 0x303 h ∧ checkOutputDisable s h c = none) :=
  ⟨⟨(on up (hp 0x301 [fAt 17 1 2 2, fAt 17 4 2 1, fAt 18 0 4 3, fAt 20 0 14 640, fAt 22 0 14 800, fAt 24 0 12 8, fAt 26 0 10 8, fAt 28 0 13 480, fAt 30 0 14 500, fAt 32 0 10 4, fAt 34 0 8 4])), c0, (hp 0x301 [fAt 17 1 2 2, fAt 17 4 2 1, fAt 18 0 4 3, fAt 20 0 14 640, fAt 22 0 14 800, fAt 24 0 12 8, fAt 26 0 10 8, fAt 28 0 13 480, fAt 30 0 14 500, fAt 32 0 10 4, fAt 34 0 8 4]), by decide +kernel⟩,
    ⟨(on (outp up fun x => { x with state := .running, cfg := { x.cfg with edp := true, srAllowed := true } }) (hp 0x305 [fAt 16 7 1 1, fAt 17 0 8 2])), c0, (hp 0x305 [fAt 16 7 1 1, fAt 17 0 8 2]), by decide +kernel⟩,
    ⟨(on (outp up fun x => { x with state := .disabled }) (hp 0x302 [])), c0, (hp 0x302 []), by decide +kernel⟩,
    ⟨(on (outp up fun x => { x with state := .running }) (hp 0x303 [])), c0, (hp 0x303 []), by decide +kernel⟩⟩

/-- What Obligations.OutputLinks asks of its states can be met, clause by clause. -/
theorem test_OutputLinks :
  (∃ (s : State), ∃ (o : Nat), ∃ (e : EnableCmd), let x := getOut s o; let i := outFrameNow s x.cfg (now s); let w := outFrameStart s x.cfg i; x.enable = some e ∧ e.started = false ∧ x.state = .disabled ∧ wpReached w ⟨e.frame, 0, 0⟩ = true ∧ wpReached (now s) w = true) ∧
  (∃ (s : State), ∃ (o : Nat), ∃ (c : Cmd), ∃ (h : Held), ∃ (e : EnableCmd), (getOut s o).pastEnables = [] ∧ (getOut s o).enable = some e ∧ e.started = true ∧ passed s e.startAt 2000000000 = true ∧ e.key = Cmd.key c ∧ findHeld s (Cmd.key c) = some h ∧ h.slice = c.slice) ∧
  (∃ (s : State), ∃ (o : Nat), ∃ (c : Cmd), ∃ (h : Held), ∃ (e : EnableCmd), ∃ (l : List EnableCmd), (getOut s o).pastEnables = e :: l ∧ passed s e.startAt 2000000000 = true ∧ e.key = Cmd.key c ∧ findHeld s (Cmd.key c) = some h ∧ h.slice = c.slice) ∧
  (∃ (s : State), ∃ (o : Nat), let x := getOut s o; let w := outFrameStart s x.cfg (outFrameNow s x.cfg (now s)); (x.disables.any fun d => wpReached w ⟨d.2, 0, 0⟩ && wpReached (now s) w) = true ∧ ((∀ d h, d ∈ x.disables → findHeld s d.1 = some h → h.slice = d.1.slice))) ∧
  (∃ (s : State), ∃ (o : Nat), let x := getOut s o; o < 8 ∧ x.hpd = false ∧ ((x.state = .training ∨ x.state = .running ∨ x.state = .linkDown))) ∧
  (∃ (s : State), ∃ (o : Nat), let x := getOut s o; o < 8 ∧ x.hpd = true ∧ x.trainingNow = false ∧ ((x.state = .training ∨ x.state = .running ∨ x.state = .linkDown))) ∧
  (∃ (s : State), ∃ (o : Nat), let x := getOut s o; o < 8 ∧ x.hpd = true) ∧
  (∃ (s : State), ∃ (o res lanes rate : Nat), let x := getOut s o; o < 8 ∧ x.trainingNow = true ∧ scheduling x = true ∧ trainable x.cfg lanes rate = true ∧ res < 16) ∧
  (∃ (s : State), ∃ (o : Nat), let x := getOut s o; o < 8 ∧ x.hpd = true ∧ x.retryArmed = true ∧ x.trainingNow = false ∧ x.state = .linkDown ∧ passed s x.downAt 1000000000 = true) :=
  ⟨⟨(outp up fun x => { x with state := .disabled, enable := some ({ frame := 4 }) }), 0, ({ frame := 4 }), by decide +kernel⟩,
    ⟨(on (outp up fun x => { x with state := .training, enable := some ({ started := true }) }) ({ hp 0x302 [] with phase := .committed })), 0, c0, ({ hp 0x302 [] with phase := .committed }), ({ started := true }), by decide +kernel⟩,
    ⟨(on (outp up fun x => { x with state := .disabled, pastEnables := [({ key := {}, started := true })] }) ({ hp 0x302 [] with phase := .deferred })), 0, c0, ({ hp 0x302 [] with phase := .deferred }), ({ key := {}, started := true }), ([]), by decide +kernel⟩,
    ⟨(on (modSlot (outp up fun x => { x with state := .running, disables := [({}, 4)] }) 2 fun x => { x with active := { desc := some {}, buf := some (16384, 1) } }) { hp 0x303 [] with phase := .committed }), 0, by decide +kernel, by intro d h hd hf; obtain rfl := List.mem_singleton.1 hd; exact Option.some.inj ((congrArg (Option.map Held.slice) hf).symm.trans (by decide +kernel))⟩,
    ⟨(outp up fun x => { x with state := .running }), 0, by decide +kernel⟩,
    ⟨(outp up fun x => { x with state := .running, hpd := true }), 0, by decide +kernel⟩,
    ⟨(outp up fun x => { x with state := .running, hpd := true }), 0, by decide +kernel⟩,
    ⟨(outp up fun x => { x with state := .training, hpd := true, trainingNow := true, enable := some { started := true } }), 0, 0, 4, 0, by decide +kernel⟩,
    ⟨(outp up fun x => { x with state := .linkDown, hpd := true, retryArmed := true }), 0, by decide +kernel⟩⟩

/-- What Obligations.OutputScan asks of its states can be met, clause by clause. -/
theorem test_OutputScan :
  (∃ (s : State), ∃ (o : Nat), let x := getOut s o; let i := outFrameNow s x.cfg (now s); let w := outFrameStart s x.cfg i; o < 8 ∧ scheduling x = true ∧ s.time.running = true ∧ ((x.inFrame = false ∨ x.start ≠ w))) ∧
  (∃ (s : State), ∃ (o : Nat), let x := getOut s o; o < 8 ∧ scheduling x = true ∧ x.inFrame = true ∧ x.line < x.cfg.vOut ∧ comesThisLine s (lineDue s o x.line) = true) ∧
  (∃ (s : State), ∃ (o : Nat), comesThisLine s (lineDue s o (getOut s o).line) = false) ∧
  (∃ (s : State), ∃ (o : Nat), let x := getOut s o; let c := getCarry s o; o < 8 ∧ x.state = .running ∧ x.inFrame = true ∧ x.line < x.cfg.vOut ∧ x.line < x.cfg.vActive ∧ comesThisLine s (lineDue s o x.line) = true ∧ c.stranded = false ∧ c.arming = none ∧ c.lastGap = false) ∧
  (∃ (s : State), ∃ (o : Nat), let x := getOut s o; let c := getCarry s o; o < 8 ∧ x.state = .running ∧ x.inFrame = true ∧ x.line < x.cfg.vOut ∧ x.line < x.cfg.vActive ∧ comesThisLine s (lineDue s o x.line) = true ∧ c.stranded = false ∧ c.arming = none ∧ c.lastGap = false) :=
  ⟨⟨(outp up fun x => { x with state := .running }), 0, by decide +kernel⟩,
    ⟨(outp up fun x => { x with state := .training, inFrame := true, line := 9 }), 0, by decide +kernel⟩,
    ⟨(outp up fun x => { x with state := .running, inFrame := true, line := 3, start := ⟨6, 0, 0⟩ }), 0, by decide +kernel⟩,
    ⟨(outp up fun x => { x with state := .running, inFrame := true, line := 3 }), 0, by decide +kernel⟩,
    ⟨(outp up fun x => { x with state := .running, inFrame := true, line := 3 }), 0, by decide +kernel⟩⟩

/-- What Obligations.Rectangles asks of its states can be met, clause by clause. -/
theorem test_Rectangles :
  (∃ (s : State), ∃ (c : Cmd), ∃ (h : Held), ReadyNow s c 0x304 h ∧ pf h.pkt 17 0 2 = 0 ∧ checkRectSet s h c = none) ∧
  (∃ (s : State), ∃ (c : Cmd), ∃ (h : Held), ReadyNow s c 0x304 h ∧ pf h.pkt 17 0 2 = 1 ∧ checkRectOther s h c = none) ∧
  (∃ (s : State), ∃ (c : Cmd), ∃ (h : Held), ReadyNow s c 0x304 h ∧ pf h.pkt 17 0 2 = 2 ∧ checkRectOther s h c = none) ∧
  (∃ (s : State), ∃ (c : Cmd), ∃ (h : Held), ReadyNow s c 0x304 h ∧ pf h.pkt 17 0 2 = 3 ∧ checkRectOther s h c = none) ∧
  (∃ (s : State), ∃ (o r : Nat), let i := 16 * o + r; let x := getRect s i; let y := getOut s o; o < 8 ∧ r < 16 ∧ x.used = true ∧ scheduling y = true ∧ y.inFrame = true ∧ y.line = x.cfg.y + x.cfg.h ∧ x.done = false ∧ comesThisLine s (rectDue s o x.cfg) = true ∧ x.latch = true) ∧
  (∃ (s : State), ∃ (o r : Nat), let i := 16 * o + r; let x := getRect s i; let y := getOut s o; o < 8 ∧ r < 16 ∧ x.used = true ∧ scheduling y = true ∧ y.inFrame = true ∧ y.line = x.cfg.y + x.cfg.h ∧ x.done = false ∧ comesThisLine s (rectDue s o x.cfg) = true ∧ x.latch = false ∧ x.cfg.mode ≠ 1 ∧ skipped s o x.owner x.cfg = true) ∧
  (∃ (s : State), ∃ (o r : Nat), let i := 16 * o + r; let x := getRect s i; let y := getOut s o; o < 8 ∧ r < 16 ∧ x.used = true ∧ scheduling y = true ∧ y.inFrame = true ∧ y.line = x.cfg.y + x.cfg.h ∧ x.done = false ∧ comesThisLine s (rectDue s o x.cfg) = true ∧ x.latch = false ∧ x.cfg.mode = 2 ∧ skipped s o x.owner x.cfg = false) ∧
  (∃ (s : State), ∃ (o r : Nat), let i := 16 * o + r; let x := getRect s i; let y := getOut s o; o < 8 ∧ r < 16 ∧ x.used = true ∧ scheduling y = true ∧ y.inFrame = true ∧ y.line = x.cfg.y + x.cfg.h ∧ x.done = false ∧ comesThisLine s (rectDue s o x.cfg) = true ∧ x.latch = false ∧ x.cfg.mode = 0 ∧ skipped s o x.owner x.cfg = false ∧ expectedCheck x.cfg.expA i 0 = x.cfg.checkA ∧ ((x.cfg.bValid = true → expectedCheck x.cfg.expB i 1 = x.cfg.checkB))) ∧
  (∃ (s : State), ∃ (o r : Nat), let i := 16 * o + r; let x := getRect s i; let y := getOut s o; o < 8 ∧ r < 16 ∧ x.used = true ∧ scheduling y = true ∧ y.inFrame = true ∧ y.line = x.cfg.y + x.cfg.h ∧ x.done = false ∧ comesThisLine s (rectDue s o x.cfg) = true ∧ x.latch = false ∧ x.cfg.mode = 1 ∧ (coveringLayer s o x.cfg fun _ e => e.source == x.cfg.source) = none) :=
  ⟨⟨(on (outp up fun x => { x with state := .running }) (hp 0x304 [fAt 17 2 2 2, fAt 17 6 1 0, fAt 28 0 13 8, fAt 30 0 13 2])), c0, (hp 0x304 [fAt 17 2 2 2, fAt 17 6 1 0, fAt 28 0 13 8, fAt 30 0 13 2]), by decide +kernel⟩,
    ⟨(on (modRect (outp up fun x => { x with state := .running }) 0 fun x => { x with used := true }) (hp 0x304 [fAt 17 0 2 1])), c0, (hp 0x304 [fAt 17 0 2 1]), by decide +kernel⟩,
    ⟨(on (modRect (outp up fun x => { x with state := .running }) 0 fun x => { x with used := true }) (hp 0x304 [fAt 17 0 2 2])), c0, (hp 0x304 [fAt 17 0 2 2]), by decide +kernel⟩,
    ⟨(on (modRect (outp up fun x => { x with state := .running }) 0 fun x => { x with used := true }) (hp 0x304 [fAt 17 0 2 3])), c0, (hp 0x304 [fAt 17 0 2 3]), by decide +kernel⟩,
    ⟨(modRect (outp up fun x => { x with state := .running, inFrame := true, line := 3 }) 0 fun x => { x with used := true, latch := true, cfg := { y := 1, w := 2, h := 2 } }), 0, 0, by decide +kernel⟩,
    ⟨(modRect (outp up fun x => { x with state := .running, inFrame := true, line := 3, gapLines := [2] }) 0 fun x => { x with used := true, cfg := { y := 1, w := 2, h := 2 } }), 0, 0, by decide +kernel⟩,
    ⟨(modRect (outp up fun x => { x with state := .running, inFrame := true, line := 3, checkLines := [(1, [5, 6, 7]), (2, [1, 2, 3])] }) 0 fun x => { x with used := true, cfg := { mode := 2, y := 1, w := 2, h := 2 } }), 0, 0, by decide +kernel⟩,
    ⟨(modRect (outp up fun x => { x with state := .running, inFrame := true, line := 3, checkLines := [(1, [5, 6, 7]), (2, [1, 2, 3])] }) 0 fun x => { x with used := true, cfg := { y := 1, w := 2, h := 2, action := 2, checkA := expectedCheck 0 0 0 } }), 0, 0, by decide +kernel⟩,
    ⟨(modRect (outp up fun x => { x with state := .running, inFrame := true, line := 3 }) 0 fun x => { x with used := true, cfg := { mode := 1, y := 1, w := 2, h := 2, freezeN := 2, sourceValid := true, source := 5 } }), 0, 0, by decide +kernel⟩⟩

/-- What Obligations.BankTakeover asks of its states can be met, clause by clause. -/
theorem test_BankTakeover :
  (∃ (s : State), ∃ (o : Nat), ∃ (i : Instr), ∃ (cause : Nat), let c := getCarry s o; let other := 1 - c.bank; ((i = .bankPipeWatchdog o ∧ cause = 1) ∨ (i = .bankStoreEccFault o ∧ cause = 2)) ∧ o < 8 ∧ scheduling (getOut s o) = true ∧ c.stranded = false ∧ c.arming = none ∧ s.bank.rehearsal.filter Rehearsal.armed = none ∧ s.bank.carry.length = 8 ∧ (getBank s other).state = .normal ∧ (getBank s c.bank).state = .normal ∧ c.bank < 2 ∧ ((∀ q, q < 8 → (getCarry s q).arming = none))) ∧
  (∃ (s : State), ∃ (o b p : Nat), o < 8 ∧ s.bank.carry.length = 8 ∧ (getCarry s o).arming = some (b, p)) :=
  ⟨⟨(outp up fun x => { x with state := .running }), 0, (.bankPipeWatchdog 0), 1, by decide +kernel⟩,
    ⟨(modCarry (outp up fun x => { x with state := .running }) 0 fun x => { x with arming := some (1, 4) }), 0, 1, 4, by decide +kernel⟩⟩

/-- What Obligations.BankReturns asks of its states can be met, clause by clause. -/
theorem test_BankReturns :
  (∃ (s : State), ∃ (c : Cmd), ∃ (h : Held), ReadyNow s c 0x306 h ∧ checkBankRehearse s h c = none ∧ (now s).tick ≠ 0) ∧
  (∃ (s : State), ∃ (c : Cmd), ∃ (h : Held), ReadyNow s c 0x306 h ∧ checkBankRehearse s h c = none ∧ (now s).tick = 0) ∧
  (∃ (s : State), ∃ (r : Rehearsal), ∃ (f : Nat), s.bank.rehearsal = some r ∧ r.since = some f ∧ (now s).line = 0 ∧ r.frames < frameDiff (now s).frame f ∧ ((∀ h, findHeld s r.key = some h → h.slice = r.key.slice)) ∧ s.bank.carry.length = 8) ∧
  (∃ (s : State), ∃ (b : Nat), (getBank s b).state = .checking) ∧
  (∃ (s : State), ∃ (b test : Nat), ∃ (i : Instr), ((i = .bankSelfCheckEnd b false test ∧ (getBank s b).state = .checking) ∨ (i = .holdoffSelfCheckError b test ∧ (getBank s b).state = .holdoff)) ∧ ((∀ k h, (getBank s b).reinit = some k → findHeld s k = some h → h.slice = k.slice))) ∧
  (∃ (s : State), ∃ (b : Nat), (getBank s b).state = .holdoff ∧ (getBank s b).holdoffFrames ≤ (getBank s b).clean ∧ (now s).line = 0 ∧ ((∀ k h, (getBank s b).reinit = some k → findHeld s k = some h → h.slice = k.slice)) ∧ s.bank.carry.length = 8) :=
  ⟨⟨(on up (hp 0x306 [fAt 18 0 16 3])), c0, (hp 0x306 [fAt 18 0 16 3]), by decide +kernel⟩,
    ⟨(let u := on up (hp 0x306 [fAt 18 0 16 3]); { u with time := { u.time with wp := ⟨5, 7, 0⟩ } }), c0, (hp 0x306 [fAt 18 0 16 3]), by decide +kernel⟩,
    ⟨({ modBank (outp up fun x => { x with state := .running }) 0 fun x => { x with state := .rehearsing } with time := { up.time with wp := ⟨5, 0, 0⟩ }, bank := { (modBank up 0 fun x => { x with state := .rehearsing }).bank with rehearsal := some ({ armed := true, frames := 1, since := some 2 }) } }), ({ armed := true, frames := 1, since := some 2 }), 2, by decide +kernel⟩,
    ⟨(modBank up 1 fun x => { x with state := .checking }), 1, by decide +kernel⟩,
    ⟨(modBank up 1 fun x => { x with state := .holdoff }), 1, 4, (.holdoffSelfCheckError 1 4), .inr ⟨rfl, by decide +kernel⟩, by intro k h hk _; rw [show (getBank _ _).reinit = none by decide +kernel] at hk; cases hk⟩,
    ⟨(let u := modBank (outp up fun x => { x with state := .running }) 0 fun x => { x with state := .holdoff, clean := 5, holdoffFrames := 5 }; { u with time := { u.time with wp := ⟨5, 0, 0⟩ } }), 0, by decide +kernel, by decide +kernel, by decide +kernel, fun k h hk _ => absurd (hk.symm.trans (by decide +kernel)) (Option.some_ne_none k), by decide +kernel⟩⟩

/-- What Obligations.LivenessCommands asks of its states can be met, clause by clause. -/
theorem test_LivenessCommands :
  (∃ (s : State), ∃ (c : Cmd), ∃ (h : Held), ReadyNow s c 0x601 h ∧ checkLivenessSet s h c = none) ∧
  (∃ (s : State), ∃ (c : Cmd), ∃ (h : Held), ReadyNow s c 0x602 h ∧ checkHeartbeat s h c = none) ∧
  (∃ (s : State), ∃ (c : Cmd), ∃ (h : Held), ReadyNow s c 0x604 h ∧ checkTreatmentAssets s h c = none) :=
  ⟨⟨(on (modEntry up 3 fun e => { e with valid := true, kind := .surface }) (hp 0x601 [fAt 16 0 12 3, fAt 19 2 2 1, fAt 24 0 24 9])), c0, (hp 0x601 [fAt 16 0 12 3, fAt 19 2 2 1, fAt 24 0 24 9]), by decide +kernel⟩,
    ⟨(on (modEntry up 3 fun e => { e with valid := true, kind := .surface }) (hp 0x602 [fAt 16 0 4 1, fAt 18 0 12 3])), c0, (hp 0x602 [fAt 16 0 4 1, fAt 18 0 12 3]), by decide +kernel⟩,
    ⟨(on up (hp 0x604 [fAt 16 0 8 0, fAt 17 0 8 3, fAt 20 0 30 5])), c0, (hp 0x604 [fAt 16 0 8 0, fAt 17 0 8 3, fAt 20 0 30 5]), by decide +kernel⟩⟩

/-- What Obligations.LedgerRecords asks of its states can be met, clause by clause. -/
theorem test_LedgerRecords :
  (∃ (s u : State), ∃ (c : Cmd), ∃ (h : Held), ReadyNow s c 0x603 h ∧ checkLedgerRead s h c = none ∧ let ids := (List.range (pf h.pkt 18 0 13)).map (pf h.pkt 16 0 12 + ·); let body := ids.flatMap fun i => bytesLE 64 (if entryVisible s h.slice i then entryBits i (getEntry s i) else 0); destWrite s h.slice engLock (destSpace s) c.ok (pf h.pkt 24 0 64) body = (u, true)) ∧
  (∃ (s u : State), ∃ (c : Cmd), ∃ (h : Held), ReadyNow s c 0x603 h ∧ checkLedgerRead s h c = none ∧ let ids := (List.range (pf h.pkt 18 0 13)).map (pf h.pkt 16 0 12 + ·); let body := ids.flatMap fun i => bytesLE 64 (if entryVisible s h.slice i then entryBits i (getEntry s i) else 0); destWrite s h.slice engLock (destSpace s) c.ok (pf h.pkt 24 0 64) body = (u, false)) ∧
  (∃ (s : State), ∃ (c : Cmd), ∃ (h : Held), ReadyNow s c 0x603 h ∧ checkLedgerRead s h c = none ∧ s.regs.headless = false ∧ c.ok = true) ∧
  (∃ (s : State), ∃ (i : Nat), let w : Wp := { now s with tick := 0 }; let x := getEntry (takeReports s) i; s.time.running = true ∧ s.ledger.evalAt ≠ some (lineOf w) ∧ s.ledger.sets = [] ∧ i ∈ entryIds s ∧ x.valid = true) :=
  ⟨⟨(on (modEntry up 3 fun e => { e with valid := true, kind := .surface }) (hp 0x603 [fAt 16 0 12 3, fAt 18 0 13 1])), _, c0, (hp 0x603 [fAt 16 0 12 3, fAt 18 0 13 1]), by decide +kernel, by decide +kernel, pair_of (by decide +kernel)⟩,
    ⟨(on (modEntry up 3 fun e => { e with valid := true, kind := .surface }) (hp 0x603 [fAt 16 0 12 3, fAt 18 0 13 1])), _, ({ ok := false }), (hp 0x603 [fAt 16 0 12 3, fAt 18 0 13 1]), by decide +kernel, by decide +kernel, pair_of (by decide +kernel)⟩,
    ⟨(on (modEntry up 3 fun e => { e with valid := true, kind := .surface }) (hp 0x603 [fAt 16 0 12 3, fAt 18 0 13 1])), c0, (hp 0x603 [fAt 16 0 12 3, fAt 18 0 13 1]), by decide +kernel⟩,
    ⟨(modEntry up 3 fun e => { e with valid := true, period := 1, deadline := 1, origin := some ⟨5, 1⟩, inp := { e.inp with arrived := true } }), 3, by decide +kernel⟩⟩

/-- What Obligations.WallFrameBoundaryTaken asks of its states can be met, clause by clause. -/
theorem test_WallFrameBoundaryTaken :
  (∃ (s : State), s.time.running = true ∧ (now s).line = 0 ∧ s.time.lastBoundary ≠ some (now s).frame) ∧
  (∃ (s : State), s.time.running = true ∧ (now s).line = 0 ∧ s.time.lastBoundary ≠ some (now s).frame ∧ ((heldAll s).all fun h => h.phase != .armed) = true ∧ (s.time.realign.all fun r => !frameDue s r.frame) = true ∧ s.fabric.jumpPort = none) ∧
  (∃ (s : State), (s.time.lastBoundary = some (now s).frame ∨ (now s).line ≠ 0 ∨ s.time.running = false)) :=
  ⟨⟨(let u := outp up fun x => { x with state := .running, under := { lines := 3 } }; { u with time := { u.time with wp := ⟨5, 0, 10⟩ } }), by decide +kernel⟩,
    ⟨({ up with time := { up.time with wp := ⟨5, 0, 100⟩, lastBoundary := some 4 }, comp := { up.comp with pendCoeffs := [(3, {}, 5)] } }), by decide +kernel⟩,
    ⟨up, by decide +kernel⟩⟩

/-- What Obligations.SourceAttachAndDetach asks of its states can be met, clause by clause. -/
theorem test_SourceAttachAndDetach :
  (∃ (s u : State), ∃ (c : Cmd), ∃ (h : Held), ∃ (i : Nat), ∃ (l : List Nat), ReadyNow s c 0x401 h ∧ checkSourceAttach s h c = none ∧ let q := attachReq h.pkt; let size := if q.kind = 0 then (q.w, q.h) else roundedSize q; let n := if q.kind = 0 then q.refs + 2 else if q.kind = 3 then 0 else q.buffers; (if q.any then firstIdx (fun i => !(getEntry s i).valid) 0 4096 else some q.id) = some i ∧ sourcesUsed s h.slice < (getSlice s h.slice).share.sources ∧ ((q.kind = 0 → ctxFree s h.slice = true)) ∧ attachBuffers h.slice q.fmt size.1 size.2 (sourceWriter q.kind) n s = (u, .ok l)) ∧
  (∃ (s : State), ∃ (c : Cmd), ∃ (h : Held), ReadyNow s c 0x402 h ∧ checkSourceDetach s h c = none) :=
  ⟨⟨(on up (hp 0x401 [fAt 17 4 1 1, fAt 18 0 2 0, fAt 19 0 2 0, fAt 20 0 8 0x20, fAt 22 0 14 64, fAt 24 0 14 64, fAt 26 0 5 1, fAt 28 0 10 10, fAt 32 0 24 2250, fAt 36 0 24 9000])), _, c0, (hp 0x401 [fAt 17 4 1 1, fAt 18 0 2 0, fAt 19 0 2 0, fAt 20 0 8 0x20, fAt 22 0 14 64, fAt 24 0 14 64, fAt 26 0 5 1, fAt 28 0 10 10, fAt 32 0 24 2250, fAt 36 0 24 9000]), 0, _, by decide +kernel, by decide +kernel, by decide +kernel, by decide +kernel, by decide +kernel, pair_ok (d := []) (by decide +kernel)⟩,
    ⟨(on (modRule (modEntry up 3 fun e => { e with valid := true, kind := .decoded }) 2 fun r => { r with bound := true, source := 3 }) (hp 0x402 [fAt 16 0 12 3])), c0, (hp 0x402 [fAt 16 0 12 3]), by decide +kernel⟩⟩

/-- What Obligations.FlowSettings asks of its states can be met, clause by clause. -/
theorem test_FlowSettings :
  (∃ (s : State), ∃ (c : Cmd), ∃ (h : Held), ReadyNow s c 0x403 h ∧ flowOp h.pkt = 0 ∧ checkFlowPort s h c = none) ∧
  (∃ (s : State), ∃ (c : Cmd), ∃ (h : Held), ReadyNow s c 0x403 h ∧ flowOp h.pkt = 1 ∧ checkFlowRule s h c = none) ∧
  (∃ (s u : State), ∃ (c : Cmd), ∃ (h : Held), ∃ (hd : Nat), ReadyNow s c 0x403 h ∧ flowOp h.pkt = 2 ∧ checkFlowBind s h c = none ∧ let i := pf h.pkt 18 0 9; let src := pf h.pkt 20 0 12; let size := pf h.pkt 32 0 32 * 1024; allocBytes (endBinding s i) (getEntry s src).owner size .decode = (u, some hd)) ∧
  (∃ (s : State), ∃ (c : Cmd), ∃ (h : Held), ReadyNow s c 0x403 h ∧ flowOp h.pkt = 3 ∧ checkFlowQueue s h c = none) ∧
  (∃ (s : State), ∃ (c : Cmd), ∃ (h : Held), ReadyNow s c 0x403 h ∧ flowOp h.pkt = 4 ∧ checkFlowTransmit s h c = none) :=
  ⟨⟨(on up (hp 0x403 [fAt 16 0 3 0, fAt 17 0 1 1, fAt 17 4 1 1, fAt 18 0 16 1500, fAt 20 0 48 0x112233445566, fAt 28 0 32 0x0100000A])), c0, (hp 0x403 [fAt 16 0 3 0, fAt 17 0 1 1, fAt 17 4 1 1, fAt 18 0 16 1500, fAt 20 0 48 0x112233445566, fAt 28 0 32 0x0100000A]), by decide +kernel⟩,
    ⟨(on up (hp 0x403 [fAt 16 0 3 1, fAt 17 0 2 1, fAt 17 5 2 2, fAt 17 7 1 1, fAt 18 0 9 4, fAt 22 0 16 5000, fAt 28 0 4 2])), c0, (hp 0x403 [fAt 16 0 3 1, fAt 17 0 2 1, fAt 17 5 2 2, fAt 17 7 1 1, fAt 18 0 9 4, fAt 22 0 16 5000, fAt 28 0 4 2]), by decide +kernel⟩,
    ⟨(on (modEntry up 3 fun e => { e with valid := true, kind := .decoded }) (hp 0x403 [fAt 16 0 3 2, fAt 18 0 9 4, fAt 20 0 12 3, fAt 22 0 7 96, fAt 23 0 6 8, fAt 28 0 16 20, fAt 32 0 32 256])), _, c0, (hp 0x403 [fAt 16 0 3 2, fAt 18 0 9 4, fAt 20 0 12 3, fAt 22 0 7 96, fAt 23 0 6 8, fAt 28 0 16 20, fAt 32 0 32 256]), _, by decide +kernel, by decide +kernel, by decide +kernel, pair_some (d := 0) (by decide +kernel)⟩,
    ⟨(on up (hp 0x403 [fAt 16 0 3 3, fAt 17 0 4 2, fAt 17 5 1 1, fAt 17 6 1 1, fAt 20 0 5 6, fAt 21 0 5 6, fAt 24 0 64 0x10000])), c0, (hp 0x403 [fAt 16 0 3 3, fAt 17 0 4 2, fAt 17 5 1 1, fAt 17 6 1 1, fAt 20 0 5 6, fAt 21 0 5 6, fAt 24 0 64 0x10000]), by decide +kernel⟩,
    ⟨(on (modSession up 1 fun e => { e with used := true }) (hp 0x403 [fAt 16 0 3 4, fAt 17 0 4 2, fAt 17 4 1 1, fAt 18 0 4 1, fAt 22 0 16 5000, fAt 24 0 16 5002, fAt 27 0 8 64])), c0, (hp 0x403 [fAt 16 0 3 4, fAt 17 0 4 2, fAt 17 4 1 1, fAt 18 0 4 1, fAt 22 0 16 5000, fAt 24 0 16 5002, fAt 27 0 8 64]), by decide +kernel⟩⟩

/-- What Obligations.FramesAndFlows asks of its states can be met, clause by clause. -/
theorem test_FramesAndFlows :
  (∃ (s : State), ∃ (q : Nat), q < 16 ∧ pageOpen s (getQueue s q).owner = true) ∧
  (∃ (s : State), ∃ (port : Nat), ∃ (frame : List Byte), port < 2 ∧ (getPort s port).enable = true ∧ (getPort s port).up = true ∧ ((frame.length < 18 ∨ frame.drop (frame.length - 4) ≠ fcs (frame.take (frame.length - 4))))) ∧
  (∃ (s : State), ∃ (port r : Nat), ∃ (frame : List Byte), ∃ (host : List HostDesc), ∃ (d : HostDesc), let l := frame.take (frame.length - 4); let i := parseFrame l; let x := getQueue s (getRule s r).queue; port < 2 ∧ (getPort s port).enable = true ∧ (getPort s port).up = true ∧ 18 ≤ frame.length ∧ frame.drop (frame.length - 4) = fcs l ∧ i.etype ≠ 0x8808 ∧ addressOk (getPort s port) i = true ∧ i.sumOk = true ∧ (getPtp s port).engine = 0 ∧ classify s port i = some r ∧ (getRule s r).action = 2 ∧ x.enable = true ∧ x.space = false ∧ nextDesc s (getRule s r).queue x false host = (s, some d)) ∧
  (∃ (s : State), ∃ (port n : Nat), ∃ (host : List HostDesc), ∃ (f : List Byte), ∃ (rest : List (List Byte)), port < 2 ∧ (getPort s port).enable = true ∧ (getPort s port).up = true ∧ (getPort s port).ptp = [] ∧ (queueFrame s (getPtp s port).hostQueue host).2 = none ∧ roundRobin 16 (getPort s port).nextStream (fun n => (getStream s n).enable && (getStream s n).port == port && !(getStream s n).packets.isEmpty) = some n ∧ (getStream s n).packets = f :: rest) ∧
  (∃ (port : Nat), port < 2) ∧
  (∃ (s : State), ∃ (r : Nat), ∃ (p : RtpPacket), (getRule s r).held = [p] ∧ p.marker = false ∧ (getRule s r).holdLines ≤ linesBetween (wallLines s) (lineOf p.stamp) (now s)) ∧
  (∃ (s s1 s2 s3 : State), ∃ (n c : Nat), ∃ (hd unit : List Byte), let x := getStream s n; let e := getSession s x.session; let base := (latchedSurf s1 e.ring).base + 4096 + c % (e.ringSize - 4096); x.enable = true ∧ e.used = true ∧ ringConsumed s e = (s1, some c) ∧ c ≠ e.produced ∧ storeRead s1 e.owner engEncode base 32 = (s2, some hd) ∧ bitAt (byteAt hd 20) 7 = false ∧ storeRead s2 e.owner engEncode (base + 32) (leAt hd 0 4) = (s3, some unit) ∧ x.seq < 65536) :=
  ⟨⟨up, 3, by decide +kernel⟩,
    ⟨(modPort up 0 fun p => { p with enable := true, up := true }), 0, (List.replicate 60 0), by decide +kernel⟩,
    ⟨(modQueue (modRule (modPort up 0 fun p => { p with enable := true, up := true, mac := 0x020304050607 }) 2 fun y => { y with enable := true, ports := 1, action := 2, dstUdp := 5000, queue := 3 }) 3 fun q => { q with enable := true, rxLog := 4, txLog := 4, rxTail := 5 }), 0, 2, (udp ++ fcs udp), ([({ queue := 3, index := 0, addr := 4096, length := 2048 })]), ({ queue := 3, index := 0, addr := 4096, length := 2048 }), also (by decide +kernel) (also (by decide +kernel) ⟨by decide +kernel, by decide +kernel, by decide +kernel, by decide +kernel, by decide +kernel, nextDesc_host (by decide +kernel) (by decide +kernel) (by decide +kernel) (by decide +kernel) (by decide +kernel)⟩)⟩,
    ⟨(modStream (modPort up 0 fun p => { p with enable := true, up := true }) 2 fun x => { x with enable := true, packets := [(List.replicate 60 3)] }), 0, 2, ([]), (List.replicate 60 3), ([]), by decide +kernel⟩,
    ⟨1, by decide +kernel⟩,
    ⟨(modRule up 4 fun y => { y with bound := true, held := [({ seq := 12, payload := [1, 2, 3], stamp := ⟨5, 1, 0⟩ })], expected := some 10, holdLines := 2 }), 4, ({ seq := 12, payload := [1, 2, 3], stamp := ⟨5, 1, 0⟩ }), by decide +kernel⟩,
    ⟨({ modStream (modSession (surf up id) 1 fun e => { e with used := true, ring := 16384, ringSize := 8192, produced := 64 }) 2 fun x => { x with enable := true, session := 1 } with store := { (surf up id).store with mem := [(0x10001000, 8), (0x10001020, 0), (0x10001023, 1), (0x10001024, 9), (0x10001025, 7)].filter (·.2 != 0) } }), _, _, _, 2, _, _, _, by decide +kernel, by decide +kernel, pair_some (d := 9) (by decide +kernel), by decide +kernel, pair_some (d := []) (by decide +kernel), by decide +kernel, pair_some (d := []) (by decide +kernel), by decide +kernel⟩⟩

/-- What Obligations.DecodeWork asks of its states can be met, clause by clause. -/
theorem test_DecodeWork :
  (∃ (s : State), ∃ (core i : Nat), core < 8 ∧ s.media.decOut.contains core = false ∧ ctxsWhere s (fun x => ctxCore x == some core) = [] ∧ bestOf s s.media.decCredit (fun i => (getCtx s i).slice) (fun i => ctxStamp (getCtx s i)) (ctxsWhere s (ctxReady s)) = some i ∧ let x := getCtx s i; ∃ p, x.pic = some p) ∧
  (∃ (s : State), ∃ (core i : Nat), ∃ (pic : PicInfo), core < 8 ∧ s.media.decOut.contains core = false ∧ ctxsWhere s (fun x => ctxCore x == some core) = [] ∧ bestOf s s.media.decCredit (fun i => (getCtx s i).slice) (fun i => ctxStamp (getCtx s i)) (ctxsWhere s (ctxReady s)) = some i ∧ let x := getCtx s i; ∃ a, x.pic = none ∧ x.queue.head? = some a ∧ (auInfo (x.codec == 1) a.nals).coded = true ∧ seqDetail x (getSource s i) pic.seq ≠ 0 ∧ x.refused = false ∧ (getEntry s i).valid = true ∧ (getEntry s i).inp.unfit = false) ∧
  (∃ (s : State), ∃ (core i : Nat), ∃ (pic : PicInfo), core < 8 ∧ s.media.decOut.contains core = false ∧ ctxsWhere s (fun x => ctxCore x == some core) = [] ∧ bestOf s s.media.decCredit (fun i => (getCtx s i).slice) (fun i => ctxStamp (getCtx s i)) (ctxsWhere s (ctxReady s)) = some i ∧ let x := getCtx s i; ∃ a b, x.pic = none ∧ x.queue.head? = some a ∧ (auInfo (x.codec == 1) a.nals).coded = true ∧ seqDetail x (getSource s i) pic.seq = 0 ∧ x.wait = true ∧ (auInfo (x.codec == 1) a.nals).rap = true ∧ decodeBuffer (modCtx s i fun x => { x with refs := [] }) i = some b) ∧
  (∃ (s : State), ∃ (core i : Nat), ∃ (row : DecodedRow), ∃ (p : DecPic), (ctxsWhere s fun x => ctxCore x == some core).head? = some i ∧ (getCtx s i).pic = some p ∧ row.starved = true) ∧
  (∃ (s : State), ∃ (core i : Nat), ∃ (row : DecodedRow), ∃ (p : DecPic), (ctxsWhere s fun x => ctxCore x == some core).head? = some i ∧ (getCtx s i).pic = some p ∧ let u := readCoded s i; row.starved = false ∧ p.orphan = false ∧ (getSurf u p.surf).rebuilding = false ∧ writerBlocked u p.surf (getSurf u p.surf).pass p.lines (rowFrontier p - 1) = false ∧ p.row + 1 < picRows p) ∧
  (∃ (s : State), ∃ (core i : Nat), ∃ (row : DecodedRow), ∃ (p : DecPic), (ctxsWhere s fun x => ctxCore x == some core).head? = some i ∧ (getCtx s i).pic = some p ∧ let u := readCoded s i; row.starved = false ∧ p.orphan = false ∧ (getSurf u p.surf).rebuilding = false ∧ writerBlocked u p.surf (getSurf u p.surf).pass p.lines (rowFrontier p - 1) = false ∧ picRows p ≤ p.row + 1) ∧
  (∃ (s : State), ∃ (core : Nat), ctxsWhere s (fun x => ctxCore x == some core || ctxReady s x) = []) ∧
  (∃ (s : State), ∃ (c : Cmd), ∃ (h : Held), ReadyNow s c 0x405 h ∧ checkDecodeStatus s h c = none ∧ pf h.pkt 24 0 64 = 0) ∧
  (∃ (s u : State), ∃ (c : Cmd), ∃ (h : Held), ReadyNow s c 0x405 h ∧ checkDecodeStatus s h c = none ∧ let r := ctxRecord s (getCtx s (pf h.pkt 16 0 12)); pf h.pkt 24 0 64 ≠ 0 ∧ destWrite s h.slice engLock (destSpace s) c.ok (pf h.pkt 24 0 64) (bytesLE 64 r) = (u, true)) :=
  ⟨⟨(modCtx src3 3 fun x => { x with used := true, pic := some { height := 8, width := 64 }, queue := [au0] }), 2, 3, by decide +kernel, by decide +kernel, by decide +kernel, by decide +kernel, (({ height := 8, width := 64 } : DecPic)), by decide +kernel⟩,
    ⟨(modCtx src3 3 fun x => { x with used := true, queue := [au0], maxRefs := 1 }), 2, 3, ({ pic0 with seq := { seq0 with interlaced := true } }), by decide +kernel, by decide +kernel, by decide +kernel, by decide +kernel, au0, by decide +kernel⟩,
    ⟨(modCtx src3 3 fun x => { x with used := true, queue := [au0], maxRefs := 1 }), 2, 3, pic0, by decide +kernel, by decide +kernel, by decide +kernel, by decide +kernel, au0, 0, by decide +kernel⟩,
    ⟨(modCtx src3 3 fun x => { x with used := true, pic := some (({ height := 8, width := 64, core := some 2 } : DecPic)), queue := [{ au0 with complete := false }] }), 2, 3, ({ row0 with starved := true }), (({ height := 8, width := 64, core := some 2 } : DecPic)), by decide +kernel⟩,
    ⟨(modCtx src3 3 fun x => { x with used := true, pic := some (({ height := 64, width := 64, codedW := 64, codedH := 64, core := some 2 } : DecPic)), queue := [au0], seq := some seq0 }), 2, 3, ({ row0 with luma := List.replicate 8 (List.replicate 64 7), chroma := List.replicate 4 (List.replicate 64 9) }), (({ height := 64, width := 64, codedW := 64, codedH := 64, core := some 2 } : DecPic)), by decide +kernel, by decide +kernel, by decide +kernel⟩,
    ⟨(modCtx src3 3 fun x => { x with used := true, pic := some (({ height := 8, width := 64, core := some 2 } : DecPic)), queue := [au0], seq := some seq0 }), 2, 3, ({ row0 with luma := List.replicate 8 (List.replicate 64 7), chroma := List.replicate 4 (List.replicate 64 9) }), (({ height := 8, width := 64, core := some 2 } : DecPic)), by decide +kernel, by decide +kernel, by decide +kernel⟩,
    ⟨({ up with power := { up.power with decodeOn := [(2, true)] } }), 2, by decide +kernel⟩,
    ⟨(on (modCtx src3 3 fun x => { x with used := true, width := 64 }) (hp 0x405 [fAt 16 0 12 3])), c0, (hp 0x405 [fAt 16 0 12 3]), by decide +kernel⟩,
    ⟨(on (modCtx src3 3 fun x => { x with used := true, width := 64 }) (hp 0x405 [fAt 16 0 12 3, fAt 24 0 64 4096])), _, c0, (hp 0x405 [fAt 16 0 12 3, fAt 24 0 64 4096]), by decide +kernel, by decide +kernel, by decide +kernel, pair_of (by decide +kernel)⟩⟩

/-- What Obligations.EncodeSessions asks of its states can be met, clause by clause. -/
theorem test_EncodeSessions :
  (∃ (s s1 s2 s3 : State), ∃ (c : Cmd), ∃ (h : Held), ∃ (cl rl : List Nat), ∃ (ring n : Nat), ReadyNow s c 0x501 h ∧ checkEncodeOpen s h c = none ∧ let x := openSession h.slice h.pkt; let k := (getOut s x.output).cfg; let up := fun n : Nat => (n + 7) / 8 * 8; (if x.input = 0 then allocMany h.slice 0x13 k.hActive k.vActive .capture (pf h.pkt 19 4 2 + 2) s else (s, some [])) = (s1, some cl) ∧ allocMany h.slice 0x21 (up x.width) (up x.height) .capture 2 s1 = (s2, some rl) ∧ allocBytes s2 h.slice x.ringSize .capture = (s3, some ring) ∧ firstIdx (fun i => !(getSession s i).used) 0 16 = some n) ∧
  (∃ (s : State), ∃ (c : Cmd), ∃ (h : Held), ReadyNow s c 0x502 h ∧ checkEncodeSetRate s h c = none) ∧
  (∃ (s : State), ∃ (c : Cmd), ∃ (h : Held), ReadyNow s c 0x503 h ∧ checkKeyPicture s h c = none) ∧
  (∃ (s : State), ∃ (core n : Nat), core < 2 ∧ s.media.encOut.contains core = false ∧ sessionsWhere s (fun x => match x.coding with | some p => p.core == some core | none => false) = [] ∧ s.media.encOrphans.any (fun e => e.core == core) = false ∧ bestOf s s.media.encCredit (fun n => (getSession s n).owner) (fun n => encStart (getSession s n)) (sessionsWhere s (encReady s)) = some n ∧ ∃ p, (getSession s n).coding = some p) ∧
  (∃ (s : State), ∃ (core n : Nat), core < 2 ∧ s.media.encOut.contains core = false ∧ sessionsWhere s (fun x => match x.coding with | some p => p.core == some core | none => false) = [] ∧ s.media.encOrphans.any (fun e => e.core == core) = false ∧ bestOf s s.media.encCredit (fun n => (getSession s n).owner) (fun n => encStart (getSession s n)) (sessionsWhere s (encReady s)) = some n ∧ ∃ p, (getSession s n).coding = none ∧ (getSession s n).waiting = some p) ∧
  (∃ (s : State), ∃ (core n : Nat), ∃ (p : EncPic), let x := getSession s n; (sessionsWhere s fun x => match x.coding with | some p => p.core == some core | none => false).head? = some n ∧ x.coding = some p ∧ rowReady s x p = false) ∧
  (∃ (s : State), ∃ (core n : Nat), ∃ (p : EncPic), let x := getSession s n; (sessionsWhere s fun x => match x.coding with | some p => p.core == some core | none => false).head? = some n ∧ x.coding = some p ∧ rowReady s x p = true ∧ p.row + 1 ≠ encRows x) ∧
  (∃ (s : State), ∃ (core n : Nat), ∃ (p : EncPic), let x := getSession s n; (sessionsWhere s fun x => match x.coding with | some p => p.core == some core | none => false).head? = some n ∧ x.coding = some p ∧ rowReady s x p = true ∧ p.row + 1 = encRows x) ∧
  (∃ (s : State), ∃ (c : Cmd), ∃ (h : Held), ReadyNow s c 0x504 h ∧ checkEncodeClose s h c = none) ∧
  (∃ (s : State), ∃ (n : Nat), ∃ (k : CmdKey), (getSession s n).closing = some k ∧ (getSession s n).coding = none ∧ n < 16 ∧ ((∀ h, findHeld s k = some h → h.slice = k.slice))) :=
  ⟨⟨(on src3 (hp 0x501 [fAt 16 0 2 1, fAt 16 5 1 1, fAt 16 7 1 1, fAt 18 0 5 1, fAt 19 0 4 1, fAt 20 0 12 3, fAt 26 0 14 64, fAt 28 0 14 64, fAt 30 0 6 26, fAt 32 0 6 51, fAt 34 0 4 1, fAt 36 0 32 1000, fAt 44 0 32 64])), _, _, _, c0, (hp 0x501 [fAt 16 0 2 1, fAt 16 5 1 1, fAt 16 7 1 1, fAt 18 0 5 1, fAt 19 0 4 1, fAt 20 0 12 3, fAt 26 0 14 64, fAt 28 0 14 64, fAt 30 0 6 26, fAt 32 0 6 51, fAt 34 0 4 1, fAt 36 0 32 1000, fAt 44 0 32 64]), ([]), _, _, 0, by decide +kernel, by decide +kernel, pair_of (by decide +kernel), pair_some (d := []) (by decide +kernel), pair_some (d := 0) (by decide +kernel), by decide +kernel⟩,
    ⟨(on (modSession up 2 fun x => { x with used := true, h264 := true }) (hp 0x502 [fAt 16 0 4 2, fAt 17 0 1 1, fAt 32 0 6 51, fAt 34 0 4 1])), c0, (hp 0x502 [fAt 16 0 4 2, fAt 17 0 1 1, fAt 32 0 6 51, fAt 34 0 4 1]), by decide +kernel⟩,
    ⟨(on (modSession src3 2 fun x => { x with used := true, h264 := true, input := 1, source := 3 }) (hp 0x503 [fAt 16 0 4 2])), c0, (hp 0x503 [fAt 16 0 4 2]), by decide +kernel⟩,
    ⟨(modSession (surf up fun x => { x with frontier := 8 }) 2 fun x => { x with used := true, height := 8, width := 64, coding := some (({ pass := 0, row := 0 } : EncPic)) }), 1, 2, by decide +kernel, by decide +kernel, by decide +kernel, by decide +kernel, by decide +kernel, (({ pass := 0, row := 0 } : EncPic)), by decide +kernel⟩,
    ⟨(modSession (surf up fun x => { x with frontier := 8 }) 2 fun x => { x with used := true, height := 8, width := 64, waiting := some (({ pass := 0, row := 0 } : EncPic)), rate := { bitrate := 1000 } }), 1, 2, by decide +kernel, by decide +kernel, by decide +kernel, by decide +kernel, by decide +kernel, (({ pass := 0, row := 0 } : EncPic)), by decide +kernel⟩,
    ⟨(modSession (surf up fun x => { x with frontier := 4 }) 2 fun x => { x with used := true, height := 8, width := 64, coding := some ({ pass := 0, row := 0, core := some 1 }) }), 1, 2, ({ pass := 0, row := 0, core := some 1 }), by decide +kernel⟩,
    ⟨(modSession (surf up fun x => { x with frontier := 32, height := 32 }) 2 fun x => { x with used := true, h264 := true, height := 32, width := 64, coding := some ({ pass := 0, row := 0, core := some 1, u := 5, budget := 100000, skipAt := 100000 }), rowsPerSlice := 2, ring := 16384, ringSize := 65536 }), 1, 2, ({ pass := 0, row := 0, core := some 1, u := 5, budget := 100000, skipAt := 100000 }), by decide +kernel⟩,
    ⟨(modSession (surf up fun x => { x with frontier := 32, height := 32 }) 2 fun x => { x with used := true, h264 := true, height := 32, width := 64, coding := some ({ pass := 0, row := 1, core := some 1, u := 5, budget := 100000, skipAt := 100000 }), rowsPerSlice := 2, ring := 16384, ringSize := 65536 }), 1, 2, ({ pass := 0, row := 1, core := some 1, u := 5, budget := 100000, skipAt := 100000 }), by decide +kernel⟩,
    ⟨(on (modSession up 2 fun x => { x with used := true, h264 := true }) (hp 0x504 [fAt 16 0 4 2])), c0, (hp 0x504 [fAt 16 0 4 2]), by decide +kernel⟩,
    ⟨(on (modSession up 2 fun x => { x with used := true, h264 := true, closing := some ({}) }) { hp 0x504 [fAt 16 0 4 2] with phase := .deferred }), 2, ({}), by decide +kernel⟩⟩

/-- What Obligations.DisplayPortInputs asks of its states can be met, clause by clause. -/
theorem test_DisplayPortInputs :
  (∃ (s u : State), ∃ (c : Cmd), ∃ (h : Held), ∃ (l : List Byte), ReadyNow s c 0x404 h ∧ checkDpin s h c = none ∧ let load := pb h.pkt 16 3; ((load = true → srcRead s h.slice engLock (pb h.pkt 16 4) c (pf h.pkt 24 0 64) (pf h.pkt 18 0 16) = (u, some l) ∧ edidGood l = true))) ∧
  (∃ (s : State), ∃ (i : Nat), (getDp s i).pulse = true ∧ passed s (getDp s i).pulseAt 100000000 = true) ∧
  (∃ (s : State), ∃ (i : Nat), (((getDp s i).state = .waiting ∨ dpTrained (getDp s i).state = true)) ∧ (getDp s i).hpd = true) ∧
  (∃ (s : State), ∃ (i lanes rate : Nat), (getDp s i).state = .training ∧ ((lanes = 1 ∨ lanes = 2 ∨ lanes = 4)) ∧ lanes ≤ (getDp s i).maxLanes ∧ rate ≤ (getDp s i).maxRate) ∧
  (∃ (s : State), ∃ (i r : Nat), (getDp s i).state = .training ∧ ((r = 1 ∨ r = 2))) ∧
  (∃ (s : State), ∃ (i : Nat), (getDp s i).lock = true ∧ (getDp s i).state = .noVideo) ∧
  (∃ (s : State), ∃ (i : Nat), (getDp s i).lock = true ∧ (((getDp s i).state = .held ∨ (getDp s i).state = .receiving))) ∧
  (∃ (s : State), ∃ (i : Nat), dpTrained (getDp s i).state = true ∧ (getDp s i).lock = true) ∧
  (∃ (s : State), ∃ (i : Nat), (getDp s i).state = .noVideo ∧ (getDp s i).lock = false) ∧
  (∃ (s : State), ∃ (i src : Nat), ∃ (f : DpFrame), (getDp s i).frame = some f ∧ (getDp s i).source = some src) ∧
  (∃ (s : State), ∃ (i src b : Nat), ∃ (m : Msa), i < 4 ∧ (((getDp s i).state = .held ∨ (getDp s i).state = .receiving)) ∧ (getDp s i).lock = true ∧ (getDp s i).source = some src ∧ dpUnfit (getSource s src) m = 0 ∧ dpVideoState s i false = .receiving ∧ dpBuffer s src = some b) ∧
  (∃ (s : State), ∃ (i src : Nat), ∃ (m : Msa), i < 4 ∧ (((getDp s i).state = .held ∨ (getDp s i).state = .receiving)) ∧ (getDp s i).lock = true ∧ (getDp s i).source = some src ∧ dpUnfit (getSource s src) m ≠ 0 ∧ intakeStopped s (getEntry s src).owner = false ∧ (getEntry s src).valid = true ∧ (getEntry s src).inp.unfit = false) ∧
  (∃ (s : State), ∃ (i src : Nat), ∃ (f : DpFrame), (getDp s i).frame = some f ∧ (getDp s i).source = some src ∧ f.line + 1 < f.height) ∧
  (∃ (s : State), ∃ (i src : Nat), ∃ (f : DpFrame), (getDp s i).frame = some f ∧ (getDp s i).source = some src ∧ f.height ≤ f.line + 1) :=
  ⟨⟨(on up (hp 0x404 [fAt 16 0 2 1, fAt 16 2 1 1, fAt 16 3 1 1, fAt 17 0 2 2, fAt 17 2 2 3, fAt 18 0 16 128, fAt 24 0 64 4096])), _, ({ data := ([0x00, 0xFF, 0xFF, 0xFF, 0xFF, 0xFF, 0xFF, 0x00] ++ List.replicate 119 0 ++ [6]) }), (hp 0x404 [fAt 16 0 2 1, fAt 16 2 1 1, fAt 16 3 1 1, fAt 17 0 2 2, fAt 17 2 2 3, fAt 18 0 16 128, fAt 24 0 64 4096]), ([0x00, 0xFF, 0xFF, 0xFF, 0xFF, 0xFF, 0xFF, 0x00] ++ List.replicate 119 0 ++ [6]), by decide +kernel, by decide +kernel, fun _ => ⟨pair_of (by decide +kernel), by decide +kernel⟩⟩,
    ⟨(modDp up 1 fun d => { d with enable := true, pulse := true, state := .waiting }), 1, by decide +kernel⟩,
    ⟨(modDp up 1 fun d => { d with enable := true, hpd := true, state := .waiting }), 1, by decide +kernel⟩,
    ⟨(modDp up 1 fun d => { d with enable := true, hpd := true, state := .training, maxLanes := 4, maxRate := 3 }), 1, 2, 1, by decide +kernel⟩,
    ⟨(modDp up 1 fun d => { d with enable := true, hpd := true, state := .training, maxLanes := 4, maxRate := 3 }), 1, 2, by decide +kernel⟩,
    ⟨(modDp up 1 fun d => { d with enable := true, hpd := true, state := .noVideo }), 1, by decide +kernel⟩,
    ⟨(modDp up 1 fun d => { d with enable := true, hpd := true, state := .held, video := true }), 1, by decide +kernel⟩,
    ⟨(modDp src3 1 fun d => { d with enable := true, hpd := true, state := .receiving, video := true, source := some 3, frame := some {} }), 1, by decide +kernel⟩,
    ⟨(modDp src3 1 fun d => { d with enable := true, hpd := true, state := .noVideo, video := true, source := some 3, lock := false }), 1, by decide +kernel⟩,
    ⟨(modDp src3 1 fun d => { d with enable := true, hpd := true, state := .receiving, video := true, source := some 3, frame := some {} }), 1, 3, ({}), by decide +kernel⟩,
    ⟨(modDp src3d 1 fun d => { d with enable := true, hpd := true, state := .held, video := true, source := some 3 }), 1, 3, 0, msa0, by decide +kernel⟩,
    ⟨(modDp src3d 1 fun d => { d with enable := true, hpd := true, state := .held, video := true, source := some 3 }), 1, 3, ({ msa0 with hActive := 6400 }), by decide +kernel⟩,
    ⟨(modDp src3d 1 fun d => { d with enable := true, hpd := true, state := .receiving, video := true, source := some 3, frame := some ({ width := 64, height := 8, line := 2 }) }), 1, 3, ({ width := 64, height := 8, line := 2 }), by decide +kernel⟩,
    ⟨(modDp src3d 1 fun d => { d with enable := true, hpd := true, state := .receiving, video := true, source := some 3, frame := some ({ width := 64, height := 8, line := 7 }) }), 1, 3, ({ width := 64, height := 8, line := 7 }), by decide +kernel⟩⟩

/-- What Obligations.References asks of its states can be met, clause by clause. -/
theorem test_References :
  (∃ (s : State), ∃ (c : Cmd), ∃ (h : Held), ReadyNow s c 0x701 h ∧ pf h.pkt 16 0 2 = 0 ∧ checkRefEntry s h c = none) ∧
  (∃ (s : State), ∃ (c : Cmd), ∃ (h : Held), ReadyNow s c 0x701 h ∧ pf h.pkt 16 0 2 = 1 ∧ checkRefOutputs s h c = none) ∧
  (∃ (s u : State), ∃ (c : Cmd), ∃ (h : Held), ReadyNow s c 0x702 h ∧ checkStatusDest s h c = none ∧ ((u = s ∧ pf h.pkt 24 0 64 = 0) ∨ (pf h.pkt 24 0 64 ≠ 0 ∧ destWrite s h.slice engLock (destSpace s) c.ok (pf h.pkt 24 0 64) (refStatusRecord s) = (u, true)))) ∧
  (∃ (s : State), ∃ (n : Nat), let e := getRef s n; n < 8 ∧ e.enable = true ∧ e.input ≠ 15 ∧ lossHolds s e = false ∧ passed s e.begun (intervalNs e) = true) ∧
  (∃ (s : State), ∃ (n : Nat), passed s (getRef s n).begun (intervalNs (getRef s n)) = false) ∧
  (∃ (s : State), ∃ (n : Nat), n < 8 ∧ (getRef s n).enable = true ∧ (getRef s n).input ≠ 15 ∧ ((lossHolds s (getRef s n) = true ∨ (getRef s n).input < 2 ∨ inRange (getRef s n).input 4 7 = true))) ∧
  (∃ (s : State), ∃ (n : Nat), n < 8 ∧ (getRef s n).state = .qualifying ∧ timerDone s (getRef s n) ((getRef s n).qualifyS * 1000000000) = true) ∧
  (∃ (s : State), ∃ (n : Nat), n < 8 ∧ candidate (getRef s n) = true ∧ timerDone s (getRef s n) ((getRef s n).disqualifyMs * 1000000) = true) :=
  ⟨⟨(on up (hp 0x701 [fAt 17 0 3 2, fAt 17 3 1 1, fAt 18 0 4 1, fAt 18 4 4 3, fAt 20 0 16 100, fAt 22 0 12 10])), c0, (hp 0x701 [fAt 17 0 3 2, fAt 17 3 1 1, fAt 18 0 4 1, fAt 18 4 4 3, fAt 20 0 16 100, fAt 22 0 12 10]), by decide +kernel⟩,
    ⟨(on up (hp 0x701 [fAt 16 0 2 1])), c0, (hp 0x701 [fAt 16 0 2 1]), by decide +kernel⟩,
    ⟨(on up (hp 0x702 [fAt 24 0 64 4096])), _, c0, (hp 0x702 [fAt 24 0 64 4096]), by decide +kernel, by decide +kernel, .inr ⟨by decide +kernel, pair_of (by decide +kernel)⟩⟩,
    ⟨(modRef up 2 fun e => { e with enable := true, input := 1, window := 100, state := .qualifying }), 2, by decide +kernel⟩,
    ⟨(modRef up 2 fun e => { e with enable := true, input := 1, begun := upTime up }), 2, by decide +kernel⟩,
    ⟨(modRef up 2 fun e => { e with enable := true, input := 1, window := 100, state := .qualified }), 2, by decide +kernel⟩,
    ⟨(modRef up 2 fun e => { e with enable := true, input := 1, window := 100, state := .qualifying, timer := some 0 }), 2, by decide +kernel⟩,
    ⟨(modRef up 2 fun e => { e with enable := true, input := 1, window := 100, state := .qualified, timer := some 0 }), 2, by decide +kernel⟩⟩

/-- What Obligations.ReferenceLoop asks of its states can be met, clause by clause. -/
theorem test_ReferenceLoop :
  (∃ (s : State), ∃ (n : Nat), n < 8 ∧ (getRef s n).enable = true ∧ (getRef s n).input ≠ 15 ∧ (getRef s n).state ≠ .disqualified ∧ isMember s = false ∧ ((lossHolds s (getRef s n) = true ∨ (getRef s n).input < 2 ∨ inRange (getRef s n).input 4 7 = true)) ∧ s.head.selected = some (.entry n) ∧ let u := modRef s n fun e => { e with state := .disqualified }; ∃ m, bestRef u = some m ∧ (getRef s m).input ≠ 15) ∧
  (∃ (s : State), ∃ (n : Nat), n < 8 ∧ (getRef s n).enable = true ∧ (getRef s n).input ≠ 15 ∧ (getRef s n).state ≠ .disqualified ∧ isMember s = false ∧ ((lossHolds s (getRef s n) = true ∨ (getRef s n).input < 2 ∨ inRange (getRef s n).input 4 7 = true)) ∧ s.head.selected = some (.entry n) ∧ let u := modRef s n fun e => { e with state := .disqualified }; bestRef u = none) ∧
  (∃ (s : State), s.head.dpll = .switching ∧ passed s s.head.switchAt (intervalNs (lockTarget s)) = true) ∧
  (∃ (s : State), passed s s.head.secondAt 1000000000 = true) ∧
  (∃ (s : State), s.head.outA.mode = 1) ∧
  (∃ (s : State), s.head.outB.mode = 1) :=
  ⟨⟨(modRef (modRef { up with head := { up.head with selected := some (.entry 2), dpll := .locked } } 2 fun e => { e with enable := true, input := 1, window := 100, state := .qualified }) 4 fun e => { e with enable := true, input := 0, window := 100, state := .qualified }), 2, also (by decide +kernel) ⟨by decide +kernel, by decide +kernel, by decide +kernel, 4, by decide +kernel⟩⟩,
    ⟨(modRef { up with head := { up.head with entries := [], selected := some (.entry 2), dpll := .locked } } 2 fun e => { e with enable := true, input := 1, window := 100, state := .qualified }), 2, by decide +kernel, by decide +kernel, by decide +kernel, by decide +kernel, by decide +kernel, by decide +kernel, by decide +kernel, by decide +kernel⟩,
    ⟨({ up with head := { up.head with dpll := .switching } }), by decide +kernel⟩,
    ⟨({ up with head := { up.head with dpll := .locked } }), by decide +kernel⟩,
    ⟨({ up with time := { up.time with wp := ⟨5, 0, 0⟩ } }), by decide +kernel⟩,
    ⟨(let u := { up with time := { up.time with wp := ⟨5, 0, 0⟩ } }; { u with head := { u.head with outB := { mode := 1 } } }), by decide +kernel⟩⟩

/-- What Obligations.TimingAndRealign asks of its states can be met, clause by clause. -/
theorem test_TimingAndRealign :
  (∃ (s : State), ∃ (c : Cmd), ∃ (h : Held), ReadyNow s c 0x703 h ∧ checkTiming s h c = none) ∧
  (∃ (s : State), ∃ (c : Cmd), ∃ (h : Held), ∃ (i : Instr), ((i = .realignJump c ∧ realignMode h.pkt = 0) ∨ (i = .realignSlew c ∧ realignMode h.pkt = 1)) ∧ ReadyNow s c 0x704 h ∧ checkRealign s h c = none ∧ s.time.slew = none) ∧
  (∃ (s : State), ∃ (c : Cmd), ∃ (h : Held), ∃ (w : Slew), ReadyNow s c 0x704 h ∧ realignMode h.pkt = 0 ∧ checkRealign s h c = none ∧ s.time.slew = some w) ∧
  (∃ (s : State), ∃ (c : Cmd), ∃ (h : Held), ∃ (w : Slew), ReadyNow s c 0x704 h ∧ realignMode h.pkt = 2 ∧ checkRealign s h c = none ∧ s.time.slew = some w) ∧
  (∃ (s : State), ∃ (w : Slew), s.time.slew = some w ∧ slewLeft s = 0 ∧ ((∀ k h, w.key = some k → findHeld s k = some h → h.slice = k.slice))) :=
  ⟨⟨(on up (hp 0x703 [fAt 16 0 16 1125, fAt 18 0 16 1, fAt 20 0 32 60])), c0, (hp 0x703 [fAt 16 0 16 1125, fAt 18 0 16 1, fAt 20 0 32 60]), by decide +kernel⟩,
    ⟨(on up (hp 0x704 [fAt 16 0 2 0, fAt 16 2 2 2, fAt 24 0 64 5000])), c0, (hp 0x704 [fAt 16 0 2 0, fAt 16 2 2 2, fAt 24 0 64 5000]), (.realignJump c0), by decide +kernel⟩,
    ⟨(let u := on up (hp 0x704 [fAt 16 0 2 0, fAt 16 2 2 2, fAt 24 0 64 5000]); { u with time := { u.time with slew := some ({ total := 9, rate := 3 }) } }), c0, (hp 0x704 [fAt 16 0 2 0, fAt 16 2 2 2, fAt 24 0 64 5000]), ({ total := 9, rate := 3 }), by decide +kernel⟩,
    ⟨(let u := on up (hp 0x704 [fAt 16 0 2 2]); { u with time := { u.time with slew := some ({ total := 900, rate := 3, start := ⟨5, 0, 0⟩ }) } }), c0, (hp 0x704 [fAt 16 0 2 2]), ({ total := 900, rate := 3, start := ⟨5, 0, 0⟩ }), by decide +kernel⟩,
    ⟨(let u := on up { hp 0x704 [fAt 16 0 2 1] with phase := .committed }; { u with time := { u.time with slew := some ({ total := 9, rate := 3, key := some {} }) } }), ({ total := 9, rate := 3, key := some {} }), by decide +kernel, by decide +kernel, by intro k h hk hf; cases hk; exact Option.some.inj ((congrArg (Option.map Held.slice) hf).symm.trans (by decide +kernel))⟩⟩

/-- What Obligations.RegisterAccess asks of its states can be met, clause by clause. -/
theorem test_RegisterAccess :
  (∃ (s : State), ∃ (v : Nat), regsOpen s = true ∧ v < 2 ^ 64) ∧
  (∃ (s : State), ∃ (off v old : Nat), regAt s off = some (8, old) ∧ off % 8 = 0 ∧ v < 2 ^ 32) ∧
  (∃ (s : State), ∃ (lo hi : Nat), regsOpen s = true ∧ tget none s.regs.writeLatch 0x230 = some lo ∧ hi < 2 ^ 32) ∧
  (∃ (size : Nat), size ≠ 4 ∧ size ≠ 8) ∧
  (∃ (s : State), ∃ (off v : Nat), regAt s off = some (8, v) ∧ ¬ (0x800 ≤ off ∧ off ≤ 0x8FF)) ∧
  (∃ (s : State), ∃ (off v w : Nat), regAt s off = some (8, w) ∧ regAt s (off + 4) = none ∧ off % 8 = 0 ∧ tget none s.regs.readLatch off = some v) ∧
  (∃ (s : State), ∃ (u : Nat), regsOpen s = true ∧ u < 8) ∧
  (∃ (v : Nat), v % 2 ^ 32 ≠ 0x52535451) ∧
  (∃ (s : State), ∃ (v : Nat), v % 2 ^ 32 = 0x52535451 ∧ s.power.inRange = true ∧ ((s.boot.state = .thermalTrip → hottest s.boot.sensors < 1000))) ∧
  (∃ (s : State), regsOpen s = true) ∧
  (∃ (s : State), regsOpen s = true ∧ 1 < s.regs.firq.length ∧ s.regs.headless = false ∧ s.regs.loopback = false ∧ tget false s.regs.unmasked 16 = true) ∧
  (∃ (s : State), regsOpen s = true) ∧
  (∃ (s : State), ∃ (v : Nat), v < 1088 ∧ tget false s.regs.msixPending v = true) ∧
  (∃ (s : State), ∃ (v : Nat), v < 1088 ∧ tget false s.regs.msixPending v = false) :=
  ⟨⟨up, 12345, by decide +kernel⟩,
    ⟨up, 0x230, 7, 0, by decide +kernel⟩,
    ⟨({ up with regs := { up.regs with writeLatch := [(0x230, some 9)] } }), 9, 8, by decide +kernel⟩,
    ⟨2, by decide +kernel⟩,
    ⟨({ up with regs := { up.regs with fwinBase := 0x500000001 } }), 0x230, 0x500000001, by decide +kernel⟩,
    ⟨({ up with regs := { up.regs with readLatch := [(0x230, some 9)] } }), 0x230, 9, 0, by decide +kernel⟩,
    ⟨up, 3, by decide +kernel⟩,
    ⟨5, by decide +kernel⟩,
    ⟨up, 0x52535451, by decide +kernel⟩,
    ⟨({ up with regs := { up.regs with firq := [{ src := 3, vector := 2 }] } }), by decide +kernel⟩,
    ⟨({ up with regs := { up.regs with firq := [{ src := 3, vector := 2 }, { src := 4, vector := 2 }], unmasked := [(16, true)] } }), by decide +kernel⟩,
    ⟨({ up with regs := { up.regs with fwinTimeout := true } }), by decide +kernel⟩,
    ⟨({ up with regs := { up.regs with msixPending := [(9, true)] } }), 9, by decide +kernel⟩,
    ⟨up, 9, by decide +kernel⟩⟩

/-- What Obligations.ApertureAndDebugAccess asks of its states can be met, clause by clause. -/
theorem test_ApertureAndDebugAccess :
  (∃ (s : State), ∃ (off a : Nat), ∃ (l : List Byte), regsOpen s = true ∧ off < 64 * 0x10000000 ∧ (tget {} s.regs.apertures (off / 0x10000000)).enable = true ∧ a = (tget {} s.regs.apertures (off / 0x10000000)).base / 65536 * 65536 + off % 0x10000000 ∧ inRegSpace a = false ∧ a / 256 = (a + l.length - 1) / 256 ∧ 0 < l.length ∧ weirDecide s (tget {} s.regs.apertures (off / 0x10000000)).slice engHost true a = none) ∧
  (∃ (s : State), ∃ (off a : Nat), ∃ (l : List Byte), regsOpen s = true ∧ off < 64 * 0x10000000 ∧ (tget {} s.regs.apertures (off / 0x10000000)).enable = true ∧ a = (tget {} s.regs.apertures (off / 0x10000000)).base / 65536 * 65536 + off % 0x10000000 ∧ inRegSpace a = false ∧ a / 256 = (a + l.length - 1) / 256 ∧ 0 < l.length ∧ weirDecide s (tget {} s.regs.apertures (off / 0x10000000)).slice engHost false a = none ∧ rangePoisoned s a l.length = false) ∧
  (∃ (s : State), ∃ (off a : Nat), regsOpen s = true ∧ off < 64 * 0x10000000 ∧ (tget {} s.regs.apertures (off / 0x10000000)).enable = false ∧ off % 256 + 4 ≤ 256 ∧ a = (tget {} s.regs.apertures (off / 0x10000000)).base / 65536 * 65536 + off % 0x10000000) ∧
  (∃ (s : State), ∃ (a : Nat), ∃ (l : List Byte), debugOn s = true ∧ inRegSpace a = false ∧ a / 256 = (a + l.length - 1) / 256 ∧ 0 < l.length ∧ debugDecide s true a = none) ∧
  (∃ (s : State), debugOn s = false) ∧
  (∃ (s : State), s.boot.lk = .running) :=
  ⟨⟨({ up with regs := { up.regs with apertures := [(2, { enable := true, slice := 0, base := 0x10000000 })] } }), 0x20001000, 0x10001000, ([1, 2, 3, 4]), by decide +kernel⟩,
    ⟨({ up with regs := { up.regs with apertures := [(2, { enable := true, slice := 0, base := 0x10000000 })] } }), 0x20001000, 0x10001000, ([1, 2, 3, 4]), by decide +kernel⟩,
    ⟨up, 0x20001000, 0x1000, by decide +kernel⟩,
    ⟨({ up with boot := { up.boot with dbgEn := true } }), 0x10001000, ([1, 2, 3, 4]), by decide +kernel⟩,
    ⟨({ up with boot := { up.boot with dbgKill := true } }), Bool.and_false _⟩,
    ⟨({ up with boot := { up.boot with dbgEn := true } }), by decide +kernel⟩⟩

/-- What Obligations.FabricWindow asks of its states can be met, clause by clause. -/
theorem test_FabricWindow :
  (∃ (s : State), regsOpen s = true ∧ s.regs.fwinEnable = true ∧ inRange s.regs.fwinTarget 1 4094 = true ∧ reachable s s.regs.fwinTarget = true) ∧
  (∃ (s : State), regsOpen s = true ∧ s.regs.fwinEnable = true ∧ inRange s.regs.fwinTarget 1 4094 = true ∧ reachable s s.regs.fwinTarget = true) ∧
  (∃ (s : State), regsOpen s = true ∧ s.regs.fwinEnable = false) ∧
  (∃ (s : State), ∃ (w : WinRead), ∃ (rest : List WinRead), s.regs.winReads = w :: rest ∧ passed s w.at_ 50000 = true) ∧
  (∃ (s u : State), ∃ (port : Nat), ∃ (pkt : List (List Bool)), ∃ (q : Pkt), ∃ (w : WinRead), takeMgmt s port 9 pkt = (u, some q) ∧ u.regs.winReads.find? (fun w => w.seq == leAt q.payload 0 4 && w.target == q.src) = some w) ∧
  (∃ (s u : State), ∃ (port : Nat), ∃ (pkt : List (List Bool)), ∃ (q : Pkt), ∃ (a : Nat), takeMgmt s port 7 pkt = (u, some q) ∧ a = leAt q.payload 0 8 ∧ inRegSpace a = false ∧ a / 256 = (a + (q.payload.length - 8) - 1) / 256 ∧ 8 < q.payload.length ∧ weirDecide u 0 engFabric true a = none) ∧
  (∃ (s u : State), ∃ (port : Nat), ∃ (pkt : List (List Bool)), ∃ (q : Pkt), ∃ (a n : Nat), takeMgmt s port 8 pkt = (u, some q) ∧ a = leAt q.payload 0 8 ∧ n = leAt q.payload 8 4 ∧ inRegSpace a = false ∧ a / 256 = (a + n - 1) / 256 ∧ 0 < n ∧ weirDecide u 0 engFabric false a = none ∧ rangePoisoned u a n = false) ∧
  (∃ (s u : State), ∃ (port : Nat), ∃ (pkt : List (List Bool)), ∃ (q : Pkt), ∃ (f : Firq), takeMgmt s port 10 pkt = (u, some q) ∧ f = { src := q.src, vector := byteAt q.payload 0 % 64 } ∧ f ∉ u.regs.firq ∧ u.regs.firq.length < 64) ∧
  (∃ (s u : State), ∃ (port : Nat), ∃ (pkt : List (List Bool)), ∃ (q : Pkt), ∃ (f : Firq), takeMgmt s port 10 pkt = (u, some q) ∧ f = { src := q.src, vector := byteAt q.payload 0 % 64 } ∧ f ∈ u.regs.firq) ∧
  (∃ (s u : State), ∃ (port : Nat), ∃ (pkt : List (List Bool)), ∃ (q : Pkt), ∃ (f : Firq), takeMgmt s port 10 pkt = (u, some q) ∧ f = { src := q.src, vector := byteAt q.payload 0 % 64 } ∧ f ∉ u.regs.firq ∧ 64 ≤ u.regs.firq.length) ∧
  (∃ (s u : State), ∃ (port kind : Nat), ∃ (bits : List (List Bool)), ∃ (l : List Byte), ∃ (q : Pkt), port < 4 ∧ (getTod s port).state = .forwarding ∧ takeLanes s port bits = (u, some l) ∧ parsePkt l = some q ∧ q.kind = kind ∧ q.vc = 1 ∧ q.dest ≠ 4095 ∧ routeOf u q.dest = some 15) :=
  ⟨⟨({ fab with regs := { fab.regs with fwinEnable := true, fwinTarget := 9, fwinBase := 0x8000000000 } }), by decide +kernel⟩,
    ⟨({ fab with regs := { fab.regs with fwinEnable := true, fwinTarget := 9, fwinBase := 0x8000000000 } }), by decide +kernel⟩,
    ⟨up, by decide +kernel⟩,
    ⟨({ up with regs := { up.regs with winReads := [({ target := 9, addr := 0, size := 8, seq := 3 })] } }), ({ target := 9, addr := 0, size := 8, seq := 3 }), ([]), by decide +kernel⟩,
    ⟨(atLanes ({ fab with regs := { fab.regs with winReads := [({ target := 9, addr := 0, size := 8, seq := 3 })] } }) 0 { dest := 5, src := 9, vc := 1, kind := 9, payload := [3, 0, 0, 0, 1, 2, 3, 4, 5, 6, 7, 8] }), _, 0, ([]), _, ({ target := 9, addr := 0, size := 8, seq := 3 }), pair_some (d := {}) (by decide +kernel), by decide +kernel⟩,
    ⟨(atLanes (fab) 0 { dest := 5, src := 9, vc := 1, kind := 7, payload := bytesLE 8 0x10001000 ++ [1, 2, 3, 4] }), _, 0, ([]), _, 0x10001000, pair_some (d := {}) (by decide +kernel), by decide +kernel⟩,
    ⟨(atLanes (fab) 0 { dest := 5, src := 9, vc := 1, kind := 8, payload := bytesLE 8 0x10001000 ++ bytesLE 4 8 ++ bytesLE 4 3 }), _, 0, ([]), _, 0x10001000, 8, pair_some (d := {}) (by decide +kernel), by decide +kernel⟩,
    ⟨(atLanes (fab) 0 { dest := 5, src := 9, vc := 1, kind := 10, payload := [2] }), _, 0, ([]), _, _, pair_some (d := {}) (by decide +kernel), rfl, by decide +kernel⟩,
    ⟨(atLanes { fab with regs := { fab.regs with firq := [{ src := 9, vector := 2 }] } } 0 { dest := 5, src := 9, vc := 1, kind := 10, payload := [2] }), _, 0, ([]), _, _, pair_some (d := {}) (by decide +kernel), rfl, by decide +kernel⟩,
    ⟨(atLanes { fab with regs := { fab.regs with firq := List.replicate 64 { src := 9, vector := 3 } } } 0 { dest := 5, src := 9, vc := 1, kind := 10, payload := [2] }), _, 0, ([]), _, _, pair_some (d := {}) (by decide +kernel), rfl, by decide +kernel⟩,
    ⟨fab, _, 0, 7, (wire ({ dest := 5, src := 9, vc := 1, kind := 7, payload := [1, 2, 3] })), (pktBytes ({ dest := 5, src := 9, vc := 1, kind := 7, payload := [1, 2, 3] })), ({ dest := 5, src := 9, vc := 1, kind := 7, payload := [1, 2, 3] }), by decide +kernel, by decide +kernel, pair_of (by decide +kernel), by decide +kernel⟩⟩

/-- What Obligations.HostLink asks of its states can be met, clause by clause. -/
theorem test_HostLink :
  (∃ (s : State), s.boot.state = .ready ∧ s.regs.reachedL0 = false ∧ passed s s.boot.readyAt 1000000000 = true) ∧
  (∃ (s : State), s.regs.reachedL0 = true) ∧
  (∃ (s u : State), ∃ (port : Nat), ∃ (pkt : List (List Bool)), ∃ (q : Pkt), takeMgmt s port 7 pkt = (u, some q) ∧ leAt q.payload 0 8 = claimAddr ∧ weirDenied u 0 engFabric true claimAddr (q.payload.length - 8) = none ∧ u.regs.headless = true ∧ u.regs.claim = none) ∧
  (∃ (s u : State), ∃ (port : Nat), ∃ (pkt : List (List Bool)), ∃ (q : Pkt), takeMgmt s port 7 pkt = (u, some q) ∧ leAt q.payload 0 8 = claimAddr ∧ weirDenied u 0 engFabric true claimAddr (q.payload.length - 8) = none ∧ u.regs.claim ≠ none) ∧
  (∃ (s : State), ∃ (a n : Nat), s.regs.claim = some a ∧ s.regs.lostAt = some n ∧ passed s n 1000000000 = true) ∧
  (∃ (s : State), s.regs.lostAt = none) ∧
  (∃ (s : State), s.power.inRange = true ∧ s.regs.perst = true ∧ s.regs.linkUp = false) ∧
  (∃ (s : State), s.regs.linkUp = true) ∧
  (∃ (s : State), s.regs.loopback = true) :=
  ⟨⟨({ up with regs := { up.regs with linkUp := false } }), by decide +kernel⟩,
    ⟨({ up with regs := { up.regs with reachedL0 := true } }), by decide +kernel⟩,
    ⟨(atLanes ({ fab with regs := { fab.regs with linkUp := false, headless := true } }) 0 { dest := 5, src := 9, vc := 1, kind := 7, payload := bytesLE 8 claimAddr ++ [1, 2, 3, 4] }), _, 0, ([]), _, pair_some (d := {}) (by decide +kernel), by decide +kernel⟩,
    ⟨(atLanes { fab with regs := { fab.regs with linkUp := false, headless := true, claim := some 4 } } 0 { dest := 5, src := 9, vc := 1, kind := 7, payload := bytesLE 8 claimAddr ++ [1, 2, 3, 4] }), _, 0, ([]), _, pair_some (d := {}) (by decide +kernel), by decide +kernel⟩,
    ⟨({ fab with regs := { fab.regs with linkUp := false, headless := true, claim := some 4, lostAt := some 0 } }), 4, 0, by decide +kernel⟩,
    ⟨({ fab with regs := { fab.regs with linkUp := false, headless := true, claim := some 9 } }), by decide +kernel⟩,
    ⟨({ up with regs := { up.regs with linkUp := false, headless := true } }), by decide +kernel⟩,
    ⟨up, by decide +kernel⟩,
    ⟨({ up with regs := { up.regs with loopback := true } }), by decide +kernel⟩⟩

/-- What Obligations.SideBand asks of its states can be met, clause by clause. -/
theorem test_SideBand :
  (∃ (s : State), s.power.inRange = true) ∧
  (∃ (s : State), ∃ (temps : List Int), s.power.inRange = true ∧ temps.length = 8) ∧
  (∃ (s : State), s.power.inRange = true) ∧
  (∃ (s : State), ∃ (i : Nat), ∃ (f : FaultRec), s.power.inRange = true ∧ i < 64 ∧ s.boot.faults[i]? = some f) ∧
  (∃ (s : State), ∃ (i : Nat), s.power.inRange = true ∧ i < 64 ∧ s.boot.faults.length ≤ i) ∧
  (∃ (s : State), ∃ (f : FaultRec), s.power.inRange = true ∧ s.boot.faults.find? (fun f => f.seq == s.smb.latchedSeq) = some f) ∧
  (∃ (s : State), s.power.inRange = true ∧ s.smb.latchedSeq = s.boot.nextSeq ∧ s.boot.faults.find? (fun f => f.seq == s.smb.latchedSeq) = none) ∧
  (∃ (v : Nat), v ≠ 0xA5) ∧
  (∃ (s : State), s.power.inRange = true ∧ s.smb.alert = true) ∧
  (∃ (s : State), s.smb.alert = false) :=
  ⟨⟨up, by decide +kernel⟩,
    ⟨up, ([300, 310, 320, 330, 340, 350, 360, -20]), by decide +kernel⟩,
    ⟨up, by decide +kernel⟩,
    ⟨({ up with boot := { up.boot with faults := [({ kind := 1, seq := 1 })], nextSeq := 2 } }), 0, ({ kind := 1, seq := 1 }), by decide +kernel⟩,
    ⟨up, 0, by decide +kernel⟩,
    ⟨({ up with boot := { up.boot with faults := [({ kind := 1, seq := 1 })], nextSeq := 2 }, smb := { up.smb with latchedSeq := 1 } }), ({ kind := 1, seq := 1 }), by decide +kernel⟩,
    ⟨({ up with boot := { up.boot with faults := [{ kind := 1, seq := 1 }], nextSeq := 2 }, smb := { up.smb with latchedSeq := 2 } }), by decide +kernel⟩,
    ⟨1, by decide +kernel⟩,
    ⟨({ up with smb := { up.smb with alert := true } }), by decide +kernel⟩,
    ⟨up, by decide +kernel⟩⟩

/-- What Obligations.StartUp asks of its states can be met, clause by clause. -/
theorem test_StartUp :
  (∃ (s : State), s.power.inRange = false) ∧
  (∃ (s : State), s.power.inRange = true ∧ s.regs.rst = false ∧ s.boot.state ≠ .thermalTrip ∧ s.time.running = false) ∧
  (∃ (s : State), s.power.inRange = true ∧ s.regs.rst = false ∧ s.boot.state = .bootRom ∧ s.time.running = true ∧ s.boot.bankA.state = .active ∧ s.boot.bankB.state ≠ .trial) ∧
  (∃ (s : State), s.power.inRange = true ∧ s.regs.rst = false ∧ s.boot.state = .bootRom ∧ s.time.running = true ∧ s.boot.bankA.state = .active ∧ s.boot.bankB.state = .trial) ∧
  (∃ (s : State), ∃ (f : Nat), s.power.inRange = true ∧ s.regs.rst = false ∧ s.boot.state = .bootRom ∧ s.time.running = true ∧ s.boot.lk = .halted ∧ s.boot.bankA.state = .active ∧ s.boot.bankB.state = .invalid ∧ f ≠ 0) ∧
  (∃ (s : State), s.boot.state = .storeTraining) ∧
  (∃ (s : State), s.boot.state = .storeTraining ∧ s.power.inRange = true) ∧
  (∃ (s : State), s.boot.state = .fwInit ∧ s.boot.filled = false ∧ s.boot.display = []) ∧
  (∃ (s : State), s.boot.state = .fwInit ∧ s.boot.filled = true ∧ s.boot.trialRunning = false ∧ (∀ b, (getFw s b).state ≠ .staging ∧ (getFw s b).state ≠ .verified)) ∧
  (∃ (s : State), s.boot.state = .fwInit ∧ s.boot.filled = true ∧ s.boot.trialRunning = true ∧ s.boot.running = true ∧ s.boot.bankB.state = .trial ∧ s.boot.bankA.state = .active) :=
  ⟨⟨State.reset, by decide +kernel⟩,
    ⟨({ State.reset with power := { State.reset.power with inRange := true } }), by decide +kernel⟩,
    ⟨boot0, by decide +kernel⟩,
    ⟨({ boot0 with boot := { boot0.boot with bankB := { state := .trial } } }), by decide +kernel⟩,
    ⟨boot0, 1, by decide +kernel⟩,
    ⟨({ boot0 with boot := { boot0.boot with state := .storeTraining } }), by decide +kernel⟩,
    ⟨({ boot0 with boot := { boot0.boot with state := .storeTraining } }), by decide +kernel⟩,
    ⟨({ boot0 with boot := { boot0.boot with state := .fwInit } }), by decide +kernel⟩,
    ⟨({ boot0 with boot := { boot0.boot with state := .fwInit, filled := true } }), by decide +kernel⟩,
    ⟨({ boot0 with boot := { boot0.boot with state := .fwInit, filled := true, trialRunning := true, running := true, bankB := { state := .trial } } }), by decide +kernel⟩⟩

/-- What Obligations.Resets asks of its states can be met, clause by clause. -/
theorem test_Resets :
  (∃ (s : State), s.power.inRange = true ∧ s.regs.rst = false ∧ s.boot.state ≠ .thermalTrip) ∧
  (∃ (s : State), s.power.inRange = true ∧ s.regs.perst = true ∧ s.boot.state ≠ .thermalTrip) ∧
  (∃ (s : State), s.power.inRange = true ∧ s.regs.linkUp = true ∧ s.boot.state ≠ .thermalTrip) ∧
  (∃ (s : State), s.boot.resetDelay = true ∧ passed s s.boot.resetAt 10000000 = true) ∧
  (∃ (s : State), s.power.inRange = true ∧ s.boot.state ≠ .thermalTrip) ∧
  (∃ (s : State), s.power.inRange = true ∧ s.boot.state = .thermalTrip ∧ 1000 ≤ hottest s.boot.sensors ∧ s.boot.heldReset = none) ∧
  (∃ (s : State), ∃ (temps : List Int), ∃ (cause : Nat), s.boot.state = .thermalTrip ∧ s.boot.heldReset = some cause ∧ temps.length = 8 ∧ hottest temps < 1000) ∧
  (∃ (s : State), s.power.inRange = true) :=
  ⟨⟨up, by decide +kernel⟩,
    ⟨up, by decide +kernel⟩,
    ⟨up, by decide +kernel⟩,
    ⟨({ up with boot := { up.boot with resetDelay := true } }), by decide +kernel⟩,
    ⟨up, by decide +kernel⟩,
    ⟨({ up with boot := { up.boot with state := .thermalTrip, sensors := List.replicate 8 1010 } }), by decide +kernel⟩,
    ⟨({ up with boot := { up.boot with state := .thermalTrip, heldReset := some 6, sensors := List.replicate 8 1010 } }), (List.replicate 8 990), 6, by decide +kernel⟩,
    ⟨up, by decide +kernel⟩⟩

/-- What Obligations.LockkeeperAndHeat asks of its states can be met, clause by clause. -/
theorem test_LockkeeperAndHeat :
  (∃ (s : State), s.boot.lk = .running ∧ (s.boot.dogTimes.filter fun x => decide (uptimeMs s < x + 60000)).length < 2) ∧
  (∃ (s : State), s.boot.lk = .running ∧ s.power.inRange = true ∧ s.boot.state ≠ .deviceFault ∧ s.boot.state ≠ .thermalTrip ∧ 2 ≤ (s.boot.dogTimes.filter fun x => decide (uptimeMs s < x + 60000)).length) ∧
  (∃ (s : State), s.boot.lk = .restarting ∧ s.boot.state = .ready ∧ s.boot.trialRunning = false ∧ (∀ b, (getFw s b).state ≠ .staging ∧ (getFw s b).state ≠ .verified)) ∧
  (∃ (s : State), ∃ (f : Nat), s.boot.lk = .restarting ∧ f ≠ 0 ∧ s.boot.running = false ∧ s.boot.bankA.state ≠ .invalid ∧ s.boot.bankB.state = .previous) ∧
  (∃ (s : State), s.boot.restartDelay = true ∧ s.boot.lk = .running ∧ s.boot.bankA.state ≠ .trial ∧ s.boot.bankB.state = .trial ∧ passed s s.boot.restartAt 10000000 = true) ∧
  (∃ (s : State), s.boot.trialRunning = true ∧ s.boot.running = true ∧ s.boot.bankB.state = .trial ∧ s.boot.bankA.state = .previous ∧ s.boot.lk = .restarting ∧ passed s s.boot.trialAt 2000000000 = true) ∧
  (∃ (s : State), s.power.inRange = true ∧ s.boot.state ≠ .deviceFault ∧ s.boot.state ≠ .thermalTrip) ∧
  (∃ (s : State), s.power.inRange = true ∧ s.boot.lk ≠ .halted ∧ s.boot.state ≠ .deviceFault ∧ s.boot.state ≠ .thermalTrip) ∧
  (∃ (s : State), ∃ (temps : List Int), s.power.inRange = true ∧ temps.length = 8 ∧ s.boot.warning = false ∧ 950 ≤ hottest temps) ∧
  (∃ (s : State), ∃ (temps : List Int), s.power.inRange = true ∧ temps.length = 8 ∧ s.boot.warning = true ∧ hottest temps < 900) ∧
  (∃ (s : State), ∃ (temps : List Int), s.power.inRange = true ∧ temps.length = 8 ∧ 1150 ≤ hottest temps ∧ s.boot.state ≠ .thermalTrip) :=
  ⟨⟨(on up { hp 0x103 [] with phase := .deferred }), by decide +kernel⟩,
    ⟨({ up with boot := { up.boot with dogTimes := [90000, 90000] } }), by decide +kernel⟩,
    ⟨({ up with boot := { up.boot with lk := .restarting } }), by decide +kernel⟩,
    ⟨({ up with boot := { up.boot with lk := .restarting, bankB := { state := .previous } } }), 2, by decide +kernel⟩,
    ⟨({ up with boot := { up.boot with restartDelay := true, bankB := { state := .trial } } }), by decide +kernel⟩,
    ⟨({ up with boot := { up.boot with lk := .restarting, trialRunning := true, running := true, bankA := { state := .previous }, bankB := { state := .trial } } }), by decide +kernel⟩,
    ⟨up, by decide +kernel⟩,
    ⟨up, by decide +kernel⟩,
    ⟨up, (List.replicate 8 950), by decide +kernel⟩,
    ⟨({ up with boot := { up.boot with warning := true } }), (List.replicate 8 899), by decide +kernel⟩,
    ⟨up, (List.replicate 8 1150), by decide +kernel⟩⟩

/-- What Obligations.FirmwareUpdate asks of its states can be met, clause by clause. -/
theorem test_FirmwareUpdate :
  (∃ (s : State), ∃ (c : Cmd), ∃ (h : Held), ∃ (b : Bool), ∃ (f : FwBank → FwBank), ReadyNow s c 0xF01 h ∧ checkFwStage s h c = none ∧ b = stagingBank s ∧ pb h.pkt 16 0 = false ∧ pb h.pkt 16 1 = false ∧ c.ok = true ∧ c.data.length = pf h.pkt 24 0 32 ∧ c.obs.getD 0 0 = 0 ∧ f = (fun x => { x with state := .staging, chunks := tset [] x.chunks (pf h.pkt 20 0 32 / 65536) c.data })) ∧
  (∃ (s : State), ∃ (c : Cmd), ∃ (h : Held), ReadyNow s c 0xF01 h ∧ checkFwStage s h c = none ∧ pb h.pkt 16 0 = true ∧ pb h.pkt 16 1 = false ∧ c.ok = true ∧ c.data.length = pf h.pkt 24 0 32 ∧ c.obs.getD 0 0 = 0) ∧
  (∃ (s : State), ∃ (c : Cmd), ∃ (h : Held), ReadyNow s c 0xF01 h ∧ reservedZero h.pkt [(16, 0, 2), (20, 0, 32), (24, 0, 32), (32, 0, 64)] = true ∧ pf h.pkt 32 0 64 % 64 = 0 ∧ 0 < pf h.pkt 24 0 32 ∧ pf h.pkt 24 0 32 ≤ 65536 ∧ pf h.pkt 20 0 32 % 65536 = 0 ∧ pb h.pkt 16 0 = false ∧ pf h.pkt 20 0 32 + pf h.pkt 24 0 32 ≤ 25165824 ∧ s.boot.bankA.state = .trial) ∧
  (∃ (s : State), ∃ (c : Cmd), ∃ (h : Held), ReadyNow s c 0xF02 h ∧ reservedZero h.pkt [] = true ∧ s.boot.verify = none ∧ (∃ b, (getFw s b).state = .staging)) ∧
  (∃ (s : State), ∃ (k : CmdKey), ∃ (h : Held), ∃ (b : Bool), ∃ (g : FwImage), s.boot.verify = some k ∧ findHeld s k = some h ∧ h.slice = k.slice ∧ bankIn s .staging = some b ∧ verifyReason s (tget [] (getFw s b).chunks 0) 0 = 0 ∧ g = headerOf (tget [] (getFw s b).chunks 0)) ∧
  (∃ (s : State), ∃ (k : CmdKey), ∃ (h : Held), ∃ (b : Bool), ∃ (r : Nat), ∃ (g : FwImage), s.boot.verify = some k ∧ findHeld s k = some h ∧ h.slice = k.slice ∧ bankIn s .staging = some b ∧ verifyReason s (tget [] (getFw s b).chunks 0) r ≠ 0 ∧ g = headerOf (tget [] (getFw s b).chunks 0)) ∧
  (∃ (s : State), ∃ (c : Cmd), ∃ (h : Held), ∃ (b : Bool), ReadyNow s c 0xF03 h ∧ checkFwActivate s h c = none ∧ pb h.pkt 16 1 = false ∧ pb h.pkt 16 2 = false ∧ bankIn s .verified = some b) ∧
  (∃ (s : State), ∃ (c : Cmd), ∃ (h : Held), ∃ (b : Bool), ∃ (n : Nat), ReadyNow s c 0xF03 h ∧ checkFwActivate s h c = none ∧ pb h.pkt 16 2 = true ∧ bankIn s .active = some b ∧ n = max s.boot.minSvn (getFw s b).image.svn) :=
  ⟨⟨(on up (hp 0xF01 [fAt 20 0 32 65536, fAt 24 0 32 4])), ({ data := [1, 2, 3, 4] }), (hp 0xF01 [fAt 20 0 32 65536, fAt 24 0 32 4]), true, _, also (by decide +kernel) ⟨by decide +kernel, by decide +kernel, by decide +kernel, by decide +kernel, rfl⟩⟩,
    ⟨(on up (hp 0xF01 [fAt 16 0 1 1, fAt 24 0 32 4])), ({ data := [1, 2, 3, 4] }), (hp 0xF01 [fAt 16 0 1 1, fAt 24 0 32 4]), by decide +kernel⟩,
    ⟨(on { up with boot := { up.boot with bankA := { state := .trial } } } (hp 0xF01 [fAt 24 0 32 4])), c0, (hp 0xF01 [fAt 24 0 32 4]), by decide +kernel⟩,
    ⟨(on { up with boot := { up.boot with bankB := { state := .staging } } } (hp 0xF02 [])), c0, (hp 0xF02 []), by decide +kernel⟩,
    ⟨(on { up with boot := { up.boot with verify := some ({}), bankB := { state := .staging, chunks := [(0, bytesLE 4 0x57464B4C ++ [1, 2, 3, 0, 4, 0, 0, 0] ++ bytesLE 4 1000 ++ [0])] } } } ({ hp 0xF02 [] with phase := .deferred })), ({}), ({ hp 0xF02 [] with phase := .deferred }), true, _, by decide +kernel, by decide +kernel, by decide +kernel, by decide +kernel, by decide +kernel, rfl⟩,
    ⟨(on { up with boot := { up.boot with verify := some ({}), bankB := { state := .staging, chunks := [(0, bytesLE 4 0x57464B4C ++ [1, 2, 3, 0, 4, 0, 0, 0] ++ bytesLE 4 1000 ++ [0])] } } } ({ hp 0xF02 [] with phase := .deferred })), ({}), ({ hp 0xF02 [] with phase := .deferred }), true, 2, _, by decide +kernel, by decide +kernel, by decide +kernel, by decide +kernel, by decide +kernel, rfl⟩,
    ⟨(on { up with boot := { up.boot with bankB := { state := .verified } } } (hp 0xF03 [])), c0, (hp 0xF03 []), true, by decide +kernel⟩,
    ⟨(on { up with boot := { up.boot with bankA := { state := .active, image := { svn := 4 } } } } (hp 0xF03 [fAt 16 2 1 1])), c0, (hp 0xF03 [fAt 16 2 1 1]), false, 4, by decide +kernel⟩⟩

/-- What Obligations.RecoveryAndReports asks of its states can be met, clause by clause. -/
theorem test_RecoveryAndReports :
  (∃ (s : State), ∃ (c : Cmd), ∃ (h : Held), ReadyNow s c 0xF04 h ∧ checkDeviceReset s h c = none) ∧
  (∃ (s : State), ∃ (c : Cmd), ∃ (h : Held), ReadyNow s c 0xF04 h ∧ pf h.pkt 16 0 32 ≠ 0x44455652) ∧
  (∃ (s : State), ∃ (c : Cmd), ∃ (h : Held), ∃ (i n : Nat), ReadyNow s c 0xF05 h ∧ checkReinit s h c = none ∧ pf h.pkt 16 0 8 = 1 ∧ i = pf h.pkt 17 0 3 ∧ n = pf h.pkt 18 0 16) ∧
  (∃ (s : State), ∃ (c : Cmd), ∃ (h : Held), ∃ (i : Nat), ∃ (r : Reinit), ReadyNow s c 0xF05 h ∧ checkReinit s h c = none ∧ pf h.pkt 16 0 8 = 2 ∧ i = pf h.pkt 17 0 3 ∧ (tget {} s.sluice.lanes i).job = none ∧ r = { unit := 2, index := i, key := Cmd.key c, at_ := upTime s }) ∧
  (∃ (s : State), ∃ (i : Nat), ∃ (r : Reinit), ∃ (h : Held), s.boot.reinits.find? (fun r => r.unit == 2 && r.index == i) = some r ∧ findHeld s r.key = some h ∧ h.slice = r.key.slice ∧ passed s r.at_ 1000000 = true) ∧
  (∃ (s : State), ∃ (i : Nat), ∃ (r : Reinit), ∃ (h : Held), s.boot.reinits.find? (fun r => r.unit == 2 && r.index == i) = some r ∧ findHeld s r.key = some h ∧ h.slice = r.key.slice ∧ passed s r.at_ 1000000 = true) ∧
  (∃ (s u : State), ∃ (c : Cmd), ∃ (h : Held), ReadyNow s c 0xA04 h ∧ checkFaultRead s h c = none ∧ destWrite s h.slice engLock (destSpace s) c.ok (pf h.pkt 24 0 64) (s.boot.faults.flatMap fun f => bytesLE 32 (faultBits f)) = (u, true)) ∧
  (∃ (s : State), ∃ (c : Cmd), ∃ (h : Held), ∃ (left : List FaultRec), ReadyNow s c 0xA05 h ∧ reservedZero h.pkt [(16, 0, 32)] = true ∧ left = s.boot.faults.filter (fun f => decide (pf h.pkt 16 0 32 < f.seq))) ∧
  (∃ (s u : State), ∃ (c : Cmd), ∃ (h : Held), ∃ (l : List Byte), ReadyNow s c 0xA03 h ∧ checkCounters s h c = none ∧ pf h.pkt 16 0 8 ≠ 1 ∧ l = counterBytes s (pf h.pkt 16 0 8) (pf h.pkt 17 0 7) ∧ destWrite s h.slice engLock (destSpace s) c.ok (pf h.pkt 24 0 64) l = (u, true)) ∧
  (∃ (s : State), ∃ (c : Cmd), ∃ (h : Held), ReadyNow s c 0xF06 h ∧ checkStatusDest s h c = none ∧ pf h.pkt 24 0 64 = 0) ∧
  (∃ (s u : State), ∃ (c : Cmd), ∃ (h : Held), ReadyNow s c 0xF06 h ∧ checkStatusDest s h c = none ∧ pf h.pkt 24 0 64 ≠ 0 ∧ destWrite s h.slice engLock (destSpace s) c.ok (pf h.pkt 24 0 64) (identityRecord s) = (u, true)) :=
  ⟨⟨(on up (hp 0xF04 [fAt 16 0 32 0x44455652])), c0, (hp 0xF04 [fAt 16 0 32 0x44455652]), by decide +kernel⟩,
    ⟨(on up (hp 0xF04 [fAt 16 0 32 0x44455653])), c0, (hp 0xF04 [fAt 16 0 32 0x44455653]), by decide +kernel⟩,
    ⟨(on (modBank up 1 fun x => { x with state := .failed }) (hp 0xF05 [fAt 16 0 8 1, fAt 17 0 3 1])), c0, (hp 0xF05 [fAt 16 0 8 1, fAt 17 0 3 1]), 1, 0, by decide +kernel⟩,
    ⟨(on up (hp 0xF05 [fAt 16 0 8 2, fAt 17 0 3 1])), c0, (hp 0xF05 [fAt 16 0 8 2, fAt 17 0 3 1]), 1, _, by decide +kernel, by decide +kernel, by decide +kernel, by decide +kernel, by decide +kernel, rfl⟩,
    ⟨(on { up with boot := { up.boot with reinits := [({ unit := 2, index := 1, key := {} })] }, sluice := { up.sluice with lanes := [(1, { inService := false })] } } ({ hp 0xF05 [fAt 16 0 8 2, fAt 17 0 3 1] with phase := .deferred })), 1, ({ unit := 2, index := 1, key := {} }), ({ hp 0xF05 [fAt 16 0 8 2, fAt 17 0 3 1] with phase := .deferred }), by decide +kernel⟩,
    ⟨(on { up with boot := { up.boot with reinits := [({ unit := 2, index := 1, key := {} })] }, sluice := { up.sluice with lanes := [(1, { inService := false })] } } ({ hp 0xF05 [fAt 16 0 8 2, fAt 17 0 3 1] with phase := .deferred })), 1, ({ unit := 2, index := 1, key := {} }), ({ hp 0xF05 [fAt 16 0 8 2, fAt 17 0 3 1] with phase := .deferred }), by decide +kernel⟩,
    ⟨(on { up with boot := { up.boot with faults := [{ kind := 1, seq := 1 }], nextSeq := 2 } } (hp 0xA04 [fAt 24 0 64 4096])), _, c0, (hp 0xA04 [fAt 24 0 64 4096]), by decide +kernel, by decide +kernel, pair_of (by decide +kernel)⟩,
    ⟨(on { up with boot := { up.boot with faults := [{ kind := 1, seq := 1 }, { kind := 2, seq := 2 }], nextSeq := 3 } } (hp 0xA05 [fAt 16 0 32 1])), c0, (hp 0xA05 [fAt 16 0 32 1]), _, by decide +kernel, by decide +kernel, rfl⟩,
    ⟨(on (bump up 3 0 1 5) (hp 0xA03 [fAt 16 0 8 3, fAt 24 0 64 4096])), _, c0, (hp 0xA03 [fAt 16 0 8 3, fAt 24 0 64 4096]), _, by decide +kernel, by decide +kernel, by decide +kernel, rfl, pair_of (by decide +kernel)⟩,
    ⟨(on up (hp 0xF06 [])), c0, (hp 0xF06 []), by decide +kernel⟩,
    ⟨(on up (hp 0xF06 [fAt 24 0 64 4096])), _, c0, (hp 0xF06 [fAt 24 0 64 4096]), by decide +kernel, by decide +kernel, by decide +kernel, pair_of (by decide +kernel)⟩⟩

/-- What Obligations.NetworkTime asks of its states can be met, clause by clause. -/
theorem test_NetworkTime :
  (∃ (s : State), ∃ (c : Cmd), ∃ (h : Held), ∃ (n : Nat), ∃ (o y : PtpPort), ReadyNow s c 0x705 h ∧ pf h.pkt 16 0 2 ≠ 1 ∧ checkPtpPort s h c = none ∧ n = pf h.pkt 17 0 1 ∧ o = getPtp s n ∧ pf h.pkt 17 1 2 = 1 ∧ o.engine ≠ 1 ∧ pb h.pkt 17 3 = false ∧ (
      y = { ptpOfPkt o h.pkt with
      master := none
      foreign := []
      sync := none
      t21 := none
      req := none
      resp := none
      pathDelay := none
      servo := .listening
      below := 0
      above := 0
      settled := if o.servo = .listening then o.settled else false })) ∧
  (∃ (s : State), ∃ (c : Cmd), ∃ (h : Held), ∃ (n : Nat), ∃ (v : Int), ReadyNow s c 0x707 h ∧ checkTimeStep s h c = none ∧ pb h.pkt 16 2 = false ∧ n = pf h.pkt 16 0 1 ∧ v = stepTarget s h.pkt) ∧
  (∃ (s : State), ∃ (c : Cmd), ∃ (h : Held), ∃ (n : Nat), ∃ (v : Int), ReadyNow s c 0x707 h ∧ checkTimeStep s h c = none ∧ pb h.pkt 16 2 = true ∧ n = pf h.pkt 16 0 1 ∧ v = stepTarget s h.pkt ∧ (getPtp s n).engine = 1) ∧
  (∃ (s : State), ∃ (c : Cmd), ∃ (h : Held), ∃ (n hold : Nat), ∃ (r : Int), ReadyNow s c 0x708 h ∧ checkTimeRate s h c = none ∧ pb h.pkt 16 1 = true ∧ n = pf h.pkt 16 0 1 ∧ r = toSigned 64 (pf h.pkt 20 0 64) ∧ hold = pf h.pkt 28 0 16) ∧
  (∃ (s : State), ∃ (c : Cmd), ∃ (h : Held), ReadyNow s c 0x708 h ∧ checkTimeRate s h c = some (failWith .notReady)) ∧
  (∃ (s u : State), ∃ (n : Nat), ∃ (x : PtpPort), ∃ (m f : List Byte), n < 2 ∧ x = getPtp s n ∧ x.engine = 1 ∧ s.boot.lk = .running ∧ ((x.p2p = true ∨ x.master ≠ none)) ∧ m = (if x.p2p then makeMsg s n 2 54 x.reqSeq 0x7F (List.replicate 20 0) else makeMsg s n 1 44 x.reqSeq 0x7F (List.replicate 10 0)) ∧ ptpFrame s n x.p2p m = (u, f)) ∧
  (∃ (s : State), ∃ (n : Nat), n < 2 ∧ (getPtp s n).engine = 1 ∧ (getPtp s n).servo = .locked ∧ passed s (getPtp s n).syncAt (4 * messageNs (getPtp s n).syncLog) = true) ∧
  (∃ (s : State), ∃ (n m : Nat), n < 2 ∧ (getPtp s n).engine = 1 ∧ (getPtp s n).servo = .locked ∧ (getPtp s n).master = some m ∧ passed s (getPtp s n).annAt (2 * messageNs (getPtp s n).annLog) = true) ∧
  (∃ (s : State), ∃ (n : Nat), n < 2 ∧ (getPtp s n).engine = 2 ∧ (getPtp s n).servo = .locked ∧ passed s (getPtp s n).lockAt ((getPtp s n).lockHoldMs * 1000000) = true) ∧
  (∃ (s : State), ∃ (i : Nat), ∃ (rising : Bool), ∃ (x : EvtIn), i < 8 ∧ x = getEvt s i ∧ x.enable = true ∧ x.edge = (if rising then 1 else 0)) ∧
  (∃ (s : State), ∃ (i : Nat), ∃ (x : EvtIn), ∃ (w : Nat), i < 8 ∧ x = getEvt s i ∧ x.enable = true ∧ x.lastEdge = some w ∧ passed s w 100 = false) ∧
  (∃ (s : State), ∃ (i : Nat), ∃ (x : EvtIn), ∃ (r : EvtRec), i < 8 ∧ x = getEvt s i ∧ x.enable = true ∧ x.edge = 0 ∧ ((∀ w, x.lastEdge = some w → passed s w 100 = true)) ∧ x.fifo.length < 64 ∧ x.notify = false ∧ r = { falling := false, locked := (getPtp s s.ptp.primary).servo == .locked, set := !(getClock s s.ptp.primary).notSet, epoch := (getClock s s.ptp.primary).epoch, seq := (x.seq + 1) % 2 ^ 32, wp := addTicks (wallLines s) (now s) (-(ticksOfNs s 50 : Int)), ptp := ptpOf (clockUnits s s.ptp.primary (now s) - 50 * nsUnit), primary := s.ptp.primary, coalesced := x.coalesced, lost := x.lost }) ∧
  (∃ (s : State), ∃ (i : Nat), ∃ (x : EvtIn), i < 8 ∧ x = getEvt s i ∧ x.enable = true ∧ x.edge = 0 ∧ ((∀ w, x.lastEdge = some w → passed s w 100 = true)) ∧ 64 ≤ x.fifo.length ∧ x.notify = true ∧ x.lastLine ≠ some (lineOf (now s))) ∧
  (∃ (s : State), ∃ (c : Cmd), ∃ (h : Held), ∃ (i : Nat), ∃ (o x : EvtIn), ReadyNow s c 0x705 h ∧ pf h.pkt 16 0 2 = 1 ∧ checkPtpEvent s h c = none ∧ i = pf h.pkt 17 0 3 ∧ o = getEvt s i ∧ x = { o with enable := pb h.pkt 17 3, edge := pf h.pkt 17 4 2, notify := pb h.pkt 17 6, owner := pf h.pkt 18 0 7 } ∧ x ≠ o) ∧
  (∃ (s : State), ∃ (c : Cmd), ∃ (h : Held), ∃ (i : Nat), ∃ (o x : EvtIn), ReadyNow s c 0x705 h ∧ pf h.pkt 16 0 2 = 1 ∧ checkPtpEvent s h c = none ∧ i = pf h.pkt 17 0 3 ∧ o = getEvt s i ∧ x = { o with enable := pb h.pkt 17 3, edge := pf h.pkt 17 4 2, notify := pb h.pkt 17 6, owner := pf h.pkt 18 0 7 } ∧ x = o) ∧
  (∃ (s : State), ∃ (c : Cmd), ∃ (h : Held), ∃ (i : Nat), ∃ (x : EvtIn), ∃ (l : List EvtRec), ReadyNow s c 0x706 h ∧ checkStampRead s h c = none ∧ i = pf h.pkt 16 0 3 ∧ x = getEvt s i ∧ l = x.fifo.take (pf h.pkt 17 0 7) ∧ l = []) ∧
  (∃ (s u : State), ∃ (c : Cmd), ∃ (h : Held), ∃ (i : Nat), ∃ (x : EvtIn), ∃ (l : List EvtRec), ReadyNow s c 0x706 h ∧ checkStampRead s h c = none ∧ i = pf h.pkt 16 0 3 ∧ x = getEvt s i ∧ l = x.fifo.take (pf h.pkt 17 0 7) ∧ l ≠ [] ∧ destWrite s h.slice engLock (destSpace s) c.ok (pf h.pkt 24 0 64) (l.flatMap fun r => bytesLE 32 (evtBits i r)) = (u, true)) :=
  ⟨⟨(on up (hp 0x705 [fAt 17 0 1 1, fAt 17 1 2 1, fAt 17 4 2 2, fAt 18 0 8 2])), c0, (hp 0x705 [fAt 17 0 1 1, fAt 17 1 2 1, fAt 17 4 2 2, fAt 18 0 8 2]), 1, _, _, by decide +kernel, by decide +kernel, by decide +kernel, by decide +kernel, rfl, by decide +kernel, by decide +kernel, by decide +kernel, rfl⟩,
    ⟨(on up (hp 0x707 [fAt 16 0 1 1, fAt 16 1 1 1, fAt 36 0 48 1000, fAt 44 0 30 5])), c0, (hp 0x707 [fAt 16 0 1 1, fAt 16 1 1 1, fAt 36 0 48 1000, fAt 44 0 30 5]), 1, _, by decide +kernel, by decide +kernel, by decide +kernel, by decide +kernel, rfl⟩,
    ⟨(on (modPtp up 1 fun x => { x with engine := 1, servo := .locked }) (hp 0x707 [fAt 16 0 1 1, fAt 16 1 1 1, fAt 16 2 1 1, fAt 36 0 48 1000, fAt 44 0 30 5])), c0, (hp 0x707 [fAt 16 0 1 1, fAt 16 1 1 1, fAt 16 2 1 1, fAt 36 0 48 1000, fAt 44 0 30 5]), 1, _, by decide +kernel, by decide +kernel, by decide +kernel, by decide +kernel, rfl, by decide +kernel⟩,
    ⟨(on (modClock (modPtp up 1 fun x => { x with engine := 2, servo := .acquiring }) 1 fun x => { x with notSet := false }) (hp 0x708 [fAt 16 0 1 1, fAt 16 1 1 1, fAt 20 0 64 500])), c0, (hp 0x708 [fAt 16 0 1 1, fAt 16 1 1 1, fAt 20 0 64 500]), 1, 0, _, by decide +kernel, by decide +kernel, by decide +kernel, by decide +kernel, rfl, by decide +kernel⟩,
    ⟨(on up (hp 0x708 [fAt 16 0 1 1, fAt 16 1 1 1, fAt 20 0 64 500])), c0, (hp 0x708 [fAt 16 0 1 1, fAt 16 1 1 1, fAt 20 0 64 500]), by decide +kernel⟩,
    ⟨(modPtp up 1 fun x => { x with engine := 1, servo := .locked, p2p := true, transport := 2, profile := 1 }), _, 1, _, _, _, by decide +kernel, rfl, by decide +kernel, by decide +kernel, by decide +kernel, rfl, pair_eta⟩,
    ⟨(modPtp up 1 fun x => { x with engine := 1, servo := .locked }), 1, by decide +kernel⟩,
    ⟨(modPtp up 1 fun x => { x with engine := 1, servo := .locked, master := some 3 }), 1, 3, by decide +kernel⟩,
    ⟨(modPtp up 1 fun x => { x with engine := 2, servo := .locked }), 1, by decide +kernel⟩,
    ⟨(modEvt up 2 fun x => { x with enable := true, edge := 0 }), 2, false, _, by decide +kernel, rfl, by decide +kernel⟩,
    ⟨(modEvt up 2 fun x => { x with enable := true, edge := 0, lastEdge := some (upTime up) }), 2, _, (upTime up), by decide +kernel, rfl, by decide +kernel⟩,
    ⟨(modEvt up 2 fun x => { x with enable := true, edge := 0 }), 2, _, _, by decide +kernel, rfl, by decide +kernel, by decide +kernel, by decide +kernel, by decide +kernel, by decide +kernel, rfl⟩,
    ⟨(modEvt up 2 fun x => { x with enable := true, edge := 0, notify := true, fifo := List.replicate 64 {} }), 2, _, by decide +kernel, rfl, by decide +kernel⟩,
    ⟨(on (modEvt up 2 fun x => { x with fifo := [{}] }) (hp 0x705 [fAt 16 0 2 1, fAt 17 0 3 2, fAt 17 3 1 1])), c0, (hp 0x705 [fAt 16 0 2 1, fAt 17 0 3 2, fAt 17 3 1 1]), 2, _, _, by decide +kernel, by decide +kernel, by decide +kernel, by decide +kernel, rfl, rfl, by decide +kernel⟩,
    ⟨(on (modEvt up 2 fun x => { x with fifo := [{}] }) (hp 0x705 [fAt 16 0 2 1, fAt 17 0 3 2])), c0, (hp 0x705 [fAt 16 0 2 1, fAt 17 0 3 2]), 2, _, _, by decide +kernel, by decide +kernel, by decide +kernel, by decide +kernel, rfl, rfl, by decide +kernel⟩,
    ⟨(on (modEvt up 2 fun x => { x with enable := true }) (hp 0x706 [fAt 16 0 3 2, fAt 17 0 7 4])), c0, (hp 0x706 [fAt 16 0 3 2, fAt 17 0 7 4]), 2, _, _, by decide +kernel, by decide +kernel, by decide +kernel, rfl, rfl, by decide +kernel⟩,
    ⟨(on (modEvt up 2 fun x => { x with enable := true, fifo := [{}] }) (hp 0x706 [fAt 16 0 3 2, fAt 17 0 7 4, fAt 24 0 64 4096])), _, c0, (hp 0x706 [fAt 16 0 3 2, fAt 17 0 7 4, fAt 24 0 64 4096]), 2, _, _, by decide +kernel, by decide +kernel, by decide +kernel, rfl, rfl, by decide +kernel, pair_of (by decide +kernel)⟩⟩

/-- What Obligations.TodenPorts asks of its states can be met, clause by clause. -/
theorem test_TodenPorts :
  (∃ (s : State), ∃ (p : Nat), p < 4 ∧ (((getTod s p).state = .forwarding ∨ (getTod s p).state = .blocked)) ∧ dueAgain s (getTod s p).helloAt 100000 = true) ∧
  (∃ (s : State), ∃ (p : Nat), p < 4 ∧ (getTod s p).state = .training ∧ (getTod s p).phase < 3) ∧
  (∃ (s : State), ∃ (p : Nat), p < 4 ∧ (getTod s p).state = .training ∧ 3 ≤ (getTod s p).phase ∧ (getTod s p).partner ≠ none ∧ (getTod s p).cable ≠ []) ∧
  (∃ (s : State), ∃ (p : Nat), p < 4 ∧ (getTod s p).state = .training ∧ (getTod s p).series < 3 ∧ passed s (getTod s p).phaseAt 2000000 = true) ∧
  (∃ (s : State), ∃ (p : Nat), p < 4 ∧ (getTod s p).state = .training ∧ 3 ≤ (getTod s p).series ∧ passed s (getTod s p).phaseAt 2000000 = true) ∧
  (∃ (s : State), ∃ (p : Nat), p < 4 ∧ (getTod s p).state = .down ∧ (getTod s p).backing = true ∧ passed s (getTod s p).backAt ((getTod s p).backoffMs * 1000000) = true) ∧
  (∃ (s : State), ∃ (p : Nat), p < 4 ∧ todUp (getTod s p) = true ∧ passed s (getTod s p).heardAt 1000000 = true) ∧
  (∃ (s : State), ∃ (p : Nat), p < 4 ∧ todUp (getTod s p) = true) ∧
  (∃ (s u : State), ∃ (p : Nat), ∃ (pkt : List (List Bool)), ∃ (q : Pkt), takePkt s p 1 pkt = (u, some q) ∧ (helloOf q.payload).id ≠ ownId ∧ (getTod u p).state = .training) ∧
  (∃ (s u : State), ∃ (p : Nat), ∃ (pkt : List (List Bool)), ∃ (q : Pkt), takePkt s p 1 pkt = (u, some q) ∧ (helloOf q.payload).id = ownId) ∧
  (∃ (s : State), ∃ (p : Nat), p < 4 ∧ todUp (getTod s p) = true ∧ dueAgain s (getTod s p).measureAt 62500000 = true) ∧
  (∃ (s : State), ∃ (p : Nat), p < 4 ∧ todUp (getTod s p) = true ∧ dueAgain s (getTod s p).measureAt 62500000 = false) ∧
  (∃ (s : State), ∃ (p : Nat), p < 4 ∧ todUp (getTod s p) = true) ∧
  (∃ (s : State), ∃ (p : Nat), p < 4 ∧ todUp (getTod s p) = true) ∧
  (∃ (s : State), ∃ (p : Nat), p < 4 ∧ todUp (getTod s p) = true) ∧
  (∃ (s : State), ∃ (p fine sub : Nat), ∃ (ps4 : Int), ∃ (w : Wp), p < 4 ∧ (getTod s p).state = .forwarding ∧ upPort s = some p ∧ markPorts s p = [] ∧ ps4 = (4 * sub : Nat) - (125 * fine + 250 * (getTod s p).pathDelay + 4 * cablePs (getTod s p) : Nat) ∧ w = addTicks (wallLines s) (now s) (ps4 * (s.time.timing.rateNum * s.time.timing.lines * 65536 : Nat) / (4 * s.time.timing.rateDen * 10 ^ 12 : Nat))) ∧
  (∃ (e : List Byte), byteAt e 7 ≠ crcFwd 8 0x07 0xFF (e.take 7)) ∧
  (∃ (s : State), ∃ (p : Nat), ∃ (e : List Byte), ∃ (m : Wp), ∃ (d : Int), p < 4 ∧ (getTod s p).state = .forwarding ∧ upPort s = some p ∧ markPorts s p = [] ∧ byteAt e 7 = crcFwd 8 0x07 0xFF (e.take 7) ∧ (getTod s p).markAt = some m ∧ d = tickDelta (wallLines s) m ⟨leAt (e.take 7) 0 4, 0, 0⟩ ∧ s.fabric.joining = none ∧ (frameTicks s : Int) < 2 * (d.natAbs : Int)) ∧
  (∃ (s u : State), ∃ (p : Nat), ∃ (pkt : List (List Bool)), ∃ (l : List Byte), ∃ (q : Pkt), takePkt s p 2 pkt = (u, some q) ∧ l = q.payload ∧ todUp (getTod u p) = true ∧ upPort u = some p ∧ q.dest = u.fabric.addr ∧ q.dest ≠ 4095 ∧ routeOf u q.dest = some 15 ∧ byteAt l 0 = 2) ∧
  (∃ (s u : State), ∃ (p : Nat), ∃ (pkt : List (List Bool)), ∃ (l : List Byte), ∃ (q : Pkt), takePkt s p 2 pkt = (u, some q) ∧ l = q.payload ∧ todUp (getTod u p) = true ∧ upPort u = some p ∧ q.dest = u.fabric.addr ∧ q.dest ≠ 4095 ∧ routeOf u q.dest = some 15 ∧ byteAt l 0 = 3) ∧
  (∃ (s u : State), ∃ (p : Nat), ∃ (pkt : List (List Bool)), ∃ (q : Pkt), takePkt s p 2 pkt = (u, some q) ∧ todUp (getTod u p) = true ∧ upPort u ≠ some p ∧ q.dest ≠ 4095 ∧ routeOf u q.dest ≠ some 15) :=
  ⟨⟨fab, 0, by decide +kernel⟩,
    ⟨(modTod fab 1 fun x => { x with state := .training, phase := 2 }), 1, by decide +kernel⟩,
    ⟨(modTod fab 1 fun x => { x with state := .training, phase := 3, partner := some { id := 3, root := 3, runS := 9 }, cable := [100] }), 1, by decide +kernel⟩,
    ⟨(modTod fab 1 fun x => { x with state := .training, phase := 2, series := 1 }), 1, by decide +kernel⟩,
    ⟨(modTod fab 1 fun x => { x with state := .training, phase := 2, series := 3 }), 1, by decide +kernel⟩,
    ⟨(modTod fab 1 fun x => { x with state := .down, backing := true, backoffMs := 200 }), 1, by decide +kernel⟩,
    ⟨(modTod fab 0 fun x => { x with cable := [100] }), 0, by decide +kernel⟩,
    ⟨(modTod fab 0 fun x => { x with cable := [100] }), 0, by decide +kernel⟩,
    let ⟨u, e, t⟩ := take_hello (bytesLE 8 otherId) (length_bytesLE _ _); ⟨_, u, 1, _, _, e, fun e => otherId_ne ((id_hello _ otherId_lt).symm.trans e), t⟩,
    let ⟨u, e, _⟩ := take_hello (bytesLE 8 ownId) (length_bytesLE _ _); ⟨_, u, 1, _, _, e, id_hello _ (BitVec.isLt Config.deviceId)⟩,
    ⟨fab, 0, by decide +kernel⟩,
    ⟨(modTod fab 0 fun x => { x with measureAt := some (upTime fab) }), 0, by decide +kernel⟩,
    ⟨fab, 0, by decide +kernel⟩,
    ⟨fab, 0, by decide +kernel⟩,
    ⟨(modTod fab 0 fun x => { x with replay := [(0, 3, [1]), (0, 7, [1]), (2, 3, [1])] }), 0, by decide +kernel⟩,
    ⟨({ fab with fabric := { fab.fabric with rootPort := some 0 } }), 0, 2, 300, _, _, by decide +kernel, by decide +kernel, by decide +kernel, by decide +kernel, rfl, rfl⟩,
    ⟨([1, 2, 3, 4, 5, 6, 7, 9]), by decide +kernel⟩,
    ⟨(modTod { fab with fabric := { fab.fabric with rootPort := some 0 } } 0 fun x => { x with markAt := some ⟨5, 6, 0⟩, disagree := 1 }), 0, ([2, 0, 0, 0, 5, 6, 7, BitVec.ofNat 8 (crcFwd 8 0x07 0xFF [2, 0, 0, 0, 5, 6, 7])]), (⟨5, 6, 0⟩), _, also (by decide +kernel) ⟨by decide +kernel, by decide +kernel, rfl, by decide +kernel⟩⟩,
    ⟨(atLanes ({ fab with fabric := { fab.fabric with rootPort := some 0 } }) 0 { dest := 5, src := 9, vc := 1, kind := 2, payload := ([2, 1, 0x65, 4] ++ bytesLE 4 60 ++ bytesLE 4 1 ++ bytesLE 4 8 ++ bytesLE 8 0 ++ bytesLE 4 9 ++ List.replicate 24 0) }), _, 0, ([]), _, _, pair_some (d := {}) (by decide +kernel), rfl, by decide +kernel⟩,
    ⟨(atLanes ({ fab with fabric := { fab.fabric with rootPort := some 0 } }) 0 { dest := 5, src := 9, vc := 1, kind := 2, payload := ([3, 1, 0x65, 4] ++ bytesLE 4 60 ++ bytesLE 4 1 ++ bytesLE 4 8 ++ bytesLE 8 0 ++ bytesLE 4 9 ++ List.replicate 24 0) }), _, 0, ([]), _, _, pair_some (d := {}) (by decide +kernel), rfl, by decide +kernel⟩,
    ⟨(modTod fab 1 fun x => { x with state := .forwarding }), _, 1, (wire { dest := 9, src := 3, vc := 1, kind := 2, payload := [2] }), _, pair_some (d := {}) (by decide +kernel), by decide +kernel⟩⟩

/-- What Obligations.FabricStreams asks of its states can be met, clause by clause. -/
theorem test_FabricStreams :
  (∃ (s u : State), ∃ (c : Cmd), ∃ (h : Held), ReadyNow s c 0x801 h ∧ checkStatusDest s h c = none ∧ ((pf h.pkt 24 0 64 = 0 → u = s)) ∧ ((pf h.pkt 24 0 64 ≠ 0 → destWrite s h.slice engLock (destSpace s) c.ok (pf h.pkt 24 0 64) (fabricRecord s) = (u, true)))) ∧
  (∃ (s u e : State), ∃ (c : Cmd), ∃ (h : Held), ∃ (n : Nat), ReadyNow s c 0x802 h ∧ checkRouteSet s h c = none ∧ e = { s with fabric := { s.fabric with routes := tset {} s.fabric.routes (pf h.pkt 16 0 9) { low := pf h.pkt 20 0 12, high := pf h.pkt 22 0 12, port := pf h.pkt 18 0 4, enable := pb h.pkt 18 4 } } } ∧ e.fabric.routes ≠ s.fabric.routes ∧ reserveAll (noteClaim e) = (u, n)) ∧
  (∃ (s : State), ∃ (c : Cmd), ∃ (h : Held), ∃ (n : Nat), ReadyNow s c 0x803 h ∧ checkExport s h c = none ∧ pb h.pkt 18 0 = false ∧ freeExport s = some n) ∧
  (∃ (s : State), ∃ (c : Cmd), ∃ (h : Held), ReadyNow s c 0x803 h ∧ checkExport s h c = none ∧ pb h.pkt 18 0 = true) ∧
  (∃ (s : State), ∃ (c : Cmd), ∃ (h : Held), ReadyNow s c 0x804 h ∧ checkImport s h c = none) ∧
  (∃ (s u : State), ∃ (p i b w ht : Nat), ∃ (pkt : List (List Bool)), ∃ (q : Pkt), takePkt s p 3 pkt = (u, some q) ∧ portsFor u q.dest (some p) = [] ∧ importOf u q = some i ∧ curPass u i = none ∧ w = leAt q.payload 20 2 % 16384 ∧ ht = leAt q.payload 22 2 % 16384 ∧ stateRank (upOf u q.payload).state ≤ stateRank (getEntry u i).inp.upstream ∧ (getEntry u i).valid = true ∧ (getEntry u i).inp.withdrawn = false ∧ byteAt q.payload 19 = (getSource u i).fmt ∧ w ≤ (getSource u i).maxW ∧ ht ≤ (getSource u i).maxH ∧ intakeStopped u (getEntry u i).owner = false ∧ oldestBuffer u ((buffersOf u i).filter fun b => passAllowed u b && latchCount u b == 0 && !((getImport u i).passes.map ImpPass.surf).contains b) = some b) ∧
  (∃ (s u : State), ∃ (p i : Nat), ∃ (pkt : List (List Bool)), ∃ (q : Pkt), ∃ (m : ImpPass), ∃ (due : Wp), takePkt s p 5 pkt = (u, some q) ∧ portsFor u q.dest (some p) = [] ∧ importOf u q = some i ∧ (getImport u i).passes = [m] ∧ m.lines = [] ∧ m.frameSeq = q.frameSeq ∧ q.chroma = false ∧ q.lost = false ∧ m.next = q.line ∧ q.line < passUnits (getSurf u m.surf) m.height ∧ passChroma (getSurf u m.surf) m.height = 0 ∧ due = addTicks (wallLines u) (wpOfBits q.complete) ((q.hops * 65536 : Nat) : Int) ∧ wpReached (now u) due = false ∧ wpLater (now u) due = false ∧ lineSize (getSurf u m.surf).format (passSize (getSurf u m.surf)).1 ≤ q.payload.length) ∧
  (∃ (s u v : State), ∃ (i n f : Nat), ∃ (m : ImpPass), ∃ (l : ImpLine), (getImport s i).passes = [m] ∧ m.lines = [l] ∧ wpReached (now s) l.due = true ∧ l.upstream = none ∧ l.lost = false ∧ l.chroma = false ∧ (getSurf s m.surf).rebuilding = false ∧ formatCompressed (getSurf s m.surf).format = false ∧ m.next < m.height ∧ ((formatTwoPlane (getSurf s m.surf).format = true → l.line + 1 < m.height)) ∧ n = l.line + 1 ∧ f = (if formatTwoPlane (getSurf s m.surf).format then min n (2 * m.doneC) else n) ∧ u = modImport s i (fun x => { x with passes := [{ m with lines := [] }] }) ∧ v = modPass (planeLine u m.surf l.line l.data) i m.surf (fun p => { p with doneY := n })) ∧
  (∃ (s u : State), ∃ (p i : Nat), ∃ (pkt : List (List Bool)), ∃ (q : Pkt), ∃ (m : ImpPass), takePkt s p 4 pkt = (u, some q) ∧ (getTransit u (streamKey q.src q.exportId)).handle = 0 ∧ importOf u q = some i ∧ curPass u i = some m ∧ m.frameSeq = q.frameSeq ∧ m.lines = []) ∧
  (∃ (s u : State), ∃ (p : Nat), ∃ (pkt : List (List Bool)), ∃ (q : Pkt), takePkt s p 6 pkt = (u, some q) ∧ q.dest ≠ 4095 ∧ routeOf u q.dest = some 15) ∧
  (∃ (s u : State), ∃ (p : Nat), ∃ (pkt : List (List Bool)), ∃ (q : Pkt), takePkt s p 6 pkt = (u, some q) ∧ q.dest ≠ 4095 ∧ routeOf u q.dest ≠ some 15) ∧
  (∃ (s : State), ∃ (o e : Nat), (getTransit s (streamKey o e)).handle ≠ 0 ∧ 16 ≤ frameDiff (now s).frame (getTransit s (streamKey o e)).lastFrame) ∧
  (∃ (s : State), ∃ (o e : Nat), frameDiff (now s).frame (getTransit s (streamKey o e)).lastFrame < 16) ∧
  (∃ (s : State), ∃ (c : Cmd), ∃ (h : Held), ReadyNow s c 0x805 h ∧ checkEyeScan s h c = none) ∧
  (∃ (s u : State), ∃ (c : Cmd), ∃ (h : Held), ∃ (lane : Nat), ∃ (e : EyeScan), s.lane.scans.find? (fun e => e.2.key == Cmd.key c) = some (lane, e) ∧ findHeld s (Cmd.key c) = some h ∧ h.slice = c.slice ∧ c.data.length = scanPoints h.pkt ∧ destWrite { s with lane := { s.lane with scans := s.lane.scans.filter fun x => x.1 != lane } } h.slice engLock (pb h.pkt 17 4) c.ok (pf h.pkt 24 0 64) (scanRecord s lane (c.obs.getD 0 0) e h.pkt c.data) = (u, true)) ∧
  (∃ (s : State), ∃ (c : Cmd), ∃ (h : Held), ∃ (i : Nat), ReadyNow s c 0x806 h ∧ portOp h.pkt = 0 ∧ checkPortControl s h c = none ∧ i = pf h.pkt 17 0 3) ∧
  (∃ (s : State), ∃ (c : Cmd), ∃ (h : Held), ∃ (i : Nat), ReadyNow s c 0x806 h ∧ portOp h.pkt = 1 ∧ checkPortControl s h c = none ∧ i = pf h.pkt 17 0 3) ∧
  (∃ (s : State), ∃ (c : Cmd), ∃ (h : Held), ∃ (o : Nat), ReadyNow s c 0x806 h ∧ portOp h.pkt = 2 ∧ checkPortControl s h c = none ∧ pf h.pkt 16 0 3 = 2 ∧ o = pf h.pkt 17 0 3 ∧ (getOut s o).hpd = true ∧ (getOut s o).trainingNow = false ∧ (getOut s o).state = .running) ∧
  (∃ (s : State), ∃ (c : Cmd), ∃ (h : Held), ∃ (i : Nat), ReadyNow s c 0x806 h ∧ portOp h.pkt = 2 ∧ checkPortControl s h c = none ∧ pf h.pkt 16 0 3 = 4 ∧ i = pf h.pkt 17 0 3 ∧ scansOn s (76 + i) 1 = []) ∧
  (∃ (s : State), ∃ (c : Cmd), ∃ (h : Held), ∃ (i : Nat), ReadyNow s c 0x806 h ∧ portOp h.pkt = 3 ∧ checkPortControl s h c = none ∧ i = pf h.pkt 17 0 3) :=
  ⟨⟨(on fab (hp 0x801 [fAt 24 0 64 4096])), _, c0, (hp 0x801 [fAt 24 0 64 4096]), by decide +kernel, by decide +kernel, fun h => absurd h (by decide +kernel), fun _ => pair_of (by decide +kernel)⟩,
    ⟨(on (modExport fab 0 fun _ => { used := true, dest := 25, mbps := 100, suspended := true }) (hp 0x802 [fAt 16 0 9 3, fAt 18 0 4 0, fAt 18 4 1 1, fAt 20 0 12 20, fAt 22 0 12 30])), _, _, c0, (hp 0x802 [fAt 16 0 9 3, fAt 18 0 4 0, fAt 18 4 1 1, fAt 20 0 12 20, fAt 22 0 12 30]), ((reserveAll ({ (on (modExport fab 0 fun _ => { used := true, dest := 25, mbps := 100, suspended := true }) (hp 0x802 [fAt 16 0 9 3, fAt 18 0 4 0, fAt 18 4 1 1, fAt 20 0 12 20, fAt 22 0 12 30])) with fabric := { (on (modExport fab 0 fun _ => { used := true, dest := 25, mbps := 100, suspended := true }) (hp 0x802 [fAt 16 0 9 3, fAt 18 0 4 0, fAt 18 4 1 1, fAt 20 0 12 20, fAt 22 0 12 30])).fabric with routes := tset {} (on (modExport fab 0 fun _ => { used := true, dest := 25, mbps := 100, suspended := true }) (hp 0x802 [fAt 16 0 9 3, fAt 18 0 4 0, fAt 18 4 1 1, fAt 20 0 12 20, fAt 22 0 12 30])).fabric.routes 3 { low := 20, high := 30, port := 0, enable := true } } })).2), by decide +kernel, by decide +kernel, rfl, by decide +kernel, pair_of (by decide +kernel)⟩,
    ⟨(on (modEntry (modTod fab 0 fun x => { x with same := true }) 3 fun e => { e with valid := true, kind := .decoded }) (hp 0x803 [fAt 16 0 12 3, fAt 20 0 12 9, fAt 24 0 32 500])), c0, (hp 0x803 [fAt 16 0 12 3, fAt 20 0 12 9, fAt 24 0 32 500]), 0, by decide +kernel⟩,
    ⟨(on (modExport fab 7 fun _ => { used := true, dest := 9, mbps := 100 }) (hp 0x803 [fAt 18 0 1 1, fAt 22 0 12 7])), c0, (hp 0x803 [fAt 18 0 1 1, fAt 22 0 12 7]), by decide +kernel⟩,
    ⟨(on (modEntry fab 3 fun e => { e with valid := true, kind := .imported }) (hp 0x804 [fAt 16 0 12 3, fAt 18 0 1 1, fAt 20 0 12 9, fAt 22 0 12 7])), c0, (hp 0x804 [fAt 16 0 12 3, fAt 18 0 1 1, fAt 20 0 12 9, fAt 22 0 12 7]), by decide +kernel⟩,
    ⟨(atLanes (imp3) 0 { dest := 5, src := 9, vc := 1, kind := 3, exportId := 7, frameSeq := 4, payload := List.replicate 18 0 ++ [1, 0x11, 64, 0, 8, 0, 0, 0, 0, 0] }), _, 0, 3, 0, 64, 8, ([]), _, pair_some (d := {}) (by decide +kernel), by decide +kernel⟩,
    ⟨(atLanes (modSurf (modImport imp3 3 fun x => { x with passes := [({ frameSeq := 4, height := 8 })] }) 0 fun x => { x with width := 4 }) 0 { dest := 5, src := 9, vc := 1, kind := 5, exportId := 7, frameSeq := 4, complete := wpBits ⟨5, 7, 200⟩, payload := List.replicate 16 3 }), _, 0, 3, ([]), _, ({ frameSeq := 4, height := 8 }), _, pair_some (d := {}) (by decide +kernel), also (by decide +kernel) (also (by decide +kernel) ⟨by decide +kernel, by decide +kernel, rfl, by decide +kernel⟩)⟩,
    ⟨(modImport imp3 3 fun x => { x with passes := [(({ frameSeq := 4, height := 8, next := 1, lines := [(({ line := 0, due := ⟨5, 7, 0⟩, data := List.replicate 256 3 } : ImpLine))] } : ImpPass))] }), _, _, 3, 1, 1, (({ frameSeq := 4, height := 8, next := 1, lines := [(({ line := 0, due := ⟨5, 7, 0⟩, data := List.replicate 256 3 } : ImpLine))] } : ImpPass)), (({ line := 0, due := ⟨5, 7, 0⟩, data := List.replicate 256 3 } : ImpLine)), also (by decide +kernel) (also (by decide +kernel) ⟨by decide +kernel, by decide +kernel, by decide +kernel, by decide +kernel, rfl, rfl⟩)⟩,
    ⟨(atLanes (modImport imp3 3 fun x => { x with passes := [({ frameSeq := 4, height := 8, next := 1 })] }) 0 { dest := 5, src := 9, vc := 1, kind := 4, exportId := 7, frameSeq := 4, payload := List.replicate 28 0 }), _, 0, 3, ([]), _, ({ frameSeq := 4, height := 8, next := 1 }), pair_some (d := {}) (by decide +kernel), by decide +kernel⟩,
    ⟨(atLanes (fab) 0 { dest := 5, src := 9, vc := 1, kind := 6, line := 2, payload := block0 2 }), _, 0, ([]), _, pair_some (d := {}) (by decide +kernel), by decide +kernel⟩,
    ⟨(atLanes (modTod fab 1 fun x => { x with state := .forwarding }) 1 { dest := 9, src := 3, vc := 2, kind := 6, line := 3, payload := block0 2 }), _, 1, ([]), _, pair_some (d := {}) (by decide +kernel), by decide +kernel⟩,
    ⟨(modTransit (surf { up with time := { up.time with wp := ⟨50, 7, 100⟩ } } id) (streamKey 9 7) fun x => { x with handle := 16384, lastFrame := 30 }), 9, 7, by decide +kernel⟩,
    ⟨(modTransit (surf { up with time := { up.time with wp := ⟨50, 7, 100⟩ } } id) (streamKey 9 7) fun x => { x with handle := 16384, lastFrame := 40 }), 9, 7, by decide +kernel⟩,
    ⟨(on fab (hp 0x805 [fAt 16 0 7 8, fAt 17 2 2 2, fAt 24 0 64 4096])), c0, (hp 0x805 [fAt 16 0 7 8, fAt 17 2 2 2, fAt 24 0 64 4096]), by decide +kernel⟩,
    ⟨(on { fab with lane := { fab.lane with scans := [(8, ({}))] } } ({ hp 0x805 [fAt 16 0 7 8, fAt 17 2 2 2, fAt 24 0 64 4096] with phase := .deferred })), _, ({ data := List.replicate 256 0 }), ({ hp 0x805 [fAt 16 0 7 8, fAt 17 2 2 2, fAt 24 0 64 4096] with phase := .deferred }), 8, ({}), by decide +kernel, by decide +kernel, by decide +kernel, by decide +kernel, pair_of (by decide +kernel)⟩,
    ⟨(on (modTod fab 1 fun x => { x with state := .disabled, series := 2 }) (hp 0x806 [fAt 16 0 3 1, fAt 17 0 3 1])), c0, (hp 0x806 [fAt 16 0 3 1, fAt 17 0 3 1]), 1, by decide +kernel⟩,
    ⟨(on fab (hp 0x806 [fAt 16 0 3 1, fAt 17 0 3 0, fAt 18 0 2 1])), c0, (hp 0x806 [fAt 16 0 3 1, fAt 17 0 3 0, fAt 18 0 2 1]), 0, by decide +kernel⟩,
    ⟨(on (outp up fun x => { x with state := .running, hpd := true }) (hp 0x806 [fAt 16 0 3 2, fAt 17 0 3 0, fAt 18 0 2 2])), c0, (hp 0x806 [fAt 16 0 3 2, fAt 17 0 3 0, fAt 18 0 2 2]), 0, by decide +kernel⟩,
    ⟨(on (modPort up 1 fun p => { p with enable := true, up := true }) (hp 0x806 [fAt 16 0 3 4, fAt 17 0 3 1, fAt 18 0 2 2])), c0, (hp 0x806 [fAt 16 0 3 4, fAt 17 0 3 1, fAt 18 0 2 2]), 1, by decide +kernel⟩,
    ⟨(on fab (hp 0x806 [fAt 16 0 3 1, fAt 17 0 3 2, fAt 18 0 2 3, fAt 19 0 3 5])), c0, (hp 0x806 [fAt 16 0 3 1, fAt 17 0 3 2, fAt 18 0 2 3, fAt 19 0 3 5]), 2, by decide +kernel⟩⟩

/-- What Obligations.KeyObjects asks of its states can be met, clause by clause. -/
theorem test_KeyObjects :
  (∃ (s : State), ∃ (c : Cmd), ∃ (h : Held), ReadyNow s c 0x901 h ∧ checkKeys s h c = none) ∧
  (∃ (s : State), ∃ (counts : List Nat), counts.length = 48 ∧ (∀ x ∈ counts, x < 65536) ∧ s.time.running = true ∧ scanDue s = true ∧ s.io.keys.scan < 3 ∧ s.io.keys.sets = [] ∧ s.io.keys.test = none) ∧
  (∃ (s : State), ∃ (counts : List Nat), counts.length = 48 ∧ (∀ x ∈ counts, x < 65536) ∧ s.time.running = true ∧ scanDue s = true ∧ s.io.keys.scan = 3 ∧ s.io.keys.sets = [] ∧ s.io.keys.test = none) ∧
  (∃ (s : State), scanDue s = false) ∧
  (∃ (s : State), ∃ (counts : List Nat), ∃ (n : Nat), ∃ (o : KeyObj), ∃ (d : Int), counts.length = 48 ∧ (∀ x ∈ counts, x < 65536) ∧ s.time.running = true ∧ scanDue s = true ∧ 4 ≤ s.io.keys.scan ∧ s.io.keys.sets = [] ∧ s.io.keys.test = none ∧ n < 48 ∧ o = getKey s n ∧ o.enable = true ∧ 0 < o.debounce ∧ ((∀ m, m < 48 → m ≠ n → (getKey s m).enable = true → ∀ c ∈ channelsOf (getKey s m), c ∉ channelsOf o)) ∧ 0 < o.count ∧ d = objectDelta { s.io.keys with raw := counts } o ∧ o.pressed = false ∧ (o.thresh : Int) ≤ d ∧ o.debounce ≤ o.run + 1) ∧
  (∃ (s : State), ∃ (counts : List Nat), ∃ (n : Nat), ∃ (o : KeyObj), ∃ (d : Int), counts.length = 48 ∧ (∀ x ∈ counts, x < 65536) ∧ s.time.running = true ∧ scanDue s = true ∧ 4 ≤ s.io.keys.scan ∧ s.io.keys.sets = [] ∧ s.io.keys.test = none ∧ n < 48 ∧ o = getKey s n ∧ o.enable = true ∧ 0 < o.debounce ∧ ((∀ m, m < 48 → m ≠ n → (getKey s m).enable = true → ∀ c ∈ channelsOf (getKey s m), c ∉ channelsOf o)) ∧ 0 < o.count ∧ d = objectDelta { s.io.keys with raw := counts } o ∧ o.pressed = false ∧ d < (o.thresh : Int)) ∧
  (∃ (s : State), ∃ (counts : List Nat), ∃ (n : Nat), ∃ (o : KeyObj), ∃ (d : Int), counts.length = 48 ∧ (∀ x ∈ counts, x < 65536) ∧ s.time.running = true ∧ scanDue s = true ∧ 4 ≤ s.io.keys.scan ∧ s.io.keys.sets = [] ∧ s.io.keys.test = none ∧ n < 48 ∧ o = getKey s n ∧ o.enable = true ∧ 0 < o.debounce ∧ ((∀ m, m < 48 → m ≠ n → (getKey s m).enable = true → ∀ c ∈ channelsOf (getKey s m), c ∉ channelsOf o)) ∧ 0 < o.count ∧ d = objectDelta { s.io.keys with raw := counts } o ∧ o.pressed = true ∧ d < (o.thresh : Int) - o.hyst ∧ o.debounce ≤ o.run + 1) ∧
  (∃ (s : State), ∃ (n : Nat), n < 48 ∧ (getKey s n).enable = true ∧ (getKey s n).pressed = true ∧ s.io.keys.test = none ∧ passed s (getKey s n).pressAt ((getKey s n).maxOnS * 1000000000) = true) ∧
  (∃ (s : State), ∃ (c : Cmd), ∃ (h : Held), ReadyNow s c 0x902 h ∧ checkSelftest s h c = none) ∧
  (∃ (s : State), ∃ (t : KeyTest), ∃ (h : Held), ∃ (m : Nat), s.io.keys.test = some t ∧ t.scans.length = 8 ∧ t.dest = 0 ∧ findHeld s t.key = some h ∧ h.slice = t.key.slice ∧ m = (List.range 48).foldl (fun m c => if inRange (((List.range 48).map (testResult t)).getD c 0) 1 3 then m ||| 2 ^ c else m) 0) :=
  ⟨⟨(on up (hp 0x901 [fAt 16 0 6 5, fAt 16 6 1 1, fAt 17 0 6 3, fAt 18 0 4 1, fAt 18 4 4 2, fAt 20 0 16 100, fAt 22 0 16 20, fAt 24 0 16 50])), c0, (hp 0x901 [fAt 16 0 6 5, fAt 16 6 1 1, fAt 17 0 6 3, fAt 18 0 4 1, fAt 18 4 4 2, fAt 20 0 16 100, fAt 22 0 16 20, fAt 24 0 16 50]), by decide +kernel⟩,
    ⟨(modKeys up fun k => { k with scan := 1 }), (List.replicate 48 500), by decide +kernel⟩,
    ⟨(modKeys up fun k => { k with scan := 3, sum := List.replicate 48 1500 }), (List.replicate 48 500), by decide +kernel⟩,
    ⟨(modKeys up fun k => { k with scanAt := some (upTime up) }), by decide +kernel⟩,
    ⟨(modKeys up fun k => { k with scan := 4, base := List.replicate 48 400, objects := [(5, ({ enable := true, first := 3, debounce := 2, thresh := 100, hyst := 20, negThresh := 50, run := 1 }))] }), (List.replicate 48 500), 5, _, _, also (by decide +kernel) ⟨by decide +kernel, by decide +kernel, by decide +kernel, by decide +kernel, rfl, by decide +kernel, by decide +kernel, keys_apart (by decide +kernel), by decide +kernel, rfl, by decide +kernel⟩⟩,
    ⟨(modKeys up fun k => { k with scan := 4, base := List.replicate 48 400, objects := [(5, ({ enable := true, first := 3, debounce := 2, thresh := 100, hyst := 20, negThresh := 50, run := 1 }))] }), (List.replicate 48 499), 5, _, _, also (by decide +kernel) ⟨by decide +kernel, by decide +kernel, by decide +kernel, by decide +kernel, rfl, by decide +kernel, by decide +kernel, keys_apart (by decide +kernel), by decide +kernel, rfl, by decide +kernel⟩⟩,
    ⟨(modKeys up fun k => { k with scan := 4, base := List.replicate 48 400, objects := [(5, ({ enable := true, first := 3, debounce := 2, thresh := 100, hyst := 20, negThresh := 50, run := 1, pressed := true }))] }), (List.replicate 48 479), 5, _, _, also (by decide +kernel) ⟨by decide +kernel, by decide +kernel, by decide +kernel, by decide +kernel, rfl, by decide +kernel, by decide +kernel, keys_apart (by decide +kernel), by decide +kernel, rfl, by decide +kernel⟩⟩,
    ⟨(modKeys up fun k => { k with scan := 4, raw := List.replicate 48 479, base := List.replicate 48 400, objects := [(5, { enable := true, first := 3, count := 4, pressed := true, thresh := 100 })] }), 5, by decide +kernel⟩,
    ⟨(on up (hp 0x902 [fAt 16 0 48 255])), c0, (hp 0x902 [fAt 16 0 48 255]), by decide +kernel⟩,
    ⟨(on (modKeys up fun k => { k with test := some ({ mask := 255, openMin := 1024, neighMax := 2048, scans := List.replicate 8 (List.replicate 48 2000) }) }) ({ hp 0x902 [fAt 16 0 48 255] with phase := .deferred })), ({ mask := 255, openMin := 1024, neighMax := 2048, scans := List.replicate 8 (List.replicate 48 2000) }), ({ hp 0x902 [fAt 16 0 48 255] with phase := .deferred }), ((List.range 48).foldl (fun m c => if inRange (((List.range 48).map (testResult ({ mask := 255, openMin := 1024, neighMax := 2048, scans := List.replicate 8 (List.replicate 48 2000) }))).getD c 0) 1 3 then m ||| 2 ^ c else m) 0), by decide +kernel⟩⟩

/-- What Obligations.TouchPorts asks of its states can be met, clause by clause. -/
theorem test_TouchPorts :
  (∃ (s : State), ∃ (c : Cmd), ∃ (h : Held), ∃ (port : Nat), ∃ (y : HidLayout), ReadyNow s c 0x903 h ∧ checkTouchPortSet s h c = none ∧ port = pf h.pkt 16 0 3 ∧ pb h.pkt 16 5 = false ∧ s.regs.headless = false ∧ c.ok = true ∧ c.data.length = pf h.pkt 22 0 13 ∧ hidLayout c.data = .ok y) ∧
  (∃ (s : State), ∃ (c : Cmd), ∃ (h : Held), ∃ (off : Nat), ReadyNow s c 0x903 h ∧ checkTouchPortSet s h c = none ∧ pb h.pkt 16 5 = false ∧ s.regs.headless = false ∧ c.ok = true ∧ c.data.length = pf h.pkt 22 0 13 ∧ hidLayout c.data = .error off) ∧
  (∃ (s : State), ∃ (p : Nat), p < 8 ∧ (getTouch s p).enable = true) ∧
  (∃ (s : State), ∃ (p : Nat), ∃ (r : List Byte), ∃ (t : TouchStamp), (getTouch s p).enable = true ∧ (getTouch s p).stamp = some t ∧ 2 ≤ r.length ∧ leAt r 0 2 = 0) ∧
  (∃ (s u : State), ∃ (p : Nat), ∃ (r : List Byte), ∃ (t : TouchStamp), ∃ (x : TouchPort), ∃ (f : HidFinger), ∃ (e : TouchEntry), ∃ (px py : Nat), ∃ (cl old : Bool), ∃ (m : LayerMap), ∃ (g : MapEntry), x = getTouch s p ∧ x.enable = true ∧ x.stamp = some t ∧ x.nextStamp = none ∧ x.contacts = [] ∧ x.seen = [] ∧ x.layout = { ids := false, fingers := [f], count := none } ∧ f.report = 0 ∧ 2 < leAt r 0 2 ∧ leAt r 0 2 ≤ 514 ∧ leAt r 0 2 ≤ r.length ∧ entryOf (modTouch s p fun x => { x with errors := 0 }) ((r.take (leAt r 0 2)).drop 2) false f = (u, e) ∧ e.tip = true ∧ e.conf = true ∧ mapPoint s x e.x e.y = (px, py, cl) ∧ mapAt s x.output t.wp = (m, old) ∧ hitLayer m px py = some g ∧ g.slot ≠ 0xFF) ∧
  (∃ (s : State), ∃ (p : Nat), (getTouch s p).enable = true ∧ (getTouch s p).stamp ≠ none ∧ passed s (getTouch s p).readAt 2000000 = true ∧ (getTouch s p).errors < 2) ∧
  (∃ (s : State), ∃ (p : Nat), (getTouch s p).enable = true ∧ (getTouch s p).stamp ≠ none ∧ passed s (getTouch s p).readAt 2000000 = true ∧ 2 ≤ (getTouch s p).errors) ∧
  (∃ (s : State), ∃ (p : Nat), (getTouch s p).enable = true ∧ (getTouch s p).stamp = none ∧ passed s (getTouch s p).readAt 500000000 = true) :=
  ⟨⟨(on (outp up fun x => { x with state := .disabled }) (hp 0x903 [fAt 16 0 3 2, fAt 16 3 1 1, fAt 18 0 7 0x20, fAt 20 0 16 3, fAt 22 0 13 36, fAt 32 0 32 65536])), ({ data := hidDesc }), (hp 0x903 [fAt 16 0 3 2, fAt 16 3 1 1, fAt 18 0 7 0x20, fAt 20 0 16 3, fAt 22 0 13 36, fAt 32 0 32 65536]), 2, _, also (by decide +kernel) ⟨by decide +kernel, by decide +kernel, by decide +kernel, ok_of (d := {}) (by decide +kernel)⟩⟩,
    ⟨(on (outp up fun x => { x with state := .disabled }) (hp 0x903 [fAt 16 0 3 2, fAt 16 3 1 1, fAt 18 0 7 0x20, fAt 20 0 16 3, fAt 22 0 13 35, fAt 32 0 32 65536])), ({ data := hidDesc.take 35 }), (hp 0x903 [fAt 16 0 3 2, fAt 16 3 1 1, fAt 18 0 7 0x20, fAt 20 0 16 3, fAt 22 0 13 35, fAt 32 0 32 65536]), 34, also (by decide +kernel) ⟨by decide +kernel, by decide +kernel, error_of (by decide +kernel)⟩⟩,
    ⟨(modTouch up 2 fun x => { x with enable := true }), 2, by decide +kernel⟩,
    ⟨(modTouch up 2 fun x => { x with enable := true, stamp := some ({ wp := ⟨5, 7, 0⟩ }) }), 2, ([0, 0, 9]), ({ wp := ⟨5, 7, 0⟩ }), by decide +kernel⟩,
    ⟨(modTouch { outp up id with comp := { up.comp with maps := [(0, [({ start := ⟨5, 0, 0⟩, layers := [({ slot := 2, owner := 0, source := 3, touch := true, x := 0, y := 0, w := 64, h := 4 })] })])] } } 2 fun x => { x with enable := true, stamp := some ({ wp := ⟨5, 7, 0⟩ }), matrix := [65536, 0, 0, 0, 65536, 0], layout := { fingers := [({ fields := [{ usage := useTip, bit := 0, width := 1 }, { usage := useId, bit := 8, width := 8 }, { usage := useX, bit := 16, width := 16 }, { usage := useY, bit := 32, width := 16 }] })] } }), _, 2, ([8, 0, 1, 4, 10, 0, 2, 0]), ({ wp := ⟨5, 7, 0⟩ }), _, ({ fields := [{ usage := useTip, bit := 0, width := 1 }, { usage := useId, bit := 8, width := 8 }, { usage := useX, bit := 16, width := 16 }, { usage := useY, bit := 32, width := 16 }] }), _, 10, 2, false, false, ({ start := ⟨5, 0, 0⟩, layers := [({ slot := 2, owner := 0, source := 3, touch := true, x := 0, y := 0, w := 64, h := 4 })] }), ({ slot := 2, owner := 0, source := 3, touch := true, x := 0, y := 0, w := 64, h := 4 }), rfl, also (by decide +kernel) (also (by decide +kernel) ⟨by decide +kernel, by decide +kernel, pair_eta, by decide +kernel⟩)⟩,
    ⟨(modTouch up 2 fun x => { x with enable := true, stamp := some {}, errors := 1 }), 2, by decide +kernel⟩,
    ⟨(modTouch up 2 fun x => { x with enable := true, stamp := some {}, errors := 2, contacts := [{ id := 4 }] }), 2, by decide +kernel⟩,
    ⟨(modTouch up 2 fun x => { x with enable := true, contacts := [{ id := 4 }] }), 2, by decide +kernel⟩⟩

/-- What Obligations.HapticChannels asks of its states can be met, clause by clause. -/
theorem test_HapticChannels :
  (∃ (s u : State), ∃ (c : Cmd), ∃ (h : Held), ∃ (n : Nat), ∃ (o : HapChan), ReadyNow s c 0x907 h ∧ checkHapticConfigure s h c = none ∧ n = pf h.pkt 16 0 3 ∧ o = getHap s n ∧ o.lib = 0 ∧ u = (if pf h.pkt 24 0 32 = 0 then s else addUser s (pf h.pkt 24 0 32))) ∧
  (∃ (s : State), ∃ (c : Cmd), ∃ (h : Held), ReadyNow s c 0x904 h ∧ checkHapticPlay s h c = none) ∧
  (∃ (s : State), ∃ (c : Cmd), ∃ (h : Held), ReadyNow s c 0x904 h ∧ checkHapticPlay s h c = some (failWith .notPermitted)) ∧
  (∃ (s u : State), ∃ (n : Nat), ∃ (x : HapChan), ∃ (p : HapPlay), ∃ (v : Int), ∃ (at_ : Nat × Nat), n < 8 ∧ x = getHap s n ∧ x.enable = true ∧ x.fault = 0 ∧ s.io.audio.sample ≠ 0 ∧ at_ = (s.io.audio.group, (s.io.audio.sample - 1) / 48) ∧ x.period ≠ some at_ ∧ x.erm = true ∧ x.next = [] ∧ x.play = some p ∧ p.pos < p.length ∧ hapSample (modHap s n fun x => { x with period := some at_ }) { x with period := some at_ } p = (u, some v)) ∧
  (∃ (s : State), ∃ (n : Nat), ∃ (x : HapChan), ∃ (at_ : Nat × Nat), n < 8 ∧ x = getHap s n ∧ x.enable = true ∧ x.fault = 0 ∧ s.io.audio.sample ≠ 0 ∧ at_ = (s.io.audio.group, (s.io.audio.sample - 1) / 48) ∧ x.period ≠ some at_ ∧ x.erm = true ∧ x.next = [] ∧ x.play = none ∧ 0 < x.brake) ∧
  (∃ (s : State), ∃ (n cause : Nat), n < 8 ∧ (getHap s n).enable = true ∧ (getHap s n).fault = 0 ∧ 1 ≤ cause ∧ cause ≤ 4 ∧ ((cause = 3 → (getHap s n).erm = false))) :=
  ⟨⟨(on up (hp 0x907 [fAt 16 0 3 2, fAt 16 3 1 1, fAt 18 0 13 2000, fAt 20 0 9 100, fAt 22 0 9 150])), _, c0, (hp 0x907 [fAt 16 0 3 2, fAt 16 3 1 1, fAt 18 0 13 2000, fAt 20 0 9 100, fAt 22 0 9 150]), 2, _, by decide +kernel, by decide +kernel, by decide +kernel, rfl, by decide +kernel, rfl⟩,
    ⟨(on (modHap lib0 2 fun x => { x with enable := true, lib := 16384 }) (hp 0x904 [fAt 16 0 8 4, fAt 17 0 6 1, fAt 18 0 8 255])), c0, (hp 0x904 [fAt 16 0 8 4, fAt 17 0 6 1, fAt 18 0 8 255]), by decide +kernel⟩,
    ⟨(on (modHap (sl1 lib0 .active) 2 fun x => { x with enable := true, lib := 16384 }) ({ hp 0x904 [fAt 16 0 8 4, fAt 17 0 6 1, fAt 18 0 8 255] with slice := 1 })), ({ slice := 1 }), ({ hp 0x904 [fAt 16 0 8 4, fAt 17 0 6 1, fAt 18 0 8 255] with slice := 1 }), by decide +kernel⟩,
    ⟨(modAudio (modHap lib0 2 fun x => { x with enable := true, erm := true, lib := 16384, ratedMv := 2000, play := some ({ offset := 64, length := 4 }) }) fun a => { a with sample := 1 }), _, 2, _, ({ offset := 64, length := 4 }), 5, _, by decide +kernel, rfl, by decide +kernel, by decide +kernel, by decide +kernel, rfl, by decide +kernel, by decide +kernel, by decide +kernel, by decide +kernel, by decide +kernel, pair_of (by decide +kernel)⟩,
    ⟨(modAudio (modHap lib0 2 fun x => { x with enable := true, erm := true, lib := 16384, ratedMv := 2000, brake := 3 }) fun a => { a with sample := 1 }), 2, _, _, by decide +kernel, rfl, by decide +kernel, by decide +kernel, by decide +kernel, rfl, by decide +kernel⟩,
    ⟨(modHap up 2 fun x => { x with enable := true }), 2, 3, by decide +kernel⟩⟩

/-- What Obligations.Sound asks of its states can be met, clause by clause. -/
theorem test_Sound :
  (∃ (s : State), ∃ (c : Cmd), ∃ (h : Held), ReadyNow s c 0x905 h ∧ audioOp h.pkt = 0 ∧ checkAudioStreamSet s h c = none) ∧
  (∃ (s : State), ∃ (c : Cmd), ∃ (h : Held), ∃ (n : Nat), ReadyNow s c 0x905 h ∧ audioOp h.pkt = 1 ∧ checkAudioStreamSet s h c = none ∧ n = pf h.pkt 17 0 5) ∧
  (∃ (s : State), ∃ (c : Cmd), ∃ (h : Held), ReadyNow s c 0x905 h ∧ audioOp h.pkt = 2 ∧ checkAudioStreamSet s h c = none) ∧
  (∃ (s : State), ∃ (c : Cmd), ∃ (h : Held), ReadyNow s c 0x905 h ∧ audioOp h.pkt = 3 ∧ checkAudioStreamSet s h c = none) ∧
  (∃ (s : State), ∃ (c : Cmd), ∃ (h : Held), ReadyNow s c 0x906 h ∧ checkTonePlay s h c = none ∧ pb h.pkt 16 3 = false) ∧
  (∃ (s : State), ∃ (c : Cmd), ∃ (h : Held), ReadyNow s c 0x906 h ∧ checkTonePlay s h c = none ∧ pb h.pkt 16 3 = true ∧ (getTone s (pf h.pkt 16 0 3)).on = true) ∧
  (∃ (s : State), s.time.running = true ∧ wpReached (now s) (nextSampleWp s) = true) ∧
  (∃ (s : State), s.time.running = true ∧ wpReached (now s) (nextSampleWp s) = false) ∧
  (∃ (s : State), 48 ≤ s.io.audio.poll ∧ ((∀ n, n < 24 → (getAud s n).space = true → (getAud s n).addr + 64 < regSpace))) :=
  ⟨⟨(on up (hp 0x905 [fAt 17 0 5 3, fAt 18 0 12 1, fAt 20 0 16 32768, fAt 24 0 64 4096, fAt 32 0 32 8192, fAt 36 0 16 480])), c0, (hp 0x905 [fAt 17 0 5 3, fAt 18 0 12 1, fAt 20 0 16 32768, fAt 24 0 64 4096, fAt 32 0 32 8192, fAt 36 0 16 480]), by decide +kernel⟩,
    ⟨(on (modAud up 3 fun x => { x with used := true, underruns := 7 }) (hp 0x905 [fAt 16 0 2 1, fAt 17 0 5 3])), c0, (hp 0x905 [fAt 16 0 2 1, fAt 17 0 5 3]), 3, by decide +kernel⟩,
    ⟨(on (modAud up 3 fun x => { x with used := true }) (hp 0x905 [fAt 16 0 2 2, fAt 17 0 5 3, fAt 20 0 16 100])), c0, (hp 0x905 [fAt 16 0 2 2, fAt 17 0 5 3, fAt 20 0 16 100]), by decide +kernel⟩,
    ⟨(on up (hp 0x905 [fAt 16 0 2 3, fAt 22 0 6 10, fAt 23 0 6 30])), c0, (hp 0x905 [fAt 16 0 2 3, fAt 22 0 6 10, fAt 23 0 6 30]), by decide +kernel⟩,
    ⟨(on up (hp 0x906 [fAt 16 0 3 2, fAt 18 0 12 1, fAt 20 0 16 1000, fAt 22 0 16 16384, fAt 24 0 16 100])), c0, (hp 0x906 [fAt 16 0 3 2, fAt 18 0 12 1, fAt 20 0 16 1000, fAt 22 0 16 16384, fAt 24 0 16 100]), by decide +kernel⟩,
    ⟨(on (modTone up 2 fun t => { t with on := true, dest := 1 }) (hp 0x906 [fAt 16 0 3 2, fAt 16 3 1 1, fAt 18 0 12 1, fAt 20 0 16 1000, fAt 22 0 16 16384, fAt 24 0 16 100])), c0, (hp 0x906 [fAt 16 0 3 2, fAt 16 3 1 1, fAt 18 0 12 1, fAt 20 0 16 1000, fAt 22 0 16 16384, fAt 24 0 16 100]), by decide +kernel⟩,
    ⟨(modAud (modAud (modTone up 2 fun t => { t with on := true, dest := 1, freq := 1000, onMs := 100, wave := 1 }) 3 fun x => { x with used := true, running := true, produced := 5, length := 8192, dest := 1 }) 4 fun x => { x with used := true, running := true, dest := 1 }), by decide +kernel⟩,
    ⟨(modAudio up fun a => { a with baseFrame := 6 }), by decide +kernel⟩,
    ⟨(modAud up 3 fun x => { x with used := true, addr := 4096, length := 8192, prefill := 2 }), by decide +kernel⟩⟩

/-- What Obligations.WeirAndGauge asks of its states can be met, clause by clause. -/
theorem test_WeirAndGauge :
  (∃ (s : State), ∃ (c : Cmd), ∃ (h : Held), ReadyNow s c 0xB01 h ∧ pb h.pkt 20 0 = false ∧ checkRuleSet s h c = none ∧ pf h.pkt 18 0 13 = 0 ∧ ruleImageBad (pf h.pkt 32 0 256) = false) ∧
  (∃ (s : State), ∃ (c : Cmd), ∃ (h : Held), ReadyNow s c 0xB01 h ∧ pb h.pkt 20 0 = false ∧ checkRuleSet s h c = none ∧ pf h.pkt 18 0 13 = 0 ∧ ruleImageBad (pf h.pkt 32 0 256) = true) ∧
  (∃ (s : State), ∃ (c : Cmd), ∃ (h : Held), ReadyNow s c 0xB01 h ∧ pb h.pkt 20 0 = false ∧ reservedZero h.pkt (ruleSetResv h.pkt) = true ∧ pf h.pkt 16 0 12 < 3072 ∧ pf h.pkt 18 0 13 = 0 ∧ pf h.pkt 24 0 64 = 0 ∧ (tget {} s.weir.rules (pf h.pkt 16 0 12)).lock = true) ∧
  (∃ (s u : State), ∃ (c : Cmd), ∃ (h : Held), ∃ (first n : Nat), ReadyNow s c 0xB01 h ∧ pb h.pkt 20 0 = true ∧ checkRuleSet s h c = none ∧ first = pf h.pkt 16 0 12 ∧ n = pf h.pkt 18 0 13 ∧ destWrite s h.slice engLock (pb h.pkt 20 1) c.ok (pf h.pkt 24 0 64) ((List.range n).flatMap fun k => bytesLE 32 (ruleBits (tget {} s.weir.rules (first + k)))) = (u, true)) ∧
  (∃ (s : State), ∃ (c : Cmd), ∃ (h : Held), ∃ (first n : Nat), ReadyNow s c 0xB05 h ∧ checkWeirLock s h c = none ∧ first = pf h.pkt 16 0 12 ∧ n = pf h.pkt 18 0 13) ∧
  (∃ (s : State), ∃ (c : Cmd), ∃ (h : Held), ReadyNow s c 0xB02 h ∧ reservedZero h.pkt [] = true ∧ c.obs.getD 0 0 = 0) ∧
  (∃ (s : State), ∃ (c : Cmd), ∃ (h : Held), ∃ (n : Nat), ReadyNow s c 0xB02 h ∧ reservedZero h.pkt [] = true ∧ n = c.obs.getD 0 0 ∧ n ≠ 0) ∧
  (∃ (s : State), ∃ (c : Cmd), ∃ (h : Held), ∃ (b : Barrier), s.weir.barriers.find? (fun b => b.key == Cmd.key c) = some b ∧ findHeld s (Cmd.key c) = some h ∧ h.slice = c.slice) ∧
  (∃ (s : State), ∃ (c : Cmd), ∃ (h : Held), ∃ (v : Violation), ReadyNow s c 0xB03 h ∧ checkViolationRead s h c = none ∧ pf h.pkt 24 0 64 = 0 ∧ s.weir.violation = some v) ∧
  (∃ (s : State), ∃ (c : Cmd), ∃ (h : Held), ReadyNow s c 0xB03 h ∧ checkViolationRead s h c = none ∧ pf h.pkt 24 0 64 = 0 ∧ s.weir.violation = none) ∧
  (∃ (s : State), ∃ (c : Cmd), ∃ (h : Held), ∃ (v : Violation), ReadyNow s c 0xB04 h ∧ reservedZero h.pkt [(24, 0, 64)] = true ∧ wpBadLine s (wpOfBits (pf h.pkt 24 0 64)) = false ∧ s.weir.violation = some v ∧ ((pf h.pkt 24 0 64 = 0 ∨ pf h.pkt 24 0 64 = v.wp))) ∧
  (∃ (s : State), ∃ (c : Cmd), ∃ (h : Held), ∃ (v : Violation), ReadyNow s c 0xB04 h ∧ reservedZero h.pkt [(24, 0, 64)] = true ∧ wpBadLine s (wpOfBits (pf h.pkt 24 0 64)) = false ∧ s.weir.violation = some v ∧ pf h.pkt 24 0 64 ≠ 0 ∧ pf h.pkt 24 0 64 ≠ v.wp) ∧
  (∃ (s : State), ∃ (c : Cmd), ∃ (h : Held), ReadyNow s c 0xB04 h ∧ wpBadLine s (wpOfBits (pf h.pkt 24 0 64)) = true) ∧
  (∃ (s : State), ∃ (c : Cmd), ∃ (h : Held), ∃ (left n : Nat), ReadyNow s c 0xA01 h ∧ checkGaugeSet s h c = none ∧ left = targetLines s h.pkt - pf h.pkt 28 0 32 ∧ (n = (if pb h.pkt 16 3 = false ∨ 2 ≤ pf h.pkt 17 0 2 then 0 else if pf h.pkt 32 0 32 = 0 then left else min (pf h.pkt 32 0 32) left))) ∧
  (∃ (s : State), ∃ (c : Cmd), ∃ (h : Held), ReadyNow s c 0xA01 h ∧ reservedZero h.pkt gaugeResv = true ∧ gaugeFieldBad h.pkt = false ∧ pb h.pkt 16 3 = true ∧ pf h.pkt 17 0 2 = 0 ∧ lookup s (pf h.pkt 20 0 32) = none) ∧
  (∃ (s u : State), ∃ (c : Cmd), ∃ (h : Held), ∃ (recs left : List GaugeRec), ReadyNow s c 0xA02 h ∧ checkGaugeRead s h c = none ∧ recs = s.gauge.fifo.take (pf h.pkt 16 0 11) ∧ left = s.gauge.fifo.drop (pf h.pkt 16 0 11) ∧ destWrite s 0 engLock (destSpace s) c.ok (pf h.pkt 24 0 64) (recs.flatMap fun r => bytesLE 32 (gaugeRecBits r)) = (u, true) ∧ u.gauge = s.gauge) ∧
  (∃ (s u : State), ∃ (c : Cmd), ∃ (h : Held), ∃ (recs left : List GaugeRec), ReadyNow s c 0xA02 h ∧ checkGaugeRead s h c = none ∧ recs = s.gauge.fifo.take (pf h.pkt 16 0 11) ∧ left = s.gauge.fifo.drop (pf h.pkt 16 0 11) ∧ destWrite s 0 engLock (destSpace s) c.ok (pf h.pkt 24 0 64) (recs.flatMap fun r => bytesLE 32 (gaugeRecBits r)) = (u, false)) :=
  ⟨⟨(on up (hp 0xB01 [fAt 16 0 12 9, fAt 32 0 256 (ruleBits { base := 0x10000, limit := 0x10001, slices := 1, engines := 3, crit := 7, read := true, enable := true })])), c0, (hp 0xB01 [fAt 16 0 12 9, fAt 32 0 256 (ruleBits { base := 0x10000, limit := 0x10001, slices := 1, engines := 3, crit := 7, read := true, enable := true })]), by decide +kernel⟩,
    ⟨(on up (hp 0xB01 [fAt 16 0 12 9, fAt 32 0 256 (ruleBits { base := 0x10002, limit := 0x10001, slices := 1, engines := 3, crit := 7, read := true, enable := true })])), c0, (hp 0xB01 [fAt 16 0 12 9, fAt 32 0 256 (ruleBits { base := 0x10002, limit := 0x10001, slices := 1, engines := 3, crit := 7, read := true, enable := true })]), by decide +kernel⟩,
    ⟨(on { up with weir := { up.weir with rules := tset {} up.weir.rules 9 { lock := true } } } (hp 0xB01 [fAt 16 0 12 9])), c0, (hp 0xB01 [fAt 16 0 12 9]), by decide +kernel⟩,
    ⟨(on up (hp 0xB01 [fAt 16 0 12 3068, fAt 18 0 13 2, fAt 20 0 1 1, fAt 24 0 64 4096])), _, c0, (hp 0xB01 [fAt 16 0 12 3068, fAt 18 0 13 2, fAt 20 0 1 1, fAt 24 0 64 4096]), 3068, 2, by decide +kernel, by decide +kernel, by decide +kernel, by decide +kernel, by decide +kernel, pair_of (by decide +kernel)⟩,
    ⟨(on up (hp 0xB05 [fAt 16 0 12 3068, fAt 18 0 13 2])), c0, (hp 0xB05 [fAt 16 0 12 3068, fAt 18 0 13 2]), 3068, 2, by decide +kernel⟩,
    ⟨(on up (hp 0xB02 [])), c0, (hp 0xB02 []), by decide +kernel⟩,
    ⟨(on up (hp 0xB02 [])), ({ obs := [3] }), (hp 0xB02 []), 3, by decide +kernel⟩,
    ⟨(on { up with weir := { up.weir with inFlight := 3, barriers := [({ waited := 3 })] } } ({ hp 0xB02 [] with phase := .committed })), c0, ({ hp 0xB02 [] with phase := .committed }), ({ waited := 3 }), by decide +kernel⟩,
    ⟨(on { up with weir := { up.weir with violation := some ({ rule := 9, count := 2, address := 4096, wp := 77 }) } } (hp 0xB03 [])), c0, (hp 0xB03 []), ({ rule := 9, count := 2, address := 4096, wp := 77 }), by decide +kernel⟩,
    ⟨(on up (hp 0xB03 [])), c0, (hp 0xB03 []), by decide +kernel⟩,
    ⟨(on { up with weir := { up.weir with violation := some ({ rule := 9, count := 2, address := 4096, wp := 77 }) } } (hp 0xB04 [fAt 24 0 64 77])), c0, (hp 0xB04 [fAt 24 0 64 77]), ({ rule := 9, count := 2, address := 4096, wp := 77 }), by decide +kernel⟩,
    ⟨(on { up with weir := { up.weir with violation := some ({ rule := 9, count := 2, address := 4096, wp := 77 }) } } (hp 0xB04 [fAt 24 0 64 78])), c0, (hp 0xB04 [fAt 24 0 64 78]), ({ rule := 9, count := 2, address := 4096, wp := 77 }), by decide +kernel⟩,
    ⟨(on up (hp 0xB04 [fAt 24 0 64 (wpBits ⟨5, 2250, 0⟩)])), c0, (hp 0xB04 [fAt 24 0 64 (wpBits ⟨5, 2250, 0⟩)]), by decide +kernel⟩,
    ⟨(on (surf up id) (hp 0xA01 [fAt 16 0 3 2, fAt 16 3 1 1, fAt 20 0 32 16384, fAt 28 0 32 2])), c0, (hp 0xA01 [fAt 16 0 3 2, fAt 16 3 1 1, fAt 20 0 32 16384, fAt 28 0 32 2]), 6, 6, by decide +kernel⟩,
    ⟨(on up (hp 0xA01 [fAt 16 0 3 2, fAt 16 3 1 1, fAt 20 0 32 16384, fAt 28 0 32 2])), c0, (hp 0xA01 [fAt 16 0 3 2, fAt 16 3 1 1, fAt 20 0 32 16384, fAt 28 0 32 2]), by decide +kernel⟩,
    ⟨(on { up with gauge := { up.gauge with fifo := [{ unit := 1, wp := 5 }, { unit := 2, wp := 6 }] } } (hp 0xA02 [fAt 16 0 11 1, fAt 24 0 64 4096])), _, c0, (hp 0xA02 [fAt 16 0 11 1, fAt 24 0 64 4096]), _, _, by decide +kernel, by decide +kernel, rfl, rfl, pair_of (by decide +kernel), by decide +kernel⟩,
    ⟨(on { up with gauge := { up.gauge with fifo := [{ unit := 1, wp := 5 }, { unit := 2, wp := 6 }] } } (hp 0xA02 [fAt 16 0 11 1, fAt 24 0 64 4096])), _, ({ ok := false }), (hp 0xA02 [fAt 16 0 11 1, fAt 24 0 64 4096]), _, _, by decide +kernel, by decide +kernel, rfl, rfl, pair_of (by decide +kernel)⟩⟩

/-- What Obligations.SliceRecords asks of its states can be met, clause by clause. -/
theorem test_SliceRecords :
  (∃ (s : State), ∃ (c : Cmd), ∃ (h : Held), ∃ (i : Nat), ReadyNow s c 0xC01 h ∧ checkSliceCreate s h c = none ∧ i = pktSlice h.pkt) ∧
  (∃ (s : State), ∃ (c : Cmd), ∃ (h : Held), ReadyNow s c 0xC01 h ∧ reservedZero h.pkt ((16, 0, 7) :: (17, 0, 2) :: shareResv) = true ∧ pf h.pkt 17 0 2 ≠ 3 ∧ shareBad (shareOf (pf h.pkt 24 0 256)) = false ∧ pktSlice h.pkt ≤ 64 ∧ pktSlice h.pkt = 0) ∧
  (∃ (s : State), ∃ (c : Cmd), ∃ (h : Held), ReadyNow s c 0xC01 h ∧ reservedZero h.pkt ((16, 0, 7) :: (17, 0, 2) :: shareResv) = true ∧ pf h.pkt 17 0 2 ≠ 3 ∧ shareBad (shareOf (pf h.pkt 24 0 256)) = false ∧ pktSlice h.pkt ≤ 64 ∧ pktSlice h.pkt ≠ 0 ∧ (getSlice s (pktSlice h.pkt)).state ≠ .free) ∧
  (∃ (s : State), ∃ (c : Cmd), ∃ (h : Held), ReadyNow s c 0xC01 h ∧ reservedZero h.pkt ((16, 0, 7) :: (17, 0, 2) :: shareResv) = true ∧ pf h.pkt 17 0 2 ≠ 3 ∧ shareBad (shareOf (pf h.pkt 24 0 256)) = false ∧ pktSlice h.pkt ≤ 64 ∧ pktSlice h.pkt ≠ 0 ∧ (getSlice s (pktSlice h.pkt)).state = .free ∧ sharesFit s (pktSlice h.pkt) (shareOf (pf h.pkt 24 0 256)) = false) ∧
  (∃ (s : State), ∃ (c : Cmd), ∃ (h : Held), ∃ (i : Nat), ReadyNow s c 0xC02 h ∧ checkBindPasid s h c = none ∧ i = pktSlice h.pkt) ∧
  (∃ (s : State), ∃ (c : Cmd), ∃ (h : Held), ∃ (i : Nat), ReadyNow s c 0xC03 h ∧ checkSetShare s h c = none ∧ i = pktSlice h.pkt) ∧
  (∃ (s : State), ∃ (c : Cmd), ∃ (h : Held), ∃ (i : Nat), ReadyNow s c 0xC0A h ∧ checkThaw s h c = none ∧ i = pktSlice h.pkt ∧ (getSlice s i).state = .quiesced ∧ (∀ l ∈ s.migr.held, l.slice ≠ i)) ∧
  (∃ (s : State), ∃ (c : Cmd), ∃ (h : Held), ∃ (i : Nat), ReadyNow s c 0xC0A h ∧ checkThaw s h c = none ∧ i = pktSlice h.pkt ∧ (getSlice s i).state = .frozen ∧ s.media.ctxs = [] ∧ s.media.sessions = [] ∧ (∃ l ∈ s.migr.held, l.slice = i)) ∧
  (∃ (s : State), ∃ (c : Cmd), ∃ (h : Held), ∃ (i : Nat), ReadyNow s c 0xC0B h ∧ checkQuery s h c = none ∧ i = pktSlice h.pkt ∧ pf h.pkt 24 0 64 = 0) :=
  ⟨⟨(on up (hp 0xC01 [fAt 16 0 7 1, fAt 17 0 2 1, fAt 24 0 256 share1])), c0, (hp 0xC01 [fAt 16 0 7 1, fAt 17 0 2 1, fAt 24 0 256 share1]), 1, by decide +kernel⟩,
    ⟨(on up (hp 0xC01 [fAt 17 0 2 1, fAt 24 0 256 share1])), c0, (hp 0xC01 [fAt 17 0 2 1, fAt 24 0 256 share1]), by decide +kernel⟩,
    ⟨(on (sl1 up .active) (hp 0xC01 [fAt 16 0 7 1, fAt 17 0 2 1, fAt 24 0 256 share1])), c0, (hp 0xC01 [fAt 16 0 7 1, fAt 17 0 2 1, fAt 24 0 256 share1]), by decide +kernel⟩,
    ⟨(on (modSlice up 2 fun _ => { state := .active, share := { decodeCtx := 256 } }) (hp 0xC01 [fAt 16 0 7 1, fAt 17 0 2 1, fAt 24 0 256 share1])), c0, (hp 0xC01 [fAt 16 0 7 1, fAt 17 0 2 1, fAt 24 0 256 share1]), by decide +kernel⟩,
    ⟨(on (sl1 up .created) (hp 0xC02 [fAt 16 0 7 1, fAt 20 0 20 9])), c0, (hp 0xC02 [fAt 16 0 7 1, fAt 20 0 20 9]), 1, by decide +kernel⟩,
    ⟨(on (sl1 up .active) (hp 0xC03 [fAt 16 0 7 1, fAt 24 0 256 share1])), c0, (hp 0xC03 [fAt 16 0 7 1, fAt 24 0 256 share1]), 1, by decide +kernel⟩,
    ⟨(on (sl1 up .quiesced) (hp 0xC0A [fAt 16 0 7 1])), c0, (hp 0xC0A [fAt 16 0 7 1]), 1, by decide +kernel⟩,
    ⟨(on { sl1 up .frozen with migr := { up.migr with held := [{ slice := 1 }] } } (hp 0xC0A [fAt 16 0 7 1])), c0, (hp 0xC0A [fAt 16 0 7 1]), 1, by decide +kernel⟩,
    ⟨(on (sl1 up .active) (hp 0xC0B [fAt 16 0 7 1])), c0, (hp 0xC0B [fAt 16 0 7 1]), 1, by decide +kernel⟩⟩

/-- What Obligations.SliceEnds asks of its states can be met, clause by clause. -/
theorem test_SliceEnds :
  (∃ (s : State), ∃ (c : Cmd), ∃ (h : Held), ∃ (i : Nat), ReadyNow s c 0xC04 h ∧ checkQuiesce s h c = none ∧ i = pktSlice h.pkt ∧ c.slice = 0 ∧ (∀ x ∈ (getRings s i).held, x.phase ≠ .armed)) ∧
  (∃ (s : State), ∃ (c : Cmd), ∃ (h : Held), ∃ (i : Nat), ReadyNow s c 0xC04 h ∧ checkQuiesce s h c = none ∧ i = pktSlice h.pkt ∧ c.slice = 0 ∧ (∀ x ∈ (getRings s i).held, x.slice = i)) ∧
  (∃ (s : State), ∃ (c : Cmd), ∃ (h : Held), ∃ (i : Nat), ReadyNow s c 0xC07 h ∧ checkFreeze s h c = none ∧ i = pktSlice h.pkt ∧ c.slice = 0 ∧ (∀ x ∈ (getRings s i).held, x.phase ≠ .armed) ∧ s.media.sessions = []) ∧
  (∃ (s : State), ∃ (i : Nat), ∃ (w : SliceWait), ∃ (h : Held), (getSlice s i).state = .quiescing ∧ (getRings s i).held = [] ∧ engineJobs s i false = 0 ∧ (getSlice s i).waits = [w] ∧ w.freeze = false ∧ findHeld s w.key = some h ∧ h.slice = w.key.slice) ∧
  (∃ (s : State), ∃ (i : Nat), ∃ (w : SliceWait), ∃ (h : Held), (getSlice s i).state = .freezing ∧ (getRings s i).held = [] ∧ engineJobs s i true = 0 ∧ (getSlice s i).waits = [w] ∧ w.freeze = true ∧ findHeld s w.key = some h ∧ h.slice = w.key.slice) ∧
  (∃ (s : State), ∃ (i : Nat), (getRings s i).held ≠ []) ∧
  (∃ (s : State), ∃ (c : Cmd), ∃ (h : Held), ∃ (i : Nat), ∃ (w : SliceWait), (List.range 65).findSome? (fun i => ((getSlice s i).waits.find? fun w => w.key == Cmd.key c).map fun w => (i, w)) = some (i, w) ∧ w.timeout ≤ frameDiff (now s).frame w.startFrame ∧ findHeld s (Cmd.key c) = some h ∧ h.slice = c.slice) ∧
  (∃ (s : State), ∃ (c : Cmd), ∃ (h : Held), ∃ (i : Nat), ReadyNow s c 0xC05 h ∧ checkSliceEnd [.quiesced, .frozen] s h c = none ∧ i = pktSlice h.pkt ∧ c.slice = 0) ∧
  (∃ (s : State), ∃ (c : Cmd), ∃ (h : Held), ReadyNow s c 0xC05 h ∧ reservedZero h.pkt [(16, 0, 7), (17, 0, 1)] = true ∧ pktSlice h.pkt ≤ 64 ∧ pktSlice h.pkt ≠ 0 ∧ (getSlice s (pktSlice h.pkt)).state = .active ∧ pb h.pkt 17 0 = false) ∧
  (∃ (s : State), ∃ (c : Cmd), ∃ (h : Held), ∃ (i : Nat), ReadyNow s c 0xC06 h ∧ checkSliceEnd [.created, .quiesced, .frozen] s h c = none ∧ i = pktSlice h.pkt ∧ c.slice = 0) ∧
  (∃ (s : State), ∃ (i : Nat), (getSlice s i).orphans = 0) ∧
  (∃ (s : State), ∃ (i : Nat), ∃ (e : EncOrphan), s.media.ctxs = [] ∧ s.media.encOrphans = [e] ∧ e.slice = i ∧ e.surfs = [] ∧ 2 ≤ (getSlice s i).orphans) ∧
  (∃ (s : State), ∃ (i : Nat), ∃ (e : EncOrphan), s.media.ctxs = [] ∧ s.media.encOrphans = [e] ∧ e.slice = i ∧ e.surfs = [] ∧ (getSlice s i).orphans = 1 ∧ (getSlice s i).state = .draining ∧ e.at_ + 100 ≤ uptimeMs s) ∧
  (∃ (s : State), s.media.ctxs = [] ∧ s.sluice.writes = [] ∧ (∀ e ∈ s.media.encOrphans, uptimeMs s < e.at_ + 100)) :=
  ⟨⟨(on (sl1 up .active) (hp 0xC04 [fAt 16 0 7 1, fAt 17 0 8 3])), c0, (hp 0xC04 [fAt 16 0 7 1, fAt 17 0 8 3]), 1, by decide +kernel⟩,
    ⟨(modRings (on (sl1 up .active) (hp 0xC04 [fAt 16 0 7 1, fAt 17 0 8 3])) 1 fun r => { r with held := [{ hp 0x203 [] with slice := 1, phase := .armed }] }), c0, (hp 0xC04 [fAt 16 0 7 1, fAt 17 0 8 3]), 1, by decide +kernel⟩,
    ⟨(on (sl1 up .active) (hp 0xC07 [fAt 16 0 7 1, fAt 17 0 8 3])), c0, (hp 0xC07 [fAt 16 0 7 1, fAt 17 0 8 3]), 1, by decide +kernel⟩,
    ⟨(on (modSlice (sl1 up .quiescing) 1 fun x => { x with waits := [({ timeout := 3 })] }) ({ hp 0xC04 [fAt 16 0 7 1, fAt 17 0 8 3] with phase := .deferred })), 1, ({ timeout := 3 }), ({ hp 0xC04 [fAt 16 0 7 1, fAt 17 0 8 3] with phase := .deferred }), by decide +kernel⟩,
    ⟨(on (modSlice (sl1 up .freezing) 1 fun x => { x with waits := [({ timeout := 3, freeze := true })] }) ({ hp 0xC07 [fAt 16 0 7 1, fAt 17 0 8 3] with phase := .deferred })), 1, ({ timeout := 3, freeze := true }), ({ hp 0xC07 [fAt 16 0 7 1, fAt 17 0 8 3] with phase := .deferred }), by decide +kernel⟩,
    ⟨(modRings (sl1 up .quiescing) 1 fun r => { r with held := [{ hp 0x203 [] with slice := 1 }] }), 1, by decide +kernel⟩,
    ⟨(on (modSlice (sl1 up .quiescing) 1 fun x => { x with waits := [({ timeout := 3, startFrame := 2 })] }) ({ hp 0xC04 [fAt 16 0 7 1, fAt 17 0 8 3] with phase := .deferred })), c0, ({ hp 0xC04 [fAt 16 0 7 1, fAt 17 0 8 3] with phase := .deferred }), 1, ({ timeout := 3, startFrame := 2 }), by decide +kernel⟩,
    ⟨(on (sl1 up .quiesced) (hp 0xC05 [fAt 16 0 7 1])), c0, (hp 0xC05 [fAt 16 0 7 1]), 1, by decide +kernel⟩,
    ⟨(on (sl1 up .active) (hp 0xC05 [fAt 16 0 7 1])), c0, (hp 0xC05 [fAt 16 0 7 1]), by decide +kernel⟩,
    ⟨(on (sl1 up .created) (hp 0xC06 [fAt 16 0 7 1])), c0, (hp 0xC06 [fAt 16 0 7 1]), 1, by decide +kernel⟩,
    ⟨(sl1 up .active), 1, by decide +kernel⟩,
    ⟨(modSlice { sl1 up .active with media := { up.media with encOrphans := [({ slice := 1 })] } } 1 fun x => { x with orphans := 2 }), 1, ({ slice := 1 }), by decide +kernel⟩,
    ⟨(modSlice { sl1 up .draining with media := { up.media with encOrphans := [({ slice := 1 })] } } 1 fun x => { x with orphans := 1 }), 1, ({ slice := 1 }), by decide +kernel⟩,
    ⟨(sl1 up .draining), by decide +kernel⟩⟩

/-- What Obligations.SliceMigration asks of its states can be met, clause by clause. -/
theorem test_SliceMigration :
  (∃ (s : State), ∃ (c : Cmd), ∃ (h : Held), ∃ (i n : Nat), ∃ (body : List Byte), ReadyNow s c 0xC08 h ∧ checkSliceSave s h c = none ∧ i = pktSlice h.pkt ∧ pb h.pkt 17 0 = false ∧ body = imageBody s i false ∧ n = (body.length + 4095) / 4096) ∧
  (∃ (s : State), ∃ (c : Cmd), ∃ (j : SaveJob), s.migr.saves.find? (fun j => j.key == Cmd.key c) = some j ∧ j.blocks.length ≠ j.count) ∧
  (∃ (s u : State), ∃ (c : Cmd), ∃ (h : Held), ∃ (j : SaveJob), ∃ (body : List Byte), s.migr.saves.find? (fun j => j.key == Cmd.key c) = some j ∧ findHeld s (Cmd.key c) = some h ∧ h.slice = c.slice ∧ j.blocks.length = j.count ∧ body = packBody ((List.range j.count).map (tget [] j.blocks)) ∧ u = { s with migr := { s.migr with saves := s.migr.saves.filter fun x => x.key != Cmd.key c } } ∧ j.maxLength < 64 + body.length) ∧
  (∃ (s u : State), ∃ (c : Cmd), ∃ (h : Held), ∃ (j : SaveJob), ∃ (serial : Nat), ∃ (body : List Byte), s.migr.saves.find? (fun j => j.key == Cmd.key c) = some j ∧ findHeld s (Cmd.key c) = some h ∧ h.slice = c.slice ∧ j.blocks.length = j.count ∧ body = packBody ((List.range j.count).map (tget [] j.blocks)) ∧ u = { s with migr := { s.migr with saves := s.migr.saves.filter fun x => x.key != Cmd.key c } } ∧ 64 + body.length ≤ j.maxLength ∧ serial = ((getSlice s j.slice).saveSerial + 1) % 2 ^ 32 ∧ s.regs.headless = false ∧ c.ok = true) ∧
  (∃ (s : State), ∃ (c : Cmd), ∃ (h : Held), ∃ (m : ImgHead), ReadyNow s c 0xC09 h ∧ checkSliceRestore s h c = none ∧ s.regs.headless = false ∧ c.ok = true ∧ c.data.length = 64 ∧ readHead s c.data = some m ∧ restorable s m = true) ∧
  (∃ (s u : State), ∃ (c : Cmd), ∃ (h : Held), ∃ (j : RestoreJob), s.migr.restores.find? (fun j => j.key == Cmd.key c) = some j ∧ j.key = Cmd.key c ∧ findHeld s (Cmd.key c) = some h ∧ h.slice = c.slice ∧ u = { s with migr := { s.migr with restores := s.migr.restores.filter fun x => x.key != Cmd.key c } } ∧ s.regs.headless = false ∧ c.ok = true ∧ c.data.length = pf h.pkt 32 0 64 ∧ readHead s c.data = none ∧ j.slice = none) ∧
  (∃ (s u : State), ∃ (c : Cmd), ∃ (h : Held), ∃ (j : RestoreJob), ∃ (i : Nat), s.migr.restores.find? (fun j => j.key == Cmd.key c) = some j ∧ j.key = Cmd.key c ∧ findHeld s (Cmd.key c) = some h ∧ h.slice = c.slice ∧ u = { s with migr := { s.migr with restores := s.migr.restores.filter fun x => x.key != Cmd.key c } } ∧ s.regs.headless = false ∧ c.ok = true ∧ c.data.length = pf h.pkt 32 0 64 ∧ readHead s c.data = none ∧ j.slice = some i ∧ j.byRef = true ∧ (getSlice s i).state = .restoring) ∧
  (∃ (s u t' : State), ∃ (c : Cmd), ∃ (h g : Held), ∃ (j : RestoreJob), ∃ (m : ImgHead), ∃ (b : Image), s.migr.restores.find? (fun j => j.key == Cmd.key c) = some j ∧ j.key = Cmd.key c ∧ findHeld s (Cmd.key c) = some h ∧ u = { s with migr := { s.migr with restores := s.migr.restores.filter fun x => x.key != Cmd.key c } } ∧ s.regs.headless = false ∧ c.ok = true ∧ c.data.length = pf h.pkt 32 0 64 ∧ readHead u c.data = some m ∧ readBody m.slice c.data = .ok b ∧ serialOk u m = true ∧ j.slice = some m.slice ∧ j.byRef = !m.content ∧ applyImage h.pkt m b u = .ok t' ∧ (getSlice t' m.slice).state = .restoring ∧ findHeld t' (Cmd.key c) = some g ∧ g.slice = c.slice) :=
  ⟨⟨(on (sl1 up .frozen) (hp 0xC08 [fAt 16 0 7 1, fAt 24 0 64 4096, fAt 32 0 64 65536])), c0, (hp 0xC08 [fAt 16 0 7 1, fAt 24 0 64 4096, fAt 32 0 64 65536]), 1, (((imageBody (on (sl1 up .frozen) (hp 0xC08 [fAt 16 0 7 1, fAt 24 0 64 4096, fAt 32 0 64 65536])) 1 false).length + 4095) / 4096), _, by decide +kernel, by decide +kernel, by decide +kernel, by decide +kernel, rfl, by decide +kernel⟩,
    ⟨({ up with migr := { up.migr with saves := [({ key := {}, slice := 1, count := 1, maxLength := 65536, dest := 4096 })] } }), c0, ({ key := {}, slice := 1, count := 1, maxLength := 65536, dest := 4096 }), by decide +kernel⟩,
    ⟨(on { sl1 up .frozen with migr := { up.migr with saves := [({ slice := 1, blocks := [(0, [1, 2, 3])], count := 1, maxLength := 4159 })] } } ({ hp 0xC08 [fAt 16 0 7 1] with phase := .deferred })), _, c0, ({ hp 0xC08 [fAt 16 0 7 1] with phase := .deferred }), ({ slice := 1, blocks := [(0, [1, 2, 3])], count := 1, maxLength := 4159 }), _, by decide +kernel, by decide +kernel, by decide +kernel, by decide +kernel, rfl, rfl, by decide +kernel⟩,
    ⟨(on { sl1 up .frozen with migr := { up.migr with saves := [({ slice := 1, blocks := [(0, [1, 2, 3])], count := 1, maxLength := 4160 })] } } ({ hp 0xC08 [fAt 16 0 7 1] with phase := .deferred })), _, c0, ({ hp 0xC08 [fAt 16 0 7 1] with phase := .deferred }), ({ slice := 1, blocks := [(0, [1, 2, 3])], count := 1, maxLength := 4160 }), 1, _, by decide +kernel, by decide +kernel, by decide +kernel, by decide +kernel, rfl, rfl, by decide +kernel⟩,
    ⟨(on up (hp 0xC09 [fAt 24 0 64 4096, fAt 32 0 64 4160])), ({ data := head1 4096 0 }), (hp 0xC09 [fAt 24 0 64 4096, fAt 32 0 64 4160]), ({ slice := 1, content := true }), by decide +kernel⟩,
    ⟨(on { up with migr := { up.migr with restores := [({})] } } ({ hp 0xC09 [fAt 24 0 64 4096, fAt 32 0 64 64] with phase := .deferred })), _, ({ data := List.replicate 64 0 }), ({ hp 0xC09 [fAt 24 0 64 4096, fAt 32 0 64 64] with phase := .deferred }), ({}), by decide +kernel, by decide +kernel, by decide +kernel, by decide +kernel, rfl, by decide +kernel⟩,
    ⟨(on { sl1 up .restoring with migr := { up.migr with restores := [({ slice := some 1, byRef := true })] } } ({ hp 0xC09 [fAt 24 0 64 4096, fAt 32 0 64 64] with phase := .deferred })), _, ({ data := List.replicate 64 0 }), ({ hp 0xC09 [fAt 24 0 64 4096, fAt 32 0 64 64] with phase := .deferred }), ({ slice := some 1, byRef := true }), 1, by decide +kernel, by decide +kernel, by decide +kernel, by decide +kernel, rfl, by decide +kernel⟩,
    ⟨(on { sl1 up .restoring with migr := { up.migr with restores := [({ slice := some 1 })] } } ({ hp 0xC09 [fAt 24 0 64 4096, fAt 32 0 64 4160] with phase := .deferred })), _, _, ({ data := image1 }), ({ hp 0xC09 [fAt 24 0 64 4096, fAt 32 0 64 4160] with phase := .deferred }), (({ hp 0xC09 [fAt 24 0 64 4096, fAt 32 0 64 4160] with phase := .deferred })), ({ slice := some 1 }), (({ slice := 1, content := true } : ImgHead)), held1, by decide +kernel, by decide +kernel, by decide +kernel, rfl, by decide +kernel, by decide +kernel, image1_len.trans (by decide +kernel), image1_head _ (by decide +kernel), image1_body, by decide +kernel, by decide +kernel, by decide +kernel, ok_of (d := up) (by decide +kernel), by decide +kernel⟩⟩

/-- What Obligations.PacketsCheckedAndArmed asks of its states can be met, clause by clause. -/
theorem test_PacketsCheckedAndArmed :
  (∃ r ∈ timedRows ++ storeRows ++ timeRows ++ serviceRows, ∃ (s : State), ∃ (c : Cmd), ∃ (h : Held), ∃ (f : Fail), Ready s c r.op h ∧ r.form h = true ∧ r.check s h c = some f) ∧
  (∃ r ∈ timedRows, ∃ (s : State), ∃ (c : Cmd), ∃ (h : Held), Ready s c r.op h ∧ r.form h = true ∧ r.check s h c = none ∧ pktTimed h.pkt = true ∧ armedCount s h.slice < 64) ∧
  (∃ r ∈ timedRows, ∃ (s : State), ∃ (c : Cmd), ∃ (h : Held), Ready s c r.op h ∧ r.form h = true ∧ r.check s h c = none ∧ pktTimed h.pkt = true ∧ 64 ≤ armedCount s h.slice) ∧
  (∃ r ∈ timedRows ++ storeRows ++ timeRows ++ serviceRows, ∃ (s : State), ∃ (c : Cmd), findHeld s (Cmd.key c) = none) ∧
  (∃ (s : State), ∃ (c : Cmd), ∃ (h : Held), ReadyNow s c 0x000 h ∧ checkNop s h c = none) :=
  ⟨⟨_, .head _, (on up (hp 0x302 [])), c0, (hp 0x302 []), (((checkOutputEnable (on up (hp 0x302 [])) (hp 0x302 []) {}).getD (failWith .ok))), by decide +kernel⟩,
    ⟨_, .head _, (on (outp up fun x => { x with state := .disabled }) (hp 0x302 [fAt 1 6 1 1, fAt 8 0 64 (wpBits ⟨9, 0, 0⟩)])), c0, (hp 0x302 [fAt 1 6 1 1, fAt 8 0 64 (wpBits ⟨9, 0, 0⟩)]), by decide +kernel⟩,
    ⟨_, .head _, (modRings (outp up fun x => { x with state := .disabled }) 0 fun r => { r with held := (hp 0x302 [fAt 1 6 1 1, fAt 8 0 64 (wpBits ⟨9, 0, 0⟩)]) :: (List.range 64).map fun i => { (hp 0x302 [fAt 1 6 1 1, fAt 8 0 64 (wpBits ⟨9, 0, 0⟩)]) with index := i + 1, phase := .armed } }), c0, (hp 0x302 [fAt 1 6 1 1, fAt 8 0 64 (wpBits ⟨9, 0, 0⟩)]), by decide +kernel⟩,
    ⟨_, .head _, up, c0, by decide +kernel⟩,
    ⟨(on up (hp 0x000 [])), c0, (hp 0x000 []), by decide +kernel⟩⟩

/-- What Obligations.WallTimingAfterReset asks of its states can be met. -/
theorem test_WallTimingAfterReset :
  ∃ (s : State), s.power.inRange = true ∧ s.regs.rst = false ∧ s.boot.state ≠ .thermalTrip ∧ s.time.running = false :=
  ⟨({ State.reset with power := { State.reset.power with inRange := true } }), by decide +kernel⟩

/-- What Obligations.SourceAge asks of its states can be met, clause by clause. -/
theorem test_SourceAge :
  (∃ (lines : Nat), ∃ (o : LineWp), ∃ (w : Wp), w.frame < 2 ^ 32 ∧ o.frame ≤ w.frame ∧ w.frame < o.frame + 2 ^ 31 ∧ o.frame * lines + o.line ≤ w.frame * lines + w.line) ∧
  (∃ (s : State), ∃ (i : Nat), ∃ (o : LineWp), let w : Wp := { now s with tick := 0 }; let x := getEntry (takeReports s) i; s.time.running = true ∧ s.ledger.evalAt ≠ some (lineOf w) ∧ s.ledger.sets = [] ∧ i ∈ entryIds s ∧ x.valid = true ∧ x.inp.withdrawn = false ∧ x.inp.unfit = false ∧ x.static = false ∧ x.inp.arrived = true ∧ hasUpstream x = false ∧ x.origin = some o ∧ o.frame ≤ w.frame ∧ w.frame < o.frame + 2 ^ 31 ∧ o.frame * wallLines s + o.line ≤ w.frame * wallLines s + w.line) :=
  ⟨⟨2250, (⟨4, 7⟩), (⟨5, 3, 9⟩), by decide +kernel⟩,
    ⟨(modEntry up 3 fun e => { e with valid := true, period := 4, deadline := 8, origin := some ⟨5, 1⟩, inp := { e.inp with arrived := true } }), 3, (⟨5, 1⟩), by decide +kernel⟩⟩

/-- What Obligations.PoisonedUnits asks of its states can be met, clause by clause. -/
theorem test_PoisonedUnits :
  (∃ (addr : Nat), addr < storeEnd) ∧
  (∃ (s : State), ∃ (pc : Nat), ∃ (reqs : List MemReq), ∃ (r : MemReq), ∃ (p : PseudoChannel), pc < 32 ∧ arbitrate s (tget {} s.store.pcs pc) (pendingAt pc reqs) = some (r, p) ∧ r.write = true ∧ r.handle = 0 ∧ reqDenied s r = none ∧ r.data.length = r.length ∧ r.addr + r.length ≤ storeEnd) ∧
  (∃ (a : Nat), ∃ (l : List Byte), a + l.length ≤ storeEnd) :=
  ⟨⟨0x10000100, by decide +kernel⟩,
    ⟨({ up with store := { up.store with poison := [(0x100000, true)] } }), 1, ([({ requester := .host 0, write := true, addr := 0x10000000, length := 256, data := List.replicate 256 7 })]), ({ requester := .host 0, write := true, addr := 0x10000000, length := 256, data := List.replicate 256 7 }), (((arbitrate ({ up with store := { up.store with poison := [(0x100000, true)] } }) {} [({ requester := .host 0, write := true, addr := 0x10000000, length := 256, data := List.replicate 256 7 })]).map Prod.snd).getD {}), by decide +kernel⟩,
    ⟨0x10000000, (List.replicate 256 7), by decide +kernel⟩⟩

/-- What Obligations.EveryStepKeepsMemoryCanonical asks of its states can be met. -/
theorem test_EveryStepKeepsMemoryCanonical :
  ∃ (s t : State), MemInv s ∧ step s = .next t :=
  ⟨up, _, by decide +kernel, rfl⟩

/-- What Obligations.FabricPacketsRead asks of its states can be met. -/
theorem test_FabricPacketsRead :
  ∃ (p : Pkt), p.dest < 4096 ∧ p.src < 4096 ∧ p.vc < 4 ∧ p.kind < 64 ∧ p.hops < 256 ∧ p.seq < 65536 ∧ p.exportId < 4096 ∧ p.line < 2 ^ 32 ∧ p.complete < 2 ^ 64 ∧ p.frameSeq < 65536 ∧ p.payload.length < 2 ^ 32 :=
  ⟨({ dest := 4095, src := 9, vc := 2, kind := 63, hops := 255, lost := true, chroma := true, seq := 65535, exportId := 4095, line := 5, complete := 77, frameSeq := 65535, payload := [1, 2, 3] }), by decide +kernel⟩

/-- What Obligations.SluiceBlocksRead asks of its states can be met. -/
theorem test_SluiceBlocksRead :
  ∃ (index : Nat), ∃ (forceRaw : Bool), ∃ (last : Option Nat), ∃ (raw : List Byte), ∃ (size : Nat), index < 2 ^ 32 ∧ 1 ≤ raw.length ∧ raw.length ≤ 4096 ∧ ((∀ n, last = some n → 1 ≤ n ∧ n ≤ 4096)) ∧ ((size = 0 ∨ size = (encodeBlock index forceRaw last raw).length)) :=
  ⟨3, false, (some 9), ([1, 2, 3, 1, 2, 3, 1, 2, 3]), 0, by decide +kernel⟩

end Sys2Proof.Tests
end

section
/-! The age of a source (R10, R16): what a wall line start does to a ledger entry, from its evaluation to the publication at the next line start, and what LATE and STALE are judged on. -/
namespace Sys2Proof.Machine
open Sys2Proof

/-! Folds over the state. -/

/-- A fold in which every step keeps `P`, the step of one member `x` brings `Q`, and no other step takes `Q` away. The list may name `x` more than once. -/
theorem forEach_brings {α : Type} {P Q : State → Prop} {f : α → State → State} {x : α} (keepsP : ∀ a s, P s → P (f a s))
    (brings : ∀ s, P s → Q (f x s)) (keepsQ : ∀ a s, x ≠ a → Q s → Q (f a s)) {l : List α} {s : State} (hx : x ∈ l) (hp : P s) :
    P (forEach l f s) ∧ Q (forEach l f s) := by
  have keeps : ∀ a s, P s ∧ Q s → P (f a s) ∧ Q (f a s) := by
    rintro a s ⟨hp, hq⟩
    by_cases ha : x = a
    · subst ha
      exact ⟨keepsP x s hp, brings s hp⟩
    · exact ⟨keepsP a s hp, keepsQ a s ha hq⟩
  induction l generalizing s with
  | nil => exact absurd hx (by simp)
  | cons a l ih =>
    rcases List.mem_cons.1 hx with rfl | hx
    · exact forEach_keeps (fun s => P s ∧ Q s) l f (f x s) keeps ⟨keepsP x s hp, brings s hp⟩
    · exact ih hx (keepsP a s hp)

/-- A change that quiet does not see leaves the ledger. -/
theorem ledger_of_quiet {s t : State} (h : quiet t = quiet s) : t.ledger = s.ledger := quiet_eq (·.ledger) quiet_ledger h

@[simp] theorem postEvent_ledger (s : State) (i b : Nat) : (postEvent s i b).ledger = s.ledger := ledger_of_quiet (quiet_postEvent s i b)
@[simp] theorem raiseEntry_ledger (s : State) (e : Nat) : (raiseEntry s e).ledger = s.ledger := ledger_of_quiet (quiet_raiseEntry s e)
@[simp] theorem routePkt_ledger (s : State) (a : Option Nat) (p : Pkt) : (routePkt s a p).ledger = s.ledger := ledger_of_quiet (quiet_routePkt s a p)
@[simp] theorem defer_ledger (s : State) (h : Held) (f : List Field) : (defer s h f).ledger = s.ledger := ledger_of_quiet (quiet_defer s h f)
@[simp] theorem finishKey_ledger (s : State) (k : CmdKey) (st : Status) (w : Nat) (f : List Field) : (finishKey s k st w f).ledger = s.ledger :=
  ledger_of_quiet (quiet_finishKey s k st w f)

/-! Entries of the ledger. -/

/-- An index whose value is not the default is listed. -/
theorem mem_keys_of_tget_ne {α : Type} (d : α) (i : Nat) : ∀ t : Tab α, tget d t i ≠ d → i ∈ t.map Prod.fst
  | [], h => absurd rfl h
  | (k, v) :: r, h => by
    by_cases hk : i = k
    · simp [hk]
    · simp only [tget, if_neg hk] at h
      exact List.mem_cons_of_mem _ (mem_keys_of_tget_ne d i r h)

/-- A VALID entry is in use. -/
theorem mem_entryIds_of_valid {s : State} {i : Nat} (h : (getEntry s i).valid = true) : i ∈ entryIds s :=
  mem_keys_of_tget_ne {} i s.ledger.entries fun e => by
    rw [show getEntry s i = {} from e] at h; cases h

/-- The STATE that an entry has once what has been computed for it is published (R19). -/
def dueState (e : LedgerEntry) : LState := match e.inp.computed with
  | some (r, _) => r
  | none => e.state

/-! The evaluation of a wall line start (R15 to R18). -/

/-- An entry whose proving restarts and of which Stillwater forgets what it saw (R18, R218). -/
def restarted (e : LedgerEntry) : LedgerEntry := { e with proven := 0, inp := { e.inp with frozen := false } }

@[simp] theorem getEntry_clearStill (s : State) (i j : Nat) :
    getEntry (clearStill s i) j =
      if j = i then { getEntry s i with inp := { (getEntry s i).inp with frozen := false } } else getEntry s j :=
  getEntry_modEntry _ i j _

/-- The results that restart proving are those of rank 6 and above (R14, R18). -/
theorem restartsProving_iff (x : LState) : restartsProving x = true ↔ 6 ≤ stateRank x := by
  cases x <;> decide

/-- R10's age of an entry at a line: from its ORIGIN_WP, 0 when it never was set. -/
def ageAt (lines : Nat) (e : LedgerEntry) (w : Wp) : Nat := match e.origin with
  | some o => linesBetween lines o w
  | none => 0

theorem ageAt_of_origin {lines : Nat} {e : LedgerEntry} {w : Wp} {o : LineWp} (h : e.origin = some o) :
    ageAt lines e w = linesBetween lines o w := by simp only [ageAt, h]

/-- The result of R15's function for an entry that is not above its DEADLINE. -/
def inTime (age : Nat) (e : LedgerEntry) : LState :=
  if e.inp.concealed then .concealed else if e.inp.damaged then .degraded else if e.inp.frozen then .frozen
  else if e.changeBound ∧ e.proven < 3 then .unproven
  else if e.period + e.period / 2 < age then .late else .live

/-- R15's function with the result `x` for an entry that is not above its DEADLINE. -/
def judged (age : Nat) (e : LedgerEntry) (x : LState) : LState :=
  if e.inp.withdrawn then .withdrawn else if e.inp.unfit then .unfit else if e.static then .notTracked else if !e.inp.arrived then .unproven
  else if e.deadline < age then .stale else x

theorem evaluate_eq (lines : Nat) (e : LedgerEntry) (w : Wp) :
    evaluate lines e w = judged (ageAt lines e w) e (inTime (ageAt lines e w) e) := rfl

theorem stateRank_inTime (age : Nat) (e : LedgerEntry) : stateRank (inTime age e) < 6 := by
  unfold inTime
  split_ifs <;> decide

/-- Either an earlier step of R15's function decides, or the result in time does. -/
theorem judged_cases (age : Nat) (e : LedgerEntry) : (∃ r, ∀ x, judged age e x = r) ∨ ∀ x, judged age e x = x := by
  unfold judged
  split_ifs
  iterate 5 exact .inl ⟨_, fun _ => rfl⟩
  exact .inr fun _ => rfl

/-- A restart leaves the local result, or both are below the results that restart proving. -/
theorem evaluate_restarted (lines : Nat) (e : LedgerEntry) (w : Wp) :
    evaluate lines (restarted e) w = evaluate lines e w ∨
      stateRank (evaluate lines (restarted e) w) < 6 ∧ stateRank (evaluate lines e w) < 6 := by
  have hjudged : ∀ x, judged (ageAt lines e w) (restarted e) x = judged (ageAt lines e w) e x := fun _ => rfl
  have hage : ageAt lines (restarted e) w = ageAt lines e w := rfl
  rw [evaluate_eq, evaluate_eq, hage, hjudged]
  rcases judged_cases (ageAt lines e w) e with ⟨r, hr⟩ | hx
  · exact .inl ((hr _).trans (hr _).symm)
  · rw [hx, hx]
    exact .inr ⟨stateRank_inTime _ _, stateRank_inTime _ _⟩

/-- The restart that a result brings does not change the result: evaluating the entry again gives it again (R17, R18). -/
theorem evaluated_restarted (lines : Nat) (e : LedgerEntry) (w : Wp) (h : restartsProving (evaluated lines e w).1 = true) :
    evaluated lines (restarted e) w = evaluated lines e w := by
  rw [restartsProving_iff] at h
  have hup : hasUpstream (restarted e) = hasUpstream e := rfl
  rcases evaluate_restarted lines e w with heq | ⟨hlow, hlow'⟩
  · simp only [evaluated, heq, hup]; rfl
  · by_cases hc : (!e.static && hasUpstream e && decide (stateRank (evaluate lines e w) < stateRank e.inp.upstream)) = true
    · simp only [evaluated, hc, if_true] at h ⊢
      simp only [Bool.and_eq_true, decide_eq_true_eq] at hc
      simp only [hup]
      rw [if_pos]
      · rfl
      · simp only [Bool.and_eq_true, decide_eq_true_eq]
        exact ⟨hc.1, Nat.lt_of_lt_of_le hlow h⟩
    · simp only [evaluated, hc] at h
      exact absurd h (Nat.not_le.2 hlow')

/-- An entry with the result of its evaluation written down. -/
def recorded (e : LedgerEntry) (base : Option LineWp) (r : LState × Nat × Bool) : LedgerEntry :=
  { e with ageBase := base, inp := { e.inp with computed := some r, reason := 0 } }

/-- What is written down is no input of the evaluation. -/
theorem evaluated_recorded (lines : Nat) (e : LedgerEntry) (b : Option LineWp) (r : LState × Nat × Bool) (w : Wp) :
    evaluated lines (recorded e b r) w = evaluated lines e w := rfl

/-- Entry `i` restarts. -/
def restartEntry (s : State) (i : Nat) : State := clearStill (modEntry s i fun e => { e with proven := 0 }) i

theorem getEntry_restartEntry (s : State) (i j : Nat) :
    getEntry (restartEntry s i) j = if j = i then restarted (getEntry s i) else getEntry s j := by
  simp only [restartEntry, getEntry_clearStill, getEntry_modEntry, if_true]
  split <;> rfl

/-- What the evaluation of a VALID entry does: it records the result, after a restart that only a result that restarts proving brings (R18). -/
theorem evalEntry_of_valid (w : Wp) (i : Nat) (s : State) (hv : (getEntry s i).valid = true) :
    let r := evaluated (wallLines s) (getEntry s i) w
    ∃ (t : State) (base : LedgerEntry → Option LineWp) (why : LedgerEntry → Nat),
      (t = s ∨ restartsProving r.1 = true ∧ t = restartEntry s i) ∧
      evalEntry w i s = modEntry t i fun e => recorded e (base e) (r.1, why e, r.2) := by
  intro r
  simp only [evalEntry, hv, Bool.not_true, Bool.false_eq_true, if_false]
  generalize hc : (restartsProving (evaluated (wallLines s) (getEntry s i) w).1 && _) = c
  cases c
  · exact ⟨s, _, _, .inl rfl, rfl⟩
  · exact ⟨_, _, _, .inr ⟨(Bool.and_eq_true_iff.1 hc).1, rfl⟩, rfl⟩

theorem evalEntry_of_not_valid (w : Wp) (i : Nat) (s : State) (hv : (getEntry s i).valid = false) : evalEntry w i s = s := by
  simp [evalEntry, hv]

@[simp] theorem evalEntry_time (w : Wp) (i : Nat) (s : State) : (evalEntry w i s).time = s.time := by
  cases hv : (getEntry s i).valid
  · rw [evalEntry_of_not_valid w i s hv]
  · obtain ⟨t, base, why, rfl | ⟨-, rfl⟩, he⟩ := evalEntry_of_valid w i s hv <;> rw [he] <;> rfl

/-- The evaluation of an entry leaves every other one. -/
theorem getEntry_evalEntry_ne (w : Wp) {i j : Nat} (s : State) (h : j ≠ i) : getEntry (evalEntry w i s) j = getEntry s j := by
  cases hv : (getEntry s i).valid
  · rw [evalEntry_of_not_valid w i s hv]
  · obtain ⟨t, base, why, rfl | ⟨-, rfl⟩, he⟩ := evalEntry_of_valid w i s hv
    · rw [he, getEntry_modEntry, if_neg h]
    · rw [he, getEntry_modEntry, if_neg h, getEntry_restartEntry, if_neg h]

/-- The evaluation of a VALID entry leaves it with its result, and leaves the result that a further evaluation has. -/
theorem getEntry_evalEntry_self (w : Wp) (i : Nat) (s : State) (hv : (getEntry s i).valid = true) :
    let r := evaluated (wallLines s) (getEntry s i) w
    (getEntry (evalEntry w i s) i).valid = true ∧ evaluated (wallLines s) (getEntry (evalEntry w i s) i) w = r ∧
      dueState (getEntry (evalEntry w i s) i) = r.1 := by
  intro r
  obtain ⟨t, base, why, rfl | ⟨hr, rfl⟩, he⟩ := evalEntry_of_valid w i s hv
  · rw [he, getEntry_modEntry, if_pos rfl, evaluated_recorded]
    exact ⟨hv, rfl, rfl⟩
  · rw [he, getEntry_modEntry, if_pos rfl, evaluated_recorded, getEntry_restartEntry, if_pos rfl]
    exact ⟨hv, evaluated_restarted _ _ w hr, rfl⟩

/-- Entry `i` is VALID and its evaluation at `w` has the result `r`. -/
def Evaluates (lines : Nat) (w : Wp) (i : Nat) (r : LState) (s : State) : Prop :=
  wallLines s = lines ∧ (getEntry s i).valid = true ∧ (evaluated lines (getEntry s i) w).1 = r

theorem Evaluates.valid {lines : Nat} {w : Wp} {i : Nat} {r : LState} {s : State} (h : Evaluates lines w i r s) :
    (getEntry s i).valid = true := h.2.1

/-- No entry's evaluation changes what an entry evaluates to. -/
theorem Evaluates.evalEntry {lines : Nat} {w : Wp} {i : Nat} {r : LState} {s : State} (h : Evaluates lines w i r s) (a : Nat) :
    Evaluates lines w i r (evalEntry w a s) := by
  obtain ⟨rfl, hv, hr⟩ := h
  refine ⟨by simp [wallLines], ?_⟩
  by_cases ha : i = a
  · subst ha
    obtain ⟨hv', hr', -⟩ := getEntry_evalEntry_self w i s hv
    exact ⟨hv', by rw [hr', hr]⟩
  · rw [getEntry_evalEntry_ne w s ha]
    exact ⟨hv, hr⟩

theorem Evaluates.dueState {lines : Nat} {w : Wp} {i : Nat} {r : LState} {s : State} (h : Evaluates lines w i r s) :
    Machine.dueState (getEntry (Machine.evalEntry w i s) i) = r := by
  obtain ⟨rfl, hv, hr⟩ := h
  obtain ⟨-, -, hdue⟩ := getEntry_evalEntry_self w i s hv
  exact hdue.trans hr

/-- After the evaluation of all entries a VALID one is due to be published with its result (R15). -/
theorem Evaluates.forEntries {lines : Nat} {w : Wp} {i : Nat} {r : LState} {s : State} (h : Evaluates lines w i r s) :
    (getEntry (forEntries s (Machine.evalEntry w)) i).valid = true ∧
      Machine.dueState (getEntry (forEntries s (Machine.evalEntry w)) i) = r := by
  obtain ⟨⟨-, hv, -⟩, hdue⟩ := forEach_brings (P := Evaluates lines w i r) (Q := fun t => Machine.dueState (getEntry t i) = r)
    (fun a t ht => ht.evalEntry a) (fun t ht => ht.dueState) (fun a t ha hq => by rw [getEntry_evalEntry_ne w t ha, hq])
    (mem_entryIds_of_valid h.valid) h
  exact ⟨hv, hdue⟩

/-! The wall line's evaluation, once in the line. -/

@[simp] theorem takeReports_time (s : State) : (takeReports s).time = s.time :=
  forEach_same (·.time) _ _ _ fun q t => by split <;> rfl

/-- With no LIVENESS_SET waiting none applies. -/
theorem applySets_of_none (w : Wp) {s : State} (h : s.ledger.sets = []) : applySets w s = s := by
  calc applySets w s
    _ = applySets w { s with ledger := { s.ledger with sets := [] } } := by rw [← h]
    _ = { s with ledger := { s.ledger with sets := [] } } := rfl
    _ = s := by rw [← h]

@[simp] theorem forEntries_evalEntry_time (w : Wp) (s : State) : (forEntries s (evalEntry w)).time = s.time :=
  forEach_same (·.time) _ _ _ (evalEntry_time w)

@[simp] theorem applySets_time (w : Wp) (s : State) : (applySets w s).time = s.time :=
  forEach_same (·.time) _ _ _ fun _ _ => rfl

/-- A line that has been evaluated is not evaluated again. -/
theorem evaluateLine_of_done {s : State} (h : s.ledger.evalAt = some (lineOf (now s))) : evaluateLine s = s := by
  simp [evaluateLine, h, lineOf]

/-- A line that has not been evaluated takes in what reached it, and its entries are evaluated (R15). -/
theorem evaluateLine_entries {s : State} (hrun : s.time.running = true) (h : s.ledger.evalAt ≠ some (lineOf (now s))) (w : Wp)
    (hw : w = { now s with tick := 0 }) :
    (evaluateLine s).ledger.entries = (forEntries (takeReports (applySets w s)) (evalEntry w)).ledger.entries := by
  subst hw
  have hline : ¬s.ledger.evalAt = some (lineOf { now s with tick := 0 }) := h
  simp [evaluateLine, hrun, hline]

theorem evalAt_evaluateLine {s : State} (hrun : s.time.running = true) :
    (evaluateLine s).ledger.evalAt = some (lineOf (now s)) := by
  simp only [evaluateLine, hrun, Bool.not_true, Bool.false_or, decide_eq_true_eq]
  split
  · assumption
  · rfl

@[simp] theorem evaluateLine_time (s : State) : (evaluateLine s).time = s.time := by
  unfold evaluateLine
  dsimp only
  split <;> simp

/-- The end of a line leaves the ledger as the line's one evaluation does. -/
theorem endLine_ledger {s : State} (hrun : s.time.running = true) : (endLine s).ledger = (evaluateLine s).ledger := by
  unfold endLine passTicks
  split
  · dsimp only
    rw [evaluateLine_of_done]
    rw [evalAt_evaluateLine hrun]
    simp [lineOf, now]
  · rfl

/-- What a VALID entry evaluates to at a line start is due to be published when the line has ended (R15, R19). -/
theorem dueState_endLine {s : State} {i : Nat} (hrun : s.time.running = true) (hdue : s.ledger.evalAt ≠ some (lineOf (now s)))
    (hsets : s.ledger.sets = []) (hv : (getEntry (takeReports s) i).valid = true) :
    (getEntry (endLine s) i).valid = true ∧
      dueState (getEntry (endLine s) i) = (evaluated (wallLines s) (getEntry (takeReports s) i) { now s with tick := 0 }).1 := by
  have hentry : getEntry (endLine s) i = getEntry (forEntries (takeReports s) (evalEntry { now s with tick := 0 })) i := by
    unfold getEntry
    rw [endLine_ledger hrun, evaluateLine_entries hrun hdue _ rfl, applySets_of_none _ hsets]
  have heval : Evaluates (wallLines s) { now s with tick := 0 } i
      (evaluated (wallLines s) (getEntry (takeReports s) i) { now s with tick := 0 }).1 (takeReports s) :=
    ⟨by simp [wallLines], hv, rfl⟩
  rw [hentry]
  exact heval.forEntries

/-! Publication at the next line start (R19, R35, R36). -/

/-- An entry without its pending event. -/
def eventless (e : LedgerEntry) : LedgerEntry := { e with ev := none }

theorem dueState_of_eventless {e e' : LedgerEntry} (h : eventless e = eventless e') : dueState e = dueState e' :=
  show dueState (eventless e) = dueState (eventless e') from congrArg dueState h

theorem valid_of_eventless {e e' : LedgerEntry} (h : eventless e = eventless e') : e.valid = e'.valid :=
  show (eventless e).valid = (eventless e').valid from congrArg LedgerEntry.valid h

theorem getEntry_postLiveness {s u : State} {slice n : Nat} {v : LiveEvent} {b : Bool} (h : postLiveness s slice n v = (u, b)) (i : Nat) :
    getEntry u i = getEntry s i := by
  have hq : quiet (postLiveness s slice n v).1 = quiet s := (steady_quiet s).postLiveness slice n v rfl
  rw [h] at hq
  simp only [getEntry, show u.ledger = s.ledger from ledger_of_quiet hq]

/-- Posting the liveness events of a slice takes events from entries and changes nothing else of them (R35). -/
theorem eventless_flushLiveness (s : State) (slice i : Nat) :
    eventless (getEntry (flushLiveness s slice) i) = eventless (getEntry s i) := by
  unfold flushLiveness
  dsimp only
  refine (forEach_same (fun t => eventless (getEntry t i)) _ _ _ fun n t => ?_).trans
    (forEach_same (fun t => eventless (getEntry t i)) _ _ _ fun o t => ?_)
  · split
    · split
      · rfl
      · split <;> rename_i hp <;> have hu := getEntry_postLiveness hp
        · rw [getEntry_modEntry, hu, hu]
          split
          · rename_i hi
            rw [hi]
            rfl
          · rfl
        · rw [hu]
    · rfl
  · split <;> rename_i hp <;> exact congrArg eventless (getEntry_postLiveness hp i)

theorem eventless_flushAllLiveness (s : State) (i : Nat) :
    eventless (getEntry (flushAllLiveness s) i) = eventless (getEntry s i) :=
  forEach_same (fun t => eventless (getEntry t i)) _ _ _ fun a t => eventless_flushLiveness t a i

/-- The publication of an entry leaves every other one. -/
theorem getEntry_publishEntry_ne (w : Wp) {i j : Nat} (s : State) (h : j ≠ i) : getEntry (publishEntry w i s) j = getEntry s j := by
  unfold publishEntry
  dsimp only
  split
  · rfl
  · rw [getEntry_modEntry, if_neg h]

/-- A published entry has the state that was due, and nothing is due any more (R19). -/
theorem getEntry_publishEntry_self (w : Wp) (i : Nat) (s : State) :
    (getEntry (publishEntry w i s) i).inp.computed = none ∧ (getEntry (publishEntry w i s) i).state = dueState (getEntry s i) := by
  unfold publishEntry dueState
  dsimp only
  cases hc : (getEntry s i).inp.computed with
  | none => exact ⟨hc, rfl⟩
  | some r =>
    dsimp only
    rw [getEntry_modEntry, if_pos rfl]
    by_cases hs : (getEntry s i).state = r.1
    · simp [hs]
    · cases (getEntry s i).events <;> simp [hs]

/-- What an entry's publication leaves due of any entry is what was due (R19). -/
theorem dueState_publishEntry (w : Wp) (i a : Nat) (s : State) : dueState (getEntry (publishEntry w a s) i) = dueState (getEntry s i) := by
  by_cases ha : i = a
  · subst ha
    obtain ⟨hnone, hstate⟩ := getEntry_publishEntry_self w i s
    rw [← hstate]
    simp only [dueState, hnone]
  · rw [getEntry_publishEntry_ne w s ha]

/-- The publication of all entries gives an entry in use the state that was due (R19). -/
theorem state_forEntries_publishEntry (w : Wp) {i : Nat} {s : State} (hi : i ∈ entryIds s) :
    (getEntry (forEntries s (publishEntry w)) i).state = dueState (getEntry s i) := by
  exact (forEach_brings (P := fun t => dueState (getEntry t i) = dueState (getEntry s i))
    (Q := fun t => (getEntry t i).state = dueState (getEntry s i)) (fun a t ht => (dueState_publishEntry w i a t).trans ht)
    (fun t ht => (getEntry_publishEntry_self w i t).2.trans ht) (fun a t ha hq => by rw [getEntry_publishEntry_ne w t ha, hq]) hi rfl).2

/-- The replies to LIVENESS_SETs change no entry. -/
theorem getEntry_replySets (w : Wp) (s : State) (i : Nat) : getEntry (replySets w s) i = getEntry s i := by
  unfold replySets
  exact forEach_same (getEntry · i) _ _ _ fun x t => by
    dsimp only
    rw [getEntry, finishKey_ledger, getEntry]

/-- The start of a line publishes what is due of a VALID entry (R19). -/
theorem state_startLine {s : State} {i : Nat} (hv : (getEntry s i).valid = true) :
    (getEntry (startLine s) i).state = dueState (getEntry s i) := by
  unfold startLine
  dsimp only
  rw [getEntry_replySets]
  split
  · have hflush := eventless_flushAllLiveness
      { s with time := { s.time with wp := nextLine s (now s) }, ledger := { s.ledger with deciding := nextLine s (now s) } } i
    rw [state_forEntries_publishEntry _ (mem_entryIds_of_valid ((valid_of_eventless hflush).trans hv))]
    exact dueState_of_eventless hflush
  · exact state_forEntries_publishEntry _ (mem_entryIds_of_valid hv)

/-! What else happens at a line start leaves the ledger (R230, R278, R335, R345). -/

@[simp] theorem postTakeover_ledger (s : State) (t : Takeover) (m : Nat) : (postTakeover s t m).ledger = s.ledger := by simp [postTakeover]

@[simp] theorem rehearsalMoved_ledger (s : State) (t : Takeover) : (rehearsalMoved s t).ledger = s.ledger := by
  unfold rehearsalMoved
  split
  · dsimp only
    split
    · simp
    · rfl
  · rfl

@[simp] theorem armOutput_ledger (b o : Nat) (s : State) : (armOutput b o s).ledger = s.ledger := by
  unfold armOutput refreshCause
  dsimp only
  split
  · split <;> rfl
  · rfl

@[simp] theorem armRehearsal_ledger (s : State) : (armRehearsal s).ledger = s.ledger := by
  have harm : ∀ (b : Nat) (l : List Nat) (t : State), (forEach l (armOutput b) t).ledger = t.ledger :=
    fun b l t => forEach_same (·.ledger) l _ t (armOutput_ledger b)
  unfold armRehearsal
  split
  · rfl
  · split
    · rfl
    · split
      · simp
      · dsimp only
        split <;> simp [harm]

@[simp] theorem queueInterrupt_ledger (s : State) (q : Nat) : (queueInterrupt s q).ledger = s.ledger := by
  unfold queueInterrupt
  dsimp only
  split
  · split <;> simp
  · simp

@[simp] theorem queueInterrupts_ledger (s : State) : (queueInterrupts s).ledger = s.ledger :=
  forEach_same (·.ledger) _ _ _ fun q t => by
    split
    · exact queueInterrupt_ledger t q
    · rfl

@[simp] theorem exportStates_ledger (s : State) : (exportStates s).ledger = s.ledger :=
  forEach_same (·.ledger) _ _ _ fun n t => by
    dsimp only
    split
    · split <;> simp
    · rfl

@[simp] theorem rootMarks_ledger (s : State) : (rootMarks s).ledger = s.ledger := by
  unfold rootMarks
  split
  · rfl
  · exact forEach_same (·.ledger) _ _ _ fun p t => by
      dsimp only
      split <;> rfl

@[simp] theorem lineHappenings_ledger (s : State) : (lineHappenings s).ledger = s.ledger := by simp [lineHappenings]

/-! LEDGER_EVALUATION as a whole. -/

/-- ECC corrections counted (R13). -/
def addCorrected (n : Nat) (s : State) : State := { s with ledger := { s.ledger with corrected := s.ledger.corrected + n } }

/-- One of Stillwater's reports, a source and whether it is FROZEN, reaches the Liveness Monitor. -/
def takeReport (s : State) (q : Nat × Bool × Bool) : State := if q.2.1 then reportFrozen s q.1 else reportChanged s q.1

theorem takeReport_addCorrected (n : Nat) (s : State) (q : Nat × Bool × Bool) :
    takeReport (addCorrected n s) q = addCorrected n (takeReport s q) := by
  unfold takeReport
  split <;> rfl

/-- Counting corrections changes nothing of what an evaluation takes in. -/
theorem takeReports_addCorrected (n : Nat) (s : State) : takeReports (addCorrected n s) = addCorrected n (takeReports s) :=
  List.foldl_hom (addCorrected n) (g₁ := takeReport) (g₂ := takeReport)
    (init := { s with ledger := { s.ledger with reports := (s.ledger.reports.filter fun q => q.2.2).map fun q => (q.1, q.2.1, false) } })
    fun t q => takeReport_addCorrected n t q

theorem exec_ledgerEvaluation (l : List Nat) (n : Nat) (s : State) :
    exec (.ledgerEvaluation l n) s = execLedgerEvaluation l n s := rfl

/-- With no entry failed, LEDGER_EVALUATION ends the line and starts the next (R15, R19). -/
theorem execLedgerEvaluation_of_running {s : State} (hrun : s.time.running = true) (n : Nat) :
    execLedgerEvaluation [] n s = .next (lineHappenings (startLine (endLine (addCorrected n s)))) := by
  rw [execLedgerEvaluation, if_neg (by simp [hrun])]
  rfl

/-- LEDGER_EVALUATION gives a VALID entry the state that it evaluates to at the line start, with what reached it by then (R15, R19). -/
theorem runs_ledgerEvaluation {s : State} {i : Nat} (n : Nat) (hrun : s.time.running = true)
    (hdue : s.ledger.evalAt ≠ some (lineOf (now s))) (hsets : s.ledger.sets = []) (hv : (getEntry (takeReports s) i).valid = true) :
    Runs (.ledgerEvaluation [] n) s fun t =>
      (getEntry t i).state = (evaluated (wallLines s) (getEntry (takeReports s) i) { now s with tick := 0 }).1 := by
  have hentry : getEntry (takeReports (addCorrected n s)) i = getEntry (takeReports s) i := by
    rw [takeReports_addCorrected]
    rfl
  obtain ⟨hvalid, hstate⟩ := dueState_endLine (s := addCorrected n s) (i := i) hrun hdue hsets (by rw [hentry, hv])
  refine ⟨_, (exec_ledgerEvaluation [] n s).trans (execLedgerEvaluation_of_running hrun n), ?_⟩
  calc (getEntry (lineHappenings (startLine (endLine (addCorrected n s)))) i).state
    _ = (getEntry (startLine (endLine (addCorrected n s))) i).state := by simp only [getEntry, lineHappenings_ledger]
    _ = dueState (getEntry (endLine (addCorrected n s)) i) := state_startLine hvalid
    _ = (evaluated (wallLines s) (getEntry (takeReports s) i) { now s with tick := 0 }).1 := by rw [hstate, hentry]; rfl

/-! The age that LATE and STALE are judged on (R10, R16). -/

/-- The frames from one to a later one, less than half the counter on (R6). -/
theorem frameDelta_of_le {f g : Nat} (hg : g < 2 ^ 32) (hle : f ≤ g) (hhalf : g < f + 2 ^ 31) : frameDelta g f = (g : Int) - f := by
  have hdiff : frameDiff g f = g - f := by unfold frameDiff; omega
  rw [frameDelta, hdiff, toSigned, if_pos (by omega)]
  omega

/-- The lines from a stored WP to a WP that is not before it are those that reach it (R10). -/
theorem add_linesBetween {lines : Nat} {o : LineWp} {w : Wp} (hw : w.frame < 2 ^ 32) (hle : o.frame ≤ w.frame)
    (hhalf : w.frame < o.frame + 2 ^ 31) (hlater : o.frame * lines + o.line ≤ w.frame * lines + w.line) :
    o.frame * lines + o.line + linesBetween lines o w = w.frame * lines + w.line := by
  rw [linesBetween, lineDelta, frameDelta_of_le hw hle hhalf, Int.sub_mul]
  omega

/-- An entry that is tracked and has arrived, with no upstream: R15's function from its age on. -/
theorem evaluated_of_tracked {lines : Nat} {e : LedgerEntry} {w : Wp} (hwith : e.inp.withdrawn = false) (hfit : e.inp.unfit = false)
    (hstatic : e.static = false) (harr : e.inp.arrived = true) (hup : hasUpstream e = false) :
    (evaluated lines e w).1 = if e.deadline < ageAt lines e w then .stale else inTime (ageAt lines e w) e := by
  have hlocal : (evaluated lines e w).1 = evaluate lines e w := by simp [evaluated, hup]
  rw [hlocal, evaluate_eq]
  simp [judged, hwith, hfit, hstatic, harr]

/-- In time an entry is never STALE. -/
theorem inTime_ne_stale (age : Nat) (e : LedgerEntry) : inTime age e ≠ .stale := by
  intro h
  have hrank := stateRank_inTime age e
  rw [h] at hrank
  exact absurd hrank (by decide)

/-- In time an entry is LATE when nothing of higher rank holds and its age is above the late threshold (R14, R16). -/
theorem inTime_eq_late_iff (age : Nat) (e : LedgerEntry) :
    inTime age e = .late ↔ e.inp.concealed = false ∧ e.inp.damaged = false ∧ e.inp.frozen = false ∧
      (e.changeBound = true → 3 ≤ e.proven) ∧ e.period + e.period / 2 < age := by
  unfold inTime
  split_ifs <;> simp_all

/-- What R15's function, from the age on, says of STALE and LATE; a deadline at or below the late threshold leaves no age that is LATE (R16). -/
theorem stale_and_late {age : Nat} {e : LedgerEntry} {r : LState} (h : r = if e.deadline < age then .stale else inTime age e) :
    (r = .stale ↔ e.deadline < age) ∧
    (r = .late ↔ age ≤ e.deadline ∧ e.inp.concealed = false ∧ e.inp.damaged = false ∧ e.inp.frozen = false ∧
      (e.changeBound = true → 3 ≤ e.proven) ∧ e.period + e.period / 2 < age) ∧
    (e.deadline ≤ e.period + e.period / 2 → r ≠ .late) := by
  have hlate := inTime_eq_late_iff age e
  subst h
  by_cases hage : e.deadline < age
  · simp [hage]
  · rw [if_neg hage]
    have hle : age ≤ e.deadline := Nat.not_lt.1 hage
    refine ⟨iff_of_false (inTime_ne_stale age e) hage, by rw [hlate, and_iff_right hle], fun hthr hl => ?_⟩
    obtain ⟨-, -, -, -, hover⟩ := hlate.1 hl
    omega

/-- Settles O55: the state published is R15's result on the age from ORIGIN_WP, whose lines reach the line evaluated. -/
theorem sourceAge : Obligations.SourceAge := by
  unfold Obligations.SourceAge
  refine ⟨fun lines o w => add_linesBetween, fun s i n o => ?_⟩
  intro w x hrun hdue hsets _ hvalid hwith hfit hstatic harr hup horigin _ _ _
  obtain ⟨t, ht, hstate⟩ := runs_ledgerEvaluation n hrun hdue hsets hvalid
  rw [evaluated_of_tracked hwith hfit hstatic harr hup, ageAt_of_origin horigin] at hstate
  exact ⟨t, ht, stale_and_late hstate⟩

end Sys2Proof.Machine
end

section
/-! Wall time after a device reset (R42): a reset leaves none of the old wall time, and the release of the locked clocks starts WP. -/
namespace Sys2Proof.Machine
open Sys2Proof

/-! What a reset does to wall time. -/

@[simp] theorem assertAlert_time (s : State) : (assertAlert s).time = s.time := rfl

@[simp] theorem postEvent_time (s : State) (slice bits : Nat) : (postEvent s slice bits).time = s.time :=
  quiet_eq (·.time) quiet_time (quiet_postEvent s slice bits)

@[simp] theorem addFault_time (s : State) (kind unit detail : Nat) : (addFault s kind unit detail).time = s.time := by
  simp only [addFault, apply_ite State.time, postEvent_time, assertAlert_time, ite_self]

/-- What every reset keeps holds no wall time. -/
@[simp] theorem keepFlash_time (s : State) : (keepFlash s).time = State.reset.time := rfl

@[simp] theorem deviceReset_time (s : State) (cause : Nat) : (deviceReset s cause).time = State.reset.time := rfl

/-- The fault record of the power-on start is written after wall time has been cleared. -/
@[simp] theorem powerOn_time (s : State) : (powerOn s).time = State.reset.time :=
  addFault_time _ 1 0 1

theorem reset_running : State.reset.time.running = false := rfl

/-- R42's wall timing: 60 Hz with 2,250 lines, spread off, no anchor, and the identifier made of the device ID. -/
theorem reset_timing :
    State.reset.time.timing =
      { rateNum := 60, rateDen := 1, lines := 2250, spread := false, anchor := none, wallId := resetWallId } := rfl

/-! LOCKED_CLOCKS_RELEASE. -/

theorem exec_lockedClocksRelease (s : State) : exec .lockedClocksRelease s = execLockedClocksRelease s := rfl

/-- With 12 V in range, RST_N released, no thermal trip and the clocks not yet running, the release starts WP at 0:0.0 (R42, R416). -/
theorem execLockedClocksRelease_of_stopped {s : State} (hpower : s.power.inRange = true) (hrst : s.regs.rst = false)
    (htrip : s.boot.state ≠ .thermalTrip) (hstop : s.time.running = false) :
    execLockedClocksRelease s = .next { s with time := { s.time with running := true, wp := ⟨0, 0, 0⟩ } } := by
  rw [execLockedClocksRelease, if_pos (by simp [hpower, hrst, htrip, hstop])]

/-- Settles O54: both resets leave the wall time of State.reset, with the clocks stopped, and their release starts WP under the timing in force. -/
theorem wallTimingAfterReset : Obligations.WallTimingAfterReset := by
  unfold Obligations.WallTimingAfterReset
  refine ⟨fun s cause => ?_, fun s cause => ?_, fun s hpower hrst htrip hstop => ?_⟩
  · intro x w
    have htiming : State.reset.time.timing = w := reset_timing
    exact ⟨by rw [deviceReset_time, htiming], by rw [powerOn_time, htiming], htiming⟩
  · rw [deviceReset_time, powerOn_time]
    exact ⟨reset_running, reset_running⟩
  · exact ⟨_, (exec_lockedClocksRelease s).trans (execLockedClocksRelease_of_stopped hpower hrst htrip hstop), rfl, rfl, rfl⟩

end Sys2Proof.Machine
end

section
/-! Poison of the store (R108): which units a write clears, what an uncorrectable word marks, and that entries of rings and writeback blocks are too short to clear any. -/
namespace Sys2Proof.Machine
open Sys2Proof

/-! Writes. -/

/-- A write within the store clears the poison of the units that it covers whole, and of no other (R108). -/
theorem poison_writeBytes {a : Nat} {l : List Byte} (s : State) (hend : a + l.length ≤ storeEnd) (u : Nat) :
    tget false (writeBytes s a l).store.poison u =
      (tget false s.store.poison u && !decide (a ≤ 256 * u ∧ 256 * u + 256 ≤ a + l.length)) := by
  have hall : l.take (storeEnd - a) = l := List.take_of_length_le (by omega)
  rw [writeBytes, hall]
  exact tget_clearPoison s.store.poison a l.length u

/-- A write shorter than a unit covers none whole: it leaves all poison as it was (R108). -/
theorem poison_writeBytes_of_short {l : List Byte} (s : State) (a : Nat) (hshort : l.length < 256) (u : Nat) :
    tget false (writeBytes s a l).store.poison u = tget false s.store.poison u := by
  have hnone : ¬ (a ≤ 256 * u ∧ 256 * u + 256 ≤ a + (l.take (storeEnd - a)).length) := by
    rw [List.length_take]; omega
  refine (tget_clearPoison s.store.poison a _ u).trans ?_
  rw [decide_eq_false hnone, Bool.not_false, Bool.and_true]

/-- An entry of a ring is 32 bytes long and a writeback block 64: what replies and events write clears no poison. -/
theorem steady_poison (p : Nat → Bool) : Steady fun t => ∀ u, tget false t.store.poison u = p u where
  emit _ _ h := h
  tod _ _ _ h := h
  noRoute _ _ h := h
  vectors _ _ h := h
  violation _ _ h := h
  count _ _ _ _ _ h := h
  rings _ _ _ _ h := h
  entry s _ r b _ _ h u := (poison_writeBytes_of_short s (repAddr r) (by rw [length_bytesLE]; decide) u).trans (h u)
  block s i x _ h u := (poison_writeBytes_of_short s (getRings s i).wbAddr (by rw [length_bytesLE]; decide) u).trans (h u)

theorem poison_postEvent (s : State) (slice bits u : Nat) :
    tget false (postEvent s slice bits).store.poison u = tget false s.store.poison u :=
  (steady_poison fun u => tget false s.store.poison u).postEvent slice bits (fun _ => rfl) u

/-! An uncorrectable word. -/

/-- An uncorrectable word poisons the unit that holds it, and no other (R108). -/
theorem poison_poisonUnit (s : State) (a u : Nat) :
    tget false (poisonUnit s a).store.poison u = (tget false s.store.poison u || decide (u = a / 256)) := by
  have hset : (poisonUnit s a).store.poison = tset false s.store.poison (a / 256) true := by
    rw [poisonUnit]; split <;> rfl
  rw [hset, tget_tset]
  by_cases hu : u = a / 256
  · rw [if_pos hu, decide_eq_true hu, Bool.or_true]
  · rw [if_neg hu, decide_eq_false hu, Bool.or_false]

theorem exec_patrolScrub (addr ecc : Nat) (s : State) : exec (.patrolScrub addr ecc) s = execPatrolScrub addr ecc s := rfl

/-- What a scrub changes before it looks at what the check of its word found (R439, R458). -/
def scrubbed (s : State) (addr : Nat) : State :=
  bump (bump { s with power := { s.power with selfRefresh := false } } 1 (pseudoChannel addr) 2 32) 6 0 4 32

@[simp] theorem scrubbed_store (s : State) (addr : Nat) : (scrubbed s addr).store = s.store := rfl

/-- The scrub of an uncorrectable word poisons its unit and posts EV_STORE_ECC (R108). -/
theorem execPatrolScrub_of_uncorrectable {addr : Nat} (s : State) (haddr : addr < storeEnd) :
    let t := poisonUnit (scrubbed s addr) addr
    execPatrolScrub addr 2 s = .next (postEvent t 0 (eccBits t 3 addr 3)) := by
  have hin : decide (addr ≤ 0x5FFFFFFFF) = true := decide_eq_true (by unfold storeEnd at haddr; omega)
  simp [execPatrolScrub, hin, scrubbed]

/-! A request that is served. -/

theorem exec_reservoirRequestServed (pc : Nat) (reqs : List MemReq) (ecc : Nat) (s : State) :
    exec (.reservoirRequestServed pc reqs ecc) s = execReservoirRequestServed pc reqs ecc s := rfl

/-- What the choice of an arbiter changes: the books of its pseudo-channel, and self-refresh ends (R126, R439, R458). -/
def arbitrated (s : State) (pc : Nat) (reqs : List MemReq) (p : PseudoChannel) : State :=
  { s with
    store := { s.store with pcs := tset {} s.store.pcs pc (noteOccupancy p (pendingAt pc reqs)) }
    power := { s.power with selfRefresh := false } }

@[simp] theorem arbitrated_poison (s : State) (pc : Nat) (reqs : List MemReq) (p : PseudoChannel) :
    (arbitrated s pc reqs p).store.poison = s.store.poison := rfl

/-- The Weir decides a request after the arbiter's choice as before it. -/
theorem reqDenied_arbitrated (s : State) (pc : Nat) (reqs : List MemReq) (p : PseudoChannel) (r : MemReq) :
    reqDenied (arbitrated s pc reqs p) r = reqDenied s r := rfl

/-- A request by address, not by handle, that the Weir allows is carried out (R123, R366). -/
theorem serveRequest_of_allowed {s : State} {r : MemReq} (pc ecc : Nat) (hhandle : r.handle = 0) (hallow : reqDenied s r = none) :
    serveRequest s pc r ecc = carryOut s pc r ecc := by
  rw [serveRequest, if_neg (fun h => h.1 hhandle), hallow]

/-- The arbiter's choice is served; no check of a ledger entry (ecc 3 and 4, R115) comes with it. -/
theorem execReservoirRequestServed_of_choice {s : State} {pc : Nat} {reqs : List MemReq} {ecc : Nat} {r : MemReq} {p : PseudoChannel}
    (hpc : pc < 32) (hchoice : arbitrate s (tget {} s.store.pcs pc) (pendingAt pc reqs) = some (r, p)) (hecc : ecc < 3) :
    execReservoirRequestServed pc reqs ecc s = .next (serveRequest (arbitrated s pc reqs p) pc r ecc) := by
  rw [execReservoirRequestServed, if_pos hpc, hchoice]
  dsimp only
  rw [if_neg fun h => absurd h.2 (by omega)]
  rfl

/-- A write that is carried out clears the poison of the units that it covers whole, and of no other (R108). -/
theorem poison_carryOut_of_write {r : MemReq} (s : State) (pc ecc : Nat) (hwrite : r.write = true) (hlen : r.data.length = r.length)
    (hend : r.addr + r.length ≤ storeEnd) (u : Nat) :
    tget false (carryOut s pc r ecc).store.poison u =
      (tget false s.store.poison u && !decide (r.addr ≤ 256 * u ∧ 256 * u + 256 ≤ r.addr + r.length)) := by
  have hdata : r.data.take r.length = r.data := List.take_of_length_le hlen.le
  rw [carryOut, if_pos hwrite, hdata, ← hlen]
  exact poison_writeBytes _ (hlen ▸ hend) u

/-- Settles O56: the scrub through the unit that it poisons and the event that clears nothing, the request through the write that carries it out, and every write of the store. -/
theorem poisonedUnits : Obligations.PoisonedUnits := by
  unfold Obligations.PoisonedUnits
  refine ⟨fun s addr haddr => ?_, fun s pc reqs r p hpc hchoice hwrite hhandle hallow hlen hend => ?_, fun s a l hend u => ?_⟩
  · refine ⟨_, (exec_patrolScrub addr 2 s).trans (execPatrolScrub_of_uncorrectable s haddr), fun u => ?_⟩
    rw [poison_postEvent, poison_poisonUnit, scrubbed_store]
  · have hallow' := (reqDenied_arbitrated s pc reqs p r).trans hallow
    refine ⟨_, (exec_reservoirRequestServed pc reqs 0 s).trans (execReservoirRequestServed_of_choice hpc hchoice (by decide)), fun u => ?_⟩
    rw [serveRequest_of_allowed pc 0 hhandle hallow', poison_carryOut_of_write _ pc 0 hwrite hlen hend, arbitrated_poison]
  · exact poison_writeBytes s hend u

end Sys2Proof.Machine
end

section
/-! Records of bit fields: each field of a record whose fields do not overlap is read as it was written (R3, R5), from the number and from its bytes. -/
namespace Sys2Proof.Machine
open Sys2Proof

/-! Fields of a number. -/

theorem testBit_bitsAt (x lo w j : Nat) : (bitsAt x lo w).testBit j = (decide (j < w) && x.testBit (lo + j)) := by
  rw [bitsAt, Nat.testBit_mod_two_pow, Nat.testBit_shiftRight]

theorem bitsAt_lt (x lo w : Nat) : bitsAt x lo w < 2 ^ w := Nat.mod_lt _ (Nat.two_pow_pos w)

/-- A field of a field. -/
theorem bitsAt_bitsAt (x lo w a b : Nat) (h : a + b ≤ w) : bitsAt (bitsAt x lo w) a b = bitsAt x (lo + a) b := by
  refine Nat.eq_of_testBit_eq fun j => ?_
  simp only [testBit_bitsAt, Nat.add_assoc]
  by_cases hj : j < b
  · simp [hj, show a + j < w by omega]
  · simp [hj]

theorem bitsAt_mod (x lo w b : Nat) (h : b ≤ w) : bitsAt x lo w % 2 ^ b = bitsAt x lo b := by
  have := bitsAt_bitsAt x lo w 0 b (by omega)
  rwa [bitsAt, Nat.shiftRight_zero, Nat.add_zero] at this

theorem bitsAt_div (x lo w a : Nat) (h : a ≤ w) : bitsAt x lo w / 2 ^ a = bitsAt x (lo + a) (w - a) := by
  have hdiv : bitsAt x lo w / 2 ^ a < 2 ^ (w - a) := by
    refine Nat.div_lt_of_lt_mul ?_
    rw [← Nat.pow_add, Nat.add_sub_cancel' h]
    exact bitsAt_lt x lo w
  have := bitsAt_bitsAt x lo w a (w - a) (by omega)
  rwa [bitsAt, Nat.shiftRight_eq_div_pow, Nat.mod_eq_of_lt hdiv] at this

/-- The bits of a record. -/
theorem testBit_packFields (l : List Field) (j : Nat) :
    (packFields l).testBit j = l.any fun f => decide (f.1 ≤ j) && decide (j < f.1 + f.2.1) && f.2.2.testBit (j - f.1) := by
  induction l with
  | nil => simp [packFields]
  | cons f l ih =>
    obtain ⟨lo, w, v⟩ := f
    rw [packFields, Nat.testBit_or, ih, Nat.testBit_shiftLeft, Nat.testBit_mod_two_pow, List.any_cons, Bool.or_comm]
    by_cases hlo : lo ≤ j
    · simp [hlo, show (j - lo < w) ↔ (j < lo + w) by omega]
    · simp [hlo]

/-- The fields of a record stand one after the other. -/
abbrev Apart (l : List Field) : Prop := l.Pairwise fun f g => f.1 + f.2.1 ≤ g.1

/-- In a record whose fields stand one after the other each field reads as its value. -/
theorem bitsAt_packFields {l : List Field} (hl : Apart l) {lo w v : Nat} (hf : (lo, w, v) ∈ l) : bitsAt (packFields l) lo w = v % 2 ^ w := by
  refine Nat.eq_of_testBit_eq fun j => ?_
  rw [testBit_bitsAt, testBit_packFields, Nat.testBit_mod_two_pow]
  by_cases hj : j < w
  · simp only [hj, decide_true, Bool.true_and]
    have hself : (decide (lo ≤ lo + j) && decide (lo + j < lo + w) && v.testBit (lo + j - lo)) = v.testBit j := by
      simp [hj]
    obtain ⟨a, b, rfl⟩ := List.append_of_mem hf
    obtain ⟨-, hb, hab⟩ := List.pairwise_append.1 hl
    obtain ⟨hb, -⟩ := List.pairwise_cons.1 hb
    rw [List.any_append, List.any_cons, hself]
    have hbefore : (a.any fun f => decide (f.1 ≤ lo + j) && decide (lo + j < f.1 + f.2.1) && f.2.2.testBit (lo + j - f.1)) = false := by
      refine List.any_eq_false.2 fun f hfa => ?_
      have : f.1 + f.2.1 ≤ lo := hab f hfa (lo, w, v) List.mem_cons_self
      simp [show ¬ lo + j < f.1 + f.2.1 by omega]
    have hafter : (b.any fun f => decide (f.1 ≤ lo + j) && decide (lo + j < f.1 + f.2.1) && f.2.2.testBit (lo + j - f.1)) = false := by
      refine List.any_eq_false.2 fun f hfb => ?_
      have : lo + w ≤ f.1 := hb f hfb
      simp [show ¬ f.1 ≤ lo + j by omega]
    rw [hbefore, hafter, Bool.false_or, Bool.or_false]
  · simp [hj]

/-- A field whose value fits reads as its value. -/
theorem bitsAt_packFields_of_lt {l : List Field} (hl : Apart l) {lo w v : Nat} (hf : (lo, w, v) ∈ l) (hv : v < 2 ^ w) :
    bitsAt (packFields l) lo w = v := by
  rw [bitsAt_packFields hl hf, Nat.mod_eq_of_lt hv]

/-! Fields of the bytes of a number. -/

theorem take_bytesLE (n k x : Nat) (h : k ≤ n) : (bytesLE n x).take k = bytesLE k x := by
  induction k generalizing n x with
  | zero => rfl
  | succ k ih =>
    obtain ⟨m, rfl⟩ : ∃ m, n = m + 1 := ⟨n - 1, by omega⟩
    rw [bytesLE, bytesLE, List.take_succ_cons, ih m _ (by omega)]

theorem drop_bytesLE (n i x : Nat) (h : i ≤ n) : (bytesLE n x).drop i = bytesLE (n - i) (x / 256 ^ i) := by
  induction i generalizing n x with
  | zero => simp
  | succ i ih =>
    obtain ⟨m, rfl⟩ : ∃ m, n = m + 1 := ⟨n - 1, by omega⟩
    rw [bytesLE, List.drop_succ_cons, ih m _ (by omega), Nat.div_div_eq_div_mul, Nat.pow_succ', Nat.add_sub_add_right]

/-- Bytes within the bytes of a number are a field of it. -/
theorem leAt_bytesLE_append (n x : Nat) (r : List Byte) (i k : Nat) (h : i + k ≤ n) :
    leAt (bytesLE n x ++ r) i k = bitsAt x (8 * i) (8 * k) := by
  have hlen : (bytesLE n x).length = n := length_bytesLE n x
  rw [leAt, List.drop_append_of_le_length (by omega), List.take_append_of_le_length (by rw [List.length_drop]; omega),
    drop_bytesLE n i x (by omega), take_bytesLE _ _ _ (by omega), natLE_bytesLE, bitsAt, Nat.shiftRight_eq_div_pow,
    Nat.pow_mul, Nat.pow_mul]

theorem leAt_one (l : List Byte) (i : Nat) : leAt l i 1 = byteAt l i := by
  rw [leAt, byteAt, List.getD_eq_getElem?_getD]
  by_cases h : i < l.length
  · rw [List.take_one_drop_eq_of_lt_length h]
    simp [natLE, h]
  · rw [List.drop_of_length_le (by omega)]
    simp [natLE, h]

theorem byteAt_bytesLE_append (n x : Nat) (r : List Byte) (i : Nat) (h : i < n) : byteAt (bytesLE n x ++ r) i = bitsAt x (8 * i) 8 := by
  rw [← leAt_one, leAt_bytesLE_append n x r i 1 (by omega)]

/-- Bytes that begin where a part of a list begins. -/
theorem leAt_append_right (a b : List Byte) (k i : Nat) (h : i = a.length) : leAt (a ++ b) i k = leAt b 0 k := by
  subst h
  simp [leAt]

theorem leAt_bytesLE (n x : Nat) (h : x < 256 ^ n) : leAt (bytesLE n x) 0 n = x := by
  rw [leAt, List.drop_zero, take_bytesLE n n x le_rfl, natLE_bytesLE, Nat.mod_eq_of_lt h]

end Sys2Proof.Machine
end

section
/-! A fabric packet read from its bytes (R331). -/
namespace Sys2Proof.Machine
open Sys2Proof

/-- The fields of a packet's SOP bytes. -/
def sopFields (p : Pkt) : List Field :=
  [fAt 0 0 8 0x4B, fAt 1 0 12 p.dest, fAt 3 0 12 p.src, fAt 5 0 2 p.vc, fAt 5 2 6 p.kind, fAt 6 0 8 p.hops,
    fAt 7 0 1 p.lost.toNat, fAt 7 1 1 p.chroma.toNat, fAt 8 0 16 p.seq, fAt 10 0 12 p.exportId, fAt 12 0 32 p.payload.length,
    fAt 16 0 32 p.line, fAt 20 0 64 p.complete, fAt 28 0 16 p.frameSeq]

theorem sopBytes_eq (p : Pkt) : sopBytes p = bytesLE 32 (packFields (sopFields p)) := rfl

theorem length_sopBytes (p : Pkt) : (sopBytes p).length = 32 := length_bytesLE 32 _

theorem apart_sopFields (p : Pkt) : Apart (sopFields p) := by
  simp [Apart, sopFields, fAt, List.pairwise_cons]

/-- A field of the SOP bytes whose value fits, at bit `lo`. -/
theorem bitsAt_sop {p : Pkt} {lo w v : Nat} (hf : (lo, w, v) ∈ sopFields p) (hv : v < 2 ^ w) : bitsAt (packFields (sopFields p)) lo w = v :=
  bitsAt_packFields_of_lt (apart_sopFields p) hf hv

theorem bitAt_sop {p : Pkt} {lo : Nat} {b : Bool} (hf : (lo, 1, b.toNat) ∈ sopFields p) : bitAt (packFields (sopFields p)) lo = b := by
  rw [bitAt, bitsAt_sop hf (by cases b <;> decide)]
  cases b <;> rfl

/-- The check stands after SOP bytes and payload. -/
theorem pktBytes_eq (p : Pkt) : pktBytes p = sopBytes p ++ (p.payload ++ bytesLE 4 (crc32c ((sopBytes p ++ p.payload).drop 1))) :=
  List.append_assoc _ _ _

/-- The first bits of bytes among the SOP bytes are the field that stands there. -/
theorem leAt_pktBytes_mod {p : Pkt} {i k w v : Nat} (hik : i + k ≤ 32) (hw : w ≤ 8 * k) (hf : (8 * i, w, v) ∈ sopFields p) (hv : v < 2 ^ w) :
    leAt (pktBytes p) i k % 2 ^ w = v := by
  rw [pktBytes_eq, sopBytes_eq, leAt_bytesLE_append 32 _ _ i k hik, bitsAt_mod _ _ _ _ hw]
  exact bitsAt_sop hf hv

/-- A field of whole bytes. -/
theorem leAt_pktBytes {p : Pkt} {i k v : Nat} (hik : i + k ≤ 32) (hf : (8 * i, 8 * k, v) ∈ sopFields p) (hv : v < 2 ^ (8 * k)) :
    leAt (pktBytes p) i k = v := by
  rw [pktBytes_eq, sopBytes_eq, leAt_bytesLE_append 32 _ _ i k hik]
  exact bitsAt_sop hf hv

theorem bitAt_pktBytes {p : Pkt} {i a : Nat} {b : Bool} (hi : i < 32) (ha : a < 8) (hf : (8 * i + a, 1, b.toNat) ∈ sopFields p) :
    bitAt (byteAt (pktBytes p) i) a = b := by
  rw [pktBytes_eq, sopBytes_eq, byteAt_bytesLE_append 32 _ _ i hi, bitAt, bitsAt_bitsAt _ _ _ _ _ ha]
  exact bitAt_sop hf

theorem head_length (p : Pkt) : (sopBytes p ++ p.payload).length = 32 + p.payload.length := by
  rw [List.length_append, length_sopBytes]

theorem length_pktBytes (p : Pkt) : (pktBytes p).length = 36 + p.payload.length := by
  rw [pktBytes, List.length_append, head_length, length_bytesLE]; omega

theorem leAt_pktBytes_length {p : Pkt} (hlen : p.payload.length < 2 ^ 32) : leAt (pktBytes p) 12 4 = p.payload.length :=
  leAt_pktBytes (by omega) (by simp [sopFields, fAt]) hlen

/-- The check of a packet holds. -/
theorem check_pktBytes (p : Pkt) :
    leAt (pktBytes p) (32 + p.payload.length) 4 = crc32c (((pktBytes p).take (32 + p.payload.length)).drop 1) := by
  have htake : (pktBytes p).take (32 + p.payload.length) = sopBytes p ++ p.payload := List.take_left' (head_length p)
  rw [htake, pktBytes, leAt_append_right _ _ _ _ (head_length p).symm, leAt_bytesLE 4 _ (crc32c_lt _)]

theorem payload_pktBytes (p : Pkt) : ((pktBytes p).drop 32).take p.payload.length = p.payload := by
  rw [pktBytes_eq, List.drop_left' (length_sopBytes p)]
  exact List.take_left' rfl

theorem kind_pktBytes {p : Pkt} (hkind : p.kind < 64) : byteAt (pktBytes p) 5 / 4 = p.kind := by
  rw [pktBytes_eq, sopBytes_eq, byteAt_bytesLE_append 32 _ _ 5 (by omega)]
  exact (bitsAt_div _ _ _ 2 (by omega)).trans (bitsAt_sop (by simp [sopFields, fAt]) hkind)

/-- Settles O59: each field of the SOP bytes is read back, and LENGTH and the check hold. -/
theorem fabricPacketsRead : Obligations.FabricPacketsRead := by
  unfold Obligations.FabricPacketsRead
  intro p hdest hsrc hvc hkind hhops hseq hexp hline hcomplete hframe hlen
  rw [parsePkt, leAt_pktBytes_length hlen, payload_pktBytes, kind_pktBytes hkind, check_pktBytes,
    length_pktBytes, bne_self_eq_false, bne_self_eq_false, Bool.or_self, if_neg Bool.false_ne_true]
  refine congrArg some (?_ : _ = Pkt.mk ..)
  rw [Pkt.mk.injEq]
  refine ⟨?_, ?_, ?_, rfl, ?_, ?_, ?_, ?_, ?_, ?_, ?_, ?_, rfl⟩
  · exact leAt_pktBytes_mod (w := 12) (by omega) (by omega) (by simp [sopFields, fAt]) hdest
  · exact leAt_pktBytes_mod (w := 12) (by omega) (by omega) (by simp [sopFields, fAt]) hsrc
  · rw [← leAt_one]; exact leAt_pktBytes_mod (w := 2) (by omega) (by omega) (by simp [sopFields, fAt]) hvc
  · rw [← leAt_one]; exact leAt_pktBytes (by omega) (by simp [sopFields, fAt]) hhops
  · exact bitAt_pktBytes (by omega) (by omega) (by simp [sopFields, fAt])
  · exact bitAt_pktBytes (by omega) (by omega) (by simp [sopFields, fAt])
  · exact leAt_pktBytes (by omega) (by simp [sopFields, fAt]) hseq
  · exact leAt_pktBytes_mod (w := 12) (by omega) (by omega) (by simp [sopFields, fAt]) hexp
  · exact leAt_pktBytes (by omega) (by simp [sopFields, fAt]) hline
  · exact leAt_pktBytes (by omega) (by simp [sopFields, fAt]) hcomplete
  · exact leAt_pktBytes (by omega) (by simp [sopFields, fAt]) hframe

end Sys2Proof.Machine
end

section
/-! The canonical prefix codes of Sluice (R147): a reader of the code's bits, most significant first, finds the symbol. -/
namespace Sys2Proof.Machine
open Sys2Proof

/-! Bits of a number. -/

theorem length_bitsLsb (w x : Nat) : (bitsLsb w x).length = w := by
  induction w generalizing x with
  | zero => rfl
  | succ w ih => simp [bitsLsb, ih]

theorem natOfLsb_bitsLsb (w x : Nat) : natOfLsb (bitsLsb w x) = x % 2 ^ w := by
  induction w generalizing x with
  | zero => simp [bitsLsb, natOfLsb, Nat.mod_one]
  | succ w ih =>
    have hbit : (x % 2 == 1).toNat = x % 2 := by
      rcases Nat.mod_two_eq_zero_or_one x with h | h <;> simp [h]
    rw [bitsLsb, natOfLsb, ih, hbit, Nat.pow_succ', Nat.mod_mul]

theorem natOfLsb_lt (l : List Bool) : natOfLsb l < 2 ^ l.length := by
  induction l with
  | nil => simp [natOfLsb]
  | cons b l ih =>
    have := b.toNat_lt
    simp only [natOfLsb, List.length_cons, Nat.pow_succ]
    omega

/-- The bits of the number of some bits are those bits, and zeros after them. -/
theorem bitsLsb_natOfLsb (w : Nat) (l : List Bool) (h : l.length ≤ w) :
    bitsLsb w (natOfLsb l) = l ++ List.replicate (w - l.length) false := by
  induction w generalizing l with
  | zero => rw [List.length_eq_zero_iff.1 (Nat.le_zero.1 h)]; rfl
  | succ w ih =>
    cases l with
    | nil => simpa [bitsLsb, natOfLsb, List.replicate_succ] using ih [] (by simp)
    | cons b l =>
      have hdiv : (b.toNat + 2 * natOfLsb l) / 2 = natOfLsb l := by have := b.toNat_lt; omega
      have hmod : ((b.toNat + 2 * natOfLsb l) % 2 == 1) = b := by cases b <;> simp
      rw [natOfLsb, bitsLsb, hdiv, hmod, ih l (by simpa using h)]
      simp

/-- The most significant of m + 1 bits comes first. -/
theorem bitsMsb_succ (m x : Nat) : bitsMsb (m + 1) x = (x / 2 ^ m % 2 == 1) :: bitsMsb m x := by
  induction m generalizing x with
  | zero => simp [bitsMsb, bitsLsb]
  | succ m ih =>
    have hsucc : ∀ k y, bitsMsb (k + 1) y = bitsMsb k (y / 2) ++ [y % 2 == 1] := fun k y => by simp [bitsMsb, bitsLsb]
    rw [hsucc, ih, hsucc m x, Nat.div_div_eq_div_mul, ← Nat.pow_succ', List.cons_append]

/-! Canonical codes. -/

/-- The codes of a longer length begin behind those of a shorter one. -/
theorem codes_le_firstCode (len : Nat → Nat) (n L k : Nat) :
    (firstCode len n L + lenCount len n L) * 2 ^ (k + 1) ≤ firstCode len n (L + (k + 1)) := by
  induction k with
  | zero => simp [firstCode]
  | succ k ih =>
    calc (firstCode len n L + lenCount len n L) * 2 ^ (k + 1 + 1)
      _ = (firstCode len n L + lenCount len n L) * 2 ^ (k + 1) * 2 := by rw [Nat.pow_succ, Nat.mul_assoc]
      _ ≤ (firstCode len n (L + (k + 1)) + lenCount len n (L + (k + 1))) * 2 := by omega
      _ = firstCode len n (L + (k + 1 + 1)) := rfl

/-- A symbol stands among those of its length after the lower ones. -/
theorem filter_range_getElem? (p : Nat → Bool) {n sym : Nat} (hsym : sym < n) (hp : p sym = true) :
    ((List.range n).filter p)[((List.range sym).filter p).length]? = some sym := by
  obtain ⟨k, rfl⟩ : ∃ k, n = sym + (1 + k) := ⟨n - sym - 1, by omega⟩
  rw [List.range_add, List.range_add, List.filter_append, List.getElem?_append_right le_rfl, Nat.sub_self]
  simp [hp]

theorem lenCount_lt (len : Nat → Nat) {n sym : Nat} (hsym : sym < n) : lenCount len sym (len sym) < lenCount len n (len sym) := by
  obtain ⟨h, -⟩ := List.getElem?_eq_some_iff.1 (filter_range_getElem? (fun x => len x == len sym) hsym (by simp))
  exact h

/-- Reading goes on through the last m bits of a symbol's code to the symbol. -/
theorem readCode_rest (len : Nat → Nat) {n sym : Nat} (hsym : sym < n) (r : List Bool) (m : Nat) :
    ∀ {fuel L : Nat}, L + (m + 1) = len sym → m + 1 ≤ fuel →
      readCode len n fuel L (codeOf len n sym / 2 ^ (m + 1)) (bitsMsb (m + 1) (codeOf len n sym) ++ r) = some (sym, r) := by
  induction m with
  | zero =>
    intro fuel L hL hfuel
    obtain ⟨fuel, rfl⟩ : ∃ f, fuel = f + 1 := ⟨fuel - 1, by omega⟩
    have hcode : 2 * (codeOf len n sym / 2 ^ (0 + 1)) + (codeOf len n sym / 2 ^ 0 % 2 == 1).toNat = codeOf len n sym := by
      rcases Nat.mod_two_eq_zero_or_one (codeOf len n sym) with h | h <;> simp [h] <;> omega
    have hlt := lenCount_lt len hsym
    rw [bitsMsb_succ, List.cons_append, readCode, hcode, show L + 1 = len sym by omega]
    rw [if_pos (by simp only [codeOf]; omega), codeOf, Nat.add_sub_cancel_left, lenCount,
      filter_range_getElem? (fun x => len x == len sym) hsym (by simp)]
    rfl
  | succ m ih =>
    intro fuel L hL hfuel
    obtain ⟨fuel, rfl⟩ : ∃ f, fuel = f + 1 := ⟨fuel - 1, by omega⟩
    have hcode : 2 * (codeOf len n sym / 2 ^ (m + 1 + 1)) + (codeOf len n sym / 2 ^ (m + 1) % 2 == 1).toNat = codeOf len n sym / 2 ^ (m + 1) := by
      rw [Nat.pow_succ, ← Nat.div_div_eq_div_mul]
      rcases Nat.mod_two_eq_zero_or_one (codeOf len n sym / 2 ^ (m + 1)) with h | h <;> simp [h] <;> omega
    have hbehind : firstCode len n (L + 1) + lenCount len n (L + 1) ≤ codeOf len n sym / 2 ^ (m + 1) := by
      rw [Nat.le_div_iff_mul_le (Nat.two_pow_pos _)]
      refine (codes_le_firstCode len n (L + 1) m).trans ?_
      rw [show L + 1 + (m + 1) = len sym by omega]
      exact Nat.le_add_right _ _
    rw [bitsMsb_succ, List.cons_append, readCode, hcode]
    rw [if_neg (by omega)]
    exact ih (by omega) (by omega)

/-- The codes of each length fit it. -/
abbrev Fits (len : Nat → Nat) (n : Nat) : Prop := ∀ L, L < 11 → firstCode len n L + lenCount len n L ≤ 2 ^ L

/-- The bits of a symbol's code are read as the symbol. -/
theorem readCode_codeOf {len : Nat → Nat} {n sym fuel : Nat} (hfit : Fits len n) (hsym : sym < n) (hpos : 0 < len sym)
    (hlen : len sym < 11) (hfuel : len sym ≤ fuel) (r : List Bool) :
    readCode len n fuel 0 0 (bitsMsb (len sym) (codeOf len n sym) ++ r) = some (sym, r) := by
  obtain ⟨m, hm⟩ : ∃ m, len sym = m + 1 := ⟨len sym - 1, by omega⟩
  have hlt : codeOf len n sym < 2 ^ (m + 1) := by
    have h1 := hfit (len sym) hlen
    have h2 := lenCount_lt len hsym
    rw [← hm, codeOf]; omega
  have := readCode_rest len hsym r m (fuel := fuel) (L := 0) (by omega) (by omega)
  rwa [Nat.div_eq_of_lt hlt, ← hm] at this

theorem fits_mainLen : ∀ t, t < 4 → Fits (mainLen t) 273 := by decide +kernel

theorem fits_distLen : ∀ t, t < 4 → Fits (distLen t) 12 := by decide +kernel

theorem mainLen_bounds (t sym : Nat) : 0 < mainLen t sym ∧ mainLen t sym < 11 := by
  unfold mainLen; split_ifs <;> decide

theorem distLen_bounds (t d : Nat) : 0 < distLen t d ∧ distLen t d < 6 := by
  unfold distLen; split_ifs <;> decide

/-- A symbol of the main alphabet is read back under each table. -/
theorem readCode_main {t sym : Nat} (ht : t < 4) (hsym : sym < 273) (r : List Bool) :
    readCode (mainLen t) 273 12 0 0 (bitsMsb (mainLen t sym) (codeOf (mainLen t) 273 sym) ++ r) = some (sym, r) := by
  obtain ⟨hpos, hlt⟩ := mainLen_bounds t sym
  exact readCode_codeOf (fits_mainLen t ht) hsym hpos hlt (by omega) r

/-- A distance code is read back under each table. -/
theorem readCode_dist {t d : Nat} (ht : t < 4) (hd : d < 12) (r : List Bool) :
    readCode (distLen t) 12 8 0 0 (bitsMsb (distLen t d) (codeOf (distLen t) 12 d) ++ r) = some (d, r) := by
  obtain ⟨hpos, hlt⟩ := distLen_bounds t d
  exact readCode_codeOf (fits_distLen t ht) hd hpos (by omega) (by omega) r

end Sys2Proof.Machine
end

section
/-! The Sluice block code (R144 to R148, R151): the decompressor reads a coded or raw block back as its bytes. -/
namespace Sys2Proof.Machine
open Sys2Proof

/-! Lengths and matches. -/

/-- A match length is the base of its symbol and the extra value (R146). -/
theorem lengthBase_lengthSym {n : Nat} (h3 : 3 ≤ n) (h : n ≤ 4096) :
    (lengthBase (lengthSym n).1).2 + (lengthSym n).2 = n ∧ (lengthSym n).2 < 2 ^ (lengthBase (lengthSym n).1).1 ∧
      256 < (lengthSym n).1 ∧ (lengthSym n).1 < 273 := by
  unfold lengthSym
  split_ifs <;> dsimp only <;> unfold lengthBase <;> split_ifs <;> dsimp only <;> omega

theorem take_succ_reverse (l : List Byte) {i : Nat} (h : i < l.length) : (l.take (i + 1)).reverse = l.getD i 0 :: (l.take i).reverse := by
  rw [List.take_add_one, List.getElem?_eq_getElem h]
  simp [List.getD_eq_getElem?_getD, h]

theorem matchLen_le (l : List Byte) (n p i : Nat) : matchLen l n p i ≤ n := by
  induction n generalizing p i with
  | zero => exact le_rfl
  | succ n ih =>
    have := ih (p + 1) (i + 1)
    unfold matchLen; split <;> omega

/-- A copy of what a match found gives the bytes that follow (R146). -/
theorem copyMatch_of_match (l : List Byte) (d : Nat) (hd : 0 < d) (k : Nat) :
    ∀ {m i : Nat}, d ≤ i → i ≤ l.length → k ≤ matchLen l m (i - d) i → copyMatch d k (l.take i).reverse = (l.take (i + k)).reverse := by
  induction k with
  | zero => intros; rfl
  | succ k ih =>
    intro m i hdi hil hk
    cases m with
    | zero => exact absurd hk (by simp [matchLen])
    | succ m =>
      rw [matchLen] at hk
      split at hk
      case isFalse => omega
      case isTrue hc =>
        obtain ⟨hlt, heq⟩ := hc
        have hget : (l.take i).reverse.getD (d - 1) 0 = l.getD i 0 := by
          rw [← heq]
          have hlen : (l.take i).length = i := List.length_take_of_le hil
          rw [List.getD_eq_getElem?_getD, List.getElem?_reverse (by omega), hlen, List.getElem?_take_of_lt (by omega),
            List.getD_eq_getElem?_getD, show i - 1 - (d - 1) = i - d by omega]
        rw [copyMatch, hget, ← take_succ_reverse l hlt, ih (m := m) (i := i + 1) (by omega) hlt (by rw [show i + 1 - d = i - d + 1 by omega]; omega),
          show i + 1 + k = i + (k + 1) by omega]

/-- A match found at a place: what the greedy sequence of R151 copies. -/
def MatchAt (l : List Byte) (i : Nat) (b : Nat × Nat) : Prop :=
  3 ≤ b.1 ∧ 0 < b.2 ∧ b.2 ≤ 4095 ∧ b.2 ≤ i ∧ b.1 = matchLen l (l.length - i) (i - b.2) i

theorem lt_of_mem_candidates {l : List Byte} {i p : Nat} (h : p ∈ candidates l i) : p < i := by
  unfold candidates at h
  split at h
  · cases h
  · have := List.mem_of_mem_take h
    simp only [List.mem_filter, List.mem_reverse, List.mem_range] at this
    exact this.1

theorem bestMatch_spec {l : List Byte} {i : Nat} {b : Nat × Nat} (h : bestMatch l i = some b) : MatchAt l i b := by
  have hall : ∀ b, bestMatch l i = some b → MatchAt l i b := by
    refine List.foldlRecOn (motive := fun best => ∀ b, best = some b → MatchAt l i b) (candidates l i) _ (by simp) ?_
    intro best hbest p hp
    have hpi := lt_of_mem_candidates hp
    dsimp only
    split
    · exact hbest
    · rename_i hc
      have hnew : MatchAt l i (matchLen l (l.length - i) p i, i - p) :=
        ⟨by dsimp only; omega, by dsimp only; omega, by dsimp only; omega, by dsimp only; omega, by
          rw [show i - (matchLen l (l.length - i) p i, i - p).2 = p by dsimp only; omega]⟩
      split
      · rintro b ⟨⟩; exact hnew
      · split
        · rintro b ⟨⟩; exact hnew
        · exact hbest
  exact hall b h

/-! Payloads. -/

/-- Bytes of bits are those bits, and zeros after them. -/
theorem byteBits_bitsToBytes (n : Nat) : ∀ l : List Bool, l.length ≤ n → ∃ k, byteBits (bitsToBytes n l) = l ++ List.replicate k false := by
  induction n with
  | zero => intro l h; exact ⟨0, by rw [List.length_eq_zero_iff.1 (Nat.le_zero.1 h)]; rfl⟩
  | succ n ih =>
    intro l h
    rw [bitsToBytes]
    split
    · rename_i he; exact ⟨0, by rw [List.isEmpty_iff.1 he]; rfl⟩
    · rename_i he
      have hl : 0 < l.length := List.length_pos_iff.2 (by simpa using he)
      obtain ⟨k, hk⟩ := ih (l.drop 8) (by rw [List.length_drop]; omega)
      have hbyte : bitsLsb 8 (BitVec.ofNat 8 (natOfLsb (l.take 8))).toNat = l.take 8 ++ List.replicate (8 - (l.take 8).length) false := by
        have hlen : (l.take 8).length ≤ 8 := List.length_take_le 8 l
        have hlt : natOfLsb (l.take 8) < 2 ^ 8 := (natOfLsb_lt _).trans_le (Nat.pow_le_pow_right (by omega) hlen)
        rw [BitVec.toNat_ofNat, Nat.mod_eq_of_lt hlt, bitsLsb_natOfLsb 8 _ hlen]
      rw [byteBits, List.flatMap_cons, hbyte]
      rw [byteBits] at hk
      rw [hk]
      rcases Nat.lt_or_ge l.length 8 with hlt | hge
      · refine ⟨8 - l.length + k, ?_⟩
        rw [List.take_of_length_le (by omega), List.drop_of_length_le (by omega), List.nil_append, List.append_assoc, ← List.replicate_add]
      · refine ⟨k, ?_⟩
        rw [List.length_take_of_le hge, Nat.sub_self, List.replicate_zero, List.append_nil, ← List.append_assoc, List.take_append_drop]

/-- END and zeros finish a block whose bytes are all there (R146, R148). -/
theorem decodeSyms_end {t fuel k : Nat} (ht : t < 4) (l : List Byte) :
    decodeSyms t l.length (fuel + 1) (bitsMsb (mainLen t 256) (codeOf (mainLen t) 273 256) ++ List.replicate k false) l.reverse = .ok l := by
  rw [decodeSyms, readCode_main ht (by omega)]
  simp

/-- A literal is read as its byte. -/
theorem decodeSyms_lit {t fuel raw : Nat} (ht : t < 4) (b : Byte) (r : List Bool) {out : List Byte} (hout : out.length < raw) :
    decodeSyms t raw (fuel + 1) (tokBits t (.lit b) ++ r) out = decodeSyms t raw fuel r (b :: out) := by
  have hb : b.toNat < 256 := b.isLt
  rw [decodeSyms, tokBits, readCode_main ht (by omega)]
  simp [hb, Nat.not_le.2 hout]

/-- A match is read as its length and distance (R146). -/
theorem decodeSyms_copy {t fuel raw n d : Nat} (ht : t < 4) (h3 : 3 ≤ n) (hn : n ≤ 4096) (hd : 0 < d) (hd' : d ≤ 4095) (r : List Bool)
    {out : List Byte} (hdist : d ≤ out.length) (hout : out.length + n ≤ raw) :
    decodeSyms t raw (fuel + 1) (tokBits t (.copy n d) ++ r) out = decodeSyms t raw fuel r (copyMatch d n out) := by
  obtain ⟨hbase, hex, hsym, hsym'⟩ := lengthBase_lengthSym h3 hn
  have hlog : Nat.log2 d < 12 := (Nat.log2_lt (by omega)).2 (by omega)
  have hpow : 2 ^ Nat.log2 d ≤ d := Nat.log2_self_le (by omega)
  have hpow' : d < 2 ^ (Nat.log2 d + 1) := Nat.lt_log2_self
  rw [Nat.pow_succ] at hpow'
  have hread : ∀ w v r, v < 2 ^ w → natOfLsb ((bitsLsb w v ++ r).take w) = v := fun w v r hv => by
    rw [List.take_left' (length_bitsLsb _ _), natOfLsb_bitsLsb, Nat.mod_eq_of_lt hv]
  simp only [decodeSyms, tokBits, distCode, List.append_assoc]
  rw [readCode_main ht hsym']
  dsimp only
  rw [if_neg (by omega), if_neg (by omega), List.drop_left' (length_bitsLsb _ _), readCode_dist ht hlog]
  dsimp only
  rw [hread _ _ _ hex, hread _ _ _ (by omega), List.drop_left' (length_bitsLsb _ _), hbase, Nat.add_sub_cancel' hpow]
  rw [if_neg (by simp [length_bitsLsb]), if_neg (by omega), if_neg (by omega)]

/-- The greedy sequence from a place on, END and zeros are read as the bytes from there on. -/
theorem decodeSyms_tokens {t k : Nat} (ht : t < 4) {l : List Byte} (hl : l.length ≤ 4096) (m : Nat) :
    ∀ {i fuel : Nat}, i ≤ l.length → l.length - i ≤ m → m < fuel →
      decodeSyms t l.length fuel ((tokens l m i).flatMap (tokBits t) ++ (bitsMsb (mainLen t 256) (codeOf (mainLen t) 273 256) ++
        List.replicate k false)) (l.take i).reverse = .ok l := by
  have hdone : ∀ {i fuel : Nat}, l.length ≤ i → 0 < fuel →
      decodeSyms t l.length fuel (bitsMsb (mainLen t 256) (codeOf (mainLen t) 273 256) ++ List.replicate k false) (l.take i).reverse = .ok l := by
    intro i fuel hi hfuel
    obtain ⟨fuel, rfl⟩ : ∃ f, fuel = f + 1 := ⟨fuel - 1, by omega⟩
    rw [List.take_of_length_le hi]
    exact decodeSyms_end ht l
  induction m with
  | zero => intro i fuel hi hm hfuel; exact hdone (by omega) hfuel
  | succ m ih =>
    intro i fuel hi hm hfuel
    rw [tokens]
    split
    case isTrue h => exact hdone h (by omega)
    case isFalse h =>
      obtain ⟨fuel, rfl⟩ : ∃ f, fuel = f + 1 := ⟨fuel - 1, by omega⟩
      have hlen : (l.take i).reverse.length = i := by rw [List.length_reverse, List.length_take_of_le hi]
      split
      case h_1 n d hb =>
        obtain ⟨h3, hd, hd', hdi, hn⟩ := bestMatch_spec hb
        dsimp only at h3 hd hd' hdi hn
        have hrest : n ≤ l.length - i := hn ▸ matchLen_le l _ _ _
        rw [List.flatMap_cons, List.append_assoc, decodeSyms_copy ht h3 (by omega) hd hd' _ (by omega) (by omega),
          copyMatch_of_match l d hd n hdi hi hn.le]
        exact ih (by omega) (by omega) (by omega)
      case h_2 =>
        rw [List.flatMap_cons, List.append_assoc, decodeSyms_lit ht _ _ (by omega), ← take_succ_reverse l (by omega)]
        exact ih (by omega) (by omega) (by omega)

/-- The payload of a block's sequence is read back as the block's bytes. -/
theorem decodeSyms_payloadOf {t : Nat} (ht : t < 4) {l : List Byte} (hl : l.length ≤ 4096) :
    decodeSyms t l.length (l.length + 1) (byteBits (payloadOf t (tokens l l.length 0))) [] = .ok l := by
  obtain ⟨k, hk⟩ := byteBits_bitsToBytes _ ((tokens l l.length 0).flatMap (tokBits t) ++ bitsMsb (mainLen t 256) (codeOf (mainLen t) 273 256)) le_rfl
  rw [payloadOf, hk, List.append_assoc]
  exact decodeSyms_tokens ht hl l.length (i := 0) (by omega) (by omega) (by omega)

theorem payloadOf_ne_nil (t : Nat) (ts : List Tok) : payloadOf t ts ≠ [] := by
  have hpos : 0 < (ts.flatMap (tokBits t) ++ bitsMsb (mainLen t 256) (codeOf (mainLen t) 273 256)).length := by
    have := (mainLen_bounds t 256).1
    simp only [List.length_append, bitsMsb, List.length_reverse, length_bitsLsb]; omega
  intro h
  rw [payloadOf] at h
  generalize ts.flatMap (tokBits t) ++ bitsMsb (mainLen t 256) (codeOf (mainLen t) 273 256) = bits at h hpos
  cases bits with
  | nil => exact absurd hpos (by simp)
  | cons b r => simp [bitsToBytes] at h

/-- The compressor's choice is the payload under one of the four tables (R151). -/
theorem bestPayload_spec (ts : List Tok) : ∃ t, t < 4 ∧ bestPayload ts = (t, payloadOf t ts) := by
  refine List.foldlRecOn (motive := fun b => ∃ t, t < 4 ∧ b = (t, payloadOf t ts)) [1, 2, 3] _ ⟨0, by omega, rfl⟩ ?_
  rintro b hb t ht
  dsimp only
  split
  · exact ⟨t, by simp at ht; omega, rfl⟩
  · exact hb

/-! Blocks. -/

/-- The header's fields (R144). -/
def blockFields (isRaw : Bool) (table : Nat) (last : Option Nat) (payload : List Byte) : List Field :=
  [(0, 1, isRaw.toNat), (1, 2, table), (3, 13, payload.length), (16, 1, last.isSome.toNat), (17, 12, (last.getD 1) - 1), (29, 3, 0)]

theorem apart_blockFields (isRaw : Bool) (table : Nat) (last : Option Nat) (payload : List Byte) :
    Apart (blockFields isRaw table last payload) := by
  simp [Apart, blockFields, List.pairwise_cons]

/-- The header, its top bits 0. -/
theorem packFields_blockFields (isRaw : Bool) (table : Nat) (last : Option Nat) (payload : List Byte) :
    packFields [(0, 1, isRaw.toNat), (1, 2, table), (3, 13, payload.length), (16, 1, last.isSome.toNat), (17, 12, (last.getD 1) - 1)] =
      packFields (blockFields isRaw table last payload) := by
  simp [blockFields, packFields]

/-- Header and payload of a block. -/
def blockBody (isRaw : Bool) (table : Nat) (last : Option Nat) (payload : List Byte) : List Byte :=
  bytesLE 4 (packFields (blockFields isRaw table last payload)) ++ payload

theorem length_blockBody (isRaw : Bool) (table : Nat) (last : Option Nat) (payload : List Byte) :
    (blockBody isRaw table last payload).length = 4 + payload.length := by
  rw [blockBody, List.length_append, length_bytesLE]

/-- A block is header, payload, trailer and zeros. -/
theorem packBlock_eq (index : Nat) (isRaw : Bool) (table : Nat) (last : Option Nat) (payload : List Byte) :
    ∃ z, packBlock index isRaw table last payload = blockBody isRaw table last payload ++
      (bytesLE 4 (blockCheck index (blockBody isRaw table last payload)) ++ z) := by
  rw [packBlock, packFields_blockFields, padTo]
  exact ⟨_, List.append_assoc _ _ _⟩

theorem length_padTo {m : Nat} (hm : 0 < m) (l : List Byte) : (padTo m l).length = roundUp l.length m := by
  have hle : l.length ≤ roundUp l.length m := by
    have := Nat.div_add_mod (l.length + m - 1) m
    have hlt := Nat.mod_lt (l.length + m - 1) hm
    rw [roundUp, Nat.mul_comm]; omega
  rw [padTo, List.length_append, List.length_replicate, Nat.add_sub_cancel' hle]

theorem length_packBlock (index : Nat) (isRaw : Bool) (table : Nat) (last : Option Nat) (payload : List Byte) :
    (packBlock index isRaw table last payload).length = roundUp (payload.length + 8) 16 := by
  rw [packBlock, length_padTo (by omega)]
  simp only [List.length_append, length_bytesLE]
  congr 1; omega

/-- A check of a block is a number of 32 bits. -/
theorem blockCheck_lt {index : Nat} (hi : index < 2 ^ 32) (l : List Byte) : blockCheck index l < 2 ^ 32 :=
  Nat.xor_lt_two_pow (crcRef_lt _ _ 32 l (by omega) (by decide) (Nat.xor_lt_two_pow (by decide) hi)) (by decide)

/-- A packed block passes the decompressor's checks, and what it gives is its payload when raw, else what that decodes to (R144, R145, R148). -/
theorem decodeBlock_packBlock {index raw table size : Nat} {isRaw : Bool} {last : Option Nat} {payload : List Byte} (hi : index < 2 ^ 32)
    (ht : table < 4) (hpos : 0 < payload.length) (hlen : payload.length < 2 ^ 13)
    (hraw : isRaw = true → table = 0 ∧ payload.length = raw)
    (hsize : size = 0 ∨ size = (packBlock index isRaw table last payload).length) :
    decodeBlock index raw size (packBlock index isRaw table last payload) =
      if isRaw then .ok payload else decodeSyms table raw (raw + 1) (byteBits payload) [] := by
  have hsize' : size = 0 ∨ size = roundUp (payload.length + 8) 16 := by rwa [length_packBlock] at hsize
  obtain ⟨z, hz⟩ := packBlock_eq index isRaw table last payload
  set x := packFields (blockFields isRaw table last payload) with hx
  have hap := apart_blockFields isRaw table last payload
  have hhdr : leAt (packBlock index isRaw table last payload) 0 4 = bitsAt x 0 32 := by
    rw [hz, blockBody, List.append_assoc]; exact leAt_bytesLE_append 4 x _ 0 4 (by omega)
  have hfield : ∀ lo w v, lo + w ≤ 32 → (lo, w, v) ∈ blockFields isRaw table last payload → v < 2 ^ w → bitsAt (bitsAt x 0 32) lo w = v :=
    fun lo w v h hf hv => by rw [bitsAt_bitsAt _ _ _ _ _ h, Nat.zero_add, hx, bitsAt_packFields_of_lt hap hf hv]
  have hisRaw : bitAt (bitsAt x 0 32) 0 = isRaw := by
    rw [bitAt, hfield 0 1 isRaw.toNat (by omega) (by simp [blockFields]) (Bool.toNat_lt _)]; cases isRaw <;> rfl
  have htable : bitsAt (bitsAt x 0 32) 1 2 = table := hfield 1 2 table (by omega) (by simp [blockFields]) ht
  have hplen : bitsAt (bitsAt x 0 32) 3 13 = payload.length := hfield 3 13 _ (by omega) (by simp [blockFields]) hlen
  have htop : bitsAt (bitsAt x 0 32) 29 3 = 0 := hfield 29 3 0 (by omega) (by simp [blockFields]) (by decide)
  have hbody : (packBlock index isRaw table last payload).take (4 + payload.length) = blockBody isRaw table last payload := by
    rw [hz]; exact List.take_left' (length_blockBody ..)
  have htrail : leAt (packBlock index isRaw table last payload) (4 + payload.length) 4 = blockCheck index (blockBody isRaw table last payload) := by
    rw [hz, leAt_append_right _ _ _ _ (length_blockBody ..).symm, leAt, List.drop_zero, List.take_left' (length_bytesLE 4 _), natLE_bytesLE,
      Nat.mod_eq_of_lt (show _ < 256 ^ 4 from blockCheck_lt hi _)]
  have hpay : ((packBlock index isRaw table last payload).drop 4).take payload.length = payload := by
    rw [hz, blockBody, List.append_assoc, List.drop_left' (length_bytesLE 4 _)]; exact List.take_left' rfl
  have htotal : payload.length + 8 ≤ (packBlock index isRaw table last payload).length := by
    rw [hz, List.length_append, List.length_append, length_blockBody, length_bytesLE]; omega
  rw [decodeBlock]
  simp only [hhdr, hisRaw, htable, hplen, htop, hbody, htrail, hpay]
  rw [if_neg, if_neg, if_neg (by simp)]
  · rintro (h | ⟨h, h'⟩ | ⟨h, h'⟩ | h)
    · omega
    · exact hsize'.elim h fun e => h' e.symm
    · exact h' (hraw h).2
    · omega
  · rintro (h | ⟨h, h'⟩)
    · exact h rfl
    · exact h' (hraw h).1

/-- Settles O60: a raw block's payload is its bytes, and a coded one's is read symbol by symbol. -/
theorem sluiceBlocksRead : Obligations.SluiceBlocksRead := by
  unfold Obligations.SluiceBlocksRead
  intro index forceRaw last raw size hi hpos hlen _ hsize
  obtain ⟨t, ht, hbest⟩ := bestPayload_spec (tokens raw raw.length 0)
  have hcoded := List.length_pos_iff.2 (payloadOf_ne_nil t (tokens raw raw.length 0))
  rw [encodeBlock, hbest] at hsize ⊢
  dsimp only at hsize ⊢
  split at hsize
  case isTrue h =>
    rw [if_pos h, decodeBlock_packBlock hi (by omega) hpos (by omega) (fun _ => ⟨rfl, rfl⟩) hsize]
    rfl
  case isFalse h =>
    have hshort : (payloadOf t (tokens raw raw.length 0)).length < raw.length := by simp at h; exact h.2
    rw [if_neg h, decodeBlock_packBlock hi ht hcoded (by omega) (fun h => absurd h (by decide)) hsize]
    exact decodeSyms_payloadOf ht hlen

end Sys2Proof.Machine
end

section
/-! What a step runs, and the invariant at reset. -/
namespace Sys2Proof.Machine
open Sys2Proof

/-- Settles O1: the first command of the queue runs on the rest of it, and an empty queue leaves time to pass. -/
theorem stepRunsTheFrontCommand : Obligations.StepRunsTheFrontCommand := by
  unfold Obligations.StepRunsTheFrontCommand
  refine ⟨fun s i rest h => ?_, fun s h => ?_⟩
  · rw [step, h]
  · rw [step, h]

/-- Settles O57: the store of the machine of reset lists no byte. -/
theorem resetIsInvariant : Obligations.ResetIsInvariant := by
  unfold Obligations.ResetIsInvariant
  rfl

end Sys2Proof.Machine
end

section
/-! Rings: when a guard of a ring's writes changes nothing, and what a write of a ring's registers leaves (R59 to R64). -/
namespace Sys2Proof.Machine
open Sys2Proof

/-! Guards and queues with nothing to do. -/

theorem guardWriteback_of_allowed {p q : State → Nat → State} {s : State} {i : Nat}
    (h : (getRings s i).wbEnable = true → ringDenied s i (getRings s i).wbSpace (getRings s i).wbAddr 64 = none) :
    guardWriteback p q s i = s := by
  unfold guardWriteback
  dsimp only
  split
  · rename_i hw; rw [h hw]
  · rfl

theorem guardRing_event_of_allowed {p q : State → Nat → State} {s : State} {i : Nat}
    (h : ringDenied s i (getRings s i).eq.space (repAddr (getRings s i).eq) 32 = none) : guardRing p q s i 5 = s := by
  simp [guardRing, h]

/-- An event ring and a writeback block whose next writes are allowed: nothing stops (R64). -/
theorem guardEvent_of_allowed {s : State} {i : Nat}
    (hwb : (getRings s i).wbEnable = true → ringDenied s i (getRings s i).wbSpace (getRings s i).wbAddr 64 = none)
    (heq : ringDenied s i (getRings s i).eq.space (repAddr (getRings s i).eq) 32 = none) : guardEvent s i = s := by
  unfold guardEvent guardWb
  split
  · rename_i hi; subst hi
    rw [guardWriteback_of_allowed hwb, guardRing_event_of_allowed heq]
  · rw [guardWriteback_of_allowed hwb, guardRing_event_of_allowed heq]

theorem flushLost_of_none {s : State} {i : Nat} (h : (getRings s i).lost = 0) : flushLost s i = s := by simp [flushLost, h]

theorem flushWaiting_of_none {s : State} {i : Nat} (h : (getRings s i).waiting = []) : flushWaiting s i = s := by
  simp [flushWaiting, h, flushReplies]

/-- Rings decide no access. -/
theorem ringDenied_modRings (s : State) (j : Nat) (f : SliceRings → SliceRings) (i : Nat) (sp : Bool) (a n : Nat) :
    ringDenied (modRings s j f) i sp a n = ringDenied s i sp a n := rfl

/-! Submission rings. -/

/-- A slice's submission ring is put in place of the old one. -/
def putSq (s : State) (i k : Nat) (q : SubRing) : State := modRings s i fun r => { r with sq := tset {} r.sq k q }

theorem sq_putSq (s : State) (i k : Nat) (q : SubRing) (j m : Nat) :
    tget {} (getRings (putSq s i k q) j).sq m = if (j, m) = (i, k) then q else tget {} (getRings s j).sq m := by
  by_cases hj : j = i
  · subst hj
    simp [putSq, tget_tset]
  · simp [putSq, hj]

theorem sq_putSq_self (s : State) (i k : Nat) (q : SubRing) : tget {} (getRings (putSq s i k q) i).sq k = q := by
  rw [sq_putSq, if_pos rfl]

theorem sq_putSq_ne (s : State) {i k : Nat} (q : SubRing) {j m : Nat} (h : (j, m) ≠ (i, k)) :
    tget {} (getRings (putSq s i k q) j).sq m = tget {} (getRings s j).sq m := by
  rw [sq_putSq, if_neg h]

/-- Setting one submission ring leaves all else but rings. -/
theorem quiet_putSq (s : State) (i k : Nat) (q : SubRing) : quiet (putSq s i k q) = quiet s := rfl

theorem exec_ringEnableWrite (i k v : Nat) (s : State) : exec (.ringEnableWrite i k v) s = .next (writeRingCtrl s i k v) := rfl

variable {s : State} {i k v : Nat}

/-- ENABLE written 1 on a stopped submission ring that may start (R60). -/
theorem writeRingCtrl_sq_enable (hopen : pageOpen s i = true) (hk : k < 4) (hallow : ringsAllowed s i = true)
    (hsize : sizeOk (bitsAt v 2 5) = true) (hon : bitAt v 0 = true) (hoff : (tget {} (getRings s i).sq k).enable = false) :
    let q := tget {} (getRings s i).sq k
    writeRingCtrl s i k v = putSq s i k { q with
      error := q.error && !bitAt v 7, space := bitAt v 1, sizeLog2 := bitsAt v 2 5, enable := true, head := 0, tail := 0, tags := [], ahead := [] } := by
  unfold writeRingCtrl writeSqCtrl putSq
  generalize tget {} (getRings s i).sq k = q at hoff
  simp [hopen, hk, hoff, hon, hallow, hsize]

/-- A write of the CTRL of an enabled submission ring: ENABLE and ERROR alone change (R60). -/
theorem writeRingCtrl_sq_enabled (hopen : pageOpen s i = true) (hk : k < 4) (hon : (tget {} (getRings s i).sq k).enable = true) :
    let q := tget {} (getRings s i).sq k
    writeRingCtrl s i k v = putSq s i k { q with enable := bitAt v 0, error := q.error && !bitAt v 7 } := by
  unfold writeRingCtrl writeSqCtrl putSq
  generalize tget {} (getRings s i).sq k = q at hon
  simp [hopen, hk, hon]

/-- ENABLE written 1 on a ring of a CREATED slice: ERROR is set and EV_RING_ERROR reports it (R60). -/
theorem writeRingCtrl_sq_created (hopen : pageOpen s i = true) (hk : k < 4) (hallow : ringsAllowed s i = false)
    (hon : bitAt v 0 = true) (hoff : (tget {} (getRings s i).sq k).enable = false) :
    let q := tget {} (getRings s i).sq k
    writeRingCtrl s i k v = postRingError (putSq s i k { q with space := bitAt v 1, sizeLog2 := bitsAt v 2 5, error := true }) i k 4 0 0 := by
  unfold writeRingCtrl writeSqCtrl putSq
  generalize tget {} (getRings s i).sq k = q at hoff
  simp [hopen, hk, hoff, hon, hallow]

/-- The reply ring as its enable leaves it (R59, R60). -/
def enabledRing (q : RepRing) (v : Nat) : RepRing :=
  { q with error := q.error && !bitAt v 7, vector := bitsAt v 8 4, holdoff := bitsAt v 16 8, space := bitAt v 1, sizeLog2 := bitsAt v 2 5
           enable := true, head := 0, tail := 0 }

/-- ENABLE written 1 on a stopped reply ring for which no reply waits (R60). -/
theorem writeRingCtrl_rq_enable (hopen : pageOpen s i = true) (hallow : ringsAllowed s i = true)
    (hsize : sizeOk (bitsAt v 2 5) = true) (hon : bitAt v 0 = true) (hoff : (getRings s i).rq.enable = false) (hwait : (getRings s i).waiting = []) :
    writeRingCtrl s i 4 v = modRings s i fun r => { r with rq := enabledRing (getRings s i).rq v } := by
  simp [writeRingCtrl, hopen, writeRepCtrl, hoff, hon, hallow, hsize]
  exact flushWaiting_of_none (by simp [hwait])

theorem repAddr_enabledRing (q : RepRing) (v : Nat) : repAddr (enabledRing q v) = q.base * 4096 := by simp [repAddr, enabledRing]

/-- ENABLE written 1 on a stopped event ring with no event lost, whose writes are allowed (R60, R64). -/
theorem writeRingCtrl_eq_enable (hopen : pageOpen s i = true) (hallow : ringsAllowed s i = true)
    (hsize : sizeOk (bitsAt v 2 5) = true) (hon : bitAt v 0 = true) (hoff : (getRings s i).eq.enable = false) (hlost : (getRings s i).lost = 0)
    (hden : ringDenied s i (bitAt v 1) ((getRings s i).eq.base * 4096) 32 = none)
    (hwb : (getRings s i).wbEnable = true → ringDenied s i (getRings s i).wbSpace (getRings s i).wbAddr 64 = none) :
    writeRingCtrl s i 5 v = modRings s i fun r => { r with eq := enabledRing (getRings s i).eq v } := by
  have hguard : guardEvent (modRings s i fun r => { r with eq := enabledRing (getRings s i).eq v }) i =
      modRings s i fun r => { r with eq := enabledRing (getRings s i).eq v } :=
    guardEvent_of_allowed (by simpa [ringDenied_modRings] using hwb) (by
      simp only [getRings_modRings, if_true, repAddr_enabledRing, ringDenied_modRings]; exact hden)
  simp [writeRingCtrl, hopen, writeRepCtrl, hoff, hon, hallow, hsize]
  exact (congrArg (flushLost · i) hguard).trans (flushLost_of_none (by simp [hlost]))

/-- Settles O2: the write of a ring's CTRL in each of its cases, and the clear of ERROR. -/
theorem ringsEnabled : Obligations.RingsEnabled := by
  unfold Obligations.RingsEnabled
  refine ⟨fun s i k v hopen hk hallow hsize hon hoff => ?_, fun s i v hopen hallow hsize hon hoff hwait => ?_,
    fun s i v hopen hallow hsize hon hoff hlost hden hwb => ?_, fun s i k v hopen hk hen => ?_, fun s i k hopen hk => ?_,
    fun s i k v hopen hk hi hcreated hon hoff => ?_⟩
  · refine ⟨_, (exec_ringEnableWrite i k v s).trans (congrArg _ (writeRingCtrl_sq_enable hopen hk hallow hsize hon hoff)),
      quiet_putSq .., rfl, rfl, ?_, fun j m hjm => sq_putSq_ne s _ hjm⟩
    rw [sq_putSq_self]
    exact ⟨rfl, rfl, rfl, rfl, rfl, rfl, rfl⟩
  · refine ⟨_, (exec_ringEnableWrite i 4 v s).trans (congrArg _ (writeRingCtrl_rq_enable hopen hallow hsize hon hoff hwait)),
      rfl, rfl, rfl, by simp [enabledRing], fun j => ?_⟩
    by_cases hj : j = i <;> simp [hj]
  · refine ⟨_, (exec_ringEnableWrite i 5 v s).trans (congrArg _ (writeRingCtrl_eq_enable hopen hallow hsize hon hoff hlost hden hwb)),
      rfl, rfl, rfl, by simp [enabledRing], fun j => ?_⟩
    by_cases hj : j = i <;> simp [hj]
  · refine ⟨_, (exec_ringEnableWrite i k v s).trans (congrArg _ (writeRingCtrl_sq_enabled hopen hk hen)), quiet_putSq .., rfl, rfl, sq_putSq_self ..⟩
  · have hexec : exec (.ringErrorClear i k) s = .next (clearRingError s i k) := by
      show Host.Outcome.next (if pageOpen s i = true then clearRingError s i k else s) = _
      rw [if_pos hopen]
    have hclear : clearRingError s i k = putSq s i k { tget {} (getRings s i).sq k with error := false } := by
      simp only [clearRingError, hk, if_true, putSq, modRings, tmod, getRings]
    refine ⟨_, hexec.trans (congrArg _ hclear), quiet_putSq .., rfl, rfl, sq_putSq_self .., fun j m hjm => sq_putSq_ne s _ hjm⟩
  · have hallow : ringsAllowed s i = false := by simp [ringsAllowed, hi, hcreated]
    refine ⟨_, (exec_ringEnableWrite i k v s).trans (congrArg _ (writeRingCtrl_sq_created hopen hk hallow hon hoff)), by simp [quiet_putSq], ?_⟩
    rw [sq_fixed (fixedOf_postRingError ..) i, sq_putSq_self]
    exact ⟨hoff, rfl⟩

end Sys2Proof.Machine
end

section
/-! Doorbells, heads and interrupt intervals (R62, R63, R77, R80). -/
namespace Sys2Proof.Machine
open Sys2Proof

theorem exec_sqTailDoorbell (i k n : Nat) (s : State) : exec (.sqTailDoorbell i k n) s = .next (writeSqTail s i k n) := rfl

theorem exec_rqHeadWrite (i n : Nat) (s : State) : exec (.rqHeadWrite i n) s = .next (writeRqHead s i n) := rfl

theorem exec_eqHeadWrite (i n : Nat) (s : State) : exec (.eqHeadWrite i n) s = .next (writeEqHead s i n) := rfl

variable {s : State} {i : Nat}

/-- With its hold-off over and an interrupt waiting, a reply ring raises its vector and the next interval begins (R63). -/
theorem exec_interruptHoldoffExpiry_reply (hrun : (getRings s i).rq.holdRunning = true) (hpend : (getRings s i).rq.irqPending = true)
    (hpass : passed s (getRings s i).rq.holdAt (1000 * (getRings s i).rq.holdoff) = true) :
    exec (.interruptHoldoffExpiry i 4) s =
      .next (ringInterrupt (modRings s i fun x => { x with rq := { x.rq with holdRunning := false, irqPending := false } }) i false) := by
  show execInterruptHoldoffExpiry i 4 s = _
  simp [execInterruptHoldoffExpiry, hrun, hpend, hpass]

/-- With its hold-off over and no interrupt waiting, an event ring's interval ends (R63). -/
theorem exec_interruptHoldoffExpiry_event (hrun : (getRings s i).eq.holdRunning = true) (hpend : (getRings s i).eq.irqPending = false)
    (hpass : passed s (getRings s i).eq.holdAt (1000 * (getRings s i).eq.holdoff) = true) :
    exec (.interruptHoldoffExpiry i 5) s =
      .next (modRings s i fun x => { x with eq := { x.eq with holdRunning := false, irqPending := false } }) := by
  show execInterruptHoldoffExpiry i 5 s = _
  simp [execInterruptHoldoffExpiry, hrun, hpend, hpass]

@[simp] theorem upTime_modRings (s : State) (i : Nat) (f : SliceRings → SliceRings) : upTime (modRings s i f) = upTime s := rfl

/-- A vector that is unmasked is sent while the host is in reach (R451). -/
theorem raiseEntry_of_unmasked {s : State} {e : Nat} (hhead : s.regs.headless = false) (hloop : s.regs.loopback = false)
    (hmask : tget false s.regs.unmasked e = true) : raiseEntry s e = emit s (.msix e) := by
  simp [raiseEntry, hhead, hloop, hmask]

/-- Settles O3: a doorbell announces or is ignored, a head moves, and the end of an interval raises what waits. -/
theorem ringDoorbells : Obligations.RingDoorbells := by
  unfold Obligations.RingDoorbells
  refine ⟨fun s i k n hopen hk hfit => ?_, fun s i k n hopen hk hover => ?_, fun s i n hopen => ?_, fun s i n hopen => ?_,
    fun s i hrun hpend hoff hhead hloop hpass hmask => ?_, fun s i hrun hpend hpass => ?_⟩
  · have hput : writeSqTail s i k n = putSq s i k { tget {} (getRings s i).sq k with
        tail := BitVec.ofNat 32 n, ahead := (tget {} (getRings s i).sq k).ahead.take (BitVec.ofNat 32 n - (tget {} (getRings s i).sq k).head).toNat } := by
      simp only [writeSqTail, hopen, hk, decide_true, Bool.not_true, Bool.or_self, Bool.false_eq_true, if_false]
      rw [if_neg (Nat.not_lt.2 hfit)]
      rfl
    exact ⟨_, (exec_sqTailDoorbell i k n s).trans (congrArg _ hput), quiet_putSq .., rfl, rfl, sq_putSq_self ..,
      fun j m hjm => sq_putSq_ne s _ hjm⟩
  · have hpost : writeSqTail s i k n = postRingError s i k 1 (BitVec.ofNat 32 n).toNat 0 := by
      simp only [writeSqTail, hopen, hk, decide_true, Bool.not_true, Bool.or_self, Bool.false_eq_true, if_false]
      rw [if_pos hover]
    exact ⟨_, (exec_sqTailDoorbell i k n s).trans (congrArg _ hpost), by simp, fun j => sq_fixed (by simp) j⟩
  · refine ⟨_, (exec_rqHeadWrite i n s).trans (congrArg _ (if_pos hopen)), by simp, ?_, fun j => ⟨?_, ?_, ?_⟩⟩
    · rw [rqh_fixed (fixedOf_flushWaiting ..)]; simp
    · rw [sq_fixed (fixedOf_flushWaiting ..)]; by_cases hj : j = i <;> simp [hj]
    · rw [held_fixed (fixedOf_flushWaiting ..)]; by_cases hj : j = i <;> simp [hj]
    · rw [eqh_fixed (fixedOf_flushWaiting ..)]; by_cases hj : j = i <;> simp [hj]
  · have hfix : ∀ u : State, fixedOf (flushLiveness (flushLost (guardEvent u i) i) i) = fixedOf u := fun u =>
      (fixed_flushLiveness _ i).trans ((fixedOf_flushLost _ i).trans ((steady_fixedOf u).guardEvent i rfl))
    refine ⟨_, (exec_eqHeadWrite i n s).trans (congrArg _ (if_pos hopen)), ?_, fun j => ⟨?_, ?_, ?_⟩⟩
    · rw [eqh_fixed (hfix _)]; simp
    · rw [sq_fixed (hfix _)]; by_cases hj : j = i <;> simp [hj]
    · rw [held_fixed (hfix _)]; by_cases hj : j = i <;> simp [hj]
    · rw [rqh_fixed (hfix _)]; by_cases hj : j = i <;> simp [hj]
  · have hraise : ∀ u : State, (getRings u i).rq.holdRunning = false → u.regs = s.regs → (getRings u i).rq.vector = (getRings s i).rq.vector →
        ringInterrupt u i false = emit (modRings u i fun x => { x with rq := { x.rq with holdRunning := decide (x.rq.holdoff ≠ 0), holdAt := upTime u } })
          (.msix (msixEntry i (getRings s i).rq.vector)) := fun u hrun hregs hvec => by
      simp only [ringInterrupt, Bool.false_eq_true, if_false, hrun, hvec]
      exact raiseEntry_of_unmasked (by rw [modRings_regs, hregs, hhead]) (by rw [modRings_regs, hregs, hloop]) (by rw [modRings_regs, hregs, hmask])
    refine ⟨_, (exec_interruptHoldoffExpiry_reply hrun hpend hpass).trans (congrArg _ (hraise _ (by simp) rfl (by simp))), rfl, rfl, rfl, ?_⟩
    simp [hoff, hrun]
  · refine ⟨_, exec_interruptHoldoffExpiry_event hrun hpend hpass, rfl, rfl, rfl, ?_⟩
    simp [hpend]

end Sys2Proof.Machine
end

section
/-! Packet rows: each runs its packet through its own checks, a failing check answers alone, and a timed packet is armed (R68, R70, R84). -/
namespace Sys2Proof.Machine
open Sys2Proof

/-- The row runs its packet directly: its form, its checks, and some action. -/
def PacketRow.RunsDirect (r : PacketRow) : Prop :=
  ∃ act, ∀ (c : Cmd) (s : State), exec (r.row c) s = .next (runDirect s c r.op r.form r.check act)

/-- The row arms its packet when that is timed, and else runs it. -/
def PacketRow.RunsOrArms (r : PacketRow) : Prop :=
  ∃ act, ∀ (c : Cmd) (s : State), exec (r.row c) s = .next (runPacket s c r.op r.form r.check act)

theorem PacketRow.RunsOrArms.runsDirect {r : PacketRow} (h : r.RunsOrArms) : r.RunsDirect := by
  obtain ⟨act, h⟩ := h
  exact ⟨_, fun c s => h c s⟩

theorem timedRows_arm : ∀ r ∈ timedRows, r.RunsOrArms := by
  intro r hr
  fin_cases hr <;> exact ⟨_, fun _ _ => rfl⟩

theorem storeRows_run : ∀ r ∈ storeRows, r.RunsDirect := by
  intro r hr
  fin_cases hr <;> exact ⟨_, fun _ _ => rfl⟩

theorem timeRows_run : ∀ r ∈ timeRows, r.RunsDirect := by
  intro r hr
  fin_cases hr <;> exact ⟨_, fun _ _ => rfl⟩

theorem serviceRows_run : ∀ r ∈ serviceRows, r.RunsDirect := by
  intro r hr
  fin_cases hr <;> exact ⟨_, fun _ _ => rfl⟩

/-- Every packet row runs its packet through its checks at step 8 of R68. -/
theorem rows_run (r : PacketRow) (hr : r ∈ timedRows ++ storeRows ++ timeRows ++ serviceRows) : r.RunsDirect := by
  simp only [List.mem_append] at hr
  rcases hr with ((hr | hr) | hr) | hr
  · exact (timedRows_arm r hr).runsDirect
  · exact storeRows_run r hr
  · exact timeRows_run r hr
  · exact serviceRows_run r hr

variable {s : State} {c : Cmd} {h : Held} {r : PacketRow}

/-- A packet that fails a check of its row is answered with that check's status and detail (R68). -/
theorem PacketRow.RunsDirect.fails (hrun : r.RunsDirect) {f : Fail} (hr : Ready s c r.op h) (hform : r.form h = true)
    (hc : r.check s h c = some f) : Answers (r.row c) s c h f.1 (nowBits s) f.2 s := by
  obtain ⟨act, hrun⟩ := hrun
  exact hr.answers ((hrun c s).trans (congrArg _ (hr.runDirect_fail hform hc)))

/-- A row whose packet is not held changes nothing. -/
theorem PacketRow.RunsDirect.becomes (hrun : r.RunsDirect) (hnone : findHeld s (Cmd.key c) = none) : Becomes (r.row c) s s := by
  obtain ⟨act, hrun⟩ := hrun
  have hsame : runDirect s c r.op r.form r.check act = s := by
    simp only [Cmd.key] at hnone
    simp [runDirect, hnone]
  exact (hrun c s).trans (congrArg _ hsame)

/-- What an arming leaves (R70). -/
theorem PacketRow.RunsOrArms.arms (hrun : r.RunsOrArms) (hr : Ready s c r.op h) (hform : r.form h = true)
    (hc : r.check s h c = none) (ht : pktTimed h.pkt = true) : exec (r.row c) s = .next (armPacket s h) := by
  obtain ⟨act, hrun⟩ := hrun
  exact (hrun c s).trans (congrArg _ (hr.arms hform hc ht))

theorem armPacket_of_room (hroom : armedCount s h.slice < 64) :
    armPacket s h = modHeld s (heldKey h) fun x => { x with phase := .armed, due := wpOfBits (pktDue h.pkt) } :=
  if_neg (Nat.not_le.2 hroom)

/-- Settles O53: rows run their checks, timed rows arm, and NOP replies. -/
theorem packetsCheckedAndArmed : Obligations.PacketsCheckedAndArmed := by
  unfold Obligations.PacketsCheckedAndArmed
  refine ⟨fun r hr s c h f hready hform hc => (rows_run r hr).fails hready hform hc, fun r hr s c h hready hform hc ht => ⟨fun hroom => ?_, fun hfull => ?_⟩,
    fun r hr s c hnone => (rows_run r hr).becomes hnone, fun s c h hready hc => ?_⟩
  · have hexec := (timedRows_arm r hr).arms hready hform hc ht
    rw [armPacket_of_room hroom, hready.key] at hexec
    exact ⟨_, hexec, findHeld_modHeld s _ _ (fun _ => ⟨rfl, rfl⟩) hready.1, rfl, rfl, rfl, fun j hj => by simp [modHeld, Cmd.key, hj]⟩
  · have hexec := (timedRows_arm r hr).arms hready hform hc ht
    exact hready.answers (hexec.trans (congrArg _ (if_pos hfull)))
  · exact hready.1.answers (congrArg Host.Outcome.next (hready.runPacket rfl hc))

end Sys2Proof.Machine
end

section
/-! What rows of packets share: the WP of a reply after other state has changed, and a packet that stays held past its commit point (R74). -/
namespace Sys2Proof.Machine
open Sys2Proof

theorem nowBits_of_time {s t : State} (h : t.time = s.time) : nowBits t = nowBits s := by simp only [nowBits, now, h]

/-- A fold of changes that leave the time leaves the WP now. -/
theorem nowBits_forEach {α : Type} (l : List α) (f : α → State → State) (s : State) (h : ∀ a t, (f a t).time = t.time) :
    nowBits (forEach l f s) = nowBits s := nowBits_of_time (forEach_same (·.time) l f s h)

/-- A row whose outcome is the end of the packet it names at the WP now. -/
theorem answersNow_of_find {s t : State} {c : Cmd} {h : Held} {i : Instr} {st : Status} {f : List Field}
    (hf : findHeld s (Cmd.key c) = some h) (hs : h.slice = c.slice) (he : exec i s = .next (finishNow t h st f)) (hn : nowBits t = nowBits s) :
    Answers i s c h st (nowBits s) f t := hn ▸ answers_of_find hf hs he

/-- A row whose outcome is the end of its packet at the WP now. -/
theorem Ready.answersNow {s t : State} {c : Cmd} {op : Nat} {h : Held} (hr : Ready s c op h) {i : Instr} {st : Status} {f : List Field}
    (he : exec i s = .next (finishNow t h st f)) (hn : nowBits t = nowBits s) : Answers i s c h st (nowBits s) f t :=
  answersNow_of_find hr.1 hr.2.1 he hn

/-- A row whose outcome is that the packet it names is past its commit point. -/
theorem holds_of_find {s t : State} {c : Cmd} {h : Held} {i : Instr} (hf : findHeld s (Cmd.key c) = some h) (hs : h.slice = c.slice)
    (he : exec i s = .next (holdOn t h)) (ht : t.rings = s.rings) : Holds i s c h t := by
  have hkey : heldKey h = Cmd.key c := heldKey_of_find hf hs
  have hget : ∀ j, getRings t j = getRings s j := fun j => by simp [getRings, ht]
  refine ⟨_, he, ?_, rfl, rfl, rfl, fun j hj => by simp [holdOn, modHeld, hkey, Cmd.key, hj]⟩
  rw [holdOn, hkey]
  exact findHeld_modHeld t _ _ (fun _ => ⟨rfl, rfl⟩) ((findHeld_congr _ (by rw [hget])).trans hf)

end Sys2Proof.Machine
end

section
/-! Armed commands act at their WP_DUE (R43, R70, R72). -/
namespace Sys2Proof.Machine
open Sys2Proof

variable {s : State} {c : Cmd} {h : Held}

theorem exec_armedCommandActs (hf : findHeld s (Cmd.key c) = some h) : exec (.armedCommandActs c) s = .next (actWhenDue h c s) := by
  show Host.Outcome.next (match findHeld s (Cmd.key c) with | none => s | some h => actWhenDue h c s) = _
  rw [hf]

/-- An armed command that stands alone and is due acts as its row says. -/
theorem actWhenDue_single {m : Meaning} (hp : h.phase = .armed) (hpos : h.pos = 0) (hl : h.len = 1) (hop : pktOpcode h.pkt ≠ 0x203)
    (hdue : wpReached (now s) (actsAt h) = true) (hx : executorRuns s (pktOpcode h.pkt) = true) (hm : meaningOf h.pkt = some m) :
    actWhenDue h c s = m.act s h c := by
  simp [actWhenDue, hp, hpos, hl, hop, hdue, hx, actArmed, hm]

/-- An armed group that is due acts together. -/
theorem actWhenDue_group (hp : h.phase = .armed) (hpos : h.pos = 0) (hl : h.len ≠ 1) (hop : pktOpcode h.pkt ≠ 0x203)
    (hdue : wpReached (now s) (actsAt h) = true) (hx : executorRuns s (pktOpcode h.pkt) = true) :
    actWhenDue h c s = forEach (groupOf s h) (fun m s => actArmed m (if heldKey m = heldKey h then c else ioOf [] m) s) s := by
  simp [actWhenDue, hp, hpos, hl, hop, hdue, hx]

/-- Nothing happens for a packet that is not armed, not a group's first, not due, or whose executor does not run. -/
theorem actWhenDue_not_yet
    (hno : h.phase ≠ .armed ∨ h.pos ≠ 0 ∨ wpReached (now s) (actsAt h) = false ∨ executorRuns s (pktOpcode h.pkt) = false) :
    actWhenDue h c s = s := by
  rcases hno with hno | hno | hno | hno <;> simp [actWhenDue, hno]

/-- An opcode that does not act at a boundary acts at WP_DUE (R43). -/
theorem actsAt_eq_due (hop : actsAtBoundary (pktOpcode h.pkt) = false) : actsAt h = h.due := by simp [actsAt, hop]

/-- A due armed command with a meaning of its own that does not act at a boundary runs its row's action. -/
theorem exec_armedCommandActs_of_due {op : Nat} {m : Meaning} (hf : findHeld s (Cmd.key c) = some h) (hp : h.phase = .armed)
    (hpos : h.pos = 0) (hl : h.len = 1) (hdue : wpReached (now s) h.due = true) (hx : executorRuns s (pktOpcode h.pkt) = true)
    (hop : pktOpcode h.pkt = op) (hcommit : op ≠ 0x203) (hb : actsAtBoundary op = false) (hm : meaningOf h.pkt = some m) :
    exec (.armedCommandActs c) s = .next (m.act s h c) := by
  rw [exec_armedCommandActs hf, actWhenDue_single hp hpos hl (hop ▸ hcommit) (by rwa [actsAt_eq_due (hop ▸ hb)]) hx hm]

theorem meaningOf_hapticPlay {p : Packet} (hop : pktOpcode p = 0x904) :
    meaningOf p = some ⟨0x904, fun _ => true, checkHapticPlay, actHapticPlay⟩ := by
  unfold meaningOf; rw [hop]; rfl

theorem meaningOf_keyPicture {p : Packet} (hop : pktOpcode p = 0x503) :
    meaningOf p = some ⟨0x503, fun _ => true, checkKeyPicture, actKeyPicture⟩ := by
  unfold meaningOf; rw [hop]; rfl

theorem meaningOf_livenessSet {p : Packet} (hop : pktOpcode p = 0x601) :
    meaningOf p = some ⟨0x601, fun _ => true, checkLivenessSet, actLivenessSet⟩ := by
  unfold meaningOf; rw [hop]; rfl

/-- Settles O5: when an armed command acts, and what HAPTIC_PLAY, KEY_PICTURE and LIVENESS_SET then do. -/
theorem armedCommandActs : Obligations.ArmedCommandActs := by
  unfold Obligations.ArmedCommandActs
  refine ⟨fun s c h m hf hp hpos hl hop hdue hx hm => ?_, fun s c h hf hp hpos hl hop hdue hx => ?_, fun s c h hf hno => ?_,
    fun s c h hf hs hp hpos hl hdue hx => ⟨fun hop => ?_, fun hop => ?_, fun hop => ?_⟩⟩
  · exact (exec_armedCommandActs hf).trans (congrArg _ (actWhenDue_single hp hpos hl hop hdue hx hm))
  · exact (exec_armedCommandActs hf).trans (congrArg _ (actWhenDue_group hp hpos hl hop hdue hx))
  · exact (exec_armedCommandActs hf).trans (congrArg _ (actWhenDue_not_yet hno))
  · have hexec := exec_armedCommandActs_of_due hf hp hpos hl hdue hx hop (by decide) rfl (meaningOf_hapticPlay hop)
    simp only [actHapticPlay, hp, if_true] at hexec
    exact answersNow_of_find hf hs hexec (nowBits_forEach _ _ _ fun _ _ => rfl)
  · have hexec := exec_armedCommandActs_of_due hf hp hpos hl hdue hx hop (by decide) rfl (meaningOf_keyPicture hop)
    simp only [actKeyPicture, heldKey_of_find hf hs] at hexec
    exact holds_of_find hf hs hexec rfl
  · have hexec := exec_armedCommandActs_of_due hf hp hpos hl hdue hx hop (by decide) rfl (meaningOf_livenessSet hop)
    simp only [actLivenessSet, hp, true_and, hs] at hexec
    have hkey := heldKey_of_find hf hs
    obtain ⟨-, hring, hindex⟩ := CmdKey.mk.injEq .. ▸ hkey
    rw [hring, hindex] at hexec
    exact holds_of_find hf hs hexec rfl

end Sys2Proof.Machine
end

section
/-! A packet that passes its checks is taken from its ring and held (R68, R75, R78, R91). -/
namespace Sys2Proof.Machine
open Sys2Proof

variable {s : State} {i k : Nat} {host : List HostEntry} {ios : List Cmd} {raw : Packet}

/-- A submission ring whose HEAD has moved past n packets. -/
def passedHead (n : Nat) (q : SubRing) : SubRing :=
  { q with head := q.head + BitVec.ofNat 32 n, ahead := q.ahead.drop n, count := q.count + n }

/-- The books of n packets taken: their ring's HEAD and count, the slice last served, the command rate and the counter of packets (R75, R91, R439). -/
def packetTaken (s : State) (i k n : Nat) : State :=
  bump (modSlice { modRings s i fun r => { r with sq := tmod {} r.sq k (passedHead n) } with
    intakeLast := tset 64 s.intakeLast (clsCode (getSlice s i).cls) i } i fun x => { x with taken := x.taken + n }) 6 i 0 n

theorem getRings_packetTaken (s : State) (i k n j : Nat) : getRings (packetTaken s i k n) j =
    if j = i then { getRings s i with sq := tmod {} (getRings s i).sq k (passedHead n) } else getRings s j :=
  getRings_modRings s i j fun r => { r with sq := tmod {} r.sq k (passedHead n) }

theorem packetTaken_time (s : State) (i k n : Nat) : (packetTaken s i k n).time = s.time := rfl

theorem packetTaken_devState (s : State) (i k n : Nat) : (packetTaken s i k n).boot.state = s.boot.state := rfl

theorem share_packetTaken (s : State) (i k n : Nat) : (getSlice (packetTaken s i k n) i).share = (getSlice s i).share := by
  show (tget {} (tmod {} s.slices i fun x => { x with taken := x.taken + n }) i).share = _
  rw [tget_tmod_eq]
  rfl

theorem exec_packetFetch_of_take (hgroup : waitingGroup s i = none) (hroom : canTake s i 1 = true) (hturn : sliceTurn s i = true)
    (hpick : pickFrom s i host [0, 1, 2, 3] = .take k [raw]) :
    exec (.packetFetch i host [] ios) s =
      .next (takeSingle (writeback (guardWb (packetTaken s i k 1) i) i) i k (tget {} (getRings s i).sq k).count raw) := by
  have hexec : exec (.packetFetch i host [] ios) s = execPacketFetch i host [] ios s := rfl
  simp only [hexec, execPacketFetch, forEach, List.foldl_nil, hgroup, takeNext, hroom, hturn, hpick, Bool.not_true, Bool.false_eq_true, if_false]
  rfl

/-- Steps 1 to 7 of R68 pass. -/
theorem intake_pass {s : State} {row : OpRow} {flags : OpRow → Bool} (hlen : inRange (pktLength raw) 16 64 = true) (hres : pf raw 3 0 8 = 0)
    (hrow : opRow (pktOpcode (maskPacket raw)) = some row) (hdev : s.boot.state ≠ .deviceFault) (htag : tagCheck s i k (maskPacket raw) = none)
    (hman : row.manager = true → i = 0) (hflags : flags row = true)
    (hqueue : (getRings s i).held.length < (getSlice s i).share.queueLimit) : intake s i k raw flags = .pass := by
  have hman' : (row.manager && i != 0) = false := by
    cases h : row.manager
    · rfl
    · simp [hman h]
  simp only [intake, hlen, hres, hrow, hdev, htag, hman', hflags, bne_self_eq_false, Bool.not_true, Bool.or_self, Bool.false_eq_true, if_false]
  rw [if_neg (Nat.not_le.2 hqueue)]

theorem takeSingle_of_pass {s : State} {n : Nat}
    (h : intake s i k raw (fun row => flagsOk s row (pktTimed (maskPacket raw)) (pktDue (maskPacket raw))) = .pass) :
    takeSingle s i k n raw = holdPacket s i k n (maskPacket raw) 0 1 := by
  simp only [takeSingle, h]

/-- The tag window decides step 4 of R68. -/
theorem tagCheck_congr {s t : State} (h : (tget {} (getRings t i).sq k).tags = (tget {} (getRings s i).sq k).tags) (p : Packet) :
    tagCheck t i k p = tagCheck s i k p := by unfold tagCheck; rw [h]

/-- The time decides step 6 of R68. -/
theorem flagsOk_congr {s t : State} (h : t.time = s.time) (row : OpRow) (timed : Bool) (due : Nat) :
    flagsOk t row timed due = flagsOk s row timed due := by
  unfold flagsOk wpBadLine dueTooFar wallLines now; rw [h]

theorem sq_packetTaken (s : State) (i k n : Nat) :
    tget {} (getRings (packetTaken s i k n) i).sq k = passedHead n (tget {} (getRings s i).sq k) := by
  rw [getRings_packetTaken, if_pos rfl]
  exact tget_tmod_eq ..

/-- A packet held by itself joins its slice's packets, and its tag its ring's window (R78). -/
theorem getRings_holdPacket (s : State) (i k n : Nat) (p : Packet) (j : Nat) : getRings (holdPacket s i k n p 0 1) j =
    if j = i then { getRings s i with
      sq := tmod {} (getRings s i).sq k fun q =>
        { q with tags := (({ tag := pktTag p, opcode := pktOpcode p, crc := pktCrc p } : TagRec) :: q.tags).take 256 }
      held := (getRings s i).held ++ [{ slice := i, ring := k, index := n, pkt := p, taken := now s, pos := 0, len := 1 }] }
    else getRings s j := getRings_modRings s i j _

/-- Settles O4: the guard and the writeback that come between change nothing that the checks read. -/
theorem packetFetchTakes : Obligations.PacketFetchTakes := by
  unfold Obligations.PacketFetchTakes
  intro s i k host ios raw row hgroup hroom hturn hpick hlen hres hrow hdev htag hman hflags hqueue
  generalize hu : writeback (guardWb (packetTaken s i k 1) i) i = u
  have hquiet : quiet u = quiet (packetTaken s i k 1) := by
    rw [← hu, quiet_writeback]; exact (steady_quiet _).guardWb i rfl
  have hfixed : fixedOf u = fixedOf (packetTaken s i k 1) := by
    rw [← hu, fixedOf_writeback]; exact (steady_fixedOf _).guardWb i rfl
  have hheld : (getRings u i).held = (getRings s i).held := by
    rw [held_fixed hfixed i, getRings_packetTaken, if_pos rfl]
  have hsq : tget {} (getRings u i).sq k = passedHead 1 (tget {} (getRings s i).sq k) := by
    rw [sq_fixed hfixed i]; exact sq_packetTaken s i k 1
  have htime : u.time = s.time := (quiet_eq (·.time) quiet_time hquiet).trans (packetTaken_time ..)
  have hnow : now u = now s := by unfold now; rw [htime]
  have hboot : u.boot.state = s.boot.state  :=
    (quiet_eq (·.boot.state) (fun _ => rfl) hquiet).trans (packetTaken_devState ..)
  have hshare : (getSlice u i).share = (getSlice s i).share := by
    have hslices : u.slices = (packetTaken s i k 1).slices := quiet_eq (·.slices) quiet_slices hquiet
    rw [getSlice, hslices]; exact share_packetTaken s i k 1
  have hpass : takeSingle u i k (tget {} (getRings s i).sq k).count raw =
      holdPacket u i k (tget {} (getRings s i).sq k).count (maskPacket raw) 0 1 :=
    takeSingle_of_pass (intake_pass hlen hres hrow (hboot ▸ hdev) ((tagCheck_congr (by rw [hsq]; rfl) _).trans htag) hman
      ((flagsOk_congr htime _ _ _).trans hflags) (by rw [hheld, hshare]; exact hqueue))
  have hexec := exec_packetFetch_of_take (ios := ios) hgroup hroom hturn hpick
  rw [hu, hpass] at hexec
  refine ⟨_, hexec, ?_, hquiet.trans rfl, fun j hj => ?_⟩
  · rw [getRings_holdPacket, if_pos rfl, tget_tmod_eq, hsq, hheld, hnow]
    exact ⟨rfl, rfl, rfl, rfl, rfl, rfl⟩
  · have hother : getRings (packetTaken s i k 1) j = getRings s j := by rw [getRings_packetTaken, if_neg hj]
    rw [getRings_holdPacket, if_neg hj, ← hother]
    exact congrFun hfixed j

end Sys2Proof.Machine
end

section
/-! Storage of surfaces: allocation, release at once or deferred, and the zero-fill of what is freed (R109 to R112, R121, R124, R129). -/
namespace Sys2Proof.Machine
open Sys2Proof

/-! What quiet keeps of the store. -/

theorem surfs_of_quiet {s t : State} (h : quiet t = quiet s) : t.store.surfs = s.store.surfs := quiet_eq (·.store.surfs) (fun _ => rfl) h
theorem fills_of_quiet {s t : State} (h : quiet t = quiet s) : t.store.fills = s.store.fills := quiet_eq (·.store.fills) (fun _ => rfl) h
theorem time_of_quiet {s t : State} (h : quiet t = quiet s) : t.time = s.time := quiet_eq (·.time) quiet_time h
theorem nowBits_of_quiet {s t : State} (h : quiet t = quiet s) : nowBits t = nowBits s := nowBits_of_time (time_of_quiet h)
theorem getSurf_of_quiet {s t : State} (h : quiet t = quiet s) (i : Nat) : getSurf t i = getSurf s i := by
  unfold getSurf; rw [surfs_of_quiet h]

variable {s : State} {c : Cmd} {h : Held}

/-! Allocation. -/

/-- A check whose first condition fails nothing leaves its rest to pass. -/
theorem eq_none_of_ite {α : Type} {p : Prop} [Decidable p] {a : α} {o : Option α} (h : (if p then some a else o) = none) : o = none := by
  split at h
  · cases h
  · exact h

/-- A SURFACE_ALLOC that passes its checks finds a place (R129). -/
theorem choosePlace_of_check (hc : checkSurfaceAlloc s h c = none) (obs : List Nat) : ∃ p, choosePlace s (allocSize h.pkt).2 obs = some p := by
  have hreason : allocReason s h.slice (allocSize h.pkt).2 = none := by
    have hrest := eq_none_of_ite hc
    split at hrest
    · cases hrest
    · assumption
  unfold allocReason at hreason
  dsimp only at hreason
  unfold choosePlace
  cases hi : freeIndex s with
  | none => simp only [hi, Option.isNone_none, if_true] at hreason; split_ifs at hreason
  | some i =>
    cases hg : firstFit s (allocSize h.pkt).2 with
    | none => simp only [hg, Option.isNone_none, if_true] at hreason; split_ifs at hreason
    | some g => exact ⟨_, rfl⟩

theorem nowBits_modSurf (s : State) (i : Nat) (f : Surface → Surface) : nowBits (modSurf s i f) = nowBits s := rfl

/-- SURFACE_ALLOC's effect at the place that the device chose (R112, R129). -/
theorem actSurfaceAlloc_of_place {i g : Nat} (hi : i < 16384) (hp : choosePlace s (allocSize h.pkt).2 c.obs = some (i, g)) :
    actSurfaceAlloc s h c = finishNow (modSurf s i fun o =>
        { used := true, gen := o.gen, owner := h.slice, format := pf h.pkt 16 0 8, width := pf h.pkt 18 0 14, height := pf h.pkt 20 0 14,
          pitch := (allocSize h.pkt).1, base := g * 65536, granules := (allocSize h.pkt).2, length := pf h.pkt 28 0 32 }) h .ok
      [fAt 16 0 32 (i + (getSurf s i).gen * 2 ^ 14 + h.slice * 2 ^ 25), fAt 20 0 32 (allocSize h.pkt).1, fAt 24 0 64 (g * 65536)] := by
  unfold actSurfaceAlloc
  dsimp only
  rw [hp]
  simp only [placeSurface, getSurf_modSurf, if_true, handleOf, Nat.mod_eq_of_lt hi]
  rfl

/-! Release. -/

/-- A release that has begun: the surface's generation is bumped, and its release waits for its latches (R110, R121). -/
def releasing (i : Nat) (key : Option CmdKey) (x : Surface) : Surface :=
  { x with gen := nextGen x.gen, releasePending := true, relKey := key, relHandle := handleOf i x }

theorem surfs_beginRelease (s : State) (i : Nat) (key : Option CmdKey) :
    (beginRelease s i key).store.surfs = tmod {} s.store.surfs i fun x =>
      { x with gen := nextGen x.gen, releasePending := true, relKey := key, relHandle := handleOf i (getSurf s i) } :=
  (surfs_of_quiet (quiet_beginRelease s i key)).trans rfl

theorem getSurf_beginRelease (s : State) (i : Nat) (key : Option CmdKey) (j : Nat) :
    getSurf (beginRelease s i key) j = if j = i then releasing i key (getSurf s i) else getSurf s j := by
  rw [getSurf, surfs_beginRelease, tget_tmod]
  rfl

theorem fills_beginRelease (s : State) (i : Nat) (key : Option CmdKey) : (beginRelease s i key).store.fills = s.store.fills :=
  (fills_of_quiet (quiet_beginRelease s i key)).trans rfl

theorem time_beginRelease (s : State) (i : Nat) (key : Option CmdKey) : (beginRelease s i key).time = s.time :=
  (time_of_quiet (quiet_beginRelease s i key)).trans rfl

/-- The start of a release leaves slices, the ledger, layer slots and outputs. -/
theorem beginRelease_leaves (s : State) (i : Nat) (key : Option CmdKey) :
    (beginRelease s i key).slices = s.slices ∧ (beginRelease s i key).ledger = s.ledger ∧
      (beginRelease s i key).comp.slots = s.comp.slots ∧ (beginRelease s i key).scan = s.scan :=
  ⟨(quiet_eq (·.slices) quiet_slices (quiet_beginRelease s i key)).trans rfl,
    (quiet_eq (·.ledger) quiet_ledger (quiet_beginRelease s i key)).trans rfl,
    (quiet_eq (·.comp.slots) (fun _ => rfl) (quiet_beginRelease s i key)).trans rfl,
    (quiet_eq (·.scan) quiet_scan (quiet_beginRelease s i key)).trans rfl⟩

theorem getSurf_freeStorage (s : State) (i j : Nat) :
    getSurf (freeStorage s i) j = if j = i then { gen := (getSurf s i).gen } else getSurf s j := tget_tset ..

theorem fills_freeStorage (s : State) (i : Nat) : (freeStorage s i).store.fills =
    s.store.fills ++ [{ base := (getSurf s i).base, granules := (getSurf s i).granules, owner := (getSurf s i).owner }] := rfl

theorem outside_freeStorage (s : State) (i : Nat) : outside (freeStorage s i) = outside s := outside_same rfl rfl

/-- The handle that a SURFACE_RELEASE names is the handle of the surface it ends. -/
theorem handleOf_of_check (hc : checkSurfaceRelease s h c = none) :
    handleOf (handleIndex (pf h.pkt 16 0 32)) (getSurf s (handleIndex (pf h.pkt 16 0 32))) = pf h.pkt 16 0 32 := by
  obtain ⟨x, hx⟩ := check_release hc
  obtain ⟨rfl, hhandle, -⟩ := lookup_handle hx
  exact hhandle

theorem exec_surfaceRelease (hr : ReadyNow s c 0x102 h) (hc : checkSurfaceRelease s h c = none) :
    exec (.surfaceRelease c) s = .next (actSurfaceRelease s h c) := congrArg Host.Outcome.next (hr.runPacket rfl hc)

/-- A release that finds no latch frees the storage at once. -/
theorem actSurfaceRelease_of_ready (hready : releaseReady s (handleIndex (pf h.pkt 16 0 32)) = true) :
    actSurfaceRelease s h c = finishNow (freeStorage (beginRelease s (handleIndex (pf h.pkt 16 0 32)) (some (heldKey h)))
      (handleIndex (pf h.pkt 16 0 32))) h .ok [fAt 16 0 64 (nowBits s)] := by
  have hnow := nowBits_of_time (time_beginRelease s (handleIndex (pf h.pkt 16 0 32)) (some (heldKey h)))
  unfold actSurfaceRelease
  dsimp only
  rw [(latchCount_begin s _ _).1, if_pos hready, hnow]

/-- A release that finds a latch waits for it. -/
theorem actSurfaceRelease_of_latched (hready : releaseReady s (handleIndex (pf h.pkt 16 0 32)) = false) :
    actSurfaceRelease s h c = defer (beginRelease s (handleIndex (pf h.pkt 16 0 32)) (some (heldKey h))) h
      [fAt 16 0 64 0xFFFFFFFFFFFFFFFF, fAt 24 0 16 (latchCount s (handleIndex (pf h.pkt 16 0 32)))] := by
  unfold actSurfaceRelease
  dsimp only
  rw [(latchCount_begin s _ _).1, if_neg (by simp [hready])]

theorem exec_surfaceReleaseComplete {hd : Nat} (hused : (getSurf s (handleIndex hd)).used = true)
    (hpend : (getSurf s (handleIndex hd)).releasePending = true) (hhandle : (getSurf s (handleIndex hd)).relHandle = hd)
    (hready : releaseReady s (handleIndex hd) = true) (hline : (now s).line = 0) :
    exec (.surfaceReleaseComplete hd) s = .next (completeRelease s (handleIndex hd)) := by
  show Host.Outcome.next (if _ then completeRelease s (handleIndex hd) else s) = _
  rw [if_pos (by simp [hused, hpend, hhandle, hready, hline])]

/-! Zero-fill. -/

/-- Charging granules counts and does nothing else (R106). -/
theorem chargeGranules_counts (s : State) (n : Nat) : ∃ k, chargeGranules s n = { s with boot := { s.boot with counters := k } } := by
  have hbump : ∀ (t : State) (pc : Nat), (∃ k, t = { s with boot := { s.boot with counters := k } }) →
      ∃ k, bump t 1 pc 2 (2048 * n) = { s with boot := { s.boot with counters := k } } := by
    rintro _ pc ⟨k, rfl⟩
    exact ⟨_, rfl⟩
  exact foldl_keeps _ _ hbump (List.range 32) (bump s 6 0 4 (65536 * n)) ⟨(bump s 6 0 4 (65536 * n)).boot.counters, rfl⟩

theorem exec_zeroFillComplete {f : FillJob} (hf : s.store.fills.find? (fun g => g.base == f.base) = some f) :
    exec (.zeroFillComplete f.base) s = .next (chargeGranules { s with store := { s.store with
        fills := s.store.fills.filter fun g => g.base != f.base
        mem := s.store.mem.filter fun e => !(f.base ≤ e.1 && decide (e.1 < f.base + f.granules * 65536))
        poison := s.store.poison.filter fun e => !(f.base ≤ e.1 * 256 && decide (e.1 * 256 < f.base + f.granules * 65536))
        poisonSeen := s.store.poisonSeen.filter fun e => !(f.base ≤ e.1 * 256 && decide (e.1 * 256 < f.base + f.granules * 65536)) } } f.granules) := by
  show execZeroFillComplete f.base s = _
  rw [execZeroFillComplete, hf]

/-- Settles O6: a place for a surface, its release now or later, and the zero-fill. -/
theorem surfaceStorage : Obligations.SurfaceStorage := by
  unfold Obligations.SurfaceStorage
  refine ⟨fun s c h hr hc => ?_, fun s c h hr hc => ?_, fun s c h hr hc => ?_, fun s hd => ?_, fun s hd c h => ?_, fun s f hf => ?_⟩
  · obtain ⟨⟨i, g⟩, hp⟩ := choosePlace_of_check hc c.obs
    obtain ⟨hi, hfree, hrange⟩ := choosePlace_spec hp
    refine ⟨i, g, hi, by simpa using hfree, hrange, ?_⟩
    exact hr.1.answersNow ((congrArg Host.Outcome.next (hr.runPacket rfl hc)).trans (congrArg _ (actSurfaceAlloc_of_place hi hp))) rfl
  · intro i hready
    have hexec := (exec_surfaceRelease hr hc).trans (congrArg _ (actSurfaceRelease_of_ready hready))
    have hquiet := (quiet_finishNow (freeStorage (beginRelease s i (some (heldKey h))) i) h .ok [fAt 16 0 64 (nowBits s)])
    obtain ⟨hslices, hledger, hslots, hscan⟩ := beginRelease_leaves s i (some (heldKey h))
    have hnow : nowBits (freeStorage (beginRelease s i (some (heldKey h))) i) = nowBits s := nowBits_of_time (time_beginRelease s i (some (heldKey h)))
    refine ⟨_, hexec, hr.1.finished .., hnow ▸ finishNow_replied .., sameBytes_of_outside ?_, ?_, fun j hj => ?_, ?_,
      (quiet_eq (·.slices) quiet_slices hquiet).trans hslices,
      (quiet_eq (·.ledger) quiet_ledger hquiet).trans hledger,
      (quiet_eq (·.comp.slots) (fun _ => rfl) hquiet).trans hslots,
      (quiet_eq (·.scan) quiet_scan hquiet).trans hscan⟩
    · rw [outside_finishNow, outside_freeStorage, outside_beginRelease]
    · rw [getSurf_of_quiet hquiet, getSurf_freeStorage, if_pos rfl, getSurf_beginRelease, if_pos rfl]; rfl
    · rw [getSurf_of_quiet hquiet, getSurf_freeStorage, if_neg hj, getSurf_beginRelease, if_neg hj]
    · rw [fills_of_quiet hquiet, fills_freeStorage, fills_beginRelease, getSurf_beginRelease, if_pos rfl]; rfl
  · intro i hready
    have hexec := (exec_surfaceRelease hr hc).trans (congrArg _ (actSurfaceRelease_of_latched hready))
    have hquiet := quiet_defer (beginRelease s i (some (heldKey h))) h [fAt 16 0 64 0xFFFFFFFFFFFFFFFF, fAt 24 0 16 (latchCount s i)]
    have hnow : nowBits (beginRelease s i (some (heldKey h))) = nowBits s := nowBits_of_time (time_beginRelease s i (some (heldKey h)))
    refine ⟨_, hexec, ?_, fun j hj => ?_, ?_, sameBytes_of_outside ?_, hnow ▸ ?_⟩
    · rw [getSurf_of_quiet hquiet, getSurf_beginRelease, if_pos rfl, releasing, hr.1.key, handleOf_of_check hc]
    · rw [getSurf_of_quiet hquiet, getSurf_beginRelease, if_neg hj]
    · rw [fills_of_quiet hquiet, fills_beginRelease]
    · rw [outside_defer, outside_beginRelease]
    · exact .inr (sendReply_replied ..)
  · intro i x hused hpend hhandle hready hline hkey
    have hexec := exec_surfaceReleaseComplete hused hpend hhandle hready hline
    have hpost : completeRelease s i = post (freeStorage s i) x.owner 0x0102 [fAt 4 0 32 x.relHandle, fAt 16 0 32 x.granules] := by
      rw [completeRelease, hkey]
      rfl
    exact ⟨_, hexec.trans (congrArg _ hpost), quiet_post .., fun j => congrFun (fixedOf_post ..) j, sameBytes_of_outside (outside_post ..)⟩
  · intro i x hused hpend hhandle hready hline hkey hf hs
    have hexec := exec_surfaceReleaseComplete hused hpend hhandle hready hline
    have hfinish : completeRelease s i = finishNow (freeStorage s i) h .ok [fAt 16 0 64 (nowBits s)] := by
      have hfind : (getSurf s i).relKey.bind (findHeld (freeStorage s i)) = some h := by
        rw [hkey]; exact hf
      rw [completeRelease, hfind]
      rfl
    exact answersNow_of_find hf hs (hexec.trans (congrArg _ hfinish)) rfl
  · obtain ⟨k, hk⟩ := chargeGranules_counts { s with store := { s.store with
        fills := s.store.fills.filter fun g => g.base != f.base
        mem := s.store.mem.filter fun e => !(f.base ≤ e.1 && decide (e.1 < f.base + f.granules * 65536))
        poison := s.store.poison.filter fun e => !(f.base ≤ e.1 * 256 && decide (e.1 * 256 < f.base + f.granules * 65536))
        poisonSeen := s.store.poisonSeen.filter fun e => !(f.base ≤ e.1 * 256 && decide (e.1 * 256 < f.base + f.granules * 65536)) } } f.granules
    refine ⟨_, (exec_zeroFillComplete hf).trans (congrArg _ hk), fun a hlow hhigh => ?_, fun a hout => ?_, rfl, rfl, rfl, rfl⟩
    · exact tget_filter_false _ _ _ _ fun v => by simp [hlow, hhigh]
    · exact tget_filter_true _ _ _ _ fun v => by
        rcases hout with hout | hout
        · simp [Nat.not_le.2 hout]
        · simp [Nat.not_lt.2 hout]

end Sys2Proof.Machine
end

section
/-! Fences on a surface: met at once, deferred, met later, or timed out (R133). -/
namespace Sys2Proof.Machine
open Sys2Proof

/-- The end of a waiting fence answers its command (R133). -/
theorem endFence_answers {s : State} {c : Cmd} {h : Held} {f : Fence} {i : Instr} {st : Status} (hf : findHeld s (Cmd.key c) = some h)
    (hs : h.slice = c.slice) (hfence : s.store.fences.find? (fun f => f.key == Cmd.key c) = some f)
    (he : exec i s = .next (endFence s f st)) :
    Answers i s c h st (nowBits s) (fenceDetail s f.surf)
      { s with store := { s.store with fences := s.store.fences.filter fun g => g.key != f.key } } := by
  have hkey : f.key = Cmd.key c := by simpa using List.find?_some hfence
  have hheld : findHeld { s with store := { s.store with fences := s.store.fences.filter fun g => g.key != f.key } } f.key = some h := hkey ▸ hf
  exact answers_of_find hf hs (he.trans (congrArg _ (finishKey_of_find hheld ..)))

theorem findFence_eq {s : State} {c : Cmd} {f : Fence} (hfence : s.store.fences.find? (fun f => f.key == Cmd.key c) = some f) :
    findFence s c = some f := hfence

/-- Settles O8: a fence is answered at once when its condition holds, and otherwise ends when it comes true or its time is over. -/
theorem surfaceFences : Obligations.SurfaceFences := by
  unfold Obligations.SurfaceFences
  refine ⟨fun s c h hr hc hmet => ?_, fun s c h hr hc hmet => ?_, fun s c h f hf hs hfence hmet => ?_, fun s c h f hf hs hfence hmet htime => ?_⟩
  · have hact : actSurfaceFence s h c = finishNow s h .ok (fenceDetail s (handleIndex (pf h.pkt 16 0 32))) := if_pos hmet
    exact hr.1.answersNow ((congrArg Host.Outcome.next (hr.runPacket rfl hc)).trans (congrArg _ hact)) rfl
  · have hact : actSurfaceFence s h c = defer { s with store := { s.store with fences := s.store.fences ++ [fenceOf s h] } } h
        (fenceDetail s (handleIndex (pf h.pkt 16 0 32))) := if_neg (by simp [hmet])
    exact hr.1.defers ((congrArg Host.Outcome.next (hr.runPacket rfl hc)).trans (congrArg _ hact)) rfl
  · refine endFence_answers hf hs hfence ?_
    show execSurfaceFenceMet c s = _
    rw [execSurfaceFenceMet, findFence_eq hfence]
    exact congrArg _ (if_pos hmet)
  · refine endFence_answers hf hs hfence ?_
    show execSurfaceFenceTimeout c s = _
    rw [execSurfaceFenceTimeout, findFence_eq hfence]
    exact congrArg _ (if_pos (by simp [hmet, htime]))

end Sys2Proof.Machine
end

section
/-! Copies into and out of surfaces, and palettes (R116, R131, R132, R139). -/
namespace Sys2Proof.Machine
open Sys2Proof

/-! Lines written one by one. -/

theorem storeLine_modSurf (s : State) (i : Nat) (f : Surface → Surface) (x : Surface) (y : Nat) (l : List Byte) :
    storeLine (modSurf s i f) x y l = modSurf (storeLine s x y l) i f := rfl

theorem modSurf_modSurf (s : State) (i : Nat) (f g : Surface → Surface) : modSurf (modSurf s i f) i g = modSurf s i fun x => g (f x) := by
  unfold modSurf; simp only [tmod_tmod]

theorem modSurf_congr {s : State} {i : Nat} {f g : Surface → Surface} (h : f (getSurf s i) = g (getSurf s i)) : modSurf s i f = modSurf s i g := by
  unfold modSurf; rw [tmod_congr ({} : Surface) s.store.surfs i f g h]

/-- The first n lines of a write stored, FRONTIER not yet moved. -/
def linesStored (s : State) (x : Surface) (first : Nat) (luma : List (List Byte)) (n : Nat) : State :=
  (List.range n).foldl (fun s k => storeLine s x (first + k) (luma.getD k [])) s

/-- The first n lines of a write stored and recorded: FRONTIER stands past them. -/
def linesWritten (s : State) (i : Nat) (x : Surface) (first : Nat) (luma : List (List Byte)) (n : Nat) : State :=
  if n = 0 then s else modSurf (linesStored s x first luma n) i fun x => { x with frontier := first + n }

section
variable {s : State} {x : Surface} {i first : Nat} {luma : List (List Byte)}

theorem linesStored_succ (n : Nat) :
    linesStored s x first luma (n + 1) = storeLine (linesStored s x first luma n) x (first + n) (luma.getD n []) := by
  simp [linesStored, List.range_succ]

theorem quiet_linesStored (n : Nat) : quiet (linesStored s x first luma n) = quiet s := (store_quiet x first luma (List.range n) s).1
theorem rings_linesStored (n : Nat) : (linesStored s x first luma n).rings = s.rings := (store_quiet x first luma (List.range n) s).2

theorem getSurf_linesStored (n j : Nat) : getSurf (linesStored s x first luma n) j = getSurf s j := getSurf_of_quiet (quiet_linesStored n) j

theorem getSurf_linesWritten (hx : x.frontier = first) (h : getSurf s i = x) (n : Nat) :
    getSurf (linesWritten s i x first luma n) i = { x with frontier := first + n } := by
  unfold linesWritten
  split
  · next hn => subst hn; rw [h]; cases x; cases hx; rfl
  · rw [getSurf_modSurf, if_pos rfl, getSurf_linesStored, h]

/-- The Weir's decision rests on what quiet keeps. -/
theorem weirDenied_of_quiet {s t : State} (h : quiet t = quiet s) (sl e : Nat) (w : Bool) (a n : Nat) :
    weirDenied t sl e w a n = weirDenied s sl e w a n :=
  quiet_eq (fun s => weirDenied s sl e w a n) (fun _ => rfl) h

/-- What a writable line is denied by while the lines before it are written: nothing. -/
theorem weirDenied_linesWritten {sl a m : Nat} (h : writable s i sl a m) (n : Nat) :
    weirDenied (linesWritten s i x first luma n) sl engHost true a m = none := by
  obtain ⟨hnow, hlater⟩ := h
  unfold linesWritten
  split
  · exact hnow
  · have hq : quiet (modSurf (linesStored s x first luma n) i fun x => { x with frontier := first + n }) =
        quiet (modSurf s i fun x => { x with frontier := first + n }) := by
      rw [quiet_modSurf, quiet_modSurf, quiet_linesStored]
    rw [weirDenied_of_quiet hq]
    exact hlater _

theorem gauge_linesWritten (n : Nat) : (linesWritten s i x first luma n).gauge = s.gauge := by
  unfold linesWritten
  split
  · rfl
  · have hstored : (linesStored s x first luma n).gauge = s.gauge := quiet_eq (·.gauge) (fun _ => rfl) (quiet_linesStored n)
    exact hstored

/-- One more line stored and recorded. -/
theorem linesWritten_succ (hx : x.frontier = first) (h : getSurf s i = x) {n : Nat} (hn : first + n < surfaceLines x) :
    modSurf (storeLine (linesWritten s i x first luma n) x (first + n) (luma.getD n [])) i (advance 1) = linesWritten s i x first luma (n + 1) := by
  have hlines : ∀ f, surfaceLines { x with frontier := f } = surfaceLines x := fun _ => rfl
  rw [linesWritten, linesWritten, if_neg (Nat.succ_ne_zero n), linesStored_succ]
  split
  · next hn0 =>
    subst hn0
    refine modSurf_congr ?_
    have hget : getSurf (storeLine s x (first + 0) (luma.getD 0 [])) i = x := h
    rw [hget, advance, hx, Nat.min_eq_right (by omega)]
  · rw [storeLine_modSurf, modSurf_modSurf]
    refine modSurf_congr ?_
    have hget : getSurf (storeLine (linesStored s x first luma n) x (first + n) (luma.getD n [])) i = x :=
      (getSurf_linesStored (s := s) n i).trans h
    rw [hget]
    simp only [advance, hlines, Nat.add_assoc]
    rw [Nat.min_eq_right (by omega)]

/-- A line that the Weir allows is stored, and with the Gauge off nothing takes note (R131). -/
theorem putLine_allowed {t : State} {sl y : Nat} {l : List Byte} (hgauge : ∀ u, u < 8 → (tget {} t.gauge.units u).enable = false)
    (hformat : (getSurf t i).format ≠ 0)
    (hallow : weirDenied t sl engHost true ((getSurf t i).base + y * (getSurf t i).pitch) (lineSize (getSurf t i).format (getSurf t i).width) = none) :
    putLine t sl i y l = (storeLine t (getSurf t i) y l, true) := by
  unfold putLine
  dsimp only
  rw [lineAt, if_neg hformat]
  dsimp only
  rw [hallow]
  dsimp only
  rw [if_neg hformat, gaugeLine_off (storeLine t (getSurf t i) y l) i y l hgauge]

/-- Lines that the Weir allows, of a surface of one plane, are all stored and recorded (R116, R131). -/
theorem writeLines_allowed {sl : Nat} (hx : x.frontier = first) (h : getSurf s i = x) (hformat : x.format ≠ 0) (htwo : formatTwoPlane x.format = false)
    (hgauge : ∀ u, u < 8 → (tget {} s.gauge.units u).enable = false) (hfit : first + luma.length ≤ surfaceLines x)
    (hallow : ∀ k, k < luma.length → writable s i sl (x.base + (first + k) * x.pitch) (lineSize x.format x.width)) :
    writeLines s sl i first luma [] = (linesWritten s i x first luma luma.length, true) := by
  unfold writeLines
  suffices hall : ∀ n, n ≤ luma.length → (List.range n).foldl _ (s, true) = (linesWritten s i x first luma n, true) from hall _ le_rfl
  intro n
  induction n with
  | zero => intro _; rfl
  | succ n ih =>
    intro hn
    rw [List.range_succ, List.foldl_append, ih (by omega)]
    have hget := getSurf_linesWritten (luma := luma) hx h n
    have hgauge' : ∀ u, u < 8 → (tget {} (linesWritten s i x first luma n).gauge.units u).enable = false := by
      rw [gauge_linesWritten]; exact hgauge
    have hput : putLine (linesWritten s i x first luma n) sl i (first + n) (luma.getD n []) =
        (storeLine (linesWritten s i x first luma n) x (first + n) (luma.getD n []), true) := by
      rw [putLine_allowed hgauge' (by rw [hget]; exact hformat) (by rw [hget]; exact weirDenied_linesWritten (hallow n (by omega)) n), hget]
      rfl
    simp only [List.foldl_cons, List.foldl_nil, Bool.not_true, Bool.false_eq_true, if_false, hget, htwo, false_and, hput]
    rw [linesWritten_succ hx h (by omega)]

end

/-! SURFACE_WRITE from host memory. -/

/-- Checks in order pass when each does. -/
theorem firstFail_cons_eq_none {α : Type} {b : Bool} {a : α} {l : List (Bool × α)} :
    firstFail ((b, a) :: l) = none ↔ b = false ∧ firstFail l = none := by
  cases b <;> simp [firstFail]

section
variable {s : State} {c : Cmd} {h : Held} {x : Surface}

/-- What a SURFACE_WRITE that passes its checks asks for (R131). -/
theorem checkSurfaceWrite_passes (hc : checkSurfaceWrite s h c = none) (hx : lookup s (pf h.pkt 16 0 32) = some x) :
    x.writer = .host ∧ pf h.pkt 24 0 32 ≠ 0 ∧ (pb h.pkt 28 0 = true → pf h.pkt 20 0 32 = 0) ∧
      (pb h.pkt 28 0 = false → pf h.pkt 20 0 32 = x.frontier) ∧ pf h.pkt 20 0 32 + pf h.pkt 24 0 32 ≤ surfaceLines x := by
  obtain ⟨hget, -, -⟩ := lookup_handle hx
  have hlatched : latchedSurf s (pf h.pkt 16 0 32) = x := hget.symm
  have hrest := eq_none_of_ite hc
  rw [hx, hlatched] at hrest
  rw [firstFail_cons_eq_none, firstFail_cons_eq_none] at hrest
  obtain ⟨hmine, hbad, -⟩ := hrest
  simp only [Bool.or_eq_false_iff, Bool.and_eq_false_iff, bne_eq_false_iff_eq, decide_eq_false_iff_not, Bool.not_eq_false', beq_eq_false_iff_ne] at hmine hbad
  obtain ⟨⟨⟨⟨⟨⟨⟨hcount, hstart⟩, hnext⟩, hfit⟩, -⟩, -⟩, -⟩, -⟩ := hbad
  refine ⟨hmine.2, hcount, fun hs => ?_, fun hs => ?_, Nat.le_of_not_lt hfit⟩
  · simpa [hs] using hstart
  · exact (hnext.resolve_left (by simp [hs])).1

/-- The pass that a SURFACE_WRITE writes into: a new one when it asks for one (R131). -/
def passBegun (s : State) (h : Held) : State :=
  if pb h.pkt 28 0 then beginPass s (handleIndex (pf h.pkt 16 0 32)) else s

theorem beginPass_leaves (s : State) (i : Nat) :
    (beginPass s i).time = s.time ∧ (beginPass s i).gauge = s.gauge ∧ (beginPass s i).rings = s.rings ∧ (beginPass s i).store.mem = s.store.mem :=
  ⟨rfl, rfl, rfl, rfl⟩

theorem getSurf_beginPass (s : State) (i j : Nat) :
    getSurf (beginPass s i) j = if j = i then { startPass (getSurf s i) with began := s.store.passSeq + 1 } else getSurf s j :=
  getSurf_modSurf ..

theorem passBegun_leaves (s : State) (h : Held) :
    (passBegun s h).time = s.time ∧ (passBegun s h).gauge = s.gauge ∧ (passBegun s h).rings = s.rings ∧ (passBegun s h).store.mem = s.store.mem := by
  unfold passBegun
  split
  · exact beginPass_leaves ..
  · exact ⟨rfl, rfl, rfl, rfl⟩

theorem getSurf_passBegun_ne {j : Nat} (hj : j ≠ handleIndex (pf h.pkt 16 0 32)) : getSurf (passBegun s h) j = getSurf s j := by
  unfold passBegun
  split
  · rw [getSurf_beginPass, if_neg hj]
  · rfl

/-- The surface that a write begins with: its format and place as before, FRONTIER at the first line of the write. -/
theorem getSurf_passBegun (hc : checkSurfaceWrite s h c = none) (hx : lookup s (pf h.pkt 16 0 32) = some x) :
    let y := getSurf (passBegun s h) (handleIndex (pf h.pkt 16 0 32))
    y.format = x.format ∧ y.width = x.width ∧ y.height = x.height ∧ y.length = x.length ∧ y.base = x.base ∧ y.pitch = x.pitch ∧
      y.writer = x.writer ∧ y.pass = writePass x h.pkt ∧ y.frontier = pf h.pkt 20 0 32 := by
  obtain ⟨-, -, hstart, hnext, -⟩ := checkSurfaceWrite_passes hc hx
  obtain ⟨rfl, -, -⟩ := lookup_handle hx
  unfold passBegun writePass
  by_cases hs : pb h.pkt 28 0 = true
  · rw [if_pos hs, if_pos hs, getSurf_beginPass, if_pos rfl, hstart hs]
    exact ⟨rfl, rfl, rfl, rfl, rfl, rfl, rfl, rfl, rfl⟩
  · rw [if_neg hs, if_neg hs, hnext (by simpa using hs)]
    exact ⟨rfl, rfl, rfl, rfl, rfl, rfl, rfl, rfl, rfl⟩

/-- A SURFACE_WRITE that no rebuild, reader or earlier write holds back runs at once (R115, R119, R131). -/
theorem exec_surfaceWrite (hr : ReadyNow s c 0x103 h) (hc : checkSurfaceWrite s h c = none) (hx : lookup s (pf h.pkt 16 0 32) = some x)
    (hobs : c.obs = []) (hrebuild : x.rebuilding = false)
    (hwrites : (s.sluice.writes.any fun j => j.surf == handleIndex (pf h.pkt 16 0 32)) = false)
    (hreaders : writerBlocked s (handleIndex (pf h.pkt 16 0 32)) (writePass x h.pkt) (pf h.pkt 20 0 32) (pf h.pkt 20 0 32 + pf h.pkt 24 0 32 - 1) = false) :
    exec (.surfaceWrite c) s = .next (actSurfaceWrite s h c) := by
  have hrun : runPacket s c 0x103 (fun _ => true) checkSurfaceWrite actSurfaceWrite = actSurfaceWrite s h c := hr.runPacket rfl hc
  obtain ⟨hget, -, -⟩ := lookup_handle hx
  have hlatched : latchedSurf s (pf h.pkt 16 0 32) = x := hget.symm
  have hfind : findHeld s ⟨c.slice, c.ring, c.index⟩ = some h := hr.1.1
  show execSurfaceWrite c s = _
  unfold execSurfaceWrite
  rw [hfind]
  dsimp only
  rw [hlatched, hrebuild, hwrites, hreaders, hobs, hx]
  have hne : ((0 : Nat) == 1) = false ∧ ((0 : Nat) == 2) = false := ⟨rfl, rfl⟩
  simp only [Bool.false_or, Bool.and_false, Bool.false_and, Bool.false_eq_true, if_false, List.getD_nil, hne.1, hne.2, hx, Option.isNone_some, hrun]

theorem formatPlain_of_plain {f : Nat} (hf : formatCompressed f = false) : formatPlain f = f := by simp [formatPlain, hf]

/-- What the effect of a SURFACE_WRITE of whole lines from host memory is: every line is stored and recorded (R116, R131). -/
theorem actSurfaceWrite_of_host (hc : checkSurfaceWrite s h c = none) (hx : lookup s (pf h.pkt 16 0 32) = some x) (hformat : x.format ≠ 0)
    (hplain : formatCompressed x.format = false) (htwo : formatTwoPlane x.format = false) (hmark : pb h.pkt 28 1 = false)
    (hspace : pb h.pkt 28 2 = false) (hok : c.ok = true) (hlen : c.data.length = pf h.pkt 24 0 32 * lineSize x.format x.width)
    (hallow : ∀ k, k < pf h.pkt 24 0 32 → writable (passBegun s h) (handleIndex (pf h.pkt 16 0 32)) h.slice
      (x.base + (pf h.pkt 20 0 32 + k) * x.pitch) (lineSize x.format x.width))
    (hgauge : ∀ u, u < 8 → (tget {} s.gauge.units u).enable = false) :
    let i := handleIndex (pf h.pkt 16 0 32)
    let t := linesWritten (passBegun s h) i (getSurf (passBegun s h) i) (pf h.pkt 20 0 32)
      (chunksOf (lineSize x.format x.width) (pf h.pkt 24 0 32) c.data) (pf h.pkt 24 0 32)
    actSurfaceWrite s h c = finishNow t h .ok (writeDetail t i) := by
  intro i t
  obtain ⟨-, -, -, -, hfit⟩ := checkSurfaceWrite_passes hc hx
  obtain ⟨hfmt, hwidth, hheight, hlength, hbase, hpitch, -, -, hfront⟩ := getSurf_passBegun hc hx
  have hlines : surfaceLines (getSurf (passBegun s h) i) = surfaceLines x := by
    unfold surfaceLines; rw [hfmt, hheight, hlength]
  have hsource : writeSource (passBegun s h) h.slice false c (pf h.pkt 40 0 64) (pf h.pkt 32 0 32) (pf h.pkt 24 0 32) (lineSize x.format x.width) =
      (passBegun s h, chunksOf (lineSize x.format x.width) (pf h.pkt 24 0 32) c.data, true) := by
    unfold writeSource
    rw [if_neg (by simp), if_pos (by simp [hok, hlen])]
  have hwritten := writeLines_allowed (sl := h.slice) (luma := chunksOf (lineSize x.format x.width) (pf h.pkt 24 0 32) c.data) hfront rfl
    (by rw [hfmt]; exact hformat) (by rw [hfmt]; exact htwo) (by rw [(passBegun_leaves s h).2.1]; exact hgauge)
    (by rw [hlines, chunks_len]; exact hfit) (by rw [hfmt, hwidth, hbase, hpitch, chunks_len]; exact hallow)
  rw [chunks_len] at hwritten
  have htake : (chunksOf (lineSize x.format x.width) (pf h.pkt 24 0 32) c.data).take (pf h.pkt 24 0 32) =
      chunksOf (lineSize x.format x.width) (pf h.pkt 24 0 32) c.data := List.take_of_length_le (chunks_len ..).le
  have hdrop : (chunksOf (lineSize x.format x.width) (pf h.pkt 24 0 32) c.data).drop (pf h.pkt 24 0 32) = [] :=
    List.drop_eq_nil_of_le (chunks_len ..).le
  unfold actSurfaceWrite
  dsimp only
  rw [show (if pb h.pkt 28 0 then beginPass s (handleIndex (pf h.pkt 16 0 32)) else s) = passBegun s h from rfl, hfmt, hwidth]
  simp only [formatPlain_of_plain hplain, hformat, htwo, hmark, hspace, if_false, hsource, hplain, Bool.false_eq_true, chunks_len, htake, hdrop,
    hwritten, if_true]
  rfl

theorem readByte_linesWritten (t : State) (i : Nat) (y : Surface) (first : Nat) (luma : List (List Byte)) (n a : Nat) :
    readByte (linesWritten t i y first luma n) a = readByte (linesStored t y first luma n) a := by
  unfold linesWritten
  split
  · next hn => subst hn; rfl
  · rfl

theorem rings_linesWritten (t : State) (i : Nat) (y : Surface) (first : Nat) (luma : List (List Byte)) (n : Nat) :
    (linesWritten t i y first luma n).rings = t.rings := by
  unfold linesWritten
  split
  · rfl
  · exact rings_linesStored (s := t) n

theorem time_linesWritten (t : State) (i : Nat) (y : Surface) (first : Nat) (luma : List (List Byte)) (n : Nat) :
    (linesWritten t i y first luma n).time = t.time := by
  unfold linesWritten
  split
  · rfl
  · have hstored : (linesStored t y first luma n).time = t.time := time_of_quiet (quiet_linesStored n)
    exact hstored

theorem getSurf_linesWritten_ne (t : State) {i j : Nat} (hj : j ≠ i) (y : Surface) (first : Nat) (luma : List (List Byte)) (n : Nat) :
    getSurf (linesWritten t i y first luma n) j = getSurf t j := by
  unfold linesWritten
  split
  · rfl
  · rw [getSurf_modSurf, if_neg hj, getSurf_linesStored]

theorem ringByte_of_rings {t u : State} (h : t.rings = u.rings) (a : Nat) : ringByte t a ↔ ringByte u a := by
  unfold ringByte getRings; rw [h]

/-- A SURFACE_WRITE of whole lines from host memory stores and records them, and writes no other byte (R116, R131). -/
theorem surfaceWrite_stores (hr : ReadyNow s c 0x103 h) (hc : checkSurfaceWrite s h c = none) (hx : lookup s (pf h.pkt 16 0 32) = some x)
    (hformat : x.format ≠ 0) (hplain : formatCompressed x.format = false) (htwo : formatTwoPlane x.format = false)
    (hmark : pb h.pkt 28 1 = false) (hspace : pb h.pkt 28 2 = false) (hok : c.ok = true)
    (hlen : c.data.length = pf h.pkt 24 0 32 * lineSize x.format x.width) (hobs : c.obs = []) (hrebuild : x.rebuilding = false)
    (hwrites : (s.sluice.writes.any fun j => j.surf == handleIndex (pf h.pkt 16 0 32)) = false)
    (hreaders : writerBlocked s (handleIndex (pf h.pkt 16 0 32)) (writePass x h.pkt) (pf h.pkt 20 0 32) (pf h.pkt 20 0 32 + pf h.pkt 24 0 32 - 1) = false)
    (hallow : ∀ k, k < pf h.pkt 24 0 32 → writable (passBegun s h) (handleIndex (pf h.pkt 16 0 32)) h.slice
      (x.base + (pf h.pkt 20 0 32 + k) * x.pitch) (lineSize x.format x.width))
    (hgauge : ∀ u, u < 8 → (tget {} s.gauge.units u).enable = false) (hround : roundUp (lineSize x.format x.width) 256 ≤ x.pitch)
    (hend : x.base + (pf h.pkt 20 0 32 + pf h.pkt 24 0 32) * x.pitch ≤ storeEnd) :
    let i := handleIndex (pf h.pkt 16 0 32); let first := pf h.pkt 20 0 32; let count := pf h.pkt 24 0 32
    let sz := lineSize x.format x.width
    let at_ := fun k : Nat => x.base + (first + k) * x.pitch
    Runs (.surfaceWrite c) s fun t => Finished t c ∧
       Replied t h .ok (nowBits s) (packFields [fAt 16 0 32 (first + count), fAt 20 0 16 (writePass x h.pkt)]) ∧
       (getSurf t i).frontier = first + count ∧ (getSurf t i).pass = writePass x h.pkt ∧ (∀ j, j ≠ i → getSurf t j = getSurf s j) ∧
       (∀ k b, k < count → b < sz → ¬ ringByte s (at_ k + b) → readByte t (at_ k + b) = c.data.getD (k * sz + b) 0) ∧
       (∀ a, ¬ ringByte s a → (∀ k, k < count → a < at_ k ∨ at_ k + roundUp sz 256 ≤ a) → readByte t a = readByte s a) := by
  intro i first count sz at_
  obtain ⟨hhost, -, -, -, -⟩ := checkSurfaceWrite_passes hc hx
  obtain ⟨hfmt, hwidth, -, -, hbase, hpitch, hwriter, hpass, hfront⟩ := getSurf_passBegun hc hx
  obtain ⟨htime, -, hrings, hmem⟩ := passBegun_leaves s h
  have hact := actSurfaceWrite_of_host hc hx hformat hplain htwo hmark hspace hok hlen hallow hgauge
  dsimp only at hact
  generalize hluma : chunksOf (lineSize x.format x.width) (pf h.pkt 24 0 32) c.data = luma at hact
  generalize hy : getSurf (passBegun s h) (handleIndex (pf h.pkt 16 0 32)) = y at hact hfmt hwidth hbase hpitch hwriter hpass hfront
  generalize ht : linesWritten (passBegun s h) i y first luma count = t at hact
  have hgett : getSurf t i = { y with frontier := first + count } := by rw [← ht]; exact getSurf_linesWritten hfront hy _
  have hringst : ∀ a, ringByte t a ↔ ringByte s a := ringByte_of_rings (by rw [← ht, rings_linesWritten, hrings])
  have hnow : nowBits t = nowBits s := nowBits_of_time (by rw [← ht, time_linesWritten, htime])
  have hq := quiet_finishNow t h .ok (writeDetail t i)
  have hbytes : ∀ a, ¬ ringByte s a → readByte (finishNow t h .ok (writeDetail t i)) a = readByte (linesStored (passBegun s h) y first luma count) a :=
    fun a ha => (sameBytes_of_outside (outside_finishNow t h .ok (writeDetail t i)) a (mt (hringst a).1 ha)).trans (by rw [← ht, readByte_linesWritten])
  have hsize : ∀ k, k < count → (luma.getD k []).length = lineSize y.format y.width := by
    rw [hfmt, hwidth, ← hluma]; exact fun k hk => chunks_size _ _ _ hlen k hk
  refine ⟨_, (exec_surfaceWrite hr hc hx hobs hrebuild hwrites hreaders).trans (congrArg _ hact), hr.1.finished .., ?_, ?_, ?_, fun j hj => ?_,
    fun k b hk hb hring => ?_, fun a hring hlines => ?_⟩
  · have hreplied := finishNow_replied t h .ok (writeDetail t i)
    rw [hnow, writeDetail, hgett, hpass] at hreplied
    rw [writeDetail, hgett, hpass]
    exact hreplied
  · rw [getSurf_of_quiet hq, hgett]
  · rw [getSurf_of_quiet hq, hgett]; exact hpass
  · rw [getSurf_of_quiet hq, ← ht, getSurf_linesWritten_ne _ hj, getSurf_passBegun_ne hj]
  · have hcontent := store_content y first luma count (passBegun s h) k b hk hsize (by rw [hfmt, hwidth]; exact hb)
      (by rw [hfmt, hwidth, hpitch]; exact hround) (.inr (hwriter.trans hhost)) (by rw [hbase, hpitch]; exact hend)
    rw [hbase, hpitch] at hcontent
    rw [hbytes _ hring, linesStored, hcontent, ← hluma]
    exact chunks_get _ _ _ k b hk hb
  · have hframe := store_frame y first luma (List.range count) (passBegun s h) a
      (by rw [hfmt, hwidth, hbase, hpitch]; exact fun k hk => hlines k (List.mem_range.1 hk)) (fun k hk => hsize k (List.mem_range.1 hk))
    rw [hbytes _ hring, linesStored, hframe, readByte, hmem, readByte]

/-! SURFACE_READ to host memory. -/

/-- Bytes written to host memory one piece after another, as far as their addresses and contents are given. -/
def hostPuts (s : State) (slice : Nat) (addr : Nat → Nat) (bytes : Nat → List Byte) (n : Nat) : State :=
  (List.range n).foldl (fun t k => hostPut t slice (addr k) (bytes k)) s

theorem hostPuts_keeps {P : State → Prop} (hemit : ∀ t o, P t → P (emit t o)) (slice : Nat) (addr : Nat → Nat) (bytes : Nat → List Byte) (n : Nat)
    (hs : P s) : P (hostPuts s slice addr bytes n) :=
  foldl_keeps P _ (fun t _ ht => hemit t _ ht) _ _ hs

theorem hostPuts_succ (slice : Nat) (addr : Nat → Nat) (bytes : Nat → List Byte) (n : Nat) :
    hostPuts s slice addr bytes (n + 1) = hostPut (hostPuts s slice addr bytes n) slice (addr n) (bytes n) := by
  simp [hostPuts, List.range_succ]

theorem quiet_hostPuts (slice : Nat) (addr : Nat → Nat) (bytes : Nat → List Byte) (n : Nat) :
    quiet (hostPuts s slice addr bytes n) = quiet s := hostPuts_keeps (P := fun t => quiet t = quiet s) (fun _ _ ht => ht) _ _ _ _ rfl

theorem outside_hostPuts (slice : Nat) (addr : Nat → Nat) (bytes : Nat → List Byte) (n : Nat) :
    outside (hostPuts s slice addr bytes n) = outside s := hostPuts_keeps (P := fun t => outside t = outside s) (fun _ _ ht => ht) _ _ _ _ rfl

theorem pasidOf_of_quiet {t u : State} (h : quiet t = quiet u) (slice : Nat) : pasidOf t slice = pasidOf u slice :=
  quiet_eq (fun s => pasidOf s slice) (fun _ => rfl) h

/-- Every piece reaches host memory. -/
theorem mem_hostPuts (slice : Nat) (addr : Nat → Nat) (bytes : Nat → List Byte) {n k : Nat} (hk : k < n) :
    Output.hostWrite slice (pasidOf s slice) (addr k) (bytes k) ∈ (hostPuts s slice addr bytes n).out := by
  induction n with
  | zero => exact absurd hk (Nat.not_lt_zero k)
  | succ n ih =>
    rw [hostPuts_succ]
    rcases Nat.lt_succ_iff_lt_or_eq.1 hk with hk | rfl
    · exact List.mem_append_left _ (ih hk)
    · rw [hostPut, pasidOf_of_quiet (quiet_hostPuts ..)]
      exact List.mem_append_right _ (List.mem_singleton.2 rfl)

theorem mem_out_finish {t : State} {o : Output} (ho : o ∈ t.out) (h : Held) (st : Status) (w d : Nat) : o ∈ (finish t h st w d).out := by
  unfold finish
  dsimp only
  split
  · exact ho
  · exact (steady_out o).sendReply _ _ ho

/-- A line of an uncompressed surface of which no unit is poisoned reads as its bytes (R132). -/
theorem readLine_plain {y : Nat} (hformat : x.format ≠ 0) (hplain : formatCompressed x.format = false)
    (hgood : rangePoisoned s (x.base + y * x.pitch) (lineSize x.format x.width) = false) :
    readLine s x 0 y = (readBytes s (x.base + y * x.pitch) (lineSize x.format x.width), false) := by
  simp [readLine, hformat, hplain, hgood]

theorem quiet_noteLines (s : State) (x : Surface) (first count cls : Nat) : quiet (noteLines s x first count cls) = quiet s :=
  quiet_forEach _ _ _ fun _ _ => quiet_noteRead ..

theorem outside_noteLines (s : State) (x : Surface) (first count cls : Nat) : outside (noteLines s x first count cls) = outside s :=
  outside_forEach _ _ _ fun _ _ => outside_noteRead ..

/-- Lines of an uncompressed surface as a reader gets them when none is poisoned. -/
def plainLines (s : State) (x : Surface) (first count : Nat) : List (List Byte × Bool) :=
  (List.range count).map fun k => (readBytes s (x.base + (first + k) * x.pitch) (lineSize x.format x.width), false)

theorem length_plainLines (s : State) (x : Surface) (first count : Nat) : (plainLines s x first count).length = count := by simp [plainLines]

theorem plainLines_getD {first count k : Nat} (hk : k < count) :
    (plainLines s x first count).getD k ([], false) = (readBytes s (x.base + (first + k) * x.pitch) (lineSize x.format x.width), false) := by
  rw [plainLines, List.getD_eq_getElem?_getD, List.getElem?_map, List.getElem?_range hk]
  rfl

/-- The first n copies of a SURFACE_READ to host memory (R132). -/
def lineCopies (s : State) (h : Held) (n : Nat) : State :=
  let x := getSurf s (handleIndex (pf h.pkt 16 0 32))
  hostPuts (noteLines s x (pf h.pkt 20 0 32) (pf h.pkt 24 0 32) 2) h.slice (fun k => pf h.pkt 40 0 64 + k * pf h.pkt 32 0 32)
    (fun k => readBytes s (x.base + (pf h.pkt 20 0 32 + k) * x.pitch) (lineSize x.format x.width)) n

/-- What the effect of a SURFACE_READ to host memory is when no line is poisoned (R132). -/
theorem actSurfaceRead_of_host (hok : c.ok = true) (hspace : pb h.pkt 28 0 = false)
    (hformat : (getSurf s (handleIndex (pf h.pkt 16 0 32))).format ≠ 0)
    (hplain : formatCompressed (getSurf s (handleIndex (pf h.pkt 16 0 32))).format = false)
    (htwo : formatTwoPlane (getSurf s (handleIndex (pf h.pkt 16 0 32))).format = false)
    (hgood : ∀ k, k < pf h.pkt 24 0 32 → rangePoisoned s ((getSurf s (handleIndex (pf h.pkt 16 0 32))).base + (pf h.pkt 20 0 32 + k) *
      (getSurf s (handleIndex (pf h.pkt 16 0 32))).pitch) (lineSize (getSurf s (handleIndex (pf h.pkt 16 0 32))).format
        (getSurf s (handleIndex (pf h.pkt 16 0 32))).width) = false) :
    let x := getSurf s (handleIndex (pf h.pkt 16 0 32))
    actSurfaceRead s h c = finishNow (lineCopies s h (pf h.pkt 24 0 32)) h .ok
      [fAt 16 0 16 x.pass, fAt 18 0 1 (decide (pf h.pkt 20 0 32 + pf h.pkt 24 0 32 ≤ x.frontier) && !x.rebuilding).toNat, fAt 20 0 32 x.frontier] := by
  intro x
  have hluma : (List.range (pf h.pkt 24 0 32)).map (fun k => readLine s x 0 (pf h.pkt 20 0 32 + k)) =
      plainLines s x (pf h.pkt 20 0 32) (pf h.pkt 24 0 32) :=
    List.map_congr_left fun k hk => readLine_plain hformat hplain (hgood k (List.mem_range.1 hk))
  have hbad : (List.range (pf h.pkt 24 0 32)).find? (fun k =>
      ((plainLines s x (pf h.pkt 20 0 32) (pf h.pkt 24 0 32)).getD k ([], false)).2 || (([] : List (List Byte × Bool)).getD (k / 2) ([], false)).2) = none := by
    rw [List.find?_eq_none]
    intro k hk
    rw [plainLines_getD (List.mem_range.1 hk)]
    simp
  have hput : ∀ n, n ≤ pf h.pkt 24 0 32 → (List.range n).foldl (fun (acc : State × Bool) k =>
      if acc.2 = true then (hostPut acc.1 h.slice (pf h.pkt 40 0 64 + k * pf h.pkt 32 0 32)
        ((plainLines s x (pf h.pkt 20 0 32) (pf h.pkt 24 0 32)).getD k ([], false)).1, true)
      else (acc.1, false)) (noteLines s x (pf h.pkt 20 0 32) (pf h.pkt 24 0 32) 2, true) = (lineCopies s h n, true) := by
    intro n
    induction n with
    | zero => intro _; rfl
    | succ n ih =>
      intro hn
      rw [List.range_succ, List.foldl_append, ih (by omega), lineCopies, lineCopies, hostPuts_succ]
      simp only [List.foldl_cons, List.foldl_nil, if_true]
      rw [plainLines_getD hn]
  have hdiscards : countDiscards (noteLines s x (pf h.pkt 20 0 32) (pf h.pkt 24 0 32) 2) x (pf h.pkt 20 0 32) (pf h.pkt 24 0 32) =
      noteLines s x (pf h.pkt 20 0 32) (pf h.pkt 24 0 32) 2 := by
    unfold countDiscards
    rw [if_pos (by rw [hplain]; rfl)]
  unfold actSurfaceRead
  dsimp only
  rw [show getSurf s (handleIndex (pf h.pkt 16 0 32)) = x from rfl, formatPlain_of_plain hplain, htwo, hluma, hdiscards]
  simp only [Bool.false_eq_true, if_false, hbad, List.append_nil, length_plainLines, destWrite, hspace, hok, if_true, hput _ le_rfl, Bool.not_true]

/-- A SURFACE_READ to host memory copies every line and changes nothing (R132). -/
theorem surfaceRead_copies (hr : ReadyNow s c 0x104 h) (hc : checkSurfaceRead s h c = none)
    (hformat : (getSurf s (handleIndex (pf h.pkt 16 0 32))).format ≠ 0)
    (hplain : formatCompressed (getSurf s (handleIndex (pf h.pkt 16 0 32))).format = false)
    (htwo : formatTwoPlane (getSurf s (handleIndex (pf h.pkt 16 0 32))).format = false) (hspace : pb h.pkt 28 0 = false) (hok : c.ok = true)
    (hgood : ∀ k, k < pf h.pkt 24 0 32 → rangePoisoned s ((getSurf s (handleIndex (pf h.pkt 16 0 32))).base + (pf h.pkt 20 0 32 + k) *
      (getSurf s (handleIndex (pf h.pkt 16 0 32))).pitch) (lineSize (getSurf s (handleIndex (pf h.pkt 16 0 32))).format
        (getSurf s (handleIndex (pf h.pkt 16 0 32))).width) = false) :
    let x := getSurf s (handleIndex (pf h.pkt 16 0 32)); let first := pf h.pkt 20 0 32; let count := pf h.pkt 24 0 32
    let n := lineSize x.format x.width
    Runs (.surfaceRead c) s fun t => Finished t c ∧
      Replied t h .ok (nowBits s) (packFields [fAt 16 0 16 x.pass, fAt 18 0 1 (decide (first + count ≤ x.frontier) && !x.rebuilding).toNat, fAt 20 0 32 x.frontier]) ∧
      quiet t = quiet s ∧ sameBytes t s ∧
      ∀ k, k < count → Output.hostWrite h.slice (pasidOf s h.slice) (pf h.pkt 40 0 64 + k * pf h.pkt 32 0 32) (readBytes s (x.base + (first + k) * x.pitch) n) ∈ t.out := by
  intro x first count n
  have hact := actSurfaceRead_of_host hok hspace hformat hplain htwo hgood
  have hnoted := quiet_noteLines s x first count 2
  have hquiet : quiet (lineCopies s h count) = quiet s := (quiet_hostPuts ..).trans hnoted
  have houtside : outside (lineCopies s h count) = outside s := (outside_hostPuts ..).trans (outside_noteLines ..)
  refine ⟨_, (congrArg Host.Outcome.next (hr.runPacket rfl hc)).trans (congrArg _ hact), hr.1.finished .., ?_, (quiet_finishNow ..).trans hquiet,
    sameBytes_of_outside ((outside_finishNow ..).trans houtside), fun k hk => mem_out_finish ?_ ..⟩
  · rw [← nowBits_of_quiet hquiet]
    exact finishNow_replied ..
  · rw [← pasidOf_of_quiet hnoted]
    exact mem_hostPuts _ _ (fun k => readBytes s (x.base + (first + k) * x.pitch) n) hk

/-- The source of a command in host memory is the bytes that host memory returned (R79). -/
theorem srcRead_host (slice engine a n : Nat) (hok : c.ok = true) (hlen : c.data.length = n) :
    srcRead s slice engine false c a n = (s, some c.data) := by
  simp [srcRead, hok, hlen]

end

/-- Settles O7: lines written from and read to host memory, and palettes. -/
theorem surfaceCopies : Obligations.SurfaceCopies := by
  unfold Obligations.SurfaceCopies
  refine ⟨fun s c h x hr hc => ?_, fun s c h hr hc => ?_, fun s c h hr hc hspace hok hlen => ?_⟩
  · intro hd i first count sz at_ hx hformat hplain htwo hmark hspace hok hlen hobs hrebuild hwrites hreaders hallow hgauge hround hend
    exact surfaceWrite_stores hr hc hx hformat hplain htwo hmark hspace hok hlen hobs hrebuild hwrites hreaders hallow hgauge hround hend
  · intro x first count n hformat hplain htwo hspace hok hgood
    exact surfaceRead_copies hr hc hformat hplain htwo hspace hok hgood
  · refine hr.1.answersNow ((congrArg Host.Outcome.next (hr.runPacket rfl hc)).trans (congrArg Host.Outcome.next ?_)) rfl
    unfold actPaletteLoad
    dsimp only
    rw [hspace, srcRead_host _ _ _ _ hok hlen]

end Sys2Proof.Machine
end

section
/-! Service of the store: the arbiter's choice, the scrubber, and the store's idling (R107, R108, R125, R366, R458). -/
namespace Sys2Proof.Machine
open Sys2Proof

/-- A write that is carried out stores its bytes and counts them (R107). -/
theorem carryOut_of_write {r : MemReq} (s : State) (pc ecc : Nat) (hwrite : r.write = true) (hlen : r.data.length = r.length) :
    carryOut s pc r ecc = writeBytes (bump (bump s 1 pc (reqClass r) r.length) 6 (reqSlice s r) (2 + reqClass r) r.length)
      r.addr r.data := by
  rw [carryOut, if_pos hwrite, List.take_of_length_le hlen.le]

/-- The unit of an uncorrectable word is poisoned, and the surface that holds it is marked (R108, R113). -/
theorem poisonUnit_of_find {s : State} {a i : Nat} {x : Surface}
    (hfind : s.store.surfs.find? (fun e => e.2.used && e.2.base ≤ a && decide (a < e.2.base + e.2.granules * 65536)) = some (i, x)) :
    poisonUnit s a = modSurf { s with store := { s.store with poison := tset false s.store.poison (a / 256) true } } i fun x => { x with poisoned := true } := by
  unfold poisonUnit
  dsimp only
  rw [hfind]

theorem quiet_setPoison (s : State) (p : Tab Bool) : quiet { s with store := { s.store with poison := p } } = quiet s := rfl

theorem poisonUnit_leaves (s : State) (a : Nat) : (poisonUnit s a).rings = s.rings ∧ (poisonUnit s a).store.mem = s.store.mem := by
  unfold poisonUnit
  dsimp only
  split <;> exact ⟨rfl, rfl⟩

/-- Settles O10: a request served, a word scrubbed, and an idle store. -/
theorem reservoirService : Obligations.ReservoirService := by
  unfold Obligations.ReservoirService
  refine ⟨fun s pc reqs r p hpc hchoice hwrite hhandle hallow hlen => ?_, fun s addr haddr => ?_, fun s addr i x haddr hfind => ?_, fun s hidle => ?_⟩
  · have hserve := serveRequest_of_allowed (s := arbitrated s pc reqs p) pc 0 hhandle (hallow.symm ▸ reqDenied_arbitrated s pc reqs p r)
    rw [carryOut_of_write _ _ _ hwrite hlen] at hserve
    refine ⟨_, (execReservoirRequestServed_of_choice hpc hchoice (by decide)).trans (congrArg _ hserve), rfl, rfl, rfl, fun k hk hend => ?_, fun a ha => ?_⟩
    · exact readByte_writeBytes_eq _ _ _ _ (hlen ▸ hk) hend
    · exact readByte_writeBytes_ne _ _ _ _ (hlen.symm ▸ ha)
  · show execPatrolScrub addr 0 s = _
    have hin : decide (addr ≤ 0x5FFFFFFFF) = true := decide_eq_true (by unfold storeEnd at haddr; omega)
    simp [execPatrolScrub, hin]
  · have hpoison := poisonUnit_of_find (s := scrubbed s addr) hfind
    obtain ⟨hrings, hmem⟩ := poisonUnit_leaves (scrubbed s addr) addr
    refine ⟨_, execPatrolScrub_of_uncorrectable s haddr, ?_, fun j => ?_, sameBytes_of_outside ?_⟩
    · rw [quiet_postEvent, hpoison, quiet_modSurf, quiet_modSurf, quiet_setPoison, scrubbed, quiet_bump, quiet_bump]
    · have hfixed : ringFixed (getRings (poisonUnit (scrubbed s addr) addr) j) = ringFixed (getRings s j) := by rw [getRings, hrings]; rfl
      have hpost := congrFun (fixedOf_postEvent (poisonUnit (scrubbed s addr) addr) 0 (eccBits (poisonUnit (scrubbed s addr) addr) 3 addr 3)) j
      exact hpost.trans hfixed
    · rw [outside_postEvent]
      exact outside_same hrings hmem
  · show execReservoirIdleTimer s = _
    unfold execReservoirIdleTimer
    rw [if_neg (by simpa using hidle)]

end Sys2Proof.Machine
end

section
/-! Device writers, the rebuilt ledger entry, and the compressor lanes (R115, R116, R119, R151, R152, R155). -/
namespace Sys2Proof.Machine
open Sys2Proof

/-! One line of a device writer. -/

/-- A plane line that the Weir allows is stored, its rounded part filled, and with the Gauge off nothing takes note (R116, R248). -/
theorem planeLine_allowed {s : State} {i y : Nat} {data : List Byte} (hgauge : ∀ u, u < 8 → (tget {} s.gauge.units u).enable = false)
    (hallow : weirDenied s (getSurf s i).owner (writerEngine (getSurf s i).writer) true ((getSurf s i).base + y * (getSurf s i).pitch)
      (lineSize (getSurf s i).format (getSurf s i).width) = none) :
    planeLine s i y data = storeLine s (getSurf s i) y (padPixels (pixelBytes (getSurf s i).format (decide ((getSurf s i).height ≤ y)))
      (lineSize (getSurf s i).format (getSurf s i).width) (data.take (lineSize (getSurf s i).format (getSurf s i).width))) := by
  unfold planeLine
  dsimp only
  rw [hallow]
  exact gaugeLine_off (storeLine s (getSurf s i) y _) i y _ hgauge

/-- A padded line is no longer than the line. -/
theorem take_padPixels (m n : Nat) (l : List Byte) : (padPixels m n l).take n = padPixels m n l := by
  rw [padPixels, List.take_take, Nat.min_self]

/-- One line of a device writer into an uncompressed surface of one plane is stored at FRONTIER, which passes it (R116). -/
theorem writerLine_allowed {s : State} {i : Nat} {x : Surface} {data : List Byte} (hx : getSurf s i = x) (hformat : x.format ≠ 0)
    (hplain : formatTwoPlane x.format = false) (hfront : x.frontier < surfaceLines x)
    (hallow : weirDenied s x.owner (writerEngine x.writer) true (x.base + x.frontier * x.pitch) (lineSize x.format x.width) = none)
    (hgauge : ∀ u, u < 8 → (tget {} s.gauge.units u).enable = false) (hexports : ∀ src, x.source = some src → exportsOf s src = []) :
    writerLine s i data = modSurf (writeBytes s (x.base + x.frontier * x.pitch) (padTo 256 (padPixels (pixelBytes x.format false)
      (lineSize x.format x.width) (data.take (lineSize x.format x.width))))) i fun y => { y with frontier := min (surfaceLines y) (y.frontier + 1) } := by
  have hheight : decide (x.height ≤ x.frontier) = false := by
    have hlines : surfaceLines x = x.height := if_neg hformat
    rw [hlines] at hfront
    exact decide_eq_false (Nat.not_le.2 hfront)
  have hp010 : x.format ≠ 0x21 ∨ x.writer = .host := .inl fun hf => by rw [hf] at hplain; cases hplain
  have hline := planeLine_allowed (i := i) (y := x.frontier) (data := data.take (lineSize x.format x.width)) hgauge (by rw [hx]; exact hallow)
  rw [hx, hheight, List.take_take, Nat.min_self, storeLine, lineBytes_plain _ _ hp010, take_padPixels, padUnit] at hline
  unfold writerLine
  dsimp only
  rw [hx]
  simp only [hformat, hplain, if_false, Bool.false_eq_true, false_and, hline]
  refine exportLines_off _ _ fun src hsrc => hexports src ?_
  rw [getSurf_modSurf, if_pos rfl] at hsrc
  subst hx
  exact hsrc

/-- A device writer's line that nothing holds back is written (R115, R119). -/
theorem exec_writerLineComplete {s : State} {hd : Nat} {data : List Byte} (hlook : (lookup s hd).isSome = true)
    (hrebuild : (getSurf s (handleIndex hd)).rebuilding = false) (hwriter : (getSurf s (handleIndex hd)).writer ≠ .host)
    (hpass : (getSurf s (handleIndex hd)).pass ≠ 0) (hfront : (getSurf s (handleIndex hd)).frontier < surfaceLines (getSurf s (handleIndex hd)))
    (hwait : ((getSurf s (handleIndex hd)).waitable && writerBlocked s (handleIndex hd) (getSurf s (handleIndex hd)).pass
      (getSurf s (handleIndex hd)).frontier (getSurf s (handleIndex hd)).frontier) = false)
    (hplain : formatCompressed (getSurf s (handleIndex hd)).format = false) :
    exec (.writerLineComplete hd data 0) s = .next (writerLine s (handleIndex hd) data) := by
  have hlate : decide (surfaceLines (getSurf s (handleIndex hd)) ≤ (getSurf s (handleIndex hd)).frontier) = false := decide_eq_false (Nat.not_le.2 hfront)
  have hnone : (lookup s hd).isNone = false := by rw [← Option.not_isSome, hlook]; rfl
  have hzero : ((getSurf s (handleIndex hd)).pass == 0) = false := by simpa using hpass
  have hledger : ledgerAccess s (handleIndex hd) 0 = s := by simp [ledgerAccess]
  show execWriterLineComplete hd data 0 s = _
  unfold execWriterLineComplete deliverLine
  dsimp only
  rw [hledger, hnone, hrebuild, hplain]
  simp only [Bool.false_or, Bool.false_eq_true, if_false, hwriter, hlate, hzero, hwait, decide_false]

/-! Tile rows. -/

/-- The state with other bytes in its store. -/
def withBytes (s : State) (m : List (Nat × Byte)) (p q : Tab Bool) : State :=
  { s with store := { s.store with mem := m, poison := p, poisonSeen := q } }

theorem writeBytes_withBytes (s : State) (m : List (Nat × Byte)) (p q : Tab Bool) (a : Nat) (l : List Byte) :
    ∃ m' p' q', writeBytes (withBytes s m p q) a l = withBytes s m' p' q' := ⟨_, _, _, rfl⟩

theorem writeBytes_leaves (s : State) (a : Nat) (l : List Byte) : ∃ m p q, writeBytes s a l = withBytes s m p q := ⟨_, _, _, rfl⟩

/-- Storing a tile row changes the store's bytes and their poison, nothing else. -/
theorem storeRow_leaves (s : State) (x : Surface) (r : Nat) (b : List (List Byte)) : ∃ m p q, storeRow s x r b = withBytes s m p q := by
  have hkeep : ∀ (t : State) (u : Nat), (∃ m p q, t = withBytes s m p q) → ∃ m p q, writeBytes t (u * 256) (List.replicate 256 0) = withBytes s m p q := by
    rintro _ u ⟨m, p, q, rfl⟩
    exact writeBytes_withBytes ..
  unfold storeRow storeRecord
  dsimp only
  obtain ⟨m, p, q, hm⟩ := foldl_keeps (fun t => ∃ m p q, t = withBytes s m p q) (fun t u => writeBytes t (u * 256) (List.replicate 256 0)) hkeep _ _
    (writeBytes_leaves s _ _)
  rw [hm]
  exact writeBytes_withBytes ..

/-- The surface after a tile row that stands at or above FRONTIER with none written above it: FRONTIER passes the row, or the row waits (R116). -/
theorem getSurf_rowWritten {s : State} {i r : Nat} {x : Surface} (hx : getSurf s i = x) (hdone : x.rowsDone = []) (hrow : x.frontier ≤ 4 * r) :
    getSurf (rowWritten s i r) i = if x.frontier = 4 * r then advance 4 { x with rowsDone := [] } else { x with rowsDone := [r] } := by
  unfold rowWritten
  rw [getSurf_modSurf, if_pos rfl, hx]
  simp only [hrow, if_true, hdone, List.nil_append, List.length_singleton, settleRows, List.contains_cons, List.contains_nil, Bool.or_false, beq_iff_eq]
  by_cases hreach : x.frontier = 4 * r
  · have hdiv : x.frontier / 4 = r := by omega
    rw [if_pos hdiv, if_pos hreach, hdiv, List.erase_cons_head]
  · rw [if_neg (by omega), if_neg hreach]

theorem getSurf_rowWritten_ne {s : State} {i j r : Nat} (hj : j ≠ i) : getSurf (rowWritten s i r) j = getSurf s j := by
  unfold rowWritten
  rw [getSurf_modSurf, if_neg hj]

/-- The lane after it has taken up no row: its last one is out of it. -/
def laneFreed (s : State) (lane : Nat) : State :=
  { s with sluice := { s.sluice with lanes := tmod {} s.sluice.lanes lane fun x => { x with job := none } } }

theorem getSurf_laneFreed (s : State) (lane i : Nat) : getSurf (laneFreed s lane) i = getSurf s i := rfl

theorem weirDenied_laneFreed (s : State) (lane sl e : Nat) (w : Bool) (a n : Nat) : weirDenied (laneFreed s lane) sl e w a n = weirDenied s sl e w a n := rfl

/-- The four lines of a tile row, and its chroma lines, as a lane's work holds them (R140). -/
def rowBlocksOf (x : Surface) (w : LaneWork) (rawMode : Bool) : List (List Byte) :=
  rowBlocks x w.row rawMode (chunksOf (rowLineBytes x) 4 w.raw) (if x.format = 0x60 then chunksOf x.width 2 (w.raw.drop (4 * x.width)) else [])

/-- The state with other counters. -/
def withCounters (s : State) (k : Tab Nat) : State := { s with boot := { s.boot with counters := k } }

theorem bump_eq (s : State) (g e c n : Nat) : ∃ k, bump s g e c n = withCounters s k := ⟨_, rfl⟩

theorem bump_withCounters (s : State) (k : Tab Nat) (g e c n : Nat) : ∃ k', bump (withCounters s k) g e c n = withCounters s k' := ⟨_, rfl⟩

/-- A lane's four counts of a row are counters (R439). -/
theorem rowCounts_eq (s : State) (lane a b c d : Nat) : ∃ k, bump (bump (bump (bump s 2 lane 0 a) 2 lane 1 b) 2 lane 2 c) 2 lane 3 d = withCounters s k := by
  obtain ⟨k₁, h₁⟩ := bump_eq s 2 lane 0 a
  obtain ⟨k₂, h₂⟩ := bump_withCounters s k₁ 2 lane 1 b
  obtain ⟨k₃, h₃⟩ := bump_withCounters s k₂ 2 lane 2 c
  rw [h₁, h₂, h₃]
  exact bump_withCounters s k₃ 2 lane 3 d

/-- A lane writes a verified row of a pass that is not abandoned (R151). -/
theorem rowComplete_eq {s : State} {lane i : Nat} {w : LaneWork} (hjob : (tget {} s.sluice.lanes lane).job = some w) (hsurf : w.surf = some i)
    (horphan : w.orphan = false) :
    rowComplete lane [] s = writeTileRow (laneFreed s lane) (if w.kind = .surfaceWrite then engHost else engSluice) lane i w.row w.raw
      (if (tget {} s.sluice.lanes lane).rawMode then List.range ((getSurf s i).width / 64) else []) := by
  have hmode : (tget {} (laneFreed s lane).sluice.lanes lane).rawMode = (tget {} s.sluice.lanes lane).rawMode := by
    rw [laneFreed, tget_tmod_eq]
  have hverify := verifyRow_none (laneFreed s lane) lane w ((getSurf s i).width / 64)
  rw [hmode] at hverify
  unfold rowComplete
  rw [hjob]
  show (match w.surf with
    | some j => if w.orphan then (verifyRow (laneFreed s lane) lane w ((getSurf s j).width / 64) []).1
        else writeTileRow (verifyRow (laneFreed s lane) lane w ((getSurf s j).width / 64) []).1 (if w.kind = LaneKind.surfaceWrite then engHost else engSluice) lane j
          w.row w.raw (verifyRow (laneFreed s lane) lane w ((getSurf s j).width / 64) []).2
    | none => _) = _
  rw [hsurf]
  dsimp only
  rw [hverify, horphan, if_neg Bool.false_ne_true]

theorem getSurf_withBytes (s : State) (k : Tab Nat) (m : List (Nat × Byte)) (p q : Tab Bool) (i : Nat) :
    getSurf (withBytes (withCounters s k) m p q) i = getSurf s i := rfl

/-- A verified row of a surface that no export reads is stored with its record, and FRONTIER passes it once it may (R151, R152). -/
theorem rowComplete_verified {s : State} {lane i : Nat} {w : LaneWork} {x : Surface} (hx : getSurf s i = x)
    (hjob : (tget {} s.sluice.lanes lane).job = some w) (hsurf : w.surf = some i) (horphan : w.orphan = false) (hdone : x.rowsDone = [])
    (hrow : x.frontier ≤ 4 * w.row)
    (hallow : weirDenied s x.owner (if w.kind = .surfaceWrite then engHost else engSluice) true (x.base + dataOffset x.width x.height + w.row * x.pitch) x.pitch = none)
    (hexports : ∀ src, x.source = some src → exportsOf s src = []) :
    ∃ k, rowComplete lane [] s =
      rowWritten (storeRow (withCounters (laneFreed s lane) k) x w.row (rowBlocksOf x w (tget {} s.sluice.lanes lane).rawMode)) i w.row := by
  have hwrite := writeTileRow_eq (laneFreed s lane) (if w.kind = .surfaceWrite then engHost else engSluice) lane i w.row w.raw
    (tget {} s.sluice.lanes lane).rawMode x hx (by rw [weirDenied_laneFreed]; exact hallow)
  have hcomplete := rowComplete_eq hjob hsurf horphan
  rw [hx] at hcomplete
  dsimp only at hwrite
  rw [hcomplete, hwrite, ← rowBlocksOf]
  obtain ⟨k, hk⟩ := rowCounts_eq (laneFreed s lane) lane (rowBlocksOf x w (tget {} s.sluice.lanes lane).rawMode).length
    ((rowBlocksOf x w (tget {} s.sluice.lanes lane).rawMode).filter blockIsRaw).length w.raw.length
    (((rowBlocksOf x w (tget {} s.sluice.lanes lane).rawMode).map List.length).foldl (· + ·) 0)
  obtain ⟨m, p, q, hstored⟩ := storeRow_leaves (withCounters (laneFreed s lane) k) x w.row (rowBlocksOf x w (tget {} s.sluice.lanes lane).rawMode)
  refine ⟨k, ?_⟩
  rw [hk, hstored]
  refine exportLines_off _ _ fun src hsrc => hexports src ?_
  rw [getSurf_rowWritten ((getSurf_withBytes (laneFreed s lane) k m p q i).trans hx) hdone hrow] at hsrc
  split at hsrc <;> exact hsrc

/-- A row that no SURFACE_WRITE and no delivery waits for is written and that is all (R131, R151). -/
theorem execSluiceRowComplete_of_row {s t : State} {lane i : Nat} {w : LaneWork} (hjob : (tget {} s.sluice.lanes lane).job = some w)
    (hsurf : w.surf = some i) (hrow : rowComplete lane [] s = t) (hdeliveries : (t.media.deliveries.find? fun d => d.surf == i) = none)
    (hwrites : (t.sluice.writes.find? fun j => j.surf == i) = none) : exec (.sluiceRowComplete lane []) s = .next t := by
  show execSluiceRowComplete lane [] s = _
  unfold execSluiceRowComplete
  rw [hjob, hrow]
  dsimp only
  rw [hsurf]
  dsimp only
  rw [completeDeliveries_off t i hdeliveries, settleWrites, hwrites]

theorem rowWritten_leaves (s : State) (i r : Nat) :
    (rowWritten s i r).store.mem = s.store.mem ∧ (rowWritten s i r).sluice = s.sluice ∧ (rowWritten s i r).media = s.media ∧
      (rowWritten s i r).out = s.out ∧ (rowWritten s i r).rings = s.rings := ⟨rfl, rfl, rfl, rfl, rfl⟩

theorem withBytes_leaves (s : State) (k : Tab Nat) (m : List (Nat × Byte)) (p q : Tab Bool) :
    (withBytes (withCounters s k) m p q).sluice = s.sluice ∧ (withBytes (withCounters s k) m p q).media = s.media ∧
      (withBytes (withCounters s k) m p q).out = s.out ∧ (withBytes (withCounters s k) m p q).rings = s.rings := ⟨rfl, rfl, rfl, rfl⟩

/-- Settles O9: passes and lines of device writers, a rebuilt ledger entry, and the compressor lanes. -/
theorem deviceWriters : Obligations.DeviceWriters := by
  unfold Obligations.DeviceWriters
  refine ⟨fun s hd hlook hpass => ?_, fun s hd data => ?_, fun s i hrebuild hkey hfences => ?_, fun s lane w hlane hjob hservice hwork => ?_, fun s lane i w => ?_⟩
  · show execWriterPassStart hd s = _
    unfold execWriterPassStart
    rw [hlook, hpass]
    rfl
  · intro i x hlook hrebuild hwriter hpass hfront hwait hformat hplain htwo hallow hgauge hexports n
    exact (exec_writerLineComplete hlook hrebuild hwriter hpass hfront hwait hplain).trans
      (congrArg _ (writerLine_allowed rfl hformat htwo hfront hallow hgauge hexports))
  · show execLineLedgerRebuilt i s = _
    unfold execLineLedgerRebuilt
    dsimp only
    rw [hrebuild, hkey]
    simp only [Bool.not_true, Bool.false_eq_true, if_false]
    rw [show ((modSurf s i _).store.fences.filter fun f => f.surf == i && !f.unlatched) = [] from hfences]
    rfl
  · show execSluiceLaneTakeWork lane s = _
    unfold execSluiceLaneTakeWork
    simp only [hlane, hjob, hservice, hwork, decide_true, Option.isSome_none, Bool.not_true, Bool.or_false, Bool.false_eq_true, if_false]
  · intro x hjob hsurf horphan hdone hrow hallow hexports hdeliveries hwrites n
    obtain ⟨k, hk⟩ := rowComplete_verified rfl hjob hsurf horphan hdone hrow hallow hexports
    obtain ⟨m, p, q, hstored⟩ := storeRow_leaves (withCounters (laneFreed s lane) k) x w.row (rowBlocksOf x w (tget {} s.sluice.lanes lane).rawMode)
    have hmem : (storeRow (withCounters (laneFreed s lane) k) x w.row (rowBlocksOf x w (tget {} s.sluice.lanes lane).rawMode)).store =
        (storeRow s x w.row (rowBlocksOf x w (tget {} s.sluice.lanes lane).rawMode)).store := storeRow_store s _ x w.row _ rfl
    rw [hstored] at hk hmem
    obtain ⟨hrowmem, hrowsluice, hrowmedia, hrowout, hrowrings⟩ := rowWritten_leaves (withBytes (withCounters (laneFreed s lane) k) m p q) i w.row
    obtain ⟨hsluice, hmedia, hout, hrings⟩ := withBytes_leaves (laneFreed s lane) k m p q
    have hget : ∀ j, getSurf (withBytes (withCounters (laneFreed s lane) k) m p q) j = getSurf s j := getSurf_withBytes (laneFreed s lane) k m p q
    have hpassed := getSurf_rowWritten (hget i) hdone hrow
    refine ⟨_, execSluiceRowComplete_of_row hjob hsurf hk (by rw [hrowmedia, hmedia]; exact hdeliveries) (by rw [hrowsluice, hsluice]; exact hwrites),
      ?_, fun hreach => ?_, fun hbelow => ?_, fun j hj => ?_, hrowout.trans hout, hrowrings.trans hrings, hrowmem.trans (congrArg (·.mem) hmem)⟩
    · rw [hrowsluice, hsluice, laneFreed, tget_tmod_eq]
    · rw [hpassed, if_pos hreach]
      rfl
    · rw [hpassed, if_neg (Nat.ne_of_lt hbelow)]
      exact ⟨rfl, rfl⟩
    · rw [getSurf_rowWritten_ne hj, hget]

end Sys2Proof.Machine
end

section
/-! Pending layers, commit groups, coefficient sets and bank assignment (R138, R162, R184 to R186, R193). -/
namespace Sys2Proof.Machine
open Sys2Proof

/-- Settles O11: a pending descriptor, and the three ways in which a slot is cleared. -/
theorem pendingLayers : Obligations.PendingLayers := by
  unfold Obligations.PendingLayers
  refine ⟨fun s c h hr hc => ?_, fun s c h hr hc => ⟨fun howner htook => ?_, fun howner htook => ?_, fun howner => ?_⟩⟩
  · exact hr.1.answersNow (congrArg Host.Outcome.next (hr.runPacket rfl hc)) rfl
  · have hact : actLayerClear s h c = finishNow (modSlot s (slotKey (pf h.pkt 16 0 3) (pf h.pkt 17 0 3)) fun x =>
        { x with pending := none, pendPal := [], cleared := true }) h .ok [] := by
      unfold actLayerClear
      dsimp only
      rw [if_pos howner, if_pos htook]
    exact hr.1.answersNow ((congrArg Host.Outcome.next (hr.runPacket rfl hc)).trans (congrArg _ hact)) rfl
  · have hact : actLayerClear s h c = finishNow (cancelSlot (modSlot s (slotKey (pf h.pkt 16 0 3) (pf h.pkt 17 0 3)) freeSlot)
        (slotKey (pf h.pkt 16 0 3) (pf h.pkt 17 0 3))) h .ok [fAt 16 0 8 2] := by
      unfold actLayerClear
      dsimp only
      rw [if_pos howner, if_neg (by simp [htook])]
    exact hr.1.answersNow ((congrArg Host.Outcome.next (hr.runPacket rfl hc)).trans (congrArg _ hact)) rfl
  · have hact : actLayerClear s h c = finishNow (modSlot s (slotKey (pf h.pkt 16 0 3) (pf h.pkt 17 0 3)) fun x =>
        { x with mgrClear := some (boundaryAfter (now s)) }) h .ok [fAt 16 0 8 1, fAt 24 0 64 (boundaryBits (boundaryAfter (now s)))] := by
      unfold actLayerClear
      dsimp only
      rw [if_neg howner]
    exact hr.1.answersNow ((congrArg Host.Outcome.next (hr.runPacket rfl hc)).trans (congrArg _ hact)) rfl

/-! What reading a command's source leaves alone. -/

theorem time_latchGauge (s : State) (off : Nat) : (latchGauge s off).time = s.time := by
  unfold latchGauge
  split <;> rfl

theorem time_regRead (s : State) (off size : Nat) : (regRead s off size).1.time = s.time := by
  unfold regRead
  split
  · dsimp only
    split
    · exact time_latchGauge s off
    · exact time_latchGauge s off
  · rfl
  · split
    · split <;> rfl
    · rfl

/-- Registers read one after another are read in no time, whatever reads each. -/
theorem time_regReads (read : State → Nat → Nat → State × Nat) (hread : ∀ s off size, (read s off size).1.time = s.time) (a n : Nat) (l : List Nat)
    (x : State × List Byte) :
    (l.foldl (fun (x : State × List Byte) k =>
      let m := min 8 (n - 8 * k)
      let (s, v) := read x.1 (a - regSpace + 8 * k) (if m < 8 then 4 else 8)
      (s, x.2 ++ bytesLE m v)) x).1.time = x.1.time :=
  foldl_keeps (fun y : State × List Byte => y.1.time = x.1.time) _ (fun y _ hy => (hread y.1 _ _).trans hy) l x rfl

theorem time_weirRead (s : State) (a n : Nat) : (weirRead s a n).1.time = s.time := by
  unfold weirRead
  cases hreg : inRegSpace a with
  | true => exact time_regReads regRead time_regRead a n _ (s, [])
  | false => exact time_of_quiet (quiet_noteRead ..)

theorem time_denyAt (s : State) (slice e : Nat) (w : Bool) (r a : Nat) : (denyAt s slice e w r a).time = s.time := time_of_quiet (quiet_denyAt ..)

theorem time_storeRead (s : State) (slice e a n : Nat) : (storeRead s slice e a n).1.time = s.time := by
  unfold storeRead
  split
  · exact time_weirRead s a n
  · exact time_denyAt ..

/-- A command's source is read in no time. -/
theorem time_srcRead (s : State) (slice e : Nat) (space : Bool) (c : Cmd) (a n : Nat) : (srcRead s slice e space c a n).1.time = s.time := by
  unfold srcRead
  split
  · exact time_storeRead ..
  · split
    · rfl
    · exact time_denyAt ..

/-- Settles O13: each setting is noted for its boundary, and a coefficient image that fails is not. -/
theorem compositionSettings : Obligations.CompositionSettings := by
  unfold Obligations.CompositionSettings
  refine ⟨fun s c h hr hc => ?_, fun s c h hr hc hclear => ?_, fun s u c h l hr hc hclear hsrc hgood => ?_,
    fun s u c h l f hr hc hclear hsrc hfail => ?_, fun s c h hr hc => ?_⟩
  · exact hr.1.answers (congrArg Host.Outcome.next (hr.runPacket rfl hc))
  · have hact : actCoeffLoad s h c = finish { s with comp := { s.comp with
        pendCoeffs := s.comp.pendCoeffs ++ [(pf h.pkt 16 0 2, {}, boundaryAfter (now s))] } } h .ok (boundaryBits (boundaryAfter (now s)))
        (packFields [fAt 16 0 8 (pf h.pkt 16 0 2), fAt 18 0 16 (setUsers s (pf h.pkt 16 0 2))]) := if_pos hclear
    exact hr.1.answers ((congrArg Host.Outcome.next (hr.runPacket rfl hc)).trans (congrArg _ hact))
  · refine hr.1.answers ((congrArg Host.Outcome.next (hr.runPacket rfl hc)).trans (congrArg Host.Outcome.next ?_))
    unfold actCoeffLoad
    dsimp only
    rw [if_neg (by simp [hclear]), hsrc]
    dsimp only
    rw [hgood]
    rfl
  · have htime : u.time = s.time := (congrArg (·.1.time) hsrc).symm.trans (time_srcRead ..)
    have hact : actCoeffLoad s h c = finishNow u h .badParam
        [fAt 16 0 8 (pf h.pkt 16 0 2), fAt 18 0 16 (setUsers u (pf h.pkt 16 0 2)), fAt 20 0 8 f.1, fAt 21 0 8 f.2.1, fAt 22 0 8 f.2.2] := by
      unfold actCoeffLoad
      dsimp only
      rw [if_neg (by simp [hclear]), hsrc]
      dsimp only
      rw [hfail]
    exact hr.1.answersNow ((congrArg Host.Outcome.next (hr.runPacket rfl hc)).trans (congrArg _ hact)) (nowBits_of_time htime)
  · have hbusy : bankBusy s = false := (firstFail_cons_eq_none.1 (firstFail_cons_eq_none.1 hc).2).1
    have hact : actBankAssign s h c = finish { s with comp := { s.comp with pendLeft := some (pf h.pkt 16 0 8, boundaryAfter (now s)) } } h .ok
        (boundaryBits (boundaryAfter (now s))) (packFields [fAt 16 0 8 s.comp.left]) := by
      unfold actBankAssign
      dsimp only
      rw [hbusy, hr.boundary]
      rfl
    exact hr.1.answers ((congrArg Host.Outcome.next (hr.runPacket rfl hc)).trans (congrArg _ hact))

end Sys2Proof.Machine
end

section
/-! COMMIT's record and the effect of one whose hold has expired (R170, R172, R173, R176 to R178, R183). -/
namespace Sys2Proof.Machine
open Sys2Proof

/-! COMMIT's commit point. -/

/-- The record that a COMMIT makes (R173, R178). -/
def commitRecord (s : State) (h : Held) : CommitRecord :=
  { slice := h.slice, group := pf h.pkt 16 0 3, target := commitTarget s h.pkt, layers := snapshot s h.slice (pf h.pkt 16 0 3) (flipsOf h.pkt)
    key := heldKey h
    superseded := match outstanding s h.slice (pf h.pkt 16 0 3) with
      | some r => r.superseded ++ (if r.applied then [] else [r.key])
      | none => [] }

/-- The held packet past the commit point of a COMMIT: armed for its WP_DUE, or held for its boundary (R173). -/
def commitHeld (h x : Held) : Held :=
  if pktTimed h.pkt then { x with phase := .armed, due := wpOfBits (pktDue h.pkt) } else { x with phase := .committed }

/-- The FLIP list of a packet written into the pending layers (R183). -/
def flipsWritten (s : State) (p : Packet) : State :=
  forEach (flipsOf p) (fun f s => modSlot s f.1 fun x => { x with pending := x.pending.map fun d => { d with handle := f.2 } }) s

/-- The records with a slice's last one of a group replaced (R178). -/
def withRecord (s : State) (r : CommitRecord) : State :=
  { s with comp := { s.comp with records := (s.comp.records.filter fun q => !(q.slice == r.slice && q.group == r.group)) ++ [r] } }

theorem actCommit_eq (s : State) (h : Held) (c : Cmd) :
    actCommit s h c = modHeld (withRecord (flipsWritten s h.pkt) (commitRecord s h)) (heldKey h) (commitHeld h) := rfl

/-! What a record's effect leaves alone. -/

/-- Slots, surfaces and slices: what the effect of a commit record reads and writes. -/
def layerView (s : State) : Tab Slot × Tab Surface × Tab Slice := (s.comp.slots, s.store.surfs, s.slices)

theorem layerView_of_quiet {s t : State} (h : quiet t = quiet s) : layerView t = layerView s := quiet_eq layerView (fun _ => rfl) h

theorem getSlot_of_view {s t : State} (h : layerView t = layerView s) (k : Nat) : getSlot t k = getSlot s k := by
  rw [getSlot, getSlot, show t.comp.slots = s.comp.slots from congrArg (·.1) h]

theorem layerView_finishKey (s : State) (k : CmdKey) (st : Status) (w : Nat) (f : List Field) : layerView (finishKey s k st w f) = layerView s :=
  layerView_of_quiet (quiet_finishKey ..)

theorem layerView_postNotReady (b : Wp) (r : CommitRecord) (s : State) : layerView (postNotReady b r s) = layerView s := by
  refine layerView_of_quiet (quiet_forEach _ _ _ fun l t => ?_)
  split
  · split
    · rfl
    · exact quiet_postEvent ..
  · rfl

theorem layerView_refreshCause (s : State) (o cause : Nat) : layerView (refreshCause s o cause) = layerView s := by
  unfold refreshCause
  split <;> rfl

theorem layerView_latchArrivals (b : Wp) (src : List Nat) (s : State) : layerView (latchArrivals b src s) = layerView s := by
  refine forEach_same layerView _ _ _ fun i t => ?_
  split <;> rfl

/-- Whether a layer is ready rests on its slot and on the surfaces. -/
theorem notReady_congr {s t : State} {l : SnapLayer} (hslot : getSlot t l.key = getSlot s l.key) (hsurfs : t.store.surfs = s.store.surfs) :
    notReady t l = notReady s l := by
  unfold notReady latchedSurf lookup getSurf
  rw [hslot, hsurfs]

/-- The image of a layer rests on the surfaces and the slices. -/
theorem imageOf_congr {s t : State} (hsurfs : t.store.surfs = s.store.surfs) (hslices : t.slices = s.slices) (i : Nat) (l : SnapLayer) (d : Desc)
    (latch : Bool) (pal : Tab Nat) : imageOf t i l d latch pal = imageOf s i l d latch pal := by
  unfold imageOf latchedSurf getSurf getSlice
  rw [hsurfs, hslices]

/-! The layers of a record taken one by one. -/

/-- The slot of a layer after the layer has taken effect (R176). -/
def slotTaken (s : State) (i : Nat) (l : SnapLayer) : Slot := getSlot (takeLayer i l s) l.key

section
variable {s : State} {i : Nat} {l : SnapLayer}

theorem slotTaken_of_lost (h : (getSlot s l.key).owner ≠ some i) : slotTaken s i l = getSlot s l.key := by
  unfold slotTaken takeLayer
  dsimp only
  rw [if_pos h]

theorem slotTaken_of_removal (h : (getSlot s l.key).owner = some i) (hd : l.desc = none) : slotTaken s i l = freeSlot (getSlot s l.key) := by
  unfold slotTaken takeLayer
  dsimp only
  rw [if_neg (not_not_intro h), hd]
  exact (getSlot_modSlot ..).trans (if_pos rfl)

theorem slotTaken_of_ready {d : Desc} (h : (getSlot s l.key).owner = some i) (hd : l.desc = some d) (hready : notReady s l = none) :
    slotTaken s i l = { getSlot s l.key with active := imageOf s i l d true (getSlot s l.key).pendPal, took := true } := by
  unfold slotTaken takeLayer
  dsimp only
  rw [if_neg (not_not_intro h), hd]
  dsimp only
  rw [hready, if_pos (show (none : Option Nat).isNone = true from rfl)]
  exact (getSlot_modSlot ..).trans (if_pos rfl)

/-- A layer taken changes its slot alone. -/
theorem takeLayer_leaves : (takeLayer i l s).store = s.store ∧ (takeLayer i l s).slices = s.slices ∧
    ∀ k, k ≠ l.key → getSlot (takeLayer i l s) k = getSlot s k := by
  unfold takeLayer
  dsimp only
  have hmod : ∀ f : Slot → Slot, (modSlot s l.key f).store = s.store ∧ (modSlot s l.key f).slices = s.slices ∧
      ∀ k, k ≠ l.key → getSlot (modSlot s l.key f) k = getSlot s k := fun f => ⟨rfl, rfl, fun k hk => by rw [getSlot_modSlot, if_neg hk]⟩
  have hsame : s.store = s.store ∧ s.slices = s.slices ∧ ∀ k, k ≠ l.key → getSlot s k = getSlot s k := ⟨rfl, rfl, fun _ _ => rfl⟩
  split
  · exact hsame
  · split
    · exact hmod _
    · split
      · exact hmod _
      · split
        · exact hsame
        · exact hmod _

theorem slotTaken_congr {t : State} (hslot : getSlot t l.key = getSlot s l.key) (hsurfs : t.store.surfs = s.store.surfs) (hslices : t.slices = s.slices) :
    slotTaken t i l = slotTaken s i l := by
  have hready := notReady_congr hslot hsurfs
  have himage := imageOf_congr hsurfs hslices
  unfold slotTaken takeLayer
  simp only [hslot, hready, himage]
  split
  · exact hslot
  · split
    · simp only [getSlot_modSlot, if_true, hslot]
    · split
      · simp only [getSlot_modSlot, if_true, hslot]
      · split
        · exact hslot
        · simp only [getSlot_modSlot, if_true, hslot]

end

/-- Layers of distinct slots taken one by one: each slot is what its layer makes of it, every other slot stays (R176). -/
theorem takeLayers_slots (i : Nat) : ∀ (ls : List SnapLayer) (s : State), (ls.map SnapLayer.key).Nodup →
    (forEach ls (takeLayer i) s).store = s.store ∧ (forEach ls (takeLayer i) s).slices = s.slices ∧
      (∀ l ∈ ls, getSlot (forEach ls (takeLayer i) s) l.key = slotTaken s i l) ∧
      (∀ k, (∀ l ∈ ls, l.key ≠ k) → getSlot (forEach ls (takeLayer i) s) k = getSlot s k)
  | [], s, _ => ⟨rfl, rfl, fun _ h => absurd h List.not_mem_nil, fun _ _ => rfl⟩
  | a :: ls, s, hnodup => by
    obtain ⟨hnew, hrest⟩ := List.nodup_cons.1 hnodup
    obtain ⟨hstoreA, hslicesA, hothersA⟩ := takeLayer_leaves (s := s) (i := i) (l := a)
    obtain ⟨hstore, hslices, htaken, hothers⟩ := takeLayers_slots i ls (takeLayer i a s) hrest
    have hne : ∀ l ∈ ls, l.key ≠ a.key := fun l hl he => hnew (List.mem_map.2 ⟨l, hl, he⟩)
    refine ⟨hstore.trans hstoreA, hslices.trans hslicesA, fun l hl => ?_, fun k hk => ?_⟩
    · rcases List.mem_cons.1 hl with rfl | hl
      · exact hothers _ hne
      · exact (htaken l hl).trans (slotTaken_congr (hothersA _ (hne l hl)) (congrArg (·.surfs) hstoreA) hslicesA)
    · exact (hothers k fun l hl => hk l (List.mem_cons_of_mem _ hl)).trans (hothersA k fun he => hk a List.mem_cons_self he.symm)

/-- What a record's effect does after its layers are taken: causes noted, replies and events sent, the record kept or dropped. -/
theorem layerView_applyRecord (b : Wp) (r : CommitRecord) (s : State) :
    layerView (applyRecord b r s).1 = layerView (forEach r.layers (takeLayer r.slice) (postNotReady b r s)) := by
  unfold applyRecord
  dsimp only
  generalize forEach r.layers (takeLayer r.slice) (postNotReady b r s) = t
  have hcards := forEach_same layerView r.layers (fun l s => modOut (refreshCause s (l.key / 8) 2) (l.key / 8) fun x => { x with cardDone := true }) t
    fun l u => layerView_refreshCause u (l.key / 8) 2
  generalize forEach r.layers (fun l s => modOut (refreshCause s (l.key / 8) 2) (l.key / 8) fun x => { x with cardDone := true }) t = u at hcards ⊢
  rw [← hcards]
  have hsuperseded : layerView (if (!r.applied) = true then forEach r.superseded (fun k s => finishKey s k .ok (wpBits b) [fAt 24 0 1 1]) u else u) = layerView u := by
    split
    · exact forEach_same layerView _ _ _ fun k v => layerView_finishKey ..
    · rfl
  generalize (if (!r.applied) = true then forEach r.superseded (fun k s => finishKey s k .ok (wpBits b) [fAt 24 0 1 1]) u else u) = v at hsuperseded ⊢
  rw [← hsuperseded]
  generalize hmask : [fAt 16 0 64 (notReadyMask s r), fAt 25 0 8 r.held] = det
  have hreply : layerView (if (!r.applied) = true then finishKey v r.key .ok (wpBits b) det else v) = layerView v := by
    split
    · exact layerView_finishKey ..
    · rfl
  generalize (if (!r.applied) = true then finishKey v r.key .ok (wpBits b) det else v) = w at hreply ⊢
  rw [← hreply]
  show layerView (if (!r.applied && r.expired) = true then postEvent w 0 _ else w) = layerView w
  split
  · exact layerView_of_quiet (quiet_postEvent ..)
  · rfl

/-- The slots after a record has taken effect (R176). -/
theorem applyRecord_slots {b : Wp} {r : CommitRecord} {s : State} (hnodup : (r.layers.map SnapLayer.key).Nodup) :
    (applyRecord b r s).1.store.surfs = s.store.surfs ∧ (applyRecord b r s).1.slices = s.slices ∧
      (∀ l ∈ r.layers, getSlot (applyRecord b r s).1 l.key = slotTaken s r.slice l) ∧
      (∀ k, (∀ l ∈ r.layers, l.key ≠ k) → getSlot (applyRecord b r s).1 k = getSlot s k) := by
  have hview := layerView_applyRecord b r s
  have hposted := layerView_postNotReady b r s
  obtain ⟨hstore, hslices, htaken, hothers⟩ := takeLayers_slots r.slice r.layers (postNotReady b r s) hnodup
  have hsurfsP : (postNotReady b r s).store.surfs = s.store.surfs := congrArg (·.2.1) hposted
  have hslicesP : (postNotReady b r s).slices = s.slices := congrArg (·.2.2) hposted
  refine ⟨?_, ?_, fun l hl => ?_, fun k hk => ?_⟩
  · exact (congrArg (·.2.1) hview).trans ((congrArg (·.surfs) hstore).trans hsurfsP)
  · exact (congrArg (·.2.2) hview).trans (hslices.trans hslicesP)
  · exact (getSlot_of_view hview _).trans ((htaken l hl).trans (slotTaken_congr (getSlot_of_view hposted _) hsurfsP hslicesP))
  · exact (getSlot_of_view hview _).trans ((hothers k hk).trans (getSlot_of_view hposted _))

/-! Shedding. -/

/-- What shedding does to the slots of a state: their SHED marks, and none of a slot with no layer in force (R170). -/
def ShedOnly (s t : State) : Prop :=
  t.store.surfs = s.store.surfs ∧ t.slices = s.slices ∧ (∀ k, { getSlot t k with shed := false } = { getSlot s k with shed := false }) ∧
    ∀ k, (getSlot s k).active.desc = none → (getSlot s k).shed = false → getSlot t k = getSlot s k

theorem ShedOnly.refl (s : State) : ShedOnly s s := ⟨rfl, rfl, fun _ => rfl, fun _ _ _ => rfl⟩

/-- A slot's layer in force after shedding is the one before it. -/
theorem ShedOnly.active {s t : State} (h : ShedOnly s t) (k : Nat) : (getSlot t k).active = (getSlot s k).active := by
  obtain ⟨-, -, hslots, -⟩ := h
  exact congrArg (·.active) (hslots k)

/-- A slot that shedding names has a layer in force. -/
theorem active_of_shedSlots {s : State} {o k : Nat} (h : (shedSlots s o).contains k = true) : (getSlot s (slotKey o k)).active.desc ≠ none := by
  have hplaced : ∀ x ∈ activeLayers s o, (getSlot s (slotKey o x.slot)).active.desc ≠ none := by
    intro x hx
    obtain ⟨j, -, hj⟩ := List.mem_filterMap.1 hx
    obtain ⟨d, hd, rfl⟩ := Option.map_eq_some_iff.1 hj
    simp [hd]
  have hfold : ∀ (l : List Placed) (acc : Nat × List Nat), (∀ x ∈ l, x ∈ activeLayers s o) → (∀ k ∈ acc.2, ∃ x ∈ activeLayers s o, x.slot = k) →
      ∀ k ∈ (l.foldl (fun (acc : Nat × List Nat) x => if acc.1 ≤ outLimit then acc else (acc.1 - placedCost s s.time.timing x, acc.2 ++ [x.slot])) acc).2,
        ∃ x ∈ activeLayers s o, x.slot = k := by
    intro l
    induction l with
    | nil => exact fun acc _ hacc => hacc
    | cons a l ih =>
      intro acc hl hacc
      refine ih _ (fun x hx => hl x (List.mem_cons_of_mem _ hx)) ?_
      dsimp only
      split
      · exact hacc
      · intro k hk
        rcases List.mem_append.1 hk with hk | hk
        · exact hacc k hk
        · exact ⟨a, hl a List.mem_cons_self, (List.mem_singleton.1 hk).symm⟩
  have hmem : k ∈ shedSlots s o := List.contains_iff_mem.1 h
  unfold shedSlots at hmem
  have hfound : ∃ x ∈ activeLayers s o, x.slot = k := by
    refine hfold _ _ (fun x hx => ?_) (fun _ hk => absurd hk List.not_mem_nil) k hmem
    rcases List.mem_append.1 hx with hx | hx <;> exact (List.mem_filter.1 hx).1
  obtain ⟨x, hx, rfl⟩ := hfound
  exact hplaced x hx

/-- Marking one slot as shed or not, when shedding names it or its mark is to go (R170). -/
theorem ShedOnly.mark {s t : State} (h : ShedOnly s t) {key : Nat} {on : Bool} (hmark : (getSlot t key).shed ≠ on)
    (hnamed : on = true → (getSlot s key).active.desc ≠ none) : ShedOnly s (modSlot t key fun x => { x with shed := on }) := by
  obtain ⟨hsurfs, hslices, hslots, hempty⟩ := h
  refine ⟨hsurfs, hslices, fun k => ?_, fun k hd hs => ?_⟩
  · rw [getSlot_modSlot]
    split
    · next hk => subst hk; exact hslots k
    · exact hslots k
  · rw [getSlot_modSlot, if_neg ?_]
    · exact hempty k hd hs
    · rintro rfl
      rw [hempty k hd hs, hs] at hmark
      exact hnamed (by simpa using hmark.symm) hd

theorem ShedOnly.of_view {s t u : State} (h : ShedOnly s t) (hview : layerView u = layerView t) : ShedOnly s u := by
  obtain ⟨hsurfs, hslices, hslots, hempty⟩ := h
  refine ⟨(congrArg (·.2.1) hview).trans hsurfs, (congrArg (·.2.2) hview).trans hslices, fun k => ?_, fun k hd hs => ?_⟩
  · rw [getSlot_of_view hview]; exact hslots k
  · rw [getSlot_of_view hview]; exact hempty k hd hs

/-- Shedding changes nothing of slots, surfaces and slices but marks (R170). -/
theorem shedOnly_applyShedding (b : Wp) (s : State) : ShedOnly s (applyShedding b s) := by
  refine forEach_keeps (ShedOnly s) _ _ _ (fun o t ht => ?_) (ShedOnly.refl s)
  refine forEach_keeps (ShedOnly s) _ _ _ (fun k u hu => ?_) ht
  dsimp only
  split
  · exact hu
  · next hmark =>
    have hnamed : (shedSlots t o).contains k = true → (getSlot s (slotKey o k)).active.desc ≠ none :=
      fun hk => ht.active (slotKey o k) ▸ active_of_shedSlots hk
    have hmarked := hu.mark (by simpa using hmark) hnamed
    split
    · exact hmarked.of_view (layerView_of_quiet (quiet_postEvent ..))
    · exact hmarked

/-- What GROUP_HOLD_EXPIRY runs: the record takes effect, its latches arrive, and the layers that do not fit are shed (R170, R177). -/
theorem exec_groupHoldExpiry {s : State} {i g : Nat} {r : CommitRecord} (hout : outstanding s i g = some r) (hexpired : r.expired = true)
    (happlied : r.applied = false) :
    let b : Wp := ⟨(now s).frame, 0, 0⟩
    ∃ t, exec (.groupHoldExpiry i g) s = .next t ∧ ShedOnly (applyRecord b r s).1 t := by
  intro b
  have hview := layerView_latchArrivals b (applyRecord b r s).2 (applyRecord b r s).1
  have harrived : ShedOnly (applyRecord b r s).1 (latchArrivals b (applyRecord b r s).2 (applyRecord b r s).1) := (ShedOnly.refl _).of_view hview
  have hrun : exec (.groupHoldExpiry i g) s =
      .next (if (latchArrivals b (applyRecord b r s).2 (applyRecord b r s).1).comp.records.any fun r => r.expired && !r.applied then
        latchArrivals b (applyRecord b r s).2 (applyRecord b r s).1 else applyShedding b (latchArrivals b (applyRecord b r s).2 (applyRecord b r s).1)) := by
    show execGroupHoldExpiry i g s = _
    unfold execGroupHoldExpiry
    rw [hout]
    dsimp only
    rw [hexpired, happlied]
    rfl
  refine ⟨_, hrun, ?_⟩
  split
  · exact harrived
  · have hshed := shedOnly_applyShedding b (latchArrivals b (applyRecord b r s).2 (applyRecord b r s).1)
    obtain ⟨hsurfs, hslices, hslots, hempty⟩ := hshed
    refine ⟨hsurfs.trans (congrArg (·.2.1) hview), hslices.trans (congrArg (·.2.2) hview), fun k => ?_, fun k hd hs => ?_⟩
    · exact (hslots k).trans (by rw [getSlot_of_view hview])
    · rw [← getSlot_of_view hview] at hd hs
      exact (hempty k hd hs).trans (getSlot_of_view hview k)

/-- Settles O12: a COMMIT's record, and the effect of a record whose hold has expired. -/
theorem commits : Obligations.Commits := by
  unfold Obligations.Commits
  refine ⟨fun s c h hr hc => ?_, fun s i g r hout hexpired happlied hnodup => ?_⟩
  · intro g
    have hkey := hr.key
    obtain ⟨slots, hflips⟩ := flips_same (flipsOf h.pkt) s
    have hslots := flips_slot (flipsOf h.pkt) s
    have hexec : exec (.commit c) s = .next (modHeld (withRecord (flipsWritten s h.pkt) (commitRecord s h)) (heldKey h) (commitHeld h)) :=
      congrArg Host.Outcome.next (hr.runDirect rfl hc)
    have hwritten : flipsWritten s h.pkt = { s with comp := { s.comp with slots := slots } } := hflips
    refine ⟨_, hexec, ?_, ?_, fun k => ?_, ?_, ?_, ?_, fun j hj => ?_⟩
    · have hfind := findHeld_modHeld (withRecord (flipsWritten s h.pkt) (commitRecord s h)) (heldKey h) (commitHeld h)
        (fun x => by unfold commitHeld; split <;> exact ⟨rfl, rfl⟩) (h := h) (by rw [hkey, hwritten]; exact hr.1)
      rw [hkey] at hfind ⊢
      exact hfind
    · rw [hwritten, ← hkey]
      rfl
    · exact hslots k
    · rw [hwritten]; rfl
    · rw [hwritten]; rfl
    · rw [hwritten]; rfl
    · rw [hwritten, hkey]
      exact (getRings_modRings ..).trans (if_neg hj)
  · obtain ⟨t, hexec, hsurfs, hslices, hslots, hempty⟩ := exec_groupHoldExpiry hout hexpired happlied
    have hslice : r.slice = i := by
      have hfound := List.find?_some hout
      simp only [Bool.and_eq_true, beq_iff_eq] at hfound
      exact hfound.1
    obtain ⟨hsurfsR, hslicesR, htaken, hothers⟩ := applyRecord_slots (b := ⟨(now s).frame, 0, 0⟩) (s := s) hnodup
    rw [hslice] at htaken
    refine ⟨t, hexec, fun l hl howner hd => ?_, fun l d hl howner hd hready => ?_, fun l hl howner => ?_, fun k hk => ?_, hsurfs.trans hsurfsR,
      hslices.trans hslicesR⟩
    · have hfreed := (htaken l hl).trans (slotTaken_of_removal howner hd)
      exact (hempty l.key (by rw [hfreed]; rfl) (by rw [hfreed]; rfl)).trans hfreed
    · rw [hslots, htaken l hl, slotTaken_of_ready howner hd hready]
    · rw [hslots, htaken l hl, slotTaken_of_lost howner]
    · rw [hslots, hothers k hk]

end Sys2Proof.Machine
end

section
/-! Settings of an output, its enable and disable (R208 to R210, R220). -/
namespace Sys2Proof.Machine
open Sys2Proof

/-- The outputs after a SELF_REFRESH_REQUEST: the grant stored, and the end of one noted as the cause that ends self-refresh (R220, R221). -/
def refreshGranted (s : State) (p : Packet) : State :=
  modOut s (pf p 16 0 3) fun x => { x with sr :=
    { x.sr with granted := pb p 16 7, idleFrames := pf p 17 0 8
                cause := if pb p 16 7 = false ∧ (getOut s (pf p 16 0 3)).state = .selfRefresh ∧ (getOut s (pf p 16 0 3)).sr.cause = 0 then 6 else x.sr.cause } }

theorem refreshGranted_eq (s : State) (p : Packet) :
    (if pb p 16 7 then modOut s (pf p 16 0 3) fun x => { x with sr := { x.sr with granted := pb p 16 7, idleFrames := pf p 17 0 8 } }
      else refreshCause (modOut s (pf p 16 0 3) fun x => { x with sr := { x.sr with granted := pb p 16 7, idleFrames := pf p 17 0 8 } }) (pf p 16 0 3) 6) =
      refreshGranted s p := by
  unfold refreshGranted
  cases hgrant : pb p 16 7 with
  | true =>
    rw [if_pos rfl]
    refine modOut_congr _ _ _ _ ?_
    rw [if_neg fun h => Bool.noConfusion h.1]
  | false =>
    rw [if_neg Bool.false_ne_true, refreshCause, getOut_modOut, if_pos rfl]
    by_cases hcause : (getOut s (pf p 16 0 3)).state = .selfRefresh ∧ (getOut s (pf p 16 0 3)).sr.cause = 0
    · rw [if_pos hcause, modOut_modOut]
      refine modOut_congr _ _ _ _ ?_
      rw [if_pos ⟨rfl, hcause⟩]
    · rw [if_neg hcause]
      refine modOut_congr _ _ _ _ ?_
      rw [if_neg fun h => hcause h.2]

/-- Settles O14: an output's timing and its grant are stored, and its enable and disable wait for their boundary. -/
theorem outputSettings : Obligations.OutputSettings := by
  unfold Obligations.OutputSettings
  refine ⟨fun s c h hr hc => ?_, fun s c h hr hc => ?_, fun s c h hr hc => ?_, fun s c h hr hc => ?_⟩
  · exact hr.1.answersNow (congrArg Host.Outcome.next (hr.runPacket rfl hc)) rfl
  · intro o x e
    have hact : actSelfRefresh s h c = finishNow (refreshGranted s h.pkt) h .ok
        [fAt 16 0 8 (pb h.pkt 16 7 && refreshBar (refreshGranted s h.pkt) o == 0).toNat, fAt 17 0 8 (refreshBar (refreshGranted s h.pkt) o)] := by
      rw [← refreshGranted_eq]
      rfl
    have hquiet := quiet_finishNow (refreshGranted s h.pkt) h .ok
      [fAt 16 0 8 (pb h.pkt 16 7 && refreshBar (refreshGranted s h.pkt) o == 0).toNat, fAt 17 0 8 (refreshBar (refreshGranted s h.pkt) o)]
    have hout : ∀ q, getOut (finishNow (refreshGranted s h.pkt) h .ok
        [fAt 16 0 8 (pb h.pkt 16 7 && refreshBar (refreshGranted s h.pkt) o == 0).toNat, fAt 17 0 8 (refreshBar (refreshGranted s h.pkt) o)]) q =
        getOut (refreshGranted s h.pkt) q := fun q => quiet_eq (fun s => getOut s q) (fun _ => rfl) hquiet
    have hself : getOut (refreshGranted s h.pkt) o = { x with sr :=
        { x.sr with granted := pb h.pkt 16 7, idleFrames := pf h.pkt 17 0 8
                    cause := if pb h.pkt 16 7 = false ∧ x.state = .selfRefresh ∧ x.sr.cause = 0 then 6 else x.sr.cause } } :=
      (getOut_modOut ..).trans (if_pos rfl)
    refine ⟨_, (congrArg Host.Outcome.next (hr.runPacket rfl hc)).trans (congrArg _ hact), hr.1.finished .., finishNow_replied .., ?_, ?_, ?_, fun q hq => ?_,
      (quiet_eq (·.comp) (fun _ => rfl) hquiet).trans rfl, (quiet_eq (·.bank) (fun _ => rfl) hquiet).trans rfl, sameBytes_of_outside (outside_finishNow ..)⟩
    · rw [hout, hself]
    · rw [hout, hself]
    · rw [hout, hself]
    · rw [hout]
      exact (getOut_modOut ..).trans (if_neg hq)
  · rw [← hr.1.key, ← hr.boundary]
    exact hr.1.holds (congrArg Host.Outcome.next (hr.runPacket rfl hc)) rfl
  · rw [← hr.1.key, ← hr.boundary]
    exact hr.1.holds (congrArg Host.Outcome.next (hr.runPacket rfl hc)) rfl

end Sys2Proof.Machine
end

section
/-! An EDID destination in register space: the write of R209 reaches RESET_REQ (R364, R446), and the device resets. -/
namespace Sys2Proof.Machine
open Sys2Proof

/-- An output in training whose OUTPUT_ENABLE of slice 0 names the manager page's registers from 0x200 on as its EDID_DEST in the Reservoir's space. -/
def trainingToRegisters : OutputSt :=
  { state := .training, trainingNow := true, cfg := { lanes := 2 }, enable := some { space := true, edidDest := 0x8000000200 } }

/-- The machine of reset with 12 V and that output. -/
def edidToRegisters : State :=
  { State.reset with power := { State.reset.power with inRange := true }, scan := { State.reset.scan with outputs := [(0, trainingToRegisters)] } }

/-- 256 bytes of EDID that hold RESET_REQ's word where the register stands, 24 bytes in (R446). -/
def resettingEdid : List Byte := List.replicate 24 0 ++ [0x51, 0x54, 0x53, 0x52] ++ List.replicate 228 0

/-- The lane count of an output's configuration after a training attempt has ended. -/
def lanesAfter (o : Host.Outcome State Fault Refusal) : Option Nat := match o with
  | .next t => some (getOut t 0).cfg.lanes
  | _ => none

/-- The attempt's EDID, written where EDID_DEST says, resets the device: the output's configuration is gone. -/
theorem lanesAfter_resettingEdid : lanesAfter (exec (.linkTrainingEnd 0 1 2 0 false resettingEdid true) edidToRegisters) = some 1 := by decide +kernel

/-- Refutes O15: an EDID that is written to RESET_REQ resets the device at LINK_TRAINING_END, so that the output's configuration does not stay. -/
theorem not_outputLinks : ¬ Obligations.OutputLinks := by
  unfold Obligations.OutputLinks
  rintro ⟨-, -, -, -, -, -, -, hend, -⟩
  obtain ⟨t, hexec, -, -, -, -, hcfg, -⟩ := hend edidToRegisters 0 1 2 0 false resettingEdid true (by decide) rfl rfl rfl (by decide)
  have hlanes : some (getOut t 0).cfg.lanes = some 1 := (congrArg lanesAfter hexec).symm.trans lanesAfter_resettingEdid
  rw [hcfg] at hlanes
  exact absurd hlanes (by decide)

end Sys2Proof.Machine
end

section
/-! Rectangle operations and their evaluation (R212 to R216). -/
namespace Sys2Proof.Machine
open Sys2Proof

/-! What the passing of time leaves of the outputs and the rectangles. -/

/-- A change of every value is read where neither the value nor its change is the default. -/
theorem tget_tmap {α : Type} [DecidableEq α] (d : α) (f : Nat → α → α) (t : Tab α) (i : Nat) (hold : tget d t i ≠ d)
    (hnew : f i (tget d t i) ≠ d) : tget d (tmap d f t) i = f i (tget d t i) := by
  induction t with
  | nil => exact absurd rfl hold
  | cons e r ih =>
    obtain ⟨k, v⟩ := e
    by_cases hk : i = k
    · subst hk
      simp only [tget, if_true] at hnew
      simp [tmap, tget, hnew]
    · simp only [tget, if_neg hk] at hold hnew ⊢
      rw [tmap]
      split
      · exact ih hold hnew
      · rw [tget, if_neg hk]
        exact ih hold hnew

/-- A rectangle but for its reference signature's validity, which Stillwater forgets (R218). -/
def rectBase (x : Rect) : Rect := { x with refValid := false }

/-- The outputs, the layers and one rectangle in use are as in s. -/
def SameScan (s : State) (i : Nat) (u : State) : Prop :=
  u.scan.outputs = s.scan.outputs ∧ u.comp = s.comp ∧ rectBase (getRect u i) = rectBase (getRect s i)

theorem ne_default_of_used {x : Rect} (h : x.used = true) : x ≠ {} := by
  rintro rfl
  exact absurd h (by decide)

theorem used_of_rectBase {x y : Rect} (h : rectBase x = rectBase y) (hused : y.used = true) : x.used = true := by
  have : (rectBase x).used = (rectBase y).used := by rw [h]
  exact this.trans hused

theorem rectBase_clearStill (s : State) (i j : Nat) (hused : (getRect s i).used = true) :
    rectBase (getRect (clearStill s j) i) = rectBase (getRect s i) := by
  let f : Nat → Rect → Rect := fun _ r => if r.used && r.cfg.mode == 1 && r.cfg.source == j then { r with refValid := false } else r
  have hf : (f i (getRect s i)).used = true := by
    show Rect.used (if _ then _ else _) = true
    split
    · exact hused
    · exact hused
  have hget : getRect (clearStill s j) i = f i (getRect s i) :=
    tget_tmap ({} : Rect) f s.scan.rects i (ne_default_of_used hused) (ne_default_of_used hf)
  rw [hget]
  show rectBase (if _ then _ else _) = _
  split <;> rfl

section
variable {s : State} {i : Nat}

theorem SameScan.of_eq {u v : State} (hscan : v.scan = u.scan) (hcomp : v.comp = u.comp) (h : SameScan s i u) : SameScan s i v := by
  obtain ⟨houts, hlayers, hrect⟩ := h
  refine ⟨?_, hcomp.trans hlayers, ?_⟩
  · rw [hscan, houts]
  · rw [getRect, hscan]
    exact hrect

theorem SameScan.modEntry {u : State} (j : Nat) (f : LedgerEntry → LedgerEntry) (h : SameScan s i u) : SameScan s i (modEntry u j f) :=
  h.of_eq rfl rfl

theorem SameScan.clearStill {u : State} (hused : (getRect s i).used = true) (j : Nat) (h : SameScan s i u) :
    SameScan s i (clearStill u j) := by
  obtain ⟨houts, hlayers, hrect⟩ := h
  exact ⟨houts, hlayers, (rectBase_clearStill u i j (used_of_rectBase hrect hused)).trans hrect⟩

theorem SameScan.evalEntry {u : State} (hused : (getRect s i).used = true) (w : Wp) (j : Nat) (h : SameScan s i u) :
    SameScan s i (evalEntry w j u) := by
  unfold Machine.evalEntry
  by_cases hvalid : (getEntry u j).valid = true
  · simp only [hvalid, Bool.not_true, Bool.false_eq_true, if_false]
    refine SameScan.modEntry _ _ (iteInduction (motive := SameScan s i) (fun _ => ?_) fun _ => h)
    exact (h.modEntry j _).clearStill hused j
  · simp only [hvalid]
    exact h

theorem SameScan.evaluateLine {u : State} (hused : (getRect s i).used = true) (h : SameScan s i u) : SameScan s i (evaluateLine u) := by
  have hsets (w : Wp) : SameScan s i (applySets w u) :=
    .of_eq rfl rfl (forEach_keeps (SameScan s i) _ _ _ (fun _ _ h => h.of_eq rfl rfl) h)
  have hreports (w : Wp) : SameScan s i (takeReports (applySets w u)) := by
    refine forEach_keeps (SameScan s i) _ _ _ (fun q t h => ?_) ((hsets w).of_eq rfl rfl)
    split <;> exact h.of_eq rfl rfl
  refine iteInduction (motive := SameScan s i) (fun _ => h) fun _ => ?_
  exact .of_eq rfl rfl (forEach_keeps (SameScan s i) _ _ _ (fun j t h => h.evalEntry hused _ j) (hreports _))

/-- Time that passes leaves the outputs, the layers and a rectangle in use. -/
theorem sameScan_passTo (hused : (getRect s i).used = true) (w : Wp) : SameScan s i (passTo s w) := by
  have hself : SameScan s i s := ⟨rfl, rfl, rfl⟩
  unfold passTo passTicks
  split
  · exact hself
  · split
    · exact (hself.evaluateLine hused).of_eq rfl rfl
    · exact hself

end

/-! What an evaluation rests on, and what it writes. -/

theorem skipped_congr {s u : State} (houts : u.scan.outputs = s.scan.outputs) (hcomp : u.comp = s.comp) (o owner : Nat) (c : RectCfg) :
    skipped u o owner c = skipped s o owner c := by
  unfold skipped coveringLayer getOut
  rw [houts, hcomp]

theorem coveringLayer_congr {s u : State} (hcomp : u.comp = s.comp) (o : Nat) (c : RectCfg) (p : Nat → MapEntry → Bool) :
    coveringLayer u o c p = coveringLayer s o c p := by
  unfold coveringLayer
  rw [hcomp]

theorem modRect_modRect (s : State) (i : Nat) (f g : Rect → Rect) : modRect (modRect s i f) i g = modRect s i (g ∘ f) :=
  congrArg (fun rects => { s with scan := { s.scan with rects } }) (tmod_tmod ({} : Rect) s.scan.rects i f g)

theorem modRect_congr (s : State) (i : Nat) (f g : Rect → Rect) (h : f (getRect s i) = g (getRect s i)) : modRect s i f = modRect s i g :=
  congrArg (fun rects => { s with scan := { s.scan with rects } }) (tmod_congr ({} : Rect) s.scan.rects i f g h)

theorem getRect_refreshCause (s : State) (o cause j : Nat) : getRect (refreshCause s o cause) j = getRect s j := by
  unfold refreshCause
  split <;> rfl

/-- A rectangle but for the notes of its event (R215). -/
def rectUnposted (x : Rect) : Rect := { x with eventFrame := none, pendEvent := false }

/-- Posting a rectangle's event changes that rectangle's notes of it alone. -/
theorem rects_postRect (s : State) (r : Nat) :
    rectUnposted (getRect (postRect s r) r) = rectUnposted (getRect s r) ∧ (∀ j, j ≠ r → getRect (postRect s r) j = getRect s j) ∧
      (postRect s r).ledger = s.ledger := by
  have hmod (f : Rect → Rect) (hf : ∀ x, rectUnposted (f x) = rectUnposted x) (t : State) (ht : quiet t = quiet (modRect s r f)) :
      rectUnposted (getRect t r) = rectUnposted (getRect s r) ∧ (∀ j, j ≠ r → getRect t j = getRect s j) ∧ t.ledger = s.ledger := by
    have hrect (j : Nat) : getRect t j = getRect (modRect s r f) j := quiet_eq (getRect · j) (fun _ => rfl) ht
    refine ⟨?_, fun j hj => ?_, (quiet_eq (·.ledger) (fun _ => rfl) ht).trans rfl⟩
    · rw [hrect, getRect_modRect, if_pos rfl, hf]
    · rw [hrect, getRect_modRect, if_neg hj]
  unfold postRect
  by_cases hposted : (getRect s r).eventFrame = some (now s).frame
  · rw [if_pos hposted]
    exact hmod (fun x => { x with pendEvent := true }) (fun _ => rfl) _ rfl
  · rw [if_neg hposted]
    refine hmod (fun x => { x with eventFrame := some (now s).frame, pendEvent := false }) (fun _ => rfl) _ ?_
    dsimp only
    split
    · exact quiet_postEvent ..
    · exact (quiet_postEvent ..).trans (quiet_postEvent ..)

/-- A rectangle with the result of a MATCH or OBSERVE of a frame (R213, R214). -/
def rectJudged (frame crc result : Nat) (x : Rect) : Rect :=
  let bad := result == 2 || result == 3
  { x with
    crc := if result = 4 then x.crc else crc, result, lastFrame := frame
    failures := if bad then satAdd 32 x.failures 1 else x.failures
    undetermined := if result = 3 then satAdd 16 x.undetermined 1 else x.undetermined
    latch := x.latch || (bad && x.cfg.mode == 0 && x.cfg.action != 0)
    lastBad := if bad || result == 1 then bad else x.lastBad }

/-- A result that judges nothing is stored and reported to nobody. -/
theorem storeMatch_of_unjudged (s : State) (r crc result : Nat) (hfour : result ≠ 1 ∧ result ≠ 2 ∧ result ≠ 3) :
    storeMatch s r crc result = modRect s r (rectJudged (getOut s (r / 16)).start.frame crc result) := by
  obtain ⟨h1, h2, h3⟩ := hfour
  unfold storeMatch rectJudged
  simp only [h1, h2, h3, beq_eq_false_iff_ne.2, ne_eq, not_false_eq_true, Bool.or_self, Bool.false_and, Bool.false_eq_true, if_false]

/-- What a result leaves of the rectangles, but for the notes of an event. -/
theorem rects_storeMatch (s : State) (r crc result : Nat) :
    rectUnposted (getRect (storeMatch s r crc result) r) = rectUnposted (rectJudged (getOut s (r / 16)).start.frame crc result (getRect s r)) ∧
      ∀ j, j ≠ r → getRect (storeMatch s r crc result) j = getRect s j := by
  let t := modRect s r (rectJudged (getOut s (r / 16)).start.frame crc result)
  let u := if (result == 2 || result == 3) = true then refreshCause t (r / 16) 4 else t
  have hu (j : Nat) : getRect u j = getRect t j := by
    show getRect (if _ then _ else _) j = _
    split
    · exact getRect_refreshCause ..
    · rfl
  have hself : getRect u r = rectJudged (getOut s (r / 16)).start.frame crc result (getRect s r) := by
    rw [hu, getRect_modRect, if_pos rfl]
  have hother (j : Nat) (hj : j ≠ r) : getRect u j = getRect s j := by
    rw [hu, getRect_modRect, if_neg hj]
  obtain ⟨hpost, hrest, -⟩ := rects_postRect u r
  exact iteInduction
    (motive := fun v => rectUnposted (getRect v r) = rectUnposted (rectJudged (getOut s (r / 16)).start.frame crc result (getRect s r)) ∧
      ∀ j, j ≠ r → getRect v j = getRect s j)
    (fun _ => ⟨hpost.trans (congrArg _ hself), fun j hj => (hrest j hj).trans (hother j hj)⟩) fun _ => ⟨congrArg _ hself, hother⟩

theorem fields_of_pass {x y : Rect} {frame crc : Nat} (h : rectUnposted y = rectUnposted (rectJudged frame crc 1 x)) :
    y.crc = crc ∧ y.lastFrame = frame ∧ y.cfg = x.cfg ∧ y.result = 1 ∧ y.latch = x.latch ∧ y.failures = x.failures :=
  ⟨congrArg (·.crc) h, congrArg (·.lastFrame) h, congrArg (·.cfg) h, congrArg (·.result) h,
    (congrArg (·.latch) h).trans (Bool.or_false _), congrArg (·.failures) h⟩

theorem fields_of_fail {x y : Rect} {frame crc : Nat} (hmode : x.cfg.mode = 0) (hlatch : x.latch = false)
    (h : rectUnposted y = rectUnposted (rectJudged frame crc 2 x)) :
    y.crc = crc ∧ y.lastFrame = frame ∧ y.cfg = x.cfg ∧ y.result = 2 ∧ y.latch = decide (x.cfg.action ≠ 0) ∧ y.failures = satAdd 32 x.failures 1 := by
  refine ⟨congrArg (·.crc) h, congrArg (·.lastFrame) h, congrArg (·.cfg) h, congrArg (·.result) h, (congrArg (·.latch) h).trans ?_,
    congrArg (·.failures) h⟩
  simp only [rectUnposted, rectJudged, hmode, hlatch, bne]
  by_cases haction : x.cfg.action = 0 <;> simp [haction]

/-- A rectangle evaluated in this output frame. -/
def rectDone (x : Rect) : Rect := { x with done := true }

theorem evalRect_of_latch {s : State} {r : Nat} (hlatch : (getRect s r).latch = true) : evalRect s r = modRect s r rectDone := if_pos hlatch

theorem evalRect_of_change {s : State} {r : Nat} (hlatch : (getRect s r).latch = false) (hmode : (getRect s r).cfg.mode = 1) :
    evalRect s r = evalChange (modRect s r rectDone) r :=
  (if_neg (ne_true_of_eq_false hlatch)).trans (if_pos hmode)

theorem evalRect_of_skipped {s : State} {r : Nat} (hlatch : (getRect s r).latch = false) (hmode : (getRect s r).cfg.mode ≠ 1)
    (hskip : skipped s (r / 16) (getRect s r).owner (getRect s r).cfg = true) :
    evalRect s r = storeMatch (modRect s r rectDone) r (getRect s r).crc 4 :=
  (if_neg (ne_true_of_eq_false hlatch)).trans ((if_neg hmode).trans (if_pos hskip))

/-- The CRC of a rectangle's pixels (R213). -/
def rectCrc (s : State) (r : Nat) : Nat :=
  crcWords 0xFFFFFFFF (rectWords (getRect s r).cfg 0 (getOut s (r / 16)).checkLines) ^^^ 0xFFFFFFFF

theorem rectCrc_of {s : State} {r : Nat} {c : RectCfg} {y : OutputSt} (hcfg : (getRect s r).cfg = c) (hout : getOut s (r / 16) = y) :
    rectCrc s r = crcWords 0xFFFFFFFF (rectWords c 0 y.checkLines) ^^^ 0xFFFFFFFF := by
  rw [rectCrc, hcfg, hout]

theorem evalRect_of_shown {s : State} {r : Nat} (hlatch : (getRect s r).latch = false) (hmode : (getRect s r).cfg.mode ≠ 1)
    (hskip : skipped s (r / 16) (getRect s r).owner (getRect s r).cfg = false) :
    evalRect s r = storeMatch (modRect s r rectDone) r (rectCrc s r)
      (if (getRect s r).cfg.mode = 2 then 5 else matchResult (getRect s r).cfg r (rectCrc s r)) :=
  (if_neg (ne_true_of_eq_false hlatch)).trans ((if_neg hmode).trans (if_neg (ne_true_of_eq_false hskip)))

/-- A rectangle with the result of a CHANGE whose source no layer shows over it (R212, R217). -/
def rectUncovered (frame : Nat) (x : Rect) : Rect := { x with result := 9, lastFrame := frame, notCovered := true }

theorem evalChange_of_uncovered {s : State} {r : Nat}
    (hcover : (coveringLayer s (r / 16) (getRect s r).cfg fun _ e => e.source == (getRect s r).cfg.source) = none) :
    evalChange s r = if (getRect s r).notCovered = true then modRect s r (rectUncovered (getOut s (r / 16)).start.frame)
      else postRect (modRect s r (rectUncovered (getOut s (r / 16)).start.frame)) r := by
  unfold evalChange
  simp only [hcover]
  have hmod : (modRect s r fun x => { x with result := 9, crc := (getRect s r).crc, lastFrame := (getOut s (r / 16)).start.frame, notCovered := 9 == 9 }) =
      modRect s r (rectUncovered (getOut s (r / 16)).start.frame) := modRect_congr _ _ _ _ rfl
  rw [hmod]
  cases (getRect s r).notCovered <;> rfl

/-- What a CHANGE whose source no layer shows leaves. -/
theorem rects_evalChange_of_uncovered {s : State} {r : Nat}
    (hcover : (coveringLayer s (r / 16) (getRect s r).cfg fun _ e => e.source == (getRect s r).cfg.source) = none) :
    rectUnposted (getRect (evalChange s r) r) = rectUnposted (rectUncovered (getOut s (r / 16)).start.frame (getRect s r)) ∧
      (evalChange s r).ledger = s.ledger := by
  rw [evalChange_of_uncovered hcover]
  let t := modRect s r (rectUncovered (getOut s (r / 16)).start.frame)
  have hself : getRect t r = rectUncovered (getOut s (r / 16)).start.frame (getRect s r) := (getRect_modRect ..).trans (if_pos rfl)
  obtain ⟨hpost, -, hledger⟩ := rects_postRect t r
  exact iteInduction
    (motive := fun v => rectUnposted (getRect v r) = rectUnposted (rectUncovered (getOut s (r / 16)).start.frame (getRect s r)) ∧ v.ledger = s.ledger)
    (fun _ => ⟨congrArg _ hself, rfl⟩) fun _ => ⟨hpost.trans (congrArg _ hself), hledger.trans rfl⟩

theorem actRectOp_of_op {s : State} {h : Held} {c : Cmd} {n : Nat} (hop : pf h.pkt 17 0 2 = n) :
    actRectOp s h c = holdOn { s with scan := { s.scan with rectOps := s.scan.rectOps ++
      [{ key := heldKey h, rect := rectOf h.pkt, op := n, cfg := rectCfgOf h.pkt, owner := h.slice, frame := actBoundary s h }] } } h := by
  rw [← hop]
  rfl

theorem exec_rectEvaluate {s : State} {o r : Nat} (ho : o < 8) (hr : r < 16) (hused : (getRect s (16 * o + r)).used = true)
    (hsched : scheduling (getOut s o) = true) (hin : (getOut s o).inFrame = true)
    (hline : (getOut s o).line = (getRect s (16 * o + r)).cfg.y + (getRect s (16 * o + r)).cfg.h) (hdone : (getRect s (16 * o + r)).done = false)
    (hcomes : comesThisLine s (rectDue s o (getRect s (16 * o + r)).cfg) = true) :
    exec (.rectEvaluate o r) s = .next (evalRect (passTo s (rectDue s o (getRect s (16 * o + r)).cfg)) (16 * o + r)) :=
  congrArg Host.Outcome.next (if_pos (by simp [ho, hr, hsched, hin, hcomes, hused, hdone, hline]))

/-- The evaluation of a rectangle at its WP, case by case of R213. -/
theorem rectEvaluate_cases {s u : State} {o r crc : Nat} (ho : o < 8) (hrect : r < 16) (hused : (getRect s (16 * o + r)).used = true)
    (hsched : scheduling (getOut s o) = true) (hin : (getOut s o).inFrame = true)
    (hline : (getOut s o).line = (getRect s (16 * o + r)).cfg.y + (getRect s (16 * o + r)).cfg.h) (hdone : (getRect s (16 * o + r)).done = false)
    (hcomes : comesThisLine s (rectDue s o (getRect s (16 * o + r)).cfg) = true)
    (hu : u = passTo s (rectDue s o (getRect s (16 * o + r)).cfg))
    (hk : crc = crcWords 0xFFFFFFFF (rectWords (getRect s (16 * o + r)).cfg 0 (getOut s o).checkLines) ^^^ 0xFFFFFFFF) :
    let i := 16 * o + r
    let x := getRect s i
    let y := getOut s o
    (x.latch = true → Becomes (.rectEvaluate o r) s (modRect u i fun x => { x with done := true })) ∧
    (x.latch = false → x.cfg.mode ≠ 1 → skipped s o x.owner x.cfg = true →
      Becomes (.rectEvaluate o r) s (modRect u i fun x => { x with done := true, result := 4, lastFrame := y.start.frame })) ∧
    (x.latch = false → x.cfg.mode = 2 → skipped s o x.owner x.cfg = false →
      Becomes (.rectEvaluate o r) s (modRect u i fun x => { x with done := true, crc := crc, result := 5, lastFrame := y.start.frame })) ∧
    (x.latch = false → x.cfg.mode = 0 → skipped s o x.owner x.cfg = false →
      expectedCheck x.cfg.expA i 0 = x.cfg.checkA → (x.cfg.bValid = true → expectedCheck x.cfg.expB i 1 = x.cfg.checkB) →
      let good := crc = x.cfg.expA ∨ (x.cfg.bValid = true ∧ crc = x.cfg.expB)
      Runs (.rectEvaluate o r) s fun t =>
        (getRect t i).crc = crc ∧ (getRect t i).lastFrame = y.start.frame ∧ (getRect t i).cfg = x.cfg ∧
        (good → (getRect t i).result = 1 ∧ (getRect t i).latch = false ∧ (getRect t i).failures = x.failures) ∧
        (¬ good → (getRect t i).result = 2 ∧ (getRect t i).latch = decide (x.cfg.action ≠ 0) ∧ (getRect t i).failures = satAdd 32 x.failures 1) ∧
        ∀ j, j ≠ i → getRect t j = getRect u j) ∧
    (x.latch = false → x.cfg.mode = 1 → (coveringLayer s o x.cfg fun _ e => e.source == x.cfg.source) = none →
      Runs (.rectEvaluate o r) s fun t => (getRect t i).result = 9 ∧ (getRect t i).notCovered = true ∧ (getRect t i).crc = x.crc ∧ t.ledger = u.ledger) := by
  intro i x y
  have hout : i / 16 = o := by omega
  obtain ⟨houts, hcomp, hbase⟩ : SameScan s i u := hu ▸ sameScan_passTo hused (rectDue s o x.cfg)
  have hexec : exec (.rectEvaluate o r) s = .next (evalRect u i) :=
    hu ▸ exec_rectEvaluate ho hrect hused hsched hin hline hdone hcomes
  have hcfg : (getRect u i).cfg = x.cfg := congrArg (·.cfg) hbase
  have howner : (getRect u i).owner = x.owner := congrArg (·.owner) hbase
  have hlatch : (getRect u i).latch = x.latch := congrArg (·.latch) hbase
  have hgetOut : getOut u (i / 16) = y := by
    rw [hout]
    exact congrArg (tget {} · o) houts
  have hskipped : skipped u (i / 16) (getRect u i).owner (getRect u i).cfg = skipped s o x.owner x.cfg := by
    rw [hcfg, howner, hout, skipped_congr houts hcomp]
  have hcrc : rectCrc u i = crc := hk ▸ rectCrc_of hcfg hgetOut
  refine ⟨fun hx => ?_, fun hx hm hs => ?_, fun hx hm hs => ?_, fun hx hm hs hA hB => ?_, fun hx hm hcover => ?_⟩
  · exact hexec.trans (congrArg _ (evalRect_of_latch (hlatch.trans hx)))
  · refine hexec.trans (congrArg _ ?_)
    rw [evalRect_of_skipped (hlatch.trans hx) (by rwa [hcfg]) (hskipped.trans hs), storeMatch_of_unjudged _ _ _ _ (by decide), modRect_modRect]
    refine modRect_congr _ _ _ _ ?_
    have hframe : (getOut (modRect u i rectDone) (i / 16)).start.frame = y.start.frame := congrArg (·.start.frame) hgetOut
    simp [rectJudged, rectDone, hframe]
  · refine hexec.trans (congrArg _ ?_)
    rw [evalRect_of_shown (hlatch.trans hx) (by rw [hcfg, hm]; decide) (hskipped.trans hs), hcfg, if_pos hm,
      storeMatch_of_unjudged _ _ _ _ (by decide), modRect_modRect, hcrc]
    refine modRect_congr _ _ _ _ ?_
    have hframe : (getOut (modRect u i rectDone) (i / 16)).start.frame = y.start.frame := congrArg (·.start.frame) hgetOut
    simp [rectJudged, rectDone, hframe]
  · intro good
    refine ⟨_, hexec, ?_⟩
    have hcheck : ¬ (expectedCheck x.cfg.expA i 0 ≠ x.cfg.checkA ∨ (x.cfg.bValid = true ∧ expectedCheck x.cfg.expB i 1 ≠ x.cfg.checkB)) :=
      fun h => h.elim (fun h => h hA) fun h => h.2 (hB h.1)
    have hresult : matchResult x.cfg i crc = if good then 1 else 2 := if_neg hcheck
    rw [evalRect_of_shown (hlatch.trans hx) (by rw [hcfg, hm]; decide) (hskipped.trans hs), hcfg, if_neg (by rw [hm]; decide), hcrc, hresult]
    have hget : getRect (modRect u i rectDone) i = rectDone (getRect u i) := (getRect_modRect ..).trans (if_pos rfl)
    have hframe : (getOut (modRect u i rectDone) (i / 16)).start.frame = y.start.frame := congrArg (·.start.frame) hgetOut
    have hothers : ∀ j, j ≠ i → getRect (modRect u i rectDone) j = getRect u j := fun j hj => (getRect_modRect ..).trans (if_neg hj)
    by_cases hgood : good
    · obtain ⟨hself, hother⟩ := rects_storeMatch (modRect u i rectDone) i crc 1
      rw [hget, hframe] at hself
      rw [if_pos hgood]
      obtain ⟨c1, c2, c3, c4, c5, c6⟩ := fields_of_pass hself
      exact ⟨c1, c2, c3.trans hcfg, fun _ => ⟨c4, c5.trans (hlatch.trans hx), c6.trans (congrArg (·.failures) hbase)⟩, fun h => absurd hgood h,
        fun j hj => (hother j hj).trans (hothers j hj)⟩
    · obtain ⟨hself, hother⟩ := rects_storeMatch (modRect u i rectDone) i crc 2
      rw [hget, hframe] at hself
      rw [if_neg hgood]
      have hmatch : (rectDone (getRect u i)).cfg.mode = 0 := (congrArg (·.mode) hcfg).trans hm
      obtain ⟨c1, c2, c3, c4, c5, c6⟩ := fields_of_fail hmatch (hlatch.trans hx) hself
      exact ⟨c1, c2, c3.trans hcfg, fun h => absurd h hgood, fun _ => ⟨c4, c5.trans (congrArg (fun y => decide (y.action ≠ 0)) hcfg),
        c6.trans (congrArg (satAdd 32 ·.failures 1) hbase)⟩, fun j hj => (hother j hj).trans (hothers j hj)⟩
  · refine ⟨_, hexec, ?_⟩
    rw [evalRect_of_change (hlatch.trans hx) (by rw [hcfg, hm])]
    have hget : getRect (modRect u i rectDone) i = rectDone (getRect u i) := (getRect_modRect ..).trans (if_pos rfl)
    obtain ⟨hself, hledger⟩ := rects_evalChange_of_uncovered (s := modRect u i rectDone) (r := i) (by
      have hcovering : (getRect (modRect u i rectDone) i).cfg = x.cfg := (congrArg (·.cfg) hget).trans hcfg
      rw [hcovering, hout, coveringLayer_congr (s := s) (u := modRect u i rectDone) hcomp]
      exact hcover)
    rw [hget] at hself
    exact ⟨congrArg (·.result) hself, congrArg (·.notCovered) hself, (congrArg (·.crc) hself).trans (congrArg (·.crc) hbase), hledger⟩


/-- Settles O17: the operations wait or answer, and the evaluation of a rectangle at the WP of its last pixel, mode by mode. -/
theorem rectangles : Obligations.Rectangles := by
  unfold Obligations.Rectangles
  refine ⟨fun s c h hr hop hc => ?_, fun s c h hr hop hc => ?_, fun s c h hr hop hc => ?_, fun s c h hr hop hc => ?_, ?_⟩
  · rw [← hr.1.key, ← hr.boundary]
    exact hr.1.holds (congrArg Host.Outcome.next ((hr.runPacket (by simp [hop]) hc).trans (actRectOp_of_op hop))) rfl
  · rw [← hr.1.key, ← hr.boundary]
    exact hr.1.holds (congrArg Host.Outcome.next ((hr.runPacket (by simp [hop]) hc).trans (actRectOp_of_op hop))) rfl
  · rw [← hr.1.key, ← hr.boundary]
    exact hr.1.holds (congrArg Host.Outcome.next ((hr.runPacket (by simp [hop]) hc).trans (actRectOp_of_op hop))) rfl
  · exact hr.1.answersNow (congrArg Host.Outcome.next (hr.runPacket (by simp [hop]) hc)) rfl
  · exact fun s o r ho hrect hused hsched hin hline hdone hcomes => rectEvaluate_cases ho hrect hused hsched hin hline hdone hcomes rfl rfl

end Sys2Proof.Machine
end

section
/-! A LEDGER_READ into register space: a record's bytes reach RESET_REQ (R364, R446), and the device resets. -/
namespace Sys2Proof.Machine
open Sys2Proof

/-- After an outcome: how many replies have been written, and the WP_DONE of those that wait for slice j's ring. -/
def repliesAfter (j : Nat) (o : Host.Outcome State Fault Refusal) : Option (Nat × List Nat) := match o with
  | .next t => some (t.out.countP fun x => match x with | .reply .. => true | _ => false, (getRings t j).waiting.map (·.wpDone))
  | _ => none

/-- With no reply written and none waiting that has this WP_DONE, the packet has not been answered so. -/
theorem not_replied_of_repliesAfter {i : Instr} {s t : State} {h : Held} {st : Status} {wp detail : Nat} {l : List Nat} (hexec : exec i s = .next t)
    (hafter : repliesAfter h.slice (exec i s) = some (0, l)) (hwp : wp ∉ l) (hqe : opIsQe (pktOpcode h.pkt) = false) : ¬ Replied t h st wp detail := by
  rw [hexec] at hafter
  obtain ⟨hcount, hwaiting⟩ := Prod.mk.inj (Option.some.inj hafter)
  rintro (⟨hop, -⟩ | ⟨pasid, space, addr, hmem⟩ | hmem)
  · exact absurd (hqe.symm.trans hop) (by decide)
  · exact absurd rfl (List.countP_eq_zero.1 hcount _ hmem)
  · exact hwp (hwaiting ▸ List.mem_map_of_mem (f := Reply.wpDone) hmem)

/-- A LEDGER_READ of entry 0 to the manager page's registers from 0x200 on. -/
def readToRegisters : Held := { pkt := BitVec.ofNat 512 (packFields [fAt 0 0 16 0x603, fAt 18 0 13 1, fAt 24 0 64 0x8000000200]) }

/-- A headless machine of reset with 12 V, at wall frame 5, that holds a packet of slice 0. -/
def headlessWith (h : Held) : State :=
  modRings { State.reset with
    time := { State.reset.time with wp := ⟨5, 0, 0⟩ }
    power := { State.reset.power with inRange := true }
    regs := { State.reset.regs with headless := true }
    boot := { State.reset.boot with lk := .running } } 0 fun r => { r with held := [h] }

/-- That machine with the packet; entry 0's age base holds RESET_REQ's word, 24 bytes into its record (R12, R446). -/
def ledgerToRegisters : State :=
  { headlessWith readToRegisters with
    ledger := { State.reset.ledger with entries := [(0, { valid := true, ageBase := some ⟨0x52535451, 0⟩ })] } }

/-- The record written resets the device: the reply that waits has the WP of reset. -/
theorem repliesAfter_ledgerRead : repliesAfter readToRegisters.slice (exec (.ledgerRead {}) ledgerToRegisters) = some (0, [0]) := by decide +kernel

/-- The records that a LEDGER_READ writes (R38). -/
def ledgerBody (s : State) (h : Held) : List Byte :=
  ((List.range (pf h.pkt 18 0 13)).map (pf h.pkt 16 0 12 + ·)).flatMap fun i =>
    bytesLE 64 (if entryVisible s h.slice i then entryBits i (getEntry s i) else 0)

/-- What its write comes to. -/
def ledgerWrite (s : State) (c : Cmd) (h : Held) : State × Bool :=
  destWrite s h.slice engLock (destSpace s) c.ok (pf h.pkt 24 0 64) (ledgerBody s h)

/-- What O21 claims of a LEDGER_READ whose records could be written. -/
theorem LedgerRecords.replied (hclaim : Obligations.LedgerRecords) {s : State} {c : Cmd} {h : Held} (hready : ReadyNow s c 0x603 h)
    (hcheck : checkLedgerRead s h c = none) (hwritten : (ledgerWrite s c h).2 = true) :
    ∃ t d, exec (.ledgerRead c) s = .next t ∧ Replied t h .ok (nowBits s) d := by
  obtain ⟨hread, -⟩ := hclaim
  obtain ⟨⟨t, hexec, -, hreplied, -⟩, -⟩ := (hread s (ledgerWrite s c h).1 c h hready hcheck).1 (Prod.ext rfl hwritten)
  exact ⟨t, _, hexec, hreplied⟩

theorem readToRegisters_ready : ReadyNow ledgerToRegisters {} 0x603 readToRegisters := by decide +kernel

theorem checkLedgerRead_readToRegisters : checkLedgerRead ledgerToRegisters readToRegisters {} = none := by decide +kernel

theorem ledgerWrite_readToRegisters : (ledgerWrite ledgerToRegisters {} readToRegisters).2 = true := by decide +kernel

/-- Refutes O21: a record that is written to RESET_REQ resets the device at LEDGER_READ, so that the reply's WP_DONE is not that of the read. -/
theorem not_ledgerRecords : ¬ Obligations.LedgerRecords := fun hclaim => by
  obtain ⟨t, d, hexec, hreplied⟩ := LedgerRecords.replied hclaim readToRegisters_ready checkLedgerRead_readToRegisters ledgerWrite_readToRegisters
  have hwp : nowBits ledgerToRegisters ∉ [0] := by decide +kernel
  have hqe : opIsQe (pktOpcode readToRegisters.pkt) = false := by decide +kernel
  exact not_replied_of_repliesAfter hexec repliesAfter_ledgerRead hwp hqe hreplied

end Sys2Proof.Machine
end

section
/-! LIVENESS_SET, HEARTBEAT and TREATMENT_ASSETS (R36, R37, R39). -/
namespace Sys2Proof.Machine
open Sys2Proof

/-! Arrivals on a list of entries. -/

/-- An entry that a HEARTBEAT of this origin has reached at w, which leaves the count and the state of e (R18, R37). -/
def BeatOf (a : LineWp) (w : LineWp) (e x : LedgerEntry) : Prop :=
  x.origin = some a ∧ x.lastArrival = some w ∧ x.inp.arrived = true ∧ x.changeCount = e.changeCount ∧ x.state = e.state

/-- An entry that arrivals reach as they reached e: valid, not withdrawn, with its count and state (R18, log entry 103). -/
def BeatsAs (e x : LedgerEntry) : Prop :=
  x.valid = true ∧ x.inp.withdrawn = false ∧ x.changeCount = e.changeCount ∧ x.state = e.state

theorem BeatsAs.arrive {s : State} {i : Nat} {a : LineWp} {e : LedgerEntry} (h : BeatsAs e (getEntry s i)) :
    BeatsAs e (getEntry (arrive s i { origin := a, counts := false }) i) ∧
      BeatOf a (lineOf (now s)) e (getEntry (arrive s i { origin := a, counts := false }) i) := by
  obtain ⟨hvalid, hin, hcount, hstate⟩ := h
  unfold Machine.arrive
  rw [getEntry_modEntry, if_pos rfl, hvalid, hin, if_neg (by decide)]
  exact ⟨⟨rfl, hin, hcount, hstate⟩, rfl, rfl, rfl, hcount, hstate⟩

theorem getEntry_arrive_ne {s : State} {i j : Nat} (a : Arrival) (h : j ≠ i) : getEntry (arrive s i a) j = getEntry s j := by
  unfold arrive
  rw [getEntry_modEntry, if_neg h]

/-- Every entry of the list has beaten, and no other has changed. -/
theorem forEach_arrive (a : LineWp) (l : List Nat) (s : State) (i : Nat) :
    (i ∉ l → getEntry (forEach l (fun i s => arrive s i { origin := a, counts := false }) s) i = getEntry s i) ∧
    (∀ e, BeatsAs e (getEntry s i) → i ∈ l →
      BeatOf a (lineOf (now s)) e (getEntry (forEach l (fun i s => arrive s i { origin := a, counts := false }) s) i)) := by
  have hbeaten (e : LedgerEntry) (l : List Nat) : ∀ t, now t = now s → BeatsAs e (getEntry t i) → BeatOf a (lineOf (now s)) e (getEntry t i) →
      BeatOf a (lineOf (now s)) e (getEntry (forEach l (fun i s => arrive s i { origin := a, counts := false }) t) i) := by
    induction l with
    | nil => exact fun _ _ _ h => h
    | cons j l ih =>
      intro t hnow has hbeat
      by_cases hj : i = j
      · subst hj
        obtain ⟨has', hbeat'⟩ := has.arrive (a := a)
        exact ih _ hnow has' (hnow ▸ hbeat')
      · have hsame := getEntry_arrive_ne (s := t) { origin := a, counts := false } hj
        exact ih _ hnow (hsame ▸ has) (hsame ▸ hbeat)
  induction l generalizing s with
  | nil => exact ⟨fun _ => rfl, fun _ _ h => absurd h List.not_mem_nil⟩
  | cons j l ih =>
    obtain ⟨hother, hnamed⟩ := ih (arrive s j { origin := a, counts := false }) hbeaten
    refine ⟨fun hi => ?_, fun e has hi => ?_⟩
    · obtain ⟨hj, hl⟩ := not_or.1 (List.mem_cons.not.1 hi)
      exact (hother hl).trans (getEntry_arrive_ne _ hj)
    · by_cases hj : i = j
      · subst hj
        obtain ⟨has', hbeat'⟩ := has.arrive (a := a)
        exact hbeaten e l _ rfl has' hbeat'
      · have hsame := getEntry_arrive_ne (s := s) { origin := a, counts := false } hj
        exact hnamed e (hsame ▸ has) ((List.mem_cons.1 hi).resolve_left hj)

/-- Arrivals change nothing but the ledger. -/
theorem forEach_arrive_eq (a : Arrival) (l : List Nat) (s : State) :
    forEach l (fun i s => arrive s i a) s = { s with ledger := (forEach l (fun i s => arrive s i a) s).ledger } := by
  let t := forEach l (fun i s => arrive s i a) s
  have h : { t with ledger := s.ledger } = s :=
    forEach_same (fun t => ({ t with ledger := s.ledger } : State)) l (fun i s => arrive s i a) s fun _ _ => rfl
  exact congrArg (fun u => ({ u with ledger := t.ledger } : State)) h

/-- The entries that a HEARTBEAT names are valid (R37). -/
theorem valid_of_checkHeartbeat {s : State} {h : Held} {c : Cmd} (hc : checkHeartbeat s h c = none) :
    ∀ i, i ∈ heartbeatIds h.pkt → (getEntry s i).valid = true := by
  intro i hi
  have hchecks := eq_none_of_ite hc
  obtain ⟨hbad, -⟩ := firstFail_cons_eq_none.1 hchecks
  have hnone := List.any_eq_false.1 (Bool.or_eq_false_iff.1 hbad).1 i hi
  simp only [Bool.or_eq_true, Bool.not_eq_true', not_or, Bool.not_eq_false] at hnone
  exact hnone.1.1.1

/-- The values of a LIVENESS_SET that is not timed wait for the evaluation after now (R36). -/
theorem actLivenessSet_of_ready {s : State} {c : Cmd} {h : Held} (hr : ReadyNow s c 0x601 h) :
    actLivenessSet s h c = holdOn { s with ledger := { s.ledger with
      sets := s.ledger.sets ++ [{ key := (c.slice, c.ring, c.index), pkt := h.pkt, after := now s }] } } h := by
  obtain ⟨hslice, hring, hindex⟩ := CmdKey.mk.inj hr.1.key
  obtain ⟨⟨-, -, hphase, -⟩, -⟩ := hr
  have hafter : (if h.phase = .armed ∧ wpLater h.due h.taken then h.due else now s) = now s := if_neg fun hp => by
    rw [hphase] at hp
    exact absurd hp.1 (by decide)
  unfold actLivenessSet
  rw [hslice, hring, hindex, hafter]

/-- Settles O20: the three commands of the liveness contract. -/
theorem livenessCommands : Obligations.LivenessCommands := by
  unfold Obligations.LivenessCommands
  refine ⟨fun s c h hr hc => ?_, fun s c h hr hc => ?_, fun s c h hr hc => ?_⟩
  · exact hr.1.holds (congrArg Host.Outcome.next ((hr.runPacket rfl hc).trans (actLivenessSet_of_ready hr))) rfl
  · intro at_
    let u := forEach (heartbeatIds h.pkt) (fun i s => arrive s i { origin := at_, counts := false }) s
    have hquiet : quiet (finishNow u h .ok []) = quiet u := quiet_finishNow u h .ok []
    have hledger : (finishNow u h .ok []).ledger = u.ledger := quiet_eq (·.ledger) (fun _ => rfl) hquiet
    have hentry (i : Nat) : getEntry (finishNow u h .ok []) i = getEntry u i := quiet_eq (getEntry · i) (fun _ => rfl) hquiet
    have hu : u = { s with ledger := u.ledger } := forEach_arrive_eq ..
    have hnow : nowBits u = nowBits s := (congrArg nowBits hu).trans rfl
    refine ⟨finishNow u h .ok [], congrArg Host.Outcome.next (hr.runPacket rfl hc), hr.1.finished .., ?_, ?_, fun i hi hin => ?_, fun i hi => ?_, ?_⟩
    · exact hnow ▸ finishNow_replied u h .ok []
    · exact sameBytes_of_outside ((outside_finishNow ..).trans ((congrArg outside hu).trans rfl))
    · rw [hentry]
      exact (forEach_arrive at_ _ s i).2 _ ⟨valid_of_checkHeartbeat hc i hi, hin, rfl, rfl⟩ hi
    · rw [hentry]
      exact (forEach_arrive at_ _ s i).1 hi
    · rw [hquiet, hledger]
      exact congrArg quiet hu
  · rw [← hr.boundary]
    exact hr.1.answers (congrArg Host.Outcome.next (hr.runPacket rfl hc))

end Sys2Proof.Machine
end

section
/-! A bank fault and the takeover of its outputs (R222 to R226). -/
namespace Sys2Proof.Machine
open Sys2Proof

/-- Steps that each change one index's value alone change each index of the list once. -/
theorem forEach_at {β : Type} (get : State → Nat → β) (g : Nat → β → β) (P : State → Prop) (f : Nat → State → State) (l : List Nat) (hl : l.Nodup)
    (hstep : ∀ q ∈ l, ∀ t, P t → P (f q t) ∧ ∀ j, get (f q t) j = if j = q then g q (get t q) else get t j) (s : State) (hs : P s) :
    P (forEach l f s) ∧ ∀ j, get (forEach l f s) j = if j ∈ l then g j (get s j) else get s j := by
  induction l generalizing s with
  | nil => exact ⟨hs, fun j => (if_neg List.not_mem_nil).symm⟩
  | cons q l ih =>
    obtain ⟨hq, hl⟩ := List.nodup_cons.1 hl
    obtain ⟨hP, hget⟩ := hstep q List.mem_cons_self s hs
    obtain ⟨hend, hrest⟩ := ih hl (fun q hq => hstep q (List.mem_cons_of_mem _ hq)) (f q s) hP
    refine ⟨hend, fun j => (hrest j).trans ?_⟩
    by_cases hj : j = q
    · subst hj
      rw [if_neg hq, if_pos List.mem_cons_self, hget, if_pos rfl]
    · rw [hget, if_neg hj]
      simp only [List.mem_cons, hj, false_or]

theorem getCarry_modCarry {s : State} {o : Nat} (j : Nat) (f : Carry → Carry) (ho : o < s.bank.carry.length) :
    getCarry (modCarry s o f) j = if j = o then f (getCarry s o) else getCarry s j := by
  show (s.bank.carry.set o _).getD j {} = _
  by_cases hj : j = o
  · subst hj
    simp [ho]
  · simp only [List.getD_eq_getElem?_getD, List.getElem?_set_ne (Ne.symm hj), if_neg hj]
    rfl

/-- What an output's pipe on a bank rests on is as in s: the banks' assignment and which outputs schedule lines. -/
structure SamePlaces (s t : State) : Prop where
  comp : t.comp = s.comp
  sched : ∀ o, scheduling (getOut t o) = scheduling (getOut s o)

/-- As SamePlaces, with the banks, the fault records, the rings and the rehearsal as in s. -/
structure SameStand (s t : State) : Prop extends SamePlaces s t where
  banks : t.bank.banks = s.bank.banks
  boot : t.boot = s.boot
  size : t.bank.carry.length = s.bank.carry.length
  rings : t.rings = s.rings
  rehearsal : t.bank.rehearsal = s.bank.rehearsal

theorem SameStand.refl (s : State) : SameStand s s := ⟨⟨rfl, fun _ => rfl⟩, rfl, rfl, rfl, rfl, rfl⟩

theorem SameStand.trans {s t u : State} (h : SameStand s t) (k : SameStand t u) : SameStand s u :=
  ⟨⟨k.comp.trans h.comp, fun o => (k.sched o).trans (h.sched o)⟩, k.banks.trans h.banks, k.boot.trans h.boot, k.size.trans h.size, k.rings.trans h.rings, k.rehearsal.trans h.rehearsal⟩

theorem SamePlaces.pipeOn {s t : State} (h : SamePlaces s t) (b o : Nat) : pipeOn t b o = pipeOn s b o := by
  unfold Machine.pipeOn reservePipe homePipe homeBank
  rw [h.comp]

theorem SamePlaces.homeBank {s t : State} (h : SamePlaces s t) (o : Nat) : homeBank t o = homeBank s o := by
  unfold Machine.homeBank
  rw [h.comp]

theorem sameStand_modCarry (s : State) (o : Nat) (f : Carry → Carry) : SameStand s (modCarry s o f) :=
  ⟨⟨rfl, fun _ => rfl⟩, rfl, rfl, List.length_set, rfl, rfl⟩

theorem sameStand_refreshCause (s : State) (o cause : Nat) : SameStand s (refreshCause s o cause) := by
  unfold refreshCause
  split
  · refine ⟨⟨rfl, fun q => ?_⟩, rfl, rfl, rfl, rfl, rfl⟩
    rw [getOut_modOut]
    split
    · next hq => subst hq; rfl
    · rfl
  · exact .refl s

theorem bank_refreshCause (s : State) (o cause : Nat) : (refreshCause s o cause).bank = s.bank := by
  unfold refreshCause
  split <;> rfl

/-- Where an output that a bank takes over is composed: armed when it schedules lines, else moved at once (R201, R224). -/
def carryArmed (s : State) (b o : Nat) (c : Carry) : Carry :=
  if scheduling (getOut s o) then { c with arming := some (b, pipeOn s b o), moveTo := none, gap := 0, lastGap := false }
  else { c with bank := b, pipe := pipeOn s b o, moveTo := none, arming := none, stranded := false, taken := !(decide (b = homeBank s o)) }

theorem armOutput_stand {s : State} {b o : Nat} (ho : o < s.bank.carry.length) :
    SameStand s (armOutput b o s) ∧ ∀ j, getCarry (armOutput b o s) j = if j = o then carryArmed s b o (getCarry s o) else getCarry s j := by
  unfold armOutput carryArmed
  dsimp only
  split
  · have hcarry : ∀ j, getCarry (refreshCause s o 5) j = getCarry s j := fun j => by rw [getCarry, bank_refreshCause, getCarry]
    refine ⟨(sameStand_refreshCause s o 5).trans (sameStand_modCarry ..), fun j => ?_⟩
    rw [getCarry_modCarry j _ (by rwa [bank_refreshCause]), hcarry, hcarry]
  · exact ⟨sameStand_modCarry .., fun j => getCarry_modCarry j _ ho⟩

/-- Adding a fault record, but for the event that tells of it (R437). -/
theorem quiet_addFault (s : State) (kind unit detail : Nat) : quiet (addFault s kind unit detail) =
    quiet (faulted s kind unit detail (decide (s.boot.lk = .running) && decide (s.boot.state = .ready))) := by
  by_cases hpost : (decide (s.boot.lk = .running) && decide (s.boot.state = .ready)) = true
  · rw [hpost]
    exact (congrArg quiet (if_pos hpost)).trans (quiet_postEvent ..)
  · rw [eq_false_of_ne_true hpost]
    exact (congrArg quiet (if_neg hpost)).trans rfl

theorem mem_faults_addFault (s : State) (kind unit detail : Nat) :
    ∃ f, f ∈ (addFault s kind unit detail).boot.faults ∧ f.kind = kind ∧ f.unit = unit ∧ f.detail = detail := by
  rw [quiet_eq (·.boot.faults) (fun _ => rfl) (quiet_addFault s kind unit detail)]
  exact ⟨_, List.mem_append_right _ (List.mem_singleton_self _), rfl, rfl, rfl⟩

/-- A fault record changes neither the layers, nor the outputs, nor the banks. -/
theorem addFault_leaves (s : State) (kind unit detail : Nat) :
    (addFault s kind unit detail).comp = s.comp ∧ (addFault s kind unit detail).scan = s.scan ∧ (addFault s kind unit detail).bank = s.bank :=
  ⟨(quiet_eq (·.comp) (fun _ => rfl) (quiet_addFault ..)).trans rfl, (quiet_eq (·.scan) (fun _ => rfl) (quiet_addFault ..)).trans rfl,
    (quiet_eq (·.bank) (fun _ => rfl) (quiet_addFault ..)).trans rfl⟩

theorem getBank_failBank (s : State) (b pipe cause j : Nat) :
    getBank (failBank s b pipe cause) j = if j = b then (if (getBank s b).state = .failed then getBank s b
      else { getBank s b with state := .failed, pipe, cause, clean := 0 }) else getBank s j := getBank_modBank ..

/-- The outputs that a failing bank carries, but for the one that met the fault: each moves at its next frame start, or at once (R224). -/
def followers (s : State) (b o : Nat) : List Nat := (carried s b).filter fun q => q != o && (getCarry s q).arming.isNone

/-- Where a follower is composed. -/
def carryFollowed (s : State) (b o : Nat) (c : Carry) : Carry :=
  if scheduling (getOut s o) then { c with moveTo := some (b, pipeOn s b o) } else carryArmed s b o c

def follow (b o : Nat) (s : State) : State :=
  if scheduling (getOut s o) then modCarry s o fun x => { x with moveTo := some (b, pipeOn s b o) } else armOutput b o s

theorem SamePlaces.carryArmed {s t : State} (h : SamePlaces s t) (b o : Nat) (c : Carry) : carryArmed t b o c = carryArmed s b o c := by
  unfold Machine.carryArmed
  rw [h.sched, h.pipeOn, h.homeBank]

theorem SamePlaces.carryFollowed {s t : State} (h : SamePlaces s t) (b o : Nat) (c : Carry) : carryFollowed t b o c = carryFollowed s b o c := by
  unfold Machine.carryFollowed
  rw [h.sched, h.pipeOn, h.carryArmed]

theorem follow_stand {s : State} {b o : Nat} (ho : o < s.bank.carry.length) :
    SameStand s (follow b o s) ∧ ∀ j, getCarry (follow b o s) j = if j = o then carryFollowed s b o (getCarry s o) else getCarry s j := by
  unfold follow carryFollowed
  split
  · exact ⟨sameStand_modCarry .., fun j => getCarry_modCarry j _ ho⟩
  · exact armOutput_stand ho

theorem mem_followers {s : State} {b o q : Nat} :
    q ∈ followers s b o ↔ q < 8 ∧ (getCarry s q).bank = b ∧ (getCarry s q).stranded = false ∧ q ≠ o ∧ (getCarry s q).arming = none := by
  simp only [followers, carried, List.mem_filter, List.mem_range, Bool.and_eq_true, beq_iff_eq, Bool.not_eq_true', bne_iff_ne, ne_eq,
    Option.isNone_iff_eq_none]
  tauto

theorem nodup_followers (s : State) (b o : Nat) : (followers s b o).Nodup := (List.nodup_range.filter _).filter _

/-- The followers of a fault move, each to its pipe on the other bank. -/
theorem forEach_follow {s : State} (hsize : s.bank.carry.length = 8) (b other o : Nat) :
    SameStand s (forEach (followers s b o) (follow other) s) ∧
      ∀ j, getCarry (forEach (followers s b o) (follow other) s) j =
        if j ∈ followers s b o then carryFollowed s other j (getCarry s j) else getCarry s j := by
  refine forEach_at getCarry (carryFollowed s other) (SameStand s) (follow other) _ (nodup_followers s b o) (fun q hq t ht => ?_) s (.refl s)
  have hlt : q < t.bank.carry.length := by
    rw [ht.size, hsize]
    exact (mem_followers.1 hq).1
  obtain ⟨hstand, hget⟩ := follow_stand (b := other) hlt
  exact ⟨ht.trans hstand, fun j => (hget j).trans (by rw [ht.carryFollowed])⟩

/-- A bank that has latched a pipe's fault, with its record (R222, R223, R437). -/
def faultLatched (s : State) (b pipe cause : Nat) : State := failBank (addFault s 7 b (pipe + 256 * cause)) b pipe cause

/-- The outputs of the failed bank taken over or told to move (R224). -/
def takenOver (s : State) (b o : Nat) : State :=
  forEach (followers (armOutput (1 - b) o s) b o) (follow (1 - b)) (armOutput (1 - b) o s)

theorem not_isEmpty_filter {p : Nat → Bool} {n : Nat} (h : ∀ q, q < n → p q = false) : ¬ (!((List.range n).filter p).isEmpty) = true := by
  rw [List.filter_eq_nil_iff.2 fun q hq => ne_true_of_eq_false (h q (List.mem_range.1 hq))]
  decide

/-- With a takeover noted whose outputs are still to move (R232). -/
def withTakeover (s : State) (t : Takeover) : State := { s with bank := { s.bank with moving := s.bank.moving ++ [t] } }

theorem getBank_withTakeover (s : State) (t : Takeover) (j : Nat) : getBank (withTakeover s t) j = getBank s j := rfl

theorem getCarry_withTakeover (s : State) (t : Takeover) (j : Nat) : getCarry (withTakeover s t) j = getCarry s j := rfl

/-- A bank fault of an output that its bank carries in normal service (R223, R224). -/
theorem bankFault_of_normal {s : State} {o cause : Nat} (hstranded : (getCarry s o).stranded = false) (ho : (getCarry s o).arming = none)
    (harming : ∀ q, q < 8 → (getCarry s q).arming = none) (hrehearsal : s.bank.rehearsal.filter Rehearsal.armed = none)
    (hother : (getBank s (1 - (getCarry s o).bank)).state = .normal)
    (hsched : scheduling (getOut (takenOver (faultLatched s (getCarry s o).bank (getCarry s o).pipe cause) (getCarry s o).bank o) o) = true) :
    ∃ t, bankFault s o cause = withTakeover (takenOver (faultLatched s (getCarry s o).bank (getCarry s o).pipe cause) (getCarry s o).bank o) t := by
  obtain ⟨-, -, hbank⟩ := addFault_leaves s 7 (getCarry s o).bank ((getCarry s o).pipe + 256 * cause)
  have hcarry (q : Nat) : getCarry (addFault s 7 (getCarry s o).bank ((getCarry s o).pipe + 256 * cause)) q = getCarry s q :=
    congrArg (·.carry.getD q {}) hbank
  have hnormal : (getBank (addFault s 7 (getCarry s o).bank ((getCarry s o).pipe + 256 * cause)) (1 - (getCarry s o).bank)).state = .normal :=
    (congrArg (fun b : BankSt => (tget {} b.banks (1 - (getCarry s o).bank)).state) hbank).trans hother
  refine ⟨{ bank := (getCarry s o).bank, cause, pipe := (getCarry s o).pipe % 8
            wp := now (addFault s 7 (getCarry s o).bank ((getCarry s o).pipe + 256 * cause)), toMove := 2 ^ o }, ?_⟩
  unfold bankFault
  dsimp only
  rw [hstranded, ho, hbank, hrehearsal]
  exact (if_neg (by decide)).trans ((if_neg (not_isEmpty_filter fun q hq => by rw [hcarry, harming q hq])).trans ((if_neg fun h => h hnormal).trans (if_pos hsched)))

/-- What the takeover of a bank's outputs leaves, output by output. -/
theorem takenOver_stand {s : State} {b o : Nat} (hsize : s.bank.carry.length = 8) (ho : o < 8) :
    SameStand s (takenOver s b o) ∧ getCarry (takenOver s b o) o = carryArmed s (1 - b) o (getCarry s o) ∧
      ∀ q, q ≠ o → getCarry (takenOver s b o) q = if q ∈ followers s b o then carryFollowed s (1 - b) q (getCarry s q) else getCarry s q := by
  obtain ⟨harmed, hcarry⟩ := armOutput_stand (s := s) (b := 1 - b) (o := o) (by rwa [hsize])
  obtain ⟨hfollow, hcarries⟩ := forEach_follow (harmed.size.trans hsize) b (1 - b) o
  have hmem (q : Nat) (hq : q ≠ o) : q ∈ followers (armOutput (1 - b) o s) b o ↔ q ∈ followers s b o := by
    rw [mem_followers, mem_followers, hcarry, if_neg hq]
  refine ⟨harmed.trans hfollow, ?_, fun q hq => ?_⟩
  · have hself : o ∉ followers (armOutput (1 - b) o s) b o := fun h => (mem_followers.1 h).2.2.2.1 rfl
    exact (hcarries o).trans ((if_neg hself).trans ((hcarry o).trans (if_pos rfl)))
  · refine (hcarries q).trans ?_
    rw [hcarry, if_neg hq, harmed.carryFollowed]
    simp only [hmem q hq]

/-- A bank that latches a fault changes neither the outputs nor where they are composed. -/
theorem faultLatched_leaves (s : State) (b pipe cause : Nat) :
    (faultLatched s b pipe cause).comp = s.comp ∧ (faultLatched s b pipe cause).scan = s.scan ∧
      (faultLatched s b pipe cause).bank.carry = s.bank.carry ∧
      (∀ j, getBank (faultLatched s b pipe cause) j = if j = b then (if (getBank s b).state = .failed then getBank s b
        else { getBank s b with state := .failed, pipe, cause, clean := 0 }) else getBank s j) ∧
      ∃ f, f ∈ (faultLatched s b pipe cause).boot.faults ∧ f.kind = 7 ∧ f.unit = b ∧ f.detail = pipe + 256 * cause := by
  obtain ⟨hcomp, hscan, hbank⟩ := addFault_leaves s 7 b (pipe + 256 * cause)
  have hget (j : Nat) : getBank (addFault s 7 b (pipe + 256 * cause)) j = getBank s j := congrArg (fun x : BankSt => tget ({} : Bank) x.banks j) hbank
  refine ⟨hcomp, hscan, congrArg (·.carry) hbank, fun j => ?_, mem_faults_addFault ..⟩
  rw [faultLatched, getBank_failBank, hget, hget]

/-- Where the outputs are composed, and the banks, are as in s. -/
structure SameBanks (s t : State) : Prop where
  comp : t.comp = s.comp
  scan : t.scan = s.scan
  carry : t.bank.carry = s.bank.carry
  banks : t.bank.banks = s.bank.banks

theorem SameBanks.of_quiet {s t u : State} (hquiet : quiet u = quiet t) (h : SameBanks s t) : SameBanks s u :=
  ⟨(quiet_eq (·.comp) (fun _ => rfl) hquiet).trans h.comp, (quiet_eq (·.scan) (fun _ => rfl) hquiet).trans h.scan,
    (quiet_eq (·.bank.carry) (fun _ => rfl) hquiet).trans h.carry, (quiet_eq (·.bank.banks) (fun _ => rfl) hquiet).trans h.banks⟩

theorem SameBanks.trans {s t u : State} (h : SameBanks s t) (k : SameBanks t u) : SameBanks s u :=
  ⟨k.comp.trans h.comp, k.scan.trans h.scan, k.carry.trans h.carry, k.banks.trans h.banks⟩

theorem sameBanks_postTakeover (s : State) (t : Takeover) (m : Nat) : SameBanks s (postTakeover s t m) :=
  .of_quiet (quiet_postEvent ..) ⟨rfl, rfl, rfl, rfl⟩

theorem sameBanks_rehearsalMoved (s : State) (t : Takeover) : SameBanks s (rehearsalMoved s t) := by
  unfold rehearsalMoved
  split
  · dsimp only
    split
    · exact .of_quiet (quiet_defer ..) ⟨rfl, rfl, rfl, rfl⟩
    · exact ⟨rfl, rfl, rfl, rfl⟩
  · exact ⟨rfl, rfl, rfl, rfl⟩

/-- The last output of a takeover posts its event, and a rehearsal's has ST_DEFERRED; nothing is composed otherwise by it (R230, R232). -/
theorem sameBanks_noteMoved (s : State) (o lines cycles : Nat) : SameBanks s (noteMoved s o lines cycles) := by
  have hself : SameBanks s s := ⟨rfl, rfl, rfl, rfl⟩
  unfold noteMoved
  split
  · exact hself
  · have hmoving (l : List Takeover) : SameBanks s { s with bank := { s.bank with moving := l } } := ⟨rfl, rfl, rfl, rfl⟩
    refine iteInduction (motive := SameBanks s) (fun _ => ?_) fun _ => hmoving _
    have hposted (l : List Takeover) (u : Takeover) (m : Nat) := (hmoving l).trans (sameBanks_postTakeover _ u m)
    exact iteInduction (motive := SameBanks s) (fun _ => (hposted _ _ _).trans (sameBanks_rehearsalMoved ..)) fun _ => hposted _ _ _

/-- Settles O18: a bank fault hands the bank's outputs over, and an armed pipe takes its output. -/
theorem bankTakeover : Obligations.BankTakeover := by
  unfold Obligations.BankTakeover
  refine ⟨fun s o i cause => ?_, fun s o gap b p ho hsize harming => ?_⟩
  · intro c other hi ho hsched hstranded harming hrehearsal hsize hother hbank hlt harmings
    have hexec : exec i s = .next (bankFault s o cause) := by
      rcases hi with ⟨rfl, rfl⟩ | ⟨rfl, rfl⟩
      · exact congrArg Host.Outcome.next (if_pos ⟨ho, hsched⟩)
      · exact congrArg Host.Outcome.next (if_pos ⟨ho, hsched⟩)
    obtain ⟨hcomp, hscan, hcarries, hbanks, f, hfault⟩ := faultLatched_leaves s c.bank c.pipe cause
    have hcarry (q : Nat) : getCarry (faultLatched s c.bank c.pipe cause) q = getCarry s q := congrArg (·.getD q {}) hcarries
    have hplaces : SamePlaces s (faultLatched s c.bank c.pipe cause) := ⟨hcomp, fun q => congrArg (fun x : ScanSt => scheduling (tget ({} : OutputSt) x.outputs q)) hscan⟩
    obtain ⟨hstand, hself, hrest⟩ := takenOver_stand (s := faultLatched s c.bank c.pipe cause) (b := c.bank) ((congrArg List.length hcarries).trans hsize) ho
    have hmem (q : Nat) : q ∈ followers (faultLatched s c.bank c.pipe cause) c.bank o ↔ q ∈ followers s c.bank o := by
      rw [mem_followers, mem_followers, hcarry]
    obtain ⟨t, ht⟩ := bankFault_of_normal (cause := cause) hstranded harming harmings hrehearsal hother
      ((hstand.sched o).trans ((hplaces.sched o).trans hsched))
    have hne : other ≠ c.bank := by omega
    have hget (j : Nat) : getBank (withTakeover (takenOver (faultLatched s c.bank c.pipe cause) c.bank o) t) j =
        getBank (faultLatched s c.bank c.pipe cause) j :=
      (getBank_withTakeover ..).trans (congrArg (fun l : Tab Bank => tget ({} : Bank) l j) hstand.banks)
    have hfailed := (hget c.bank).trans ((hbanks c.bank).trans ((if_pos rfl).trans (if_neg (by rw [hbank]; decide))))
    refine ⟨_, hexec.trans (congrArg _ ht), congrArg (·.state) hfailed, congrArg (·.pipe) hfailed, congrArg (·.cause) hfailed,
      (hget other).trans ((hbanks other).trans (if_neg hne)), ?_, ?_, fun q hq hqo hqb hqs hqsched => ?_, fun q hq hqb => ?_, f,
      (congrArg (·.faults) hstand.boot) ▸ hfault.1, hfault.2⟩
    · rw [getCarry_withTakeover, hself, hplaces.carryArmed, hcarry, carryArmed, if_pos hsched]
    · rw [getCarry_withTakeover, hself, hplaces.carryArmed, hcarry, carryArmed, if_pos hsched]
    · have hfollows : q ∈ followers s c.bank o := mem_followers.2 ⟨hq, hqb, hqs, hqo, harmings q hq⟩
      rw [getCarry_withTakeover, hrest q hqo, if_pos ((hmem q).2 hfollows), hplaces.carryFollowed, carryFollowed, if_pos hqsched]
    · have hqo : q ≠ o := fun h => hqb (congrArg (fun q => (getCarry s q).bank) h)
      have hstays : q ∉ followers s c.bank o := fun h => hqb (mem_followers.1 h).2.1
      rw [getCarry_withTakeover, hrest q hqo, if_neg fun h => hstays ((hmem q).1 h), hcarry]
  · have hexec : ∃ lines, exec (.takeoverArmed o gap) s = .next (noteMoved (modCarry s o fun c =>
        { c with bank := b, pipe := p, arming := none, lastGap := true, repl := 3, taken := !(decide (b = homeBank s o)) }) o lines gap) := by
      show ∃ lines, execTakeoverArmed o gap s = _
      unfold execTakeoverArmed
      rw [harming]
      exact ⟨_, rfl⟩
    obtain ⟨lines, hexec⟩ := hexec
    obtain ⟨hcomp, hscan, hcarries, hbanks⟩ := sameBanks_noteMoved (modCarry s o fun c =>
        { c with bank := b, pipe := p, arming := none, lastGap := true, repl := 3, taken := !(decide (b = homeBank s o)) }) o lines gap
    have hcarry (q : Nat) := (congrArg (fun l : List Carry => l.getD q {}) hcarries).trans
      (getCarry_modCarry q (fun c => { c with bank := b, pipe := p, arming := none, lastGap := true, repl := 3, taken := !(decide (b = homeBank s o)) })
        (by omega : o < s.bank.carry.length))
    exact ⟨_, hexec, (hcarry o).trans (if_pos rfl), fun q hq => (hcarry q).trans (if_neg hq), hcomp, hscan,
      fun k => congrArg (fun l : Tab Bank => tget ({} : Bank) l k) hbanks⟩

end Sys2Proof.Machine
end

section
/-! Rehearsal, self-check, hold-off and return of a bank (R228 to R231, R436). -/
namespace Sys2Proof.Machine
open Sys2Proof

/-! The packet of a key. -/

theorem heldKey_of_findKey {s : State} {k : CmdKey} {h : Held} (hf : findHeld s k = some h) (hs : h.slice = k.slice) : heldKey h = k :=
  heldKey_of_find (c := { slice := k.slice, ring := k.ring, index := k.index }) hf hs

theorem findHeld_finishKey {s : State} {k : CmdKey} (hk : ∀ h, findHeld s k = some h → h.slice = k.slice) (st : Status) (w : Nat) (f : List Field) :
    findHeld (finishKey s k st w f) k = none := by
  unfold finishKey
  split
  · next h hf =>
    have hkey := heldKey_of_findKey hf (hk h hf)
    rw [← hkey, findHeld_finish]
  · next hf => exact hf

theorem findHeld_defer {s : State} {k : CmdKey} {h : Held} (hf : findHeld s k = some h) (hs : h.slice = k.slice) (f : List Field) :
    findHeld (defer s h f) k = some { h with phase := .deferred } := by
  have hkey := heldKey_of_findKey hf hs
  have hheld : findHeld (modHeld s k fun x => { x with phase := .deferred }) k = some { h with phase := .deferred } :=
    findHeld_modHeld s k _ (fun _ => ⟨rfl, rfl⟩) hf
  unfold defer
  dsimp only
  rw [findHeld_of_fixedOf (fixedOf_sendReply ..), hkey, ← hheld]
  apply findHeld_congr
  simp [modTag, hs]

theorem findHeld_holdOn {s : State} {h : Held} (hf : findHeld s (heldKey h) = some h) :
    findHeld (holdOn s h) (heldKey h) = some { h with phase := .committed } :=
  findHeld_modHeld s _ _ (fun _ => ⟨rfl, rfl⟩) hf

theorem wpReached_self (w : Wp) : wpReached w w = true := by
  have hdiff : frameDiff w.frame w.frame = 0 := by unfold frameDiff; omega
  simp [wpReached, wpLater, wpUnordered, frameLater, hdiff]

/-! Rehearsal (R230). -/

theorem sameStand_armOutput (s : State) (b o : Nat) : SameStand s (armOutput b o s) := by
  unfold armOutput
  dsimp only
  split
  · exact (sameStand_refreshCause s o 5).trans (sameStand_modCarry ..)
  · exact sameStand_modCarry ..

theorem sameStand_forEach_armOutput (s : State) (b : Nat) (l : List Nat) : SameStand s (forEach l (armOutput b) s) :=
  forEach_keeps (SameStand s) _ _ _ (fun o t h => h.trans (sameStand_armOutput t b o)) (.refl s)

/-- A rehearsal of a bank is armed: its key, bank and frames are those of r, and its packet is held. -/
def RehearsalArmed (s : State) (r : Rehearsal) (t : State) : Prop :=
  (getBank t r.bank).state = .rehearsing ∧ (∀ j, j ≠ r.bank → getBank t j = getBank s j) ∧ (findHeld t r.key).isSome = true ∧
    ∃ x, t.bank.rehearsal = some x ∧ x.bank = r.bank ∧ x.key = r.key ∧ x.armed = true ∧ x.frames = r.frames

theorem RehearsalArmed.moved {s t : State} {r : Rehearsal} {h : Held} (harmed : RehearsalArmed s r t) (hheld : findHeld t r.key = some h)
    (hslice : h.slice = r.key.slice) (m : Takeover) : RehearsalArmed s r (rehearsalMoved t m) := by
  obtain ⟨hstate, hothers, -, x, hx, hbank, hkey, hon, hframes⟩ := harmed
  let y : Rehearsal := { x with since := some (now t).frame, moved := m.moved, gapLines := m.gapLines, gapCycles := m.gapCycles }
  let u : State := { t with bank := { t.bank with rehearsal := some y } }
  have hf : findHeld u x.key = some h := hkey ▸ hheld
  have hmoved : rehearsalMoved t m = defer u h (rehearseDetail y 0xFF 0) := by
    unfold rehearsalMoved
    rw [hx]
    show (match findHeld u x.key with | some h => defer u h (rehearseDetail y 0xFF 0) | none => u) = _
    rw [hf]
  have hbanks (j : Nat) : getBank (rehearsalMoved t m) j = getBank t j := by
    rw [hmoved]
    exact (quiet_eq (getBank · j) (fun _ => rfl) (quiet_defer ..)).trans rfl
  refine ⟨(congrArg (·.state) (hbanks r.bank)).trans hstate, fun j hj => (hbanks j).trans (hothers j hj), ?_, y, ?_, hbank, hkey, hon, hframes⟩
  · rw [hmoved, findHeld_defer (hkey ▸ hf) hslice]
    rfl
  · rw [hmoved]
    exact (quiet_eq (·.bank.rehearsal) (fun _ => rfl) (quiet_defer ..)).trans rfl

theorem findHeld_postTakeover (s : State) (m : Takeover) (n : Nat) (k : CmdKey) : findHeld (postTakeover s m n) k = findHeld s k :=
  (findHeld_of_fixedOf (fixedOf_postEvent ..) k).trans rfl

theorem RehearsalArmed.postTakeover {s t : State} {r : Rehearsal} (harmed : RehearsalArmed s r t) (m : Takeover) (n : Nat) :
    RehearsalArmed s r (postTakeover t m n) := by
  obtain ⟨hstate, hothers, hheld, hrehearsal⟩ := harmed
  have hbanks (j : Nat) : getBank (Machine.postTakeover t m n) j = getBank t j :=
    congrArg (fun b : Tab Bank => tget ({} : Bank) b j) (sameBanks_postTakeover t m n).banks
  have hsame : (Machine.postTakeover t m n).bank.rehearsal = t.bank.rehearsal :=
    (quiet_eq (·.bank.rehearsal) (fun _ => rfl) (quiet_postEvent ..)).trans rfl
  exact ⟨(congrArg (·.state) (hbanks r.bank)).trans hstate, fun j hj => (hbanks j).trans (hothers j hj),
    (findHeld_postTakeover t m n r.key).symm ▸ hheld, hsame.symm ▸ hrehearsal⟩

/-- A rehearsal whose line start has come, of a bank that is ready for it, is armed (R230). -/
theorem rehearsalArmed_of_ready {s : State} {r : Rehearsal} {h : Held} (hr : s.bank.rehearsal = some r) (hoff : r.armed = false)
    (htick : (now s).tick = 0) (hcome : wpReached (now s) r.start = true) (hready : banksReady s r.bank = true)
    (hheld : findHeld s r.key = some h) (hslice : h.slice = r.key.slice) : RehearsalArmed s r (armRehearsal s) := by
  let v := modBank s r.bank fun x => { x with state := .rehearsing }
  let u := forEach (carried s r.bank) (armOutput (1 - r.bank)) v
  let t (l : List Takeover) : State := { u with bank := { u.bank with rehearsal := some { r with armed := true }, moving := l } }
  have hstand : SameStand v u := sameStand_forEach_armOutput ..
  have hbanks (l : List Takeover) (j : Nat) : getBank (t l) j = getBank v j := congrArg (fun b : Tab Bank => tget ({} : Bank) b j) hstand.banks
  have hfound (l : List Takeover) : findHeld (t l) r.key = some h :=
    (findHeld_congr r.key (congrArg (fun x : Tab SliceRings => (tget ({} : SliceRings) x r.key.slice).held) hstand.rings)).trans hheld
  have harmed (l : List Takeover) : RehearsalArmed s r (t l) := by
    refine ⟨?_, fun j hj => ?_, ?_, { r with armed := true }, rfl, rfl, rfl, rfl, rfl⟩
    · rw [hbanks, getBank_modBank, if_pos rfl]
    · rw [hbanks, getBank_modBank, if_neg hj]
    · rw [hfound]
      rfl
  have hwait : ¬ (r.armed || (now s).tick != 0 || !wpReached (now s) r.start) = true := by simp [hoff, htick, hcome]
  have hunready : ¬ (!banksReady s r.bank) = true := by simp [hready]
  unfold armRehearsal
  rw [hr]
  refine (congrArg (RehearsalArmed s r) ((if_neg hwait).trans (if_neg hunready))).mpr ?_
  refine iteInduction (motive := RehearsalArmed s r) (fun _ => ?_) fun _ => harmed _
  exact ((harmed _).postTakeover _ _).moved ((findHeld_postTakeover ..).trans (hfound _)) hslice _

/-! Return (R231). -/

/-- Where an output that returns to a bank is composed: it moves at its next frame start, or at once when it schedules no lines. -/
def carryReturned (s : State) (b o : Nat) (c : Carry) : Carry :=
  if scheduling (getOut s o) then { c with moveTo := some (b, pipeOn s b o) }
  else { c with bank := b, pipe := pipeOn s b o, stranded := false, moveTo := none, taken := !(decide (b = homeBank s o)) }

/-- The outputs that return to a bank: its own and the stranded ones. -/
def returning (s : State) (b : Nat) : List Nat := (List.range 8).filter fun o => homeBank s o == b || (getCarry s o).stranded

/-- A bank in normal service again. -/
def bankNormal (s : State) (b : Nat) : State := modBank s b fun x => { x with state := .normal, cause := 0, clean := 0 }

/-- What the return of a bank leaves (R229, R231). -/
theorem returnBank_stand {s : State} {b : Nat} (hsize : s.bank.carry.length = 8) :
    SameStand (bankNormal s b) (returnBank s b).1 ∧
      ∀ o, getCarry (returnBank s b).1 o = if o ∈ returning s b then carryReturned s b o (getCarry s o) else getCarry s o := by
  have hplaces : SamePlaces s (bankNormal s b) := ⟨rfl, fun _ => rfl⟩
  refine forEach_at getCarry (carryReturned s b) (SameStand (bankNormal s b)) _ (returning s b) (List.nodup_range.filter _) (fun o ho t ht => ?_) _
    (.refl _)
  have hlt : o < t.bank.carry.length := by
    rw [ht.size]
    exact hsize.symm ▸ List.mem_range.1 (List.mem_filter.1 ho).1
  have hsched : scheduling (getOut t o) = scheduling (getOut s o) := ht.sched o
  have hpipe : pipeOn t b o = pipeOn s b o := ht.pipeOn b o
  have hhome : homeBank t o = homeBank s o := ht.homeBank o
  unfold carryReturned
  rw [hsched]
  split
  · refine ⟨ht.trans (sameStand_modCarry ..), fun j => ?_⟩
    rw [getCarry_modCarry j _ hlt, hpipe]
  · refine ⟨ht.trans (sameStand_modCarry ..), fun j => ?_⟩
    rw [getCarry_modCarry j _ hlt, hpipe, hhome]

theorem moveTo_returnBank {s : State} {b o : Nat} (hsize : s.bank.carry.length = 8) (ho : o < 8) (hhome : homeBank s o = b)
    (hsched : scheduling (getOut s o) = true) : (getCarry (returnBank s b).1 o).moveTo = some (b, pipeOn s b o) := by
  obtain ⟨-, hcarry⟩ := returnBank_stand (b := b) hsize
  have hmem : o ∈ returning s b := List.mem_filter.2 ⟨List.mem_range.2 ho, by simp [hhome]⟩
  rw [hcarry, if_pos hmem, carryReturned, if_pos hsched]

theorem getBank_returnBank {s : State} {b : Nat} (hsize : s.bank.carry.length = 8) :
    getBank (returnBank s b).1 b = { getBank s b with state := .normal, cause := 0, clean := 0 } := by
  obtain ⟨hstand, -⟩ := returnBank_stand (b := b) hsize
  exact (congrArg (fun l : Tab Bank => tget ({} : Bank) l b) hstand.banks).trans ((getBank_modBank ..).trans (if_pos rfl))

theorem findHeld_returnBank {s : State} {b : Nat} (hsize : s.bank.carry.length = 8) (k : CmdKey) : findHeld (returnBank s b).1 k = findHeld s k := by
  obtain ⟨hstand, -⟩ := returnBank_stand (b := b) hsize
  exact findHeld_congr k (congrArg (fun x : Tab SliceRings => (tget ({} : SliceRings) x k.slice).held) hstand.rings)

theorem quiet_postReturn (s : State) (b result outs clean : Nat) (w : Wp) : quiet (postReturn s b result outs clean w) = quiet s := quiet_postEvent ..

theorem findHeld_postReturn (s : State) (b result outs clean : Nat) (w : Wp) (k : CmdKey) :
    findHeld (postReturn s b result outs clean w) k = findHeld s k := findHeld_of_fixedOf (fixedOf_postEvent ..) k

theorem findHeld_modBank (s : State) (b : Nat) (f : Bank → Bank) (k : CmdKey) : findHeld (modBank s b f) k = findHeld s k := rfl

/-- The final reply to a bank's reinitialisation, when one is owed (R436). -/
def answerReinit (s : State) (k : Option CmdKey) (st : Status) (w : Nat) (f : List Field) : State :=
  match k with
  | some k => finishKey s k st w f
  | none => s

theorem quiet_answerReinit (s : State) (k : Option CmdKey) (st : Status) (w : Nat) (f : List Field) : quiet (answerReinit s k st w f) = quiet s := by
  cases k
  · rfl
  · exact quiet_finishKey ..

theorem findHeld_answerReinit {s : State} {k : Option CmdKey} (hk : ∀ x h, k = some x → findHeld s x = some h → h.slice = x.slice) (st : Status)
    (w : Nat) (f : List Field) : ∀ x, k = some x → findHeld (answerReinit s k st w f) x = none := by
  rintro x rfl
  exact findHeld_finishKey (fun h hf => hk x h rfl hf) st w f

/-- A bank whose reinitialisation failed. -/
def bankFailed (x : Bank) : Bank := { x with state := .failed, reinit := none, clean := 0 }

theorem failReinit_eq (s : State) (b result test : Nat) : failReinit s b result test =
    answerReinit (postReturn (modBank s b bankFailed) b result 0 (getBank s b).clean (now s)) (getBank s b).reinit .checkFailed
      (nowBits (postReturn (modBank s b bankFailed) b result 0 (getBank s b).clean (now s))) [fAt 16 0 32 test] := rfl

/-- A reinitialisation that ends without success leaves the bank FAILED and its packet answered (R228, R436). -/
theorem failReinit_leaves (s : State) (b result test : Nat)
    (hk : ∀ k h, (getBank s b).reinit = some k → findHeld s k = some h → h.slice = k.slice) :
    getBank (failReinit s b result test) b = bankFailed (getBank s b) ∧ (failReinit s b result test).bank.carry = s.bank.carry ∧
      ∀ k, (getBank s b).reinit = some k → findHeld (failReinit s b result test) k = none := by
  have hquiet : quiet (failReinit s b result test) = quiet (modBank s b bankFailed) := by
    rw [failReinit_eq, quiet_answerReinit, quiet_postReturn]
  refine ⟨(quiet_eq (getBank · b) (fun _ => rfl) hquiet).trans ((getBank_modBank ..).trans (if_pos rfl)),
    (quiet_eq (·.bank.carry) (fun _ => rfl) hquiet).trans rfl, fun k hreinit => ?_⟩
  have hheld (x : CmdKey) : findHeld (postReturn (modBank s b bankFailed) b result 0 (getBank s b).clean (now s)) x = findHeld s x :=
    (findHeld_postReturn ..).trans (findHeld_modBank ..)
  rw [failReinit_eq]
  exact findHeld_answerReinit (fun x h hx hf => hk x h hx (hheld x ▸ hf)) _ _ _ k hreinit

/-- The boundary at which a bank's hold-off ends (R231). -/
def holdoffEnded (s : State) (b : Nat) : State :=
  postReturn (modBank (returnBank s b).1 b fun y => { y with reinit := none }) b 1 (returnBank s b).2 (getBank s b).clean
    ⟨(now (modBank (returnBank s b).1 b fun y => { y with reinit := none })).frame, 0, 0⟩

theorem findHeld_holdoffEnded {s : State} {b : Nat} (hsize : s.bank.carry.length = 8) (k : CmdKey) :
    findHeld (holdoffEnded s b) k = findHeld s k := by
  rw [holdoffEnded, findHeld_postReturn, findHeld_modBank, findHeld_returnBank hsize]

theorem exec_bankHoldoffExpiry {s : State} {b : Nat} (hstate : (getBank s b).state = .holdoff)
    (hclean : (getBank s b).holdoffFrames ≤ (getBank s b).clean) (hline : (now s).line = 0) :
    exec (.bankHoldoffExpiry b) s =
      .next (answerReinit (holdoffEnded s b) (getBank s b).reinit .ok (nowBits (holdoffEnded s b)) []) := by
  have hdue : (decide ((getBank s b).state = .holdoff) && decide ((getBank s b).holdoffFrames ≤ (getBank s b).clean) && (now s).line == 0) = true := by
    simp [hstate, hclean, hline]
  exact congrArg Host.Outcome.next ((if_pos hdue).trans rfl)

/-- The rehearsal that a BANK_REHEARSE asks for (R230). -/
def rehearsalOf (s : State) (h : Held) : Rehearsal :=
  { bank := pf h.pkt 16 0 1, key := heldKey h, frames := pf h.pkt 18 0 16, start := now s }

/-- The state in which that rehearsal waits for its line start. -/
def rehearsalHeld (s : State) (h : Held) : State := holdOn { s with bank := { s.bank with rehearsal := some (rehearsalOf s h) } } h

theorem rehearsable_of_check {s : State} {h : Held} {c : Cmd} (hc : checkBankRehearse s h c = none) : rehearsable s (pf h.pkt 16 0 1) = true := by
  obtain ⟨-, hrest⟩ := firstFail_cons_eq_none.1 hc
  obtain ⟨hready, -⟩ := firstFail_cons_eq_none.1 hrest
  simpa using hready

theorem actBankRehearse_of_check {s : State} {h : Held} {c : Cmd} (hc : checkBankRehearse s h c = none) :
    actBankRehearse s h c = armRehearsal (rehearsalHeld s h) :=
  if_neg (by rw [rehearsable_of_check hc]; decide)

/-- Settles O19: rehearsals arm and end, a bank's self-check and hold-off end, and the outputs move back. -/
theorem bankReturns : Obligations.BankReturns := by
  unfold Obligations.BankReturns
  refine ⟨fun s c h hr hc htick => ?_, fun s c h hr hc htick => ?_, fun s r f hr hsince hline hframes hk hsize => ?_, fun s b test hstate => ?_,
    fun s b test i hi hk => ?_, fun s b hstate hclean hline hk hsize => ?_⟩
  · rw [← hr.1.key]
    have htake : (false || (now s).tick != 0 || !wpReached (now s) (now s)) = true := by simp [htick]
    exact hr.1.holds (congrArg Host.Outcome.next ((hr.runPacket rfl hc).trans ((actBankRehearse_of_check hc).trans (if_pos htake)))) rfl
  · intro b
    have hready : banksReady s b = true := (Bool.and_eq_true_iff.1 (rehearsable_of_check hc)).2
    have hheld : findHeld { s with bank := { s.bank with rehearsal := some (rehearsalOf s h) } } (heldKey h) = some h := by
      rw [hr.1.key]
      exact hr.1.1
    have harmed : RehearsalArmed (rehearsalHeld s h) (rehearsalOf s h) (armRehearsal (rehearsalHeld s h)) :=
      rehearsalArmed_of_ready rfl rfl htick (wpReached_self _) hready (findHeld_holdOn hheld) rfl
    obtain ⟨hstate, hothers, hfound, x, hx, hbank, hkey, hon, hframes⟩ := harmed
    have hne : 1 - b ≠ b := by
      have hlt : b < 2 := bitsAt_lt _ _ 1
      omega
    exact ⟨_, congrArg Host.Outcome.next ((hr.runPacket rfl hc).trans (actBankRehearse_of_check hc)), hstate, hothers _ hne, hr.1.key ▸ hfound, x, hx,
      hbank, hkey.trans hr.1.key, hon, hframes⟩
  · have hdue : (decide ((now s).line = 0) && decide (r.frames < frameDiff (now s).frame f)) = true := by simp [hline, hframes]
    let u : State := { s with bank := { s.bank with rehearsal := none } }
    let v := postReturn (returnBank u r.bank).1 r.bank 4 (returnBank u r.bank).2 0 ⟨(now (returnBank u r.bank).1).frame, 0, 0⟩
    have hexec : exec .bankRehearseEnd s = .next (finishKey v r.key .ok (nowBits v) (rehearseDetail r 0xFF 0)) := by
      show execBankRehearseEnd s = _
      unfold execBankRehearseEnd
      rw [hr]
      dsimp only
      rw [hsince]
      exact congrArg Host.Outcome.next (if_pos hdue)
    have hquiet : quiet (finishKey v r.key .ok (nowBits v) (rehearseDetail r 0xFF 0)) = quiet (returnBank u r.bank).1 :=
      (quiet_finishKey ..).trans (quiet_postReturn ..)
    obtain ⟨hstand, -⟩ := returnBank_stand (s := u) (b := r.bank) hsize
    refine ⟨_, hexec, (quiet_eq (·.bank.rehearsal) (fun _ => rfl) hquiet).trans hstand.rehearsal, ?_, findHeld_finishKey (fun h hf => hk h ?_) _ _ _,
      fun o ho hhome hsched => ?_⟩
    · rw [quiet_eq (getBank · r.bank) (fun _ => rfl) hquiet, getBank_returnBank (s := u) hsize]
    · exact ((findHeld_postReturn ..).trans (findHeld_returnBank (s := u) hsize _)).symm.trans hf
    · rw [quiet_eq (getCarry · o) (fun _ => rfl) hquiet]
      exact moveTo_returnBank (s := u) hsize ho hhome hsched
  · exact congrArg Host.Outcome.next ((if_neg fun h => h hstate).trans (if_pos rfl))
  · have hexec : ∃ result, exec i s = .next (failReinit s b result test) := by
      rcases hi with ⟨rfl, hstate⟩ | ⟨rfl, hstate⟩
      · exact ⟨2, congrArg Host.Outcome.next ((if_neg fun h => h hstate).trans (if_neg Bool.false_ne_true))⟩
      · exact ⟨3, congrArg Host.Outcome.next (if_pos hstate)⟩
    obtain ⟨result, hexec⟩ := hexec
    obtain ⟨hbank, hcarry, hheld⟩ := failReinit_leaves s b result test hk
    exact ⟨_, hexec, hbank, hcarry, hheld⟩
  · have hquiet : quiet (answerReinit (holdoffEnded s b) (getBank s b).reinit .ok (nowBits (holdoffEnded s b)) []) =
        quiet (modBank (returnBank s b).1 b fun y => { y with reinit := none }) :=
      (quiet_answerReinit ..).trans (quiet_postReturn ..)
    refine ⟨_, exec_bankHoldoffExpiry hstate hclean hline, ?_, findHeld_answerReinit (fun x h hx hf => hk x h hx ?_) _ _ _, fun o ho hhome hsched => ?_⟩
    · rw [quiet_eq (getBank · b) (fun _ => rfl) hquiet, getBank_modBank, if_pos rfl, getBank_returnBank hsize]
    · exact (findHeld_holdoffEnded hsize x).symm.trans hf
    · rw [quiet_eq (getCarry · o) (fun _ => rfl) hquiet]
      exact moveTo_returnBank hsize ho hhome hsched

end Sys2Proof.Machine
end

section
/-! Reading a table's entry after a change of one of them: the accessors of the media, time, fabric and operator state. -/
namespace Sys2Proof.Machine
open Sys2Proof

@[simp] theorem getExport_modExport (s : State) (i j : Nat) (f : Export → Export) :
    getExport (modExport s i f) j = if j = i then f (getExport s i) else getExport s j := tget_tmod ..
@[simp] theorem getCtx_modCtx (s : State) (i j : Nat) (f : DecCtx → DecCtx) :
    getCtx (modCtx s i f) j = if j = i then f (getCtx s i) else getCtx s j := tget_tmod ..
@[simp] theorem getSession_modSession (s : State) (i j : Nat) (f : Session → Session) :
    getSession (modSession s i f) j = if j = i then f (getSession s i) else getSession s j := tget_tmod ..
@[simp] theorem getPort_modPort (s : State) (i j : Nat) (f : EthPort → EthPort) :
    getPort (modPort s i f) j = if j = i then f (getPort s i) else getPort s j := tget_tmod ..
@[simp] theorem getRule_modRule (s : State) (i j : Nat) (f : FlowRule → FlowRule) :
    getRule (modRule s i f) j = if j = i then f (getRule s i) else getRule s j := tget_tmod ..
@[simp] theorem getQueue_modQueue (s : State) (i j : Nat) (f : HostQueue → HostQueue) :
    getQueue (modQueue s i f) j = if j = i then f (getQueue s i) else getQueue s j := tget_tmod ..
@[simp] theorem getStream_modStream (s : State) (i j : Nat) (f : RtpStream → RtpStream) :
    getStream (modStream s i f) j = if j = i then f (getStream s i) else getStream s j := tget_tmod ..
@[simp] theorem getClock_modClock (s : State) (i j : Nat) (f : PtpClock → PtpClock) :
    getClock (modClock s i f) j = if j = i then f (getClock s i) else getClock s j := tget_tmod ..
@[simp] theorem getPtp_modPtp (s : State) (i j : Nat) (f : PtpPort → PtpPort) :
    getPtp (modPtp s i f) j = if j = i then f (getPtp s i) else getPtp s j := tget_tmod ..
@[simp] theorem getRef_modRef (s : State) (i j : Nat) (f : RefEntry → RefEntry) :
    getRef (modRef s i f) j = if j = i then f (getRef s i) else getRef s j := tget_tmod ..
@[simp] theorem getLane_modLane (s : State) (i j : Nat) (f : RefEntry → RefEntry) :
    getLane (modLane s i f) j = if j = i then f (getLane s i) else getLane s j := tget_tmod ..
@[simp] theorem getDp_modDp (s : State) (i j : Nat) (f : DpIn → DpIn) :
    getDp (modDp s i f) j = if j = i then f (getDp s i) else getDp s j := tget_tmod ..
@[simp] theorem getEvt_modEvt (s : State) (i j : Nat) (f : EvtIn → EvtIn) :
    getEvt (modEvt s i f) j = if j = i then f (getEvt s i) else getEvt s j := tget_tmod ..
@[simp] theorem getImport_modImport (s : State) (i j : Nat) (f : Import → Import) :
    getImport (modImport s i f) j = if j = i then f (getImport s i) else getImport s j := tget_tmod ..
@[simp] theorem getTransit_modTransit (s : State) (i j : Nat) (f : Transit → Transit) :
    getTransit (modTransit s i f) j = if j = i then f (getTransit s i) else getTransit s j := tget_tmod ..
@[simp] theorem getHap_modHap (s : State) (i j : Nat) (f : HapChan → HapChan) :
    getHap (modHap s i f) j = if j = i then f (getHap s i) else getHap s j := tget_tmod ..
@[simp] theorem getKey_modKey (s : State) (i j : Nat) (f : KeyObj → KeyObj) :
    getKey (modKey s i f) j = if j = i then f (getKey s i) else getKey s j := tget_tmod ..
@[simp] theorem getTouch_modTouch (s : State) (i j : Nat) (f : TouchPort → TouchPort) :
    getTouch (modTouch s i f) j = if j = i then f (getTouch s i) else getTouch s j := tget_tmod ..
@[simp] theorem getAud_modAud (s : State) (i j : Nat) (f : AudStream → AudStream) :
    getAud (modAud s i f) j = if j = i then f (getAud s i) else getAud s j := tget_tmod ..
@[simp] theorem getTone_modTone (s : State) (i j : Nat) (f : Tone → Tone) :
    getTone (modTone s i f) j = if j = i then f (getTone s i) else getTone s j := tget_tmod ..

end Sys2Proof.Machine
end

section
/-! Sources are attached and detached (R248, R249). -/
namespace Sys2Proof.Machine
open Sys2Proof

/-! SOURCE_ATTACH. -/

/-- The buffers of a source, named after it. -/
def namedBuffers (s : State) (i : Nat) (l : List Nat) : State :=
  forEach l (fun hd s => modSurf s (handleIndex hd) fun x => { x with source := some i, users := 1 }) s

/-- A source attached at an entry: the entry, its record, and its context or input (R248). -/
def sourceAttached (s : State) (slice i : Nat) (q : AttachReq) (l : List Nat) : State :=
  let e := attachEntry s slice i q
  let t := namedBuffers s i l
  let t := { t with
    ledger := { t.ledger with entries := tset {} t.ledger.entries i e }
    media := { t.media with sources := tset {} t.media.sources i { fmt := q.fmt, maxW := q.w, maxH := q.h, dpin := q.dpin } } }
  if q.kind = 0 then modCtx t i fun _ => { used := true, slice, codec := q.codec, gdr := q.gdr, maxRefs := q.refs, maxRate := q.rate }
  else if q.kind = 1 then modDp t q.dpin fun d => { d with source := some i } else t

/-- The size of the buffers of a request and their number (R248). -/
def bufferSize (q : AttachReq) : Nat × Nat := if q.kind = 0 then (q.w, q.h) else roundedSize q

def bufferCount (q : AttachReq) : Nat := if q.kind = 0 then q.refs + 2 else if q.kind = 3 then 0 else q.buffers

theorem actSourceAttach_of_allocated {s u : State} {h : Held} {c : Cmd} {i : Nat} {l : List Nat}
    (hid : (if (attachReq h.pkt).any then firstIdx (fun i => !(getEntry s i).valid) 0 4096 else some (attachReq h.pkt).id) = some i)
    (hsources : sourcesUsed s h.slice < (getSlice s h.slice).share.sources) (hctx : (attachReq h.pkt).kind = 0 → ctxFree s h.slice = true)
    (hbuffers : attachBuffers h.slice (attachReq h.pkt).fmt (bufferSize (attachReq h.pkt)).1 (bufferSize (attachReq h.pkt)).2
      (sourceWriter (attachReq h.pkt).kind) (bufferCount (attachReq h.pkt)) s = (u, .ok l)) :
    ∃ f, actSourceAttach s h c = finishNow (sourceAttached u h.slice i (attachReq h.pkt) l) h .ok f := by
  have hctx' : ¬ ((attachReq h.pkt).kind = 0 ∧ (!ctxFree s h.slice) = true) := fun hk => by
    rw [hctx hk.1] at hk
    exact absurd hk.2 (by decide)
  unfold bufferSize bufferCount at hbuffers
  unfold actSourceAttach
  dsimp only
  rw [hid]
  dsimp only
  rw [if_neg (Nat.not_le.2 hsources), if_neg hctx', hbuffers]
  exact ⟨_, rfl⟩

theorem getSurf_namedBuffers (s : State) (i : Nat) (l : List Nat) (hd : Nat) (hl : hd ∈ l) : (getSurf (namedBuffers s i l) (handleIndex hd)).source = some i := by
  have hkeeps (l : List Nat) : ∀ t, (getSurf t (handleIndex hd)).source = some i → (getSurf (namedBuffers t i l) (handleIndex hd)).source = some i := by
    intro t ht
    refine forEach_keeps (fun t => (getSurf t (handleIndex hd)).source = some i) _ _ _ (fun a t ht => ?_) ht
    rw [getSurf_modSurf]
    split
    · rfl
    · exact ht
  induction l generalizing s with
  | nil => exact absurd hl List.not_mem_nil
  | cons a l ih =>
    rcases List.mem_cons.1 hl with rfl | hl
    · exact hkeeps l _ (by rw [getSurf_modSurf, if_pos rfl])
    · exact ih _ hl

theorem namedBuffers_leaves (s : State) (i : Nat) (l : List Nat) :
    (namedBuffers s i l).ledger = s.ledger ∧ (namedBuffers s i l).media = s.media :=
  ⟨forEach_same (·.ledger) _ _ _ fun _ _ => rfl, forEach_same (·.media) _ _ _ fun _ _ => rfl⟩

/-- The tables that SOURCE_ATTACH writes. -/
theorem sourceAttached_tables (s : State) (slice i : Nat) (q : AttachReq) (l : List Nat) :
    (sourceAttached s slice i q l).ledger.entries = tset {} s.ledger.entries i (attachEntry s slice i q) ∧
      (sourceAttached s slice i q l).media.sources = tset {} s.media.sources i { fmt := q.fmt, maxW := q.w, maxH := q.h, dpin := q.dpin } ∧
      (sourceAttached s slice i q l).store = (namedBuffers s i l).store := by
  obtain ⟨hledger, hmedia⟩ := namedBuffers_leaves s i l
  have hentries : (namedBuffers s i l).ledger.entries = s.ledger.entries := congrArg (·.entries) hledger
  have hsources : (namedBuffers s i l).media.sources = s.media.sources := congrArg (·.sources) hmedia
  unfold sourceAttached
  dsimp only
  rw [hentries, hsources]
  split
  · exact ⟨rfl, rfl, rfl⟩
  · split <;> exact ⟨rfl, rfl, rfl⟩

theorem getCtx_sourceAttached (s : State) (slice i : Nat) {q : AttachReq} (l : List Nat) (hk : q.kind = 0) :
    getCtx (sourceAttached s slice i q l) i = { used := true, slice, codec := q.codec, gdr := q.gdr, maxRefs := q.refs, maxRate := q.rate } := by
  unfold sourceAttached
  dsimp only
  rw [if_pos hk, getCtx_modCtx, if_pos rfl]

theorem getDp_sourceAttached (s : State) (slice i : Nat) {q : AttachReq} (l : List Nat) (hk : q.kind = 1) :
    (getDp (sourceAttached s slice i q l) q.dpin).source = some i := by
  unfold sourceAttached
  dsimp only
  rw [if_neg (by rw [hk]; decide), if_pos hk, getDp_modDp, if_pos rfl]

/-! SOURCE_DETACH. -/

/-- Wall time, the ledger and the rules: what the end of a source's readers and buffers is told by. -/
def sourceView (s : State) : TimeSt × LedgerSt × Tab FlowRule := (s.time, s.ledger, s.media.rules)

theorem sourceView_of_quiet {s t : State} (h : quiet t = quiet s) : sourceView t = sourceView s := quiet_eq sourceView (fun _ => rfl) h

theorem sourceView_beginRelease (s : State) (i : Nat) (key : Option CmdKey) : sourceView (beginRelease s i key) = sourceView s :=
  (quiet_eq sourceView (fun _ => rfl) (quiet_beginRelease s i key)).trans rfl

theorem sourceView_releaseAll (s : State) (l : List Nat) : sourceView (releaseAll s l) = sourceView s := by
  refine forEach_same sourceView _ _ _ fun hd t => ?_
  have hrelease : sourceView (beginRelease (modSurf t (handleIndex hd) fun x => { x with users := 0 }) (handleIndex hd) none) = sourceView t :=
    (sourceView_beginRelease ..).trans rfl
  dsimp only
  split
  · exact hrelease
  · exact hrelease

theorem sourceView_endContext (s : State) (i : Nat) (counted : Bool) : sourceView (endContext s i counted) = sourceView s := by
  unfold endContext
  dsimp only
  split
  · rfl
  · split
    · rfl
    · split
      · rfl
      · split <;> split <;> rfl

theorem sourceView_endScans (s : State) (lane n : Nat) : sourceView (endScans s lane n) = sourceView s := by
  refine forEach_same sourceView _ _ _ fun e t => ?_
  dsimp only
  split
  · exact (sourceView_of_quiet (quiet_finishNow ..)).trans rfl
  · rfl

/-- An input enters HELD and keeps giving its reference edges (R284, R291). -/
theorem sourceView_dpEnter_held (s : State) (d result : Nat) : sourceView (dpEnter s d .held result) = sourceView s := by
  unfold dpEnter
  refine iteInduction (motive := fun t => sourceView t = sourceView s) (fun _ => rfl) fun _ => ?_
  let u := if (dpTrained (getDp s d).state && !dpTrained .held) = true then endScans s (60 + 4 * d) 4 else s
  let v := postDp (modDp u d fun x => { x with state := .held }) d result
  have hstate : (getDp v d).state = .held := by
    have hget : getDp v d = getDp (modDp u d fun x => { x with state := .held }) d := quiet_eq (getDp · d) (fun _ => rfl) (quiet_post ..)
    rw [hget, getDp_modDp, if_pos rfl]
  have hu : sourceView u = sourceView s :=
    iteInduction (motive := fun t => sourceView t = sourceView s) (fun _ => sourceView_endScans ..) fun _ => rfl
  have hv : sourceView v = sourceView u := (sourceView_of_quiet (quiet_post ..)).trans rfl
  show sourceView (dpRefLoss v d) = _
  unfold dpRefLoss
  rw [hstate]
  exact hv.trans hu

theorem sourceView_dpSettle (s : State) (d : Nat) : sourceView (dpSettle s d) = sourceView s := by
  unfold dpSettle
  refine iteInduction (motive := fun t => sourceView t = sourceView s) (fun _ => rfl) fun _ => ?_
  exact iteInduction (motive := fun t => sourceView t = sourceView s) (fun _ => (sourceView_dpEnter_held ..).trans rfl) fun _ => rfl

theorem sourceView_endExport (s : State) (n : Nat) : sourceView (endExport s n) = sourceView s := rfl

/-! The rules that a source's end unbinds. -/

theorem quiet_postFlow (s : State) (r : Nat) : quiet (postFlow r s) = quiet (modRule s r fun x => { x with events := [] }) :=
  quiet_forEach _ _ _ fun _ _ => quiet_postEvent ..

theorem getRule_modCtx (s : State) (i j : Nat) (f : DecCtx → DecCtx) : getRule (modCtx s i f) j = getRule s j := rfl

/-- A rule whose binding has ended (R282). -/
def ruleUnbound (x : FlowRule) : FlowRule :=
  { x with bound := false, source := 0, handle := 0, size := 0, latched := none, expected := none, held := [], lastTs := none
           ended := true, gap := false, frag := none, wpos := 0, lost := 0, received := 0 }

/-- What the end of a bound rule's binding leaves: the rule unbound, and nothing else that sourceView shows changed (R249, R282). -/
theorem endBinding_leaves (s : State) (r : Nat) :
    (endBinding s r).time = s.time ∧ (endBinding s r).ledger = s.ledger ∧ (getRule (endBinding s r) r).bound = false ∧
      ∀ j, j ≠ r → getRule (endBinding s r) j = getRule s j := by
  by_cases hbound : (getRule s r).bound = true
  · let u := releaseAll (postFlow r s) [(getRule s r).handle]
    obtain ⟨f, hend⟩ : ∃ f, endBinding s r = modRule (modCtx u (getRule s r).source f) r ruleUnbound := ⟨_, if_neg (by rw [hbound]; decide)⟩
    have hu : sourceView u = sourceView (modRule s r fun x => { x with events := [] }) :=
      (sourceView_releaseAll ..).trans (sourceView_of_quiet (quiet_postFlow s r))
    have hrule (j : Nat) : getRule u j = getRule (modRule s r fun x => { x with events := [] }) j :=
      congrArg (fun v : TimeSt × LedgerSt × Tab FlowRule => tget ({} : FlowRule) v.2.2 j) hu
    clear_value u
    rw [hend]
    refine ⟨congrArg (·.1) hu, congrArg (·.2.1) hu, ?_, fun j hj => ?_⟩
    · rw [getRule_modRule, if_pos rfl]
      rfl
    · rw [getRule_modRule, if_neg hj, getRule_modCtx, hrule, getRule_modRule, if_neg hj]
  · have hend : endBinding s r = s := if_pos (by rw [eq_false_of_ne_true hbound]; decide)
    rw [hend]
    exact ⟨rfl, rfl, eq_false_of_ne_true hbound, fun _ _ => rfl⟩

/-- After the bindings of a list of rules have ended, none of them is bound; the other rules, wall time and the ledger are as before. -/
theorem forEach_endBinding (l : List Nat) (s : State) :
    (forEach l (fun r s => endBinding s r) s).time = s.time ∧ (forEach l (fun r s => endBinding s r) s).ledger = s.ledger ∧
      ∀ r, (getRule (forEach l (fun r s => endBinding s r) s) r).bound = true →
        r ∉ l ∧ getRule (forEach l (fun r s => endBinding s r) s) r = getRule s r := by
  induction l generalizing s with
  | nil => exact ⟨rfl, rfl, fun r _ => ⟨List.not_mem_nil, rfl⟩⟩
  | cons q l ih =>
    obtain ⟨htime, hledger, hbound, hother⟩ := endBinding_leaves s q
    obtain ⟨htimes, hledgers, hrules⟩ := ih (endBinding s q)
    refine ⟨htimes.trans htime, hledgers.trans hledger, fun r hr => ?_⟩
    obtain ⟨hl, hsame⟩ := hrules r hr
    have hq : r ≠ q := by
      rintro rfl
      rw [show forEach (r :: l) _ s = forEach l _ (endBinding s r) from rfl, hsame, hbound] at hr
      exact absurd hr (by decide)
    exact ⟨by simp [hq, hl], hsame.trans (hother r hq)⟩

/-- A value that is not the default is listed. -/
theorem mem_of_tget_ne {α : Type} (d : α) (i : Nat) (t : Tab α) (h : tget d t i ≠ d) : (i, tget d t i) ∈ t := by
  induction t with
  | nil => exact absurd rfl h
  | cons e r ih =>
    obtain ⟨k, v⟩ := e
    by_cases hk : i = k
    · subst hk
      simp [tget]
    · simp only [tget, if_neg hk] at h ⊢
      exact List.mem_cons_of_mem _ (ih h)

/-! The end of a source (R249). -/

/-- The rules bound to a source. -/
def rulesOf (s : State) (i : Nat) : List Nat := s.media.rules.filterMap fun e => if e.2.bound ∧ e.2.source = i then some e.1 else none

/-- The DisplayPort inputs of a source have none any more. -/
def inputsEnded (s : State) (i : Nat) : State :=
  forEach (List.range 4) (fun d s =>
    if (getDp s d).source = some i then dpSettle (modDp s d fun x => { x with source := none, frame := none }) d else s) s

/-- The exports of a source have ended. -/
def exportsEnded (s : State) (i : Nat) : State :=
  forEach (s.fabric.exports.filterMap fun e => if e.2.used ∧ e.2.source = i then some e.1 else none) (fun n s => endExport s n) s

/-- What is to be delivered, rebuilt or counted for a source goes. -/
def sourceForgotten (s : State) (i : Nat) : State :=
  { s with
    media := { s.media with deliveries := s.media.deliveries.filter fun d => d.source != i }
    store := { s.store with redo := s.store.redo.filter (· != i) }
    gauge := { s.gauge with units := tmap {} (fun _ u => if u.enable && u.kind == 1 && u.source == i then { u with enable := false } else u) s.gauge.units } }

/-- The buffers of a source go. -/
def buffersEnded (s : State) (bufs : List Nat) : State :=
  releaseAll (forEach bufs (fun b s => orphanRows s b) s) (bufs.map fun b => handleOf b (getSurf s b))

/-- What follows once a source's context and bindings have ended: its inputs, import, exports and buffers. -/
def sourceFreed (s : State) (i : Nat) (bufs : List Nat) : State :=
  buffersEnded (sourceForgotten (exportsEnded (endImport (inputsEnded s i) i) i) i) bufs

/-- A source withdrawn and its context ended: what its bindings see as they end. -/
def sourceWithdrawn (s : State) (i : Nat) (counted : Bool) : State := endContext (clearStill (withdraw s i) i) i counted

theorem endSource_eq (s : State) (i : Nat) (counted : Bool) : endSource s i counted =
    sourceFreed (forEach (rulesOf (sourceWithdrawn s i counted) i) (fun r s => endBinding s r) (sourceWithdrawn s i counted)) i (buffersOf s i) := by
  unfold endSource sourceFreed buffersEnded sourceForgotten exportsEnded inputsEnded rulesOf sourceWithdrawn
  rfl

theorem sourceView_inputsEnded (s : State) (i : Nat) : sourceView (inputsEnded s i) = sourceView s :=
  forEach_same sourceView _ _ _ fun _ t =>
    iteInduction (motive := fun u => sourceView u = sourceView t) (fun _ => (sourceView_dpSettle ..).trans rfl) fun _ => rfl

theorem sourceView_exportsEnded (s : State) (i : Nat) : sourceView (exportsEnded s i) = sourceView s :=
  forEach_same sourceView _ _ _ fun n t => sourceView_endExport t n

theorem sourceView_buffersEnded (s : State) (bufs : List Nat) : sourceView (buffersEnded s bufs) = sourceView s :=
  (sourceView_releaseAll ..).trans (forEach_same sourceView bufs (fun b s => orphanRows s b) s fun _ _ => rfl)

theorem sourceView_sourceForgotten (s : State) (i : Nat) : sourceView (sourceForgotten s i) = sourceView s := rfl

theorem sourceView_endImport (s : State) (i : Nat) : sourceView (endImport s i) = sourceView s := rfl

theorem sourceView_sourceFreed (s : State) (i : Nat) (bufs : List Nat) : sourceView (sourceFreed s i bufs) = sourceView s := by
  rw [sourceFreed, sourceView_buffersEnded, sourceView_sourceForgotten, sourceView_exportsEnded, sourceView_endImport, sourceView_inputsEnded]

theorem sourceView_sourceWithdrawn (s : State) (i : Nat) (counted : Bool) :
    sourceView (sourceWithdrawn s i counted) = sourceView (clearStill (withdraw s i) i) := sourceView_endContext ..

/-- A bound rule is listed among those of its source. -/
theorem mem_rulesOf {s : State} {r i : Nat} (hbound : (getRule s r).bound = true) (hsource : (getRule s r).source = i) : r ∈ rulesOf s i := by
  have hne : getRule s r ≠ {} := fun h => by
    rw [h] at hbound
    cases hbound
  exact List.mem_filterMap.2 ⟨(r, getRule s r), mem_of_tget_ne ({} : FlowRule) r s.media.rules hne, if_pos ⟨hbound, hsource⟩⟩

theorem entry_clearStill_withdraw (s : State) (i : Nat) :
    (getEntry (clearStill (withdraw s i) i) i).valid = (getEntry s i).valid ∧ (getEntry (clearStill (withdraw s i) i) i).inp.withdrawn = true ∧
      (getEntry (clearStill (withdraw s i) i) i).inp.arrived = false := by
  have hwithdraw : getEntry (withdraw s i) i =
      { getEntry s i with inp := { (getEntry s i).inp with withdrawn := true, arrived := false, detached := true, reason := 5 } } :=
    (getEntry_modEntry ..).trans (if_pos rfl)
  have hclear : getEntry (clearStill (withdraw s i) i) i =
      { getEntry (withdraw s i) i with inp := { (getEntry (withdraw s i) i).inp with frozen := false } } := (getEntry_modEntry ..).trans (if_pos rfl)
  rw [hclear, hwithdraw]
  exact ⟨rfl, rfl, rfl⟩

/-- The end of a source leaves wall time, withdraws its entry and unbinds its rules (R249). -/
theorem endSource_leaves (s : State) (i : Nat) (counted : Bool) :
    (endSource s i counted).time = s.time ∧ (getEntry (endSource s i counted) i).valid = (getEntry s i).valid ∧
      (getEntry (endSource s i counted) i).inp.withdrawn = true ∧ (getEntry (endSource s i counted) i).inp.arrived = false ∧
      ∀ r, (getRule (endSource s i counted) r).bound = true → (getRule (endSource s i counted) r).source ≠ i := by
  have hview := sourceView_sourceWithdrawn s i counted
  generalize hu : sourceWithdrawn s i counted = u at hview
  obtain ⟨htime, hledger, hrules⟩ := forEach_endBinding (rulesOf u i) u
  have hfreed := sourceView_sourceFreed (forEach (rulesOf u i) (fun r s => endBinding s r) u) i (buffersOf s i)
  rw [endSource_eq, hu]
  generalize forEach (rulesOf u i) (fun r s => endBinding s r) u = v at *
  generalize sourceFreed v i (buffersOf s i) = t at *
  have htime' : t.time = s.time := (congrArg (·.1) hfreed).trans (htime.trans (congrArg (·.1) hview))
  have hledger' : t.ledger = (clearStill (withdraw s i) i).ledger := (congrArg (·.2.1) hfreed).trans (hledger.trans (congrArg (·.2.1) hview))
  have hrule (r : Nat) : getRule t r = getRule v r := congrArg (fun x : TimeSt × LedgerSt × Tab FlowRule => tget ({} : FlowRule) x.2.2 r) hfreed
  have hentry : getEntry t i = getEntry (clearStill (withdraw s i) i) i := congrArg (fun l : LedgerSt => tget ({} : LedgerEntry) l.entries i) hledger'
  obtain ⟨hvalid, hwithdrawn, harrived⟩ := entry_clearStill_withdraw s i
  rw [hentry]
  refine ⟨htime', hvalid, hwithdrawn, harrived, fun r hr hsource => ?_⟩
  rw [hrule] at hr hsource
  obtain ⟨hnot, hsame⟩ := hrules r hr
  exact hnot (mem_rulesOf (hsame ▸ hr) (hsame ▸ hsource))

theorem valid_of_checkSourceDetach {s : State} {h : Held} {c : Cmd} (hc : checkSourceDetach s h c = none) :
    (getEntry s (pf h.pkt 16 0 12)).valid = true := by
  obtain ⟨-, hrest⟩ := firstFail_cons_eq_none.1 hc
  obtain ⟨hvalid, -⟩ := firstFail_cons_eq_none.1 hrest
  simpa using hvalid

/-- Settles O23: what SOURCE_ATTACH makes and what SOURCE_DETACH ends. -/
theorem sourceAttachAndDetach : Obligations.SourceAttachAndDetach := by
  unfold Obligations.SourceAttachAndDetach
  refine ⟨fun s u c h i l hr hc => ?_, fun s c h hr hc => ?_⟩
  · intro q size n hid hsources hctx hbuffers
    obtain ⟨f, hact⟩ := actSourceAttach_of_allocated (c := c) hid hsources hctx hbuffers
    obtain ⟨hentries, hrecords, hstore⟩ := sourceAttached_tables u h.slice i q l
    have hquiet := quiet_finishNow (sourceAttached u h.slice i q l) h .ok f
    have hentry (j : Nat) : getEntry (finishNow (sourceAttached u h.slice i q l) h .ok f) j = tget {} (tset {} u.ledger.entries i (attachEntry u h.slice i q)) j :=
      (quiet_eq (getEntry · j) (fun _ => rfl) hquiet).trans (congrArg (tget ({} : LedgerEntry) · j) hentries)
    refine ⟨_, congrArg Host.Outcome.next ((hr.runPacket rfl hc).trans hact), hr.1.finished .., ?_, fun j hj => ?_, ?_, fun hk => ?_, fun hk => ?_,
      fun hd hmem => ?_⟩
    · rw [hentry, tget_tset_eq]
      rfl
    · rw [hentry, tget_tset_ne _ _ _ hj]
      rfl
    · refine (quiet_eq (getSource · i) (fun _ => rfl) hquiet).trans ?_
      exact (congrArg (tget ({} : SourceRec) · i) hrecords).trans (tget_tset_eq ..)
    · exact (quiet_eq (getCtx · i) (fun _ => rfl) hquiet).trans (getCtx_sourceAttached u h.slice i l hk)
    · exact (quiet_eq (fun t => (getDp t q.dpin).source) (fun _ => rfl) hquiet).trans (getDp_sourceAttached u h.slice i l hk)
    · refine (quiet_eq (fun t => (getSurf t (handleIndex hd)).source) (fun _ => rfl) hquiet).trans ?_
      exact (congrArg (fun x : StoreSt => (tget ({} : Surface) x.surfs (handleIndex hd)).source) hstore).trans (getSurf_namedBuffers u i l hd hmem)
  · intro i
    obtain ⟨htime, hvalid, hwithdrawn, harrived, hrules⟩ := endSource_leaves s i false
    let f := [fAt 16 0 64 (wpBits (decidingAfter s)), fAt 24 0 16 (layersNaming s i)]
    have hquiet := quiet_finishNow (endSource s i false) h .ok f
    have hentry : getEntry (finishNow (endSource s i false) h .ok f) i = getEntry (endSource s i false) i := quiet_eq (getEntry · i) (fun _ => rfl) hquiet
    have hrule (r : Nat) : getRule (finishNow (endSource s i false) h .ok f) r = getRule (endSource s i false) r :=
      quiet_eq (getRule · r) (fun _ => rfl) hquiet
    refine ⟨finishNow (endSource s i false) h .ok f, congrArg Host.Outcome.next (hr.runPacket rfl hc), hr.1.finished .., ?_, ?_, ?_, ?_, fun r hr => ?_⟩
    · exact nowBits_of_time htime ▸ finishNow_replied (endSource s i false) h .ok f
    · rw [hentry, hvalid]
      exact valid_of_checkSourceDetach hc
    · rw [hentry, hwithdrawn]
    · rw [hentry, harrived]
    · rw [hrule] at hr ⊢
      exact hrules r hr

end Sys2Proof.Machine
end

section
/-! The five FLOW_SET forms (R276, R282). -/
namespace Sys2Proof.Machine
open Sys2Proof

/-- A row that ends its packet at the WP it began at, in a state of which P holds. -/
theorem ReadyNow.finishes {s u : State} {c : Cmd} {op : Nat} {h : Held} (hr : ReadyNow s c op h) {i : Instr} {st : Status} {f : List Field}
    {P : State → Prop} (hexec : exec i s = .next (finishNow u h st f)) (htime : u.time = s.time) (hP : P (finishNow u h st f)) :
    Runs i s fun t => Finished t c ∧ Replied t h st (nowBits s) (packFields f) ∧ P t :=
  ⟨_, hexec, hr.1.finished .., nowBits_of_time htime ▸ finishNow_replied u h st f, hP⟩

/-- What quiet keeps of a state is read after a packet's end as before it. -/
theorem read_finishNow {α : Type} (g : State → α) (hg : ∀ s, g (quiet s) = g s) (s : State) (h : Held) (st : Status) (f : List Field) :
    g (finishNow s h st f) = g s := quiet_eq g hg (quiet_finishNow ..)

/-! PORT. -/

/-- Wall time and the media tables. -/
def mediaView (s : State) : TimeSt × MediaSt := (s.time, s.media)

theorem mediaView_of_quiet {s t : State} (h : quiet t = quiet s) : mediaView t = mediaView s := quiet_eq mediaView (fun _ => rfl) h

theorem mediaView_endScans (s : State) (lane n : Nat) : mediaView (endScans s lane n) = mediaView s := by
  refine forEach_same mediaView _ _ _ fun e t => ?_
  dsimp only
  split
  · exact (mediaView_of_quiet (quiet_finishNow ..)).trans rfl
  · rfl

/-- The port's pin and its scans, before its settings are stored (R361, R465). -/
def portDriven (s : State) (p : Packet) : State :=
  let n := pf p 17 0 1
  let s := if (getPort s n).enable = pb p 17 4 then s else emit s (.pin (67 + 4 * n) (pb p 17 4))
  if !pb p 17 4 || (getPort s n).rate10 != pb p 17 1 then endScans s (76 + n) 1 else s

theorem mediaView_portDriven (s : State) (p : Packet) : mediaView (portDriven s p) = mediaView s := by
  have hpin : mediaView (if (getPort s (pf p 17 0 1)).enable = pb p 17 4 then s else emit s (.pin (67 + 4 * pf p 17 0 1) (pb p 17 4))) = mediaView s :=
    iteInduction (motive := fun t => mediaView t = mediaView s) (fun _ => rfl) fun _ => rfl
  exact iteInduction (motive := fun t => mediaView t = mediaView s) (fun _ => (mediaView_endScans ..).trans hpin) fun _ => hpin

/-- The settings of a PORT on a port. -/
def portSet (p : Packet) (x : EthPort) : EthPort :=
  { x with rate10 := pb p 17 1, fec := pf p 17 2 2, enable := pb p 17 4, mcToHost := pb p 17 5, mtu := pf p 18 0 16, mac := pktBE p 20 6
           ip4 := pktBE p 28 4, ip6 := pktBE p 32 16, up := x.up && pb p 17 4 }

theorem actFlowPort_eq (s : State) (h : Held) (c : Cmd) :
    actFlowPort s h c = finishNow (modPort (portDriven s h.pkt) (pf h.pkt 17 0 1) (portSet h.pkt)) h .ok (flowDetail 0 0) := rfl

/-! RULE and BIND. -/

theorem time_of_sourceView {s t : State} (h : sourceView t = sourceView s) : t.time = s.time := congrArg (·.1) h

/-- The settings of a RULE on a rule. -/
def ruleSet (p : Packet) (x : FlowRule) : FlowRule :=
  { x with ports := pf p 17 0 2, ipv6 := pb p 17 2, vlan := pf p 17 3 2, action := pf p 17 5 2, enable := pb p 17 7, vid := pf p 20 0 12
           dstUdp := pf p 22 0 16, srcUdp := pf p 24 0 16, srcPrefix := pf p 26 0 8, dstPrefix := pf p 27 0 8, queue := pf p 28 0 4
           srcAddr := if pb p 17 2 then pktBE p 32 16 else pktBE p 32 4, dstAddr := if pb p 17 2 then pktBE p 48 16 else pktBE p 48 4 }

/-- A disabled RTP rule, or one that becomes another, has lost its binding (R282). -/
def ruleFreed (s : State) (p : Packet) : State :=
  if (((getRule s (pf p 18 0 9)).enable && !pb p 17 7) || pf p 17 5 2 != 1) = true then endBinding s (pf p 18 0 9) else s

theorem actFlowRule_eq (s : State) (h : Held) (c : Cmd) : actFlowRule s h c =
    finishNow (modRule (ruleFreed s h.pkt) (pf h.pkt 18 0 9) (ruleSet h.pkt)) h .ok (flowDetail 1 (pf h.pkt 18 0 9)) := rfl

theorem ruleFreed_leaves (s : State) (p : Packet) :
    (ruleFreed s p).time = s.time ∧ ∀ j, j ≠ pf p 18 0 9 → getRule (ruleFreed s p) j = getRule s j := by
  obtain ⟨htime, -, -, hrules⟩ := endBinding_leaves s (pf p 18 0 9)
  unfold ruleFreed
  split
  · exact ⟨htime, hrules⟩
  · exact ⟨rfl, fun _ _ => rfl⟩

/-- The settings of a BIND on a rule. -/
def ruleBound (p : Packet) (hd : Nat) (x : FlowRule) : FlowRule :=
  { x with bound := true, source := pf p 20 0 12, ssrcMatch := pb p 17 0, pt := pf p 22 0 7, reorder := pf p 23 0 6, ssrc := pf p 24 0 32
           holdLines := pf p 28 0 16, handle := hd, size := pf p 32 0 32 * 1024, events := [] }

theorem actFlowBind_of_allocated {s u : State} {h : Held} {c : Cmd} {hd : Nat}
    (halloc : allocBytes (endBinding s (pf h.pkt 18 0 9)) (getEntry s (pf h.pkt 20 0 12)).owner (pf h.pkt 32 0 32 * 1024) .decode = (u, some hd)) :
    actFlowBind s h c = finishNow (modRule (addUser u hd) (pf h.pkt 18 0 9) (ruleBound h.pkt hd)) h .ok
      (flowDetail 2 (pf h.pkt 18 0 9) ++ [fAt 20 0 32 hd]) := by
  unfold actFlowBind
  dsimp only
  rw [halloc]
  rfl

/-- An allocation changes a surface alone. -/
theorem allocBytes_time {s u : State} {sl len : Nat} {wr : Writer} {hd : Option Nat} (h : allocBytes s sl len wr = (u, hd)) : u.time = s.time := by
  unfold allocBytes at h
  dsimp only at h
  split at h
  · cases h; rfl
  · cases h; rfl

/-! QUEUE and TRANSMIT. -/

/-- The settings of a QUEUE. -/
def queueOf (p : Packet) : HostQueue :=
  { owner := pf p 18 0 7, port := pf p 17 4 1, enable := pb p 17 5, space := pb p 17 7, vector := pf p 19 0 4, rxLog := pf p 20 0 5, txLog := pf p 21 0 5
    rxBase := pf p 24 0 64, txBase := pf p 32 0 64 }

/-- The tables with a queue set and no port's default queue naming it. -/
def queueStored (s : State) (p : Packet) : State :=
  let drop (s : State) (i : Nat) : State := modPort s i fun x => if x.dflt = some (pf p 17 0 4) then { x with dflt := none } else x
  drop (drop { s with media := { s.media with queues := tset {} s.media.queues (pf p 17 0 4) (queueOf p) } } 0) 1

/-- With the port's default queue set, where the packet says so. -/
def queueSet (s : State) (p : Packet) : State :=
  if pb p 17 5 && pb p 17 6 then modPort (queueStored s p) (pf p 17 4 1) fun x => { x with dflt := some (pf p 17 0 4) } else queueStored s p

theorem actFlowQueue_eq (s : State) (h : Held) (c : Cmd) :
    actFlowQueue s h c = finishNow (queueSet s h.pkt) h .ok (flowDetail 3 (pf h.pkt 17 0 4)) := rfl

theorem queueSet_leaves (s : State) (p : Packet) :
    (queueSet s p).time = s.time ∧ (queueSet s p).media.queues = tset {} s.media.queues (pf p 17 0 4) (queueOf p) := by
  unfold queueSet
  split <;> exact ⟨rfl, rfl⟩

/-- The stream that a TRANSMIT sets, with the sequence number it goes on from (R281). -/
def streamOf (p : Packet) (seq : Nat) : RtpStream :=
  { enable := pb p 17 4, port := pf p 17 5 1, ipv6 := pb p 17 6, tagged := pb p 17 7, session := pf p 18 0 4, pt := pf p 19 0 7, vid := pf p 20 0 15
    srcUdp := pf p 22 0 16, dstUdp := pf p 24 0 16, dscp := pf p 26 0 6, ttl := pf p 27 0 8, ssrc := pf p 28 0 32, dmac := pktBE p 32 6
    tsOffset := pf p 40 0 32, daddr := if pb p 17 6 then pktBE p 48 16 else pktBE p 48 4, seq }

/-- The sequence number that a TRANSMIT's stream goes on from: its own, or a random one (R281). -/
def streamSeq (s : State) (n : Nat) : Nat :=
  if (getStream s n).enable then (getStream s n).seq else (Config.random (endStream s n).free).toNat % 65536

/-- The tables with a stream set. -/
def streamStored (s : State) (p : Packet) : State :=
  let u := { endStream s (pf p 17 0 4) with free := (endStream s (pf p 17 0 4)).free + 1 }
  { u with media := { u.media with streams := tset {} u.media.streams (pf p 17 0 4) (streamOf p (streamSeq s (pf p 17 0 4))) } }

/-- With the session's consumer set, where the stream is enabled. -/
def streamSet (s : State) (p : Packet) : State :=
  if pb p 17 4 then
    modSession (addUser (streamStored s p) (getSession (streamStored s p) (pf p 18 0 4)).ring) (pf p 18 0 4) fun e => { e with consumer := some (pf p 17 0 4) }
  else streamStored s p

theorem actFlowTransmit_eq (s : State) (h : Held) (c : Cmd) :
    actFlowTransmit s h c = finishNow (streamSet s h.pkt) h .ok (flowDetail 4 (pf h.pkt 17 0 4)) := rfl

theorem endStream_leaves (s : State) (n : Nat) : (endStream s n).time = s.time ∧ ∀ j, j ≠ n → getStream (endStream s n) j = getStream s j := by
  by_cases hen : (getStream s n).enable = true
  · let x := getStream s n
    let u := if (getSession s x.session).used = true ∧ (getSession s x.session).consumer = some n then
      modSession (dropUser s (getSession s x.session).ring) x.session fun e => { e with consumer := none } else s
    have hu : u.time = s.time ∧ u.media.streams = s.media.streams :=
      iteInduction (motive := fun t : State => t.time = s.time ∧ t.media.streams = s.media.streams) (fun _ => ⟨rfl, rfl⟩) fun _ => ⟨rfl, rfl⟩
    have hend : endStream s n = modStream u n fun x => { x with enable := false, packets := [] } := if_neg (by rw [hen]; decide)
    rw [hend]
    refine ⟨hu.1, fun j hj => ?_⟩
    rw [getStream_modStream, if_neg hj]
    exact congrArg (tget ({} : RtpStream) · j) hu.2
  · have hend : endStream s n = s := if_pos (by rw [eq_false_of_ne_true hen]; decide)
    rw [hend]
    exact ⟨rfl, fun _ _ => rfl⟩

theorem streamSet_leaves (s : State) (p : Packet) : (streamSet s p).time = s.time ∧
    (streamSet s p).media.streams = tset {} (endStream s (pf p 17 0 4)).media.streams (pf p 17 0 4) (streamOf p (streamSeq s (pf p 17 0 4))) := by
  obtain ⟨htime, -⟩ := endStream_leaves s (pf p 17 0 4)
  unfold streamSet
  split <;> exact ⟨htime, rfl⟩

/-- Settles O24: each FLOW_SET form stores its settings and replies. -/
theorem flowSettings : Obligations.FlowSettings := by
  unfold Obligations.FlowSettings
  refine ⟨fun s c h hr hop hc => ?_, fun s c h hr hop hc => ?_, fun s u c h hd hr hop hc => ?_, fun s c h hr hop hc => ?_, fun s c h hr hop hc => ?_⟩
  · intro n
    have hview := mediaView_portDriven s h.pkt
    have hport (m : Nat) : getPort (portDriven s h.pkt) m = getPort s m := congrArg (fun v : TimeSt × MediaSt => tget ({} : EthPort) v.2.ports m) hview
    have hread (m : Nat) := (read_finishNow (getPort · m) (fun _ => rfl) (modPort (portDriven s h.pkt) n (portSet h.pkt)) h .ok (flowDetail 0 0)).trans
      (getPort_modPort ..)
    refine hr.finishes (congrArg Host.Outcome.next ((hr.runPacket (by simp [hop]) hc).trans (actFlowPort_eq s h c))) (congrArg (·.1) hview)
      ⟨(hread n).trans ((if_pos rfl).trans (congrArg _ (hport n))), fun m hm => (hread m).trans ((if_neg hm).trans (hport m))⟩
  · intro i
    obtain ⟨htime, hrules⟩ := ruleFreed_leaves s h.pkt
    have hread (j : Nat) := (read_finishNow (getRule · j) (fun _ => rfl) (modRule (ruleFreed s h.pkt) i (ruleSet h.pkt)) h .ok (flowDetail 1 i)).trans
      (getRule_modRule ..)
    refine hr.finishes (congrArg Host.Outcome.next ((hr.runPacket (by simp [hop]) hc).trans (actFlowRule_eq s h c))) htime
      ⟨?_, fun j hj => (hread j).trans ((if_neg hj).trans (hrules j hj))⟩
    rw [(hread i).trans (if_pos rfl)]
    exact ⟨rfl, rfl, rfl, rfl, rfl, rfl, rfl, rfl, rfl, rfl⟩
  · intro i src size halloc
    obtain ⟨htime, -⟩ := endBinding_leaves s i
    have hread := (read_finishNow (getRule · i) (fun _ => rfl) (modRule (addUser u hd) i (ruleBound h.pkt hd)) h .ok (flowDetail 2 i ++ [fAt 20 0 32 hd])).trans
      ((getRule_modRule ..).trans (if_pos rfl))
    refine hr.finishes (congrArg Host.Outcome.next ((hr.runPacket (by simp [hop]) hc).trans (actFlowBind_of_allocated halloc)))
      ((allocBytes_time halloc).trans htime) ?_
    rw [hread]
    exact ⟨rfl, rfl, rfl, rfl, rfl, rfl, rfl, rfl, rfl⟩
  · intro q
    obtain ⟨htime, hqueues⟩ := queueSet_leaves s h.pkt
    have hread (j : Nat) := (read_finishNow (getQueue · j) (fun _ => rfl) (queueSet s h.pkt) h .ok (flowDetail 3 q)).trans
      (congrArg (tget ({} : HostQueue) · j) hqueues)
    refine hr.finishes (congrArg Host.Outcome.next ((hr.runPacket (by simp [hop]) hc).trans (actFlowQueue_eq s h c))) htime
      ⟨(hread q).trans (tget_tset_eq ..), fun j hj => (hread j).trans (tget_tset_ne _ _ _ hj), fun hen hdf => ?_⟩
    rw [read_finishNow (getPort · (pf h.pkt 17 4 1)) (fun _ => rfl), queueSet, if_pos (by rw [hen, hdf]; decide), getPort_modPort, if_pos rfl]
  · intro n
    obtain ⟨htime, hstreams⟩ := streamSet_leaves s h.pkt
    obtain ⟨-, hothers⟩ := endStream_leaves s n
    have hread (j : Nat) := (read_finishNow (getStream · j) (fun _ => rfl) (streamSet s h.pkt) h .ok (flowDetail 4 n)).trans
      (congrArg (tget ({} : RtpStream) · j) hstreams)
    refine hr.finishes (congrArg Host.Outcome.next ((hr.runPacket (by simp [hop]) hc).trans (actFlowTransmit_eq s h c))) htime
      ⟨?_, fun j hj => (hread j).trans ((tget_tset_ne _ _ _ hj).trans (hothers j hj))⟩
    rw [(hread n).trans (tget_tset_eq ..)]
    exact ⟨rfl, rfl, rfl, rfl, rfl, rfl, rfl, rfl, rfl, fun hen => if_pos hen⟩

end Sys2Proof.Machine
end

section
/-! A coded buffer in register space: a NAL unit that a Weir rule lets the ingress write there reaches RESET_REQ (R276, R364, R446), and the device resets. -/
namespace Sys2Proof.Machine
open Sys2Proof

/-- A Weir rule that lets every engine write the manager page's registers for slice 0 (R368). -/
def registersOpen : WeirRule :=
  { base := 0x8000000, limit := 0x8000000, slices := 1, engines := 0xFFFF, crit := 7, write := true, enable := true }

/-- A machine of reset with 12 V, that rule, and surface 0 on the registers from 0x200 on. -/
def surfaceOnRegisters : State :=
  { State.reset with
    power := { State.reset.power with inRange := true }
    weir := { State.reset.weir with rules := [(0, registersOpen)] }
    store := { State.reset.store with surfs := [(0, { used := true, base := 0x8000000200 })] } }

/-- A single NAL unit whose bytes, after its start code, hold RESET_REQ's word where the register stands, 24 bytes in. -/
def resettingPacket : RtpPacket := { seq := 5, payload := 0x01 :: List.replicate 19 0 ++ [0x51, 0x54, 0x53, 0x52] ++ List.replicate 4 0 }

/-- That machine, with a rule that holds the packet and whose coded buffer is the surface. -/
def nalToRegisters : State :=
  { surfaceOnRegisters with media := { surfaceOnRegisters.media with rules := [(0, { size := 100, holdLines := 0, held := [resettingPacket] })] } }

/-- The number that a rule expects next after a hold time-out. -/
def expectedAfter (o : Host.Outcome State Fault Refusal) : Option Nat := match o with
  | .next t => (getRule t 0).expected
  | _ => none

/-- The NAL unit written resets the device: the rule expects nothing. -/
theorem expectedAfter_reorderHoldTimeout : expectedAfter (exec (.reorderHoldTimeout 0) nalToRegisters) = none := by decide +kernel

/-- Refutes O25: a NAL unit written to RESET_REQ resets the device at REORDER_HOLD_TIMEOUT, so that the rule does not go on from the packet. -/
theorem not_framesAndFlows : ¬ Obligations.FramesAndFlows := by
  unfold Obligations.FramesAndFlows
  rintro ⟨-, -, -, -, -, hhold, -⟩
  obtain ⟨t, hexec, -, hexpected, -⟩ := hhold nalToRegisters 0 resettingPacket rfl rfl (Nat.zero_le _)
  have hnone : (getRule t 0).expected = none := (congrArg expectedAfter hexec).symm.trans expectedAfter_reorderHoldTimeout
  rw [hexpected] at hnone
  cases hnone

end Sys2Proof.Machine
end

section
/-! A DECODE_STATUS into register space: a context's record reaches RESET_REQ (R250, R364, R446), and the device resets. -/
namespace Sys2Proof.Machine
open Sys2Proof

/-- A DECODE_STATUS of source 0 to the manager page's registers from 0x200 on. -/
def statusToRegisters : Held := { pkt := BitVec.ofNat 512 (packFields [fAt 0 0 16 0x405, fAt 24 0 64 0x8000000200]) }

/-- A headless machine with that packet; the context's count of discarded pictures is RESET_REQ's word, 24 bytes into its record. -/
def decodeToRegisters : State :=
  { headlessWith statusToRegisters with
    ledger := { State.reset.ledger with entries := [(0, { valid := true, kind := .decoded })] }
    media := { State.reset.media with ctxs := [(0, { discarded := 0x52535451 })] } }

/-- The record written resets the device: the reply that waits has the WP of reset. -/
theorem repliesAfter_decodeStatus : repliesAfter statusToRegisters.slice (exec (.decodeStatus {}) decodeToRegisters) = some (0, [0]) := by decide +kernel

/-- What a DECODE_STATUS's write of its record comes to. -/
def decodeWrite (s : State) (c : Cmd) (h : Held) : State × Bool :=
  destWrite s h.slice engLock (destSpace s) c.ok (pf h.pkt 24 0 64) (bytesLE 64 (ctxRecord s (getCtx s (pf h.pkt 16 0 12))))

/-- What O26 claims of a DECODE_STATUS whose record could be written. -/
theorem DecodeWork.replied (hclaim : Obligations.DecodeWork) {s : State} {c : Cmd} {h : Held} (hready : ReadyNow s c 0x405 h)
    (hcheck : checkDecodeStatus s h c = none) (hdest : pf h.pkt 24 0 64 ≠ 0) (hwritten : (decodeWrite s c h).2 = true) :
    ∃ t d, exec (.decodeStatus c) s = .next t ∧ Replied t h .ok (nowBits s) d := by
  obtain ⟨-, -, -, hstatus⟩ := hclaim
  obtain ⟨t, hexec, -, hreplied, -⟩ := (hstatus s (decodeWrite s c h).1 c h hready hcheck).2 hdest (Prod.ext rfl hwritten)
  exact ⟨t, _, hexec, hreplied⟩

/-- Refutes O26: a record that is written to RESET_REQ resets the device at DECODE_STATUS, so that the reply's WP_DONE is not that of the command. -/
theorem not_decodeWork : ¬ Obligations.DecodeWork := fun hclaim => by
  have hready : ReadyNow decodeToRegisters {} 0x405 statusToRegisters := by decide +kernel
  have hcheck : checkDecodeStatus decodeToRegisters statusToRegisters {} = none := by decide +kernel
  have hdest : pf statusToRegisters.pkt 24 0 64 ≠ 0 := by decide +kernel
  have hwritten : (decodeWrite decodeToRegisters {} statusToRegisters).2 = true := by decide +kernel
  obtain ⟨t, d, hexec, hreplied⟩ := DecodeWork.replied hclaim hready hcheck hdest hwritten
  have hwp : nowBits decodeToRegisters ∉ [0] := by decide +kernel
  have hqe : opIsQe (pktOpcode statusToRegisters.pkt) = false := by decide +kernel
  exact not_replied_of_repliesAfter hexec repliesAfter_decodeStatus hwp hqe hreplied

end Sys2Proof.Machine
end

section
/-! An output ring that reaches into register space: a unit that an encode core writes there reaches RESET_REQ (R262, R364, R446), and the device resets. -/
namespace Sys2Proof.Machine
open Sys2Proof

/-- An H.264 session of one row, with five pictures coded and its next one on core 0; its ring is surface 0, and its next unit's bytes stand from the manager page's registers at 0x200 on. -/
def lastRowSession : Session :=
  { h264 := true, height := 1, coded := 5, ringSize := 0x9000000000, produced := 0x8000000200 - 0x10000000 - 4096 - 32
    coding := some { core := some 0, pass := 1, surf := 1 } }

/-- A machine of reset with 12 V and that session, whose ring a Weir rule lets the encoder read and write. -/
def ringToRegisters : State :=
  { surfaceOnRegisters with
    time := { State.reset.time with timing := { wallId := 0 } }
    weir := { surfaceOnRegisters.weir with rules := [(0, { registersOpen with base := 0x10000, read := true })] }
    store := { surfaceOnRegisters.store with surfs := [(0, { used := true, base := 0x10000000 })] }
    media := { surfaceOnRegisters.media with sessions := [(0, lastRowSession)] } }

/-- A row whose picture's parameter sets hold RESET_REQ's word where the register stands, 24 bytes in. -/
def resettingRow : CodedRow :=
  { bits := 0, bytes := [], head := List.replicate 24 0 ++ [0x51, 0x54, 0x53, 0x52] ++ List.replicate 4 0, weights := [], cus := [], luma := [], chroma := [] }

/-- The pictures that session 0 has coded after a row. -/
def codedAfter (o : Host.Outcome State Fault Refusal) : Option Nat := match o with
  | .next t => some (getSession t 0).coded
  | _ => none

/-- The unit written resets the device: the picture counts as the first of a session of reset. -/
theorem codedAfter_resettingRow : codedAfter (exec (.encodeCtuRowCoded 0 resettingRow) ringToRegisters) = some 1 := by decide +kernel

/-- Refutes O27: a unit written to RESET_REQ resets the device at ENCODE_CTU_ROW_CODED, so that the session's count of pictures is gone. -/
theorem not_encodeSessions : ¬ Obligations.EncodeSessions := by
  unfold Obligations.EncodeSessions
  rintro ⟨-, -, -, -, hrow, -⟩
  obtain ⟨t, hexec, -, hcoded⟩ := (hrow ringToRegisters 0 0 resettingRow { core := some 0, pass := 1, surf := 1 } (by decide +kernel) rfl).2.2
    (by decide +kernel) (by decide +kernel)
  have hcount : some (getSession t 0).coded = some 1 := (congrArg codedAfter hexec).symm.trans codedAfter_resettingRow
  rw [hcoded] at hcount
  exact absurd hcount (by decide +kernel)

end Sys2Proof.Machine
end

section
/-! A REF_STATUS into register space: an entry's record reaches RESET_REQ (R307, R364, R446), and the device resets. -/
namespace Sys2Proof.Machine
open Sys2Proof

/-- A REF_STATUS to the manager page's registers from 0x180 on. -/
def refStatusToRegisters : Held := { pkt := BitVec.ofNat 512 (packFields [fAt 0 0 16 0x702, fAt 24 0 64 0x8000000180]) }

/-- A headless machine with that packet; the WP at which entry 3 took its state is RESET_REQ's word, 152 bytes into the record. -/
def referencesToRegisters : State :=
  { headlessWith refStatusToRegisters with head := { State.reset.head with entries := [(3, { since := ⟨0, 0x5253, 0x5451⟩ })] } }

/-- The record written resets the device: the reply that waits has the WP of reset. -/
theorem repliesAfter_refStatus : repliesAfter refStatusToRegisters.slice (exec (.refStatus {}) referencesToRegisters) = some (0, [0]) := by decide +kernel

/-- What a REF_STATUS's write of its record comes to. -/
def refStatusWrite (s : State) (c : Cmd) (h : Held) : State × Bool :=
  destWrite s h.slice engLock (destSpace s) c.ok (pf h.pkt 24 0 64) (refStatusRecord s)

/-- What O29 claims of a REF_STATUS whose record could be written. -/
theorem References.replied (hclaim : Obligations.References) {s : State} {c : Cmd} {h : Held} (hready : ReadyNow s c 0x702 h)
    (hcheck : checkStatusDest s h c = none) (hdest : pf h.pkt 24 0 64 ≠ 0) (hwritten : (refStatusWrite s c h).2 = true) :
    ∃ t d, exec (.refStatus c) s = .next t ∧ Replied t h .ok (nowBits s) d := by
  obtain ⟨-, -, hstatus, -⟩ := hclaim
  obtain ⟨t, hexec, -, hreplied, -⟩ := hstatus s (refStatusWrite s c h).1 c h hready hcheck (.inr ⟨hdest, Prod.ext rfl hwritten⟩)
  exact ⟨t, _, hexec, hreplied⟩

/-- Refutes O29: a record that is written to RESET_REQ resets the device at REF_STATUS, so that the reply's WP_DONE is not that of the command. -/
theorem not_references : ¬ Obligations.References := fun hclaim => by
  have hready : ReadyNow referencesToRegisters {} 0x702 refStatusToRegisters := by decide +kernel
  have hcheck : checkStatusDest referencesToRegisters refStatusToRegisters {} = none := by decide +kernel
  have hdest : pf refStatusToRegisters.pkt 24 0 64 ≠ 0 := by decide +kernel
  have hwritten : (refStatusWrite referencesToRegisters {} refStatusToRegisters).2 = true := by decide +kernel
  obtain ⟨t, d, hexec, hreplied⟩ := References.replied hclaim hready hcheck hdest hwritten
  have hwp : nowBits referencesToRegisters ∉ [0] := by decide +kernel
  have hqe : opIsQe (pktOpcode refStatusToRegisters.pkt) = false := by decide +kernel
  exact not_replied_of_repliesAfter hexec repliesAfter_refStatus hwp hqe hreplied

end Sys2Proof.Machine
end

section
/-! What replies, events, interrupts, packets and denials leave, in one view: all that quiet keeps, what is fixed of the rings, and every byte outside them. -/
namespace Sys2Proof.Machine
open Sys2Proof

/-- What no reply, event, interrupt, packet or denial changes. -/
noncomputable def kept (s : State) : State × (Nat → SliceRings) × (Nat → Option Byte) := (quiet s, fixedOf s, outside s)

theorem kept_of {s t : State} (hquiet : quiet t = quiet s) (hfixed : fixedOf t = fixedOf s) (houtside : outside t = outside s) : kept t = kept s := by
  unfold kept; rw [hquiet, hfixed, houtside]

theorem quiet_of_kept {s t : State} (h : kept t = kept s) : quiet t = quiet s := congrArg Prod.fst h

theorem fixedOf_of_kept {s t : State} (h : kept t = kept s) : fixedOf t = fixedOf s := congrArg (fun x => x.2.1) h

theorem outside_of_kept {s t : State} (h : kept t = kept s) : outside t = outside s := congrArg (fun x => x.2.2) h

/-- What is kept is steady. -/
theorem steady_kept (e : State) : Steady fun t => kept t = kept e where
  emit _ _ h := h
  tod _ _ _ h := h
  noRoute _ _ h := h
  vectors _ _ h := h
  violation _ _ h := h
  count _ _ _ _ _ h := h
  rings s i f hf h := kept_of ((steady_quiet e).rings s i f hf (quiet_of_kept h)) ((steady_fixedOf e).rings s i f hf (fixedOf_of_kept h))
    ((steady_outside e).rings s i f hf (outside_of_kept h))
  entry s i r b hr hs h := kept_of ((steady_quiet e).entry s i r b hr hs (quiet_of_kept h)) ((steady_fixedOf e).entry s i r b hr hs (fixedOf_of_kept h))
    ((steady_outside e).entry s i r b hr hs (outside_of_kept h))
  block s i x hw h := kept_of ((steady_quiet e).block s i x hw (quiet_of_kept h)) ((steady_fixedOf e).block s i x hw (fixedOf_of_kept h))
    ((steady_outside e).block s i x hw (outside_of_kept h))

theorem kept_post (s : State) (slice code : Nat) (f : List Field) : kept (post s slice code f) = kept s := (steady_kept s).post _ _ _ rfl

theorem kept_postEvent (s : State) (slice bits : Nat) : kept (postEvent s slice bits) = kept s := (steady_kept s).postEvent _ _ rfl

theorem kept_routePkt (s : State) (a : Option Nat) (p : Pkt) : kept (routePkt s a p) = kept s := (steady_kept s).routePkt _ _ rfl

theorem kept_denyAt (s : State) (slice engine : Nat) (w : Bool) (r a : Nat) : kept (denyAt s slice engine w r a) = kept s := (steady_kept s).denyAt _ _ _ _ _ rfl

variable {s t e : State} {i : Instr}

/-- A row whose outcome differs from a state only in what is not kept leaves that state. -/
theorem leaves_of_kept (hexec : exec i s = .next t) (h : kept t = kept e) : Leaves i s e :=
  ⟨t, hexec, quiet_of_kept h, fun j => congrFun (fixedOf_of_kept h) j, sameBytes_of_outside (outside_of_kept h)⟩

theorem sameBytes_of_kept {u : State} (h : sameBytes u t) (hk : kept t = kept e) : sameBytes u e := fun a ha => by
  have hring : ringByte t a ↔ ringByte e a := by
    have := congrFun (outside_of_kept hk) a
    by_cases ht : ringByte t a <;> by_cases he : ringByte e a <;> simp_all [outside]
  exact (h a fun h' => ha (hring.1 h')).trans (sameBytes_of_outside (outside_of_kept hk) a ha)

/-- A row that ends its packet, in a state that differs from another only in what is not kept, answers with that other state. -/
theorem Answers.of_kept {c : Cmd} {h : Held} {st : Status} {w : Nat} {f : List Field} (ha : Answers i s c h st w f t) (hk : kept t = kept e) :
    Answers i s c h st w f e := by
  obtain ⟨u, hexec, hfinished, hreplied, hquiet, hfixed, hbytes⟩ := ha
  exact ⟨u, hexec, hfinished, hreplied, hquiet.trans (quiet_of_kept hk), fun j hj => (hfixed j hj).trans (congrFun (fixedOf_of_kept hk) j),
    sameBytes_of_kept hbytes hk⟩

/-- What quiet keeps is read the same in two states that agree in what is kept. -/
theorem read_kept {α : Type} (g : State → α) (hg : ∀ s, g (quiet s) = g s) (h : kept t = kept s) : g t = g s := quiet_eq g hg (quiet_of_kept h)

theorem time_of_kept (h : kept t = kept s) : t.time = s.time := read_kept (·.time) (fun _ => rfl) h

end Sys2Proof.Machine
end

section
/-! What packets, events and denials change, more closely than Steady says it: of a port that forwards no more than its numbers, replay and lanes, of the rings no reply that waits, and of the violation record no more than its first entry and its count. -/
namespace Sys2Proof.Machine
open Sys2Proof

/-- A port but for what goes out of it (R328, R330). -/
def linkOf (x : TodPort) : TodPort := { x with tx := [], txBlocks := 0, txSeq0 := 0, txSeq2 := 0, replay := [] }

/-- The violation record after one more denial (R373). -/
def recordOf (v : Violation) : Option Violation → Option Violation
  | none => some { v with count := 0 }
  | some w => some { w with count := satAdd 16 w.count 1 }

/-- A change of a slice's rings that keeps the replies that wait and starts no ring. -/
def RingsCalm (f : SliceRings → SliceRings) : Prop :=
  ∀ r, (f r).waiting = r.waiting ∧ (r.rq.enable = false → (f r).rq.enable = false) ∧ (r.eq.enable = false → (f r).eq.enable = false)

/-- A property of states that the parts of a packet, an event or a denial keep. -/
structure Calm (P : State → Prop) : Prop where
  emit : ∀ s o, P s → P (emit s o)
  tod : ∀ s p f, (getTod s p).state = .forwarding → linkOf (f (getTod s p)) = linkOf (getTod s p) → P s → P (modTod s p f)
  noRoute : ∀ s n, P s → P { s with fabric := { s.fabric with noRoute := n } }
  vectors : ∀ s v, P s → P { s with regs := { s.regs with msixPending := v } }
  denied : ∀ s v, P s → P { s with weir := { s.weir with violation := recordOf v s.weir.violation } }
  count : ∀ s g e c n, P s → P (bump s g e c n)
  rings : ∀ s i f, RingsCalm f → P s → P (modRings s i f)
  write : ∀ s a l, P s → P (writeBytes s a l)

variable {P : State → Prop} {s : State}

theorem linkOf_putBlock (acc : TodPort × List (List Bool)) (b : Nat × List Byte) : linkOf (putBlock acc b).1 = linkOf acc.1 := rfl

theorem linkOf_putNext (acc : TodPort × List (List Bool)) (b : Nat × List Byte) : linkOf (putNext acc b).1 = linkOf acc.1 := by
  unfold putNext
  refine (linkOf_putBlock ..).trans ?_
  split
  · exact foldl_keeps (fun x : TodPort × List (List Bool) => linkOf x.1 = linkOf acc.1) putBlock (fun x b h => (linkOf_putBlock x b).trans h) _ _ rfl
  · rfl

/-- Blocks that go out change nothing of a port's link. -/
theorem linkOf_putBlocks (x : TodPort) (l : List (Nat × List Byte)) : linkOf (putBlocks x l).1 = linkOf x :=
  foldl_keeps (fun acc : TodPort × List (List Bool) => linkOf acc.1 = linkOf x) putNext (fun acc b h => (linkOf_putNext acc b).trans h) l _ rfl

theorem linkOf_sendBlocks (s : State) (p q : Nat) (l : List (Nat × List Byte)) : linkOf (getTod (sendBlocks s p l) q) = linkOf (getTod s q) := by
  refine (congrArg linkOf (getTod_modTod s p q _)).trans ?_
  split
  · next hq => subst hq; exact linkOf_putBlocks ..
  · rfl

/-- The sequence number that a packet takes (R331). -/
def pktSeq (s : State) (p : Nat) (q : Pkt) : Nat := if q.vc = 0 then (getTod s p).txSeq0 else if q.vc = 2 then (getTod s p).txSeq2 else 0

/-- A packet has gone out of a port. -/
def pktSent (s : State) (p : Nat) (q : Pkt) : State :=
  sendBlocks (emit s (.toden p q.kind (pktBytes { q with seq := pktSeq s p q }))) p
    (packetBlocks (sopBytes { q with seq := pktSeq s p q }) q.payload ((pktBytes { q with seq := pktSeq s p q }).drop (32 + q.payload.length)))

/-- A packet waits for its acknowledgement. -/
def pktFiled (q : Pkt) (n : Nat) (x : TodPort) : TodPort :=
  { x with
    replay := x.replay ++ [(q.vc, n, pktBytes { q with seq := n })]
    txSeq0 := if q.vc = 0 then (x.txSeq0 + 1) % 65536 else x.txSeq0
    txSeq2 := if q.vc = 2 then (x.txSeq2 + 1) % 65536 else x.txSeq2 }

theorem sendPkt_eq (s : State) (p : Nat) (q : Pkt) :
    sendPkt s p q = if q.vc = 1 then pktSent s p q else modTod (pktSent s p q) p (pktFiled q (pktSeq s p q)) := rfl

theorem linkOf_pktFiled (q : Pkt) (n : Nat) (x : TodPort) : linkOf (pktFiled q n x) = linkOf x := rfl

theorem linkOf_pktSent (s : State) (p r : Nat) (q : Pkt) : linkOf (getTod (pktSent s p q) r) = linkOf (getTod s r) := linkOf_sendBlocks ..

theorem linkOf_sendPkt (s : State) (p r : Nat) (q : Pkt) : linkOf (getTod (sendPkt s p q) r) = linkOf (getTod s r) := by
  rw [sendPkt_eq]
  refine iteInduction (motive := fun t : State => linkOf (getTod t r) = linkOf (getTod s r)) (fun _ => linkOf_pktSent ..) fun _ => ?_
  refine (congrArg linkOf (getTod_modTod _ p r _)).trans ?_
  split
  · next hq => subst hq; exact (linkOf_pktFiled ..).trans (linkOf_pktSent ..)
  · exact linkOf_pktSent ..

/-- A packet goes out only of ports that forward (R344). -/
theorem state_of_mem_portsFor {s : State} {dest p : Nat} {arrival : Option Nat} (h : p ∈ portsFor s dest arrival) : (getTod s p).state = .forwarding := by
  unfold portsFor at h
  split at h
  · have hforwarding := (List.mem_filter.1 h).1
    simpa using (List.mem_filter.1 hforwarding).2
  · split at h
    · next q hroute =>
      split at h
      · next hq =>
        rw [List.mem_singleton.1 h]
        unfold routeOf at hroute
        obtain ⟨e, he, rfl⟩ := Option.map_eq_some_iff.1 hroute
        have hport := List.find?_some he
        have hne : e.2.port ≠ 15 := by omega
        simp_all
      · exact absurd h List.not_mem_nil
    · exact absurd h List.not_mem_nil

namespace Calm

theorem sendBlocks (k : Calm P) (p : Nat) (l : List (Nat × List Byte)) (hp : (getTod s p).state = .forwarding) (h : P s) : P (sendBlocks s p l) :=
  k.emit _ _ (k.tod _ _ _ hp (linkOf_putBlocks ..) h)

theorem sendPkt (k : Calm P) (p : Nat) (q : Pkt) (hp : (getTod s p).state = .forwarding) (h : P s) : P (sendPkt s p q) := by
  rw [sendPkt_eq]
  have hsent : P (pktSent s p q) := k.sendBlocks p _ hp (k.emit _ _ h)
  exact iteInduction (motive := P) (fun _ => hsent) fun _ => k.tod _ _ _ ((congrArg TodPort.state (linkOf_pktSent s p p q) :).trans hp) (linkOf_pktFiled ..) hsent

theorem routePkt (k : Calm P) (a : Option Nat) (p : Pkt) (h : P s) : P (routePkt s a p) := by
  have hcounted : P (countUnrouted s p.dest) := by
    unfold countUnrouted; split
    · exact k.noRoute _ _ h
    · exact h
  have hlinks : ∀ q, linkOf (getTod (countUnrouted s p.dest) q) = linkOf (getTod s q) := fun q => by unfold countUnrouted; split <;> rfl
  suffices hall : ∀ (l : List Nat) (t : State), (∀ q ∈ l, (getTod s q).state = .forwarding) → (∀ q, linkOf (getTod t q) = linkOf (getTod s q)) → P t →
      P (forEach l (fun q s => Machine.sendPkt s q p) t) from hall _ _ (fun _ hq => state_of_mem_portsFor hq) hlinks hcounted
  intro l
  induction l with
  | nil => exact fun _ _ _ ht => ht
  | cons q l ih =>
    intro t hl hlink ht
    refine ih _ (fun r hr => hl r (List.mem_cons_of_mem _ hr)) (fun r => (linkOf_sendPkt ..).trans (hlink r)) (k.sendPkt q p ?_ ht)
    exact (congrArg TodPort.state (hlink q)).trans (hl q List.mem_cons_self)

theorem raiseEntry (k : Calm P) (e : Nat) (h : P s) : P (raiseEntry s e) := by
  unfold Machine.raiseEntry; split
  · exact k.routePkt _ _ h
  · split
    · exact k.emit _ _ h
    · exact k.vectors _ _ h

theorem writeback (k : Calm P) (i : Nat) (h : P s) : P (writeback s i) := by
  unfold Machine.writeback ringWrite; dsimp only; split
  · split
    · exact k.write _ _ _ h
    · exact k.emit _ _ h
  · exact h

theorem ringInterrupt (k : Calm P) (i : Nat) (e : Bool) (h : P s) : P (ringInterrupt s i e) := by
  unfold Machine.ringInterrupt
  cases e <;> simp only [Bool.false_eq_true, if_false, if_true] <;> split
  iterate 2
    · exact k.rings _ _ _ (fun _ => ⟨rfl, id, id⟩) h
    · exact k.raiseEntry _ (k.rings _ _ _ (fun _ => ⟨rfl, id, id⟩) h)

theorem pushEntry (k : Calm P) (i : Nat) (e : Bool) (b : Nat) (h : P s) : P (pushEntry s i e b) := by
  refine k.ringInterrupt _ _ (k.writeback _ (k.rings _ _ _ (fun _ => by cases e <;> exact ⟨rfl, id, id⟩) ?_))
  exact iteInduction (motive := P) (fun _ => k.write _ _ _ h) fun _ => h

theorem pushEvent (k : Calm P) (i b : Nat) (h : P s) : P (pushEvent s i b) := k.pushEntry _ _ _ (k.emit _ _ h)

theorem flushLost (k : Calm P) (i : Nat) (h : P s) : P (flushLost s i) := by
  unfold Machine.flushLost; dsimp only; split
  · exact k.pushEvent _ _ (k.rings _ _ _ (fun _ => ⟨rfl, id, id⟩) h)
  · exact h

theorem rawPost (k : Calm P) (i b : Nat) (h : P s) : P (rawPost s i b) := by
  unfold Machine.rawPost; dsimp only; split
  · exact k.pushEvent _ _ (k.flushLost _ h)
  · exact k.count _ _ _ _ _ (k.rings _ _ _ (fun _ => ⟨rfl, id, id⟩) (k.flushLost _ h))

theorem recordDenialBy (k : Calm P) {p : State → Nat → State} (hp : Posts P p) (v : Violation) (h : P s) : P (recordDenialBy p s v) := by
  have hdenied := k.denied s v h
  unfold Machine.recordDenialBy
  split
  · next hnone => rw [hnone] at hdenied; exact hp _ _ hdenied
  · next w hsome => rw [hsome] at hdenied; exact hdenied

theorem stopDenied (k : Calm P) {p q : State → Nat → State} (hp : Posts P p) (hq : Posts P q) (i w x a : Nat) (d : Nat × Nat) (h : P s) :
    P (stopDenied p q s i w x a d) := by
  refine hq _ _ (k.recordDenialBy hp _ (k.rings _ _ _ (fun r => ?_) h))
  split
  · exact ⟨rfl, id, id⟩
  · split
    · exact ⟨rfl, fun _ => rfl, id⟩
    · split
      · exact ⟨rfl, id, fun _ => rfl⟩
      · exact ⟨rfl, id, id⟩

theorem guardWriteback (k : Calm P) {p q : State → Nat → State} (hp : Posts P p) (hq : Posts P q) (i : Nat) (h : P s) : P (guardWriteback p q s i) := by
  unfold Machine.guardWriteback; dsimp only; split
  · split
    · exact k.stopDenied hp hq _ _ _ _ _ h
    · exact h
  · exact h

theorem guardRing (k : Calm P) {p q : State → Nat → State} (hp : Posts P p) (hq : Posts P q) (i w : Nat) (h : P s) : P (guardRing p q s i w) := by
  unfold Machine.guardRing; dsimp only
  generalize (if w = 5 then (getRings s i).eq else (getRings s i).rq) = r
  split
  · split
    · exact k.stopDenied hp hq _ _ _ _ _ h
    · exact h
  · exact h

theorem lastPost (k : Calm P) : Posts P lastPost := fun _ b h => k.rawPost 0 b h

theorem ownPost (k : Calm P) : Posts P ownPost := fun _ _ h => k.lastPost _ _ (k.guardRing k.lastPost k.lastPost _ _ h)

theorem managerPost (k : Calm P) : Posts P managerPost := fun _ _ h => k.ownPost _ _ (k.guardWriteback k.ownPost k.ownPost _ h)

theorem errorPost (k : Calm P) (i : Nat) : Posts P (errorPost i) := fun s b h => by
  unfold Machine.errorPost; split
  · exact k.rawPost _ _ (k.guardRing k.managerPost k.managerPost _ _ h)
  · exact k.ownPost _ _ h

theorem guardEvent (k : Calm P) (i : Nat) (h : P s) : P (guardEvent s i) := by
  unfold Machine.guardEvent; split
  · exact k.guardRing k.lastPost k.lastPost _ _ (k.guardWriteback k.ownPost k.ownPost _ h)
  · exact k.guardRing k.managerPost k.managerPost _ _ (k.guardWriteback k.managerPost (k.errorPost i) _ h)

/-- An event keeps what is calm (R80). -/
theorem post (k : Calm P) (i c : Nat) (f : List Field) (h : P s) : P (post s i c f) := k.rawPost _ _ (k.guardEvent _ h)

/-- What goes to a reply ring before a reply keeps what is calm (R64). -/
theorem guardReply (k : Calm P) (i : Nat) (h : P s) : P (guardReply s i) :=
  k.guardRing k.managerPost (k.errorPost i) _ _ (k.guardWriteback k.managerPost (k.errorPost i) _ h)

theorem recordDenial (k : Calm P) (v : Violation) (h : P s) : P (recordDenial s v) := k.recordDenialBy k.managerPost v h

end Calm

/-! Whether the device belongs to a fabric (R339 to R341). -/

/-- The link of every port. -/
def links (s : State) (p : Nat) : TodPort := linkOf (getTod s p)

theorem links_modTod {s : State} {p : Nat} {f : TodPort → TodPort} (h : linkOf (f (getTod s p)) = linkOf (getTod s p)) : links (modTod s p f) = links s := by
  funext q
  unfold links
  rw [getTod_modTod]
  split
  · next hq => subst hq; exact h
  · rfl

/-- Links are calm. -/
theorem calm_links (e : State) : Calm fun t => links t = links e where
  emit _ _ h := h
  tod _ _ _ _ hf h := (links_modTod hf).trans h
  noRoute _ _ h := h
  vectors _ _ h := h
  denied _ _ h := h
  count _ _ _ _ _ h := h
  rings _ _ _ _ h := h
  write _ _ _ h := h

theorem links_post (s : State) (i c : Nat) (f : List Field) : links (post s i c f) = links s := (calm_links s).post i c f rfl

theorem onFabric_of_links {s t : State} (h : links t = links s) : onFabric t = onFabric s := by
  unfold onFabric
  congr 1; funext p
  have hp : linkOf (getTod t p) = linkOf (getTod s p) := congrFun h p
  have hstate : (getTod t p).state = (getTod s p).state := (congrArg TodPort.state hp :)
  have hsame : (getTod t p).same = (getTod s p).same := (congrArg TodPort.same hp :)
  rw [todUp, todUp, hstate, hsame]

/-- A device that belongs to no fabric, or is its root, stays so while no port's link changes. -/
theorem isMember_of_links {s t : State} (h : links t = links s) (hroot : t.fabric.rootPort = s.fabric.rootPort) : isMember t = isMember s := by
  unfold isMember; rw [onFabric_of_links h, hroot]

/-! Replies that wait for their ring (R64, R76). -/

/-- A reply that waits goes on waiting. -/
theorem calm_waiting (j : Nat) (r : Reply) : Calm fun t => r ∈ (getRings t j).waiting where
  emit _ _ h := h
  tod _ _ _ _ _ h := h
  noRoute _ _ h := h
  vectors _ _ h := h
  denied _ _ h := h
  count _ _ _ _ _ h := h
  rings s i f hf h := by
    rw [getRings_modRings]
    split
    · next hj => subst hj; rw [(hf _).1]; exact h
    · exact h
  write _ _ _ h := h

/-! Rings that are stopped. -/

/-- A slice's reply and event rings are stopped. -/
def RingsOff (i : Nat) (s : State) : Prop := (getRings s i).rq.enable = false ∧ (getRings s i).eq.enable = false

/-- Rings that are stopped stay so. -/
theorem calm_ringsOff (i : Nat) : Calm (RingsOff i) where
  emit _ _ h := h
  tod _ _ _ _ _ h := h
  noRoute _ _ h := h
  vectors _ _ h := h
  denied _ _ h := h
  count _ _ _ _ _ h := h
  rings s j f hf h := by
    unfold RingsOff at *
    rw [getRings_modRings]
    split
    · next hj => subst hj; exact ⟨(hf _).2.1 h.1, (hf _).2.2 h.2⟩
    · exact h
  write _ _ _ h := h

/-! The violation record (R373). -/

/-- The record holds a denial, whatever its count. -/
def Records (v : Violation) (s : State) : Prop := ∃ n, s.weir.violation = some { v with count := n }

/-- A record that is held stays, and counts. -/
theorem calm_records (v : Violation) : Calm (Records v) where
  emit _ _ h := h
  tod _ _ _ _ _ h := h
  noRoute _ _ h := h
  vectors _ _ h := h
  denied s w h := by
    obtain ⟨n, hn⟩ := h
    exact ⟨satAdd 16 n 1, by rw [hn]; rfl⟩
  count _ _ _ _ _ h := h
  rings _ _ _ _ h := h
  write _ _ _ h := h

/-- The first denial is recorded. -/
theorem records_recordDenial {s : State} (h : s.weir.violation = none) (v : Violation) : Records v (recordDenial s v) := by
  unfold recordDenial recordDenialBy
  rw [h]
  exact (calm_records v).managerPost _ _ ⟨0, rfl⟩

end Sys2Proof.Machine
end

section
/-! O30: the reference loop. -/
namespace Sys2Proof.Machine
open Sys2Proof

/-- The reference loop's state is kept. -/
theorem head_of_kept {s t : State} (h : kept t = kept s) : t.head = s.head := read_kept (·.head) (fun _ => rfl) h

theorem head_post (s : State) (i c : Nat) (f : List Field) : (post s i c f).head = s.head := head_of_kept (kept_post ..)

theorem head_setRef {s : State} {n : Nat} {t : RefState} (ht : (getRef s n).state ≠ t) (cause : Nat) :
    (setRef s n t cause).head = (modRef s n fun e => { e with state := t, since := now s, timer := none }).head := by
  unfold setRef; dsimp only
  rw [if_neg ht]
  exact head_post ..

theorem isMember_setRef (s : State) (n : Nat) (t : RefState) (cause : Nat) : isMember (setRef s n t cause) = isMember s := by
  unfold setRef; dsimp only
  split
  · rfl
  · exact (isMember_of_links (links_post ..) (read_kept (·.fabric.rootPort) (fun _ => rfl) (kept_post ..))).trans rfl

theorem getRef_of_head {s t : State} (h : t.head = s.head) (n : Nat) : getRef t n = getRef s n := by unfold getRef; rw [h]

/-- The best candidate depends on no more than whether each entry is one, and its priority. -/
theorem bestRef_congr {s t : State} (hcandidate : ∀ n, candidate (getRef t n) = candidate (getRef s n)) (hpriority : ∀ n, (getRef t n).priority = (getRef s n).priority) :
    bestRef t = bestRef s := by
  have hbetter : betterRef t = betterRef s := by
    funext a b; unfold betterRef; rw [hpriority, hpriority]
  unfold bestRef
  rw [hbetter]
  simp only [hcandidate]

theorem head_startSwitch (s : State) (t : RefSel) (cause : Nat) :
    (startSwitch s t cause).head.selected = some t ∧ (startSwitch s t cause).head.dpll = .switching := by
  have hpost : ∀ u : State, ∀ frm : Nat, (postSwitch u frm cause).head = u.head := fun _ _ => head_post ..
  unfold startSwitch; dsimp only
  rw [hpost]
  exact ⟨rfl, rfl⟩

theorem historyS_leaveLocked (s : State) : (leaveLocked s).head.historyS = s.head.historyS := by
  unfold leaveLocked; split <;> rfl

theorem holdoverReady_congr {s t : State} (h : t.head.historyS = s.head.historyS) : holdoverReady t = holdoverReady s := by
  unfold holdoverReady; rw [h]

theorem head_enterHold {s : State} (hselected : s.head.selected.isNone = false) :
    (enterHold s).head.selected = none ∧ (enterHold s).head.dpll = if holdoverReady s then .holdover else .freeRun := by
  have hpost : ∀ (u : State) (frm cause : Nat), (postSwitch u frm cause).head = u.head := fun _ _ _ => head_post ..
  have hready : holdoverReady { leaveLocked s with head := { (leaveLocked s).head with selected := none, switches := satAdd 32 (leaveLocked s).head.switches 1 } } = holdoverReady s :=
    holdoverReady_congr (historyS_leaveLocked s)
  unfold enterHold; dsimp only
  rw [if_neg (by simp [hselected]), hready]
  split <;> rw [hpost] <;> exact ⟨rfl, rfl⟩

/-- The loop goes to the best candidate when the entry it follows is one no more (R295). -/
theorem reselect_lost {s : State} {n : Nat} (hmember : isMember s = false) (hselected : s.head.selected = some (.entry n))
    (hcandidate : candidate (getRef s n) = false) (cause : Nat) : reselect s cause = takeBest s cause := by
  unfold reselect
  rw [hmember, hselected]
  dsimp only
  rw [if_neg (by rw [hcandidate]; exact Bool.false_ne_true)]

/-- The state of an entry that has met its loss condition, before the loop's choice is reconsidered. -/
def lostRef (s : State) (n : Nat) : State := setRef (modRef s n fun e => { e with loss := true }) n .disqualified 1

theorem getRef_lostRef {s : State} {n : Nat} (hstate : (getRef s n).state ≠ .disqualified) (m : Nat) :
    getRef (lostRef s n) m = if m = n then { getRef s n with loss := true, state := .disqualified, since := now s, timer := none } else getRef s m := by
  have hhead := head_setRef (s := modRef s n fun e => { e with loss := true }) (n := n) (t := .disqualified) (by rw [getRef_modRef, if_pos rfl]; exact hstate) 1
  rw [lostRef, getRef_of_head hhead, getRef_modRef, getRef_modRef, getRef_modRef, if_pos rfl]
  split
  · rfl
  · rfl

/-- Losing an entry changes nothing of the loop but the entry. -/
theorem head_lostRef {s : State} {n : Nat} (hstate : (getRef s n).state ≠ .disqualified) :
    ∃ l, (lostRef s n).head = { s.head with entries := l } :=
  ⟨_, head_setRef (s := modRef s n fun e => { e with loss := true }) (by rw [getRef_modRef, if_pos rfl]; exact hstate) 1⟩

theorem loseEntry_eq {s : State} {n : Nat} (henable : (getRef s n).enable = true) (hinput : (getRef s n).input ≠ 15) (hstate : (getRef s n).state ≠ .disqualified) :
    loseEntry s n = reselect (lostRef s n) 1 := by
  unfold loseEntry; dsimp only
  rw [if_neg (by simp [henable, hinput]), if_neg hstate]
  rfl

theorem execRefLossCondition_eq {s : State} {n : Nat} (hn : n < 8)
    (hlost : lossHolds s (getRef s n) = true ∨ (getRef s n).input < 2 ∨ inRange (getRef s n).input 4 7 = true) :
    exec (.refLossCondition n) s = .next (loseEntry s n) := by
  refine congrArg Host.Outcome.next (if_pos ?_)
  rcases hlost with h | h | h <;> simp [hn, h]

theorem isMember_lostRef (s : State) (n : Nat) : isMember (lostRef s n) = isMember s := (isMember_setRef ..).trans (isMember_of_links rfl rfl)

/-- With its selected entry lost, the loop is where the best candidate puts it. -/
theorem execRefLossCondition_selected {s : State} {n : Nat} (hn : n < 8) (henable : (getRef s n).enable = true) (hinput : (getRef s n).input ≠ 15)
    (hstate : (getRef s n).state ≠ .disqualified) (hmember : isMember s = false)
    (hlost : lossHolds s (getRef s n) = true ∨ (getRef s n).input < 2 ∨ inRange (getRef s n).input 4 7 = true) (hselected : s.head.selected = some (.entry n)) :
    exec (.refLossCondition n) s = .next (takeBest (lostRef s n) 1) := by
  have hselected' : (lostRef s n).head.selected = some (.entry n) := by
    obtain ⟨l, hhead⟩ := head_lostRef hstate
    rw [hhead]
    exact hselected
  have hcandidate : candidate (getRef (lostRef s n) n) = false := by
    rw [getRef_lostRef hstate, if_pos rfl]
    unfold candidate
    cases (getRef s n).enable <;> rfl
  rw [execRefLossCondition_eq hn hlost, loseEntry_eq henable hinput hstate, reselect_lost ((isMember_lostRef s n).trans hmember) hselected' hcandidate]

/-- The best candidate once an entry is lost. -/
theorem bestRef_lostRef {s : State} {n : Nat} (hstate : (getRef s n).state ≠ .disqualified) :
    bestRef (lostRef s n) = bestRef (modRef s n fun e => { e with state := .disqualified }) := by
  refine bestRef_congr (fun m => ?_) fun m => ?_ <;> rw [getRef_lostRef hstate, getRef_modRef] <;> split
  · unfold candidate; rfl
  iterate 3 rfl

/-- A best candidate that is not the local oscillator is where the loop goes. -/
theorem takeBest_some {s : State} {m : Nat} (hbest : bestRef s = some m) (hinput : (getRef s m).input ≠ 15) (cause : Nat) :
    takeBest s cause = startSwitch s (.entry m) cause := by
  unfold takeBest; rw [hbest]; exact if_neg hinput

theorem takeBest_none {s : State} (hbest : bestRef s = none) (cause : Nat) : takeBest s cause = enterHold s := by
  unfold takeBest; rw [hbest]

/-- What an interval's end at lock gives the loop (R296, R298). -/
def lockedHead (s : State) (off f : Int) : HeadSt :=
  { s.head with dpll := .locked, lockedFor := 0, freq := f, standing := off / 10, remainder := off % 10 }

theorem execDpllLockComplete_eq {s : State} {off : Int} (hstate : s.head.dpll = .switching) (hpassed : passed s s.head.switchAt (intervalNs (lockTarget s)) = true) :
    ∃ f t, exec (.dpllLockComplete off) s = .next t ∧ t.head = lockedHead s off f :=
  ⟨_, _, congrArg Host.Outcome.next (if_neg (by simp [hstate, hpassed])), head_post ..⟩

/-- The second that has passed is counted, and WP_RUN_S with it (R300, R337). -/
def secondCounted (s : State) : State :=
  { s with
    head := { s.head with secondAt := s.head.secondAt + 1000000000 * 4294967296 }
    fabric := { s.fabric with runS := if s.time.running then satAdd 32 s.fabric.runS 1 else s.fabric.runS } }

/-- What a second does to the loop by its state (R300, R301). -/
def secondHead (x : HeadSt) (freq : Int) : HeadSt := match x.dpll with
  | .locked =>
    { x with freq := max (-50000) (min 50000 freq), hist := (max (-50000) (min 50000 freq) :: x.hist).take 302, historyS := satAdd 16 x.historyS 1, lockedFor := x.lockedFor + 1 }
  | .holdover => { x with holdoverS := satAdd 32 x.holdoverS 1 }
  | .freeRun => { x with freq := x.freq - max (-100) (min 100 x.freq) }
  | .switching => x

theorem execHistorySecondTick_eq {s : State} {freq : Int} (hpassed : passed s s.head.secondAt 1000000000 = true) :
    exec (.historySecondTick freq) s = .next { secondCounted s with head := secondHead (secondCounted s).head freq } := by
  refine congrArg Host.Outcome.next ((if_neg (by simp [hpassed])).trans ?_)
  cases hrunning : s.time.running <;> cases hstate : s.head.dpll <;> simp [secondCounted, secondHead, hrunning, hstate]

theorem execRefoutPulse_eq {s : State} {which : Nat} (hwhich : which < 2) (hmode : (if which = 0 then s.head.outA else s.head.outB).mode = 1) :
    exec (.refoutPulse which) s = .next (driveRef s which) :=
  congrArg Host.Outcome.next (if_pos (by simp [hwhich, hmode]))

/-- Settles O30. -/
theorem referenceLoop : Obligations.ReferenceLoop := by
  unfold Obligations.ReferenceLoop
  refine ⟨fun s n hn henable hinput hstate hmember hlost hselected => ?_, fun s off hstate hpassed => ?_, fun s freq hpassed => ?_, fun s hmode => ?_, fun s hmode => ?_⟩
  · have hexec := execRefLossCondition_selected hn henable hinput hstate hmember hlost hselected
    have hbest := bestRef_lostRef hstate
    obtain ⟨l, hhead⟩ := head_lostRef hstate
    refine ⟨fun m hm hlocal => ⟨_, hexec, ?_⟩, fun hnone => ⟨_, hexec, ?_⟩⟩
    · rw [takeBest_some (hbest.trans hm) (by rw [getRef_lostRef hstate]; split <;> simp_all)]
      exact head_startSwitch ..
    · have hready : holdoverReady (lostRef s n) = holdoverReady s := holdoverReady_congr (by rw [hhead])
      rw [takeBest_none (hbest.trans hnone), ← hready]
      exact head_enterHold (by rw [hhead]; exact congrArg Option.isNone hselected)
  · obtain ⟨f, t, hexec, hhead⟩ := execDpllLockComplete_eq (off := off) hstate hpassed
    refine ⟨t, hexec, ?_⟩
    beta_reduce
    rw [hhead]
    exact ⟨rfl, rfl, rfl, rfl, rfl, rfl⟩
  · refine ⟨_, execHistorySecondTick_eq hpassed, ?_, ?_, ?_, ?_, rfl, rfl⟩
    · intro h; simp [secondHead, secondCounted, h]
    · intro h; simp [secondHead, secondCounted, h]
    · intro h; simp [secondHead, secondCounted, h]
    · unfold secondHead; split <;> simp_all [secondCounted]
  · refine ⟨_, execRefoutPulse_eq (which := 0) (by decide) hmode, ?_⟩
    by_cases hlevel : refLevel s s.head.outA = s.head.levelA <;> simp [driveRef, emit, hlevel]
  · refine ⟨_, execRefoutPulse_eq (which := 1) (by decide) hmode, ?_⟩
    by_cases hlevel : refLevel s s.head.outB = s.head.levelB <;> simp [driveRef, emit, hlevel]

end Sys2Proof.Machine
end

section
/-! O31: wall timings and realignments. -/
namespace Sys2Proof.Machine
open Sys2Proof

/-- An announcement changes nothing that is kept. -/
theorem kept_announce (s : State) (l : List Byte) : kept (announce s l) = kept s := by
  unfold announce sendControl; split
  · exact kept_routePkt ..
  · rfl

/-- A wall timing waits for its boundary. -/
def timingPending (s : State) (h : Held) : State :=
  { s with time := { s.time with pendTiming := s.time.pendTiming ++ [(timingOf h.pkt, fabricBoundary s h, none)] } }

theorem actTiming_eq {s : State} {h : Held} (hphase : h.phase = .taken) (c : Cmd) :
    actTiming s h c = finish (announce (timingPending s h) (ctlTiming (timingOf h.pkt) (fabricBoundary s h) (fabricBoundary s h))) h .ok (boundaryBits (fabricBoundary s h))
      (packFields (timingDetail (announce (timingPending s h) (ctlTiming (timingOf h.pkt) (fabricBoundary s h) (fabricBoundary s h))) (timingOf h.pkt) (fabricBoundary s h))) := by
  unfold actTiming; dsimp only
  rw [hphase]
  rfl

theorem timingDetail_congr {s t : State} {tm : WallTiming} {b : Nat} (h : anchoredAt t tm ⟨b, 0, 0⟩ = anchoredAt s tm ⟨b, 0, 0⟩) :
    timingDetail t tm b = timingDetail s tm b := by
  unfold timingDetail; dsimp only; rw [h]

/-- The reply of a wall timing says what holds when the command acts. -/
theorem timingDetail_announce (s : State) (h : Held) (l : List Byte) :
    timingDetail (announce (timingPending s h) l) (timingOf h.pkt) (fabricBoundary s h) = timingDetail s (timingOf h.pkt) (fabricBoundary s h) :=
  timingDetail_congr ((read_kept (fun u => anchoredAt u (timingOf h.pkt) ⟨fabricBoundary s h, 0, 0⟩) (fun _ => rfl) (kept_announce ..)).trans rfl)

/-! Slews. -/

/-- A slew is gone, with its WP moved so far and the clocks gone on from there (R52, R305). -/
def slewGone (s : State) (w : Slew) (left : Int) : State :=
  { movePhases (rebaseClocks s) (w.total - left) with time := { s.time with slew := none } }

theorem endSlew_eq {s : State} {w : Slew} (hslew : s.time.slew = some w) (st : Status) (left : Int) :
    endSlew s st left = match w.key with
      | some k => finishKey (slewGone s w left) k st (nowBits s) [fAt 16 0 64 (ofSigned 64 w.total), fAt 24 0 64 (ofSigned 64 left)]
      | none => slewGone s w left := by
  unfold endSlew
  rw [hslew]
  dsimp only
  cases w.key <;> rfl

theorem time_endSlew {s : State} {w : Slew} (hslew : s.time.slew = some w) (st : Status) (left : Int) :
    (endSlew s st left).time = { s.time with slew := none } := by
  rw [endSlew_eq hslew]
  cases w.key with
  | none => rfl
  | some k => exact quiet_eq (·.time) (fun _ => rfl) (quiet_finishKey ..)

/-- The command of a slew is held no more once the slew has ended. -/
theorem findHeld_endSlew {s : State} {w : Slew} {k : CmdKey} (hslew : s.time.slew = some w) (hkey : w.key = some k)
    (hheld : ∀ h, findHeld s k = some h → h.slice = k.slice) (st : Status) (left : Int) : findHeld (endSlew s st left) k = none := by
  rw [endSlew_eq hslew, hkey]
  exact findHeld_finishKey (s := slewGone s w left) hheld ..

theorem actRealign_slewing {s : State} {w : Slew} (hslew : s.time.slew = some w) (h : Held) (c : Cmd) :
    actRealign s h c = finishNow (endSlew s .notReady (slewLeft s)) h .notReady [] := by
  unfold actRealign; dsimp only
  rw [hslew]; rfl

/-- The request of a REALIGN. -/
def realignOf (s : State) (h : Held) : Realign :=
  { key := some (heldKey h), slew := realignMode h.pkt == 1, target := pf h.pkt 16 2 2, delta := toSigned 64 (pf h.pkt 24 0 64), rate := pf h.pkt 17 0 8, frame := fabricBoundary s h }

/-- A root announces a REALIGN whose delta is known already (R342). -/
def realignAnnounced (s : State) (h : Held) : State :=
  if (realignOf s h).target = 2 then announce s (ctlRealign (if (realignOf s h).slew then 4 else 3) (realignOf s h).delta (realignOf s h).rate (realignOf s h).frame) else s

theorem kept_realignAnnounced (s : State) (h : Held) : kept (realignAnnounced s h) = kept s := by
  unfold realignAnnounced; split
  · exact kept_announce ..
  · rfl

/-- A request joins those that wait for their boundary. -/
def realignQueued (s : State) (r : Realign) : State := { s with time := { s.time with realign := s.time.realign ++ [r] } }

theorem actRealign_idle {s : State} (hslew : s.time.slew = none) (h : Held) (c : Cmd) :
    actRealign s h c = holdOn (realignQueued (realignAnnounced s h) (realignOf s h)) h := by
  unfold actRealign; dsimp only
  rw [hslew]; rfl

theorem kept_realignQueued {s t : State} (h : kept t = kept s) (r : Realign) : quiet (realignQueued t r) = quiet (realignQueued s r) := by
  have htime := time_of_kept h
  have hquiet := quiet_of_kept h
  exact (congrArg (fun x : TimeSt => { quiet t with time := { x with realign := x.realign ++ [r] } }) htime).trans (congrArg (fun u : State => { u with time := { s.time with realign := s.time.realign ++ [r] } }) hquiet)

/-- The end of a slew by CANCEL, announced by a root. -/
def realignCancelled (s : State) : State := announce (endSlew s .notReady (slewLeft s)) (ctlRealign 5 0 0 0)

theorem time_realignCancelled {s : State} {w : Slew} (hslew : s.time.slew = some w) : (realignCancelled s).time = { s.time with slew := none } :=
  (time_of_kept (kept_announce ..)).trans (time_endSlew hslew ..)

theorem actRealignCancel_eq {s : State} {w : Slew} (hslew : s.time.slew = some w) (h : Held) (c : Cmd) :
    actRealignCancel s h c = finishNow (realignCancelled s) h .ok [fAt 16 0 64 (ofSigned 64 w.total), fAt 24 0 64 (ofSigned 64 (slewLeft s))] := by
  unfold actRealignCancel; dsimp only
  rw [hslew]; rfl

theorem nowBits_of_slewGone {s t : State} (h : t.time = { s.time with slew := none }) : nowBits t = nowBits s := by
  unfold nowBits now; rw [h]

/-- A row that ends its packet after a slew has ended. -/
theorem ReadyNow.slewEnded {s u : State} {c : Cmd} {op : Nat} {h : Held} (hr : ReadyNow s c op h) {i : Instr} {st : Status} {f : List Field}
    (hexec : exec i s = .next (finishNow u h st f)) (htime : u.time = { s.time with slew := none }) :
    ∃ t, exec i s = .next t ∧ Finished t c ∧ t.time = { s.time with slew := none } ∧ Replied t h st (nowBits s) (packFields f) :=
  ⟨_, hexec, hr.1.finished .., (read_finishNow (·.time) (fun _ => rfl) ..).trans htime, nowBits_of_slewGone htime ▸ finishNow_replied u h st f⟩

/-- Settles O31. -/
theorem timingAndRealign : Obligations.TimingAndRealign := by
  unfold Obligations.TimingAndRealign
  refine ⟨fun s c h hr hc => ?_, fun s c h i hi hr hc hslew => ?_, fun s c h w hr hmode hc hslew => ?_, fun s c h w hr hmode hc hslew => ?_, fun s w hslew hleft hheld => ?_⟩
  · have hact := actTiming_eq (s := s) hr.1.2.2.1 c
    rw [timingDetail_announce] at hact
    exact (hr.1.answers (i := .wallTimingSet c) (congrArg Host.Outcome.next ((hr.runPacket rfl hc).trans hact))).of_kept (kept_announce ..)
  · have hexec : exec i s = .next (holdOn (realignQueued (realignAnnounced s h) (realignOf s h)) h) := by
      rcases hi with ⟨rfl, hmode⟩ | ⟨rfl, hmode⟩ <;>
        exact congrArg Host.Outcome.next ((hr.runPacket (by simp [hmode]) hc).trans (actRealign_idle hslew h c))
    have hkept := kept_realignAnnounced s h
    refine ⟨_, hexec, ?_, ?_⟩
    · rw [← hr.1.key]
      refine findHeld_modHeld _ _ _ (fun _ => ⟨rfl, rfl⟩) ?_
      rw [hr.1.key, ← hr.1.1]
      exact findHeld_of_fixedOf (fixedOf_of_kept hkept) _
    · rw [← hr.1.key]
      exact kept_realignQueued hkept _
  · obtain ⟨t, hexec, hfinished, htime, hreplied⟩ := hr.slewEnded (i := .realignJump c)
      (congrArg Host.Outcome.next ((hr.runPacket (by simp [hmode]) hc).trans (actRealign_slewing hslew h c))) (time_endSlew hslew ..)
    exact ⟨t, hexec, hfinished, by rw [htime], by rw [htime], hreplied⟩
  · obtain ⟨t, hexec, hfinished, htime, hreplied⟩ := hr.slewEnded (i := .realignCancel c)
      (congrArg Host.Outcome.next ((hr.runPacket (by simp [hmode]) hc).trans (actRealignCancel_eq hslew h c))) (time_realignCancelled hslew)
    exact ⟨t, hexec, hfinished, by rw [htime], by rw [now, htime]; rfl, hreplied⟩
  · have htime := time_endSlew hslew .ok 0
    exact ⟨_, congrArg Host.Outcome.next (if_pos hleft), by rw [htime], by rw [now, htime]; rfl, fun k hk => findHeld_endSlew hslew hk (fun h => hheld k h hk) ..⟩

end Sys2Proof.Machine
end

section
/-! O32: register accesses and interrupts. -/
namespace Sys2Proof.Machine
open Sys2Proof

/-- The map defines no register beyond page 64 (R441). -/
theorem lt_of_regAt {s : State} {off w v : Nat} (h : regAt s off = some (w, v)) : off < 65 * 4096 := by
  by_contra hoff
  have hpage : 64 < off / 4096 := by omega
  have hne : off ≠ 0x200 := by omega
  simp [regAt, hpage, hne] at h

/-- A register of the map is neither an entry of the MSI-X table nor a pending word. -/
theorem not_inMsixTable {off : Nat} (h : off < 65 * 4096 + 8) : inMsixTable off = false := by
  simp only [inMsixTable, inRange, Bool.and_eq_false_iff, decide_eq_false_iff_not]
  omega

theorem not_inPending {off : Nat} (h : off < 65 * 4096 + 8) : inRange off 0x90000 0x90087 = false := by
  simp only [inRange, Bool.and_eq_false_iff, decide_eq_false_iff_not]
  omega

theorem hostRegWrite_eq {s : State} {off size v : Nat} (h : off < 65 * 4096 + 8) : hostRegWrite s off size v = regWrite s off size v := by
  unfold hostRegWrite
  exact if_neg (by simp [not_inMsixTable h])

theorem hostRead_eq {s : State} {off : Nat} (h : off < 65 * 4096 + 8) : hostRead s off = regRead s off 4 := by
  unfold hostRead
  refine (if_congr Iff.rfl rfl ((if_neg (by simp [not_inMsixTable h])).trans (if_neg (by simp [not_inPending h])))).trans ?_
  split <;> rfl

/-- A register of the manager page after READY. -/
theorem regAt_manager {s : State} {off : Nat} (hopen : regsOpen s = true) (hlow : 0x200 ≤ off) (hhigh : off < 4096) : regAt s off = managerReg s off := by
  have hpage : off / 4096 = 0 := by omega
  have ho : off % 4096 = off := by omega
  have hlt : ¬ off < 512 := by omega
  simp only [regAt, hopen, hpage, ho, hlt, if_false, if_true, Bool.not_true, Bool.false_or]
  split <;> simp

theorem regAt_window {s : State} (hopen : regsOpen s = true) : regAt s 0x230 = some (8, s.regs.fwinBase) :=
  (regAt_manager hopen (by decide) (by decide)).trans (by simp [managerReg])

theorem writeReg_window {s : State} (hopen : regsOpen s = true) (v : Nat) : writeReg s 0x230 v = { s with regs := { s.regs with fwinBase := v } } := by
  simp [writeReg, writeManagerReg, hopen]

theorem regWrite_eight {s : State} {off v w : Nat} (halign : off % 8 = 0) (hbell : isDoorbell off = false) (hreg : regAt s off = some (8, w)) :
    regWrite s off 8 v = writeReg s off v := by
  simp [regWrite, halign, hbell, hreg]

/-- A lower half that is written waits for its upper half (R442). -/
theorem regWrite_lower {s : State} {off v w : Nat} (halign : off % 8 = 0) (hreg : regAt s off = some (8, w)) :
    regWrite s off 4 v = { s with regs := { s.regs with writeLatch := tset none s.regs.writeLatch off (some v) } } := by
  have h4 : off % 4 = 0 := by omega
  simp [regWrite, h4, hreg]

/-- An upper half that is written goes with the lower half that is held (R442). -/
theorem regWrite_upper {s : State} {off lo v w : Nat} (halign : off % 8 = 0) (hreg : regAt s off = some (8, w)) (hnone : regAt s (off + 4) = none)
    (hheld : tget none s.regs.writeLatch off = some lo) :
    regWrite s (off + 4) 4 v = writeReg { s with regs := { s.regs with writeLatch := tset none s.regs.writeLatch off none } } off (lo + v * 2 ^ 32) := by
  have h4 : (off + 4) % 4 = 0 := by omega
  have h8 : (off + 4) % 8 = 4 := by omega
  simp [regWrite, h4, h8, hnone, hreg, hheld]

/-- A lower half that is read holds its upper half (R442). -/
theorem regRead_lower {s : State} {off v : Nat} (hreg : regAt s off = some (8, v)) (hgauge : ¬ (0x800 ≤ off ∧ off ≤ 0x8FF)) :
    regRead s off 4 = ({ s with regs := { s.regs with readLatch := tset none s.regs.readLatch off (some (v / 2 ^ 32)) } }, v % 2 ^ 32) := by
  have hlatch : latchGauge s off = s := if_neg (by simp [inRange]; omega)
  simp [regRead, hreg, hlatch]

theorem regRead_upper {s : State} {off v w : Nat} (halign : off % 8 = 0) (hreg : regAt s off = some (8, w)) (hnone : regAt s (off + 4) = none)
    (hheld : tget none s.regs.readLatch off = some v) :
    regRead s (off + 4) 4 = ({ s with regs := { s.regs with readLatch := tset none s.regs.readLatch off none } }, v) := by
  have h8 : (off + 4) % 8 = 4 := by omega
  simp [regRead, h8, hnone, hreg, hheld]

/-- A unit's tag and count are held with its last value (R447). -/
theorem regRead_gauge {s : State} {u : Nat} (hopen : regsOpen s = true) (hu : u < 8) :
    regRead s (0x800 + 32 * u) 8 = ({ s with
      regs := { s.regs with
        gaugeTag := tset 0 s.regs.gaugeTag u ((tget {} s.gauge.units u).tagB * 2 ^ 32 + (tget {} s.gauge.units u).tagA)
        gaugeCount := tset 0 s.regs.gaugeCount u (tget {} s.gauge.units u).results } }, (tget {} s.gauge.units u).last) := by
  have hreg : regAt s (0x800 + 32 * u) = some (8, (tget {} s.gauge.units u).last) := by
    rw [regAt_manager hopen (by omega) (by omega)]
    interval_cases u <;> simp [managerReg, inRange]
  have hrange : inRange (0x800 + 32 * u) 0x800 0x8FF = true := by simp [inRange]; omega
  have halign : (0x800 + 32 * u) % 32 = 0 := by omega
  have hunit : (0x800 + 32 * u - 0x800) / 32 = u := by omega
  simp only [regRead, hreg, latchGauge, hrange, halign, hunit]
  rfl

theorem raiseEntry_unmasked {s : State} {e : Nat} (hheadless : s.regs.headless = false) (hloopback : s.regs.loopback = false)
    (hunmasked : tget false s.regs.unmasked e = true) : raiseEntry s e = emit s (.msix e) := by
  simp [raiseEntry, hheadless, hloopback, hunmasked]

/-- The oldest entry of the FIFO is gone (R449). -/
def firqPopped (s : State) : State := { s with regs := { s.regs with firq := s.regs.firq.drop 1, firqOverflow := false } }

theorem execFirqPop_eq {s : State} (hopen : regsOpen s = true) :
    exec .firqPop s = .next (if (firqPopped s).regs.firq.isEmpty then firqPopped s else raiseEntry (firqPopped s) 16) := by
  have hbit : bitAt 1 0 = true := by decide
  refine congrArg Host.Outcome.next ?_
  simp [writeReg, writeManagerReg, hopen, hbit, popFirq, firqPopped]

/-- Settles O32. -/
theorem registerAccess : Obligations.RegisterAccess := by
  unfold Obligations.RegisterAccess
  refine ⟨fun s v hopen hv => ?_, fun s off v old hreg halign hv => ?_, fun s lo hi hopen hheld hhi => ?_, fun s off size v h4 h8 => ?_,
    fun s off v hreg hgauge => ?_, fun s off v w hreg hnone halign hheld => ?_, fun s u hopen hu => ?_, fun s v hv => ?_, fun s v hv hrange htrip => ?_,
    fun s hopen => ?_, fun s hopen hlen hheadless hloopback hunmasked => ?_, fun s hopen => ?_, fun s v hv hpending => ?_, fun s v hv hpending => ?_⟩
  · refine congrArg Host.Outcome.next ?_
    rw [hostRegWrite_eq (by decide), regWrite_eight (by decide) (by decide) (regAt_window hopen), writeReg_window hopen, Nat.mod_eq_of_lt hv]
  · refine congrArg Host.Outcome.next ?_
    have hlt := lt_of_regAt hreg
    rw [hostRegWrite_eq (by omega), regWrite_lower halign hreg, Nat.mod_eq_of_lt hv]
  · refine congrArg Host.Outcome.next ?_
    have hnone : regAt s 0x234 = none := (regAt_manager hopen (by decide) (by decide)).trans (by simp [managerReg, inRange])
    rw [hostRegWrite_eq (by decide), regWrite_upper (off := 0x230) (by decide) (regAt_window hopen) hnone hheld, Nat.mod_eq_of_lt hhi]
    exact writeReg_window (s := { s with regs := { s.regs with writeLatch := tset none s.regs.writeLatch 0x230 none } }) hopen _
  · refine congrArg Host.Outcome.next ?_
    simp [hostRegWrite, regWrite, h4, h8]
  · have hlt := lt_of_regAt hreg
    unfold Becomes
    show execRegisterLowerHalfRead off s = _
    unfold execRegisterLowerHalfRead
    rw [hostRead_eq (by omega), regRead_lower hreg hgauge]
    rfl
  · have hlt := lt_of_regAt hreg
    unfold Becomes
    show execRegisterLowerHalfRead (off + 4) s = _
    unfold execRegisterLowerHalfRead
    rw [hostRead_eq (by omega), regRead_upper halign hreg hnone hheld]
    rfl
  · refine congrArg Host.Outcome.next ?_
    rw [if_pos hu, regRead_gauge hopen hu]
    rfl
  · exact congrArg Host.Outcome.next (if_neg hv)
  · refine congrArg Host.Outcome.next ((if_pos hv).trans ?_)
    unfold requestReset
    rw [if_neg (by simp [hrange]), if_neg (fun h => by have := htrip h.1; omega)]
  · have hkept : kept (if (firqPopped s).regs.firq.isEmpty then firqPopped s else raiseEntry (firqPopped s) 16) = kept (firqPopped s) :=
      iteInduction (motive := fun t : State => kept t = kept (firqPopped s)) (fun _ => rfl) fun _ => (steady_kept _).raiseEntry _ rfl
    exact leaves_of_kept (execFirqPop_eq hopen) hkept
  · have hleft : (firqPopped s).regs.firq.isEmpty = false := by
      simp only [firqPopped, List.isEmpty_eq_false_iff, ne_eq, List.drop_eq_nil_iff]; omega
    refine ⟨_, execFirqPop_eq hopen, ?_⟩
    rw [if_neg (by simp [hleft]), raiseEntry_unmasked (s := firqPopped s) hheadless hloopback hunmasked]
    rfl
  · exact congrArg Host.Outcome.next (if_pos hopen)
  · exact congrArg Host.Outcome.next ((if_neg (by omega)).trans (if_pos hpending))
  · exact congrArg Host.Outcome.next ((if_neg (by omega)).trans (if_neg (by simp [hpending])))

end Sys2Proof.Machine
end

section
/-! O33: accesses through an aperture and the debug port. -/
namespace Sys2Proof.Machine
open Sys2Proof

/-- A range in one unit is one piece (R366). -/
theorem piecesOf_single {a n : Nat} (h : a / 256 = (a + n - 1) / 256) (hn : 0 < n) : piecesOf a n = [(a, n)] := by
  have hcount : (a + n - 1) / 256 - a / 256 + 1 = 1 := by omega
  have hunits : unitsOf a n = [a] := by
    unfold unitsOf
    rw [if_neg (by omega), hcount]
    simp only [List.range_one, List.map_cons, List.map_nil, List.cons.injEq, and_true]
    omega
  have hlast : min (a + n) ((a / 256 + 1) * 256) - a = n := by omega
  simp [piecesOf, hunits, hlast]

variable {s : State} {decide_ : State → Nat → Option Nat} {v : Violation} {a : Nat} {l : List Byte}

/-- A write of one unit that is allowed is done. -/
theorem writeUnits_allowed (hspace : inRegSpace a = false) (hunit : a / 256 = (a + l.length - 1) / 256) (hl : 0 < l.length) (hallowed : decide_ s a = none) :
    writeUnits s decide_ v a l = writeBytes s a l := by
  simp [writeUnits, piecesOf_single hunit hl, forEach, hallowed, weirWrite, hspace]

/-- A read that meets no poison notes nothing. -/
theorem noteRead_good {n : Nat} (hn : 0 < n) (hgood : rangePoisoned s a n = false) (cls : Nat) : noteRead s a n cls = s := by
  have hnone : (s.store.poison.filter fun e => e.2 && a / 256 ≤ e.1 && decide (e.1 ≤ (a + n - 1) / 256)) = [] := by
    rw [List.filter_eq_nil_iff]
    intro e he hp
    have hany : s.store.poison.any (fun e => a / 256 ≤ e.1 && e.1 ≤ (a + n - 1) / 256 && e.2) = true :=
      List.any_eq_true.2 ⟨e, he, by simp_all⟩
    simp [rangePoisoned, hany] at hgood
    omega
  unfold noteRead
  rw [if_neg (by omega), hnone]
  rfl

theorem weirRead_store (hspace : inRegSpace a = false) (n : Nat) : weirRead s a n = (noteRead s a n 2, readBytes s a n) :=
  if_neg (by rw [hspace]; exact Bool.false_ne_true)

/-- A read of one unit that is allowed and meets no poison gives its bytes. -/
theorem readUnits_allowed {n : Nat} (hspace : inRegSpace a = false) (hunit : a / 256 = (a + n - 1) / 256) (hn : 0 < n) (hallowed : decide_ s a = none)
    (hgood : rangePoisoned s a n = false) : readUnits s decide_ v a n = (s, readBytes s a n) := by
  simp only [readUnits, piecesOf_single hunit hn, List.foldl_cons, List.foldl_nil, hallowed, weirRead_store hspace, noteRead_good hn hgood, List.nil_append]

/-- A read of one unit that is denied gives 0xDEB0_DEB0, and the denial is recorded (R371). -/
theorem readUnits_denied {n r : Nat} (hunit : a / 256 = (a + n - 1) / 256) (hn : 0 < n) (hdenied : decide_ s a = some r) :
    readUnits s decide_ v a n = (recordDenial s { v with rule := r, wp := nowBits s, address := a / 256 * 256 }, deniedBytes n) := by
  simp [readUnits, piecesOf_single hunit hn, hdenied]

theorem readsPoison_single {n : Nat} (hunit : a / 256 = (a + n - 1) / 256) (hn : 0 < n) (hgood : rangePoisoned s a n = false ∨ decide_ s a ≠ none) :
    readsPoison s decide_ a n = false := by
  rcases hgood with h | h <;> simp [readsPoison, piecesOf_single hunit hn, h]

theorem accessUnits_denied {t : State} {b : List Byte} (hread : readUnits s decide_ v a l.length = (t, b)) :
    accessUnits s decide_ v false a l = emit t (.readData l.length (natLE b)) := by
  unfold accessUnits; rw [hread]; rfl

/-- The decision on a unit that an aperture reaches (R450). -/
def apertureDecide (x : Aperture) (write : Bool) (s : State) (u : Nat) : Option Nat :=
  if x.enable then weirDecide s x.slice engHost write u else some 0xFFC

/-- An access through an aperture meets no poison: it is decided unit by unit. -/
theorem execBar2ApertureAccess_eq {write : Bool} {off : Nat} {x : Aperture} (hopen : regsOpen s = true) (hoff : off < 64 * 0x10000000)
    (hx : x = tget {} s.regs.apertures (off / 0x10000000)) (ha : a = x.base / 65536 * 65536 + off % 0x10000000)
    (hgood : write = true ∨ readsPoison s (apertureDecide x write) a l.length = false) :
    exec (.bar2ApertureAccess write off l) s = .next (accessUnits s (apertureDecide x write) { slice := x.slice, engine := engHost } write a l) := by
  subst hx ha
  refine congrArg Host.Outcome.next ((if_neg (by simp [hopen]; omega)).trans (if_neg ?_))
  rcases hgood with h | h
  · simp [h]
  · exact fun hp => absurd ((Bool.and_eq_true_iff.1 hp).2.symm.trans h) (by decide)

/-- The bytes of a word that a denied read returns. -/
theorem natLE_deniedBytes : natLE (deniedBytes 4) = 0xDEB0DEB0 := by decide

end Sys2Proof.Machine
end

section
namespace Sys2Proof.Machine
open Sys2Proof

/-- Settles O33. -/
theorem apertureAndDebugAccess : Obligations.ApertureAndDebugAccess := by
  unfold Obligations.ApertureAndDebugAccess
  refine ⟨fun s off a l hopen hoff henable ha hspace hunit hl hallowed => ?_, fun s off a l hopen hoff henable ha hspace hunit hl hallowed hgood => ?_,
    fun s off a hopen hoff hdisable hwithin ha => ?_, fun s a l hon hspace hunit hl hallowed => ?_, fun s w a l hoff => ?_, fun s hlk => ?_⟩
  · refine (execBar2ApertureAccess_eq hopen hoff rfl ha (.inl rfl)).trans (congrArg Host.Outcome.next ?_)
    exact writeUnits_allowed hspace hunit hl ((if_pos henable).trans hallowed)
  · have hdecide : apertureDecide (tget {} s.regs.apertures (off / 0x10000000)) false s a = none := (if_pos henable).trans hallowed
    refine (execBar2ApertureAccess_eq hopen hoff rfl ha (.inr (readsPoison_single hunit hl (.inl hgood)))).trans (congrArg Host.Outcome.next ?_)
    unfold accessUnits
    rw [readUnits_allowed hspace hunit hl hdecide hgood]
    rfl
  · have hdecide : apertureDecide (tget {} s.regs.apertures (off / 0x10000000)) false s a = some 0xFFC := if_neg (by simp [hdisable])
    have hunit : a / 256 = (a + 4 - 1) / 256 := by omega
    have hexec := execBar2ApertureAccess_eq (l := [0, 0, 0, 0]) hopen hoff rfl ha (.inr (readsPoison_single hunit (by decide) (.inr (by rw [hdecide]; exact Option.some_ne_none _))))
    have hread := readUnits_denied (v := { slice := (tget {} s.regs.apertures (off / 0x10000000)).slice, engine := engHost }) hunit (by decide) hdecide
    rw [accessUnits_denied hread] at hexec
    have hkept := (steady_kept s).recordDenial { slice := (tget {} s.regs.apertures (off / 0x10000000)).slice, engine := engHost, rule := 0xFFC, wp := nowBits s, address := a / 256 * 256 } rfl
    refine ⟨_, hexec, ?_, quiet_of_kept hkept, sameBytes_of_outside (outside_of_kept hkept), fun hnone => records_recordDenial hnone _⟩
    exact List.mem_append_right _ (by rw [natLE_deniedBytes]; exact List.mem_singleton.2 rfl)
  · exact congrArg Host.Outcome.next ((if_pos hon).trans (writeUnits_allowed hspace hunit hl hallowed))
  · exact congrArg Host.Outcome.next (if_neg (by simp [hoff]))
  · exact ⟨_, congrArg Host.Outcome.next (if_pos hlk), rfl, by simp [debugOn]⟩

end Sys2Proof.Machine
end

section
/-! O34: the fabric window and its interrupts. -/
namespace Sys2Proof.Machine
open Sys2Proof

/-- The links of the ports and the routes over them. -/
def routing (s : State) : (Nat → TodPort) × Tab Route := (links s, s.fabric.routes)

theorem routing_post (s : State) (i c : Nat) (f : List Field) : routing (post s i c f) = routing s := by
  unfold routing
  rw [links_post, read_kept (·.fabric.routes) (fun _ => rfl) (kept_post s i c f)]

/-- A destination's way depends on the links of the ports and the routes (R344). -/
theorem routeOf_of_routing {s t : State} (h : routing t = routing s) (dest : Nat) : routeOf t dest = routeOf s dest := by
  have hstate : ∀ p, (getTod t p).state = (getTod s p).state := fun p => (congrArg (fun x => (x.1 p).state) h :)
  have hroutes : t.fabric.routes = s.fabric.routes := congrArg Prod.snd h
  unfold routeOf
  simp only [hstate, hroutes]

theorem routing_gaugeEvent (s : State) (k : Nat) : routing (gaugeEvent s k) = routing s := routing_post ..

theorem routing_queueGauge (s : State) (r : GaugeRec) : routing (queueGauge s r) = routing s := by
  unfold queueGauge; dsimp only
  refine iteInduction (motive := fun t : State => routing t = routing s) (fun _ => ?_) fun _ => ?_
  · exact iteInduction (motive := fun t : State => routing t = routing s) (fun _ => routing_gaugeEvent ..) fun _ => rfl
  · refine iteInduction (motive := fun t : State => routing t = routing s) (fun _ => ?_) fun _ => rfl
    exact iteInduction (motive := fun t : State => routing t = routing s) (fun _ => routing_gaugeEvent ..) fun _ => rfl

theorem routing_gaugePkt (s : State) (port : Nat) (q : Pkt) : routing (gaugePkt s port q) = routing s := by
  refine forEach_same routing _ _ _ fun u t => ?_
  refine iteInduction (motive := fun x : State => routing x = routing t) (fun _ => ?_) fun _ => rfl
  exact (routing_queueGauge ..).trans rfl

variable {s u : State} {port kind : Nat} {bits : List (List Bool)} {q : Pkt}

/-- A packet for this device alone, whole and of the kind, is taken (R330, R331). -/
theorem takeMgmt_local {l : List Byte} (hport : port < 4) (hstate : (getTod s port).state = .forwarding) (hlanes : takeLanes s port bits = (u, some l))
    (hparse : parsePkt l = some q) (hkind : q.kind = kind) (hvc : q.vc = 1) (hdest : q.dest ≠ 4095) (hroute : routeOf u q.dest = some 15) :
    takeMgmt s port kind bits = (gaugePkt u port q, some { q with hops := (q.hops + 1) % 256 }) := by
  have htake : takePkt s port kind bits = (gaugePkt u port q, some { q with hops := (q.hops + 1) % 256 }) := by
    simp [takePkt, hport, todUp, hstate, hlanes, hparse, hkind, hvc]
  have hway : routeOf (gaugePkt u port q) q.dest = some 15 := (routeOf_of_routing (routing_gaugePkt ..) _).trans hroute
  simp [takeMgmt, htake, hdest, hway, isLocal]

theorem execRemoteWrite_eq {a : Nat} (htake : takeMgmt s port 7 bits = (u, some q)) (ha : a = leAt q.payload 0 8) (hclaim : a ≠ claimAddr) :
    exec (.remoteWrite port bits) s = .next (writeUnits u (fun s u => weirDecide s 0 engFabric true u) { slice := 0, engine := engFabric } a (q.payload.drop 8)) := by
  subst ha
  show execRemoteWrite port bits s = _
  unfold execRemoteWrite
  rw [htake]
  exact congrArg Host.Outcome.next (if_neg hclaim)

theorem execInterruptPacket_eq (htake : takeMgmt s port 10 bits = (u, some q)) :
    exec (.interruptPacket port bits) s = .next (takeInterrupt u q.src (byteAt q.payload 0 % 64)) := by
  show execInterruptPacket port bits s = _
  unfold execInterruptPacket
  rw [htake]

theorem inRegSpace_claimAddr : inRegSpace claimAddr = true := by decide

/-- A window read waits for its answer (R448). -/
def windowReading (s : State) (off size : Nat) : State :=
  { s with regs := { s.regs with
    winSeq := (s.regs.winSeq + 1) % 2 ^ 32
    winReads := s.regs.winReads ++ [{ target := s.regs.fwinTarget, addr := s.regs.fwinBase / 2 ^ 24 * 2 ^ 24 + off % 2 ^ 24, size := size, seq := s.regs.winSeq, at_ := upTime s }] } }

/-- An access through a window that is open to its target becomes a REMOTE packet (R448). -/
theorem execFabricWindowAccess_open {write : Bool} {off size v : Nat} (hopen : regsOpen s = true) (henable : s.regs.fwinEnable = true)
    (htarget : inRange s.regs.fwinTarget 1 4094 = true) (hreach : reachable s s.regs.fwinTarget = true) :
    exec (.fabricWindowAccess write off size v) s = .next (if write then
      routePkt s none { dest := s.regs.fwinTarget, src := s.fabric.addr, kind := 7, payload := bytesLE 8 (s.regs.fwinBase / 2 ^ 24 * 2 ^ 24 + off % 2 ^ 24) ++ bytesLE size v }
    else routePkt (windowReading s off size) none { dest := s.regs.fwinTarget, src := s.fabric.addr, kind := 8, payload := remoteHead (s.regs.fwinBase / 2 ^ 24 * 2 ^ 24 + off % 2 ^ 24) ++ bytesLE 4 size ++ bytesLE 4 s.regs.winSeq }) :=
  congrArg Host.Outcome.next ((if_neg (by simp [hopen])).trans (if_neg (by simp [henable, htarget, hreach])))

/-- An interrupt that is not in the FIFO enters it while there is room (R449). -/
theorem takeInterrupt_new {f : Firq} {src vector : Nat} (hf : f = { src, vector }) (hnew : f ∉ s.regs.firq) (hroom : s.regs.firq.length < 64) :
    takeInterrupt s src vector = raiseEntry { s with regs := { s.regs with firq := s.regs.firq ++ [f] } } 16 := by
  subst hf
  exact (if_neg (by simpa using hnew)).trans (if_neg (by omega))

theorem takeInterrupt_pending {f : Firq} {src vector : Nat} (hf : f = { src, vector }) (hpending : f ∈ s.regs.firq) : takeInterrupt s src vector = s := by
  subst hf
  exact if_pos (by simpa using hpending)

theorem takeInterrupt_full {f : Firq} {src vector : Nat} (hf : f = { src, vector }) (hnew : f ∉ s.regs.firq) (hfull : 64 ≤ s.regs.firq.length) :
    takeInterrupt s src vector = { s with regs := { s.regs with firqOverflow := true } } := by
  subst hf
  exact (if_neg (by simpa using hnew)).trans (if_pos hfull)

end Sys2Proof.Machine
end

section
namespace Sys2Proof.Machine
open Sys2Proof

/-- Settles O34. -/
theorem fabricWindow : Obligations.FabricWindow := by
  unfold Obligations.FabricWindow
  refine ⟨fun s off size v hopen henable htarget hreach => execFabricWindowAccess_open hopen henable htarget hreach,
    fun s off size v hopen henable htarget hreach => leaves_of_kept (execFabricWindowAccess_open hopen henable htarget hreach) (kept_routePkt ..),
    fun s w off size v hopen hdisable => ?_, fun s w rest hreads hpassed => ?_, fun s u port pkt q w htake hfind => ?_,
    fun s u port pkt q a htake ha hspace hunit hlen hallowed => ?_, fun s u port pkt q a n htake ha hn hspace hunit hpos hallowed hgood => ?_,
    fun s u port pkt q f htake hf hnew hroom => ?_, fun s u port pkt q f htake hf hpending => ?_, fun s u port pkt q f htake hf hnew hfull => ?_,
    fun s u port kind bits l q hport hstate hlanes hparse hkind hvc hdest hroute => takeMgmt_local hport hstate hlanes hparse hkind hvc hdest hroute⟩
  · refine congrArg Host.Outcome.next ((if_neg (by simp [hopen])).trans ((if_pos (by simp [hdisable])).trans ?_))
    cases w <;> simp [emit]
  · show execFabricWindowReadTimeout s = _
    unfold execFabricWindowReadTimeout
    rw [hreads]
    exact congrArg Host.Outcome.next (if_neg (by simp [hpassed]))
  · show execRemoteData port pkt s = _
    unfold execRemoteData
    rw [htake]
    simp only [hfind]
    rfl
  · have hne : a ≠ claimAddr := fun h => by rw [h, inRegSpace_claimAddr] at hspace; cases hspace
    have hlength : (q.payload.drop 8).length = q.payload.length - 8 := List.length_drop
    exact (execRemoteWrite_eq htake ha hne).trans (congrArg Host.Outcome.next (writeUnits_allowed hspace (by rw [hlength]; exact hunit) (by omega) hallowed))
  · subst ha hn
    show execRemoteRead port pkt s = _
    unfold execRemoteRead
    rw [htake]
    dsimp only
    rw [readUnits_allowed hspace hunit hpos hallowed hgood]
  · exact leaves_of_kept ((execInterruptPacket_eq htake).trans (congrArg Host.Outcome.next (takeInterrupt_new hf hnew hroom))) ((steady_kept _).raiseEntry _ rfl)
  · exact (execInterruptPacket_eq htake).trans (congrArg Host.Outcome.next (takeInterrupt_pending hf hpending))
  · exact (execInterruptPacket_eq htake).trans (congrArg Host.Outcome.next (takeInterrupt_full hf hnew hfull))

end Sys2Proof.Machine
end

section
/-! O35: headless devices, claims and loopback. -/
namespace Sys2Proof.Machine
open Sys2Proof

/-- A state with a given ledger. -/
def withLedger (l : LedgerSt) (s : State) : State := { s with ledger := l }

/-- What is kept, but for the ledger, is steady. -/
theorem steady_withLedger (l : LedgerSt) (e : State) : Steady fun t => kept (withLedger l t) = kept e where
  emit s o h := (steady_kept e).emit (withLedger l s) o h
  tod s p f h := (steady_kept e).tod (withLedger l s) p f h
  noRoute s n h := (steady_kept e).noRoute (withLedger l s) n h
  vectors s v h := (steady_kept e).vectors (withLedger l s) v h
  violation s v h := (steady_kept e).violation (withLedger l s) v h
  count s g u c n h := (steady_kept e).count (withLedger l s) g u c n h
  rings s i f hf h := (steady_kept e).rings (withLedger l s) i f hf h
  entry s i r b hr hs h := (steady_kept e).entry (withLedger l s) i r b hr hs h
  block s i x hw h := (steady_kept e).block (withLedger l s) i x hw h

/-- Host memory back in reach changes no more of the ledger than events that wait (R35, R358). -/
theorem kept_resumeHost (l : LedgerSt) (s : State) : kept (withLedger l (resumeHost s)) = kept (withLedger l s) := by
  have hsteady := steady_withLedger l (withLedger l s)
  refine forEach_keeps (fun t => kept (withLedger l t) = kept (withLedger l s)) _ _ _ (fun n t ht => ?_) ?_
  · exact hsteady.flushLiveness (fun _ _ h => h) n (hsteady.flushLost n (hsteady.flushWaiting n ht))
  · exact forEach_keeps (fun t => kept (withLedger l t) = kept (withLedger l s)) _ _ _ (fun e t ht => hsteady.raiseEntry e (hsteady.vectors t _ ht)) rfl

theorem ledger_of_kept {s t : State} (h : kept t = kept s) : t.ledger = s.ledger := read_kept (·.ledger) (fun _ => rfl) h

theorem eventless_resumeHost (s : State) (i : Nat) : eventless (getEntry (resumeHost s) i) = eventless (getEntry s i) := by
  have hkept : ∀ {t u : State}, kept u = kept t → eventless (getEntry u i) = eventless (getEntry t i) := fun h => by
    unfold getEntry; rw [ledger_of_kept h]
  refine (forEach_same (fun t => eventless (getEntry t i)) _ _ _ fun n t => ?_).trans
    (forEach_same (fun t => eventless (getEntry t i)) _ _ _ fun e t => hkept (((steady_kept t).raiseEntry e ((steady_kept t).vectors t _ rfl))))
  exact (eventless_flushLiveness ..).trans (hkept ((steady_kept t).flushLost n ((steady_kept t).flushWaiting n rfl)))

/-- The claim of a device is over. -/
def unclaimed (s : State) : State :=
  { s with regs := { s.regs with claim := none, lostAt := if s.regs.claim.isSome then none else s.regs.lostAt } }

theorem unclaimed_of_none {s : State} (hclaim : s.regs.claim = none) : unclaimed s = s := by
  have hregs : { s.regs with claim := none, lostAt := s.regs.lostAt } = s.regs := by rw [← hclaim]
  unfold unclaimed
  rw [hclaim]
  exact congrArg (fun r => { s with regs := r }) hregs

theorem kept_endClaim (s : State) : kept (endClaim s) = kept (unclaimed s) := by
  unfold endClaim
  split
  · next hclaim => rw [unclaimed_of_none hclaim]
  · next hclaim => exact (kept_post ..).trans (by unfold unclaimed; rw [hclaim]; rfl)

/-- The link reaches L0 (R352). -/
def linkRisen (s : State) : State := { s with regs := { s.regs with linkUp := true, reachedL0 := true, headless := false } }

/-- What O35 claims of a state in which host memory is back in reach. -/
theorem resumed_of_kept {s u e : State} (hkept : kept u = kept e) (hrings : e.rings = s.rings) (hmem : e.store.mem = s.store.mem) (hledger : e.ledger = s.ledger) :
    quiet { resumeHost u with ledger := s.ledger } = quiet e ∧ (∀ j, ringFixed (getRings (resumeHost u) j) = ringFixed (getRings s j)) ∧ sameBytes (resumeHost u) s ∧
      ∀ i, { getEntry (resumeHost u) i with ev := none } = { getEntry s i with ev := none } := by
  have hledger' : u.ledger = s.ledger := (ledger_of_kept hkept).trans hledger
  have hresumed : kept (withLedger s.ledger (resumeHost u)) = kept e := by
    rw [kept_resumeHost, ← hledger']
    exact hkept
  have hevents : ∀ i, eventless (getEntry (resumeHost u) i) = eventless (getEntry s i) := fun i => by
    rw [eventless_resumeHost, getEntry, hledger', getEntry]
  generalize resumeHost u = t at hresumed hevents ⊢
  have houtside : outside t = outside s := (outside_same (s := withLedger s.ledger t) rfl rfl).trans ((outside_of_kept hresumed).trans (outside_same hrings hmem))
  exact ⟨quiet_of_kept hresumed, fun j => congrFun ((fixedOf_of_kept hresumed).trans (fixedOf_same hrings)) j, sameBytes_of_outside houtside, hevents⟩

variable {s u : State} {port : Nat} {bits : List (List Bool)} {q : Pkt}

/-- A write to the claim register of a headless device claims it (R351, R352). -/
theorem execRemoteWrite_claim (htake : takeMgmt s port 7 bits = (u, some q)) (haddr : leAt q.payload 0 8 = claimAddr)
    (hallowed : weirDenied u 0 engFabric true claimAddr (q.payload.length - 8) = none) :
    exec (.remoteWrite port bits) s = .next (if u.regs.headless ∧ u.regs.claim = none then { u with regs := { u.regs with claim := some q.src, lostAt := none } } else u) := by
  show execRemoteWrite port bits s = _
  unfold execRemoteWrite
  rw [htake]
  refine congrArg Host.Outcome.next ((if_pos haddr).trans ?_)
  rw [haddr, List.length_drop, hallowed]

theorem execRemoteClaimLost_eq {a n : Nat} (hclaim : s.regs.claim = some a) (hlost : s.regs.lostAt = some n) (hpassed : passed s n 1000000000 = true) :
    exec .remoteClaimLost s = .next (endClaim s) := by
  show execRemoteClaimLost s = _
  unfold execRemoteClaimLost
  rw [hclaim, hlost]
  exact congrArg Host.Outcome.next (if_pos hpassed)

end Sys2Proof.Machine
end

section
namespace Sys2Proof.Machine
open Sys2Proof

/-- Settles O35. -/
theorem hostLink : Obligations.HostLink := by
  unfold Obligations.HostLink
  refine ⟨fun s hready hl0 hpassed => congrArg Host.Outcome.next (if_pos ⟨hready, by simp [hl0], hpassed⟩), fun s hl0 => congrArg Host.Outcome.next (if_neg (by simp [hl0])),
    fun s u port pkt q htake haddr hallowed hheadless hclaim => (execRemoteWrite_claim htake haddr hallowed).trans (congrArg Host.Outcome.next (if_pos ⟨hheadless, hclaim⟩)),
    fun s u port pkt q htake haddr hallowed hclaim => (execRemoteWrite_claim htake haddr hallowed).trans (congrArg Host.Outcome.next (if_neg fun h => hclaim h.2)),
    fun s a n hclaim hlost hpassed => ?_, fun s hlost => ?_, fun s hrange hperst hdown => ?_, fun s hup => congrArg Host.Outcome.next (if_pos hup), fun s hloop => ?_⟩
  · refine leaves_of_kept (execRemoteClaimLost_eq hclaim hlost hpassed) ((kept_endClaim s).trans ?_)
    unfold unclaimed; rw [hclaim]; rfl
  · show execRemoteClaimLost s = _
    unfold execRemoteClaimLost
    rw [hlost]
    cases s.regs.claim <;> rfl
  · exact ⟨_, congrArg Host.Outcome.next (if_pos ⟨hrange, hperst, by simp [hdown]⟩), resumed_of_kept (kept_endClaim (linkRisen s)) rfl rfl rfl⟩
  · exact ⟨_, congrArg Host.Outcome.next (if_pos hloop), resumed_of_kept (e := { s with regs := { s.regs with loopback := false } }) rfl rfl rfl rfl⟩

end Sys2Proof.Machine
end

section
/-! O36: the side band. -/
namespace Sys2Proof.Machine
open Sys2Proof

variable {s : State}

/-- Platform answers while 12 V is in range (R416, R452). -/
theorem smbAnswer_eq (h : s.power.inRange = true) (l : List Byte) : smbAnswer s l = { s with out := s.out ++ [.smbData l] } := if_pos h

theorem setSensors_eq {temps : List Int} (h : temps.length = 8) : setSensors s temps = { s with boot := { s.boot with sensors := temps } } := if_pos h

/-- The SEQ to come is past the newest record (R453). -/
theorem seqFrom_self (a : Nat) : seqFrom a a = true := by
  have hzero : (a + 2 ^ 32 - a % 2 ^ 32) % 2 ^ 32 = 0 := by omega
  unfold seqFrom
  rw [hzero]
  decide

theorem faultToRead_some {f : FaultRec} (h : s.boot.faults.find? (fun f => f.seq == s.smb.latchedSeq) = some f) : faultToRead s = some f := by
  unfold faultToRead; rw [h]

theorem faultToRead_none (hnext : s.smb.latchedSeq = s.boot.nextSeq) (h : s.boot.faults.find? (fun f => f.seq == s.smb.latchedSeq) = none) : faultToRead s = none := by
  unfold faultToRead
  rw [h, hnext]
  exact if_pos (seqFrom_self _)

theorem execSmbFaultRecord_eq (h : s.power.inRange = true) :
    exec .smbFaultRecord s = .next (match faultToRead s with
      | some f => emit { s with smb := { s.smb with latchedSeq := (f.seq + 1) % 2 ^ 32 } } (.smbData (bytesLE 32 (faultBits f)))
      | none => emit s (.smbData (List.replicate 32 0))) := congrArg Host.Outcome.next (if_neg (by simp [h]))

theorem execSmbFaultIndex_eq {i : Nat} (h : s.power.inRange = true) (hi : i < 64) :
    exec (.smbFaultIndex i) s = .next { s with smb := { s.smb with latchedSeq := ((s.boot.faults[i]?).map FaultRec.seq).getD s.boot.nextSeq } } :=
  congrArg Host.Outcome.next (if_neg (by simp [h]; omega))

/-- Settles O36. -/
theorem sideBand : Obligations.SideBand := by
  unfold Obligations.SideBand
  refine ⟨fun s h => ⟨?_, ?_, ?_, ?_⟩, fun s temps h hlength => ⟨?_, ?_⟩, fun s v h => ⟨?_, ?_, ?_⟩, fun s i f h hi hf => ?_, fun s i h hi hlength => ?_,
    fun s f h hf => ?_, fun s h hnext hnone => ?_, fun s v hv => congrArg Host.Outcome.next (if_neg hv), fun s h halert => ?_, fun s halert => ?_⟩
  iterate 4 exact congrArg Host.Outcome.next (smbAnswer_eq h _)
  · refine congrArg Host.Outcome.next ?_
    rw [setSensors_eq hlength]
    exact smbAnswer_eq (s := { s with boot := { s.boot with sensors := temps } }) h _
  · refine congrArg Host.Outcome.next ?_
    rw [setSensors_eq hlength]
    exact smbAnswer_eq (s := { s with boot := { s.boot with sensors := temps } }) h _
  iterate 3 exact congrArg Host.Outcome.next (smbAnswer_eq h _)
  · refine (execSmbFaultIndex_eq h hi).trans ?_
    rw [hf]
    rfl
  · refine (execSmbFaultIndex_eq h hi).trans ?_
    rw [List.getElem?_eq_none hlength]
    rfl
  · refine (execSmbFaultRecord_eq h).trans ?_
    rw [faultToRead_some hf]
    rfl
  · refine (execSmbFaultRecord_eq h).trans ?_
    rw [faultToRead_none hnext hnone]
    rfl
  · refine congrArg Host.Outcome.next ((if_pos (by simp [h, halert])).trans ?_)
    unfold emit
    simp only [List.append_assoc, List.singleton_append]
  · exact congrArg Host.Outcome.next (if_neg (by simp [halert]))

end Sys2Proof.Machine
end

section
/-! What the operations of start-up and of Lockkeeper keep: device states, firmware banks, fault records and the events that wait for Lockkeeper. -/
namespace Sys2Proof.Machine
open Sys2Proof

variable {s t : State}

/-- A change that reads no more than quiet keeps, and that leaves the rings and the memory, gives states that agree in what is kept. -/
theorem kept_apply (F : State → State) (hquiet : ∀ s, quiet (F s) = quiet (F (quiet s))) (hrings : ∀ s, (F s).rings = s.rings)
    (hmem : ∀ s, (F s).store.mem = s.store.mem) (h : kept t = kept s) : kept (F t) = kept (F s) := by
  refine kept_of ?_ ?_ ?_
  · rw [hquiet t, quiet_of_kept h, ← hquiet s]
  · exact (fixedOf_same (hrings t)).trans ((fixedOf_of_kept h).trans (fixedOf_same (hrings s)).symm)
  · exact (outside_same (hrings t) (hmem t)).trans ((outside_of_kept h).trans (outside_same (hrings s) (hmem s)).symm)

/-- A device in a state. -/
def inState (d : DevState) (s : State) : State := { s with boot := { s.boot with state := d } }

theorem inState_self : inState s.boot.state s = s := rfl

theorem kept_inState (d : DevState) (h : kept t = kept s) : kept (inState d t) = kept (inState d s) :=
  kept_apply (inState d) (fun _ => rfl) (fun _ => rfl) (fun _ => rfl) h

/-- A change of the device's state, but for pins and an interrupt (R445). -/
theorem kept_setDevState (s : State) (d : DevState) : kept (setDevState s d) = kept (inState d s) := by
  unfold setDevState
  refine iteInduction (motive := fun t : State => kept t = kept (inState d s)) (fun hd => by rw [← hd, inState_self]) fun _ => ?_
  have hraised : kept (raiseEntry (inState d s) 17) = kept (inState d s) := (steady_kept _).raiseEntry 17 rfl
  have hpin : ∀ (c : Prop) [Decidable c] (u : State) (o : Output), kept (if c then u else emit u o) = kept u := fun c _ u o =>
    iteInduction (motive := fun t : State => kept t = kept u) (fun _ => rfl) fun _ => rfl
  exact (hpin ..).trans ((hpin ..).trans hraised)

/-- A fault record posted when Lockkeeper runs and the device is READY, else still to come (R437). -/
def faultedNow (s : State) (kind unit detail : Nat) : State := faulted s kind unit detail (decide (s.boot.lk = .running) && decide (s.boot.state = .ready))

theorem kept_addFault (s : State) (kind unit detail : Nat) : kept (addFault s kind unit detail) = kept (faultedNow s kind unit detail) := by
  unfold faultedNow
  by_cases hpost : (decide (s.boot.lk = .running) && decide (s.boot.state = .ready)) = true
  · rw [hpost]
    exact (congrArg kept (if_pos hpost)).trans (kept_postEvent ..)
  · rw [eq_false_of_ne_true hpost]
    exact (congrArg kept (if_neg hpost)).trans rfl

/-- A fault record that no running Lockkeeper of a READY device posts is still to come. -/
theorem kept_addFault_owed (h : s.boot.lk ≠ .running ∨ s.boot.state ≠ .ready) (kind unit detail : Nat) :
    kept (addFault s kind unit detail) = kept (faulted s kind unit detail false) := by
  rw [kept_addFault, faultedNow]
  rcases h with h | h <;> simp [h]

theorem kept_faulted (kind unit detail : Nat) (p : Bool) (h : kept t = kept s) : kept (faulted t kind unit detail p) = kept (faulted s kind unit detail p) :=
  kept_apply (faulted · kind unit detail p) (fun _ => rfl) (fun _ => rfl) (fun _ => rfl) h

/-- A firmware bank in a state, without its image once it is INVALID. -/
def fwIn (b : Bool) (st : FwState) (s : State) : State := modFw s b fun x => { x with state := st, image := if st = .invalid then {} else x.image }

theorem fwIn_A {st : FwState} (h : st ≠ .invalid) (s : State) : fwIn false st s = { s with boot := { s.boot with bankA := { s.boot.bankA with state := st } } } := by
  simp [fwIn, modFw, h]

theorem fwIn_B {st : FwState} (h : st ≠ .invalid) (s : State) : fwIn true st s = { s with boot := { s.boot with bankB := { s.boot.bankB with state := st } } } := by
  simp [fwIn, modFw, h]

theorem kept_modFw (b : Bool) (f : FwBank → FwBank) (h : kept t = kept s) : kept (modFw t b f) = kept (modFw s b f) := by
  refine kept_apply (modFw · b f) (fun _ => ?_) (fun _ => ?_) (fun _ => ?_) h <;> cases b <;> rfl

/-- A change of a bank's state, but for its event (R429, R431). -/
theorem kept_setFw {b : Bool} {st : FwState} (h : (getFw s b).state ≠ st) (cause : Nat) : kept (setFw s b st cause) = kept (fwIn b st s) := by
  unfold setFw; dsimp only
  rw [if_neg h]
  exact kept_post ..

theorem getFw_of_kept (h : kept t = kept s) (b : Bool) : getFw t b = getFw s b :=
  read_kept (getFw · b) (fun _ => by cases b <;> rfl) h

theorem boot_of_kept {α : Type} (g : BootSt → α) (hg : ∀ x : BootSt, g { x with counters := [] } = g x) (h : kept t = kept s) : g t.boot = g s.boot :=
  read_kept (fun u => g u.boot) (fun u => hg u.boot) h

/-- Records posted are owed no more. -/
def posted (s : State) : State := { s with boot := { s.boot with unposted := [] } }

theorem kept_postFaults (s : State) : kept (postFaults s) = kept (posted s) :=
  forEach_keeps (fun u => kept u = kept (posted s)) _ _ (posted s) (fun q u hu => by
    split
    · exact (kept_postEvent ..).trans hu
    · exact hu) rfl

theorem kept_flushWaiting (s : State) (n : Nat) : kept (flushWaiting s n) = kept s := (steady_kept s).flushWaiting n rfl

/-- What was owed while Lockkeeper was down has been sent. -/
theorem kept_sendOwed (s : State) : kept (sendOwed s) = kept (posted s) := by
  refine (kept_postFaults _).trans (kept_apply posted (fun _ => rfl) (fun _ => rfl) (fun _ => rfl) ?_)
  exact forEach_keeps (fun u => kept u = kept s) _ _ _ (fun n u hu => (kept_flushWaiting u n).trans hu) rfl

/-! Which bank boots (R421, R430). -/

/-- The first bank boots when its image passes. -/
theorem tryBanks_pass {fail : Bool → Nat} {b : Bool} {r : List Bool} (hpass : fail b = 0) (hstate : (getFw s b).state ≠ .previous) :
    tryBanks fail (b :: r) s = (s, some b) := by
  rw [tryBanks, if_pos hpass, if_neg hstate]

theorem bootOrder_active (hA : s.boot.bankA.state = .active) (hB : s.boot.bankB.state ≠ .trial) : ∃ r, bootOrder s = false :: r := by
  simp [bootOrder, getFw, hA, hB]

theorem bootOrder_trial (hA : s.boot.bankA.state = .active) (hB : s.boot.bankB.state = .trial) : bootOrder s = [true, false] := by
  simp [bootOrder, getFw, hA, hB]

theorem bootOrder_single (hA : s.boot.bankA.state = .active) (hB : s.boot.bankB.state = .invalid) : bootOrder s = [false] := by
  simp [bootOrder, getFw, hA, hB]

/-- Lockkeeper starts from a bank. -/
def startedFrom (s : State) (b : Bool) : State :=
  { s with boot := { s.boot with running := b, lk := .running, trialRunning := (getFw s b).state == .trial, trialAt := upTime s } }

theorem execBootRomVerifyComplete_eq {aFail bFail : Nat} (hrange : s.power.inRange = true) (hrst : s.regs.rst = false) (hstate : s.boot.state = .bootRom)
    (hrunning : s.time.running = true) :
    exec (.bootRomVerifyComplete aFail bFail) s = .next (match tryBanks (fun b => if b then bFail else aFail) (bootOrder s) s with
      | (s, none) => setDevState s .bootFailed
      | (s, some b) => setDevState (startedFrom s b) .storeTraining) :=
  congrArg Host.Outcome.next (if_neg (by simp [hrange, hrst, hstate, hrunning]))

/-- A bank without faults that are found boots: Lockkeeper starts from it. -/
theorem execBootRomVerifyComplete_pass {aFail bFail : Nat} {b : Bool} {r : List Bool} (hrange : s.power.inRange = true) (hrst : s.regs.rst = false)
    (hstate : s.boot.state = .bootRom) (hrunning : s.time.running = true) (horder : bootOrder s = b :: r) (hpass : (if b then bFail else aFail) = 0)
    (hprevious : (getFw s b).state ≠ .previous) : Leaves (.bootRomVerifyComplete aFail bFail) s (inState .storeTraining (startedFrom s b)) := by
  refine leaves_of_kept (execBootRomVerifyComplete_eq hrange hrst hstate hrunning) ?_
  rw [horder, tryBanks_pass (fail := fun b => if b then bFail else aFail) hpass hprevious]
  exact kept_setDevState ..

/-! A Lockkeeper that runs confirms its bank (R430, R431). -/

/-- Lockkeeper's bank is no trial any more. -/
def confirmed (s : State) : State := { s with boot := { s.boot with trialRunning := false } }

/-- A bank found STAGING or VERIFIED is INVALID (R431). -/
def sweptBanks (s : State) : State :=
  forEach [false, true] (fun b s => if (getFw s b).state = .staging ∨ (getFw s b).state = .verified then addFault (setFw s b .invalid 2) 0xB b.toNat 0 else s) s

theorem sweptBanks_idle (hbanks : ∀ b, (getFw s b).state ≠ .staging ∧ (getFw s b).state ≠ .verified) : sweptBanks s = s := by
  have hfilter : ∀ b, ¬ ((getFw s b).state = .staging ∨ (getFw s b).state = .verified) := fun b h => h.elim (hbanks b).1 (hbanks b).2
  simp only [sweptBanks, forEach, List.foldl_cons, List.foldl_nil, if_neg (hfilter _)]

/-- With no bank STAGING or VERIFIED, and no trial, nothing is left to confirm. -/
theorem confirmBanks_idle (htrial : s.boot.trialRunning = false) (hbanks : ∀ b, (getFw s b).state ≠ .staging ∧ (getFw s b).state ≠ .verified) :
    confirmBanks s = s := by
  have hsame : confirmed s = s := by unfold confirmed; rw [← htrial]
  unfold confirmBanks; dsimp only
  rw [if_neg (by simp [htrial])]
  change sweptBanks (confirmed s) = s
  rw [hsame, sweptBanks_idle hbanks]

/-- A trial of bank B that has run is confirmed: B is ACTIVE, and A PREVIOUS (R430). -/
theorem kept_confirmBanks_trial (htrial : s.boot.trialRunning = true) (hrunning : s.boot.running = true) (hA : s.boot.bankA.state = .active)
    (hB : s.boot.bankB.state = .trial) : kept (confirmBanks s) = kept (confirmed (fwIn true .active (fwIn false .previous s))) := by
  have hprevious : kept (setFw s false .previous 4) = kept (fwIn false .previous s) :=
    kept_setFw (by rw [show (getFw s false).state = _ from hA]; exact FwState.noConfusion) 4
  have hB' : (getFw (setFw s false .previous 4) true).state = .trial := by rw [getFw_of_kept hprevious]; exact hB
  have hactive : kept (setFw (setFw s false .previous 4) true .active 4) = kept (fwIn true .active (fwIn false .previous s)) :=
    (kept_setFw (by rw [hB']; exact FwState.noConfusion) 4).trans (kept_modFw _ _ hprevious)
  have hconfirmed := kept_apply confirmed (fun _ => rfl) (fun _ => rfl) (fun _ => rfl) hactive
  unfold confirmBanks; dsimp only
  rw [hrunning, if_pos (by simp [htrial, getFw, hB]), if_pos (by simpa [getFw] using hA)]
  change kept (sweptBanks (confirmed (setFw (setFw s false .previous 4) true .active 4))) = _
  rw [sweptBanks_idle, hconfirmed]
  intro b
  rw [getFw_of_kept hconfirmed]
  cases b <;> exact ⟨FwState.noConfusion, FwState.noConfusion⟩

end Sys2Proof.Machine
end

section
/-! O37: from power to READY. -/
namespace Sys2Proof.Machine
open Sys2Proof

variable {s : State}

/-- The machine that 12 V finds, before its first record (R416). -/
def powered (s : State) : State :=
  { keepFlash s with power := { (keepFlash s).power with inRange := true }, boot := { (keepFlash s).boot with resets := 1 } }

theorem powerOn_eq (s : State) : powerOn s = { powered s with
    boot := { (powered s).boot with
      faults := [{ kind := 1, unit := 0, seq := 1, wp := 0, resets := 1, uptime := 0, detail := 1, overwritten := 0 }]
      nextSeq := 2
      unposted := [1] }
    smb := { (powered s).smb with alert := true }
    out := s.out ++ [.pin 32 false] } := by
  have hwp : nowBits (powered s) = 0 := by
    rw [nowBits, show now (powered s) = {} from rfl]
    decide
  have huptime : uptimeMs (powered s) = 0 := by
    have htime : upTime (powered s) = 0 := rfl
    simp [uptimeMs, htime]
  have hadd : powerOn s = addFault (powered s) 1 0 1 := rfl
  rw [hadd]
  unfold addFault
  rw [hwp, huptime]
  rfl

/-- READY is reached (R416). -/
def readied (s : State) : State := { s with boot := { s.boot with wasReady := true, readyAt := upTime s } }

theorem execDeviceReady_eq (hstate : s.boot.state = .fwInit) (hfilled : s.boot.filled = true) :
    exec .deviceReady s = .next (confirmBanks (postFaults (setDevState (readied s) .ready))) :=
  congrArg Host.Outcome.next (if_neg (by simp [hstate, hfilled]))

theorem kept_ready (s : State) : kept (postFaults (setDevState (readied s) .ready)) = kept (posted (inState .ready (readied s))) :=
  (kept_postFaults _).trans (kept_apply posted (fun _ => rfl) (fun _ => rfl) (fun _ => rfl) (kept_setDevState ..))

/-- An image of zeros enables no output (R420). -/
theorem bootDisplay_empty (h : s.boot.display = []) : bootDisplay s = s := by
  refine forEach_keeps (fun t => t = s) _ _ _ (fun k t ht => ?_) rfl
  subst ht
  rw [h]
  simp [bootOutput, natLE]

theorem kept_enterFault (hstate : s.boot.state ≠ .deviceFault) (htrip : s.boot.state ≠ .thermalTrip) (hrange : s.power.inRange = true) (cause : Nat) :
    kept (enterFault s cause) = kept (faulted { s with boot := { s.boot with state := .deviceFault, lk := .halted } } 3 0 cause false) := by
  have hset : kept (setDevState { s with boot := { s.boot with lk := .halted } } .deviceFault) = kept (inState .deviceFault { s with boot := { s.boot with lk := .halted } }) :=
    kept_setDevState ..
  have hlk := boot_of_kept BootSt.lk (fun _ => rfl) hset
  unfold enterFault
  rw [if_neg (by simp [hstate, htrip, hrange])]
  exact (kept_addFault_owed (.inl (by rw [hlk]; exact LkState.noConfusion)) 3 0 cause).trans (kept_faulted _ _ _ _ hset)

/-- The image that fails is INVALID, with its record (R421). -/
theorem kept_bootFailed {f : Nat} (hlk : s.boot.lk = .halted) (hA : s.boot.bankA.state = .active) :
    kept (setDevState (addFault (setFw s false .invalid 5) 0xA 0 f) .bootFailed) =
      kept (faulted { s with boot := { s.boot with state := .bootFailed, bankA := { s.boot.bankA with state := .invalid, image := {} } } } 0xA 0 f false) := by
  have hset : kept (setFw s false .invalid 5) = kept (fwIn false .invalid s) := kept_setFw (by rw [show (getFw s false).state = _ from hA]; exact FwState.noConfusion) 5
  have hlk' := boot_of_kept BootSt.lk (fun _ => rfl) hset
  have hfault := (kept_addFault_owed (.inl (by rw [hlk', show (fwIn false .invalid s).boot.lk = _ from hlk]; exact LkState.noConfusion)) 0xA 0 f).trans (kept_faulted 0xA 0 f false hset)
  exact (kept_setDevState ..).trans (kept_inState _ hfault)

end Sys2Proof.Machine
end

section
namespace Sys2Proof.Machine
open Sys2Proof

/-- Settles O37. -/
theorem startUp : Obligations.StartUp := by
  unfold Obligations.StartUp
  refine ⟨fun s hrange => congrArg Host.Outcome.next ((if_neg (by simp [hrange])).trans (powerOn_eq s)), fun s hrange hrst htrip hrunning => congrArg Host.Outcome.next (if_pos (by simp [hrange, hrst, htrip, hrunning])),
    fun s f hrange hrst hstate hrunning hA hB => ?_, fun s f hrange hrst hstate hrunning hA hB => ?_, fun s f g hrange hrst hstate hrunning hlk hA hB hf => ?_,
    fun s hstate => ?_, fun s hstate hrange => ?_, fun s hstate hfilled hdisplay => ?_, fun s hstate hfilled htrial hbanks => ?_, fun s hstate hfilled htrial hrunning hB hA => ?_⟩
  · obtain ⟨r, horder⟩ := bootOrder_active hA hB
    have hpass := execBootRomVerifyComplete_pass (aFail := 0) (bFail := f) hrange hrst hstate hrunning horder rfl (by rw [show (getFw s false).state = _ from hA]; exact FwState.noConfusion)
    have htrial : ((getFw s false).state == FwState.trial) = false := by rw [show (getFw s false).state = _ from hA]; rfl
    unfold startedFrom at hpass
    rw [htrial] at hpass
    exact hpass
  · have hpass := execBootRomVerifyComplete_pass (aFail := f) (bFail := 0) hrange hrst hstate hrunning (bootOrder_trial hA hB) rfl (by rw [show (getFw s true).state = _ from hB]; exact FwState.noConfusion)
    have htrial : ((getFw s true).state == FwState.trial) = true := by rw [show (getFw s true).state = _ from hB]; rfl
    unfold startedFrom at hpass
    rw [htrial] at hpass
    exact hpass
  · refine leaves_of_kept (execBootRomVerifyComplete_eq (aFail := f) (bFail := g) hrange hrst hstate hrunning) ?_
    rw [bootOrder_single hA hB, tryBanks, if_neg (by simpa using hf), tryBanks]
    exact kept_bootFailed hlk hA
  · exact leaves_of_kept (congrArg Host.Outcome.next ((if_neg (by simp [hstate])).trans (if_pos rfl))) (kept_setDevState ..)
  · exact leaves_of_kept (congrArg Host.Outcome.next ((if_neg (by simp [hstate])).trans (if_neg Bool.false_ne_true)))
      (kept_enterFault (by simp [hstate]) (by simp [hstate]) hrange 3)
  · exact congrArg Host.Outcome.next ((if_neg (by simp [hstate, hfilled])).trans ((if_neg (by simp)).trans (bootDisplay_empty hdisplay)))
  · have hready := kept_ready s
    refine leaves_of_kept (execDeviceReady_eq hstate hfilled) ?_
    rw [confirmBanks_idle ((boot_of_kept BootSt.trialRunning (fun _ => rfl) hready).trans htrial) fun b => by rw [getFw_of_kept hready]; exact hbanks b]
    exact hready
  · have hready := kept_ready s
    refine leaves_of_kept (execDeviceReady_eq hstate hfilled) ?_
    rw [kept_confirmBanks_trial ((boot_of_kept BootSt.trialRunning (fun _ => rfl) hready).trans htrial) ((boot_of_kept BootSt.running (fun _ => rfl) hready).trans hrunning)
      ((boot_of_kept (fun x => x.bankA.state) (fun _ => rfl) hready).trans hA) ((boot_of_kept (fun x => x.bankB.state) (fun _ => rfl) hready).trans hB)]
    refine (kept_apply confirmed (fun _ => rfl) (fun _ => rfl) (fun _ => rfl) (kept_modFw true _ (kept_modFw false _ hready))).trans ?_
    change kept (confirmed (fwIn true .active (fwIn false .previous (posted (inState .ready (readied s)))))) = _
    rw [fwIn_A FwState.noConfusion, fwIn_B FwState.noConfusion]
    rfl

end Sys2Proof.Machine
end

section
/-! O38: what a device reset leaves, and what causes one. -/
namespace Sys2Proof.Machine
open Sys2Proof

variable {s : State}

/-- A state in which some outputs were added. -/
def Emits (s t : State) : Prop := ∃ o, t = { s with out := s.out ++ o }

theorem Emits.refl (s : State) : Emits s s := ⟨[], by rw [List.append_nil]⟩

theorem Emits.emit {s t : State} (h : Emits s t) (x : Output) : Emits s (emit t x) := by
  obtain ⟨o, rfl⟩ := h
  exact ⟨o ++ [x], by unfold Machine.emit; rw [← List.append_assoc]⟩

theorem Emits.emitIf {s t : State} (h : Emits s t) (b : Bool) (x : Output) : Emits s (if b then Machine.emit t x else t) :=
  iteInduction (motive := fun t : State => Emits s t) (fun _ => h.emit x) fun _ => h

theorem Emits.forEach {α : Type} {s t : State} (h : Emits s t) (l : List α) (f : α → State → State) (hf : ∀ a u, Emits s u → Emits s (f a u)) :
    Emits s (forEach l f t) := forEach_keeps (Emits s) l f t hf h

/-- Pins that a reset drives (R426). -/
theorem emits_resetPins (s : State) : Emits s (resetPins s) := by
  unfold resetPins
  extract_lets low refs dpins ports t ready fabric
  have hlow : ∀ p b u, Emits s u → Emits s (low p b u) := fun p b u hu => hu.emitIf b _
  have hrefs : Emits s refs := hlow _ _ _ (hlow _ _ _ (Emits.refl s))
  have hports : Emits s ports := (hrefs.forEach _ _ fun _ _ => hlow _ _ _).forEach _ _ fun _ _ => hlow _ _ _
  exact (hlow _ _ _ (hlow _ _ _ hports)).emitIf _ _

/-- A fault record that is not posted yet (R437). -/
theorem addFault_owed (h : s.boot.lk ≠ .running ∨ s.boot.state ≠ .ready) (kind unit detail : Nat) :
    addFault s kind unit detail = emit (faulted s kind unit detail false) (.pin 32 false) :=
  (if_neg (by rcases h with h | h <;> simp [assertAlert, Machine.emit, h])).trans rfl

/-- The device as its reset takes its record, after the pins. -/
def resetting (s : State) : State :=
  { s with boot := { s.boot with state := .bootRom, lk := .halted, resets := (s.boot.resets + 1) % 2 ^ 32 } }

/-- What is left of a device whose reset has its record. -/
def afterReset (s : State) : State :=
  { keepFlash s with
    boot := { (keepFlash s).boot with
      faults := s.boot.faults, nextSeq := s.boot.nextSeq, overwritten := s.boot.overwritten, resets := s.boot.resets, unposted := s.boot.unposted }
    smb := { (keepFlash s).smb with alert := s.smb.alert } }

theorem deviceReset_eq (s : State) (cause : Nat) :
    deviceReset s cause = afterReset (emit (faulted (resetting (resetPins s)) 1 0 cause false) (.pin 32 false)) := by
  have hsplit : deviceReset s cause = afterReset (addFault (resetting (resetPins s)) 1 0 cause) := rfl
  rw [hsplit, addFault_owed (.inl LkState.noConfusion)]

theorem requestReset_eq (hrange : s.power.inRange = true) (htrip : s.boot.state ≠ .thermalTrip) (cause : Nat) : requestReset s cause = deviceReset s cause := by
  unfold requestReset
  rw [if_neg (by simp [hrange]), if_neg fun h => htrip h.1]

/-- In THERMAL_TRIP a request waits for the sensors (R425). -/
theorem requestReset_held (hrange : s.power.inRange = true) (htrip : s.boot.state = .thermalTrip) (hhot : 1000 ≤ hottest s.boot.sensors)
    (hnone : s.boot.heldReset = none) (cause : Nat) : requestReset s cause = { s with boot := { s.boot with heldReset := some cause } } := by
  unfold requestReset
  rw [if_neg (by simp [hrange]), if_pos ⟨htrip, hhot⟩, hnone]

/-- The sensors measured, and WARN_N with them (R465). -/
theorem boot_measureSensors {temps : List Int} (h : temps.length = 8) : (measureSensors s temps).boot = { s.boot with sensors := temps } := by
  have hdrive : ∀ (u : State) (was : Bool), (driveWarn u was).boot = u.boot := fun u was =>
    iteInduction (motive := fun t : State => t.boot = u.boot) (fun _ => rfl) fun _ => rfl
  unfold measureSensors
  rw [hdrive, setSensors_eq h]

end Sys2Proof.Machine
end

section
namespace Sys2Proof.Machine
open Sys2Proof

/-- Settles O38. -/
theorem resets : Obligations.Resets := by
  unfold Obligations.Resets
  refine ⟨fun s cause => ?_, fun s hrange hrst htrip => ?_, fun s => rfl, fun s hrange hperst htrip => ?_, fun s => rfl, fun s hrange hup htrip => ?_,
    fun s hdelay hpassed => ?_, fun s hrange htrip => ?_, fun s hrange htrip hhot hnone => ?_, fun s temps cause htrip hheld hlength hcool => ?_, fun s hrange => ?_⟩
  · obtain ⟨o, hpins⟩ := emits_resetPins s
    refine ⟨o ++ [.pin 32 false], ?_⟩
    rw [deviceReset_eq, hpins, ← List.append_assoc]
    rfl
  · exact congrArg Host.Outcome.next ((if_neg (by simp [hrst])).trans (requestReset_eq (s := { s with regs := { s.regs with rst := true } }) hrange htrip 2))
  · exact congrArg Host.Outcome.next ((if_pos hperst).trans
      (requestReset_eq (s := { s with regs := { s.regs with perst := false, linkUp := false, loopback := false } }) hrange htrip 3))
  · exact congrArg Host.Outcome.next (if_pos ⟨hrange, hup, htrip⟩)
  · exact congrArg Host.Outcome.next (if_pos (by simp [hdelay, hpassed]))
  · exact congrArg Host.Outcome.next ((if_pos rfl).trans (requestReset_eq hrange htrip 6))
  · exact congrArg Host.Outcome.next ((if_pos rfl).trans (requestReset_held hrange htrip hhot hnone 6))
  · have hboot := boot_measureSensors (s := s) hlength
    refine ⟨_, ?_, rfl⟩
    show execHeldResetRelease temps s = _
    unfold execHeldResetRelease
    dsimp only
    rw [hboot]
    dsimp only
    rw [hheld]
    exact congrArg Host.Outcome.next (if_pos ⟨htrip, hcool⟩)
  · obtain ⟨o, hpins⟩ := emits_resetPins s
    refine ⟨_, congrArg Host.Outcome.next (if_pos hrange), ?_⟩
    rw [hpins]
    rfl

end Sys2Proof.Machine
end

section
/-! A Lockkeeper that goes down answers what it had not committed (R73, R423). -/
namespace Sys2Proof.Machine
open Sys2Proof

variable {s t : State}

theorem waiting_sendReply {j i : Nat} {r q : Reply} (h : r ∈ (getRings s j).waiting) : r ∈ (getRings (sendReply s i q) j).waiting := by
  have hguard := (calm_waiting j r).guardReply i h
  unfold sendReply; dsimp only
  refine iteInduction (motive := fun t : State => r ∈ (getRings t j).waiting) (fun _ => (calm_waiting j r).pushEntry i false _ hguard) fun _ => ?_
  rw [getRings_modRings]
  split
  · next hj => subst hj; exact List.mem_append_left _ hguard
  · exact hguard

/-- A reply of Lockkeeper's waits while Lockkeeper does not run (R428). -/
theorem sendReply_waits (hlk : s.boot.lk ≠ .running) (i : Nat) {r : Reply} (hr : r.lk = true) : r ∈ (getRings (sendReply s i r) i).waiting := by
  have hboot : (guardReply s i).boot.lk = s.boot.lk := boot_of_kept BootSt.lk (fun _ => rfl) ((steady_kept s).guardReply i rfl)
  have hready : replyReady (guardReply s i) r = false := by simp [replyReady, hr, hboot, hlk]
  unfold sendReply; dsimp only
  rw [if_neg (by simp [hready]), getRings_modRings, if_pos rfl]
  exact List.mem_append_right _ (List.mem_singleton_self r)

theorem waiting_dropHeld (s : State) (k : CmdKey) (j : Nat) : (getRings (dropHeld s k) j).waiting = (getRings s j).waiting := by
  unfold dropHeld
  rw [getRings_modRings]
  split
  · next hj => rw [hj]
  · rfl

theorem waiting_modTag (s : State) (slice ring tag : Nat) (f : TagRec → Option TagRec) (j : Nat) :
    (getRings (modTag s slice ring tag f) j).waiting = (getRings s j).waiting := by
  unfold modTag
  rw [getRings_modRings]
  split
  · next hj => rw [hj]
  · rfl

theorem waiting_finish {j : Nat} {r : Reply} (h : r ∈ (getRings s j).waiting) (x : Held) (st : Status) (w d : Nat) :
    r ∈ (getRings (finish s x st w d) j).waiting := by
  have htag : ∀ f : TagRec → Option TagRec, r ∈ (getRings (modTag (dropHeld s (heldKey x)) x.slice x.ring (pktTag x.pkt) f) j).waiting := fun f => by
    rw [waiting_modTag, waiting_dropHeld]
    exact h
  unfold finish; dsimp only
  exact iteInduction (motive := fun t : State => r ∈ (getRings t j).waiting) (fun _ => htag _) fun _ => waiting_sendReply (htag _)

/-- The end of a command holds no packet that was not held. -/
theorem findHeld_finish_none {k : CmdKey} (h : findHeld s k = none) (x : Held) (st : Status) (w d : Nat) : findHeld (finish s x st w d) k = none := by
  have hdrop : findHeld (dropHeld s (heldKey x)) k = none := by
    unfold findHeld dropHeld at *
    rw [getRings_modRings]
    split
    · next hslice =>
      rw [List.find?_eq_none] at *
      exact fun y hy => h y (by rw [hslice]; exact (List.mem_filter.1 hy).1)
    · exact h
  rw [findHeld_of_fixedOf (fixedOf_finish s x st w d), ← hdrop]
  refine findHeld_congr k ?_
  unfold modTag
  rw [getRings_modRings]
  split
  · next hslice => rw [hslice]
  · rfl

/-- A packet that is held stands in the table of the rings. -/
theorem mem_held_of_find {k : CmdKey} {h : Held} (hf : findHeld s k = some h) : h ∈ s.rings.flatMap fun e => e.2.held := by
  have hmem : h ∈ (getRings s k.slice).held := List.mem_of_find?_eq_some hf
  have hne : tget {} s.rings k.slice ≠ {} := fun h0 => by
    rw [getRings, h0] at hmem
    cases hmem
  exact List.mem_flatMap.2 ⟨_, mem_of_tget_ne _ _ _ hne, hmem⟩

/-- What becomes of a packet when Lockkeeper goes down. -/
def interrupted (h : Held) (s : State) : State :=
  if h.phase = .taken ∧ !opIsQe (pktOpcode h.pkt) then finishNow s h .engineFault [fAt 16 0 8 1] else s

theorem interruptHeld_eq (s : State) : interruptHeld s = forEach (s.rings.flatMap fun e => e.2.held) interrupted s := rfl

theorem quiet_interrupted (h : Held) (s : State) : quiet (interrupted h s) = quiet s :=
  iteInduction (motive := fun t : State => quiet t = quiet s) (fun _ => quiet_finishNow ..) fun _ => rfl

theorem quiet_interruptHeld (s : State) : quiet (interruptHeld s) = quiet s := quiet_forEach _ _ _ quiet_interrupted

/-- A packet is held no more, and its answer waits (R73). -/
def Interrupted (k : CmdKey) (r : Reply) (s : State) : Prop := findHeld s k = none ∧ r ∈ (getRings s k.slice).waiting

/-- Each packet that Lockkeeper had taken and not committed is answered once Lockkeeper runs again (R423, R428). -/
theorem interruptHeld_answers {k : CmdKey} {h : Held} (hlk : s.boot.lk ≠ .running) (hf : findHeld s k = some h) (hk : heldKey h = k) (hphase : h.phase = .taken)
    (hqe : opIsQe (pktOpcode h.pkt) = false) : Interrupted k (mkReply h .engineFault (nowBits s) (packFields [fAt 16 0 8 1])) (interruptHeld s) := by
  subst hk
  rw [interruptHeld_eq]
  refine (forEach_brings (P := fun t => quiet t = quiet s) (fun x t ht => (quiet_interrupted x t).trans ht) (fun t ht => ?_) (fun x t _ hq => ?_) (mem_held_of_find hf) rfl).2
  · have hlk' : t.boot.lk = s.boot.lk := quiet_eq (fun u => u.boot.lk) (fun _ => rfl) ht
    have hnow : nowBits t = nowBits s := nowBits_of_time (quiet_eq (·.time) (fun _ => rfl) ht)
    unfold interrupted
    rw [if_pos ⟨hphase, by simp [hqe]⟩, finishNow, hnow]
    refine ⟨findHeld_finish .., ?_⟩
    unfold finish; dsimp only
    rw [if_neg (by simp [hqe])]
    exact sendReply_waits (s := modTag (dropHeld t (heldKey h)) h.slice h.ring (pktTag h.pkt) _) (fun hrun => hlk (hlk'.symm.trans hrun)) h.slice (by simp [mkReply, hqe])
  · exact iteInduction (motive := Interrupted (heldKey h) _) (fun _ => ⟨findHeld_finish_none hq.1 .., waiting_finish hq.2 ..⟩) fun _ => hq

end Sys2Proof.Machine
end

section
/-! O39: Lockkeeper restarts, faults and temperatures. -/
namespace Sys2Proof.Machine
open Sys2Proof

variable {s t : State}

/-- The watchdog resets of the last 60 s (R424). -/
def recentDogs (s : State) : List Nat := s.boot.dogTimes.filter fun x => decide (uptimeMs s < x + 60000)

/-- Lockkeeper restarts, and the time of its reset is noted. -/
def dogBitten (s : State) : State := { s with boot := { s.boot with lk := .restarting, dogTimes := uptimeMs s :: recentDogs s } }

theorem execLockkeeperWatchdogExpiry_eq {n : Nat} (hlk : s.boot.lk = .running) :
    exec (.lockkeeperWatchdogExpiry n) s = .next (if 2 ≤ (recentDogs s).length then enterFault (addFault (interruptHeld (dogBitten s)) 2 n 0) 1
      else addFault (interruptHeld (dogBitten s)) 2 n 0) := congrArg Host.Outcome.next (if_neg (by simp [hlk]))

theorem lk_dogBitten (s : State) : (interruptHeld (dogBitten s)).boot.lk = .restarting := quiet_eq (fun u => u.boot.lk) (fun _ => rfl) (quiet_interruptHeld (dogBitten s))

theorem addFault_dogBitten (s : State) (n : Nat) :
    addFault (interruptHeld (dogBitten s)) 2 n 0 = emit (faulted (interruptHeld (dogBitten s)) 2 n 0 false) (.pin 32 false) :=
  addFault_owed (.inl (by rw [lk_dogBitten]; exact LkState.noConfusion)) 2 n 0

theorem quiet_addFault_dogBitten (s : State) (n : Nat) : quiet (addFault (interruptHeld (dogBitten s)) 2 n 0) = quiet (faulted (dogBitten s) 2 n 0 false) := by
  have hcongr : ∀ u : State, quiet (faulted u 2 n 0 false) = quiet (faulted (quiet u) 2 n 0 false) := fun _ => rfl
  rw [addFault_dogBitten]
  change quiet (faulted (interruptHeld (dogBitten s)) 2 n 0 false) = _
  rw [hcongr, quiet_interruptHeld]
  rfl

/-- The newest record of a state with a fault added (R437). -/
theorem getLast_faulted (s : State) (kind unit detail : Nat) (p : Bool) :
    ((faulted s kind unit detail p).boot.faults.getLast?.map fun f => (f.kind, f.detail)) = some (kind, detail) := by
  unfold faulted
  simp only [List.getLast?_append, List.getLast?_singleton, Option.some_or, Option.map_some]

/-! A bank that gives way to the other (R421, R430). -/

/-- The state once the running bank A has failed, with its record. -/
def imageFailed (s : State) (f : Nat) : State := addFault (setFw s false .invalid 5) 0xA 0 f

theorem kept_restartFailed {f : Nat} (hlk : s.boot.lk = .restarting) (hA : s.boot.bankA.state ≠ .invalid) :
    kept (imageFailed s f) = kept (faulted (fwIn false .invalid s) 0xA 0 f false) := by
  have hset : kept (setFw s false .invalid 5) = kept (fwIn false .invalid s) := kept_setFw (s := s) (b := false) hA 5
  have hlk' := boot_of_kept BootSt.lk (fun _ => rfl) hset
  exact (kept_addFault_owed (.inl (by rw [hlk', show (fwIn false .invalid s).boot.lk = _ from hlk]; exact LkState.noConfusion)) 0xA 0 f).trans (kept_faulted 0xA 0 f false hset)

/-- Lockkeeper goes on from bank B. -/
def restartedFrom (b trial : Bool) (s : State) : State := { s with boot := { s.boot with running := b, trialRunning := trial, trialAt := upTime s } }

theorem bootOrder_previous (hA : s.boot.bankA.state = .invalid) (hB : s.boot.bankB.state = .previous) : (bootOrder s).filter (· != false) = [true] := by
  simp [bootOrder, getFw, hA, hB]

theorem tryBanks_previous {fail : Bool → Nat} {b : Bool} {r : List Bool} (hpass : fail b = 0) (hstate : (getFw s b).state = .previous) :
    tryBanks fail (b :: r) s = (setFw s b .active 3, some b) := by
  rw [tryBanks, if_pos hpass, if_pos hstate]

theorem kept_restartedFrom (b trial : Bool) (h : kept t = kept s) : kept (restartedFrom b trial t) = kept (restartedFrom b trial s) :=
  kept_apply (restartedFrom b trial) (fun _ => rfl) (fun _ => rfl) (fun _ => rfl) h

theorem execLockkeeperRestartComplete_fail {f : Nat} (hlk : s.boot.lk = .restarting) (hf : f ≠ 0) (hrunning : s.boot.running = false) :
    exec (.lockkeeperRestartComplete f) s = .next (match tryBanks (fun _ => 0) ((bootOrder (imageFailed s f)).filter (· != false)) (imageFailed s f) with
      | (s, some c) => restartedFrom c ((getFw s c).state == .trial) s
      | (s, none) => setDevState { s with boot := { s.boot with lk := .halted } } .bootFailed) := by
  refine congrArg Host.Outcome.next ((if_neg (by simp [hlk])).trans ((if_neg hf).trans ?_))
  rw [hrunning]
  rfl

theorem execLockkeeperRestartComplete_pass (hlk : s.boot.lk = .restarting) :
    exec (.lockkeeperRestartComplete 0) s = .next (if (sendOwed { s with boot := { s.boot with lk := .running } }).boot.state = .ready then
      confirmBanks (sendOwed { s with boot := { s.boot with lk := .running } }) else sendOwed { s with boot := { s.boot with lk := .running } }) :=
  congrArg Host.Outcome.next (if_neg (by simp [hlk]))

/-- The state once the trial of bank B has run out, before its record (R430). -/
def trialOver (s : State) : State :=
  { setFw (setFw s true .invalid 3) false .active 3 with
    boot := { (setFw (setFw s true .invalid 3) false .active 3).boot with running := false, trialRunning := false } }

theorem execTrialBootTimeout_eq (htrial : s.boot.trialRunning = true) (hrunning : s.boot.running = true) (hB : s.boot.bankB.state = .trial)
    (hA : (getFw (setFw s true .invalid 3) false).state = .previous) (hlk : (addFault (trialOver s) 0xC 1 0).boot.lk = .restarting)
    (hpassed : passed s s.boot.trialAt 2000000000 = true) : exec .trialBootTimeout s = .next (addFault (trialOver s) 0xC 1 0) := by
  show execTrialBootTimeout s = _
  unfold execTrialBootTimeout
  dsimp only
  rw [hrunning, if_neg (by simp [htrial, getFw, hB, hpassed])]
  simp only [Bool.not_true, hA, if_true]
  exact congrArg Host.Outcome.next (if_pos hlk)

theorem kept_trialOver (hB : s.boot.bankB.state = .trial) (hA : s.boot.bankA.state = .previous) :
    kept (trialOver s) = kept { s with boot := { s.boot with
      bankB := { s.boot.bankB with state := .invalid, image := {} }
      bankA := { s.boot.bankA with state := .active }
      running := false
      trialRunning := false } } := by
  have hinvalid : kept (setFw s true .invalid 3) = kept (fwIn true .invalid s) := kept_setFw (by rw [show (getFw s true).state = _ from hB]; exact FwState.noConfusion) 3
  have hA' : (getFw (setFw s true .invalid 3) false).state = .previous := (congrArg FwBank.state (getFw_of_kept hinvalid false)).trans hA
  have hactive : kept (setFw (setFw s true .invalid 3) false .active 3) = kept (fwIn false .active (fwIn true .invalid s)) :=
    (kept_setFw (by rw [hA']; exact FwState.noConfusion) 3).trans (kept_modFw _ _ hinvalid)
  refine (kept_apply (fun u => { u with boot := { u.boot with running := false, trialRunning := false } }) (fun _ => rfl) (fun _ => rfl) (fun _ => rfl) hactive).trans ?_
  rw [fwIn_A FwState.noConfusion]
  rfl

/-! Heat (R425). -/

/-- The thermal trip's haptic channels are off; power, faults and the rest are as they were (R407). -/
theorem boot_hapticsOff {α : Type} (g : BootSt → α) (hg : ∀ x : BootSt, g { x with counters := [] } = g x) (s : State) : g (hapticsOff s).boot = g s.boot := by
  refine forEach_same (fun u => g u.boot) _ _ _ fun c u => ?_
  have hpost : ∀ (v : State) (slice : Nat) (fs : List Field), g (post v slice 0x0904 fs).boot = g v.boot := fun v slice fs => boot_of_kept g hg (kept_post ..)
  exact iteInduction (motive := fun v : State => g v.boot = g u.boot) (fun _ => (hpost ..).trans rfl) fun _ => (hpost ..).trans ((hpost ..).trans rfl)

/-- A machine on the way down, before its record (R425). -/
def tripping (s : State) : State := setDevState { hapticsOff s with boot := { (hapticsOff s).boot with lk := .halted } } .thermalTrip

theorem kept_tripping (s : State) : kept (tripping s) = kept (inState .thermalTrip { hapticsOff s with boot := { (hapticsOff s).boot with lk := .halted } }) := kept_setDevState ..

theorem execThermalTrip_eq {temps : List Int} (hrange : (measureSensors s temps).power.inRange = true) (hstate : (measureSensors s temps).boot.state ≠ .thermalTrip)
    (hhot : 1150 ≤ hottest (measureSensors s temps).boot.sensors) :
    exec (.thermalTrip temps) s = .next (powerDown (addFault (tripping (measureSensors s temps)) 4 (hotSensor (tripping (measureSensors s temps)))
      (ofSigned 16 (hottest (tripping (measureSensors s temps)).boot.sensors)))) := by
  refine congrArg Host.Outcome.next (if_neg ?_)
  simp [hrange, hstate]
  omega

/-- The sensors measured change nothing but themselves. -/
def measured (s : State) (temps : List Int) : State := { s with boot := { s.boot with sensors := temps } }

theorem kept_measureSensors {temps : List Int} (h : temps.length = 8) : kept (measureSensors s temps) = kept (measured s temps) := by
  unfold measureSensors
  rw [setSensors_eq h]
  exact iteInduction (motive := fun t : State => kept t = kept (measured s temps)) (fun _ => rfl) fun _ => rfl

theorem sensors_tripping (v : State) : (tripping v).boot.sensors = v.boot.sensors :=
  (boot_of_kept BootSt.sensors (fun _ => rfl) (kept_tripping v)).trans (boot_hapticsOff BootSt.sensors (fun _ => rfl) v)

/-- What the record of a thermal trip leaves of the start-up's state (R425). -/
theorem tripped (v : State) (unit detail : Nat) :
    (powerDown (addFault (tripping v) 4 unit detail)).boot.state = .thermalTrip ∧
    ((powerDown (addFault (tripping v) 4 unit detail)).boot.faults.getLast?.map fun f => (f.kind, f.detail)) = some (4, detail) := by
  have htripping := kept_tripping v
  have howed : kept (addFault (tripping v) 4 unit detail) = kept (faulted (tripping v) 4 unit detail false) :=
    kept_addFault_owed (.inl (by rw [boot_of_kept BootSt.lk (fun _ => rfl) htripping]; exact LkState.noConfusion)) ..
  generalize tripping v = w at htripping howed
  generalize addFault w 4 unit detail = u at howed
  refine ⟨?_, ?_⟩
  · exact (boot_of_kept BootSt.state (fun _ => rfl) howed).trans (boot_of_kept BootSt.state (fun _ => rfl) htripping)
  · exact (boot_of_kept (fun b => b.faults.getLast?.map fun f => (f.kind, f.detail)) (fun _ => rfl) howed).trans (getLast_faulted w 4 unit detail false)

/-- Settles O39. -/
theorem lockkeeperAndHeat : Obligations.LockkeeperAndHeat := by
  unfold Obligations.LockkeeperAndHeat
  refine ⟨fun s n hlk hrecent => ?_, fun s n hlk hrange hfault htrip hrecent => ?_, fun s hlk hready htrial hbanks => ?_, fun s f hlk hf hrunning hA hB => ?_,
    fun s hdelay hlk hA hB hpassed => ?_, fun s htrial hrunning hB hA hlk hpassed => ?_, fun s r hrange hfault htrip => ?_, fun s hrange hlk hfault htrip => ?_,
    fun s temps hrange hlength hwarning hhot => ?_, fun s temps hrange hlength hwarning hcool => ?_, fun s temps hrange hlength hhot htrip => ?_⟩
  · have hexec := execLockkeeperWatchdogExpiry_eq (n := n) hlk
    rw [if_neg (by unfold recentDogs; omega)] at hexec
    refine ⟨_, hexec, quiet_addFault_dogBitten s n, fun k h hf hk hphase hqe => ?_⟩
    rw [addFault_dogBitten]
    exact interruptHeld_answers (s := dogBitten s) LkState.noConfusion hf hk hphase hqe
  · have hexec := execLockkeeperWatchdogExpiry_eq (n := n) hlk
    rw [if_pos (show 2 ≤ (recentDogs s).length from hrecent)] at hexec
    have hquiet := quiet_addFault_dogBitten s n
    have hkept := kept_enterFault (s := addFault (interruptHeld (dogBitten s)) 2 n 0) (by rw [quiet_eq (fun u => u.boot.state) (fun _ => rfl) hquiet]; exact hfault)
      (by rw [quiet_eq (fun u => u.boot.state) (fun _ => rfl) hquiet]; exact htrip) (by rw [quiet_eq (fun u => u.power.inRange) (fun _ => rfl) hquiet]; exact hrange) 1
    exact ⟨_, hexec, boot_of_kept BootSt.state (fun _ => rfl) hkept, boot_of_kept BootSt.lk (fun _ => rfl) hkept,
      (boot_of_kept (fun b => b.faults.getLast?.map fun f => (f.kind, f.detail)) (fun _ => rfl) hkept).trans (getLast_faulted ..)⟩
  · have howed := kept_sendOwed { s with boot := { s.boot with lk := .running } }
    refine leaves_of_kept (execLockkeeperRestartComplete_pass hlk) ?_
    rw [if_pos ((boot_of_kept BootSt.state (fun _ => rfl) howed).trans hready), confirmBanks_idle ((boot_of_kept BootSt.trialRunning (fun _ => rfl) howed).trans htrial)
      fun b => by rw [getFw_of_kept howed]; exact hbanks b]
    exact howed
  · have hfailed := kept_restartFailed (f := f) hlk hA
    have hboot := execLockkeeperRestartComplete_fail hlk hf hrunning
    have hB' : (getFw (imageFailed s f) true).state = .previous := (congrArg FwBank.state (getFw_of_kept hfailed true)).trans hB
    have hset : kept (setFw (imageFailed s f) true .active 3) = kept (fwIn true .active (faulted (fwIn false .invalid s) 0xA 0 f false)) :=
      (kept_setFw (by rw [hB']; exact FwState.noConfusion) 3).trans (kept_modFw _ _ hfailed)
    rw [bootOrder_previous (congrArg FwBank.state (getFw_of_kept hfailed false)) hB', tryBanks_previous (fail := fun _ => 0) rfl hB'] at hboot
    refine leaves_of_kept hboot ?_
    dsimp only
    rw [show (getFw (setFw (imageFailed s f) true .active 3) true).state = .active from congrArg FwBank.state (getFw_of_kept hset true)]
    refine (kept_restartedFrom true _ hset).trans ?_
    rw [fwIn_B FwState.noConfusion]
    rfl
  · refine ⟨_, ?_, quiet_interruptHeld _⟩
    refine congrArg Host.Outcome.next ((if_neg (by simp [hdelay, hpassed])).trans ?_)
    have hfind : [false, true].find? (fun b => (getFw { s with boot := { s.boot with restartDelay := false } } b).state == .trial) = some true := by
      simp [getFw, hA, hB]
    dsimp only
    rw [hfind]
    exact if_pos hlk
  · have hover := kept_trialOver hB hA
    have hinvalid : kept (setFw s true .invalid 3) = kept (fwIn true .invalid s) := kept_setFw (by rw [show (getFw s true).state = _ from hB]; exact FwState.noConfusion) 3
    have howed := kept_addFault_owed (s := trialOver s) (.inl (by rw [boot_of_kept BootSt.lk (fun _ => rfl) hover, hlk]; exact LkState.noConfusion)) 0xC 1 0
    have hlk' : (addFault (trialOver s) 0xC 1 0).boot.lk = .restarting := (boot_of_kept BootSt.lk (fun _ => rfl) howed).trans ((boot_of_kept BootSt.lk (fun _ => rfl) hover).trans hlk)
    exact leaves_of_kept (execTrialBootTimeout_eq htrial hrunning hB ((congrArg FwBank.state (getFw_of_kept hinvalid false)).trans hA) hlk' hpassed)
      (howed.trans (kept_faulted _ _ _ _ hover))
  · exact leaves_of_kept rfl (kept_enterFault hfault htrip hrange 4)
  · exact leaves_of_kept (congrArg Host.Outcome.next (if_neg hlk)) (kept_enterFault hfault htrip hrange 2)
  · have hmeasured := kept_measureSensors (s := s) hlength
    have hboot := boot_measureSensors (s := s) hlength
    refine leaves_of_kept (congrArg Host.Outcome.next ((if_neg (by simp [hrange])).trans (if_pos (by rw [hboot]; simp [hwarning, hhot])))) ?_
    refine (kept_apply assertAlert (fun _ => rfl) (fun _ => rfl) (fun _ => rfl) ((kept_post ..).trans
      (kept_apply (fun u => { u with boot := { u.boot with warning := true } }) (fun _ => rfl) (fun _ => rfl) (fun _ => rfl) hmeasured))).trans ?_
    rfl
  · have hmeasured := kept_measureSensors (s := s) hlength
    have hboot := boot_measureSensors (s := s) hlength
    refine leaves_of_kept (congrArg Host.Outcome.next ((if_neg (by simp [hrange])).trans ((if_neg (by rw [hboot]; simp [hwarning])).trans (if_pos (by rw [hboot]; simp [hwarning, hcool]))))) ?_
    exact (kept_post ..).trans (kept_apply (fun u => { u with boot := { u.boot with warning := false } }) (fun _ => rfl) (fun _ => rfl) (fun _ => rfl) hmeasured)
  · have hboot := boot_measureSensors (s := s) hlength
    have hpower : (measureSensors s temps).power = (measured s temps).power := read_kept (·.power) (fun _ => rfl) (kept_measureSensors hlength)
    have hexec := execThermalTrip_eq (s := s) (temps := temps) (by rw [hpower]; exact hrange) (by rw [hboot]; exact htrip) (by rw [hboot]; exact hhot)
    obtain ⟨hstate, hfaults⟩ := tripped (measureSensors s temps) (hotSensor (tripping (measureSensors s temps))) (ofSigned 16 (hottest temps))
    rw [sensors_tripping, hboot] at hexec
    exact ⟨_, hexec, hstate, rfl, hfaults, rfl, rfl, rfl, rfl, rfl, rfl, rfl, rfl, rfl, rfl⟩

end Sys2Proof.Machine
end

section
/-! Packets that reply at once, in a state known only up to what is not kept. -/
namespace Sys2Proof.Machine
open Sys2Proof

variable {s t e : State} {c : Cmd} {op : Nat} {h : Held} {i : Instr} {form : Held → Bool} {check : State → Held → Cmd → Option Fail}
  {act : State → Held → Cmd → State} {st : Status} {f : List Field}

/-- A packet that fails a check with no detail is answered so, with no effect (R68). -/
theorem ReadyNow.refused (hr : ReadyNow s c op h) (hexec : exec i s = .next (Machine.runPacket s c op form check act)) (hform : form h = true)
    (hc : check s h c = some (failWith st)) : Answers i s c h st (nowBits s) [] s :=
  hr.1.answersNow (hexec.trans (congrArg _ (hr.1.runDirect_fail hform hc))) rfl

/-- A packet that acts and replies at once. -/
theorem ReadyNow.acts (hr : ReadyNow s c op h) (hexec : exec i s = .next (Machine.runPacket s c op form check act)) (hform : form h = true)
    (hc : check s h c = none) (hact : act s h c = finishNow t h st f) (hkept : kept t = kept e) (htime : e.time = s.time) :
    Answers i s c h st (nowBits s) f e :=
  (hr.1.answersNow (hexec.trans (congrArg _ ((hr.runPacket hform hc).trans hact))) (nowBits_of_time ((time_of_kept hkept).trans htime))).of_kept hkept

/-- A row that ends the packet of a key, in a state that agrees with another in what is kept. -/
theorem answers_of_finishKey {k : CmdKey} {w : Nat} (hexec : exec i s = .next (finishKey t k st w f)) (hkept : kept t = kept e) (hrings : e.rings = s.rings)
    (hf : findHeld s k = some h) (hs : h.slice = k.slice) : Answers i s { slice := k.slice, ring := k.ring, index := k.index } h st w f e := by
  have hheld : findHeld t k = some h := (findHeld_of_fixedOf (fixedOf_of_kept hkept) k).trans ((findHeld_of_fixedOf (fixedOf_same hrings) k).trans hf)
  exact (answers_of_find hf hs (hexec.trans (congrArg _ (finishKey_of_find hheld ..)))).of_kept hkept

end Sys2Proof.Machine
end

section
/-! Staging, verifying and activating firmware (R430, R432 to R434). -/
namespace Sys2Proof.Machine
open Sys2Proof

/-- A bank made what it is already does not change. -/
theorem modFw_self (s : State) (b : Bool) {f : FwBank → FwBank} (h : f (getFw s b) = getFw s b) : modFw s b f = s := by
  cases b
  · exact congrArg (fun x => { s with boot := { s.boot with bankA := x } }) h
  · exact congrArg (fun x => { s with boot := { s.boot with bankB := x } }) h

theorem modFw_modFw (s : State) (b : Bool) (f g : FwBank → FwBank) : modFw (modFw s b f) b g = modFw s b (g ∘ f) := by cases b <;> rfl

/-- A bank in a state it can keep its image in, whether or not it was there already. -/
theorem kept_setFw_valid {s : State} {b : Bool} {st : FwState} (hst : st ≠ .invalid) (cause : Nat) :
    kept (setFw s b st cause) = kept (modFw s b fun x => { x with state := st }) := by
  by_cases h : (getFw s b).state = st
  · unfold setFw; dsimp only
    rw [if_pos h, modFw_self s b (by rw [← h])]
  · rw [kept_setFw h, fwIn]
    simp only [hst, if_false]

/-- The staging bank with a chunk programmed (R430, R432). -/
def chunkStaged (s : State) (p : Packet) (l : List Byte) : State :=
  modFw (setFw s (stagingBank s) .staging 1) (stagingBank s) fun x => { x with chunks := tset [] x.chunks (pf p 20 0 32 / 65536) l }

theorem kept_chunkStaged (s : State) (p : Packet) (l : List Byte) :
    kept (chunkStaged s p l) = kept (modFw s (stagingBank s) fun x => { x with state := .staging, chunks := tset [] x.chunks (pf p 20 0 32 / 65536) l }) := by
  refine (kept_modFw _ _ (kept_setFw_valid FwState.noConfusion 1)).trans ?_
  rw [modFw_modFw]
  rfl

/-- The bank that stages an image goes on doing so. -/
theorem stageDetail_staged {s : State} {b : Bool} (hb : b = stagingBank s) {f : FwBank → FwBank} (hf : ∀ x, (f x).state = .staging) :
    stageDetail (modFw s b f) = [fAt 16 0 8 b.toNat, fAt 17 0 8 1] := by
  have hbank : stagingBank (modFw s b f) = b := by
    cases b
    · simp [stagingBank, modFw, getFw, hf]
    · exact hb.symm
  have hstate : (getFw (modFw s b f) b).state = .staging := by cases b <;> exact hf _
  unfold stageDetail
  rw [hbank, hstate]
  rfl

theorem stageDetail_of_kept {s t : State} (h : kept t = kept s) : stageDetail t = stageDetail s := read_kept stageDetail (fun _ => rfl) h

theorem actFwStage_chunk {s : State} {h : Held} {c : Cmd} (hdisplay : pb h.pkt 16 0 = false) (hhost : pb h.pkt 16 1 = false) (hok : c.ok = true)
    (hlen : c.data.length = pf h.pkt 24 0 32) (hgood : c.obs.getD 0 0 = 0) :
    actFwStage s h c = finishNow (chunkStaged s h.pkt c.data) h .ok (stageDetail (chunkStaged s h.pkt c.data)) := by
  simp [actFwStage, hdisplay, hhost, srcRead_host _ _ _ _ hok hlen, hgood, -List.getD_eq_getElem?_getD, chunkStaged]

theorem actFwStage_display {s : State} {h : Held} {c : Cmd} (hdisplay : pb h.pkt 16 0 = true) (hhost : pb h.pkt 16 1 = false) (hok : c.ok = true)
    (hlen : c.data.length = pf h.pkt 24 0 32) (hgood : c.obs.getD 0 0 = 0) :
    actFwStage s h c = finishNow { s with boot := { s.boot with display := c.data } } h .ok (stageDetail s) := by
  simp [actFwStage, hdisplay, hhost, srcRead_host _ _ _ _ hok hlen, hgood, -List.getD_eq_getElem?_getD, stageDetail, stagingBank, getFw]

/-- No chunk is staged while a bank is on trial (R432). -/
theorem checkFwStage_trial {s : State} {h : Held} (c : Cmd) (hreserved : reservedZero h.pkt [(16, 0, 2), (20, 0, 32), (24, 0, 32), (32, 0, 64)] = true)
    (haligned : pf h.pkt 32 0 64 % 64 = 0) (hmin : 0 < pf h.pkt 24 0 32) (hmax : pf h.pkt 24 0 32 ≤ 65536) (hchunk : pf h.pkt 20 0 32 % 65536 = 0)
    (hdisplay : pb h.pkt 16 0 = false) (hfits : pf h.pkt 20 0 32 + pf h.pkt 24 0 32 ≤ 25165824) (htrial : s.boot.bankA.state = .trial) :
    checkFwStage s h c = some (failWith .notReady) := by
  have hinrange : inRange (pf h.pkt 24 0 32) 1 65536 = true := by simp [inRange]; omega
  simp [checkFwStage, firstFail, hreserved, haligned, hinrange, hchunk, hdisplay, bankBytes, htrial, getFw]
  exact fun hover => absurd (of_decide_eq_true hover) (Nat.not_lt.2 hfits)

theorem actFwVerify_eq {s : State} {c : Cmd} {h : Held} {op : Nat} (hr : Ready s c op h) :
    actFwVerify s h c = defer { s with boot := { s.boot with verify := some (Cmd.key c) } } h [] := by
  unfold actFwVerify; rw [hr.key]

theorem checkFwVerify_staging {s : State} {h : Held} (c : Cmd) (hreserved : reservedZero h.pkt [] = true) (hverify : s.boot.verify = none)
    (hstaging : ∃ b, (getFw s b).state = .staging) : checkFwVerify s h c = none := by
  have hbank : (bankIn s .staging).isNone = false := by
    obtain ⟨b, hb⟩ := hstaging
    cases b
    · simp [bankIn, hb]
    · by_cases hA : (getFw s false).state = .staging <;> simp [bankIn, hb, hA]
  simp [checkFwVerify, firstFail, hreserved, hverify, hbank]

/-- The verification is over. -/
def verifyOver (s : State) : State := { s with boot := { s.boot with verify := none } }

/-- The detail of a verification's final reply (R433). -/
def verifyDetail (b : Bool) (why : Nat) (g : FwImage) : List Field :=
  [fAt 16 0 8 b.toNat, fAt 18 0 8 why, fAt 20 0 8 g.major, fAt 21 0 8 g.minor, fAt 22 0 8 g.svn]

theorem execFwVerifyComplete_eq {s : State} {k : CmdKey} {b : Bool} (hverify : s.boot.verify = some k) (hb : bankIn s .staging = some b) (r : Nat) :
    exec (.fwVerifyComplete r) s = .next (
      let l := tget [] (getFw s b).chunks 0
      let det := verifyDetail b (verifyReason s l r) (headerOf l)
      if verifyReason s l r = 0 then finishKey (setFw (modFw (verifyOver s) b fun x => { x with image := headerOf l }) b .verified 1) k .ok (nowBits s) det
      else finishKey (setFw (verifyOver s) b .invalid 1) k .checkFailed (nowBits s) det) := by
  show execFwVerifyComplete r s = _
  unfold execFwVerifyComplete
  have hb' : bankIn (verifyOver s) .staging = some b := hb
  unfold verifyOver at hb'
  rw [hverify]
  dsimp only
  rw [hb']
  cases b <;> rfl

/-- A bank in STAGING is in no other state. -/
theorem state_of_bankIn {s : State} {st : FwState} {b : Bool} (h : bankIn s st = some b) : (getFw s b).state = st := by
  simpa using List.find?_some h

theorem kept_verified {s : State} (b : Bool) (g : FwImage) :
    kept (setFw (modFw s b fun x => { x with image := g }) b .verified 1) = kept (modFw s b fun x => { x with state := .verified, image := g }) := by
  rw [kept_setFw_valid FwState.noConfusion, modFw_modFw]
  rfl

theorem actFwActivate_trial {s : State} {h : Held} {b : Bool} (hrevert : pb h.pkt 16 1 = false) (hsvn : pb h.pkt 16 2 = false) (hb : bankIn s .verified = some b) (c : Cmd) :
    actFwActivate s h c = finishNow { setFw s b .trial 1 with boot := { (setFw s b .trial 1).boot with restartDelay := pb h.pkt 16 0, restartAt := upTime (setFw s b .trial 1) } }
      h .ok [fAt 16 0 8 b.toNat] := by
  simp [actFwActivate, hrevert, hsvn, hb]

/-- The delay of a restart begins. -/
def restartSet (d : Bool) (s : State) : State := { s with boot := { s.boot with restartDelay := d, restartAt := upTime s } }

theorem kept_activated (s : State) (b d : Bool) :
    kept (restartSet d (setFw s b .trial 1)) = kept (modFw (restartSet d s) b fun x => { x with state := .trial }) := by
  refine (kept_apply (restartSet d) (fun _ => rfl) (fun _ => rfl) (fun _ => rfl) (kept_setFw_valid FwState.noConfusion 1)).trans ?_
  cases b <;> rfl

theorem actFwActivate_svn {s : State} {h : Held} {b : Bool} (hsvn : pb h.pkt 16 2 = true) (hb : bankIn s .active = some b) (c : Cmd) :
    actFwActivate s h c = finishNow { s with boot := { s.boot with minSvn := max s.boot.minSvn (getFw s b).image.svn } } h .ok
      [fAt 17 0 8 (max s.boot.minSvn (getFw s b).image.svn)] := by
  simp [actFwActivate, hsvn, hb]

/-- Settles O40. -/
theorem firmwareUpdate : Obligations.FirmwareUpdate := by
  unfold Obligations.FirmwareUpdate
  refine ⟨fun s c h b f hr hc hb hdisplay hhost hok hlen hgood hf => ?_, fun s c h hr hc hdisplay hhost hok hlen hgood => ?_,
    fun s c h hr hreserved haligned hmin hmax hchunk hdisplay hfits htrial => ?_, fun s c h hr hreserved hverify hstaging => ?_,
    fun s k h b g hverify hheld hs hb hwhy hg => ?_, fun s k h b r g hverify hheld hs hb hwhy hg => ?_, fun s c h b hr hc hrevert hsvn hb => ?_,
    fun s c h b n hr hc hsvn hb hn => ?_⟩
  · have hkept := kept_chunkStaged s h.pkt c.data
    have hact := actFwStage_chunk (s := s) hdisplay hhost hok hlen hgood
    rw [stageDetail_of_kept hkept, stageDetail_staged rfl fun _ => rfl, ← hb] at hact
    rw [← hb, ← hf] at hkept
    exact hr.acts rfl rfl hc hact hkept (by cases b <;> rfl)
  · exact hr.acts rfl rfl hc (actFwStage_display hdisplay hhost hok hlen hgood) rfl rfl
  · exact hr.refused rfl rfl (checkFwStage_trial c hreserved haligned hmin hmax hchunk hdisplay hfits htrial)
  · exact hr.1.defers (i := .fwVerify c) (congrArg Host.Outcome.next ((hr.runPacket rfl (checkFwVerify_staging c hreserved hverify hstaging)).trans (actFwVerify_eq hr.1))) rfl
  · subst hg
    have hexec := execFwVerifyComplete_eq hverify hb 0
    dsimp only at hexec
    rw [if_pos hwhy, hwhy] at hexec
    exact answers_of_finishKey hexec (kept_verified b _) (by cases b <;> rfl) hheld hs
  · subst hg
    have hexec := execFwVerifyComplete_eq hverify hb r
    dsimp only at hexec
    rw [if_neg hwhy] at hexec
    refine answers_of_finishKey hexec ((kept_setFw ?_ 1).trans ?_) (by cases b <;> rfl) hheld hs
    · rw [show (getFw (verifyOver s) b).state = .staging from state_of_bankIn hb]
      exact FwState.noConfusion
    · rfl
  · exact hr.acts rfl rfl hc (actFwActivate_trial hrevert hsvn hb c) (kept_activated s b _) (by cases b <;> rfl)
  · subst hn
    exact hr.acts rfl rfl hc (actFwActivate_svn hsvn hb c) rfl rfl

end Sys2Proof.Machine
end

section
/-! Recovery commands and reports (R228, R435, R436, R438 to R440). -/
namespace Sys2Proof.Machine
open Sys2Proof

/-- A status record that could be written is followed by its reply, in the state its write left. -/
theorem replyWithRecord_written {s u : State} {h : Held} {c : Cmd} {l : List Byte} (hdest : pf h.pkt 24 0 64 ≠ 0)
    (hwritten : destWrite s h.slice engLock (destSpace s) c.ok (pf h.pkt 24 0 64) l = (u, true)) (f : List Field) :
    replyWithRecord s h c l f = finishNow u h .ok f := by
  unfold replyWithRecord; dsimp only
  rw [if_neg hdest, hwritten]

theorem replyWithRecord_none {s : State} {h : Held} {c : Cmd} (hdest : pf h.pkt 24 0 64 = 0) (l : List Byte) (f : List Field) :
    replyWithRecord s h c l f = finishNow s h .ok f := if_pos hdest

theorem checkDeviceReset_word {s : State} {h : Held} (c : Cmd) (hword : pf h.pkt 16 0 32 ≠ 0x44455652) :
    checkDeviceReset s h c = some (failWith .badParam) := by
  simp [checkDeviceReset, hword]

/-- A bank's self-check begins (R228). -/
theorem actReinit_bank {s : State} {h : Held} (c : Cmd) (hunit : pf h.pkt 16 0 8 = 1) :
    actReinit s h c = defer (modBank s (pf h.pkt 17 0 3) fun x => { x with
      state := .checking
      reinit := some (heldKey h)
      holdoffFrames := if pf h.pkt 18 0 16 = 0 then 120 else pf h.pkt 18 0 16 }) h [] := by
  unfold actReinit; dsimp only
  simp only [hunit, if_true]

/-- An idle lane's self-check begins (R436). -/
theorem actReinit_lane {s : State} {h : Held} (c : Cmd) (hunit : pf h.pkt 16 0 8 = 2) (hidle : (tget {} s.sluice.lanes (pf h.pkt 17 0 3)).job = none) :
    actReinit s h c = defer { s with
      sluice := { s.sluice with lanes := tset {} s.sluice.lanes (pf h.pkt 17 0 3) { inService := false } }
      boot := { s.boot with reinits := s.boot.reinits ++ [{ unit := 2, index := pf h.pkt 17 0 3, key := heldKey h, at_ := upTime s }] } } h [] := by
  unfold actReinit; dsimp only
  rw [hunit, if_neg (by decide), if_pos rfl, if_neg (by decide)]
  unfold resetLane; dsimp only
  rw [hidle]
  rfl

/-- A self-check that is over leaves the list of those that run. -/
def reinitOver (s : State) (r : Reinit) : State := { s with boot := { s.boot with reinits := s.boot.reinits.filter (· != r) } }

theorem execEngineSelfCheckComplete_lane {s : State} {i : Nat} {r : Reinit} (hfind : s.boot.reinits.find? (fun r => r.unit == 2 && r.index == i) = some r)
    (hpassed : passed s r.at_ 1000000 = true) (ok : Bool) (t : Nat) :
    exec (.engineSelfCheckComplete 2 i ok t) s = .next (if ok then finishKey (backInService (reinitOver s r) 2 i) r.key .ok (nowBits s) []
      else finishKey (reinitOver s r) r.key .checkFailed (nowBits s) [fAt 16 0 32 t]) := by
  show execEngineSelfCheckComplete 2 i ok t s = _
  unfold execEngineSelfCheckComplete
  rw [hfind]
  exact congrArg Host.Outcome.next (if_neg (by simp [hpassed]))

/-- Occupancies of a group other than the pseudo-channels' go on (R439). -/
theorem actCounters_written {s u : State} {h : Held} {c : Cmd} {l : List Byte} (hgroup : pf h.pkt 16 0 8 ≠ 1)
    (hl : l = counterBytes s (pf h.pkt 16 0 8) (pf h.pkt 17 0 7)) (hwritten : destWrite s h.slice engLock (destSpace s) c.ok (pf h.pkt 24 0 64) l = (u, true)) :
    actCounters s h c = finishNow u h .ok [fAt 16 0 32 l.length, fAt 24 0 64 (nowBits u)] := by
  subst hl
  unfold actCounters; dsimp only
  rw [hwritten]
  dsimp only
  rw [if_neg hgroup]

/-- FAULT_READ has no form without a destination. -/
theorem dest_of_checkFaultRead {s : State} {h : Held} {c : Cmd} (hc : checkFaultRead s h c = none) : pf h.pkt 24 0 64 ≠ 0 := fun hdest => by
  simp [checkFaultRead, hdest] at hc

/-- Settles O41. -/
theorem recoveryAndReports : Obligations.RecoveryAndReports := by
  unfold Obligations.RecoveryAndReports
  refine ⟨fun s c h hr hc => hr.acts rfl rfl hc rfl rfl rfl, fun s c h hr hword => hr.refused rfl rfl (checkDeviceReset_word c hword),
    fun s c h i n hr hc hunit hi hn => ?_, fun s c h i r hr hc hunit hi hidle hr' => ?_, fun s i t r h hfind hheld hs hpassed => ?_,
    fun s i t r h hfind hheld hs hpassed => ?_, fun s u c h hr hc hwritten => ?_, fun s c h left hr hreserved hleft => ?_,
    fun s u c h l hr hc hgroup hl hwritten => ?_, fun s c h hr hc hdest => ?_, fun s u c h hr hc hdest hwritten => ?_⟩
  · subst hi hn
    rw [← hr.1.key]
    exact hr.1.defers (i := .engineReinit c) (congrArg Host.Outcome.next ((hr.runPacket rfl hc).trans (actReinit_bank c hunit))) rfl
  · subst hi hr'
    rw [← hr.1.key]
    exact hr.1.defers (i := .engineReinit c) (congrArg Host.Outcome.next ((hr.runPacket rfl hc).trans (actReinit_lane c hunit hidle))) rfl
  · exact answers_of_finishKey (execEngineSelfCheckComplete_lane hfind hpassed true t) rfl rfl hheld hs
  · exact answers_of_finishKey (execEngineSelfCheckComplete_lane hfind hpassed false t) rfl rfl hheld hs
  · exact hr.1.answers (i := .faultRead c) (congrArg Host.Outcome.next ((hr.runPacket rfl hc).trans (replyWithRecord_written (dest_of_checkFaultRead hc) hwritten _)))
  · subst hleft
    exact hr.acts (i := .faultClear c) rfl rfl (if_neg (by simp [hreserved])) rfl rfl rfl
  · exact hr.1.answers (i := .countersRead c) (congrArg Host.Outcome.next ((hr.runPacket rfl hc).trans (actCounters_written hgroup hl hwritten)))
  · exact hr.acts (i := .identify c) rfl rfl hc (replyWithRecord_none hdest ..) rfl rfl
  · exact hr.1.answers (i := .identify c) (congrArg Host.Outcome.next ((hr.runPacket rfl hc).trans (replyWithRecord_written hdest hwritten _)))

end Sys2Proof.Machine
end

section
/-! PTP ports, time steps and event stamps (R309 to R325). -/
namespace Sys2Proof.Machine
open Sys2Proof

variable {s t : State} {n : Nat}

/-! The loop after a lost input: nothing else changes but for events. -/

/-- A state with another reference loop. -/
def withHead (x : HeadSt) (s : State) : State := { s with head := x }

theorem kept_withHead (x : HeadSt) (h : kept t = kept s) : kept (withHead x t) = kept (withHead x s) :=
  kept_apply (withHead x) (fun _ => rfl) (fun _ => rfl) (fun _ => rfl) h

theorem withHead_leaveLocked (x : HeadSt) (s : State) : withHead x (leaveLocked s) = withHead x s := by
  unfold leaveLocked; split <;> rfl

theorem kept_withHead_postSwitch (x : HeadSt) (s : State) (frm cause : Nat) : kept (withHead x (postSwitch s frm cause)) = kept (withHead x s) :=
  kept_withHead x (kept_post ..)

theorem kept_withHead_startSwitch (x : HeadSt) (s : State) (r : RefSel) (cause : Nat) : kept (withHead x (startSwitch s r cause)) = kept (withHead x s) := by
  rw [← withHead_leaveLocked x s]
  exact (kept_withHead_postSwitch ..).trans rfl

theorem kept_withHead_enterHold (x : HeadSt) (s : State) : kept (withHead x (enterHold s)) = kept (withHead x s) := by
  have hleave := withHead_leaveLocked x s
  unfold enterHold; dsimp only
  refine iteInduction (motive := fun u : State => kept (withHead x u) = kept (withHead x s)) (fun _ => rfl) fun _ => ?_
  rw [← hleave]
  exact iteInduction (motive := fun u : State => kept (withHead x u) = kept (withHead x (leaveLocked s))) (fun _ => (kept_withHead_postSwitch ..).trans rfl)
    fun _ => (kept_withHead_postSwitch ..).trans rfl

theorem kept_withHead_takeBest (x : HeadSt) (s : State) (cause : Nat) : kept (withHead x (takeBest s cause)) = kept (withHead x s) := by
  unfold takeBest
  split
  · exact iteInduction (motive := fun u : State => kept (withHead x u) = kept (withHead x s)) (fun _ => kept_withHead_enterHold x s)
      fun _ => kept_withHead_startSwitch ..
  · exact kept_withHead_enterHold x s

theorem kept_withHead_reselect (x : HeadSt) (s : State) (cause : Nat) : kept (withHead x (reselect s cause)) = kept (withHead x s) := by
  unfold reselect
  split
  · exact iteInduction (motive := fun u : State => kept (withHead x u) = kept (withHead x s)) (fun _ => rfl) fun _ => kept_withHead_startSwitch ..
  · split
    · exact iteInduction (motive := fun u : State => kept (withHead x u) = kept (withHead x s)) (fun _ => rfl) fun _ => kept_withHead_takeBest ..
    · exact kept_withHead_takeBest ..

theorem kept_withHead_setRef (x : HeadSt) (s : State) (i : Nat) (r : RefState) (cause : Nat) : kept (withHead x (setRef s i r cause)) = kept (withHead x s) :=
  iteInduction (motive := fun u : State => kept (withHead x u) = kept (withHead x s)) (fun _ => rfl) fun _ => (kept_withHead x (kept_post ..)).trans rfl

theorem kept_withHead_loseEntry (x : HeadSt) (s : State) (i : Nat) : kept (withHead x (loseEntry s i)) = kept (withHead x s) := by
  refine iteInduction (motive := fun u : State => kept (withHead x u) = kept (withHead x s)) (fun _ => rfl) fun _ => ?_
  refine iteInduction (motive := fun u : State => kept (withHead x u) = kept (withHead x s)) (fun _ => rfl) fun _ => ?_
  exact (kept_withHead_reselect ..).trans (kept_withHead_setRef ..)

/-- A lost input changes the loop alone (R291). -/
theorem kept_withHead_loseInput (x : HeadSt) (s : State) (i : Nat) : kept (withHead x (loseInput s i)) = kept (withHead x s) :=
  forEach_same (fun u => kept (withHead x u)) _ _ _ fun _ _ => kept_withHead_loseEntry ..

theorem kept_loseInput (s : State) (i : Nat) : kept (loseInput s i) = kept (withHead (loseInput s i).head s) := kept_withHead_loseInput (loseInput s i).head s i

/-! The servo (R316, R318). -/

/-- A port in a servo state. -/
def inServo (v : Servo) (x : PtpPort) : PtpPort := { x with servo := v, below := 0, above := 0, settled := if x.servo = v then x.settled else false }

theorem setServo_locked (s : State) (n : Nat) : setServo s n .locked = modPtp s n (inServo .locked) := rfl

theorem setServo_lost {v : Servo} (hv : v ≠ .locked) : setServo s n v = loseInput (modPtp s n (inServo v)) (2 + n) := if_neg hv

theorem kept_setServo_lost {v : Servo} (hv : v ≠ .locked) (s : State) (n : Nat) :
    kept (setServo s n v) = kept (withHead (setServo s n v).head (modPtp s n (inServo v))) := by
  rw [setServo_lost hv]
  exact kept_loseInput ..

theorem modPtp_congr {f g : PtpPort → PtpPort} (h : f (getPtp s n) = g (getPtp s n)) : modPtp s n f = modPtp s n g :=
  congrArg (fun l => { s with ptp := { s.ptp with ports := l } }) (tmod_congr ({} : PtpPort) s.ptp.ports n f g h)

theorem modPtp_modPtp (s : State) (n : Nat) (f g : PtpPort → PtpPort) : modPtp (modPtp s n f) n g = modPtp s n (g ∘ f) :=
  congrArg (fun l => { s with ptp := { s.ptp with ports := l } }) (tmod_tmod {} s.ptp.ports n f g)

/-- A locked servo that is lost (R318). -/
theorem modPtp_unlocked (hservo : (getPtp s n).servo = .locked) :
    modPtp s n (inServo .listening) = modPtp s n fun x => { x with servo := .listening, below := 0, above := 0, settled := false } :=
  modPtp_congr (by simp [inServo, hservo])

theorem loseServo_locked (hservo : (getPtp s n).servo = .locked) : loseServo s n = setServo s n .listening := by
  simp [loseServo, hservo]

/-- A locked servo that is lost changes its port, and the loop alone beyond it. -/
theorem quiet_setServo_unlocked (hservo : (getPtp s n).servo = .locked) :
    kept (withHead s.head (setServo s n .listening)) = kept (modPtp s n fun x => { x with servo := .listening, below := 0, above := 0, settled := false }) := by
  rw [setServo_lost Servo.noConfusion, ← modPtp_unlocked hservo]
  exact kept_withHead_loseInput ..

/-! PTP_PORT_SET with OP PORT (R321). -/

/-- What a restart of a port's engine forgets. -/
def ptpForgotten (x : PtpPort) : PtpPort := { x with master := none, foreign := [], sync := none, t21 := none, req := none, resp := none, pathDelay := none }

/-- A port restarted with a packet's settings (R321). -/
def ptpRestarted (o : PtpPort) (p : Packet) : PtpPort := inServo .listening (ptpForgotten (ptpOfPkt o p))

/-- The detail of a PTP_PORT_SET with OP PORT. -/
def ptpDetail (y : PtpPort) : List Field :=
  [fAt 16 0 8 (servoCode y.servo), fAt 17 0 64 (y.master.getD 0 / 65536), fAt 25 0 32 (ofSigned 32 y.lastOffset),
    fAt 29 0 16 (min 65535 ((y.pathDelay.getD 0) / nsUnit).toNat), fAt 31 0 8 y.utcOffset]

/-- The state of a PTP_PORT_SET that restarts an engine as DEVICE. -/
def ptpPortRestarted (s : State) (p : Packet) : State :=
  setServo (modPtp (modPtp s (pf p 17 0 1) fun _ => ptpOfPkt (getPtp s (pf p 17 0 1)) p) (pf p 17 0 1) ptpForgotten) (pf p 17 0 1) .listening

theorem actPtpPort_restart {h : Held} (c : Cmd) (hdevice : pf h.pkt 17 1 2 = 1) (hold : (getPtp s (pf h.pkt 17 0 1)).engine ≠ 1) (hprimary : pb h.pkt 17 3 = false) :
    actPtpPort s h c = finishNow (ptpPortRestarted s h.pkt) h .ok (ptpDetail (getPtp (ptpPortRestarted s h.pkt) (pf h.pkt 17 0 1))) := by
  have hengine : (ptpOfPkt (getPtp s (pf h.pkt 17 0 1)) h.pkt).engine = 1 := hdevice
  have hrestart : ((getPtp s (pf h.pkt 17 0 1)).engine != 1) = true := by simp [hold]
  unfold actPtpPort; dsimp only
  rw [hprimary, hengine, hrestart]
  rfl

theorem ptpPortRestarted_eq (s : State) (p : Packet) :
    ptpPortRestarted s p = loseInput (modPtp s (pf p 17 0 1) fun _ => ptpRestarted (getPtp s (pf p 17 0 1)) p) (2 + pf p 17 0 1) := by
  unfold ptpPortRestarted
  rw [setServo_lost Servo.noConfusion, modPtp_modPtp, modPtp_modPtp]
  rfl

theorem ptpDetail_restarted (o : PtpPort) (p : Packet) :
    ptpDetail (ptpRestarted o p) = [fAt 16 0 8 1, fAt 17 0 64 0, fAt 25 0 32 (ofSigned 32 o.lastOffset), fAt 29 0 16 0, fAt 31 0 8 o.utcOffset] := by
  simp [ptpDetail, ptpRestarted, inServo, ptpForgotten, ptpOfPkt, servoCode]

theorem getPtp_of_kept (h : kept t = kept s) (n : Nat) : getPtp t n = getPtp s n := read_kept (getPtp · n) (fun _ => rfl) h

/-! TIME_STEP and TIME_RATE_ADJUST (R319, R320). -/

/-- A counter stepped to a value at the WP now. -/
def clockStepped (w : Wp) (v : Int) (x : PtpClock) : PtpClock := { x with value := v.toNat, base := w, notSet := false, epoch := (x.epoch + 1) % 256 }

theorem frameDelta_self (f : Nat) : frameDelta f f = 0 := by
  have hdiff : frameDiff f f = 0 := by unfold frameDiff; omega
  rw [frameDelta, hdiff]
  rfl

theorem tickDelta_self (l : Nat) (w : Wp) : tickDelta l w w = 0 := by simp [tickDelta, lineDelta, frameDelta_self]

theorem elapsedUnits_self (s : State) (w : Wp) : elapsedUnits s w w = 0 := by
  unfold elapsedUnits; dsimp only
  rw [tickDelta_self]
  split <;> simp

/-- A counter that was stepped reads the value it was given. -/
theorem clockUnits_stepClock {v : Int} (hv : 0 ≤ v) : clockUnits (stepClock s n v) n (now (stepClock s n v)) = v := by
  have hclock : getClock (stepClock s n v) n = clockStepped (now s) v (getClock s n) := (getClock_modClock s n n _).trans (if_pos rfl)
  unfold clockUnits
  rw [hclock]
  have hzero : elapsedUnits (stepClock s n v) (now s) (now s) = 0 := elapsedUnits_self ..
  simp [clockStepped, show now (stepClock s n v) = now s from rfl, hzero, hv]

/-- The detail of a TIME_STEP. -/
def stepDetail (s : State) (n : Nat) (v : Int) : List Field :=
  [fAt 16 0 48 (ptpOf v).sec, fAt 24 0 32 (ptpOf v).ns, fAt 28 0 8 (((getClock s n).epoch + 1) % 256)]

theorem epoch_stepClock (s : State) (n : Nat) (v : Int) : (getClock (stepClock s n v) n).epoch = ((getClock s n).epoch + 1) % 256 :=
  congrArg PtpClock.epoch ((getClock_modClock s n n _).trans (if_pos rfl))

/-- A TIME_STEP that is refused for no target steps to none before 0. -/
theorem stepTarget_nonneg {h : Held} {c : Cmd} (hc : checkTimeStep s h c = none) : 0 ≤ stepTarget s h.pkt := by
  obtain ⟨hbad, -⟩ := firstFail_cons_eq_none.1 hc
  simp only [Bool.or_eq_false_iff, decide_eq_false_iff_not] at hbad
  omega

theorem actTimeStep_eq {h : Held} {v : Int} (c : Cmd) (hv : 0 ≤ v) {u : State}
    (hu : (if (pb h.pkt 16 2 && (getPtp s (pf h.pkt 16 0 1)).engine == 1) = true then setServo s (pf h.pkt 16 0 1) .listening
      else if (pb h.pkt 16 2 && (getPtp s (pf h.pkt 16 0 1)).servo == .locked) = true then setServo s (pf h.pkt 16 0 1) .acquiring else s) = u)
    (htarget : stepTarget u h.pkt = v) :
    actTimeStep s h c = finishNow (stepClock u (pf h.pkt 16 0 1) v) h .ok (stepDetail u (pf h.pkt 16 0 1) v) := by
  unfold actTimeStep; dsimp only
  rw [hu, htarget, clockUnits_stepClock hv, epoch_stepClock]
  rfl

theorem kept_stepClock (v : Int) (h : kept t = kept s) : kept (stepClock t n v) = kept (stepClock s n v) :=
  kept_apply (stepClock · n v) (fun _ => rfl) (fun _ => rfl) (fun _ => rfl) h

theorem modClock_modClock (s : State) (n : Nat) (f g : PtpClock → PtpClock) : modClock (modClock s n f) n g = modClock s n (g ∘ f) :=
  congrArg (fun l => { s with ptp := { s.ptp with clocks := l } }) (tmod_tmod ({} : PtpClock) s.ptp.clocks n f g)

/-- A step touches neither ports nor the loop. -/
theorem kept_stepClock_lost (x : HeadSt) (f : PtpPort → PtpPort) (v : Int) :
    kept (stepClock (withHead x (modPtp s n f)) n v) = kept { modPtp (modClock s n (clockStepped (now s) v)) n f with head := x } :=
  kept_of rfl (fixedOf_same rfl) (outside_same rfl rfl)

theorem setRate_eq (s : State) (n : Nat) (r : Int) :
    setRate s n r = modClock s n fun c => { c with value := (clockUnits s n (now s)).toNat, base := now s, rate := r } :=
  modClock_modClock ..

/-- TIME_RATE_ADJUST with LOCK 1 (R320). -/
theorem actTimeRate_lock {h : Held} (c : Cmd) (hlock : pb h.pkt 16 1 = true) :
    actTimeRate s h c = finishNow (modPtp (setRate s (pf h.pkt 16 0 1) (toSigned 64 (pf h.pkt 20 0 64))) (pf h.pkt 16 0 1) fun x => { x with
      servo := .locked
      below := 0
      above := 0
      settled := if x.servo = .locked then x.settled else false
      lockHoldMs := if pf h.pkt 28 0 16 = 0 then 4000 else pf h.pkt 28 0 16
      lockAt := upTime s }) h .ok [fAt 16 0 64 (ofSigned 64 (getClock s (pf h.pkt 16 0 1)).rate), fAt 24 0 8 3] := by
  unfold actTimeRate; dsimp only
  rw [hlock]
  simp only [if_true]
  rw [setServo_locked, modPtp_modPtp]
  rfl

/-! Messages in time (R314, R318, R320). -/

theorem execPtpDelayReqSend_eq {u : State} {x : PtpPort} {m f : List Byte} (hn : n < 2) (hx : x = getPtp s n) (hengine : x.engine = 1) (hlk : s.boot.lk = .running)
    (hto : x.p2p = true ∨ x.master ≠ none)
    (hm : m = (if x.p2p then makeMsg s n 2 54 x.reqSeq 0x7F (List.replicate 20 0) else makeMsg s n 1 44 x.reqSeq 0x7F (List.replicate 10 0)))
    (hf : ptpFrame s n x.p2p m = (u, f)) :
    exec (.ptpDelayReqSend n) s = .next (modPtp (bump (modPort u n fun p => { p with ptp := p.ptp ++ [f] }) 4 n 2 1) n fun x => { x with
      reqSeq := (x.reqSeq + 1) % 65536
      req := none
      resp := none }) := by
  have hmaster : (!x.p2p && x.master.isNone) = false := by
    rcases hto with h | h
    · simp [h]
    · simp [Option.isNone_eq_false_iff.2 (Option.isSome_iff_ne_none.2 h)]
  subst hx
  refine congrArg Host.Outcome.next ((if_neg (by simp [hn, hengine, hlk, hmaster])).trans ?_)
  subst hm
  unfold queuePtp
  dsimp only
  rw [hf]

theorem execPtpSyncTimeout_eq (hn : n < 2) (hengine : (getPtp s n).engine = 1) (hservo : (getPtp s n).servo = .locked)
    (hpassed : passed s (getPtp s n).syncAt (4 * messageNs (getPtp s n).syncLog) = true) : exec (.ptpSyncTimeout n) s = .next (setServo s n .listening) := by
  refine (congrArg Host.Outcome.next (if_pos (by simp [hn, hengine, hpassed]))).trans ?_
  rw [loseServo_locked hservo]

/-- A port that has given up its master (R318). -/
def masterLost (m : Nat) (x : PtpPort) : PtpPort :=
  { x with master := none, foreign := x.foreign.filter (fun f => f.portId != m), sync := none, t21 := none, req := none }

theorem execPtpAnnounceTimeout_eq {m : Nat} (hn : n < 2) (hengine : (getPtp s n).engine = 1) (hservo : (getPtp s n).servo = .locked) (hmaster : (getPtp s n).master = some m)
    (hpassed : passed s (getPtp s n).annAt (2 * messageNs (getPtp s n).annLog) = true) :
    exec (.ptpAnnounceTimeout n) s = .next (modPtp (setServo s n .listening) n (masterLost m)) := by
  refine (congrArg Host.Outcome.next (if_pos (by simp [hn, hengine, hpassed]))).trans ?_
  rw [loseServo_locked hservo]
  have hport : (getPtp (setServo s n .listening) n).master = some m := by
    rw [setServo_lost Servo.noConfusion, getPtp_of_kept (kept_loseInput ..)]
    exact (congrArg PtpPort.master ((getPtp_modPtp s n n _).trans (if_pos rfl))).trans hmaster
  refine congrArg Host.Outcome.next (modPtp_congr ?_)
  have hsame : (fun f : Foreign => some m != some f.portId) = fun f => f.portId != m := by
    funext f
    by_cases h : m = f.portId <;> simp [h, bne, Ne.symm]
  rw [hport, hsame]
  rfl

theorem execPtpLockHoldLapse_eq (hn : n < 2) (hengine : (getPtp s n).engine = 2) (hservo : (getPtp s n).servo = .locked)
    (hpassed : passed s (getPtp s n).lockAt ((getPtp s n).lockHoldMs * 1000000) = true) : exec (.ptpLockHoldLapse n) s = .next (setServo s n .listening) :=
  congrArg Host.Outcome.next (if_pos (by simp [hn, hengine, hservo, hpassed]))

/-! Event inputs (R322 to R325). -/

theorem modEvt_congr {i : Nat} {f g : EvtIn → EvtIn} (h : f (getEvt s i) = g (getEvt s i)) : modEvt s i f = modEvt s i g :=
  congrArg (fun l => { s with ptp := { s.ptp with events := l } }) (tmod_congr ({} : EvtIn) s.ptp.events i f g h)

/-- The stamp of an edge (R324). -/
def stampOf (s : State) (rising : Bool) (x : EvtIn) : EvtRec :=
  { falling := !rising, locked := (getPtp s s.ptp.primary).servo == .locked, set := !(getClock s s.ptp.primary).notSet, epoch := (getClock s s.ptp.primary).epoch
    seq := (x.seq + 1) % 2 ^ 32, wp := addTicks (wallLines s) (now s) (-(ticksOfNs s 50 : Int)), ptp := ptpOf (clockUnits s s.ptp.primary (now s) - 50 * nsUnit)
    primary := s.ptp.primary, coalesced := x.coalesced, lost := x.lost }

/-- An edge's event is posted: at most one of an input in a wall line (R323). -/
def edgePosts (s : State) (x : EvtIn) : Bool := x.notify && x.lastLine != some (lineOf (now s))

/-- An input after an edge's stamp r, when its FIFO held n. -/
def edgeTaken (s : State) (r : EvtRec) (n : Nat) (posts : Bool) (x : EvtIn) : EvtIn :=
  { x with
    lastEdge := some (upTime s), seq := (x.seq + 1) % 2 ^ 32, fifo := if 64 ≤ n then x.fifo else x.fifo ++ [r]
    lost := if 64 ≤ n then satAdd 16 x.lost 1 else 0
    coalesced := if posts || !x.notify then 0 else satAdd 8 x.coalesced 1
    lastLine := if posts then some (lineOf (now s)) else x.lastLine }

/-- An edge comes less than 100 ns after the last. -/
def edgeClose (s : State) (x : EvtIn) : Bool := match x.lastEdge with
  | some w => !passed s w 100
  | none => false

theorem edgeClose_eq_false {x : EvtIn} (h : ∀ w, x.lastEdge = some w → passed s w 100 = true) : edgeClose s x = false := by
  unfold edgeClose; split
  · next w hw => simp [h w hw]
  · rfl

theorem execEventInputEdge_ignored {i : Nat} {rising : Bool}
    (h : (getEvt s i).enable = false ∨ (getEvt s i).edge = (if rising then 1 else 0) ∨ edgeClose s (getEvt s i) = true) : exec (.eventInputEdge i rising) s = .next s := by
  refine congrArg Host.Outcome.next (if_pos ?_)
  rcases h with h | h | h
  · simp [h]
  · cases rising <;> simp [h]
  · simp only [Bool.or_eq_true]; exact .inr h

theorem execEventInputEdge_taken {i : Nat} (hi : i < 8) (henable : (getEvt s i).enable = true) (hedge : (getEvt s i).edge = 0)
    (hclose : edgeClose s (getEvt s i) = false) :
    exec (.eventInputEdge i true) s = .next (
      let r := stampOf s true (getEvt s i)
      let t := modEvt s i (edgeTaken s r (getEvt s i).fifo.length (edgePosts s (getEvt s i)))
      if edgePosts s (getEvt s i) = true then postEvent t 0 (evtBits i r) else t) := by
  refine congrArg Host.Outcome.next ((if_neg ?_).trans ?_)
  · change ¬(!decide (i < 8) || !(getEvt s i).enable || (getEvt s i).edge == 0 && !true || (getEvt s i).edge == 1 && true || edgeClose s (getEvt s i)) = true
    rw [hclose]
    simp [hi, henable, hedge]
  · rfl

theorem actPtpEvent_changed {h : Held} {x : EvtIn} (c : Cmd) (hx : x = { getEvt s (pf h.pkt 17 0 3) with
      enable := pb h.pkt 17 3, edge := pf h.pkt 17 4 2, notify := pb h.pkt 17 6, owner := pf h.pkt 18 0 7 }) (hne : x ≠ getEvt s (pf h.pkt 17 0 3)) :
    actPtpEvent s h c = finishNow (modEvt s (pf h.pkt 17 0 3) fun _ => { x with fifo := [] }) h .ok [fAt 16 0 16 (getEvt s (pf h.pkt 17 0 3)).fifo.length] := by
  unfold actPtpEvent; dsimp only
  rw [← hx]
  simp only [hne, if_false]
  subst hx
  rfl

theorem actPtpEvent_same {h : Held} {x : EvtIn} (c : Cmd) (hx : x = { getEvt s (pf h.pkt 17 0 3) with
      enable := pb h.pkt 17 3, edge := pf h.pkt 17 4 2, notify := pb h.pkt 17 6, owner := pf h.pkt 18 0 7 }) (heq : x = getEvt s (pf h.pkt 17 0 3)) :
    actPtpEvent s h c = finishNow (modEvt s (pf h.pkt 17 0 3) fun _ => getEvt s (pf h.pkt 17 0 3)) h .ok [fAt 16 0 16 0] := by
  unfold actPtpEvent; dsimp only
  rw [← hx]
  simp only [heq, if_true]

theorem actStampRead_none {h : Held} (c : Cmd) (hnone : (getEvt s (pf h.pkt 16 0 3)).fifo.take (pf h.pkt 17 0 7) = []) : actStampRead s h c = finishNow s h .ok [] := by
  unfold actStampRead; dsimp only
  rw [hnone]
  rfl

theorem actStampRead_written {u : State} {h : Held} {c : Cmd} {l : List EvtRec} {r : EvtRec} (hl : l = (getEvt s (pf h.pkt 16 0 3)).fifo.take (pf h.pkt 17 0 7))
    (hsome : l ≠ []) (hlast : l.getLast? = some r)
    (hwritten : destWrite s h.slice engLock (destSpace s) c.ok (pf h.pkt 24 0 64) (l.flatMap fun r => bytesLE 32 (evtBits (pf h.pkt 16 0 3) r)) = (u, true)) :
    actStampRead s h c = finishNow (modEvt u (pf h.pkt 16 0 3) fun x => { x with fifo := x.fifo.drop l.length }) h .ok
      [fAt 16 0 8 l.length, fAt 17 0 8 ((getEvt s (pf h.pkt 16 0 3)).fifo.length - l.length), fAt 24 0 64 (wpBits r.wp)] := by
  unfold actStampRead; dsimp only
  rw [← hl, if_neg (by simp [hsome]), hwritten, hlast]

end Sys2Proof.Machine
end

section
namespace Sys2Proof.Machine
open Sys2Proof

/-- Settles O42. -/
theorem networkTime : Obligations.NetworkTime := by
  unfold Obligations.NetworkTime
  refine ⟨fun s c h n o y hr hop hc hn ho hdevice hold hprimary hy => ?_, fun s c h n v hr hc hunlock hn hv => ?_, fun s c h n v hr hc hunlock hn hv hengine => ?_,
    fun s c h n hold r hr hc hlock hn hr' hhold => ?_, fun s c h hr hc => hr.refused rfl rfl hc,
    fun s u n x m f hn hx hengine hlk hto hm hf => execPtpDelayReqSend_eq hn hx hengine hlk hto hm hf,
    fun s n hn hengine hservo hpassed => ⟨_, execPtpSyncTimeout_eq hn hengine hservo hpassed, quiet_of_kept (quiet_setServo_unlocked hservo)⟩,
    fun s n m hn hengine hservo hmaster hpassed => ?_,
    fun s n hn hengine hservo hpassed => ⟨_, execPtpLockHoldLapse_eq hn hengine hservo hpassed, quiet_of_kept (quiet_setServo_unlocked hservo)⟩,
    fun s i rising x hi hx henable hedge => ?_, fun s i rising x w hi hx henable hlast hpassed => ?_, fun s i x r hi hx henable hedge hlast hroom hnotify hr => ?_,
    fun s i x hi hx henable hedge hlast hfull hnotify hline => ?_, fun s c h i o x hr hop hc hi ho hx => ⟨fun hne => ?_, fun heq => ?_⟩,
    fun s u c h i x l hr hc hi hx hl => ⟨fun hnone => ?_, fun hsome hwritten => ?_⟩⟩
  · subst hn ho hy
    have hkept := kept_loseInput (modPtp s (pf h.pkt 17 0 1) fun _ => ptpRestarted (getPtp s (pf h.pkt 17 0 1)) h.pkt) (2 + pf h.pkt 17 0 1)
    rw [← ptpPortRestarted_eq] at hkept
    have hport : getPtp (ptpPortRestarted s h.pkt) (pf h.pkt 17 0 1) = ptpRestarted (getPtp s (pf h.pkt 17 0 1)) h.pkt :=
      (getPtp_of_kept hkept _).trans ((getPtp_modPtp s _ _ _).trans (if_pos rfl))
    have hact := actPtpPort_restart (s := s) c hdevice hold hprimary
    rw [hport, ptpDetail_restarted] at hact
    exact ⟨(ptpPortRestarted s h.pkt).head, hr.acts (i := .ptpPortSetPort c) rfl (by simpa using hop) hc hact hkept rfl⟩
  · subst hn hv
    have hact := actTimeStep_eq (s := s) c (stepTarget_nonneg hc) (by rw [hunlock]; rfl) rfl
    exact hr.acts (i := .timeStep c) rfl rfl hc hact rfl rfl
  · subst hn hv
    have hkept := kept_setServo_lost (v := .listening) Servo.noConfusion s (pf h.pkt 16 0 1)
    have hact := actTimeStep_eq (s := s) c (stepTarget_nonneg hc) (by rw [hunlock, hengine]; exact if_pos rfl)
      ((read_kept (stepTarget · h.pkt) (fun _ => rfl) hkept).trans rfl)
    rw [show stepDetail (setServo s (pf h.pkt 16 0 1) .listening) (pf h.pkt 16 0 1) (stepTarget s h.pkt) = stepDetail s (pf h.pkt 16 0 1) (stepTarget s h.pkt) from
      (read_kept (stepDetail · (pf h.pkt 16 0 1) (stepTarget s h.pkt)) (fun _ => rfl) hkept).trans rfl] at hact
    exact ⟨(setServo s (pf h.pkt 16 0 1) .listening).head, hr.acts (i := .timeStep c) rfl rfl hc hact ((kept_stepClock _ hkept).trans (kept_stepClock_lost ..)) rfl⟩
  · subst hn hr' hhold
    have hact := actTimeRate_lock (s := s) c hlock
    rw [setRate_eq] at hact
    exact hr.acts (i := .timeRateAdjust c) rfl rfl hc hact rfl rfl
  · refine ⟨_, execPtpAnnounceTimeout_eq hn hengine hservo hmaster hpassed, ?_⟩
    refine (quiet_of_kept (kept_apply (modPtp · n (masterLost m)) (fun _ => rfl) (fun _ => rfl) (fun _ => rfl) (quiet_setServo_unlocked hservo))).trans ?_
    rw [modPtp_modPtp]
    rfl
  · subst hx
    exact execEventInputEdge_ignored (.inr (.inl hedge))
  · subst hx
    exact execEventInputEdge_ignored (.inr (.inr (by simp [edgeClose, hlast, hpassed])))
  · subst hx hr
    have hexec := execEventInputEdge_taken hi henable hedge (edgeClose_eq_false hlast)
    have hposts : edgePosts s (getEvt s i) = false := by simp [edgePosts, hnotify]
    dsimp only at hexec
    rw [hposts, if_neg Bool.false_ne_true] at hexec
    refine hexec.trans (congrArg _ (modEvt_congr ?_))
    simp [edgeTaken, hroom, hnotify, stampOf]
  · subst hx
    have hexec := execEventInputEdge_taken hi henable hedge (edgeClose_eq_false hlast)
    have hposts : edgePosts s (getEvt s i) = true := by simp [edgePosts, hnotify, hline]
    dsimp only at hexec
    rw [hposts, if_pos rfl] at hexec
    refine leaves_of_kept hexec ((kept_postEvent ..).trans (congrArg kept (modEvt_congr ?_)))
    simp [edgeTaken, hfull]
  · subst hi ho
    exact hr.acts (i := .ptpPortSetEvent c) rfl (by simpa using hop) hc (actPtpEvent_changed c hx hne) rfl rfl
  · subst hi ho
    exact hr.acts (i := .ptpPortSetEvent c) rfl (by simpa using hop) hc (actPtpEvent_same c hx heq) rfl rfl
  · subst hi hx
    exact hr.acts (i := .eventStampRead c) rfl rfl hc (actStampRead_none c (hl ▸ hnone)) rfl rfl
  · subst hi hx
    obtain ⟨r, hlast⟩ := Option.isSome_iff_exists.1 (List.getLast?_isSome.2 hsome)
    exact ⟨r, hlast, hr.1.answers (i := .eventStampRead c) (congrArg Host.Outcome.next ((hr.runPacket rfl hc).trans (actStampRead_written hl hsome hlast hwritten)))⟩

end Sys2Proof.Machine
end

section
/-! Toden ports while the tree is worked out again (R338 to R344): what of a port no packet, event or choice of a root changes. -/
namespace Sys2Proof.Machine
open Sys2Proof

variable {s t : State} {p : Nat}

theorem links_of_ports (h : t.fabric.ports = s.fabric.ports) : links t = links s := by
  funext p; unfold links getTod; rw [h]

/-- A port that does not forward carries no packet. -/
theorem calm_closed (p : Nat) {x : TodPort} (hx : x.state ≠ .forwarding) : Calm fun t => getTod t p = x where
  emit _ _ h := h
  tod s q f hq _ h := by
    refine (getTod_modTod s q p f).trans ((if_neg fun hpq => hx ?_).trans h)
    rw [← h, hpq]; exact hq
  noRoute _ _ h := h
  vectors _ _ h := h
  denied _ _ h := h
  count _ _ _ _ _ h := h
  rings _ _ _ _ h := h
  write _ _ _ h := h

/-- What of a port the tree leaves: all but its place on it and the devices behind it. -/
def portOf (x : TodPort) : TodPort := { linkOf x with state := .down, below := [] }

/-- The state of a port that is not UP. -/
def unlinked (x : TodPort) : Option TodState := if todUp x then none else some x.state

/-- Every port, as the tree leaves it. -/
def stems (s : State) (p : Nat) : TodPort × Option TodState := (portOf (getTod s p), unlinked (getTod s p))

theorem links_emit (s : State) (o : Output) : links (emit s o) = links s := links_of_ports rfl

theorem stems_of_links (h : links t = links s) : stems t = stems s := by
  funext p
  have hp : linkOf (getTod t p) = linkOf (getTod s p) := congrFun h p
  have hport : portOf (getTod t p) = portOf (getTod s p) := congrArg (fun x : TodPort => { x with state := .down, below := [] }) hp
  have hstate : (getTod t p).state = (getTod s p).state := (congrArg TodPort.state hp :)
  unfold stems unlinked todUp
  rw [hport, hstate]

theorem stems_of_ports (h : t.fabric.ports = s.fabric.ports) : stems t = stems s := stems_of_links (links_of_ports h)

theorem stems_modTod {f : TodPort → TodPort} (hport : portOf (f (getTod s p)) = portOf (getTod s p)) (hup : unlinked (f (getTod s p)) = unlinked (getTod s p)) :
    stems (modTod s p f) = stems s := by
  funext q
  unfold stems
  rw [getTod_modTod]
  split
  · next hq => subst hq; rw [hport, hup]
  · rfl

theorem todUp_of_stems (h : stems t p = stems s p) : todUp (getTod t p) = todUp (getTod s p) := by
  have hup : unlinked (getTod t p) = unlinked (getTod s p) := congrArg Prod.snd h
  unfold unlinked at hup
  split at hup <;> split at hup <;> simp_all

/-! Events, replies and the loop. -/

theorem stems_post (s : State) (i c : Nat) (f : List Field) : stems (post s i c f) = stems s := stems_of_links (links_post ..)

theorem stems_routePkt (s : State) (a : Option Nat) (q : Pkt) : stems (routePkt s a q) = stems s := stems_of_links ((calm_links s).routePkt a q rfl)

theorem stems_pushReply (s : State) (i : Nat) (r : Reply) : stems (pushReply s i r) = stems s :=
  stems_of_links ((calm_links s).pushEntry (s := emit s _) i false _ (links_of_ports rfl))

theorem stems_sendReply (s : State) (i : Nat) (r : Reply) : stems (sendReply s i r) = stems s := by
  have hguard : stems (guardReply s i) = stems s := stems_of_links ((calm_links s).guardReply i rfl)
  unfold sendReply; dsimp only
  exact iteInduction (motive := fun t : State => stems t = stems s) (fun _ => (stems_pushReply ..).trans hguard)
    fun _ => (stems_of_ports rfl).trans hguard

theorem stems_finish (s : State) (h : Held) (st : Status) (w d : Nat) : stems (finish s h st w d) = stems s := by
  unfold finish; dsimp only
  exact iteInduction (motive := fun t : State => stems t = stems s) (fun _ => stems_of_ports rfl) fun _ => (stems_sendReply ..).trans (stems_of_ports rfl)

theorem stems_endScans (s : State) (lane n : Nat) : stems (endScans s lane n) = stems s :=
  forEach_same stems _ _ _ fun e t => by
    dsimp only
    split
    · exact (stems_finish ..).trans (stems_of_ports rfl)
    · exact stems_of_ports rfl

theorem stems_leaveLocked (s : State) : stems (leaveLocked s) = stems s := by
  unfold leaveLocked; split <;> rfl

theorem stems_postSwitch (s : State) (frm cause : Nat) : stems (postSwitch s frm cause) = stems s := stems_post ..

theorem stems_startSwitch (s : State) (r : RefSel) (cause : Nat) : stems (startSwitch s r cause) = stems s :=
  (stems_postSwitch ..).trans ((stems_of_ports rfl).trans (stems_leaveLocked s))

theorem stems_enterHold (s : State) : stems (enterHold s) = stems s :=
  iteInduction (motive := fun t : State => stems t = stems s) (fun _ => rfl) fun _ =>
    iteInduction (motive := fun t : State => stems t = stems s) (fun _ => (stems_postSwitch ..).trans ((stems_of_ports rfl).trans (stems_leaveLocked s)))
      fun _ => (stems_postSwitch ..).trans ((stems_of_ports rfl).trans (stems_leaveLocked s))

theorem stems_takeBest (s : State) (cause : Nat) : stems (takeBest s cause) = stems s := by
  unfold takeBest
  split
  · exact iteInduction (motive := fun t : State => stems t = stems s) (fun _ => stems_enterHold s) fun _ => stems_startSwitch ..
  · exact stems_enterHold s

theorem stems_reselect (s : State) (cause : Nat) : stems (reselect s cause) = stems s := by
  unfold reselect
  split
  · exact iteInduction (motive := fun t : State => stems t = stems s) (fun _ => rfl) fun _ => stems_startSwitch ..
  · split
    · exact iteInduction (motive := fun t : State => stems t = stems s) (fun _ => rfl) fun _ => stems_takeBest ..
    · exact stems_takeBest ..

theorem stems_setRef (s : State) (n : Nat) (r : RefState) (cause : Nat) : stems (setRef s n r cause) = stems s :=
  iteInduction (motive := fun t : State => stems t = stems s) (fun _ => rfl) fun _ => (stems_post ..).trans (stems_of_ports rfl)

theorem stems_loseInput (s : State) (input : Nat) : stems (loseInput s input) = stems s :=
  forEach_same stems _ _ _ fun _ t =>
    iteInduction (motive := fun u : State => stems u = stems t) (fun _ => rfl) fun _ =>
      iteInduction (motive := fun u : State => stems u = stems t) (fun _ => rfl) fun _ => (stems_reselect ..).trans ((stems_setRef ..).trans (stems_of_ports rfl))

/-! The tree. -/

/-- A port in a state. -/
def inLink (st : TodState) (x : TodPort) : TodPort := { x with state := st }

/-- A port enters a state: nothing else changes of a port but for what goes out. -/
theorem links_todEnter (s : State) (p : Nat) (st : TodState) (cause phase : Nat) : links (todEnter s p st cause phase) = links (modTod s p (inLink st)) := by
  unfold todEnter; dsimp only
  refine iteInduction (motive := fun t : State => links t = links (modTod s p (inLink st))) (fun hst => ?_) fun _ => ?_
  · refine (links_modTod (f := inLink st) ?_).symm
    rw [← hst]
    rfl
  · refine iteInduction (motive := fun t : State => links t = links (modTod s p (inLink st))) (fun _ => links_post ..) fun _ => ?_
    exact (links_emit ..).trans (links_post ..)

/-- A port that is UP and enters another state of the tree is as the tree leaves it. -/
theorem stems_todEnter {st : TodState} (hup : todUp (getTod s p) = true) (hst : st = .forwarding ∨ st = .blocked) (cause phase : Nat) :
    stems (todEnter s p st cause phase) = stems s := by
  refine (stems_of_links (links_todEnter ..)).trans (stems_modTod rfl ?_)
  have hup' : todUp (inLink st (getTod s p)) = true := by rcases hst with rfl | rfl <;> rfl
  exact (if_pos hup').trans (if_pos hup).symm

/-- Steps over some elements that keep a property. -/
theorem forEach_keeps_mem {α : Type} (P : State → Prop) (f : α → State → State) (l : List α) (hf : ∀ a ∈ l, ∀ t, P t → P (f a t)) (s : State) (hs : P s) :
    P (forEach l f s) := by
  induction l generalizing s with
  | nil => exact hs
  | cons a l ih => exact ih (fun b hb => hf b (List.mem_cons_of_mem _ hb)) _ (hf a List.mem_cons_self s hs)

/-- The ports that are UP take their places on the tree (R338). -/
def treeEntered (s : State) : State :=
  forEach ((List.range 4).filter fun p => todUp (getTod s p)) (fun p s => todEnter s p (if onTree s p then .forwarding else .blocked) 6 0) s

theorem stems_treeEntered (s : State) : stems (treeEntered s) = stems s := by
  refine forEach_keeps_mem (fun t => stems t = stems s) _ _ (fun q hq t ht => ?_) s rfl
  have hup : todUp (getTod s q) = true := (List.mem_filter.1 hq).2
  refine (stems_todEnter ((todUp_of_stems (congrFun ht q)).trans hup) ?_ ..).trans ht
  by_cases htree : onTree t q = true <;> simp [htree]

theorem stems_assignAddresses (s : State) : stems (assignAddresses s) = stems s := by
  refine (forEach_same stems _ _ _ fun q t => stems_modTod rfl rfl).trans ?_
  exact (forEach_same stems _ _ _ fun d t => stems_routePkt ..).trans (stems_of_ports rfl)

theorem stems_noteClaim (s : State) : stems (noteClaim s) = stems s := by
  unfold noteClaim; split
  · rfl
  · exact stems_of_ports rfl

theorem stems_reserveAll (s : State) : stems (reserveAll s).1 = stems s := by
  refine (forEach_same stems _ _ _ fun n t => ?_).trans (forEach_same stems _ _ _ fun _ _ => stems_of_ports rfl)
  exact iteInduction (motive := fun u : State => stems u = stems t) (fun _ => stems_of_ports rfl) fun _ => stems_of_ports rfl

/-- The root that the partners' data give (R338). -/
def treeRooted (s : State) : State :=
  if s.fabric.joining.isSome then s
  else { s with fabric := { s.fabric with rootId := (chooseRoot s).1, rootPort := (chooseRoot s).2.1, hops := (chooseRoot s).2.2 } }

/-- The addresses that the tree gives (R339). -/
def treeAddressed (s : State) : State :=
  if !onFabric s then { s with fabric := { s.fabric with addr := 0 } }
  else if s.fabric.rootPort.isNone && s.fabric.joining.isNone then assignAddresses s else s

/-- The routes that the addresses give (R344). -/
def treeRouted (s : State) : State :=
  noteClaim { s with fabric := { s.fabric with routes := s.fabric.routes.filter (fun e => decide (e.1 < 512)) ++ autoRoutes s } }

/-- The reservations that the routes give (R350). -/
def treeReserved (old : FabricSt) (s : State) : State × Nat := if old.routes != s.fabric.routes then reserveAll s else (s, 0)

/-- The event of a changed tree (R353). -/
def treePosted (old : FabricSt) (cause n : Nat) (s : State) : State :=
  if old.routes != s.fabric.routes || old.addr != s.fabric.addr || old.rootId != s.fabric.rootId || old.rootPort != s.fabric.rootPort || cause == 5 then
    postRoutes s (if old.rootId != s.fabric.rootId && cause != 5 then 2 else cause) n
  else s

/-- The tree but for the loop's choice. -/
def treeMade (s : State) (cause : Nat) : State :=
  let r := treeReserved s.fabric (treeRouted (treeAddressed (treeEntered (treeRooted s))))
  if s.fabric.routes != (treeRouted (treeAddressed (treeEntered (treeRooted s)))).fabric.routes || s.fabric.addr != r.1.fabric.addr || s.fabric.rootId != r.1.fabric.rootId ||
      s.fabric.rootPort != r.1.fabric.rootPort || cause == 5 then
    postRoutes r.1 (if s.fabric.rootId != r.1.fabric.rootId && cause != 5 then 2 else cause) r.2
  else r.1

theorem retree_eq (s : State) (cause : Nat) : ∃ c, retree s cause = reselect (treeMade s cause) c := ⟨_, rfl⟩

theorem stems_treeMade (s : State) (cause : Nat) : stems (treeMade s cause) = stems s := by
  have hrooted : stems (treeRooted s) = stems s := iteInduction (motive := fun t : State => stems t = stems s) (fun _ => rfl) fun _ => rfl
  have haddressed : ∀ u, stems (treeAddressed u) = stems u := fun u =>
    iteInduction (motive := fun t : State => stems t = stems u) (fun _ => rfl) fun _ =>
      iteInduction (motive := fun t : State => stems t = stems u) (fun _ => stems_assignAddresses u) fun _ => rfl
  have hrouted : ∀ u, stems (treeRouted u) = stems u := fun u => (stems_noteClaim _).trans (stems_of_ports rfl)
  have hreserved : ∀ old u, stems (treeReserved old u).1 = stems u := fun old u => by
    unfold treeReserved; split
    · exact stems_reserveAll u
    · rfl
  have hall := (hreserved s.fabric _).trans ((hrouted _).trans ((haddressed _).trans ((stems_treeEntered _).trans hrooted)))
  exact iteInduction (motive := fun t : State => stems t = stems s) (fun _ => (stems_post ..).trans hall) fun _ => hall

/-- A change of the tree leaves of every port all but its place on it and the devices behind it. -/
theorem stems_retree (s : State) (cause : Nat) : stems (retree s cause) = stems s := by
  obtain ⟨c, hc⟩ := retree_eq s cause
  rw [hc, stems_reselect, stems_treeMade]

/-- A link that ends loses what its port held of it. -/
theorem stems_dropLink (s : State) (p : Nat) : stems (dropLink s p) p = (portOf (clearLink (getTod s p)), unlinked (getTod s p)) := by
  have hscans : stems (endScans (endScans s (8 + 4 * p) 4) (24 + p) 1) = stems s := (stems_endScans ..).trans (stems_endScans ..)
  have hdrop := congrFun ((stems_retree _ 1).trans (stems_loseInput _ (4 + p)) : stems (dropLink s p) = _) p
  refine hdrop.trans ?_
  show stems (modTod (endScans (endScans s (8 + 4 * p) 4) (24 + p) 1) p clearLink) p = _
  generalize endScans (endScans s (8 + 4 * p) 4) (24 + p) 1 = u at hscans
  have hport : portOf (getTod u p) = portOf (getTod s p) := congrArg Prod.fst (congrFun hscans p)
  have hup : unlinked (getTod u p) = unlinked (getTod s p) := congrArg Prod.snd (congrFun hscans p)
  have hclear : ∀ x : TodPort, portOf (clearLink x) = portOf (clearLink (portOf x)) := fun _ => rfl
  have hstate : ∀ x : TodPort, unlinked (clearLink x) = unlinked x := fun _ => rfl
  unfold stems
  rw [getTod_modTod, if_pos rfl, hclear, hport, ← hclear, hstate, hup]

/-- A port that waits to train again, or not (R343). -/
def backingOff (again : Bool) (w : Nat) (x : TodPort) : TodPort := { x with backing := again, backAt := w }

theorem todDown_eq (s : State) (p cause phase : Nat) :
    todDown s p cause phase = dropLink (modTod (todEnter s p .down cause phase) p (backingOff (cause != 5) (upTime (todEnter s p .down cause phase)))) p := rfl

/-- A port that goes DOWN (R343). -/
theorem stems_todDown (s : State) (p cause phase : Nat) :
    ∃ w, stems (todDown s p cause phase) p = (portOf (clearLink (backingOff (cause != 5) w (getTod s p))), some .down) := by
  refine ⟨upTime (todEnter s p .down cause phase), ?_⟩
  rw [todDown_eq, stems_dropLink, getTod_modTod, if_pos rfl]
  have henter : linkOf (getTod (todEnter s p .down cause phase) p) = linkOf (inLink .down (getTod s p)) :=
    (congrFun (links_todEnter ..) p).trans (congrArg linkOf ((getTod_modTod s p p _).trans (if_pos rfl)))
  generalize upTime (todEnter s p .down cause phase) = w
  generalize getTod (todEnter s p .down cause phase) p = x at henter
  have hstate : x.state = .down := (congrArg TodPort.state henter :)
  have hport : ∀ y : TodPort, portOf (clearLink (backingOff (cause != 5) w y)) = portOf (clearLink (backingOff (cause != 5) w (linkOf y))) := fun _ => rfl
  have hdown : ∀ y : TodPort, portOf (clearLink (backingOff (cause != 5) w (linkOf (inLink .down y)))) = portOf (clearLink (backingOff (cause != 5) w y)) := fun _ => rfl
  refine Prod.ext ?_ ?_
  · exact (hport x).trans ((congrArg (fun y => portOf (clearLink (backingOff (cause != 5) w y))) henter).trans (hdown _))
  · have hup : todUp (backingOff (cause != 5) w x) = false := by
      show (x.state == .forwarding || x.state == .blocked) = false
      rw [hstate]; rfl
    refine (if_neg (by rw [hup]; exact Bool.false_ne_true)).trans (congrArg some ?_)
    exact hstate

end Sys2Proof.Machine
end

section
/-! Toden ports: training, HELLO, marks and control (R326 to R343). -/
namespace Sys2Proof.Machine
open Sys2Proof

variable {s t u : State} {p : Nat}

/-! Training (R343). -/

theorem execTodenHelloSend_up (hp : p < 4) (hup : todUp (getTod s p) = true) (hdue : dueAgain s (getTod s p).helloAt 100000 = true) :
    exec (.todenHelloSend p) s = .next (sendPkt (modTod s p fun x => { x with helloAt := some (upTime s) }) p { dest := 4095, src := s.fabric.addr, kind := 1, payload := helloBytes s p }) :=
  congrArg Host.Outcome.next (if_pos (by simp [hp, hup, hdue]))

theorem execTodenTrainingPhaseComplete_next (hp : p < 4) (hstate : (getTod s p).state = .training) (hphase : (getTod s p).phase < 3) :
    exec (.todenTrainingPhaseComplete p) s = .next (modTod s p fun x => { x with phase := x.phase + 1, phaseAt := upTime s, helloAt := none, measureAt := none }) :=
  congrArg Host.Outcome.next ((if_neg (by simp [hp, hstate])).trans (if_pos hphase))

/-- A port that has trained. -/
def trainedPort (w : Nat) (x : TodPort) : TodPort := { x with phase := 0, series := 0, retries := 0, backoffMs := 100, heardAt := w }

theorem execTodenTrainingPhaseComplete_trained (hp : p < 4) (hstate : (getTod s p).state = .training) (hphase : 3 ≤ (getTod s p).phase) (hpartner : (getTod s p).partner ≠ none)
    (hcable : (getTod s p).cable ≠ []) :
    ∃ w, exec (.todenTrainingPhaseComplete p) s = .next (retree (modTod (todEnter s p .blocked 1 0) p (trainedPort w)) 1) := by
  refine ⟨upTime (todEnter s p .blocked 1 0), congrArg Host.Outcome.next ((if_neg (by simp [hp, hstate])).trans ((if_neg (by omega)).trans (if_neg ?_)))⟩
  have hsome : (getTod s p).partner.isNone = false := Option.isNone_eq_false_iff.2 (Option.isSome_iff_ne_none.2 hpartner)
  simp [hsome, hcable]

/-- What a port is once it has trained. -/
theorem stems_trained (s : State) (p w : Nat) :
    stems (retree (modTod (todEnter s p .blocked 1 0) p (trainedPort w)) 1) p = (portOf (trainedPort w (getTod s p)), none) := by
  have henter : linkOf (getTod (todEnter s p .blocked 1 0) p) = linkOf (inLink .blocked (getTod s p)) :=
    (congrFun (links_todEnter ..) p).trans (congrArg linkOf ((getTod_modTod s p p _).trans (if_pos rfl)))
  rw [stems_retree]
  unfold stems
  rw [getTod_modTod, if_pos rfl]
  generalize getTod (todEnter s p .blocked 1 0) p = x at henter
  have hstate : x.state = .blocked := (congrArg TodPort.state henter :)
  have hport : ∀ y : TodPort, portOf (trainedPort w y) = portOf (trainedPort w (linkOf y)) := fun _ => rfl
  have hblocked : ∀ y : TodPort, portOf (trainedPort w (linkOf (inLink .blocked y))) = portOf (trainedPort w y) := fun _ => rfl
  refine Prod.ext ((hport x).trans ((congrArg (fun y => portOf (trainedPort w y)) henter).trans (hblocked _))) (if_pos ?_)
  show (x.state == .forwarding || x.state == .blocked) = true
  rw [hstate]; rfl

theorem execTodenPhaseTimeout_retry (hp : p < 4) (hstate : (getTod s p).state = .training) (hseries : (getTod s p).series < 3) (hpassed : passed s (getTod s p).phaseAt 2000000 = true) :
    exec (.todenPhaseTimeout p) s = .next (modTod s p fun x => { x with
      phase := 1, phaseAt := upTime s, series := x.series + 1, retries := satAdd 16 x.retries 1, partner := none, below := [], cable := [] }) :=
  congrArg Host.Outcome.next ((if_neg (by simp [hp, hstate, hpassed])).trans (if_pos hseries))

theorem execTodenPhaseTimeout_down (hp : p < 4) (hstate : (getTod s p).state = .training) (hseries : 3 ≤ (getTod s p).series) (hpassed : passed s (getTod s p).phaseAt 2000000 = true) :
    exec (.todenPhaseTimeout p) s = .next (todDown s p 2 (getTod s p).phase) :=
  congrArg Host.Outcome.next ((if_neg (by simp [hp, hstate, hpassed])).trans (if_neg (by omega)))

/-- What can be read of a port that went DOWN. -/
theorem todDown_port (s : State) (p cause phase : Nat) :
    (getTod (todDown s p cause phase) p).state = .down ∧ (getTod (todDown s p cause phase) p).backing = (cause != 5) ∧ (getTod (todDown s p cause phase) p).partner = none ∧
      (getTod (todDown s p cause phase) p).cable = [] ∧ (getTod (todDown s p cause phase) p).retries = (getTod s p).retries := by
  obtain ⟨w, hstems⟩ := stems_todDown s p cause phase
  generalize todDown s p cause phase = t at hstems
  have hport : portOf (getTod t p) = portOf (clearLink (backingOff (cause != 5) w (getTod s p))) := congrArg Prod.fst hstems
  have hstate : unlinked (getTod t p) = some .down := congrArg Prod.snd hstems
  refine ⟨?_, (congrArg TodPort.backing hport :), (congrArg TodPort.partner hport :), (congrArg TodPort.cable hport :), (congrArg TodPort.retries hport :)⟩
  unfold unlinked at hstate
  split at hstate
  · cases hstate
  · exact Option.some.inj hstate

/-- A port that trains again after its back-off. -/
def retrained (w : Nat) (x : TodPort) : TodPort :=
  { x with phase := 1, phaseAt := w, series := 0, retries := satAdd 16 x.retries 1, backing := false, backoffMs := min 1000 (2 * x.backoffMs) }

theorem execTodenBackoffExpiry_eq (hp : p < 4) (hstate : (getTod s p).state = .down) (hbacking : (getTod s p).backing = true)
    (hpassed : passed s (getTod s p).backAt ((getTod s p).backoffMs * 1000000) = true) :
    exec (.todenBackoffExpiry p) s = .next (modTod (todEnter s p .training 2 0) p (retrained (upTime s))) :=
  congrArg Host.Outcome.next ((if_neg (by simp [hp, hstate, hbacking, hpassed])).trans rfl)

theorem kept_emit (s : State) (o : Output) : kept (emit s o) = kept s := rfl

/-- A change of a port's state changes what is kept of nothing (R327). -/
theorem kept_todEnter (s : State) (p : Nat) (st : TodState) (cause phase : Nat) : kept (todEnter s p st cause phase) = kept s := by
  unfold todEnter; dsimp only
  refine iteInduction (motive := fun t : State => kept t = kept s) (fun _ => rfl) fun _ => ?_
  have hpost : ∀ f, kept (post (modTod s p (inLink st)) 0 0x0801 f) = kept s := fun f => (kept_post ..).trans rfl
  exact iteInduction (motive := fun t : State => kept t = kept s) (fun _ => hpost _) fun _ => (kept_emit ..).trans (hpost _)

/-- A port that enters TRAINING is, but for its state, as it was. -/
theorem getTod_todEnter_training (hstate : (getTod s p).state ≠ .training) (cause phase : Nat) :
    getTod (todEnter s p .training cause phase) p = inLink .training (getTod s p) := by
  have hmod : getTod (modTod s p (inLink .training)) p = inLink .training (getTod s p) := (getTod_modTod s p p _).trans (if_pos rfl)
  have hclosed := calm_closed p (x := inLink .training (getTod s p)) TodState.noConfusion
  have hpost : ∀ f, getTod (post (modTod s p (inLink .training)) 0 0x0801 f) p = inLink .training (getTod s p) := fun f => hclosed.post 0 0x0801 f hmod
  unfold todEnter; dsimp only
  rw [if_neg hstate]
  exact iteInduction (motive := fun t : State => getTod t p = inLink .training (getTod s p)) (fun _ => hpost _) fun _ => hclosed.emit _ _ (hpost _)

theorem backoffExpired (hp : p < 4) (hstate : (getTod s p).state = .down) (hbacking : (getTod s p).backing = true)
    (hpassed : passed s (getTod s p).backAt ((getTod s p).backoffMs * 1000000) = true) :
    ∃ t, exec (.todenBackoffExpiry p) s = .next t ∧ quiet t = quiet s ∧ getTod t p = retrained (upTime s) (inLink .training (getTod s p)) := by
  have hkept := kept_todEnter s p .training 2 0
  refine ⟨_, execTodenBackoffExpiry_eq hp hstate hbacking hpassed, ?_, ?_⟩
  · exact (quiet_modTod _ p _).trans (quiet_of_kept hkept)
  · rw [getTod_modTod, if_pos rfl, getTod_todEnter_training (by rw [hstate]; exact TodState.noConfusion)]

theorem execTodenHelloSilence_eq (hp : p < 4) (hup : todUp (getTod s p) = true) (hpassed : passed s (getTod s p).heardAt 1000000 = true) :
    exec (.todenHelloSilence p) s = .next (todDown s p 4 0) :=
  congrArg Host.Outcome.next (if_pos (by simp [hp, hup, hpassed]))

theorem execTodenLockLoss_eq (hp : p < 4) (hup : todUp (getTod s p) = true) (n : Nat) :
    exec (.todenLockLoss ⟨p, n⟩) s = .next (todDown (bump s 5 (if n < 4 then 8 + 4 * p + n else 24 + p) 4 1) p 3 0) :=
  congrArg Host.Outcome.next (if_pos (by simp [hp, hup]))

/-! HELLO and the delay measurement (R334, R337). -/

theorem execTodenHelloReceived_eq {bits : List (List Bool)} {q : Pkt} (below : List TreeDev) (htake : takePkt s p 1 bits = (u, some q)) :
    exec (.todenHelloReceived p bits below) s = .next (
      if (helloOf q.payload).id = ownId then todDown u p 5 0
      else
        let v := modTod u p fun x => { x with partner := some (helloOf q.payload), below, heardAt := upTime u }
        if todUp (getTod v p) then retree (joinStep v p (helloOf q.payload)) 1 else v) := by
  show execTodenHelloReceived p bits below s = _
  unfold execTodenHelloReceived
  rw [htake]

theorem execTodenHelloReceived_training {bits : List (List Bool)} {below : List TreeDev} {q : Pkt} (htake : takePkt s p 1 bits = (u, some q))
    (hid : (helloOf q.payload).id ≠ ownId) (hstate : (getTod u p).state = .training) :
    exec (.todenHelloReceived p bits below) s = .next (modTod u p fun x => { x with partner := some (helloOf q.payload), below := below, heardAt := upTime u }) := by
  rw [execTodenHelloReceived_eq below htake, if_neg hid]
  refine congrArg Host.Outcome.next (if_neg ?_)
  rw [getTod_modTod, if_pos rfl]
  simp [todUp, hstate]

theorem measures_of_up {x : TodPort} (hup : todUp x = true) : measures x = true := by simp [measures, hup]

theorem execCreditBlockReceived_eq (hp : p < 4) (hup : todUp (getTod s p) = true) (credits acks : List Nat) :
    exec (.creditBlockReceived p credits acks) s = .next (
      forEach (replayed acks (getTod s p).replay 0 ++ replayed acks (getTod s p).replay 2) (fun b s => resend s p b)
        (modTod s p fun x => { x with credits, replay := x.replay.filter fun e => !acked acks e })) :=
  congrArg Host.Outcome.next (if_pos (by simp [hp, hup]))

/-- A packet is acknowledged by the newest of its virtual channel (R330). -/
theorem acked_pair (a b : Nat) (e : Nat × Nat × List Byte) : acked [a, b] e = decide (((if e.1 = 0 then a else b) + 65536 - e.2.1) % 65536 < 32768) := by
  unfold acked
  by_cases h : e.1 = 0 <;> simp [h]

/-! The timing lane (R333 to R336, R341). -/

/-- A change that leaves a port's state leaves the ports that forward. -/
theorem forwarding_modTod {f : TodPort → TodPort} (h : (f (getTod s p)).state = (getTod s p).state) : forwarding (modTod s p f) = forwarding s := by
  unfold forwarding
  congr 1; funext q
  rw [getTod_modTod]
  split
  · next hq => subst hq; rw [h]
  · rfl

theorem forwarding_of_ports (h : t.fabric.ports = s.fabric.ports) : forwarding t = forwarding s := by
  unfold forwarding getTod; rw [h]

theorem getTod_of_ports (h : t.fabric.ports = s.fabric.ports) (p : Nat) : getTod t p = getTod s p := by
  unfold getTod; rw [h]

theorem markPorts_of_forwarding (h : forwarding t = forwarding s) (p : Nat) : markPorts t p = markPorts s p := by
  unfold markPorts; rw [h]

/-- A frame mark's start, and the lane's phase at it. -/
def markTaken (s : State) (p : Nat) (w : Wp) : State :=
  modTod (modLane s p fun e => { e with measured := true, phase := nearPhase e.phase w.tick }) p fun x => { x with markAt := some w }

theorem execTodenMarkReceived_last {fine sub : Nat} (hp : p < 4) (hstate : (getTod s p).state = .forwarding) (hup : upPort s = some p) (hports : markPorts s p = []) :
    exec (.todenMarkReceived p true ⟨fine, sub⟩) s = .next (markTaken s p (markStart s (getTod s p) fine sub)) := by
  refine congrArg Host.Outcome.next ((if_neg (by simp [hp, hstate, hup])).trans ?_)
  have hnone : markPorts (markTaken s p (markStart s (getTod s p) fine sub)) p = [] :=
    (markPorts_of_forwarding (forwarding_modTod (s := modLane s p _) rfl) p).trans hports
  show forEach (markPorts (markTaken s p (markStart s (getTod s p) fine sub)) p) _ (markTaken s p (markStart s (getTod s p) fine sub)) = _
  rw [hnone]
  rfl

/-- An epoch's values. -/
def epochTaken (l : List Byte) (x : TodPort) : TodPort := { x with pathDelay := leAt l 4 3, epochFrame := leAt l 0 4 }

/-- The state of an epoch that disagrees with the own WP (R341). -/
def epochDiffers (s : State) (p : Nat) (l : List Byte) (d : Int) : State :=
  modTod (modLane (modTod s p (epochTaken l)) p fun e => { e with phase := d }) p fun x => { x with disagree := x.disagree + 1 }

/-- The second of two that disagree leads to a jump. -/
def epochJumps (s : State) (p : Nat) (l : List Byte) (d : Int) : State :=
  if 1 ≤ (getTod s p).disagree then { epochDiffers s p l d with fabric := { (epochDiffers s p l d).fabric with jumpPort := some p } } else epochDiffers s p l d

theorem getTod_epochDiffers (s : State) (p : Nat) (l : List Byte) (d : Int) :
    getTod (epochDiffers s p l d) p = { epochTaken l (getTod s p) with disagree := (getTod s p).disagree + 1 } := by
  have htaken : getTod (modLane (modTod s p (epochTaken l)) p fun e => { e with phase := d }) p = epochTaken l (getTod s p) := (getTod_modTod s p p _).trans (if_pos rfl)
  refine (getTod_modTod _ p p _).trans ((if_pos rfl).trans ?_)
  rw [htaken]
  rfl

theorem getTod_epochJumps (s : State) (p : Nat) (l : List Byte) (d : Int) :
    getTod (epochJumps s p l d) p = { epochTaken l (getTod s p) with disagree := (getTod s p).disagree + 1 } :=
  iteInduction (motive := fun t : State => getTod t p = { epochTaken l (getTod s p) with disagree := (getTod s p).disagree + 1 })
    (fun _ => (getTod_of_ports (s := epochDiffers s p l d) rfl p).trans (getTod_epochDiffers ..)) fun _ => getTod_epochDiffers ..

theorem forwarding_epochJumps (s : State) (p : Nat) (l : List Byte) (d : Int) : forwarding (epochJumps s p l d) = forwarding s := by
  have htaken : forwarding (modTod s p (epochTaken l)) = forwarding s := forwarding_modTod rfl
  have hdiffers : forwarding (epochDiffers s p l d) = forwarding s := (forwarding_modTod rfl).trans ((forwarding_of_ports rfl).trans htaken)
  exact iteInduction (motive := fun t : State => forwarding t = forwarding s) (fun _ => (forwarding_of_ports (s := epochDiffers s p l d) rfl).trans hdiffers) fun _ => hdiffers

theorem execTodenEpochReceived_differs {e : List Byte} {m : Wp} (hp : p < 4) (hstate : (getTod s p).state = .forwarding) (hup : upPort s = some p)
    (hports : markPorts s p = []) (hcrc : byteAt e 7 = crcFwd 8 0x07 0xFF (e.take 7)) (hmark : (getTod s p).markAt = some m) (hjoining : s.fabric.joining = none)
    (hdiffers : (frameTicks s : Int) < 2 * ((tickDelta (wallLines s) m ⟨leAt (e.take 7) 0 4, 0, 0⟩).natAbs : Int)) :
    exec (.todenEpochReceived p e) s = .next (epochJumps s p (e.take 7) (tickDelta (wallLines s) m ⟨leAt (e.take 7) 0 4, 0, 0⟩)) := by
  refine congrArg Host.Outcome.next ((if_neg (by simp [hp, hstate, hup, hcrc])).trans ?_)
  refine (congrArg (fun u => forEach (markPorts u p) (fun q v => emit v (.toden q symEpoch (epochBytes (leAt (e.take 7) 0 4) (onwardPath (leAt (e.take 7) 4 3) (cablePs (getTod s p)))))) u)
    (?_ : _ = epochJumps s p (e.take 7) (tickDelta (wallLines s) m ⟨leAt (e.take 7) 0 4, 0, 0⟩))).trans ?_
  · dsimp only
    rw [hmark]
    exact (if_neg (show ¬s.fabric.joining = some p by rw [hjoining]; simp)).trans (if_pos hdiffers)
  · rw [(markPorts_of_forwarding (forwarding_epochJumps ..) p).trans hports]
    rfl

/-! CONTROL messages (R342). -/

theorem execControlMessage_local {bits : List (List Bool)} {q : Pkt} (htake : takePkt s p 2 bits = (u, some q)) (hup : todUp (getTod u p) = true) (hport : upPort u = some p)
    (hdest : q.dest ≠ 4095) (hroute : routeOf u q.dest = some 15) : exec (.controlMessage p bits) s = .next (takeControl u p q.payload) := by
  show execControlMessage p bits s = _
  unfold execControlMessage
  rw [htake]
  refine congrArg Host.Outcome.next ((if_neg (by simp [hup])).trans ?_)
  rw [if_neg (show ¬(q.dest = 4095 ∨ routeOf u q.dest ≠ some 15) by simp [hdest, hroute])]
  exact if_pos (by simp [hport, isLocal, hroute])

theorem upPort_routePkt (s : State) (a : Option Nat) (q : Pkt) : upPort (routePkt s a q) = upPort s := by
  have hjoining : (routePkt s a q).fabric.joining = s.fabric.joining := read_kept (·.fabric.joining) (fun _ => rfl) (kept_routePkt ..)
  have hroot : (routePkt s a q).fabric.rootPort = s.fabric.rootPort := read_kept (·.fabric.rootPort) (fun _ => rfl) (kept_routePkt ..)
  unfold upPort
  rw [hjoining, hroot]

theorem execControlMessage_onward {bits : List (List Bool)} {q : Pkt} (htake : takePkt s p 2 bits = (u, some q)) (hup : todUp (getTod u p) = true) (hport : upPort u ≠ some p)
    (hroute : routeOf u q.dest ≠ some 15) : exec (.controlMessage p bits) s = .next (routePkt u (some p) q) := by
  show execControlMessage p bits s = _
  unfold execControlMessage
  rw [htake]
  refine congrArg Host.Outcome.next ((if_neg (by simp [hup])).trans ?_)
  rw [if_pos (show q.dest = 4095 ∨ routeOf u q.dest ≠ some 15 from .inr hroute)]
  refine if_neg ?_
  rw [upPort_routePkt]
  simp [hport]

end Sys2Proof.Machine
end

section
namespace Sys2Proof.Machine
open Sys2Proof

theorem todUp_of_state {x : TodPort} (h : x.state = .forwarding ∨ x.state = .blocked) : todUp x = true := by
  rcases h with h | h <;> simp [todUp, h]

/-- Settles O43. -/
theorem todenPorts : Obligations.TodenPorts := by
  unfold Obligations.TodenPorts
  refine ⟨fun s p hp hstate hdue => execTodenHelloSend_up hp (todUp_of_state hstate) hdue, fun s p hp hstate hphase => execTodenTrainingPhaseComplete_next hp hstate hphase,
    fun s p hp hstate hphase hpartner hcable => ?_, fun s p hp hstate hseries hpassed => execTodenPhaseTimeout_retry hp hstate hseries hpassed,
    fun s p hp hstate hseries hpassed => ?_, fun s p hp hstate hbacking hpassed => backoffExpired hp hstate hbacking hpassed,
    fun s p n hp hup => ⟨fun hpassed => ?_, ?_⟩, fun s u p pkt below q htake hid hstate => execTodenHelloReceived_training htake hid hstate,
    fun s u p pkt below q htake hid => ?_, fun s p hp hup => ⟨fun hdue => ?_, fun hdue => ?_, ?_⟩, fun s p n hp hup => ?_, fun s p a b credits hp hup => ?_,
    fun s p fine sub ps4 w hp hstate hup hports hps4 hw => ?_, fun s p e hcrc => ?_,
    fun s p e m d hp hstate hup hports hcrc hmark hd hjoining hdiffers => ?_, fun s u p pkt l q htake hl hup hport hlocal hdest hroute => ⟨fun hk => ?_, fun hk => ?_⟩,
    fun s u p pkt q htake hup hport hdest hroute => execControlMessage_onward htake hup hport hroute⟩
  · obtain ⟨w, hexec⟩ := execTodenTrainingPhaseComplete_trained hp hstate hphase hpartner hcable
    have hstems := stems_trained s p w
    generalize retree (modTod (todEnter s p .blocked 1 0) p (trainedPort w)) 1 = t at hexec hstems
    have hport : portOf (getTod t p) = portOf (trainedPort w (getTod s p)) := congrArg Prod.fst hstems
    have hup : unlinked (getTod t p) = none := congrArg Prod.snd hstems
    refine ⟨t, hexec, ?_, (congrArg TodPort.phase hport :), (congrArg TodPort.series hport :), (congrArg TodPort.retries hport :), (congrArg TodPort.backoffMs hport :),
      (congrArg TodPort.cable hport :)⟩
    by_contra hdown
    exact absurd ((if_neg hdown).symm.trans hup) (by simp)
  · obtain ⟨hdown, hbacking, hpartner, -, hretries⟩ := todDown_port s p 2 (getTod s p).phase
    exact ⟨_, execTodenPhaseTimeout_down hp hstate hseries hpassed, hdown, hbacking, hpartner, hretries⟩
  · obtain ⟨hdown, hbacking, hpartner, hcable, -⟩ := todDown_port s p 4 0
    exact ⟨_, execTodenHelloSilence_eq hp hup hpassed, hdown, hbacking, hpartner, hcable⟩
  · obtain ⟨hdown, hbacking, hpartner, hcable, -⟩ := todDown_port (bump s 5 (if n < 4 then 8 + 4 * p + n else 24 + p) 4 1) p 3 0
    exact ⟨_, execTodenLockLoss_eq hp hup n, hdown, hbacking, hpartner, hcable⟩
  · obtain ⟨hdown, hbacking, -⟩ := todDown_port u p 5 0
    exact ⟨_, (execTodenHelloReceived_eq below htake).trans (congrArg _ (if_pos hid)), hdown, hbacking⟩
  · exact congrArg Host.Outcome.next (if_pos (by simp [hp, measures_of_up hup, hdue]))
  · exact congrArg Host.Outcome.next (if_neg (by simp [hdue]))
  · exact congrArg Host.Outcome.next (if_pos (by simp [hp, measures_of_up hup]))
  · exact congrArg Host.Outcome.next (if_pos (by simp [hp, measures_of_up hup]))
  · refine (execCreditBlockReceived_eq hp hup credits [a, b]).trans ?_
    simp only [acked_pair]
  · subst hps4 hw
    exact execTodenMarkReceived_last hp hstate hup hports
  · exact congrArg Host.Outcome.next (if_pos (by simp [hcrc]))
  · subst hd
    refine ⟨_, execTodenEpochReceived_differs hp hstate hup hports hcrc hmark hjoining hdiffers, getTod_epochJumps .., ?_, ?_, ?_, ?_⟩ <;>
      unfold epochJumps <;> split
    · exact (congrArg _ ((getLane_modLane _ p p _).trans (if_pos rfl)))
    · exact (congrArg _ ((getLane_modLane _ p p _).trans (if_pos rfl)))
    iterate 6 rfl
  · subst hl
    rw [Becomes, execControlMessage_local htake hup hport hdest hroute]
    simp [takeControl, hk]
  · subst hl
    rw [Becomes, execControlMessage_local htake hup hport hdest hroute]
    simp [takeControl, hk]

end Sys2Proof.Machine
end

section
/-! What the exports, the Gauge and the captures of a source leave (R251, R345, R381). -/
namespace Sys2Proof.Machine
open Sys2Proof

variable {s : State} {β : Type} {g : State → β}

/-! Reads that are noted. -/

theorem quiet_countDiscards (s : State) (x : Surface) (first count : Nat) : quiet (countDiscards s x first count) = quiet s := by
  refine iteInduction (motive := fun t : State => quiet t = quiet s) (fun _ => rfl) fun _ => forEach_same quiet _ _ _ fun r t => forEach_same quiet _ _ _ fun c u => ?_
  split <;> rfl

theorem quiet_noteSent (s : State) (x : Surface) (y : Nat) (chroma : Bool) : quiet (noteSent s x y chroma) = quiet s := by
  unfold noteSent
  dsimp only
  split
  · exact quiet_of_kept (kept_denyAt ..)
  · exact (quiet_countDiscards ..).trans (quiet_noteRead ..)

theorem quiet_sendLine (s : State) (n : Nat) (x : Surface) (y : Nat) (chroma : Bool) : quiet (sendLine s n x y chroma) = quiet s :=
  (quiet_of_kept (kept_routePkt ..)).trans (quiet_noteSent ..)

/-! Views. -/

/-- A view of the state that neither packets, events and denials nor exports, latches and the Gauge change. -/
structure SentView (g : State → β) : Prop where
  quiet : ∀ {s t : State}, quiet t = quiet s → g t = g s
  exports : ∀ s n f, g (modExport s n f) = g s
  latches : ∀ (s : State) l, g { s with store := { s.store with latches := l } } = g s
  gauge : ∀ (s : State) x, g { s with gauge := x } = g s

namespace SentView

theorem kept (k : SentView g) {s t : State} (h : Machine.kept t = Machine.kept s) : g t = g s := k.quiet (quiet_of_kept h)

theorem endExportPass (k : SentView g) (s : State) (n : Nat) : g (endExportPass s n) = g s := (k.latches ..).trans (k.exports ..)

theorem sendPair (k : SentView g) (s : State) (n : Nat) (x : Surface) (y : Nat) : g (sendPair s n x y) = g s := by
  have hline : ∀ t y c f, g (modExport (sendLine t n x y c) n f) = g t := fun t y c f => (k.exports ..).trans (k.quiet (quiet_sendLine ..))
  refine iteInduction (motive := fun t : State => g t = g s) (fun _ => ?_) fun _ => hline ..
  exact (hline ..).trans (hline ..)

/-- Lines that are exported change none of it (R345). -/
theorem exportLines (k : SentView g) (s : State) (i : Nat) : g (exportLines s i) = g s := by
  unfold Machine.exportLines
  dsimp only
  split
  · rfl
  · refine forEach_same g _ _ _ fun n t => ?_
    have hpairs : ∀ l x, g (forEach l (fun y s => Machine.sendPair s n x y) t) = g t := fun l x => forEach_same g _ _ _ fun y u => k.sendPair u n x y
    exact iteInduction (motive := fun u : State => g u = g t) (fun _ => (k.endExportPass ..).trans (hpairs ..)) fun _ => hpairs ..

/-- A frame that is exported changes none of it (R345). -/
theorem exportFrame (k : SentView g) (s : State) (src i : Nat) : g (exportFrame s src i) = g s := by
  refine forEach_same g _ _ _ fun n t => ?_
  refine iteInduction (motive := fun u : State => g u = g t) (fun _ => k.endExportPass ..) fun _ => ?_
  exact (k.kept (kept_routePkt ..)).trans ((k.latches ..).trans ((k.exports ..).trans (k.endExportPass ..)))

theorem queueGauge (k : SentView g) (s : State) (r : GaugeRec) : g (queueGauge s r) = g s := by
  have hevent : ∀ (t : State) c, g (gaugeEvent t c) = g t := fun t c => k.kept (kept_post ..)
  unfold Machine.queueGauge; dsimp only
  refine iteInduction (motive := fun t : State => g t = g s) (fun _ => ?_) fun _ => ?_
  · exact iteInduction (motive := fun t : State => g t = g s) (fun _ => (hevent ..).trans (k.gauge ..)) fun _ => k.gauge ..
  · refine iteInduction (motive := fun t : State => g t = g s) (fun _ => ?_) fun _ => k.gauge ..
    exact iteInduction (motive := fun t : State => g t = g s) (fun _ => (hevent ..).trans (k.gauge ..)) fun _ => k.gauge ..

theorem gaugeResult (k : SentView g) (s : State) (u kind port tagA tagB pass : Nat) (lost : Bool) (fold data : List Byte) :
    g (gaugeResult s u kind port tagA tagB pass lost fold data) = g s := (k.queueGauge ..).trans (k.gauge ..)

/-- Results of a line's Gauge units change none of it (R381). -/
theorem gaugeLine (k : SentView g) (s : State) (i line : Nat) (data : List Byte) : g (gaugeLine s i line data) = g s :=
  forEach_same g _ _ _ fun _ t => iteInduction (motive := fun v : State => g v = g t) (fun _ => k.gaugeResult ..) fun _ => rfl

theorem finishKey (k : SentView g) (s : State) (key : CmdKey) (st : Status) (w : Nat) (f : List Field) : g (finishKey s key st w f) = g s :=
  k.quiet (quiet_finishKey ..)

variable (k : SentView g) (hsession : ∀ s n f, g (modSession s n f) = g s)
include k hsession

theorem serveRequests (s : State) (n : Nat) : g (serveRequests s n) = g s := by
  refine (hsession ..).trans ((forEach_same g _ _ _ fun r t => k.finishKey ..).trans (forEach_same g _ _ _ fun r t => ?_))
  exact (k.finishKey ..).trans (hsession ..)

theorem captureStart (s : State) (n : Nat) (buf : Option (Nat × Nat)) : g (captureStart s n buf) = g s := by
  have hserve := serveRequests k hsession s n
  have hoverrun : ∀ (t : State) c p, g (overrun t n c p) = g t := fun t c p => k.kept (kept_postEvent ..)
  unfold Machine.captureStart
  extract_lets
  split
  · exact (hsession ..).trans hserve
  · exact (hoverrun ..).trans ((hsession ..).trans hserve)

/-- A pass that is captured changes no more than sessions, exports and latches (R251). -/
theorem captureSource (s : State) (src i : Nat) : g (captureSource s src i) = g s := by
  refine (forEach_same g _ _ _ fun n t => ?_).trans (k.exportFrame s src i)
  have hdecimated : g (takeDecimated t n).1 = g t := hsession ..
  split
  · next heq => rw [heq] at hdecimated; exact hdecimated
  · next heq => rw [heq] at hdecimated; exact (captureStart k hsession ..).trans hdecimated

end SentView

theorem sentView_time : SentView fun s => s.time where
  quiet := quiet_eq (·.time) fun _ => rfl
  exports _ _ _ := rfl
  latches _ _ := rfl
  gauge _ _ := rfl

/-- Imports and surfaces. -/
def intakeView (s : State) : Tab Import × Tab Surface := (s.fabric.imports, s.store.surfs)

theorem sentView_intake : SentView intakeView where
  quiet := quiet_eq intakeView fun _ => rfl
  exports _ _ _ := rfl
  latches _ _ := rfl
  gauge _ _ := rfl

/-- A line that is dropped or stored changes no import and no surface (R371). -/
theorem intakeView_planeLine (s : State) (i y : Nat) (data : List Byte) : intakeView (planeLine s i y data) = intakeView s := by
  unfold planeLine
  extract_lets
  split
  · unfold dropWrite
    extract_lets
    have hdenied : ∀ w e r a, intakeView (denyAt s w e true r a) = intakeView s := fun w e r a => sentView_intake.kept (kept_denyAt ..)
    split
    · exact hdenied ..
    · exact (show intakeView _ = intakeView (denyAt s _ _ true _ _) from rfl).trans (hdenied ..)
  · exact (sentView_intake.gaugeLine ..).trans rfl

end Sys2Proof.Machine
end

section
/-! Routes, exports and imports (R344 to R350). -/
namespace Sys2Proof.Machine
open Sys2Proof

variable {s t u : State} {h : Held} {c : Cmd}

theorem routes_reserveAll (s : State) : (reserveAll s).1.fabric.routes = s.fabric.routes := by
  refine (forEach_same (·.fabric.routes) _ _ _ fun n t => ?_).trans (forEach_same (·.fabric.routes) _ _ _ fun _ _ => rfl)
  exact iteInduction (motive := fun u : State => u.fabric.routes = t.fabric.routes) (fun _ => rfl) fun _ => rfl

theorem routes_noteClaim (s : State) : (noteClaim s).fabric.routes = s.fabric.routes := by
  unfold noteClaim; split <;> rfl

/-- A route that a FABRIC_ROUTE_SET gives (R344). -/
def routeSet (s : State) (p : Packet) : State :=
  { s with fabric := { s.fabric with routes := tset {} s.fabric.routes (pf p 16 0 9) { low := pf p 20 0 12, high := pf p 22 0 12, port := pf p 18 0 4, enable := pb p 18 4 } } }

/-- The reservations after a change of the routes (R350). -/
def routeReserved (old : Tab Route) (s : State) : State × Nat := if s.fabric.routes = old then (s, 0) else reserveAll (noteClaim s)

theorem actRouteSet_eq (s : State) (h : Held) (c : Cmd) :
    actRouteSet s h c =
      let r := routeReserved s.fabric.routes (routeSet s h.pkt)
      finishNow (if r.1.fabric.routes = s.fabric.routes then r.1 else postRoutes r.1 3 r.2) h .ok [fAt 16 0 16 r.2] := rfl

theorem actRouteSet_changed {n : Nat} (c : Cmd) (hchanged : (routeSet s h.pkt).fabric.routes ≠ s.fabric.routes)
    (hreserved : reserveAll (noteClaim (routeSet s h.pkt)) = (u, n)) : actRouteSet s h c = finishNow (postRoutes u 3 n) h .ok [fAt 16 0 16 n] := by
  have hroutes : u.fabric.routes = (routeSet s h.pkt).fabric.routes := by
    have hsame := (routes_reserveAll (noteClaim (routeSet s h.pkt))).trans (routes_noteClaim _)
    rwa [hreserved] at hsame
  have hr : routeReserved s.fabric.routes (routeSet s h.pkt) = (u, n) := (if_neg hchanged).trans hreserved
  rw [actRouteSet_eq, hr]
  dsimp only
  rw [if_neg (by rw [hroutes]; exact hchanged)]

theorem actExport_free {n : Nat} (c : Cmd) (hstart : pb h.pkt 18 0 = false) (hfree : freeExport s = some n) :
    actExport s h c = finishNow (modExport s n fun _ => { used := true, source := pf h.pkt 16 0 12, dest := pf h.pkt 20 0 12, mbps := pf h.pkt 24 0 32 }) h .ok [fAt 16 0 16 n] := by
  unfold actExport; dsimp only
  rw [if_neg (by rw [hstart]; exact Bool.false_ne_true), hfree]

theorem actExport_stop (c : Cmd) (hstop : pb h.pkt 18 0 = true) : actExport s h c = finishNow (endExport s (pf h.pkt 22 0 12)) h .ok [] := by
  unfold actExport; dsimp only
  rw [if_pos hstop]

/-- An import begins or ends (R348). -/
def importSet (s : State) (p : Packet) : State :=
  if pb p 18 0 then modImport s (pf p 16 0 12) fun _ => { used := true, origin := pf p 20 0 12, exportId := pf p 22 0 12 }
  else { s with fabric := { s.fabric with imports := tset {} s.fabric.imports (pf p 16 0 12) {} } }

theorem actImport_eq (s : State) (h : Held) (c : Cmd) : actImport s h c = finishNow (importSet s h.pkt) h .ok [fAt 16 0 8 (hopsTo s (pf h.pkt 20 0 12))] := by
  have hhops : hopsTo (importSet s h.pkt) (pf h.pkt 20 0 12) = hopsTo s (pf h.pkt 20 0 12) :=
    iteInduction (motive := fun t : State => hopsTo t (pf h.pkt 20 0 12) = hopsTo s (pf h.pkt 20 0 12)) (fun _ => rfl) fun _ => rfl
  rw [← hhops]
  rfl

theorem time_importSet (s : State) (p : Packet) : (importSet s p).time = s.time :=
  iteInduction (motive := fun t : State => t.time = s.time) (fun _ => rfl) fun _ => rfl

/-! Packets of a stream that reaches an import (R347 to R349). -/

theorem isLocal_of_importOf {q : Pkt} {i : Nat} (himport : importOf s q = some i) : isLocal s q.dest = true := by
  by_contra hlocal
  unfold importOf at himport
  rw [if_pos (by simp [hlocal])] at himport
  cases himport

/-- A packet for this device is counted as one without a route at no device. -/
theorem countUnrouted_local {dest : Nat} (hlocal : isLocal s dest = true) : countUnrouted s dest = s := by
  refine if_neg fun ⟨hdest, hroute⟩ => ?_
  rw [Option.isNone_iff_eq_none] at hroute
  simp [isLocal, hdest, hroute] at hlocal

theorem execFramePacket_import {p i : Nat} {bits : List (List Bool)} {q : Pkt} (htake : takePkt s p 3 bits = (u, some q)) (hports : portsFor u q.dest (some p) = [])
    (himport : importOf u q = some i) : exec (.framePacket p bits) s = .next (importFrame u i q) := by
  show execFramePacket p bits s = _
  unfold execFramePacket
  rw [htake]
  dsimp only
  rw [countUnrouted_local (isLocal_of_importOf himport), hports]
  exact congrArg Host.Outcome.next (by simp only [List.isEmpty_nil, if_true]; rw [himport])

/-- The pass that an import begins. -/
def importPass (q : Pkt) (s : State) (b : Nat) (w : LineWp) : ImpPass :=
  { surf := b, frameSeq := q.frameSeq, height := leAt q.payload 22 2 % 16384, origin := w, up := upOf s q.payload, originAddr := leAt q.payload 16 2 % 4096 }

theorem importFrame_begins {i b : Nat} {q : Pkt} (hnone : curPass s i = none) (hrank : stateRank (upOf s q.payload).state ≤ stateRank (getEntry s i).inp.upstream)
    (hvalid : (getEntry s i).valid = true) (hwithdrawn : (getEntry s i).inp.withdrawn = false) (hfmt : byteAt q.payload 19 = (getSource s i).fmt)
    (hw : leAt q.payload 20 2 % 16384 ≤ (getSource s i).maxW) (hht : leAt q.payload 22 2 % 16384 ≤ (getSource s i).maxH) (hstopped : intakeStopped s (getEntry s i).owner = false)
    (hbuffer : oldestBuffer s ((buffersOf s i).filter fun b => passAllowed s b && latchCount s b == 0 && !((getImport s i).passes.map ImpPass.surf).contains b) = some b) :
    importFrame s i q = modImport (captureSource (setPassSize (beginPass s b) b (leAt q.payload 20 2 % 16384) (leAt q.payload 22 2 % 16384)) i b) i fun m =>
      { m with passes := m.passes ++ [importPass q s b (lineOf (now s))] } := by
  have htime : (captureSource (setPassSize (beginPass s b) b (leAt q.payload 20 2 % 16384) (leAt q.payload 22 2 % 16384)) i b).time = s.time :=
    (sentView_time.captureSource (fun _ _ _ => rfl) ..).trans rfl
  have hclose : closePass s i = s := by unfold closePass; rw [hnone]
  unfold importFrame; dsimp only
  rw [hclose, if_neg (show ¬stateRank (getEntry s i).inp.upstream < stateRank (upOf s q.payload).state by omega), if_neg (by simp [hvalid, hwithdrawn]),
    if_neg (by simp [hfmt]), if_neg (by omega), if_neg (by simp [hstopped]), hbuffer]
  dsimp only
  rw [now, htime]
  rfl

theorem execLinePacket_import {p i : Nat} {bits : List (List Bool)} {q : Pkt} (htake : takePkt s p 5 bits = (u, some q)) (hports : portsFor u q.dest (some p) = [])
    (himport : importOf u q = some i) : exec (.linePacket p bits) s = .next (importLine u i q) := by
  have htransit : transitLine u p q = u := by
    unfold transitLine; dsimp only
    rw [countUnrouted_local (isLocal_of_importOf himport), hports]
    exact if_pos rfl
  show execLinePacket p bits s = _
  unfold execLinePacket
  rw [htake]
  dsimp only
  rw [htransit, himport]

theorem curPass_of_passes {i : Nat} {m : ImpPass} (hpasses : (getImport s i).passes = [m]) : curPass s i = some m := by
  unfold curPass; rw [hpasses]; rfl

/-- A change of the pass received now, when it is the only one. -/
theorem passes_modCur {i : Nat} {m : ImpPass} (hpasses : (getImport s i).passes = [m]) (f : ImpPass → ImpPass) : (getImport (modCur s i f) i).passes = [f m] := by
  unfold modCur
  rw [getImport_modImport, if_pos rfl, hpasses]
  rfl

/-- A line that waits holds its pass up. -/
theorem advanceImport_waits {i : Nat} {m : ImpPass} {l : ImpLine} {r : List ImpLine} (hpasses : (getImport s i).passes = [m]) (hlines : m.lines = l :: r)
    (hdue : wpReached (now s) l.due = false) : advanceImport s i = s := by
  unfold advanceImport
  generalize importWork s i = n
  cases n with
  | zero => rfl
  | succ n =>
    have htake : takeUnit (now s) m = none := by unfold takeUnit; rw [hlines]; exact if_neg (by simp [hdue])
    unfold runImport
    rw [hpasses]
    dsimp only [List.head?_cons]
    rw [htake]
    exact if_neg (by simp [hlines])

/-- A pass with one line more. -/
def lineQueued (q : Pkt) (due : Wp) (m : ImpPass) : ImpPass :=
  { m with next := q.line + 1, lines := [{ line := q.line, chroma := false, lost := false, due := due, data := q.payload }] }

theorem importLine_waits {i : Nat} {q : Pkt} {m : ImpPass} {due : Wp} (hpasses : (getImport s i).passes = [m]) (hlines : m.lines = []) (hframe : m.frameSeq = q.frameSeq)
    (hluma : q.chroma = false) (hlost : q.lost = false) (hnext : m.next = q.line) (hlimit : q.line < passUnits (getSurf s m.surf) m.height)
    (hchroma : passChroma (getSurf s m.surf) m.height = 0) (hdue : due = addTicks (wallLines s) (wpOfBits q.complete) ((q.hops * 65536 : Nat) : Int))
    (hwaits : wpReached (now s) due = false) (hlate : wpLater (now s) due = false)
    (hlength : lineSize (getSurf s m.surf).format (passSize (getSurf s m.surf)).1 ≤ q.payload.length) :
    ∃ f, importLine s i q = modCur (giveUp s i q.line 0 due) i f ∧ (getImport (modCur (giveUp s i q.line 0 due) i f) i).passes = [lineQueued q due m] := by
  have hgiven : (getImport (giveUp s i q.line 0 due) i).passes = [{ m with nextC := m.nextC }] := by
    refine (passes_modCur hpasses _).trans ?_
    simp only [hnext, Nat.sub_self, Nat.zero_sub, List.range_zero, List.map_nil, List.append_nil, Nat.max_self, Nat.max_zero]
    rw [← hnext]
  refine ⟨fun p => { p with lines := p.lines ++ [{ line := q.line, chroma := false, lost := false, due := due, data := q.payload }], next := q.line + 1, nextC := p.nextC }, ?_, ?_⟩
  · unfold importLine
    rw [curPass_of_passes hpasses]
    dsimp only
    rw [hluma, if_neg (by simp [hframe, hnext]; omega), ← hdue, hlate]
    simp only [Bool.false_eq_true, if_false, hchroma, Nat.zero_min]
    have hbad : (q.lost || (!formatCompressed (getSurf s m.surf).format && decide (q.payload.length < lineSize (getSurf s m.surf).format (passSize (getSurf s m.surf)).1))) = false := by
      simp [hlost]; omega
    rw [hbad, if_neg Bool.false_ne_true]
    refine advanceImport_waits (passes_modCur hgiven _) (l := ⟨q.line, false, false, due, q.payload, none⟩) (r := []) (by simp [hlines]) hwaits
  · refine (passes_modCur hgiven _).trans ?_
    simp [lineQueued, hlines]

/-! A line becomes complete (R348). -/

/-- The state of a line taken out of its pass and stored. -/
def lineStored (s : State) (i : Nat) (m : ImpPass) (l : ImpLine) : State :=
  modPass (planeLine (modImport s i fun x => { x with passes := [{ m with lines := [] }] }) m.surf l.line l.data) i m.surf fun p => { p with doneY := l.line + 1 }

/-- FRONTIER's place with a line stored (R113). -/
def lineFront (s : State) (m : ImpPass) (l : ImpLine) : Nat :=
  if formatTwoPlane (getSurf s m.surf).format then min (l.line + 1) (2 * m.doneC) else l.line + 1

/-- FRONTIER passes the line, and exports send it. -/
def lineShown (s : State) (i : Nat) (m : ImpPass) (l : ImpLine) : State :=
  exportLines (modSurf (lineStored s i m l) m.surf fun x => { x with frontier := min (surfaceLines x) (max x.frontier (lineFront s m l)) }) m.surf

theorem getImport_of_intake (hview : intakeView t = intakeView s) (i : Nat) : getImport t i = getImport s i := by
  unfold getImport; rw [show t.fabric.imports = s.fabric.imports from congrArg Prod.fst hview]

theorem getSurf_of_intake (hview : intakeView t = intakeView s) (i : Nat) : getSurf t i = getSurf s i := by
  unfold getSurf; rw [show t.store.surfs = s.store.surfs from congrArg Prod.snd hview]

theorem passes_lineStored (s : State) (i : Nat) (m : ImpPass) (l : ImpLine) :
    (getImport (lineStored s i m l) i).passes = [{ m with lines := [], doneY := l.line + 1 }] := by
  have hplane := getImport_of_intake (intakeView_planeLine (modImport s i fun x => { x with passes := [{ m with lines := [] }] }) m.surf l.line l.data) i
  rw [getImport_modImport, if_pos rfl] at hplane
  unfold lineStored modPass
  rw [getImport_modImport, if_pos rfl, hplane]
  simp

theorem completeLine_eq {i : Nat} {m : ImpPass} {l : ImpLine} (hlost : l.lost = false) (hluma : l.chroma = false)
    (hfill : formatTwoPlane (getSurf s m.surf).format = true → l.line + 1 < m.height) :
    completeLine (modImport s i fun x => { x with passes := [{ m with lines := [] }] }) i m.surf m.height l = lineShown s i m l := by
  have hsurf : getSurf (modImport s i fun x => { x with passes := [{ m with lines := [] }] }) m.surf = getSurf s m.surf := rfl
  have hnofill : (!l.chroma && formatTwoPlane (getSurf s m.surf).format && l.line + 1 == m.height && m.height % 2 == 1) = false := by
    by_cases htwo : formatTwoPlane (getSurf s m.surf).format = true
    · have := hfill htwo
      simp [hluma, htwo]
      omega
    · simp [htwo]
  have hpasses := passes_lineStored s i m l
  unfold completeLine; dsimp only
  rw [hsurf, hnofill, hlost, hluma]
  simp only [Bool.false_eq_true, if_false]
  rw [show (getImport (modPass (planeLine _ m.surf l.line l.data) i m.surf fun p => { p with doneY := l.line + 1 + false.toNat }) i).passes = _ from hpasses]
  simp only [List.find?_cons, beq_self_eq_true]
  rfl

theorem passes_lineShown (s : State) (i : Nat) (m : ImpPass) (l : ImpLine) :
    (getImport (lineShown s i m l) i).passes = [{ m with lines := [], doneY := l.line + 1 }] := by
  have hexports := getImport_of_intake (sentView_intake.exportLines (modSurf (lineStored s i m l) m.surf fun x =>
    { x with frontier := min (surfaceLines x) (max x.frontier (lineFront s m l)) }) m.surf) i
  exact (congrArg Import.passes hexports).trans (passes_lineStored s i m l)

theorem format_lineShown (s : State) (i : Nat) (m : ImpPass) (l : ImpLine) : (getSurf (lineShown s i m l) m.surf).format = (getSurf s m.surf).format := by
  have hexports := getSurf_of_intake (sentView_intake.exportLines (modSurf (lineStored s i m l) m.surf fun x =>
    { x with frontier := min (surfaceLines x) (max x.frontier (lineFront s m l)) }) m.surf) m.surf
  have hplane := getSurf_of_intake (intakeView_planeLine (modImport s i fun x => { x with passes := [{ m with lines := [] }] }) m.surf l.line l.data) m.surf
  refine (congrArg Surface.format hexports).trans ?_
  rw [getSurf_modSurf, if_pos rfl]
  exact (congrArg Surface.format hplane :)

/-- A pass that waits for lines to come goes no further. -/
theorem runImport_open {n i : Nat} {m : ImpPass} (hpasses : (getImport s i).passes = [m]) (hlines : m.lines = []) (hopen : m.next < passUnits (getSurf s m.surf) m.height) :
    runImport n i s = s := by
  cases n with
  | zero => rfl
  | succ n =>
    have htake : takeUnit (now s) m = none := by unfold takeUnit; rw [hlines]
    unfold runImport
    rw [hpasses]
    dsimp only [List.head?_cons]
    rw [htake]
    exact if_neg (by simp [hlines]; omega)

theorem execImportLineComplete_eq {i : Nat} {m : ImpPass} {l : ImpLine} (hpasses : (getImport s i).passes = [m]) (hlines : m.lines = [l]) (hdue : wpReached (now s) l.due = true)
    (hupstream : l.upstream = none) (hlost : l.lost = false) (hluma : l.chroma = false) (hrebuilding : (getSurf s m.surf).rebuilding = false)
    (hcompressed : formatCompressed (getSurf s m.surf).format = false) (hopen : m.next < m.height)
    (hfill : formatTwoPlane (getSurf s m.surf).format = true → l.line + 1 < m.height) : exec (.importLineComplete i) s = .next (lineShown s i m l) := by
  have hwork : importWork s i = 2 + 1 := by unfold importWork; rw [hpasses]; simp [hlines]
  have htake : takeUnit (now s) m = some (l, []) := by unfold takeUnit; rw [hlines]; exact if_pos hdue
  have hunit : completeUnit (modImport s i fun x => { x with passes := [{ m with lines := [] }] }) i m.surf m.height l = lineShown s i m l := by
    have hsurf : getSurf (modImport s i fun x => { x with passes := [{ m with lines := [] }] }) m.surf = getSurf s m.surf := rfl
    unfold completeUnit; dsimp only
    rw [hsurf, hrebuilding, hcompressed, if_neg Bool.false_ne_true, if_neg Bool.false_ne_true]
    exact completeLine_eq hlost hluma hfill
  have htaken : (modImport s i fun x => { x with passes := x.passes.map fun q => if q.surf = m.surf then { q with lines := [] } else q }) =
      modImport s i fun x => { x with passes := [{ m with lines := [] }] } := by
    refine congrArg (fun l => { s with fabric := { s.fabric with imports := l } }) (tmod_congr ({} : Import) s.fabric.imports i _ _ ?_)
    have hp : (tget ({} : Import) s.fabric.imports i).passes = [m] := hpasses
    rw [hp]
    simp
  show Host.Outcome.next (advanceImport s i) = _
  unfold advanceImport
  rw [hwork, runImport, hpasses]
  dsimp only [List.head?_cons]
  rw [htake]
  dsimp only
  rw [hupstream, htaken, hunit]
  refine congrArg Host.Outcome.next (runImport_open (passes_lineShown ..) rfl ?_)
  show m.next < passUnits (getSurf (lineShown s i m l) m.surf) m.height
  unfold passUnits
  rw [format_lineShown, hcompressed]
  exact hopen

theorem execStatePacket_import {p i : Nat} {bits : List (List Bool)} {q : Pkt} {m : ImpPass} (htake : takePkt s p 4 bits = (u, some q))
    (htransit : (getTransit u (streamKey q.src q.exportId)).handle = 0) (himport : importOf u q = some i) (hpass : curPass u i = some m) (hframe : m.frameSeq = q.frameSeq)
    (hlines : m.lines = []) :
    exec (.statePacket p bits) s = .next (modCur (setUpstream u i (upOf u q.payload)) i fun m => { m with up := { upOf u q.payload with origin := m.up.origin } }) := by
  show execStatePacket p bits s = _
  unfold execStatePacket
  rw [htake]
  dsimp only
  rw [countUnrouted_local (isLocal_of_importOf himport), if_pos htransit, himport]
  dsimp only
  rw [hpass]
  dsimp only
  rw [if_neg (by simp [hframe]), hlines]
  rfl

theorem routing_routePkt (s : State) (a : Option Nat) (q : Pkt) : routing (routePkt s a q) = routing s := by
  have hlinks : links (routePkt s a q) = links s := (calm_links s).routePkt a q rfl
  unfold routing
  rw [hlinks, read_kept (·.fabric.routes) (fun _ => rfl) (kept_routePkt s a q)]

theorem execStreamPacket_eq {p : Nat} {bits : List (List Bool)} {q : Pkt} (htake : takePkt s p 6 bits = (u, some q)) (hdest : q.dest ≠ 4095) :
    exec (.streamPacket p bits) s = .next (
      if routeOf u q.dest = some 15 then queueWork u { kind := .batch, row := q.line, raw := q.payload, received := true } else routePkt u (some p) q) := by
  show execStreamPacket p bits s = _
  unfold execStreamPacket
  rw [htake]
  dsimp only
  by_cases hroute : routeOf u q.dest = some 15
  · rw [if_neg (show ¬(q.dest = 4095 ∨ routeOf u q.dest ≠ some 15) by simp [hdest, hroute]), if_pos hroute, if_neg (by simp [isLocal, hroute])]
  · rw [if_pos (show q.dest = 4095 ∨ routeOf u q.dest ≠ some 15 from .inr hroute), if_neg hroute,
      if_pos (by simp [isLocal, hdest, routeOf_of_routing (routing_routePkt u (some p) q), hroute])]

/-! Transit rings and eye scans (R347, R361, R362). -/

theorem execTransitRingFree_frees {o e : Nat} (hring : (getTransit s (streamKey o e)).handle ≠ 0)
    (hunused : 16 ≤ frameDiff (now s).frame (getTransit s (streamKey o e)).lastFrame) :
    exec (.transitRingFree o e) s = .next (releaseAll { s with fabric := { s.fabric with transits := tset {} s.fabric.transits (streamKey o e) {} } }
      [(getTransit s (streamKey o e)).handle]) :=
  congrArg Host.Outcome.next ((if_pos (by simp [hring, hunused])).trans (if_neg hring))

/-- A lane's scan is over. -/
def scanOver (s : State) (lane : Nat) : State := { s with lane := { s.lane with scans := s.lane.scans.filter fun x => x.1 != lane } }

theorem execLaneEyeScanComplete_written {lane : Nat} {e : EyeScan} (hscan : s.lane.scans.find? (fun e => e.2.key == Cmd.key c) = some (lane, e))
    (hf : findHeld s (Cmd.key c) = some h) (hlength : c.data.length = scanPoints h.pkt)
    (hwritten : destWrite (scanOver s lane) h.slice engLock (pb h.pkt 17 4) c.ok (pf h.pkt 24 0 64) (scanRecord (scanOver s lane) lane (c.obs.getD 0 0) e h.pkt c.data) = (u, true)) :
    exec (.laneEyeScanComplete c) s = .next (finishNow u h .ok [fAt 16 0 8 lane, fAt 18 0 16 (scanPoints h.pkt),
      fAt 20 0 8 (openings (scanStep h.pkt) c.data).1, fAt 21 0 8 (openings (scanStep h.pkt) c.data).2]) := by
  show execLaneEyeScanComplete c s = _
  unfold execLaneEyeScanComplete
  unfold Cmd.key at hscan hf
  dsimp only
  rw [hscan, hf]
  dsimp only
  unfold scanOver at hwritten
  dsimp only at hwritten
  rw [if_neg (by simp [hlength]), hwritten]
  rfl

end Sys2Proof.Machine
end

section
/-! PORT_CONTROL (R363). -/
namespace Sys2Proof.Machine
open Sys2Proof

variable {s t : State} {h : Held} {c : Cmd} {i : Nat}

/-- A property that calm changes and any change of the rings keep is kept by a packet's end. -/
theorem Calm.finish {P : State → Prop} (k : Calm P) (hrings : ∀ s i f, P s → P (modRings s i f)) (h : Held) (st : Status) (w d : Nat) (hs : P s) : P (finish s h st w d) := by
  have hsend : ∀ (t : State) r, P t → P (sendReply t h.slice r) := fun t r ht => by
    have hguard := k.guardReply h.slice ht
    unfold sendReply; dsimp only
    exact iteInduction (motive := P) (fun _ => k.pushEntry _ _ _ (k.emit _ _ hguard)) fun _ => hrings _ _ _ hguard
  have hdropped : P (modTag (dropHeld s (heldKey h)) h.slice h.ring (pktTag h.pkt) fun t => if statusKept st then some { t with reply := some (mkReply h st w d), final := true } else none) :=
    hrings _ _ _ (hrings _ _ _ hs)
  exact iteInduction (motive := P) (fun _ => hdropped) fun _ => hsend _ _ hdropped

theorem links_finishNow (s : State) (h : Held) (st : Status) (f : List Field) : links (finishNow s h st f) = links s :=
  (calm_links s).finish (fun _ _ _ hs => hs) h st _ _ rfl

/-- A group that PORT_CONTROL names for an OP other than RESET is a Toden port (R363). -/
theorem group_of_checkPortControl (hc : checkPortControl s h c = none) (hop : portOp h.pkt ≠ 2) : pf h.pkt 16 0 3 = 1 := by
  obtain ⟨hbad, -⟩ := firstFail_cons_eq_none.1 hc
  simp only [Bool.or_eq_false_iff, Bool.and_eq_false_iff] at hbad
  obtain ⟨⟨-, hgroup⟩, -⟩ := hbad
  simpa [hop] using hgroup

/-- A port that ENABLE finds is DISABLED (R363). -/
theorem disabled_of_checkPortControl (hc : checkPortControl s h c = none) (hop : portOp h.pkt = 0) : (getTod s (pf h.pkt 17 0 3)).state = .disabled := by
  obtain ⟨-, hready⟩ := firstFail_cons_eq_none.1 hc
  obtain ⟨hready, -⟩ := firstFail_cons_eq_none.1 hready
  simpa [portNotReady, hop] using hready

/-- A port that begins to train (R363). -/
def trainingPort (w : Nat) (x : TodPort) : TodPort := { x with phase := 1, phaseAt := w, series := 0, backoffMs := 100, backing := false }

theorem todTrain_eq (s : State) (i cause : Nat) : todTrain s i cause = modTod (todEnter s i .training cause 0) i (trainingPort (upTime s)) := rfl

theorem kept_modTod (s : State) (i : Nat) (f : TodPort → TodPort) : kept (modTod s i f) = kept s := kept_of rfl (fixedOf_same rfl) (outside_same rfl rfl)

theorem kept_todTrain (s : State) (i cause : Nat) : kept (todTrain s i cause) = kept s := (kept_modTod ..).trans (kept_todEnter ..)

theorem getTod_todTrain (hstate : (getTod s i).state ≠ .training) (cause : Nat) : getTod (todTrain s i cause) i = trainingPort (upTime s) (inLink .training (getTod s i)) := by
  rw [todTrain_eq, getTod_modTod, if_pos rfl, getTod_todEnter_training hstate]

/-- A port out of use is as it was after a packet's end. -/
theorem getTod_finishNow_closed {x : TodPort} (hx : x.state ≠ .forwarding) (hport : getTod s i = x) (h : Held) (st : Status) (f : List Field) : getTod (finishNow s h st f) i = x :=
  (calm_closed i hx).finish (fun _ _ _ hs => hs) h st _ _ hport

theorem donePort_tod (s : State) (h : Held) (n : Nat) (hgroup : pf h.pkt 16 0 3 = 1) :
    donePort s h n = finishNow s h .ok [fAt 16 0 8 (todCode (getTod s (pf h.pkt 17 0 3)).state), fAt 17 0 8 n] := by
  unfold donePort groupState
  rw [if_pos hgroup]

/-- The de-emphasis of a port's next training (R363). -/
def presetPort (n : Nat) (x : TodPort) : TodPort := { x with preset := n }

theorem actPortPreset_eq (c : Cmd) (hgroup : pf h.pkt 16 0 3 = 1) :
    actPortPreset s h c = finishNow (modTod s (pf h.pkt 17 0 3) (presetPort (pf h.pkt 19 0 3))) h .ok
      [fAt 16 0 8 (todCode (getTod s (pf h.pkt 17 0 3)).state), fAt 17 0 8 0] := by
  refine (donePort_tod (modTod s (pf h.pkt 17 0 3) (presetPort (pf h.pkt 19 0 3))) h 0 hgroup).trans ?_
  rw [getTod_modTod, if_pos rfl]
  rfl

/-- The port after PRESET's reply. -/
theorem getTod_preset (s : State) (h : Held) (f : List Field) (i n : Nat) :
    (getTod (finishNow (modTod s i (presetPort n)) h .ok f) i).preset = n ∧ (getTod (finishNow (modTod s i (presetPort n)) h .ok f) i).state = (getTod s i).state := by
  have hlinks : linkOf (getTod (finishNow (modTod s i (presetPort n)) h .ok f) i) = linkOf (presetPort n (getTod s i)) :=
    (congrFun (links_finishNow ..) i).trans (congrArg linkOf ((getTod_modTod s i i _).trans (if_pos rfl)))
  generalize getTod (finishNow (modTod s i (presetPort n)) h .ok f) i = x at hlinks
  exact ⟨(congrArg TodPort.preset hlinks :), (congrArg TodPort.state hlinks :)⟩

/-! DISABLE. -/

theorem time_treeEntered (s : State) : (treeEntered s).time = s.time := forEach_same (·.time) _ _ _ fun _ _ => time_of_kept (kept_todEnter ..)

theorem time_reselect (s : State) (cause : Nat) : (reselect s cause).time = s.time := (time_of_kept (kept_withHead_reselect s.head s cause) :)

theorem time_loseInput (s : State) (n : Nat) : (loseInput s n).time = s.time := (time_of_kept (kept_withHead_loseInput s.head s n) :)

theorem time_assignAddresses (s : State) : (assignAddresses s).time = s.time := by
  unfold assignAddresses
  refine (forEach_same (·.time) _ _ _ fun p t => time_of_kept (kept_modTod t p _)).trans ?_
  exact (forEach_same (·.time) _ _ _ fun _ _ => time_of_kept (kept_routePkt ..)).trans rfl

theorem time_reserveAll (s : State) : (reserveAll s).1.time = s.time := by
  refine (forEach_same (·.time) _ _ _ fun n t => ?_).trans (forEach_same (·.time) _ _ _ fun _ _ => rfl)
  exact iteInduction (motive := fun u : State => u.time = t.time) (fun _ => rfl) fun _ => rfl

theorem time_treeMade (s : State) (cause : Nat) : (treeMade s cause).time = s.time := by
  have hrooted : (treeRooted s).time = s.time := iteInduction (motive := fun t : State => t.time = s.time) (fun _ => rfl) fun _ => rfl
  have haddressed : ∀ u, (treeAddressed u).time = u.time := fun u =>
    iteInduction (motive := fun t : State => t.time = u.time) (fun _ => rfl) fun _ =>
      iteInduction (motive := fun t : State => t.time = u.time) (fun _ => time_assignAddresses u) fun _ => rfl
  have hrouted : ∀ u, (treeRouted u).time = u.time := fun u => by
    unfold treeRouted noteClaim
    split <;> rfl
  have hreserved : ∀ old u, (treeReserved old u).1.time = u.time := fun old u => by
    unfold treeReserved; split
    · exact time_reserveAll u
    · rfl
  have hall := (hreserved s.fabric _).trans ((hrouted _).trans ((haddressed _).trans ((time_treeEntered _).trans hrooted)))
  exact iteInduction (motive := fun t : State => t.time = s.time) (fun _ => (time_of_kept (kept_post ..)).trans hall) fun _ => hall

/-- The end of a link changes no time. -/
theorem time_dropLink (s : State) (i : Nat) : (dropLink s i).time = s.time := by
  have hscans : ∀ (t : State) l n, (endScans t l n).time = t.time := fun t l n => congrArg Prod.fst (mediaView_endScans t l n)
  have hretree : ∀ u, (retree u 1).time = u.time := fun u => by
    obtain ⟨c, hc⟩ := retree_eq u 1
    rw [hc, time_reselect, time_treeMade]
  exact (hretree _).trans ((time_loseInput ..).trans ((show State.time _ = (endScans (endScans s (8 + 4 * i) 4) (24 + i) 1).time from rfl).trans ((hscans ..).trans (hscans ..))))

/-- A port that DISABLE has powered down (R363). -/
def disabledPort (s : State) (i : Nat) : State := dropLink (modTod (todEnter s i .disabled 7 0) i fun x => { x with backing := false }) i

theorem time_disabledPort (s : State) (i : Nat) : (disabledPort s i).time = s.time := (time_dropLink ..).trans (time_of_kept (kept_todEnter ..))

theorem actPortDisable_eq (s : State) (h : Held) (c : Cmd) : actPortDisable s h c = donePort (disabledPort s (pf h.pkt 17 0 3)) h (groupScans s 1 (pf h.pkt 17 0 3)) := rfl

theorem getTod_disabledPort (s : State) (i : Nat) :
    (getTod (disabledPort s i) i).state = .disabled ∧ (getTod (disabledPort s i) i).backing = false ∧ (getTod (disabledPort s i) i).partner = none ∧ (getTod (disabledPort s i) i).cable = [] := by
  have henter : linkOf (getTod (todEnter s i .disabled 7 0) i) = linkOf (inLink .disabled (getTod s i)) :=
    (congrFun (links_todEnter ..) i).trans (congrArg linkOf ((getTod_modTod s i i _).trans (if_pos rfl)))
  have hstate : (getTod (todEnter s i .disabled 7 0) i).state = .disabled := (congrArg TodPort.state henter :)
  have hdrop := stems_dropLink (modTod (todEnter s i .disabled 7 0) i fun x => { x with backing := false }) i
  rw [getTod_modTod, if_pos rfl] at hdrop
  unfold disabledPort
  generalize dropLink (modTod (todEnter s i .disabled 7 0) i fun x => { x with backing := false }) i = t at hdrop
  generalize getTod (todEnter s i .disabled 7 0) i = x at hdrop hstate
  have hport : portOf (getTod t i) = portOf (clearLink { x with backing := false }) := congrArg Prod.fst hdrop
  have hdown : unlinked (getTod t i) = some .disabled := (congrArg Prod.snd hdrop).trans (by simp [unlinked, todUp, hstate])
  refine ⟨?_, (congrArg TodPort.backing hport :), (congrArg TodPort.partner hport :), (congrArg TodPort.cable hport :)⟩
  unfold unlinked at hdown
  split at hdown
  · cases hdown
  · exact Option.some.inj hdown

/-- The port after DISABLE's reply. -/
theorem getTod_disabled (s : State) (h : Held) (f : List Field) (i : Nat) :
    (getTod (finishNow (disabledPort s i) h .ok f) i).state = .disabled ∧ (getTod (finishNow (disabledPort s i) h .ok f) i).backing = false ∧
      (getTod (finishNow (disabledPort s i) h .ok f) i).partner = none ∧ (getTod (finishNow (disabledPort s i) h .ok f) i).cable = [] := by
  obtain ⟨hstate, hbacking, hpartner, hcable⟩ := getTod_disabledPort s i
  have hlinks : linkOf (getTod (finishNow (disabledPort s i) h .ok f) i) = linkOf (getTod (disabledPort s i) i) := congrFun (links_finishNow ..) i
  generalize getTod (finishNow (disabledPort s i) h .ok f) i = x at hlinks
  generalize getTod (disabledPort s i) i = y at hlinks hstate hbacking hpartner hcable
  exact ⟨(congrArg TodPort.state hlinks :).trans hstate, (congrArg TodPort.backing hlinks :).trans hbacking, (congrArg TodPort.partner hlinks :).trans hpartner,
    (congrArg TodPort.cable hlinks :).trans hcable⟩

/-! RESET. -/

theorem actPortReset_output (c : Cmd) (hgroup : pf h.pkt 16 0 3 = 2) (hhpd : (getOut s (pf h.pkt 17 0 3)).hpd = true) (hnow : (getOut s (pf h.pkt 17 0 3)).trainingNow = false)
    (hstate : (getOut s (pf h.pkt 17 0 3)).state = .running) :
    actPortReset s h c = finishNow (startTraining s (pf h.pkt 17 0 3)) h .ok [fAt 16 0 8 2, fAt 17 0 8 0] := by
  have hretrain : retrain s (pf h.pkt 17 0 3) = startTraining s (pf h.pkt 17 0 3) := if_pos (by simp [hhpd, hnow, hstate])
  have htraining : (getOut (startTraining s (pf h.pkt 17 0 3)) (pf h.pkt 17 0 3)).state = .training := by
    refine (congrArg OutputSt.state ((getOut_modOut s _ _ _).trans (if_pos rfl))).trans ?_
    exact if_pos hstate
  unfold actPortReset donePort groupState groupScans; dsimp only
  rw [hgroup, if_neg (by decide), if_pos rfl, hretrain, if_neg (by decide), if_pos rfl, htraining]
  rfl

theorem kept_startTraining {o : Nat} (hstate : (getOut s o).state = .running) :
    kept (startTraining s o) = kept (modOut s o fun x =>
      { x with trainingNow := true, retryArmed := false, attempts := satAdd 16 x.attempts 1, lanes := x.cfg.lanes, rate := x.cfg.maxRate, state := .training }) := by
  refine (kept_emit ..).trans (congrArg kept ?_)
  refine congrArg (fun l => { s with scan := { s.scan with outputs := l } }) (tmod_congr ({} : OutputSt) s.scan.outputs o _ _ ?_)
  rw [show (tget ({} : OutputSt) s.scan.outputs o).state = .running from hstate]
  rfl

theorem endScans_none {lane n : Nat} (hnone : scansOn s lane n = []) : endScans s lane n = s := by
  unfold endScans
  rw [hnone]
  rfl

theorem actPortReset_eth (c : Cmd) (hgroup : pf h.pkt 16 0 3 = 4) (hscans : scansOn s (76 + pf h.pkt 17 0 3) 1 = []) :
    actPortReset s h c = finishNow (bump (modPort s (pf h.pkt 17 0 3) fun x => { x with up := false }) 3 (pf h.pkt 17 0 3) 2 (c.obs.getD 0 0)) h .ok [fAt 16 0 8 0, fAt 17 0 8 0] := by
  have hend : resetEth s (pf h.pkt 17 0 3) (c.obs.getD 0 0) = bump (modPort s (pf h.pkt 17 0 3) fun x => { x with up := false }) 3 (pf h.pkt 17 0 3) 2 (c.obs.getD 0 0) :=
    endScans_none hscans
  have hup : (getPort (bump (modPort s (pf h.pkt 17 0 3) fun x => { x with up := false }) 3 (pf h.pkt 17 0 3) 2 (c.obs.getD 0 0)) (pf h.pkt 17 0 3)).up = false :=
    congrArg EthPort.up ((getPort_modPort s _ _ _).trans (if_pos rfl))
  unfold actPortReset donePort groupState groupScans; dsimp only
  rw [hgroup, if_neg (by decide), if_neg (by decide), if_neg (by decide), hend, if_neg (by decide), if_neg (by decide), if_neg (by decide), hup,
    if_neg (by decide), if_neg (by decide), if_pos rfl, hscans]
  rfl

end Sys2Proof.Machine
end

section
namespace Sys2Proof.Machine
open Sys2Proof

/-- Settles O44. -/
theorem fabricStreams : Obligations.FabricStreams := by
  unfold Obligations.FabricStreams
  refine ⟨fun s u c h hr hc hsame hwritten => ?_, fun s u e c h n hr hc he hchanged hreserved => ?_, fun s c h n hr hc hstart hfree => ?_, fun s c h hr hc hstop => ?_,
    fun s c h hr hc => ?_, fun s u p i b w ht pkt q htake hports himport hpass hw hht hrank hvalid hwithdrawn hfmt hmaxW hmaxH hstopped hbuffer => ?_,
    fun s u p i pkt q m due htake hports himport hpasses hlines hframe hluma hlost hnext hlimit hchroma hdue hwaits hlate hlength => ?_,
    fun s u v i n f m l hpasses hlines hdue hupstream hlost hluma hrebuilding hcompressed hopen hfill hn hf hu hv => ?_,
    fun s u p i pkt q m htake htransit himport hpass hframe hlines => execStatePacket_import htake htransit himport hpass hframe hlines,
    fun s u p pkt q htake hdest => ⟨fun hroute => ?_, fun hroute => ?_⟩, fun s o e hring hunused => execTransitRingFree_frees hring hunused, fun s o e hused => ?_,
    fun s c h hr hc => ?_, fun s u c h lane e hscan hf hs hlength hwritten => ?_, fun s c h i hr hop hc hi => ⟨?_, ?_⟩, fun s c h i hr hop hc hi => ?_,
    fun s c h o hr hop hc hgroup ho hhpd hnow hstate => ?_, fun s c h i hr hop hc hgroup hi hscans => ?_, fun s c h i hr hop hc hi => ⟨?_, ?_⟩⟩
  · by_cases hdest : pf h.pkt 24 0 64 = 0
    · rw [hsame hdest]
      exact hr.acts (i := .fabricStatus c) rfl rfl hc (replyWithRecord_none hdest ..) rfl rfl
    · exact hr.1.answers (i := .fabricStatus c) (congrArg Host.Outcome.next ((hr.runPacket rfl hc).trans (replyWithRecord_written hdest (hwritten hdest) _)))
  · subst he
    have hkept : kept (postRoutes u 3 n) = kept u := kept_post ..
    have hanswers := (hr.1.answers (i := .fabricRouteSet c) (congrArg Host.Outcome.next ((hr.runPacket rfl hc).trans (actRouteSet_changed c hchanged hreserved)))).of_kept hkept
    rwa [nowBits_of_time (time_of_kept hkept)] at hanswers
  · exact hr.acts (i := .fabricExport c) rfl rfl hc (actExport_free c hstart hfree) rfl rfl
  · exact hr.acts (i := .fabricExport c) rfl rfl hc (actExport_stop c hstop) rfl rfl
  · exact hr.acts (i := .fabricImport c) rfl rfl hc (actImport_eq s h c) rfl (time_importSet s h.pkt)
  · subst hw hht
    exact (execFramePacket_import htake hports himport).trans (congrArg _ (importFrame_begins hpass hrank hvalid hwithdrawn hfmt hmaxW hmaxH hstopped hbuffer))
  · obtain ⟨f, hline, hqueued⟩ := importLine_waits hpasses hlines hframe hluma hlost hnext hlimit hchroma hdue hwaits hlate hlength
    exact ⟨_, (execLinePacket_import htake hports himport).trans (congrArg _ hline), rfl, hqueued⟩
  · subst hn hf hu hv
    exact execImportLineComplete_eq hpasses hlines hdue hupstream hlost hluma hrebuilding hcompressed hopen hfill
  · exact (execStreamPacket_eq htake hdest).trans (congrArg _ (if_pos hroute))
  · exact (execStreamPacket_eq htake hdest).trans (congrArg _ (if_neg hroute))
  · exact congrArg Host.Outcome.next (if_neg (by simp; omega))
  · have hact : actEyeScan s h c = defer _ h _ := rfl
    rw [hr.1.key] at hact
    exact hr.1.defers (i := .laneEyeScan c) (congrArg Host.Outcome.next ((hr.runPacket rfl hc).trans hact)) rfl
  · exact answers_of_find hf hs (execLaneEyeScanComplete_written hscan hf hlength hwritten)
  · subst hi
    have hact : actPortEnable s h c = _ := donePort_tod (todTrain s (pf h.pkt 17 0 3) 7) h 0 (group_of_checkPortControl hc (by rw [hop]; decide))
    rw [getTod_todTrain (by rw [disabled_of_checkPortControl hc hop]; exact TodState.noConfusion)] at hact
    exact hr.acts (i := .portControlEnable c) rfl (by simp [hop]) hc hact (kept_todTrain ..) rfl
  · subst hi
    have hact : actPortEnable s h c = _ := donePort_tod (todTrain s (pf h.pkt 17 0 3) 7) h 0 (group_of_checkPortControl hc (by rw [hop]; decide))
    have hport := getTod_todTrain (s := s) (i := pf h.pkt 17 0 3) (by rw [disabled_of_checkPortControl hc hop]; exact TodState.noConfusion) 7
    exact ⟨_, congrArg Host.Outcome.next ((hr.runPacket (by simp [hop]) hc).trans hact), getTod_finishNow_closed TodState.noConfusion hport h .ok _⟩
  · subst hi
    have hact := (actPortDisable_eq s h c).trans (donePort_tod _ h _ (group_of_checkPortControl hc (by rw [hop]; decide)))
    rw [(getTod_disabledPort s (pf h.pkt 17 0 3)).1] at hact
    exact hr.finishes (i := .portControlDisable c) (congrArg Host.Outcome.next ((hr.runPacket (by simp [hop]) hc).trans hact)) (time_disabledPort ..) (getTod_disabled ..)
  · subst ho
    exact hr.acts (i := .portControlReset c) rfl (by simp [hop]) hc (actPortReset_output c hgroup hhpd hnow hstate) (kept_startTraining hstate) rfl
  · subst hi
    exact hr.acts (i := .portControlReset c) rfl (by simp [hop]) hc (actPortReset_eth c hgroup hscans) rfl rfl
  · subst hi
    exact hr.acts (i := .portControlPreset c) rfl (by simp [hop]) hc (actPortPreset_eq c (group_of_checkPortControl hc (by rw [hop]; decide))) (kept_modTod ..) rfl
  · subst hi
    have hact := actPortPreset_eq (s := s) c (group_of_checkPortControl hc (by rw [hop]; decide))
    exact ⟨_, congrArg Host.Outcome.next ((hr.runPacket (by simp [hop]) hc).trans hact), getTod_preset ..⟩

end Sys2Proof.Machine
end

section
/-! Key objects: scans, releases and the self-test (R388 to R396). -/
namespace Sys2Proof.Machine
open Sys2Proof

/-- A step for each element of a list without repetitions: what holds until one element's turn, what its turn brings, and what the others leave of that. -/
theorem forEach_once {α : Type} {P Q : State → Prop} {f : α → State → State} {x : α} {l : List α} (hl : l.Nodup) (hx : x ∈ l)
    (before : ∀ a ∈ l, a ≠ x → ∀ t, P t → P (f a t)) (turn : ∀ t, P t → Q (f x t)) (after : ∀ a ∈ l, a ≠ x → ∀ t, Q t → Q (f a t)) {s : State} (hs : P s) :
    Q (forEach l f s) := by
  induction l generalizing s with
  | nil => exact absurd hx List.not_mem_nil
  | cons a l ih =>
    obtain ⟨ha, hl⟩ := List.nodup_cons.1 hl
    by_cases hax : a = x
    · subst hax
      exact forEach_keeps_mem Q f l (fun b hb => after b (List.mem_cons_of_mem _ hb) fun hba => ha (hba ▸ hb)) _ (turn s hs)
    · exact ih hl ((List.mem_cons.1 hx).resolve_left (Ne.symm hax)) (fun b hb => before b (List.mem_cons_of_mem _ hb))
        (fun b hb => after b (List.mem_cons_of_mem _ hb)) (before a List.mem_cons_self hax s hs)

theorem modKey_modKey (s : State) (n : Nat) (f g : KeyObj → KeyObj) : modKey (modKey s n f) n g = modKey s n (g ∘ f) := by
  unfold modKey; dsimp only; rw [tmod_tmod]; rfl

/-- The baseline of each channel of an object is the raw count of the current scan (R392). -/
def rebased (o : KeyObj) (k : KeysSt) : KeysSt := { k with base := (channelsOf o).foldl (fun b c => b.set c (k.raw.getD c 0)) k.base }

theorem rebased_congr {o o' : KeyObj} (h : channelsOf o' = channelsOf o) : rebased o' = rebased o := by funext k; simp only [rebased, h]

theorem kept_postKey (s : State) (n kind reason : Nat) : kept (postKey s n kind reason) = kept s := kept_post ..

theorem kept_recalibrate (s : State) (n cause : Nat) :
    kept (recalibrate s n cause) = kept (modKey (modKeys s (rebased (getKey s n))) n fun o => { o with negRun := 0 }) := kept_post ..

/-- A recalibration changes states that agree in what is kept alike. -/
theorem kept_recalibrate_of {s t : State} {n : Nat} (h : kept t = kept s) (cause : Nat) : kept (recalibrate t n cause) = kept (recalibrate s n cause) := by
  rw [kept_recalibrate, kept_recalibrate]
  exact kept_apply (fun s => modKey (modKeys s (rebased (getKey s n))) n fun o => { o with negRun := 0 }) (fun _ => rfl) (fun _ => rfl) (fun _ => rfl) h

/-- A change of an object that leaves it where it is. -/
def Stays (f : KeyObj → KeyObj) : Prop := ∀ o, (f o).enable = o.enable ∧ channelsOf (f o) = channelsOf o

/-- What a scan of one object leaves to the others: the bytes, the time, the counts, the commands that wait, and where every object is. -/
noncomputable def scanView (s : State) : (Nat → Option Byte) × Nat × List Nat × List KeySet × Option KeyTest × (Nat → Bool × List Nat) :=
  (outside s, upTime s, s.io.keys.raw, s.io.keys.sets, s.io.keys.test, fun m => ((getKey s m).enable, channelsOf (getKey s m)))


theorem scanView_of_kept {s t : State} (h : kept t = kept s) : scanView t = scanView s :=
  Prod.ext (outside_of_kept h) (read_kept (fun s => (scanView s).2) (fun _ => rfl) h)

theorem scanView_modKey (s : State) (n : Nat) {f : KeyObj → KeyObj} (hf : Stays f) : scanView (modKey s n f) = scanView s := by
  have hobject : (fun m => ((getKey (modKey s n f) m).enable, channelsOf (getKey (modKey s n f) m))) = fun m => ((getKey s m).enable, channelsOf (getKey s m)) := by
    funext m
    rw [getKey_modKey]
    split
    · rename_i hm; subst hm; exact Prod.ext (hf _).1 (hf _).2
    · rfl
  show (_, _, _, _, _, _) = _
  rw [hobject]
  rfl

theorem scanView_rebased (s : State) (o : KeyObj) : scanView (modKeys s (rebased o)) = scanView s := rfl

theorem getD_foldl_set (g : Nat → Nat) {x : Nat} : ∀ (l b : List Nat), x ∉ l → (l.foldl (fun b c => b.set c (g c)) b).getD x 0 = b.getD x 0
  | [], _, _ => rfl
  | c :: l, b, hx => by
    rw [List.mem_cons, not_or] at hx
    rw [List.foldl_cons, getD_foldl_set g l _ hx.2, List.getD_eq_getElem?_getD, List.getElem?_set_ne (Ne.symm hx.1), List.getD_eq_getElem?_getD]

/-- A channel keeps its baseline when another object is recalibrated (R392). -/
theorem base_rebased {o : KeyObj} {c : Nat} (hc : c ∉ channelsOf o) (k : KeysSt) : (rebased o k).base.getD c 0 = k.base.getD c 0 :=
  getD_foldl_set _ _ _ hc

section
variable {s : State} {n : Nat}

theorem scanObject_disabled (h : (getKey s n).enable = false) : scanObject n s = s := by
  unfold scanObject; dsimp only; rw [h]; rfl

/-- What the scan of one object can do: its entry changes in place, and its channels may take their counts as baselines. -/
def ScansTo (s : State) (n : Nat) (t : State) : Prop :=
  kept t = kept s ∨ ∃ f, Stays f ∧ (kept t = kept (modKey s n f) ∨ kept t = kept (modKey (modKeys s (rebased (getKey s n))) n f))

theorem ScansTo.stays {s t : State} {n : Nat} {f : KeyObj → KeyObj} (hf : Stays f) (h : kept t = kept (modKey s n f)) : ScansTo s n t := .inr ⟨f, hf, .inl h⟩

/-- An object whose deltas are too negative is recalibrated after its entry is written (R392). -/
theorem kept_recalibrate_modKey (s : State) (n cause : Nat) {f : KeyObj → KeyObj} (hf : Stays f) :
    kept (recalibrate (modKey s n f) n cause) = kept (modKey (modKeys s (rebased (getKey s n))) n fun o => { f o with negRun := 0 }) := by
  have hentry : getKey (modKey s n f) n = f (getKey s n) := (getKey_modKey ..).trans (if_pos rfl)
  refine (kept_recalibrate ..).trans ?_
  rw [hentry, rebased_congr (hf _).2]
  exact congrArg kept (modKey_modKey (modKeys s (rebased (getKey s n))) n f fun o => { o with negRun := 0 })

theorem scanObject_scansTo (s : State) (n : Nat) : ScansTo s n (scanObject n s) := by
  unfold scanObject; dsimp only
  refine iteInduction (motive := ScansTo s n) (fun _ => .inl rfl) fun _ =>
    iteInduction (motive := ScansTo s n) (fun _ => ?pressed) fun _ => ?released
  case pressed =>
    refine iteInduction (motive := ScansTo s n) (fun _ => .stays ?_ (kept_postKey ..)) fun _ =>
      iteInduction (motive := ScansTo s n) (fun _ => .stays ?_ ((kept_postKey ..).trans (congrArg kept (modKey_modKey ..)))) fun _ => .stays ?_ rfl
    all_goals exact fun _ => ⟨rfl, rfl⟩
  case released =>
    refine iteInduction (motive := ScansTo s n) (fun _ => .stays ?_ (kept_postKey ..)) fun _ =>
      iteInduction (motive := ScansTo s n) (fun _ => .inr ⟨_, ?_, .inr (kept_recalibrate_modKey _ _ _ ?_)⟩) fun _ => .stays ?_ rfl
    all_goals exact fun _ => ⟨rfl, rfl⟩

theorem scanObject_press (henable : (getKey s n).enable = true) (htest : underTest s.io.keys (getKey s n) = false) (hpressed : (getKey s n).pressed = false)
    (hmin : 0 < (getKey s n).debounce) (hdelta : ((getKey s n).thresh : Int) ≤ objectDelta s.io.keys (getKey s n))
    (hrun : (getKey s n).debounce ≤ (getKey s n).run + 1) :
    ∃ p, kept (scanObject n s) = kept (modKey s n fun o => { o with pressed := true, pressAt := upTime s, run := 0, negRun := 0, lastPos := p }) := by
  refine ⟨positionOf s.io.keys (getKey s n), ?_⟩
  unfold scanObject; dsimp only
  simp only [henable, htest, hpressed, hmin.ne', hdelta, hrun, if_true, if_false, Bool.not_true, Bool.or_false, Bool.false_eq_true]
  exact kept_postKey ..

theorem scanObject_idle (htest : underTest s.io.keys (getKey s n) = false) (henable : (getKey s n).enable = true) (hpressed : (getKey s n).pressed = false)
    (hmin : 0 < (getKey s n).debounce) (hdelta : objectDelta s.io.keys (getKey s n) < ((getKey s n).thresh : Int)) :
    (getKey (scanObject n s) n).pressed = false ∧ (getKey (scanObject n s) n).run = 0 := by
  unfold scanObject; dsimp only
  simp only [henable, htest, hpressed, hmin.ne', not_le.2 hdelta, Nat.le_zero, if_false, Bool.not_true, Bool.or_false, Bool.false_eq_true]
  refine iteInduction (motive := fun t : State => (getKey t n).pressed = false ∧ (getKey t n).run = 0) (fun _ => ?_) fun _ => ?_
  · rw [read_kept (getKey · n) (fun _ => rfl) (kept_recalibrate_modKey s n 1 (f := fun o => { o with run := 0, negRun := _ }) fun _ => ⟨rfl, rfl⟩), getKey_modKey, if_pos rfl]
    exact ⟨hpressed, rfl⟩
  · rw [getKey_modKey, if_pos rfl]
    exact ⟨hpressed, rfl⟩

theorem scanObject_release (henable : (getKey s n).enable = true) (htest : underTest s.io.keys (getKey s n) = false) (hpressed : (getKey s n).pressed = true)
    (hmin : 0 < (getKey s n).debounce) (hdelta : objectDelta s.io.keys (getKey s n) < ((getKey s n).thresh : Int) - (getKey s n).hyst)
    (hrun : (getKey s n).debounce ≤ (getKey s n).run + 1) :
    kept (scanObject n s) = kept (modKey s n fun o => { o with pressed := false, run := 0, negRun := 0 }) := by
  unfold scanObject; dsimp only
  simp only [henable, htest, hpressed, hmin.ne', hdelta, hrun, if_true, if_false, Bool.not_true, Bool.or_false, Bool.false_eq_true]
  exact kept_postKey ..

end

theorem ScansTo.view {s t : State} {m : Nat} (h : ScansTo s m t) : scanView t = scanView s := by
  obtain h | ⟨f, hf, h | h⟩ := h
  · exact scanView_of_kept h
  · exact (scanView_of_kept h).trans (scanView_modKey s m hf)
  · exact (scanView_of_kept h).trans (scanView_modKey _ m hf)

theorem ScansTo.other {s t : State} {m n : Nat} (h : ScansTo s m t) (hn : n ≠ m) : getKey t n = getKey s n := by
  have hread {u : State} (h : kept t = kept u) : getKey t n = getKey u n := read_kept (getKey · n) (fun _ => rfl) h
  obtain h | ⟨f, _, h | h⟩ := h
  · exact hread h
  · exact (hread h).trans ((getKey_modKey ..).trans (if_neg hn))
  · exact (hread h).trans ((getKey_modKey ..).trans (if_neg hn))

theorem ScansTo.base {s t : State} {m c : Nat} (h : ScansTo s m t) (hc : c ∉ channelsOf (getKey s m)) : t.io.keys.base.getD c 0 = s.io.keys.base.getD c 0 := by
  have hread {u : State} (h : kept t = kept u) : t.io.keys.base = u.io.keys.base := read_kept (·.io.keys.base) (fun _ => rfl) h
  obtain h | ⟨f, _, h | h⟩ := h
  · rw [hread h]
  · rw [hread h]; rfl
  · rw [hread h]; exact base_rebased hc _

/-- An object waits for its turn: the scans of other objects have left it and its channels as they were. -/
def AwaitsScan (n : Nat) (s t : State) : Prop :=
  scanView t = scanView s ∧ getKey t n = getKey s n ∧ ∀ c ∈ channelsOf (getKey s n), t.io.keys.base.getD c 0 = s.io.keys.base.getD c 0

theorem objectDelta_congr {k k' : KeysSt} {o : KeyObj} (hcount : 0 < o.count) (hraw : k'.raw = k.raw)
    (hbase : ∀ c ∈ channelsOf o, k'.base.getD c 0 = k.base.getD c 0) : objectDelta k' o = objectDelta k o := by
  have hdelta : ∀ c ∈ channelsOf o, deltaOf k' c = deltaOf k c := fun c hc => by unfold deltaOf; rw [hraw, hbase c hc]
  have hfirst : o.first ∈ channelsOf o := List.mem_map.2 ⟨0, List.mem_range.2 hcount, rfl⟩
  unfold objectDelta
  rw [hdelta _ hfirst]
  exact List.foldl_ext _ _ _ fun _ c hc => by rw [hdelta c hc]

theorem AwaitsScan.delta {n : Nat} {s t : State} (h : AwaitsScan n s t) (hcount : 0 < (getKey s n).count) :
    objectDelta t.io.keys (getKey t n) = objectDelta s.io.keys (getKey s n) := by
  obtain ⟨hview, hobject, hbase⟩ := h
  rw [hobject]
  exact objectDelta_congr hcount (congrArg (fun v => v.2.2.1) hview :) hbase

/-- The scan of all objects: what the scan of one of them makes of it, the others leave. -/
theorem scan_object {n : Nat} {s : State} {R : KeyObj → Prop} (hn : n < 48)
    (hothers : ∀ m, m < 48 → m ≠ n → (getKey s m).enable = true → ∀ c ∈ channelsOf (getKey s m), c ∉ channelsOf (getKey s n))
    (hturn : ∀ t, AwaitsScan n s t → R (getKey (scanObject n t) n)) :
    scanView (forEach (List.range 48) scanObject s) = scanView s ∧ R (getKey (forEach (List.range 48) scanObject s) n) := by
  refine forEach_once (P := AwaitsScan n s) (Q := fun t => scanView t = scanView s ∧ R (getKey t n)) (x := n) List.nodup_range (List.mem_range.2 hn) ?_ ?_ ?_
    ⟨rfl, rfl, fun _ _ => rfl⟩
  · intro m hm hmn t ⟨hview, hobject, hbase⟩
    have hplace : ((getKey t m).enable, channelsOf (getKey t m)) = ((getKey s m).enable, channelsOf (getKey s m)) := congrArg (fun v => v.2.2.2.2.2 m) hview
    cases henable : (getKey s m).enable with
    | false => rw [scanObject_disabled ((congrArg Prod.fst hplace).trans henable)]; exact ⟨hview, hobject, hbase⟩
    | true =>
      have h := scanObject_scansTo t m
      refine ⟨h.view.trans hview, (h.other (Ne.symm hmn)).trans hobject, fun c hc => (h.base fun hcm => ?_).trans (hbase c hc)⟩
      rw [show channelsOf (getKey t m) = channelsOf (getKey s m) from congrArg Prod.snd hplace] at hcm
      exact hothers m (List.mem_range.1 hm) hmn henable c hcm hc
  · exact fun t ht => ⟨(scanObject_scansTo t n).view.trans ht.1, hturn t ht⟩
  · intro m _ hmn t ⟨hview, hR⟩
    exact ⟨(scanObject_scansTo t m).view.trans hview, by rw [(scanObject_scansTo t m).other (Ne.symm hmn)]; exact hR⟩

theorem underTest_none {k : KeysSt} (h : k.test = none) (o : KeyObj) : underTest k o = false := by
  unfold underTest testedMask
  rw [h]
  exact List.any_eq_false.2 fun c _ => by simp [bitAt, bitsAt]

theorem AwaitsScan.notTested {n : Nat} {s t : State} (h : AwaitsScan n s t) (htest : s.io.keys.test = none) : underTest t.io.keys (getKey t n) = false :=
  underTest_none ((congrArg (fun v => v.2.2.2.2.1) h.1 :).trans htest) _

theorem counts_mod {counts : List Nat} (h : ∀ x ∈ counts, x < 65536) : counts.map (· % 65536) = counts :=
  (List.map_congr_left fun x hx => Nat.mod_eq_of_lt (h x hx)).trans (List.map_id' counts)

/-- The raw counts of a scan, with no self-test running. -/
def counted (s : State) (counts : List Nat) : State := modKeys s fun k => { k with raw := counts, scanAt := some (upTime s) }

/-- The sums of the first four scans, with no self-test running (R391). -/
def summed (s : State) (counts : List Nat) : State :=
  modKeys s fun k => { k with raw := counts, sum := k.sum.zipWith (· + ·) counts, scanAt := some (upTime s) }

/-- The baselines that the first four scans give (R391). -/
def baselined (s : State) : State := modKeys s fun k => { k with base := k.sum.map (· / 4) }

/-- All objects scanned, and every channel's baseline tracked. -/
def tracked (s : State) : State := modKeys (forEach (List.range 48) scanObject s) fun k => (List.range 48).foldl trackChannel k

/-- Tracking changes baselines alone. -/
theorem trackChannel_keeps (k : KeysSt) (c : Nat) :
    ((trackChannel k c).raw, (trackChannel k c).sets, (trackChannel k c).test, (trackChannel k c).objects) = (k.raw, k.sets, k.test, k.objects) := by
  unfold trackChannel; dsimp only
  split <;> (split; · rfl) <;> (split; · rfl) <;> split <;> rfl

theorem tracked_keys (s : State) : ∃ k, tracked s = modKeys (forEach (List.range 48) scanObject s) k ∧ ∀ x, ((k x).raw, (k x).sets, (k x).test, (k x).objects) = (x.raw, x.sets, x.test, x.objects) :=
  ⟨_, rfl, fun x => foldl_keeps (fun k : KeysSt => (k.raw, k.sets, k.test, k.objects) = (x.raw, x.sets, x.test, x.objects)) trackChannel
    (fun k c h => (trackChannel_keeps k c).trans h) _ _ rfl⟩

/-- The scan is counted (R389). -/
def scanCounted (k : KeysSt) : KeysSt := { k with scan := if k.scan = 2 ^ 32 - 1 then 4 else k.scan + 1 }

/-- The end of a scan: the objects that were configured during it are written (R395). -/
def scanEnd (s : State) : State := modKeys (forEach s.io.keys.sets applyKeySet (modKeys s fun k => { k with sets := [] })) scanCounted

theorem modKeys_modKeys (s : State) (f g : KeysSt → KeysSt) : modKeys (modKeys s f) g = modKeys s (g ∘ f) := rfl

theorem modKeys_congr {s : State} {f g : KeysSt → KeysSt} (h : f s.io.keys = g s.io.keys) : modKeys s f = modKeys s g :=
  congrArg (fun k => { s with io := { s.io with keys := k } }) h

theorem scanEnd_noSets {s : State} (h : s.io.keys.sets = []) : scanEnd s = modKeys s scanCounted := by
  unfold scanEnd
  rw [h, modKeys_congr (f := fun k => { k with sets := [] }) (g := id) (by rw [← h]; rfl)]
  rfl

section
variable {s : State} {counts : List Nat} (hlen : counts.length = 48) (hcounts : ∀ x ∈ counts, x < 65536) (hrunning : s.time.running = true)
  (hdue : scanDue s = true) (htest : s.io.keys.test = none)
include hlen hcounts hrunning hdue htest

theorem execKeyScan_late (hscan : 4 ≤ s.io.keys.scan) : exec (.keyScan counts) s = .next (scanEnd (tracked (counted s counts))) := by
  have hlate : ¬ s.io.keys.scan < 4 := not_lt.2 hscan
  have hthree : s.io.keys.scan ≠ 3 := by omega
  have hcounted (g : KeyTest → KeyTest) :
      (modKeys s fun k => { k with raw := counts, scanAt := some (upTime s), test := k.test.map g }) = counted s counts :=
    modKeys_congr (by rw [htest, Option.map_none, ← htest])
  show execKeyScan counts s = _
  unfold execKeyScan
  simp only [hlen, hrunning, hdue, hlate, hthree, counts_mod hcounts, ne_eq, not_true_eq_false, decide_false, Bool.not_true, Bool.or_false, Bool.false_eq_true, if_false]
  rw [hcounted]
  rfl

/-- One of the first four scans (R391). -/
theorem execKeyScan_early (hscan : s.io.keys.scan < 4) (hsets : s.io.keys.sets = []) :
    exec (.keyScan counts) s = .next (modKeys (if s.io.keys.scan = 3 then baselined (summed s counts) else summed s counts) scanCounted) := by
  have hsummed (g : KeyTest → KeyTest) : (modKeys s fun k =>
      { k with raw := counts, sum := k.sum.zipWith (· + ·) counts, scanAt := some (upTime s), test := k.test.map g }) = summed s counts :=
    modKeys_congr (by rw [htest, Option.map_none, ← htest])
  have hend : (if s.io.keys.scan = 3 then baselined (summed s counts) else summed s counts).io.keys.sets = [] := by split <;> exact hsets
  rw [← scanEnd_noSets hend]
  show execKeyScan counts s = _
  unfold execKeyScan
  simp only [hlen, hrunning, hdue, hscan, counts_mod hcounts, ne_eq, not_true_eq_false, decide_false, Bool.not_true, Bool.or_false, Bool.false_eq_true, if_false, if_true]
  rw [hsummed]
  rfl

end

/-- Settles O45: while an object awaits its turn in a scan, the scans of the others leave its entry and the baselines of its channels, so that its delta is that of the
new counts; afterwards they leave what its own scan made of it. -/
theorem keyObjects : Obligations.KeyObjects := by
  unfold Obligations.KeyObjects
  refine ⟨?_, ?_, ?_, ?_, ?_, ?_, ?_, ?_⟩
  · intro s c h hr hc
    have hact : actKeys s h c = holdOn (modKeys s fun k => { k with sets := k.sets ++ [{ key := Cmd.key c, pkt := h.pkt }] }) h := by
      unfold actKeys; rw [hr.1.key]
    exact hr.1.holds (i := .keysConfigure c) (congrArg Host.Outcome.next ((hr.runPacket rfl hc).trans hact)) rfl
  · intro s counts hlen hcounts hrunning hdue hscan hsets htest
    rw [Becomes, execKeyScan_early hlen hcounts hrunning hdue htest (Nat.lt_succ_of_lt hscan) hsets, if_neg hscan.ne]
    refine congrArg _ ((modKeys_modKeys ..).trans (modKeys_congr ?_))
    have hwrap : s.io.keys.scan ≠ 2 ^ 32 - 1 := by omega
    exact congrArg (fun n => { (summed s counts).io.keys with scan := n }) (if_neg hwrap)
  · intro s counts hlen hcounts hrunning hdue hscan hsets htest
    have hcount : (if s.io.keys.scan = 2 ^ 32 - 1 then 4 else s.io.keys.scan + 1) = 4 := by rw [hscan]; rfl
    rw [Becomes, execKeyScan_early hlen hcounts hrunning hdue htest (hscan ▸ by decide) hsets, if_pos hscan]
    refine congrArg _ ((modKeys_modKeys ..).trans ((modKeys_modKeys ..).trans (modKeys_congr ?_)))
    exact congrArg (fun n => { (baselined (summed s counts)).io.keys with scan := n }) hcount
  · intro s counts hdue
    show execKeyScan counts s = _
    unfold execKeyScan
    rw [if_pos (by simp [hdue])]
  · intro s counts n o d hlen hcounts hrunning hdue hscan hsets htest hn ho henable hmin hothers hcount hd
    subst ho hd
    have hexec := execKeyScan_late hlen hcounts hrunning hdue htest hscan
    have hscanned {R : KeyObj → Prop} (h : ∀ t, AwaitsScan n (counted s counts) t → R (getKey (scanObject n t) n)) :
        Runs (.keyScan counts) s fun t => R (getKey t n) ∧ t.io.keys.raw = counts ∧ sameBytes t s := by
      obtain ⟨hview, hR⟩ := scan_object (s := counted s counts) hn hothers h
      obtain ⟨k, htracked, hkeys⟩ := tracked_keys (counted s counts)
      generalize forEach (List.range 48) scanObject (counted s counts) = u at hview hR htracked
      obtain ⟨hraw, hsame⟩ := Prod.mk.inj (hkeys u.io.keys)
      obtain ⟨hsets', hsame⟩ := Prod.mk.inj hsame
      obtain ⟨-, hobjects⟩ := Prod.mk.inj hsame
      rw [htracked, scanEnd_noSets (hsets'.trans ((congrArg (fun v => v.2.2.2.1) hview :).trans hsets))] at hexec
      refine ⟨_, hexec, ?_, hraw.trans (congrArg (fun v => v.2.2.1) hview :), sameBytes_of_outside (congrArg Prod.fst hview :)⟩
      exact (congrArg (fun t => R (tget {} t n)) hobjects).mpr hR
    have hobject {t : State} (ht : AwaitsScan n (counted s counts) t) : getKey t n = getKey s n := ht.2.1
    have hd {t : State} (ht : AwaitsScan n (counted s counts) t) : objectDelta t.io.keys (getKey s n) = objectDelta { s.io.keys with raw := counts } (getKey s n) :=
      (congrArg _ (hobject ht).symm).trans (ht.delta hcount)
    have hfree {t : State} (ht : AwaitsScan n (counted s counts) t) : underTest t.io.keys (getKey t n) = false := ht.notTested htest
    have hwritten {t u : State} {f : KeyObj → KeyObj} (h : kept t = kept (modKey u n f)) : getKey t n = f (getKey u n) :=
      (read_kept (getKey · n) (fun _ => rfl) h).trans ((getKey_modKey ..).trans (if_pos rfl))
    refine ⟨fun hpressed hdelta hrun => ?_, fun hpressed hdelta => ?_, fun hpressed hdelta hrun => ?_⟩
    · obtain ⟨t, ht, ⟨hpress, hat, hrun⟩, hraw, hbytes⟩ := hscanned (R := fun o => o.pressed = true ∧ o.pressAt = upTime s ∧ o.run = 0) fun t ht => by
        obtain ⟨p, hp⟩ := scanObject_press (s := t) (n := n) (by rwa [hobject ht]) (hfree ht) (by rwa [hobject ht]) (by rwa [hobject ht])
          (by rwa [hobject ht, hd ht]) (by rwa [hobject ht])
        rw [hwritten hp]
        exact ⟨rfl, (congrArg (fun v => v.2.1) ht.1 :), rfl⟩
      exact ⟨t, ht, hpress, hat, hrun, hraw, hbytes⟩
    · obtain ⟨t, ht, hidle, -⟩ := hscanned (R := fun o => o.pressed = false ∧ o.run = 0) fun t ht =>
        scanObject_idle (hfree ht) (by rwa [hobject ht]) (by rwa [hobject ht]) (by rwa [hobject ht]) (by rwa [hobject ht, hd ht])
      exact ⟨t, ht, hidle⟩
    · obtain ⟨t, ht, hreleased, -⟩ := hscanned (R := fun o => o.pressed = false ∧ o.run = 0 ∧ o.negRun = 0) fun t ht => by
        rw [hwritten (scanObject_release (s := t) (n := n) (by rwa [hobject ht]) (hfree ht) (by rwa [hobject ht]) (by rwa [hobject ht])
          (by rwa [hobject ht, hd ht]) (by rwa [hobject ht]))]
        exact ⟨rfl, rfl, rfl⟩
      exact ⟨t, ht, hreleased⟩
  · intro s n hn henable hpressed htest hpassed
    have hout : underTest s.io.keys (getKey s n) = false := underTest_none htest _
    have hexec : exec (.keyMaxOnExpiry n) s = .next (recalibrate (postKey (modKey s n fun o => { o with pressed := false, run := 0, negRun := 0 }) n 2 1) n 2) :=
      congrArg Host.Outcome.next (if_pos (by simp [hn, henable, hpressed, hout, hpassed]))
    exact leaves_of_kept hexec ((kept_recalibrate_of (kept_postKey ..) 2).trans
      (kept_recalibrate_modKey s n 2 (f := fun o => { o with pressed := false, run := 0, negRun := 0 }) fun _ => ⟨rfl, rfl⟩))
  · intro s c h hr hc
    have hact : actSelftest s h c = defer (modKeys s fun k => { k with test := some {
        key := Cmd.key c
        mask := pf h.pkt 16 0 48
        openMin := if pf h.pkt 22 0 16 = 0 then 1024 else pf h.pkt 22 0 16
        neighMax := if pf h.pkt 24 0 16 = 0 then 2048 else pf h.pkt 24 0 16
        dest := pf h.pkt 32 0 64
        space := pb h.pkt 40 0 } }) h [] := by
      unfold actSelftest; rw [hr.1.key]
    exact hr.1.defers (i := .keySelftest c) (congrArg Host.Outcome.next ((hr.runPacket rfl hc).trans hact)) rfl
  · intro s t h ok m htest hscans hdest hf hs hm
    subst hm
    have hexec : exec (.keySelftestComplete ok) s = .next (finishKey (modKeys s fun k => { k with test := none }) t.key .ok (nowBits s)
        [fAt 16 0 48 ((List.range 48).foldl (fun m c => if inRange (((List.range 48).map (testResult t)).getD c 0) 1 3 then m ||| 2 ^ c else m) 0),
          fAt 24 0 64 (wpBits t.wp)]) := by
      show execKeySelftestComplete ok s = _
      unfold execKeySelftestComplete
      simp only [htest, hscans, hdest, if_true, Nat.lt_irrefl, if_false]
      rfl
    exact answers_of_finishKey hexec rfl rfl hf hs

end Sys2Proof.Machine
end

section
/-! Touch ports: descriptors, stamps, reports, errors and silence (R397 to R402). -/
namespace Sys2Proof.Machine
open Sys2Proof

theorem modTouch_modTouch (s : State) (p : Nat) (f g : TouchPort → TouchPort) : modTouch (modTouch s p f) p g = modTouch s p (g ∘ f) := by
  unfold modTouch; dsimp only; rw [tmod_tmod]; rfl

theorem modTouch_congr {s : State} {p : Nat} {f g : TouchPort → TouchPort} (h : f (getTouch s p) = g (getTouch s p)) : modTouch s p f = modTouch s p g :=
  congrArg (fun t => { s with io := { s.io with touch := t } }) (tmod_congr ({} : TouchPort) _ _ f g h)

theorem kept_modTouch {s t : State} (p : Nat) (f : TouchPort → TouchPort) (h : kept t = kept s) : kept (modTouch t p f) = kept (modTouch s p f) :=
  kept_apply (fun s => modTouch s p f) (fun _ => rfl) (fun _ => rfl) (fun _ => rfl) h

theorem kept_postTouch (s : State) (port phase : Nat) (c : Contact) (st : Option TouchStamp) : kept (postTouch s port phase c st) = kept s := by
  unfold postTouch; dsimp only
  exact iteInduction (motive := fun t : State => kept t = kept s) (fun _ => rfl) fun _ => kept_postEvent ..

/-- A port with no contact. -/
def noContacts (p : TouchPort) : TouchPort := { p with contacts := [], left := 0, seen := [] }

theorem kept_cancelContacts (s : State) (port : Nat) (st : Option TouchStamp) : kept (cancelContacts s port st) = kept (modTouch s port noContacts) :=
  kept_modTouch port noContacts (forEach_same kept _ _ s fun c s => kept_postTouch s port 3 c st)

/-- A port whose read has ended: the next begins with the next edge's stamp, or with the same one. -/
def readEnded (s : State) (attn : Bool) (p : TouchPort) : TouchPort :=
  { p with nextStamp := none, readAt := upTime s, stamp := if p.nextStamp.isSome then p.nextStamp else if attn then p.stamp else none }

theorem endRead_eq (s : State) (port : Nat) (attn : Bool) : endRead s port attn = modTouch s port (readEnded s attn) := rfl

/-! What an entry of a report reads and writes. -/

/-- What the entries of a report leave alone: the bytes, the layers, the outputs, and the touch ports but for the ports that they write. -/
noncomputable def touchView (s : State) : (Nat → Option Byte) × CompSt × ScanSt × Tab TouchPort := (outside s, s.comp, s.scan, s.io.touch)

theorem touchView_of_kept {s t : State} (h : kept t = kept s) : touchView t = touchView s :=
  Prod.ext (outside_of_kept h) (read_kept (fun s => (touchView s).2) (fun _ => rfl) h)

theorem touchView_hidValue (s : State) (l : List Byte) (ids : Bool) (f : HidField) : touchView (hidValue s l ids f).1 = touchView s := by
  unfold hidValue; dsimp only
  exact iteInduction (motive := fun r : Nat × State => touchView r.2 = touchView s) (fun _ => rfl) fun _ => rfl

theorem touchView_entryOf (s : State) (l : List Byte) (ids : Bool) (f : HidFinger) : touchView (entryOf s l ids f).1 = touchView s := by
  have hraw (s : State) (g : HidField) : touchView (hidRaw s l ids g).1 = touchView s := touchView_hidValue ..
  unfold entryOf; dsimp only
  refine (iteInduction (motive := fun r : State × Nat => touchView r.1 = _) (fun _ => hraw ..) fun _ => rfl).trans ?_
  exact (touchView_hidValue ..).trans ((touchView_hidValue ..).trans ((hraw ..).trans (hraw ..)))

theorem touchView_fireTriggers (s : State) (owner output slot : Nat) : touchView (fireTriggers s owner output slot) = touchView s :=
  forEach_same touchView _ _ s fun _ _ => rfl

/-- A contact that goes DOWN on a touch layer (R400). -/
def contactDown (e : TouchEntry) (g : MapEntry) (x y : Nat) (clamped old : Bool) : Contact :=
  { id := e.id, owner := g.owner, slot := g.slot, source := some g.source, x, y, clamped, oldMap := old }

theorem touchView_modTouch_congr {s t : State} (p : Nat) (f : TouchPort → TouchPort) (h : touchView t = touchView s) :
    touchView (modTouch t p f) = touchView (modTouch s p f) := by
  obtain ⟨hout, hrest⟩ := Prod.mk.inj h
  obtain ⟨hcomp, hrest⟩ := Prod.mk.inj hrest
  obtain ⟨hscan, htouch⟩ := Prod.mk.inj hrest
  show (outside t, t.comp, t.scan, tmod {} t.io.touch p f) = (outside s, s.comp, s.scan, tmod {} s.io.touch p f)
  rw [hout, hcomp, hscan, htouch]

theorem getTouch_of_touchView {s t : State} (h : touchView t = touchView s) (p : Nat) : getTouch t p = getTouch s p :=
  congrArg (fun x => tget ({} : TouchPort) x p) (congrArg (fun v => v.2.2.2) h :)

theorem mapPoint_congr {s t : State} {p q : TouchPort} (hscan : t.scan = s.scan) (hmatrix : q.matrix = p.matrix) (houtput : q.output = p.output) (x y : Int) :
    mapPoint t q x y = mapPoint s p x y := by
  unfold mapPoint getOut
  rw [hscan, hmatrix, houtput]

theorem mapAt_congr {s t : State} (h : t.comp = s.comp) (o : Nat) (w : Wp) : mapAt t o w = mapAt s o w := by
  unfold mapAt; rw [h]

/-- A contact that the hit-test gives a layer goes DOWN there (R400). -/
theorem touchView_touchDown {s : State} {port : Nat} {t : TouchStamp} {e : TouchEntry} {px py : Nat} {cl old : Bool} {m : LayerMap} {g : MapEntry}
    (hpoint : mapPoint s (getTouch s port) e.x e.y = (px, py, cl)) (hmap : mapAt s (getTouch s port).output t.wp = (m, old))
    (hhit : hitLayer m px py = some g) :
    touchView (touchDown s port t e) = touchView (modTouch s port fun p => { p with contacts := p.contacts ++ [contactDown e g px py cl old] }) := by
  unfold touchDown; dsimp only
  rw [hpoint]; dsimp only; rw [hmap]; dsimp only; rw [hhit]; dsimp only
  have hpost (c : Contact) (s : State) : touchView (postTouch s port 0 c (some t)) = touchView s := touchView_of_kept (kept_postTouch ..)
  split
  · exact hpost (contactDown e g px py cl old) _
  · exact (touchView_fireTriggers ..).trans (hpost (contactDown e g px py cl old) _)

/-- A new contact that touches is seen, and goes DOWN. -/
theorem touchView_touchEntry {s : State} {port : Nat} {t : TouchStamp} {e : TouchEntry} {px py : Nat} {cl old : Bool} {m : LayerMap} {g : MapEntry}
    (hseen : (getTouch s port).seen = []) (hcontacts : (getTouch s port).contacts = []) (htip : e.tip = true) (hconf : e.conf = true)
    (hpoint : mapPoint s (getTouch s port) e.x e.y = (px, py, cl)) (hmap : mapAt s (getTouch s port).output t.wp = (m, old))
    (hhit : hitLayer m px py = some g) :
    touchView (touchEntry port t e s) =
      touchView (modTouch s port fun p => { p with seen := [e.id], contacts := [contactDown e g px py cl old] }) := by
  have hport : getTouch (modTouch s port fun p => { p with seen := e.id :: p.seen }) port = { getTouch s port with seen := [e.id] } := by
    rw [getTouch_modTouch, if_pos rfl, hseen]
  unfold touchEntry; dsimp only
  rw [hseen, hcontacts]
  simp only [List.contains_nil, List.find?_nil, htip, hconf, Bool.and_true, if_true, Bool.false_eq_true, if_false]
  rw [touchView_touchDown (s := modTouch s port fun p => { p with seen := e.id :: p.seen }) (m := m) (g := g) (px := px) (py := py) (cl := cl) (old := old)
    (by rw [hport]; exact hpoint) (by rw [hport]; exact hmap) hhit, modTouch_modTouch]
  refine congrArg touchView (modTouch_congr ?_)
  simp only [Function.comp, hcontacts, hseen, List.nil_append]

/-- A frame that omits no contact. -/
theorem closeFrame_whole {s : State} {port : Nat} (t : TouchStamp) (h : ∀ c ∈ (getTouch s port).contacts, (getTouch s port).seen.contains c.id = true) :
    closeFrame s port t = modTouch s port fun p => { p with seen := [], left := 0 } := by
  have hnone : ((getTouch s port).contacts.filter fun c => !(getTouch s port).seen.contains c.id) = [] :=
    List.filter_eq_nil_iff.2 fun c hc => by rw [h c hc]; decide
  unfold closeFrame; dsimp only
  rw [hnone]
  rfl

/-- The view of one contact that touches a layer, at the end of the report that holds it alone. -/
theorem touchView_touchReport {s u : State} {p : Nat} {t : TouchStamp} {l : List Byte} {f : HidFinger} {e : TouchEntry} {px py : Nat} {cl old : Bool} {m : LayerMap}
    {g : MapEntry} (hlayout : (getTouch s p).layout = { ids := false, fingers := [f], count := none }) (hreport : f.report = 0)
    (hseen : (getTouch s p).seen = []) (hcontacts : (getTouch s p).contacts = []) (hentry : entryOf s l false f = (u, e)) (htip : e.tip = true)
    (hconf : e.conf = true) (hpoint : mapPoint s (getTouch s p) e.x e.y = (px, py, cl)) (hmap : mapAt s (getTouch s p).output t.wp = (m, old))
    (hhit : hitLayer m px py = some g) :
    touchView (touchReport s p t l) = touchView (modTouch s p fun x => { x with seen := [], left := 0, contacts := [contactDown e g px py cl old] }) := by
  have hu : touchView u = touchView s := by
    rw [← touchView_entryOf s l false f, hentry]
  have hport : getTouch u p = getTouch s p := getTouch_of_touchView hu p
  have hdown : touchView (touchEntry p t e u) = touchView (modTouch u p fun x => { x with seen := [e.id], contacts := [contactDown e g px py cl old] }) :=
    touchView_touchEntry (by rw [hport, hseen]) (by rw [hport, hcontacts]) htip hconf
      (by rw [hport, mapPoint_congr (congrArg (fun v => v.2.2.1) hu :) rfl rfl, hpoint]) (by rw [hport, mapAt_congr (congrArg (fun v => v.2.1) hu :), hmap]) hhit
  have hdownPort : getTouch (touchEntry p t e u) p = { getTouch s p with seen := [e.id], contacts := [contactDown e g px py cl old] } := by
    rw [← hport]
    exact (getTouch_of_touchView hdown p).trans ((getTouch_modTouch ..).trans (if_pos rfl))
  have hframe : touchReport s p t l = closeFrame (touchEntry p t e u) p t := by
    unfold touchReport touchEntries
    simp [hlayout, hreport, forEach, hentry]
  rw [hframe, closeFrame_whole t (by rw [hdownPort]; simp [contactDown]), touchView_modTouch_congr _ _ hdown, modTouch_modTouch,
    touchView_modTouch_congr _ _ hu]
  rfl

/-- Settles O46: an entry of a report is read and moves contacts without a byte, a layer or another port changing; the rest are changes of the one port. -/
theorem touchPorts : Obligations.TouchPorts := by
  unfold Obligations.TouchPorts
  refine ⟨?_, ?_, ?_, ?_, ?_, ?_, ?_, ?_⟩
  · intro s c h port y hr hc hport hspace hheadless hok hlen hlayout
    subst hport
    have hdest : (pb h.pkt 16 5 || destSpace s) = false := by rw [hspace]; exact hheadless
    have hact : actTouchPortSet s h c = finishNow (modTouch (cancelContacts s (pf h.pkt 16 0 3) none) (pf h.pkt 16 0 3) fun _ => {
        enable := pb h.pkt 16 3
        attnHigh := pb h.pkt 16 4
        output := pf h.pkt 17 0 3
        i2c := pf h.pkt 18 0 7
        inputReg := pf h.pkt 20 0 16
        matrix := (List.range 6).map fun k => toSigned 32 (pf h.pkt (32 + 4 * k) 0 32)
        layout := y }) h .ok [fAt 16 0 8 y.fingers.length, fAt 17 0 8 (getTouch s (pf h.pkt 16 0 3)).contacts.length] := by
      unfold actTouchPortSet; dsimp only
      rw [hdest, srcRead_host _ _ _ _ hok hlen]; dsimp only
      rw [hlayout]
    refine hr.acts (i := .touchPortSet c) rfl rfl hc hact ((kept_modTouch _ _ (kept_cancelContacts ..)).trans ?_) rfl
    rw [modTouch_modTouch]
    rfl
  · intro s c h off hr hc hspace hheadless hok hlen hlayout
    have hdest : (pb h.pkt 16 5 || destSpace s) = false := by rw [hspace]; exact hheadless
    have hact : actTouchPortSet s h c = finishNow s h .badParam [fAt 18 0 8 (off / 16)] := by
      unfold actTouchPortSet; dsimp only
      rw [hdest, srcRead_host _ _ _ _ hok hlen]; dsimp only
      rw [hlayout]
    exact hr.acts (i := .touchPortSet c) rfl rfl hc hact rfl rfl
  · intro s p hp henable
    exact congrArg Host.Outcome.next (if_pos (by simp [hp, henable]))
  · intro s p r attn t henable hstamp hlen hzero
    have hexec : exec (.touchReportRead p r attn) s = .next (endRead (modTouch s p fun x => { x with errors := 0 }) p attn) := by
      show execTouchReportRead p r attn s = _
      unfold execTouchReportRead; dsimp only
      rw [hstamp]; dsimp only
      simp [henable, hzero, Nat.not_lt.2 hlen]
    rw [Becomes, hexec, endRead_eq, modTouch_modTouch]
    refine congrArg _ (modTouch_congr ?_)
    simp only [Function.comp, readEnded, hstamp]
    rfl
  · intro s u p r t x f e px py cl old m g hx henable hstamp hnext hcontacts hseen hlayout hreport hmin hmax hlen hentry htip hconf hpoint hmap hhit hslot
    subst hx
    have hexec : exec (.touchReportRead p r false) s =
        .next (endRead (touchReport (modTouch s p fun x => { x with errors := 0 }) p t ((r.take (leAt r 0 2)).drop 2)) p false) := by
      show execTouchReportRead p r false s = _
      unfold execTouchReportRead; dsimp only
      rw [hstamp]; dsimp only
      have hshort : ¬ (r.length ≤ 1 ∨ r.length < leAt r 0 2) := by omega
      simp [henable, hshort, Nat.not_lt.2 hmax, show leAt r 0 2 ≠ 1 by omega, show leAt r 0 2 ≠ 0 by omega]
    have hbegun : getTouch (modTouch s p fun x => { x with errors := 0 }) p = { getTouch s p with errors := 0 } := (getTouch_modTouch ..).trans (if_pos rfl)
    have hview := touchView_touchReport (s := modTouch s p fun x => { x with errors := 0 }) (t := t) (by rw [hbegun]; exact hlayout) hreport
      (by rw [hbegun]; exact hseen) (by rw [hbegun]; exact hcontacts) hentry htip hconf (by rw [hbegun]; exact hpoint) (by rw [hbegun]; exact hmap) hhit
    generalize touchReport (modTouch s p fun x => { x with errors := 0 }) p t ((r.take (leAt r 0 2)).drop 2) = w at hexec hview
    rw [modTouch_modTouch] at hview
    have hport : getTouch w p = { getTouch s p with errors := 0, seen := [], left := 0, contacts := [contactDown e g px py cl old] } :=
      (getTouch_of_touchView hview p).trans ((getTouch_modTouch ..).trans (if_pos rfl))
    have hended : getTouch (endRead w p false) p = readEnded w false (getTouch w p) := (getTouch_modTouch ..).trans (if_pos rfl)
    have hidle : (getTouch (endRead w p false) p).stamp = none := by
      rw [hended, hport]
      simp only [readEnded, hnext, Option.isSome_none, Bool.false_eq_true, if_false]
    refine ⟨_, hexec, ?_, hidle, ?_, ?_, ?_, fun q hq => ?_, congrArg (fun v => v.2.1) hview, sameBytes_of_outside (congrArg Prod.fst hview)⟩
    · rw [hended, hport]; rfl
    · rw [hended, hport]; rfl
    · rw [hended, hport]; rfl
    · rw [hended, hport]; rfl
    · exact (getTouch_modTouch ..).trans ((if_neg hq).trans ((getTouch_of_touchView hview q).trans ((getTouch_modTouch ..).trans (if_neg hq))))
  · intro s p attn henable hstamp hpassed herrors
    have hexec : exec (.touchReadTimeout p attn) s = .next (endRead (modTouch s p fun x => { x with errors := x.errors + 1 }) p attn) := by
      refine congrArg Host.Outcome.next ((if_pos (by simp [henable, hpassed, Option.isSome_iff_ne_none, hstamp])).trans ?_)
      unfold portError; dsimp only
      rw [if_pos herrors]
    rw [Becomes, hexec, endRead_eq, modTouch_modTouch]
    rfl
  · intro s p attn henable hstamp hpassed herrors
    have hexec : exec (.touchReadTimeout p attn) s =
        .next (endRead (modTouch (cancelContacts s p (getTouch s p).stamp) p fun x => { x with errors := 0 }) p attn) := by
      refine congrArg Host.Outcome.next ((if_pos (by simp [henable, hpassed, Option.isSome_iff_ne_none, hstamp])).trans ?_)
      unfold portError; dsimp only
      rw [if_neg (Nat.not_lt.2 herrors)]
    refine leaves_of_kept hexec ?_
    have hcancel := kept_cancelContacts s p (getTouch s p).stamp
    have hup : upTime (cancelContacts s p (getTouch s p).stamp) = upTime s := (read_kept upTime (fun _ => rfl) hcancel).trans rfl
    rw [endRead_eq, modTouch_modTouch]
    have hended : readEnded (modTouch (cancelContacts s p (getTouch s p).stamp) p fun x => { x with errors := 0 }) attn = readEnded s attn := by
      funext x
      exact congrArg (fun n => { readEnded s attn x with readAt := n }) hup
    rw [hended]
    exact (kept_modTouch _ _ hcancel).trans (congrArg kept (modTouch_modTouch ..))
  · intro s p henable hstamp hpassed
    exact leaves_of_kept (congrArg Host.Outcome.next (if_pos (by simp [henable, hstamp, hpassed]))) (kept_cancelContacts ..)

end Sys2Proof.Machine
end

section
/-! Haptic channels: configuration, plays, drive periods and faults (R403 to R409). -/
namespace Sys2Proof.Machine
open Sys2Proof

theorem modHap_modHap (s : State) (n : Nat) (f g : HapChan → HapChan) : modHap (modHap s n f) n g = modHap s n (g ∘ f) := by
  unfold modHap; dsimp only; rw [tmod_tmod]; rfl

theorem modHap_congr {s : State} {n : Nat} {f g : HapChan → HapChan} (h : f (getHap s n) = g (getHap s n)) : modHap s n f = modHap s n g :=
  congrArg (fun t => { s with io := { s.io with haptics := t } }) (tmod_congr ({} : HapChan) _ _ f g h)

theorem kept_modHap {s t : State} (n : Nat) (f : HapChan → HapChan) (h : kept t = kept s) : kept (modHap t n f) = kept (modHap s n f) :=
  kept_apply (fun s => modHap s n f) (fun _ => rfl) (fun _ => rfl) (fun _ => rfl) h

/-- A channel that a fault has turned off (R407). -/
def chanOff (cause : Nat) (x : HapChan) : HapChan := { x with fault := cause, play := none, next := [], brake := 0 }

theorem hapticOff_eq (s : State) (n cause peak : Nat) : ∃ f : List Field, hapticOff s n cause peak =
    let t := post (emit (modHap s n (chanOff cause)) (.haptic n 0)) 0 0x0904 f
    if (getHap s n).owner = 0 then t else post t (getHap s n).owner 0x0904 f := ⟨_, rfl⟩

theorem kept_hapticOff (s : State) (n cause peak : Nat) : kept (hapticOff s n cause peak) = kept (modHap s n (chanOff cause)) := by
  obtain ⟨f, h⟩ := hapticOff_eq s n cause peak
  rw [h]
  have hpost := kept_post (emit (modHap s n (chanOff cause)) (.haptic n 0)) 0 0x0904 f
  exact iteInduction (motive := fun t : State => kept t = kept (modHap s n (chanOff cause))) (fun _ => hpost) fun _ => (kept_post ..).trans hpost

theorem mem_out_hapticOff (s : State) (n cause peak : Nat) : Output.haptic n 0 ∈ (hapticOff s n cause peak).out := by
  obtain ⟨f, h⟩ := hapticOff_eq s n cause peak
  rw [h]
  have hsteady := steady_out (Output.haptic n 0)
  have hpost := hsteady.post (s := emit (modHap s n (chanOff cause)) (.haptic n 0)) 0 0x0904 f (List.mem_append_right _ List.mem_cons_self)
  exact iteInduction (motive := fun t : State => Output.haptic n 0 ∈ t.out) (fun _ => hpost) fun _ => hsteady.post _ _ _ hpost

/-- A drive period begins on a channel with no request (R404). -/
theorem execHapticDrivePeriod_eq {s : State} {n : Nat} (r : Nat) {w : Nat × Nat} (hn : n < 8) (henable : (getHap s n).enable = true) (hfault : (getHap s n).fault = 0)
    (hsample : s.io.audio.sample ≠ 0) (hw : w = (s.io.audio.group, (s.io.audio.sample - 1) / 48)) (hperiod : (getHap s n).period ≠ some w)
    (herm : (getHap s n).erm = true) (hnext : (getHap s n).next = []) :
    exec (.hapticDrivePeriod n r) s = .next (hapPeriod (modHap s n fun x => { x with period := some w }) n) := by
  have hbegin : (modHap s n fun x => { trackFreq x r with period := some w }) = modHap s n fun x => { x with period := some w } :=
    modHap_congr (by unfold trackFreq; rw [if_pos (Or.inl herm)])
  have hstart : hapStart (modHap s n fun x => { x with period := some w }) n = modHap s n fun x => { x with period := some w } := by
    unfold hapStart; dsimp only
    rw [getHap_modHap, if_pos rfl, hnext]
    rfl
  subst hw
  refine congrArg Host.Outcome.next ((if_pos ?_).trans ?_)
  · simp [hn, henable, hfault, hsample, hperiod]
  · rw [if_neg hsample, hbegin, hstart]

/-- Settles O47: a channel in use with no request either drives the next sample of its play or brakes; a fault turns it off and stops its drive. -/
theorem hapticChannels : Obligations.HapticChannels := by
  unfold Obligations.HapticChannels
  refine ⟨?_, ?_, ?_, ?_, ?_, ?_⟩
  · intro s u c h n o hr hc hn ho hlib hu
    subst hn ho hu
    have hact : ∃ t : State, actHapticConfigure s h c = finishNow (modHap t (pf h.pkt 16 0 3) fun _ => {
        enable := pb h.pkt 16 3
        erm := pb h.pkt 16 4
        trigEnable := pb h.pkt 16 5
        owner := pf h.pkt 17 0 7
        ratedMv := pf h.pkt 18 0 13
        ilimit := pf h.pkt 20 0 9
        f0 := pf h.pkt 22 0 9
        lib := pf h.pkt 24 0 32
        trigOutput := pf h.pkt 28 0 3
        trigSlot := pf h.pkt 28 3 3
        trigWave := pf h.pkt 29 0 6
        fault := if pb h.pkt 16 3 then 0 else (getHap s (pf h.pkt 16 0 3)).fault
        freq := 10 * pf h.pkt 22 0 9
        period := (getHap s (pf h.pkt 16 0 3)).period
        brake := if (getHap s (pf h.pkt 16 0 3)).erm && pb h.pkt 16 4 && pb h.pkt 16 3 &&
          ((getHap s (pf h.pkt 16 0 3)).play.isSome || (getHap s (pf h.pkt 16 0 3)).brake != 0) then 10 else 0 }) h .ok [] ∧
        kept t = kept (if pf h.pkt 24 0 32 = 0 then s else addUser s (pf h.pkt 24 0 32)) := by
      unfold actHapticConfigure; dsimp only
      rw [if_pos hlib]
      exact ⟨_, rfl, iteInduction (motive := fun t : State => kept t = _) (fun _ => rfl) fun _ => rfl⟩
    obtain ⟨t, hact, hkept⟩ := hact
    refine hr.acts (i := .hapticConfigure c) rfl rfl hc hact (kept_modHap _ _ hkept) ?_
    exact iteInduction (motive := fun t : State => (modHap t _ _).time = s.time) (fun _ => rfl) fun _ => rfl
  · intro s c h hr hc
    have hact : actHapticPlay s h c = finishNow (forEach (playChannels h.pkt) (fun n s => modHap s n fun x => { x with
        next := x.next ++ [{ stop := pb h.pkt 17 6, wave := pf h.pkt 17 0 6, gain := pf h.pkt 18 0 8, due := none }] }) s) h .ok [] := by
      unfold actHapticPlay; dsimp only
      rw [if_neg (by rw [hr.1.2.2.1]; decide)]
    refine hr.acts (i := .hapticPlay c) rfl rfl hc hact rfl (forEach_same (·.time) _ _ s fun _ _ => rfl)
  · intro s c h hr hc
    exact hr.refused (i := .hapticPlay c) rfl rfl hc
  · intro s u n r x p v w hn hx henable hfault hsample hw hperiod herm hnext hplay hpos hread
    subst hx
    rw [Becomes, execHapticDrivePeriod_eq r hn henable hfault hsample hw hperiod herm hnext]
    unfold hapPeriod; dsimp only
    rw [getHap_modHap, if_pos rfl]
    dsimp only
    rw [hplay] at hread ⊢; dsimp only
    rw [if_neg (Nat.not_le.2 hpos), hread]
    rfl
  · intro s n r x w hn hx henable hfault hsample hw hperiod herm hnext hplay hbrake
    subst hx
    rw [Becomes, execHapticDrivePeriod_eq r hn henable hfault hsample hw hperiod herm hnext]
    unfold hapPeriod hapBrake; dsimp only
    rw [getHap_modHap, if_pos rfl]
    dsimp only
    rw [hplay]; dsimp only
    rw [if_neg hbrake.ne', modHap_modHap]
    rfl
  · intro s n cause peak hn henable hfault hmin hmax herm
    have hexec : exec (.hapticFault n cause peak) s = .next (hapticOff s n cause peak) := by
      refine congrArg Host.Outcome.next (if_pos ?_)
      have hrange : inRange cause 1 4 = true := by simp [inRange, hmin, hmax]
      have hshows : (cause == 3 && (getHap s n).erm) = false := by
        by_cases h : cause = 3
        · rw [herm h, Bool.and_false]
        · simp [h]
      simp [hn, henable, hfault, hrange, hshows]
    exact ⟨leaves_of_kept hexec (kept_hapticOff ..), _, hexec, mem_out_hapticOff ..⟩

end Sys2Proof.Machine
end

section
/-! Sound: streams, tones and the mixer (R410 to R415). -/
namespace Sys2Proof.Machine
open Sys2Proof

theorem modAud_modAud (s : State) (n : Nat) (f g : AudStream → AudStream) : modAud (modAud s n f) n g = modAud s n (g ∘ f) := by
  unfold modAud modAudio; dsimp only; rw [tmod_tmod]; rfl

theorem modTone_modTone (s : State) (n : Nat) (f g : Tone → Tone) : modTone (modTone s n f) n g = modTone s n (g ∘ f) := by
  unfold modTone modAudio; dsimp only; rw [tmod_tmod]; rfl

theorem modTone_congr {s : State} {n : Nat} {f g : Tone → Tone} (h : f (getTone s n) = g (getTone s n)) : modTone s n f = modTone s n g :=
  congrArg (fun t => modAudio s fun a => { a with tones := t }) (tmod_congr ({} : Tone) _ _ f g h)

/-! A generator's sample, and a stream's. -/

/-- What sound reads and writes but for the free values: the time, and operator I/O. -/
def heard (s : State) : TimeSt × IoSt := (s.time, s.io)

theorem io_latchGauge (s : State) (off : Nat) : (latchGauge s off).io = s.io := by
  unfold latchGauge
  split <;> rfl

theorem io_regRead (s : State) (off size : Nat) : (regRead s off size).1.io = s.io := by
  unfold regRead
  split
  · exact iteInduction (motive := fun r : State × Nat => r.1.io = s.io) (fun _ => io_latchGauge ..) fun _ => io_latchGauge ..
  · rfl
  · split
    · split <;> rfl
    · rfl

theorem heard_regRead (s : State) (off size : Nat) : heard (regRead s off size).1 = heard s := Prod.ext (time_regRead ..) (io_regRead ..)

/-- What no read of a register changes, reads of one after another leave, whatever reads each. -/
theorem regReads_same {β : Type} (g : State → β) (read : State → Nat → Nat → State × Nat) (hread : ∀ s off size, g (read s off size).1 = g s) (a n : Nat)
    (l : List Nat) (x : State × List Byte) :
    g (l.foldl (fun (x : State × List Byte) k =>
      let m := min 8 (n - 8 * k)
      let (s, v) := read x.1 (a - regSpace + 8 * k) (if m < 8 then 4 else 8)
      (s, x.2 ++ bytesLE m v)) x).1 = g x.1 :=
  foldl_keeps (fun y : State × List Byte => g y.1 = g x.1) _ (fun y _ hy => (hread y.1 _ _).trans hy) l x rfl

theorem heard_weirRead (s : State) (a n : Nat) : heard (weirRead s a n).1 = heard s := by
  unfold weirRead
  cases hreg : inRegSpace a with
  | true => exact regReads_same heard regRead heard_regRead a n _ (s, [])
  | false => exact quiet_eq heard (fun _ => rfl) (quiet_noteRead ..)

theorem heard_storeRead (s : State) (slice e a n : Nat) : heard (storeRead s slice e a n).1 = heard s := by
  unfold storeRead
  split
  · exact heard_weirRead s a n
  · exact quiet_eq heard (fun _ => rfl) (quiet_denyAt ..)

theorem heard_modAud {s t : State} (h : heard t = heard s) (n : Nat) (f : AudStream → AudStream) : heard (modAud t n f) = heard (modAud s n f) := by
  obtain ⟨htime, hio⟩ := Prod.mk.inj h
  show (t.time, { t.io with audio := { t.io.audio with streams := tmod {} t.io.audio.streams n f } }) = (s.time, { s.io with audio := { s.io.audio with streams := tmod {} s.io.audio.streams n f } })
  rw [htime, hio]

/-- A tone's sample changes its generator alone. -/
theorem toneSample_eq (s : State) (n : Nat) : ∃ f, (toneSample s n).1 = modTone s n f := by
  unfold toneSample; dsimp only
  refine iteInduction (motive := fun r : State × Option MixIn => ∃ f, r.1 = modTone s n f) (fun _ => ⟨_, rfl⟩) fun _ => ?_
  refine iteInduction (motive := fun r : State × Option MixIn => ∃ f, r.1 = modTone s n f) (fun _ => ⟨_, modTone_modTone ..⟩) fun _ => ?_
  exact iteInduction (motive := fun r : State × Option MixIn => ∃ f, r.1 = modTone s n f) (fun _ => ⟨_, rfl⟩) fun _ => ⟨_, rfl⟩

/-- A tone that sounds goes on (R415). -/
theorem toneSample_on {s : State} {n : Nat} (hon : (getTone s n).on = true) (hending : (getTone s n).ending = false) (hstart : (getTone s n).start = none)
    (hcycles : (getTone s n).cycles = 0) : (getTone (toneSample s n).1 n).pos = (getTone s n).pos + 1 ∧ (getTone (toneSample s n).1 n).on = true := by
  unfold toneSample; dsimp only
  simp only [hon, hending, hstart, hcycles, Bool.not_true, Bool.false_eq_true, if_false, bne_self_eq_false, Bool.false_and, Bool.or_false, getTone_modTone, if_true, and_self]

/-- A stream's sample changes its stream alone. -/
theorem heard_streamSample (host : List HostBytes) (s : State) (n : Nat) : ∃ f, heard (streamSample host s n).1 = heard (modAud s n f) := by
  have hbytes (t : State) (x : AudStream) (off len : Nat) : heard (ringBytes t n x host off len).1 = heard t := by
    unfold ringBytes
    exact iteInduction (motive := fun r : State × Option (List Byte) => heard r.1 = heard t) (fun _ => heard_storeRead ..) fun _ => rfl
  unfold streamSample; dsimp only
  refine iteInduction (motive := fun r : State × Option MixIn => ∃ f, heard r.1 = heard (modAud s n f)) (fun _ => ⟨_, rfl⟩) fun _ => ?_
  refine iteInduction (motive := fun r : State × Option MixIn => ∃ f, heard r.1 = heard (modAud s n f)) (fun _ => ?_) fun _ => ?_
  · dsimp only; rw [modAud_modAud, modAud_modAud]; exact ⟨_, rfl⟩
  · have hread := hbytes (modAud s n fun x => { x with running := true }) (getAud s n)
      (4096 + (getAud s n).consumed % (((getAud s n).length - 4096) / frameBytes (getAud s n)) * frameBytes (getAud s n)) (frameBytes (getAud s n))
    split
    · rename_i hr
      rw [hr] at hread
      exact ⟨_, (heard_modAud (heard_modAud hread _ _) _ _).trans (by rw [modAud_modAud, modAud_modAud])⟩
    · rename_i hr
      rw [hr] at hread
      exact ⟨_, (heard_modAud hread _ _).trans (by rw [modAud_modAud])⟩

section
variable {s : State} {host : List HostBytes} {n : Nat} (hused : (getAud s n).used = true) (hrunning : (getAud s n).running = true)
include hused hrunning

/-- A stream in host memory that has a sample plays it (R413). -/
theorem streamSample_plays {b : List Byte} (hspace : (getAud s n).space = false) (hready : (getAud s n).consumed < (getAud s n).produced)
    (hhost : hostFor host n (frameBytes (getAud s n)) = some b) :
    (getAud (streamSample host s n).1 n).consumed = (getAud s n).consumed + 1 ∧ (getAud (streamSample host s n).1 n).underruns = (getAud s n).underruns := by
  unfold streamSample ringBytes; dsimp only
  simp only [hused, hrunning, hspace, hhost, Nat.not_le.2 hready, Bool.not_true, Bool.true_or, Bool.or_false, Bool.false_eq_true, if_false, getAud_modAud, if_true, and_self]

/-- A stream that is not produced in time has an underrun (R413). -/
theorem streamSample_underrun (hlate : (getAud s n).produced ≤ (getAud s n).consumed) :
    (getAud (streamSample host s n).1 n).underruns = (getAud s n).underruns + 1 ∧ (getAud (streamSample host s n).1 n).consumed = (getAud s n).consumed := by
  unfold streamSample; dsimp only
  simp only [hused, hrunning, hlate, Bool.not_true, Bool.true_or, Bool.or_false, Bool.false_eq_true, if_false, getAud_modAud, if_true, and_self, Nat.add_zero]

end

/-! The samples of all inputs. -/

/-- What the inputs' samples leave alone: the time, the keys, the haptics, and the place of the grid of samples. -/
def gridOf (s : State) : TimeSt × KeysSt × Tab HapChan × Nat × Nat × Nat × Nat :=
  (s.time, s.io.keys, s.io.haptics, s.io.audio.baseFrame, s.io.audio.group, s.io.audio.sample, s.io.audio.poll)

/-- Every stream gives its sample. -/
def streamsSampled (host : List HostBytes) (s : State) : State := forEach (List.range 24) (fun n s => (streamSample host s n).1) s

/-- Every tone gives its sample. -/
def tonesSampled (s : State) : State := forEach (List.range 8) (fun n s => (toneSample s n).1) s

/-- An input gives its sample to the mixer, or none. -/
def sampleInto (f : State → Nat → State × Option MixIn) (acc : State × List MixIn) (n : Nat) : State × List MixIn :=
  match f acc.1 n with
  | (s, some m) => (s, acc.2 ++ [m])
  | (s, none) => (s, acc.2)

theorem sampleInto_fst (f : State → Nat → State × Option MixIn) (acc : State × List MixIn) (n : Nat) : (sampleInto f acc n).1 = (f acc.1 n).1 := by
  unfold sampleInto
  split <;> rename_i h <;> rw [h]

theorem foldl_sampleInto_fst (f : State → Nat → State × Option MixIn) (l : List Nat) (x : State × List MixIn) :
    (l.foldl (sampleInto f) x).1 = forEach l (fun n s => (f s n).1) x.1 := by
  induction l generalizing x with
  | nil => rfl
  | cons n l ih =>
    rw [List.foldl_cons, ih, sampleInto_fst]
    rfl

theorem allInputs_eq (host : List HostBytes) (s : State) :
    allInputs host s = (List.range 8).foldl (sampleInto toneSample) ((List.range 24).foldl (sampleInto (streamSample host)) (s, [])) := rfl

theorem allInputs_fst (host : List HostBytes) (s : State) : (allInputs host s).1 = tonesSampled (streamsSampled host s) := by
  rw [allInputs_eq, foldl_sampleInto_fst, foldl_sampleInto_fst]
  rfl

theorem streamSample_leaves (host : List HostBytes) (s : State) (n : Nat) :
    gridOf (streamSample host s n).1 = gridOf s ∧ (streamSample host s n).1.io.audio.tones = s.io.audio.tones ∧
      ∀ m, m ≠ n → getAud (streamSample host s n).1 m = getAud s m := by
  obtain ⟨f, h⟩ := heard_streamSample host s n
  have hio : (streamSample host s n).1.io = (modAud s n f).io := congrArg Prod.snd h
  refine ⟨?_, ?_, fun m hm => ?_⟩
  · unfold gridOf; rw [hio, show (streamSample host s n).1.time = s.time from congrArg Prod.fst h]; rfl
  · rw [hio]; rfl
  · unfold getAud; rw [hio]; exact (getAud_modAud s n m f).trans (if_neg hm)

theorem toneSample_leaves (s : State) (n : Nat) :
    gridOf (toneSample s n).1 = gridOf s ∧ (toneSample s n).1.io.audio.streams = s.io.audio.streams ∧ ∀ m, m ≠ n → getTone (toneSample s n).1 m = getTone s m := by
  obtain ⟨f, h⟩ := toneSample_eq s n
  rw [h]
  exact ⟨rfl, rfl, fun m hm => (getTone_modTone ..).trans (if_neg hm)⟩

theorem streamsSampled_leaves (host : List HostBytes) (s : State) :
    gridOf (streamsSampled host s) = gridOf s ∧ (streamsSampled host s).io.audio.tones = s.io.audio.tones := by
  unfold streamsSampled
  exact ⟨forEach_same gridOf _ _ s fun n s => (streamSample_leaves host s n).1, forEach_same (·.io.audio.tones) _ _ s fun n s => (streamSample_leaves host s n).2.1⟩

theorem tonesSampled_leaves (s : State) : gridOf (tonesSampled s) = gridOf s ∧ (tonesSampled s).io.audio.streams = s.io.audio.streams := by
  unfold tonesSampled
  exact ⟨forEach_same gridOf _ _ s fun n s => (toneSample_leaves s n).1, forEach_same (·.io.audio.streams) _ _ s fun n s => (toneSample_leaves s n).2.1⟩

/-- A stream is as its own sample left it. -/
theorem getAud_streamsSampled {host : List HostBytes} {s : State} {n : Nat} {R : AudStream → Prop} (hn : n < 24)
    (h : ∀ t, getAud t n = getAud s n → R (getAud (streamSample host t n).1 n)) : R (getAud (streamsSampled host s) n) := by
  unfold streamsSampled
  exact forEach_once (P := fun t => getAud t n = getAud s n) (Q := fun t => R (getAud t n)) List.nodup_range (List.mem_range.2 hn)
    (fun m _ hm t ht => ((streamSample_leaves host t m).2.2 n (Ne.symm hm)).trans ht) h
    (fun m _ hm t ht => (congrArg R ((streamSample_leaves host t m).2.2 n (Ne.symm hm))).mpr ht) rfl

/-- A tone is as its own sample left it. -/
theorem getTone_tonesSampled {s : State} {n : Nat} {R : Tone → Prop} (hn : n < 8) (h : ∀ t, getTone t n = getTone s n → R (getTone (toneSample t n).1 n)) :
    R (getTone (tonesSampled s) n) := by
  unfold tonesSampled
  exact forEach_once (P := fun t => getTone t n = getTone s n) (Q := fun t => R (getTone t n)) List.nodup_range (List.mem_range.2 hn)
    (fun m _ hm t ht => ((toneSample_leaves t m).2.2 n (Ne.symm hm)).trans ht) h
    (fun m _ hm t ht => (congrArg R ((toneSample_leaves t m).2.2 n (Ne.symm hm))).mpr ht) rfl

theorem heard_mixDest (ins : List MixIn) (d : Nat) (s : State) : heard (mixDest ins d s) = heard s := by
  have hmix (s : State) (v : Int) : heard (mixOut s v).1 = heard s := by
    unfold mixOut; dsimp only
    exact iteInduction (motive := fun r : State × Int => heard r.1 = heard s) (fun _ => rfl) fun _ => rfl
  unfold mixDest; dsimp only
  exact iteInduction (motive := fun t : State => heard t = heard s) (fun _ => rfl) fun _ => (hmix ..).trans (hmix ..)

/-- The inputs mixed for every destination (R411, R412). -/
def mixed (ins : List MixIn) (s : State) : State := forEach (List.range 12) (mixDest ins) (duckStep s)

theorem mixed_leaves (ins : List MixIn) (s : State) :
    gridOf (mixed ins s) = gridOf s ∧ (mixed ins s).io.audio.streams = s.io.audio.streams ∧ (mixed ins s).io.audio.tones = s.io.audio.tones := by
  have h : heard (mixed ins s) = heard (duckStep s) := forEach_same heard _ _ _ fun d s => heard_mixDest ins d s
  have hio : (mixed ins s).io = (duckStep s).io := congrArg Prod.snd h
  have htime : (mixed ins s).time = s.time := congrArg Prod.fst h
  unfold gridOf
  rw [htime, hio]
  exact ⟨rfl, rfl, rfl⟩

/-- The place of the grid after another, by the wall timing: the frame, the group and the sample (R410). -/
def placeAfter (s : State) (base group sample : Nat) : Nat × Nat × Nat :=
  let next := if sample + 1 < groupSamples s then (group, sample + 1) else (group + 1, 0)
  if 2 ^ 32 * frameTicks s ≤ (base + next.1 * s.time.timing.rateNum) * frameTicks s + sampleTicks s next.2 then (0, 0, 0) else (base, next)

theorem nextSample_eq (s : State) (a : AudioSt) : nextSample s a =
    { a with
      baseFrame := (placeAfter s a.baseFrame a.group a.sample).1
      group := (placeAfter s a.baseFrame a.group a.sample).2.1
      sample := (placeAfter s a.baseFrame a.group a.sample).2.2 } := by
  unfold nextSample placeAfter
  by_cases hnext : a.sample + 1 < groupSamples s
  · simp only [hnext, if_true]
    split <;> rfl
  · simp only [hnext, if_false]
    split <;> rfl

theorem placeAfter_congr {s t : State} (h : t.time = s.time) (base group sample : Nat) : placeAfter t base group sample = placeAfter s base group sample := by
  unfold placeAfter groupSamples sampleTicks frameTicks wallLines groupSamples
  rw [h]

/-- The sound, after every input's sample and the mixer, but for the place of the grid. -/
def sampled (host : List HostBytes) (s : State) : State := mixed (allInputs host s).2 (allInputs host s).1

/-- The place of the grid moves on (R410, R413). -/
def moveOn (s : State) : State := modAudio s fun a => { nextSample s a with poll := min 48 (a.poll + 1) }

theorem execAudioSample_eq {s : State} (host : List HostBytes) (hrunning : s.time.running = true) (hdue : wpReached (now s) (nextSampleWp s) = true) :
    exec (.audioSample host) s = .next (moveOn (sampled host s)) := by
  show execAudioSample host s = _
  unfold execAudioSample
  rw [if_neg (by simp [hrunning, hdue])]
  unfold sampled mixed
  cases allInputs host s
  rfl

theorem sampled_leaves (host : List HostBytes) (s : State) : gridOf (sampled host s) = gridOf s ∧
    (sampled host s).io.audio.streams = (streamsSampled host s).io.audio.streams ∧
    (sampled host s).io.audio.tones = (tonesSampled (streamsSampled host s)).io.audio.tones := by
  obtain ⟨hgrid, hstreams, htones⟩ := mixed_leaves (allInputs host s).2 (allInputs host s).1
  rw [allInputs_fst] at hgrid hstreams htones
  unfold sampled
  rw [allInputs_fst]
  exact ⟨hgrid.trans ((tonesSampled_leaves _).1.trans (streamsSampled_leaves host s).1), hstreams.trans (tonesSampled_leaves _).2, htones⟩

theorem moveOn_place {s t : State} (h : gridOf t = gridOf s) : (moveOn t).io.audio.group = (nextSample s s.io.audio).group ∧
    (moveOn t).io.audio.sample = (nextSample s s.io.audio).sample ∧ (moveOn t).io.audio.baseFrame = (nextSample s s.io.audio).baseFrame ∧
    (moveOn t).io.audio.poll = min 48 (s.io.audio.poll + 1) ∧ (moveOn t).io.keys = s.io.keys ∧ (moveOn t).io.haptics = s.io.haptics := by
  obtain ⟨htime, h⟩ := Prod.mk.inj h
  obtain ⟨hkeys, h⟩ := Prod.mk.inj h
  obtain ⟨hhaptics, h⟩ := Prod.mk.inj h
  obtain ⟨hbase, h⟩ := Prod.mk.inj h
  obtain ⟨hgroup, h⟩ := Prod.mk.inj h
  obtain ⟨hsample, hpoll⟩ := Prod.mk.inj h
  have hplace : placeAfter t t.io.audio.baseFrame t.io.audio.group t.io.audio.sample = placeAfter s s.io.audio.baseFrame s.io.audio.group s.io.audio.sample := by
    rw [hbase, hgroup, hsample, placeAfter_congr htime]
  have hmoved : (moveOn t).io.audio = { nextSample t t.io.audio with poll := min 48 (t.io.audio.poll + 1) } := rfl
  rw [hmoved, nextSample_eq, nextSample_eq, hplace, hpoll]
  exact ⟨rfl, rfl, rfl, rfl, hkeys, hhaptics⟩

theorem getTone_moveOn (s : State) (n : Nat) : getTone (moveOn s) n = getTone s n := by
  show tget {} (moveOn s).io.audio.tones n = _
  have hmoved : (moveOn s).io.audio = { nextSample s s.io.audio with poll := min 48 (s.io.audio.poll + 1) } := rfl
  rw [hmoved, nextSample_eq]
  rfl

theorem getAud_moveOn (s : State) (n : Nat) : getAud (moveOn s) n = getAud s n := by
  show tget {} (moveOn s).io.audio.streams n = _
  have hmoved : (moveOn s).io.audio = { nextSample s s.io.audio with poll := min 48 (s.io.audio.poll + 1) } := rfl
  rw [hmoved, nextSample_eq]
  rfl

/-! A poll of PRODUCED (R413). -/

/-- A change of a stream that leaves its owner and where its ring is. -/
def KeepsRing (f : AudStream → AudStream) : Prop := ∀ x, ((f x).used, (f x).owner, (f x).space, (f x).addr) = (x.used, x.owner, x.space, x.addr)

/-- What a poll of one stream leaves to the others: the poll's count, the tones, the slices, and where every ring is. -/
def pollView (s : State) : Nat × Tab Tone × Tab Slice × (Nat → Bool × Nat × Bool × Nat) :=
  (s.io.audio.poll, s.io.audio.tones, s.slices, fun m => ((getAud s m).used, (getAud s m).owner, (getAud s m).space, (getAud s m).addr))

theorem pollView_modAud (s : State) (n : Nat) {f : AudStream → AudStream} (hf : KeepsRing f) : pollView (modAud s n f) = pollView s := by
  refine Prod.ext rfl (Prod.ext rfl (Prod.ext rfl ?_))
  funext m
  show ((getAud (modAud s n f) m).used, (getAud (modAud s n f) m).owner, (getAud (modAud s n f) m).space, (getAud (modAud s n f) m).addr) = _
  rw [getAud_modAud]
  split
  · rename_i hm; subst hm; exact hf _
  · rfl

theorem inRegSpace_below {a : Nat} (h : a < regSpace) : inRegSpace a = false := by
  unfold inRegSpace
  rw [decide_eq_false (Nat.not_le.2 h), Bool.false_and]

/-- What a stream's PRODUCED word gives it (R413). -/
def produced (b : List Byte) (x : AudStream) : AudStream :=
  { x with produced := natLE b, running := x.running || (x.start.isNone && decide (x.prefill ≤ natLE b)) }

/-- All that quiet keeps is as it was, and what has been sent stays sent. -/
def Sends (s t : State) : Prop := quiet t = quiet s ∧ ∀ o ∈ s.out, o ∈ t.out

theorem Sends.refl (s : State) : Sends s s := ⟨rfl, fun _ ho => ho⟩

theorem Sends.trans {s t u : State} (hst : Sends s t) (htu : Sends t u) : Sends s u := ⟨htu.1.trans hst.1, fun o ho => htu.2 o (hst.2 o ho)⟩

theorem sends_denyAt (s : State) (slice e : Nat) (w : Bool) (r a : Nat) : Sends s (denyAt s slice e w r a) :=
  ⟨quiet_denyAt .., fun o ho => (steady_out o).denyAt _ _ _ _ _ ho⟩

theorem sends_noteRead (s : State) (a n c : Nat) : Sends s (noteRead s a n c) := by
  refine ⟨quiet_noteRead .., fun o ho => ?_⟩
  unfold noteRead
  refine iteInduction (motive := fun t : State => o ∈ t.out) (fun _ => ho) fun _ => forEach_keeps (fun t => o ∈ t.out) _ _ s (fun u t ht => ?_) ho
  exact iteInduction (motive := fun t : State => o ∈ t.out) (fun _ => ht) fun _ => (steady_out o).postEvent _ _ ht

theorem sends_storeRead {s : State} {a : Nat} (hbelow : inRegSpace a = false) (slice e n : Nat) : Sends s (storeRead s slice e a n).1 := by
  unfold storeRead
  split
  · rw [weirRead_store hbelow]; exact sends_noteRead ..
  · exact sends_denyAt ..

theorem sends_storeWrite {s : State} {a : Nat} (hbelow : inRegSpace a = false) (slice e : Nat) (l : List Byte) : Sends s (storeWrite s slice e a l).1 := by
  unfold storeWrite
  split
  · refine ⟨?_, fun o ho => ?_⟩
    · show quiet (weirWrite s a l) = _
      unfold weirWrite; rw [hbelow, if_neg Bool.false_ne_true]; rfl
    · show o ∈ (weirWrite s a l).out
      unfold weirWrite; rw [hbelow, if_neg Bool.false_ne_true]; exact ho
  · exact sends_denyAt ..

/-- What the poll of one stream can do. -/
def Polls (m : Nat) (s t : State) : Prop := pollView t = pollView s ∧ (∀ n, n ≠ m → getAud t n = getAud s n) ∧ ∀ o ∈ s.out, o ∈ t.out

theorem Sends.polls {s t : State} (h : Sends s t) (m : Nat) : Polls m s t :=
  ⟨quiet_eq pollView (fun _ => rfl) h.1, fun n _ => quiet_eq (getAud · n) (fun _ => rfl) h.1, h.2⟩

theorem Polls.trans {m : Nat} {s t u : State} (hst : Polls m s t) (htu : Polls m t u) : Polls m s u :=
  ⟨htu.1.trans hst.1, fun n hn => (htu.2.1 n hn).trans (hst.2.1 n hn), fun o ho => htu.2.2 o (hst.2.2 o ho)⟩

theorem polls_modAud (s : State) (m : Nat) {f : AudStream → AudStream} (hf : KeepsRing f) : Polls m s (modAud s m f) :=
  ⟨pollView_modAud s m hf, fun _ hn => (getAud_modAud ..).trans (if_neg hn), fun _ ho => ho⟩

theorem polls_hostPut (s : State) (m slice a : Nat) (l : List Byte) : Polls m s (hostPut s slice a l) :=
  ⟨rfl, fun _ _ => rfl, fun _ ho => List.mem_append_left _ ho⟩

/-- A poll of a stream whose ring, where it is in the store, is below the registers. -/
theorem polls_pollStream (host : List HostBytes) (m : Nat) {s : State} (hbelow : (getAud s m).space = true → (getAud s m).addr + 64 < regSpace) :
    Polls m s (pollStream host m s) := by
  have hread : Polls m s (ringBytes s m (getAud s m) host 0 8).1 := by
    unfold ringBytes
    by_cases hspace : (getAud s m).space = true
    · rw [if_pos hspace]
      exact (sends_storeRead (inRegSpace_below (Nat.lt_of_le_of_lt (Nat.add_le_add_left (Nat.zero_le 64) _) (hbelow hspace))) ..).polls m
    · rw [if_neg hspace]
      exact (Sends.refl s).polls m
  have hwrite (t : State) (l : List Byte) : Polls m t (if (getAud s m).space then (storeWrite t (getAud s m).owner engOpio ((getAud s m).addr + 64) l).1
      else hostPut t (getAud s m).owner ((getAud s m).addr + 64) l) := by
    by_cases hspace : (getAud s m).space = true
    · rw [if_pos hspace]
      exact (sends_storeWrite (inRegSpace_below (hbelow hspace)) ..).polls m
    · rw [if_neg hspace]
      exact polls_hostPut ..
  unfold pollStream; dsimp only
  refine iteInduction (motive := Polls m s) (fun _ => (Sends.refl s).polls m) fun _ => (hread.trans ?_).trans (hwrite ..)
  split
  · exact (Sends.refl _).polls m
  · exact polls_modAud _ m fun _ => rfl

/-- A poll of a stream in host memory (R413). -/
theorem pollStream_host {host : List HostBytes} {n : Nat} {s : State} {b : List Byte} (hused : (getAud s n).used = true) (hspace : (getAud s n).space = false)
    (hhost : hostFor host n 8 = some b) : pollStream host n s =
      hostPut (modAud s n (produced b)) (getAud s n).owner ((getAud s n).addr + 64) (bytesLE 8 (getAud s n).consumed) := by
  unfold pollStream ringBytes; dsimp only
  simp only [hused, hspace, hhost, Bool.not_true, Bool.false_eq_true, if_false]
  rfl

/-- All streams polled. -/
def polled (host : List HostBytes) (s : State) : State := forEach (List.range 24) (pollStream host) s

/-- The rings in the store are below the registers. -/
def RingsBelow (s : State) : Prop := ∀ n, n < 24 → (getAud s n).space = true → (getAud s n).addr + 64 < regSpace

theorem RingsBelow.of_view {s t : State} (h : RingsBelow s) (hview : pollView t = pollView s) : RingsBelow t := fun n hn hspace => by
  have hring : ((getAud t n).used, (getAud t n).owner, (getAud t n).space, (getAud t n).addr) =
      ((getAud s n).used, (getAud s n).owner, (getAud s n).space, (getAud s n).addr) := congrArg (fun v => v.2.2.2 n) hview
  rw [show (getAud t n).addr = (getAud s n).addr from congrArg (fun v => v.2.2.2) hring]
  exact h n hn ((congrArg (fun v => v.2.2.1) hring).symm.trans hspace)

theorem pollView_polled (host : List HostBytes) {s : State} (hbelow : RingsBelow s) : pollView (polled host s) = pollView s := by
  unfold polled
  refine forEach_keeps_mem (fun t => pollView t = pollView s) _ _ (fun m hm t ht => ?_) s rfl
  exact (polls_pollStream host m (hbelow.of_view ht m (List.mem_range.1 hm))).1.trans ht

/-- A stream in host memory, polled (R413). -/
theorem polled_host {host : List HostBytes} {n : Nat} {s : State} {b : List Byte} (hn : n < 24) (hbelow : RingsBelow s) (hused : (getAud s n).used = true)
    (hspace : (getAud s n).space = false) (hhost : hostFor host n 8 = some b) : getAud (polled host s) n = produced b (getAud s n) ∧
      Output.hostWrite (getAud s n).owner (pasidOf s (getAud s n).owner) ((getAud s n).addr + 64) (bytesLE 8 (getAud s n).consumed) ∈ (polled host s).out := by
  unfold polled
  refine (forEach_once (P := fun t => pollView t = pollView s ∧ getAud t n = getAud s n)
    (Q := fun t => pollView t = pollView s ∧ getAud t n = produced b (getAud s n) ∧
      Output.hostWrite (getAud s n).owner (pasidOf s (getAud s n).owner) ((getAud s n).addr + 64) (bytesLE 8 (getAud s n).consumed) ∈ t.out)
    List.nodup_range (List.mem_range.2 hn) ?before ?turn ?after ⟨rfl, rfl⟩).2
  case before =>
    intro m hm hmn t ⟨hview, hstream⟩
    obtain ⟨hview', hother, -⟩ := polls_pollStream host m (hbelow.of_view hview m (List.mem_range.1 hm))
    exact ⟨hview'.trans hview, (hother n (Ne.symm hmn)).trans hstream⟩
  case turn =>
    intro t ⟨hview, hstream⟩
    refine ⟨(polls_pollStream host n (hbelow.of_view hview n hn)).1.trans hview, ?_⟩
    have hpasid : pasidOf t = pasidOf s := funext fun j => congrArg (fun x => (tget ({} : Slice) x j).pasid.getD 0) (congrArg (fun v => v.2.2.1) hview :)
    rw [pollStream_host (s := t) (b := b) (by rw [hstream, hused]) (by rw [hstream, hspace]) hhost, ← hpasid, ← hstream]
    exact ⟨(getAud_modAud ..).trans (if_pos rfl), List.mem_append_right _ List.mem_cons_self⟩
  case after =>
    intro m hm hmn t ⟨hview, hstream, hsent⟩
    obtain ⟨hview', hother, hout⟩ := polls_pollStream host m (hbelow.of_view hview m (List.mem_range.1 hm))
    exact ⟨hview'.trans hview, (hother n (Ne.symm hmn)).trans hstream, hout _ hsent⟩

/-- Settles O48: an input's sample and a poll of a stream change that input alone, so that each input is as its own turn left it; the rest are changes of one entry. -/
theorem sound : Obligations.Sound := by
  unfold Obligations.Sound
  refine ⟨?_, ?_, ?_, ?_, ?_, ?_, ?_, ?_, ?_⟩
  · intro s c h hr hop hc
    exact hr.1.answers (i := .audioStreamSetOpen c) (congrArg Host.Outcome.next ((hr.runPacket (by simp [hop]) hc).trans rfl))
  · intro s c h n hr hop hc hn
    subst hn
    exact hr.1.answers (i := .audioStreamSetClose c) (congrArg Host.Outcome.next ((hr.runPacket (by simp [hop]) hc).trans rfl))
  · intro s c h hr hop hc
    exact hr.1.answers (i := .audioStreamSetGain c) (congrArg Host.Outcome.next ((hr.runPacket (by simp [hop]) hc).trans rfl))
  · intro s c h hr hop hc
    exact hr.1.answers (i := .audioStreamSetGlobal c) (congrArg Host.Outcome.next ((hr.runPacket (by simp [hop]) hc).trans rfl))
  · intro s c h hr hc hstop
    have hbusy : toneBusy s (pf h.pkt 16 0 3) h.slice = false := by
      have := (firstFail_cons_eq_none.1 (firstFail_cons_eq_none.1 (firstFail_cons_eq_none.1 (firstFail_cons_eq_none.1 hc).2).2).2).1
      simpa [hstop] using this
    refine hr.1.answers (i := .tonePlay c) (congrArg Host.Outcome.next ((hr.runPacket rfl hc).trans ?_))
    unfold actTonePlay; dsimp only
    rw [hr.1.2.2.1, hstop, hbusy]
    rfl
  · intro s c h hr hc hstop hon
    refine hr.1.answers (i := .tonePlay c) (congrArg Host.Outcome.next ((hr.runPacket rfl hc).trans ?_))
    unfold actTonePlay; dsimp only
    rw [hr.1.2.2.1, hstop, modTone_congr (f := fun t => if t.on then { t with ending := true } else t) (g := fun t => { t with ending := true }) (if_pos hon)]
    rfl
  · intro s host hrunning hdue
    refine ⟨_, execAudioSample_eq host hrunning hdue, ?_⟩
    obtain ⟨hgrid, hstreams, htones⟩ := sampled_leaves host s
    obtain ⟨hgroup, hsample, hbase, hpoll, hkeys, hhaptics⟩ := moveOn_place hgrid
    have haud (n : Nat) : getAud (moveOn (sampled host s)) n = getAud (streamsSampled host s) n :=
      (getAud_moveOn ..).trans (congrArg (fun x => tget ({} : AudStream) x n) hstreams)
    have htone (n : Nat) : getTone (moveOn (sampled host s)) n = getTone (tonesSampled (streamsSampled host s)) n :=
      (getTone_moveOn ..).trans (congrArg (fun x => tget ({} : Tone) x n) htones)
    have hbefore (n : Nat) : getTone (streamsSampled host s) n = getTone s n := congrArg (fun x => tget ({} : Tone) x n) (streamsSampled_leaves host s).2
    refine ⟨hgroup, hsample, hbase, hpoll, hkeys, hhaptics, fun n hn hon hending hstart hcycles => ?_, fun n b hn hused hrun hspace hready hhost => ?_,
      fun n hn hused hrun hlate => ?_⟩
    · rw [htone]
      refine getTone_tonesSampled (R := fun x => x.pos = (getTone s n).pos + 1 ∧ x.on = true) hn fun t ht => ?_
      rw [hbefore] at ht
      have := toneSample_on (s := t) (n := n) (by rw [ht, hon]) (by rw [ht, hending]) (by rw [ht, hstart]) (by rw [ht, hcycles])
      rwa [ht] at this
    · rw [haud]
      refine getAud_streamsSampled (R := fun x => x.consumed = (getAud s n).consumed + 1 ∧ x.underruns = (getAud s n).underruns) hn fun t ht => ?_
      have := streamSample_plays (s := t) (n := n) (b := b) (by rw [ht, hused]) (by rw [ht, hrun]) (by rw [ht, hspace]) (by rw [ht]; exact hready) (by rw [ht]; exact hhost)
      rwa [ht] at this
    · rw [haud]
      refine getAud_streamsSampled (R := fun x => x.underruns = (getAud s n).underruns + 1 ∧ x.consumed = (getAud s n).consumed) hn fun t ht => ?_
      have := streamSample_underrun (s := t) (n := n) (host := host) (by rw [ht, hused]) (by rw [ht, hrun]) (by rw [ht]; exact hlate)
      rwa [ht] at this
  · intro s host hrunning hdue
    exact congrArg Host.Outcome.next (if_pos (by simp [hdue]))
  · intro s host hpoll hbelow
    have hexec : exec (.audioProducedPoll host) s = .next (polled host (modAudio s fun a => { a with poll := 0 })) := by
      refine congrArg Host.Outcome.next ((if_neg (Nat.not_lt.2 hpoll)).trans ?_)
      rw [polled]
    have hview := pollView_polled host (s := modAudio s fun a => { a with poll := 0 }) hbelow
    have hstreams (n b) (hn : n < 24) := polled_host (n := n) (b := b) (host := host) hn (s := modAudio s fun a => { a with poll := 0 }) hbelow
    generalize polled host (modAudio s fun a => { a with poll := 0 }) = t at hexec hview hstreams
    refine ⟨t, hexec, congrArg Prod.fst hview, congrArg (fun v => v.2.1) hview, fun n b hn hused hspace hhost => ?_⟩
    obtain ⟨hstream, hsent⟩ := hstreams n b hn hused hspace hhost
    rw [hstream]
    exact ⟨rfl, rfl, rfl, hsent⟩

end Sys2Proof.Machine
end

section
/-! Weir rules, barriers and violations, and Gauge units (R376 to R386). -/
namespace Sys2Proof.Machine
open Sys2Proof

variable {s t : State} {c : Cmd} {op : Nat} {h : Held} {i : Instr} {form : Held → Bool} {check : State → Held → Cmd → Option Fail}
  {act : State → Held → Cmd → State} {st : Status} {f : List Field}

/-- A packet that acts and replies at once, in the state that its act leaves. -/
theorem ReadyNow.actsIn (hr : ReadyNow s c op h) (hexec : exec i s = .next (Machine.runPacket s c op form check act)) (hform : form h = true)
    (hc : check s h c = none) (hact : act s h c = finishNow t h st f) : Answers i s c h st (nowBits t) f t :=
  hr.1.answers (hexec.trans (congrArg _ ((hr.runPacket hform hc).trans hact)))

/-- A packet that fails a check is answered so, with no effect (R68). -/
theorem ReadyNow.fails (hr : ReadyNow s c op h) (hexec : exec i s = .next (Machine.runPacket s c op form check act)) (hform : form h = true)
    (hc : check s h c = some (st, f)) : Answers i s c h st (nowBits s) f s :=
  hr.1.answersNow (hexec.trans (congrArg _ (hr.1.runDirect_fail hform hc))) rfl

end Sys2Proof.Machine
end

section
/-! The commands of the Weir and the Gauge. -/
namespace Sys2Proof.Machine
open Sys2Proof

/-! WEIR_RULE_SET (R376). -/

theorem ruleImages_inline {s : State} {h : Held} (c : Cmd) (hn : pf h.pkt 18 0 13 = 0) : ruleImages s h c = (s, some [pf h.pkt 32 0 256]) := by
  unfold ruleImages; dsimp only
  rw [if_pos hn]

theorem actRuleWrite_good {s : State} {h : Held} (c : Cmd) (hn : pf h.pkt 18 0 13 = 0) (hgood : ruleImageBad (pf h.pkt 32 0 256) = false) :
    actRuleWrite s h c = finishNow (setRule s (pf h.pkt 16 0 12) (ruleOfBits (pf h.pkt 32 0 256))) h .ok [fAt 16 0 16 (pf h.pkt 16 0 12), fAt 18 0 16 1] := by
  simp [actRuleWrite, ruleImages_inline c hn, firstIdx, hgood]

theorem actRuleWrite_bad {s : State} {h : Held} (c : Cmd) (hn : pf h.pkt 18 0 13 = 0) (hbad : ruleImageBad (pf h.pkt 32 0 256) = true) :
    actRuleWrite s h c = finishNow s h .badParam [fAt 16 0 16 (pf h.pkt 16 0 12), fAt 20 0 16 (pf h.pkt 16 0 12)] := by
  simp [actRuleWrite, ruleImages_inline c hn, firstIdx, hbad]

theorem checkRuleSet_locked {s : State} {h : Held} (c : Cmd) (hwrite : pb h.pkt 20 0 = false) (hreserved : reservedZero h.pkt (ruleSetResv h.pkt) = true)
    (hfirst : pf h.pkt 16 0 12 < 3072) (hn : pf h.pkt 18 0 13 = 0) (haddr : pf h.pkt 24 0 64 = 0) (hlock : (tget {} s.weir.rules (pf h.pkt 16 0 12)).lock = true) :
    checkRuleSet s h c = some (.notPermitted, [fAt 16 0 16 (pf h.pkt 16 0 12), fAt 20 0 16 (pf h.pkt 16 0 12)]) := by
  have hfits : ¬ 3072 < pf h.pkt 16 0 12 + 1 := by omega
  simp [checkRuleSet, hwrite, hreserved, hn, haddr, hlock, hfits, firstIdx]

/-! WEIR_LOCK (R378). -/

/-- A range of rules locked. -/
def rulesLocked (s : State) (first n : Nat) : State :=
  (List.range n).foldl (fun s k => setRule s (first + k) { tget {} s.weir.rules (first + k) with lock := true }) s

theorem rulesLocked_succ (s : State) (first n : Nat) : rulesLocked s first (n + 1) =
    setRule (rulesLocked s first n) (first + n) { tget {} (rulesLocked s first n).weir.rules (first + n) with lock := true } := by
  unfold rulesLocked
  rw [List.range_succ, List.foldl_append]
  rfl

theorem rulesLocked_weir (s : State) (first n : Nat) : ∃ t, rulesLocked s first n = { s with weir := { s.weir with rules := t } } := by
  induction n with
  | zero => exact ⟨s.weir.rules, rfl⟩
  | succ n ih =>
    obtain ⟨t, ht⟩ := ih
    rw [rulesLocked_succ, ht]
    exact ⟨_, rfl⟩

theorem tget_rulesLocked (s : State) (first n r : Nat) : tget {} (rulesLocked s first n).weir.rules r =
    { tget {} s.weir.rules r with lock := (tget {} s.weir.rules r).lock || decide (first ≤ r ∧ r < first + n) } := by
  induction n with
  | zero =>
    rw [decide_eq_false (fun h => absurd h.2 (Nat.not_lt.2 h.1)), Bool.or_false]
    rfl
  | succ n ih =>
    rw [rulesLocked_succ]
    by_cases hr : r = first + n
    · subst hr
      have hin : first ≤ first + n ∧ first + n < first + (n + 1) := by omega
      refine (tget_tset_eq ..).trans ?_
      rw [ih, decide_eq_true hin, Bool.or_true]
    · have hin : (first ≤ r ∧ r < first + (n + 1)) ↔ (first ≤ r ∧ r < first + n) := by omega
      refine (tget_tset_ne _ _ _ hr).trans ?_
      rw [ih, decide_eq_decide.2 hin]

/-! Barriers (R377). -/

theorem endBarrier_eq {s : State} {c : Cmd} {b : Barrier} (hb : s.weir.barriers.find? (fun b => b.key == Cmd.key c) = some b) (st : Status) (aborted : Nat) :
    endBarrier s c st aborted = finishKey { s with weir := { s.weir with inFlight := 0, barriers := s.weir.barriers.filter fun b => b.key != Cmd.key c } } (Cmd.key c) st
      (nowBits s) [fAt 16 0 32 b.waited, fAt 20 0 32 aborted, fAt 24 0 32 ((upTime s - b.start) / (2 ^ 32 * 1000))] := by
  unfold Cmd.key at hb
  unfold endBarrier; dsimp only
  rw [hb]
  rfl

/-- Settles O49: each command of the Weir and the Gauge acts and replies at once, or waits as a barrier does; WEIR_LOCK locks its range rule by rule. -/
theorem weirAndGauge : Obligations.WeirAndGauge := by
  unfold Obligations.WeirAndGauge
  refine ⟨?_, ?_, ?_, ?_, ?_, ?_, ?_, ?_, ?_, ?_, ?_, ?_, ?_, ?_, ?_⟩
  · intro s c h hr hwrite hc hn
    refine ⟨fun hgood => ?_, fun hbad => ?_⟩
    · exact hr.acts (i := .weirRuleSetWrite c) rfl (by rw [hwrite]; rfl) hc (actRuleWrite_good c hn hgood) rfl rfl
    · exact hr.acts (i := .weirRuleSetWrite c) rfl (by rw [hwrite]; rfl) hc (actRuleWrite_bad c hn hbad) rfl rfl
  · intro s c h hr hwrite hreserved hfirst hn haddr hlock
    exact hr.fails (i := .weirRuleSetWrite c) rfl (by rw [hwrite]; rfl) (checkRuleSet_locked c hwrite hreserved hfirst hn haddr hlock)
  · intro s u c h first n hr hread hc hfirst hn hwritten
    subst hfirst hn
    refine hr.actsIn (i := .weirRuleSetRead c) rfl hread hc ?_
    unfold actRuleRead; dsimp only
    rw [hwritten]
  · intro s c h first n hr hc hfirst hn
    subst hfirst hn
    obtain ⟨t, ht⟩ := rulesLocked_weir s (pf h.pkt 16 0 12) (pf h.pkt 18 0 13)
    have hact : actWeirLock s h c = finishNow (rulesLocked s (pf h.pkt 16 0 12) (pf h.pkt 18 0 13)) h .ok
        [fAt 16 0 16 ((List.range (pf h.pkt 18 0 13)).filter fun k => !(tget {} s.weir.rules (pf h.pkt 16 0 12 + k)).lock).length] := rfl
    have hrules := tget_rulesLocked s (pf h.pkt 16 0 12) (pf h.pkt 18 0 13)
    rw [ht] at hact hrules
    obtain ⟨u, hexec, hfinished, hreplied, hquiet, -, hbytes⟩ := hr.acts (i := .weirLock c) rfl rfl hc hact rfl rfl
    refine ⟨u, hexec, hfinished, hreplied, ?_, hbytes, fun r => ?_⟩
    · exact congrArg (fun x => { x with weir := { s.weir with violation := none } }) hquiet
    · rw [← hrules]
      exact congrArg (fun x => tget {} x.weir.rules r) hquiet
  · intro s c h hr hreserved hnone
    refine hr.actsIn (i := .weirBarrier c) rfl rfl (if_pos hreserved) ?_
    unfold actWeirBarrier; dsimp only
    rw [if_pos hnone]
  · intro s c h n hr hreserved hn hsome
    subst hn
    refine hr.1.holds (i := .weirBarrier c) (congrArg Host.Outcome.next ((hr.runPacket rfl (if_pos hreserved)).trans ?_)) rfl
    unfold actWeirBarrier; dsimp only
    rw [if_neg hsome, hr.1.key]
  · intro s c h b hb hf hs
    refine ⟨answers_of_finishKey (i := .weirBarrierDrained c) (congrArg Host.Outcome.next (endBarrier_eq hb .ok 0)) rfl rfl hf hs, fun hpassed => ?_, fun hwaits => ?_⟩
    · have hexec : exec (.weirBarrierTimeout c) s = .next (endBarrier s c .timeout (c.obs.getD 1 0)) := by
        unfold Cmd.key at hb
        show execWeirBarrierTimeout c s = _
        unfold execWeirBarrierTimeout
        rw [hb]; dsimp only
        rw [if_pos hpassed]
      exact answers_of_finishKey (hexec.trans (congrArg _ (endBarrier_eq hb ..))) rfl rfl hf hs
    · unfold Cmd.key at hb
      show execWeirBarrierTimeout c s = _
      unfold execWeirBarrierTimeout
      rw [hb]; dsimp only
      rw [hwaits, if_neg Bool.false_ne_true]
  · intro s c h v hr hc hdest hv
    refine hr.actsIn (i := .weirViolationRead c) rfl rfl hc ?_
    unfold actViolationRead; dsimp only
    rw [if_pos hdest, hv]
  · intro s c h hr hc hdest hv
    refine hr.actsIn (i := .weirViolationRead c) rfl rfl hc ?_
    unfold actViolationRead; dsimp only
    rw [if_pos hdest, hv]
  · intro s c h v hr hreserved hline hv hexpect
    have hc : checkViolationClear s h c = none := by
      have hmatches : (pf h.pkt 24 0 64 != 0 && v.wp != pf h.pkt 24 0 64) = false := by
        rcases hexpect with h0 | hwp
        · simp [h0]
        · simp [hwp]
      simp only [checkViolationClear, hreserved, hline, hv, hmatches, Bool.not_true, Bool.or_false, Bool.false_eq_true, if_false]
    have hact : actViolationClear s h c =
        finishNow { s with weir := { s.weir with violation := none } } h .ok [fAt 16 0 16 v.count, fAt 24 0 64 v.wp] := by
      unfold actViolationClear; rw [hv]; rfl
    exact ⟨congrArg Host.Outcome.next ((hr.runPacket rfl hc).trans hact), hr.acts (i := .weirViolationClear c) rfl rfl hc hact rfl rfl⟩
  · intro s c h v hr hreserved hline hv hexpect hother
    refine hr.fails (i := .weirViolationClear c) rfl rfl ?_
    simp [checkViolationClear, hreserved, hline, hv, hexpect, Ne.symm hother, failWith]
  · intro s c h hr hline
    refine hr.fails (i := .weirViolationClear c) rfl rfl ?_
    unfold checkViolationClear; dsimp only
    rw [hline, Bool.or_true, if_pos rfl]
    rfl
  · intro s c h left n hr hc hleft hn
    subst hleft hn
    refine hr.acts (i := .gaugeSet c) rfl rfl hc ?_ rfl rfl
    unfold actGaugeSet; dsimp only
    simp only [Bool.not_eq_true']
  · intro s c h hr hreserved hgood henable hkind hstale
    refine hr.fails (i := .gaugeSet c) rfl rfl ?_
    simp [checkGaugeSet, hreserved, hgood, henable, hkind, hstale, failWith]
  · intro s u c h recs left hr hc hrecs hleft
    subst hrecs hleft
    refine ⟨fun hwritten hgauge => ?_, fun hwritten => ?_⟩
    · refine hr.1.answers (i := .gaugeRead c) (congrArg Host.Outcome.next ((hr.runPacket rfl hc).trans ?_))
      unfold actGaugeRead; dsimp only
      rw [hwritten]; dsimp only
      rw [hgauge]
      cases (s.gauge.fifo.take (pf h.pkt 16 0 11)).getLast? with
      | none => rfl
      | some r => rfl
    · refine hr.actsIn (i := .gaugeRead c) rfl rfl hc ?_
      unfold actGaugeRead; dsimp only
      rw [hwritten]

end Sys2Proof.Machine
end

section
/-! Commands on a slice's record (R85 to R93, R101, R102). -/
namespace Sys2Proof.Machine
open Sys2Proof

theorem modSlice_modSlice (s : State) (i : Nat) (f g : Slice → Slice) : modSlice (modSlice s i f) i g = modSlice s i (g ∘ f) := by
  unfold modSlice; dsimp only; rw [tmod_tmod]; rfl

theorem modSlice_congr {s : State} {i : Nat} {f g : Slice → Slice} (h : f (getSlice s i) = g (getSlice s i)) : modSlice s i f = modSlice s i g :=
  congrArg (fun t => { s with slices := t }) (tmod_congr ({} : Slice) _ _ f g h)

theorem kept_modSlice {s t : State} (i : Nat) (f : Slice → Slice) (h : kept t = kept s) : kept (modSlice t i f) = kept (modSlice s i f) :=
  kept_apply (fun s => modSlice s i f) (fun _ => rfl) (fun _ => rfl) (fun _ => rfl) h

/-- A slice comes to a state that is not FREE, with its event (R86). -/
theorem kept_setSliceState {s : State} {i : Nat} {st : SliceState} (hnew : (getSlice s i).state ≠ st) (hfree : st ≠ .free) (cause : Nat) :
    kept (setSliceState s i st cause) = kept (modSlice s i fun x => { x with state := st }) := by
  unfold setSliceState; dsimp only
  rw [if_neg hnew]
  simp only [hfree, if_false]
  refine iteInduction (motive := fun t : State => kept t = kept (modSlice s i fun x => { x with state := st })) (fun _ => ?_) fun _ => kept_post ..
  exact (kept_post ..).trans (kept_post ..)

theorem ctxsWhere_none {s : State} (h : s.media.ctxs = []) (f : DecCtx → Bool) : ctxsWhere s f = [] := by
  unfold ctxsWhere; rw [h]; rfl

theorem sessionsWhere_none {s : State} (h : s.media.sessions = []) {f : Session → Bool} (hf : f {} = false) : sessionsWhere s f = [] := by
  have hempty (n : Nat) : getSession s n = {} := by unfold getSession; rw [h]; rfl
  exact List.filter_eq_nil_iff.2 fun n _ => by rw [hempty n, hf]; exact Bool.false_ne_true

/-- The decode and encode intake of a thawed slice starts again (R101). -/
def intakeRestarted (s : State) (i : Nat) : State :=
  let s := forEach (ctxsWhere s fun x => x.used && !x.detached && x.slice == i) (fun k s => modCtx s k fun x => { x with wait := true, gdrTo := none }) s
  forEach (sessionsWhere s fun x => x.used && x.owner == i) (fun n s => modSession s n fun x => { x with stopped := false, keyNext := true }) s

theorem intakeRestarted_none {s : State} (hctxs : s.media.ctxs = []) (hsessions : s.media.sessions = []) (i : Nat) : intakeRestarted s i = s := by
  unfold intakeRestarted
  rw [ctxsWhere_none hctxs]
  show forEach (sessionsWhere s _) _ s = s
  rw [sessionsWhere_none hsessions rfl]
  rfl

/-- The restored layers of a slice enter at a boundary (R100, R101). -/
def layersEnter (s : State) (i f : Nat) : State :=
  { s with migr := { s.migr with held := s.migr.held.map fun l => if l.slice = i then { l with frame := some f } else l } }

theorem layersEnter_none {s : State} {i : Nat} (h : ∀ l ∈ s.migr.held, l.slice ≠ i) (f : Nat) : layersEnter s i f = s := by
  unfold layersEnter
  rw [(List.map_congr_left fun l hl => if_neg (h l hl)).trans (List.map_id' _)]

/-- A slice thawed (R101). -/
def thawed (s : State) (h : Held) : State :=
  finish (setSliceState (layersEnter s (pktSlice h.pkt) (boundaryAfter (now s))) (pktSlice h.pkt) .active 0) h .ok
    (if s.migr.held.any fun l => l.slice == pktSlice h.pkt then boundaryBits (boundaryAfter (now s)) else nowBits s) (packFields [])

theorem actThaw_eq (s : State) (h : Held) (c : Cmd) :
    actThaw s h c = thawed (if (getSlice s (pktSlice h.pkt)).state = .frozen then intakeRestarted s (pktSlice h.pkt) else s) h := rfl

theorem firstFail_cons_false {α : Type} {b : Bool} (hb : b = false) (a : α) (l : List (Bool × α)) : firstFail ((b, a) :: l) = firstFail l := by
  subst hb; rfl

theorem firstFail_cons_true {α : Type} {b : Bool} (hb : b = true) (a : α) (l : List (Bool × α)) : firstFail ((b, a) :: l) = some a := by
  subst hb; rfl

/-- Settles O50: a change of a slice's state posts its event and keeps the rest; the commands differ in what else they write. -/
theorem sliceRecords : Obligations.SliceRecords := by
  unfold Obligations.SliceRecords
  refine ⟨?_, ?_, ?_, ?_, ?_, ?_, ?_⟩
  · intro s c h i hr hc hi
    subst hi
    refine hr.acts (i := .sliceCreate c) rfl rfl hc rfl ((kept_setSliceState ?_ SliceState.noConfusion 0).trans ?_) rfl
    · rw [getSlice_modSlice, if_pos rfl]
      exact SliceState.noConfusion
    · rw [modSlice_modSlice]; rfl
  · intro s c h hr hreserved hcls hshare hslice
    have hgood : (!reservedZero h.pkt ((16, 0, 7) :: (17, 0, 2) :: shareResv) || decide (64 < pktSlice h.pkt) ||
        (pf h.pkt 17 0 2 == 3 || shareBad (shareOf (pf h.pkt 24 0 256)))) = false := by
      simp [hreserved, hcls, hshare, hslice]
    refine ⟨fun hzero => ?_, fun hzero hused => ?_, fun hzero hfree hfits => ?_⟩
    · refine hr.refused (i := .sliceCreate c) rfl rfl ?_
      exact (firstFail_cons_false hgood _ _).trans (firstFail_cons_true (by rw [hzero]; rfl) _ _)
    · refine hr.refused (i := .sliceCreate c) rfl rfl ?_
      refine (firstFail_cons_false hgood _ _).trans ((firstFail_cons_false (beq_eq_false_iff_ne.2 hzero) _ _).trans (firstFail_cons_true ?_ _ _))
      simpa [stateIn] using hused
    · refine hr.refused (i := .sliceCreate c) rfl rfl ?_
      refine (firstFail_cons_false hgood _ _).trans ((firstFail_cons_false (beq_eq_false_iff_ne.2 hzero) _ _).trans
        ((firstFail_cons_false ?_ _ _).trans (firstFail_cons_true (by rw [hfits]; rfl) _ _)))
      simp [stateIn, hfree]
  · intro s c h i hr hc hi
    subst hi
    refine hr.acts (i := .sliceBindPasid c) rfl rfl hc rfl ?_ rfl
    have hbound : (getSlice (modSlice s (pktSlice h.pkt) fun x => { x with pasid := some (pf h.pkt 20 0 20) }) (pktSlice h.pkt)).state =
        (getSlice s (pktSlice h.pkt)).state := by
      rw [getSlice_modSlice, if_pos rfl]
    by_cases hcreated : (getSlice s (pktSlice h.pkt)).state = .created
    · rw [if_pos (hbound.trans hcreated), kept_setSliceState (by rw [hbound, hcreated]; exact SliceState.noConfusion) SliceState.noConfusion, modSlice_modSlice]
      exact congrArg kept (modSlice_congr (by simp only [Function.comp, hcreated, if_true]))
    · rw [if_neg (hbound ▸ hcreated)]
      exact congrArg kept (modSlice_congr (by simp only [hcreated, if_false]))
  · intro s c h i hr hc hi
    subst hi
    refine hr.1.holds (i := .sliceSetShare c) (congrArg Host.Outcome.next ((hr.runPacket rfl hc).trans ?_)) rfl
    have hboundary : actBoundary s h = boundaryAfter (now s) := if_neg (by rw [hr.1.2.2.1]; exact Phase.noConfusion)
    unfold actSetShare
    rw [hc]; dsimp only
    rw [hboundary, hr.1.key]
  · intro s c h i hr hc hi hstate hnone
    subst hi
    have hany : (s.migr.held.any fun l => l.slice == pktSlice h.pkt) = false := List.any_eq_false.2 fun l hl => by simp [hnone l hl]
    have hact : actThaw s h c = finish (setSliceState s (pktSlice h.pkt) .active 0) h .ok (nowBits s) (packFields []) := by
      rw [actThaw_eq, hstate, if_neg SliceState.noConfusion, thawed, hany, layersEnter_none hnone, if_neg Bool.false_ne_true]
    exact (hr.1.answers (i := .sliceThaw c) (congrArg Host.Outcome.next ((hr.runPacket rfl hc).trans hact))).of_kept
      (kept_setSliceState (by rw [hstate]; exact SliceState.noConfusion) SliceState.noConfusion 0)
  · intro s c h i hr hc hi hstate hctxs hsessions hsome
    subst hi
    have hany : (s.migr.held.any fun l => l.slice == pktSlice h.pkt) = true := by
      obtain ⟨l, hl, hli⟩ := hsome
      exact List.any_eq_true.2 ⟨l, hl, by simp [hli]⟩
    have hact : actThaw s h c = finish (setSliceState (layersEnter s (pktSlice h.pkt) (boundaryAfter (now s))) (pktSlice h.pkt) .active 0) h .ok
        (boundaryBits (boundaryAfter (now s))) (packFields []) := by
      rw [actThaw_eq, if_pos hstate, intakeRestarted_none hctxs hsessions, thawed, hany, if_pos rfl]
    refine (hr.1.answers (i := .sliceThaw c) (congrArg Host.Outcome.next ((hr.runPacket rfl hc).trans hact))).of_kept
      (kept_setSliceState (s := layersEnter s (pktSlice h.pkt) (boundaryAfter (now s))) (fun hactive => ?_) SliceState.noConfusion 0)
    exact SliceState.noConfusion (hstate.symm.trans hactive)
  · intro s c h i hr hc hi hdest
    subst hi
    refine hr.actsIn (i := .sliceQuery c) rfl rfl hc ?_
    unfold actQuery; dsimp only
    rw [if_pos hdest]
    rfl

end Sys2Proof.Machine
end

section
/-! What the end of a slice takes away, and what no step of it brings back (R95, R96). -/
namespace Sys2Proof.Machine
open Sys2Proof

/-- A ledger entry of a slice that is not withdrawn. -/
def LiveEntry (i k : Nat) (s : State) : Prop := (getEntry s k).valid = true ∧ (getEntry s k).owner = i ∧ (getEntry s k).inp.withdrawn = false

/-- A surface of a slice that is not released. -/
def LiveSurf (i k : Nat) (s : State) : Prop := (getSurf s k).used = true ∧ (getSurf s k).owner = i ∧ (getSurf s k).releasePending = false

/-- An encode session of a slice. -/
def LiveSession (i n : Nat) (s : State) : Prop := (getSession s n).used = true ∧ (getSession s n).owner = i

/-- An audio stream of a slice. -/
def LiveStream (i n : Nat) (s : State) : Prop := (getAud s n).used = true ∧ (getAud s n).owner = i

/-- A slice's rings as its end leaves them: nothing held, submission rings with their counts alone, reply and event rings stopped. -/
def Emptied (i : Nat) (s : State) : Prop :=
  (getRings s i).held = [] ∧ (∀ k, tget {} (getRings s i).sq k = { count := (tget {} (getRings s i).sq k).count }) ∧ RingsOff i s

/-- A slice's record but for its counts of orphans. -/
def sliceOf (i : Nat) (s : State) : SliceState × List SliceWait × Share × List (Share × CmdKey × Nat) :=
  ((getSlice s i).state, (getSlice s i).waits, (getSlice s i).share, (getSlice s i).pendShares)

/-- From one state to another, no entry, session, stream or key of a slice comes to life, and its record and its emptied rings stay. -/
structure Withdraws (i : Nat) (s t : State) : Prop where
  slice : sliceOf i t = sliceOf i s
  rings : Emptied i s → Emptied i t
  entry : ∀ k, LiveEntry i k t → LiveEntry i k s
  session : ∀ n, LiveSession i n t → LiveSession i n s
  stream : ∀ n, LiveStream i n t → LiveStream i n s
  key : ∀ n, (getKey t n).owner = i → (getKey s n).owner = i

/-- As `Withdraws`, and no surface either. -/
structure Ends (i : Nat) (s t : State) : Prop extends Withdraws i s t where
  surf : ∀ k, LiveSurf i k t → LiveSurf i k s

theorem Withdraws.trans {i : Nat} {s t u : State} (hst : Withdraws i s t) (htu : Withdraws i t u) : Withdraws i s u where
  slice := htu.slice.trans hst.slice
  rings h := htu.rings (hst.rings h)
  entry k h := hst.entry k (htu.entry k h)
  session n h := hst.session n (htu.session n h)
  stream n h := hst.stream n (htu.stream n h)
  key n h := hst.key n (htu.key n h)

namespace Ends

variable {i : Nat} {s t u : State}

theorem refl (s : State) : Ends i s s := ⟨⟨rfl, id, fun _ h => h, fun _ h => h, fun _ h => h, fun _ h => h⟩, fun _ h => h⟩

theorem trans (hst : Ends i s t) (htu : Ends i t u) : Ends i s u :=
  ⟨hst.toWithdraws.trans htu.toWithdraws, fun k h => hst.surf k (htu.surf k h)⟩

theorem forEach {α : Type} {f : α → State → State} (l : List α) (h : ∀ a t, Ends i t (f a t)) (s : State) : Ends i s (Machine.forEach l f s) :=
  forEach_keeps (Ends i s) l f s (fun a t ht => ht.trans (h a t)) (refl s)

/-- A state that agrees in what quiet keeps and in which the slice's emptied rings stay so. -/
theorem of_quiet (hquiet : quiet t = quiet s) (hrings : Emptied i s → Emptied i t) : Ends i s t where
  slice := quiet_eq (sliceOf i) (fun _ => rfl) hquiet
  rings := hrings
  entry k h := by rwa [LiveEntry, quiet_eq (getEntry · k) (fun _ => rfl) hquiet] at h
  surf k h := by rwa [LiveSurf, quiet_eq (getSurf · k) (fun _ => rfl) hquiet] at h
  session n h := by rwa [LiveSession, quiet_eq (getSession · n) (fun _ => rfl) hquiet] at h
  stream n h := by rwa [LiveStream, quiet_eq (getAud · n) (fun _ => rfl) hquiet] at h
  key n h := by rwa [quiet_eq (getKey · n) (fun _ => rfl) hquiet] at h

/-- A state that agrees in all the tables that the end of a slice reads. -/
theorem of_same (hslices : t.slices = s.slices) (hrings : t.rings = s.rings) (hentries : t.ledger.entries = s.ledger.entries)
    (hsurfs : t.store.surfs = s.store.surfs) (hsessions : t.media.sessions = s.media.sessions) (hstreams : t.io.audio.streams = s.io.audio.streams)
    (hkeys : t.io.keys.objects = s.io.keys.objects) : Ends i s t where
  slice := by unfold sliceOf getSlice; rw [hslices]
  rings h := by unfold Emptied RingsOff getRings at *; rwa [hrings]
  entry k h := by unfold LiveEntry getEntry at *; rwa [hentries] at h
  surf k h := by unfold LiveSurf getSurf at *; rwa [hsurfs] at h
  session n h := by unfold LiveSession getSession at *; rwa [hsessions] at h
  stream n h := by unfold LiveStream getAud at *; rwa [hstreams] at h
  key n h := by unfold getKey at *; rwa [hkeys] at h

/-- A change of one entry that does not bring it to life. -/
theorem modEntry (s : State) (k : Nat) {f : LedgerEntry → LedgerEntry}
    (hf : ∀ e, (f e).valid = true → (f e).owner = i → (f e).inp.withdrawn = false → e.valid = true ∧ e.owner = i ∧ e.inp.withdrawn = false) :
    Ends i s (modEntry s k f) where
  slice := rfl
  rings h := h
  entry j h := by
    unfold LiveEntry at *
    rw [getEntry_modEntry] at h
    split at h
    · next hj => subst hj; exact hf _ h.1 h.2.1 h.2.2
    · exact h
  surf _ h := h
  session _ h := h
  stream _ h := h
  key _ h := h

/-- A change of one surface that does not bring it to life. -/
theorem modSurf (s : State) (k : Nat) {f : Surface → Surface}
    (hf : ∀ x, (f x).used = true → (f x).owner = i → (f x).releasePending = false → x.used = true ∧ x.owner = i ∧ x.releasePending = false) :
    Ends i s (modSurf s k f) where
  slice := rfl
  rings h := h
  entry _ h := h
  surf j h := by
    unfold LiveSurf at *
    rw [getSurf_modSurf] at h
    split at h
    · next hj => subst hj; exact hf _ h.1 h.2.1 h.2.2
    · exact h
  session _ h := h
  stream _ h := h
  key _ h := h

/-- A change of one session that does not bring it to life. -/
theorem modSession (s : State) (n : Nat) {f : Session → Session} (hf : ∀ x, (f x).used = true → (f x).owner = i → x.used = true ∧ x.owner = i) :
    Ends i s (modSession s n f) where
  slice := rfl
  rings h := h
  entry _ h := h
  surf _ h := h
  session j h := by
    unfold LiveSession at *
    rw [getSession_modSession] at h
    split at h
    · next hj => subst hj; exact hf _ h.1 h.2
    · exact h
  stream _ h := h
  key _ h := h

/-- A change of a slice's counts of orphans. -/
theorem modSlice (s : State) (k : Nat) {f : Slice → Slice}
    (hf : ∀ x, ((f x).state, (f x).waits, (f x).share, (f x).pendShares) = (x.state, x.waits, x.share, x.pendShares)) : Ends i s (modSlice s k f) where
  slice := by
    unfold sliceOf
    rw [getSlice_modSlice]
    split
    · next hk => subst hk; exact hf _
    · rfl
  rings h := h
  entry _ h := h
  surf _ h := h
  session _ h := h
  stream _ h := h
  key _ h := h

end Ends

/-! Replies and events to a slice whose rings are stopped. -/

section
variable {i : Nat} {s t : State}

theorem emptied_of_fixedOf (hfixed : fixedOf t = fixedOf s) (hoff : RingsOff i s → RingsOff i t) (h : Emptied i s) : Emptied i t := by
  obtain ⟨hheld, hsq, hrings⟩ := h
  have hring : ringFixed (getRings t i) = ringFixed (getRings s i) := congrFun hfixed i
  have hheld' : (getRings t i).held = (getRings s i).held := (congrArg SliceRings.held hring :)
  have hsq' : (getRings t i).sq = (getRings s i).sq := (congrArg SliceRings.sq hring :)
  exact ⟨hheld'.trans hheld, by rwa [hsq'], hoff hrings⟩

theorem emptied_postEvent (k bits : Nat) (h : Emptied i s) : Emptied i (postEvent s k bits) :=
  emptied_of_fixedOf ((steady_fixedOf s).postEvent _ _ rfl) (fun hoff => (calm_ringsOff i).rawPost _ _ ((calm_ringsOff i).guardEvent _ hoff)) h

theorem emptied_post (k code : Nat) (f : List Field) (h : Emptied i s) : Emptied i (post s k code f) :=
  emptied_of_fixedOf ((steady_fixedOf s).post _ _ _ rfl) ((calm_ringsOff i).post _ _ _) h

theorem emptied_modRings (k : Nat) {f : SliceRings → SliceRings} (hcalm : RingsCalm f) (hheld : ∀ r, r.held = [] → (f r).held = [])
    (hsq : ∀ r : SliceRings, (∀ j, tget {} r.sq j = { count := (tget {} r.sq j).count }) → ∀ j, tget {} (f r).sq j = { count := (tget {} (f r).sq j).count })
    (h : Emptied i s) : Emptied i (modRings s k f) := by
  obtain ⟨hnone, hcount, hoff⟩ := h
  refine ⟨?_, ?_, (calm_ringsOff i).rings s k f hcalm hoff⟩
  · rw [getRings_modRings]
    split
    · next hk => subst hk; exact hheld _ hnone
    · exact hnone
  · rw [getRings_modRings]
    split
    · next hk => subst hk; exact hsq _ hcount
    · exact hcount

theorem emptied_dropHeld (k : CmdKey) (h : Emptied i s) : Emptied i (dropHeld s k) :=
  emptied_modRings _ (fun _ => ⟨rfl, id, id⟩) (fun r hr => by rw [hr]; rfl) (fun _ hr => hr) h

theorem emptied_modTag (slice ring tag : Nat) (f : TagRec → Option TagRec) (h : Emptied i s) : Emptied i (modTag s slice ring tag f) := by
  refine emptied_modRings _ (fun _ => ⟨rfl, id, id⟩) (fun r hr => hr) (fun r hr j => ?_) h
  dsimp only
  rw [tget_tmod]
  split
  · rw [hr ring]; rfl
  · exact hr j

theorem ringsOff_sendReply (k : Nat) (r : Reply) (h : RingsOff i s) : RingsOff i (sendReply s k r) := by
  have hguard := (calm_ringsOff i).guardReply k h
  unfold sendReply; dsimp only
  refine iteInduction (motive := RingsOff i) (fun _ => (calm_ringsOff i).pushEntry k false _ hguard) fun _ => ?_
  unfold RingsOff at *
  rw [getRings_modRings]
  split
  · next hj => subst hj; exact hguard
  · exact hguard

theorem emptied_sendReply (k : Nat) (r : Reply) (h : Emptied i s) : Emptied i (sendReply s k r) :=
  emptied_of_fixedOf (fixedOf_sendReply ..) (ringsOff_sendReply k r) h

theorem emptied_finish (x : Held) (st : Status) (w d : Nat) (h : Emptied i s) : Emptied i (finish s x st w d) := by
  unfold finish; dsimp only
  have htag : ∀ f, Emptied i (modTag (dropHeld s (heldKey x)) x.slice x.ring (pktTag x.pkt) f) := fun f => emptied_modTag _ _ _ f (emptied_dropHeld _ h)
  exact iteInduction (motive := Emptied i) (fun _ => htag _) fun _ => emptied_sendReply _ _ (htag _)

end

namespace Ends

variable {i : Nat}

theorem finish (s : State) (x : Held) (st : Status) (w d : Nat) : Ends i s (finish s x st w d) := of_quiet (quiet_finish ..) fun h => emptied_finish _ _ _ _ h

theorem finishKey (s : State) (k : CmdKey) (st : Status) (w : Nat) (f : List Field) : Ends i s (finishKey s k st w f) := by
  unfold Machine.finishKey
  split
  · exact finish ..
  · exact refl s

theorem post (s : State) (k code : Nat) (f : List Field) : Ends i s (post s k code f) := of_quiet (quiet_of_kept (kept_post ..)) fun h => emptied_post _ _ _ h

theorem postEvent (s : State) (k bits : Nat) : Ends i s (postEvent s k bits) := of_quiet (quiet_of_kept (kept_postEvent ..)) fun h => emptied_postEvent _ _ h

/-! Tables that the end of a slice does not read. -/

theorem modCtx (s : State) (k : Nat) (f : DecCtx → DecCtx) : Ends i s (modCtx s k f) := of_same rfl rfl rfl rfl rfl rfl rfl

theorem modRule (s : State) (k : Nat) (f : FlowRule → FlowRule) : Ends i s (modRule s k f) := of_same rfl rfl rfl rfl rfl rfl rfl

theorem modStream (s : State) (k : Nat) (f : RtpStream → RtpStream) : Ends i s (modStream s k f) := of_same rfl rfl rfl rfl rfl rfl rfl

theorem modDp (s : State) (k : Nat) (f : DpIn → DpIn) : Ends i s (modDp s k f) := of_same rfl rfl rfl rfl rfl rfl rfl

theorem modHap (s : State) (k : Nat) (f : HapChan → HapChan) : Ends i s (modHap s k f) := of_same rfl rfl rfl rfl rfl rfl rfl

theorem modRect (s : State) (k : Nat) (f : Rect → Rect) : Ends i s (modRect s k f) := of_same rfl rfl rfl rfl rfl rfl rfl

theorem modSlot (s : State) (k : Nat) (f : Slot → Slot) : Ends i s (modSlot s k f) := of_same rfl rfl rfl rfl rfl rfl rfl

theorem endLatch (s : State) (r : Reader) : Ends i s (endLatch s r) := of_same rfl rfl rfl rfl rfl rfl rfl

theorem endImport (s : State) (k : Nat) : Ends i s (endImport s k) := of_same rfl rfl rfl rfl rfl rfl rfl

theorem endExport (s : State) (k : Nat) : Ends i s (endExport s k) := of_same rfl rfl rfl rfl rfl rfl rfl

theorem orphanRows (s : State) (k : Nat) : Ends i s (orphanRows s k) := of_same rfl rfl rfl rfl rfl rfl rfl

/-! Surfaces. -/

theorem dropUser (s : State) (h : Nat) : Ends i s (dropUser s h) := modSurf s _ fun _ hused howner hpending => ⟨hused, howner, hpending⟩

theorem orphanSurf (s : State) (k : Nat) : Ends i s (Machine.modSurf s k fun y => { y with orphans := y.orphans + 1 }) :=
  modSurf s _ fun _ hused howner hpending => ⟨hused, howner, hpending⟩

theorem freeStorage (s : State) (k : Nat) : Ends i s (freeStorage s k) :=
  (modSurf s k (f := fun x => { gen := x.gen }) fun _ hused => absurd hused Bool.false_ne_true).trans (of_same rfl rfl rfl rfl rfl rfl rfl)

theorem fences (s : State) (l : List Fence) : Ends i s { s with store := { s.store with fences := l } } := of_same rfl rfl rfl rfl rfl rfl rfl

theorem gauge (s : State) (u : Tab GaugeUnit) : Ends i s { s with gauge := { s.gauge with units := u } } := of_same rfl rfl rfl rfl rfl rfl rfl

theorem endWatchers (s : State) (k h : Nat) : Ends i s (endWatchers s k h) :=
  ((fences ..).trans (forEach _ (fun _ _ => finishKey ..) _)).trans (gauge ..)

theorem cancelLatches (s : State) (k : Nat) : Ends i s (cancelLatches s k) := of_same rfl rfl rfl rfl rfl rfl rfl

/-- A surface being released is no longer alive (R110). -/
theorem beginRelease (s : State) (k : Nat) (key : Option CmdKey) : Ends i s (beginRelease s k key) ∧ ¬ LiveSurf i k (Machine.beginRelease s k key) := by
  unfold Machine.beginRelease; dsimp only
  have hwatchers : Ends i s (Machine.endWatchers (Machine.cancelLatches s k) k (handleOf k (getSurf s k))) := (cancelLatches s k).trans (endWatchers ..)
  refine ⟨hwatchers.trans (modSurf _ _ ?_), fun h => ?_⟩
  · exact fun _ _ _ hpending => Bool.noConfusion (show true = false from hpending)
  have hpending := h.2.2
  rw [getSurf_modSurf, if_pos rfl] at hpending
  exact Bool.noConfusion (show true = false from hpending)

theorem freeWhenReady (s : State) (k : Nat) : Ends i s (if releaseReady s k then Machine.freeStorage s k else s) :=
  iteInduction (motive := Ends i s) (fun _ => freeStorage ..) fun _ => refl s

theorem releaseAll (s : State) (l : List Nat) : Ends i s (releaseAll s l) := by
  refine forEach l (fun h t => ?_) s
  dsimp only
  refine Ends.trans ?_ (freeWhenReady _ _)
  refine Ends.trans (modSurf t (handleIndex h) ?_) (beginRelease _ _ _).1
  exact fun _ hused howner hpending => ⟨hused, howner, hpending⟩

/-! Sources. -/

theorem endContext (s : State) (k : Nat) (counted : Bool) : Ends i s (endContext s k counted) := by
  unfold Machine.endContext; dsimp only
  refine iteInduction (motive := Ends i s) (fun _ => refl s) fun _ => ?_
  have hdetached : Ends i s (Machine.modCtx s k fun x => { x with detached := true, gdrTo := none, refs := [] }) := modCtx ..
  generalize (Machine.modCtx s k fun x => { x with detached := true, gdrTo := none, refs := [] }) = t at hdetached
  split
  · exact hdetached.trans (modCtx ..)
  · next p hp =>
    refine hdetached.trans (iteInduction (motive := Ends i t) (fun _ => modCtx ..) fun _ => ?_)
    have horphan : Ends i t (if p.orphan then t else Machine.modSurf t p.surf fun y => { y with orphans := y.orphans + 1 }) :=
      iteInduction (motive := Ends i t) (fun _ => refl t) fun _ => orphanSurf ..
    refine horphan.trans ?_
    generalize (if p.orphan then t else Machine.modSurf t p.surf fun y => { y with orphans := y.orphans + 1 }) = u
    refine iteInduction (motive := Ends i u) (fun _ => Ends.trans (modCtx u k _) (modSlice _ _ ?_)) fun _ => modCtx ..
    exact fun _ => rfl

theorem clearStill (s : State) (k : Nat) : Ends i s (clearStill s k) := by
  unfold Machine.clearStill; dsimp only
  refine Ends.trans ?_ (modEntry _ _ ?_)
  · exact of_same rfl rfl rfl rfl rfl rfl rfl
  · exact fun _ hvalid howner hwithdrawn => ⟨hvalid, howner, hwithdrawn⟩

/-- A withdrawn entry is no longer alive (R37). -/
theorem withdraw (s : State) (k : Nat) : Ends i s (withdraw s k) ∧ ¬ LiveEntry i k (Machine.withdraw s k) := by
  refine ⟨modEntry s k fun _ _ _ h => Bool.noConfusion (show true = false from h), fun h => ?_⟩
  have hwithdrawn := h.2.2
  unfold Machine.withdraw at hwithdrawn
  rw [getEntry_modEntry, if_pos rfl] at hwithdrawn
  exact Bool.noConfusion (show true = false from hwithdrawn)

theorem endBinding (s : State) (r : Nat) : Ends i s (endBinding s r) := by
  have hflow : Ends i s (postFlow r s) := (modRule s r _).trans (forEach _ (fun _ _ => postEvent ..) _)
  unfold Machine.endBinding; dsimp only
  exact iteInduction (motive := Ends i s) (fun _ => refl s) fun _ => ((hflow.trans (releaseAll ..)).trans (modCtx ..)).trans (modRule ..)

/-- An input that is held from now on keeps its reference (R288). -/
theorem dpEnter_held (s : State) (d r : Nat) : Ends i s (dpEnter s d .held r) := by
  unfold dpEnter
  refine iteInduction (motive := Ends i s) (fun _ => refl s) fun _ => ?_
  have htrained : (dpTrained (getDp s d).state && !dpTrained .held) = false := Bool.and_false _
  rw [htrained]
  have hpost : kept (postDp (Machine.modDp s d fun d => { d with state := .held }) d r) = kept (Machine.modDp s d fun d => { d with state := .held }) := kept_post ..
  have hheld : (getDp (postDp (Machine.modDp s d fun d => { d with state := .held }) d r) d).state = .held := by
    rw [read_kept (getDp · d) (fun _ => rfl) hpost, getDp_modDp, if_pos rfl]
  have hsettled : dpRefLoss (postDp (Machine.modDp s d fun d => { d with state := .held }) d r) d =
      postDp (Machine.modDp s d fun d => { d with state := .held }) d r := by
    unfold dpRefLoss
    rw [hheld]; rfl
  refine (congrArg (Ends i s) hsettled).mpr ?_
  exact (modDp s d _).trans (post ..)

theorem dpSettle (s : State) (d : Nat) : Ends i s (dpSettle s d) := by
  unfold Machine.dpSettle; dsimp only
  refine iteInduction (motive := Ends i s) (fun _ => refl s) fun _ => iteInduction (motive := Ends i s) (fun hheld => ?_) fun _ => refl s
  exact (modDp s d _).trans (dpEnter_held ..)

theorem unbindChange (s : State) (src : Nat) : Ends i s (unbindChange s src) := by
  unfold Machine.unbindChange; dsimp only
  refine iteInduction (motive := Ends i s) (fun _ => Ends.trans ?_ (modEntry _ _ ?_)) fun _ => refl s
  · exact of_same rfl rfl rfl rfl rfl rfl rfl
  · exact fun _ hvalid howner hwithdrawn => ⟨hvalid, howner, hwithdrawn⟩

theorem removeRect (s : State) (r : Nat) : Ends i s (removeRect s r) := by
  unfold Machine.removeRect; dsimp only
  exact iteInduction (motive := Ends i s) (fun _ => (modRect ..).trans (unbindChange ..)) fun _ => modRect ..

theorem inputsEnded (s : State) (k : Nat) : Ends i s (inputsEnded s k) :=
  forEach _ (fun _ t => iteInduction (motive := Ends i t) (fun _ => (modDp ..).trans (dpSettle ..)) fun _ => refl t) s

theorem exportsEnded (s : State) (k : Nat) : Ends i s (exportsEnded s k) := forEach _ (fun _ _ => endExport ..) s

theorem sourceForgotten (s : State) (k : Nat) : Ends i s (sourceForgotten s k) := of_same rfl rfl rfl rfl rfl rfl rfl

theorem buffersEnded (s : State) (bufs : List Nat) : Ends i s (buffersEnded s bufs) := (forEach bufs (fun b t => orphanRows t b) s).trans (releaseAll ..)

theorem sourceFreed (s : State) (k : Nat) (bufs : List Nat) : Ends i s (sourceFreed s k bufs) :=
  ((((inputsEnded s k).trans (endImport ..)).trans (exportsEnded ..)).trans (sourceForgotten ..)).trans (buffersEnded ..)

/-- A source that ends is no longer alive (R249). -/
theorem endSource (s : State) (k : Nat) (counted : Bool) : Ends i s (endSource s k counted) ∧ ¬ LiveEntry i k (Machine.endSource s k counted) := by
  obtain ⟨hends, hdead⟩ := withdraw (i := i) s k
  have hwithdrawn : Ends i (Machine.withdraw s k) (sourceWithdrawn s k counted) := (clearStill ..).trans (endContext ..)
  have hleft : Ends i (Machine.withdraw s k) (Machine.endSource s k counted) := by
    rw [endSource_eq]
    exact (hwithdrawn.trans (forEach _ (fun r t => endBinding t r) _)).trans (sourceFreed ..)
  exact ⟨hends.trans hleft, fun h => hdead (hleft.entry k h)⟩

/-! Sessions. -/

theorem endStream (s : State) (n : Nat) : Ends i s (endStream s n) := by
  unfold Machine.endStream; dsimp only
  refine iteInduction (motive := Ends i s) (fun _ => refl s) fun _ => Ends.trans ?_ (modStream ..)
  exact iteInduction (motive := Ends i s) (fun _ => (dropUser ..).trans (modSession _ _ fun _ hused howner => ⟨hused, howner⟩)) fun _ => refl s

theorem failRequests (s : State) (n : Nat) : Ends i s (failRequests s n) :=
  (forEach _ (fun _ _ => finishKey ..) s).trans (modSession _ _ fun _ hused howner => ⟨hused, howner⟩)

theorem encodePower (s : State) : Ends i s (encodePower s) :=
  iteInduction (motive := Ends i s) (fun _ => of_same rfl rfl rfl rfl rfl rfl rfl) fun _ => refl s

theorem noSession (s : State) (n : Nat) : Ends i s { s with media := { s.media with sessions := tset {} s.media.sessions n {} } } :=
  modSession s n (f := fun _ => {}) fun _ hused => absurd hused Bool.false_ne_true

/-- A session that is dropped is no longer alive (R268). -/
theorem dropSession (s : State) (n : Nat) : Ends i s (dropSession s n) ∧ ¬ LiveSession i n (Machine.dropSession s n) := by
  unfold Machine.dropSession; dsimp only
  generalize getSession s n = x
  have hstart : Ends i s (Machine.dropUser (Machine.releaseAll (Machine.endLatch (Machine.failRequests s n) (.session n)) (x.captures ++ x.recon)) x.ring) :=
    (((failRequests ..).trans (endLatch ..)).trans (releaseAll ..)).trans (dropUser ..)
  generalize Machine.dropUser (Machine.releaseAll (Machine.endLatch (Machine.failRequests s n) (.session n)) (x.captures ++ x.recon)) x.ring = t at hstart ⊢
  have huse : Ends i t (if x.input = 2 then Machine.dropUser t x.handle else t) :=
    iteInduction (motive := Ends i t) (fun _ => dropUser ..) fun _ => refl t
  generalize (if x.input = 2 then Machine.dropUser t x.handle else t) = u at huse ⊢
  refine ⟨((hstart.trans huse).trans (noSession u n)).trans (encodePower _), fun h => ?_⟩
  have hused : (getSession (Machine.modSession u n fun _ => {}) n).used = true := ((encodePower _).session n h).1
  rw [getSession_modSession, if_pos rfl] at hused
  exact Bool.false_ne_true hused

end Ends

/-! A session that closes as its slice ends, in four steps (R96, R268). -/

/-- A picture in a core becomes an orphan. -/
def pictureOrphaned (i : Nat) (x : Session) (s : State) : State :=
  match x.coding with
  | some p =>
    match p.core with
    | some core =>
      let l := (x.ring :: (x.captures ++ x.recon)).map handleIndex
      let s := forEach l (fun k s => modSurf s k fun y => { y with orphans := y.orphans + 1 }) s
      let s := { s with media := { s.media with encOrphans := s.media.encOrphans ++ [{ slice := i, core, surfs := l, at_ := uptimeMs s }] } }
      modSlice s i fun y => { y with orphans := y.orphans + 1 }
    | none => s
  | none => s

/-- The stream that a session fed ends. -/
def consumerEnded (x : Session) (s : State) : State :=
  match x.consumer with
  | some k => endStream s k
  | none => s

/-- The ENCODE_CLOSE that was waiting for the session gets its reply. -/
def closeAnswered (x : Session) (s : State) : State :=
  match x.closing with
  | some k => finishKey s k .ok (nowBits s) (closeDetail x)
  | none => s

theorem closeSession_eq (i n : Nat) (s : State) : closeSession i n s =
    closeAnswered (getSession s n) (dropSession (consumerEnded (getSession s n) (pictureOrphaned i (getSession s n) s)) n) := rfl

/-! The steps of a reset that take a slice's streams, keys and haptics. -/

/-- A slice's haptic channel is taken from it. -/
def hapTaken (c : Nat) (s : State) : State :=
  let x := getHap s c
  let s := if x.lib = 0 then s else dropUser s x.lib
  let s := if x.play.isSome || x.brake != 0 then emit s (.haptic c 0) else s
  modHap s c fun x => { x with owner := 0, play := none, next := [], brake := 0, lib := 0, trigEnable := false }

namespace Ends

variable {i : Nat}

theorem pictureOrphaned (x : Session) (s : State) : Ends i s (pictureOrphaned i x s) := by
  unfold Machine.pictureOrphaned
  split
  · split
    · dsimp only
      have hsurfs := forEach (i := i) ((x.ring :: (x.captures ++ x.recon)).map handleIndex) (fun k t => orphanSurf t k) s
      generalize Machine.forEach ((x.ring :: (x.captures ++ x.recon)).map handleIndex)
        (fun k s => Machine.modSurf s k fun y => { y with orphans := y.orphans + 1 }) s = t at hsurfs ⊢
      refine hsurfs.trans (Ends.trans ?_ (modSlice _ _ ?_))
      · exact of_same rfl rfl rfl rfl rfl rfl rfl
      · exact fun _ => rfl
    · exact refl s
  · exact refl s

theorem consumerEnded (x : Session) (s : State) : Ends i s (consumerEnded x s) := by
  unfold Machine.consumerEnded
  split
  · exact endStream ..
  · exact refl s

theorem closeAnswered (x : Session) (s : State) : Ends i s (closeAnswered x s) := by
  unfold Machine.closeAnswered
  split
  · exact finishKey ..
  · exact refl s

/-- A session that closes is no longer alive (R96, R268). -/
theorem closeSession (s : State) (n : Nat) : Ends i s (closeSession i n s) ∧ ¬ LiveSession i n (Machine.closeSession i n s) := by
  rw [closeSession_eq]
  generalize getSession s n = x
  have hleft : Ends i s (Machine.consumerEnded x (Machine.pictureOrphaned i x s)) := (pictureOrphaned x s).trans (consumerEnded ..)
  obtain ⟨hdrop, hdead⟩ := dropSession (i := i) (Machine.consumerEnded x (Machine.pictureOrphaned i x s)) n
  have hanswered := closeAnswered (i := i) x (Machine.dropSession (Machine.consumerEnded x (Machine.pictureOrphaned i x s)) n)
  exact ⟨(hleft.trans hdrop).trans hanswered, fun h => hdead (hanswered.session n h)⟩

theorem hapTaken (c : Nat) (s : State) : Ends i s (hapTaken c s) := by
  unfold Machine.hapTaken; dsimp only
  refine Ends.trans ?_ (modHap ..)
  have huse : Ends i s (if (getHap s c).lib = 0 then s else Machine.dropUser s (getHap s c).lib) :=
    iteInduction (motive := Ends i s) (fun _ => refl s) fun _ => dropUser ..
  refine huse.trans (iteInduction (motive := Ends i _) (fun _ => ?_) fun _ => refl _)
  exact of_same rfl rfl rfl rfl rfl rfl rfl

end Ends

/-! A reset's steps in order (R95). -/

/-- The streams and tones of a slice close. -/
def soundEnded (i : Nat) (s : State) : State :=
  modAudio s fun a => { a with
    streams := tmap {} (fun _ x => if x.used && x.owner == i then closeStream x else x) a.streams
    tones := tmap {} (fun _ t => if t.on && t.owner == i then { owner := t.owner, quiet := t.quiet } else t) a.tones }

/-- Contacts die, key objects fall to the manager, and host queues stop. -/
def operatorEnded (i : Nat) (s : State) : State :=
  { s with
    io := { s.io with
      touch := tmap {} (fun _ p => { p with contacts := p.contacts.map fun c => if c.owner = i then { c with dead := true } else c }) s.io.touch
      keys := { s.io.keys with objects := tmap {} (fun _ o => if o.owner = i then { o with owner := 0, pressed := false, run := 0, negRun := 0 } else o) s.io.keys.objects } }
    media := { s.media with queues := tmap {} (fun _ q => if q.owner = i then { q with enable := false } else q) s.media.queues } }

/-- The entries of a slice that are not withdrawn. -/
def entriesOf (i : Nat) (s : State) : List Nat :=
  s.ledger.entries.filterMap fun e => if e.2.valid ∧ e.2.owner = i ∧ !e.2.inp.withdrawn then some e.1 else none

/-- The sessions of a slice. -/
def sessionsOf (i : Nat) (s : State) : List Nat := sessionsWhere s fun x => x.used && x.owner == i

/-- The sources and contexts of a slice end. -/
def sourcesEnded (i : Nat) (s : State) : State :=
  let s := forEach (ctxsWhere s fun x => x.used && x.slice == i) (fun k s => endContext s k true) s
  forEach (entriesOf i s) (fun k s => endSource s k true) s

/-- The sessions of a slice close. -/
def sessionsEnded (i : Nat) (s : State) : State := forEach (sessionsOf i s) (closeSession i) s

/-- The haptic channels and rectangles of a slice end. -/
def outputsEnded (i : Nat) (s : State) : State :=
  let s := forEach ((List.range 8).filter fun c => (getHap s c).owner == i) hapTaken s
  forEach (s.scan.rects.filterMap fun e => if e.2.used ∧ e.2.owner = i then some e.1 else none) (fun r s => removeRect s r) s

theorem endOwned_eq (s : State) (i : Nat) : endOwned s i = outputsEnded i (operatorEnded i (soundEnded i (sessionsEnded i (sourcesEnded i s)))) := rfl

/-- The releases under way no longer answer. -/
def releasesSilent (i : Nat) (s : State) : State :=
  { s with store := { s.store with surfs := tmap {} (fun _ x => if x.used && x.owner == i && x.releasePending then { x with relKey := none } else x) s.store.surfs } }

/-- The surfaces of a slice that are not released. -/
def surfsOf (i : Nat) (s : State) : List Nat :=
  s.store.surfs.filterMap fun e => if e.2.used ∧ e.2.owner = i ∧ !e.2.releasePending then some e.1 else none

/-- A slice's surface is released, whatever used it. -/
def surfReleased (k : Nat) (s : State) : State :=
  let s := orphanRows s k
  let s := modSurf s k fun x => { x with users := 0, failKey := none }
  let s := beginRelease s k none
  if releaseReady s k then freeStorage s k else s

theorem releaseOwned_eq (s : State) (i : Nat) : releaseOwned s i = forEach (surfsOf i (releasesSilent i s)) surfReleased (releasesSilent i s) := rfl

/-! A slice of which nothing is left. -/

/-- A loop whose turns bring nothing to life, and each end its own, leaves none of its list alive. -/
theorem forEach_kills {Live : Nat → State → Prop} {f : Nat → State → State} (hkeep : ∀ a t k, Live k (f a t) → Live k t) (hkill : ∀ a t, ¬ Live a (f a t))
    (l : List Nat) (s : State) {k : Nat} (h : Live k (forEach l f s)) : k ∉ l ∧ Live k s := by
  induction l generalizing s with
  | nil => exact ⟨List.not_mem_nil, h⟩
  | cons a l ih =>
    obtain ⟨hnot, hlive⟩ := ih (f a s) h
    refine ⟨fun hk => ?_, hkeep _ _ _ hlive⟩
    obtain rfl | hk := List.mem_cons.1 hk
    · exact hkill _ _ hlive
    · exact hnot hk

/-- A value of a table mapped is the default, or the map of a value. -/
theorem tget_tmap_cases {α : Type} [DecidableEq α] (d : α) (f : Nat → α → α) (t : Tab α) (n : Nat) : tget d (tmap d f t) n = d ∨ ∃ v, tget d (tmap d f t) n = f n v := by
  induction t with
  | nil => exact Or.inl rfl
  | cons e r ih =>
    obtain ⟨k, v⟩ := e
    unfold tmap
    split
    · exact ih
    · unfold tget
      split
      · next hk => exact Or.inr ⟨v, by rw [hk]⟩
      · exact ih

/-- Of a slice no entry, session, stream or key is left. -/
structure NoneLeft (i : Nat) (s : State) : Prop where
  entry : ∀ k, ¬ LiveEntry i k s
  session : ∀ n, n < 16 → ¬ LiveSession i n s
  stream : ∀ n, ¬ LiveStream i n s
  key : ∀ n, (getKey s n).owner ≠ i

section
variable {i : Nat} {s t : State}

theorem NoneLeft.withdraws (h : NoneLeft i s) (hends : Withdraws i s t) : NoneLeft i t where
  entry k hk := h.entry k (hends.entry k hk)
  session n hn hk := h.session n hn (hends.session n hk)
  stream n hk := h.stream n (hends.stream n hk)
  key n hk := h.key n (hends.key n hk)

theorem mem_entriesOf {k : Nat} (h : LiveEntry i k s) : k ∈ entriesOf i s := by
  obtain ⟨hvalid, howner, hwithdrawn⟩ := h
  have hne : getEntry s k ≠ {} := fun hd => by rw [hd] at hvalid; exact Bool.false_ne_true hvalid
  refine List.mem_filterMap.2 ⟨(k, getEntry s k), mem_of_tget_ne ({} : LedgerEntry) k s.ledger.entries hne, if_pos ⟨hvalid, howner, ?_⟩⟩
  rw [hwithdrawn]; rfl

theorem mem_surfsOf {k : Nat} (h : LiveSurf i k s) : k ∈ surfsOf i s := by
  obtain ⟨hused, howner, hpending⟩ := h
  have hne : getSurf s k ≠ {} := fun hd => by rw [hd] at hused; exact Bool.false_ne_true hused
  refine List.mem_filterMap.2 ⟨(k, getSurf s k), mem_of_tget_ne ({} : Surface) k s.store.surfs hne, if_pos ⟨hused, howner, ?_⟩⟩
  rw [hpending]; rfl

theorem mem_sessionsOf {n : Nat} (hn : n < 16) (h : LiveSession i n s) : n ∈ sessionsOf i s :=
  List.mem_filter.2 ⟨List.mem_range.2 hn, by obtain ⟨hused, howner⟩ := h; simp [hused, howner]⟩

theorem sourcesEnded_ends (i : Nat) (s : State) : Ends i s (sourcesEnded i s) ∧ ∀ k, ¬ LiveEntry i k (sourcesEnded i s) := by
  unfold sourcesEnded; dsimp only
  have hctxs := Ends.forEach (i := i) (ctxsWhere s fun x => x.used && x.slice == i) (fun k t => Ends.endContext t k true) s
  generalize forEach (ctxsWhere s fun x => x.used && x.slice == i) (fun k s => endContext s k true) s = t at hctxs ⊢
  refine ⟨hctxs.trans (Ends.forEach _ (fun k u => (Ends.endSource u k true).1) t), fun k h => ?_⟩
  obtain ⟨hnot, hlive⟩ := forEach_kills (Live := LiveEntry i) (fun a u k hk => (Ends.endSource u a true).1.entry k hk) (fun a u => (Ends.endSource u a true).2) _ t h
  exact hnot (mem_entriesOf hlive)

theorem sessionsEnded_ends (i : Nat) (s : State) : Ends i s (sessionsEnded i s) ∧ ∀ n, n < 16 → ¬ LiveSession i n (sessionsEnded i s) := by
  refine ⟨Ends.forEach _ (fun n t => (Ends.closeSession t n).1) s, fun n hn h => ?_⟩
  obtain ⟨hnot, hlive⟩ := forEach_kills (Live := LiveSession i) (fun a t k hk => (Ends.closeSession t a).1.session k hk) (fun a t => (Ends.closeSession t a).2) _ s h
  exact hnot (mem_sessionsOf hn hlive)

theorem soundEnded_noStream (i : Nat) (s : State) (n : Nat) : ¬ LiveStream i n (soundEnded i s) := by
  rintro ⟨hused, howner⟩
  have hcases := tget_tmap_cases ({} : AudStream) (fun _ x => if x.used && x.owner == i then closeStream x else x) s.io.audio.streams n
  change (getAud (soundEnded i s) n = {} ∨ ∃ v : AudStream, getAud (soundEnded i s) n = if v.used && v.owner == i then closeStream v else v) at hcases
  obtain hdefault | ⟨v, hv⟩ := hcases
  · rw [hdefault] at hused
    exact Bool.false_ne_true hused
  · rw [hv] at hused howner
    split at hused
    · exact Bool.false_ne_true hused
    · next hnot =>
      rw [if_neg hnot] at howner
      exact hnot (by rw [hused, howner]; simp)

theorem operatorEnded_noKey (hi : i ≠ 0) (s : State) (n : Nat) : (getKey (operatorEnded i s) n).owner ≠ i := by
  intro howner
  have hcases := tget_tmap_cases ({} : KeyObj) (fun _ o => if o.owner = i then { o with owner := 0, pressed := false, run := 0, negRun := 0 } else o) s.io.keys.objects n
  change (getKey (operatorEnded i s) n = {} ∨
    ∃ v : KeyObj, getKey (operatorEnded i s) n = if v.owner = i then { v with owner := 0, pressed := false, run := 0, negRun := 0 } else v) at hcases
  obtain hdefault | ⟨v, hv⟩ := hcases
  · rw [hdefault] at howner
    exact hi howner.symm
  · rw [hv] at howner
    split at howner
    · exact hi howner.symm
    · next hnot => exact hnot howner

theorem soundEnded_ends (i : Nat) (s : State) : Ends i s (soundEnded i s) where
  slice := rfl
  rings h := h
  entry _ h := h
  session _ h := h
  stream n h := absurd h (soundEnded_noStream i s n)
  key _ h := h
  surf _ h := h

theorem operatorEnded_ends (hi : i ≠ 0) (s : State) : Ends i s (operatorEnded i s) where
  slice := rfl
  rings h := h
  entry _ h := h
  session _ h := h
  stream _ h := h
  key n h := absurd h (operatorEnded_noKey hi s n)
  surf _ h := h

theorem outputsEnded_ends (i : Nat) (s : State) : Ends i s (outputsEnded i s) := by
  unfold outputsEnded; dsimp only
  have hhaps := Ends.forEach (i := i) ((List.range 8).filter fun c => (getHap s c).owner == i) (fun c t => Ends.hapTaken c t) s
  generalize forEach ((List.range 8).filter fun c => (getHap s c).owner == i) hapTaken s = t at hhaps ⊢
  refine hhaps.trans ?_
  exact Ends.forEach _ (fun r t => Ends.removeRect t r) _

/-- R95 step 3 leaves nothing of what it takes. -/
theorem endOwned_ends (hi : i ≠ 0) (s : State) : Ends i s (endOwned s i) ∧ NoneLeft i (endOwned s i) := by
  rw [endOwned_eq]
  obtain ⟨hsources, hentry⟩ := sourcesEnded_ends i s
  obtain ⟨hsessions, hsession⟩ := sessionsEnded_ends i (sourcesEnded i s)
  generalize sessionsEnded i (sourcesEnded i s) = t at *
  have hsound := soundEnded_ends i t
  have hstream := soundEnded_noStream i t
  generalize soundEnded i t = u at *
  have hoperator := operatorEnded_ends hi u
  have hkey := operatorEnded_noKey hi u
  generalize operatorEnded i u = v at *
  have houtputs := outputsEnded_ends i v
  have hnone : NoneLeft i v :=
    { entry := fun k h => hentry k (hsessions.entry k (hsound.entry k (hoperator.entry k h)))
      session := fun n hn h => hsession n hn (hsound.session n (hoperator.session n h))
      stream := fun n h => hstream n (hoperator.stream n h)
      key := hkey }
  exact ⟨(((hsources.trans hsessions).trans hsound).trans hoperator).trans houtputs, hnone.withdraws houtputs.toWithdraws⟩

theorem surfReleased_ends (k : Nat) (s : State) : Ends i s (surfReleased k s) ∧ ¬ LiveSurf i k (surfReleased k s) := by
  unfold surfReleased; dsimp only
  have hunused : Ends i s (modSurf (orphanRows s k) k fun x => { x with users := 0, failKey := none }) :=
    (Ends.orphanRows s k).trans (Ends.modSurf _ k fun _ hused howner hpending => ⟨hused, howner, hpending⟩)
  generalize (modSurf (orphanRows s k) k fun x => { x with users := 0, failKey := none }) = t at hunused ⊢
  obtain ⟨hrelease, hdead⟩ := Ends.beginRelease (i := i) t k none
  have hfreed := Ends.freeWhenReady (i := i) (beginRelease t k none) k
  exact ⟨(hunused.trans hrelease).trans hfreed, fun h => hdead (hfreed.surf k h)⟩

theorem releasesSilent_withdraws (i : Nat) (s : State) : Withdraws i s (releasesSilent i s) := ⟨rfl, fun h => h, fun _ h => h, fun _ h => h, fun _ h => h, fun _ h => h⟩

/-- R95 step 4 leaves no surface that is not released. -/
theorem releaseOwned_ends (i : Nat) (s : State) : Withdraws i s (releaseOwned s i) ∧ ∀ k, ¬ LiveSurf i k (releaseOwned s i) := by
  rw [releaseOwned_eq]
  have hsilent := releasesSilent_withdraws i s
  generalize releasesSilent i s = t at *
  refine ⟨hsilent.trans (Ends.forEach _ (fun k u => (surfReleased_ends k u).1) t).toWithdraws, fun k h => ?_⟩
  obtain ⟨hnot, hlive⟩ := forEach_kills (Live := LiveSurf i) (fun a u k hk => (surfReleased_ends a u).1.surf k hk) (fun a u => (surfReleased_ends a u).2) _ t h
  exact hnot (mem_surfsOf hlive)

theorem orphanWrites_ends (i : Nat) (s : State) : Ends i s (orphanWrites s i) := by
  unfold orphanWrites; dsimp only
  refine Ends.trans ?_ (Ends.modSlice _ _ ?_)
  · exact Ends.of_same rfl rfl rfl rfl rfl rfl rfl
  · exact fun _ => rfl

theorem dropLayers_ends (i : Nat) (s : State) : Ends i s (dropLayers s i) := by
  unfold dropLayers; dsimp only
  refine Ends.trans ?_ (Ends.forEach _ (fun k t => ?_) _)
  · exact Ends.of_same rfl rfl rfl rfl rfl rfl rfl
  · refine iteInduction (motive := Ends i t) (fun _ => Ends.modSlot ..) fun _ => ?_
    exact Ends.of_same rfl rfl rfl rfl rfl rfl rfl

theorem dropPending_ends (i : Nat) (s : State) : Ends i s (dropPending s i) := Ends.of_same rfl rfl rfl rfl rfl rfl rfl

theorem emptied_emptyRings (i : Nat) (s : State) : Emptied i (modRings s i emptyRings) := by
  unfold Emptied RingsOff
  rw [getRings_modRings, if_pos rfl]
  refine ⟨rfl, fun k => ?_, rfl, rfl⟩
  obtain hdefault | ⟨v, hv⟩ := tget_tmap_cases ({} : SubRing) (fun _ q => { count := q.count }) (getRings s i).sq k
  · exact hdefault.trans (congrArg (fun q : SubRing => ({ count := q.count } : SubRing)) hdefault).symm
  · exact hv.trans (congrArg (fun q : SubRing => ({ count := q.count } : SubRing)) hv).symm

theorem sliceOf_endWaits (s : State) (i : Nat) (st : Status) :
    sliceOf i (endWaits s i st) = ((getSlice s i).state, [], (getSlice s i).share, (getSlice s i).pendShares) := by
  unfold endWaits; dsimp only
  have hslice := (Ends.forEach (i := i) (getSlice s i).waits (fun w t => Ends.finishKey t w.key st (nowBits t) (waitDetail s i w.freeze))
    (modSlice s i fun x => { x with waits := [] })).slice
  refine hslice.trans ?_
  unfold sliceOf
  rw [getSlice_modSlice, if_pos rfl]

/-- R95: nothing of a slice is left but its record. -/
theorem resetSlice_ends (hi : i ≠ 0) (s : State) :
    Emptied i (resetSlice s i) ∧ NoneLeft i (resetSlice s i) ∧ (∀ k, ¬ LiveSurf i k (resetSlice s i)) ∧
      sliceOf i (resetSlice s i) = ((getSlice s i).state, [], (getSlice s i).share, (getSlice s i).pendShares) := by
  unfold resetSlice; dsimp only
  have hwaits := sliceOf_endWaits s i .notReady
  generalize endWaits s i .notReady = t at hwaits ⊢
  have hcounts := (Ends.modSlice (i := i) t i (f := fun x => { x with retired := 0, aborted := 0 }) fun _ => rfl).slice
  generalize (modSlice t i fun x => { x with retired := 0, aborted := 0 }) = u at hcounts ⊢
  have hempty := emptied_emptyRings i u
  have hrecord : sliceOf i (modRings u i emptyRings) = sliceOf i u := rfl
  generalize modRings u i emptyRings = v at hempty hrecord ⊢
  have hpending := dropPending_ends i v
  generalize dropPending v i = a at hpending ⊢
  obtain ⟨howned, hnone⟩ := endOwned_ends hi a
  generalize endOwned a i = b at howned hnone ⊢
  have hwrites := orphanWrites_ends i b
  generalize orphanWrites b i = c at hwrites ⊢
  obtain ⟨hrelease, hsurf⟩ := releaseOwned_ends i c
  generalize releaseOwned c i = d at hrelease hsurf ⊢
  have hlayers := dropLayers_ends i d
  have hall : Withdraws i v (dropLayers d i) :=
    (((hpending.toWithdraws.trans howned.toWithdraws).trans hwrites.toWithdraws).trans hrelease).trans hlayers.toWithdraws
  exact ⟨hall.rings hempty, hnone.withdraws ((hwrites.toWithdraws.trans hrelease).trans hlayers.toWithdraws), fun k h => hsurf k (hlayers.surf k h),
    hall.slice.trans (hrecord.trans (hcounts.trans hwaits))⟩

end

end Sys2Proof.Machine
end

section
/-! Slices quiesce, freeze, reset and end (R86, R94 to R96, R98, R103, R104). -/
namespace Sys2Proof.Machine
open Sys2Proof

/-- A deferral, in a state that differs from another only in what is not kept, defers with that other state. -/
theorem Defers.of_kept {s t e : State} {i : Instr} {c : Cmd} {h : Held} {f : List Field} (hd : Defers i s c h f t) (hk : kept t = kept e) : Defers i s c h f e := by
  obtain ⟨u, hexec, hheld, hreplied, hquiet, hfixed, hbytes⟩ := hd
  exact ⟨u, hexec, hheld, nowBits_of_time (time_of_kept hk) ▸ hreplied, hquiet.trans (quiet_of_kept hk),
    fun j hj => (hfixed j hj).trans (congrFun (fixedOf_of_kept hk) j), sameBytes_of_kept hbytes hk⟩

/-! A slice comes to a state (R86). -/

theorem fixedOf_modSlice (s : State) (i : Nat) (f : Slice → Slice) : fixedOf (modSlice s i f) = fixedOf s := fixedOf_same rfl

/-- A slice's record in another state. -/
def sliceMoved (s : State) (i : Nat) (x : SliceState) : State :=
  modSlice s i fun y => if x = .free then { orphanAborts := y.orphanAborts } else { y with state := x }

/-- EV_SLICE_STATE to the manager, and to the slice while its event ring runs. -/
def slicePosted (s : State) (i : Nat) (fs : List Field) : State :=
  let s := post s 0 0x0C01 fs
  if (getRings s i).eq.enable then post s i 0x0C01 fs else s

theorem setSliceState_eq (s : State) (i : Nat) (x : SliceState) (cause : Nat) : setSliceState s i x cause =
    if (getSlice s i).state = x then s
    else slicePosted (sliceMoved s i x) i [fAt 2 0 7 i, fAt 3 0 4 (sliceStateCode x), fAt 4 0 4 (sliceStateCode (getSlice s i).state), fAt 5 0 8 cause,
      fAt 6 0 16 (getSlice s i).orphans] := rfl

theorem kept_slicePosted (s : State) (i : Nat) (fs : List Field) : kept (slicePosted s i fs) = kept s := by
  unfold slicePosted; dsimp only
  exact iteInduction (motive := fun t : State => kept t = kept s) (fun _ => (kept_post ..).trans (kept_post ..)) fun _ => kept_post ..

/-- A slice's state with a further change of its record. -/
theorem kept_modSlice_setSliceState (s : State) (i : Nat) {x : SliceState} (hfree : x ≠ .free) (cause : Nat) (g : Slice → Slice) :
    kept (modSlice (setSliceState s i x cause) i g) = kept (modSlice s i fun y => g { y with state := x }) := by
  rw [setSliceState_eq]
  by_cases hsame : (getSlice s i).state = x
  · rw [if_pos hsame]
    exact congrArg kept (modSlice_congr (congrArg g (by rw [← hsame])))
  · rw [if_neg hsame]
    refine (kept_modSlice i g (kept_slicePosted ..)).trans (congrArg kept ?_)
    unfold sliceMoved
    rw [modSlice_modSlice]
    simp only [hfree, if_false]
    rfl

theorem state_setSliceState (s : State) (i : Nat) (x : SliceState) (cause : Nat) : (getSlice (setSliceState s i x cause) i).state = x := by
  rw [setSliceState_eq]
  split
  · assumption
  · rw [read_kept (fun t => (getSlice t i).state) (fun _ => rfl) (kept_slicePosted ..), sliceMoved, getSlice_modSlice, if_pos rfl]
    split
    · next hfree => exact hfree.symm
    · rfl

theorem fixedOf_setSliceState (s : State) (i : Nat) (x : SliceState) (cause : Nat) : fixedOf (setSliceState s i x cause) = fixedOf s := by
  rw [setSliceState_eq]
  exact iteInduction (motive := fun t : State => fixedOf t = fixedOf s) (fun _ => rfl) fun _ => (fixedOf_of_kept (kept_slicePosted ..)).trans (fixedOf_modSlice ..)

theorem time_setSliceState (s : State) (i : Nat) (x : SliceState) (cause : Nat) : (setSliceState s i x cause).time = s.time := by
  rw [setSliceState_eq]
  exact iteInduction (motive := fun t : State => t.time = s.time) (fun _ => rfl) fun _ => (time_of_kept (kept_slicePosted ..)).trans rfl

/-! A reply that has gone out or waits stays so. -/

section
variable {s t : State} {h : Held} {st : Status} {w d : Nat}

theorem Replied.keeps (hr : Replied s h st w d) (hout : ∀ o, o ∈ s.out → o ∈ t.out)
    (hwaiting : ∀ r, r ∈ (getRings s h.slice).waiting → r ∈ (getRings t h.slice).waiting) : Replied t h st w d := by
  obtain hnone | ⟨pasid, space, addr, hmem⟩ | hmem := hr
  · exact Or.inl hnone
  · exact Or.inr (Or.inl ⟨pasid, space, addr, hout _ hmem⟩)
  · exact Or.inr (Or.inr (hwaiting _ hmem))

theorem Replied.finish (hr : Replied s h st w d) (x : Held) (st' : Status) (w' d' : Nat) : Replied (Machine.finish s x st' w' d') h st w d :=
  hr.keeps (fun o ho => out_finish s x st' w' d' o ho) fun _ hw => waiting_finish hw x st' w' d'

theorem Replied.post (hr : Replied s h st w d) (i code : Nat) (f : List Field) : Replied (Machine.post s i code f) h st w d :=
  hr.keeps (fun o ho => (steady_out o).post _ _ _ ho) fun r hw => (calm_waiting h.slice r).post _ _ _ hw

theorem waiting_modHeld (s : State) (k : CmdKey) (f : Held → Held) (j : Nat) : (getRings (modHeld s k f) j).waiting = (getRings s j).waiting := by
  unfold modHeld
  rw [getRings_modRings]
  split
  · next hj => rw [hj]
  · rfl

theorem Replied.defer (hr : Replied s h st w d) (x : Held) (f : List Field) : Replied (Machine.defer s x f) h st w d := by
  refine hr.keeps (fun o ho => (steady_out o).sendReply _ _ ho) fun r hw => ?_
  unfold Machine.defer; dsimp only
  refine waiting_sendReply ?_
  rw [waiting_modTag, waiting_modHeld]
  exact hw

theorem Replied.slicePosted (hr : Replied s h st w d) (i : Nat) (fs : List Field) : Replied (slicePosted s i fs) h st w d := by
  unfold Machine.slicePosted; dsimp only
  exact iteInduction (motive := fun t : State => Replied t h st w d) (fun _ => Replied.post (Replied.post hr ..) ..) fun _ => Replied.post hr ..

theorem Replied.setSliceState (hr : Replied s h st w d) (i : Nat) (x : SliceState) (cause : Nat) : Replied (setSliceState s i x cause) h st w d := by
  rw [setSliceState_eq]
  refine iteInduction (motive := fun t : State => Replied t h st w d) (fun _ => hr) fun _ => Replied.slicePosted ?_ _ _
  exact hr

end

/-- A deferral leaves the packets of other slices. -/
theorem findHeld_defer_other {s : State} {h : Held} {k : CmdKey} (hk : k.slice ≠ h.slice) (f : List Field) : findHeld (defer s h f) k = findHeld s k := by
  unfold defer; dsimp only
  rw [findHeld_of_fixedOf (fixedOf_sendReply ..)]
  unfold findHeld modTag modHeld
  rw [getRings_modRings, if_neg hk, getRings_modRings, if_neg (show k.slice ≠ (heldKey h).slice from hk)]

/-! Armed commands cancelled (R94). -/

/-- The commit record of a cancelled COMMIT goes. -/
def recordCancelled (h : Held) (s : State) : State := { s with comp := { s.comp with records := s.comp.records.filterMap (cancelRecord (heldKey h)) } }

/-- An armed command is cancelled. -/
def cancelled (h : Held) (s : State) : State := finishNow (recordCancelled h s) h .notReady [fAt 16 0 8 1]

theorem cancelArmed_eq (s : State) (i : Nat) : cancelArmed s i = forEach ((getRings s i).held.filter fun h => h.phase == .armed) cancelled s := rfl

theorem cancelArmed_none {s : State} {i : Nat} (h : ∀ x ∈ (getRings s i).held, x.phase ≠ .armed) : cancelArmed s i = s := by
  rw [cancelArmed_eq, List.filter_eq_nil_iff.2 fun x hx => by simpa using h x hx]
  rfl

/-- A loop that reaches an element brings what its turn brings, when every turn keeps that. -/
theorem forEach_reaches {α : Type} {P Q : State → Prop} {f : α → State → State} {x : α} (turn : ∀ t, P t → Q (f x t)) (hP : ∀ a t, P t → P (f a t))
    (hQ : ∀ a t, Q t → Q (f a t)) {l : List α} (hx : x ∈ l) {s : State} (hs : P s) : Q (forEach l f s) := by
  induction l generalizing s with
  | nil => exact absurd hx List.not_mem_nil
  | cons a l ih =>
    obtain rfl | hx := List.mem_cons.1 hx
    · exact forEach_keeps Q l f _ hQ (turn s hs)
    · exact ih hx (hP a s hs)

theorem time_cancelled (h : Held) (s : State) : (cancelled h s).time = s.time := (time_of_quiet (quiet_finishNow ..)).trans rfl

/-- A cancelled command replies ST_NOT_READY, and is held no longer. -/
theorem cancelArmed_cancels {s : State} {i : Nat} {x : Held} (hx : x ∈ (getRings s i).held) (harmed : x.phase = .armed) :
    findHeld (cancelArmed s i) (heldKey x) = none ∧ Replied (cancelArmed s i) x .notReady (nowBits s) (packFields [fAt 16 0 8 1]) := by
  rw [cancelArmed_eq]
  refine forEach_reaches (P := fun t => nowBits t = nowBits s)
    (Q := fun t => findHeld t (heldKey x) = none ∧ Replied t x .notReady (nowBits s) (packFields [fAt 16 0 8 1])) (fun t ht => ?_) (fun a t ht => ?_)
    (fun a t ht => ?_) (List.mem_filter.2 ⟨hx, by rw [harmed]; rfl⟩) rfl
  · refine ⟨findHeld_finishNow .., ?_⟩
    rw [← ht]
    exact finishNow_replied ..
  · exact (nowBits_of_time (time_cancelled a t)).trans ht
  · obtain ⟨hnone, hreplied⟩ := ht
    have hnone' : findHeld (recordCancelled a t) (heldKey x) = none := hnone
    have hreplied' : Replied (recordCancelled a t) x .notReady (nowBits s) (packFields [fAt 16 0 8 1]) := hreplied
    exact ⟨findHeld_finish_none hnone' a _ _ _, Replied.finish hreplied' a _ _ _⟩

/-- The wait that SLICE_QUIESCE or SLICE_FREEZE starts. -/
def waitOf (s : State) (h : Held) (freeze : Bool) : SliceWait :=
  { key := heldKey h, freeze, startFrame := (now s).frame, timeout := pf h.pkt 17 0 8 }

theorem beginWait_eq (s : State) (h : Held) (freeze : Bool) :
    beginWait s h freeze = defer (modSlice s (pktSlice h.pkt) fun x => { x with waits := x.waits ++ [waitOf s h freeze] }) h [] := rfl

theorem actQuiesce_eq (s : State) (h : Held) (c : Cmd) :
    actQuiesce s h c = beginWait (setSliceState (cancelArmed s (pktSlice h.pkt)) (pktSlice h.pkt) .quiescing 0) h false := rfl

theorem state_beginWait (s : State) (h : Held) (freeze : Bool) (i : Nat) : (getSlice (beginWait s h freeze) i).state = (getSlice s i).state := by
  rw [beginWait_eq, quiet_eq (getSlice · i) (fun _ => rfl) (quiet_defer ..), getSlice_modSlice]
  split
  · next hi => rw [hi]
  · rfl

theorem findHeld_beginWait_other {s : State} {h : Held} {k : CmdKey} (hk : k.slice ≠ h.slice) (freeze : Bool) : findHeld (beginWait s h freeze) k = findHeld s k := by
  rw [beginWait_eq]
  exact (findHeld_defer_other hk []).trans rfl

theorem Replied.beginWait {s : State} {x : Held} {st : Status} {w d : Nat} (hr : Replied s x st w d) (h : Held) (freeze : Bool) :
    Replied (beginWait s h freeze) x st w d := by
  rw [beginWait_eq]
  have hwaited : Replied (modSlice s (pktSlice h.pkt) fun y => { y with waits := y.waits ++ [waitOf s h freeze] }) x st w d := hr
  exact hwaited.defer h []

/-- A slice that begins to wait for its quiet or its freeze defers the command (R94, R98). -/
theorem defers_beginWait {s u : State} {c : Cmd} {op : Nat} {h : Held} {i : Instr} (hr : Ready s c op h) {st : SliceState} (hfree : st ≠ .free) (freeze : Bool)
    (hexec : exec i s = .next (beginWait (setSliceState u (pktSlice h.pkt) st 0) h freeze)) (hrings : fixedOf u = fixedOf s) (htime : u.time = s.time) :
    Defers i s c h [] (modSlice u (pktSlice h.pkt) fun x => { x with
      state := st
      waits := x.waits ++ [{ key := Cmd.key c, freeze, startFrame := (now s).frame, timeout := pf h.pkt 17 0 8 }] }) := by
  have hwait : waitOf (setSliceState u (pktSlice h.pkt) st 0) h freeze =
      { key := Cmd.key c, freeze, startFrame := (now s).frame, timeout := pf h.pkt 17 0 8 } := by
    have hnow : now (setSliceState u (pktSlice h.pkt) st 0) = now s := by rw [now, now, time_setSliceState, htime]
    rw [waitOf, hr.key, hnow]
  rw [beginWait_eq, hwait] at hexec
  refine (hr.defers hexec ?_).of_kept (kept_modSlice_setSliceState u _ hfree 0 _)
  exact (fixedOf_modSlice ..).trans ((fixedOf_setSliceState ..).trans hrings)

/-- Intake that stops touches no ring while there is no session (R98). -/
theorem stopIntake_quiet {s : State} (h : s.media.sessions = []) (i : Nat) : (stopIntake s i).rings = s.rings ∧ (stopIntake s i).time = s.time := by
  have hctxs (g : State → Tab SliceRings × TimeSt × Tab Session) (hg : ∀ t k f, g (modCtx t k f) = g t) :
      g (forEach (ctxsWhere s fun x => x.used && !x.detached && x.slice == i) (fun k s =>
        modCtx s k fun x => { x with queue := (started x).map fun a => { a with complete := true, lost := a.lost || !a.complete } }) s) = g s :=
    forEach_same g _ _ s fun k t => hg t k _
  have hview := hctxs (fun t => (t.rings, t.time, t.media.sessions)) fun _ _ _ => rfl
  unfold stopIntake; dsimp only
  generalize forEach (ctxsWhere s fun x => x.used && !x.detached && x.slice == i) (fun k s =>
    modCtx s k fun x => { x with queue := (started x).map fun a => { a with complete := true, lost := a.lost || !a.complete } }) s = t at hview ⊢
  have hnone : t.media.sessions = [] := (congrArg (fun v => v.2.2) hview :).trans h
  rw [sessionsWhere_none hnone rfl]
  exact ⟨(congrArg Prod.fst hview :), (congrArg (fun v => v.2.1) hview :)⟩

/-! A slice that comes to rest answers what waited (R86). -/

theorem heldCount_of_fixedOf {s t : State} (h : fixedOf t = fixedOf s) (i : Nat) : heldCount t i = heldCount s i :=
  (congrArg (fun r : SliceRings => r.held.length) (congrFun h i) :)

/-- A slice with one wait, in its new state, answers it. -/
theorem endWaits_answers {s : State} {i : Nat} {w : SliceWait} {h : Held} {row : Instr} {st : SliceState} (hfree : st ≠ .free)
    (hexec : exec row s = .next (endWaits (setSliceState s i st 1) i .ok)) (hheld : (getRings s i).held = []) (hjobs : engineJobs s i w.freeze = 0)
    (hwaits : (getSlice s i).waits = [w]) (hf : findHeld s w.key = some h) (hs : h.slice = w.key.slice) :
    Answers row s { slice := w.key.slice, ring := w.key.ring, index := w.key.index } h .ok (nowBits s) [fAt 16 0 16 0, fAt 18 0 32 0]
      (modSlice s i fun x => { x with state := st, waits := [] }) := by
  have hkept := kept_modSlice_setSliceState s i hfree 1 fun x => { x with waits := [] }
  have hid := kept_modSlice_setSliceState s i hfree 1 id
  have hfixed := fixedOf_setSliceState s i st 1
  have hbits : nowBits (setSliceState s i st 1) = nowBits s := nowBits_of_time (time_setSliceState ..)
  have hjobs' : engineJobs (modSlice (setSliceState s i st 1) i id) i w.freeze = 0 := (read_kept (engineJobs · i w.freeze) (fun _ => rfl) hid).trans hjobs
  have hwaits' : (getSlice (modSlice (setSliceState s i st 1) i id) i).waits = [w] := by
    refine (read_kept (fun t => (getSlice t i).waits) (fun _ => rfl) hid).trans ?_
    rw [getSlice_modSlice, if_pos rfl]
    exact hwaits
  rw [getSlice_modSlice, if_pos rfl] at hwaits'
  generalize setSliceState s i st 1 = t at *
  have hdetail : waitDetail t i w.freeze = [fAt 16 0 16 0, fAt 18 0 32 0] := by
    unfold waitDetail
    rw [show engineJobs t i w.freeze = 0 from hjobs', heldCount_of_fixedOf hfixed, heldCount, hheld]
    rfl
  have hend : endWaits t i .ok = finishKey (modSlice t i fun x => { x with waits := [] }) w.key .ok (nowBits t) (waitDetail t i w.freeze) := by
    unfold endWaits; dsimp only
    rw [show (getSlice t i).waits = [w] from hwaits']
    rfl
  rw [hend, hbits, hdetail] at hexec
  exact answers_of_finishKey hexec hkept rfl hf hs

/-! A slice that is reset or ends (R95, R96). -/

/-- Nothing of a slice is left but its record and what waits to be freed. -/
structure SliceGone (i : Nat) (s : State) : Prop where
  emptied : Emptied i s
  none : NoneLeft i s
  surf : ∀ k, ¬ LiveSurf i k s

theorem withdrawn_of_noEntry {i : Nat} {s : State} (h : ∀ k, ¬ LiveEntry i k s) (k : Nat) (hvalid : (getEntry s k).valid = true) (howner : (getEntry s k).owner = i) :
    (getEntry s k).inp.withdrawn = true :=
  Bool.not_eq_false _ ▸ fun hlive => h k ⟨hvalid, howner, hlive⟩

theorem released_of_noSurf {i : Nat} {s : State} (h : ∀ k, ¬ LiveSurf i k s) (k : Nat) (hused : (getSurf s k).used = true) (howner : (getSurf s k).owner = i) :
    (getSurf s k).releasePending = true :=
  Bool.not_eq_false _ ▸ fun hlive => h k ⟨hused, howner, hlive⟩

theorem SliceGone.ends {i : Nat} {s t : State} (h : SliceGone i s) (hends : Ends i s t) : SliceGone i t :=
  ⟨hends.rings h.emptied, h.none.withdraws hends.toWithdraws, fun k hk => h.surf k (hends.surf k hk)⟩

/-- A slice's record does not bring back what is gone. -/
theorem SliceGone.modSlice {i : Nat} {s : State} (h : SliceGone i s) (j : Nat) (f : Slice → Slice) : SliceGone i (modSlice s j f) :=
  ⟨h.emptied, ⟨h.none.entry, h.none.session, h.none.stream, h.none.key⟩, h.surf⟩

theorem Ends.slicePosted {i : Nat} (s : State) (j : Nat) (fs : List Field) : Ends i s (slicePosted s j fs) := by
  unfold Machine.slicePosted; dsimp only
  exact iteInduction (motive := Ends i s) (fun _ => (Ends.post ..).trans (Ends.post ..)) fun _ => Ends.post ..

theorem SliceGone.setSliceState {i : Nat} {s : State} (h : SliceGone i s) (j : Nat) (x : SliceState) (cause : Nat) : SliceGone i (setSliceState s j x cause) := by
  rw [setSliceState_eq]
  exact iteInduction (motive := SliceGone i) (fun _ => h) fun _ => (SliceGone.modSlice h ..).ends (Ends.slicePosted ..)

theorem getSlice_setSliceState (s : State) (i : Nat) (x : SliceState) (cause : Nat) : getSlice (setSliceState s i x cause) i =
    if (getSlice s i).state = x then getSlice s i
    else if x = .free then { orphanAborts := (getSlice s i).orphanAborts } else { getSlice s i with state := x } := by
  rw [setSliceState_eq]
  split
  · rfl
  · rw [read_kept (getSlice · i) (fun _ => rfl) (kept_slicePosted ..), sliceMoved, getSlice_modSlice, if_pos rfl]

/-- SLICE_RESET's and SLICE_DESTROY's checks that pass name a slice other than the manager's. -/
theorem slice_ne_zero {s : State} {h : Held} {c : Cmd} {ok : List SliceState} (hc : checkSliceEnd ok s h c = none) : pktSlice h.pkt ≠ 0 := by
  have hzero := (firstFail_cons_eq_none.1 (firstFail_cons_eq_none.1 hc).2).1
  simpa using hzero

theorem SliceGone.finishNow {i : Nat} {s : State} (hs : SliceGone i s) (h : Held) (st : Status) (f : List Field) : SliceGone i (finishNow s h st f) :=
  hs.ends (Ends.finish ..)

theorem getSlice_finishNow (s : State) (h : Held) (st : Status) (f : List Field) (i : Nat) : getSlice (finishNow s h st f) i = getSlice s i :=
  quiet_eq (getSlice · i) (fun _ => rfl) (quiet_finishNow ..)

theorem resetSlice_gone {i : Nat} (hi : i ≠ 0) (s : State) : SliceGone i (resetSlice s i) := by
  obtain ⟨hempty, hnone, hsurf, -⟩ := resetSlice_ends hi s
  exact ⟨hempty, hnone, hsurf⟩

/-- SLICE_RESET leaves a slice active and empty (R95). -/
theorem actSliceReset_leaves {h : Held} (hi : pktSlice h.pkt ≠ 0) (s : State) (c : Cmd) : SliceGone (pktSlice h.pkt) (actSliceReset s h c) ∧
    sliceOf (pktSlice h.pkt) (actSliceReset s h c) = (.active, [], (getSlice s (pktSlice h.pkt)).share, (getSlice s (pktSlice h.pkt)).pendShares) := by
  unfold actSliceReset; dsimp only
  generalize pktSlice h.pkt = i at *
  have hgone := resetSlice_gone hi s
  obtain ⟨-, -, -, hrecord⟩ := resetSlice_ends hi s
  generalize resetSlice s i = r at *
  have hslice := getSlice_setSliceState r i .active 0
  rw [if_neg (show SliceState.active ≠ .free from SliceState.noConfusion)] at hslice
  have hactive := hgone.setSliceState i .active 0
  generalize setSliceState r i .active 0 = v at *
  refine ⟨hactive.finishNow .., ?_⟩
  rw [sliceOf, getSlice_finishNow, hslice]
  rw [sliceOf] at hrecord
  have hwaits : (getSlice r i).waits = [] := (congrArg (fun v => v.2.1) hrecord :)
  have hshare : (getSlice r i).share = (getSlice s i).share := (congrArg (fun v => v.2.2.1) hrecord :)
  have hshares : (getSlice r i).pendShares = (getSlice s i).pendShares := (congrArg (fun v => v.2.2.2) hrecord :)
  split
  · next hsame => rw [hsame, hwaits, hshare, hshares]
  · exact congrArg (fun v => (SliceState.active, v)) (by rw [hwaits, hshare, hshares])

/-- A slice that ends, its share changes cancelled, and its share gone (R93). -/
def shareless (s : State) (i : Nat) : State := modSlice (cancelShares (resetSlice s i) i) i fun x => { x with share := {} }

theorem actSliceDestroy_eq (s : State) (h : Held) (c : Cmd) : actSliceDestroy s h c =
    finishNow (setSliceState (shareless s (pktSlice h.pkt)) (pktSlice h.pkt)
      (if (getSlice (shareless s (pktSlice h.pkt)) (pktSlice h.pkt)).orphans = 0 then .free else .draining) 0) h .ok
      (endDetail (cancelShares (resetSlice s (pktSlice h.pkt)) (pktSlice h.pkt)) (pktSlice h.pkt)) := rfl

theorem cancelShares_ends (i : Nat) (s : State) : Ends i (modSlice s i fun x => { x with pendShares := [] }) (cancelShares s i) := by
  unfold cancelShares; dsimp only
  have hshares := Ends.forEach (i := i) (getSlice s i).pendShares (fun e t => Ends.finishKey t e.2.1 .notReady (nowBits t) [fAt 16 0 8 2])
    (modSlice s i fun x => { x with pendShares := [] })
  refine hshares.trans ?_
  exact Ends.forEach _ (fun h t => Ends.finish ..) _

theorem shareless_gone {i : Nat} (hi : i ≠ 0) (s : State) : SliceGone i (shareless s i) ∧ (getSlice (shareless s i) i).pendShares = [] := by
  have hgone := resetSlice_gone hi s
  unfold shareless
  generalize resetSlice s i = r at hgone ⊢
  have hends := cancelShares_ends i r
  have hslice : sliceOf i (cancelShares r i) = ((getSlice r i).state, (getSlice r i).waits, (getSlice r i).share, []) := by
    rw [hends.slice, sliceOf, getSlice_modSlice, if_pos rfl]
  have hcancelled := (hgone.modSlice i fun x => { x with pendShares := [] }).ends hends
  generalize cancelShares r i = t at hcancelled hslice ⊢
  refine ⟨hcancelled.modSlice i _, ?_⟩
  rw [getSlice_modSlice, if_pos rfl]
  exact (congrArg (fun v => v.2.2.2) hslice :)

/-- SLICE_DESTROY leaves a slice free, or draining while orphans are left (R104). -/
theorem actSliceDestroy_leaves {h : Held} (hi : pktSlice h.pkt ≠ 0) (s : State) (c : Cmd) : SliceGone (pktSlice h.pkt) (actSliceDestroy s h c) ∧
    (getSlice (actSliceDestroy s h c) (pktSlice h.pkt)).state = (if (getSlice (actSliceDestroy s h c) (pktSlice h.pkt)).orphans = 0 then .free else .draining) ∧
    (getSlice (actSliceDestroy s h c) (pktSlice h.pkt)).pendShares = [] := by
  rw [actSliceDestroy_eq]
  generalize pktSlice h.pkt = i at *
  obtain ⟨hgone, hshares⟩ := shareless_gone hi s
  rw [getSlice_finishNow]
  generalize shareless s i = r at *
  generalize hst : (if (getSlice r i).orphans = 0 then SliceState.free else .draining) = st
  refine ⟨(hgone.setSliceState i st 0).finishNow .., ?_⟩
  rw [getSlice_setSliceState]
  by_cases hsame : (getSlice r i).state = st
  · rw [if_pos hsame, hsame, hst]
    exact ⟨rfl, hshares⟩
  · rw [if_neg hsame]
    by_cases hzero : (getSlice r i).orphans = 0
    · rw [if_pos hzero] at hst
      rw [← hst]
      exact ⟨rfl, rfl⟩
    · rw [if_neg hzero] at hst
      rw [← hst]
      exact ⟨(if_neg hzero).symm, hshares⟩

/-! Orphans (R96). -/

theorem orphanDone_more {s : State} {i : Nat} (h : 2 ≤ (getSlice s i).orphans) (aborted : Bool) : orphanDone s i aborted =
    modSlice s i fun x => { x with
      orphans := x.orphans - 1
      retired := satAdd 32 x.retired 1
      aborted := satAdd 32 x.aborted aborted.toNat
      orphanAborts := satAdd 32 x.orphanAborts aborted.toNat } := by
  unfold orphanDone; dsimp only
  rw [if_neg (by omega), if_pos (by omega)]

/-- The last orphan of a slice that drains ends it (R86). -/
theorem kept_orphanDone_last {s : State} {i : Nat} (h : (getSlice s i).orphans = 1) (hstate : (getSlice s i).state = .draining) (aborted : Bool) :
    kept (orphanDone s i aborted) = kept (modSlice s i fun x => { orphanAborts := satAdd 32 x.orphanAborts aborted.toNat }) := by
  unfold orphanDone; dsimp only
  rw [if_neg (by omega), if_neg (by omega), getSlice_modSlice, if_pos rfl, if_pos hstate, setSliceState_eq]
  generalize hm : (modSlice s i fun x => { x with
    orphans := x.orphans - 1
    retired := satAdd 32 x.retired 1
    aborted := satAdd 32 x.aborted aborted.toNat
    orphanAborts := satAdd 32 x.orphanAborts aborted.toNat }) = m
  have hpost : ∀ f, kept (post m 0 0x0C02 f) = kept m := fun f => kept_post ..
  generalize hv : post m 0 0x0C02 _ = v
  have hkept : kept v = kept m := hv ▸ hpost _
  have hdraining : (getSlice v i).state = .draining := by
    rw [read_kept (getSlice · i) (fun _ => rfl) hkept, ← hm, getSlice_modSlice, if_pos rfl]
    exact hstate
  rw [if_neg (by rw [hdraining]; exact SliceState.noConfusion)]
  refine (kept_slicePosted ..).trans ((kept_modSlice i _ hkept).trans (congrArg kept ?_))
  rw [← hm, modSlice_modSlice]
  rfl

/-- With no decode context, the one encode orphan of a slice is what leaves. -/
theorem dropOne_encode {due : Nat → Bool} {s : State} {i : Nat} {e : EncOrphan} (hctxs : s.media.ctxs = []) (horphans : s.media.encOrphans = [e]) (hslice : e.slice = i)
    (hsurfs : e.surfs = []) (hdue : due e.at_ = true) (aborted : Bool) :
    dropOne due s i aborted = orphanDone { s with media := { s.media with encOrphans := [] } } i aborted := by
  unfold dropOne; dsimp only
  rw [ctxsWhere_none hctxs, horphans, List.find?_cons_of_pos (by simp [hslice, hdue])]
  show dropEncOrphan s e aborted = _
  unfold dropEncOrphan; dsimp only
  rw [horphans, hsurfs, hslice]
  simp [forEach]

/-- With no decode context and no SURFACE_WRITE, and no encode orphan due, none leaves. -/
theorem dropOne_none {due : Nat → Bool} {s : State} (hctxs : s.media.ctxs = []) (hwrites : s.sluice.writes = []) (hdue : ∀ e ∈ s.media.encOrphans, due e.at_ = false)
    (i : Nat) (aborted : Bool) : dropOne due s i aborted = s := by
  unfold dropOne; dsimp only
  rw [ctxsWhere_none hctxs, hwrites, List.find?_eq_none.2 fun e he => by simp [hdue e he]]
  rfl

/-- Settles O51: a reset's loops end each entry, session and surface of the slice and bring none to life, so none is left. -/
theorem sliceEnds : Obligations.SliceEnds := by
  unfold Obligations.SliceEnds
  refine ⟨?quiesce, ?cancel, ?freeze, ?quiesced, ?frozen, ?waits, ?timeout, ?reset, ?refused, ?destroy, ?noOrphan, ?retired, ?aborted, ?notDue⟩
  case quiesce =>
    intro s c h i hr hc hi _ harmed
    subst hi
    have hact : actQuiesce s h c = beginWait (setSliceState s (pktSlice h.pkt) .quiescing 0) h false := by
      show beginWait (setSliceState (cancelArmed s (pktSlice h.pkt)) _ _ 0) h false = _
      rw [cancelArmed_none harmed]
    exact defers_beginWait hr.1 SliceState.noConfusion false (congrArg Host.Outcome.next ((hr.runPacket rfl hc).trans hact)) rfl rfl
  case cancel =>
    intro s c h i hr hc hi hc0 hslice
    subst hi
    have hzero : pktSlice h.pkt ≠ 0 := by
      have hnot := (firstFail_cons_eq_none.1 (firstFail_cons_eq_none.1 hc).2).1
      simpa using hnot
    refine ⟨_, congrArg Host.Outcome.next ((hr.runPacket rfl hc).trans (actQuiesce_eq s h c)), ?_, fun x hx harmed => ?_⟩
    · exact (state_beginWait ..).trans (state_setSliceState ..)
    · obtain ⟨hnone, hreplied⟩ := cancelArmed_cancels hx harmed
      have hother : (heldKey x).slice ≠ h.slice := by
        rw [show (heldKey x).slice = x.slice from rfl, hslice x hx, hr.1.2.1, hc0]
        exact hzero
      have hmoved : findHeld (setSliceState (cancelArmed s (pktSlice h.pkt)) (pktSlice h.pkt) .quiescing 0) (heldKey x) = none :=
        (findHeld_of_fixedOf (fixedOf_setSliceState ..) _).trans hnone
      exact ⟨(findHeld_beginWait_other hother _).trans hmoved, (hreplied.setSliceState ..).beginWait h false⟩
  case freeze =>
    intro s c h i hr hc hi _ harmed hsessions
    subst hi
    have hact : actFreeze s h c = beginWait (setSliceState (stopIntake s (pktSlice h.pkt)) (pktSlice h.pkt) .freezing 0) h true := by
      show beginWait (setSliceState (stopIntake (cancelArmed s (pktSlice h.pkt)) _) _ _ 0) h true = _
      rw [cancelArmed_none harmed]
    obtain ⟨hrings, htime⟩ := stopIntake_quiet hsessions (pktSlice h.pkt)
    exact defers_beginWait hr.1 SliceState.noConfusion true (congrArg Host.Outcome.next ((hr.runPacket rfl hc).trans hact)) (fixedOf_same hrings) htime
  case quiesced =>
    intro s i w h hstate hheld hjobs hwaits hfreeze hf hs
    refine endWaits_answers SliceState.noConfusion (congrArg Host.Outcome.next (if_pos ⟨hstate, ?_, hjobs⟩)) hheld (by rw [hfreeze]; exact hjobs) hwaits hf hs
    rw [heldCount, hheld]; rfl
  case frozen =>
    intro s i w h hstate hheld hjobs hwaits hfreeze hf hs
    refine endWaits_answers SliceState.noConfusion (congrArg Host.Outcome.next (if_pos ⟨hstate, ?_, hjobs⟩)) hheld (by rw [hfreeze]; exact hjobs) hwaits hf hs
    rw [heldCount, hheld]; rfl
  case waits =>
    intro s i hheld
    have hcount : heldCount s i ≠ 0 := fun h0 => hheld (List.length_eq_zero_iff.1 h0)
    exact ⟨congrArg Host.Outcome.next (if_neg fun h => hcount h.2.1), congrArg Host.Outcome.next (if_neg fun h => hcount h.2.1)⟩
  case timeout =>
    intro s c h i w hfind htime hf hs
    have hexec : exec (.sliceWaitTimeout c) s =
        .next (finishKey (modSlice s i fun x => { x with waits := x.waits.filter (· != w) }) (Cmd.key c) .timeout (nowBits s) (waitDetail s i w.freeze)) := by
      show execSliceWaitTimeout c s = _
      unfold execSliceWaitTimeout; dsimp only
      rw [show (List.range 65).findSome? (fun i => ((getSlice s i).waits.find? fun w => w.key == ⟨c.slice, c.ring, c.index⟩).map fun w => (i, w)) = some (i, w) from hfind]
      exact congrArg Host.Outcome.next (if_neg (Nat.not_lt.2 htime))
    exact answers_of_finishKey hexec rfl rfl hf hs
  case reset =>
    intro s c h i hr hc hi _
    subst hi
    obtain ⟨⟨⟨hheld, hsq, hrq, heq⟩, hnone, hsurf⟩, hslice⟩ := actSliceReset_leaves (slice_ne_zero hc) s c
    refine ⟨_, congrArg Host.Outcome.next (hr.runPacket rfl hc), hr.1.finished .., (congrArg Prod.fst hslice :), (congrArg (fun v => v.2.1) hslice :),
      (congrArg (fun v => v.2.2.1) hslice :), hheld, hsq, hrq, heq, withdrawn_of_noEntry hnone.entry, released_of_noSurf hsurf, fun n hn hused howner => ?_,
      fun n hused howner => hnone.stream n ⟨hused, howner⟩, hnone.key⟩
    exact hnone.session n hn ⟨hused, howner⟩
  case refused =>
    intro s c h hr hresv hrange hzero hstate hforce
    refine hr.refused rfl rfl ?_
    unfold checkSliceEnd sliceCheck; dsimp only
    rw [List.cons_append, firstFail_cons_false, List.cons_append, firstFail_cons_false]
    · rw [List.nil_append]
      exact firstFail_cons_true (by rw [hforce]; simp [stateIn, hstate]) _ _
    · exact beq_false_of_ne hzero
    · rw [hresv]; simp [hrange]
  case destroy =>
    intro s c h i hr hc hi _
    subst hi
    obtain ⟨⟨⟨hheld, -, -, -⟩, hnone, hsurf⟩, hstate, hshares⟩ := actSliceDestroy_leaves (slice_ne_zero hc) s c
    exact ⟨_, congrArg Host.Outcome.next (hr.runPacket rfl hc), hr.1.finished .., hstate, hshares, hheld, withdrawn_of_noEntry hnone.entry,
      released_of_noSurf hsurf⟩
  case noOrphan =>
    intro s i h
    refine ⟨congrArg Host.Outcome.next (if_pos h), ?_⟩
    show Host.Outcome.next (forEach (List.range (getSlice s i).orphans) _ s) = _
    rw [h]; rfl
  case retired =>
    intro s i e hctxs horphans hslice hsurfs hmany
    have hmany' : 2 ≤ (getSlice { s with media := { s.media with encOrphans := [] } } i).orphans := hmany
    refine congrArg Host.Outcome.next ((if_neg (by omega)).trans ?_)
    rw [dropOne_encode hctxs horphans hslice hsurfs rfl]
    exact orphanDone_more hmany' false
  case aborted =>
    intro s i e hctxs horphans hslice hsurfs hone hstate hdue
    have hone' : (getSlice { s with media := { s.media with encOrphans := [] } } i).orphans = 1 := hone
    have hstate' : (getSlice { s with media := { s.media with encOrphans := [] } } i).state = .draining := hstate
    have hdrop : execOrphanAbortLimit i s = .next (orphanDone { s with media := { s.media with encOrphans := [] } } i true) := by
      have hdropped := dropOne_encode (due := fun at_ => decide (at_ + 100 ≤ uptimeMs s)) hctxs horphans hslice hsurfs (decide_eq_true hdue) true
      unfold execOrphanAbortLimit
      rw [hone]
      exact congrArg Host.Outcome.next hdropped
    exact leaves_of_kept hdrop (kept_orphanDone_last hone' hstate' true)
  case notDue =>
    intro s i hctxs hwrites hdue
    refine congrArg Host.Outcome.next (forEach_keeps (· = s) _ _ s (fun a t ht => ?_) rfl)
    subst ht
    exact dropOne_none hctxs hwrites (fun e he => decide_eq_false (Nat.not_le.2 (hdue e he))) i true

end Sys2Proof.Machine
end

section
/-! A slice is saved and restored (R99, R100). -/
namespace Sys2Proof.Machine
open Sys2Proof

section
variable {s : State} {c : Cmd} {h : Held}

/-! SLICE_SAVE (R99). -/

/-- Work waits for a lane, one block after another. -/
theorem forEach_queueWork (l : List Nat) (f : Nat → LaneWork) (s : State) :
    forEach l (fun k s => queueWork s (f k)) s = { s with sluice := { s.sluice with queue := s.sluice.queue ++ l.map f } } := by
  induction l generalizing s with
  | nil => simp [forEach]
  | cons k l ih =>
    refine (ih (queueWork s (f k))).trans ?_
    simp [queueWork]

theorem chunksOf_getD (sz : Nat) {n k : Nat} (hk : k < n) (l : List Byte) : (chunksOf sz n l).getD k [] = (l.drop (sz * k)).take sz := by
  induction n generalizing k l with
  | zero => omega
  | succ n ih =>
    cases k with
    | zero => simp [chunksOf]
    | succ k =>
      have hrest := ih (k := k) (by omega) (l.drop sz)
      rw [List.drop_drop] at hrest
      rw [Nat.mul_succ, Nat.add_comm (sz * k), ← hrest]
      rfl

/-- The image of a slice by reference, taken and with the lanes (R99, R153). -/
def saveTaken (s : State) (h : Held) : State :=
  let body := imageBody s (pktSlice h.pkt) false
  let n := (body.length + 4095) / 4096
  { s with
    migr := { s.migr with saves := s.migr.saves ++
      [{ key := heldKey h, slice := pktSlice h.pkt, head := imageHead s (pktSlice h.pkt) false, count := n, maxLength := pf h.pkt 32 0 64, dest := pf h.pkt 24 0 64 }] }
    sluice := { s.sluice with queue := s.sluice.queue ++ (List.range n).map fun k =>
      { kind := .batch, row := k, raw := (body.drop (4096 * k)).take 4096, last := k + 1 == n, save := some (heldKey h) } } }

theorem actSliceSave_eq (hcontent : pb h.pkt 17 0 = false) (s : State) (c : Cmd) : actSliceSave s h c = defer (saveTaken s h) h [] := by
  unfold actSliceSave; dsimp only
  rw [hcontent]
  simp only [Bool.false_eq_true, if_false]
  rw [forEach_queueWork, List.map_congr_left fun k hk => by rw [chunksOf_getD 4096 (List.mem_range.1 hk)]]
  rfl

/-- A save whose end is under way is no longer listed. -/
def saveTakenOut (s : State) (k : CmdKey) : State := { s with migr := { s.migr with saves := s.migr.saves.filter fun x => x.key != k } }

theorem exec_sliceSaveComplete {j : SaveJob} (hfind : s.migr.saves.find? (fun j => j.key == Cmd.key c) = some j) :
    exec (.sliceSaveComplete c) s = .next (if j.blocks.length = j.count then endSave s j c.ok else s) := by
  show execSliceSaveComplete c s = _
  unfold execSliceSaveComplete
  rw [show s.migr.saves.find? (fun j => j.key == (⟨c.slice, c.ring, c.index⟩ : CmdKey)) = some j from hfind]

theorem key_of_findSave {l : List SaveJob} {j : SaveJob} {k : CmdKey} (h : l.find? (fun j => j.key == k) = some j) : j.key = k := by
  simpa using List.find?_some h

theorem endSave_noRoom {j : SaveJob} {body : List Byte} (hbody : body = packBody ((List.range j.count).map (tget [] j.blocks))) (hlong : j.maxLength < 64 + body.length)
    (ok : Bool) : endSave s j ok = finishKey (saveTakenOut s j.key) j.key .noResource (nowBits s) [fAt 16 0 64 (64 + body.length)] := by
  subst hbody
  exact if_pos hlong

theorem out_finishKey {o : Output} (ho : o ∈ s.out) (k : CmdKey) (st : Status) (w : Nat) (f : List Field) : o ∈ (finishKey s k st w f).out := by
  unfold finishKey
  split
  · exact out_finish _ _ _ _ _ _ ho
  · exact ho

/-- A save's image, its header and its body in host memory. -/
def imageWritten (s : State) (j : SaveJob) (serial : Nat) (body : List Byte) : State :=
  hostPut (hostPut (modSlice (saveTakenOut s j.key) j.slice fun x => { x with saveSerial := serial }) 0 j.dest (imageHeader j.head serial body)) 0 (j.dest + 64) body

theorem endSave_written {j : SaveJob} {serial : Nat} {body : List Byte} (hbody : body = packBody ((List.range j.count).map (tget [] j.blocks)))
    (hfits : 64 + body.length ≤ j.maxLength) (hserial : serial = ((getSlice s j.slice).saveSerial + 1) % 2 ^ 32) (hhead : s.regs.headless = false) :
    endSave s j true = finishKey (imageWritten s j serial body) j.key .ok (nowBits s) [fAt 16 0 64 (64 + body.length), fAt 24 0 32 serial] := by
  subst hbody hserial
  refine (if_neg (Nat.not_lt.2 hfits)).trans ?_
  simp [destWrite, destSpace, hhead, imageWritten, saveTakenOut, hostPut, emit, nowBits, now, getSlice]

theorem kept_imageWritten (s : State) (j : SaveJob) (serial : Nat) (body : List Byte) :
    kept (imageWritten s j serial body) = kept (modSlice (saveTakenOut s j.key) j.slice fun x => { x with saveSerial := serial }) := rfl

theorem imageWritten_out (s : State) (j : SaveJob) (serial : Nat) (body : List Byte) :
    Output.hostWrite 0 (pasidOf s 0) j.dest (imageHeader j.head serial body) ∈ (imageWritten s j serial body).out ∧
      Output.hostWrite 0 (pasidOf s 0) (j.dest + 64) body ∈ (imageWritten s j serial body).out := by
  have hpasid : pasidOf (modSlice (saveTakenOut s j.key) j.slice fun x => { x with saveSerial := serial }) 0 = pasidOf s 0 := by
    unfold pasidOf
    rw [getSlice_modSlice]
    split
    · next hj => rw [hj]; rfl
    · rfl
  unfold imageWritten
  rw [← hpasid]
  generalize (modSlice (saveTakenOut s j.key) j.slice fun x => { x with saveSerial := serial }) = t
  refine ⟨List.mem_append_left _ (List.mem_append_right _ (List.mem_singleton.2 rfl)), List.mem_append_right _ (List.mem_singleton.2 rfl)⟩

/-! SLICE_RESTORE (R100). -/

/-- A restore whose end is under way is no longer listed. -/
def restoreTakenOut (s : State) (k : CmdKey) : State := { s with migr := { s.migr with restores := s.migr.restores.filter fun x => x.key != k } }

/-- A restore of an accepted header, under way. -/
def restoreBegun (s : State) (h : Held) (m : ImgHead) : State :=
  { s with migr := { s.migr with restores := s.migr.restores ++ [{ key := heldKey h, slice := some m.slice, byRef := !m.content }] } }

theorem actSliceRestore_eq {m : ImgHead} (hhead : s.regs.headless = false) (hok : c.ok = true) (hlen : c.data.length = 64) (hread : readHead s c.data = some m)
    (hrestorable : restorable s m = true) : actSliceRestore s h c = defer (restoreBegun (setSliceState s m.slice .restoring 0) h m) h [] := by
  unfold actSliceRestore; dsimp only
  rw [destSpace, hhead, srcRead_host 0 engLock _ 64 hok hlen]
  simp only [hread, Option.filter_some, hrestorable, if_true]
  rfl

theorem fixedOf_restoreBegun (s : State) (h : Held) (m : ImgHead) : fixedOf (restoreBegun s h m) = fixedOf s := fixedOf_same rfl

theorem kept_restoreBegun {t : State} {m : ImgHead} (hk : kept t = kept s) : kept (restoreBegun t h m) = kept (restoreBegun s h m) :=
  kept_apply (fun s => restoreBegun s h m) (fun _ => rfl) (fun _ => rfl) (fun _ => rfl) hk

theorem not_restoring {m : ImgHead} (hm : restorable s m = true) : (getSlice s m.slice).state ≠ .restoring := by
  intro hstate
  unfold restorable stateIn at hm
  rw [hstate] at hm
  cases hcontent : m.content <;> simp [hcontent] at hm

/-- An image that has been read is judged (R100). -/
theorem exec_sliceRestoreComplete {j : RestoreJob} (hfind : s.migr.restores.find? (fun j => j.key == Cmd.key c) = some j) (hf : findHeld s (Cmd.key c) = some h)
    (hhead : s.regs.headless = false) (hok : c.ok = true) (hlen : c.data.length = pf h.pkt 32 0 64) :
    exec (.sliceRestoreComplete c) s = .next (restoreImage (restoreTakenOut s (Cmd.key c)) j h.pkt c.data) := by
  have hread := srcRead_host (c := c) (s := restoreTakenOut s (Cmd.key c)) 0 engSluice (pf h.pkt 24 0 64) (pf h.pkt 32 0 64) hok hlen
  have hspace : destSpace (restoreTakenOut s (Cmd.key c)) = false := hhead
  show execSliceRestoreComplete c s = _
  unfold execSliceRestoreComplete; dsimp only
  rw [show s.migr.restores.find? (fun j => j.key == (⟨c.slice, c.ring, c.index⟩ : CmdKey)) = some j from hfind,
    show findHeld s ⟨c.slice, c.ring, c.index⟩ = some h from hf]
  show Host.Outcome.next (match srcRead (restoreTakenOut s (Cmd.key c)) 0 engSluice (destSpace (restoreTakenOut s (Cmd.key c))) c _ _ with
    | (s, none) => endRestore s j .weirDenied []
    | (s, some l) => restoreImage s j h.pkt l) = _
  rw [hspace, hread]

/-- The end of the packet of a key, in a state that agrees with another in what is kept. -/
theorem answers_of_found {k : CmdKey} {t e : State} {g : Held} {i : Instr} {st : Status} {w : Nat} {f : List Field}
    (hexec : exec i s = .next (finishKey t k st w f)) (hkept : kept t = kept e) (hg : findHeld t k = some g) (hs : g.slice = k.slice) :
    Answers i s { slice := k.slice, ring := k.ring, index := k.index } g st w f e := by
  rw [finishKey_of_find hg] at hexec
  refine Answers.of_kept ⟨_, hexec, ?_, finish_replied .., quiet_finish .., fun j hj => ringFixed_finish _ _ _ _ _ j (hs ▸ hj),
    sameBytes_of_outside (outside_finish ..)⟩ hkept
  have hkey : heldKey g = k := heldKey_of_findKey hg hs
  unfold Finished
  show findHeld (finish t g st w (packFields f)) k = none
  rw [← hkey]
  exact findHeld_finish ..

/-- A restore that leaves its slice frozen answers. -/
theorem answers_of_frozen {v : State} {i cause : Nat} {k : CmdKey} {g : Held} {row : Instr} {st : Status} {f : List Field}
    (hexec : exec row s = .next (finishKey (setSliceState v i .frozen cause) k st (nowBits (setSliceState v i .frozen cause)) f))
    (hstate : (getSlice v i).state = .restoring) (hg : findHeld v k = some g) (hs : g.slice = k.slice) :
    Answers row s { slice := k.slice, ring := k.ring, index := k.index } g st (nowBits v) f (modSlice v i fun x => { x with state := .frozen }) := by
  have hnew : (getSlice v i).state ≠ .frozen := fun h => SliceState.noConfusion (h.symm.trans hstate)
  rw [nowBits_of_time (time_setSliceState ..)] at hexec
  exact answers_of_found hexec (kept_setSliceState hnew SliceState.noConfusion cause) ((findHeld_of_fixedOf (fixedOf_setSliceState ..) _).trans hg) hs

theorem endRestore_none {j : RestoreJob} (hslice : j.slice = none) (st : Status) (f : List Field) : endRestore s j st f = finishKey s j.key st (nowBits s) f := by
  unfold endRestore; dsimp only
  rw [hslice]
  exact congrArg _ (List.append_nil f)

theorem endRestore_slice {j : RestoreJob} {i : Nat} (hslice : j.slice = some i) (st : Status) : endRestore s j st [] =
    finishKey (if st = .ok then setSliceState s i .frozen 0 else setSliceState s i (if j.byRef then .frozen else .free) 3) j.key st
      (nowBits (if st = .ok then setSliceState s i .frozen 0 else setSliceState s i (if j.byRef then .frozen else .free) 3)) [fAt 16 0 8 i] := by
  unfold endRestore; dsimp only
  rw [hslice]
  rfl

theorem restoreImage_unread {j : RestoreJob} {p : Packet} {l : List Byte} {k : CmdKey} (hread : readHead s l = none) :
    restoreImage (restoreTakenOut s k) j p l = endRestore (restoreTakenOut s k) j .checkFailed [] := by
  unfold restoreImage
  rw [show readHead (restoreTakenOut s k) l = none from hread]

theorem restoreImage_applied {j : RestoreJob} {p : Packet} {l : List Byte} {m : ImgHead} {b : Image} {t : State} (hread : readHead s l = some m)
    (hbody : readBody m.slice l = .ok b) (hserial : serialOk s m = true) (hslice : j.slice = some m.slice) (href : j.byRef = !m.content)
    (happly : applyImage p m b s = .ok t) : restoreImage s j p l = endRestore t j .ok [] := by
  unfold restoreImage
  simp [hread, hbody, hserial, hslice, href, happly]

end

/-- Settles O52: a save's blocks are the image's chunks in turn, and a restore ends where the slice's record and the image say. -/
theorem sliceMigration : Obligations.SliceMigration := by
  unfold Obligations.SliceMigration
  refine ⟨?taken, ?coding, ?noRoom, ?written, ?begun, ?unread, ?backToFrozen, ?applied⟩
  case taken =>
    intro s c h i n body hr hc hi hcontent hbody hn
    subst hi hbody hn
    rw [← hr.1.key]
    exact hr.1.defers (congrArg Host.Outcome.next ((hr.runPacket rfl hc).trans (actSliceSave_eq hcontent s c))) (fixedOf_same rfl)
  case coding =>
    intro s c j hfind hcoding
    exact (exec_sliceSaveComplete hfind).trans (congrArg _ (if_neg hcoding))
  case noRoom =>
    intro s u c h j body hfind hf hs hcoded hbody hu hlong
    subst hu
    have hexec := exec_sliceSaveComplete hfind
    rw [if_pos hcoded, endSave_noRoom hbody hlong, key_of_findSave hfind] at hexec
    exact answers_of_finishKey hexec rfl rfl hf hs
  case written =>
    intro s u c h j serial body hfind hf hs hcoded hbody hu hfits hserial hhead hok
    subst hu
    have hexec := exec_sliceSaveComplete hfind
    have hkept := kept_imageWritten s j serial body
    rw [key_of_findSave hfind] at hkept
    rw [if_pos hcoded, hok, endSave_written hbody hfits hserial hhead, key_of_findSave hfind] at hexec
    refine ⟨answers_of_finishKey hexec hkept rfl hf hs, _, hexec, ?_⟩
    obtain ⟨hheader, hbytes⟩ := imageWritten_out s j serial body
    exact ⟨out_finishKey hheader .., out_finishKey hbytes ..⟩
  case begun =>
    intro s c h m hr hc hhead hok hlen hread hrestorable
    rw [← hr.1.key]
    have hact : actSliceRestore s h c = _ := actSliceRestore_eq hhead hok hlen hread hrestorable
    refine (hr.1.defers (i := .sliceRestore c) (congrArg Host.Outcome.next ((hr.runPacket rfl hc).trans hact)) ?_).of_kept ?_
    · exact (fixedOf_restoreBegun ..).trans (fixedOf_setSliceState ..)
    · exact kept_restoreBegun (kept_setSliceState (not_restoring hrestorable) SliceState.noConfusion 0)
  case unread =>
    intro s u c h j hfind hkey hf hs hu hhead hok hlen hread hslice
    subst hu
    have hexec := exec_sliceRestoreComplete hfind hf hhead hok hlen
    rw [restoreImage_unread hread, endRestore_none hslice, hkey] at hexec
    exact answers_of_finishKey hexec rfl rfl hf hs
  case backToFrozen =>
    intro s u c h j i hfind hkey hf hs hu hhead hok hlen hread hslice href hstate
    subst hu
    have hexec := exec_sliceRestoreComplete hfind hf hhead hok hlen
    rw [restoreImage_unread hread, endRestore_slice hslice, href, hkey] at hexec
    exact answers_of_frozen hexec hstate hf hs
  case applied =>
    intro s u t' c h g j m b hfind hkey hf hu hhead hok hlen hread hbody hserial hslice href happly hstate hg hs
    have hexec := exec_sliceRestoreComplete hfind hf hhead hok hlen
    rw [show restoreTakenOut s (Cmd.key c) = u from hu.symm, restoreImage_applied hread hbody hserial hslice href happly, endRestore_slice hslice, hkey] at hexec
    exact answers_of_frozen hexec hstate hg hs

end Sys2Proof.Machine
end

section
/-! DisplayPort inputs: settings, states and frames (R283 to R290). -/
namespace Sys2Proof.Machine
open Sys2Proof

/-! What the steps of an input leave of the inputs and of the ledger. -/

theorem getDp_of_kept {s t : State} (h : kept t = kept s) (j : Nat) : getDp t j = getDp s j := read_kept (getDp · j) (fun _ => rfl) h

/-- The inputs and the ledger. -/
def dpView (s : State) : Tab DpIn × LedgerSt := (s.media.dpins, s.ledger)

theorem dpView_of_quiet {s t : State} (h : quiet t = quiet s) : dpView t = dpView s := quiet_eq dpView (fun _ => rfl) h

theorem dpView_endScans (s : State) (lane n : Nat) : dpView (endScans s lane n) = dpView s := by
  refine forEach_same dpView _ _ _ fun e t => ?_
  dsimp only
  split
  · exact (dpView_of_quiet (quiet_finishNow ..)).trans rfl
  · rfl

theorem dpView_loseInput (s : State) (n : Nat) : dpView (loseInput s n) = dpView s :=
  (dpView_of_quiet (quiet_of_kept (kept_loseInput s n))).trans rfl

theorem dpView_dpRefLoss (s : State) (i : Nat) : dpView (dpRefLoss s i) = dpView s :=
  iteInduction (motive := fun t : State => dpView t = dpView s) (fun _ => rfl) fun _ => dpView_loseInput ..

/-- An input in a state. -/
def dpMoved (s : State) (i : Nat) (t : DpState) : State := modDp s i fun d => { d with state := t }

theorem dpView_modDp {s t : State} (h : dpView t = dpView s) (i : Nat) (f : DpIn → DpIn) : dpView (modDp t i f) = dpView (modDp s i f) := by
  have hdpins : t.media.dpins = s.media.dpins := congrArg Prod.fst h
  have hledger : t.ledger = s.ledger := congrArg Prod.snd h
  exact Prod.ext (congrArg (fun x => tmod ({} : DpIn) x i f) hdpins) hledger

theorem getDp_of_view {s t : State} (h : dpView t = dpView s) (j : Nat) : getDp t j = getDp s j := congrArg (fun v : Tab DpIn × LedgerSt => tget ({} : DpIn) v.1 j) h

theorem ledger_of_view {s t : State} (h : dpView t = dpView s) : t.ledger = s.ledger := congrArg Prod.snd h

theorem getEntry_of_view {s t : State} (h : dpView t = dpView s) (j : Nat) : getEntry t j = getEntry s j :=
  congrArg (fun l : LedgerSt => tget ({} : LedgerEntry) l.entries j) (ledger_of_view h)

theorem dpView_dpEnter {s : State} {i : Nat} {t : DpState} (hnew : (getDp s i).state ≠ t) (r : Nat) : dpView (dpEnter s i t r) = dpView (dpMoved s i t) := by
  unfold dpEnter; dsimp only
  rw [if_neg hnew]
  refine (dpView_dpRefLoss ..).trans ((dpView_of_quiet (quiet_of_kept (kept_post ..))).trans (dpView_modDp ?_ ..))
  exact iteInduction (motive := fun u : State => dpView u = dpView s) (fun _ => dpView_endScans ..) fun _ => rfl

/-- An input that enters a state has it, and the other inputs stay (R284). -/
theorem getDp_dpEnter (s : State) (i : Nat) (t : DpState) (r j : Nat) : getDp (dpEnter s i t r) j = if j = i then { getDp s i with state := t } else getDp s j := by
  by_cases hsame : (getDp s i).state = t
  · rw [dpEnter, if_pos hsame, ← hsame]
    split
    · next hj => rw [hj]
    · rfl
  · exact (getDp_of_view (dpView_dpEnter hsame r) j).trans (getDp_modDp ..)

theorem getEntry_dpEnter (s : State) (i : Nat) (t : DpState) (r k : Nat) : getEntry (dpEnter s i t r) k = getEntry s k := by
  by_cases hsame : (getDp s i).state = t
  · rw [dpEnter, if_pos hsame]
  · exact getEntry_of_view ((dpView_dpEnter hsame r).trans rfl) k

theorem getEntry_modDp (s : State) (i : Nat) (f : DpIn → DpIn) (k : Nat) : getEntry (modDp s i f) k = getEntry s k := rfl

theorem getDp_driveHpd (s : State) (i : Nat) (level : Bool) (j : Nat) : getDp (driveHpd s i level) j = if j = i then { getDp s i with hpd := level } else getDp s j := by
  unfold driveHpd
  by_cases hsame : (getDp s i).hpd = level
  · rw [if_pos hsame, ← hsame]
    split
    · next hj => rw [hj]
    · rfl
  · rw [if_neg hsame]
    exact getDp_modDp ..

/-- The source of an input's frame in progress is damaged (R287). -/
def frameDamaged (s : State) (i : Nat) : State :=
  match (getDp s i).frame, (getDp s i).source with
  | some _, some src => markDamaged s src
  | _, _ => s

theorem dpAbandon_eq (s : State) (i : Nat) : dpAbandon s i = modDp (frameDamaged s i) i fun d => { d with frame := none } := rfl

theorem getDp_frameDamaged (s : State) (i j : Nat) : getDp (frameDamaged s i) j = getDp s j := by
  unfold frameDamaged
  split <;> rfl

theorem getDp_dpAbandon (s : State) (i j : Nat) : getDp (dpAbandon s i) j = if j = i then { getDp s i with frame := none } else getDp s j := by
  rw [dpAbandon_eq, getDp_modDp, getDp_frameDamaged, getDp_frameDamaged]

theorem getDp_dpNoVideo (s : State) (i j : Nat) : getDp (dpNoVideo s i) j =
    if j = i then { getDp s i with frame := none, enc := 0, hActive := 0, vActive := 0, pixelRate := 0 } else getDp s j := by
  unfold dpNoVideo
  rw [getDp_modDp, getDp_dpAbandon, if_pos rfl, getDp_dpAbandon]
  split <;> rfl

/-- A frame in progress that stops damages its source (R287). -/
theorem getEntry_dpNoVideo {s : State} {i src : Nat} {f : DpFrame} (hframe : (getDp s i).frame = some f) (hsource : (getDp s i).source = some src)
    (hvalid : (getEntry s src).valid = true) : (getEntry (dpNoVideo s i) src).inp.damaged = true := by
  have hnone : getEntry (dpNoVideo s i) src = getEntry (markDamaged s src) src := by
    unfold dpNoVideo
    rw [dpAbandon_eq, frameDamaged, hframe, hsource]
    rfl
  rw [hnone, markDamaged, getEntry_modEntry, if_pos rfl, if_pos hvalid]

/-! Lines and deliveries. -/

theorem sentView_dpins : SentView fun s => s.media.dpins where
  quiet := quiet_eq (·.media.dpins) fun _ => rfl
  exports _ _ _ := rfl
  latches _ _ := rfl
  gauge _ _ := rfl

theorem dpins_dropWrite (s : State) (i e : Nat) (d : Nat × Nat) : (dropWrite s i e d).media.dpins = s.media.dpins := by
  have hdenied : (denyAt s (getSurf s i).owner e true d.2 d.1).media.dpins = s.media.dpins := sentView_dpins.kept (kept_denyAt ..)
  unfold dropWrite; dsimp only
  split
  · exact hdenied
  · exact (show _ = (denyAt s (getSurf s i).owner e true d.2 d.1).media.dpins from rfl).trans hdenied

theorem dpins_planeLine (s : State) (i y : Nat) (data : List Byte) : (planeLine s i y data).media.dpins = s.media.dpins := by
  unfold planeLine; dsimp only
  split
  · exact dpins_dropWrite ..
  · exact (sentView_dpins.gaugeLine ..).trans rfl

theorem dpins_refuseRow (s : State) (i : Nat) (d : Nat × Nat) : (refuseRow s i d).media.dpins = s.media.dpins := by
  have hdenied : (denyAt (abandonRows s i) (getSurf s i).owner engHost true d.2 d.1).media.dpins = s.media.dpins :=
    (sentView_dpins.kept (kept_denyAt ..)).trans rfl
  unfold refuseRow; dsimp only
  split
  · exact ((sentView_dpins.finishKey ..).trans rfl).trans hdenied
  · exact hdenied

theorem dpins_storeRow (s : State) (x : Surface) (r : Nat) (blocks : List (List Byte)) : (storeRow s x r blocks).media.dpins = s.media.dpins :=
  foldl_keeps (fun t : State => t.media.dpins = s.media.dpins) (fun (t : State) (u : Nat) => writeBytes t (u * 256) (List.replicate 256 0)) (fun _ _ h => h) _ _ rfl

theorem dpins_writeTileRow (s : State) (engine lane i r : Nat) (raw : List Byte) (cols : List Nat) :
    (writeTileRow s engine lane i r raw cols).media.dpins = s.media.dpins := by
  unfold writeTileRow; dsimp only
  split
  · refine iteInduction (motive := fun t : State => t.media.dpins = s.media.dpins) (fun _ => dpins_refuseRow ..) fun _ => ?_
    exact (sentView_dpins.exportLines ..).trans ((show _ = (dropWrite s i engine _).media.dpins from rfl).trans (dpins_dropWrite ..))
  · exact (sentView_dpins.exportLines ..).trans ((show _ = (storeRow _ _ r _).media.dpins from rfl).trans ((dpins_storeRow ..).trans rfl))

theorem dpins_offerRow (s : State) (i r : Nat) (raw : List Byte) : (offerRow s i r raw).media.dpins = s.media.dpins := by
  unfold offerRow; dsimp only
  refine (sentView_dpins.gaugeLine ..).trans ?_
  split
  · exact (show _ = (writeTileRow _ _ _ _ _ _ _).media.dpins from rfl).trans ((dpins_writeTileRow ..).trans rfl)
  · rfl

theorem dpins_stageLine (s : State) (i : Nat) (data : List Byte) : (stageLine s i data).media.dpins = s.media.dpins := by
  unfold stageLine; dsimp only
  exact iteInduction (motive := fun t : State => t.media.dpins = s.media.dpins) (fun _ => rfl) fun _ => (dpins_offerRow ..).trans rfl

theorem dpins_modSurf (s : State) (i : Nat) (f : Surface → Surface) : (modSurf s i f).media.dpins = s.media.dpins := rfl

theorem dpins_writerLine (s : State) (i : Nat) (data : List Byte) : (writerLine s i data).media.dpins = s.media.dpins := by
  unfold writerLine; dsimp only
  refine (sentView_dpins.exportLines ..).trans ((dpins_modSurf ..).trans ?_)
  refine iteInduction (motive := fun t : State => t.media.dpins = s.media.dpins) (fun _ => ?_) fun _ => ?_
  · split
    · exact dpins_dropWrite ..
    · have hline := sentView_dpins.gaugeLine (storeUnit s (getSurf s i) (getSurf s i).frontier data) i (getSurf s i).frontier (List.take 4096 data)
      rw [hline]
      rfl
  · exact iteInduction (motive := fun t : State => t.media.dpins = s.media.dpins) (fun _ => (dpins_planeLine ..).trans (dpins_planeLine ..)) fun _ => dpins_planeLine ..

theorem dpins_deliverLine (s : State) (i : Nat) (data : List Byte) : (deliverLine s i data).media.dpins = s.media.dpins := by
  unfold deliverLine; dsimp only
  refine iteInduction (motive := fun t : State => t.media.dpins = s.media.dpins) (fun _ => rfl) fun _ => ?_
  exact iteInduction (motive := fun t : State => t.media.dpins = s.media.dpins) (fun _ => dpins_stageLine ..) fun _ => dpins_writerLine ..

theorem dpins_dpLine (s : State) (i y : Nat) (f : DpFrame) (l : List Nat) : (dpLine s i y f l).media.dpins = s.media.dpins := by
  unfold dpLine; dsimp only
  refine iteInduction (motive := fun t : State => t.media.dpins = s.media.dpins) (fun _ => dpins_deliverLine ..) fun _ => ?_
  refine iteInduction (motive := fun t : State => t.media.dpins = s.media.dpins) (fun _ => dpins_deliverLine ..) fun _ => ?_
  refine iteInduction (motive := fun t : State => t.media.dpins = s.media.dpins) (fun _ => rfl) fun _ => ?_
  exact (sentView_dpins.exportLines ..).trans ((dpins_modSurf ..).trans ((dpins_planeLine ..).trans (dpins_planeLine ..)))

theorem dpins_dpBottom (s : State) (i : Nat) (f : DpFrame) (l : List Nat) : (dpBottom s i f l).media.dpins = s.media.dpins :=
  iteInduction (motive := fun t : State => t.media.dpins = s.media.dpins) (fun _ => forEach_same (·.media.dpins) _ _ s fun _ _ => dpins_dpLine ..) fun _ => rfl

theorem dpins_deliverNow (s : State) (d : Delivery) : (deliverNow s d).media.dpins = s.media.dpins := by
  unfold deliverNow; dsimp only
  split
  · rfl
  · split <;> rfl

theorem dpins_addDelivery (s : State) (d : Delivery) : (addDelivery s d).media.dpins = s.media.dpins := by
  unfold addDelivery completeDeliveries; dsimp only
  split
  · rfl
  · exact iteInduction (motive := fun t : State => t.media.dpins = s.media.dpins) (fun _ => rfl) fun _ => (dpins_deliverNow ..).trans rfl

theorem getDp_of_dpins {s t : State} (h : t.media.dpins = s.media.dpins) (i : Nat) : getDp t i = getDp s i := congrArg (fun d => tget ({} : DpIn) d i) h

/-- The last line of a frame has been written: the frame's arrival is to be recorded (R286). -/
def dpFrameEnded (s : State) (i src : Nat) (f : DpFrame) : State :=
  let s := modDp s i fun d => { d with frame := none }
  addDelivery s { source := src, surf := f.surf, pass := (getSurf s f.surf).pass, height := f.height, origin := f.origin, damaged := f.damaged }

theorem getDp_dpFrameEnded (s : State) (i src : Nat) (f : DpFrame) : getDp (dpFrameEnded s i src f) i = { getDp s i with frame := none } :=
  (getDp_of_dpins (dpins_addDelivery ..) i).trans ((getDp_modDp ..).trans (if_pos rfl))

theorem dpVideoState_of_source {s t : State} {i : Nat} (hsource : (getDp t i).source = (getDp s i).source) (hrest : (t.ledger, t.slices) = (s.ledger, s.slices))
    (bad : Bool) : dpVideoState t i bad = dpVideoState s i bad := by
  have hledger : t.ledger = s.ledger := congrArg Prod.fst hrest
  have hslices : t.slices = s.slices := congrArg Prod.snd hrest
  unfold dpVideoState intakeStopped getEntry getSlice
  rw [hsource, hledger, hslices]

/-! The start of a frame (R286, R287). -/

/-- What a frame's start tells of its video is the input's (R289). -/
def dpMeasured (s : State) (i : Nat) (m : Msa) : State :=
  modDp s i fun d => { d with frame := none, enc := dpEncoding m, hActive := m.hActive, vActive := m.vActive, pixelRate := m.rate }

/-- A frame's pass begins in a buffer (R286). -/
def dpFrameBegun (s : State) (i src b : Nat) (m : Msa) : State :=
  let s := setPassSize (beginPass s b) b m.hActive m.vActive
  let s := captureSource s src b
  modDp s i fun d => { d with
    frame := some { surf := b, origin := lineOf (now s), width := m.hActive, height := m.vActive, bpc := m.bpc, ycc := dpEncoding m == 4 } }

/-- An input with video that comes to receive, or stays so, changes nothing but its record (R284, R291). -/
theorem dpEnter_receiving_same {β : Type} (g : State → β) (hquiet : ∀ s, g (quiet s) = g s) (hdp : ∀ s i f, g (modDp s i f) = g s) {s : State} {i : Nat}
    (r : Nat) : g (dpEnter s i .receiving r) = g s := by
  unfold dpEnter; dsimp only
  refine iteInduction (motive := fun t : State => g t = g s) (fun _ => rfl) fun _ => ?_
  rw [show (dpTrained (getDp s i).state && !dpTrained .receiving) = false from Bool.and_false _]
  have hpost : kept (postDp (modDp s i fun d => { d with state := .receiving }) i r) = kept (modDp s i fun d => { d with state := .receiving }) := kept_post ..
  have hreceiving : (getDp (postDp (modDp s i fun d => { d with state := .receiving }) i r) i).state = .receiving := by
    rw [getDp_of_kept hpost, getDp_modDp, if_pos rfl]
  have hstays : dpRefLoss (postDp (modDp s i fun d => { d with state := .receiving }) i r) i = postDp (modDp s i fun d => { d with state := .receiving }) i r := by
    unfold dpRefLoss
    rw [hreceiving]; rfl
  exact (congrArg g hstays).trans ((read_kept g hquiet hpost).trans (hdp ..))

theorem dpFrameBegun_leaves (s : State) (i src b : Nat) (m : Msa) :
    getDp (dpFrameBegun s i src b m) i = { getDp s i with
        frame := some { surf := b, origin := lineOf (now s), width := m.hActive, height := m.vActive, bpc := m.bpc, ycc := dpEncoding m == 4 } } ∧
      (getSurf (dpFrameBegun s i src b m) b).pass = ((getSurf s b).pass + 1) % 2 ^ 16 ∧ (getSurf (dpFrameBegun s i src b m) b).frontier = 0 := by
  have hbegun : getSurf (setPassSize (beginPass s b) b m.hActive m.vActive) b =
      { startPass (getSurf s b) with began := s.store.passSeq + 1, trueW := m.hActive, trueH := m.vActive } := by
    unfold setPassSize beginPass
    rw [getSurf_modSurf, if_pos rfl, getSurf_modSurf, if_pos rfl]
    rfl
  have hdpins := SentView.captureSource sentView_dpins (fun _ _ _ => rfl) (setPassSize (beginPass s b) b m.hActive m.vActive) src b
  have hintake := SentView.captureSource sentView_intake (fun _ _ _ => rfl) (setPassSize (beginPass s b) b m.hActive m.vActive) src b
  have htime := SentView.captureSource sentView_time (fun _ _ _ => rfl) (setPassSize (beginPass s b) b m.hActive m.vActive) src b
  unfold dpFrameBegun; dsimp only
  generalize captureSource (setPassSize (beginPass s b) b m.hActive m.vActive) src b = t at *
  have hsurf : getSurf t b = getSurf (setPassSize (beginPass s b) b m.hActive m.vActive) b :=
    congrArg (fun v : Tab Import × Tab Surface => tget ({} : Surface) v.2 b) hintake
  have hnow : now t = now s := by
    rw [now, now, htime]; rfl
  refine ⟨?_, ?_, ?_⟩
  · rw [getDp_modDp, if_pos rfl, getDp_of_dpins hdpins, hnow]
    rfl
  · show (getSurf t b).pass = _
    rw [hsurf, hbegun]; rfl
  · show (getSurf t b).frontier = _
    rw [hsurf, hbegun]; rfl

theorem exec_dpinFrameStart {s : State} {i src : Nat} {m : Msa} (hi : i < 4) (hstate : (getDp s i).state = .held ∨ (getDp s i).state = .receiving)
    (hlock : (getDp s i).lock = true) (hsource : (getDp s i).source = some src) : exec (.dpinFrameStart i m) s =
    .next (
      let why := dpUnfit (getSource s src) m
      let u := if why ≠ 0 ∧ !intakeStopped s (getEntry s src).owner then markUnfit (dpMeasured s i m) src why 3 else dpMeasured s i m
      let t := dpVideoState u i (why != 0)
      let v := dpEnter u i t (if why ≠ 0 then 7 else 0)
      if t = .held then v
      else match dpBuffer v src with
        | none => modDp v i fun d => { d with dropped := d.dropped + 1 }
        | some b => dpFrameBegun v i src b m) := by
  have hgo : ¬ (!decide (i < 4) || !((getDp s i).state == .held || (getDp s i).state == .receiving) || !(getDp s i).lock) = true := by
    obtain h | h := hstate <;> simp [h, hi, hlock]
  refine congrArg Host.Outcome.next ((if_neg hgo).trans ?_)
  dsimp only
  rw [hsource]
  rfl

/-! A packet's settings (R288, R289). -/

theorem dpins_regRead (s : State) (off size : Nat) : (regRead s off size).1.media.dpins = s.media.dpins := by
  have hgauge : (latchGauge s off).media.dpins = s.media.dpins := by unfold latchGauge; split <;> rfl
  unfold regRead
  split
  · exact iteInduction (motive := fun r : State × Nat => r.1.media.dpins = s.media.dpins) (fun _ => hgauge) fun _ => hgauge
  · rfl
  · split
    · split <;> rfl
    · rfl

theorem dpins_weirRead (s : State) (a n : Nat) : (weirRead s a n).1.media.dpins = s.media.dpins := by
  unfold weirRead
  cases hreg : inRegSpace a with
  | true => exact regReads_same (·.media.dpins) regRead dpins_regRead a n _ (s, [])
  | false => exact quiet_eq (·.media.dpins) (fun _ => rfl) (quiet_noteRead ..)

theorem dpins_srcRead (s : State) (slice e : Nat) (space : Bool) (c : Cmd) (a n : Nat) : (srcRead s slice e space c a n).1.media.dpins = s.media.dpins := by
  have hdenied : ∀ u r w, (denyAt s slice e u r w).media.dpins = s.media.dpins := fun u r w => sentView_dpins.kept (kept_denyAt ..)
  unfold srcRead storeRead
  refine iteInduction (motive := fun x : State × Option (List Byte) => x.1.media.dpins = s.media.dpins) (fun _ => ?_) fun _ => ?_
  · split
    · exact dpins_weirRead s a n
    · exact hdenied ..
  · exact iteInduction (motive := fun x : State × Option (List Byte) => x.1.media.dpins = s.media.dpins) (fun _ => rfl) fun _ => hdenied ..

/-- What DPIN_CONFIGURE makes of an input (R288, R289). -/
def dpConfigured (d : DpIn) (now_ : Nat) (p : Packet) (edid : Option (List Byte)) : DpIn :=
  let x := { d with maxLanes := 2 ^ pf p 17 0 2, maxRate := pf p 17 2 2, edid := edid.getD d.edid, enable := pb p 16 2 }
  let off : DpIn := { x with frame := none, enc := 0, hActive := 0, vActive := 0, pixelRate := 0, lanes := 0, rate := 0, video := false, lock := true }
  if pb p 16 2 = false then { off with pulse := false, attempt := 0, hpd := false, state := .disabled }
  else if d.state = .disabled then { x with attempt := 0, hpd := true, state := .waiting }
  else if edid.isSome then { off with pulse := true, pulseAt := now_, state := .waiting, hpd := false }
  else x

/-- An input's limits, EDID and enable are stored (R288, R289). -/
def dpStored (s : State) (i : Nat) (p : Packet) (edid : Option (List Byte)) : State :=
  modDp s i fun d => { d with maxLanes := 2 ^ pf p 17 0 2, maxRate := pf p 17 2 2, edid := edid.getD d.edid, enable := pb p 16 2 }

/-- The video of an input ends, and its link (R288). -/
def dpOff (s : State) (i : Nat) : State := modDp (dpNoVideo s i) i fun d => { d with lanes := 0, rate := 0, video := false, lock := true }

theorem applyDpin_eq (s : State) (i : Nat) (p : Packet) (edid : Option (List Byte)) : applyDpin s i p edid =
    let u := dpStored s i p edid
    if !pb p 16 2 then dpEnter (driveHpd (modDp (dpOff u i) i fun d => { d with pulse := false, attempt := 0 }) i false) i .disabled 0
    else if (getDp s i).state = .disabled then dpEnter (driveHpd (modDp u i fun d => { d with attempt := 0 }) i true) i .waiting 0
    else if edid.isSome then
      dpRefLoss (postDp (driveHpd (modDp (dpOff u i) i fun d => { d with pulse := true, pulseAt := upTime u, state := .waiting }) i false) i 4) i
    else if ((getDp s i).maxLanes != 2 ^ pf p 17 0 2 || (getDp s i).maxRate != pf p 17 2 2) && dpTrained (getDp s i).state then emit u (.link (16 + i) 2) else u := rfl

theorem getDp_dpOff (s : State) (i j : Nat) : getDp (dpOff s i) j =
    if j = i then { getDp s i with
      frame := none, enc := 0, hActive := 0, vActive := 0, pixelRate := 0, lanes := 0, rate := 0, video := false, lock := true }
    else getDp s j := by
  unfold dpOff
  rw [getDp_modDp, getDp_dpNoVideo, if_pos rfl, getDp_dpNoVideo]
  split <;> rfl

theorem getDp_applyDpin (s : State) (i : Nat) (p : Packet) (edid : Option (List Byte)) (j : Nat) :
    getDp (applyDpin s i p edid) j = if j = i then dpConfigured (getDp s i) (upTime s) p edid else getDp s j := by
  have hstored (k : Nat) : getDp (dpStored s i p edid) k = if k = i then { getDp s i with
      maxLanes := 2 ^ pf p 17 0 2, maxRate := pf p 17 2 2, edid := edid.getD (getDp s i).edid, enable := pb p 16 2 } else getDp s k := getDp_modDp ..
  rw [applyDpin_eq, dpConfigured]
  dsimp only
  by_cases henable : pb p 16 2 = true
  · rw [henable] at hstored
    rw [henable, if_neg (show ¬ (!true) = true from Bool.noConfusion), if_neg (show ¬ true = false from Bool.noConfusion)]
    by_cases hstate : (getDp s i).state = .disabled
    · rw [if_pos hstate, if_pos hstate]
      simp only [getDp_dpEnter, getDp_driveHpd, getDp_modDp, hstored, if_true]
      split <;> rfl
    · rw [if_neg hstate, if_neg hstate]
      by_cases hedid : edid.isSome = true
      · rw [if_pos hedid, if_pos hedid, getDp_of_view (dpView_dpRefLoss ..), postDp, getDp_of_kept (kept_post ..)]
        simp only [getDp_driveHpd, getDp_modDp, getDp_dpOff, hstored, if_true]
        split <;> rfl
      · rw [if_neg hedid, if_neg hedid]
        have hsent := iteInduction (motive := fun t : State => getDp t j = getDp (dpStored s i p edid) j) (c := (((getDp s i).maxLanes != 2 ^ pf p 17 0 2 ||
          (getDp s i).maxRate != pf p 17 2 2) && dpTrained (getDp s i).state) = true) (t := emit (dpStored s i p edid) (.link (16 + i) 2)) (fun _ => rfl) fun _ => rfl
        rw [hsent, hstored]
  · have hoff : pb p 16 2 = false := eq_false_of_ne_true henable
    rw [hoff] at hstored
    rw [hoff, if_pos (show (!false) = true from rfl), if_pos (show false = false from rfl)]
    simp only [getDp_dpEnter, getDp_driveHpd, getDp_modDp, getDp_dpOff, hstored, if_true]
    split <;> rfl

/-- DPIN_CONFIGURE's reply (R289). -/
def dpAnswered (s : State) (i : Nat) (h : Held) : State :=
  let d := getDp s i
  finishNow s h .ok [fAt 16 0 8 (dpCode d.state), fAt 17 0 8 d.lanes, fAt 18 0 8 d.rate, fAt 19 0 8 d.enc, fAt 20 0 16 d.hActive,
    fAt 22 0 16 d.vActive, fAt 24 0 32 d.pixelRate]

theorem getDp_dpAnswered (s : State) (i : Nat) (h : Held) (j : Nat) : getDp (dpAnswered s i h) j = getDp s j := quiet_eq (getDp · j) (fun _ => rfl) (quiet_finishNow ..)

theorem actDpin_loaded {s u : State} {c : Cmd} {h : Held} {l : List Byte} (hload : pb h.pkt 16 3 = true)
    (hsrc : srcRead s h.slice engLock (pb h.pkt 16 4) c (pf h.pkt 24 0 64) (pf h.pkt 18 0 16) = (u, some l)) (hgood : edidGood l = true) :
    actDpin s h c = dpAnswered (applyDpin u (pf h.pkt 16 0 2) h.pkt (some l)) (pf h.pkt 16 0 2) h := by
  unfold actDpin; dsimp only
  rw [if_pos hload, hsrc]
  exact if_pos hgood

/-- What DPIN_CONFIGURE's fields make of an input, one by one (R288, R289). -/
theorem dpConfigured_leaves (d : DpIn) (n : Nat) (p : Packet) (load : Bool) (l : List Byte) :
    let d' := dpConfigured d n p (if load then some l else none)
    d'.enable = pb p 16 2 ∧ d'.maxLanes = 2 ^ pf p 17 0 2 ∧ d'.maxRate = pf p 17 2 2 ∧ d'.edid = (if load then l else d.edid) ∧ d'.source = d.source ∧
      (pb p 16 2 = false → d'.state = .disabled ∧ d'.hpd = false ∧ d'.frame = none) ∧
      (pb p 16 2 = true → d.state = .disabled → d'.state = .waiting ∧ d'.hpd = true) ∧
      (pb p 16 2 = true → d.state ≠ .disabled → load = true → d'.state = .waiting ∧ d'.hpd = false ∧ d'.pulse = true) ∧
      (pb p 16 2 = true → d.state ≠ .disabled → load = false → d'.state = d.state ∧ d'.hpd = d.hpd) := by
  unfold dpConfigured
  cases load <;> cases henable : pb p 16 2 <;> by_cases hstate : d.state = .disabled <;> simp [hstate]

/-- Settles O28: every step of an input writes its record and its source's entry alone, and what follows from a change reads them. -/
theorem displayPortInputs : Obligations.DisplayPortInputs := by
  unfold Obligations.DisplayPortInputs
  refine ⟨?configure, ?pulse, ?training, ?trained, ?failed, ?videoOn, ?videoOff, ?lockLoss, ?lockRegained, ?symbol, ?frame, ?unfit, ?line⟩
  case configure =>
    intro s u c h l hr hc i load hread
    obtain ⟨v, edid, hv, hedid, hact⟩ : ∃ v edid, v.media.dpins = s.media.dpins ∧ edid = (if load then some l else none) ∧
        actDpin s h c = dpAnswered (applyDpin v i h.pkt edid) i h := by
      by_cases hload : pb h.pkt 16 3 = true
      · obtain ⟨hsrc, hgood⟩ := hread hload
        refine ⟨u, some l, ?_, (if_pos hload).symm, ?_⟩
        · exact (congrArg (fun x : State × Option (List Byte) => x.1.media.dpins) hsrc).symm.trans (dpins_srcRead ..)
        · exact actDpin_loaded hload hsrc hgood
      · exact ⟨s, none, rfl, (if_neg hload).symm, if_neg hload⟩
    have hget (j : Nat) : getDp (dpAnswered (applyDpin v i h.pkt edid) i h) j = if j = i then dpConfigured (getDp s i) (upTime v) h.pkt edid else getDp s j := by
      rw [getDp_dpAnswered, getDp_applyDpin, getDp_of_dpins hv, getDp_of_dpins hv]
    refine ⟨_, congrArg Host.Outcome.next ((hr.runPacket rfl hc).trans hact), hr.1.finished .., ?_, fun j hj => (hget j).trans (if_neg hj)⟩
    dsimp only
    rw [(hget i).trans (if_pos rfl), hedid]
    exact dpConfigured_leaves ..
  case pulse =>
    intro s i hpulse htime
    refine ⟨_, congrArg Host.Outcome.next (if_pos (by rw [hpulse, htime]; rfl)), ?_⟩
    simp [getDp_driveHpd]
  case training =>
    intro s i hstate hhpd
    have hgo : ¬ (!((getDp s i).state == .waiting || dpTrained (getDp s i).state) || !(getDp s i).hpd) = true := by
      obtain hw | ht := hstate
      · simp [hw, hhpd]
      · simp [ht, hhpd]
    refine ⟨_, congrArg Host.Outcome.next (if_neg hgo), ?_⟩
    dsimp only
    rw [getDp_dpEnter, if_pos rfl, getDp_modDp, if_pos rfl, getDp_dpNoVideo, if_pos rfl]
    exact ⟨rfl, rfl, rfl, rfl, rfl⟩
  case trained =>
    intro s i lanes rate hstate hcount hlanes hrate
    have hgo : ¬ (!([1, 2, 4].contains lanes) || decide ((getDp s i).maxLanes < lanes) || decide ((getDp s i).maxRate < rate)) = true := by
      have hmem : [1, 2, 4].contains lanes = true := by obtain rfl | rfl | rfl := hcount <;> rfl
      rw [hmem]
      simp [Nat.not_lt.2 hlanes, Nat.not_lt.2 hrate]
    refine ⟨_, congrArg Host.Outcome.next ((if_neg (by simp [hstate])).trans ((if_pos rfl).trans (if_neg hgo))), ?_⟩
    dsimp only
    rw [getDp_dpEnter, if_pos rfl, getDp_modDp, if_pos rfl]
    exact ⟨rfl, rfl, rfl, rfl⟩
  case failed =>
    intro s i r lanes rate hstate hr
    refine ⟨_, congrArg Host.Outcome.next ((if_neg (by simp [hstate])).trans ((if_neg (by omega)).trans (if_pos (by omega)))), ?_⟩
    dsimp only
    rw [getDp_dpEnter, if_pos rfl]
  case videoOn =>
    intro s i hlock hstate
    refine ⟨_, congrArg Host.Outcome.next ((if_neg (by simp [hstate, hlock, dpTrained])).trans ((if_pos rfl).trans (if_pos hstate))), ?_⟩
    dsimp only
    rw [getDp_dpEnter, if_pos rfl, getDp_modDp, if_pos rfl]
    exact ⟨rfl, rfl⟩
  case videoOff =>
    intro s i hlock hstate
    have hgo : dpTrained (getDp s i).state = true ∧ (getDp s i).state ≠ .noVideo := by
      obtain h | h := hstate <;> rw [h] <;> exact ⟨rfl, DpState.noConfusion⟩
    refine ⟨_, congrArg Host.Outcome.next ((if_neg (by simp [hgo.1, hlock])).trans ((if_neg Bool.false_ne_true).trans (if_neg hgo.2))), ?_⟩
    dsimp only
    rw [getDp_dpEnter, if_pos rfl, getDp_modDp, if_pos rfl]
    exact ⟨rfl, rfl, rfl, rfl⟩
  case lockLoss =>
    intro s i htrained hlock
    have hcounted (s : State) (l : List Nat) : dpView (forEach l (fun n s => bump s 5 (60 + 4 * i + n) 4 1) s) = dpView s := forEach_same dpView _ _ s fun _ _ => rfl
    have hview := hcounted s (List.range (getDp s i).lanes)
    refine ⟨_, congrArg Host.Outcome.next (if_pos (by rw [htrained, hlock]; rfl)), ?_⟩
    dsimp only
    generalize forEach (List.range (getDp s i).lanes) (fun n s => bump s 5 (60 + 4 * i + n) 4 1) s = u at hview ⊢
    rw [getDp_dpEnter, if_pos rfl, getDp_modDp, if_pos rfl, getDp_dpNoVideo, if_pos rfl]
    refine ⟨rfl, rfl, rfl, fun f src hframe hsource hvalid => ?_⟩
    rw [← getDp_of_view hview] at hframe hsource
    rw [← getEntry_of_view hview] at hvalid
    rw [getEntry_dpEnter]
    rw [getEntry_modDp]
    exact getEntry_dpNoVideo hframe hsource hvalid
  case lockRegained =>
    intro s i hstate hlock
    have hrun : exec (.dpinLockRegained i) s = .next (if (getDp s i).video then
        dpEnter (modDp s i fun d => { d with lock := true }) i (dpVideoState (modDp s i fun d => { d with lock := true }) i false) 5
      else modDp s i fun d => { d with lock := true }) := congrArg Host.Outcome.next (if_neg (by simp [hstate, hlock]))
    have hsource : (getDp (modDp s i fun d => { d with lock := true }) i).source = (getDp s i).source := by rw [getDp_modDp, if_pos rfl]
    refine ⟨_, hrun, ?_⟩
    by_cases hvideo : (getDp s i).video = true
    · dsimp only
      rw [if_pos hvideo, if_pos hvideo, getDp_dpEnter, if_pos rfl, getDp_modDp, if_pos rfl]
      exact ⟨rfl, dpVideoState_of_source hsource rfl false⟩
    · dsimp only
      rw [if_neg hvideo, if_neg hvideo, getDp_modDp, if_pos rfl]
      exact ⟨rfl, hstate⟩
  case symbol =>
    intro s i lane src disparity f hframe hsource
    have hrun : exec (.dpinSymbolError ⟨i, lane, disparity⟩) s =
        .next (modDp (markDamaged (bump s 5 (60 + 4 * i + lane) disparity.toNat 1) src) i fun d => { d with frame := some { f with damaged := true } }) := by
      show execDpinSymbolError ⟨i, lane, disparity⟩ s = _
      unfold execDpinSymbolError
      dsimp only
      rw [show (getDp (bump s 5 (60 + 4 * i + lane) disparity.toNat 1) i).frame = some f from hframe,
        show (getDp (bump s 5 (60 + 4 * i + lane) disparity.toNat 1) i).source = some src from hsource]
    refine ⟨_, hrun, ?_, fun hvalid => ?_⟩
    · rw [getDp_modDp, if_pos rfl]
    · have hvalid' : (getEntry (bump s 5 (60 + 4 * i + lane) disparity.toNat 1) src).valid = true := hvalid
      show (getEntry (markDamaged (bump s 5 (60 + 4 * i + lane) disparity.toNat 1) src) src).inp.damaged = true
      rw [markDamaged, getEntry_modEntry, if_pos rfl, if_pos hvalid']
  case frame =>
    intro s i src b m hi hstate hlock hsource hunfit hvideo hbuffer
    have hmeasured : (getDp (dpMeasured s i m) i) = { getDp s i with
        frame := none, enc := dpEncoding m, hActive := m.hActive, vActive := m.vActive, pixelRate := m.rate } := (getDp_modDp ..).trans (if_pos rfl)
    have hreceiving : dpVideoState (dpMeasured s i m) i false = .receiving :=
      (dpVideoState_of_source (congrArg DpIn.source hmeasured :) rfl false).trans hvideo
    have hsame (β : Type) (g : State → β) (hquiet : ∀ s, g (quiet s) = g s) (hdp : ∀ s i f, g (modDp s i f) = g s) :
        g (dpEnter (dpMeasured s i m) i .receiving 0) = g s :=
      (dpEnter_receiving_same g hquiet hdp 0).trans (hdp ..)
    have hfound := (hsame _ (dpBuffer · src) (fun _ => rfl) fun _ _ _ => rfl).trans hbuffer
    have hrun : exec (.dpinFrameStart i m) s = .next (dpFrameBegun (dpEnter (dpMeasured s i m) i .receiving 0) i src b m) := by
      rw [exec_dpinFrameStart hi hstate hlock hsource]
      dsimp only
      rw [hunfit, if_neg (show ¬ ((0 : Nat) ≠ 0 ∧ (!intakeStopped s (getEntry s src).owner) = true) from fun h => h.1 rfl),
        show ((0 : Nat) != 0) = false from rfl, hreceiving, if_neg (show DpState.receiving ≠ .held from DpState.noConfusion),
        if_neg (show ¬ (0 : Nat) ≠ 0 from fun h => h rfl), hfound]
    have htime := hsame _ (·.time) (fun _ => rfl) fun _ _ _ => rfl
    have hsurf := hsame _ (getSurf · b) (fun _ => rfl) fun _ _ _ => rfl
    have hdp := getDp_dpEnter (dpMeasured s i m) i .receiving 0 i
    rw [if_pos rfl, hmeasured] at hdp
    generalize dpEnter (dpMeasured s i m) i .receiving 0 = v at *
    obtain ⟨hinput, hpass, hfrontier⟩ := dpFrameBegun_leaves v i src b m
    refine ⟨_, hrun, ?_⟩
    dsimp only
    rw [hinput, hdp, hpass, hfrontier, hsurf, now, now, htime]
    exact ⟨rfl, rfl, rfl, rfl, rfl, rfl⟩
  case unfit =>
    intro s i src m hi hstate hlock hsource hunfit hintake hvalid hfit
    have hmeasured : (getDp (markUnfit (dpMeasured s i m) src (dpUnfit (getSource s src) m) 3) i) = { getDp s i with
        frame := none, enc := dpEncoding m, hActive := m.hActive, vActive := m.vActive, pixelRate := m.rate } := (getDp_modDp ..).trans (if_pos rfl)
    have hheld : dpVideoState (markUnfit (dpMeasured s i m) src (dpUnfit (getSource s src) m) 3) i true = .held := by
      unfold dpVideoState
      rw [hmeasured]
      dsimp only
      rw [hsource]
      rfl
    have hrun : exec (.dpinFrameStart i m) s = .next (dpEnter (markUnfit (dpMeasured s i m) src (dpUnfit (getSource s src) m) 3) i .held 7) := by
      rw [exec_dpinFrameStart hi hstate hlock hsource]
      dsimp only
      rw [if_pos (show dpUnfit (getSource s src) m ≠ 0 ∧ (!intakeStopped s (getEntry s src).owner) = true from ⟨hunfit, by rw [hintake]; rfl⟩), show (dpUnfit (getSource s src) m != 0) = true by simpa using hunfit, hheld, if_pos rfl, if_pos hunfit]
    have hentry : getEntry (markUnfit (dpMeasured s i m) src (dpUnfit (getSource s src) m) 3) src =
        { getEntry s src with unfitReason := dpUnfit (getSource s src) m, inp := { (getEntry s src).inp with unfit := true, reason := 3 } } := by
      rw [markUnfit, getEntry_modEntry, if_pos rfl]
      exact if_neg (by simp [show getEntry (dpMeasured s i m) src = getEntry s src from rfl, hvalid, hfit])
    refine ⟨_, hrun, ?_⟩
    dsimp only
    rw [getDp_dpEnter, if_pos rfl, hmeasured, getEntry_dpEnter, hentry]
    exact ⟨rfl, rfl, rfl, rfl⟩
  case line =>
    intro s i src f px hframe hsource
    have hrun : exec (.dpinActiveLine i px) s = .next (
        if f.line + 1 < f.height then modDp (dpLine s f.surf f.line f (px.take f.width)) i fun d => { d with frame := some { f with line := f.line + 1 } }
        else dpFrameEnded (dpBottom (dpLine s f.surf f.line f (px.take f.width)) f.surf f (px.take f.width)) i src f) := by
      show execDpinActiveLine i px s = _
      unfold execDpinActiveLine
      dsimp only
      rw [hframe, hsource]
      rfl
    refine ⟨fun hmore => ⟨_, hrun, ?_⟩, fun hlast => ⟨_, hrun, ?_⟩⟩
    · dsimp only
      rw [if_pos hmore, getDp_modDp, if_pos rfl]
    · dsimp only
      rw [if_neg (Nat.not_lt.2 hlast), getDp_dpFrameEnded, getDp_of_dpins (dpins_dpBottom ..), getDp_of_dpins (dpins_dpLine ..)]
      exact ⟨rfl, rfl⟩

end Sys2Proof.Machine
end

section
/-! What the work around an output's lines keeps (R43 to R47, R174, R179, R203, R222 to R230, R252). -/
namespace Sys2Proof.Machine
open Sys2Proof

/-- What an output's frame and line are told by: its state, its settings, its place and its underflows. -/
def outCore (x : OutputSt) : OutputSt :=
  { state := x.state, cfg := x.cfg, inFrame := x.inFrame, start := x.start, line := x.line, frame := x.frame, under := x.under }

/-- The layers of a slot shown and in force. -/
def slotCore (x : Slot) : LayerImage × LayerImage := (x.shown, x.active)

/-- What the work around an output's lines may touch only as `ScanKept` says. -/
def lineView (s : State) : Tab OutputSt × Tab Slot × List Output × List (Nat × Byte) := (s.scan.outputs, s.comp.slots, s.out, s.store.mem)

/-- A property of states that rests on the outputs, the slots, what was sent and the store alone, and outlasts what is sent, what is stored,
and each change of an output or a slot that leaves its core. -/
structure ScanKept (P : State → Prop) : Prop where
  same : ∀ {s t : State}, P s → lineView t = lineView s → P t
  emit : ∀ {s : State} (o : Output), P s → P (emit s o)
  write : ∀ {s : State} (a : Nat) (l : List Byte), P s → P (writeBytes s a l)
  output : ∀ {s : State} (o : Nat) (f : OutputSt → OutputSt), (∀ x, outCore (f x) = outCore x) → P s → P (modOut s o f)
  slot : ∀ {s : State} (k : Nat) (f : Slot → Slot), (∀ x, slotCore (f x) = slotCore x) → P s → P (modSlot s k f)

namespace ScanKept

variable {P : State → Prop} {s : State} (k : ScanKept P)
include k

theorem steady : Steady P where
  emit _ o h := k.emit o h
  tod _ _ _ h := k.same h rfl
  noRoute _ _ h := k.same h rfl
  vectors _ _ h := k.same h rfl
  violation _ _ h := k.same h rfl
  count _ _ _ _ _ h := k.same h rfl
  rings _ _ _ _ h := k.same h rfl
  entry _ _ _ _ _ _ h := k.write _ _ h
  block _ _ _ _ h := k.write _ _ h

/-! Replies, events and faults. -/

theorem postEvent (i b : Nat) (h : P s) : P (postEvent s i b) := k.steady.postEvent i b h

theorem denyAt (i e : Nat) (w : Bool) (r a : Nat) (h : P s) : P (denyAt s i e w r a) := k.steady.denyAt i e w r a h

theorem routePkt (a : Option Nat) (p : Pkt) (h : P s) : P (routePkt s a p) := k.steady.routePkt a p h

theorem finish (x : Held) (st : Status) (wp detail : Nat) (h : P s) : P (finish s x st wp detail) := by
  unfold Machine.finish; dsimp only
  refine iteInduction (motive := P) (fun _ => k.same h rfl) fun _ => k.steady.sendReply _ _ (k.same h rfl)

theorem finishKey (c : CmdKey) (st : Status) (wp : Nat) (f : List Field) (h : P s) : P (finishKey s c st wp f) := by
  unfold Machine.finishKey
  split
  · exact k.finish _ _ _ _ h
  · exact h

theorem modCarry (o : Nat) (f : Carry → Carry) (h : P s) : P (modCarry s o f) := k.same h rfl

theorem setLedger (l : LedgerSt) (h : P s) : P { s with ledger := l } := k.same h rfl

theorem setBank (b : BankSt) (h : P s) : P { s with bank := b } := k.same h rfl

theorem setComp (m : Tab (List LayerMap)) (h : P s) : P { s with comp := { s.comp with maps := m } } := k.same h rfl

theorem modEntry (i : Nat) (f : LedgerEntry → LedgerEntry) (h : P s) : P (modEntry s i f) := k.same h rfl

theorem modSession (n : Nat) (f : Session → Session) (h : P s) : P (modSession s n f) := k.same h rfl

theorem modSurf (i : Nat) (f : Surface → Surface) (h : P s) : P (modSurf s i f) := k.same h rfl

theorem noteRead (a n c : Nat) (h : P s) : P (noteRead s a n c) := by
  refine iteInduction (motive := P) (fun _ => h) fun _ => Steady.forEach (fun u t ht => ?_) _ h
  exact iteInduction (motive := P) (fun _ => ht) fun _ => k.postEvent _ _ (k.same ht rfl)

theorem addFault (kind unit detail : Nat) (h : P s) : P (addFault s kind unit detail) := by
  unfold Machine.addFault; dsimp only
  have halert : ∀ b : BootSt, P (assertAlert { s with boot := b }) := fun b => k.emit _ (k.same h rfl)
  exact iteInduction (motive := P) (fun _ => k.postEvent _ _ (halert _)) fun _ => k.same (halert _) rfl

/-! Time that passes (R40, R43). -/

theorem clearStill (i : Nat) (h : P s) : P (clearStill s i) := k.same h rfl

theorem evalEntry (w : Wp) (i : Nat) (h : P s) : P (evalEntry w i s) := by
  refine iteInduction (motive := P) (fun _ => h) fun _ => k.modEntry _ _ ?_
  exact iteInduction (motive := P) (fun _ => k.clearStill _ (k.modEntry _ _ h)) fun _ => h

theorem evaluateLine (h : P s) : P (evaluateLine s) := by
  have hsets : ∀ w, P (applySets w s) := fun w => k.same (Steady.forEach (fun l t ht => k.modEntry _ _ ht) _ h) rfl
  have hreports : ∀ w, P (takeReports (applySets w s)) := fun w =>
    Steady.forEach (fun _ _ ht => iteInduction (motive := P) (fun _ => k.modEntry _ _ ht) fun _ => k.modEntry _ _ ht) _ (k.same (hsets w) rfl)
  exact iteInduction (motive := P) (fun _ => h) fun _ => k.setLedger _ (Steady.forEach (fun i t ht => k.evalEntry _ i ht) _ (hreports _))

/-- Time that passes in a wall line keeps it. -/
theorem passTo (w : Wp) (h : P s) : P (passTo s w) := by
  refine iteInduction (motive := P) (fun _ => h) fun _ => ?_
  exact iteInduction (motive := P) (fun _ => k.same (k.evaluateLine h) rfl) fun _ => h

/-! Lines that are sent (R203, R212, R220). -/

theorem refreshCause (o cause : Nat) (h : P s) : P (refreshCause s o cause) :=
  iteInduction (motive := P) (fun _ => k.output _ _ (fun _ => rfl) h) fun _ => h

theorem countLost (g : Draw) (h : P s) : P (countLost s g) := by
  unfold Machine.countLost
  split
  · exact h
  · exact iteInduction (motive := P) (fun _ => h) fun _ => k.modEntry _ _ h

theorem countTiles (g : Draw) (h : P s) : P (countTiles s g) := by
  unfold Machine.countTiles
  split
  · exact k.countLost g h
  · refine iteInduction (motive := P) (fun _ => h) fun _ => Steady.forEach (fun rb t ht => ?_) _ h
    have hcounted := k.modEntry g.desc.source (fun e => { e with degradedTiles := satAdd 16 e.degradedTiles 1 }) ht
    dsimp only
    refine iteInduction (motive := P) (fun _ => ?_) fun _ => iteInduction (motive := P) (fun _ => k.noteRead _ _ _ hcounted) fun _ => k.same hcounted rfl
    split
    · exact k.denyAt _ _ _ _ _ hcounted
    · exact hcounted

/-- The words of a line with the output's state as it was: what the transmitter, FRAME_CRC and the rectangles take. -/
theorem sendWords (o j : Nat) (words : List Nat) (h : P s) : P (sendWords s o j words) := by
  unfold Machine.sendWords; dsimp only
  have hsent : P (if (getOut s o).state = .running then Machine.emit s (.line o j words) else s) :=
    iteInduction (motive := P) (fun _ => k.emit _ h) fun _ => h
  have hcheck : ∀ f : OutputSt → OutputSt, (∀ x, outCore (f x) = outCore x) →
      P (modOut (if (getOut s o).state = .running then Machine.emit s (.line o j words) else s) o f) := fun f hf => k.output _ _ hf hsent
  exact iteInduction (motive := P) (fun _ => k.refreshCause _ _ (hcheck _ fun _ => rfl)) fun _ => hcheck _ fun _ => rfl

theorem sendGap (o j : Nat) (h : P s) : P (sendGap s o j) := k.sendWords _ _ _ (k.output _ _ (fun _ => rfl) h)

theorem sendComposed (o j : Nat) (h : P s) : P (sendComposed s o j) := by
  have hcounted : ∀ l : List Draw, P (forEach l (fun g s => Machine.countTiles s g) s) := fun l => Steady.forEach (fun g t ht => k.countTiles g ht) _ h
  exact k.sendWords _ _ _ (k.modCarry _ _ (k.output _ _ (fun _ => rfl) (hcounted _)))

theorem sendAttributes (o : Nat) (h : P s) : P (sendAttributes s o) :=
  iteInduction (motive := P) (fun _ => h) fun _ => k.emit _ (k.emit _ h)

/-! Bank faults (R222 to R230). -/

theorem postTakeover (t : Takeover) (stranded : Nat) (h : P s) : P (postTakeover s t stranded) := k.postEvent _ _ (k.same h rfl)

theorem postReturn (b result outs clean : Nat) (w : Wp) (h : P s) : P (postReturn s b result outs clean w) := k.postEvent _ _ h

theorem armOutput (b o : Nat) (h : P s) : P (armOutput b o s) :=
  iteInduction (motive := P) (fun _ => k.modCarry _ _ (k.refreshCause _ _ h)) fun _ => k.modCarry _ _ h

theorem failBank (b pipe cause : Nat) (h : P s) : P (failBank s b pipe cause) := k.same h rfl

theorem strand (t : Takeover) (l own : List Nat) (h : P s) : P (strand s t l own) := by
  refine k.postTakeover _ _ (Steady.forEach (fun m t ht => k.postTakeover _ _ ht) _ (k.setBank _ (k.addFault _ _ _ ?_)))
  exact Steady.forEach (fun q t ht => k.modCarry _ _ (k.refreshCause _ _ ht)) _ h

theorem rehearsalFault (r : Rehearsal) (pipe cause : Nat) (h : P s) : P (rehearsalFault s r pipe cause) := by
  have hfailed : P (Machine.failBank (modBank s r.bank fun x => { x with state := .normal }) (1 - r.bank) pipe cause) := k.same h rfl
  have harmed := Steady.forEach (fun o t ht => k.armOutput r.bank o ht) (List.range 8) hfailed
  unfold Machine.rehearsalFault; dsimp only
  generalize forEach (List.range 8) (Machine.armOutput r.bank) _ = u at harmed ⊢
  have hposted := Steady.forEach (fun m t ht => k.postTakeover m m.stranded ht) u.bank.moving harmed
  refine k.finishKey _ _ _ _ (k.postReturn _ _ _ _ _ ?_)
  exact iteInduction (motive := P) (fun _ => k.postTakeover _ _ (k.setBank _ hposted)) fun _ => k.setBank _ hposted

theorem takenOver (b o : Nat) (h : P s) : P (takenOver s b o) :=
  Steady.forEach (fun _ _ ht => iteInduction (motive := P) (fun _ => k.modCarry _ _ ht) fun _ => k.armOutput _ _ ht) _ (k.armOutput _ _ h)

/-- A bank fault keeps it (R222, R223, R229, R230). -/
theorem bankFault (o cause : Nat) (h : P s) : P (bankFault s o cause) := by
  unfold Machine.bankFault; dsimp only
  refine iteInduction (motive := P) (fun _ => h) fun _ => ?_
  have hfault := k.addFault 7 (getCarry s o).bank ((getCarry s o).pipe + 256 * cause) h
  generalize Machine.addFault s 7 (getCarry s o).bank ((getCarry s o).pipe + 256 * cause) = u at hfault ⊢
  have hfailed := k.failBank (getCarry s o).bank (getCarry s o).pipe cause hfault
  split
  · exact iteInduction (motive := P) (fun _ => k.rehearsalFault _ _ _ hfault) fun _ => k.strand _ _ _ hfailed
  · refine iteInduction (motive := P) (fun _ => k.strand _ _ _ hfailed) fun _ => iteInduction (motive := P) (fun _ => k.strand _ _ _ hfailed) fun _ => ?_
    have htaken := k.takenOver (getCarry s o).bank o hfailed
    show P (if scheduling (getOut (Machine.takenOver (Machine.failBank u (getCarry s o).bank (getCarry s o).pipe cause) (getCarry s o).bank o) o) = true
      then withTakeover (Machine.takenOver (Machine.failBank u (getCarry s o).bank (getCarry s o).pipe cause) (getCarry s o).bank o) _
      else Machine.postTakeover (Machine.takenOver (Machine.failBank u (getCarry s o).bank (getCarry s o).pipe cause) (getCarry s o).bank o) _ 0)
    exact iteInduction (motive := P) (fun _ => k.same htaken rfl) fun _ => k.postTakeover _ _ htaken

/-! Passes that are decided (R179, R180, R198). -/

theorem noteOutside (key : Nat) (img : LayerImage) (p : Option (Nat × Nat)) (h : P s) : P (noteOutside s key img p) := by
  unfold Machine.noteOutside
  split
  · refine k.slot _ _ (fun _ => rfl) ?_
    exact iteInduction (motive := P) (fun _ => k.postEvent _ _ h) fun _ => h
  · exact h

theorem decideLine (key y : Nat) (d : Desc) (h : P s) : P (decideLine s key y d) := k.noteOutside _ _ _ (k.slot _ _ (fun _ => rfl) h)

theorem decideNext (key y : Nat) (d : Desc) (h : P s) : P (decideNext s key y d) := k.noteOutside _ _ _ (k.slot _ _ (fun _ => rfl) h)

/-- The passes of the lines ahead are decided (R179). -/
theorem decideSlot (o j i : Nat) (h : P s) : P (decideSlot s o j i) := by
  unfold Machine.decideSlot
  extract_lets key x c lead y z
  refine iteInduction (motive := P) (fun _ => ?_) fun _ => iteInduction (motive := P) (fun _ => ?_) fun _ => h
  · split
    · exact iteInduction (motive := P) (fun _ => k.decideLine _ _ _ h) fun _ => h
    · exact h
  · split
    · refine iteInduction (motive := P) (fun _ => h) fun _ => ?_
      extract_lets r u
      have hsized : P u := iteInduction (motive := P) (fun _ => k.slot _ _ (fun _ => rfl) h) fun _ => h
      exact iteInduction (motive := P) (fun _ => k.decideNext _ _ _ hsized) fun _ => hsized
    · exact h

theorem chooseNow (o i : Nat) (h : P s) : P (chooseNow o i s) := by
  unfold Machine.chooseNow; dsimp only
  split
  · exact h
  · exact iteInduction (motive := P) (fun _ => h) fun _ => k.slot _ _ (fun _ => rfl) h

theorem decideFirst (o i : Nat) (h : P s) : P (decideFirst o i s) := by
  unfold Machine.decideFirst; dsimp only
  split
  · exact h
  · exact iteInduction (motive := P) (fun _ => h) fun _ => Steady.forEach (fun y t ht => k.decideLine _ y _ ht) _ h

theorem sizeLayer (o i : Nat) (x : SizeCheck) (h : P x.st) : P (sizeLayer o x i).st := by
  unfold Machine.sizeLayer; dsimp only
  split
  · exact h
  · refine iteInduction (motive := fun x : SizeCheck => P x.st) (fun _ => h) fun _ => ?_
    split
    · exact h
    · refine iteInduction (motive := fun x : SizeCheck => P x.st) (fun _ => h) fun _ => ?_
      refine iteInduction (motive := fun x : SizeCheck => P x.st) (fun _ => k.slot _ _ (fun _ => rfl) h) fun _ => ?_
      refine k.slot _ _ (fun _ => rfl) ?_
      exact iteInduction (motive := P) (fun _ => h) fun _ => k.postEvent _ _ h

theorem sizeChecks (o : Nat) (h : P s) : P (sizeChecks s o) :=
  foldl_keeps (fun x : SizeCheck => P x.st) (Machine.sizeLayer o) (fun x i hx => k.sizeLayer o i x hx) _ _ h

/-! Rectangle operations at a frame start (R215, R216). -/

theorem modRect (i : Nat) (f : Rect → Rect) (h : P s) : P (modRect s i f) := k.same h rfl

theorem unbindChange (src : Nat) (h : P s) : P (unbindChange s src) :=
  iteInduction (motive := P) (fun _ => k.same h rfl) fun _ => h

theorem removeRect (r : Nat) (h : P s) : P (removeRect s r) :=
  iteInduction (motive := P) (fun _ => k.unbindChange _ (k.modRect _ _ h)) fun _ => k.modRect _ _ h

theorem setRect (r owner : Nat) (c : RectCfg) (h : P s) : P (setRect s r owner c) := by
  unfold Machine.setRect; dsimp only
  have hset := k.modRect r (fun _ => { used := true, owner, cfg := c }) h
  generalize Machine.modRect s r _ = u at hset ⊢
  have hunbound : P (if (getRect s r).used = true ∧ (getRect s r).cfg.mode = 1 then Machine.unbindChange u (getRect s r).cfg.source else u) :=
    iteInduction (motive := P) (fun _ => k.unbindChange _ hset) fun _ => hset
  exact iteInduction (motive := P) (fun _ => k.same hunbound rfl) fun _ => hunbound

theorem applyRectOp (op : RectOp) (h : P s) : P (applyRectOp op s) := by
  refine iteInduction (motive := P) (fun _ => k.setRect _ _ _ h) fun _ => ?_
  exact iteInduction (motive := P) (fun _ => k.removeRect _ h) fun _ => k.modRect _ _ h

theorem applyRectOps (o : Nat) (h : P s) : P (applyRectOps s o) := Steady.forEach (fun op _ ht => k.applyRectOp op ht) _ (k.same h rfl)

theorem rectEffects (o : Nat) (h : P s) : P (rectEffects s o) :=
  Steady.forEach (fun _ _ ht => k.modRect _ _ ht) _ (k.output _ _ (fun _ => rfl) h)

theorem moveOutput (o : Nat) (h : P s) : P (moveOutput s o) := k.modCarry _ _ h

/-! Lines that are captured, exported and measured (R252, R345, R381). -/

theorem gaugeEvent (cause : Nat) (h : P s) : P (gaugeEvent s cause) := k.postEvent _ _ h

theorem setGauge (g : GaugeSt) (h : P s) : P { s with gauge := g } := k.same h rfl

theorem queueGauge (r : GaugeRec) (h : P s) : P (queueGauge s r) := by
  unfold Machine.queueGauge; dsimp only
  refine iteInduction (motive := P) (fun _ => ?_) fun _ => iteInduction (motive := P) (fun _ => ?_) fun _ => k.setGauge _ h
  · exact iteInduction (motive := P) (fun _ => k.gaugeEvent _ (k.setGauge _ h)) fun _ => k.setGauge _ h
  · exact iteInduction (motive := P) (fun _ => k.gaugeEvent _ (k.setGauge _ h)) fun _ => k.setGauge _ h

theorem gaugeLine (i line : Nat) (data : List Byte) (h : P s) : P (gaugeLine s i line data) :=
  Steady.forEach (fun _ _ ht => iteInduction (motive := P) (fun _ => k.queueGauge _ (k.setGauge _ ht)) fun _ => ht) _ h

theorem modExport (n : Nat) (f : Export → Export) (h : P s) : P (modExport s n f) := k.same h rfl

theorem endExportPass (n : Nat) (h : P s) : P (endExportPass s n) := k.same h rfl

theorem countDiscards (x : Surface) (first count : Nat) (h : P s) : P (countDiscards s x first count) := by
  refine iteInduction (motive := P) (fun _ => h) fun _ => Steady.forEach (fun r t ht => Steady.forEach (fun c u hu => ?_) _ ht) _ h
  split
  · exact hu
  · exact k.same hu rfl

theorem noteSent (x : Surface) (y : Nat) (chroma : Bool) (h : P s) : P (noteSent s x y chroma) := by
  unfold Machine.noteSent; dsimp only
  split
  · exact k.denyAt _ _ _ _ _ h
  · exact k.countDiscards _ _ _ (k.noteRead _ _ _ h)

theorem sendLine (n : Nat) (x : Surface) (y : Nat) (chroma : Bool) (h : P s) : P (sendLine s n x y chroma) :=
  k.routePkt _ _ (k.noteSent _ _ _ h)

theorem sendPair (n : Nat) (x : Surface) (y : Nat) (h : P s) : P (sendPair s n x y) := by
  have hsent := k.modExport n (fun e => { e with sent := y + 1 }) (k.sendLine n x y false h)
  exact iteInduction (motive := P) (fun _ => k.modExport _ _ (k.sendLine _ _ _ _ hsent)) fun _ => hsent

theorem exportLines (i : Nat) (h : P s) : P (exportLines s i) := by
  unfold Machine.exportLines; dsimp only
  split
  · exact h
  · refine Steady.forEach (fun n t ht => ?_) _ h
    have hpairs := fun l x => Steady.forEach (fun y u hu => k.sendPair n x y hu) l ht
    exact iteInduction (motive := P) (fun _ => k.endExportPass _ (hpairs _ _)) fun _ => hpairs _ _

theorem markDamaged (i : Nat) (h : P s) : P (markDamaged s i) := k.modEntry _ _ h

theorem dropWrite (i engine : Nat) (d : Nat × Nat) (h : P s) : P (dropWrite s i engine d) := by
  unfold Machine.dropWrite; dsimp only
  have hdenied := k.denyAt (getSurf s i).owner engine true d.2 d.1 h
  split
  · exact hdenied
  · exact k.same hdenied rfl

theorem planeLine (i y : Nat) (data : List Byte) (h : P s) : P (planeLine s i y data) := by
  unfold Machine.planeLine; dsimp only
  split
  · exact k.dropWrite _ _ _ h
  · exact k.gaugeLine _ _ _ (k.write _ _ h)

/-- A writer's line keeps it (R116). -/
theorem writerLine (i : Nat) (data : List Byte) (h : P s) : P (writerLine s i data) := by
  unfold Machine.writerLine; dsimp only
  refine k.exportLines _ (k.modSurf _ _ (iteInduction (motive := P) (fun _ => ?_) fun _ => ?_))
  · split
    · exact k.dropWrite _ _ _ h
    · exact k.gaugeLine _ _ _ (k.write _ _ h)
  · exact iteInduction (motive := P) (fun _ => k.planeLine _ _ _ (k.planeLine _ _ _ h)) fun _ => k.planeLine _ _ _ h

/-- A captured line keeps it (R252). -/
theorem captureLine (o j : Nat) (line : List Px) (h : P s) : P (captureLine s o j line) := by
  refine Steady.forEach (fun n t ht => ?_) _ h
  dsimp only
  split
  · exact ht
  · exact iteInduction (motive := P) (fun _ => ht) fun _ => k.modSession _ _ (k.writerLine _ _ ht)

theorem serveRequests (n : Nat) (h : P s) : P (serveRequests s n) := by
  refine k.modSession _ _ (Steady.forEach (fun r t ht => k.finishKey _ _ _ _ ht) _ (Steady.forEach (fun r t ht => ?_) _ h))
  exact k.finishKey _ _ _ _ (k.modSession _ _ ht)

theorem captureStart (n : Nat) (buf : Option (Nat × Nat)) (h : P s) : P (captureStart s n buf) := by
  have hserve := k.serveRequests n h
  unfold Machine.captureStart
  extract_lets
  split
  · exact k.modSession _ _ hserve
  · exact k.postEvent _ _ (k.modSession _ _ hserve)

theorem cutCaptures (o : Nat) (h : P s) : P (cutCaptures s o) :=
  Steady.forEach (fun _ _ ht => Steady.forEach (fun _ _ hu => k.modSurf _ _ hu) _ (k.modSession _ _ ht)) _ h

theorem beginPass (i : Nat) (h : P s) : P (beginPass s i) := k.same h rfl

/-- The sessions of an output that capture its frame keep it (R251, R252). -/
theorem captureFrame (o : Nat) (h : P s) : P (captureFrame s o) := by
  refine Steady.forEach (fun n t ht => ?_) _ (k.cutCaptures o h)
  have hdecimated : P (takeDecimated t n).1 := k.modSession _ _ ht
  split
  · next heq => rw [heq] at hdecimated; exact hdecimated
  · next heq =>
    rw [heq] at hdecimated
    dsimp only
    split
    · exact k.captureStart _ _ (k.beginPass _ hdecimated)
    · exact k.captureStart _ _ hdecimated

end ScanKept

end Sys2Proof.Machine
end

section
/-! Frames and lines of an output (R43 to R47, R163, R174, R179, R203, R204). -/
namespace Sys2Proof.Machine
open Sys2Proof

/-! What the frames and lines of the outputs are told by. -/

theorem outCore_modOut_same (s : State) (p : Nat) (f : OutputSt → OutputSt) (hf : ∀ x, outCore (f x) = outCore x) (o : Nat) :
    outCore (getOut (modOut s p f) o) = outCore (getOut s o) := by
  rw [getOut_modOut]
  split
  · next h => rw [h, hf]
  · rfl

theorem slotCore_modSlot_same (s : State) (j : Nat) (f : Slot → Slot) (hf : ∀ x, slotCore (f x) = slotCore x) (i : Nat) :
    slotCore (getSlot (modSlot s j f) i) = slotCore (getSlot s i) := by
  rw [getSlot_modSlot]
  split
  · next h => rw [h, hf]
  · rfl

/-- A fact about one output's core, about the slots' layers and about what was sent stays through the work around lines. -/
theorem scanKept_core (o : Nat) (Q : OutputSt → Prop) (R : (Nat → LayerImage × LayerImage) → Prop) (l : List Output) :
    ScanKept fun s => Q (outCore (getOut s o)) ∧ R (fun i => slotCore (getSlot s i)) ∧ ∀ x ∈ l, x ∈ s.out where
  same {s t} h hview := by
    have houts : t.scan.outputs = s.scan.outputs := congrArg (fun v => v.1) hview
    have hslots : t.comp.slots = s.comp.slots := congrArg (fun v => v.2.1) hview
    have hsent : t.out = s.out := congrArg (fun v => v.2.2.1) hview
    unfold getOut getSlot at *
    rw [houts, hslots, hsent]
    exact h
  emit x h := ⟨h.1, h.2.1, fun y hy => List.mem_append_left _ (h.2.2 y hy)⟩
  write _ _ h := h
  output p f hf h := ⟨(outCore_modOut_same _ p f hf o).symm ▸ h.1, h.2⟩
  slot {s} j f hf h := ⟨h.1, (funext fun i => slotCore_modSlot_same s j f hf i : (fun i => slotCore (getSlot (modSlot s j f) i)) = _).symm ▸ h.2.1, h.2.2⟩

/-- An output's core, with what was sent so far. -/
def LineAt (o : Nat) (x : OutputSt) (l : List Output) (s : State) : Prop :=
  outCore (getOut s o) = x ∧ True ∧ ∀ y ∈ l, y ∈ s.out

theorem scanKept_lineAt (o : Nat) (x : OutputSt) (l : List Output) : ScanKept (LineAt o x l) := scanKept_core o (· = x) (fun _ => True) l

theorem lineAt_self (s : State) (o : Nat) : LineAt o (outCore (getOut s o)) [] s := ⟨rfl, trivial, fun _ h => absurd h List.not_mem_nil⟩

/-! The start of a frame (R47, R174). -/

/-- The settings of an output and the layers shown and in force. -/
def FrameAt (o : Nat) (x : OutputSt) (l : Nat → LayerImage × LayerImage) (s : State) : Prop :=
  outCore (getOut s o) = x ∧ (fun i => slotCore (getSlot s i)) = l ∧ ∀ y ∈ ([] : List Output), y ∈ s.out

theorem scanKept_frameAt (o : Nat) (x : OutputSt) (l : Nat → LayerImage × LayerImage) : ScanKept (FrameAt o x l) := scanKept_core o (· = x) (· = l) []

/-- The settings of an output and the layers in force. -/
def InForce (o : Nat) (c : OutCfg) (l : Nat → LayerImage) (s : State) : Prop :=
  (outCore (getOut s o)).cfg = c ∧ (∀ i, (slotCore (getSlot s i)).2 = l i) ∧ ∀ y ∈ ([] : List Output), y ∈ s.out

theorem scanKept_inForce (o : Nat) (c : OutCfg) (l : Nat → LayerImage) : ScanKept (InForce o c l) := scanKept_core o (·.cfg = c) (fun f => ∀ i, (f i).2 = l i) []

theorem inForce_self (s : State) (o : Nat) : InForce o (getOut s o).cfg (fun i => (getSlot s i).active) s :=
  ⟨rfl, fun _ => rfl, fun _ h => absurd h List.not_mem_nil⟩

theorem cfg_modOut (s : State) (p : Nat) (f : OutputSt → OutputSt) (hf : ∀ x, (f x).cfg = x.cfg) (o : Nat) : (getOut (modOut s p f) o).cfg = (getOut s o).cfg := by
  rw [getOut_modOut]
  split
  · next h => rw [h, hf]
  · rfl

section
variable {o : Nat} {c : OutCfg} {l : Nat → LayerImage} {s : State}

theorem InForce.modOut (h : InForce o c l s) (p : Nat) (f : OutputSt → OutputSt) (hf : ∀ x, (f x).cfg = x.cfg) : InForce o c l (modOut s p f) :=
  ⟨(cfg_modOut s p f hf o).trans h.1, h.2⟩

/-- Self-refresh is left or entered (R220, R221). -/
theorem InForce.refreshFrame (h : InForce o c l s) (p : Nat) (w : Wp) : InForce o c l (refreshFrame s p w) := by
  have k := scanKept_inForce o c l
  unfold Machine.refreshFrame; dsimp only
  refine iteInduction (motive := InForce o c l) (fun _ => ?_) fun _ => iteInduction (motive := InForce o c l) (fun _ => ?_) fun _ => ?_
  · refine iteInduction (motive := InForce o c l) (fun _ => h.modOut _ _ fun _ => rfl) fun _ => k.postEvent _ _ (k.emit _ (h.modOut _ _ fun _ => rfl))
  · exact h.modOut _ _ fun _ => rfl
  · exact iteInduction (motive := InForce o c l) (fun _ => k.emit _ (h.modOut _ _ fun _ => rfl)) fun _ => h.modOut _ _ fun _ => rfl

theorem slotCore_latchSlot (s : State) (o i j : Nat) :
    slotCore (getSlot (latchSlot o i s) j) = if j = slotKey o i then ((getSlot s j).active, (getSlot s j).active) else slotCore (getSlot s j) := by
  unfold latchSlot
  rw [getSlot_modSlot]
  split
  · next h => rw [h]; rfl
  · rfl

theorem InForce.latchSlot (h : InForce o c l s) (p i : Nat) : InForce o c l (latchSlot p i s) := by
  obtain ⟨hcfg, hactive, hsent⟩ := h
  refine ⟨hcfg, fun j => ?_, hsent⟩
  rw [slotCore_latchSlot]
  split
  · exact hactive j
  · exact hactive j

/-- A slot of the output shows the layer in force. -/
def Latched (o : Nat) (c : OutCfg) (l : Nat → LayerImage) (j : Nat) (s : State) : Prop := InForce o c l s ∧ (getSlot s j).shown = l j

theorem scanKept_latched (o : Nat) (c : OutCfg) (l : Nat → LayerImage) (j : Nat) : ScanKept (Latched o c l j) where
  same h hview := ⟨(scanKept_inForce o c l).same h.1 hview, by
    have hslots := congrArg (fun v => v.2.1) hview
    rw [← h.2]
    exact congrArg (fun t : Tab Slot => (tget ({} : Slot) t j).shown) hslots⟩
  emit y h := ⟨(scanKept_inForce o c l).emit y h.1, h.2⟩
  write a d h := ⟨(scanKept_inForce o c l).write a d h.1, h.2⟩
  output p f hf h := ⟨(scanKept_inForce o c l).output p f hf h.1, h.2⟩
  slot {s} i f hf h := ⟨(scanKept_inForce o c l).slot i f hf h.1, (congrArg Prod.fst (slotCore_modSlot_same s i f hf j)).trans h.2⟩

theorem Latched.latchSlot {j : Nat} (h : Latched o c l j s) (p i : Nat) : Latched o c l j (latchSlot p i s) := by
  refine ⟨h.1.latchSlot p i, ?_⟩
  have hslot := congrArg Prod.fst (slotCore_latchSlot s p i j)
  refine hslot.trans ?_
  split
  · exact h.1.2.1 j
  · exact h.2

/-- At a frame's start each slot of its output shows the layer in force (R174). -/
theorem latched_all (h : InForce o c l s) (k : Nat) (hk : k < 8) :
    Latched o c l (slotKey o k) (forEach (List.range 8) (fun k s => chooseNow o k (latchSlot o k s)) s) := by
  refine forEach_reaches (P := InForce o c l) (x := k) (fun t ht => ?_) (fun i t ht => ?_) (fun i t ht => ?_) (List.mem_range.2 hk) h
  · refine (scanKept_latched o c l _).chooseNow o k ⟨ht.latchSlot o k, ?_⟩
    have hslot := congrArg Prod.fst (slotCore_latchSlot t o k (slotKey o k))
    rw [if_pos rfl] at hslot
    exact hslot.trans (ht.2.1 _)
  · exact (scanKept_inForce o c l).chooseNow o i (ht.latchSlot o i)
  · exact (scanKept_latched o c l _).chooseNow o i (ht.latchSlot o i)

end

/-- An output at the start of its frame i at WP w. -/
def frameBegun (coeffs : Tab CoeffSet) (i : Nat) (w : Wp) (x : OutputSt) : OutputSt :=
  { x with
    coeffs, frame := i, start := w, inFrame := true, line := 0, starting := x.starting && !x.cardDone, gapLines := [], replLines := [], badLines := []
    passLines := [], checkLines := [], sourceLines := [], sr := { x.sr with crcRun := 0xFFFFFFFF } }

/-- A slot with the counter text of its frame (R25). -/
def counterNoted (c : Option (LState × Option Nat)) (x : Slot) : Slot := if x.shown.desc.isSome then { x with counter := c } else { x with counter := none }

theorem slotCore_counterNoted (c : Option (LState × Option Nat)) (x : Slot) : slotCore (counterNoted c x) = slotCore x := by
  unfold counterNoted
  split <;> rfl

/-- What an output's frame has after its start at WP w (R47, R174). -/
def Started (s : State) (o i : Nat) (w : Wp) (t : State) : Prop :=
  (getOut t o).inFrame = true ∧ (getOut t o).frame = i ∧ (getOut t o).start = w ∧ (getOut t o).line = 0 ∧ (getOut t o).cfg = (getOut s o).cfg ∧
    ∀ k, k < 8 → (getSlot t (slotKey o k)).shown = (getSlot s (slotKey o k)).active ∧ (getSlot t (slotKey o k)).active = (getSlot s (slotKey o k)).active

theorem scanKept_started (s : State) (o i : Nat) (w : Wp) : ScanKept (Started s o i w) := by
  have k := scanKept_core o (fun x => x.inFrame = true ∧ x.frame = i ∧ x.start = w ∧ x.line = 0 ∧ x.cfg = (getOut s o).cfg)
    (fun f => ∀ k, k < 8 → (f (slotKey o k)).1 = (getSlot s (slotKey o k)).active ∧ (f (slotKey o k)).2 = (getSlot s (slotKey o k)).active) []
  have hiff : ∀ t, Started s o i w t ↔ ((outCore (getOut t o)).inFrame = true ∧ (outCore (getOut t o)).frame = i ∧ (outCore (getOut t o)).start = w ∧
      (outCore (getOut t o)).line = 0 ∧ (outCore (getOut t o)).cfg = (getOut s o).cfg) ∧
      (∀ k, k < 8 → (slotCore (getSlot t (slotKey o k))).1 = (getSlot s (slotKey o k)).active ∧
        (slotCore (getSlot t (slotKey o k))).2 = (getSlot s (slotKey o k)).active) ∧ ∀ y ∈ ([] : List Output), y ∈ t.out := fun t =>
    ⟨fun ⟨h1, h2, h3, h4, h5, h6⟩ => ⟨⟨h1, h2, h3, h4, h5⟩, h6, fun _ h => absurd h List.not_mem_nil⟩,
      fun ⟨⟨h1, h2, h3, h4, h5⟩, h6, _⟩ => ⟨h1, h2, h3, h4, h5, h6⟩⟩
  rw [show Started s o i w = _ from funext fun t => propext (hiff t)]
  exact k

/-- A frame that starts is in progress at line 0, with the layers in force shown (R47, R174). -/
theorem started_beginFrame (s : State) (o i : Nat) : Started s o i (outFrameStart s (getOut s o).cfg i) (beginFrame s o i) := by
  have k := scanKept_inForce o (getOut s o).cfg fun j => (getSlot s j).active
  have kt := scanKept_started s o i (outFrameStart s (getOut s o).cfg i)
  have hready := (k.moveOutput o (k.applyRectOps o (inForce_self s o))).refreshFrame o (outFrameStart s (getOut s o).cfg i)
  unfold beginFrame frameStart; dsimp only
  generalize refreshFrame (moveOutput (applyRectOps s o) o) o (outFrameStart s (getOut s o).cfg i) = u at hready ⊢
  have hlatched := latched_all hready
  generalize forEach (List.range 8) (fun k s => chooseNow o k (latchSlot o k s)) u = v at hlatched ⊢
  have hcfg := (hlatched 0 (by decide)).1.1
  have hframe : Started s o i (outFrameStart s (getOut s o).cfg i) (modOut v o (frameBegun v.comp.coeffs i (outFrameStart s (getOut s o).cfg i))) := by
    unfold Started
    rw [getOut_modOut, if_pos rfl]
    exact ⟨rfl, rfl, rfl, rfl, hcfg, fun k hk => ⟨(hlatched k hk).2, (hlatched k hk).1.2.1 _⟩⟩
  have hchecked := kt.sizeChecks o (kt.rectEffects o hframe)
  have hdecided := Steady.forEach (fun k t ht => kt.slot (slotKey o k) (fun x => { x with sizeNext := none, decFor := none }) (fun _ => rfl)
    (kt.decideFirst o k ht)) (List.range 8) hchecked
  have hend := Steady.forEach (fun k t ht => kt.slot (slotKey o k) (counterNoted (latchCounter t o k)) (fun x => slotCore_counterNoted _ x) ht) (List.range 8) hdecided
  exact kt.setComp _ hend

theorem exec_outputFrameStart {s : State} {o : Nat} (ho : o < 8) (hsched : scheduling (getOut s o) = true) (hrun : s.time.running = true)
    (hnew : (getOut s o).inFrame = false ∨ (getOut s o).start ≠ outFrameStart s (getOut s o).cfg (outFrameNow s (getOut s o).cfg (now s))) :
    outputFrameStart o s = beginFrame s o (outFrameNow s (getOut s o).cfg (now s)) := by
  refine (if_neg (by simp [ho, hsched, hrun])).trans (if_pos ?_)
  obtain h | h := hnew
  · simp [h]
  · simp [h]

/-! The lines of a frame (R163, R203, R204). -/

/-- The settings that a line's colours and pipe come from. -/
def pipeView (s : State) : BankSt × Tab Nat := (s.bank, s.ledger.holdColours)

theorem pipeView_evalEntry (s : State) (w : Wp) (i : Nat) : pipeView (evalEntry w i s) = pipeView s := by
  refine iteInduction (motive := fun t : State => pipeView t = pipeView s) (fun _ => rfl) fun _ => ?_
  dsimp only
  exact iteInduction (motive := fun t : State => pipeView (modEntry t i _) = pipeView s) (fun _ => rfl) fun _ => rfl

theorem pipeView_evaluated (s : State) (x : Option LineWp) : pipeView { s with ledger := { s.ledger with evalAt := x } } = pipeView s := rfl

theorem pipeView_evaluateLine (s : State) : pipeView (evaluateLine s) = pipeView s := by
  refine iteInduction (motive := fun t : State => pipeView t = pipeView s) (fun _ => rfl) fun _ => ?_
  have hsets : ∀ w, pipeView (applySets w s) = pipeView s := fun w => forEach_same pipeView _ _ s fun _ _ => rfl
  have hreports : ∀ t : State, pipeView (takeReports t) = pipeView t := fun t =>
    forEach_same pipeView _ _ _ fun q u => iteInduction (motive := fun v : State => pipeView v = pipeView u) (fun _ => rfl) fun _ => rfl
  have hentries : ∀ (t : State) w, pipeView (forEntries t (evalEntry w)) = pipeView t := fun t w => forEach_same pipeView _ _ t fun i u => pipeView_evalEntry u w i
  exact (pipeView_evaluated _ _).trans ((hentries _ _).trans ((hreports _).trans (hsets _)))

theorem pipeView_passTo (s : State) (w : Wp) : pipeView (passTo s w) = pipeView s := by
  refine iteInduction (motive := fun t : State => pipeView t = pipeView s) (fun _ => rfl) fun _ => ?_
  exact iteInduction (motive := fun t : State => pipeView t = pipeView s) (fun _ => pipeView_evaluateLine s) fun _ => rfl

/-- A line of a running output is sent (R203). -/
theorem mem_sendWords {s : State} {o : Nat} (hstate : (getOut s o).state = .running) (j : Nat) (words : List Nat) :
    Output.line o j words ∈ (sendWords s o j words).out := by
  have k := scanKept_core o (fun _ => True) (fun _ => True) [.line o j words]
  have hsent : Output.line o j words ∈ (emit s (.line o j words)).out := List.mem_append_right _ (List.mem_singleton.2 rfl)
  unfold sendWords; dsimp only
  rw [if_pos hstate]
  refine (iteInduction (motive := fun t : State => Output.line o j words ∈ t.out) (fun _ => ?_) fun _ => hsent)
  exact iteInduction (motive := fun t : State => Output.line o j words ∈ t.out) (fun _ => hsent) fun _ => hsent

/-- An output's line with the passes of the lines ahead decided (R179, R203). -/
def lineSent (s : State) (o : Nat) (inTime : Bool) : State :=
  let u := passTo s (lineDue s o (getOut s o).line)
  if (getOut s o).line < (getOut s o).cfg.vActive then activeLine u o (getOut s o).line inTime else modCarry u o fun c => { c with lastGap := false }

def lineEnded (s : State) (o : Nat) (inTime : Bool) : State :=
  forEach (List.range 8) (fun k s' => decideSlot s' o (getOut s o).line k)
    (if (getOut s o).line = (getOut s o).cfg.vActive then sendAttributes (lineSent s o inTime) o else lineSent s o inTime)

theorem lineSent_active {s : State} {o : Nat} (hactive : (getOut s o).line < (getOut s o).cfg.vActive) (inTime : Bool) :
    lineSent s o inTime = activeLine (passTo s (lineDue s o (getOut s o).line)) o (getOut s o).line inTime := if_pos hactive

theorem outputLineStart_due {s : State} {o : Nat} (inTime : Bool) (ho : o < 8) (hsched : scheduling (getOut s o) = true) (hin : (getOut s o).inFrame = true)
    (hline : (getOut s o).line < (getOut s o).cfg.vOut) (hdue : comesThisLine s (lineDue s o (getOut s o).line) = true) :
    outputLineStart o inTime s = modOut (lineEnded s o inTime) o fun x => { x with line := (getOut s o).line + 1 } :=
  if_neg (by simp [ho, hsched, hin, hline, hdue])

section
variable {P : State → Prop} (k : ScanKept P) {s : State} {o : Nat}
include k

theorem ScanKept.underflow (hunder : ∀ (t : State) (f : OutputSt → Underflow), P t → P (modOut t o fun x => { x with under := f x })) (j : Nat) (h : P s) :
    P (underflow s o j) := by
  unfold Machine.underflow; dsimp only
  have hcounted := hunder s (fun x => { lines := satAdd 8 x.under.lines 1, first := if x.under.lines = 0 then j else x.under.first
                                        wp := if x.under.lines = 0 then addTicks (wallLines s) (getOut s o).start (outLineOffset s (getOut s o).cfg j) else x.under.wp
                                        total := satAdd 32 x.under.total 1 }) h
  exact k.modCarry _ _ (k.bankFault _ _ (k.sendGap _ _ hcounted))

theorem ScanKept.activeLine (hunder : ∀ (t : State) (f : OutputSt → Underflow), P t → P (modOut t o fun x => { x with under := f x })) (j : Nat) (inTime : Bool)
    (h : P s) : P (activeLine s o j inTime) := by
  unfold Machine.activeLine; dsimp only
  refine iteInduction (motive := P) (fun _ => k.sendGap _ _ h) fun _ => iteInduction (motive := P) (fun _ => k.sendGap _ _ (k.modCarry _ _ h)) fun _ => ?_
  refine iteInduction (motive := P) (fun _ => ?_) fun _ => k.sendComposed _ _ h
  exact k.underflow hunder j h

theorem ScanKept.lineEnded {inTime : Bool} (h : P (lineSent s o inTime)) : P (lineEnded s o inTime) :=
  Steady.forEach (fun i _ ht => k.decideSlot o _ i ht) _ (iteInduction (motive := P) (fun _ => k.sendAttributes _ h) fun _ => h)

/-- The line that starts leaves, and sessions capture it: what that work keeps stays. -/
theorem ScanKept.execOutputLineStart {inTime : Bool} (h : P (outputLineStart o inTime s)) :
    Runs (.outputLineStart o inTime) s P := by
  refine ⟨_, rfl, ?_⟩
  exact iteInduction (motive := P) (fun _ => h) fun _ => iteInduction (motive := P) (fun _ => k.captureLine _ _ _ h) fun _ => k.captureLine _ _ _ h

end

theorem scheduling_of_running {x : OutputSt} (h : x.state = .running) : scheduling x = true := by
  unfold scheduling
  rw [h]; rfl

/-- The lines sent and the underflows of an output. -/
def Sent (o : Nat) (l : Output) (n : Underflow) (s : State) : Prop :=
  (outCore (getOut s o)).under = n ∧ True ∧ ∀ y ∈ [l], y ∈ s.out

theorem scanKept_sent (o : Nat) (l : Output) (n : Underflow) : ScanKept (Sent o l n) := scanKept_core o (·.under = n) (fun _ => True) [l]

theorem sent_iff {o : Nat} {l : Output} {n : Underflow} {s : State} : Sent o l n s ↔ (getOut s o).under = n ∧ l ∈ s.out := by
  simp [Sent, outCore]

theorem under_modOut (s : State) (p : Nat) (f : OutputSt → OutputSt) (hf : ∀ x, (f x).under = x.under) (o : Nat) : (getOut (modOut s p f) o).under = (getOut s o).under := by
  rw [getOut_modOut]
  split
  · next h => rw [h, hf]
  · rfl

theorem Sent.modOut {o : Nat} {l : Output} {n : Underflow} {s : State} (h : Sent o l n s) {f : OutputSt → OutputSt} (hf : ∀ x, (f x).under = x.under) :
    Sent o l n (modOut s o f) := by
  obtain ⟨hunder, hsent⟩ := sent_iff.1 h
  exact sent_iff.2 ⟨(under_modOut s o f hf o).trans hunder, hsent⟩

/-- A line of a running output that is in its frame: it leaves with what the active line sends. -/
theorem sent_line {s : State} {o : Nat} {inTime : Bool} {l : Output} {n : Underflow} (ho : o < 8) (hstate : (getOut s o).state = .running)
    (hin : (getOut s o).inFrame = true) (hline : (getOut s o).line < (getOut s o).cfg.vOut) (hactive : (getOut s o).line < (getOut s o).cfg.vActive)
    (hdue : comesThisLine s (lineDue s o (getOut s o).line) = true)
    (h : Sent o l n (activeLine (passTo s (lineDue s o (getOut s o).line)) o (getOut s o).line inTime)) :
    Runs (.outputLineStart o inTime) s fun t => l ∈ t.out ∧ (getOut t o).under = n := by
  have k := scanKept_sent o l n
  have hended : Sent o l n (lineEnded s o inTime) := k.lineEnded ((lineSent_active hactive inTime).symm ▸ h)
  have hstart : Sent o l n (outputLineStart o inTime s) := by
    rw [outputLineStart_due inTime ho (scheduling_of_running hstate) hin hline hdue]
    exact hended.modOut fun _ => rfl
  obtain ⟨t, hrun, ht⟩ := k.execOutputLineStart hstart
  obtain ⟨hunder, hsent⟩ := sent_iff.1 ht
  exact ⟨t, hrun, hsent, hunder⟩

/-- In service, a line in time is composed, and one that is not underflows (R203, R204). -/
theorem activeLine_served {s : State} {o : Nat} (hstranded : (getCarry s o).stranded = false) (harming : (getCarry s o).arming = none)
    (hgap : (getCarry s o).lastGap = false) (j : Nat) (inTime : Bool) :
    activeLine s o j inTime = if inTime then sendComposed s o j else underflow s o j := by
  unfold activeLine
  simp only [hstranded, harming, hgap, Option.isSome_none, Bool.or_self, Bool.false_eq_true, if_false, Bool.not_eq_true']
  cases inTime
  · rw [if_pos rfl, if_neg Bool.false_ne_true]
  · rw [if_neg (fun h => Bool.noConfusion h), if_pos rfl]

theorem getCarry_of_pipe {s t : State} (h : pipeView t = pipeView s) (o : Nat) : getCarry t o = getCarry s o :=
  congrArg (fun v : BankSt × Tab Nat => v.1.carry.getD o {}) h

theorem getCarry_passTo (s : State) (w : Wp) (o : Nat) : getCarry (passTo s w) o = getCarry s o := getCarry_of_pipe (pipeView_passTo s w) o

theorem outCore_passTo (s : State) (w : Wp) (o : Nat) : outCore (getOut (passTo s w) o) = outCore (getOut s o) :=
  ((scanKept_lineAt o _ []).passTo w (lineAt_self s o)).1

theorem holdColours_of_pipe {s t : State} (h : pipeView t = pipeView s) : t.ledger.holdColours = s.ledger.holdColours := congrArg Prod.snd h

theorem holdColours_passTo (s : State) (w : Wp) : (passTo s w).ledger.holdColours = s.ledger.holdColours := holdColours_of_pipe (pipeView_passTo s w)

theorem Sent.modCarry {o : Nat} {l : Output} {n : Underflow} {s : State} (h : Sent o l n s) (p : Nat) (f : Carry → Carry) : Sent o l n (modCarry s p f) := h

/-- Words of a line sent in a state with the output's core at hand. -/
theorem sent_sendWords {s : State} {o j : Nat} {x : OutputSt} (hcore : outCore (getOut s o) = outCore x) (hstate : x.state = .running) (words : List Nat) :
    Sent o (.line o j words) x.under (sendWords s o j words) := by
  have hrunning : (getOut s o).state = .running := (congrArg OutputSt.state hcore).trans hstate
  have k := scanKept_lineAt o (outCore x) []
  have hkept := k.sendWords o j words ⟨hcore, trivial, fun _ h => absurd h List.not_mem_nil⟩
  exact sent_iff.2 ⟨(congrArg OutputSt.under hkept.1 :), mem_sendWords hrunning j words⟩

/-- The line that is composed of the output's layers leaves (R163, R203). -/
theorem sent_sendComposed {s : State} {o : Nat} {x : OutputSt} (hcore : outCore (getOut s o) = outCore x) (hstate : x.state = .running) (j : Nat) :
    Sent o (.line o j ((composeLine s o j (if (getCarry s o).repl = 0 then none else some (3 - (getCarry s o).repl))).map (pixelWord x.cfg.bpc)))
      x.under (sendComposed s o j) := by
  have k := scanKept_lineAt o (outCore x) []
  have hself : LineAt o (outCore x) [] s := ⟨hcore, trivial, fun _ h => absurd h List.not_mem_nil⟩
  have hcfg : (getOut s o).cfg = x.cfg := (congrArg OutputSt.cfg hcore :)
  rw [← hcfg]
  unfold sendComposed
  extract_lets c left repl draws words change srcs passes blurred bad u v w
  have hcounted : LineAt o (outCore x) [] u := Steady.forEach (fun g _ ht => k.countTiles g ht) _ hself
  have hnoted : LineAt o (outCore x) [] w := k.modCarry _ _ (k.output _ _ (fun _ => rfl) hcounted)
  exact sent_sendWords hnoted.1 hstate words

/-- An output with one more underflow, of line j at WP w (R204). -/
def lineLost (s : State) (o j : Nat) : State :=
  let w := addTicks (wallLines s) (getOut s o).start (outLineOffset s (getOut s o).cfg j)
  modOut s o fun x =>
    { x with under := { lines := satAdd 8 x.under.lines 1, first := if x.under.lines = 0 then j else x.under.first
                        wp := if x.under.lines = 0 then w else x.under.wp, total := satAdd 32 x.under.total 1 } }

theorem underflow_eq (s : State) (o j : Nat) : underflow s o j =
    modCarry (bankFault (sendGap (lineLost s o j) o j) o 3) o fun c => if c.arming.isSome then { c with gap := c.gap + 1 } else c := rfl

/-- A line in GAP_COLOUR leaves (R204, R225). -/
theorem sent_sendGap {s : State} {o : Nat} {x : OutputSt} (hcore : outCore (getOut s o) = outCore x) (hstate : x.state = .running) (j : Nat) :
    Sent o (.line o j (List.replicate x.cfg.hActive (pixelWord x.cfg.bpc (colour30 (tget 0x20080200 s.ledger.holdColours x.cfg.gap))))) x.under
      (sendGap s o j) := by
  have hcfg : (getOut s o).cfg = x.cfg := (congrArg OutputSt.cfg hcore :)
  have hnoted := (outCore_modOut_same s o (fun x => { x with gapLines := x.gapLines ++ [j] }) (fun _ => rfl) o).trans hcore
  unfold sendGap; dsimp only
  rw [hcfg]
  exact sent_sendWords hnoted hstate _

/-- A line that underflows leaves in GAP_COLOUR and is counted (R204). -/
theorem sent_underflow {s : State} {o : Nat} {x : OutputSt} (hcore : outCore (getOut s o) = outCore x) (hstate : x.state = .running) (j : Nat) :
    ∃ n : Underflow, n.lines = satAdd 8 x.under.lines 1 ∧ n.total = satAdd 32 x.under.total 1 ∧
      Sent o (.line o j (List.replicate x.cfg.hActive (pixelWord x.cfg.bpc (colour30 (tget 0x20080200 s.ledger.holdColours x.cfg.gap))))) n
        (underflow s o j) := by
  have hlost : outCore (getOut (lineLost s o j) o) = outCore { x with under := (getOut (lineLost s o j) o).under } := by
    have hmod : getOut (lineLost s o j) o = { getOut s o with under := (getOut (lineLost s o j) o).under } := by
      unfold lineLost; dsimp only
      rw [getOut_modOut, if_pos rfl]
    rw [hmod]
    exact congrArg (fun y : OutputSt => { y with under := (getOut (lineLost s o j) o).under }) hcore
  have hunder : (getOut (lineLost s o j) o).under.lines = satAdd 8 x.under.lines 1 ∧ (getOut (lineLost s o j) o).under.total = satAdd 32 x.under.total 1 := by
    have hunder : (getOut s o).under = x.under := (congrArg OutputSt.under hcore :)
    unfold lineLost; dsimp only
    rw [getOut_modOut, if_pos rfl, ← hunder]
    exact ⟨rfl, rfl⟩
  have hgap := sent_sendGap hlost hstate j
  refine ⟨_, hunder.1, hunder.2, ?_⟩
  rw [underflow_eq]
  exact ((scanKept_sent ..).bankFault o 3 hgap).modCarry _ _

/-! An output in its frame. -/

/-- An output is in the frame that began at WP w. -/
def InFrame (o : Nat) (w : Wp) (s : State) : Prop :=
  ((outCore (getOut s o)).inFrame = true ∧ (outCore (getOut s o)).start = w) ∧ True ∧ ∀ y ∈ ([] : List Output), y ∈ s.out

/-- And its next line is line j. -/
def InFrameAt (o : Nat) (w : Wp) (j : Nat) (s : State) : Prop :=
  ((outCore (getOut s o)).line = j ∧ (outCore (getOut s o)).inFrame = true ∧ (outCore (getOut s o)).start = w) ∧ True ∧ ∀ y ∈ ([] : List Output), y ∈ s.out

theorem scanKept_inFrame (o : Nat) (w : Wp) : ScanKept (InFrame o w) := scanKept_core o (fun y => y.inFrame = true ∧ y.start = w) (fun _ => True) []

theorem scanKept_inFrameAt (o : Nat) (w : Wp) (j : Nat) : ScanKept (InFrameAt o w j) :=
  scanKept_core o (fun y => y.line = j ∧ y.inFrame = true ∧ y.start = w) (fun _ => True) []

theorem inFrame_iff {o : Nat} {w : Wp} {s : State} : InFrame o w s ↔ (getOut s o).inFrame = true ∧ (getOut s o).start = w := by
  simp [InFrame, outCore]

theorem InFrame.modUnder {o : Nat} {w : Wp} {s : State} (h : InFrame o w s) (f : OutputSt → Underflow) :
    InFrame o w (modOut s o fun x => { x with under := f x }) := by
  rw [inFrame_iff, getOut_modOut, if_pos rfl]
  exact inFrame_iff.1 h

theorem InFrame.lineSent {o : Nat} {w : Wp} {s : State} (h : InFrame o w (passTo s (lineDue s o (getOut s o).line))) (inTime : Bool) :
    InFrame o w (lineSent s o inTime) := by
  have k := scanKept_inFrame o w
  exact iteInduction (motive := InFrame o w) (fun _ => k.activeLine (fun _ f ht => ht.modUnder f) _ _ h) fun _ => k.modCarry _ _ h

theorem inFrameAt_nextLine {o : Nat} {w : Wp} {s : State} (hin : (getOut s o).inFrame = true) (hstart : (getOut s o).start = w) (j : Nat) :
    InFrameAt o w j (modOut s o fun x => { x with line := j }) := by
  unfold InFrameAt
  rw [getOut_modOut, if_pos rfl]
  exact ⟨⟨rfl, hin, hstart⟩, trivial, fun _ h => absurd h List.not_mem_nil⟩

/-- Settles O16: an output's frames start and its lines leave at their WP, composed or in GAP_COLOUR. -/
theorem outputScan : Obligations.OutputScan := by
  unfold Obligations.OutputScan
  refine ⟨?_, ?_, ?_, ?_, ?_⟩
  · intro s o x i w ho hsched hrun hnew
    have hstarted := started_beginFrame s o i
    refine ⟨_, rfl, ?_⟩
    rw [exec_outputFrameStart ho hsched hrun hnew]
    exact iteInduction (motive := Started s o i w) (fun _ => hstarted) fun _ => (scanKept_started s o i w).captureFrame o hstarted
  · intro s o inTime x ho hsched hin hline hdue
    have hself : InFrame o (getOut s o).start (passTo s (lineDue s o x.line)) := (scanKept_inFrame o _).passTo _ (inFrame_iff.2 ⟨hin, rfl⟩)
    obtain ⟨hstays, hstart⟩ := inFrame_iff.1 ((scanKept_inFrame o _).lineEnded (hself.lineSent inTime))
    have hnext : InFrameAt o x.start (x.line + 1) (outputLineStart o inTime s) := by
      rw [outputLineStart_due inTime ho hsched hin hline hdue]
      exact inFrameAt_nextLine hstays hstart _
    obtain ⟨t, hrun, ht⟩ := (scanKept_inFrameAt o _ _).execOutputLineStart hnext
    exact ⟨t, hrun, ht.1⟩
  · intro s o inTime hdue
    have hstays : outputLineStart o inTime s = s := if_pos (by simp [hdue])
    refine congrArg Host.Outcome.next ?_
    rw [hstays]
    exact if_pos (by simp)
  · intro s o x c u ho hstate hin hline hactive hdue hstranded harming hgap
    have hcarry := getCarry_passTo s (lineDue s o x.line) o
    refine sent_line ho hstate hin hline hactive hdue ?_
    rw [activeLine_served (by rw [hcarry]; exact hstranded) (by rw [hcarry]; exact harming) (by rw [hcarry]; exact hgap), if_pos rfl]
    have hsent := sent_sendComposed (x := x) (outCore_passTo s (lineDue s o x.line) o) hstate x.line
    rwa [hcarry] at hsent
  · intro s o x c ho hstate hin hline hactive hdue hstranded harming hgap
    have hcarry := getCarry_passTo s (lineDue s o x.line) o
    obtain ⟨n, hlines, htotal, hsent⟩ := sent_underflow (x := x) (outCore_passTo s (lineDue s o x.line) o) hstate x.line
    rw [holdColours_passTo] at hsent
    obtain ⟨t, hrun, hline, hunder⟩ := sent_line (inTime := false) ho hstate hin hline hactive hdue
      (by rw [activeLine_served (by rw [hcarry]; exact hstranded) (by rw [hcarry]; exact harming) (by rw [hcarry]; exact hgap), if_neg Bool.false_ne_true]; exact hsent)
    exact ⟨t, hrun, hline, hunder ▸ hlines, hunder ▸ htotal⟩

end Sys2Proof.Machine
end

section
/-! The store's memory stays in its canonical form: the rules that the steps of the model are put together by. -/
namespace Sys2Proof.Machine
open Sys2Proof

/-- The store's memory is in its canonical form: `MemInv`, as a proposition that unification does not look into. -/
structure Canonical (s : State) : Prop where
  wf : MemInv s

theorem canonical_same {s t : State} (h : Canonical s) (hmem : t.store.mem = s.store.mem) : Canonical t where
  wf := by
    unfold MemInv
    rw [hmem]
    exact h.wf

theorem canonical_writeBytes {s : State} {a : Nat} {l : List Byte} (h : Canonical s) : Canonical (writeBytes s a l) := ⟨memInv_writeBytes _ _ _ h.wf⟩

/-- The canonical form is kept by the work around an output's lines, and by what replies and events are made of. -/
theorem memKept : ScanKept Canonical where
  same h hview := canonical_same h (congrArg (fun v => v.2.2.2) hview)
  emit _ h := canonical_same h rfl
  write _ _ h := canonical_writeBytes h
  output _ _ _ h := canonical_same h rfl
  slot _ _ _ h := canonical_same h rfl

theorem canonical_ite {c : Prop} [Decidable c] {a b : State} (ha : Canonical a) (hb : Canonical b) : Canonical (if c then a else b) :=
  iteInduction (motive := Canonical) (fun _ => ha) fun _ => hb

theorem canonical_ite_fst {α : Type} {c : Prop} [Decidable c] {a b : State × α} (ha : Canonical a.1) (hb : Canonical b.1) : Canonical (if c then a else b).1 :=
  iteInduction (motive := fun x : State × α => Canonical x.1) (fun _ => ha) fun _ => hb

theorem canonical_ite_snd {α : Type} {c : Prop} [Decidable c] {a b : α × State} (ha : Canonical a.2) (hb : Canonical b.2) : Canonical (if c then a else b).2 :=
  iteInduction (motive := fun x : α × State => Canonical x.2) (fun _ => ha) fun _ => hb

theorem canonical_pair {α : Type} {s : State} {a : α} (h : Canonical s) : Canonical (s, a).1 := h

theorem canonical_fst {α : Type} {x : State × α} {t : State} {a : α} (heq : x = (t, a)) (h : Canonical x.1) : Canonical t := by
  rwa [heq] at h

theorem canonical_forEach {α : Type} {f : α → State → State} {l : List α} {s : State} (hf : ∀ a t, Canonical t → Canonical (f a t)) (h : Canonical s) :
    Canonical (forEach l f s) := Steady.forEach hf l h

theorem canonical_foldl {α : Type} {f : State → α → State} {l : List α} {s : State} (hf : ∀ t a, Canonical t → Canonical (f t a)) (h : Canonical s) :
    Canonical (l.foldl f s) := foldl_keeps Canonical f hf l s h

theorem canonical_foldl_fst {α β : Type} {f : State × β → α → State × β} {l : List α} {x : State × β} (hf : ∀ t a, Canonical t.1 → Canonical (f t a).1)
    (h : Canonical x.1) : Canonical (l.foldl f x).1 := foldl_keeps (fun t : State × β => Canonical t.1) f hf l x h

/-- Whatever state an outcome goes on with has its memory in canonical form. -/
def Yields (r : Host.Outcome State Fault Refusal) : Prop := ∀ t, r = .next t → Canonical t

theorem yields_next {s : State} (h : Canonical s) : Yields (.next s) := by
  intro t ht
  cases ht
  exact h

theorem yields_refused {x : Refusal} : Yields (.refused x) := by
  intro t ht
  cases ht

theorem yields_ite {c : Prop} [Decidable c] {a b : Host.Outcome State Fault Refusal} (ha : Yields a) (hb : Yields b) : Yields (if c then a else b) :=
  iteInduction (motive := Yields) (fun _ => ha) fun _ => hb

theorem canonical_setTime {s : State} {x : TimeSt} (h : Canonical s) : Canonical { s with time := x } := canonical_same h rfl

theorem canonical_setLedger {s : State} {x : LedgerSt} (h : Canonical s) : Canonical { s with ledger := x } := canonical_same h rfl

theorem canonical_setRings {s : State} {x : Tab SliceRings} (h : Canonical s) : Canonical { s with rings := x } := canonical_same h rfl

theorem canonical_setIntakeLast {s : State} {x : Tab Nat} (h : Canonical s) : Canonical { s with intakeLast := x } := canonical_same h rfl

theorem canonical_setSlices {s : State} {x : Tab Slice} (h : Canonical s) : Canonical { s with slices := x } := canonical_same h rfl

theorem canonical_setSluice {s : State} {x : SluiceSt} (h : Canonical s) : Canonical { s with sluice := x } := canonical_same h rfl

theorem canonical_setComp {s : State} {x : CompSt} (h : Canonical s) : Canonical { s with comp := x } := canonical_same h rfl

theorem canonical_setScan {s : State} {x : ScanSt} (h : Canonical s) : Canonical { s with scan := x } := canonical_same h rfl

theorem canonical_setBank {s : State} {x : BankSt} (h : Canonical s) : Canonical { s with bank := x } := canonical_same h rfl

theorem canonical_setMedia {s : State} {x : MediaSt} (h : Canonical s) : Canonical { s with media := x } := canonical_same h rfl

theorem canonical_setHead {s : State} {x : HeadSt} (h : Canonical s) : Canonical { s with head := x } := canonical_same h rfl

theorem canonical_setPtp {s : State} {x : PtpSt} (h : Canonical s) : Canonical { s with ptp := x } := canonical_same h rfl

theorem canonical_setFabric {s : State} {x : FabricSt} (h : Canonical s) : Canonical { s with fabric := x } := canonical_same h rfl

theorem canonical_setLane {s : State} {x : LaneSt} (h : Canonical s) : Canonical { s with lane := x } := canonical_same h rfl

theorem canonical_setIo {s : State} {x : IoSt} (h : Canonical s) : Canonical { s with io := x } := canonical_same h rfl

theorem canonical_setBoot {s : State} {x : BootSt} (h : Canonical s) : Canonical { s with boot := x } := canonical_same h rfl

theorem canonical_setRegs {s : State} {x : RegSt} (h : Canonical s) : Canonical { s with regs := x } := canonical_same h rfl

theorem canonical_setSmb {s : State} {x : SmbSt} (h : Canonical s) : Canonical { s with smb := x } := canonical_same h rfl

theorem canonical_setPower {s : State} {x : PowerSt} (h : Canonical s) : Canonical { s with power := x } := canonical_same h rfl

theorem canonical_setWeir {s : State} {x : WeirSt} (h : Canonical s) : Canonical { s with weir := x } := canonical_same h rfl

theorem canonical_setGauge {s : State} {x : GaugeSt} (h : Canonical s) : Canonical { s with gauge := x } := canonical_same h rfl

theorem canonical_setMigr {s : State} {x : MigrSt} (h : Canonical s) : Canonical { s with migr := x } := canonical_same h rfl

theorem canonical_setOut {s : State} {x : List Output} (h : Canonical s) : Canonical { s with out := x } := canonical_same h rfl

theorem canonical_setFree {s : State} {x : Nat} (h : Canonical s) : Canonical { s with free := x } := canonical_same h rfl

theorem canonical_setPending {s : State} {x : List Instr} (h : Canonical s) : Canonical { s with pending := x } := canonical_same h rfl

theorem canonical_setStore {s : State} {x : StoreSt} (h : Canonical s) (hmem : x.mem = s.store.mem) : Canonical { s with store := x } := canonical_same h hmem

theorem canonical_freshValue {s : State} (h : Canonical s) : Canonical (freshValue s).2 := canonical_same h rfl

/-! Rows that run a packet (R68, R70, R72). -/

theorem canonical_armPacket {s : State} {x : Held} (h : Canonical s) : Canonical (armPacket s x) := canonical_ite (memKept.finish _ _ _ _ h) (canonical_same h rfl)

theorem canonical_runDirect {s : State} {c : Cmd} {op : Nat} {form : Held → Bool} {check : State → Held → Cmd → Option Fail}
    {act : State → Held → Cmd → State} (hact : ∀ t x, Canonical t → Canonical (act t x c)) (h : Canonical s) : Canonical (runDirect s c op form check act) := by
  unfold runDirect
  split
  · exact h
  · refine canonical_ite ?_ h
    split
    · exact memKept.finish _ _ _ _ h
    · exact hact _ _ h

/-- A packet that passes its checks is armed, or acts at once. -/
theorem canonical_runPacket {s : State} {c : Cmd} {op : Nat} {form : Held → Bool} {check : State → Held → Cmd → Option Fail}
    {act : State → Held → Cmd → State} (hact : ∀ t x, Canonical t → Canonical (act t x c)) (h : Canonical s) : Canonical (runPacket s c op form check act) :=
  canonical_runDirect (fun _ _ ht => canonical_ite (canonical_armPacket ht) (hact _ _ ht)) h

theorem canonical_eachMember {ps : List Packet} {f : Nat → Packet → State → State} {s : State} (hf : ∀ j p t, Canonical t → Canonical (f j p t)) (h : Canonical s) :
    Canonical (eachMember ps f s) := canonical_forEach (fun _ _ ht => hf _ _ _ ht) h

end Sys2Proof.Machine
end

section
/-! The memory's canonical form through Sys2Proof/Machine/Packets. -/
namespace Sys2Proof.Machine
open Sys2Proof

variable {s : State}

theorem canonical_modTod {p : Nat} {f : TodPort → TodPort} (h : Canonical s) : Canonical (modTod s p f) := canonical_same h rfl

theorem canonical_sendCtlBlock {port type : Nat} {l : List Byte} (h : Canonical s) : Canonical (sendCtlBlock s port type l) :=
  memKept.steady.sendBlocks _ _ (memKept.emit _ h)

theorem canonical_countUnrouted {dest : Nat} (h : Canonical s) : Canonical (countUnrouted s dest) := canonical_ite (canonical_same h rfl) h

theorem canonical_resend {port : Nat} {l : List Byte} (h : Canonical s) : Canonical (resend s port l) := by
  unfold resend
  exact memKept.steady.sendBlocks _ _ (memKept.emit _ h)

end Sys2Proof.Machine
end

section
/-! The memory's canonical form through Sys2Proof/Machine/Ops. -/
namespace Sys2Proof.Machine
open Sys2Proof

variable {s : State}

theorem canonical_modSlice {i : Nat} {f : Slice → Slice} (h : Canonical s) : Canonical (modSlice s i f) := canonical_same h rfl

theorem canonical_modRings {i : Nat} {f : SliceRings → SliceRings} (h : Canonical s) : Canonical (modRings s i f) := canonical_same h rfl

theorem canonical_modSlot {i : Nat} {f : Slot → Slot} (h : Canonical s) : Canonical (modSlot s i f) := canonical_same h rfl

theorem canonical_modOut {i : Nat} {f : OutputSt → OutputSt} (h : Canonical s) : Canonical (modOut s i f) := canonical_same h rfl

theorem canonical_modBank {i : Nat} {f : Bank → Bank} (h : Canonical s) : Canonical (modBank s i f) := canonical_same h rfl

theorem canonical_hostPut {slice addr : Nat} {l : List Byte} (h : Canonical s) : Canonical (hostPut s slice addr l) := memKept.emit _ h

theorem canonical_ringWrite {slice : Nat} {space : Bool} {addr : Nat} {l : List Byte} (h : Canonical s) :
    Canonical (ringWrite s slice space addr l) :=
  canonical_ite (canonical_writeBytes h) (canonical_hostPut h)

theorem canonical_stopRing {slice which : Nat} (h : Canonical s) : Canonical (stopRing s slice which) := canonical_modRings h

theorem canonical_dropHeld {k : CmdKey} (h : Canonical s) : Canonical (dropHeld s k) := canonical_modRings h

theorem canonical_modHeld {k : CmdKey} {f : Held → Held} (h : Canonical s) : Canonical (modHeld s k f) := canonical_modRings h

theorem canonical_modTag {slice ring tag : Nat} {f : TagRec → Option TagRec} (h : Canonical s) : Canonical (modTag s slice ring tag f) :=
  canonical_modRings h

theorem canonical_finishNow {x : Held} {st : Status} {fields : List Field} (h : Canonical s) : Canonical (finishNow s x st fields) :=
  memKept.finish _ _ _ _ h

theorem canonical_holdOn {x : Held} (h : Canonical s) : Canonical (holdOn s x) := canonical_modHeld h

theorem canonical_defer {x : Held} {fields : List Field} (h : Canonical s) : Canonical (defer s x fields) :=
  memKept.steady.sendReply _ _ (canonical_modTag (canonical_modHeld h))

theorem canonical_endScans {lane n : Nat} (h : Canonical s) : Canonical (endScans s lane n) := by
  unfold endScans
  refine canonical_forEach (fun _ _ ht => ?_) h
  dsimp only
  split
  · exact canonical_finishNow (canonical_same ht rfl)
  · exact canonical_same ht rfl

theorem canonical_assertAlert (h : Canonical s) : Canonical (assertAlert s) := memKept.emit _ (canonical_same h rfl)

theorem canonical_postFaults (h : Canonical s) : Canonical (postFaults s) := by
  unfold postFaults
  refine canonical_forEach (fun _ _ ht => ?_) (canonical_same h rfl)
  split
  · exact memKept.postEvent _ _ ht
  · exact ht

theorem canonical_setDevState {d : DevState} (h : Canonical s) : Canonical (setDevState s d) :=
  canonical_ite h (canonical_ite (canonical_ite (memKept.steady.raiseEntry _ (canonical_same h rfl)) (memKept.emit _ (memKept.steady.raiseEntry _
    (canonical_same h rfl)))) (memKept.emit _ (canonical_ite (memKept.steady.raiseEntry _ (canonical_same h rfl)) (memKept.emit _
    (memKept.steady.raiseEntry _ (canonical_same h rfl))))))

end Sys2Proof.Machine
end

section
/-! The memory's canonical form through Sys2Proof/Machine/Rings. -/
namespace Sys2Proof.Machine
open Sys2Proof

variable {s : State}

theorem canonical_writeSqCtrl {slice k value : Nat} (h : Canonical s) : Canonical (writeSqCtrl s slice k value) :=
  canonical_ite (canonical_modRings h) (canonical_ite (canonical_modRings h) (canonical_ite (memKept.steady.postRingError _ _ _ _ _
    (canonical_modRings h)) (canonical_ite (memKept.steady.postRingError _ _ _ _ _ (canonical_modRings h)) (canonical_modRings h))))

theorem canonical_writeRepCtrl {slice which value : Nat} (h : Canonical s) : Canonical (writeRepCtrl s slice which value) :=
  canonical_ite (canonical_modRings h) (canonical_ite (canonical_modRings h) (canonical_ite (memKept.steady.postRingError _ _ _ _ _
    (canonical_modRings h)) (canonical_ite (memKept.steady.postRingError _ _ _ _ _ (canonical_modRings h)) (canonical_ite (memKept.steady.flushLost _
    (memKept.steady.guardEvent _ (canonical_modRings h))) (memKept.steady.flushWaiting _ (canonical_modRings h))))))

theorem canonical_writeRingCtrl {slice which value : Nat} (h : Canonical s) : Canonical (writeRingCtrl s slice which value) :=
  canonical_ite h (canonical_ite (canonical_writeSqCtrl h) (canonical_ite (canonical_writeRepCtrl h) h))

theorem yields_execRingEnableWrite {slice which value : Nat} (h : Canonical s) : Yields (execRingEnableWrite slice which value s) :=
  yields_next (canonical_writeRingCtrl h)

theorem canonical_clearRingError {slice which : Nat} (h : Canonical s) : Canonical (clearRingError s slice which) := canonical_modRings h

theorem yields_execRingErrorClear {slice which : Nat} (h : Canonical s) : Yields (execRingErrorClear slice which s) :=
  yields_next (canonical_ite (canonical_clearRingError h) h)

theorem canonical_writeSqTail {slice ring tail : Nat} (h : Canonical s) : Canonical (writeSqTail s slice ring tail) :=
  canonical_ite h (canonical_ite (memKept.steady.postRingError _ _ _ _ _ h) (canonical_modRings h))

theorem yields_execSqTailDoorbell {slice ring tail : Nat} (h : Canonical s) : Yields (execSqTailDoorbell slice ring tail s) :=
  yields_next (canonical_writeSqTail h)

theorem canonical_writeRqHead {slice head : Nat} (h : Canonical s) : Canonical (writeRqHead s slice head) :=
  canonical_ite (memKept.steady.flushWaiting _ (canonical_modRings h)) h

theorem yields_execRqHeadWrite {slice head : Nat} (h : Canonical s) : Yields (execRqHeadWrite slice head s) := yields_next (canonical_writeRqHead h)

theorem canonical_postLiveness {slice i : Nat} {v : LiveEvent} (h : Canonical s) : Canonical (postLiveness s slice i v).1 :=
  canonical_ite_fst (canonical_pair h) (canonical_ite_fst (canonical_pair (memKept.postEvent _ _ (memKept.steady.guardEvent _
    (memKept.steady.flushLost _ (memKept.steady.guardEvent _ h))))) (canonical_pair (memKept.steady.guardEvent _ (memKept.steady.flushLost _
    (memKept.steady.guardEvent _ h)))))

theorem canonical_flushLiveness {slice : Nat} (h : Canonical s) : Canonical (flushLiveness s slice) := by
  unfold flushLiveness
  refine canonical_forEach (fun _ _ ht => ?_) ?_
  · dsimp only
    split
    · refine canonical_ite ht ?_
      split
      · rename_i heq
        have hu := canonical_fst heq (canonical_postLiveness ht)
        exact memKept.modEntry _ _ hu
      · rename_i heq
        have hu := canonical_fst heq (canonical_postLiveness ht)
        exact hu
    · exact ht
  · refine canonical_forEach (fun _ _ hu => ?_) h
    dsimp only
    split
    · rename_i heq
      have hv := canonical_fst heq (canonical_postLiveness hu)
      exact canonical_same hv rfl
    · rename_i heq
      have hv := canonical_fst heq (canonical_postLiveness hu)
      exact hv

theorem canonical_writeEqHead {slice head : Nat} (h : Canonical s) : Canonical (writeEqHead s slice head) :=
  canonical_ite (canonical_flushLiveness (memKept.steady.flushLost _ (memKept.steady.guardEvent _ (canonical_modRings h)))) h

theorem yields_execEqHeadWrite {slice head : Nat} (h : Canonical s) : Yields (execEqHeadWrite slice head s) := yields_next (canonical_writeEqHead h)

theorem yields_execInterruptHoldoffExpiry {slice which : Nat} (h : Canonical s) : Yields (execInterruptHoldoffExpiry slice which s) :=
  yields_next (canonical_ite h (canonical_ite (memKept.steady.ringInterrupt _ _ (canonical_modRings h)) (canonical_modRings h)))

theorem canonical_fetchAhead {slice : Nat} {host : List HostEntry} (h : Canonical s) : Canonical (fetchAhead s slice host) := canonical_modRings h

theorem canonical_refusePacket {slice k : Nat} {p : Packet} {st : Status} {fields : List Field} (h : Canonical s) :
    Canonical (refusePacket s slice k p st fields) :=
  memKept.steady.sendReply _ _ (canonical_ite (memKept.steady.count _ _ _ _ _ h) h)

theorem canonical_replyDuplicate {slice k : Nat} {p : Packet} {t : TagRec} (h : Canonical s) : Canonical (replyDuplicate s slice k p t) :=
  memKept.steady.sendReply _ _ h

theorem canonical_holdPacket {slice k i : Nat} {p : Packet} {pos len : Nat} (h : Canonical s) : Canonical (holdPacket s slice k i p pos len) :=
  canonical_modRings h

theorem canonical_takeSingle {slice k i : Nat} {raw : Packet} (h : Canonical s) : Canonical (takeSingle s slice k i raw) := by
  unfold takeSingle
  dsimp only
  split
  · exact canonical_refusePacket h
  · exact canonical_replyDuplicate h
  · exact canonical_holdPacket h

theorem canonical_failGroup {slice k : Nat} {ps : List Packet} {j : Nat} {st : Status} (h : Canonical s) : Canonical (failGroup s slice k ps j st) :=
  canonical_eachMember (fun _ _ _ ht => canonical_ite (canonical_refusePacket ht) (canonical_refusePacket ht)) h

theorem canonical_groupIntake {slice k i len : Nat} {lead : Packet} {j : Nat} {l : List Packet} (h : Canonical s) :
    Canonical (groupIntake slice k i len lead j l s).1 := by
  induction l generalizing j s with
  | nil => exact h
  | cons raw rest ih => exact canonical_pair (ih (canonical_ite (canonical_holdPacket h) h))

theorem canonical_takeGroup {slice k i : Nat} {raws : List Packet} (h : Canonical s) : Canonical (takeGroup s slice k i raws) := by
  unfold takeGroup
  refine canonical_ite ?_ ?_
  · refine canonical_eachMember (fun _ _ _ ht => ?_) h
    split
    · exact canonical_refusePacket ht
    · exact ht
  · refine canonical_ite (canonical_eachMember (fun _ _ _ ht => canonical_refusePacket ht) h) ?_
    dsimp only
    split
    · refine canonical_eachMember (fun _ _ _ ht => ?_) h
      split
      · exact canonical_replyDuplicate ht
      · exact canonical_refusePacket ht
    · split
      · split
        · exact canonical_failGroup h
        · exact h
      · exact canonical_groupIntake h

theorem canonical_fetchError {slice k : Nat} {i : Word32} (h : Canonical s) : Canonical (fetchError s slice k i) := by
  unfold fetchError
  refine memKept.steady.postRingError _ _ _ _ _ ?_
  refine canonical_stopRing ?_
  refine canonical_ite ?_ h
  split
  · exact memKept.denyAt _ _ _ _ _ h
  · exact h

theorem canonical_takeNext {slice : Nat} {host : List HostEntry} (h : Canonical s) : Canonical (takeNext s slice host) := by
  unfold takeNext
  refine canonical_ite h ?_
  refine canonical_ite (canonical_fetchAhead h) ?_
  dsimp only
  split
  · exact canonical_fetchAhead h
  · exact canonical_fetchError h
  · split
    · exact canonical_takeSingle (memKept.steady.writeback _ (memKept.steady.guardWb _ (memKept.steady.count _ _ _ _ _ (canonical_modSlice
        (canonical_setIntakeLast (canonical_modRings h))))))
    · exact canonical_takeGroup (memKept.steady.writeback _ (memKept.steady.guardWb _ (memKept.steady.count _ _ _ _ _ (canonical_modSlice
        (canonical_setIntakeLast (canonical_modRings h))))))

theorem canonical_hostWriteError {slice which : Nat} (h : Canonical s) : Canonical (hostWriteError s slice which) :=
  canonical_ite h (memKept.steady.postRingError _ _ _ _ _ (canonical_stopRing h))

theorem canonical_actNop {x : Held} {c : Cmd} (h : Canonical s) : Canonical (actNop s x c) := canonical_finishNow h

theorem yields_execNop {c : Cmd} (h : Canonical s) : Yields (execNop c s) := yields_next (canonical_runPacket (fun _ _ ht => canonical_actNop ht) h)

end Sys2Proof.Machine
end

section
/-! The memory's canonical form through Sys2Proof/Machine/Reset. -/
namespace Sys2Proof.Machine
open Sys2Proof

variable {s : State}

theorem canonical_resetPins (h : Canonical s) : Canonical (resetPins s) := by
  unfold resetPins
  extract_lets low u u1 u2 t u3 u4
  have hlow : ∀ (p : Nat) (b : Bool) {v : State}, Canonical v → Canonical (low p b v) := fun _ _ _ hv => canonical_ite (memKept.emit _ hv) hv
  have hu : Canonical u := hlow _ _ (hlow _ _ h)
  have hu1 : Canonical u1 := canonical_forEach (fun _ _ ht => hlow _ _ ht) hu
  have hu2 : Canonical u2 := canonical_forEach (fun _ _ ht => hlow _ _ ht) hu1
  have hu4 : Canonical u4 := hlow _ _ (hlow _ _ hu2)
  exact canonical_ite (memKept.emit _ hu4) hu4

theorem canonical_reset : Canonical State.reset := ⟨resetIsInvariant⟩

theorem canonical_keepFlash (_ : Canonical s) : Canonical (keepFlash s) := canonical_same canonical_reset rfl

theorem canonical_deviceReset {cause : Nat} (h : Canonical s) : Canonical (deviceReset s cause) := by
  unfold deviceReset
  extract_lets u x u1 u2 b u3 x1 x2
  have hu : Canonical u := canonical_resetPins h
  clear_value u
  have hu1 : Canonical u1 := canonical_same hu rfl
  clear_value u1
  have hu2 : Canonical u2 := memKept.addFault _ _ _ hu1
  clear_value u2
  have hu3 : Canonical u3 := canonical_keepFlash hu2
  clear_value u3
  exact canonical_same hu3 rfl

theorem canonical_powerOn (h : Canonical s) : Canonical (powerOn s) := by
  unfold powerOn
  exact memKept.addFault _ _ _ (canonical_same (canonical_keepFlash h) rfl)

theorem canonical_requestReset {cause : Nat} (h : Canonical s) : Canonical (requestReset s cause) :=
  canonical_ite h (canonical_ite (canonical_same h rfl) (canonical_deviceReset h))

end Sys2Proof.Machine
end

section
/-! The memory's canonical form through Sys2Proof/Machine/Registers. -/
namespace Sys2Proof.Machine
open Sys2Proof

variable {s : State}

theorem canonical_writeQueueTail {slice queue : Nat} {tx : Bool} {tail : Nat} (h : Canonical s) : Canonical (writeQueueTail s slice queue tx tail) :=
  canonical_ite (canonical_same h rfl) h

theorem canonical_latchGauge {off : Nat} (h : Canonical s) : Canonical (latchGauge s off) := canonical_ite (canonical_same h rfl) h

theorem canonical_regRead {off size : Nat} (h : Canonical s) : Canonical (regRead s off size).1 := by
  unfold regRead
  dsimp only
  split
  · exact canonical_ite_fst (canonical_pair (canonical_same (canonical_latchGauge h) rfl)) (canonical_pair (canonical_latchGauge h))
  · exact canonical_pair h
  · refine canonical_ite_fst ?_ (canonical_pair h)
    split
    · exact canonical_pair (canonical_same h rfl)
    · exact canonical_pair h
    · exact canonical_pair h

theorem canonical_writeBase {slice which v : Nat} (h : Canonical s) : Canonical (writeBase s slice which v) := canonical_modRings h

theorem canonical_writeWb {slice v : Nat} (h : Canonical s) : Canonical (writeWb s slice v) := canonical_modRings h

theorem canonical_writeRingReg {slice o v : Nat} (h : Canonical s) : Canonical (writeRingReg s slice o v) :=
  canonical_ite h (canonical_ite (canonical_ite (canonical_writeBase h) (canonical_ite (canonical_writeRingCtrl h) (canonical_ite
    (canonical_writeSqTail h) h))) (canonical_ite (canonical_writeBase h) (canonical_ite (canonical_writeRingCtrl h) (canonical_ite
    (canonical_writeRqHead h) (canonical_ite (canonical_writeBase h) (canonical_ite (canonical_writeRingCtrl h) (canonical_ite (canonical_writeEqHead
    h) (canonical_ite (canonical_writeWb h) (canonical_ite (canonical_writeQueueTail h) h)))))))))

theorem canonical_popFirq (h : Canonical s) : Canonical (popFirq s) :=
  canonical_ite (canonical_same h rfl) (memKept.steady.raiseEntry _ (canonical_same h rfl))

theorem canonical_writeManagerReg {o v : Nat} (h : Canonical s) : Canonical (writeManagerReg s o v) :=
  canonical_ite (canonical_same h rfl) (canonical_ite (canonical_same h rfl) (canonical_ite (canonical_ite (canonical_popFirq h) h) (canonical_ite
    (canonical_ite (canonical_same h rfl) (canonical_ite (canonical_same h rfl) h)) h)))

theorem canonical_writeReg {off v : Nat} (h : Canonical s) : Canonical (writeReg s off v) :=
  canonical_ite (canonical_ite (canonical_requestReset h) h) (canonical_ite h (canonical_ite (canonical_writeRingReg h) (canonical_ite
    (canonical_writeManagerReg h) h)))

theorem canonical_regWrite {off size v : Nat} (h : Canonical s) : Canonical (regWrite s off size v) := by
  unfold regWrite
  refine canonical_ite h ?_
  refine canonical_ite ?_ ?_
  · refine canonical_ite h ?_
    split
    · exact canonical_writeReg h
    · exact canonical_writeReg h
  · refine canonical_ite ?_ h
    dsimp only
    split
    · exact canonical_same h rfl
    · refine canonical_ite ?_ (canonical_writeReg h)
      split
      · exact canonical_writeReg (canonical_same h rfl)
      · exact h

theorem canonical_unmaskVector {vector : Nat} (h : Canonical s) : Canonical (unmaskVector s vector) :=
  canonical_ite (memKept.emit _ (canonical_same (canonical_same h rfl) rfl)) (canonical_same h rfl)

theorem canonical_writeMsix {w v : Nat} (h : Canonical s) : Canonical (writeMsix s w v) :=
  canonical_ite (canonical_same h rfl) (canonical_ite (canonical_same h rfl) (canonical_unmaskVector h))

theorem canonical_hostRead {off : Nat} (h : Canonical s) : Canonical (hostRead s off).1 :=
  canonical_ite_fst (canonical_regRead h) (canonical_ite_fst (canonical_pair h) (canonical_ite_fst (canonical_pair h) (canonical_regRead h)))

theorem canonical_hostRegWrite {off size v : Nat} (h : Canonical s) : Canonical (hostRegWrite s off size v) :=
  canonical_ite (canonical_ite (canonical_writeMsix (canonical_writeMsix h)) (canonical_writeMsix h)) (canonical_regWrite h)

theorem yields_execRegisterWrite {offset size value : Nat} (h : Canonical s) : Yields (execRegisterWrite offset size value s) :=
  yields_next (canonical_hostRegWrite h)

theorem yields_execRegisterLowerHalfRead {offset : Nat} (h : Canonical s) : Yields (execRegisterLowerHalfRead offset s) := by
  unfold execRegisterLowerHalfRead
  dsimp only
  exact yields_next (memKept.emit _ (canonical_hostRead h))

theorem yields_execGaugeLastRead {unit : Nat} (h : Canonical s) : Yields (execGaugeLastRead unit s) := by
  unfold execGaugeLastRead
  refine yields_next ?_
  refine canonical_ite ?_ h
  dsimp only
  exact memKept.emit _ (canonical_regRead h)

theorem yields_execResetReqWrite {value : Nat} (h : Canonical s) : Yields (execResetReqWrite value s) := yields_next (canonical_writeReg h)

theorem yields_execFirqPop (h : Canonical s) : Yields (execFirqPop s) := yields_next (canonical_writeReg h)

theorem yields_execFwinTimeoutClear (h : Canonical s) : Yields (execFwinTimeoutClear s) := yields_next (canonical_ite (canonical_same h rfl) h)

theorem yields_execMsixVectorUnmask {vector : Nat} (h : Canonical s) : Yields (execMsixVectorUnmask vector s) :=
  yields_next (canonical_ite h (canonical_unmaskVector h))

theorem canonical_weirWrite {a : Nat} {l : List Byte} (h : Canonical s) : Canonical (weirWrite s a l) :=
  canonical_ite (canonical_foldl (fun _ _ ht => canonical_regWrite ht) h) (canonical_writeBytes h)

/-- Reading a register leaves the store's bytes. -/
theorem mem_regRead (s : State) (off size : Nat) : (regRead s off size).1.store.mem = s.store.mem := by
  have hgauge : (latchGauge s off).store.mem = s.store.mem := by unfold latchGauge; split <;> rfl
  unfold regRead
  split
  · exact iteInduction (motive := fun r : State × Nat => r.1.store.mem = s.store.mem) (fun _ => hgauge) fun _ => hgauge
  · rfl
  · split
    · split <;> rfl
    · rfl

theorem canonical_weirRead {a n : Nat} (h : Canonical s) : Canonical (weirRead s a n).1 := by
  unfold weirRead
  cases hreg : inRegSpace a with
  | true => exact canonical_same h (regReads_same (·.store.mem) regRead mem_regRead a n _ (s, []))
  | false => exact memKept.noteRead _ _ _ h

theorem canonical_storeWrite {slice engine a : Nat} {l : List Byte} (h : Canonical s) : Canonical (storeWrite s slice engine a l).1 := by
  unfold storeWrite
  split
  · exact canonical_pair (canonical_weirWrite h)
  · exact canonical_pair (memKept.denyAt _ _ _ _ _ h)

theorem canonical_writeChecked {slice engine a : Nat} {l : List Byte} (h : Canonical s) : Canonical (writeChecked s slice engine a l).1 :=
  canonical_foldl_fst (fun _ _ ht => canonical_pair (canonical_storeWrite ht)) (canonical_pair h)

theorem canonical_storeRead {slice engine a n : Nat} (h : Canonical s) : Canonical (storeRead s slice engine a n).1 := by
  unfold storeRead
  dsimp only
  split
  · exact canonical_pair (canonical_weirRead h)
  · exact canonical_pair (memKept.denyAt _ _ _ _ _ h)

theorem canonical_undefineDest {slice engine a n : Nat} (h : Canonical s) : Canonical (undefineDest s slice engine a n) :=
  canonical_foldl (fun _ _ ht => canonical_ite (canonical_writeBytes ht) ht) (canonical_same h rfl)

theorem canonical_destWrite {slice engine : Nat} {space ok : Bool} {a : Nat} {l : List Byte} (h : Canonical s) :
    Canonical (destWrite s slice engine space ok a l).1 := by
  unfold destWrite
  refine canonical_ite_fst ?_ (canonical_ite_fst (canonical_pair (canonical_hostPut h)) (canonical_pair (memKept.denyAt _ _ _ _ _ h)))
  split
  · next heq =>
    have ht := canonical_fst heq (canonical_storeWrite h)
    exact canonical_pair ht
  · next heq =>
    have ht := canonical_fst heq (canonical_storeWrite h)
    exact canonical_pair (canonical_undefineDest ht)

theorem canonical_srcRead {slice engine : Nat} {space : Bool} {c : Cmd} {a n : Nat} (h : Canonical s) :
    Canonical (srcRead s slice engine space c a n).1 :=
  canonical_ite_fst (canonical_storeRead h) (canonical_ite_fst (canonical_pair h) (canonical_pair (memKept.denyAt _ _ _ _ _ h)))

end Sys2Proof.Machine
end

section
/-! The memory's canonical form through Sys2Proof/Machine/Surfaces. -/
namespace Sys2Proof.Machine
open Sys2Proof

variable {s : State}

theorem canonical_placeSurface {i g : Nat} {x : Surface} (h : Canonical s) : Canonical (placeSurface s i g x) := memKept.modSurf _ _ h

theorem canonical_allocPixel {sl fmt w n : Nat} {wr : Writer} (h : Canonical s) : Canonical (allocPixel s sl fmt w n wr).1 := by
  unfold allocPixel
  dsimp only
  split
  · exact canonical_pair (canonical_placeSurface h)
  · exact canonical_pair h

theorem canonical_allocBytes {sl len : Nat} {wr : Writer} (h : Canonical s) : Canonical (allocBytes s sl len wr).1 := by
  unfold allocBytes
  dsimp only
  split
  · exact canonical_pair (canonical_placeSurface h)
  · exact canonical_pair h

theorem canonical_addUser {n : Nat} (h : Canonical s) : Canonical (addUser s n) := memKept.modSurf _ _ h

theorem canonical_dropUser {n : Nat} (h : Canonical s) : Canonical (dropUser s n) := memKept.modSurf _ _ h

theorem canonical_freeStorage {i : Nat} (h : Canonical s) : Canonical (freeStorage s i) := canonical_same h rfl

theorem canonical_abandonRows {i : Nat} (h : Canonical s) : Canonical (abandonRows s i) := canonical_same h rfl

theorem canonical_cancelLatches {i : Nat} (h : Canonical s) : Canonical (cancelLatches s i) := canonical_same h rfl

theorem canonical_endWatchers {i n : Nat} (h : Canonical s) : Canonical (endWatchers s i n) :=
  canonical_setGauge (canonical_forEach (fun _ _ ht => memKept.finishKey _ _ _ _ ht) (canonical_same h rfl))

theorem canonical_beginRelease {i : Nat} {key : Option CmdKey} (h : Canonical s) : Canonical (beginRelease s i key) :=
  memKept.modSurf _ _ (canonical_endWatchers (canonical_cancelLatches h))

theorem canonical_poisonUnit {a : Nat} (h : Canonical s) : Canonical (poisonUnit s a) := by
  unfold poisonUnit
  dsimp only
  split
  · exact memKept.modSurf _ _ (canonical_same h rfl)
  · exact canonical_same h rfl

theorem canonical_countCorrected {pc cls : Nat} (h : Canonical s) : Canonical (countCorrected s pc cls) :=
  canonical_ite (memKept.postEvent _ _ (memKept.steady.count _ _ _ _ _ (canonical_same h rfl))) (memKept.steady.count _ _ _ _ _ (canonical_same h
    rfl))

theorem canonical_rowWritten {i r : Nat} (h : Canonical s) : Canonical (rowWritten s i r) := memKept.modSurf _ _ h

theorem canonical_queueWork {w : LaneWork} (h : Canonical s) : Canonical (queueWork s w) := canonical_same h rfl

theorem canonical_storeLine {x : Surface} {y : Nat} {l : List Byte} (h : Canonical s) : Canonical (storeLine s x y l) := canonical_writeBytes h

theorem canonical_storeUnit {x : Surface} {u : Nat} {l : List Byte} (h : Canonical s) : Canonical (storeUnit s x u l) := canonical_writeBytes h

theorem canonical_storeRecord {a : Nat} {l : List Byte} (h : Canonical s) : Canonical (storeRecord s a l) :=
  canonical_writeBytes (canonical_foldl (fun _ _ ht => canonical_writeBytes ht) h)

theorem canonical_storeRow {x : Surface} {r : Nat} {blocks : List (List Byte)} (h : Canonical s) : Canonical (storeRow s x r blocks) :=
  canonical_storeRecord (canonical_writeBytes h)

theorem canonical_gaugeResult {u kind port tagA tagB pass : Nat} {lost : Bool} {fold data : List Byte} (h : Canonical s) :
    Canonical (gaugeResult s u kind port tagA tagB pass lost fold data) :=
  memKept.queueGauge _ (canonical_same h rfl)

theorem canonical_actSurfaceAlloc {x : Held} {c : Cmd} (h : Canonical s) : Canonical (actSurfaceAlloc s x c) := by
  unfold actSurfaceAlloc
  dsimp only
  split
  · exact canonical_finishNow h
  · exact canonical_finishNow (canonical_placeSurface h)

theorem yields_execSurfaceAlloc {c : Cmd} (h : Canonical s) : Yields (execSurfaceAlloc c s) :=
  yields_next (canonical_runPacket (fun _ _ ht => canonical_actSurfaceAlloc ht) h)

theorem canonical_actSurfaceRelease {x : Held} {c : Cmd} (h : Canonical s) : Canonical (actSurfaceRelease s x c) :=
  canonical_ite (canonical_finishNow (canonical_freeStorage (canonical_beginRelease h))) (canonical_defer (canonical_beginRelease h))

theorem yields_execSurfaceRelease {c : Cmd} (h : Canonical s) : Yields (execSurfaceRelease c s) :=
  yields_next (canonical_runPacket (fun _ _ ht => canonical_actSurfaceRelease ht) h)

theorem canonical_completeRelease {i : Nat} (h : Canonical s) : Canonical (completeRelease s i) := by
  unfold completeRelease
  dsimp only
  split
  · exact canonical_finishNow (canonical_freeStorage h)
  · exact memKept.steady.post _ _ _ (canonical_freeStorage h)

theorem yields_execSurfaceReleaseComplete {handle : Nat} (h : Canonical s) : Yields (execSurfaceReleaseComplete handle s) :=
  yields_next (canonical_ite (canonical_completeRelease h) h)

theorem canonical_writeSource {sl : Nat} {space : Bool} {c : Cmd} {src pitch n sz : Nat} (h : Canonical s) :
    Canonical (writeSource s sl space c src pitch n sz).1 := by
  unfold writeSource
  refine canonical_ite_fst ?_ (canonical_ite_fst (canonical_pair h) (canonical_pair (memKept.denyAt _ _ _ _ _ h)))
  refine canonical_foldl_fst (fun _ _ ht => ?_) (canonical_pair h)
  refine canonical_ite_fst ht ?_
  split
  · rename_i heq
    have hu := canonical_fst heq (canonical_storeRead ht)
    exact canonical_pair hu
  · rename_i heq
    have hu := canonical_fst heq (canonical_storeRead ht)
    exact canonical_pair hu

theorem canonical_putLine {sl i y : Nat} {l : List Byte} (h : Canonical s) : Canonical (putLine s sl i y l).1 := by
  unfold putLine
  dsimp only
  split
  · exact canonical_pair (memKept.denyAt _ _ _ _ _ h)
  · exact canonical_pair (memKept.gaugeLine _ _ _ (canonical_ite (canonical_storeUnit h) (canonical_storeLine h)))

theorem canonical_writeLines {sl i first : Nat} {luma chroma : List (List Byte)} (h : Canonical s) :
    Canonical (writeLines s sl i first luma chroma).1 := by
  refine canonical_foldl_fst (fun x k hx => canonical_ite_fst hx ?_) (canonical_pair h)
  extract_lets y surf c
  have hc : Canonical c.1 := by
    refine canonical_ite_fst ?_ hx
    split
    · exact canonical_putLine hx
    · exact hx
  refine canonical_ite_fst hc ?_
  split
  · next heq => exact canonical_pair (memKept.modSurf _ _ (canonical_fst heq (canonical_putLine hc)))
  · exact canonical_putLine hc

theorem canonical_laneLines {x : Held} {i first : Nat} {st : Status} {luma chroma : List (List Byte)} (h : Canonical s) :
    Canonical (laneLines s x i first st luma chroma) :=
  canonical_holdOn (canonical_same (canonical_forEach (fun _ _ ht => memKept.gaugeLine _ _ _ (canonical_queueWork ht)) h) rfl)

theorem canonical_markLines {i first count : Nat} (h : Canonical s) : Canonical (markLines s i first count) :=
  canonical_ite (canonical_foldl (fun _ _ ht => memKept.gaugeLine _ _ _ ht) (canonical_foldl (fun _ _ hu => memKept.gaugeLine _ _ _ hu) h))
    (canonical_foldl (fun _ _ ht => memKept.gaugeLine _ _ _ ht) h)

theorem canonical_actSurfaceWrite {x : Held} {c : Cmd} (h : Canonical s) : Canonical (actSurfaceWrite s x c) := by
  unfold actSurfaceWrite
  refine canonical_ite (canonical_finishNow (memKept.modSurf _ _ (canonical_markLines (canonical_ite (memKept.beginPass _ h) h)))) ?_
  dsimp only
  exact canonical_ite (canonical_ite (canonical_finishNow (canonical_writeSource (canonical_ite (memKept.beginPass _ h) h))) (canonical_laneLines
    (canonical_writeSource (canonical_ite (memKept.beginPass _ h) h)))) (canonical_finishNow (canonical_writeLines (canonical_writeSource
    (canonical_ite (memKept.beginPass _ h) h))))

theorem canonical_noteLines {x : Surface} {first count cls : Nat} (h : Canonical s) : Canonical (noteLines s x first count cls) :=
  canonical_forEach (fun _ _ ht => memKept.noteRead _ _ _ ht) h

theorem canonical_countDiscard {d : Discard} (h : Canonical s) : Canonical (countDiscard s d) := memKept.steady.count _ _ _ _ _ h

theorem canonical_actSurfaceRead {x : Held} {c : Cmd} (h : Canonical s) : Canonical (actSurfaceRead s x c) := by
  unfold actSurfaceRead
  extract_lets p i surf first count pitch dst luma chroma badLine all u put r res complete det
  have hput : ∀ (a : State × Bool) (k : Nat), Canonical a.1 → Canonical (put a k).1 := fun a k ha =>
    canonical_ite_fst (canonical_destWrite ha) (canonical_pair (canonical_ite (canonical_undefineDest ha) ha))
  have hu : Canonical u := memKept.countDiscards _ _ _ (canonical_noteLines h)
  have hr : Canonical r.1 := canonical_foldl_fst hput (canonical_pair hu)
  have hres : Canonical res.1 := canonical_ite_fst hr (canonical_foldl_fst hput (canonical_pair hr))
  clear_value badLine
  refine canonical_ite (canonical_finishNow hres) ?_
  split
  · exact canonical_finishNow hres
  · exact canonical_finishNow hres

theorem yields_execSurfaceRead {c : Cmd} (h : Canonical s) : Yields (execSurfaceRead c s) :=
  yields_next (canonical_runPacket (fun _ _ ht => canonical_actSurfaceRead ht) h)

theorem canonical_actSurfaceFence {x : Held} {c : Cmd} (h : Canonical s) : Canonical (actSurfaceFence s x c) :=
  canonical_ite (canonical_finishNow h) (canonical_defer (canonical_same h rfl))

theorem yields_execSurfaceFence {c : Cmd} (h : Canonical s) : Yields (execSurfaceFence c s) :=
  yields_next (canonical_runPacket (fun _ _ ht => canonical_actSurfaceFence ht) h)

theorem canonical_endFence {f : Fence} {st : Status} (h : Canonical s) : Canonical (endFence s f st) :=
  memKept.finishKey _ _ _ _ (canonical_same h rfl)

theorem yields_execSurfaceFenceMet {c : Cmd} (h : Canonical s) : Yields (execSurfaceFenceMet c s) := by
  unfold execSurfaceFenceMet
  refine yields_next ?_
  split
  · exact canonical_ite (canonical_endFence h) h
  · exact h

theorem yields_execSurfaceFenceTimeout {c : Cmd} (h : Canonical s) : Yields (execSurfaceFenceTimeout c s) := by
  unfold execSurfaceFenceTimeout
  refine yields_next ?_
  split
  · exact canonical_ite (canonical_endFence h) h
  · exact h

theorem canonical_chargeGranules {n : Nat} (h : Canonical s) : Canonical (chargeGranules s n) :=
  canonical_foldl (fun _ _ ht => memKept.steady.count _ _ _ _ _ ht) (memKept.steady.count _ _ _ _ _ h)

theorem yields_execZeroFillComplete {base : Nat} (h : Canonical s) : Yields (execZeroFillComplete base s) := by
  refine yields_next ?_
  split
  · exact h
  · exact canonical_chargeGranules ⟨tabWf_filter 0 _ _ h.wf⟩

end Sys2Proof.Machine
end

section
/-! The memory's canonical form through Sys2Proof/Machine/Ledger. -/
namespace Sys2Proof.Machine
open Sys2Proof

variable {s : State}

theorem canonical_arrive {i : Nat} {a : Arrival} (h : Canonical s) : Canonical (arrive s i a) := memKept.modEntry _ _ h

theorem canonical_markUnfit {i why reason : Nat} (h : Canonical s) : Canonical (markUnfit s i why reason) := memKept.modEntry _ _ h

theorem canonical_ledgerEcc {i : Nat} (h : Canonical s) : Canonical (ledgerEcc s i) :=
  canonical_ite (memKept.addFault _ _ _ (memKept.modEntry _ _ h)) h

theorem canonical_withdraw {i : Nat} (h : Canonical s) : Canonical (withdraw s i) := memKept.modEntry _ _ h

theorem canonical_publishEntry {w : Wp} {i : Nat} (h : Canonical s) : Canonical (publishEntry w i s) := by
  unfold publishEntry
  dsimp only
  split
  · exact h
  · exact memKept.modEntry _ _ h

theorem canonical_applySets {w : Wp} (h : Canonical s) : Canonical (applySets w s) :=
  canonical_same (canonical_forEach (fun _ _ ht => memKept.modEntry _ _ ht) h) rfl

theorem canonical_replySets {w : Wp} (h : Canonical s) : Canonical (replySets w s) :=
  canonical_forEach (fun _ _ ht => memKept.finishKey _ _ _ _ ht) (canonical_same h rfl)

theorem canonical_reportChanged {src : Nat} (h : Canonical s) : Canonical (reportChanged s src) := memKept.modEntry _ _ h

theorem canonical_reportFrozen {src : Nat} (h : Canonical s) : Canonical (reportFrozen s src) := memKept.modEntry _ _ h

theorem canonical_stillReport {src : Nat} {frozen : Bool} (h : Canonical s) : Canonical (stillReport s src frozen) := canonical_same h rfl

theorem canonical_takeReports (h : Canonical s) : Canonical (takeReports s) :=
  canonical_forEach (fun _ _ ht => canonical_ite (canonical_reportFrozen ht) (canonical_reportChanged ht)) (canonical_same h rfl)

theorem canonical_flushAllLiveness (h : Canonical s) : Canonical (flushAllLiveness s) :=
  canonical_forEach (fun _ _ ht => canonical_flushLiveness ht) h

theorem canonical_startLine (h : Canonical s) : Canonical (startLine s) :=
  canonical_replySets (canonical_forEach (fun _ _ ht => canonical_publishEntry ht) (canonical_ite (canonical_flushAllLiveness (canonical_same h rfl))
    (canonical_same h rfl)))

theorem canonical_idle (h : Canonical s) : Canonical (idle s) := canonical_ite (canonical_same (memKept.evaluateLine h) rfl) h

theorem canonical_passTicks {n : Nat} (h : Canonical s) : Canonical (passTicks s n) := canonical_ite (canonical_same (memKept.evaluateLine h) rfl) h

theorem canonical_endLine (h : Canonical s) : Canonical (endLine s) := memKept.evaluateLine (canonical_passTicks h)

theorem canonical_actLivenessSet {x : Held} {c : Cmd} (h : Canonical s) : Canonical (actLivenessSet s x c) := canonical_holdOn (canonical_same h rfl)

theorem yields_execLivenessSet {c : Cmd} (h : Canonical s) : Yields (execLivenessSet c s) :=
  yields_next (canonical_runPacket (fun _ _ ht => canonical_actLivenessSet ht) h)

theorem canonical_actHeartbeat {x : Held} {c : Cmd} (h : Canonical s) : Canonical (actHeartbeat s x c) :=
  canonical_finishNow (canonical_forEach (fun _ _ ht => canonical_arrive ht) h)

theorem yields_execHeartbeat {c : Cmd} (h : Canonical s) : Yields (execHeartbeat c s) :=
  yields_next (canonical_runPacket (fun _ _ ht => canonical_actHeartbeat ht) h)

theorem canonical_actLedgerRead {x : Held} {c : Cmd} (h : Canonical s) : Canonical (actLedgerRead s x c) := by
  unfold actLedgerRead
  dsimp only
  split
  · next heq =>
    have ht := canonical_fst heq (canonical_destWrite h)
    exact canonical_finishNow ht
  · next heq =>
    have ht := canonical_fst heq (canonical_destWrite h)
    exact canonical_finishNow ht

theorem yields_execLedgerRead {c : Cmd} (h : Canonical s) : Yields (execLedgerRead c s) :=
  yields_next (canonical_runPacket (fun _ _ ht => canonical_actLedgerRead ht) h)

theorem canonical_actTreatmentAssets {x : Held} {c : Cmd} (h : Canonical s) : Canonical (actTreatmentAssets s x c) :=
  memKept.finish _ _ _ _ (canonical_same h rfl)

theorem yields_execTreatmentAssets {c : Cmd} (h : Canonical s) : Yields (execTreatmentAssets c s) :=
  yields_next (canonical_runPacket (fun _ _ ht => canonical_actTreatmentAssets ht) h)

theorem canonical_applyAsset {a : AssetChange} (h : Canonical s) : Canonical (applyAsset a s) := canonical_same h rfl

theorem canonical_applyAssets (h : Canonical s) : Canonical (applyAssets s) :=
  canonical_forEach (fun _ _ ht => canonical_applyAsset ht) (canonical_same h rfl)

end Sys2Proof.Machine
end

section
/-! The memory's canonical form through Sys2Proof/Machine/Layers. -/
namespace Sys2Proof.Machine
open Sys2Proof

variable {s : State}

theorem canonical_actCoeffLoad {x : Held} {c : Cmd} (h : Canonical s) : Canonical (actCoeffLoad s x c) := by
  unfold actCoeffLoad
  refine canonical_ite (memKept.finish _ _ _ _ (canonical_same h rfl)) ?_
  dsimp only
  split
  · next heq =>
    have ht := canonical_fst heq (canonical_srcRead h)
    exact canonical_finishNow ht
  · next heq =>
    have ht := canonical_fst heq (canonical_srcRead h)
    split
    · exact canonical_finishNow ht
    · exact memKept.finish _ _ _ _ (canonical_same ht rfl)

theorem yields_execCoeffLoad {c : Cmd} (h : Canonical s) : Yields (execCoeffLoad c s) :=
  yields_next (canonical_runPacket (fun _ _ ht => canonical_actCoeffLoad ht) h)

theorem canonical_applyCoeffs (h : Canonical s) : Canonical (applyCoeffs s) := canonical_same h rfl

theorem canonical_actLayerSet {x : Held} {c : Cmd} (h : Canonical s) : Canonical (actLayerSet s x c) := canonical_finishNow (canonical_modSlot h)

theorem yields_execLayerSet {c : Cmd} (h : Canonical s) : Yields (execLayerSet c s) :=
  yields_next (canonical_runPacket (fun _ _ ht => canonical_actLayerSet ht) h)

theorem canonical_cancelSlot {k : Nat} (h : Canonical s) : Canonical (cancelSlot s k) := canonical_same h rfl

theorem canonical_actLayerClear {x : Held} {c : Cmd} (h : Canonical s) : Canonical (actLayerClear s x c) :=
  canonical_ite (canonical_ite (canonical_finishNow (canonical_modSlot h)) (canonical_finishNow (canonical_cancelSlot (canonical_modSlot h))))
    (canonical_finishNow (canonical_modSlot h))

theorem yields_execLayerClear {c : Cmd} (h : Canonical s) : Yields (execLayerClear c s) :=
  yields_next (canonical_runPacket (fun _ _ ht => canonical_actLayerClear ht) h)

theorem canonical_applyClears (h : Canonical s) : Canonical (applyClears s) := by
  unfold applyClears
  refine canonical_forEach (fun _ _ ht => ?_) h
  split
  · exact canonical_ite (canonical_cancelSlot (canonical_modSlot ht)) ht
  · exact ht

theorem canonical_actPaletteLoad {x : Held} {c : Cmd} (h : Canonical s) : Canonical (actPaletteLoad s x c) := by
  unfold actPaletteLoad
  dsimp only
  split
  · next heq =>
    have ht := canonical_fst heq (canonical_srcRead h)
    exact canonical_finishNow ht
  · next heq =>
    have ht := canonical_fst heq (canonical_srcRead h)
    exact canonical_finishNow (canonical_modSlot ht)

theorem yields_execPaletteLoad {c : Cmd} (h : Canonical s) : Yields (execPaletteLoad c s) :=
  yields_next (canonical_runPacket (fun _ _ ht => canonical_actPaletteLoad ht) h)

theorem canonical_actGroupDefine {x : Held} {c : Cmd} (h : Canonical s) : Canonical (actGroupDefine s x c) :=
  memKept.finish _ _ _ _ (canonical_same h rfl)

theorem yields_execCommitGroupDefine {c : Cmd} (h : Canonical s) : Yields (execCommitGroupDefine c s) :=
  yields_next (canonical_runPacket (fun _ _ ht => canonical_actGroupDefine ht) h)

theorem canonical_applyGroup {c : GroupChange} (h : Canonical s) : Canonical (applyGroup c s) := by
  unfold applyGroup
  refine canonical_forEach (fun _ _ ht => ?_) (canonical_same h rfl)
  split
  · exact canonical_ite (canonical_cancelSlot (canonical_modSlot ht)) ht
  · exact ht

theorem canonical_applyGroups (h : Canonical s) : Canonical (applyGroups s) :=
  canonical_forEach (fun _ _ ht => canonical_applyGroup ht) (canonical_same h rfl)

theorem canonical_actBankAssign {x : Held} {c : Cmd} (h : Canonical s) : Canonical (actBankAssign s x c) :=
  canonical_ite (canonical_finishNow h) (memKept.finish _ _ _ _ (canonical_same h rfl))

theorem yields_execBankAssign {c : Cmd} (h : Canonical s) : Yields (execBankAssign c s) :=
  yields_next (canonical_runPacket (fun _ _ ht => canonical_actBankAssign ht) h)

theorem canonical_applyLeft (h : Canonical s) : Canonical (applyLeft s) := by
  unfold applyLeft
  dsimp only
  split
  · exact canonical_ite h (canonical_ite (canonical_same h rfl) (canonical_forEach (fun _ _ ht => memKept.modCarry _ _ ht) (canonical_same h rfl)))
  · exact h

end Sys2Proof.Machine
end

section
/-! The memory's canonical form through Sys2Proof/Machine/Commits. -/
namespace Sys2Proof.Machine
open Sys2Proof

variable {s : State}

theorem canonical_actCommit {x : Held} {c : Cmd} (h : Canonical s) : Canonical (actCommit s x c) :=
  canonical_modHeld (canonical_same (canonical_forEach (fun _ _ ht => canonical_modSlot ht) h) rfl)

theorem yields_execCommit {c : Cmd} (h : Canonical s) : Yields (execCommit c s) :=
  yields_next (canonical_runDirect (fun _ _ ht => canonical_actCommit ht) h)

theorem canonical_postNotReady {b : Wp} {r : CommitRecord} (h : Canonical s) : Canonical (postNotReady b r s) := by
  unfold postNotReady
  refine canonical_forEach (fun _ _ ht => ?_) h
  split
  · exact canonical_ite ht (memKept.postEvent _ _ ht)
  · exact ht

theorem canonical_takeLayer {slice : Nat} {l : SnapLayer} (h : Canonical s) : Canonical (takeLayer slice l s) := by
  unfold takeLayer
  refine canonical_ite h ?_
  split
  · exact canonical_modSlot h
  · exact canonical_ite (canonical_modSlot h) (canonical_ite h (canonical_modSlot h))

theorem canonical_applyRecord {b : Wp} {r : CommitRecord} (h : Canonical s) : Canonical (applyRecord b r s).1 :=
  canonical_pair (canonical_same (canonical_ite (memKept.postEvent _ _ (canonical_ite (memKept.finishKey _ _ _ _ (canonical_ite (canonical_forEach
    (fun _ _ ht => memKept.finishKey _ _ _ _ ht) (canonical_forEach (fun _ _ hu => canonical_modOut (memKept.refreshCause _ _ hu)) (canonical_forEach
    (fun _ _ hv => canonical_takeLayer hv) (canonical_postNotReady h)))) (canonical_forEach (fun _ _ ht => canonical_modOut (memKept.refreshCause _ _
    ht)) (canonical_forEach (fun _ _ hu => canonical_takeLayer hu) (canonical_postNotReady h))))) (canonical_ite (canonical_forEach (fun _ _ ht =>
    memKept.finishKey _ _ _ _ ht) (canonical_forEach (fun _ _ hu => canonical_modOut (memKept.refreshCause _ _ hu)) (canonical_forEach (fun _ _ hv =>
    canonical_takeLayer hv) (canonical_postNotReady h)))) (canonical_forEach (fun _ _ ht => canonical_modOut (memKept.refreshCause _ _ ht))
    (canonical_forEach (fun _ _ hu => canonical_takeLayer hu) (canonical_postNotReady h)))))) (canonical_ite (memKept.finishKey _ _ _ _
    (canonical_ite (canonical_forEach (fun _ _ ht => memKept.finishKey _ _ _ _ ht) (canonical_forEach (fun _ _ hu => canonical_modOut
    (memKept.refreshCause _ _ hu)) (canonical_forEach (fun _ _ hv => canonical_takeLayer hv) (canonical_postNotReady h)))) (canonical_forEach (fun _
    _ ht => canonical_modOut (memKept.refreshCause _ _ ht)) (canonical_forEach (fun _ _ hu => canonical_takeLayer hu) (canonical_postNotReady h)))))
    (canonical_ite (canonical_forEach (fun _ _ ht => memKept.finishKey _ _ _ _ ht) (canonical_forEach (fun _ _ hu => canonical_modOut
    (memKept.refreshCause _ _ hu)) (canonical_forEach (fun _ _ hv => canonical_takeLayer hv) (canonical_postNotReady h)))) (canonical_forEach (fun _
    _ ht => canonical_modOut (memKept.refreshCause _ _ ht)) (canonical_forEach (fun _ _ hu => canonical_takeLayer hu) (canonical_postNotReady h))))))
    rfl)

theorem canonical_holdRecord {b : Wp} {r : CommitRecord} (h : Canonical s) : Canonical (holdRecord b r s) :=
  canonical_same (canonical_postNotReady h) rfl

theorem canonical_expireRecord {r : CommitRecord} (h : Canonical s) : Canonical (expireRecord r s) := canonical_same h rfl

theorem canonical_latchArrivals {b : Wp} {src : List Nat} (h : Canonical s) : Canonical (latchArrivals b src s) :=
  canonical_forEach (fun _ _ ht => canonical_ite (canonical_arrive ht) ht) h

theorem canonical_recordAt {b : Wp} {x : State × List Nat} {r : CommitRecord} (h : Canonical x.1) : Canonical (recordAt b x r).1 := by
  unfold recordAt
  refine canonical_ite_fst (canonical_ite_fst (canonical_pair (canonical_holdRecord h)) (canonical_pair (canonical_expireRecord h))) ?_
  dsimp only
  exact canonical_pair (canonical_applyRecord h)

theorem canonical_applyRecords {b : Wp} (h : Canonical s) : Canonical (applyRecords b s) := by
  unfold applyRecords
  dsimp only
  exact canonical_latchArrivals (canonical_foldl_fst (fun _ _ ht => canonical_recordAt ht) (canonical_pair h))

theorem canonical_applyShedding {b : Wp} (h : Canonical s) : Canonical (applyShedding b s) :=
  canonical_forEach (fun _ _ ht => canonical_forEach (fun _ _ hu => canonical_ite hu (canonical_ite (memKept.postEvent _ _ (canonical_modSlot hu))
    (canonical_modSlot hu))) ht) h

theorem yields_execGroupHoldExpiry {slice group : Nat} (h : Canonical s) : Yields (execGroupHoldExpiry slice group s) := by
  unfold execGroupHoldExpiry
  refine yields_next ?_
  dsimp only
  split
  · exact canonical_ite (canonical_ite (canonical_latchArrivals (canonical_applyRecord h)) (canonical_applyShedding (canonical_latchArrivals
      (canonical_applyRecord h)))) h
  · exact h

end Sys2Proof.Machine
end

section
/-! The memory's canonical form through Sys2Proof/Machine/Scan. -/
namespace Sys2Proof.Machine
open Sys2Proof

variable {s : State}

theorem canonical_refreshFrame {o : Nat} {w : Wp} (h : Canonical s) : Canonical (refreshFrame s o w) :=
  canonical_ite (canonical_ite (canonical_modOut h) (memKept.postEvent _ _ (memKept.emit _ (canonical_modOut h)))) (canonical_ite (canonical_modOut
    h) (canonical_ite (memKept.emit _ (canonical_modOut h)) (canonical_modOut h)))

theorem canonical_latchSlot {o k : Nat} (h : Canonical s) : Canonical (latchSlot o k s) := canonical_modSlot h

theorem canonical_frameStart {o i : Nat} {w : Wp} (h : Canonical s) : Canonical (frameStart s o i w) := by
  unfold frameStart
  extract_lets u u1 u2 u3 u4 u5 u6 m x
  have hu : Canonical u := memKept.moveOutput _ h
  clear_value u
  have hu1 : Canonical u1 := canonical_refreshFrame hu
  clear_value u1
  have hu2 : Canonical u2 := canonical_forEach (fun _ _ ht => memKept.chooseNow _ _ (canonical_latchSlot ht)) hu1
  clear_value u2
  have hu3 : Canonical u3 := canonical_modOut hu2
  clear_value u3
  have hu4 : Canonical u4 := memKept.rectEffects _ hu3
  clear_value u4
  have hu5 : Canonical u5 := canonical_forEach (fun _ _ ht => canonical_modSlot (memKept.decideFirst _ _ ht)) (memKept.sizeChecks _ hu4)
  clear_value u5
  have hu6 : Canonical u6 := canonical_forEach (fun _ _ ht => canonical_modSlot ht) hu5
  clear_value u6
  exact canonical_same hu6 rfl

end Sys2Proof.Machine
end

section
/-! The memory's canonical form through Sys2Proof/Machine/Banks. -/
namespace Sys2Proof.Machine
open Sys2Proof

variable {s : State}

theorem yields_execBankPipeWatchdog {output : Nat} (h : Canonical s) : Yields (execBankPipeWatchdog output s) :=
  yields_next (canonical_ite (memKept.bankFault _ _ h) h)

theorem yields_execBankStoreEccFault {output : Nat} (h : Canonical s) : Yields (execBankStoreEccFault output s) :=
  yields_next (canonical_ite (memKept.bankFault _ _ h) h)

theorem canonical_rehearsalMoved {t : Takeover} (h : Canonical s) : Canonical (rehearsalMoved s t) := by
  unfold rehearsalMoved
  dsimp only
  split
  · split
    · exact canonical_defer (canonical_same h rfl)
    · exact canonical_same h rfl
  · exact h

theorem canonical_noteMoved {o gapLines gapCycles : Nat} (h : Canonical s) : Canonical (noteMoved s o gapLines gapCycles) := by
  unfold noteMoved
  dsimp only
  split
  · exact h
  · exact canonical_ite (canonical_ite (canonical_rehearsalMoved (memKept.postTakeover _ _ (canonical_same h rfl))) (memKept.postTakeover _ _
      (canonical_same h rfl))) (canonical_same h rfl)

theorem yields_execTakeoverArmed {output gapCycles : Nat} (h : Canonical s) : Yields (execTakeoverArmed output gapCycles s) := by
  unfold execTakeoverArmed
  refine yields_next ?_
  dsimp only
  split
  · exact h
  · exact canonical_noteMoved (memKept.modCarry _ _ h)

theorem canonical_armRehearsal (h : Canonical s) : Canonical (armRehearsal s) := by
  unfold armRehearsal
  dsimp only
  split
  · exact h
  · exact canonical_ite h (canonical_ite (memKept.finishKey _ _ _ _ (canonical_same h rfl)) (canonical_ite (canonical_rehearsalMoved
      (memKept.postTakeover _ _ (canonical_same (canonical_forEach (fun _ _ ht => memKept.armOutput _ _ ht) (canonical_modBank h)) rfl)))
      (canonical_same (canonical_forEach (fun _ _ ht => memKept.armOutput _ _ ht) (canonical_modBank h)) rfl)))

theorem canonical_actBankRehearse {x : Held} {c : Cmd} (h : Canonical s) : Canonical (actBankRehearse s x c) :=
  canonical_ite (canonical_finishNow h) (canonical_armRehearsal (canonical_holdOn (canonical_same h rfl)))

theorem yields_execBankRehearse {c : Cmd} (h : Canonical s) : Yields (execBankRehearse c s) :=
  yields_next (canonical_runPacket (fun _ _ ht => canonical_actBankRehearse ht) h)

theorem canonical_returnBank {b : Nat} (h : Canonical s) : Canonical (returnBank s b).1 :=
  canonical_pair (canonical_forEach (fun _ _ ht => canonical_ite (memKept.modCarry _ _ ht) (memKept.modCarry _ _ ht)) (canonical_modBank h))

theorem yields_execBankRehearseEnd (h : Canonical s) : Yields (execBankRehearseEnd s) := by
  unfold execBankRehearseEnd
  refine yields_next ?_
  dsimp only
  split
  · split
    · exact canonical_ite (memKept.finishKey _ _ _ _ (memKept.postReturn _ _ _ _ _ (canonical_returnBank (canonical_same h rfl)))) h
    · exact h
  · exact h

theorem canonical_failReinit {b result test : Nat} (h : Canonical s) : Canonical (failReinit s b result test) := by
  unfold failReinit
  dsimp only
  split
  · exact memKept.finishKey _ _ _ _ (memKept.postReturn _ _ _ _ _ (canonical_modBank h))
  · exact memKept.postReturn _ _ _ _ _ (canonical_modBank h)

theorem yields_execBankSelfCheckEnd {bank : Nat} {ok : Bool} {test : Nat} (h : Canonical s) : Yields (execBankSelfCheckEnd bank ok test s) :=
  yields_next (canonical_ite h (canonical_ite (canonical_modBank h) (canonical_failReinit h)))

theorem yields_execHoldoffSelfCheckError {bank test : Nat} (h : Canonical s) : Yields (execHoldoffSelfCheckError bank test s) :=
  yields_next (canonical_ite (canonical_failReinit h) h)

theorem canonical_countClean (h : Canonical s) : Canonical (countClean s) := canonical_forEach (fun _ _ ht => canonical_modBank ht) h

theorem yields_execBankHoldoffExpiry {bank : Nat} (h : Canonical s) : Yields (execBankHoldoffExpiry bank s) := by
  unfold execBankHoldoffExpiry
  refine yields_next ?_
  refine canonical_ite ?_ h
  dsimp only
  split
  · exact memKept.finishKey _ _ _ _ (memKept.postReturn _ _ _ _ _ (canonical_modBank (canonical_returnBank h)))
  · exact memKept.postReturn _ _ _ _ _ (canonical_modBank (canonical_returnBank h))

end Sys2Proof.Machine
end

section
/-! The memory's canonical form through Sys2Proof/Machine/Outputs. -/
namespace Sys2Proof.Machine
open Sys2Proof

variable {s : State}

theorem canonical_actOutputConfigure {x : Held} {c : Cmd} (h : Canonical s) : Canonical (actOutputConfigure s x c) :=
  canonical_finishNow (canonical_modOut h)

theorem yields_execOutputConfigure {c : Cmd} (h : Canonical s) : Yields (execOutputConfigure c s) :=
  yields_next (canonical_runPacket (fun _ _ ht => canonical_actOutputConfigure ht) h)

theorem canonical_beginFrame {o i : Nat} (h : Canonical s) : Canonical (beginFrame s o i) := canonical_frameStart (memKept.applyRectOps _ h)

theorem canonical_outputFrameStart {output : Nat} (h : Canonical s) : Canonical (outputFrameStart output s) :=
  canonical_ite h (canonical_ite (canonical_beginFrame h) (canonical_ite (canonical_beginFrame (memKept.passTo _ h)) h))

theorem canonical_underflow {o j : Nat} (h : Canonical s) : Canonical (underflow s o j) := by
  unfold underflow
  exact memKept.modCarry _ _ (memKept.bankFault _ _ (memKept.sendGap _ _ (canonical_modOut h)))

theorem canonical_activeLine {o j : Nat} {inTime : Bool} (h : Canonical s) : Canonical (activeLine s o j inTime) :=
  canonical_ite (memKept.sendGap _ _ h) (canonical_ite (memKept.sendGap _ _ (memKept.modCarry _ _ h)) (canonical_ite (canonical_underflow h)
    (memKept.sendComposed _ _ h)))

theorem canonical_outputLineStart {output : Nat} {inTime : Bool} (h : Canonical s) : Canonical (outputLineStart output inTime s) :=
  canonical_ite h (canonical_modOut (canonical_forEach (fun _ _ ht => memKept.decideSlot _ _ _ ht) (canonical_ite (memKept.sendAttributes _
    (canonical_ite (canonical_activeLine (memKept.passTo _ h)) (memKept.modCarry _ _ (memKept.passTo _ h)))) (canonical_ite (canonical_activeLine
    (memKept.passTo _ h)) (memKept.modCarry _ _ (memKept.passTo _ h))))))

theorem canonical_postTraining {o result lanes rate : Nat} (h : Canonical s) : Canonical (postTraining s o result lanes rate) :=
  memKept.postEvent _ _ h

theorem canonical_startTraining {o : Nat} (h : Canonical s) : Canonical (startTraining s o) := memKept.emit _ (canonical_modOut h)

theorem yields_execHpdRise {output : Nat} (h : Canonical s) : Yields (execHpdRise output s) :=
  yields_next (canonical_ite h (canonical_ite (canonical_startTraining (canonical_modOut h)) (canonical_modOut h)))

theorem canonical_retrain {o : Nat} (h : Canonical s) : Canonical (retrain s o) := canonical_ite (canonical_startTraining h) h

theorem yields_execIrqHpd {output : Nat} (h : Canonical s) : Yields (execIrqHpd output s) := yields_next (canonical_ite (canonical_retrain h) h)

theorem yields_execHpdFall {output : Nat} (h : Canonical s) : Yields (execHpdFall output s) :=
  yields_next (canonical_ite h (canonical_ite (canonical_postTraining (canonical_modOut h)) (canonical_modOut h)))

theorem canonical_enableDone {o : Nat} (h : Canonical s) : Canonical (enableDone s o) := by
  unfold enableDone
  dsimp only
  split
  · exact canonical_ite (canonical_modOut (memKept.finishKey _ _ _ _ h)) h
  · exact h

theorem canonical_writeEdid {o : Nat} {edid : List Byte} {ok : Bool} (h : Canonical s) : Canonical (writeEdid s o edid ok) := by
  unfold writeEdid
  dsimp only
  split
  · exact canonical_ite (canonical_modOut h) (canonical_modOut (canonical_destWrite (canonical_modOut h)))
  · exact h

theorem yields_execLinkTrainingEnd {output result lanes rate : Nat} {sinkPsr : Bool} {edid : List Byte} {edidOk : Bool} (h : Canonical s) :
    Yields (execLinkTrainingEnd output result lanes rate sinkPsr edid edidOk s) :=
  yields_next (canonical_ite h (canonical_ite (canonical_enableDone (canonical_postTraining (canonical_modOut (canonical_writeEdid h))))
    (canonical_postTraining (canonical_modOut (canonical_writeEdid h)))))

theorem yields_execLinkRetryTimer {output : Nat} (h : Canonical s) : Yields (execLinkRetryTimer output s) :=
  yields_next (canonical_ite (canonical_startTraining h) h)

theorem canonical_actOutputEnable {x : Held} {c : Cmd} (h : Canonical s) : Canonical (actOutputEnable s x c) := canonical_holdOn (canonical_modOut h)

theorem yields_execOutputEnable {c : Cmd} (h : Canonical s) : Yields (execOutputEnable c s) :=
  yields_next (canonical_runPacket (fun _ _ ht => canonical_actOutputEnable ht) h)

theorem canonical_relatch {k : Nat} (h : Canonical s) : Canonical (relatch s k) := by
  unfold relatch
  dsimp only
  split
  · refine canonical_ite h ?_
    split
    · exact canonical_ite (canonical_modSlot h) h
    · exact h
  · exact h

theorem canonical_relatchAll (h : Canonical s) : Canonical (relatchAll s) :=
  canonical_forEach (fun _ _ ht => canonical_ite (canonical_relatch ht) (canonical_ite (canonical_relatch (canonical_modSlot ht)) ht)) h

theorem canonical_outputEnableStart {output : Nat} (h : Canonical s) : Canonical (outputEnableStart output s) := by
  unfold outputEnableStart
  dsimp only
  split
  · refine canonical_ite h ?_
    refine canonical_ite ?_ ?_
    · refine canonical_startTraining ?_
      refine canonical_beginFrame ?_
      split
      · exact canonical_defer (canonical_modOut h)
      · exact canonical_modOut h
    · refine canonical_beginFrame ?_
      split
      · exact canonical_defer (canonical_modOut h)
      · exact canonical_modOut h
  · exact h

theorem yields_execOutputEnableTimeout {output : Nat} (h : Canonical s) : Yields (execOutputEnableTimeout output s) := by
  unfold execOutputEnableTimeout
  refine yields_next ?_
  dsimp only
  split
  · exact canonical_ite h (memKept.finishKey _ _ _ _ (canonical_modOut h))
  · exact canonical_ite h (canonical_modOut (memKept.finishKey _ _ _ _ (canonical_modOut h)))
  · exact h

theorem canonical_actOutputDisable {x : Held} {c : Cmd} (h : Canonical s) : Canonical (actOutputDisable s x c) :=
  canonical_holdOn (canonical_modOut h)

theorem yields_execOutputDisable {c : Cmd} (h : Canonical s) : Yields (execOutputDisable c s) :=
  yields_next (canonical_runPacket (fun _ _ ht => canonical_actOutputDisable ht) h)

theorem yields_execOutputDisableAct {output : Nat} (h : Canonical s) : Yields (execOutputDisableAct output s) :=
  yields_next (canonical_ite h (canonical_forEach (fun _ _ ht => memKept.finishKey _ _ _ _ ht) (memKept.emit _ (memKept.applyRectOps _
    (canonical_noteMoved (memKept.modCarry _ _ (canonical_forEach (fun _ _ hu => canonical_modSlot hu) (canonical_modOut h))))))))

theorem canonical_actSelfRefresh {x : Held} {c : Cmd} (h : Canonical s) : Canonical (actSelfRefresh s x c) :=
  canonical_finishNow (canonical_ite (canonical_modOut h) (memKept.refreshCause _ _ (canonical_modOut h)))

theorem yields_execSelfRefreshRequest {c : Cmd} (h : Canonical s) : Yields (execSelfRefreshRequest c s) :=
  yields_next (canonical_runPacket (fun _ _ ht => canonical_actSelfRefresh ht) h)

end Sys2Proof.Machine
end

section
/-! The memory's canonical form through Sys2Proof/Machine/Rects. -/
namespace Sys2Proof.Machine
open Sys2Proof

variable {s : State}

theorem canonical_actRectOp {x : Held} {c : Cmd} (h : Canonical s) : Canonical (actRectOp s x c) := canonical_holdOn (canonical_same h rfl)

theorem yields_execRectCheckSetSet {c : Cmd} (h : Canonical s) : Yields (execRectCheckSetSet c s) :=
  yields_next (canonical_runPacket (fun _ _ ht => canonical_actRectOp ht) h)

theorem yields_execRectCheckSetRemove {c : Cmd} (h : Canonical s) : Yields (execRectCheckSetRemove c s) :=
  yields_next (canonical_runPacket (fun _ _ ht => canonical_actRectOp ht) h)

theorem yields_execRectCheckSetRearm {c : Cmd} (h : Canonical s) : Yields (execRectCheckSetRearm c s) :=
  yields_next (canonical_runPacket (fun _ _ ht => canonical_actRectOp ht) h)

theorem canonical_actRectRead {x : Held} {c : Cmd} (h : Canonical s) : Canonical (actRectRead s x c) := canonical_finishNow h

theorem yields_execRectCheckSetRead {c : Cmd} (h : Canonical s) : Yields (execRectCheckSetRead c s) :=
  yields_next (canonical_runPacket (fun _ _ ht => canonical_actRectRead ht) h)

theorem canonical_replyRectOps (h : Canonical s) : Canonical (replyRectOps s) :=
  canonical_forEach (fun _ _ ht => canonical_ite ht (memKept.applyRectOps _ ht)) (canonical_forEach (fun _ _ hu => canonical_ite (memKept.finishKey _
    _ _ _ (canonical_same hu rfl)) (memKept.finishKey _ _ _ _ (canonical_same hu rfl))) h)

theorem canonical_postRect {r : Nat} (h : Canonical s) : Canonical (postRect s r) :=
  canonical_ite (memKept.modRect _ _ h) (canonical_ite (memKept.postEvent _ _ (memKept.modRect _ _ h)) (memKept.postEvent _ _ (memKept.postEvent _ _
    (memKept.modRect _ _ h))))

theorem canonical_postRects (h : Canonical s) : Canonical (postRects s) :=
  canonical_forEach (fun _ _ ht => canonical_ite (canonical_postRect ht) ht) h

theorem canonical_takeSignature {r pass crc : Nat} (h : Canonical s) : Canonical (takeSignature s r pass crc).1 :=
  canonical_ite_fst (canonical_pair h) (canonical_ite_fst (canonical_pair (memKept.modRect _ _ h)) (canonical_ite_fst (canonical_pair (canonical_same
    (canonical_ite (memKept.modRect _ _ h) (canonical_stillReport (memKept.modRect _ _ h))) rfl)) (canonical_ite_fst (canonical_pair (memKept.modRect
    _ _ h)) (canonical_pair (canonical_ite (canonical_stillReport (canonical_setScan (memKept.modRect _ _ h))) (canonical_setScan (memKept.modRect _
    _ h)))))))

theorem canonical_storeMatch {r crc result : Nat} (h : Canonical s) : Canonical (storeMatch s r crc result) :=
  canonical_ite (canonical_postRect (canonical_ite (memKept.refreshCause _ _ (memKept.modRect _ _ h)) (memKept.modRect _ _ h))) (canonical_ite
    (memKept.refreshCause _ _ (memKept.modRect _ _ h)) (memKept.modRect _ _ h))

theorem canonical_evalChange {r : Nat} (h : Canonical s) : Canonical (evalChange s r) := by
  unfold evalChange
  dsimp only
  split
  · exact canonical_ite (canonical_postRect (memKept.modRect _ _ h)) (memKept.modRect _ _ h)
  · exact canonical_ite (canonical_ite (canonical_postRect (memKept.modRect _ _ h)) (memKept.modRect _ _ h)) (canonical_ite (canonical_postRect
      (memKept.modRect _ _ (canonical_takeSignature h))) (memKept.modRect _ _ (canonical_takeSignature h)))

theorem canonical_evalRect {r : Nat} (h : Canonical s) : Canonical (evalRect s r) :=
  canonical_ite (memKept.modRect _ _ h) (canonical_ite (canonical_evalChange (memKept.modRect _ _ h)) (canonical_ite (canonical_storeMatch
    (memKept.modRect _ _ h)) (canonical_storeMatch (memKept.modRect _ _ h))))

theorem yields_execRectEvaluate {output rect : Nat} (h : Canonical s) : Yields (execRectEvaluate output rect s) :=
  yields_next (canonical_ite (canonical_evalRect (memKept.passTo _ h)) h)

end Sys2Proof.Machine
end

section
/-! The memory's canonical form through Sys2Proof/Machine/Fabric. -/
namespace Sys2Proof.Machine
open Sys2Proof

variable {s : State}

theorem canonical_takeLatch {r : Reader} {i pass : Nat} (h : Canonical s) : Canonical (takeLatch s r i pass) := canonical_same h rfl

theorem canonical_endLatch {r : Reader} (h : Canonical s) : Canonical (endLatch s r) := canonical_same h rfl

theorem canonical_exportFrame {src i : Nat} (h : Canonical s) : Canonical (exportFrame s src i) :=
  canonical_forEach (fun _ _ ht => canonical_ite (memKept.endExportPass _ ht) (memKept.routePkt _ _ (canonical_takeLatch (memKept.modExport _ _
    (memKept.endExportPass _ ht))))) h

theorem canonical_exportStates (h : Canonical s) : Canonical (exportStates s) := by
  unfold exportStates
  refine canonical_forEach (fun _ _ ht => ?_) h
  dsimp only
  split
  · exact canonical_ite ht (memKept.routePkt _ _ (memKept.modExport _ _ ht))
  · exact ht

theorem canonical_endExport {n : Nat} (h : Canonical s) : Canonical (endExport s n) := canonical_same (memKept.endExportPass _ h) rfl

end Sys2Proof.Machine
end

section
/-! The memory's canonical form through Sys2Proof/Machine/Reservoir. -/
namespace Sys2Proof.Machine
open Sys2Proof

variable {s : State}

theorem canonical_abandonPass {i : Nat} (h : Canonical s) : Canonical (abandonPass s i) := by
  unfold abandonPass
  extract_lets u pic x x1
  have hu : Canonical u := canonical_abandonRows h
  clear_value u
  exact canonical_same hu rfl

theorem canonical_lineLedgerEcc {i : Nat} (h : Canonical s) : Canonical (lineLedgerEcc s i) := by
  unfold lineLedgerEcc
  extract_lets x h1 job u x1 x2 u1 u2 x3 u3 u4
  have hu : Canonical u := canonical_abandonPass h
  clear_value u
  have hu1 : Canonical u1 := canonical_same hu rfl
  clear_value u1
  have hu2 : Canonical u2 := memKept.modSurf _ _ hu1
  clear_value u2
  have hu3 : Canonical u3 := by
    dsimp only [u3]
    split
    · exact canonical_ite (canonical_same hu2 rfl) hu2
    · exact hu2
  clear_value u3
  have hu4 : Canonical u4 := memKept.postEvent _ _ hu3
  clear_value u4
  exact memKept.addFault _ _ _ hu4

theorem canonical_ledgerAccess {i ecc : Nat} (h : Canonical s) : Canonical (ledgerAccess s i ecc) :=
  canonical_ite (canonical_countCorrected h) (canonical_ite (canonical_lineLedgerEcc h) h)

theorem yields_execSurfaceWrite {c : Cmd} (h : Canonical s) : Yields (execSurfaceWrite c s) := by
  unfold execSurfaceWrite
  refine yields_next ?_
  dsimp only
  split
  · exact h
  · exact canonical_ite h (canonical_ite (canonical_holdOn (memKept.modSurf _ _ (canonical_lineLedgerEcc h))) (canonical_runPacket (fun _ _ ht =>
      canonical_actSurfaceWrite ht) (canonical_ite (memKept.steady.denyStale _ _ _ _ (canonical_ite (canonical_ledgerAccess h) h)) (canonical_ite
      (canonical_ledgerAccess h) h))))

theorem yields_execLineLedgerRebuilt {index : Nat} (h : Canonical s) : Yields (execLineLedgerRebuilt index s) := by
  unfold execLineLedgerRebuilt
  refine yields_next ?_
  refine canonical_ite h ?_
  refine canonical_forEach (fun _ _ ht => canonical_endFence ht) ?_
  split
  · exact memKept.finishKey _ _ _ _ (memKept.modSurf _ _ h)
  · exact memKept.modSurf _ _ h

theorem yields_execWriterPassStart {handle : Nat} (h : Canonical s) : Yields (execWriterPassStart handle s) :=
  yields_next (canonical_ite (memKept.beginPass _ h) h)

theorem canonical_endWriteJob {j : WriteJob} {st : Status} (h : Canonical s) : Canonical (endWriteJob s j st) :=
  memKept.finishKey _ _ _ _ (canonical_same h rfl)

theorem canonical_refuseRow {i : Nat} {d : Nat × Nat} (h : Canonical s) : Canonical (refuseRow s i d) := by
  unfold refuseRow
  dsimp only
  split
  · exact canonical_endWriteJob (memKept.denyAt _ _ _ _ _ (canonical_abandonRows h))
  · exact memKept.denyAt _ _ _ _ _ (canonical_abandonRows h)

theorem canonical_writeTileRow {engine lane i r : Nat} {raw : List Byte} {rawCols : List Nat} (h : Canonical s) :
    Canonical (writeTileRow s engine lane i r raw rawCols) := by
  unfold writeTileRow
  dsimp only
  split
  · exact canonical_ite (canonical_refuseRow h) (memKept.exportLines _ (canonical_rowWritten (memKept.dropWrite _ _ _ h)))
  · exact memKept.exportLines _ (canonical_rowWritten (canonical_storeRow (memKept.steady.count _ _ _ _ _ (memKept.steady.count _ _ _ _ _
      (memKept.steady.count _ _ _ _ _ (memKept.steady.count _ _ _ _ _ h))))))

theorem canonical_offerRow {i r : Nat} {raw : List Byte} (h : Canonical s) : Canonical (offerRow s i r raw) := by
  unfold offerRow
  refine memKept.gaugeLine _ _ _ ?_
  refine canonical_queueWork ?_
  dsimp only
  split
  · exact canonical_writeTileRow (canonical_same h rfl)
  · exact h

theorem canonical_laneRow {i r : Nat} {kind : LaneKind} {luma chroma : List (List Byte)} (h : Canonical s) :
    Canonical (laneRow s i r kind luma chroma) :=
  memKept.gaugeLine _ _ _ (canonical_queueWork h)

theorem canonical_stageLine {i : Nat} {data : List Byte} (h : Canonical s) : Canonical (stageLine s i data) :=
  canonical_ite (canonical_same h rfl) (canonical_offerRow (canonical_same h rfl))

theorem canonical_deliverLine {i : Nat} {data : List Byte} (h : Canonical s) : Canonical (deliverLine s i data) :=
  canonical_ite h (canonical_ite (canonical_stageLine h) (memKept.writerLine _ _ h))

theorem yields_execWriterLineComplete {handle : Nat} {data : List Byte} {ledgerEcc : Nat} (h : Canonical s) :
    Yields (execWriterLineComplete handle data ledgerEcc s) :=
  yields_next (canonical_ite h (canonical_ite (canonical_ledgerAccess h) (canonical_deliverLine (canonical_ledgerAccess h))))

theorem yields_execSluiceLaneTakeWork {lane : Nat} (h : Canonical s) : Yields (execSluiceLaneTakeWork lane s) := by
  unfold execSluiceLaneTakeWork
  refine yields_next ?_
  refine canonical_ite h ?_
  dsimp only
  split
  · exact h
  · exact canonical_same h rfl

theorem canonical_countMismatch {lane : Nat} {w : LaneWork} {block : Nat} (h : Canonical s) : Canonical (countMismatch s lane w block) := by
  unfold countMismatch
  dsimp only
  exact canonical_ite (memKept.addFault _ _ _ (memKept.steady.count _ _ _ _ _ (canonical_same h rfl))) (memKept.steady.count _ _ _ _ _
    (canonical_same h rfl))

theorem canonical_verifyRow {lane : Nat} {w : LaneWork} {t : Nat} {bad : List Nat} (h : Canonical s) : Canonical (verifyRow s lane w t bad).1 :=
  canonical_foldl_fst (fun _ _ ht => canonical_ite_fst (canonical_pair ht) (canonical_ite_fst (canonical_pair (canonical_countMismatch ht)) ht))
    (canonical_pair h)

theorem canonical_streamBlock {lane : Nat} {w : LaneWork} {bad : Bool} (h : Canonical s) : Canonical (streamBlock s lane w bad) := by
  unfold streamBlock
  extract_lets rawMode u b u1 x
  have hu : Canonical u := canonical_ite (canonical_countMismatch h) h
  clear_value u
  have hu1 : Canonical u1 := memKept.steady.count _ _ _ _ _ (memKept.steady.count _ _ _ _ _ (memKept.steady.count _ _ _ _ _ (memKept.steady.count _ _
    _ _ _ hu)))
  clear_value u1
  split
  · exact canonical_same hu1 rfl
  · exact hu1

theorem canonical_streamCheck {w : LaneWork} (h : Canonical s) : Canonical (streamCheck s w) := by
  unfold streamCheck
  dsimp only
  split
  · exact h
  · exact canonical_countDiscard h

theorem canonical_rowComplete {lane : Nat} {mismatch : List Nat} (h : Canonical s) : Canonical (rowComplete lane mismatch s) := by
  unfold rowComplete
  dsimp only
  split
  · exact h
  · split
    · exact canonical_ite (canonical_verifyRow (canonical_same h rfl)) (canonical_writeTileRow (canonical_verifyRow (canonical_same h rfl)))
    · exact canonical_ite (canonical_streamCheck (canonical_same h rfl)) (canonical_streamBlock (canonical_same h rfl))

theorem canonical_postMismatches (h : Canonical s) : Canonical (postMismatches s) :=
  canonical_forEach (fun _ _ ht => memKept.postEvent _ _ ht) (canonical_same h rfl)

theorem canonical_carryOut {pc : Nat} {r : MemReq} {ecc : Nat} (h : Canonical s) : Canonical (carryOut s pc r ecc) := by
  unfold carryOut
  extract_lets c u u1
  have hu : Canonical u := memKept.steady.count _ _ _ _ _ (memKept.steady.count _ _ _ _ _ h)
  clear_value u
  have hu1 : Canonical u1 := canonical_ite (canonical_countCorrected hu) (canonical_ite (canonical_poisonUnit hu) hu)
  clear_value u1
  exact canonical_ite (canonical_writeBytes hu) (memKept.noteRead _ _ _ hu1)

theorem canonical_denyRequest {r : MemReq} {d : Nat × Nat} (h : Canonical s) : Canonical (denyRequest s r d) := by
  unfold denyRequest
  dsimp only
  split
  · exact memKept.denyAt _ _ _ _ _ h
  · exact memKept.markDamaged _ (memKept.denyAt _ _ _ _ _ h)
  · exact memKept.denyAt _ _ _ _ _ h

theorem canonical_serveRequest {pc : Nat} {r : MemReq} {ecc : Nat} (h : Canonical s) : Canonical (serveRequest s pc r ecc) := by
  unfold serveRequest
  refine canonical_ite (canonical_ite (memKept.steady.denyStale _ _ _ _ h) h) ?_
  split
  · exact canonical_denyRequest h
  · exact canonical_carryOut h

theorem yields_execReservoirRequestServed {pc : Nat} {reqs : List MemReq} {ecc : Nat} (h : Canonical s) :
    Yields (execReservoirRequestServed pc reqs ecc s) := by
  unfold execReservoirRequestServed
  refine yields_next ?_
  dsimp only
  split
  · exact h
  · exact canonical_serveRequest (canonical_ite (canonical_ledgerAccess (canonical_same h rfl)) (canonical_same h rfl))

theorem yields_execPatrolScrub {addr ecc : Nat} (h : Canonical s) : Yields (execPatrolScrub addr ecc s) :=
  yields_next (canonical_ite h (canonical_ite (canonical_countCorrected (memKept.steady.count _ _ _ _ _ (memKept.steady.count _ _ _ _ _
    (canonical_same h rfl)))) (canonical_ite (memKept.postEvent _ _ (canonical_poisonUnit (memKept.steady.count _ _ _ _ _ (memKept.steady.count _ _ _
    _ _ (canonical_same h rfl))))) (memKept.steady.count _ _ _ _ _ (memKept.steady.count _ _ _ _ _ (canonical_same h rfl))))))

theorem yields_execReservoirIdleTimer (h : Canonical s) : Yields (execReservoirIdleTimer s) := yields_next (canonical_ite h (canonical_same h rfl))

end Sys2Proof.Machine
end

section
/-! The memory's canonical form through Sys2Proof/Machine/Sources. -/
namespace Sys2Proof.Machine
open Sys2Proof

variable {s : State}

theorem canonical_modCtx {i : Nat} {f : DecCtx → DecCtx} (h : Canonical s) : Canonical (modCtx s i f) := canonical_same h rfl

theorem canonical_happen {i cause detail : Nat} (h : Canonical s) : Canonical (happen s i cause detail) := canonical_modCtx h

theorem canonical_setSliceState {i : Nat} {t : SliceState} {cause : Nat} (h : Canonical s) : Canonical (setSliceState s i t cause) :=
  canonical_ite h (canonical_ite (memKept.steady.post _ _ _ (memKept.steady.post _ _ _ (canonical_modSlice h))) (memKept.steady.post _ _ _
    (canonical_modSlice h)))

theorem canonical_orphanDone {i : Nat} {aborted : Bool} (h : Canonical s) : Canonical (orphanDone s i aborted) :=
  canonical_ite h (canonical_ite (canonical_modSlice h) (canonical_ite (canonical_setSliceState (memKept.steady.post _ _ _ (canonical_modSlice h)))
    (memKept.steady.post _ _ _ (canonical_modSlice h))))

theorem canonical_deliverNow {d : Delivery} (h : Canonical s) : Canonical (deliverNow s d) :=
  canonical_ite (canonical_arrive (canonical_same h rfl)) (canonical_modCtx (canonical_ite (memKept.modEntry _ _ (canonical_arrive (canonical_same h
    rfl))) (canonical_arrive (canonical_same h rfl))))

theorem canonical_completeDeliveries {i : Nat} (h : Canonical s) : Canonical (completeDeliveries s i) := by
  unfold completeDeliveries
  dsimp only
  split
  · exact h
  · exact canonical_ite h (canonical_deliverNow (canonical_same h rfl))

theorem canonical_addDelivery {d : Delivery} (h : Canonical s) : Canonical (addDelivery s d) := canonical_completeDeliveries (canonical_same h rfl)

theorem canonical_settleWrites {i : Nat} (h : Canonical s) : Canonical (settleWrites s i) := by
  unfold settleWrites
  dsimp only
  split
  · exact h
  · exact canonical_ite (canonical_ite (canonical_orphanDone (canonical_same h rfl)) h) (canonical_ite (canonical_endWriteJob h) h)

theorem yields_execSluiceRowComplete {lane : Nat} {mismatch : List Nat} (h : Canonical s) : Yields (execSluiceRowComplete lane mismatch s) := by
  unfold execSluiceRowComplete
  refine yields_next ?_
  dsimp only
  split
  · split
    · exact canonical_settleWrites (canonical_completeDeliveries (canonical_rowComplete h))
    · exact canonical_rowComplete h
  · exact canonical_rowComplete h

theorem canonical_setPassSize {i w n : Nat} (h : Canonical s) : Canonical (setPassSize s i w n) := memKept.modSurf _ _ h

end Sys2Proof.Machine
end

section
/-! The memory's canonical form through Sys2Proof/Machine/Encode. -/
namespace Sys2Proof.Machine
open Sys2Proof

variable {s : State}

theorem canonical_allocMany {sl fmt w ht : Nat} {wr : Writer} {n : Nat} (h : Canonical s) : Canonical (allocMany sl fmt w ht wr n s).1 := by
  induction n generalizing s with
  | zero => exact h
  | succ n ih =>
    unfold allocMany
    split
    · next heq =>
      have hpixel := canonical_fst heq (canonical_allocPixel h)
      split
      · next heq => exact canonical_pair (canonical_fst heq (ih hpixel))
      · next heq => exact canonical_pair (canonical_fst heq (ih hpixel))
    · next heq => exact canonical_pair (canonical_fst heq (canonical_allocPixel h))

theorem canonical_actEncodeOpen {x : Held} {c : Cmd} (h : Canonical s) : Canonical (actEncodeOpen s x c) := by
  unfold actEncodeOpen
  extract_lets session cfg up caps
  have hcaps : Canonical caps.1 := canonical_ite_fst (canonical_allocMany h) (canonical_pair h)
  clear_value caps
  split
  · exact canonical_finishNow h
  · split
    · exact canonical_finishNow h
    · next heq =>
      have hbufs := canonical_fst heq (canonical_allocMany hcaps)
      split
      · next heq _ =>
        have hring := canonical_fst heq (canonical_allocBytes hbufs)
        exact canonical_finishNow (canonical_same (canonical_forEach (fun _ _ ht => canonical_addUser ht) hring) rfl)
      · exact canonical_finishNow h

theorem yields_execEncodeOpen {c : Cmd} (h : Canonical s) : Yields (execEncodeOpen c s) :=
  yields_next (canonical_runPacket (fun _ _ ht => canonical_actEncodeOpen ht) h)

theorem canonical_actEncodeSetRate {x : Held} {c : Cmd} (h : Canonical s) : Canonical (actEncodeSetRate s x c) :=
  canonical_holdOn (memKept.modSession _ _ h)

theorem yields_execEncodeSetRate {c : Cmd} (h : Canonical s) : Yields (execEncodeSetRate c s) :=
  yields_next (canonical_runPacket (fun _ _ ht => canonical_actEncodeSetRate ht) h)

theorem canonical_actKeyPicture {x : Held} {c : Cmd} (h : Canonical s) : Canonical (actKeyPicture s x c) :=
  canonical_holdOn (memKept.modSession _ _ h)

theorem yields_execKeyPicture {c : Cmd} (h : Canonical s) : Yields (execKeyPicture c s) :=
  yields_next (canonical_runPacket (fun _ _ ht => canonical_actKeyPicture ht) h)

theorem canonical_overrun {n cause : Nat} {p : EncPic} (h : Canonical s) : Canonical (overrun s n cause p) := memKept.postEvent _ _ h

theorem canonical_takeDecimated {n : Nat} (h : Canonical s) : Canonical (takeDecimated s n).1 := canonical_pair (memKept.modSession _ _ h)

theorem canonical_captureSource {src i : Nat} (h : Canonical s) : Canonical (captureSource s src i) := by
  unfold captureSource
  refine canonical_forEach (fun _ _ ht => ?_) (canonical_exportFrame h)
  split
  · rename_i heq
    have hu := canonical_fst heq (canonical_takeDecimated ht)
    exact hu
  · rename_i heq
    have hu := canonical_fst heq (canonical_takeDecimated ht)
    exact memKept.captureStart _ _ hu

theorem canonical_captureSurfaces (h : Canonical s) : Canonical (captureSurfaces s) := by
  unfold captureSurfaces
  refine canonical_forEach (fun _ _ ht => ?_) h
  dsimp only
  split
  · rename_i heq
    have hu := canonical_fst heq (canonical_takeDecimated ht)
    exact hu
  · rename_i heq
    have hu := canonical_fst heq (canonical_takeDecimated ht)
    exact canonical_ite (memKept.captureStart _ _ hu) hu

theorem yields_execOutputFrameStart {output : Nat} (h : Canonical s) : Yields (execOutputFrameStart output s) :=
  yields_next (canonical_ite (canonical_outputFrameStart h) (memKept.captureFrame _ (canonical_outputFrameStart h)))

theorem yields_execOutputEnableStart {output : Nat} (h : Canonical s) : Yields (execOutputEnableStart output s) :=
  yields_next (canonical_ite (canonical_outputEnableStart h) (memKept.captureFrame _ (canonical_forEach (fun _ _ ht => memKept.modSession _ _ ht)
    (canonical_outputEnableStart h))))

theorem yields_execOutputLineStart {output : Nat} {inTime : Bool} (h : Canonical s) : Yields (execOutputLineStart output inTime s) :=
  yields_next (canonical_ite (canonical_outputLineStart h) (canonical_ite (memKept.captureLine _ _ _ (canonical_outputLineStart h))
    (memKept.captureLine _ _ _ (canonical_outputLineStart h))))

theorem yields_execEncodeCoreSchedule {core : Nat} (h : Canonical s) : Yields (execEncodeCoreSchedule core s) := by
  unfold execEncodeCoreSchedule
  refine yields_next ?_
  refine canonical_ite h ?_
  dsimp only
  split
  · exact h
  · split
    · exact memKept.modSession _ _ h
    · exact memKept.modSession _ _ (canonical_takeLatch h)
    · exact h

theorem canonical_normalQp {x : Session} {p : EncPic} {w : List Nat} (h : Canonical s) : Canonical (normalQp s x p w).1 := by
  unfold normalQp
  refine canonical_ite_fst ?_ ?_
  · dsimp only
    exact canonical_freshValue h
  · refine canonical_ite_fst (canonical_pair h) ?_
    refine canonical_ite_fst (canonical_ite_fst (canonical_pair h) (canonical_pair h)) ?_
    refine canonical_ite_fst ?_ (canonical_ite_fst (canonical_pair h) (canonical_pair h))
    dsimp only
    exact canonical_freshValue h

theorem canonical_ringConsumed {x : Session} (h : Canonical s) : Canonical (ringConsumed s x).1 := by
  unfold ringConsumed
  split
  · next heq =>
    have ht := canonical_fst heq (canonical_storeRead h)
    exact canonical_pair ht
  · next heq =>
    have ht := canonical_fst heq (canonical_storeRead h)
    exact canonical_pair ht

theorem canonical_ringPut {x : Session} {off : Nat} {l : List Byte} (h : Canonical s) : Canonical (ringPut s x off l).1 := canonical_writeChecked h

theorem canonical_ringReached {x : Session} {first : Bool} {off : Nat} (h : Canonical s) : Canonical (ringReached s x first off) :=
  memKept.modSurf _ _ (canonical_ite (memKept.beginPass _ h) h)

theorem canonical_putUnit {n : Nat} {p : EncPic} {first rows flags : Nat} {nal : List Byte} (h : Canonical s) :
    Canonical (putUnit s n p first rows flags nal).1 := by
  unfold putUnit
  refine canonical_ite_fst (canonical_pair h) ?_
  dsimp only
  exact canonical_ite_fst (canonical_pair (canonical_overrun (memKept.modSession _ _ (canonical_ringConsumed h)))) (canonical_pair
    (memKept.modSession _ _ (canonical_ringReached (canonical_ringPut (canonical_ringPut (canonical_ringPut (canonical_ringPut (canonical_ite
    (canonical_ringConsumed h) (canonical_ringPut (canonical_ringConsumed h))))))))))

theorem canonical_endSlice {n : Nat} {p : EncPic} {last : Bool} (h : Canonical s) : Canonical (endSlice s n p last).1 :=
  canonical_ite_fst (canonical_putUnit h) (canonical_ite_fst (canonical_pair h) (canonical_foldl_fst (fun _ _ ht => canonical_putUnit ht)
    (canonical_pair h)))

theorem canonical_endPicture {n : Nat} {p : EncPic} (h : Canonical s) : Canonical (endPicture s n p) :=
  canonical_ite (canonical_overrun (memKept.modSession _ _ (canonical_endLatch h))) (canonical_ite (canonical_overrun (memKept.modSession _ _
    (canonical_endLatch h))) (memKept.modSession _ _ (canonical_endLatch h)))

theorem canonical_coreReads {x : Session} {i first count : Nat} (h : Canonical s) : Canonical (coreReads s x i first count).1 := by
  unfold coreReads
  dsimp only
  split
  · exact canonical_pair (memKept.denyAt _ _ _ _ _ h)
  · exact canonical_pair (memKept.countDiscards _ _ _ (canonical_noteLines h))

theorem canonical_readReference {x : Session} {l : List CuVector} (h : Canonical s) : Canonical (readReference s x l).1 := by
  unfold readReference
  dsimp only
  split
  · exact canonical_pair h
  · exact canonical_pair (canonical_coreReads h)

theorem canonical_storeRecon {x : Session} {r : Nat} {row : CodedRow} (h : Canonical s) : Canonical (storeRecon s x r row).1 :=
  canonical_pair (memKept.modSurf _ _ (canonical_forEach (fun _ _ ht => memKept.planeLine _ _ _ ht) (canonical_ite (memKept.beginPass _ h) h)))

theorem canonical_codeRow {n : Nat} {p : EncPic} {row : CodedRow} (h : Canonical s) : Canonical (codeRow s n p row) := by
  unfold codeRow
  dsimp only
  exact canonical_ite (canonical_endPicture (canonical_ite_fst (canonical_endSlice (canonical_same (canonical_storeRecon (canonical_readReference
    (canonical_coreReads (canonical_ite_fst (canonical_pair h) (canonical_ite_fst (canonical_normalQp h) (canonical_pair h)))))) rfl))
    (canonical_pair (canonical_same (canonical_storeRecon (canonical_readReference (canonical_coreReads (canonical_ite_fst (canonical_pair h)
    (canonical_ite_fst (canonical_normalQp h) (canonical_pair h)))))) rfl)))) (memKept.modSession _ _ (canonical_ite_fst (canonical_endSlice
    (canonical_same (canonical_storeRecon (canonical_readReference (canonical_coreReads (canonical_ite_fst (canonical_pair h) (canonical_ite_fst
    (canonical_normalQp h) (canonical_pair h)))))) rfl)) (canonical_pair (canonical_same (canonical_storeRecon (canonical_readReference
    (canonical_coreReads (canonical_ite_fst (canonical_pair h) (canonical_ite_fst (canonical_normalQp h) (canonical_pair h)))))) rfl))))

theorem yields_execEncodeCtuRowCoded {core : Nat} {row : CodedRow} (h : Canonical s) : Yields (execEncodeCtuRowCoded core row s) := by
  unfold execEncodeCtuRowCoded
  refine yields_next ?_
  split
  · exact h
  · split
    · exact h
    · exact canonical_ite (canonical_codeRow h) (memKept.modSession _ _ h)

theorem canonical_releaseAll {l : List Nat} (h : Canonical s) : Canonical (releaseAll s l) :=
  canonical_forEach (fun _ _ ht => canonical_ite (canonical_freeStorage (canonical_beginRelease (memKept.modSurf _ _ ht))) (canonical_beginRelease
    (memKept.modSurf _ _ ht))) h

theorem canonical_failRequests {n : Nat} (h : Canonical s) : Canonical (failRequests s n) :=
  memKept.modSession _ _ (canonical_forEach (fun _ _ ht => memKept.finishKey _ _ _ _ ht) h)

theorem canonical_actEncodeClose {x : Held} {c : Cmd} (h : Canonical s) : Canonical (actEncodeClose s x c) :=
  canonical_defer (canonical_ite (canonical_endLatch (memKept.modSession _ _ (canonical_failRequests h))) (memKept.modSession _ _
    (canonical_failRequests h)))

theorem yields_execEncodeClose {c : Cmd} (h : Canonical s) : Yields (execEncodeClose c s) :=
  yields_next (canonical_runPacket (fun _ _ ht => canonical_actEncodeClose ht) h)

theorem canonical_encodePower (h : Canonical s) : Canonical (encodePower s) := canonical_ite (canonical_same h rfl) h

theorem canonical_dropSession {n : Nat} (h : Canonical s) : Canonical (dropSession s n) :=
  canonical_encodePower (canonical_same (canonical_ite (canonical_dropUser (canonical_dropUser (canonical_releaseAll (canonical_endLatch
    (canonical_failRequests h))))) (canonical_dropUser (canonical_releaseAll (canonical_endLatch (canonical_failRequests h))))) rfl)

theorem yields_execEncodeCloseComplete {session : Nat} (h : Canonical s) : Yields (execEncodeCloseComplete session s) := by
  unfold execEncodeCloseComplete
  refine yields_next ?_
  dsimp only
  split
  · exact h
  · exact canonical_ite h (canonical_ite (memKept.finishKey _ _ _ _ (canonical_dropSession h)) (memKept.finishKey _ _ _ _ (canonical_dropSession h)))

theorem canonical_grantCredits (h : Canonical s) : Canonical (grantCredits s) := canonical_forEach (fun _ _ ht => canonical_same ht rfl) h

end Sys2Proof.Machine
end

section
/-! The memory's canonical form through Sys2Proof/Machine/DecodeCluster. -/
namespace Sys2Proof.Machine
open Sys2Proof

variable {s : State}

theorem canonical_dropWork {i : Nat} (h : Canonical s) : Canonical (dropWork s i) := by
  unfold dropWork
  refine canonical_ite h ?_
  dsimp only
  split
  · exact canonical_happen (canonical_modCtx h)
  · exact canonical_forEach (fun _ _ ht => canonical_happen ht) (canonical_modCtx h)

theorem canonical_popUnit {i : Nat} (h : Canonical s) : Canonical (popUnit s i) := canonical_modCtx h

theorem canonical_discardUnit {i : Nat} (h : Canonical s) : Canonical (discardUnit s i) := canonical_modCtx (canonical_popUnit h)

theorem canonical_refuseSet {i detail : Nat} {q : SeqInfo} (h : Canonical s) : Canonical (refuseSet s i detail q) :=
  canonical_ite (canonical_modCtx (canonical_popUnit h)) (canonical_happen (canonical_markUnfit (canonical_modCtx (canonical_popUnit h))))

theorem canonical_dropStart {i : Nat} {isRef : Bool} (h : Canonical s) : Canonical (dropStart s i isRef) :=
  canonical_happen (canonical_modCtx (canonical_popUnit h))

theorem canonical_beginPicture {i core : Nat} {a : AccessUnit} {f : AuInfo} {q : PicInfo} {starting : Bool} (h : Canonical s) :
    Canonical (beginPicture s i core a f q starting) := by
  unfold beginPicture
  dsimp only
  split
  · exact canonical_dropStart (canonical_ite (canonical_happen (canonical_modCtx h)) (canonical_modCtx h))
  · exact canonical_captureSource (canonical_modCtx (canonical_setPassSize (memKept.beginPass _ (canonical_ite (canonical_happen (canonical_modCtx
      h)) (canonical_modCtx h)))))

theorem canonical_startUnit {i core : Nat} {a : AccessUnit} {q : PicInfo} (h : Canonical s) : Canonical (startUnit s i core a q) :=
  canonical_ite (canonical_popUnit h) (canonical_ite (canonical_refuseSet h) (canonical_ite (canonical_discardUnit h) (canonical_ite
    (canonical_discardUnit h) (canonical_beginPicture h))))

theorem yields_execDecodeContextSchedule {core : Nat} {pic : PicInfo} (h : Canonical s) : Yields (execDecodeContextSchedule core pic s) := by
  unfold execDecodeContextSchedule
  refine yields_next ?_
  refine canonical_ite h ?_
  dsimp only
  split
  · exact h
  · split
    · exact canonical_modCtx (canonical_same h rfl)
    · exact canonical_startUnit (canonical_same h rfl)
    · exact canonical_same h rfl

theorem yields_execDecodeCoreIdleTimer {core : Nat} (h : Canonical s) : Yields (execDecodeCoreIdleTimer core s) :=
  yields_next (canonical_ite (canonical_same h rfl) h)

theorem canonical_takeSei {i : Nat} {l : List Byte} (h : Canonical s) : Canonical (takeSei s i l) := by
  unfold takeSei
  dsimp only
  split
  · exact h
  · split
    · exact canonical_modCtx (canonical_happen h)
    · exact memKept.modSurf _ _ (canonical_modCtx h)

theorem canonical_writeDecoded {p : DecPic} {x : DecCtx} {row : DecodedRow} (h : Canonical s) : Canonical (writeDecoded s p x row) :=
  canonical_ite (canonical_forEach (fun _ _ ht => canonical_laneRow ht) h) (memKept.exportLines _ (memKept.modSurf _ _ (canonical_forEach (fun _ _ ht
    => memKept.planeLine _ _ _ ht) (canonical_forEach (fun _ _ hu => memKept.planeLine _ _ _ hu) h))))

theorem canonical_readRefs {i : Nat} {l : List (Int × Nat × Nat)} (h : Canonical s) : Canonical (readRefs s i l).1 := by
  unfold readRefs
  refine canonical_foldl_fst (fun _ _ ht => ?_) (canonical_pair h)
  dsimp only
  split
  · exact ht
  · split
    · exact canonical_pair (memKept.denyAt _ _ _ _ _ ht)
    · exact canonical_pair (memKept.countDiscards _ _ _ (canonical_noteLines ht))

theorem canonical_chargeCtus {slice : Nat} {p : DecPic} {n : Nat} (h : Canonical s) : Canonical (chargeCtus s slice p n) := canonical_same h rfl

theorem canonical_finishPicture {i : Nat} {p : DecPic} (h : Canonical s) : Canonical (finishPicture s i p) := by
  unfold finishPicture
  dsimp only
  exact canonical_addDelivery (canonical_ite (canonical_happen (canonical_modCtx (canonical_ite (canonical_happen h) h))) (canonical_modCtx
    (canonical_ite (canonical_happen h) h)))

theorem canonical_dropOrphan {i : Nat} {p : DecPic} {aborted : Bool} (h : Canonical s) : Canonical (dropOrphan s i p aborted) :=
  canonical_ite (canonical_orphanDone (memKept.modSurf _ _ (canonical_modCtx h))) (memKept.modSurf _ _ (canonical_modCtx h))

theorem canonical_discardRow {i : Nat} {p : DecPic} (h : Canonical s) : Canonical (discardRow s i p) :=
  canonical_ite (canonical_dropOrphan h) (canonical_modCtx h)

theorem canonical_newSei {i : Nat} {p : DecPic} (h : Canonical s) : Canonical (newSei s i p) :=
  canonical_modCtx (canonical_forEach (fun _ _ ht => canonical_takeSei ht) h)

theorem canonical_readCoded {i : Nat} (h : Canonical s) : Canonical (readCoded s i) := by
  unfold readCoded
  dsimp only
  split
  · exact h
  · refine canonical_modCtx ?_
    refine canonical_foldl_fst (fun _ _ ht => ?_) (canonical_pair h)
    split
    · exact canonical_pair (memKept.denyAt _ _ _ _ _ ht)
    · exact canonical_pair (memKept.noteRead _ _ _ ht)

theorem canonical_decodeRow {i : Nat} {p : DecPic} {row : DecodedRow} (h : Canonical s) : Canonical (decodeRow s i p row) := by
  unfold decodeRow
  extract_lets u x y bytes cols n u1 u2 u3
  have hu : Canonical u := canonical_readCoded h
  clear_value u
  have hu1 : Canonical u1 := canonical_chargeCtus hu
  clear_value u1
  have hu2 : Canonical u2 := canonical_newSei hu1
  clear_value u2
  have hu3 : Canonical u3 := canonical_ite (canonical_happen hu2) hu2
  clear_value u3
  refine canonical_ite (canonical_chargeCtus (canonical_modCtx hu)) ?_
  refine canonical_ite (canonical_chargeCtus (canonical_discardRow hu)) ?_
  refine canonical_ite hu ?_
  dsimp only
  exact canonical_ite (canonical_finishPicture (canonical_modCtx (canonical_writeDecoded (canonical_readRefs hu3)))) (canonical_modCtx
    (canonical_writeDecoded (canonical_readRefs hu3)))

theorem yields_execDecodeCtuRowDone {core : Nat} {row : DecodedRow} (h : Canonical s) : Yields (execDecodeCtuRowDone core row s) := by
  unfold execDecodeCtuRowDone
  refine yields_next ?_
  split
  · exact h
  · split
    · exact h
    · exact canonical_decodeRow h

theorem canonical_postDecodeEvents (h : Canonical s) : Canonical (postDecodeEvents s) :=
  canonical_forEach (fun _ _ ht => canonical_forEach (fun _ _ hu => memKept.postEvent _ _ hu) (canonical_modCtx ht)) h

theorem canonical_actDecodeStatus {x : Held} {c : Cmd} (h : Canonical s) : Canonical (actDecodeStatus s x c) := by
  unfold actDecodeStatus
  refine canonical_ite (canonical_finishNow h) ?_
  split
  · next heq =>
    have ht := canonical_fst heq (canonical_destWrite h)
    exact canonical_finishNow ht
  · next heq =>
    have ht := canonical_fst heq (canonical_destWrite h)
    exact canonical_finishNow ht

theorem yields_execDecodeStatus {c : Cmd} (h : Canonical s) : Yields (execDecodeStatus c s) :=
  yields_next (canonical_runPacket (fun _ _ ht => canonical_actDecodeStatus ht) h)

end Sys2Proof.Machine
end

section
/-! The memory's canonical form through Sys2Proof/Machine/Ingress. -/
namespace Sys2Proof.Machine
open Sys2Proof

variable {s : State}

theorem canonical_modPort {i : Nat} {f : EthPort → EthPort} (h : Canonical s) : Canonical (modPort s i f) := canonical_same h rfl

theorem canonical_modRule {i : Nat} {f : FlowRule → FlowRule} (h : Canonical s) : Canonical (modRule s i f) := canonical_same h rfl

theorem canonical_modQueue {i : Nat} {f : HostQueue → HostQueue} (h : Canonical s) : Canonical (modQueue s i f) := canonical_same h rfl

theorem canonical_modStream {i : Nat} {f : RtpStream → RtpStream} (h : Canonical s) : Canonical (modStream s i f) := canonical_same h rfl

theorem canonical_flowEvent {r cause n : Nat} (h : Canonical s) : Canonical (flowEvent s r cause n) := canonical_modRule h

theorem canonical_loseUnit {r : Nat} (h : Canonical s) : Canonical (loseUnit s r) := canonical_ite (canonical_modRule h) (canonical_modCtx h)

theorem canonical_dropFragment {r : Nat} (h : Canonical s) : Canonical (dropFragment s r) :=
  canonical_ite (canonical_loseUnit (canonical_modRule h)) h

theorem canonical_endUnit {r : Nat} (h : Canonical s) : Canonical (endUnit s r) :=
  canonical_ite (canonical_dropFragment h) (canonical_dropWork (canonical_modCtx (canonical_modRule (canonical_dropFragment h))))

theorem canonical_putCoded {r : Nat} {l : List Byte} (h : Canonical s) : Canonical (putCoded s r l).1 := by
  unfold putCoded
  extract_lets owner w
  have hw : Canonical w.1.1 :=
    foldl_keeps (fun x : (State × Bool) × List Byte => Canonical x.1.1) _ (fun _ _ hx => canonical_writeChecked hx) _ _ h
  exact canonical_pair (canonical_modRule hw)

theorem canonical_putNal {r : Nat} {n : List Byte} (h : Canonical s) : Canonical (putNal s r n) := by
  unfold putNal
  dsimp only
  split
  · next heq =>
    have ht := canonical_fst heq (canonical_putCoded h)
    exact canonical_loseUnit ht
  · next heq =>
    have ht := canonical_fst heq (canonical_putCoded h)
    exact canonical_modCtx ht

theorem canonical_putNals {r : Nat} {l : List (List Byte)} (h : Canonical s) : Canonical (putNals s r l) :=
  canonical_ite (canonical_loseUnit (canonical_flowEvent h)) (canonical_forEach (fun _ _ ht => canonical_putNal ht) h)

theorem canonical_putFragment {r : Nat} {head : List Byte} {first last : Bool} {l : List Byte} (h : Canonical s) :
    Canonical (putFragment s r head first last l) := by
  unfold putFragment
  dsimp only
  split
  · exact canonical_loseUnit (canonical_ite (canonical_dropFragment h) h)
  · exact canonical_ite (canonical_putNals (canonical_modRule (canonical_ite (canonical_dropFragment h) h))) (canonical_modRule (canonical_ite
      (canonical_dropFragment h) h))

theorem canonical_putPayload {r : Nat} {l : List Byte} (h : Canonical s) : Canonical (putPayload s r l) := by
  unfold putPayload
  extract_lets h265 b0 u t f t1 f1
  have hu : Canonical u := canonical_ite h (canonical_dropFragment h)
  clear_value u
  exact canonical_ite (canonical_ite (canonical_putNals hu) (canonical_ite (canonical_putFragment hu) (canonical_ite (canonical_putNals hu)
    (canonical_flowEvent hu)))) (canonical_ite (canonical_putNals hu) (canonical_ite (canonical_putNals hu) (canonical_ite (canonical_putFragment hu)
    (canonical_flowEvent hu))))

theorem canonical_passPacket {r : Nat} {p : RtpPacket} (h : Canonical s) : Canonical (passPacket s r p) := by
  unfold passPacket
  extract_lets x u x1 u1 u2 u3 u4 u5
  have hu : Canonical u := canonical_ite (canonical_endUnit h) h
  clear_value u
  have hu1 : Canonical u1 := canonical_ite (canonical_modRule hu) hu
  clear_value u1
  have hu2 : Canonical u2 := canonical_ite (canonical_modCtx (canonical_modRule hu1)) hu1
  clear_value u2
  have hu3 : Canonical u3 := canonical_modCtx hu2
  clear_value u3
  have hu4 : Canonical u4 := canonical_modRule hu3
  clear_value u4
  have hu5 : Canonical u5 := canonical_putPayload hu4
  clear_value u5
  exact canonical_ite (canonical_endUnit hu5) hu5

theorem canonical_passRun {n r : Nat} (h : Canonical s) : Canonical (passRun n r s) := by
  induction n generalizing s with
  | zero => exact h
  | succ n ih =>
    unfold passRun
    dsimp only
    split
    · exact h
    · exact ih (canonical_passPacket (canonical_modRule h))

theorem canonical_declareLost {r : Nat} (h : Canonical s) : Canonical (declareLost s r) := by
  unfold declareLost
  dsimp only
  split
  · exact h
  · exact canonical_passRun (canonical_modRule (memKept.steady.count _ _ _ _ _ (canonical_flowEvent h)))

theorem canonical_settleHold {n r : Nat} (h : Canonical s) : Canonical (settleHold n r s) := by
  induction n generalizing s with
  | zero => exact h
  | succ n ih => exact canonical_ite (ih (canonical_declareLost h)) h

theorem canonical_restartFlow {r cause ssrc : Nat} {p : RtpPacket} (h : Canonical s) : Canonical (restartFlow s r cause ssrc p) :=
  canonical_passPacket (canonical_modRule (canonical_endUnit (canonical_loseUnit (canonical_flowEvent h))))

theorem canonical_orderPacket {r port : Nat} {p : RtpPacket} (h : Canonical s) : Canonical (orderPacket s r port p) := by
  unfold orderPacket
  dsimp only
  split
  · exact canonical_passPacket h
  · exact canonical_ite (canonical_settleHold (canonical_passRun (canonical_passPacket h))) (canonical_ite (canonical_ite (memKept.steady.count _ _ _
      _ _ (canonical_flowEvent h)) (canonical_settleHold (canonical_modRule h))) (canonical_ite (canonical_restartFlow h) (memKept.steady.count _ _ _
      _ _ (canonical_flowEvent h))))

theorem canonical_gaugePacket {r port ssrc seq : Nat} {data : List Byte} (h : Canonical s) : Canonical (gaugePacket s r port ssrc seq data) :=
  canonical_forEach (fun _ _ ht => canonical_ite (canonical_gaugeResult ht) ht) h

theorem canonical_rtpFrame {r port : Nat} {stamp : Wp} {l : List Byte} (h : Canonical s) : Canonical (rtpFrame s r port stamp l) := by
  unfold rtpFrame
  refine canonical_ite h ?_
  refine canonical_ite (canonical_flowEvent h) ?_
  refine canonical_ite (canonical_flowEvent h) ?_
  refine canonical_ite h ?_
  dsimp only
  split
  · exact canonical_orderPacket (canonical_modRule (canonical_gaugePacket (canonical_modRule h)))
  · exact canonical_ite (canonical_restartFlow (canonical_gaugePacket (canonical_modRule h))) (canonical_orderPacket (canonical_gaugePacket
      (canonical_modRule h)))

theorem yields_execReorderHoldTimeout {rule : Nat} (h : Canonical s) : Yields (execReorderHoldTimeout rule s) :=
  yields_next (canonical_ite (canonical_settleHold (canonical_declareLost h)) h)

theorem canonical_postFlow {r : Nat} (h : Canonical s) : Canonical (postFlow r s) :=
  canonical_forEach (fun _ _ ht => memKept.postEvent _ _ ht) (canonical_modRule h)

theorem canonical_postFlowEvents (h : Canonical s) : Canonical (postFlowEvents s) := canonical_forEach (fun _ _ ht => canonical_postFlow ht) h

theorem canonical_queueInterrupt {q : Nat} (h : Canonical s) : Canonical (queueInterrupt s q) :=
  canonical_ite (canonical_modQueue h) (memKept.steady.raiseEntry _ (canonical_modQueue h))

theorem canonical_queueInterrupts (h : Canonical s) : Canonical (queueInterrupts s) :=
  canonical_forEach (fun _ _ ht => canonical_ite (canonical_queueInterrupt ht) ht) h

theorem canonical_nextDesc {q : Nat} {x : HostQueue} {tx : Bool} {host : List HostDesc} (h : Canonical s) : Canonical (nextDesc s q x tx host).1 := by
  unfold nextDesc
  refine canonical_ite_fst (canonical_pair h) ?_
  refine canonical_ite_fst ?_ (canonical_pair h)
  split
  · next heq =>
    have ht := canonical_fst heq (canonical_storeRead h)
    exact canonical_pair ht
  · next heq =>
    have ht := canonical_fst heq (canonical_storeRead h)
    exact canonical_pair ht

theorem canonical_queuePut {x : HostQueue} {a : Nat} {l : List Byte} (h : Canonical s) : Canonical (queuePut s x a l) :=
  canonical_ite (canonical_storeWrite h) (canonical_hostPut h)

theorem canonical_deliverQueue {q port : Nat} {rule : Option Nat} {word : Nat} {frame : List Byte} {host : List HostDesc} (h : Canonical s) :
    Canonical (deliverQueue s q port rule word frame host) := by
  unfold deliverQueue
  dsimp only
  split
  · next heq =>
    have ht := canonical_fst heq (canonical_nextDesc h)
    exact memKept.steady.count _ _ _ _ _ ht
  · next heq =>
    have ht := canonical_fst heq (canonical_nextDesc h)
    exact canonical_queueInterrupt (canonical_modQueue (canonical_queuePut (canonical_queuePut ht)))

theorem canonical_classifyFrame {port : Nat} {stamp : Wp} {frame : List Byte} {i : FrameInfo} {host : List HostDesc} (h : Canonical s) :
    Canonical (classifyFrame s port stamp frame i host) := by
  unfold classifyFrame
  dsimp only
  split
  · exact canonical_ite (canonical_rtpFrame h) (canonical_ite (canonical_ite (canonical_deliverQueue h) h) h)
  · split
    · exact canonical_ite h (canonical_deliverQueue h)
    · exact h

theorem yields_execRxTailDoorbell {queue tail : Nat} (h : Canonical s) : Yields (execRxTailDoorbell queue tail s) :=
  yields_next (canonical_writeQueueTail h)

theorem yields_execTxTailDoorbell {queue tail : Nat} (h : Canonical s) : Yields (execTxTailDoorbell queue tail s) :=
  yields_next (canonical_writeQueueTail h)

theorem canonical_udpFrame {p : EthPort} {v6 : Bool} {dmac : Nat} {tag : Option Nat} {daddr dscp ttl sp dp : Nat} {zeroSum : Bool} {l : List Byte} (h
  : Canonical s) :
    Canonical (udpFrame s p v6 dmac tag daddr dscp ttl sp dp zeroSum l).1 := by
  unfold udpFrame
  dsimp only
  exact canonical_ite_fst (canonical_pair (canonical_freshValue h)) (canonical_pair (canonical_freshValue h))

theorem canonical_queueRtp {n : Nat} {marker : Bool} {ts : Nat} {payload : List Byte} (h : Canonical s) :
    Canonical (queueRtp s n marker ts payload) := by
  unfold queueRtp
  dsimp only
  exact canonical_modStream (canonical_udpFrame h)

theorem yields_execRtpTransmitUnit {stream : Nat} (h : Canonical s) : Yields (execRtpTransmitUnit stream s) := by
  unfold execRtpTransmitUnit
  refine yields_next ?_
  dsimp only
  split
  · next heq =>
    have ht := canonical_fst heq (canonical_ite_fst (canonical_ringConsumed h) (canonical_pair h))
    exact ht
  · next heq =>
    have ht := canonical_fst heq (canonical_ite_fst (canonical_ringConsumed h) (canonical_pair h))
    refine canonical_ite ht ?_
    split
    · rename_i heq
      have hu := canonical_fst heq (canonical_storeRead ht)
      exact hu
    · rename_i heq
      have hu := canonical_fst heq (canonical_storeRead ht)
      refine canonical_ite (canonical_ringPut hu) ?_
      split
      · rename_i heq
        have hv := canonical_fst heq (canonical_storeRead hu)
        exact hv
      · rename_i heq
        have hv := canonical_fst heq (canonical_storeRead hu)
        exact canonical_ringPut (canonical_forEach (fun _ _ hw => canonical_queueRtp hw) hv)

theorem canonical_sendFrame {port : Nat} {f : List Byte} (h : Canonical s) : Canonical (sendFrame s port f) :=
  memKept.steady.count _ _ _ _ _ (memKept.emit _ h)

theorem canonical_completeTx {q port : Nat} {d : HostDesc} {err : Bool} {word : Nat} (h : Canonical s) : Canonical (completeTx s q port d err word) :=
  canonical_queueInterrupt (canonical_modQueue (canonical_queuePut h))

theorem canonical_txBytes {x : HostQueue} {d : HostDesc} (h : Canonical s) : Canonical (txBytes s x d).1 :=
  canonical_ite_fst (canonical_storeRead h) (canonical_pair h)

theorem canonical_endBinding {r : Nat} (h : Canonical s) : Canonical (endBinding s r) :=
  canonical_ite h (canonical_modRule (canonical_modCtx (canonical_releaseAll (canonical_postFlow h))))

theorem canonical_actFlowPort {x : Held} {c : Cmd} (h : Canonical s) : Canonical (actFlowPort s x c) :=
  canonical_finishNow (canonical_modPort (canonical_ite (canonical_endScans (canonical_ite h (memKept.emit _ h))) (canonical_ite h (memKept.emit _
    h))))

theorem yields_execFlowSetPort {c : Cmd} (h : Canonical s) : Yields (execFlowSetPort c s) :=
  yields_next (canonical_runPacket (fun _ _ ht => canonical_actFlowPort ht) h)

theorem canonical_actFlowRule {x : Held} {c : Cmd} (h : Canonical s) : Canonical (actFlowRule s x c) :=
  canonical_finishNow (canonical_modRule (canonical_ite (canonical_endBinding h) h))

theorem yields_execFlowSetRule {c : Cmd} (h : Canonical s) : Yields (execFlowSetRule c s) :=
  yields_next (canonical_runPacket (fun _ _ ht => canonical_actFlowRule ht) h)

theorem canonical_actFlowBind {x : Held} {c : Cmd} (h : Canonical s) : Canonical (actFlowBind s x c) := by
  unfold actFlowBind
  dsimp only
  split
  · exact canonical_finishNow h
  · next heq =>
    have ht := canonical_fst heq (canonical_allocBytes (canonical_endBinding h))
    exact canonical_finishNow (canonical_modRule (canonical_addUser ht))

theorem yields_execFlowSetBind {c : Cmd} (h : Canonical s) : Yields (execFlowSetBind c s) :=
  yields_next (canonical_runPacket (fun _ _ ht => canonical_actFlowBind ht) h)

theorem canonical_actFlowQueue {x : Held} {c : Cmd} (h : Canonical s) : Canonical (actFlowQueue s x c) :=
  canonical_finishNow (canonical_ite (canonical_modPort (canonical_modPort (canonical_modPort (canonical_same h rfl)))) (canonical_modPort
    (canonical_modPort (canonical_same h rfl))))

theorem yields_execFlowSetQueue {c : Cmd} (h : Canonical s) : Yields (execFlowSetQueue c s) :=
  yields_next (canonical_runPacket (fun _ _ ht => canonical_actFlowQueue ht) h)

theorem canonical_endStream {n : Nat} (h : Canonical s) : Canonical (endStream s n) :=
  canonical_ite h (canonical_modStream (canonical_ite (memKept.modSession _ _ (canonical_dropUser h)) h))

theorem canonical_actFlowTransmit {x : Held} {c : Cmd} (h : Canonical s) : Canonical (actFlowTransmit s x c) :=
  canonical_finishNow (canonical_ite (memKept.modSession _ _ (canonical_addUser (canonical_same (canonical_same (canonical_endStream h) rfl) rfl)))
    (canonical_same (canonical_same (canonical_endStream h) rfl) rfl))

theorem yields_execFlowSetTransmit {c : Cmd} (h : Canonical s) : Yields (execFlowSetTransmit c s) :=
  yields_next (canonical_runPacket (fun _ _ ht => canonical_actFlowTransmit ht) h)

end Sys2Proof.Machine
end

section
/-! The memory's canonical form through Sys2Proof/Machine/NetTime. -/
namespace Sys2Proof.Machine
open Sys2Proof

variable {s : State}

theorem canonical_modClock {p : Nat} {f : PtpClock → PtpClock} (h : Canonical s) : Canonical (modClock s p f) := canonical_same h rfl

theorem canonical_modPtp {p : Nat} {f : PtpPort → PtpPort} (h : Canonical s) : Canonical (modPtp s p f) := canonical_same h rfl

theorem canonical_rebaseClock {p : Nat} (h : Canonical s) : Canonical (rebaseClock s p) := canonical_modClock h

theorem canonical_rebaseClocks (h : Canonical s) : Canonical (rebaseClocks s) := canonical_rebaseClock (canonical_rebaseClock (canonical_same h rfl))

theorem canonical_restartClocks (h : Canonical s) : Canonical (restartClocks s) := canonical_modClock (canonical_modClock (canonical_same h rfl))

theorem canonical_stepClock {p : Nat} {v : Int} (h : Canonical s) : Canonical (stepClock s p v) :=
  memKept.steady.count _ _ _ _ _ (canonical_modClock h)

theorem canonical_setRate {p : Nat} {r : Int} (h : Canonical s) : Canonical (setRate s p r) := canonical_modClock (canonical_rebaseClock h)

end Sys2Proof.Machine
end

section
/-! The memory's canonical form through Sys2Proof/Machine/Headwater. -/
namespace Sys2Proof.Machine
open Sys2Proof

variable {s : State}

theorem canonical_modRef {n : Nat} {f : RefEntry → RefEntry} (h : Canonical s) : Canonical (modRef s n f) := canonical_same h rfl

theorem canonical_modLane {p : Nat} {f : RefEntry → RefEntry} (h : Canonical s) : Canonical (modLane s p f) := canonical_same h rfl

theorem canonical_postMis {basis kind : Nat} {m : Int} (h : Canonical s) : Canonical (postMis s basis kind m) := memKept.steady.post _ _ _ h

theorem canonical_checkOne {basis : Nat} {above : Bool} {m : Option Int} (h : Canonical s) : Canonical (checkOne s basis above m).1 := by
  unfold checkOne
  dsimp only
  split
  · exact canonical_pair h
  · exact canonical_ite_fst (canonical_pair (canonical_postMis h)) (canonical_ite_fst (canonical_pair (canonical_postMis h)) (canonical_pair h))

theorem canonical_checkMis (h : Canonical s) : Canonical (checkMis s) := by
  unfold checkMis
  dsimp only
  exact canonical_same (canonical_checkOne (canonical_checkOne h)) rfl

theorem canonical_postSwitch {frm cause : Nat} (h : Canonical s) : Canonical (postSwitch s frm cause) := memKept.steady.post _ _ _ h

theorem canonical_leaveLocked (h : Canonical s) : Canonical (leaveLocked s) := canonical_ite (canonical_same h rfl) h

theorem canonical_startSwitch {t : RefSel} {cause : Nat} (h : Canonical s) : Canonical (startSwitch s t cause) :=
  canonical_postSwitch (canonical_same (canonical_leaveLocked h) rfl)

theorem canonical_enterHold (h : Canonical s) : Canonical (enterHold s) :=
  canonical_ite h (canonical_ite (canonical_postSwitch (canonical_same (canonical_same (canonical_leaveLocked h) rfl) rfl)) (canonical_postSwitch
    (canonical_same (canonical_same (canonical_leaveLocked h) rfl) rfl)))

theorem canonical_takeBest {cause : Nat} (h : Canonical s) : Canonical (takeBest s cause) := by
  unfold takeBest
  split
  · exact canonical_ite (canonical_enterHold h) (canonical_startSwitch h)
  · exact canonical_enterHold h

theorem canonical_reselect {cause : Nat} (h : Canonical s) : Canonical (reselect s cause) := by
  unfold reselect
  split
  · exact canonical_ite h (canonical_startSwitch h)
  · split
    · exact canonical_ite h (canonical_takeBest h)
    · exact canonical_takeBest h

theorem canonical_becameQualified {n : Nat} (h : Canonical s) : Canonical (becameQualified s n) := by
  unfold becameQualified
  refine canonical_ite h ?_
  split
  · exact canonical_ite (canonical_ite (canonical_enterHold h) (canonical_startSwitch h)) h
  · exact canonical_reselect h

theorem canonical_setRef {n : Nat} {t : RefState} {cause : Nat} (h : Canonical s) : Canonical (setRef s n t cause) :=
  canonical_ite h (memKept.steady.post _ _ _ (canonical_modRef h))

theorem canonical_loseEntry {n : Nat} (h : Canonical s) : Canonical (loseEntry s n) :=
  canonical_ite h (canonical_ite (canonical_modRef h) (canonical_reselect (canonical_setRef (canonical_modRef h))))

theorem canonical_loseInput {input : Nat} (h : Canonical s) : Canonical (loseInput s input) :=
  canonical_forEach (fun _ _ ht => canonical_loseEntry ht) h

theorem yields_execRefLossCondition {entry : Nat} (h : Canonical s) : Yields (execRefLossCondition entry s) :=
  yields_next (canonical_ite (canonical_loseEntry h) h)

theorem canonical_judgeRef {n : Nat} (h : Canonical s) : Canonical (judgeRef s n) := by
  unfold judgeRef
  dsimp only
  split
  · exact h
  · exact canonical_ite h (canonical_modRef (canonical_setRef h))
  · exact canonical_ite (canonical_reselect (canonical_setRef h)) (canonical_modRef h)
  · exact canonical_ite (canonical_ite (canonical_modRef h) (canonical_ite (canonical_reselect (canonical_setRef h)) (canonical_modRef h)))
      (canonical_ite (canonical_ite (canonical_modRef (canonical_setRef h)) (canonical_ite (canonical_reselect (canonical_setRef (canonical_setRef
      h))) (canonical_modRef (canonical_setRef h)))) h)
  · exact canonical_ite (canonical_becameQualified (canonical_setRef h)) (canonical_ite (canonical_modRef h) (canonical_ite (canonical_reselect
      (canonical_setRef h)) (canonical_modRef h)))

theorem yields_execRefMeasurementIntervalEnd {entry : Nat} {freqPpb phase : Int} {ok : Bool} (h : Canonical s) :
    Yields (execRefMeasurementIntervalEnd entry freqPpb phase ok s) :=
  yields_next (canonical_ite h (canonical_ite (canonical_modRef h) (canonical_checkMis (canonical_judgeRef (canonical_modRef h)))))

theorem yields_execRefQualifyTimer {entry : Nat} (h : Canonical s) : Yields (execRefQualifyTimer entry s) :=
  yields_next (canonical_ite (canonical_becameQualified (canonical_setRef h)) h)

theorem yields_execRefDisqualifyTimer {entry : Nat} (h : Canonical s) : Yields (execRefDisqualifyTimer entry s) :=
  yields_next (canonical_ite (canonical_reselect (canonical_setRef h)) h)

theorem yields_execDpllLockComplete {offset : Int} (h : Canonical s) : Yields (execDpllLockComplete offset s) :=
  yields_next (canonical_ite h (canonical_postSwitch (canonical_same h rfl)))

theorem yields_execHistorySecondTick {freq : Int} (h : Canonical s) : Yields (execHistorySecondTick freq s) := by
  unfold execHistorySecondTick
  refine yields_next ?_
  refine canonical_ite h ?_
  dsimp only
  split
  · exact canonical_setHead (canonical_ite (canonical_same h rfl) (canonical_same h rfl))
  · exact canonical_setHead (canonical_ite (canonical_same h rfl) (canonical_same h rfl))
  · exact canonical_setHead (canonical_ite (canonical_same h rfl) (canonical_same h rfl))
  · exact canonical_ite (canonical_same h rfl) (canonical_same h rfl)

theorem canonical_driveRef {which : Nat} (h : Canonical s) : Canonical (driveRef s which) := canonical_ite h (memKept.emit _ (canonical_same h rfl))

theorem yields_execRefoutPulse {which : Nat} (h : Canonical s) : Yields (execRefoutPulse which s) :=
  yields_next (canonical_ite (canonical_driveRef h) h)

theorem canonical_applyRefOuts (h : Canonical s) : Canonical (applyRefOuts s) := by
  unfold applyRefOuts
  dsimp only
  split
  · exact canonical_ite (canonical_driveRef (canonical_driveRef (canonical_same h rfl))) h
  · exact h

theorem canonical_applyRef {n : Nat} {e : RefEntry} (h : Canonical s) : Canonical (applyRef s n e) := by
  unfold applyRef
  extract_lets o restart fresh u clear was u1 u2
  have hclear : ∀ {t : State}, Canonical t → Canonical (clear t) := canonical_modRef
  have hu : Canonical u := canonical_modRef h
  have hu1 : Canonical u1 := canonical_setRef hu
  have hu2 : Canonical u2 := canonical_reselect (hclear (canonical_setRef hu))
  refine canonical_ite (canonical_reselect (hclear (canonical_setRef hu))) (canonical_ite ?_ (canonical_ite ?_ (canonical_reselect hu)))
  · exact canonical_ite (canonical_reselect hu1) (canonical_becameQualified (canonical_reselect hu1))
  · exact canonical_ite (canonical_loseEntry hu2) hu2

theorem canonical_actRefEntry {x : Held} {c : Cmd} (h : Canonical s) : Canonical (actRefEntry s x c) := canonical_finishNow (canonical_applyRef h)

theorem yields_execRefTableSetEntry {c : Cmd} (h : Canonical s) : Yields (execRefTableSetEntry c s) :=
  yields_next (canonical_runPacket (fun _ _ ht => canonical_actRefEntry ht) h)

theorem canonical_actRefOutputs {x : Held} {c : Cmd} (h : Canonical s) : Canonical (actRefOutputs s x c) := canonical_finishNow (canonical_same h rfl)

theorem yields_execRefTableSetOutputs {c : Cmd} (h : Canonical s) : Yields (execRefTableSetOutputs c s) :=
  yields_next (canonical_runPacket (fun _ _ ht => canonical_actRefOutputs ht) h)

theorem canonical_movePhases {d : Int} (h : Canonical s) : Canonical (movePhases s d) := canonical_same h rfl

theorem canonical_endSlew {st : Status} {left : Int} (h : Canonical s) : Canonical (endSlew s st left) := by
  unfold endSlew
  dsimp only
  split
  · exact h
  · split
    · exact memKept.finishKey _ _ _ _ (canonical_setTime (canonical_movePhases (canonical_rebaseClocks h)))
    · exact canonical_setTime (canonical_movePhases (canonical_rebaseClocks h))

theorem yields_execRealignSlewComplete (h : Canonical s) : Yields (execRealignSlewComplete s) := yields_next (canonical_ite (canonical_endSlew h) h)

theorem canonical_sendControl {dest : Nat} {l : List Byte} (h : Canonical s) : Canonical (sendControl s dest l) := memKept.routePkt _ _ h

theorem canonical_announce {l : List Byte} (h : Canonical s) : Canonical (announce s l) := canonical_ite (canonical_sendControl h) h

theorem canonical_actTiming {x : Held} {c : Cmd} (h : Canonical s) : Canonical (actTiming s x c) :=
  canonical_ite (canonical_holdOn (canonical_announce (canonical_same h rfl))) (memKept.finish _ _ _ _ (canonical_announce (canonical_same h rfl)))

theorem yields_execWallTimingSet {c : Cmd} (h : Canonical s) : Yields (execWallTimingSet c s) :=
  yields_next (canonical_runPacket (fun _ _ ht => canonical_actTiming ht) h)

theorem canonical_actRealign {x : Held} {c : Cmd} (h : Canonical s) : Canonical (actRealign s x c) :=
  canonical_ite (canonical_finishNow (canonical_endSlew h)) (canonical_holdOn (canonical_same (canonical_ite (canonical_announce h) h) rfl))

theorem yields_execRealignJump {c : Cmd} (h : Canonical s) : Yields (execRealignJump c s) :=
  yields_next (canonical_runPacket (fun _ _ ht => canonical_actRealign ht) h)

theorem yields_execRealignSlew {c : Cmd} (h : Canonical s) : Yields (execRealignSlew c s) :=
  yields_next (canonical_runPacket (fun _ _ ht => canonical_actRealign ht) h)

theorem canonical_actRealignCancel {x : Held} {c : Cmd} (h : Canonical s) : Canonical (actRealignCancel s x c) :=
  canonical_finishNow (canonical_announce (canonical_endSlew h))

theorem yields_execRealignCancel {c : Cmd} (h : Canonical s) : Yields (execRealignCancel c s) :=
  yields_next (canonical_runPacket (fun _ _ ht => canonical_actRealignCancel ht) h)

theorem canonical_replyWithRecord {x : Held} {c : Cmd} {rec_ : List Byte} {detail : List Field} (h : Canonical s) :
    Canonical (replyWithRecord s x c rec_ detail) := by
  unfold replyWithRecord
  refine canonical_ite (canonical_finishNow h) ?_
  split
  · next heq =>
    have ht := canonical_fst heq (canonical_destWrite h)
    exact canonical_finishNow ht
  · next heq =>
    have ht := canonical_fst heq (canonical_destWrite h)
    exact canonical_finishNow ht

theorem canonical_actRefStatus {x : Held} {c : Cmd} (h : Canonical s) : Canonical (actRefStatus s x c) := canonical_replyWithRecord h

theorem yields_execRefStatus {c : Cmd} (h : Canonical s) : Yields (execRefStatus c s) :=
  yields_next (canonical_runPacket (fun _ _ ht => canonical_actRefStatus ht) h)

end Sys2Proof.Machine
end

section
/-! The memory's canonical form through Sys2Proof/Machine/DpIn. -/
namespace Sys2Proof.Machine
open Sys2Proof

variable {s : State}

theorem canonical_modDp {i : Nat} {f : DpIn → DpIn} (h : Canonical s) : Canonical (modDp s i f) := canonical_same h rfl

theorem canonical_postDp {i result : Nat} (h : Canonical s) : Canonical (postDp s i result) := memKept.steady.post _ _ _ h

theorem canonical_dpRefLoss {i : Nat} (h : Canonical s) : Canonical (dpRefLoss s i) := canonical_ite h (canonical_loseInput h)

theorem canonical_dpEnter {i : Nat} {t : DpState} {result : Nat} (h : Canonical s) : Canonical (dpEnter s i t result) :=
  canonical_ite h (canonical_dpRefLoss (canonical_postDp (canonical_modDp (canonical_ite (canonical_endScans h) h))))

theorem canonical_driveHpd {i : Nat} {level : Bool} (h : Canonical s) : Canonical (driveHpd s i level) :=
  canonical_ite h (memKept.emit _ (canonical_modDp h))

theorem canonical_dpAbandon {i : Nat} (h : Canonical s) : Canonical (dpAbandon s i) := by
  unfold dpAbandon
  refine canonical_modDp ?_
  split
  · exact memKept.markDamaged _ h
  · exact h

theorem canonical_dpNoVideo {i : Nat} (h : Canonical s) : Canonical (dpNoVideo s i) := canonical_modDp (canonical_dpAbandon h)

theorem canonical_dpSettle {i : Nat} (h : Canonical s) : Canonical (dpSettle s i) :=
  canonical_ite h (canonical_ite (canonical_dpEnter (canonical_modDp h)) h)

theorem yields_execDpinFrameStart {input : Nat} {msa : Msa} (h : Canonical s) : Yields (execDpinFrameStart input msa s) := by
  unfold execDpinFrameStart
  refine yields_next ?_
  refine canonical_ite h ?_
  dsimp only
  split
  · exact canonical_modDp h
  · refine canonical_ite (canonical_dpEnter (canonical_ite (canonical_markUnfit (canonical_modDp h)) (canonical_modDp h))) ?_
    split
    · exact canonical_modDp (canonical_dpEnter (canonical_ite (canonical_markUnfit (canonical_modDp h)) (canonical_modDp h)))
    · exact canonical_modDp (canonical_captureSource (canonical_setPassSize (memKept.beginPass _ (canonical_dpEnter (canonical_ite
        (canonical_markUnfit (canonical_modDp h)) (canonical_modDp h))))))

theorem canonical_dpLine {i y : Nat} {f : DpFrame} {l : List Nat} (h : Canonical s) : Canonical (dpLine s i y f l) :=
  canonical_ite (canonical_deliverLine h) (canonical_ite (canonical_deliverLine h) (canonical_ite h (memKept.exportLines _ (memKept.modSurf _ _
    (memKept.planeLine _ _ _ (memKept.planeLine _ _ _ h))))))

theorem canonical_dpBottom {i : Nat} {f : DpFrame} {l : List Nat} (h : Canonical s) : Canonical (dpBottom s i f l) :=
  canonical_ite (canonical_forEach (fun _ _ ht => canonical_dpLine ht) h) h

theorem yields_execDpinActiveLine {input : Nat} {pixels : List Nat} (h : Canonical s) : Yields (execDpinActiveLine input pixels s) := by
  unfold execDpinActiveLine
  refine yields_next ?_
  dsimp only
  split
  · exact canonical_ite (canonical_modDp (canonical_dpLine h)) (canonical_addDelivery (canonical_modDp (canonical_dpBottom (canonical_dpLine h))))
  · exact h

theorem yields_execDpinLockLoss {input : Nat} (h : Canonical s) : Yields (execDpinLockLoss input s) :=
  yields_next (canonical_ite (canonical_dpEnter (canonical_modDp (canonical_dpNoVideo (canonical_forEach (fun _ _ ht => memKept.steady.count _ _ _ _
    _ ht) h)))) h)

theorem yields_execDpinLockRegained {input : Nat} (h : Canonical s) : Yields (execDpinLockRegained input s) :=
  yields_next (canonical_ite h (canonical_ite (canonical_dpEnter (canonical_modDp h)) (canonical_modDp h)))

theorem yields_execDpinSymbolError {error : DpSymbol} (h : Canonical s) : Yields (execDpinSymbolError error s) := by
  unfold execDpinSymbolError
  refine yields_next ?_
  dsimp only
  split
  · exact canonical_modDp (memKept.markDamaged _ (memKept.steady.count _ _ _ _ _ h))
  · exact memKept.steady.count _ _ _ _ _ h

theorem yields_execDpinVideoChange {input : Nat} {on : Bool} (h : Canonical s) : Yields (execDpinVideoChange input on s) :=
  yields_next (canonical_ite h (canonical_ite (canonical_ite (canonical_dpEnter (canonical_modDp h)) h) (canonical_ite h (canonical_dpEnter
    (canonical_modDp h)))))

theorem yields_execDpinTrainingStart {input : Nat} (h : Canonical s) : Yields (execDpinTrainingStart input s) :=
  yields_next (canonical_ite h (canonical_dpEnter (canonical_modDp (canonical_dpNoVideo h))))

theorem yields_execDpinTrainingEnd {input result lanes rate : Nat} (h : Canonical s) : Yields (execDpinTrainingEnd input result lanes rate s) :=
  yields_next (canonical_ite h (canonical_ite (canonical_ite h (canonical_dpEnter (canonical_modDp h))) (canonical_ite (canonical_dpEnter h) h)))

theorem yields_execDpinHpdPulseEnd {input : Nat} (h : Canonical s) : Yields (execDpinHpdPulseEnd input s) :=
  yields_next (canonical_ite (canonical_driveHpd (canonical_modDp h)) h)

theorem canonical_dpStored {i : Nat} {p : Packet} {edid : Option (List Byte)} (h : Canonical s) : Canonical (dpStored s i p edid) := canonical_modDp h

theorem canonical_dpOff {i : Nat} (h : Canonical s) : Canonical (dpOff s i) := canonical_modDp (canonical_dpNoVideo h)

theorem canonical_applyDpin {i : Nat} {p : Packet} {edid : Option (List Byte)} (h : Canonical s) : Canonical (applyDpin s i p edid) := by
  rw [applyDpin_eq]
  extract_lets u
  have hu : Canonical u := canonical_dpStored h
  clear_value u
  refine canonical_ite (canonical_dpEnter (canonical_driveHpd (canonical_modDp (canonical_dpOff hu)))) ?_
  refine canonical_ite (canonical_dpEnter (canonical_driveHpd (canonical_modDp hu))) ?_
  refine canonical_ite (canonical_dpRefLoss (canonical_postDp (canonical_driveHpd (canonical_modDp (canonical_dpOff hu))))) ?_
  exact canonical_ite (memKept.emit _ hu) hu

theorem canonical_actDpin {x : Held} {c : Cmd} (h : Canonical s) : Canonical (actDpin s x c) := by
  unfold actDpin
  refine canonical_ite ?_ (canonical_finishNow (canonical_applyDpin h))
  dsimp only
  split
  · next heq =>
    have ht := canonical_fst heq (canonical_srcRead h)
    exact canonical_finishNow ht
  · next heq =>
    have ht := canonical_fst heq (canonical_srcRead h)
    exact canonical_ite (canonical_finishNow (canonical_applyDpin ht)) (canonical_finishNow ht)

theorem yields_execDpinConfigure {c : Cmd} (h : Canonical s) : Yields (execDpinConfigure c s) :=
  yields_next (canonical_runPacket (fun _ _ ht => canonical_actDpin ht) h)

end Sys2Proof.Machine
end

section
/-! The memory's canonical form through Sys2Proof/Machine/Ptp. -/
namespace Sys2Proof.Machine
open Sys2Proof

variable {s : State}

theorem canonical_ptpFrame {n : Nat} {peer : Bool} {m : List Byte} (h : Canonical s) : Canonical (ptpFrame s n peer m).1 := by
  unfold ptpFrame
  refine canonical_ite_fst (canonical_pair h) ?_
  refine canonical_ite_fst ?_ ?_
  · dsimp only
    exact canonical_udpFrame h
  · dsimp only
    exact canonical_udpFrame h

theorem canonical_queuePtp {n : Nat} {peer : Bool} {m : List Byte} (h : Canonical s) : Canonical (queuePtp s n peer m) := by
  unfold queuePtp
  dsimp only
  exact canonical_modPort (canonical_ptpFrame h)

theorem canonical_setServo {n : Nat} {t : Servo} (h : Canonical s) : Canonical (setServo s n t) :=
  canonical_ite (canonical_modPtp h) (canonical_loseInput (canonical_modPtp h))

theorem canonical_loseServo {n : Nat} (h : Canonical s) : Canonical (loseServo s n) := canonical_ite (canonical_setServo h) h

theorem canonical_servoRate {n : Nat} (h : Canonical s) : Canonical (servoRate s n) := by
  unfold servoRate
  dsimp only
  exact canonical_setRate (canonical_freshValue h)

theorem canonical_takeOffset {n : Nat} {off : Int} (h : Canonical s) : Canonical (takeOffset s n off) := by
  unfold takeOffset
  extract_lets u u1 x small large u2 u3 u4
  have hu : Canonical u := canonical_modPtp h
  clear_value u
  have hu1 : Canonical u1 := canonical_ite (canonical_setServo hu) hu
  clear_value u1
  have hu2 : Canonical u2 := canonical_modPtp hu1
  clear_value u2
  have hu3 : Canonical u3 := canonical_ite (canonical_stepClock hu2) (canonical_servoRate hu2)
  clear_value u3
  have hu4 : Canonical u4 := canonical_modPtp (canonical_servoRate hu1)
  clear_value u4
  exact canonical_ite (canonical_ite (canonical_setServo hu3) hu3) (canonical_ite (canonical_ite (canonical_loseServo hu4) hu4) hu1)

theorem canonical_takeSync {n : Nat} {t2 t1 corr : Int} (h : Canonical s) : Canonical (takeSync s n t2 t1 corr) := by
  unfold takeSync
  dsimp only
  split
  · exact canonical_takeOffset (canonical_modPtp h)
  · exact canonical_modPtp h

theorem canonical_takeAnnounce {n : Nat} {m : List Byte} (h : Canonical s) : Canonical (takeAnnounce s n m) := by
  unfold takeAnnounce
  extract_lets id ds u u1
  have hu : Canonical u := memKept.steady.count _ _ _ _ _ h
  clear_value u
  have hu1 : Canonical u1 := canonical_modPtp hu
  clear_value u1
  dsimp only
  split
  · exact hu1
  · exact canonical_ite (canonical_ite (canonical_modPtp (canonical_modPtp hu1)) (canonical_modPtp hu1)) (canonical_modPtp (canonical_loseServo
      (memKept.steady.count _ _ _ _ _ (canonical_ite (canonical_modPtp (canonical_modPtp hu1)) (canonical_modPtp hu1)))))

theorem canonical_takePtp {n k : Nat} {m : List Byte} {t : Int} (h : Canonical s) : Canonical (takePtp s n k m t) := by
  unfold takePtp
  refine canonical_ite (canonical_takeAnnounce h) ?_
  refine canonical_ite (canonical_ite h (canonical_ite (canonical_modPtp (canonical_modPtp (memKept.steady.count _ _ _ _ _ h))) (canonical_takeSync
    (canonical_modPtp (memKept.steady.count _ _ _ _ _ h))))) ?_
  refine canonical_ite ?_ ?_
  · split
    · exact canonical_ite (canonical_takeSync h) h
    · exact h
  · refine canonical_ite ?_ ?_
    · split
      · exact canonical_ite (canonical_modPtp h) h
      · exact h
    · refine canonical_ite (canonical_ite h (canonical_queuePtp (canonical_modPtp h))) ?_
      refine canonical_ite ?_ ?_
      · split
        · exact canonical_ite (canonical_ite (canonical_modPtp h) (canonical_modPtp h)) h
        · exact h
      · refine canonical_ite ?_ h
        split
        · exact canonical_ite (canonical_modPtp h) h
        · exact h

theorem canonical_ptpReceive {n : Nat} {stamp : Wp} {frame : List Byte} {i : FrameInfo} {m : PtpMsg} {host : List HostDesc} (h : Canonical s) :
    Canonical (ptpReceive s n stamp frame i m host) :=
  canonical_ite (canonical_deliverQueue (canonical_ite (canonical_modPtp h) h)) (canonical_ite (canonical_takePtp h) h)

theorem yields_execEthFrameReceived {port : Nat} {frame : List Byte} {stamp : Nat} {host : List HostDesc} (h : Canonical s) :
    Yields (execEthFrameReceived port frame stamp host s) := by
  unfold execEthFrameReceived
  refine yields_next ?_
  refine canonical_ite h ?_
  refine canonical_ite (memKept.steady.count _ _ _ _ _ (memKept.steady.count _ _ _ _ _ h)) ?_
  refine canonical_ite (memKept.steady.count _ _ _ _ _ (memKept.steady.count _ _ _ _ _ h)) ?_
  refine canonical_ite (memKept.steady.count _ _ _ _ _ (memKept.steady.count _ _ _ _ _ h)) ?_
  refine canonical_ite (memKept.steady.count _ _ _ _ _ (memKept.steady.count _ _ _ _ _ h)) ?_
  split
  · exact canonical_ite (canonical_classifyFrame (memKept.steady.count _ _ _ _ _ h)) (canonical_ptpReceive (memKept.steady.count _ _ _ _ _ h))
  · exact canonical_classifyFrame (memKept.steady.count _ _ _ _ _ h)

theorem canonical_sendPtp {n : Nat} {f : List Byte} {k : Nat} (h : Canonical s) : Canonical (sendPtp s n f k).1 := by
  unfold sendPtp
  dsimp only
  exact canonical_sendFrame (canonical_ite (canonical_modPtp (canonical_ite h (memKept.steady.count _ _ _ _ _ h))) (canonical_ite h
    (memKept.steady.count _ _ _ _ _ h)))

theorem canonical_queueFrame {q : Nat} {host : List HostDesc} (h : Canonical s) : Canonical (queueFrame s q host).1 := by
  unfold queueFrame
  dsimp only
  split
  · next heq =>
    have ht := canonical_fst heq (canonical_nextDesc h)
    exact canonical_pair ht
  · next heq =>
    have ht := canonical_fst heq (canonical_nextDesc h)
    split
    · rename_i heq
      have hu := canonical_fst heq (canonical_txBytes ht)
      exact canonical_pair hu
    · rename_i heq
      have hu := canonical_fst heq (canonical_txBytes ht)
      exact canonical_pair hu

theorem canonical_sendQueued {port q : Nat} {host : List HostDesc} (h : Canonical s) : Canonical (sendQueued s port q host) := by
  unfold sendQueued
  dsimp only
  split
  · next heq =>
    have ht := canonical_fst heq (canonical_queueFrame h)
    exact ht
  · next heq =>
    have ht := canonical_fst heq (canonical_queueFrame h)
    refine canonical_ite (canonical_completeTx ht) ?_
    split
    · exact canonical_ite (canonical_completeTx (canonical_sendPtp ht)) (canonical_completeTx (canonical_sendFrame ht))
    · exact canonical_completeTx (canonical_sendFrame ht)

theorem yields_execEthFrameTransmit {port : Nat} {host : List HostDesc} (h : Canonical s) : Yields (execEthFrameTransmit port host s) := by
  unfold execEthFrameTransmit
  refine yields_next ?_
  refine canonical_ite h ?_
  dsimp only
  split
  · exact canonical_sendPtp (canonical_modPort h)
  · refine canonical_ite (canonical_sendQueued h) ?_
    split
    · refine canonical_modPort ?_
      split
      · exact canonical_sendFrame (canonical_modStream h)
      · exact h
    · split
      · exact canonical_modPort (canonical_sendQueued h)
      · exact h

theorem yields_execEthernetLinkChange {port : Nat} {up modAbs rxLos txFault : Bool} (h : Canonical s) :
    Yields (execEthernetLinkChange port up modAbs rxLos txFault s) :=
  yields_next (canonical_ite h (canonical_ite (canonical_modPort (canonical_ite (memKept.steady.count _ _ _ _ _ h) h)) (canonical_endScans
    (canonical_ite (memKept.steady.count _ _ _ _ _ (canonical_modPort (canonical_ite (memKept.steady.count _ _ _ _ _ h) h))) (canonical_modPort
    (canonical_ite (memKept.steady.count _ _ _ _ _ h) h))))))

theorem yields_execPtpDelayReqSend {port : Nat} (h : Canonical s) : Yields (execPtpDelayReqSend port s) :=
  yields_next (canonical_ite h (canonical_modPtp (memKept.steady.count _ _ _ _ _ (canonical_queuePtp h))))

theorem yields_execPtpSyncTimeout {port : Nat} (h : Canonical s) : Yields (execPtpSyncTimeout port s) :=
  yields_next (canonical_ite (canonical_loseServo h) h)

theorem yields_execPtpAnnounceTimeout {port : Nat} (h : Canonical s) : Yields (execPtpAnnounceTimeout port s) :=
  yields_next (canonical_ite (canonical_modPtp (canonical_loseServo h)) h)

theorem yields_execPtpLockHoldLapse {port : Nat} (h : Canonical s) : Yields (execPtpLockHoldLapse port s) :=
  yields_next (canonical_ite (canonical_setServo h) h)

theorem canonical_actTimeStep {x : Held} {c : Cmd} (h : Canonical s) : Canonical (actTimeStep s x c) :=
  canonical_finishNow (canonical_stepClock (canonical_ite (canonical_setServo h) (canonical_ite (canonical_setServo h) h)))

theorem yields_execTimeStep {c : Cmd} (h : Canonical s) : Yields (execTimeStep c s) :=
  yields_next (canonical_runPacket (fun _ _ ht => canonical_actTimeStep ht) h)

theorem canonical_actTimeRate {x : Held} {c : Cmd} (h : Canonical s) : Canonical (actTimeRate s x c) :=
  canonical_finishNow (canonical_modPtp (canonical_setServo (canonical_setRate h)))

theorem yields_execTimeRateAdjust {c : Cmd} (h : Canonical s) : Yields (execTimeRateAdjust c s) :=
  yields_next (canonical_runPacket (fun _ _ ht => canonical_actTimeRate ht) h)

theorem canonical_actPtpPort {x : Held} {c : Cmd} (h : Canonical s) : Canonical (actPtpPort s x c) :=
  canonical_finishNow (canonical_ite (canonical_setServo (canonical_modPtp (canonical_ite (canonical_setPtp (canonical_modPtp h)) (canonical_modPtp
    h)))) (canonical_ite (canonical_setPtp (canonical_modPtp h)) (canonical_modPtp h)))

theorem yields_execPtpPortSetPort {c : Cmd} (h : Canonical s) : Yields (execPtpPortSetPort c s) :=
  yields_next (canonical_runPacket (fun _ _ ht => canonical_actPtpPort ht) h)

theorem canonical_modEvt {i : Nat} {f : EvtIn → EvtIn} (h : Canonical s) : Canonical (modEvt s i f) := canonical_same h rfl

theorem canonical_actPtpEvent {x : Held} {c : Cmd} (h : Canonical s) : Canonical (actPtpEvent s x c) := canonical_finishNow (canonical_modEvt h)

theorem yields_execPtpPortSetEvent {c : Cmd} (h : Canonical s) : Yields (execPtpPortSetEvent c s) :=
  yields_next (canonical_runPacket (fun _ _ ht => canonical_actPtpEvent ht) h)

theorem yields_execEventInputEdge {input : Nat} {rising : Bool} (h : Canonical s) : Yields (execEventInputEdge input rising s) :=
  yields_next (canonical_ite h (canonical_ite (memKept.postEvent _ _ (canonical_modEvt h)) (canonical_modEvt h)))

theorem canonical_actStampRead {x : Held} {c : Cmd} (h : Canonical s) : Canonical (actStampRead s x c) := by
  unfold actStampRead
  refine canonical_ite (canonical_finishNow h) ?_
  split
  · next heq =>
    have ht := canonical_fst heq (canonical_destWrite h)
    exact canonical_finishNow (canonical_modEvt ht)
  · next heq =>
    have ht := canonical_fst heq (canonical_destWrite h)
    exact canonical_finishNow ht

theorem yields_execEventStampRead {c : Cmd} (h : Canonical s) : Yields (execEventStampRead c s) :=
  yields_next (canonical_runPacket (fun _ _ ht => canonical_actStampRead ht) h)

end Sys2Proof.Machine
end

section
/-! The memory's canonical form through Sys2Proof/Machine/Toden. -/
namespace Sys2Proof.Machine
open Sys2Proof

variable {s : State}

theorem canonical_todEnter {p : Nat} {t : TodState} {cause phase : Nat} (h : Canonical s) : Canonical (todEnter s p t cause phase) :=
  canonical_ite h (canonical_ite (memKept.steady.post _ _ _ (memKept.steady.tod _ _ _ h)) (memKept.emit _ (memKept.steady.post _ _ _
    (memKept.steady.tod _ _ _ h))))

theorem canonical_assignAddresses (h : Canonical s) : Canonical (assignAddresses s) :=
  canonical_forEach (fun _ _ ht => memKept.steady.tod _ _ _ ht) (canonical_forEach (fun _ _ hu => canonical_sendControl hu) (canonical_same h rfl))

theorem canonical_reserveAll (h : Canonical s) : Canonical (reserveAll s).1 :=
  canonical_pair (canonical_forEach (fun _ _ ht => canonical_ite (memKept.endExportPass _ ht) (memKept.modExport _ _ ht)) (canonical_forEach (fun _ _
    hu => memKept.modExport _ _ hu) h))

theorem canonical_postRoutes {cause suspended : Nat} (h : Canonical s) : Canonical (postRoutes s cause suspended) := memKept.steady.post _ _ _ h

theorem canonical_noteClaim (h : Canonical s) : Canonical (noteClaim s) := by
  unfold noteClaim
  dsimp only
  split
  · exact h
  · exact canonical_same h rfl

theorem canonical_retree {cause : Nat} (h : Canonical s) : Canonical (retree s cause) := by
  unfold retree
  extract_lets old u u1 x u2 x1 u3 u4 routed
  have hu : Canonical u := by
    refine canonical_ite h ?_
    dsimp only
    exact canonical_same h rfl
  clear_value u
  have hu1 : Canonical u1 := canonical_forEach (fun _ _ ht => canonical_todEnter ht) hu
  clear_value u1
  have hu2 : Canonical u2 := canonical_ite (canonical_same hu1 rfl) (canonical_ite (canonical_assignAddresses hu1) hu1)
  clear_value u2
  have hu3 : Canonical u3 := canonical_same hu2 rfl
  clear_value u3
  have hu4 : Canonical u4 := canonical_noteClaim hu3
  clear_value u4
  dsimp only
  exact canonical_reselect (canonical_ite (canonical_postRoutes (canonical_ite_fst (canonical_reserveAll hu4) (canonical_pair hu4)))
    (canonical_ite_fst (canonical_reserveAll hu4) (canonical_pair hu4)))

theorem canonical_dropLink {p : Nat} (h : Canonical s) : Canonical (dropLink s p) :=
  canonical_retree (canonical_loseInput (canonical_setFabric (memKept.steady.tod _ _ _ (canonical_endScans (canonical_endScans h)))))

theorem canonical_todDown {p cause phase : Nat} (h : Canonical s) : Canonical (todDown s p cause phase) := by
  unfold todDown
  exact canonical_dropLink (memKept.steady.tod _ _ _ (canonical_todEnter h))

theorem canonical_todTrain {p cause : Nat} (h : Canonical s) : Canonical (todTrain s p cause) := memKept.steady.tod _ _ _ (canonical_todEnter h)

theorem yields_execTodenTrainingPhaseComplete {port : Nat} (h : Canonical s) : Yields (execTodenTrainingPhaseComplete port s) :=
  yields_next (canonical_ite h (canonical_ite (memKept.steady.tod _ _ _ h) (canonical_ite h (canonical_retree (memKept.steady.tod _ _ _
    (canonical_todEnter h))))))

theorem yields_execTodenPhaseTimeout {port : Nat} (h : Canonical s) : Yields (execTodenPhaseTimeout port s) :=
  yields_next (canonical_ite h (canonical_ite (memKept.steady.tod _ _ _ h) (canonical_todDown h)))

theorem yields_execTodenBackoffExpiry {port : Nat} (h : Canonical s) : Yields (execTodenBackoffExpiry port s) :=
  yields_next (canonical_ite h (memKept.steady.tod _ _ _ (canonical_todEnter h)))

theorem yields_execTodenHelloSilence {port : Nat} (h : Canonical s) : Yields (execTodenHelloSilence port s) :=
  yields_next (canonical_ite (canonical_todDown h) h)

theorem yields_execTodenLockLoss {lane : TodenLane} (h : Canonical s) : Yields (execTodenLockLoss lane s) :=
  yields_next (canonical_ite (canonical_todDown (memKept.steady.count _ _ _ _ _ h)) h)

theorem yields_execTodenHelloSend {port : Nat} (h : Canonical s) : Yields (execTodenHelloSend port s) :=
  yields_next (canonical_ite (memKept.steady.sendPkt _ _ (memKept.steady.tod _ _ _ h)) h)

theorem canonical_gaugePkt {port : Nat} {q : Pkt} (h : Canonical s) : Canonical (gaugePkt s port q) :=
  canonical_forEach (fun _ _ ht => canonical_ite (canonical_gaugeResult ht) ht) h

theorem canonical_takeLanes {port : Nat} {bits : List (List Bool)} (h : Canonical s) : Canonical (takeLanes s port bits).1 := by
  unfold takeLanes
  dsimp only
  split
  · exact canonical_pair (canonical_forEach (fun _ _ ht => memKept.steady.count _ _ _ _ _ (memKept.steady.count _ _ _ _ _ ht)) (memKept.steady.tod _
      _ _ h))
  · exact canonical_pair (memKept.steady.tod _ _ _ (canonical_forEach (fun _ _ ht => memKept.steady.count _ _ _ _ _ (memKept.steady.count _ _ _ _ _
      ht)) (memKept.steady.tod _ _ _ h)))
  · exact canonical_pair (canonical_forEach (fun _ _ ht => memKept.steady.count _ _ _ _ _ (memKept.steady.count _ _ _ _ _ ht)) (memKept.steady.tod _
      _ _ h))

theorem canonical_takePkt {port kind : Nat} {bits : List (List Bool)} (h : Canonical s) : Canonical (takePkt s port kind bits).1 := by
  unfold takePkt
  refine canonical_ite_fst (canonical_pair h) ?_
  dsimp only
  split
  · next heq =>
    have ht := canonical_fst heq (canonical_takeLanes h)
    exact canonical_pair ht
  · next heq =>
    have ht := canonical_fst heq (canonical_takeLanes h)
    split
    · exact canonical_pair (memKept.steady.tod _ _ _ ht)
    · exact canonical_ite_fst (canonical_pair ht) (canonical_ite_fst (canonical_pair (canonical_gaugePkt ht)) (canonical_ite_fst (canonical_pair
        (canonical_sendCtlBlock ht)) (canonical_pair (canonical_gaugePkt (canonical_sendCtlBlock (memKept.steady.tod _ _ _ ht))))))

theorem yields_execCreditBlockReceived {port : Nat} {credits acks : List Nat} (h : Canonical s) :
    Yields (execCreditBlockReceived port credits acks s) :=
  yields_next (canonical_ite (canonical_forEach (fun _ _ ht => canonical_resend ht) (memKept.steady.tod _ _ _ h)) h)

theorem canonical_joinStep {p : Nat} {q : Hello} (h : Canonical s) : Canonical (joinStep s p q) :=
  canonical_ite h (canonical_ite (memKept.steady.tod _ _ _ h) (canonical_ite (memKept.steady.sendPkt _ _ (memKept.steady.tod _ _ _ h)) (canonical_ite
    h (canonical_ite h (canonical_ite (canonical_ite h (memKept.steady.tod _ _ _ (canonical_same h rfl))) (canonical_same h rfl))))))

theorem yields_execTodenHelloReceived {port : Nat} {bits : List (List Bool)} {below : List TreeDev} (h : Canonical s) :
    Yields (execTodenHelloReceived port bits below s) := by
  unfold execTodenHelloReceived
  refine yields_next ?_
  dsimp only
  split
  · next heq =>
    have ht := canonical_fst heq (canonical_takePkt h)
    exact ht
  · next heq =>
    have ht := canonical_fst heq (canonical_takePkt h)
    exact canonical_ite (canonical_todDown ht) (canonical_ite (canonical_retree (canonical_joinStep (memKept.steady.tod _ _ _ ht)))
      (memKept.steady.tod _ _ _ ht))

theorem canonical_takeControl {p : Nat} {l : List Byte} (h : Canonical s) : Canonical (takeControl s p l) := by
  unfold takeControl
  refine canonical_ite ?_ (canonical_ite (canonical_same h rfl) (canonical_ite (canonical_same h rfl) (canonical_ite (canonical_same h rfl)
    (canonical_ite (canonical_endSlew h) (canonical_ite (memKept.steady.tod _ _ _ (canonical_same (canonical_same h rfl) rfl)) h)))))
  refine canonical_ite ?_ h
  dsimp only
  exact canonical_postRoutes (canonical_reserveAll (canonical_noteClaim (canonical_same h rfl)))

theorem yields_execControlMessage {port : Nat} {bits : List (List Bool)} (h : Canonical s) : Yields (execControlMessage port bits s) := by
  unfold execControlMessage
  refine yields_next ?_
  dsimp only
  split
  · next heq =>
    have ht := canonical_fst heq (canonical_takePkt h)
    exact ht
  · next heq =>
    have ht := canonical_fst heq (canonical_takePkt h)
    exact canonical_ite ht (canonical_ite (canonical_takeControl (canonical_ite (memKept.routePkt _ _ ht) ht)) (canonical_ite (memKept.routePkt _ _
      ht) ht))

theorem canonical_sendMark {p : Nat} {frameMark : Bool} (h : Canonical s) : Canonical (sendMark s p frameMark) := by
  unfold sendMark
  dsimp only
  exact memKept.emit _ (canonical_freshValue h)

theorem canonical_rootMarks (h : Canonical s) : Canonical (rootMarks s) :=
  canonical_ite h (canonical_forEach (fun _ _ ht => canonical_ite (memKept.emit _ (canonical_sendMark ht)) (canonical_sendMark ht)) h)

theorem yields_execTodenMarkReceived {port : Nat} {frameMark : Bool} {arrival : MarkPhase} (h : Canonical s) :
    Yields (execTodenMarkReceived port frameMark arrival s) :=
  yields_next (canonical_ite h (canonical_forEach (fun _ _ ht => canonical_sendMark ht) (canonical_ite (memKept.steady.tod _ _ _ (canonical_modLane
    h)) (canonical_modLane h))))

theorem yields_execTodenEpochReceived {port : Nat} {epoch : List Byte} (h : Canonical s) : Yields (execTodenEpochReceived port epoch s) := by
  unfold execTodenEpochReceived
  refine yields_next ?_
  extract_lets x l f path u u1
  have hu : Canonical u := memKept.steady.tod _ _ _ h
  clear_value u
  have hu1 : Canonical u1 := by
    dsimp only [u1]
    split
    · exact hu
    · exact canonical_ite (canonical_ite (canonical_ite (canonical_setFabric (memKept.steady.tod _ _ _ (canonical_modLane hu))) (memKept.steady.tod _
        _ _ (canonical_modLane hu))) (canonical_modLane hu)) (canonical_ite (canonical_ite (canonical_setFabric (memKept.steady.tod _ _ _
        (canonical_modLane hu))) (memKept.steady.tod _ _ _ (canonical_modLane hu))) (memKept.steady.tod _ _ _ (canonical_modLane hu)))
  clear_value u1
  exact canonical_ite h (canonical_forEach (fun _ _ ht => memKept.emit _ ht) hu1)

theorem yields_execDelayMeasureSend {port : Nat} (h : Canonical s) : Yields (execDelayMeasureSend port s) :=
  yields_next (canonical_ite (memKept.emit _ (memKept.steady.tod _ _ _ h)) h)

theorem yields_execDelayMeasureRequest {port : Nat} (h : Canonical s) : Yields (execDelayMeasureRequest port s) :=
  yields_next (canonical_ite (memKept.emit _ h) h)

theorem yields_execDelayMeasureResponse {port roundTrip : Nat} (h : Canonical s) : Yields (execDelayMeasureResponse port roundTrip s) :=
  yields_next (canonical_ite (memKept.steady.tod _ _ _ h) h)

theorem canonical_actFabricStatus {x : Held} {c : Cmd} (h : Canonical s) : Canonical (actFabricStatus s x c) := canonical_replyWithRecord h

theorem yields_execFabricStatus {c : Cmd} (h : Canonical s) : Yields (execFabricStatus c s) :=
  yields_next (canonical_runPacket (fun _ _ ht => canonical_actFabricStatus ht) h)

theorem canonical_actRouteSet {x : Held} {c : Cmd} (h : Canonical s) : Canonical (actRouteSet s x c) := by
  unfold actRouteSet
  dsimp only
  exact canonical_finishNow (canonical_ite (canonical_ite_fst (canonical_pair (canonical_same h rfl)) (canonical_reserveAll (canonical_noteClaim
    (canonical_same h rfl)))) (canonical_postRoutes (canonical_ite_fst (canonical_pair (canonical_same h rfl)) (canonical_reserveAll
    (canonical_noteClaim (canonical_same h rfl))))))

theorem yields_execFabricRouteSet {c : Cmd} (h : Canonical s) : Yields (execFabricRouteSet c s) :=
  yields_next (canonical_runPacket (fun _ _ ht => canonical_actRouteSet ht) h)

end Sys2Proof.Machine
end

section
/-! The memory's canonical form through Sys2Proof/Machine/Links. -/
namespace Sys2Proof.Machine
open Sys2Proof

variable {s : State}

theorem canonical_modImport {i : Nat} {f : Import → Import} (h : Canonical s) : Canonical (modImport s i f) := canonical_same h rfl

theorem canonical_modTransit {k : Nat} {f : Transit → Transit} (h : Canonical s) : Canonical (modTransit s k f) := canonical_same h rfl

theorem canonical_freeTransit {k : Nat} (h : Canonical s) : Canonical (freeTransit s k) :=
  canonical_ite (canonical_same h rfl) (canonical_releaseAll (canonical_same h rfl))

theorem canonical_openTransit {k bytes : Nat} (h : Canonical s) : Canonical (openTransit s k bytes) := by
  unfold openTransit
  refine canonical_ite ?_ ?_
  · refine canonical_ite h ?_
    dsimp only
    split
    · next heq =>
      have ht := canonical_fst heq (canonical_allocBytes (canonical_freeTransit h))
      exact canonical_modTransit ht
    · next heq =>
      have ht := canonical_fst heq (canonical_allocBytes (canonical_freeTransit h))
      exact canonical_same ht rfl
  · refine canonical_modTransit ?_
    refine canonical_ite h ?_
    dsimp only
    split
    · next heq =>
      have ht := canonical_fst heq (canonical_allocBytes (canonical_freeTransit h))
      exact canonical_modTransit ht
    · next heq =>
      have ht := canonical_fst heq (canonical_allocBytes (canonical_freeTransit h))
      exact canonical_same ht rfl

theorem canonical_onward {port : Nat} {q : Pkt} (h : Canonical s) : Canonical (onward s port q) :=
  canonical_forEach (fun _ _ ht => memKept.steady.sendPkt _ _ ht) h

theorem canonical_ringLine {k slot : Nat} {chroma : Bool} {l : List Byte} (h : Canonical s) : Canonical (ringLine s k slot chroma l).1 := by
  unfold ringLine
  refine canonical_ite_fst (canonical_pair h) ?_
  dsimp only
  split
  · exact canonical_pair (memKept.denyAt _ _ _ _ _ (canonical_ite (memKept.beginPass _ h) h))
  · exact canonical_pair (memKept.modSurf _ _ (canonical_writeBytes (canonical_ite (memKept.beginPass _ h) h)))

theorem canonical_transitLine {port : Nat} {q : Pkt} (h : Canonical s) : Canonical (transitLine s port q) := by
  unfold transitLine
  refine canonical_ite (canonical_countUnrouted h) ?_
  dsimp only
  exact canonical_modTransit (canonical_onward (canonical_ite_fst (canonical_pair (canonical_forEach (fun _ _ ht => canonical_onward ht)
    (canonical_countUnrouted h))) (canonical_ringLine (canonical_forEach (fun _ _ ht => canonical_onward ht) (canonical_countUnrouted h)))))

theorem yields_execTransitRingFree {origin exportId : Nat} (h : Canonical s) : Yields (execTransitRingFree origin exportId s) :=
  yields_next (canonical_ite (canonical_freeTransit h) h)

theorem canonical_setUpstream {i : Nat} {u : UpData} (h : Canonical s) : Canonical (setUpstream s i u) := memKept.modEntry _ _ h

theorem canonical_modCur {i : Nat} {f : ImpPass → ImpPass} (h : Canonical s) : Canonical (modCur s i f) := canonical_modImport h

theorem canonical_damageCur {i surf : Nat} (h : Canonical s) : Canonical (damageCur s i surf) := canonical_modImport (memKept.markDamaged _ h)

theorem canonical_completeRow {i surf : Nat} {l : ImpLine} (h : Canonical s) : Canonical (completeRow s i surf l) :=
  canonical_ite (canonical_offerRow (canonical_damageCur (canonical_ite h (canonical_forEach (fun _ _ ht => canonical_countDiscard ht) h))))
    (canonical_offerRow h)

theorem canonical_modPass {i surf : Nat} {f : ImpPass → ImpPass} (h : Canonical s) : Canonical (modPass s i surf f) := canonical_modImport h

theorem canonical_completeLine {i surf height : Nat} {l : ImpLine} (h : Canonical s) : Canonical (completeLine s i surf height l) := by
  unfold completeLine
  dsimp only
  split
  · exact canonical_modPass (canonical_ite (memKept.planeLine _ _ _ (memKept.planeLine _ _ _ (canonical_ite (canonical_damageCur h) h)))
      (memKept.planeLine _ _ _ (canonical_ite (canonical_damageCur h) h)))
  · exact memKept.exportLines _ (memKept.modSurf _ _ (canonical_modPass (canonical_ite (memKept.planeLine _ _ _ (memKept.planeLine _ _ _
      (canonical_ite (canonical_damageCur h) h))) (memKept.planeLine _ _ _ (canonical_ite (canonical_damageCur h) h)))))

theorem canonical_completeUnit {i surf height : Nat} {l : ImpLine} (h : Canonical s) : Canonical (completeUnit s i surf height l) :=
  canonical_ite h (canonical_ite (canonical_completeRow h) (canonical_completeLine h))

theorem canonical_finishImport {i : Nat} {p : ImpPass} (h : Canonical s) : Canonical (finishImport s i p) :=
  canonical_addDelivery (canonical_modImport h)

theorem canonical_runImport {n i : Nat} (h : Canonical s) : Canonical (runImport n i s) := by
  induction n generalizing s with
  | zero => exact h
  | succ n ih =>
    unfold runImport
    dsimp only
    split
    · exact h
    · split
      · exact canonical_ite (ih (canonical_finishImport h)) h
      · refine ih ?_
        split
        · exact canonical_modImport (canonical_setUpstream (canonical_completeUnit (canonical_modImport h)))
        · exact canonical_completeUnit (canonical_modImport h)

theorem canonical_advanceImport {i : Nat} (h : Canonical s) : Canonical (advanceImport s i) := canonical_runImport h

theorem yields_execImportLineComplete {source : Nat} (h : Canonical s) : Yields (execImportLineComplete source s) :=
  yields_next (canonical_advanceImport h)

theorem canonical_giveUp {i lines chroma : Nat} {due : Wp} (h : Canonical s) : Canonical (giveUp s i lines chroma due) := canonical_modCur h

theorem canonical_closePass {i : Nat} (h : Canonical s) : Canonical (closePass s i) := by
  unfold closePass
  dsimp only
  split
  · exact h
  · exact canonical_advanceImport (canonical_giveUp h)

theorem canonical_importFrame {i : Nat} {q : Pkt} (h : Canonical s) : Canonical (importFrame s i q) := by
  unfold importFrame
  refine canonical_ite (canonical_ite (canonical_setUpstream (canonical_closePass h)) (canonical_closePass h)) ?_
  refine canonical_ite (canonical_markUnfit (canonical_ite (canonical_setUpstream (canonical_closePass h)) (canonical_closePass h))) ?_
  refine canonical_ite (canonical_markUnfit (canonical_ite (canonical_setUpstream (canonical_closePass h)) (canonical_closePass h))) ?_
  refine canonical_ite (canonical_ite (canonical_setUpstream (canonical_closePass h)) (canonical_closePass h)) ?_
  dsimp only
  split
  · exact canonical_modImport (canonical_ite (canonical_setUpstream (canonical_closePass h)) (canonical_closePass h))
  · exact canonical_modImport (canonical_captureSource (canonical_setPassSize (memKept.beginPass _ (canonical_ite (canonical_setUpstream
      (canonical_closePass h)) (canonical_closePass h)))))

theorem yields_execFramePacket {port : Nat} {bits : List (List Bool)} (h : Canonical s) : Yields (execFramePacket port bits s) := by
  unfold execFramePacket
  refine yields_next ?_
  dsimp only
  split
  · next heq =>
    have ht := canonical_fst heq (canonical_takePkt h)
    exact ht
  · next heq =>
    have ht := canonical_fst heq (canonical_takePkt h)
    split
    · exact canonical_importFrame (canonical_ite (canonical_countUnrouted ht) (canonical_ite (canonical_openTransit (canonical_countUnrouted ht))
        (canonical_onward (canonical_openTransit (canonical_countUnrouted ht)))))
    · exact canonical_ite (canonical_countUnrouted ht) (canonical_ite (canonical_openTransit (canonical_countUnrouted ht)) (canonical_onward
        (canonical_openTransit (canonical_countUnrouted ht))))

theorem canonical_importLine {i : Nat} {q : Pkt} (h : Canonical s) : Canonical (importLine s i q) := by
  unfold importLine
  dsimp only
  split
  · exact h
  · exact canonical_ite h (canonical_advanceImport (canonical_modCur (canonical_ite (canonical_damageCur (canonical_ite (canonical_giveUp
      (canonical_ite (canonical_modImport h) h)) (canonical_giveUp (canonical_ite (canonical_modImport h) h)))) (canonical_ite (canonical_giveUp
      (canonical_ite (canonical_modImport h) h)) (canonical_giveUp (canonical_ite (canonical_modImport h) h))))))

theorem yields_execLinePacket {port : Nat} {bits : List (List Bool)} (h : Canonical s) : Yields (execLinePacket port bits s) := by
  unfold execLinePacket
  refine yields_next ?_
  dsimp only
  split
  · next heq =>
    have ht := canonical_fst heq (canonical_takePkt h)
    exact ht
  · next heq =>
    have ht := canonical_fst heq (canonical_takePkt h)
    split
    · exact canonical_importLine (canonical_transitLine ht)
    · exact canonical_transitLine ht

theorem yields_execStatePacket {port : Nat} {bits : List (List Bool)} (h : Canonical s) : Yields (execStatePacket port bits s) := by
  unfold execStatePacket
  refine yields_next ?_
  dsimp only
  split
  · next heq =>
    have ht := canonical_fst heq (canonical_takePkt h)
    exact ht
  · next heq =>
    have ht := canonical_fst heq (canonical_takePkt h)
    split
    · exact canonical_ite (canonical_countUnrouted ht) (canonical_onward (canonical_countUnrouted ht))
    · split
      · exact canonical_ite (canonical_countUnrouted ht) (canonical_onward (canonical_countUnrouted ht))
      · exact canonical_ite (canonical_ite (canonical_countUnrouted ht) (canonical_onward (canonical_countUnrouted ht))) (canonical_ite
          (canonical_modCur (canonical_setUpstream (canonical_ite (canonical_countUnrouted ht) (canonical_onward (canonical_countUnrouted ht)))))
          (canonical_modCur (canonical_ite (canonical_countUnrouted ht) (canonical_onward (canonical_countUnrouted ht)))))

theorem yields_execStreamPacket {port : Nat} {bits : List (List Bool)} (h : Canonical s) : Yields (execStreamPacket port bits s) := by
  unfold execStreamPacket
  refine yields_next ?_
  dsimp only
  split
  · next heq =>
    have ht := canonical_fst heq (canonical_takePkt h)
    exact ht
  · next heq =>
    have ht := canonical_fst heq (canonical_takePkt h)
    exact canonical_ite (canonical_ite (memKept.routePkt _ _ ht) ht) (canonical_queueWork (canonical_ite (memKept.routePkt _ _ ht) ht))

theorem canonical_actExport {x : Held} {c : Cmd} (h : Canonical s) : Canonical (actExport s x c) := by
  unfold actExport
  refine canonical_ite (canonical_finishNow (canonical_endExport h)) ?_
  dsimp only
  split
  · exact canonical_finishNow h
  · exact canonical_finishNow (memKept.modExport _ _ h)

theorem yields_execFabricExport {c : Cmd} (h : Canonical s) : Yields (execFabricExport c s) :=
  yields_next (canonical_runPacket (fun _ _ ht => canonical_actExport ht) h)

theorem canonical_endImport {i : Nat} (h : Canonical s) : Canonical (endImport s i) := canonical_same h rfl

theorem canonical_actImport {x : Held} {c : Cmd} (h : Canonical s) : Canonical (actImport s x c) :=
  canonical_finishNow (canonical_ite (canonical_modImport h) (canonical_endImport h))

theorem yields_execFabricImport {c : Cmd} (h : Canonical s) : Yields (execFabricImport c s) :=
  yields_next (canonical_runPacket (fun _ _ ht => canonical_actImport ht) h)

end Sys2Proof.Machine
end

section
/-! The memory's canonical form through Sys2Proof/Machine/Lanes. -/
namespace Sys2Proof.Machine
open Sys2Proof

variable {s : State}

theorem canonical_actEyeScan {x : Held} {c : Cmd} (h : Canonical s) : Canonical (actEyeScan s x c) := canonical_defer (canonical_same h rfl)

theorem yields_execLaneEyeScan {c : Cmd} (h : Canonical s) : Yields (execLaneEyeScan c s) :=
  yields_next (canonical_runPacket (fun _ _ ht => canonical_actEyeScan ht) h)

theorem yields_execLaneEyeScanComplete {c : Cmd} (h : Canonical s) : Yields (execLaneEyeScanComplete c s) := by
  unfold execLaneEyeScanComplete
  refine yields_next ?_
  dsimp only
  split
  · refine canonical_ite h ?_
    split
    · next heq =>
      have ht := canonical_fst heq (canonical_destWrite (canonical_same h rfl))
      exact canonical_finishNow ht
    · next heq =>
      have ht := canonical_fst heq (canonical_destWrite (canonical_same h rfl))
      exact canonical_finishNow ht
  · exact h

theorem canonical_donePort {x : Held} {scans : Nat} (h : Canonical s) : Canonical (donePort s x scans) := canonical_finishNow h

theorem canonical_actPortEnable {x : Held} {c : Cmd} (h : Canonical s) : Canonical (actPortEnable s x c) := canonical_donePort (canonical_todTrain h)

theorem yields_execPortControlEnable {c : Cmd} (h : Canonical s) : Yields (execPortControlEnable c s) :=
  yields_next (canonical_runPacket (fun _ _ ht => canonical_actPortEnable ht) h)

theorem canonical_actPortDisable {x : Held} {c : Cmd} (h : Canonical s) : Canonical (actPortDisable s x c) :=
  canonical_donePort (canonical_dropLink (memKept.steady.tod _ _ _ (canonical_todEnter h)))

theorem yields_execPortControlDisable {c : Cmd} (h : Canonical s) : Yields (execPortControlDisable c s) :=
  yields_next (canonical_runPacket (fun _ _ ht => canonical_actPortDisable ht) h)

theorem canonical_resetTod {i : Nat} (h : Canonical s) : Canonical (resetTod s i) :=
  canonical_ite h (canonical_ite (memKept.steady.tod _ _ _ h) (canonical_todTrain (canonical_dropLink (canonical_todEnter h))))

theorem canonical_resetEth {i lost : Nat} (h : Canonical s) : Canonical (resetEth s i lost) :=
  canonical_endScans (memKept.steady.count _ _ _ _ _ (canonical_modPort h))

theorem canonical_actPortReset {x : Held} {c : Cmd} (h : Canonical s) : Canonical (actPortReset s x c) :=
  canonical_donePort (canonical_ite (canonical_resetTod h) (canonical_ite (canonical_retrain h) (canonical_ite (memKept.emit _ (canonical_dpAbandon
    (canonical_endScans h))) (canonical_resetEth h))))

theorem yields_execPortControlReset {c : Cmd} (h : Canonical s) : Yields (execPortControlReset c s) :=
  yields_next (canonical_runPacket (fun _ _ ht => canonical_actPortReset ht) h)

theorem canonical_actPortPreset {x : Held} {c : Cmd} (h : Canonical s) : Canonical (actPortPreset s x c) :=
  canonical_donePort (memKept.steady.tod _ _ _ h)

theorem yields_execPortControlPreset {c : Cmd} (h : Canonical s) : Yields (execPortControlPreset c s) :=
  yields_next (canonical_runPacket (fun _ _ ht => canonical_actPortPreset ht) h)

end Sys2Proof.Machine
end

section
/-! The memory's canonical form through Sys2Proof/Machine/Gauge. -/
namespace Sys2Proof.Machine
open Sys2Proof

variable {s : State}

theorem canonical_actGaugeSet {x : Held} {c : Cmd} (h : Canonical s) : Canonical (actGaugeSet s x c) := canonical_finishNow (canonical_same h rfl)

theorem yields_execGaugeSet {c : Cmd} (h : Canonical s) : Yields (execGaugeSet c s) :=
  yields_next (canonical_runPacket (fun _ _ ht => canonical_actGaugeSet ht) h)

end Sys2Proof.Machine
end

section
/-! The memory's canonical form through Sys2Proof/Machine/Remote. -/
namespace Sys2Proof.Machine
open Sys2Proof

variable {s : State}

theorem canonical_writeUnits {decide_ : State → Nat → Option Nat} {v : Violation} {a : Nat} {l : List Byte} (h : Canonical s) :
    Canonical (writeUnits s decide_ v a l) := by
  unfold writeUnits
  refine canonical_forEach (fun _ _ ht => ?_) h
  split
  · exact canonical_weirWrite ht
  · exact memKept.steady.recordDenial _ ht

theorem canonical_readUnits {decide_ : State → Nat → Option Nat} {v : Violation} {a n : Nat} (h : Canonical s) :
    Canonical (readUnits s decide_ v a n).1 := by
  unfold readUnits
  refine canonical_foldl_fst (fun _ _ ht => ?_) (canonical_pair h)
  dsimp only
  split
  · exact canonical_pair (canonical_weirRead ht)
  · exact canonical_pair (memKept.steady.recordDenial _ ht)

theorem canonical_accessUnits {decide_ : State → Nat → Option Nat} {v : Violation} {write : Bool} {a : Nat} {l : List Byte} (h : Canonical s) :
    Canonical (accessUnits s decide_ v write a l) := by
  unfold accessUnits
  refine canonical_ite (canonical_writeUnits h) ?_
  dsimp only
  exact memKept.emit _ (canonical_readUnits h)

theorem yields_execDebugAccess {write : Bool} {addr : Nat} {data : List Byte} (h : Canonical s) : Yields (execDebugAccess write addr data s) :=
  yields_next (canonical_ite (canonical_accessUnits h) h)

theorem yields_execDbgKillFuseWrite (h : Canonical s) : Yields (execDbgKillFuseWrite s) := yields_next (canonical_ite (canonical_same h rfl) h)

theorem yields_execBar2ApertureAccess {write : Bool} {offset : Nat} {data : List Byte} (h : Canonical s) :
    Yields (execBar2ApertureAccess write offset data s) := by
  unfold execBar2ApertureAccess
  refine yields_next ?_
  refine canonical_ite (canonical_ite h (memKept.emit _ h)) ?_
  refine canonical_ite ?_ (canonical_accessUnits h)
  dsimp only
  exact memKept.emit _ (canonical_readUnits h)

theorem yields_execFabricWindowAccess {write : Bool} {offset size value : Nat} (h : Canonical s) :
    Yields (execFabricWindowAccess write offset size value s) :=
  yields_next (canonical_ite (canonical_ite h (memKept.emit _ h)) (canonical_ite (canonical_ite h (memKept.emit _ h)) (canonical_ite
    (memKept.routePkt _ _ h) (memKept.routePkt _ _ (canonical_same h rfl)))))

theorem yields_execFabricWindowReadTimeout (h : Canonical s) : Yields (execFabricWindowReadTimeout s) := by
  unfold execFabricWindowReadTimeout
  refine yields_next ?_
  dsimp only
  split
  · exact h
  · exact canonical_ite h (memKept.emit _ (canonical_same h rfl))

theorem canonical_takeMgmt {port kind : Nat} {bits : List (List Bool)} (h : Canonical s) : Canonical (takeMgmt s port kind bits).1 := by
  unfold takeMgmt
  dsimp only
  split
  · next heq =>
    have ht := canonical_fst heq (canonical_takePkt h)
    exact canonical_pair ht
  · next heq =>
    have ht := canonical_fst heq (canonical_takePkt h)
    exact canonical_pair (canonical_ite (memKept.routePkt _ _ ht) ht)

theorem yields_execRemoteWrite {port : Nat} {bits : List (List Bool)} (h : Canonical s) : Yields (execRemoteWrite port bits s) := by
  unfold execRemoteWrite
  refine yields_next ?_
  dsimp only
  split
  · next heq =>
    have ht := canonical_fst heq (canonical_takeMgmt h)
    exact ht
  · next heq =>
    have ht := canonical_fst heq (canonical_takeMgmt h)
    refine canonical_ite ?_ (canonical_writeUnits ht)
    split
    · exact memKept.denyAt _ _ _ _ _ ht
    · exact canonical_ite (canonical_same ht rfl) ht

theorem yields_execRemoteRead {port : Nat} {bits : List (List Bool)} (h : Canonical s) : Yields (execRemoteRead port bits s) := by
  unfold execRemoteRead
  refine yields_next ?_
  dsimp only
  split
  · next heq =>
    have ht := canonical_fst heq (canonical_takeMgmt h)
    exact ht
  · next heq =>
    have ht := canonical_fst heq (canonical_takeMgmt h)
    exact memKept.routePkt _ _ (canonical_readUnits ht)

theorem yields_execRemoteData {port : Nat} {bits : List (List Bool)} (h : Canonical s) : Yields (execRemoteData port bits s) := by
  unfold execRemoteData
  refine yields_next ?_
  dsimp only
  split
  · next heq =>
    have ht := canonical_fst heq (canonical_takeMgmt h)
    exact ht
  · next heq =>
    have ht := canonical_fst heq (canonical_takeMgmt h)
    split
    · exact ht
    · exact memKept.emit _ (canonical_same ht rfl)

theorem canonical_takeInterrupt {src vector : Nat} (h : Canonical s) : Canonical (takeInterrupt s src vector) :=
  canonical_ite h (canonical_ite (canonical_same h rfl) (memKept.steady.raiseEntry _ (canonical_same h rfl)))

theorem yields_execInterruptPacket {port : Nat} {bits : List (List Bool)} (h : Canonical s) : Yields (execInterruptPacket port bits s) := by
  unfold execInterruptPacket
  refine yields_next ?_
  split
  · next heq =>
    have ht := canonical_fst heq (canonical_takeMgmt h)
    exact ht
  · next heq =>
    have ht := canonical_fst heq (canonical_takeMgmt h)
    exact canonical_takeInterrupt ht

theorem yields_execHeadlessDetect (h : Canonical s) : Yields (execHeadlessDetect s) := yields_next (canonical_ite (canonical_same h rfl) h)

theorem canonical_endClaim (h : Canonical s) : Canonical (endClaim s) := by
  unfold endClaim
  dsimp only
  split
  · exact h
  · exact canonical_postRoutes (canonical_same h rfl)

theorem yields_execRemoteClaimLost (h : Canonical s) : Yields (execRemoteClaimLost s) := by
  unfold execRemoteClaimLost
  refine yields_next ?_
  split
  · split
    · exact canonical_ite (canonical_endClaim h) h
    · exact h
  · exact h

theorem canonical_resumeHost (h : Canonical s) : Canonical (resumeHost s) :=
  canonical_forEach (fun _ _ ht => canonical_flushLiveness (memKept.steady.flushLost _ (memKept.steady.flushWaiting _ ht))) (canonical_forEach (fun _
    _ hu => memKept.steady.raiseEntry _ (canonical_same hu rfl)) h)

theorem yields_execPcieLinkUp (h : Canonical s) : Yields (execPcieLinkUp s) :=
  yields_next (canonical_ite (canonical_resumeHost (canonical_endClaim (canonical_same h rfl))) h)

theorem yields_execPcieLoopbackEntry (h : Canonical s) : Yields (execPcieLoopbackEntry s) :=
  yields_next (canonical_ite (canonical_endScans (canonical_same h rfl)) h)

theorem yields_execPcieLoopbackExit (h : Canonical s) : Yields (execPcieLoopbackExit s) :=
  yields_next (canonical_ite (canonical_resumeHost (canonical_same h rfl)) h)

end Sys2Proof.Machine
end

section
/-! The memory's canonical form through Sys2Proof/Machine/Smb. -/
namespace Sys2Proof.Machine
open Sys2Proof

variable {s : State}

theorem canonical_smbAnswer {l : List Byte} (h : Canonical s) : Canonical (smbAnswer s l) := canonical_ite (memKept.emit _ h) h

theorem yields_execSmbStatus (h : Canonical s) : Yields (execSmbStatus s) := yields_next (canonical_smbAnswer h)

theorem yields_execSmbIdent (h : Canonical s) : Yields (execSmbIdent s) := yields_next (canonical_smbAnswer h)

theorem canonical_setSensors {temps : List Int} (h : Canonical s) : Canonical (setSensors s temps) := canonical_ite (canonical_same h rfl) h

theorem yields_execSmbTemp {temps : List Int} (h : Canonical s) : Yields (execSmbTemp temps s) :=
  yields_next (canonical_smbAnswer (canonical_setSensors h))

theorem yields_execSmbSensors {temps : List Int} (h : Canonical s) : Yields (execSmbSensors temps s) :=
  yields_next (canonical_smbAnswer (canonical_setSensors h))

theorem yields_execSmbVin {mv : Nat} (h : Canonical s) : Yields (execSmbVin mv s) := yields_next (canonical_smbAnswer h)

theorem yields_execSmbIin {ma : Nat} (h : Canonical s) : Yields (execSmbIin ma s) := yields_next (canonical_smbAnswer h)

theorem yields_execSmbPin {units : Nat} (h : Canonical s) : Yields (execSmbPin units s) := yields_next (canonical_smbAnswer h)

theorem yields_execSmbFaultCount (h : Canonical s) : Yields (execSmbFaultCount s) := yields_next (canonical_smbAnswer h)

theorem yields_execSmbFaultIndex {index : Nat} (h : Canonical s) : Yields (execSmbFaultIndex index s) :=
  yields_next (canonical_ite h (canonical_same h rfl))

theorem yields_execSmbFaultRecord (h : Canonical s) : Yields (execSmbFaultRecord s) := by
  unfold execSmbFaultRecord
  refine yields_next ?_
  refine canonical_ite h ?_
  dsimp only
  split
  · exact memKept.emit _ (canonical_same h rfl)
  · exact memKept.emit _ h

theorem yields_execSmbFaultNewest (h : Canonical s) : Yields (execSmbFaultNewest s) := yields_next (canonical_smbAnswer h)

theorem yields_execSmbReset {value : Nat} (h : Canonical s) : Yields (execSmbReset value s) :=
  yields_next (canonical_ite (canonical_requestReset h) h)

theorem yields_execSmbAlertResponse (h : Canonical s) : Yields (execSmbAlertResponse s) :=
  yields_next (canonical_ite (memKept.emit _ (memKept.emit _ (canonical_same h rfl))) h)

end Sys2Proof.Machine
end

section
/-! The memory's canonical form through Sys2Proof/Machine/Boot. -/
namespace Sys2Proof.Machine
open Sys2Proof

variable {s : State}

theorem yields_execPowerInputInRange (h : Canonical s) : Yields (execPowerInputInRange s) := yields_next (canonical_ite h (canonical_powerOn h))

theorem yields_execPowerInputFall (h : Canonical s) : Yields (execPowerInputFall s) :=
  yields_next (canonical_ite (canonical_same (canonical_keepFlash (canonical_resetPins h)) rfl) h)

theorem yields_execRstNAssert (h : Canonical s) : Yields (execRstNAssert s) :=
  yields_next (canonical_ite h (canonical_requestReset (canonical_same h rfl)))

theorem yields_execRstNRelease (h : Canonical s) : Yields (execRstNRelease s) := yields_next (canonical_same h rfl)

theorem yields_execPerstNAssert (h : Canonical s) : Yields (execPerstNAssert s) :=
  yields_next (canonical_ite (canonical_requestReset (canonical_same h rfl)) h)

theorem yields_execPerstNRelease (h : Canonical s) : Yields (execPerstNRelease s) := yields_next (canonical_same h rfl)

theorem yields_execPcieHotReset (h : Canonical s) : Yields (execPcieHotReset s) := yields_next (canonical_ite (canonical_deviceReset h) h)

theorem canonical_driveWarn {was : Bool} (h : Canonical s) : Canonical (driveWarn s was) := canonical_ite h (memKept.emit _ h)

theorem canonical_measureSensors {temps : List Int} (h : Canonical s) : Canonical (measureSensors s temps) :=
  canonical_driveWarn (canonical_setSensors h)

theorem yields_execHeldResetRelease {temps : List Int} (h : Canonical s) : Yields (execHeldResetRelease temps s) := by
  unfold execHeldResetRelease
  refine yields_next ?_
  dsimp only
  split
  · exact canonical_ite (canonical_deviceReset (canonical_measureSensors h)) (canonical_measureSensors h)
  · exact canonical_measureSensors h

theorem yields_execDeviceResetDelayExpiry (h : Canonical s) : Yields (execDeviceResetDelayExpiry s) :=
  yields_next (canonical_ite (canonical_deviceReset h) h)

theorem canonical_modFw {b : Bool} {f : FwBank → FwBank} (h : Canonical s) : Canonical (modFw s b f) :=
  canonical_ite (canonical_same h rfl) (canonical_same h rfl)

theorem canonical_setFw {b : Bool} {t : FwState} {cause : Nat} (h : Canonical s) : Canonical (setFw s b t cause) :=
  canonical_ite h (memKept.steady.post _ _ _ (canonical_modFw h))

theorem canonical_tryBanks {fail : Bool → Nat} {l : List Bool} (h : Canonical s) : Canonical (tryBanks fail l s).1 := by
  induction l generalizing s with
  | nil => exact h
  | cons b r ih => exact canonical_ite_fst (canonical_pair (canonical_ite (canonical_setFw h) h)) (ih (memKept.addFault _ _ _ (canonical_setFw h)))

theorem yields_execBootRomVerifyComplete {aFail bFail : Nat} (h : Canonical s) : Yields (execBootRomVerifyComplete aFail bFail s) := by
  unfold execBootRomVerifyComplete
  refine yields_next ?_
  refine canonical_ite h ?_
  dsimp only
  split
  · next heq =>
    have ht := canonical_fst heq (canonical_tryBanks h)
    exact canonical_setDevState ht
  · next heq =>
    have ht := canonical_fst heq (canonical_tryBanks h)
    exact canonical_setDevState (canonical_same ht rfl)

theorem canonical_confirmBanks (h : Canonical s) : Canonical (confirmBanks s) :=
  canonical_forEach (fun _ _ ht => canonical_ite (memKept.addFault _ _ _ (canonical_setFw ht)) ht) (canonical_same (canonical_ite (canonical_setFw
    (canonical_ite (canonical_setFw h) h)) h) rfl)

theorem yields_execLockedClocksRelease (h : Canonical s) : Yields (execLockedClocksRelease s) := yields_next (canonical_ite (canonical_same h rfl) h)

theorem canonical_enterFault {cause : Nat} (h : Canonical s) : Canonical (enterFault s cause) :=
  canonical_ite h (memKept.addFault _ _ _ (canonical_setDevState (canonical_same h rfl)))

theorem yields_execStoreTrainingComplete {ok : Bool} (h : Canonical s) : Yields (execStoreTrainingComplete ok s) :=
  yields_next (canonical_ite h (canonical_ite (canonical_setDevState h) (canonical_enterFault h)))

theorem canonical_bootOutput {p : Packet} (h : Canonical s) : Canonical (bootOutput p s) := canonical_ite h (canonical_modOut h)

theorem canonical_bootDisplay (h : Canonical s) : Canonical (bootDisplay s) := canonical_forEach (fun _ _ ht => canonical_bootOutput ht) h

theorem yields_execStartupZeroFillComplete {ok : Bool} (h : Canonical s) : Yields (execStartupZeroFillComplete ok s) :=
  yields_next (canonical_ite h (canonical_ite (canonical_enterFault h) (canonical_bootDisplay ⟨rfl⟩)))

theorem yields_execDeviceReady (h : Canonical s) : Yields (execDeviceReady s) :=
  yields_next (canonical_ite h (canonical_confirmBanks (canonical_postFaults (canonical_setDevState (canonical_same h rfl)))))

theorem yields_execTrialBootTimeout (h : Canonical s) : Yields (execTrialBootTimeout s) := by
  unfold execTrialBootTimeout
  extract_lets b u u1 x u2 u3 x1
  have hu : Canonical u := canonical_setFw h
  clear_value u
  have hu1 : Canonical u1 := canonical_ite (canonical_setFw hu) hu
  clear_value u1
  have hu2 : Canonical u2 := canonical_same hu1 rfl
  clear_value u2
  have hu3 : Canonical u3 := memKept.addFault _ _ _ hu2
  clear_value u3
  exact yields_next (canonical_ite h (canonical_ite hu3 (canonical_ite (canonical_setDevState (canonical_same hu3 rfl)) hu3)))

theorem canonical_interruptHeld (h : Canonical s) : Canonical (interruptHeld s) :=
  canonical_forEach (fun _ _ ht => canonical_ite (canonical_finishNow ht) ht) h

theorem canonical_beginRestart (h : Canonical s) : Canonical (beginRestart s) := canonical_interruptHeld (canonical_same h rfl)

theorem yields_execLockkeeperWatchdogExpiry {processor : Nat} (h : Canonical s) : Yields (execLockkeeperWatchdogExpiry processor s) :=
  yields_next (canonical_ite h (canonical_ite (canonical_enterFault (memKept.addFault _ _ _ (canonical_beginRestart (canonical_same h rfl))))
    (memKept.addFault _ _ _ (canonical_beginRestart (canonical_same h rfl)))))

theorem yields_execFwActivateRestartDelay (h : Canonical s) : Yields (execFwActivateRestartDelay s) := by
  unfold execFwActivateRestartDelay
  refine yields_next ?_
  refine canonical_ite h ?_
  dsimp only
  split
  · exact canonical_same h rfl
  · exact canonical_ite (canonical_beginRestart (canonical_same h rfl)) (canonical_same h rfl)

theorem canonical_sendOwed (h : Canonical s) : Canonical (sendOwed s) :=
  canonical_postFaults (canonical_forEach (fun _ _ ht => memKept.steady.flushWaiting _ ht) h)

theorem yields_execLockkeeperRestartComplete {fail : Nat} (h : Canonical s) : Yields (execLockkeeperRestartComplete fail s) := by
  unfold execLockkeeperRestartComplete
  refine yields_next ?_
  refine canonical_ite h ?_
  refine canonical_ite (canonical_ite (canonical_confirmBanks (canonical_sendOwed (canonical_same h rfl))) (canonical_sendOwed (canonical_same h
    rfl))) ?_
  dsimp only
  split
  · next heq =>
    have ht := canonical_fst heq (canonical_tryBanks (memKept.addFault _ _ _ (canonical_setFw h)))
    exact canonical_same ht rfl
  · next heq =>
    have ht := canonical_fst heq (canonical_tryBanks (memKept.addFault _ _ _ (canonical_setFw h)))
    exact canonical_setDevState (canonical_same ht rfl)

theorem yields_execRailOutOfTolerance {_rail : Nat} (h : Canonical s) : Yields (execRailOutOfTolerance _rail s) :=
  yields_next (canonical_enterFault h)

theorem yields_execLockkeeperMemoryEcc (h : Canonical s) : Yields (execLockkeeperMemoryEcc s) :=
  yields_next (canonical_ite h (canonical_enterFault h))

theorem canonical_postThermal {kind : Nat} (h : Canonical s) : Canonical (postThermal s kind) := memKept.steady.post _ _ _ h

theorem yields_execThermalSensorCrossing {temps : List Int} (h : Canonical s) : Yields (execThermalSensorCrossing temps s) :=
  yields_next (canonical_ite h (canonical_ite (canonical_assertAlert (canonical_postThermal (canonical_same (canonical_measureSensors h) rfl)))
    (canonical_ite (canonical_postThermal (canonical_same (canonical_measureSensors h) rfl)) (canonical_measureSensors h))))

theorem canonical_modHap {c : Nat} {f : HapChan → HapChan} (h : Canonical s) : Canonical (modHap s c f) := canonical_same h rfl

theorem canonical_hapticOff {c cause peak : Nat} (h : Canonical s) : Canonical (hapticOff s c cause peak) :=
  canonical_ite (memKept.steady.post _ _ _ (memKept.emit _ (canonical_modHap h))) (memKept.steady.post _ _ _ (memKept.steady.post _ _ _ (memKept.emit
    _ (canonical_modHap h))))

theorem canonical_hapticsOff (h : Canonical s) : Canonical (hapticsOff s) := by
  unfold hapticsOff
  refine canonical_forEach (fun _ _ ht => ?_) h
  dsimp only
  exact canonical_hapticOff (canonical_freshValue ht)

theorem canonical_powerDown (h : Canonical s) : Canonical (powerDown s) :=
  canonical_same (canonical_keepFlash (canonical_resetPins (canonical_same h rfl))) rfl

theorem yields_execThermalTrip {temps : List Int} (h : Canonical s) : Yields (execThermalTrip temps s) :=
  yields_next (canonical_ite (canonical_measureSensors h) (canonical_powerDown (memKept.addFault _ _ _ (canonical_setDevState (canonical_same
    (canonical_hapticsOff (canonical_measureSensors h)) rfl)))))

end Sys2Proof.Machine
end

section
/-! The memory's canonical form through Sys2Proof/Machine/Firmware. -/
namespace Sys2Proof.Machine
open Sys2Proof

variable {s : State}

theorem canonical_actFwStage {x : Held} {c : Cmd} (h : Canonical s) : Canonical (actFwStage s x c) := by
  unfold actFwStage
  dsimp only
  split
  · next heq =>
    have ht := canonical_fst heq (canonical_srcRead (canonical_ite h (canonical_setFw h)))
    exact canonical_finishNow ht
  · next heq =>
    have ht := canonical_fst heq (canonical_srcRead (canonical_ite h (canonical_setFw h)))
    exact canonical_finishNow (canonical_ite (canonical_same ht rfl) (canonical_modFw ht))

theorem yields_execFwStage {c : Cmd} (h : Canonical s) : Yields (execFwStage c s) :=
  yields_next (canonical_runPacket (fun _ _ ht => canonical_actFwStage ht) h)

theorem canonical_actFwVerify {x : Held} {c : Cmd} (h : Canonical s) : Canonical (actFwVerify s x c) := canonical_defer (canonical_same h rfl)

theorem yields_execFwVerify {c : Cmd} (h : Canonical s) : Yields (execFwVerify c s) :=
  yields_next (canonical_runPacket (fun _ _ ht => canonical_actFwVerify ht) h)

theorem yields_execFwVerifyComplete {result : Nat} (h : Canonical s) : Yields (execFwVerifyComplete result s) := by
  unfold execFwVerifyComplete
  refine yields_next ?_
  dsimp only
  split
  · exact h
  · split
    · exact memKept.finishKey _ _ _ _ (canonical_same h rfl)
    · exact canonical_ite (memKept.finishKey _ _ _ _ (canonical_setFw (canonical_modFw (canonical_same h rfl)))) (memKept.finishKey _ _ _ _
        (canonical_setFw (canonical_same h rfl)))

theorem canonical_actFwActivate {x : Held} {c : Cmd} (h : Canonical s) : Canonical (actFwActivate s x c) := by
  unfold actFwActivate
  refine canonical_ite (canonical_finishNow (canonical_same h rfl)) ?_
  dsimp only
  split
  · exact canonical_finishNow h
  · exact canonical_finishNow (canonical_same (canonical_setFw h) rfl)

theorem yields_execFwActivate {c : Cmd} (h : Canonical s) : Yields (execFwActivate c s) :=
  yields_next (canonical_runPacket (fun _ _ ht => canonical_actFwActivate ht) h)

theorem canonical_actDeviceReset {x : Held} {c : Cmd} (h : Canonical s) : Canonical (actDeviceReset s x c) :=
  canonical_finishNow (canonical_same h rfl)

theorem yields_execDeviceReset {c : Cmd} (h : Canonical s) : Yields (execDeviceReset c s) :=
  yields_next (canonical_runPacket (fun _ _ ht => canonical_actDeviceReset ht) h)

theorem canonical_resetLane {i : Nat} (h : Canonical s) : Canonical (resetLane s i) := canonical_same h rfl

theorem canonical_resetDecodeCore {i : Nat} (h : Canonical s) : Canonical (resetDecodeCore s i) := by
  unfold resetDecodeCore
  refine canonical_forEach (fun _ _ ht => ?_) (canonical_same h rfl)
  split
  · exact ht
  · exact canonical_ite (canonical_dropOrphan ht) (canonical_modCtx (canonical_popUnit ht))

theorem canonical_dropEncOrphan {e : EncOrphan} {aborted : Bool} (h : Canonical s) : Canonical (dropEncOrphan s e aborted) :=
  canonical_orphanDone (canonical_forEach (fun _ _ ht => memKept.modSurf _ _ ht) (canonical_same h rfl))

theorem canonical_resetEncodeCore {i : Nat} (h : Canonical s) : Canonical (resetEncodeCore s i) :=
  canonical_forEach (fun _ _ ht => memKept.modSession _ _ (canonical_endLatch ht)) (canonical_forEach (fun _ _ hu => canonical_dropEncOrphan hu)
    (canonical_same h rfl))

theorem canonical_actReinit {x : Held} {c : Cmd} (h : Canonical s) : Canonical (actReinit s x c) :=
  canonical_defer (canonical_ite (canonical_ite (canonical_modBank h) (canonical_ite (canonical_resetLane h) (canonical_ite
    (canonical_resetDecodeCore h) (canonical_resetEncodeCore h)))) (canonical_same (canonical_ite (canonical_modBank h) (canonical_ite
    (canonical_resetLane h) (canonical_ite (canonical_resetDecodeCore h) (canonical_resetEncodeCore h)))) rfl))

theorem yields_execEngineReinit {c : Cmd} (h : Canonical s) : Yields (execEngineReinit c s) :=
  yields_next (canonical_runPacket (fun _ _ ht => canonical_actReinit ht) h)

theorem canonical_backInService {u i : Nat} (h : Canonical s) : Canonical (backInService s u i) :=
  canonical_ite (canonical_same h rfl) (canonical_ite (canonical_same h rfl) (canonical_same h rfl))

theorem yields_execEngineSelfCheckComplete {unit index : Nat} {ok : Bool} {test : Nat} (h : Canonical s) :
    Yields (execEngineSelfCheckComplete unit index ok test s) := by
  unfold execEngineSelfCheckComplete
  refine yields_next ?_
  dsimp only
  split
  · exact h
  · exact canonical_ite h (canonical_ite (memKept.finishKey _ _ _ _ (canonical_backInService (canonical_same h rfl))) (memKept.finishKey _ _ _ _
      (canonical_same h rfl)))

theorem canonical_actFaultRead {x : Held} {c : Cmd} (h : Canonical s) : Canonical (actFaultRead s x c) := canonical_replyWithRecord h

theorem yields_execFaultRead {c : Cmd} (h : Canonical s) : Yields (execFaultRead c s) :=
  yields_next (canonical_runPacket (fun _ _ ht => canonical_actFaultRead ht) h)

theorem canonical_actFaultClear {x : Held} {c : Cmd} (h : Canonical s) : Canonical (actFaultClear s x c) := canonical_finishNow (canonical_same h rfl)

theorem yields_execFaultClear {c : Cmd} (h : Canonical s) : Yields (execFaultClear c s) :=
  yields_next (canonical_runPacket (fun _ _ ht => canonical_actFaultClear ht) h)

theorem canonical_restartOccupancy (h : Canonical s) : Canonical (restartOccupancy s) := canonical_same h rfl

theorem canonical_actCounters {x : Held} {c : Cmd} (h : Canonical s) : Canonical (actCounters s x c) := by
  unfold actCounters
  dsimp only
  split
  · next heq =>
    have ht := canonical_fst heq (canonical_destWrite h)
    exact canonical_finishNow (canonical_ite (canonical_restartOccupancy ht) ht)
  · next heq =>
    have ht := canonical_fst heq (canonical_destWrite h)
    exact canonical_finishNow ht

theorem yields_execCountersRead {c : Cmd} (h : Canonical s) : Yields (execCountersRead c s) :=
  yields_next (canonical_runPacket (fun _ _ ht => canonical_actCounters ht) h)

theorem canonical_actIdentify {x : Held} {c : Cmd} (h : Canonical s) : Canonical (actIdentify s x c) := canonical_replyWithRecord h

theorem yields_execIdentify {c : Cmd} (h : Canonical s) : Yields (execIdentify c s) :=
  yields_next (canonical_runPacket (fun _ _ ht => canonical_actIdentify ht) h)

end Sys2Proof.Machine
end

section
/-! The memory's canonical form through Sys2Proof/Machine/Keys. -/
namespace Sys2Proof.Machine
open Sys2Proof

variable {s : State}

theorem canonical_modKey {n : Nat} {f : KeyObj → KeyObj} (h : Canonical s) : Canonical (modKey s n f) := canonical_same h rfl

theorem canonical_modKeys {f : KeysSt → KeysSt} (h : Canonical s) : Canonical (modKeys s f) := canonical_same h rfl

theorem canonical_postKey {n kind reason : Nat} (h : Canonical s) : Canonical (postKey s n kind reason) := memKept.steady.post _ _ _ h

theorem canonical_recalibrate {n cause : Nat} (h : Canonical s) : Canonical (recalibrate s n cause) :=
  memKept.steady.post _ _ _ (canonical_modKey (canonical_modKeys h))

theorem canonical_scanObject {n : Nat} (h : Canonical s) : Canonical (scanObject n s) :=
  canonical_ite h (canonical_ite (canonical_ite (canonical_postKey (canonical_modKey h)) (canonical_ite (canonical_postKey (canonical_modKey
    (canonical_modKey h))) (canonical_modKey h))) (canonical_ite (canonical_postKey (canonical_modKey h)) (canonical_ite (canonical_recalibrate
    (canonical_modKey h)) (canonical_modKey h))))

theorem canonical_actKeys {x : Held} {c : Cmd} (h : Canonical s) : Canonical (actKeys s x c) := canonical_holdOn (canonical_modKeys h)

theorem yields_execKeysConfigure {c : Cmd} (h : Canonical s) : Yields (execKeysConfigure c s) :=
  yields_next (canonical_runPacket (fun _ _ ht => canonical_actKeys ht) h)

theorem canonical_applyKeySet {e : KeySet} (h : Canonical s) : Canonical (applyKeySet e s) :=
  canonical_ite (memKept.finishKey _ _ _ _ h) (memKept.finishKey _ _ _ _ (canonical_ite (canonical_recalibrate (canonical_modKey h))
    (canonical_modKey h)))

theorem yields_execKeyScan {counts : List Nat} (h : Canonical s) : Yields (execKeyScan counts s) :=
  yields_next (canonical_ite h (canonical_modKeys (canonical_forEach (fun _ _ ht => canonical_applyKeySet ht) (canonical_modKeys (canonical_ite
    (canonical_ite (canonical_modKeys (canonical_modKeys h)) (canonical_modKeys h)) (canonical_modKeys (canonical_forEach (fun _ _ hu =>
    canonical_scanObject hu) (canonical_ite (canonical_modKeys (canonical_modKeys h)) (canonical_modKeys h)))))))))

theorem yields_execKeyMaxOnExpiry {object : Nat} (h : Canonical s) : Yields (execKeyMaxOnExpiry object s) :=
  yields_next (canonical_ite (canonical_recalibrate (canonical_postKey (canonical_modKey h))) h)

theorem canonical_actSelftest {x : Held} {c : Cmd} (h : Canonical s) : Canonical (actSelftest s x c) := canonical_defer (canonical_modKeys h)

theorem yields_execKeySelftest {c : Cmd} (h : Canonical s) : Yields (execKeySelftest c s) :=
  yields_next (canonical_runPacket (fun _ _ ht => canonical_actSelftest ht) h)

theorem yields_execKeySelftestComplete {ok : Bool} (h : Canonical s) : Yields (execKeySelftestComplete ok s) := by
  unfold execKeySelftestComplete
  refine yields_next ?_
  dsimp only
  split
  · exact h
  · refine canonical_ite h ?_
    refine canonical_ite (memKept.finishKey _ _ _ _ (canonical_modKeys h)) ?_
    split
    · next heq =>
      have ht := canonical_fst heq (canonical_destWrite (canonical_modKeys h))
      exact memKept.finishKey _ _ _ _ ht
    · next heq =>
      have ht := canonical_fst heq (canonical_destWrite (canonical_modKeys h))
      exact memKept.finishKey _ _ _ _ ht

end Sys2Proof.Machine
end

section
/-! The memory's canonical form through Sys2Proof/Machine/Haptics. -/
namespace Sys2Proof.Machine
open Sys2Proof

variable {s : State}

theorem canonical_readEntry {x : HapChan} {wave : Nat} (h : Canonical s) : Canonical (readEntry s x wave).1 := by
  unfold readEntry
  split
  · exact canonical_pair h
  · split
    · next heq =>
      have ht := canonical_fst heq (canonical_storeRead h)
      exact canonical_pair ht
    · next heq =>
      have ht := canonical_fst heq (canonical_storeRead h)
      exact canonical_pair ht

theorem canonical_hapSample {x : HapChan} {p : HapPlay} (h : Canonical s) : Canonical (hapSample s x p).1 := by
  unfold hapSample
  split
  · exact canonical_pair h
  · refine canonical_ite_fst (canonical_pair h) ?_
    split
    · next heq =>
      have ht := canonical_fst heq (canonical_storeRead h)
      exact canonical_pair ht
    · next heq =>
      have ht := canonical_fst heq (canonical_storeRead h)
      exact canonical_pair ht

theorem canonical_actHapticConfigure {x : Held} {c : Cmd} (h : Canonical s) : Canonical (actHapticConfigure s x c) :=
  canonical_finishNow (canonical_modHap (canonical_ite (memKept.emit _ (canonical_ite (canonical_ite h (canonical_dropUser h)) (canonical_addUser
    (canonical_ite h (canonical_dropUser h))))) (canonical_ite (canonical_ite h (canonical_dropUser h)) (canonical_addUser (canonical_ite h
    (canonical_dropUser h))))))

theorem yields_execHapticConfigure {c : Cmd} (h : Canonical s) : Yields (execHapticConfigure c s) :=
  yields_next (canonical_runPacket (fun _ _ ht => canonical_actHapticConfigure ht) h)

theorem canonical_actHapticPlay {x : Held} {c : Cmd} (h : Canonical s) : Canonical (actHapticPlay s x c) :=
  canonical_finishNow (canonical_forEach (fun _ _ ht => canonical_modHap ht) h)

theorem yields_execHapticPlay {c : Cmd} (h : Canonical s) : Yields (execHapticPlay c s) :=
  yields_next (canonical_runPacket (fun _ _ ht => canonical_actHapticPlay ht) h)

theorem canonical_fireTriggers {owner output slot : Nat} (h : Canonical s) : Canonical (fireTriggers s owner output slot) :=
  canonical_forEach (fun _ _ ht => canonical_modHap ht) h

theorem canonical_hapStart {c : Nat} (h : Canonical s) : Canonical (hapStart s c) := by
  unfold hapStart
  dsimp only
  split
  · exact h
  · exact canonical_modHap (canonical_ite_fst (canonical_pair h) (canonical_readEntry h))

theorem canonical_hapBrake {c : Nat} (h : Canonical s) : Canonical (hapBrake s c) := canonical_ite h (memKept.emit _ (canonical_modHap h))

theorem canonical_hapPeriod {c : Nat} (h : Canonical s) : Canonical (hapPeriod s c) := by
  unfold hapPeriod
  dsimp only
  split
  · exact canonical_hapBrake h
  · refine canonical_ite (canonical_hapBrake (memKept.emit _ (canonical_modHap h))) ?_
    split
    · next heq =>
      have ht := canonical_fst heq (canonical_hapSample h)
      exact canonical_hapBrake (memKept.emit _ (canonical_modHap ht))
    · next heq =>
      have ht := canonical_fst heq (canonical_hapSample h)
      exact memKept.emit _ (canonical_modHap ht)

theorem yields_execHapticDrivePeriod {channel resonance : Nat} (h : Canonical s) : Yields (execHapticDrivePeriod channel resonance s) :=
  yields_next (canonical_ite (canonical_hapPeriod (canonical_hapStart (canonical_modHap h))) h)

theorem yields_execHapticFault {channel cause peakMa : Nat} (h : Canonical s) : Yields (execHapticFault channel cause peakMa s) :=
  yields_next (canonical_ite (canonical_hapticOff h) h)

end Sys2Proof.Machine
end

section
/-! The memory's canonical form through Sys2Proof/Machine/Touch. -/
namespace Sys2Proof.Machine
open Sys2Proof

variable {s : State}

theorem canonical_modTouch {p : Nat} {f : TouchPort → TouchPort} (h : Canonical s) : Canonical (modTouch s p f) := canonical_same h rfl

theorem canonical_postTouch {port phase : Nat} {c : Contact} {st : Option TouchStamp} (h : Canonical s) : Canonical (postTouch s port phase c st) :=
  canonical_ite h (memKept.postEvent _ _ h)

theorem canonical_cancelContacts {port : Nat} {st : Option TouchStamp} (h : Canonical s) : Canonical (cancelContacts s port st) :=
  canonical_modTouch (canonical_forEach (fun _ _ ht => canonical_postTouch ht) h)

theorem canonical_actTouchPortSet {x : Held} {c : Cmd} (h : Canonical s) : Canonical (actTouchPortSet s x c) := by
  unfold actTouchPortSet
  dsimp only
  split
  · next heq =>
    have ht := canonical_fst heq (canonical_srcRead h)
    exact canonical_finishNow ht
  · next heq =>
    have ht := canonical_fst heq (canonical_srcRead h)
    split
    · exact canonical_finishNow ht
    · exact canonical_finishNow (canonical_modTouch (canonical_cancelContacts ht))

theorem yields_execTouchPortSet {c : Cmd} (h : Canonical s) : Yields (execTouchPortSet c s) :=
  yields_next (canonical_runPacket (fun _ _ ht => canonical_actTouchPortSet ht) h)

theorem yields_execTouchAttnEdge {port : Nat} (h : Canonical s) : Yields (execTouchAttnEdge port s) :=
  yields_next (canonical_ite (canonical_modTouch h) h)

theorem canonical_endRead {port : Nat} {attn : Bool} (h : Canonical s) : Canonical (endRead s port attn) := canonical_modTouch h

theorem canonical_portError {port : Nat} (h : Canonical s) : Canonical (portError s port) :=
  canonical_ite (canonical_modTouch h) (canonical_modTouch (canonical_cancelContacts h))

theorem canonical_hidValue {l : List Byte} {ids : Bool} {f : HidField} (h : Canonical s) : Canonical (hidValue s l ids f).1 := by
  unfold hidValue
  dsimp only
  exact canonical_ite_snd h (canonical_freshValue h)

theorem canonical_hidRaw {l : List Byte} {ids : Bool} {f : HidField} (h : Canonical s) : Canonical (hidRaw s l ids f).1 :=
  canonical_pair (canonical_hidValue h)

theorem canonical_entryOf {l : List Byte} {ids : Bool} {f : HidFinger} (h : Canonical s) : Canonical (entryOf s l ids f).1 := by
  unfold entryOf
  dsimp only
  exact canonical_ite_fst (canonical_hidRaw (canonical_hidValue (canonical_hidValue (canonical_hidRaw (canonical_hidRaw h))))) (canonical_pair
    (canonical_hidValue (canonical_hidValue (canonical_hidRaw (canonical_hidRaw h)))))

theorem canonical_touchDown {port : Nat} {t : TouchStamp} {e : TouchEntry} (h : Canonical s) : Canonical (touchDown s port t e) := by
  unfold touchDown
  dsimp only
  exact canonical_ite (canonical_postTouch (canonical_modTouch h)) (canonical_fireTriggers (canonical_postTouch (canonical_modTouch h)))

theorem canonical_touchEnd {port phase : Nat} {c : Contact} {t : TouchStamp} (h : Canonical s) : Canonical (touchEnd s port phase c t) :=
  canonical_modTouch (canonical_postTouch h)

theorem canonical_touchEntry {port : Nat} {t : TouchStamp} {e : TouchEntry} (h : Canonical s) : Canonical (touchEntry port t e s) := by
  unfold touchEntry
  refine canonical_ite h ?_
  dsimp only
  split
  · exact canonical_ite (canonical_touchDown (canonical_modTouch h)) (canonical_modTouch h)
  · exact canonical_ite (canonical_touchEnd (canonical_modTouch h)) (canonical_ite (canonical_touchEnd (canonical_modTouch h)) (canonical_postTouch
      (canonical_modTouch (canonical_modTouch h))))

theorem canonical_touchEntries {port : Nat} {t : TouchStamp} {l : List Byte} {ids : Bool} {fs : List HidFinger} (h : Canonical s) :
    Canonical (touchEntries port t l ids fs s) := by
  unfold touchEntries
  refine canonical_forEach (fun _ _ ht => ?_) h
  dsimp only
  exact canonical_touchEntry (canonical_entryOf ht)

theorem canonical_closeFrame {port : Nat} {t : TouchStamp} (h : Canonical s) : Canonical (closeFrame s port t) :=
  canonical_modTouch (canonical_forEach (fun _ _ ht => canonical_touchEnd ht) h)

theorem canonical_touchReport {port : Nat} {t : TouchStamp} {l : List Byte} (h : Canonical s) : Canonical (touchReport s port t l) := by
  unfold touchReport
  refine canonical_ite h ?_
  dsimp only
  split
  · exact canonical_closeFrame (canonical_touchEntries h)
  · exact canonical_ite (canonical_closeFrame (canonical_touchEntries (canonical_ite_fst (canonical_hidRaw h) (canonical_pair h))))
      (canonical_modTouch (canonical_touchEntries (canonical_ite_fst (canonical_hidRaw h) (canonical_pair h))))

theorem yields_execTouchReportRead {port : Nat} {report : List Byte} {attn : Bool} (h : Canonical s) :
    Yields (execTouchReportRead port report attn s) := by
  unfold execTouchReportRead
  refine yields_next ?_
  dsimp only
  split
  · exact h
  · exact canonical_ite h (canonical_endRead (canonical_ite (canonical_portError h) (canonical_ite (canonical_modTouch h) (canonical_touchReport
      (canonical_modTouch h)))))

theorem yields_execTouchReadTimeout {port : Nat} {attn : Bool} (h : Canonical s) : Yields (execTouchReadTimeout port attn s) :=
  yields_next (canonical_ite (canonical_endRead (canonical_portError h)) h)

theorem yields_execTouchAttnIdleTimeout {port : Nat} (h : Canonical s) : Yields (execTouchAttnIdleTimeout port s) :=
  yields_next (canonical_ite (canonical_cancelContacts h) h)

end Sys2Proof.Machine
end

section
/-! The memory's canonical form through Sys2Proof/Machine/Audio. -/
namespace Sys2Proof.Machine
open Sys2Proof

variable {s : State}

theorem canonical_modAudio {f : AudioSt → AudioSt} (h : Canonical s) : Canonical (modAudio s f) := canonical_same h rfl

theorem canonical_modAud {n : Nat} {f : AudStream → AudStream} (h : Canonical s) : Canonical (modAud s n f) := canonical_modAudio h

theorem canonical_modTone {n : Nat} {f : Tone → Tone} (h : Canonical s) : Canonical (modTone s n f) := canonical_modAudio h

theorem canonical_audioReply {x : Held} {fields : List Field} (h : Canonical s) : Canonical (audioReply s x fields) := memKept.finish _ _ _ _ h

theorem canonical_actAudioOpen {x : Held} {c : Cmd} (h : Canonical s) : Canonical (actAudioOpen s x c) := canonical_audioReply (canonical_modAud h)

theorem canonical_actAudioClose {x : Held} {c : Cmd} (h : Canonical s) : Canonical (actAudioClose s x c) := canonical_audioReply (canonical_modAud h)

theorem canonical_actAudioGain {x : Held} {c : Cmd} (h : Canonical s) : Canonical (actAudioGain s x c) := canonical_audioReply (canonical_modAud h)

theorem canonical_actAudioGlobal {x : Held} {c : Cmd} (h : Canonical s) : Canonical (actAudioGlobal s x c) :=
  canonical_audioReply (canonical_modAudio h)

theorem yields_execAudioStreamSetOpen {c : Cmd} (h : Canonical s) : Yields (execAudioStreamSetOpen c s) :=
  yields_next (canonical_runPacket (fun _ _ ht => canonical_actAudioOpen ht) h)

theorem yields_execAudioStreamSetClose {c : Cmd} (h : Canonical s) : Yields (execAudioStreamSetClose c s) :=
  yields_next (canonical_runPacket (fun _ _ ht => canonical_actAudioClose ht) h)

theorem yields_execAudioStreamSetGain {c : Cmd} (h : Canonical s) : Yields (execAudioStreamSetGain c s) :=
  yields_next (canonical_runPacket (fun _ _ ht => canonical_actAudioGain ht) h)

theorem yields_execAudioStreamSetGlobal {c : Cmd} (h : Canonical s) : Yields (execAudioStreamSetGlobal c s) :=
  yields_next (canonical_runPacket (fun _ _ ht => canonical_actAudioGlobal ht) h)

theorem canonical_actTonePlay {x : Held} {c : Cmd} (h : Canonical s) : Canonical (actTonePlay s x c) :=
  canonical_ite (memKept.finish _ _ _ _ (canonical_modTone h)) (canonical_ite (canonical_finishNow h) (memKept.finish _ _ _ _ (canonical_modTone h)))

theorem yields_execTonePlay {c : Cmd} (h : Canonical s) : Yields (execTonePlay c s) :=
  yields_next (canonical_runPacket (fun _ _ ht => canonical_actTonePlay ht) h)

theorem canonical_ringBytes {n : Nat} {x : AudStream} {host : List HostBytes} {off len : Nat} (h : Canonical s) :
    Canonical (ringBytes s n x host off len).1 :=
  canonical_ite_fst (canonical_storeRead h) (canonical_pair h)

theorem canonical_streamSample {host : List HostBytes} {n : Nat} (h : Canonical s) : Canonical (streamSample host s n).1 := by
  unfold streamSample
  refine canonical_ite_fst (canonical_pair (canonical_modAud h)) ?_
  refine canonical_ite_fst (canonical_pair (canonical_modAud (canonical_modAud (canonical_modAud h)))) ?_
  dsimp only
  split
  · next heq =>
    have ht := canonical_fst heq (canonical_ringBytes (canonical_modAud h))
    exact canonical_pair (canonical_modAud (canonical_modAud ht))
  · next heq =>
    have ht := canonical_fst heq (canonical_ringBytes (canonical_modAud h))
    exact canonical_pair (canonical_modAud ht)

theorem canonical_toneSample {n : Nat} (h : Canonical s) : Canonical (toneSample s n).1 :=
  canonical_ite_fst (canonical_pair (canonical_modTone h)) (canonical_ite_fst (canonical_pair (canonical_modTone (canonical_modTone h)))
    (canonical_ite_fst (canonical_pair (canonical_modTone h)) (canonical_pair (canonical_modTone h))))

theorem canonical_allInputs {host : List HostBytes} (h : Canonical s) : Canonical (allInputs host s).1 := by
  unfold allInputs
  refine canonical_foldl_fst (fun _ _ ht => ?_) ?_
  · dsimp only
    split
    · rename_i heq
      have hu := canonical_fst heq (canonical_toneSample ht)
      exact canonical_pair hu
    · rename_i heq
      have hu := canonical_fst heq (canonical_toneSample ht)
      exact canonical_pair hu
  · refine canonical_foldl_fst (fun _ _ hu => ?_) (canonical_pair h)
    dsimp only
    split
    · rename_i heq
      have hv := canonical_fst heq (canonical_streamSample hu)
      exact canonical_pair hv
    · rename_i heq
      have hv := canonical_fst heq (canonical_streamSample hu)
      exact canonical_pair hv

theorem canonical_duckStep (h : Canonical s) : Canonical (duckStep s) := by
  unfold duckStep
  exact canonical_modAudio h

theorem canonical_mixOut {v : Int} (h : Canonical s) : Canonical (mixOut s v).1 := by
  unfold mixOut
  dsimp only
  exact canonical_ite_fst (canonical_pair h) (canonical_pair (canonical_freshValue h))

theorem canonical_mixDest {ins : List MixIn} {d : Nat} (h : Canonical s) : Canonical (mixDest ins d s) := by
  unfold mixDest
  refine canonical_ite h ?_
  dsimp only
  exact memKept.emit _ (canonical_mixOut (canonical_mixOut h))

theorem yields_execAudioSample {host : List HostBytes} (h : Canonical s) : Yields (execAudioSample host s) := by
  unfold execAudioSample
  refine yields_next ?_
  refine canonical_ite h ?_
  dsimp only
  exact canonical_modAudio (canonical_forEach (fun _ _ ht => canonical_mixDest ht) (canonical_duckStep (canonical_allInputs h)))

theorem canonical_pollStream {host : List HostBytes} {n : Nat} (h : Canonical s) : Canonical (pollStream host n s) := by
  unfold pollStream
  refine canonical_ite h ?_
  dsimp only
  refine canonical_ite ?_ ?_
  · refine canonical_storeWrite ?_
    split
    · exact canonical_ringBytes h
    · exact canonical_modAud (canonical_ringBytes h)
  · refine canonical_hostPut ?_
    split
    · exact canonical_ringBytes h
    · exact canonical_modAud (canonical_ringBytes h)

theorem yields_execAudioProducedPoll {host : List HostBytes} (h : Canonical s) : Yields (execAudioProducedPoll host s) :=
  yields_next (canonical_ite h (canonical_forEach (fun _ _ ht => canonical_pollStream ht) (canonical_modAudio h)))

theorem canonical_audioRebase {frame : Nat} (h : Canonical s) : Canonical (audioRebase s frame) := canonical_modAudio h

theorem canonical_audioJump (h : Canonical s) : Canonical (audioJump s) := by
  unfold audioJump
  exact canonical_modAudio h

end Sys2Proof.Machine
end

section
/-! The memory's canonical form through Sys2Proof/Machine/Attach. -/
namespace Sys2Proof.Machine
open Sys2Proof

variable {s : State}

theorem canonical_attachBuffers {slice fmt w ht : Nat} {wr : Writer} {n : Nat} (h : Canonical s) :
    Canonical (attachBuffers slice fmt w ht wr n s).1 := by
  induction n generalizing s with
  | zero => exact h
  | succ n ih =>
    unfold attachBuffers
    split
    · next heq =>
      have hpixel := canonical_fst heq (canonical_allocPixel h)
      split
      · next heq => exact canonical_pair (canonical_fst heq (ih hpixel))
      · next heq => exact canonical_pair (canonical_fst heq (ih hpixel))
    · exact canonical_pair h

theorem canonical_actSourceAttach {x : Held} {c : Cmd} (h : Canonical s) : Canonical (actSourceAttach s x c) := by
  unfold actSourceAttach
  dsimp only
  split
  · exact canonical_finishNow h
  · refine canonical_ite (canonical_finishNow h) ?_
    refine canonical_ite (canonical_finishNow h) ?_
    split
    · exact canonical_finishNow h
    · next heq =>
      have ht := canonical_fst heq (canonical_attachBuffers h)
      exact canonical_finishNow (canonical_ite (canonical_modCtx (canonical_same (canonical_forEach (fun _ _ hu => memKept.modSurf _ _ hu) ht) rfl))
        (canonical_ite (canonical_modDp (canonical_same (canonical_forEach (fun _ _ hu => memKept.modSurf _ _ hu) ht) rfl)) (canonical_same
        (canonical_forEach (fun _ _ hu => memKept.modSurf _ _ hu) ht) rfl)))

theorem yields_execSourceAttach {c : Cmd} (h : Canonical s) : Yields (execSourceAttach c s) :=
  yields_next (canonical_runPacket (fun _ _ ht => canonical_actSourceAttach ht) h)

theorem canonical_orphanRows {i : Nat} (h : Canonical s) : Canonical (orphanRows s i) := canonical_same h rfl

theorem canonical_endContext {i : Nat} {counted : Bool} (h : Canonical s) : Canonical (endContext s i counted) := by
  unfold endContext
  refine canonical_ite h ?_
  dsimp only
  split
  · exact canonical_modCtx (canonical_modCtx h)
  · exact canonical_ite (canonical_modCtx (canonical_modCtx h)) (canonical_ite (canonical_modSlice (canonical_modCtx (canonical_ite (canonical_modCtx
      h) (memKept.modSurf _ _ (canonical_modCtx h))))) (canonical_modCtx (canonical_ite (canonical_modCtx h) (memKept.modSurf _ _ (canonical_modCtx
      h)))))

theorem canonical_endSource {i : Nat} {counted : Bool} (h : Canonical s) : Canonical (endSource s i counted) := by
  unfold endSource
  extract_lets bufs u u1 u2 u3 u4 x x1 x2 u5
  have hu : Canonical u := canonical_endContext (memKept.clearStill _ (canonical_withdraw h))
  clear_value u
  have hu1 : Canonical u1 := canonical_forEach (fun _ _ ht => canonical_endBinding ht) hu
  clear_value u1
  have hu2 : Canonical u2 := canonical_forEach (fun _ _ ht => canonical_ite (canonical_dpSettle (canonical_modDp ht)) ht) hu1
  clear_value u2
  have hu3 : Canonical u3 := canonical_endImport hu2
  clear_value u3
  have hu4 : Canonical u4 := canonical_forEach (fun _ _ ht => canonical_endExport ht) hu3
  clear_value u4
  have hu5 : Canonical u5 := canonical_same hu4 rfl
  clear_value u5
  exact canonical_releaseAll (canonical_forEach (fun _ _ ht => canonical_orphanRows ht) hu5)

theorem canonical_actSourceDetach {x : Held} {c : Cmd} (h : Canonical s) : Canonical (actSourceDetach s x c) :=
  canonical_finishNow (canonical_endSource h)

theorem yields_execSourceDetach {c : Cmd} (h : Canonical s) : Yields (execSourceDetach c s) :=
  yields_next (canonical_runPacket (fun _ _ ht => canonical_actSourceDetach ht) h)

theorem canonical_freeEntries (h : Canonical s) : Canonical (freeEntries s) :=
  canonical_forEach (fun _ _ ht => canonical_ite ht (canonical_same ht rfl)) h

end Sys2Proof.Machine
end

section
/-! The memory's canonical form through Sys2Proof/Machine/Slices. -/
namespace Sys2Proof.Machine
open Sys2Proof

variable {s : State}

theorem canonical_actSliceCreate {x : Held} {c : Cmd} (h : Canonical s) : Canonical (actSliceCreate s x c) :=
  canonical_finishNow (canonical_setSliceState (canonical_modSlice h))

theorem yields_execSliceCreate {c : Cmd} (h : Canonical s) : Yields (execSliceCreate c s) :=
  yields_next (canonical_runPacket (fun _ _ ht => canonical_actSliceCreate ht) h)

theorem canonical_actBindPasid {x : Held} {c : Cmd} (h : Canonical s) : Canonical (actBindPasid s x c) :=
  canonical_finishNow (canonical_ite (canonical_setSliceState (canonical_modSlice h)) (canonical_modSlice h))

theorem yields_execSliceBindPasid {c : Cmd} (h : Canonical s) : Yields (execSliceBindPasid c s) :=
  yields_next (canonical_runPacket (fun _ _ ht => canonical_actBindPasid ht) h)

theorem canonical_actSetShare {x : Held} {c : Cmd} (h : Canonical s) : Canonical (actSetShare s x c) := by
  unfold actSetShare
  split
  · exact canonical_finishNow h
  · exact canonical_holdOn (canonical_modSlice h)

theorem yields_execSliceSetShare {c : Cmd} (h : Canonical s) : Yields (execSliceSetShare c s) :=
  yields_next (canonical_runPacket (fun _ _ ht => canonical_actSetShare ht) h)

theorem canonical_applyShares (h : Canonical s) : Canonical (applyShares s) :=
  canonical_forEach (fun _ _ ht => canonical_forEach (fun _ _ hu => memKept.finishKey _ _ _ _ (canonical_modSlice hu)) (canonical_modSlice ht)) h

theorem canonical_cancelArmed {i : Nat} (h : Canonical s) : Canonical (cancelArmed s i) :=
  canonical_forEach (fun _ _ ht => canonical_finishNow (canonical_same ht rfl)) h

theorem canonical_beginWait {x : Held} {freeze : Bool} (h : Canonical s) : Canonical (beginWait s x freeze) := canonical_defer (canonical_modSlice h)

theorem canonical_actQuiesce {x : Held} {c : Cmd} (h : Canonical s) : Canonical (actQuiesce s x c) :=
  canonical_beginWait (canonical_setSliceState (canonical_cancelArmed h))

theorem yields_execSliceQuiesce {c : Cmd} (h : Canonical s) : Yields (execSliceQuiesce c s) :=
  yields_next (canonical_runPacket (fun _ _ ht => canonical_actQuiesce ht) h)

theorem canonical_stopIntake {i : Nat} (h : Canonical s) : Canonical (stopIntake s i) :=
  canonical_forEach (fun _ _ ht => memKept.modSession _ _ (canonical_failRequests ht)) (canonical_forEach (fun _ _ hu => canonical_modCtx hu) h)

theorem canonical_actFreeze {x : Held} {c : Cmd} (h : Canonical s) : Canonical (actFreeze s x c) :=
  canonical_beginWait (canonical_setSliceState (canonical_stopIntake (canonical_cancelArmed h)))

theorem yields_execSliceFreeze {c : Cmd} (h : Canonical s) : Yields (execSliceFreeze c s) :=
  yields_next (canonical_runPacket (fun _ _ ht => canonical_actFreeze ht) h)

theorem canonical_endWaits {i : Nat} {st : Status} (h : Canonical s) : Canonical (endWaits s i st) :=
  canonical_forEach (fun _ _ ht => memKept.finishKey _ _ _ _ ht) (canonical_modSlice h)

theorem yields_execSliceQuiesced {slice : Nat} (h : Canonical s) : Yields (execSliceQuiesced slice s) :=
  yields_next (canonical_ite (canonical_endWaits (canonical_setSliceState h)) h)

theorem yields_execSliceFrozen {slice : Nat} (h : Canonical s) : Yields (execSliceFrozen slice s) :=
  yields_next (canonical_ite (canonical_endWaits (canonical_setSliceState h)) h)

theorem yields_execSliceWaitTimeout {c : Cmd} (h : Canonical s) : Yields (execSliceWaitTimeout c s) := by
  unfold execSliceWaitTimeout
  refine yields_next ?_
  dsimp only
  split
  · exact h
  · exact canonical_ite h (memKept.finishKey _ _ _ _ (canonical_modSlice h))

theorem canonical_closeSession {slice n : Nat} (h : Canonical s) : Canonical (closeSession slice n s) := by
  unfold closeSession
  dsimp only
  split
  · refine memKept.finishKey _ _ _ _ ?_
    refine canonical_dropSession ?_
    split
    · refine canonical_endStream ?_
      split
      · split
        · exact canonical_modSlice (canonical_same (canonical_forEach (fun _ _ ht => memKept.modSurf _ _ ht) h) rfl)
        · exact h
      · exact h
    · split
      · split
        · exact canonical_modSlice (canonical_same (canonical_forEach (fun _ _ ht => memKept.modSurf _ _ ht) h) rfl)
        · exact h
      · exact h
  · refine canonical_dropSession ?_
    split
    · refine canonical_endStream ?_
      split
      · split
        · exact canonical_modSlice (canonical_same (canonical_forEach (fun _ _ ht => memKept.modSurf _ _ ht) h) rfl)
        · exact h
      · exact h
    · split
      · split
        · exact canonical_modSlice (canonical_same (canonical_forEach (fun _ _ ht => memKept.modSurf _ _ ht) h) rfl)
        · exact h
      · exact h

theorem canonical_endOwned {i : Nat} (h : Canonical s) : Canonical (endOwned s i) := by
  unfold endOwned
  extract_lets u u1 u2 u3 x x1 x2 u4 u5
  have hu : Canonical u := canonical_forEach (fun _ _ ht => canonical_endContext ht) h
  clear_value u
  have hu1 : Canonical u1 := canonical_forEach (fun _ _ ht => canonical_endSource ht) hu
  clear_value u1
  have hu2 : Canonical u2 := canonical_forEach (fun _ _ ht => canonical_closeSession ht) hu1
  clear_value u2
  have hu3 : Canonical u3 := canonical_modAudio hu2
  clear_value u3
  have hu4 : Canonical u4 := canonical_same hu3 rfl
  clear_value u4
  have hu5 : Canonical u5 := by
    refine canonical_forEach (fun _ _ ht => ?_) hu4
    extract_lets x3 u6 u7
    have hu6 : Canonical u6 := canonical_ite ht (canonical_dropUser ht)
    clear_value u6
    have hu7 : Canonical u7 := canonical_ite (memKept.emit _ hu6) hu6
    clear_value u7
    exact canonical_modHap hu7
  clear_value u5
  exact canonical_forEach (fun _ _ ht => memKept.removeRect _ ht) hu5

theorem canonical_orphanWrites {i : Nat} (h : Canonical s) : Canonical (orphanWrites s i) := canonical_modSlice (canonical_same h rfl)

theorem canonical_releaseOwned {i : Nat} (h : Canonical s) : Canonical (releaseOwned s i) :=
  canonical_forEach (fun _ _ ht => canonical_ite (canonical_freeStorage (canonical_beginRelease (memKept.modSurf _ _ (canonical_orphanRows ht))))
    (canonical_beginRelease (memKept.modSurf _ _ (canonical_orphanRows ht)))) (canonical_same h rfl)

theorem canonical_dropLayers {i : Nat} (h : Canonical s) : Canonical (dropLayers s i) :=
  canonical_forEach (fun _ _ ht => canonical_ite (canonical_modSlot ht) (canonical_setComp (canonical_modSlot ht))) (canonical_same h rfl)

theorem canonical_applyRemovals (h : Canonical s) : Canonical (applyRemovals s) :=
  canonical_forEach (fun _ _ ht => memKept.refreshCause _ _ (canonical_modSlot ht)) (canonical_same h rfl)

theorem canonical_dropPending {i : Nat} (h : Canonical s) : Canonical (dropPending s i) := canonical_same h rfl

theorem canonical_resetSlice {i : Nat} (h : Canonical s) : Canonical (resetSlice s i) :=
  canonical_dropLayers (canonical_releaseOwned (canonical_orphanWrites (canonical_endOwned (canonical_dropPending (canonical_modRings
    (canonical_modSlice (canonical_endWaits h)))))))

theorem canonical_actSliceReset {x : Held} {c : Cmd} (h : Canonical s) : Canonical (actSliceReset s x c) :=
  canonical_finishNow (canonical_setSliceState (canonical_resetSlice h))

theorem yields_execSliceReset {c : Cmd} (h : Canonical s) : Yields (execSliceReset c s) :=
  yields_next (canonical_runPacket (fun _ _ ht => canonical_actSliceReset ht) h)

theorem canonical_cancelShares {i : Nat} (h : Canonical s) : Canonical (cancelShares s i) :=
  canonical_forEach (fun _ _ ht => canonical_finishNow ht) (canonical_forEach (fun _ _ hu => memKept.finishKey _ _ _ _ hu) (canonical_modSlice h))

theorem canonical_actSliceDestroy {x : Held} {c : Cmd} (h : Canonical s) : Canonical (actSliceDestroy s x c) :=
  canonical_finishNow (canonical_setSliceState (canonical_modSlice (canonical_cancelShares (canonical_resetSlice h))))

theorem yields_execSliceDestroy {c : Cmd} (h : Canonical s) : Yields (execSliceDestroy c s) :=
  yields_next (canonical_runPacket (fun _ _ ht => canonical_actSliceDestroy ht) h)

theorem canonical_dropWriteOrphan {j : WriteJob} {aborted : Bool} (h : Canonical s) : Canonical (dropWriteOrphan s j aborted) :=
  canonical_orphanDone (canonical_same h rfl)

theorem canonical_dropOne {due : Nat → Bool} {i : Nat} {aborted : Bool} (h : Canonical s) : Canonical (dropOne due s i aborted) := by
  unfold dropOne
  dsimp only
  split
  · split
    · exact canonical_dropOrphan h
    · exact h
  · exact canonical_dropEncOrphan h
  · exact canonical_dropWriteOrphan h
  · exact h

theorem yields_execOrphanRetired {slice : Nat} (h : Canonical s) : Yields (execOrphanRetired slice s) :=
  yields_next (canonical_ite h (canonical_dropOne h))

theorem yields_execOrphanAbortLimit {slice : Nat} (h : Canonical s) : Yields (execOrphanAbortLimit slice s) :=
  yields_next (canonical_forEach (fun _ _ ht => canonical_dropOne ht) h)

theorem canonical_actThaw {x : Held} {c : Cmd} (h : Canonical s) : Canonical (actThaw s x c) :=
  memKept.finish _ _ _ _ (canonical_setSliceState (canonical_same (canonical_ite (canonical_forEach (fun _ _ ht => memKept.modSession _ _ ht)
    (canonical_forEach (fun _ _ hu => canonical_modCtx hu) h)) h) rfl))

theorem yields_execSliceThaw {c : Cmd} (h : Canonical s) : Yields (execSliceThaw c s) :=
  yields_next (canonical_runPacket (fun _ _ ht => canonical_actThaw ht) h)

theorem canonical_actQuery {x : Held} {c : Cmd} (h : Canonical s) : Canonical (actQuery s x c) := by
  unfold actQuery
  refine canonical_ite (canonical_finishNow h) ?_
  split
  · next heq =>
    have ht := canonical_fst heq (canonical_destWrite h)
    exact canonical_finishNow ht
  · next heq =>
    have ht := canonical_fst heq (canonical_destWrite h)
    exact canonical_finishNow ht

theorem yields_execSliceQuery {c : Cmd} (h : Canonical s) : Yields (execSliceQuery c s) :=
  yields_next (canonical_runPacket (fun _ _ ht => canonical_actQuery ht) h)

end Sys2Proof.Machine
end

section
/-! The memory's canonical form through Sys2Proof/Machine/Migrate. -/
namespace Sys2Proof.Machine
open Sys2Proof

variable {s : State}

theorem canonical_actSliceSave {x : Held} {c : Cmd} (h : Canonical s) : Canonical (actSliceSave s x c) :=
  canonical_defer (canonical_setMigr (canonical_forEach (fun _ _ ht => canonical_queueWork ht)
    (canonical_ite (canonical_forEach (fun _ _ ht => memKept.noteRead _ _ _ ht) h) h)))

theorem yields_execSliceSave {c : Cmd} (h : Canonical s) : Yields (execSliceSave c s) :=
  yields_next (canonical_runPacket (fun _ _ ht => canonical_actSliceSave ht) h)

theorem canonical_endSave {j : SaveJob} {ok : Bool} (h : Canonical s) : Canonical (endSave s j ok) := by
  unfold endSave
  refine canonical_ite (memKept.finishKey _ _ _ _ (canonical_same h rfl)) ?_
  dsimp only
  split
  · next heq =>
    have ht := canonical_fst heq (canonical_destWrite (canonical_modSlice (canonical_same h rfl)))
    exact memKept.finishKey _ _ _ _ (canonical_ite (canonical_undefineDest ht) ht)
  · next heq =>
    have ht := canonical_fst heq (canonical_destWrite (canonical_modSlice (canonical_same h rfl)))
    split
    · rename_i heq
      have hu := canonical_fst heq (canonical_destWrite ht)
      exact memKept.finishKey _ _ _ _ hu
    · rename_i heq
      have hu := canonical_fst heq (canonical_destWrite ht)
      exact memKept.finishKey _ _ _ _ hu

theorem yields_execSliceSaveComplete {c : Cmd} (h : Canonical s) : Yields (execSliceSaveComplete c s) := by
  unfold execSliceSaveComplete
  refine yields_next ?_
  split
  · exact canonical_ite (canonical_endSave h) h
  · exact h

theorem canonical_actSliceRestore {x : Held} {c : Cmd} (h : Canonical s) : Canonical (actSliceRestore s x c) := by
  unfold actSliceRestore
  refine canonical_defer ?_
  refine canonical_setMigr ?_
  split
  · exact canonical_setSliceState h
  · exact h

theorem yields_execSliceRestore {c : Cmd} (h : Canonical s) : Yields (execSliceRestore c s) :=
  yields_next (canonical_runPacket (fun _ _ ht => canonical_actSliceRestore ht) h)

theorem canonical_restoreLayer {i : Nat} {p : Packet} {x : ImgLayer} (h : Canonical s) : Canonical (restoreLayer i p s x) := by
  unfold restoreLayer
  dsimp only
  split
  · exact h
  · exact canonical_ite h (canonical_ite (canonical_modSlot (canonical_modSlot h)) (canonical_ite (canonical_modSlot h) (canonical_setMigr
      (canonical_modSlot h))))

theorem canonical_restoreRect {i : Nat} {p : Packet} {e : Nat × RectCfg} (h : Canonical s) : Canonical (restoreRect i p s e) := by
  unfold restoreRect
  dsimp only
  split
  · exact h
  · exact canonical_ite h (memKept.setRect _ _ _ h)

theorem canonical_clearForRef {i : Nat} {m : Image} (h : Canonical s) : Canonical (clearForRef i m s) := by
  unfold clearForRef
  extract_lets u u1 u2 u3 f x x1 u4
  have hu : Canonical u := canonical_forEach (fun _ _ ht => canonical_endSource ht) h
  clear_value u
  have hu1 : Canonical u1 := by
    refine canonical_forEach (fun _ _ ht => ?_) hu
    refine canonical_ite ?_ (canonical_closeSession ht)
    extract_lets x2 u5 u6 x3
    have hu5 : Canonical u5 := canonical_forEach (fun _ _ hu => canonical_dropUser hu) ht
    clear_value u5
    have hu6 : Canonical u6 := canonical_failRequests hu5
    clear_value u6
    exact canonical_same hu6 rfl
  clear_value u1
  have hu2 : Canonical u2 := canonical_forEach (fun _ _ ht => memKept.removeRect _ ht) hu1
  clear_value u2
  have hu3 : Canonical u3 := canonical_modAudio hu2
  clear_value u3
  have hu4 : Canonical u4 := canonical_same hu3 rfl
  clear_value u4
  refine canonical_forEach (fun _ _ ht => ?_) hu4
  extract_lets u5 x2
  have hu5 : Canonical u5 := canonical_modSlot ht
  clear_value u5
  exact canonical_ite (canonical_modSlot hu5) (canonical_same hu5 rfl)

theorem canonical_keepHeld {i : Nat} (h : Canonical s) : Canonical (keepHeld i s) := canonical_same h rfl

theorem canonical_endRestore {j : RestoreJob} {st : Status} {fields : List Field} (h : Canonical s) : Canonical (endRestore s j st fields) := by
  unfold endRestore
  refine memKept.finishKey _ _ _ _ ?_
  split
  · exact canonical_ite (canonical_setSliceState h) (canonical_setSliceState h)
  · exact h

/-! A restored image (R100). -/

/-- Whatever state a part of an image is applied to has its memory in canonical form. -/
def RestoresTo (r : Restored) : Prop := ∀ t, r = .ok t → Canonical t

theorem restoresTo_ok (h : Canonical s) : RestoresTo (.ok s) := by
  intro t ht
  cases ht
  exact h

theorem restoresTo_error {e : Status × List Field} : RestoresTo (.error e) := by
  intro t ht
  cases ht

theorem restoresTo_ite {c : Prop} [Decidable c] {a b : Restored} (ha : RestoresTo a) (hb : RestoresTo b) : RestoresTo (if c then a else b) :=
  iteInduction (motive := RestoresTo) (fun _ => ha) fun _ => hb

theorem restoresTo_eachTry {α : Type} {f : α → State → Restored} (hf : ∀ a t, Canonical t → RestoresTo (f a t)) {l : List α} (h : Canonical s) :
    RestoresTo (eachTry f l s) := by
  induction l generalizing s with
  | nil => exact restoresTo_ok h
  | cons a r ih =>
    unfold eachTry
    split
    · next heq => exact ih (hf a s h _ heq)
    · exact restoresTo_error

theorem restoresTo_restoreSurf {m : Image} {e : ImgSurf} (h : Canonical s) : RestoresTo (restoreSurf m e s) := by
  unfold restoreSurf
  split
  · exact restoresTo_error
  · refine restoresTo_ite restoresTo_error ?_
    extract_lets surf u store u1
    have hplaced : Canonical u1 := canonical_setStore (memKept.modSurf _ _ h) rfl
    refine restoresTo_ok ?_
    split
    · exact canonical_writeBytes hplaced
    · exact hplaced

theorem restoresTo_restoreSource {i : Nat} {m : Image} {e : Nat × LedgerEntry} (h : Canonical s) : RestoresTo (restoreSource i m e s) := by
  unfold restoreSource
  extract_lets old
  refine restoresTo_ite restoresTo_error ?_
  extract_lets
  refine restoresTo_ite restoresTo_error ?_
  dsimp only
  split
  · exact restoresTo_error
  · next heq => exact restoresTo_ok (canonical_same (canonical_forEach (fun _ _ ht => memKept.modSurf _ _ ht) (canonical_fst heq
      (canonical_attachBuffers h))) rfl)

theorem restoresTo_restoreSession {i : Nat} {e : Nat × Session} (h : Canonical s) : RestoresTo (restoreSession i e s) := by
  unfold restoreSession
  extract_lets up x whole bufs
  have hbufs : Canonical bufs.1 := by
    refine canonical_ite_fst (canonical_pair h) ?_
    split
    · next heq =>
      have hmany := canonical_fst heq (canonical_allocMany h)
      split
      · next heq => exact canonical_pair (canonical_fst heq (canonical_allocBytes hmany))
      · next heq => exact canonical_pair (canonical_fst heq (canonical_allocBytes hmany))
    · next heq => exact canonical_pair (canonical_fst heq (canonical_allocMany h))
  clear_value bufs
  split
  · exact restoresTo_ok (canonical_same (canonical_forEach (fun _ _ ht => canonical_addUser ht) hbufs) rfl)
  · exact restoresTo_error

theorem restoresTo_restoreAud {p : Packet} {e : Nat × AudStream} (h : Canonical s) : RestoresTo (restoreAud p e s) := by
  unfold restoreAud
  split
  · exact restoresTo_ok (canonical_modAud h)
  · exact restoresTo_error

/-- An image that is applied leaves the memory in its form (R100). -/
theorem restoresTo_applyImage {p : Packet} {hd : ImgHead} {m : Image} (h : Canonical s) : RestoresTo (applyImage p hd m s) := by
  unfold applyImage
  extract_lets i busy u
  refine restoresTo_ite restoresTo_error ?_
  clear_value busy
  cases busy with
  | some e => exact restoresTo_error
  | none =>
    dsimp only
    have hu : Canonical u := canonical_ite (canonical_modRings (canonical_modSlice h)) (canonical_modRings (canonical_clearForRef h))
    clear_value u
    split
    · exact restoresTo_error
    · next heq =>
      have hsurfs := restoresTo_eachTry (fun _ _ ht => restoresTo_restoreSurf ht) hu _ heq
      split
      · exact restoresTo_error
      · next heq =>
        have hsources := restoresTo_eachTry (fun _ _ ht => restoresTo_restoreSource ht) hsurfs _ heq
        split
        · exact restoresTo_error
        · next heq =>
          have hsessions := restoresTo_eachTry (fun _ _ ht => restoresTo_restoreSession ht) hsources _ heq
          split
          · exact restoresTo_error
          · next heq =>
            have hauds := restoresTo_eachTry (fun _ _ ht => restoresTo_restoreAud ht) hsessions _ heq
            exact restoresTo_ok (canonical_keepHeld (canonical_foldl (fun _ _ ht => canonical_restoreLayer ht)
              (canonical_foldl (fun _ _ ht => canonical_restoreRect ht) hauds)))

theorem canonical_restoreImage {j : RestoreJob} {p : Packet} {l : List Byte} (h : Canonical s) : Canonical (restoreImage s j p l) := by
  unfold restoreImage
  split
  · exact canonical_endRestore h
  · split
    · refine canonical_endRestore ?_
      split
      · exact canonical_countDiscard h
      · exact h
    · refine canonical_ite (canonical_endRestore h) (canonical_ite (canonical_endRestore h) ?_)
      split
      · next heq => exact canonical_endRestore (restoresTo_applyImage h _ heq)
      · exact canonical_endRestore h

theorem yields_execSliceRestoreComplete {c : Cmd} (h : Canonical s) : Yields (execSliceRestoreComplete c s) := by
  unfold execSliceRestoreComplete
  refine yields_next ?_
  dsimp only
  split
  · split
    · next heq =>
      have ht := canonical_fst heq (canonical_srcRead (canonical_same h rfl))
      exact canonical_endRestore ht
    · next heq =>
      have ht := canonical_fst heq (canonical_srcRead (canonical_same h rfl))
      exact canonical_restoreImage ht
  · exact h

theorem canonical_enterLayer {l : HeldLayer} (h : Canonical s) : Canonical (enterLayer l s) := by
  unfold enterLayer
  refine canonical_ite h ?_
  dsimp only
  exact memKept.refreshCause _ _ (canonical_modSlot h)

theorem canonical_enterLayers (h : Canonical s) : Canonical (enterLayers s) :=
  canonical_forEach (fun _ _ ht => canonical_enterLayer ht) (canonical_same h rfl)

end Sys2Proof.Machine
end

section
/-! The memory's canonical form through Sys2Proof/Machine/Weir. -/
namespace Sys2Proof.Machine
open Sys2Proof

variable {s : State}

theorem canonical_setRule {n : Nat} {r : WeirRule} (h : Canonical s) : Canonical (setRule s n r) := canonical_same h rfl

theorem canonical_ruleImages {x : Held} {c : Cmd} (h : Canonical s) : Canonical (ruleImages s x c).1 := by
  unfold ruleImages
  refine canonical_ite_fst (canonical_pair h) ?_
  split
  · next heq =>
    have ht := canonical_fst heq (canonical_srcRead h)
    exact canonical_pair ht
  · next heq =>
    have ht := canonical_fst heq (canonical_srcRead h)
    exact canonical_pair ht

theorem canonical_actRuleWrite {x : Held} {c : Cmd} (h : Canonical s) : Canonical (actRuleWrite s x c) := by
  unfold actRuleWrite
  dsimp only
  split
  · next heq =>
    have ht := canonical_fst heq (canonical_ruleImages h)
    exact canonical_finishNow ht
  · next heq =>
    have ht := canonical_fst heq (canonical_ruleImages h)
    split
    · exact canonical_finishNow ht
    · exact canonical_finishNow (canonical_foldl (fun _ _ hu => canonical_setRule hu) ht)

theorem canonical_actRuleRead {x : Held} {c : Cmd} (h : Canonical s) : Canonical (actRuleRead s x c) := by
  unfold actRuleRead
  dsimp only
  split
  · next heq =>
    have ht := canonical_fst heq (canonical_destWrite h)
    exact canonical_finishNow ht
  · next heq =>
    have ht := canonical_fst heq (canonical_destWrite h)
    exact canonical_finishNow ht

theorem yields_execWeirRuleSetWrite {c : Cmd} (h : Canonical s) : Yields (execWeirRuleSetWrite c s) :=
  yields_next (canonical_runPacket (fun _ _ ht => canonical_actRuleWrite ht) h)

theorem yields_execWeirRuleSetRead {c : Cmd} (h : Canonical s) : Yields (execWeirRuleSetRead c s) :=
  yields_next (canonical_runPacket (fun _ _ ht => canonical_actRuleRead ht) h)

theorem canonical_actWeirBarrier {x : Held} {c : Cmd} (h : Canonical s) : Canonical (actWeirBarrier s x c) :=
  canonical_ite (canonical_finishNow h) (canonical_holdOn (canonical_same h rfl))

theorem yields_execWeirBarrier {c : Cmd} (h : Canonical s) : Yields (execWeirBarrier c s) :=
  yields_next (canonical_runPacket (fun _ _ ht => canonical_actWeirBarrier ht) h)

theorem canonical_endBarrier {c : Cmd} {st : Status} {aborted : Nat} (h : Canonical s) : Canonical (endBarrier s c st aborted) := by
  unfold endBarrier
  dsimp only
  split
  · exact h
  · exact memKept.finishKey _ _ _ _ (canonical_same h rfl)

theorem yields_execWeirBarrierDrained {c : Cmd} (h : Canonical s) : Yields (execWeirBarrierDrained c s) := yields_next (canonical_endBarrier h)

theorem yields_execWeirBarrierTimeout {c : Cmd} (h : Canonical s) : Yields (execWeirBarrierTimeout c s) := by
  unfold execWeirBarrierTimeout
  refine yields_next ?_
  split
  · exact h
  · exact canonical_ite (canonical_endBarrier h) h

theorem canonical_actViolationRead {x : Held} {c : Cmd} (h : Canonical s) : Canonical (actViolationRead s x c) := by
  unfold actViolationRead
  refine canonical_ite (canonical_finishNow h) ?_
  split
  · next heq =>
    have ht := canonical_fst heq (canonical_destWrite h)
    exact canonical_finishNow ht
  · next heq =>
    have ht := canonical_fst heq (canonical_destWrite h)
    exact canonical_finishNow ht

theorem yields_execWeirViolationRead {c : Cmd} (h : Canonical s) : Yields (execWeirViolationRead c s) :=
  yields_next (canonical_runPacket (fun _ _ ht => canonical_actViolationRead ht) h)

theorem canonical_actViolationClear {x : Held} {c : Cmd} (h : Canonical s) : Canonical (actViolationClear s x c) :=
  canonical_finishNow (canonical_same h rfl)

theorem yields_execWeirViolationClear {c : Cmd} (h : Canonical s) : Yields (execWeirViolationClear c s) :=
  yields_next (canonical_runPacket (fun _ _ ht => canonical_actViolationClear ht) h)

theorem canonical_actWeirLock {x : Held} {c : Cmd} (h : Canonical s) : Canonical (actWeirLock s x c) :=
  canonical_finishNow (canonical_foldl (fun _ _ ht => canonical_setRule ht) h)

theorem yields_execWeirLock {c : Cmd} (h : Canonical s) : Yields (execWeirLock c s) :=
  yields_next (canonical_runPacket (fun _ _ ht => canonical_actWeirLock ht) h)

theorem canonical_actGaugeRead {x : Held} {c : Cmd} (h : Canonical s) : Canonical (actGaugeRead s x c) := by
  unfold actGaugeRead
  dsimp only
  split
  · next heq =>
    have ht := canonical_fst heq (canonical_destWrite h)
    exact canonical_finishNow (canonical_same ht rfl)
  · next heq =>
    have ht := canonical_fst heq (canonical_destWrite h)
    exact canonical_finishNow ht

theorem yields_execGaugeRead {c : Cmd} (h : Canonical s) : Yields (execGaugeRead c s) :=
  yields_next (canonical_runPacket (fun _ _ ht => canonical_actGaugeRead ht) h)

end Sys2Proof.Machine
end

section
/-! The memory's canonical form through Sys2Proof/Machine/Intake. -/
namespace Sys2Proof.Machine
open Sys2Proof

variable {s : State}

/-! What an opcode means in a group or armed (R70, R72). -/

/-- An action that leaves the memory in its form. -/
def ActKeeps (m : Meaning) : Prop := ∀ (t : State) (x : Held) (c : Cmd), Canonical t → Canonical (m.act t x c)

theorem actKeeps_of {op : Nat} {form : Packet → Bool} {check : State → Held → Cmd → Option Fail}
    {act : State → Held → Cmd → State} (h : ∀ (t : State) (x : Held) (c : Cmd), Canonical t → Canonical (act t x c)) :
    ActKeeps ⟨op, form, check, act⟩ := h

theorem actKeeps_meaningsA : ∀ m ∈ meaningsA, ActKeeps m := by
  simp only [meaningsA, List.forall_mem_cons]
  exact ⟨actKeeps_of fun _ _ _ h => canonical_actNop h, actKeeps_of fun _ _ _ h => canonical_actSurfaceAlloc h,
    actKeeps_of fun _ _ _ h => canonical_actSurfaceRead h, actKeeps_of fun _ _ _ h => canonical_actPaletteLoad h,
    actKeeps_of fun _ _ _ h => canonical_actLayerSet h, actKeeps_of fun _ _ _ h => canonical_actLayerClear h,
    actKeeps_of fun _ _ _ h => canonical_actGroupDefine h, actKeeps_of fun _ _ _ h => canonical_actCoeffLoad h,
    actKeeps_of fun _ _ _ h => canonical_actOutputConfigure h, actKeeps_of fun _ _ _ h => canonical_actOutputEnable h,
    actKeeps_of fun _ _ _ h => canonical_actOutputDisable h, actKeeps_of fun _ _ _ h => canonical_actRectOp h,
    actKeeps_of fun _ _ _ h => canonical_actRectOp h, actKeeps_of fun _ _ _ h => canonical_actRectOp h,
    actKeeps_of fun _ _ _ h => canonical_actRectRead h, actKeeps_of fun _ _ _ h => canonical_actSelfRefresh h,
    actKeeps_of fun _ _ _ h => canonical_actBankRehearse h, actKeeps_of fun _ _ _ h => canonical_actBankAssign h, List.forall_mem_nil _⟩

theorem actKeeps_meaningsB : ∀ m ∈ meaningsB, ActKeeps m := by
  simp only [meaningsB, List.forall_mem_cons]
  exact ⟨actKeeps_of fun _ _ _ h => canonical_actSourceAttach h, actKeeps_of fun _ _ _ h => canonical_actSourceDetach h,
    actKeeps_of fun _ _ _ h => canonical_actFlowPort h, actKeeps_of fun _ _ _ h => canonical_actFlowRule h,
    actKeeps_of fun _ _ _ h => canonical_actFlowBind h, actKeeps_of fun _ _ _ h => canonical_actFlowQueue h,
    actKeeps_of fun _ _ _ h => canonical_actFlowTransmit h, actKeeps_of fun _ _ _ h => canonical_actDpin h,
    actKeeps_of fun _ _ _ h => canonical_actDecodeStatus h, actKeeps_of fun _ _ _ h => canonical_actEncodeOpen h,
    actKeeps_of fun _ _ _ h => canonical_actEncodeSetRate h, actKeeps_of fun _ _ _ h => canonical_actKeyPicture h,
    actKeeps_of fun _ _ _ h => canonical_actLivenessSet h, actKeeps_of fun _ _ _ h => canonical_actLedgerRead h,
    actKeeps_of fun _ _ _ h => canonical_actTreatmentAssets h, actKeeps_of fun _ _ _ h => canonical_actRefEntry h,
    actKeeps_of fun _ _ _ h => canonical_actRefOutputs h, actKeeps_of fun _ _ _ h => canonical_actRefStatus h,
    actKeeps_of fun _ _ _ h => canonical_actTiming h, actKeeps_of fun _ _ _ h => canonical_actRealign h,
    actKeeps_of fun _ _ _ h => canonical_actRealign h, actKeeps_of fun _ _ _ h => canonical_actRealignCancel h,
    actKeeps_of fun _ _ _ h => canonical_actPtpPort h, actKeeps_of fun _ _ _ h => canonical_actPtpEvent h,
    actKeeps_of fun _ _ _ h => canonical_actStampRead h, actKeeps_of fun _ _ _ h => canonical_actTimeStep h,
    actKeeps_of fun _ _ _ h => canonical_actTimeRate h, List.forall_mem_nil _⟩

theorem actKeeps_meaningsC : ∀ m ∈ meaningsC, ActKeeps m := by
  simp only [meaningsC, List.forall_mem_cons]
  exact ⟨actKeeps_of fun _ _ _ h => canonical_actFabricStatus h, actKeeps_of fun _ _ _ h => canonical_actRouteSet h,
    actKeeps_of fun _ _ _ h => canonical_actExport h, actKeeps_of fun _ _ _ h => canonical_actImport h,
    actKeeps_of fun _ _ _ h => canonical_actPortEnable h, actKeeps_of fun _ _ _ h => canonical_actPortDisable h,
    actKeeps_of fun _ _ _ h => canonical_actPortReset h, actKeeps_of fun _ _ _ h => canonical_actPortPreset h,
    actKeeps_of fun _ _ _ h => canonical_actKeys h, actKeeps_of fun _ _ _ h => canonical_actTouchPortSet h,
    actKeeps_of fun _ _ _ h => canonical_actHapticPlay h, actKeeps_of fun _ _ _ h => canonical_actAudioOpen h,
    actKeeps_of fun _ _ _ h => canonical_actAudioClose h, actKeeps_of fun _ _ _ h => canonical_actAudioGain h,
    actKeeps_of fun _ _ _ h => canonical_actAudioGlobal h, actKeeps_of fun _ _ _ h => canonical_actTonePlay h,
    actKeeps_of fun _ _ _ h => canonical_actHapticConfigure h, actKeeps_of fun _ _ _ h => canonical_actGaugeSet h,
    actKeeps_of fun _ _ _ h => canonical_actGaugeRead h, actKeeps_of fun _ _ _ h => canonical_actCounters h,
    actKeeps_of fun _ _ _ h => canonical_actFaultRead h, actKeeps_of fun _ _ _ h => canonical_actFaultClear h,
    actKeeps_of fun _ _ _ h => canonical_actRuleWrite h, actKeeps_of fun _ _ _ h => canonical_actRuleRead h,
    actKeeps_of fun _ _ _ h => canonical_actWeirBarrier h, actKeeps_of fun _ _ _ h => canonical_actViolationRead h,
    actKeeps_of fun _ _ _ h => canonical_actViolationClear h, actKeeps_of fun _ _ _ h => canonical_actWeirLock h,
    actKeeps_of fun _ _ _ h => canonical_actSliceCreate h, actKeeps_of fun _ _ _ h => canonical_actBindPasid h,
    actKeeps_of fun _ _ _ h => canonical_actSetShare h, actKeeps_of fun _ _ _ h => canonical_actSliceReset h,
    actKeeps_of fun _ _ _ h => canonical_actSliceDestroy h, actKeeps_of fun _ _ _ h => canonical_actThaw h,
    actKeeps_of fun _ _ _ h => canonical_actQuery h, actKeeps_of fun _ _ _ h => canonical_actFwStage h,
    actKeeps_of fun _ _ _ h => canonical_actFwActivate h, actKeeps_of fun _ _ _ h => canonical_actDeviceReset h,
    actKeeps_of fun _ _ _ h => canonical_actIdentify h, List.forall_mem_nil _⟩

theorem actKeeps_meaningOf {p : Packet} {m : Meaning} (hm : meaningOf p = some m) : ActKeeps m := by
  have hmem := List.mem_of_find?_eq_some hm
  rw [List.mem_append, List.mem_append] at hmem
  obtain (h | h) | h := hmem
  · exact actKeeps_meaningsA m h
  · exact actKeeps_meaningsB m h
  · exact actKeeps_meaningsC m h

theorem canonical_tryGroup {ios : List Cmd} {l : List Held} {t : State} (h : Canonical s) (ht : tryGroup ios l s = .ok t) : Canonical t := by
  induction l generalizing s with
  | nil =>
    cases ht
    exact h
  | cons x r ih =>
    unfold tryGroup at ht
    split at ht
    · cases ht
    · next hm =>
      split at ht
      · cases ht
      · dsimp only at ht
        split at ht
        · cases ht
        · exact ih (actKeeps_meaningOf hm _ _ _ h) ht

theorem canonical_refuseGroup {ms : List Held} {bad : Held} {st : Status} {detail : Nat} (h : Canonical s) :
    Canonical (refuseGroup s ms bad st detail) :=
  canonical_forEach (fun _ _ ht => canonical_ite (memKept.finish _ _ _ _ ht) (canonical_finishNow ht)) h

theorem canonical_runGroup {lead : Held} {ios : List Cmd} (h : Canonical s) : Canonical (runGroup s lead ios) := by
  unfold runGroup
  dsimp only
  split
  · exact canonical_refuseGroup h
  · next heq =>
    exact canonical_ite (canonical_tryGroup h heq) (canonical_ite (canonical_refuseGroup h) (canonical_forEach (fun _ _ ht => canonical_modHeld ht)
      h))

theorem yields_execPacketFetch {slice : Nat} {host : List HostEntry} {errs : List Nat} {ios : List Cmd} (h : Canonical s) :
    Yields (execPacketFetch slice host errs ios s) := by
  unfold execPacketFetch
  refine yields_next ?_
  split
  · exact canonical_ite (canonical_runGroup (canonical_forEach (fun _ _ ht => canonical_hostWriteError ht) h)) (canonical_takeNext (canonical_forEach
      (fun _ _ ht => canonical_hostWriteError ht) h))
  · exact canonical_takeNext (canonical_forEach (fun _ _ ht => canonical_hostWriteError ht) h)

theorem canonical_actArmed {x : Held} {c : Cmd} (h : Canonical s) : Canonical (actArmed x c s) := by
  unfold actArmed
  split
  · next hm => exact actKeeps_meaningOf hm _ _ _ h
  · exact h

theorem canonical_actWhenDue {x : Held} {c : Cmd} (h : Canonical s) : Canonical (actWhenDue x c s) :=
  canonical_ite h (canonical_ite (canonical_actArmed h) (canonical_forEach (fun _ _ ht => canonical_actArmed ht) h))

theorem yields_execArmedCommandActs {c : Cmd} (h : Canonical s) : Yields (execArmedCommandActs c s) := by
  unfold execArmedCommandActs
  refine yields_next ?_
  split
  · exact h
  · exact canonical_actWhenDue h

theorem canonical_runDue {w : Wp} (h : Canonical s) : Canonical (runDue w s) := by
  unfold runDue
  refine canonical_forEach (fun _ _ ht => ?_) h
  split
  · exact canonical_actWhenDue ht
  · exact ht

end Sys2Proof.Machine
end

section
/-! The memory's canonical form through Sys2Proof/Machine/Boundary. -/
namespace Sys2Proof.Machine
open Sys2Proof

variable {s : State}

theorem canonical_lineHappenings (h : Canonical s) : Canonical (lineHappenings s) :=
  canonical_rootMarks (canonical_exportStates (canonical_queueInterrupts (canonical_armRehearsal h)))

theorem yields_execLedgerEvaluation {eccFailed : List Nat} {corrected : Nat} (h : Canonical s) :
    Yields (execLedgerEvaluation eccFailed corrected s) :=
  yields_next (canonical_ite h (canonical_lineHappenings (canonical_startLine (canonical_endLine (canonical_forEach (fun _ _ ht =>
    canonical_ledgerEcc ht) (canonical_same h rfl))))))

theorem canonical_takeTiming {b base : Nat} {t : WallTiming} (h : Canonical s) : Canonical (takeTiming b base t s) :=
  canonical_audioRebase (canonical_forEach (fun _ _ ht => memKept.emit _ (memKept.refreshCause _ _ ht)) (canonical_same (canonical_rebaseClocks
    (canonical_endSlew h)) rfl))

theorem canonical_applyTimings (h : Canonical s) : Canonical (applyTimings s) := by
  unfold applyTimings
  refine canonical_forEach (fun _ _ ht => ?_) (canonical_same h rfl)
  dsimp only
  split
  · refine memKept.finishKey _ _ _ _ ?_
    split
    · exact canonical_takeTiming (canonical_same ht rfl)
    · exact canonical_takeTiming ht
  · split
    · exact canonical_takeTiming (canonical_same ht rfl)
    · exact canonical_takeTiming ht

theorem canonical_moveWp {d : Int} (h : Canonical s) : Canonical (moveWp s d) :=
  canonical_forEach (fun _ _ ht => memKept.refreshCause _ _ ht) (canonical_audioJump (canonical_restartClocks (canonical_movePhases (canonical_same
    (canonical_rebaseClocks h) rfl))))

theorem canonical_startSlew {r : Realign} {d : Int} (h : Canonical s) : Canonical (startSlew r d s) := by
  unfold startSlew
  dsimp only
  split
  · exact canonical_defer (canonical_ite (canonical_announce (canonical_same (canonical_rebaseClocks h) rfl)) (canonical_same (canonical_rebaseClocks
      h) rfl))
  · exact canonical_ite (canonical_announce (canonical_same (canonical_rebaseClocks h) rfl)) (canonical_same (canonical_rebaseClocks h) rfl)

theorem canonical_doJump {r : Realign} {d : Int} (h : Canonical s) : Canonical (doJump r d s) := by
  unfold doJump
  dsimp only
  split
  · exact memKept.finishKey _ _ _ _ (canonical_moveWp (canonical_ite (canonical_announce h) h))
  · exact canonical_moveWp (canonical_ite (canonical_announce h) h)

theorem canonical_actAtBoundary {r : Realign} (h : Canonical s) : Canonical (actAtBoundary r s) := by
  unfold actAtBoundary
  dsimp only
  split
  · split
    · exact memKept.finishKey _ _ _ _ h
    · exact h
  · refine canonical_ite ?_ (canonical_ite (canonical_startSlew h) (canonical_doJump h))
    refine canonical_ite ?_ ?_
    · split
      · exact memKept.finishKey _ _ _ _ h
      · exact h
    · split
      · exact memKept.finishKey _ _ _ _ (canonical_endSlew h)
      · exact canonical_endSlew h

theorem canonical_applyRealigns (h : Canonical s) : Canonical (applyRealigns s) := by
  unfold applyRealigns
  extract_lets due l x u
  have hu : Canonical u := canonical_forEach (fun _ _ ht => canonical_actAtBoundary ht) (canonical_setTime h)
  clear_value u
  split
  · exact hu
  · exact canonical_retree (canonical_setFabric (canonical_modTod (canonical_moveWp hu)))

theorem canonical_postUnderflow {o : Nat} (h : Canonical s) : Canonical (postUnderflow o s) :=
  canonical_ite h (memKept.postEvent _ _ (canonical_modOut h))

theorem canonical_frameEvents (h : Canonical s) : Canonical (frameEvents s) :=
  canonical_flushAllLiveness (canonical_postFlowEvents (canonical_postDecodeEvents (canonical_postRects (canonical_postMismatches (canonical_forEach
    (fun _ _ ht => canonical_postUnderflow ht) h)))))

theorem canonical_applyChanges (h : Canonical s) : Canonical (applyChanges s) :=
  canonical_enterLayers (canonical_applyRecords (canonical_applyClears (canonical_applyGroups (canonical_applyRemovals (canonical_applyLeft h)))))

theorem canonical_applyLayers (h : Canonical s) : Canonical (applyLayers s) := by
  unfold applyLayers
  exact canonical_ite (canonical_applyChanges h) (canonical_applyShedding (canonical_applyChanges h))

theorem canonical_applyScheduled (h : Canonical s) : Canonical (applyScheduled s) :=
  canonical_replyRectOps (canonical_applyShares (canonical_applyAssets h))

theorem canonical_applyOthers (h : Canonical s) : Canonical (applyOthers s) := by
  unfold applyOthers
  exact canonical_checkMis (canonical_relatchAll (canonical_countClean (canonical_applyRefOuts (canonical_applyScheduled (canonical_same h rfl)))))

theorem canonical_runSkipped {f : Nat} (h : Canonical s) : Canonical (runSkipped f s) := by
  unfold runSkipped
  extract_lets x u u1 x1
  have hu : Canonical u := canonical_runDue (canonical_same h rfl)
  clear_value u
  have hu1 : Canonical u1 := canonical_applyScheduled (canonical_applyChanges (canonical_applyCoeffs (canonical_applyTimings hu)))
  clear_value u1
  exact canonical_same hu1 rfl

theorem canonical_newAllowances (h : Canonical s) : Canonical (newAllowances s) := canonical_grantCredits (canonical_same h rfl)

theorem yields_execWallFrameBoundary (h : Canonical s) : Yields (execWallFrameBoundary s) := by
  unfold execWallFrameBoundary
  refine yields_next ?_
  refine canonical_ite h ?_
  extract_lets old u x u1 x1 u2 u3
  have hu : Canonical u := canonical_runDue h
  clear_value u
  have hu1 : Canonical u1 := canonical_applyRealigns (canonical_applyTimings (canonical_same hu rfl))
  clear_value u1
  have hu2 : Canonical u2 := canonical_same hu1 rfl
  clear_value u2
  have hu3 : Canonical u3 := canonical_ite (canonical_runDue (canonical_forEach (fun _ _ ht => canonical_runSkipped ht) hu2)) hu2
  clear_value u3
  exact canonical_freeEntries (canonical_captureSurfaces (canonical_newAllowances (canonical_frameEvents (canonical_applyOthers
    (canonical_applyLayers (canonical_applyCoeffs hu3))))))

end Sys2Proof.Machine
end

section
/-! Every step keeps the memory's canonical form. -/
namespace Sys2Proof.Machine
open Sys2Proof

/-- Whatever row is run, the state it goes on with has its memory in canonical form. -/
theorem yields_exec {s : State} (i : Instr) (h : Canonical s) : Yields (exec i s) := by
  cases i with
  | powerInputInRange => exact yields_execPowerInputInRange h
  | powerInputFall => exact yields_execPowerInputFall h
  | rstNAssert => exact yields_execRstNAssert h
  | perstNAssert => exact yields_execPerstNAssert h
  | perstNRelease => exact yields_execPerstNRelease h
  | pcieHotReset => exact yields_execPcieHotReset h
  | pcieLinkUp => exact yields_execPcieLinkUp h
  | lockedClocksRelease => exact yields_execLockedClocksRelease h
  | bootRomVerifyComplete => exact yields_execBootRomVerifyComplete h
  | storeTrainingComplete => exact yields_execStoreTrainingComplete h
  | startupZeroFillComplete => exact yields_execStartupZeroFillComplete h
  | deviceReady => exact yields_execDeviceReady h
  | trialBootTimeout => exact yields_execTrialBootTimeout h
  | lockkeeperWatchdogExpiry => exact yields_execLockkeeperWatchdogExpiry h
  | lockkeeperRestartComplete => exact yields_execLockkeeperRestartComplete h
  | railOutOfTolerance rail => exact yields_execRailOutOfTolerance (_rail := rail) h
  | lockkeeperMemoryEcc => exact yields_execLockkeeperMemoryEcc h
  | thermalSensorCrossing => exact yields_execThermalSensorCrossing h
  | thermalTrip => exact yields_execThermalTrip h
  | deviceResetDelayExpiry => exact yields_execDeviceResetDelayExpiry h
  | fwActivateRestartDelay => exact yields_execFwActivateRestartDelay h
  | sqTailDoorbell => exact yields_execSqTailDoorbell h
  | ringEnableWrite => exact yields_execRingEnableWrite h
  | ringErrorClear => exact yields_execRingErrorClear h
  | rqHeadWrite => exact yields_execRqHeadWrite h
  | eqHeadWrite => exact yields_execEqHeadWrite h
  | packetFetch => exact yields_execPacketFetch h
  | interruptHoldoffExpiry => exact yields_execInterruptHoldoffExpiry h
  | armedCommandActs => exact yields_execArmedCommandActs h
  | nop => exact yields_execNop h
  | surfaceAlloc => exact yields_execSurfaceAlloc h
  | surfaceRelease => exact yields_execSurfaceRelease h
  | surfaceReleaseComplete => exact yields_execSurfaceReleaseComplete h
  | surfaceWrite => exact yields_execSurfaceWrite h
  | surfaceRead => exact yields_execSurfaceRead h
  | surfaceFence => exact yields_execSurfaceFence h
  | surfaceFenceMet => exact yields_execSurfaceFenceMet h
  | surfaceFenceTimeout => exact yields_execSurfaceFenceTimeout h
  | paletteLoad => exact yields_execPaletteLoad h
  | layerSet => exact yields_execLayerSet h
  | layerClear => exact yields_execLayerClear h
  | commit => exact yields_execCommit h
  | commitGroupDefine => exact yields_execCommitGroupDefine h
  | coeffLoad => exact yields_execCoeffLoad h
  | bankAssign => exact yields_execBankAssign h
  | outputConfigure => exact yields_execOutputConfigure h
  | outputEnable => exact yields_execOutputEnable h
  | outputEnableStart => exact yields_execOutputEnableStart h
  | outputEnableTimeout => exact yields_execOutputEnableTimeout h
  | outputDisable => exact yields_execOutputDisable h
  | outputDisableAct => exact yields_execOutputDisableAct h
  | rectCheckSetSet => exact yields_execRectCheckSetSet h
  | rectCheckSetRemove => exact yields_execRectCheckSetRemove h
  | rectCheckSetRearm => exact yields_execRectCheckSetRearm h
  | rectCheckSetRead => exact yields_execRectCheckSetRead h
  | selfRefreshRequest => exact yields_execSelfRefreshRequest h
  | bankRehearse => exact yields_execBankRehearse h
  | bankRehearseEnd => exact yields_execBankRehearseEnd h
  | sourceAttach => exact yields_execSourceAttach h
  | sourceDetach => exact yields_execSourceDetach h
  | flowSetPort => exact yields_execFlowSetPort h
  | flowSetRule => exact yields_execFlowSetRule h
  | flowSetBind => exact yields_execFlowSetBind h
  | flowSetQueue => exact yields_execFlowSetQueue h
  | flowSetTransmit => exact yields_execFlowSetTransmit h
  | dpinConfigure => exact yields_execDpinConfigure h
  | decodeStatus => exact yields_execDecodeStatus h
  | encodeOpen => exact yields_execEncodeOpen h
  | encodeSetRate => exact yields_execEncodeSetRate h
  | keyPicture => exact yields_execKeyPicture h
  | encodeClose => exact yields_execEncodeClose h
  | encodeCloseComplete => exact yields_execEncodeCloseComplete h
  | livenessSet => exact yields_execLivenessSet h
  | heartbeat => exact yields_execHeartbeat h
  | ledgerRead => exact yields_execLedgerRead h
  | treatmentAssets => exact yields_execTreatmentAssets h
  | refTableSetEntry => exact yields_execRefTableSetEntry h
  | refTableSetOutputs => exact yields_execRefTableSetOutputs h
  | refStatus => exact yields_execRefStatus h
  | wallTimingSet => exact yields_execWallTimingSet h
  | realignJump => exact yields_execRealignJump h
  | realignSlew => exact yields_execRealignSlew h
  | realignCancel => exact yields_execRealignCancel h
  | realignSlewComplete => exact yields_execRealignSlewComplete h
  | ptpPortSetPort => exact yields_execPtpPortSetPort h
  | ptpPortSetEvent => exact yields_execPtpPortSetEvent h
  | eventStampRead => exact yields_execEventStampRead h
  | timeStep => exact yields_execTimeStep h
  | timeRateAdjust => exact yields_execTimeRateAdjust h
  | fabricStatus => exact yields_execFabricStatus h
  | fabricRouteSet => exact yields_execFabricRouteSet h
  | fabricExport => exact yields_execFabricExport h
  | fabricImport => exact yields_execFabricImport h
  | laneEyeScan => exact yields_execLaneEyeScan h
  | laneEyeScanComplete => exact yields_execLaneEyeScanComplete h
  | portControlEnable => exact yields_execPortControlEnable h
  | portControlDisable => exact yields_execPortControlDisable h
  | portControlReset => exact yields_execPortControlReset h
  | portControlPreset => exact yields_execPortControlPreset h
  | keysConfigure => exact yields_execKeysConfigure h
  | keySelftest => exact yields_execKeySelftest h
  | keySelftestComplete => exact yields_execKeySelftestComplete h
  | touchPortSet => exact yields_execTouchPortSet h
  | hapticConfigure => exact yields_execHapticConfigure h
  | hapticPlay => exact yields_execHapticPlay h
  | audioStreamSetOpen => exact yields_execAudioStreamSetOpen h
  | audioStreamSetClose => exact yields_execAudioStreamSetClose h
  | audioStreamSetGain => exact yields_execAudioStreamSetGain h
  | audioStreamSetGlobal => exact yields_execAudioStreamSetGlobal h
  | tonePlay => exact yields_execTonePlay h
  | gaugeSet => exact yields_execGaugeSet h
  | gaugeRead => exact yields_execGaugeRead h
  | countersRead => exact yields_execCountersRead h
  | faultRead => exact yields_execFaultRead h
  | faultClear => exact yields_execFaultClear h
  | weirRuleSetWrite => exact yields_execWeirRuleSetWrite h
  | weirRuleSetRead => exact yields_execWeirRuleSetRead h
  | weirBarrier => exact yields_execWeirBarrier h
  | weirBarrierDrained => exact yields_execWeirBarrierDrained h
  | weirBarrierTimeout => exact yields_execWeirBarrierTimeout h
  | weirViolationRead => exact yields_execWeirViolationRead h
  | weirViolationClear => exact yields_execWeirViolationClear h
  | weirLock => exact yields_execWeirLock h
  | sliceCreate => exact yields_execSliceCreate h
  | sliceBindPasid => exact yields_execSliceBindPasid h
  | sliceSetShare => exact yields_execSliceSetShare h
  | sliceQuiesce => exact yields_execSliceQuiesce h
  | sliceQuiesced => exact yields_execSliceQuiesced h
  | sliceFreeze => exact yields_execSliceFreeze h
  | sliceFrozen => exact yields_execSliceFrozen h
  | sliceWaitTimeout => exact yields_execSliceWaitTimeout h
  | sliceReset => exact yields_execSliceReset h
  | sliceDestroy => exact yields_execSliceDestroy h
  | sliceSave => exact yields_execSliceSave h
  | sliceSaveComplete => exact yields_execSliceSaveComplete h
  | sliceRestore => exact yields_execSliceRestore h
  | sliceRestoreComplete => exact yields_execSliceRestoreComplete h
  | sliceThaw => exact yields_execSliceThaw h
  | sliceQuery => exact yields_execSliceQuery h
  | orphanRetired => exact yields_execOrphanRetired h
  | orphanAbortLimit => exact yields_execOrphanAbortLimit h
  | fwStage => exact yields_execFwStage h
  | fwVerify => exact yields_execFwVerify h
  | fwVerifyComplete => exact yields_execFwVerifyComplete h
  | fwActivate => exact yields_execFwActivate h
  | deviceReset => exact yields_execDeviceReset h
  | engineReinit => exact yields_execEngineReinit h
  | engineSelfCheckComplete => exact yields_execEngineSelfCheckComplete h
  | identify => exact yields_execIdentify h
  | ledgerEvaluation => exact yields_execLedgerEvaluation h
  | wallFrameBoundary => exact yields_execWallFrameBoundary h
  | groupHoldExpiry => exact yields_execGroupHoldExpiry h
  | outputFrameStart => exact yields_execOutputFrameStart h
  | outputLineStart => exact yields_execOutputLineStart h
  | rectEvaluate => exact yields_execRectEvaluate h
  | hpdRise => exact yields_execHpdRise h
  | irqHpd => exact yields_execIrqHpd h
  | hpdFall => exact yields_execHpdFall h
  | linkTrainingEnd => exact yields_execLinkTrainingEnd h
  | linkRetryTimer => exact yields_execLinkRetryTimer h
  | bankPipeWatchdog => exact yields_execBankPipeWatchdog h
  | bankStoreEccFault => exact yields_execBankStoreEccFault h
  | takeoverArmed => exact yields_execTakeoverArmed h
  | bankSelfCheckEnd => exact yields_execBankSelfCheckEnd h
  | bankHoldoffExpiry => exact yields_execBankHoldoffExpiry h
  | reservoirRequestServed => exact yields_execReservoirRequestServed h
  | patrolScrub => exact yields_execPatrolScrub h
  | zeroFillComplete => exact yields_execZeroFillComplete h
  | writerPassStart => exact yields_execWriterPassStart h
  | writerLineComplete => exact yields_execWriterLineComplete h
  | lineLedgerRebuilt => exact yields_execLineLedgerRebuilt h
  | sluiceLaneTakeWork => exact yields_execSluiceLaneTakeWork h
  | sluiceRowComplete => exact yields_execSluiceRowComplete h
  | decodeContextSchedule => exact yields_execDecodeContextSchedule h
  | decodeCtuRowDone => exact yields_execDecodeCtuRowDone h
  | decodeCoreIdleTimer => exact yields_execDecodeCoreIdleTimer h
  | reservoirIdleTimer => exact yields_execReservoirIdleTimer h
  | encodeCoreSchedule => exact yields_execEncodeCoreSchedule h
  | encodeCtuRowCoded => exact yields_execEncodeCtuRowCoded h
  | ethFrameReceived => exact yields_execEthFrameReceived h
  | reorderHoldTimeout => exact yields_execReorderHoldTimeout h
  | rxTailDoorbell => exact yields_execRxTailDoorbell h
  | txTailDoorbell => exact yields_execTxTailDoorbell h
  | ethFrameTransmit => exact yields_execEthFrameTransmit h
  | rtpTransmitUnit => exact yields_execRtpTransmitUnit h
  | dpinHpdPulseEnd => exact yields_execDpinHpdPulseEnd h
  | dpinTrainingStart => exact yields_execDpinTrainingStart h
  | dpinTrainingEnd => exact yields_execDpinTrainingEnd h
  | dpinVideoChange => exact yields_execDpinVideoChange h
  | dpinFrameStart => exact yields_execDpinFrameStart h
  | dpinActiveLine => exact yields_execDpinActiveLine h
  | dpinLockLoss => exact yields_execDpinLockLoss h
  | dpinSymbolError => exact yields_execDpinSymbolError h
  | refMeasurementIntervalEnd => exact yields_execRefMeasurementIntervalEnd h
  | refLossCondition => exact yields_execRefLossCondition h
  | refQualifyTimer => exact yields_execRefQualifyTimer h
  | refDisqualifyTimer => exact yields_execRefDisqualifyTimer h
  | dpllLockComplete => exact yields_execDpllLockComplete h
  | historySecondTick => exact yields_execHistorySecondTick h
  | refoutPulse => exact yields_execRefoutPulse h
  | ptpDelayReqSend => exact yields_execPtpDelayReqSend h
  | ptpSyncTimeout => exact yields_execPtpSyncTimeout h
  | ptpAnnounceTimeout => exact yields_execPtpAnnounceTimeout h
  | ptpLockHoldLapse => exact yields_execPtpLockHoldLapse h
  | eventInputEdge => exact yields_execEventInputEdge h
  | todenHelloSend => exact yields_execTodenHelloSend h
  | todenHelloReceived => exact yields_execTodenHelloReceived h
  | todenHelloSilence => exact yields_execTodenHelloSilence h
  | todenLockLoss => exact yields_execTodenLockLoss h
  | todenTrainingPhaseComplete => exact yields_execTodenTrainingPhaseComplete h
  | todenPhaseTimeout => exact yields_execTodenPhaseTimeout h
  | todenBackoffExpiry => exact yields_execTodenBackoffExpiry h
  | todenMarkReceived => exact yields_execTodenMarkReceived h
  | todenEpochReceived => exact yields_execTodenEpochReceived h
  | delayMeasureSend => exact yields_execDelayMeasureSend h
  | delayMeasureRequest => exact yields_execDelayMeasureRequest h
  | delayMeasureResponse => exact yields_execDelayMeasureResponse h
  | controlMessage => exact yields_execControlMessage h
  | framePacket => exact yields_execFramePacket h
  | linePacket => exact yields_execLinePacket h
  | importLineComplete => exact yields_execImportLineComplete h
  | statePacket => exact yields_execStatePacket h
  | streamPacket => exact yields_execStreamPacket h
  | transitRingFree => exact yields_execTransitRingFree h
  | remoteWrite => exact yields_execRemoteWrite h
  | remoteRead => exact yields_execRemoteRead h
  | remoteData => exact yields_execRemoteData h
  | interruptPacket => exact yields_execInterruptPacket h
  | headlessDetect => exact yields_execHeadlessDetect h
  | remoteClaimLost => exact yields_execRemoteClaimLost h
  | keyScan => exact yields_execKeyScan h
  | keyMaxOnExpiry => exact yields_execKeyMaxOnExpiry h
  | touchAttnEdge => exact yields_execTouchAttnEdge h
  | touchReportRead => exact yields_execTouchReportRead h
  | touchReadTimeout => exact yields_execTouchReadTimeout h
  | touchAttnIdleTimeout => exact yields_execTouchAttnIdleTimeout h
  | hapticDrivePeriod => exact yields_execHapticDrivePeriod h
  | hapticFault => exact yields_execHapticFault h
  | audioSample host => exact yields_execAudioSample (host := host) h
  | audioProducedPoll => exact yields_execAudioProducedPoll h
  | fabricWindowAccess => exact yields_execFabricWindowAccess h
  | fabricWindowReadTimeout => exact yields_execFabricWindowReadTimeout h
  | fwinTimeoutClear => exact yields_execFwinTimeoutClear h
  | firqPop => exact yields_execFirqPop h
  | resetReqWrite => exact yields_execResetReqWrite h
  | bar2ApertureAccess => exact yields_execBar2ApertureAccess h
  | gaugeLastRead => exact yields_execGaugeLastRead h
  | registerLowerHalfRead => exact yields_execRegisterLowerHalfRead h
  | registerWrite => exact yields_execRegisterWrite h
  | debugAccess => exact yields_execDebugAccess h
  | smbStatus => exact yields_execSmbStatus h
  | smbIdent => exact yields_execSmbIdent h
  | smbTemp => exact yields_execSmbTemp h
  | smbSensors => exact yields_execSmbSensors h
  | smbVin => exact yields_execSmbVin h
  | smbIin => exact yields_execSmbIin h
  | smbPin => exact yields_execSmbPin h
  | smbFaultCount => exact yields_execSmbFaultCount h
  | smbFaultIndex => exact yields_execSmbFaultIndex h
  | smbFaultRecord => exact yields_execSmbFaultRecord h
  | smbFaultNewest => exact yields_execSmbFaultNewest h
  | smbReset => exact yields_execSmbReset h
  | smbAlertResponse => exact yields_execSmbAlertResponse h
  | rstNRelease => exact yields_execRstNRelease h
  | heldResetRelease => exact yields_execHeldResetRelease h
  | ethernetLinkChange => exact yields_execEthernetLinkChange h
  | dpinLockRegained => exact yields_execDpinLockRegained h
  | creditBlockReceived => exact yields_execCreditBlockReceived h
  | holdoffSelfCheckError => exact yields_execHoldoffSelfCheckError h
  | msixVectorUnmask => exact yields_execMsixVectorUnmask h
  | dbgKillFuseWrite => exact yields_execDbgKillFuseWrite h
  | pcieLoopbackEntry => exact yields_execPcieLoopbackEntry h
  | pcieLoopbackExit => exact yields_execPcieLoopbackExit h

/-- Settles O58: what a step runs is the row in front or the passing of time, and each keeps the memory canonical. -/
theorem everyStepKeepsMemoryCanonical : Obligations.EveryStepKeepsMemoryCanonical := by
  unfold Obligations.EveryStepKeepsMemoryCanonical
  intro s t hs hstep
  have h : Canonical s := ⟨hs⟩
  refine Canonical.wf ?_
  unfold step at hstep
  split at hstep
  · exact yields_next (canonical_idle h) t hstep
  · exact yields_exec _ (canonical_setPending h) t hstep

end Sys2Proof.Machine
end
